-- ==== Sys2Proof/Word.lean ====
section
/-!
DEFINITION. The word types of the block: bytes, 32-bit register words, wider fields (spec/00_scope.md R13).
-/

namespace Sys2Proof

/-- One byte. -/
abbrev Byte := BitVec 8

/-- A register word (R588: every register is one 32-bit word, accessed whole). -/
abbrev Word := BitVec 32

/-- A 64-bit field: times, values of Marks, addresses carried in packets. -/
abbrev Word64 := BitVec 64

/-- A byte string, byte 0 first. -/
abbrev Bytes := List Byte

end Sys2Proof
end

