-- ==== Sys2Proof/Machine/Types/Base.lean ====
section
/-!
DEFINITION. The shared data types: an accepted XS command (spec/16_command_interface.md R473), its completion record
(R481), event and alarm records (R488, R524), and what leaves the block at its ports (spec/03_ports.md).
-/

namespace Sys2Proof.Machine

/-- The four reset levels of R17. -/
inductive Level where
  | p | s | c | u
  deriving DecidableEq, Repr

/-- An XS command the block has accepted: the header fields of R473 that the command keeps, and the Stall resolved at
acceptance (R475). [DEDUCED: notes/assumptions/8.md] -/
structure Call where
  /-- Host function number of the issuing stream (cmd_fn). -/
  fn : Nat
  /-- Host command stream index (cmd_qid). -/
  qid : Nat
  /-- The issuing Stall, resolved at acceptance. -/
  stall : Nat
  /-- OPCODE. -/
  opcode : Nat
  /-- TAG, returned in the record. -/
  tag : Nat
  /-- COMP_ADDR, 0 for none. -/
  comp : Nat
  /-- FLAGS [0] TICK. -/
  tick : Bool
  /-- FLAGS [1] FENCE. -/
  fence : Bool
  /-- FLAGS [2] IRQ. -/
  irq : Bool
  /-- SIG_MARK, 0xFFFF for none. -/
  sigMark : Nat
  /-- SIG_VALUE. -/
  sigValue : Nat
  /-- WAIT_MARK, 0xFFFF for none. -/
  waitMark : Nat
  /-- WAIT_VALUE. -/
  waitValue : Nat
  /-- The command came through the direct window (R484). -/
  window : Bool
  /-- The command was deferred at a boundary (R477). -/
  deferred : Bool
  /-- The command ran at a tick boundary (R481 FLAGS [3]). -/
  ticked : Bool
  deriving DecidableEq, Repr

/-- A completion record before its layout (R481): RESULT is at most 20 bytes. -/
structure Completion where
  call : Call
  status : Nat
  detail : Nat
  tagOk : Bool
  doNotTrust : Bool
  result : Bytes
  deriving DecidableEq, Repr

/-- One answer to a read of a buffer a command names (R480): the bytes, or an access answered other than OK. -/
inductive BufRead where
  | ok (bytes : Bytes)
  | failed
  deriving DecidableEq, Repr

/-- What memory answered while a Booth operation ran: its source, its AAD and its tag as read; the source bytes read before a failure; the
bytes written before a destination write failed, none where every write was answered OK. -/
structure BoothIo where
  src : BufRead
  aad : BufRead
  tag : BufRead
  part : Bytes
  failedAt : Option Nat
  deriving DecidableEq, Repr

/-- An event as a unit raises it (R488). -/
structure Event where
  code : Nat
  unit : Nat
  /-- The Stall concerned, none for 0xFFFF. -/
  stall : Option Nat
  time : Nat
  unanchored : Bool
  arg0 : Nat
  arg1 : Nat
  deriving DecidableEq, Repr

/-- An entry of the alarm log (R524). -/
structure AlarmEntry where
  code : Nat
  unit : Nat
  stall : Option Nat
  time : Nat
  unanchored : Bool
  /-- CAUSE of R522. -/
  cause : Nat
  /-- The cause word of R522. -/
  word : Nat
  /-- REPEAT: occurrences coalesced into the entry. -/
  count : Nat
  /-- Elapsed time of the entry's first occurrence. -/
  firstAt : Nat
  /-- Helm has copied the entry (R525). -/
  copied : Bool
  deriving DecidableEq, Repr

/-- Status on msN_hd, msN_hb and lsN_hr (R60). -/
inductive PortStatus where
  | ok | refused | integrity | poison
  deriving DecidableEq, Repr

/-- What leaves the block at its ports as a transfer or a pulse, in the order it leaves. Levels (alarms, halts, readies,
interrupts) are functions of the state, not transfers. -/
inductive Out where
  /-- A write on cmd_cw (R74): address, Stall, 32 bytes. -/
  | cw (addr stall : Nat) (data : Bytes)
  /-- A read response on msN_hd (R59). -/
  | hd (mse lane id : Nat) (st : PortStatus) (data : Bytes)
  /-- A write response on msN_hb (R59). -/
  | hb (mse lane id : Nat) (st : PortStatus)
  /-- A memory-side read on msN_mr (R64): sealed sector index, MSE transaction ID. -/
  | mr (mse lane sector id : Nat) (co : Bool)
  /-- A memory-side write on msN_mw (R64). -/
  | mw (mse lane sector id : Nat) (co : Bool) (data : Bytes) (sb : Nat)
  /-- A request or response on lsN_hr (R69). -/
  | hr (lse kind src tc addr id : Nat) (st : PortStatus) (tstall : Nat) (data : Bytes)
  /-- A sealed unit on lsN_lt (R70). -/
  | lt (lse : Nat) (unit : Bytes)
  /-- A TLP or flit on hsN_tl: `sealed` when it goes in its IDE stream. -/
  | tl (hse : Nat) (secured : Bool) (data : Bytes)
  /-- A TLP or flit on hsN_rt. -/
  | rt (hse : Nat) (data : Bytes)
  /-- part_done_valid with its index (R79). -/
  | partDone (unit : Nat)
  /-- A fuse read request (R82). -/
  | fuseRd (word : Nat)
  /-- A fuse program request (R82). -/
  | fusePgm (word bit : Nat)
  /-- A program of NVM bytes at a device offset (R147). -/
  | nvmWrite (offset : Nat) (data : Bytes)
  /-- A 4 KiB sector erase of the NVM device. -/
  | nvmErase (sector : Nat)
  /-- A write Helm makes on the internal path as a Stall (R480). -/
  | memWrite (stall addr : Nat) (data : Bytes)
  /-- A read Helm or a unit asks for on the internal path. -/
  | memRead (stall addr len : Nat)
  /-- The answer to a register access (R77): reg_resp and reg_rdata. -/
  | reg (denied : Bool) (data : Word)
  /-- Data shifted out of the TAP (R511). -/
  | tap (data : Bytes)
  deriving DecidableEq, Repr

end Sys2Proof.Machine
end

