-- ==== Sys2Proof/Machine/Types/Config.lean ====
section
/-!
DEFINITION. The build parameters (spec/00_scope.md R6) and the configuration an Almanac image carries (spec/06_almanac_bringup.md
R155 to R159, spec/13_stalls.md R395, spec/18_faults_alarms_recovery.md R528, spec/21_register_map.md R593,
spec/20_steelyard.md R573).
-/

namespace Sys2Proof.Machine

/-- The parameters of a build (R6), fixed in the netlist: no command writes them (R47). -/
structure Build where
  mseCount : Nat
  lseCount : Nat
  hseCount : Nat
  tagSb : Bool
  tagCo : Bool
  sty : Bool
  tol : Bool
  xck : Bool
  x2 : Bool
  variantL : Bool
  /-- SPINE_STAGES of every tile (R43), 0 to 2. -/
  spineStages : Nat
  /-- dbg_mfr[10:0], the integrator's tie-off (R88). -/
  dbgMfr : Nat
  deriving DecidableEq, Repr

/-- CLOCK_RESET (R156). -/
structure ClockCfg where
  tFreq : Nat
  tIdle : Nat
  tStop : Nat
  tPart : Nat
  tWdog : Nat
  deriving DecidableEq, Repr

/-- TICK_EPOCH (R155). -/
structure EpochCfg where
  n : Nat
  wLocal : Nat
  wPool : Nat
  boundLocal : Nat
  boundPool : Nat
  deriving DecidableEq, Repr

/-- One pool window of the Chart (R157). -/
structure PoolWindow where
  /-- First region, sealed address [53:22]. -/
  base : Nat
  /-- Size in regions. -/
  size : Nat
  /-- The logical MSE that carries the window. -/
  mse : Nat
  deriving DecidableEq, Repr

/-- CHART (R157). -/
structure ChartCfg where
  localLimit : Nat
  hashSeed : Nat
  harbourBase : Nat
  harbourCount : Nat
  mseMap : List Nat
  lseMap : List Nat
  pools : List PoolWindow
  deriving DecidableEq, Repr

/-- One partition of PARTITION (R158). -/
structure PartCfg where
  index : Nat
  /-- The 256-bit set of cmd_qid values. -/
  qids : Nat
  /-- Function number ranges, both ends included. -/
  fns : List (Nat × Nat)
  deriving DecidableEq, Repr

/-- One entry of REG_AUTH (R593). -/
structure AuthEntry where
  fn : Nat
  mask : Nat
  read : Nat
  write : Nat
  deriving DecidableEq, Repr

/-- STALL_POLICY (R395). -/
structure StallPolicy where
  recordBase : Nat
  fillHold : Bool
  fillFault : Bool
  fillDefault : Nat
  boothAllow : Bool
  bindAllow : Bool
  integReport : Bool
  integLose : Bool
  integDefault : Nat
  tDrain : Nat
  tMigSess : Nat
  deriving DecidableEq, Repr

/-- The Steelyard block of ENGINE (R573). -/
structure StyCfg where
  chEnable : Nat
  gain : List Nat
  offset : List Int
  wbMse : Nat
  wbLse : Nat
  wbHse : Nat
  wbBooth : Nat
  wbToll : Nat
  wo : Nat
  calId : Nat
  deriving DecidableEq, Repr

/-- ENGINE without its Steelyard block (R159). -/
structure EngineCfg where
  pinQuota : Nat
  /-- Carve-out mode for local memory (R221). -/
  tagLocalCo : Bool
  /-- Carve-out mode per pool window, bit j. -/
  tagPool : Nat
  tMem : Nat
  tLock : Nat
  weights : List Nat
  share : Nat
  yieldShare : Nat
  yieldMax : Nat
  tDead : Nat
  integLimit : Nat
  hseCxl : Nat
  tXck : Nat
  tMark : Nat
  markRetry : Nat
  maxHops : Nat
  tBlease : Nat
  tDoldrums : Nat
  deriving DecidableEq, Repr

/-- The configuration in effect: the applied Almanac image, or the most restrictive values of R126 before one is applied. -/
structure Cfg where
  clk : ClockCfg
  epoch : EpochCfg
  tamperEnable : BitVec 8
  chart : ChartCfg
  parts : List PartCfg
  regAuth : List AuthEntry
  /-- None where the section is absent (R395). -/
  policy : Option StallPolicy
  engine : EngineCfg
  sty : StyCfg
  /-- FW_PATCH payloads in image order (R486). -/
  patches : List Bytes
  declaredTickNs : Nat
  integratorId : Nat
  productId : Nat
  imageSeq : Nat
  almSvn : Nat
  patchSvn : Nat
  deriving DecidableEq, Repr

/-- Without a Steelyard block (R573). -/
def StyCfg.absent : StyCfg :=
  { chEnable := 0, gain := List.replicate 16 0x40000000, offset := List.replicate 16 0, wbMse := 0, wbLse := 0, wbHse := 0, wbBooth := 0
    wbToll := 0, wo := 0, calId := 0 }

/-- Without the CLOCK_RESET section (R156). -/
def ClockCfg.absent : ClockCfg := { tFreq := 100, tIdle := 50, tStop := 10, tPart := 100, tWdog := 100 }

/-- Without the ENGINE section (R159, R221), in a build with or without sideband tags. -/
def EngineCfg.absent (tagSb : Bool) : EngineCfg :=
  { pinQuota := 2, tagLocalCo := !tagSb, tagPool := if tagSb then 0 else 65535, tMem := 1000, tLock := 10, weights := [8, 4, 2, 1]
    share := 2, yieldShare := 0, yieldMax := 5000, tDead := 20, integLimit := 16, hseCxl := 0, tXck := 1000, tMark := 50, markRetry := 8
    maxHops := 8, tBlease := 100, tDoldrums := 1000 }

/-- The most restrictive values, in force until an image is applied (R126, R601): every permission 0, every tamper pair enabled, every
timeout at its default. -/
def Cfg.restrictive (tagSb : Bool) : Cfg :=
  { clk := ClockCfg.absent
    epoch := { n := 0, wLocal := 0, wPool := 0, boundLocal := 0, boundPool := 0 }
    tamperEnable := 0xFF
    chart := { localLimit := 0, hashSeed := 0, harbourBase := 0, harbourCount := 0, mseMap := [], lseMap := [], pools := [] }
    parts := []
    regAuth := []
    policy := none
    engine := EngineCfg.absent tagSb
    sty := StyCfg.absent
    patches := []
    declaredTickNs := 0
    integratorId := 0
    productId := 0
    imageSeq := 0
    almSvn := 0
    patchSvn := 0 }

end Sys2Proof.Machine
end

