-- ==== Sys2Proof/Machine/Types/Dom.lean ====
section
/-!
DEFINITION. State of attestation, domain formation and Marks (spec/12_attestation_domain.md).
-/

namespace Sys2Proof.Machine

/-- A hybrid exchange in progress (R370). -/
structure HybExchange where
  initiator : Bool
  /-- 1 link, 2 tenant, 3 owner, 4 migration. -/
  purpose : Nat
  /-- The target: Stall and INSTANCE, or logical chip and port. -/
  stall : Nat
  inst : Bytes
  chip : Nat
  port : Nat
  /-- OWNER_IDX of a PURPOSE 3 exchange. -/
  owner : Nat
  standby : Bool
  /-- The LSE of a join exchange, none for HYB_MSG. -/
  lse : Option Nat
  /-- Messages sent and received so far. -/
  h1 : Bytes
  h2 : Bytes
  h3 : Bytes
  /-- The other end's CHAIN has passed the checks of R375. -/
  chainOk : Bool
  kEst : Bytes
  since : Nat
  deriving DecidableEq, Repr

/-- A peer the membership names on an LSE (R372). -/
structure Peer where
  lse : Nat
  port : Nat
  chip : Nat
  identity : Bytes
  deriving DecidableEq, Repr

/-- What a chip's certificates say of it, as R375 reads them. [DEDUCED: notes/assumptions/36.md] -/
structure PeerCert where
  /-- SHA-384 of the DeviceID P-384 public key. -/
  identity : Bytes
  /-- Both alias certificates verify under their DeviceID keys, and their siblings match. -/
  verified : Bool
  mFw : Bytes
  domainId : Bytes
  chip : Nat
  port : Nat
  test : Bool
  deriving DecidableEq, Repr

/-- What the block's public-key engine makes of one step of a hybrid exchange (R370, R371): values made with private keys, which the
state does not hold, and the verdicts on what the other end sent. [DEDUCED: notes/assumptions/36.md] -/
structure HybOps where
  /-- The encapsulation key of the pool pair used. -/
  ek : Bytes
  /-- The ciphertext an initiator makes. -/
  ct : Bytes
  /-- Z and K of R370. -/
  z : Bytes
  k : Bytes
  /-- This end's dual signature. -/
  sig : Bytes
  /-- The other end's dual signature verifies, under the key R371 names. -/
  sigOk : Bool
  /-- Decapsulation succeeds. -/
  keyOk : Bool
  /-- This end's DeviceID and alias certificates, as CHAIN carries them. -/
  chain : Bytes
  deriving DecidableEq, Repr

/-- What an SPDM request asks of the block's state (R342, R343, R367). -/
inductive SpdmAction where
  | nothing
  /-- A session is established. -/
  | openSession (id : Nat)
  | closeSession (id : Nat)
  /-- KEY_PROG, with the initial IV. -/
  | keyProg (stream : Nat) (dirTx : Bool) (keySet : Nat) (key iv : Bytes)
  | setGo (stream keySet : Nat)
  | setStop (stream keySet : Nat)
  deriving DecidableEq, Repr

/-- A message of the join exchange of which not every fragment has come (R374). -/
structure Assembly where
  lse : Nat
  sub : Nat
  /-- Fragments of the message, and those received. -/
  total : Nat
  got : Nat
  bytes : Bytes
  deriving DecidableEq, Repr

/-- Domain formation and time (R372 to R378, R388, R389). [DEDUCED: notes/assumptions/48.md] -/
structure Dom where
  joined : Bool
  chip : Nat
  domainId : Bytes
  seq : Nat
  gm : Bool
  testDomain : Bool
  timeParent : Nat
  timeDepth : Nat
  peers : List Peer
  fwOk : List Bytes
  /-- Digest of the authority key block. -/
  authority : Bytes
  exchanges : List HybExchange
  /-- Messages of join exchanges being received. -/
  parts : List Assembly
  /-- DOMAIN_TIME of the membership held. -/
  anchorTime : Nat
  /-- Elapsed time of the last offset measured (R377). -/
  lastOffset : Option Nat
  /-- The last offset in ps (R389). -/
  offset : Int
  /-- Elapsed time of the last TIME_PROBE sent, and its stamp t1 in ps. -/
  probeAt : Option Nat
  probe : Option Nat
  /-- t1, t2 and t4 of the probe whose t3 the next reply brings (R376). -/
  prev : Option (Nat × Nat × Nat)
  /-- t3 of the last reply sent on each LSE. -/
  replies : List (Nat × Nat)
  unlockRaised : Bool
  /-- LSE and cause of the last join failure (R375). -/
  joinErr : Option (Nat × Nat)
  /-- VALID of XS_DOM_JOINERR (R389). -/
  joinSeen : Bool
  deriving DecidableEq, Repr

/-- SPDM, certificates and measurements kept by Helm (R357 to R369). -/
structure Att where
  /-- M_FW as last measured (R357). -/
  mFw : Bytes
  fwSecret : Bytes
  /-- Alias certificates issued since P or S. -/
  aliases : Nat
  /-- Leaf certificates issued since P or S: Stall and count. -/
  leafs : List (Nat × Nat)
  /-- Session IDs of the open SPDM sessions, at most 8 (R367). -/
  sessions : List Nat
  deriving DecidableEq, Repr

/-- One destination of a LOCAL Mark (R379, R382, R383). -/
structure MarkDest where
  chip : Nat
  mark : Nat
  acked : Nat
  seq : Nat
  /-- Elapsed time of the start of the resend timer, if it runs. -/
  timer : Option Nat
  resends : Nat
  unreachable : Bool
  deriving DecidableEq, Repr

/-- A resident Mark (R379 to R386). -/
structure Mark where
  mirror : Bool
  value : Nat
  /-- Highest value sent. -/
  sent : Nat
  dests : List MarkDest
  srcChip : Nat
  srcMark : Nat
  lastSeq : Nat
  /-- Cause of the poisoning (R386). -/
  poison : Option Nat
  stale : Nat
  /-- Domain time of the last change of VALUE. -/
  changed : Nat
  /-- Use order, for the LRU choice (R385): elapsed time of the last use. -/
  lastUse : Nat
  deriving DecidableEq, Repr

/-- A directory entry (R385) with the spill address of R379; a Mark that is not listed is free. -/
structure MarkDir where
  owner : Nat
  version : Nat
  addr : Nat
  /-- Elapsed time of the last spill. -/
  spilledAt : Option Nat
  deriving DecidableEq, Repr

/-- A MARK_WAIT in progress (R486). -/
structure MarkWait where
  call : Call
  index : Nat
  value : Nat
  /-- Elapsed time at which it ends with ST_MARK_TIMEOUT. -/
  deadline : Option Nat
  deriving DecidableEq, Repr

/-- A route to a chip (R381). -/
structure Route where
  primary : Nat
  alternate : Option Nat
  deriving DecidableEq, Repr

/-- The Marks unit (R379 to R386, R390 to R392). -/
structure Mrk where
  dir : List (Nat × MarkDir)
  /-- Entries of the spilled Marks that a restore brings back (R121); empty outside S. -/
  anchored : List (Nat × MarkDir)
  /-- Resident Marks by index, at most 64. -/
  res : List (Nat × Mark)
  /-- Indices whose fill is asked for. -/
  fills : List Nat
  waits : List MarkWait
  /-- SET signals of completed commands that wait for their Mark's fill: index and value (R482). -/
  sigs : List (Nat × Nat)
  routes : List (Nat × Route)
  stale : Nat
  dup : Nat
  resend : Nat
  drop : Nat
  routeSel : BitVec 15
  deriving DecidableEq, Repr

end Sys2Proof.Machine
end

