-- ==== Sys2Proof/Machine/Types/Nvm.lean ====
section
/-!
DEFINITION. State of the Almanac loader, the NVM device's partitions (spec/06_almanac_bringup.md), the Chart's repairs, the fuse words
and the Lifecycle unit (spec/17_lifecycle_debug.md).
-/

namespace Sys2Proof.Machine

/-- One Settings record (R170): KIND, INDEX and its data. -/
structure SettingsRec where
  kind : Nat
  index : Nat
  data : Bytes
  deriving DecidableEq, Repr

/-- The content of a Settings copy that opens (R170). -/
structure SettingsCopy where
  seq : Nat
  /-- The DRK its key was derived from: the copy opens under no other. -/
  root : Bytes
  records : List SettingsRec
  deriving DecidableEq, Repr

/-- What the block's public-key engine makes of an image: both integrator signatures, both vendor signatures, and the Cogagon signatures
inside each FW_PATCH payload, in image order (R161, R486). [DEDUCED: notes/assumptions/36.md] -/
structure ImageSigs where
  integrator : Bool
  vendor : Bool
  patches : List Bool
  deriving DecidableEq, Repr

/-- The payload of a Journal record (R148). -/
inductive JournalBody where
  /-- KIND 1: Stall ID, INSTANCE, the last step of R413 completed. -/
  | removal (stall : Nat) (inst : Bytes) (step : Nat)
  /-- KIND 2: the 32 B alarm entry. -/
  | alarm (entry : Bytes)
  deriving DecidableEq, Repr

/-- A Journal record (R148). -/
structure JournalRec where
  seq : Nat
  body : JournalBody
  deriving DecidableEq, Repr

/-- A written Journal sector: SECTOR_SEQ of its header and the records after it (R148, R149). -/
structure JournalSector where
  index : Nat
  seq : Nat
  /-- SEQ of the header record. -/
  headSeq : Nat
  records : List JournalRec
  deriving DecidableEq, Repr

/-- An entry of the STANDBY session table (R151). -/
structure StandbyEntry where
  role : Nat
  stall : Nat
  peer : Nat
  inst : Bytes
  th : Bytes
  kEst : Bytes
  recordCounter : Nat
  written : Nat
  deriving DecidableEq, Repr

/-- A STANDBY session table copy that opens (R151). -/
structure StandbyTable where
  seq : Nat
  /-- The DRK its key was derived from. -/
  root : Bytes
  entries : List StandbyEntry
  deriving DecidableEq, Repr

/-- The Steelyard seal record (R579). -/
structure SealRecord where
  gen : Nat
  sd : Bytes
  /-- The seed of the keys that signed it. -/
  signer : Bytes
  deriving DecidableEq, Repr

/-- What the trim words 0x50 to 0xDF hold (R166, R167); the spec does not give their layout. [PRESUMED: notes/assumptions/33.md] -/
structure Trims where
  /-- The first trim group whose check word does not match. -/
  failed : Option Nat
  /-- Factory repairs: logical MSE and the lane its spare serves. -/
  lanes : List (Nat × Nat)
  /-- Key-slot bank served by the spare bank. -/
  bank : Option Nat
  /-- Ledger rows mapped to spares. -/
  rows : List Nat
  deriving DecidableEq, Repr

/-- The NVM device's content as the block wrote it (R147). An erased partition reads as nothing. [DEDUCED: notes/assumptions/39.md] -/
structure Nvm where
  slotA : Bytes
  slotB : Bytes
  settingsA : Option SettingsCopy
  settingsB : Option SettingsCopy
  /-- The Journal ring, oldest sector first. -/
  journal : List JournalSector
  /-- Records that wait for a sector erase, at most 64 (R149). -/
  journalQueue : List JournalBody
  /-- Journal sectors that are not blank and hold nothing that opens (R149). -/
  journalStale : List Nat
  /-- The DRK the Journal's records were sealed under. -/
  journalRoot : Bytes
  /-- The sector whose erase the Journal waits for. -/
  journalErase : Option Nat
  /-- The identity record's certificates (R361). -/
  identity : Option Bytes
  standbyA : Option StandbyTable
  standbyB : Option StandbyTable
  sealRec : Option SealRecord
  deriving DecidableEq, Repr

/-- The Almanac loader (R163 to R176). -/
structure Ald where
  done : Bool
  noAlmanac : Bool
  slotB : Bool
  fallback : Bool
  settingsOk : Bool
  setCopyB : Bool
  memTrained : Bool
  linksTrained : Bool
  restored : Bool
  joined : Bool
  full : Bool
  sdrOnly : Bool
  rejectCause : Nat
  /-- The integrator checks were made and passed for the active image (R162, R502). -/
  integratorChecked : Bool
  /-- The Harbour re-seal is running (R173). -/
  harbourReseal : Bool
  setSel : BitVec 18
  /-- Staged Settings words: kind, index, word offset, value. -/
  staged : List (Nat × Nat × Nat × Word)
  /-- The slot a PHASE 0 has erased since P or S, true for B (R486). -/
  updErased : Option Bool
  /-- Ranges written since PHASE 0: offset and length. -/
  updWritten : List (Nat × Nat)
  /-- The elapsed time of the oldest field repair not yet written into a Settings copy (R167). -/
  repairDue : Option Nat
  deriving DecidableEq, Repr

/-- Repairs the Chart applies (R167, R177): from fuses, then from the field. -/
structure Chart where
  /-- Logical MSE, lane served by the spare, from a field repair. -/
  spareLanes : List (Nat × Nat × Bool)
  /-- Lane folds: logical MSE, folded lane, physical lane that serves it (R237). -/
  folds : List (Nat × Nat × Nat)
  /-- Physical lanes found faulty: logical MSE, physical lane. -/
  faulty : List (Nat × Nat)
  /-- Key-slot bank served by the spare bank. -/
  ksBank : Option Nat
  ksField : Bool
  /-- Ledger rows mapped to spares, fuse repairs first. -/
  rows : List Nat
  /-- Field repairs ignored because their spare was used (R167). -/
  ignored : Nat
  /-- Logical chip ID to certified identity: (chip, identity digests) (R167, R373). -/
  chipIds : List (Nat × Bytes)
  deriving DecidableEq, Repr

/-- What the fuse programming in progress is for. -/
inductive FuseGoal where
  /-- A lifecycle transition's current phase (R504). -/
  | lifecycle
  /-- DRK_GENERATE: bank and the command (R181). -/
  | drk (bank : Nat) (call : Call)
  /-- SVN_ADVANCE (R165). -/
  | svn (call : Call)
  /-- Steelyard seed shares and check word (R578). -/
  | styseed
  /-- A seal break count bit (R580). -/
  | sealBreak
  /-- FIRST_READING (R579). -/
  | firstReading
  deriving DecidableEq, Repr

/-- Fuse programming in progress: bits still to program, the first one in hand (R504, R508). -/
structure FuseJob where
  goal : FuseGoal
  bits : List (Nat × Nat)
  /-- 0 nothing is in hand, 1 a bit is being programmed, 2 its word is being read back. -/
  stage : Nat
  /-- The bit in hand has failed once (R508). -/
  retried : Bool
  /-- Elapsed time of the request in hand at the fuse port (R82). -/
  since : Nat
  deriving DecidableEq, Repr

/-- A running lifecycle transition (R504). -/
structure Transition where
  /-- TARGET code of R495, 0x10 for KEYFUSE. -/
  target : Nat
  source : Nat
  /-- 1 journal, 2 wipe, 3 state, 4 verify, 5 done (R517). -/
  phase : Nat
  viaTap : Bool
  call : Option Call
  /-- Resumed at start-up under R507. -/
  resumed : Bool
  since : Nat
  sectors : Nat
  /-- NVM sectors the wipe still has to erase. -/
  erases : List Nat
  /-- AUTH of the command, 192 B. -/
  auth : Bytes
  deriving DecidableEq, Repr

/-- The Lifecycle unit and the fuse port (R495 to R518). -/
structure Lcu where
  /-- Fuse words that are not 0, strictly rising by word number. -/
  fuses : List (Nat × Nat)
  /-- The decoded state, a code of R495. -/
  state : Nat
  resumed : Bool
  xfail : Bool
  detail : Nat
  tapOrigin : Bool
  /-- XS_LCU_NONCE. -/
  nonce : Bytes
  transition : Option Transition
  job : Option FuseJob
  /-- Programming that waits until the fuse port is free. -/
  jobs : List FuseJob
  /-- The trims last read from the fuses. -/
  trims : Trims
  /-- A word read for the TAP (R511). -/
  tapRead : Option Nat
  /-- The TAP's instruction register (R88). -/
  tapIr : BitVec 8
  deriving DecidableEq, Repr

end Sys2Proof.Machine
end

