-- ==== Sys2Proof/Syntax.lean ====
section
/-!
DEFINITION. The commands of the block: one constructor per row of spec/opcode_table.json, in the table's order, each with what
comes to the block from outside at that step: the fields of a port's transfer, the arguments of an XS command, and the result of work
the spec describes but does not compute from the block's state (a signature's verdict, bytes read back from memory).
-/

namespace Sys2Proof

open Sys2Proof.Machine



/-- The commands of the block (spec/opcode_table.json). -/
inductive Instr where
  /-- POWER_ON_RESET (R118): rst_por_n driven to 0 starts a power-on reset (P) in the pclk and rclk domains, clearing state as R121 lists. -/
  | powerOnReset
  /-- SYSTEM_RESET (R118): rst_sys_n driven to 0 starts a system reset (S), zeroizing keys and keeping the recovery anchor. -/
  | systemReset
  /-- RESET_RELEASE (R122): Once the reset input is 1, clkc_good is 1 and 128 PCLK cycles pass with no runt, the block leaves P or S and starts the sequence of R125. -/
  | resetRelease (clkcGood coolantOk : Bool) (tamper tamperB : Nat) (fuseFail : Option Nat) (trims : Trims)
  /-- LC_TRANSITION_RESUME (R507): A decode of IN_TRANSITION reruns the wipe, state and verify steps toward the journalled target without authorisation, then sets LC_RESUME. -/
  | lcTransitionResume
  /-- ALMANAC_LOAD (R163): The block reads both slot headers, picks a candidate, runs the full checks and applies the first image that passes. -/
  | almanacLoad (sigA sigB : ImageSigs) (nvmOk sdr : Bool) (sigs : Bytes)
  /-- HELM_WATCHDOG_EXPIRY (R118): Helm failing to service its watchdog for T_WDOG starts a core reset, and the third expiry within 10 s enters Safe Stop. -/
  | helmWatchdogExpiry
  /-- CORE_RESET_END (R127): Helm leaves core reset, applies staged patches, processes queued tick boundaries and reruns uncommitted commands. -/
  | coreResetEnd
  /-- CORE_RESET_REQUEST (R142): Writing 1 to XS_RCU_RESET.CORE starts a core reset. -/
  | coreResetRequest (fn : Nat)
  /-- SYS_REQ_WRITE (R119): Writing 1 to XS_RCU_RESET.SYS_REQ sets rst_req and holds the quiet state until S or P. -/
  | sysReqWrite (fn : Nat)
  /-- UNIT_RESET_GO (R132): Writing 1 to XS_RCU_URST.GO checks the unit code and starts the idle request of a unit reset, or sets REFUSED. -/
  | unitResetGo (fn unit : Nat)
  /-- UNIT_RESET_IDLE (R132): A unit under reset that has drained all outstanding work is held in reset for 16 PCLK cycles. -/
  | unitResetIdle (unit : Nat)
  /-- UNIT_RESET_FORCE (R133): At T_IDLE without idleness the block squashes the unit's remaining work as R133 tables, and sets FORCED. -/
  | unitResetForce (unit : Nat) (written : Bytes)
  /-- UNIT_RESET_RELEASE (R132): After its 16-cycle hold the unit is released, its readies return and EV_UNIT_RESET is raised. -/
  | unitResetRelease (unit : Nat)
  /-- RUNT_DETECTED (R110): A pclk phase shorter than 180 ps raises AL_CLOCK RUNT and enters Safe Stop, and a third runt within 1 ms raises AL_TAMPER. -/
  | runtDetected
  /-- PCLK_STOP_DECLARED (R112): The rclk monitor sees no pclk/16 change for 4 rclk cycles, declares a stop and opens a gap log entry. -/
  | pclkStopDeclared (stretch : Bool)
  /-- PCLK_STOP_END (R112): The first pclk change after a stop closes the gap log entry and adds to the total stop time. -/
  | pclkStopEnd
  /-- PCLK_STOP_TIMEOUT (R113): A stop longer than T_STOP while clkc_good is 1 and FREQ_CHG is 0 raises AL_CLOCK STOP. -/
  | pclkStopTimeout
  /-- PCLK_FREQ_WINDOW (R109): At the end of each 1 µs window the block updates PCLK_FREQ and raises OVERSPEED or EV_PCLK_SLOW as needed. -/
  | pclkFreqWindow (mhz : Nat) (stretch : Bool)
  /-- FREQ_CHANGE_REQUEST (R108): A toggle of clkc_freq_req records the start time, toggles clkc_freq_ack and sets FREQ_CHG. -/
  | freqChangeRequest
  /-- FREQ_CHANGE_DONE (R108): clkc_good rising after an acknowledged change clears FREQ_CHG and logs the interval. -/
  | freqChangeDone
  /-- FREQ_CHANGE_TIMEOUT (R108): clkc_good still 0 at T_FREQ after the acknowledgement raises AL_CLOCK FREQ_TIMEOUT. -/
  | freqChangeTimeout
  /-- CLOCK_GOOD_LOST (R108): clkc_good falling outside a change and outside reset raises AL_CLOCK GOOD_LOST. -/
  | clockGoodLost
  /-- FREQ_ACK_RETURN_TIMEOUT (R535): clkc_freq_ack_ret not matching clkc_freq_ack within 1 µs starts a crossing Sounding. -/
  | freqAckReturnTimeout (ret : Bool)
  /-- TICK_BOUNDARY (R104): An accepted tick boundary latches the Steelyard, may advance the epoch, refreshes replay statements and runs tick-aligned commands. -/
  | tickBoundary
  /-- TICK_LATE (R103): 100 s without an accepted boundary sets TICK_LATE and raises EV_TICK_LATE once. -/
  | tickLate
  /-- TICK_BUDGET_EXPIRY (R105): At 20 µs after the tick pulse Helm starts no further tick-aligned command, defers the rest and sets TICK_OVERRUN. -/
  | tickBudgetExpiry
  /-- EPOCH_APPLY (R225): An MSE applies an epoch advance received over the spine at one edge and acknowledges it. -/
  | epochApply (m : Nat)
  /-- TAMPER_PAIR_TRIP (R85): An enabled tamper pair reading equal, or asserted, on two successive rclk edges raises AL_TAMPER. -/
  | tamperPairTrip (tamper tamperB : Nat)
  /-- COOLANT_LOSS (R86): tray_coolant_ok at 0 on two successive rclk edges logs AL_SAFESTOP COOLANT and enters Safe Stop. -/
  | coolantLoss
  /-- SAFE_STOP_DRAIN_DONE (R530): Once all in-flight work has ended after Safe Stop, the block sets SS_IDLE. -/
  | safeStopDrainDone
  /-- ZEROIZE_VERIFY_DONE (R204): The verify pass after a zeroize-net clear completes, setting ZEROIZED or ZEROIZE_FAIL and raising AL_TAMPER again on failure. -/
  | zeroizeVerifyDone (nonzero : Nat)
  /-- FUSE_PORT_TIMEOUT (R82): A missing fuse_rvalid or fuse_pgm_done is a tamper-class event. -/
  | fusePortTimeout
  /-- FUSE_PGM_DONE (R82): fuse_pgm_done ends programming of one fuse bit, letting the operation in progress continue. -/
  | fusePgmDone
  /-- FUSE_PGM_ERR (R508): fuse_pgm_err retries the bit once, and a second error raises AL_TAMPER and ends the attempt. -/
  | fusePgmErr
  /-- RAIL_SAMPLE_CAPTURE (R572): A change of sen_rail_flag captures a rail sample, checks its parity and adds its calibrated energy to the die accumulator. -/
  | railSampleCapture (val ch par : Nat)
  /-- TEMP_SAMPLE_CAPTURE (R95): A change of sen_temp_flag captures a temperature sample and checks its parity. -/
  | tempSampleCapture (val par : Nat)
  /-- RAIL_CHANNEL_GAP (R574): A rail channel with no sample for over 1 ms enters gap, holds its last power and makes the tick suspect. -/
  | railChannelGap (ch : Nat)
  /-- CROSSING_SOUNDING_DONE (R535): A crossing Sounding's four loopback transfers finish and classify CDC_FAULT or CDC_TRANSIENT. -/
  | crossingSoundingDone (crossing : Nat) (fault : Bool)
  /-- PARTITION_ANNOUNCE (R135): A part_ announcement of phase 0 starts the drain of that partition's work, and phase 1 re-admits its streams and readies. -/
  | partitionAnnounce (unit level phase : Nat)
  /-- PARTITION_DRAIN_DONE (R135): When the partition's drain ends the block pulses part_done_valid. -/
  | partitionDrainDone (unit : Nat)
  /-- PARTITION_DRAIN_TIMEOUT (R135): At T_PART the remaining work is absorbed or poisoned and, at level 3, the data ports are closed and the Sweeper paused. -/
  | partitionDrainTimeout (unit : Nat) (written : Bytes)
  /-- MSE_READ_REQUEST (R242): A host read accepted on msN_hr is checked, hazard-ordered and presented on msN_mr or answered from a hazard entry. -/
  | mseReadRequest (m lane sector stall id cls : Nat)
  /-- MSE_LOCK_READ (R249): A read with msN_hr_lock locks its sector after verification and keeps the plaintext in the hazard entry. -/
  | mseLockRead (m lane sector stall id cls : Nat)
  /-- MSE_WRITE_REQUEST (R239): A full-sector host write is checked, merged or sealed and presented on msN_mw. -/
  | mseWriteRequest (m lane sector stall id cls : Nat) (data : Bytes)
  /-- MSE_PARTIAL_WRITE (R241): A write with partial byte enables reads and verifies the sector, merges the bytes and seals the result. -/
  | msePartialWrite (m lane sector stall id cls be : Nat) (data : Bytes)
  /-- MSE_UNLOCK_WRITE (R250): A write with msN_hw_unlock from the lock-holding Stall merges into the kept plaintext and releases the lock, otherwise is REFUSED. -/
  | mseUnlockWrite (m lane sector stall id cls be : Nat) (data : Bytes)
  /-- MSE_MEM_REQUEST_SEND (R253): A queued memory-side request leaves on its lane when a slot is free, in Sweeper-quota and weighted class order. -/
  | mseMemRequestSend (m lane : Nat) (write sweep : Bool)
  /-- MSE_READ_BEAT (R219): A memory read beat is verified against SB_CHECK, window and MAC, and answers the waiting reads or starts a re-read. -/
  | mseReadBeat (m id : Nat) (data : Bytes) (sb : Nat) (err : Bool)
  /-- MSE_LANE_TEST_DONE (R238): A 12-cycle known-answer test of a physical lane ends and its host-side lanes reopen. -/
  | mseLaneTestDone (m lane : Nat) (pass : Bool)
  /-- MSE_WRITE_ACK (R239): A msN_mb acknowledgement completes a sealed write, answers its merged requests and advances the next merge buffer. -/
  | mseWriteAck (m id : Nat) (err : Bool)
  /-- MSE_READ_TIMEOUT (R261): T_MEM expiring on a read fails it with READ_TIMEOUT, reserves its ID and starts the re-read path. -/
  | mseReadTimeout (m id : Nat)
  /-- MSE_WRITE_TIMEOUT (R262): A write not acknowledged within T_MEM is answered INTEGRITY with CHECK 6, lists the sector and raises AL_INTEGRITY. -/
  | mseWriteTimeout (m id : Nat)
  /-- MSE_LOCK_TIMEOUT (R250): A lock not released within T_LOCK is released by the block with EV_LOCK_TIMEOUT. -/
  | mseLockTimeout (m sector : Nat)
  /-- TAG_LINE_WRITE_FLUSH (R267): In carve-out mode a tag line is written once its pending sectors are sealed or 16 PCLK cycles after its first word was set. -/
  | tagLineWriteFlush (m line : Nat)
  /-- KEY_GEN_FENCE (R251): An ADOPT or RETIRE fence is applied at one MSE edge, changing the generation selection. -/
  | keyGenFence (m : Nat)
  /-- KEY_GEN_FENCE_ACK (R251): An MSE acknowledges a fence once all earlier requests of the Stall have been answered. -/
  | keyGenFenceAck (m : Nat)
  /-- MSE_SQUASH_ORDER (R252): A removal squash answers a Stall's outstanding requests POISON, clears its locks and discards unpresented writes. -/
  | mseSquashOrder (m : Nat)
  /-- LEDGER_INVALIDATE (R283): An MSE applies a Ledger entry invalidation at one edge and acknowledges once earlier requests to the region are answered. -/
  | ledgerInvalidate (m : Nat)
  /-- REFUSAL_MAP_UPDATE (R394): A tile applies a Stall state change to its refusal map and acknowledges after draining that Stall's earlier requests. -/
  | refusalMapUpdate (tile : Nat)
  /-- LEDGER_CACHE_FILL (R49): A tile Ledger entry cache miss is filled over the spine and the held requests proceed. -/
  | ledgerCacheFill (m : Nat) (pool : Bool) (index : Nat)
  /-- KEY_CACHE_FILL (R191): A tile key cache miss is filled from a Strongbox slot, or waits for an unwrap. -/
  | keyCacheFill (tile handle gen : Nat) (bad : Bool)
  /-- KEY_UNWRAP_DONE (R195): An unwrap of a fetched blob completes its checks and writes the key into a slot, or fails with ST_KEY_STALE. -/
  | keyUnwrapDone (handle gen : Nat) (blob : BufRead)
  /-- POOL_LEDGER_LINE_FILL (R289): A pool Ledger line read from the store is authenticated and installed, releasing held requests. -/
  | poolLedgerLineFill (line : Nat) (data : Bytes)
  /-- SWEEP_SLOT_START (R291): A free sweep slot takes the first queued region in priority order and opens its first stride. -/
  | sweepSlotStart
  /-- STRIDE_CHECKPOINT (R294): When every MSE finishes a stride the Sweeper writes a stride checkpoint and opens the next, finishing the region at the last stride. -/
  | strideCheckpoint (slot : Nat)
  /-- SWEEP_RETIRE (R297): When all regions of a key sweep are done and no band remains, a RETIRE fence for the old generation is sent to every MSE. -/
  | sweepRetire (stall : Nat)
  /-- SWEEP_DONE (R297): After every RETIRE acknowledgement the old generation is destroyed and EV_SWEEP_DONE is raised. -/
  | sweepDone (stall : Nat)
  /-- ZERO_FILL_DONE (R285): The last zero-fill write of a ZERO bind is acknowledged and the region becomes SEALED. -/
  | zeroFillDone (slot : Nat)
  /-- HARBOUR_RESEAL_DONE (R173): The Harbour range re-seal ends, the regions are SEALED to Stall 0 and the boot key is zeroized. -/
  | harbourResealDone
  /-- SWEEPER_YIELD_END (R293): A HINT yield ends at its duration or at YIELD_MAX and the Sweeper returns to SHARE. -/
  | sweeperYieldEnd
  /-- DELTA_RECORD_ACK (R302): A Ledger store delta record's write is acknowledged and the anchor and SEQ advance, anchoring its changes. -/
  | deltaRecordAck
  /-- BASE_MARKER_ACK (R303): The marker record of a new base is acknowledged and the base becomes the newest complete base. -/
  | baseMarkerAck
  /-- LEDGER_DED (R306): A double-bit error quarantines the region, recovers its owner from the store, marks the owner lost and raises AL_INTEGRITY. -/
  | ledgerDed (pool : Bool) (index : Nat)
  /-- LEDGER_ROW_SOUNDING_DONE (R307): The march test of a Ledger row ends and maps it to a spare or writes it back. -/
  | ledgerRowSoundingDone (row : Nat) (pass : Bool)
  /-- KEYSLOT_MASK_REFRESH (R188): Every 1 µs the mask of every slot and tile cache entry is refreshed and slot check codes are compared. -/
  | keyslotMaskRefresh (bad : List Nat)
  /-- KEYSLOT_BANK_SOUNDING_DONE (R533): The march test of a key-slot bank ends and keeps the spare or copies keys back. -/
  | keyslotBankSoundingDone (bank : Nat) (pass : Bool)
  /-- ENTROPY_FAIL (R199): A noise-source health test failure clears ENTROPY_OK and stops all DRBG generation. -/
  | entropyFail
  /-- ENTROPY_RECOVER (R199): After 1,024 passing samples and a reseed, waiting random-bit requests proceed in order. -/
  | entropyRecover
  /-- ENTROPY_WAIT_TIMEOUT (R199): A request waiting 1 ms for random bits fails with ST_NO_ENTROPY. -/
  | entropyWaitTimeout
  /-- KEY_PAIR_GENERATED (R200): The Strongbox adds a freshly generated hybrid key pair to its pool in the background. -/
  | keyPairGenerated
  /-- KEY_USE_REPORT (R196): A tile reports unreported key uses to the Strongbox, which applies wear and limit checks. -/
  | keyUseReport (tile handle gen : Nat) (blobOk : Bool)
  /-- LSE_TX_REQUEST (R328): A request taken whole on lsN_ht is checked against the Remote Window Table and sealed onto lsN_lt, or refused. -/
  | lseTxRequest (l kind stall dst tc addr id nbytes : Nat) (data : Bytes)
  /-- LSE_HOST_RESPONSE (R329): A response from host logic on lsN_ht is matched to an inbound request and sealed back to the peer, or discarded as an orphan. -/
  | lseHostResponse (l kind id st : Nat) (data : Bytes)
  /-- LSE_RX_UNIT (R334): A unit received on lsN_lr is checked for loss, format, addressing, KGEN, tag and SEQ before it is accepted. -/
  | lseRxUnit (l : Nat) (unit : Bytes) (err : Bool)
  /-- LSE_RX_REQUEST (R329): A verified load, store, atomic or bulk tile unit is presented on lsN_hr with TSTALL and ADDR. -/
  | lseRxRequest (l : Nat)
  /-- LSE_RX_RESPONSE (R329): A verified response unit answers its outstanding outbound request on lsN_hr. -/
  | lseRxResponse (l : Nat)
  /-- LSE_DEAD_TARGET (R330): An outbound request with no response within T_DEAD is answered POISON and counted. -/
  | lseDeadTarget (l id : Nat)
  /-- LINK_KEY_DERIVED (R324): A derived link key of the next generation is installed and the direction switches at the next unit boundary. -/
  | linkKeyDerived (l : Nat) (tx : Bool)
  /-- RESYNC_RECEIVE (R326): A received RESYNC control unit makes the peer switch its transmit direction at its next unit boundary. -/
  | resyncReceive (l : Nat)
  /-- GRANT_RECEIVE (R332): A received GRANT installs a Remote Window Table entry and answers GRANT_ACK. -/
  | grantReceive (l : Nat)
  /-- GRANT_ACK_RECEIVE (R332): A received GRANT_ACK completes the WINDOW_GRANT with the index, or with ST_WINDOW_FULL. -/
  | grantAckReceive (l : Nat)
  /-- REVOKE_RECEIVE (R333): A received REVOKE clears the entry and answers REVOKE_ACK once its outbound requests end. -/
  | revokeReceive (l : Nat)
  /-- REVOKE_ACK_RECEIVE (R333): A received REVOKE_ACK completes the revocation. -/
  | revokeAckReceive (l : Nat)
  /-- REVOKE_TIMEOUT (R333): No REVOKE_ACK after 4 × T_DEAD declares the LSE DOWN and completes the revocation. -/
  | revokeTimeout (l : Nat)
  /-- JOIN_H1_RECEIVE (R374): A responder receives the H1 fragments of a link join exchange and answers with CHAIN and H2. -/
  | joinH1Receive (l : Nat) (o : HybOps)
  /-- JOIN_CHAIN_RECEIVE (R375): A received CHAIN message is checked against PEER_IDENTITY, FW_OK and the domain before H2 or H3 is accepted. -/
  | joinChainReceive (l : Nat) (cert : Option PeerCert)
  /-- JOIN_H2_RECEIVE (R370): The initiator verifies H2 and sends its CHAIN and H3. -/
  | joinH2Receive (l : Nat) (o : HybOps)
  /-- JOIN_H3_RECEIVE (R370): The responder verifies H3, computes K_EST and sends H4. -/
  | joinH3Receive (l : Nat) (o : HybOps)
  /-- JOIN_H4_RECEIVE (R375): The initiator checks H4, installs the link secret and starts traffic at KGEN 0. -/
  | joinH4Receive (l : Nat)
  /-- HYBRID_EXCHANGE_TIMEOUT (R370): A responder with no message 10 ms after H2 ends the exchange with EV_HYB_FAIL. -/
  | hybridExchangeTimeout
  /-- TIME_PROBE_SEND (R376): Every 1 ms a non-grandmaster chip sends TIME_PROBE to its time parent. -/
  | timeProbeSend (t1 : Nat)
  /-- TIME_PROBE_RECEIVE (R376): A time parent answers a received TIME_PROBE with a TIME_REPLY carrying the stamps. -/
  | timeProbeReceive (l t2 t3 : Nat)
  /-- TIME_REPLY_RECEIVE (R376): A child computes the offset from a TIME_REPLY and anchors or slews its domain time. -/
  | timeReplyReceive (l t4 : Nat)
  /-- TIME_UNLOCK_TIMEOUT (R377): A last offset older than 100 ms raises EV_TIME_UNLOCK. -/
  | timeUnlockTimeout
  /-- HSE_TX_TLP (R344): A TLP or flit from the transaction layer is sealed in its IDE stream, passed in clear if permitted, or discarded. -/
  | hseTxTlp (h kind : Nat) (data secured : Bytes)
  /-- HSE_RX_TLP (R345): A received TLP or flit is verified and released, or its MAC failure makes the stream Insecure. -/
  | hseRxTlp (h kind : Nat) (inStream macOk err : Bool) (data : Bytes)
  /-- XCK_UNPAIRED_TIMEOUT (R341): A sampled arrival whose pair has not come within T_XCK is dropped and counted UNPAIRED. -/
  | xckUnpairedTimeout (binding : Nat)
  /-- MARK_SIGNAL_RECEIVE (R382): A received MARK_SIGNAL unit is forwarded, or updates the mirror Mark and is acknowledged. -/
  | markSignalReceive (l : Nat)
  /-- MARK_ACK_RECEIVE (R382): A received MARK_ACK raises the destination's ACKED and updates COMPLETE. -/
  | markAckReceive (l : Nat)
  /-- MARK_RESEND_TIMEOUT (R383): T_MARK without an acknowledgement resends the current SEQ, and after MARK_RETRY resends poisons the Mark. -/
  | markResendTimeout (mark dest : Nat)
  /-- MARK_FILL_DONE (R386): A spilled Mark's record is read back and checked, making the Mark resident or poisoning it. -/
  | markFillDone (mark : Nat) (rec_ : BufRead)
  /-- STALL_FILL_START (R400): A fill begins once a free slot or a victim that is not busy exists, spilling the victim. -/
  | stallFillStart
  /-- STALL_FILL_DONE (R401): A Stall record is read and checked, the Stall becomes resident and held accesses proceed, or it becomes LOST. -/
  | stallFillDone (stall : Nat) (rec_ : BufRead)
  /-- REMOVAL_STEP_DONE (R413): A removal step ends on its acknowledgements, is journalled, and the next step starts, or the removal completes. -/
  | removalStepDone (stall : Nat)
  /-- REMOVAL_DRAIN_TIMEOUT (R413): T_DRAIN expiring in the drain step of a removal moves on to the squash step. -/
  | removalDrainTimeout (stall : Nat)
  /-- FREEZE_DRAIN_TIMEOUT (R415): T_DRAIN expiring during a freeze squashes the Stall's remaining requests. -/
  | freezeDrainTimeout (stall : Nat)
  /-- MIG_SESSION_EXPIRY (R416): A MOVE migration session is erased T_MIGSESS after its completion. -/
  | migSessionExpiry
  /-- BOOTH_CLAIM (R431): Writing CLAIM to XS_BTH_LOCK takes the Booth lock for the function if it is free and the Stall may hold it. -/
  | boothClaim (fn : Nat)
  /-- BOOTH_RELEASE (R432): Writing RELEASE from the holder function releases the lock once its operations have ended. -/
  | boothRelease (fn : Nat)
  /-- BOOTH_LEASE_EXPIRY (R432): No operation running or queued for T_BLEASE releases the lock with EV_BTH_LEASE. -/
  | boothLeaseExpiry
  /-- BOOTH_OP_COMPLETE (R441): A Booth operation ends, writes its tag or zeros, counts against key limits and issues its completion. -/
  | boothOpComplete (io : BoothIo)
  /-- TOLL_COMMIT (R464): After the norm pass the export's budget charge and EXPORT_SEQ are written and anchored, reaching the commit point. -/
  | tollCommit
  /-- TOLL_HANDOFF (R434): After the main pass the Tollgate claims the Booth lock in hardware and hands the staged data to a GCM encrypt. -/
  | tollHandoff (src : BufRead) (stageAt : Option Nat) (hdrOk : Bool) (stalls : Nat)
  /-- TOLL_EXPORT_COMPLETE (R456): An export's Booth handoff ends, the hold lifts and its completion record is issued. -/
  | tollExportComplete (io : BoothIo)
  /-- HINT_BOOTH_CLASS_END (R483): DURATION_US after a HINT with TARGETS bit 1, Booth operations leave bandwidth class 3. -/
  | hintBoothClassEnd
  /-- COMMAND_PACKET (R475): An XS packet taken whole on cmd_ is checked, rejected or placed for immediate or tick-aligned execution. -/
  | commandPacket (fn qid : Nat) (framed : Bool) (bytes : Bytes)
  /-- COMMAND_START (R478): An immediate command starts once its stream order, FENCE and WAIT_MARK conditions hold. -/
  | commandStart
  /-- COMPLETION_WRITE (R482): A completion record is written on cmd_cw, then SIG_MARK is signalled and reg_irq[0] raised if asked. -/
  | completionWrite
  /-- CW_OVERRUN (R76): cmd_cw_ready not raised within 4,096 PCLK cycles sets CW_OVERRUN and holds later completions. -/
  | cwOverrun
  /-- EVENT_RING_WRITE (R488): Helm drains an event from the FIFO into the event ring, or discards and counts it. -/
  | eventRingWrite
  /-- ALARM_LOG_COPY (R525): Helm copies an uncopied alarm log entry to the event ring and the Journal and raises reg_irq[2]. -/
  | alarmLogCopy
  /-- SETTINGS_REPAIR_WRITE (R167): Helm writes a new Chart field repair or lane fold into a Settings copy within 1 s. -/
  | settingsRepairWrite
  /-- DOLDRUMS_DECLARE (R537): No progress for T_DOLDRUMS while a wait exists sets DOLDRUMS and DUMP_OPEN and triggers a Beacon freeze. -/
  | doldrumsDeclare
  /-- DOLDRUMS_END (R537): The first progress after a declaration clears DOLDRUMS and raises EV_DOLDRUMS_END. -/
  | doldrumsEnd
  /-- COUNTER_BANK_SOUNDING_DONE (R534): A counter bank's march test ends as BANK_FAULT or COUNTER_TRANSIENT. -/
  | counterBankSoundingDone (counter : Nat) (fault : Bool)
  /-- BEACON_FREEZE (R556): At the freeze edge all counters are copied into the snapshot and the rings note their heads and freeze. -/
  | beaconFreeze
  /-- BEACON_NOW (R557): Writing NOW to XS_OBS_BEACON triggers a freeze at the 4th PCLK edge, or is refused while HELD. -/
  | beaconNow (fn : Nat)
  /-- BEACON_RELEASE (R559): Writing RELEASE to XS_OBS_BEACON frees the snapshot and thaws the rings. -/
  | beaconRelease (fn : Nat)
  /-- COUNTER_BANK_CLEAR (R550): Writing GO to XS_OBS_CLEAR zeroes one bank's live counters and its INVALID marks. -/
  | counterBankClear (fn bank : Nat)
  /-- OBS_TRACK_WRITE (R555): Writing XS_OBS_TRACK(t) assigns a per-Stall counter set to a Stall and clears it. -/
  | obsTrackWrite (fn t stall : Nat) (valid : Bool)
  /-- EVQ_CFG_WRITE (R494): Writing XS_HLM_EVQCFG sets the ring size and ON, and setting ON resets HEAD and TAIL. -/
  | evqCfgWrite (fn log2 : Nat) (on : Bool)
  /-- EVQ_TAIL_WRITE (R490): Writing XS_HLM_EVQTAIL frees ring entries and drops reg_irq[1] when TAIL reaches HEAD. -/
  | evqTailWrite (fn tail : Nat)
  /-- SETTINGS_DATA_ACCESS (R176): An access to XS_ALD_SETDATA reads or stages a Settings word and advances WORD. -/
  | settingsDataAccess (fn : Nat) (write : Bool) (data : Nat)
  /-- CAPTURE_PAIR_READ (R591): Reading the _LO register of a capture pair captures the matching _HI word. -/
  | capturePairRead (fn addr : Nat)
  /-- INTEGRITY_ALARM_CLEAR (R526): Writing 1 to XS_ALR_STATUS.INTEGRITY lowers tray_al_integrity unless a new alarm arrives at that edge. -/
  | integrityAlarmClear (fn : Nat)
  /-- REGISTER_WRITE (R590): A write to a register without a row of its own sets RW fields, clears W1C bits or is ignored under the access rules. -/
  | registerWrite (fn addr data : Nat)
  /-- DW_GO (R484): Writing GO to XS_HLM_DWCTRL runs the packet in the direct window as Stall 0 and sets DONE with the record. -/
  | dwGo (fn : Nat)
  /-- LC_REQ (R512): The TAP LC_REQ instruction requests a lifecycle transition permitted through the TAP. -/
  | lcReq (target : Nat) (auth : Bytes) (coincident : Bool)
  /-- TAP_DEBUG_ENTER (R511): Entering SCAN, MBIST or HELM_DBG in an open state raises AL_INTEGRITY DEBUG and sets rst_req. -/
  | tapDebugEnter (ir : Nat)
  /-- TAP_FUSE_READ (R511): The TAP FUSE_READ instruction returns one permitted fuse word. -/
  | tapFuseRead (word : Nat)
  /-- TAP_REG_ACCESS (R511): The TAP REG_ACCESS instruction performs a register access as Stall 0 authorised for every register. -/
  | tapRegAccess (write : Bool) (addr data : Nat)
  /-- NOP (R478): NOP completes with no effect besides its completion record and Mark. -/
  | nop (c : Call)
  /-- HINT (R483): HINT takes effect at acceptance, starting a Sweeper yield or a Booth class change for DURATION_US. -/
  | hint (c : Call) (durationUs targets : Nat)
  /-- PATCH_STAGE (R486): PATCH_STAGE checks a signed Helm patch and appends it to patch staging RAM. -/
  | patchStage (c : Call) (src len : Nat) (buf : BufRead) (sigOk : Bool)
  /-- PATCH_COMMIT (R486): PATCH_COMMIT reaches its commit point and starts a core reset that applies the staged patches. -/
  | patchCommit (c : Call)
  /-- KEY_GENERATE (R206): KEY_GENERATE creates a key of the given type with the next SERIAL, writes its blob and returns its handle. -/
  | keyGenerate (c : Call) (type flags usage keyLen ownerIdx blobAddr : Nat) (blobOk : Bool)
  /-- KEY_LOAD (R195): KEY_LOAD brings a handle into a slot, optionally pinned. -/
  | keyLoad (c : Call) (handle flags : Nat)
  /-- KEY_UNPIN (R206): KEY_UNPIN clears PINNED on a resident key. -/
  | keyUnpin (c : Call) (handle : Nat)
  /-- KEY_ROTATE (R206): KEY_ROTATE creates generation GEN + 1 of a handle, writes its blob and, for REGION, orders the rekey sweep. -/
  | keyRotate (c : Call) (handle blobAddr : Nat) (blobOk : Bool)
  /-- KEY_DESTROY (R203): KEY_DESTROY erases one handle's slot and tile copies and marks its key table entry destroyed. -/
  | keyDestroy (c : Call) (handle : Nat)
  /-- KEY_ATTEST (R201): KEY_ATTEST returns the two key attestation certificates of a key pair handle. -/
  | keyAttest (c : Call) (handle out_ outMax : Nat) (certs : Bytes) (ok : Bool)
  /-- DRK_GENERATE (R181): DRK_GENERATE draws and programs a DRK bank's shares, check word and COMPLETE bit in PROVISION. -/
  | drkGenerate (c : Call)
  /-- REGION_BIND (R284): REGION_BIND binds 1 to 1,024 free regions to the Stall in ZERO, NOINIT or PLAIN mode. -/
  | regionBind (c : Call) (region count mode : Nat)
  /-- REGION_RETIRE (R286): REGION_RETIRE moves the named regions through RETIRING to FREE. -/
  | regionRetire (c : Call) (region count owner : Nat)
  /-- STALL_ADMIT (R404): STALL_ADMIT checks and admits a Stall at a tick boundary, drawing INSTANCE and writing its record. -/
  | stallAdmit (c : Call) (stall fill integ opts nowner account : Nat) (program tenantKey policy : Bytes) (owners : Nat) (ownersBuf : BufRead)
  /-- STALL_REMOVE (R412): STALL_REMOVE starts the six-step removal of a Stall at a tick boundary. -/
  | stallRemove (c : Call) (stall : Nat)
  /-- STALL_FREEZE (R415): STALL_FREEZE makes a KEYED Stall and its regions FROZEN and writes the freeze list. -/
  | stallFreeze (c : Call) (stall flist : Nat) (ok : Bool)
  /-- STALL_THAW (R415): STALL_THAW returns a frozen Stall to KEYED and its regions to SEALED. -/
  | stallThaw (c : Call) (stall : Nat)
  /-- MIGRATE_SAVE (R417): MIGRATE_SAVE writes a migration record of a frozen Stall under a session, retiring its regions for MOVE. -/
  | migrateSave (c : Call) (stall session flist out_ outMax : Nat) (list : BufRead) (blobs : List BufRead) (ok : Bool)
  /-- MIGRATE_RESTORE (R419): MIGRATE_RESTORE opens a migration record and recreates the Stall frozen with rebased regions and new blobs. -/
  | migrateRestore (c : Call) (session rec_ blobRegion counter : Nat) (record : BufRead)
  /-- FN_MAP (R403): FN_MAP adds a function-to-Stall entry to the function map. -/
  | fnMap (c : Call) (fn stall : Nat)
  /-- FN_UNMAP (R403): FN_UNMAP removes a function-map entry. -/
  | fnUnmap (c : Call) (fn : Nat)
  /-- STALL_STATUS (R423): STALL_STATUS returns the info, replay and age words of a Stall. -/
  | stallStatus (c : Call) (stall : Nat)
  /-- WINDOW_GRANT (R332): WINDOW_GRANT checks the regions and link and sends a GRANT control unit to the requester chip. -/
  | windowGrant (c : Call) (reqChip reqStall rights base size : Nat)
  /-- WINDOW_REVOKE (R333): WINDOW_REVOKE sends REVOKE for a granted window and waits for REVOKE_ACK. -/
  | windowRevoke (c : Call) (reqChip index : Nat)
  /-- LINK_RESET (R336): LINK_RESET destroys an LSE's slots and windows, poisons its requests and returns it to the no-key state. -/
  | linkReset (c : Call) (lse : Nat)
  /-- XCK_BIND (R337): XCK_BIND creates a Crosscheck binding with a fresh key Kx. -/
  | xckBind (c : Call) (winA winB tiles mode k rate action : Nat)
  /-- XCK_UNBIND (R337): XCK_UNBIND drops a binding and its pending comparisons. -/
  | xckUnbind (c : Call) (binding : Nat)
  /-- MEASURE_EXTEND (R358): MEASURE_EXTEND extends a measurement register with a digest and logs the extend. -/
  | measureExtend (c : Call) (reg kind owner : Nat) (digest : Bytes)
  /-- MEASURE_LOCK (R358): MEASURE_LOCK freezes the program registers and issues the Stall leaf certificates. -/
  | measureLock (c : Call)
  /-- X2_ENABLE (R365): X2_ENABLE sets the X2 flag of the Stall before MEASURE_LOCK. -/
  | x2Enable (c : Call)
  /-- X2_REPORT (R366): X2_REPORT returns the signed X2 report with the extend log. -/
  | x2Report (c : Call) (nonce : Bytes) (out_ outMax : Nat) (sigs : Bytes) (ok : Bool)
  /-- STALL_EVIDENCE (R363): STALL_EVIDENCE returns the Stall's leaf, alias, DeviceID and integrator certificates. -/
  | stallEvidence (c : Call) (stall out_ outMax : Nat) (certs : Bytes) (ok : Bool)
  /-- IDENTITY_CSR (R361): IDENTITY_CSR returns two self-signed PKCS#10 requests for the DeviceID keys in PROVISION. -/
  | identityCsr (c : Call) (out_ outMax : Nat) (csrs : Bytes) (ok : Bool)
  /-- IDENTITY_STORE (R361): IDENTITY_STORE writes the integrator's certificates into the identity record in PROVISION. -/
  | identityStore (c : Call) (src len : Nat) (certs : BufRead)
  /-- SPDM_MSG (R369): SPDM_MSG delivers an SPDM request to Helm, which writes the response. -/
  | spdmMsg (c : Call) (req reqLen hse rsp rspMax : Nat) (reqBuf : BufRead) (resp : Bytes) (action : SpdmAction) (ok : Bool)
  /-- HYB_MSG (R370): HYB_MSG relays one message of a hybrid key exchange and returns the next. -/
  | hybMsg (c : Call) (inp inLen purpose flags targetStall out_ outMax targetChip : Nat) (inBuf : BufRead) (o : HybOps) (cert : Option PeerCert) (blobs : List BufRead) (ok : Bool)
  /-- DOMAIN_JOIN (R373): DOMAIN_JOIN checks a membership, installs peer identities and starts the join exchange on each listed LSE. -/
  | domainJoin (c : Call) (src len : Nat) (member : BufRead) (sigsOk idOk : Bool)
  /-- DOMAIN_SUBSTITUTE (R378): DOMAIN_SUBSTITUTE accepts a new membership with changed peer identities and re-keys the affected links. -/
  | domainSubstitute (c : Call) (src len : Nat) (member : BufRead) (sigsOk idOk : Bool)
  /-- MARK_CREATE (R379): MARK_CREATE allocates a LOCAL or MIRROR Mark bound to the Stall and returns its index. -/
  | markCreate (c : Call) (spill mode ndest srcChip srcMark : Nat) (dests : List (Nat × Nat))
  /-- MARK_DESTROY (R379): MARK_DESTROY frees a Mark index and ends every wait on it with ST_MARK_POISONED. -/
  | markDestroy (c : Call) (index : Nat)
  /-- MARK_SIGNAL (R380): MARK_SIGNAL applies SET or ADD to a LOCAL Mark and sends the value to its destinations. -/
  | markSignal (c : Call) (index op value : Nat)
  /-- MARK_WAIT (R486): MARK_WAIT completes when the Mark's COMPLETE reaches VALUE, the Mark is poisoned or destroyed. -/
  | markWait (c : Call) (index timeout value : Nat)
  /-- MARK_WAIT_TIMEOUT (R486): A MARK_WAIT whose TIMEOUT_US elapses completes with ST_MARK_TIMEOUT. -/
  | markWaitTimeout
  /-- MARK_ROUTE (R381): MARK_ROUTE sets or clears the primary and alternate route for a destination chip. -/
  | markRoute (c : Call) (chip primary alternate flags : Nat)
  /-- BOOTH_OP (R442): BOOTH_OP checks and queues a GCM, XTS, CTR or CMAC operation for the lock holder. -/
  | boothOp (c : Call) (mode dir flags tail handle src dst len aadLen aadTail aad : Nat) (iv : Bytes) (du tag : Nat)
  /-- TOLL_POLICY_LOAD (R453): TOLL_POLICY_LOAD reads, hashes and checks the Stall's export policy and records its address. -/
  | tollPolicyLoad (c : Call) (addr : Nat) (image : BufRead)
  /-- TOLL_EXPORT (R455): TOLL_EXPORT checks an export, queues it serially and runs its norm pass toward the commit point. -/
  | tollExport (c : Call) (rule owner outFmt cls handle src len stage dst hdr tag : Nat) (policy srcBuf : BufRead)
  /-- TOLL_BUDGET (R465): TOLL_BUDGET returns a signed statement of an owner's privacy-budget block. -/
  | tollBudget (c : Call) (owner : Nat) (nonce : Bytes) (out_ outMax : Nat) (sigs : Bytes) (ok : Bool)
  /-- ALMANAC_UPDATE (R486): ALMANAC_UPDATE erases, writes or checks the inactive Almanac slot by phase. -/
  | almanacUpdate (c : Call) (phase inline_ offset len src : Nat) (data : Bytes) (buf : BufRead) (sigs : ImageSigs)
  /-- SVN_ADVANCE (R165): SVN_ADVANCE programs the Almanac and patch fuse counters up to the active image's SVNs. -/
  | svnAdvance (c : Call)
  /-- SETTINGS_SAVE (R171): SETTINGS_SAVE writes the staged records into the older Settings copy, verifies it and makes it current. -/
  | settingsSave (c : Call)
  /-- TRAINING_DONE (R173): TRAINING_DONE sets MEM_TRAINED or LINKS_TRAINED, and the memory flag starts the restore or store format. -/
  | trainingDone (c : Call) (flags : Nat) (rootOk : Bool) (bad : List Nat)
  /-- LC_TRANSITION (R504): LC_TRANSITION journals, wipes, programs and verifies a permitted lifecycle transition, including KEYFUSE. -/
  | lcTransition (c : Call) (target : Nat) (auth : Bytes) (sig : BufRead) (sigOk identityOk : Bool)
  /-- HANG_DUMP (R538): HANG_DUMP writes the clear metadata and a Stall dump encrypted under its DUMP key while DUMP_OPEN is set. -/
  | hangDump (c : Call) (stall meta_ outp outMax : Nat) (work : Bytes) (metaOk stallOk : Bool)
  /-- BEACON_SET (R557): BEACON_SET arms a freeze at a domain time or the next tick boundary. -/
  | beaconSet (c : Call) (at_ : Nat)
  /-- METER_READ (R581): METER_READ returns the Stall's latest apportioned Steelyard reading, signed at delivery. -/
  | meterRead (c : Call) (stall out_ outMax : Nat) (sig : Bytes) (ok : Bool)
  /-- FUSE_READ_RETURN (R82): fuse_rvalid returns a fuse word that the block requested, letting the fuse read in progress continue. -/
  | fuseReadReturn (data : Nat)
  /-- NVM_ERASE_DONE (R505): A Read Status poll finds a 4 KiB sector erase of the NVM device finished, so the queued Journal records or the next wipe step can proceed. -/
  | nvmEraseDone
  /-- KEY_INVALIDATION_APPLY (R203): A tile applies a key invalidation received over the control spine, removes its cached copy and acknowledges. -/
  | keyInvalidationApply (tile handle gen : Nat)
  /-- LSE_UNIT_SENT (R70): The eop beat of a sealed unit transfers on lsN_lt when the link layer raises lsN_lt_ready, freeing transmit buffer space and starting the T_DEAD timer. -/
  | lseUnitSent (l : Nat)
  deriving DecidableEq, Repr

end Sys2Proof
end

