-- ==== Sys2Proof/Decode.lean ====
section
/-!
DEFINITION. The command a word spells by the bits of spec/opcode_table.json. Every row of the table has an empty list of fields: it
gives no bits to any command, since the block's commands come as transfers at its ports and not as words of one width.
-/

namespace Sys2Proof

/-- No word spells a command: no row of the table gives bits. -/
def decodeTableWord (_nbits _w : Nat) : Option Instr := none

end Sys2Proof
end

