-- ==== Sys2Proof/Config.lean ====
section
/-!
DEFINITION. What an implementation fixes, and the values the spec leaves open. A free value is a constant without a body, applied to the
counter `fresh` of the state, so that nothing about it can be proved (notes/assumptions/3.md).
-/

namespace Sys2Proof.Config

/-- Byte `i` of the `n`-th draw from a DRBG instance (R198: random; the spec gives no value). [DESIGN CHOICE: notes/assumptions/3.md] -/
opaque randomByte : Nat → Nat → Byte

/-- The `n`-th draw of the Tollgate's discrete noise before scaling (R459, R461): random; the spec gives no value.
[DESIGN CHOICE: notes/assumptions/3.md] -/
opaque noise : Nat → Int

/-- The `n`-th choice of the block where the spec leaves a physical outcome open (a sampling decision that depends on nothing the
state holds). [DESIGN CHOICE: notes/assumptions/3.md] -/
opaque choice : Nat → Nat

/-- The digest of Helm's ROM (R486 ROM_DIGEST, R357): fixed in the part, not given by the spec. -/
opaque romDigest : Bytes

/-- The digest of the Steelyard's firmware ROM (R579): fixed in the part, not given by the spec. -/
opaque styRomDigest : Bytes

/-- The public key that the key generation of FIPS 186-5 (`alg` 1, ECDSA P-384) or FIPS 204 (`alg` 3, ML-DSA-87) makes from a seed
(R183): a function of the seed that the model does not compute. -/
opaque publicKey : Nat → Bytes → Bytes

end Sys2Proof.Config
end

