-- ==== Sys2Proof/Machine/Assoc.lean ====
section
/-!
DEFINITION. Sparse tables as lists of (key, value) pairs with keys strictly rising: lookup, set, delete, and the form itself.
-/

namespace Sys2Proof.Machine

/-- The value a key has, if any. -/
def assocGet {β : Type} (k : Nat) : List (Nat × β) → Option β
  | [] => none
  | (j, v) :: l => if j = k then some v else assocGet k l

/-- The table with the key set to a value. -/
def assocSet {β : Type} (k : Nat) (v : β) : List (Nat × β) → List (Nat × β)
  | [] => [(k, v)]
  | (j, w) :: l => if k < j then (k, v) :: (j, w) :: l else if k = j then (k, v) :: l else (j, w) :: assocSet k v l

/-- The table without the key. -/
def assocDel {β : Type} (k : Nat) (l : List (Nat × β)) : List (Nat × β) := l.filter fun p => p.1 ≠ k

/-- Keys strictly rising, all above `lo` where one is given. -/
def assocRising {β : Type} : Option Nat → List (Nat × β) → Bool
  | _, [] => true
  | lo, (k, _) :: l => (match lo with | none => true | some b => decide (b < k)) && assocRising (some k) l

/-- The element at a position replaced. -/
def listSet {α : Type} (l : List α) (i : Nat) (f : α → α) : List α :=
  match l, i with
  | [], _ => []
  | x :: xs, 0 => f x :: xs
  | x :: xs, i + 1 => x :: listSet xs i f

/-- The first key from `from_` on, below `bound`, that the table does not hold. -/
def firstFree {β : Type} (l : List (Nat × β)) : Nat → Nat → Option Nat
  | _, 0 => none
  | k, n + 1 => match assocGet k l with | none => some k | some _ => firstFree l (k + 1) n

end Sys2Proof.Machine
end

