-- ==== Sys2Proof/Machine/Bytes.lean ====
section
/-!
DEFINITION. Byte strings: the little-endian integers of the block's own formats and the big-endian ones of the
standards (spec/00_scope.md R13), slices, padding, XOR.
-/

namespace Sys2Proof.Machine

/-- The byte that holds the low eight bits of a number. -/
def byteOf (x : Nat) : Byte := BitVec.ofNat 8 x

/-- `n` bytes, little-endian: byte 0 holds bits [7:0] (R13). -/
def leBytes : Nat → Nat → Bytes
  | 0, _ => []
  | n + 1, x => byteOf x :: leBytes n (x / 256)

/-- The number a little-endian byte string holds (R13). -/
def ofLe : Bytes → Nat
  | [] => 0
  | b :: bs => b.toNat + 256 * ofLe bs

/-- `n` bytes, big-endian, as the standards of R13 order them. -/
def beBytes (n x : Nat) : Bytes := (leBytes n x).reverse

/-- The number a big-endian byte string holds. -/
def ofBe (bs : Bytes) : Nat := ofLe bs.reverse

/-- `len` bytes of `bs` from offset `off` (fewer where `bs` ends first). -/
def slice (bs : Bytes) (off len : Nat) : Bytes := (bs.drop off).take len

/-- A little-endian field of `len` bytes at offset `off`; bytes that are not carried count as 0 (R473). -/
def leField (bs : Bytes) (off len : Nat) : Nat := ofLe (slice bs off len)

/-- `n` zero bytes. -/
def zeros (n : Nat) : Bytes := List.replicate n 0

/-- `bs` filled with zero bytes up to `n` bytes. -/
def padTo (n : Nat) (bs : Bytes) : Bytes := bs ++ zeros (n - bs.length)

/-- `bs` filled with zero bytes to a whole number of `n`-byte blocks. -/
def padBlocks (n : Nat) (bs : Bytes) : Bytes := bs ++ zeros ((n - bs.length % n) % n)

/-- The bitwise XOR of two byte strings, as long as the shorter one. -/
def xorBytes (a b : Bytes) : Bytes := List.zipWith (· ^^^ ·) a b

/-- A byte string cut into blocks of `n` bytes, at most `fuel` of them. -/
def chunksFuel : Nat → Nat → Bytes → List Bytes
  | 0, _, _ => []
  | _ + 1, _, [] => []
  | fuel + 1, n, b :: bs => (b :: bs).take n :: chunksFuel fuel n ((b :: bs).drop n)

/-- A byte string cut into blocks of `n` bytes (the last one may be shorter). -/
def chunks (n : Nat) (bs : Bytes) : List Bytes := chunksFuel (bs.length + 1) n bs

/-- The bytes of an ASCII label without a terminator (R182). -/
def ascii (s : String) : Bytes := s.toList.map fun c => byteOf c.toNat

/-- Ceiling division. -/
def ceilDiv (a b : Nat) : Nat := (a + b - 1) / b

/-- Saturating count: `a + b`, at most `cap` (the saturating register fields). -/
def satAdd (cap a b : Nat) : Nat := min cap (a + b)

/-- Difference of two counts modulo 2^24: every comparison of epochs is made modulo 2^24 (R224). -/
def sub24 (a b : Nat) : Nat := (a + 2 ^ 24 - b % 2 ^ 24) % 2 ^ 24

end Sys2Proof.Machine
end

