-- ==== Sys2Proof/Machine/Crypto.lean ====
section
/-!
DEFINITION. The ciphers and hashes the spec names by standard: AES-256 (FIPS 197), XTS, CTR, GCM with GHASH, CMAC,
KWP, SHA-384, HMAC-SHA-384 and the SP 800-108 counter-mode derivation of R182. Every function is total and structural, on byte
strings; numbers inside a round are Nat, which the kernel computes.
-/

namespace Sys2Proof.Machine

/-! ### AES-256 (FIPS 197) -/

/-- The S-box of FIPS 197, entry x in bits [8x+7:8x]. -/
def sboxTable : Nat :=
  0x16bb54b00f2d99416842e6bf0d89a18cdf2855cee9871e9b948ed9691198f8e19e1dc186b95735610ef6034866b53e708a8bbd4b1f74dde8c6b4a61c2e2578ba08ae7a65eaf4566ca94ed58d6d37c8e779e4959162acd3c25c2406490a3a32e0db0b5ede14b8ee4688902a22dc4f816073195d643d7ea7c41744975fec130ccdd2f3ff1021dab6bcf5389d928f40a351a89f3c507f02f94585334d43fbaaefd0cf584c4a39becb6a5bb1fc20ed00d153842fe329b3d63b52a05a6e1b1a2c830975b227ebe28012079a059618c323c7041531d871f1e5a534ccf73f362693fdb7c072a49cafa2d4adf04759fa7dc982ca76abd7fe2b670130c56f6bf27b777c63

/-- The inverse S-box of FIPS 197, entry x in bits [8x+7:8x]. -/
def invSboxTable : Nat :=
  0x7d0c2155631469e126d677ba7e042b17619953833cbbebc8b0f52aae4d3be0a0ef9cc9939f7ae52d0d4ab519a97f51605fec8027591012b131c7078833a8dd1ff45acd78fec0db9a2079d2c64b3e56fc1bbe18aa0e62b76f89c5291d711af1476edf751ce837f9e28535ade72274ac9673e6b4f0cecff297eadc674f4111913a6b8a130103bdafc1020f3fca8f1e2cd00645b3b80558e4f70ad3bc8c00abd890849d8da75746155edab9edfd5048706c92b6655dcc5ca4d41698688664f6f87225d18b6d49a25b76b224d92866a12e084ec3fa420b954cee3d23c2a632947b54cbe9dec444438e3487ff2f9b8239e37cfbd7f3819ea340bf38a53630d56a0952

/-- One S-box lookup. -/
def sbox (x : Nat) : Nat := (sboxTable >>> (8 * x)) % 256

/-- One inverse S-box lookup. -/
def invSbox (x : Nat) : Nat := (invSboxTable >>> (8 * x)) % 256

/-- Multiplication by x in the AES field. -/
def xtime (x : Nat) : Nat := if x < 128 then 2 * x else (2 * x) ^^^ 0x11b

/-- `mulAes k x`: the product of x and the constant k < 16 in the AES field. -/
def mulAes (k x : Nat) : Nat :=
  let x2 := xtime x
  let x4 := xtime x2
  let x8 := xtime x4
  (if k % 2 = 1 then x else 0) ^^^ (if k / 2 % 2 = 1 then x2 else 0) ^^^
    (if k / 4 % 2 = 1 then x4 else 0) ^^^ (if k / 8 % 2 = 1 then x8 else 0)

/-- One column of MixColumns with the four coefficients of its first row. -/
def mixColumn (c0 c1 c2 c3 : Nat) : List Nat → List Nat
  | [a, b, c, d] =>
    [mulAes c0 a ^^^ mulAes c1 b ^^^ mulAes c2 c ^^^ mulAes c3 d,
     mulAes c3 a ^^^ mulAes c0 b ^^^ mulAes c1 c ^^^ mulAes c2 d,
     mulAes c2 a ^^^ mulAes c3 b ^^^ mulAes c0 c ^^^ mulAes c1 d,
     mulAes c1 a ^^^ mulAes c2 b ^^^ mulAes c3 c ^^^ mulAes c0 d]
  | xs => xs

/-- MixColumns over a state of four columns. -/
def mixColumns (c0 c1 c2 c3 : Nat) (s : List Nat) : List Nat :=
  mixColumn c0 c1 c2 c3 (s.take 4) ++ mixColumn c0 c1 c2 c3 ((s.drop 4).take 4) ++
    mixColumn c0 c1 c2 c3 ((s.drop 8).take 4) ++ mixColumn c0 c1 c2 c3 (s.drop 12)

/-- ShiftRows. -/
def shiftRows : List Nat → List Nat
  | [a0, a1, a2, a3, b0, b1, b2, b3, c0, c1, c2, c3, d0, d1, d2, d3] =>
    [a0, b1, c2, d3, b0, c1, d2, a3, c0, d1, a2, b3, d0, a1, b2, c3]
  | xs => xs

/-- Inverse of ShiftRows. -/
def invShiftRows : List Nat → List Nat
  | [a0, a1, a2, a3, b0, b1, b2, b3, c0, c1, c2, c3, d0, d1, d2, d3] =>
    [a0, d1, c2, b3, b0, a1, d2, c3, c0, b1, a2, d3, d0, c1, b2, a3]
  | xs => xs

/-- XOR of two states. -/
def xorNats (a b : List Nat) : List Nat := List.zipWith (· ^^^ ·) a b

/-- SubWord of FIPS 197 on a big-endian word. -/
def subWord (w : Nat) : Nat :=
  sbox (w / 2 ^ 24 % 256) * 2 ^ 24 + sbox (w / 2 ^ 16 % 256) * 2 ^ 16 + sbox (w / 2 ^ 8 % 256) * 2 ^ 8 + sbox (w % 256)

/-- RotWord of FIPS 197 on a big-endian word. -/
def rotWord (w : Nat) : Nat := (w * 2 ^ 8) % 2 ^ 32 + w / 2 ^ 24

/-- The key schedule of AES-256: `n` further words after the words in `acc` (newest first), the next index `i`. -/
def expandWords : Nat → Nat → Nat → List Nat → List Nat
  | 0, _, _, acc => acc
  | n + 1, i, rcon, acc =>
    let prev := acc.getD 0 0
    let old := acc.getD 7 0
    if i % 8 = 0 then expandWords n (i + 1) (xtime rcon) ((old ^^^ subWord (rotWord prev) ^^^ (rcon * 2 ^ 24)) :: acc)
    else if i % 8 = 4 then expandWords n (i + 1) rcon ((old ^^^ subWord prev) :: acc)
    else expandWords n (i + 1) rcon ((old ^^^ prev) :: acc)

/-- The big-endian words of a key. -/
def keyWords (key : Bytes) : List Nat := (chunks 4 key).map ofBe

/-- The bytes of a big-endian word, as numbers. -/
def wordBytes (w : Nat) : List Nat := [w / 2 ^ 24 % 256, w / 2 ^ 16 % 256, w / 2 ^ 8 % 256, w % 256]

/-- Four words as sixteen bytes, and so on: the round keys, first round first. -/
def roundKeysOf : List Nat → List (List Nat)
  | a :: b :: c :: d :: ws => (wordBytes a ++ wordBytes b ++ wordBytes c ++ wordBytes d) :: roundKeysOf ws
  | _ => []

/-- The fifteen round keys of AES-256. -/
def aesRoundKeys (key : Bytes) : List (List Nat) :=
  roundKeysOf (expandWords 52 8 1 (keyWords key).reverse).reverse

/-- The rounds after the first key addition; the last one has no MixColumns. -/
def encRounds : List (List Nat) → List Nat → List Nat
  | [], s => s
  | [k], s => xorNats (shiftRows (s.map sbox)) k
  | k :: ks, s => encRounds ks (xorNats (mixColumns 2 3 1 1 (shiftRows (s.map sbox))) k)

/-- The rounds of the inverse cipher, over the round keys in reverse order without the first. -/
def decRounds : List (List Nat) → List Nat → List Nat
  | [], s => s
  | [k], s => xorNats ((invShiftRows s).map invSbox) k
  | k :: ks, s => decRounds ks (mixColumns 14 11 13 9 (xorNats ((invShiftRows s).map invSbox) k))

/-- AES-256 encryption of one 16-byte block under a 32-byte key. [DEDUCED: notes/assumptions/36.md] -/
def aesEnc (key block : Bytes) : Bytes :=
  match aesRoundKeys key with
  | [] => []
  | k :: ks => (encRounds ks (xorNats (block.map (·.toNat)) k)).map byteOf

/-- AES-256 decryption of one 16-byte block under a 32-byte key. -/
def aesDec (key block : Bytes) : Bytes :=
  match (aesRoundKeys key).reverse with
  | [] => []
  | k :: ks => (decRounds ks (xorNats (block.map (·.toNat)) k)).map byteOf

/-! ### XTS (IEEE 1619, NIST SP 800-38E; R215) -/

/-- Multiplication of an XTS tweak by the primitive element: the block is little-endian. -/
def xtsMul (t : Nat) : Nat := if t < 2 ^ 127 then 2 * t else ((2 * t) % 2 ^ 128) ^^^ 0x87

/-- One block of XTS under the tweak mask `t`. -/
def xtsBlock (cipher : Bytes → Bytes) (t : Nat) (b : Bytes) : Bytes :=
  xorBytes (cipher (xorBytes b (leBytes 16 t))) (leBytes 16 t)

/-- XTS over whole blocks. -/
def xtsBlocks (cipher : Bytes → Bytes) : Nat → List Bytes → Bytes
  | _, [] => []
  | t, b :: bs => xtsBlock cipher t b ++ xtsBlocks cipher (xtsMul t) bs

/-- XTS-AES-256 encryption of a data unit of whole blocks; `tweak` is the 16-byte data unit number. -/
def xtsEnc (k1 k2 tweak data : Bytes) : Bytes :=
  xtsBlocks (aesEnc k1) (ofLe (aesEnc k2 tweak)) (chunks 16 data)

/-- XTS-AES-256 decryption of a data unit of whole blocks. -/
def xtsDec (k1 k2 tweak data : Bytes) : Bytes :=
  xtsBlocks (aesDec k1) (ofLe (aesEnc k2 tweak)) (chunks 16 data)

/-- The tweak mask after `n` blocks. -/
def xtsMulN : Nat → Nat → Nat
  | 0, t => t
  | n + 1, t => xtsMulN n (xtsMul t)

/-- XTS encryption of a data unit of at least one block whose last block may be partial: ciphertext stealing. -/
def xtsEncSteal (k1 k2 tweak data : Bytes) : Bytes :=
  let r := data.length % 16
  if r = 0 then xtsEnc k1 k2 tweak data else
    let whole := data.length / 16
    let t := xtsMulN (whole - 1) (ofLe (aesEnc k2 tweak))
    let headPart := xtsEnc k1 k2 tweak (data.take (16 * (whole - 1)))
    let cc := xtsBlock (aesEnc k1) t (slice data (16 * (whole - 1)) 16)
    let last := data.drop (16 * whole)
    headPart ++ xtsBlock (aesEnc k1) (xtsMul t) (last ++ cc.drop r) ++ cc.take r

/-- XTS decryption with ciphertext stealing. -/
def xtsDecSteal (k1 k2 tweak data : Bytes) : Bytes :=
  let r := data.length % 16
  if r = 0 then xtsDec k1 k2 tweak data else
    let whole := data.length / 16
    let t := xtsMulN (whole - 1) (ofLe (aesEnc k2 tweak))
    let headPart := xtsDec k1 k2 tweak (data.take (16 * (whole - 1)))
    let pp := xtsBlock (aesDec k1) (xtsMul t) (slice data (16 * (whole - 1)) 16)
    let last := data.drop (16 * whole)
    headPart ++ xtsBlock (aesDec k1) t (last ++ pp.drop r) ++ pp.take r

/-! ### GHASH, CTR and GCM (NIST SP 800-38D, SP 800-38A) -/

/-- Multiplication in GF(2^128) with the bit order of GHASH: `n` bits of `x` left, the running `v`, the sum `z`. -/
def gfMulLoop : Nat → Nat → Nat → Nat → Nat
  | 0, _, _, z => z
  | n + 1, x, v, z =>
    gfMulLoop n x (if v % 2 = 0 then v / 2 else (v / 2) ^^^ (0xe1 * 2 ^ 120)) (if x.testBit n then z ^^^ v else z)

/-- The product of two blocks, each as a big-endian number. -/
def gfMul (x y : Nat) : Nat := gfMulLoop 128 x y 0

/-- GHASH over whole blocks from the running value `y`. -/
def ghashFrom (h : Nat) : Nat → List Bytes → Nat
  | y, [] => y
  | y, b :: bs => ghashFrom h (gfMul (y ^^^ ofBe (padTo 16 b)) h) bs

/-- GHASH_H over a byte string of whole blocks. -/
def ghash (h : Nat) (data : Bytes) : Nat := ghashFrom h 0 (chunks 16 data)

/-- inc32 of SP 800-38D on a 16-byte counter block. -/
def inc32 (ctr : Nat) : Nat := ctr / 2 ^ 32 * 2 ^ 32 + (ctr + 1) % 2 ^ 32

/-- Counter mode from the counter block `ctr`; `step` is the increment. -/
def ctrBlocks (key : Bytes) (step : Nat → Nat) : Nat → List Bytes → Bytes
  | _, [] => []
  | ctr, b :: bs => xorBytes b (aesEnc key (beBytes 16 ctr)) ++ ctrBlocks key step (step ctr) bs

/-- Counter mode with the 128-bit increment of SP 800-38A. -/
def ctrCrypt (key iv data : Bytes) : Bytes :=
  ctrBlocks key (fun c => (c + 1) % 2 ^ 128) (ofBe iv) (chunks 16 data)

/-- The GCM counter block before the first data block, for a 12-byte nonce. -/
def gcmJ0 (nonce : Bytes) : Nat := ofBe nonce * 2 ^ 32 + 1

/-- The GCM data pass: the same for encryption and decryption. -/
def gcmCtr (key nonce data : Bytes) : Bytes := ctrBlocks key inc32 (inc32 (gcmJ0 nonce)) (chunks 16 data)

/-- The 16-byte GCM tag over AAD and ciphertext. -/
def gcmTag (key nonce aad ct : Bytes) : Bytes :=
  let h := ofBe (aesEnc key (zeros 16))
  let s := ghashFrom h 0 (chunks 16 (padBlocks 16 aad) ++ chunks 16 (padBlocks 16 ct) ++
    [beBytes 8 (8 * aad.length) ++ beBytes 8 (8 * ct.length)])
  xorBytes (beBytes 16 s) (aesEnc key (beBytes 16 (gcmJ0 nonce)))

/-- AES-256-GCM sealing: ciphertext and 16-byte tag. -/
def gcmSeal (key nonce aad pt : Bytes) : Bytes × Bytes :=
  let ct := gcmCtr key nonce pt
  (ct, gcmTag key nonce aad ct)

/-- AES-256-GCM opening: the plaintext, if the tag is right. -/
def gcmOpen (key nonce aad ct tag : Bytes) : Option Bytes :=
  if gcmTag key nonce aad ct = tag then some (gcmCtr key nonce ct) else none

/-! ### CMAC (NIST SP 800-38B) -/

/-- Doubling of a big-endian block in GF(2^128). -/
def cmacDbl (x : Nat) : Nat := if x < 2 ^ 127 then 2 * x else ((2 * x) % 2 ^ 128) ^^^ 0x87

/-- The CBC chain of CMAC over all blocks but the last. -/
def cmacChain (key : Bytes) : Bytes → List Bytes → Bytes
  | y, [] => y
  | y, b :: bs => cmacChain key (aesEnc key (xorBytes y b)) bs

/-- AES-256-CMAC. -/
def cmac (key msg : Bytes) : Bytes :=
  let k1 := cmacDbl (ofBe (aesEnc key (zeros 16)))
  let k2 := cmacDbl k1
  let n := max 1 (ceilDiv msg.length 16)
  let y := cmacChain key (zeros 16) (chunks 16 (msg.take (16 * (n - 1))))
  let last := msg.drop (16 * (n - 1))
  let m := if last.length = 16 then xorBytes last (beBytes 16 k1)
    else xorBytes (padTo 16 (last ++ [0x80])) (beBytes 16 k2)
  aesEnc key (xorBytes y m)

/-! ### KWP (NIST SP 800-38F; R193) -/

/-- One pass of the wrapping function over the semiblocks: `t` is the step number. -/
def wrapPass (key : Bytes) : Nat → Bytes → List Bytes → Bytes × List Bytes
  | _, a, [] => (a, [])
  | t, a, r :: rs =>
    let b := aesEnc key (a ++ r)
    let rest := wrapPass key (t + 1) (xorBytes (b.take 8) (beBytes 8 t)) rs
    (rest.1, b.drop 8 :: rest.2)

/-- `n` passes. -/
def wrapPasses (key : Bytes) : Nat → Nat → Bytes → List Bytes → Bytes × List Bytes
  | 0, _, a, rs => (a, rs)
  | n + 1, t, a, rs =>
    let p := wrapPass key t a rs
    wrapPasses key n (t + rs.length) p.1 p.2

/-- One pass of the unwrapping function, over the semiblocks in reverse order, `t` counting down. -/
def unwrapPass (key : Bytes) : Nat → Bytes → List Bytes → Bytes × List Bytes
  | _, a, [] => (a, [])
  | t, a, r :: rs =>
    let b := aesDec key (xorBytes a (beBytes 8 t) ++ r)
    let rest := unwrapPass key (t - 1) (b.take 8) rs
    (rest.1, b.drop 8 :: rest.2)

/-- `n` passes of unwrapping. -/
def unwrapPasses (key : Bytes) : Nat → Nat → Bytes → List Bytes → Bytes × List Bytes
  | 0, _, a, rs => (a, rs)
  | n + 1, t, a, rs =>
    let p := unwrapPass key t a rs
    unwrapPasses key n (t - rs.length) p.1 p.2

/-- The alternative initial value of KWP for a plaintext of `mli` bytes (R193). -/
def kwpIv (mli : Nat) : Bytes := [0xa6, 0x59, 0x59, 0xa6] ++ beBytes 4 mli

/-- KWP wrap of a plaintext of at least two whole semiblocks. -/
def kwpWrap (key pt : Bytes) : Bytes :=
  let p := wrapPasses key 6 1 (kwpIv pt.length) (chunks 8 pt)
  p.1 ++ p.2.flatten

/-- KWP unwrap of a ciphertext whose plaintext is whole semiblocks: the plaintext, if the initial value is right. -/
def kwpUnwrap (key ct : Bytes) : Option Bytes :=
  let rs := chunks 8 (ct.drop 8)
  let p := unwrapPasses key 6 (6 * rs.length) (ct.take 8) rs.reverse
  if p.1 = kwpIv (8 * rs.length) then some p.2.reverse.flatten else none

/-! ### SHA-384, HMAC-SHA-384 and the derivation of R182 -/

/-- The round constants of SHA-512 (FIPS 180-4). -/
def shaK : List Nat :=
  [0x428a2f98d728ae22, 0x7137449123ef65cd, 0xb5c0fbcfec4d3b2f, 0xe9b5dba58189dbbc, 0x3956c25bf348b538,
   0x59f111f1b605d019, 0x923f82a4af194f9b, 0xab1c5ed5da6d8118, 0xd807aa98a3030242, 0x12835b0145706fbe] ++
  [0x243185be4ee4b28c, 0x550c7dc3d5ffb4e2, 0x72be5d74f27b896f, 0x80deb1fe3b1696b1, 0x9bdc06a725c71235,
   0xc19bf174cf692694, 0xe49b69c19ef14ad2, 0xefbe4786384f25e3, 0xfc19dc68b8cd5b5, 0x240ca1cc77ac9c65] ++
  [0x2de92c6f592b0275, 0x4a7484aa6ea6e483, 0x5cb0a9dcbd41fbd4, 0x76f988da831153b5, 0x983e5152ee66dfab,
   0xa831c66d2db43210, 0xb00327c898fb213f, 0xbf597fc7beef0ee4, 0xc6e00bf33da88fc2, 0xd5a79147930aa725] ++
  [0x6ca6351e003826f, 0x142929670a0e6e70, 0x27b70a8546d22ffc, 0x2e1b21385c26c926, 0x4d2c6dfc5ac42aed,
   0x53380d139d95b3df, 0x650a73548baf63de, 0x766a0abb3c77b2a8, 0x81c2c92e47edaee6, 0x92722c851482353b] ++
  [0xa2bfe8a14cf10364, 0xa81a664bbc423001, 0xc24b8b70d0f89791, 0xc76c51a30654be30, 0xd192e819d6ef5218,
   0xd69906245565a910, 0xf40e35855771202a, 0x106aa07032bbd1b8, 0x19a4c116b8d2d0c8, 0x1e376c085141ab53] ++
  [0x2748774cdf8eeb99, 0x34b0bcb5e19b48a8, 0x391c0cb3c5c95a63, 0x4ed8aa4ae3418acb, 0x5b9cca4f7763e373,
   0x682e6ff3d6b2b8a3, 0x748f82ee5defb2fc, 0x78a5636f43172f60, 0x84c87814a1f0ab72, 0x8cc702081a6439ec] ++
  [0x90befffa23631e28, 0xa4506cebde82bde9, 0xbef9a3f7b2c67915, 0xc67178f2e372532b, 0xca273eceea26619c,
   0xd186b8c721c0c207, 0xeada7dd6cde0eb1e, 0xf57d4f7fee6ed178, 0x6f067aa72176fba, 0xa637dc5a2c898a6] ++
  [0x113f9804bef90dae, 0x1b710b35131c471b, 0x28db77f523047d84, 0x32caab7b40c72493, 0x3c9ebe0a15c9bebc,
   0x431d67c49c100d4c, 0x4cc5d4becb3e42b6, 0x597f299cfc657e2a, 0x5fcb6fab3ad6faec, 0x6c44198c4a475817]

/-- The initial hash value of SHA-384. -/
def shaInit : List Nat :=
  [0xcbbb9d5dc1059ed8, 0x629a292a367cd507, 0x9159015a3070dd17, 0x152fecd8f70e5939,
   0x67332667ffc00b31, 0x8eb44a8768581511, 0xdb0c2e0d64f98fa7, 0x47b5481dbefa4fa4]

/-- Rotation of a 64-bit word to the right. -/
def rotr64 (n x : Nat) : Nat := (x >>> n) ||| ((x <<< (64 - n)) % 2 ^ 64)

/-- The message schedule: `n` further words after those in `acc` (newest first). -/
def shaSchedule : Nat → List Nat → List Nat
  | 0, acc => acc
  | n + 1, acc =>
    let w2 := acc.getD 1 0
    let w7 := acc.getD 6 0
    let w15 := acc.getD 14 0
    let w16 := acc.getD 15 0
    let s0 := rotr64 1 w15 ^^^ rotr64 8 w15 ^^^ (w15 >>> 7)
    let s1 := rotr64 19 w2 ^^^ rotr64 61 w2 ^^^ (w2 >>> 6)
    shaSchedule n (((w16 + s0 + w7 + s1) % 2 ^ 64) :: acc)

/-- The rounds of the compression function over pairs of constants and schedule words. -/
def shaRounds : List (Nat × Nat) → List Nat → List Nat
  | (k, w) :: kws, [a, b, c, d, e, f, g, h] =>
    let t1 := h + (rotr64 14 e ^^^ rotr64 18 e ^^^ rotr64 41 e) + ((e &&& f) ^^^ ((2 ^ 64 - 1 - e) &&& g)) + k + w
    let t2 := (rotr64 28 a ^^^ rotr64 34 a ^^^ rotr64 39 a) + ((a &&& b) ^^^ (a &&& c) ^^^ (b &&& c))
    shaRounds kws [(t1 + t2) % 2 ^ 64, a, b, c, (d + t1) % 2 ^ 64, e, f, g]
  | _, s => s

/-- One block of the compression function. -/
def shaBlock (hv : List Nat) (block : Bytes) : List Nat :=
  let w := (shaSchedule 64 ((chunks 8 block).map ofBe).reverse).reverse
  List.zipWith (fun x y => (x + y) % 2 ^ 64) hv (shaRounds (shaK.zip w) hv)

/-- The padded message of SHA-384. -/
def shaPad (msg : Bytes) : Bytes :=
  msg ++ [0x80] ++ zeros ((239 - msg.length % 128) % 128) ++ beBytes 16 (8 * msg.length)

/-- SHA-384 (FIPS 180-4): 48 bytes. -/
def sha384 (msg : Bytes) : Bytes :=
  (((chunks 128 (shaPad msg)).foldl shaBlock shaInit).take 6).flatMap (beBytes 8)

/-- HMAC-SHA-384 (FIPS 198-1). -/
def hmac384 (key msg : Bytes) : Bytes :=
  let k := padTo 128 (if key.length ≤ 128 then key else sha384 key)
  sha384 (k.map (· ^^^ 0x5c) ++ sha384 (k.map (· ^^^ 0x36) ++ msg))

/-- `n` iterations of the counter-mode derivation from counter `i` (R182). -/
def kdfBlocks (kdk fixed : Bytes) : Nat → Nat → Bytes
  | 0, _ => []
  | n + 1, i => hmac384 kdk (beBytes 4 i ++ fixed) ++ kdfBlocks kdk fixed n (i + 1)

/-- The derivation of R182: HMAC-SHA-384 in counter mode over Label, 0x00, Context and the length in bits. -/
def kdf (kdk : Bytes) (label : String) (context : Bytes) (bits : Nat) : Bytes :=
  (kdfBlocks kdk (ascii label ++ [0] ++ context ++ beBytes 4 bits) (ceilDiv bits 384) 1).take (bits / 8)

end Sys2Proof.Machine
end

