-- ==== Sys2Proof/Machine/Types/Mem.lean ====
section
/-!
DEFINITION. State of the Memory Sealing Engines (spec/09_memory_sealing_engines.md), the Ledger with its store, the global write epoch
(spec/08_sealed_sector_format.md) and the Sweeper (spec/10_ledger_sweeper.md).
-/

namespace Sys2Proof.Machine

/-- A region: the class (pool or local) and its index (R280). -/
structure RegionId where
  pool : Bool
  index : Nat
  deriving DecidableEq, Repr

/-- The region states of R282, coded by `RegState.code`. -/
inductive RegState where
  | free | sealed | frozen | plain | boot | zeroing | retiring | quarantined | lstore
  deriving DecidableEq, Repr

/-- A region entry (R280). -/
structure LdgEntry where
  owner : Nat
  gen : Nat
  state : RegState
  floor : Nat
  sweep : Bool
  deriving DecidableEq, Repr

/-- A host-side request an MSE has accepted (R59). -/
structure HostReq where
  write : Bool
  lane : Nat
  /-- Sealed address [55:7]. -/
  sector : Nat
  stall : Nat
  id : Nat
  cls : Nat
  lock : Bool
  unlock : Bool
  /-- Byte enables of a write, bit b for byte b. -/
  be : Nat
  data : Bytes
  /-- Elapsed time of its acceptance. -/
  since : Nat
  deriving DecidableEq, Repr

/-- Why a request is held rather than answered (R263, last paragraph). -/
inductive HoldCause where
  /-- Ledger entry cache miss (R49). -/
  | ledger
  /-- Key cache miss on a handle and generation (R191). -/
  | key (handle gen : Nat)
  /-- Pool Ledger line read (R264). -/
  | poolLine (line : Nat)
  /-- Stall fill under the HOLD policy (R401). -/
  | fill (stall : Nat)
  /-- A write that misses the tag cache (R267). -/
  | tagLine (line : Nat)
  deriving DecidableEq, Repr

/-- One merge buffer of a hazard entry (R247): the bytes, their enables, the requests it answers. -/
structure MergeBuf where
  data : Bytes
  be : Nat
  list : List HostReq
  deriving DecidableEq, Repr

/-- A sector hazard entry (R244 to R249). -/
structure Hazard where
  sector : Nat
  /-- Verified or freshly merged plaintext the entry holds. -/
  plain : Option Bytes
  /-- The Stall that holds the lock and the elapsed time of its read response. -/
  lock : Option (Nat × Nat)
  /-- The buffer whose write is outstanding. -/
  outBuf : Option MergeBuf
  /-- The buffer that fills. -/
  fillBuf : Option MergeBuf
  /-- Requests that wait in arrival order for another reason. -/
  queue : List HostReq
  /-- The entry was taken by a Sweeper re-seal. -/
  sweeper : Bool
  deriving DecidableEq, Repr

/-- What a memory-side request serves. -/
inductive MemRole where
  /-- A host read, with every read that joined it (R243). -/
  | hostRead
  /-- The read that serves a partial write, an unlock write or a lock read of the sector's hazard entry. -/
  | entryRead
  /-- The read of a Sweeper re-seal (R296). -/
  | sweepRead
  /-- A carve-out tag line (R267). -/
  | tagRead
  | hostWrite
  /-- The write of a hazard entry's outstanding buffer. -/
  | entryWrite
  /-- A Sweeper re-seal's write: offset inside the region. -/
  | sweepWrite
  /-- A zero-fill write (R285). -/
  | zeroWrite
  | tagWrite
  deriving DecidableEq, Repr

/-- A memory-side request: queued while `id` is none, else outstanding (R65). -/
structure MemOp where
  role : MemRole
  sector : Nat
  lane : Nat
  cls : Nat
  write : Bool
  co : Bool
  id : Option Nat
  /-- Elapsed time at which it was queued, then at which it was presented (R261). -/
  since : Nat
  data : Bytes
  sb : Nat
  /-- Host requests the operation answers. -/
  reqs : List HostReq
  /-- 0 first read, 1 re-read, 2 second re-read of a Sounding. -/
  attempt : Nat
  /-- CHECK of the first failure (R256). -/
  check : Nat
  /-- A beat that waits for its tag line or its key: the ciphertext is in `data`, the sideband word in `sb`. -/
  beat : Bool
  /-- Result of the lane test of the Sounding, once it has ended. -/
  laneTest : Option Bool
  /-- Verdict of the second re-read, once it has come. -/
  second : Option Bool
  deriving DecidableEq, Repr

/-- An ID whose T_MEM has expired and whose beat or acknowledgement has not arrived (R261, R262). -/
structure Reserved where
  id : Nat
  sector : Nat
  write : Bool
  deriving DecidableEq, Repr

/-- One entry of the bad-sector list (R259, R277). -/
structure BadSector where
  sector : Nat
  partialWrite : Bool
  deriving DecidableEq, Repr

/-- The sweep state of a region a tile has adopted (R251 ADOPT, R294). -/
structure TileSweep where
  region : RegionId
  old : Nat
  new : Nat
  /-- The old key is the boot key (R220). -/
  bootOld : Bool
  deriving DecidableEq, Repr

/-- A message of the control spine to a tile (R45): fences (R251), squashes (R252), refusal map updates (R394) and entry
invalidations (R283). -/
inductive SpineMsg where
  /-- An ADOPT fence that brings the sweep state of a region. -/
  | adopt (t : TileSweep) (stall : Nat)
  /-- An ADOPT fence that removes the sweep state of a region (R297 step 3). -/
  | unadopt (region : RegionId) (stall : Nat)
  | retire (stall gen : Nat)
  | squash (stall : Nat)
  | refusal (stall : Nat) (on : Bool)
  | invalidate (region : RegionId)
  deriving DecidableEq, Repr

/-- What a tile holds of the control spine. -/
structure Spine where
  /-- Messages sent and not yet applied, in the order sent. -/
  queue : List SpineMsg
  /-- Messages applied and not yet acknowledged, with the earlier requests (write channel, ID) they wait for. -/
  acks : List (SpineMsg × List (Bool × Nat))
  /-- Stalls the refusal map refuses (R394). -/
  refused : List Nat
  deriving DecidableEq, Repr

/-- How far the tag-line write of a word has come (R267). -/
inductive TagStage where
  | pending | inFlight | acked
  deriving DecidableEq, Repr

/-- A data write whose tag word is on its way (R267): the requests wait for both acknowledgements. -/
structure TagWait where
  sector : Nat
  stage : TagStage
  dataAcked : Bool
  reqs : List HostReq
  deriving DecidableEq, Repr

/-- The state of a tag line with words set and not yet acknowledged (R267). -/
structure TagPending where
  line : Nat
  /-- Elapsed time at which the first word of the next write was set. -/
  since : Nat
  waits : List TagWait
  deriving DecidableEq, Repr

/-- Counters and error state of one MSE (R272 to R277). -/
structure MseErr where
  integrity : Nat
  rereadOk : Nat
  refused : Nat
  misroute : Nat
  /-- EV_MSE_MISROUTE was raised since the last tick (R263). -/
  misrouteRaised : Bool
  sound : Nat
  soundValid : Bool
  bad : List BadSector
  badOverflow : Bool
  badSel : BitVec 12
  katFail : BitVec 10
  dirLost : Bool
  deriving DecidableEq, Repr

/-- One Memory Sealing Engine. -/
structure Mse where
  /-- The tile's current epoch E_t (R225). -/
  epoch : Nat
  /-- Accepted requests held before their hazard lookup. -/
  held : List (HostReq × HoldCause)
  hazards : List Hazard
  /-- Memory-side requests, queued and outstanding, oldest first. -/
  ops : List MemOp
  reserved : List Reserved
  nextId : Nat
  /-- Physical lanes under their known-answer test: logical lanes served (R238). -/
  testing : List Nat
  /-- The tile's Ledger entry cache, newest first, at most 1,024 (R41). -/
  ledger : List (RegionId × LdgEntry)
  sweeps : List TileSweep
  /-- Generations made unusable by RETIRE: Stall, generation (R251). -/
  retired : List (Nat × Nat)
  spine : Spine
  /-- Cached tag lines, newest first: line and its 16 words (R266). -/
  tags : List (Nat × List Nat)
  tagPending : List TagPending
  err : MseErr
  /-- The weighted round-robin position over classes (R253). -/
  rr : Nat
  deriving DecidableEq, Repr

/-- One entry of the epoch start ring (R229). -/
structure EpochStart where
  epoch : Nat
  time : Nat
  inherited : Bool
  deriving DecidableEq, Repr

/-- The recovery anchor (R139, R302). -/
structure Anchor where
  valid : Bool
  clearedByTamper : Bool
  epoch : Nat
  root : Bytes
  seq : Nat
  deriving DecidableEq, Repr

/-- Kinds of sweep orders, in priority order (R291). -/
inductive SweepKind where
  | band | floor | zero | key
  deriving DecidableEq, Repr

/-- A queued sweep order (R291). -/
structure SweepOrder where
  kind : SweepKind
  region : RegionId
  stall : Nat
  old : Nat
  new : Nat
  bootOld : Bool
  deriving DecidableEq, Repr

/-- An active sweep slot (R294, R295). -/
structure SweepSlot where
  order : SweepOrder
  /-- The open stride, 0 to 63. -/
  stride : Nat
  /-- Sector offsets (0 to 511) of the open stride whose done bit is set. -/
  done : List Nat
  /-- Byte offset at which the double-trial band ends. -/
  bandHi : Nat
  /-- The stride checkpoint that ends the open stride is being written (R294). -/
  waiting : Bool
  eS : Nat
  deriving DecidableEq, Repr

/-- One item of a delta record (R302). -/
inductive DeltaItem where
  | entry (region : RegionId) (e : LdgEntry)
  | stride (slot stride : Nat) (s : SweepSlot)
  | epoch (e time : Nat)
  /-- Bytes 8 × part to 8 × part + 7 of a Stall record digest. -/
  | digest (stall part : Nat) (bytes : Bytes)
  | base (sha : Bytes)
  deriving DecidableEq, Repr

/-- A delta record: SEQ, COUNTER and its items (R302). -/
structure DeltaRecord where
  seq : Nat
  counter : Nat
  items : List DeltaItem
  deriving DecidableEq, Repr

/-- What the Ledger store holds up to a record: base and items applied (R301 to R304). [DEDUCED: notes/assumptions/35.md] -/
structure StoreImage where
  localEntries : List (Nat × LdgEntry)
  poolEntries : List (Nat × LdgEntry)
  versions : List (Nat × Nat)
  ring : List (Nat × EpochStart)
  digests : List (Nat × Bytes)
  slots : List (Nat × SweepSlot)
  deriving DecidableEq, Repr

/-- What happens when every MSE has acknowledged an entry change (R283). -/
inductive ChangeGoal where
  /-- The region becomes FREE (R286). -/
  | retire
  /-- The change is ready to be anchored. -/
  | anchor
  deriving DecidableEq, Repr

/-- An entry change whose invalidation acknowledgements are awaited (R283). -/
structure Change where
  region : RegionId
  goal : ChangeGoal
  deriving DecidableEq, Repr

/-- A command that completes once its changes are acknowledged and anchored (R283). -/
structure AnchorWait where
  call : Call
  status : Nat
  result : Bytes
  /-- Regions whose change has not yet been acknowledged by every MSE, or whose fill has not ended. -/
  regions : List RegionId
  /-- Items still to be anchored. -/
  items : List DeltaItem
  deriving DecidableEq, Repr

/-- The global write epoch (R224, R229 to R235). -/
structure Epoch where
  epoch : Nat
  held : Bool
  frozen : Bool
  ticksSince : Nat
  holdCount : Nat
  /-- The current hold is due to a local, a pool region (R311). -/
  holdLocal : Bool
  holdPool : Bool
  /-- EV_SWP_HOLD was raised for the current hold (R300). -/
  holdRaised : Bool
  /-- MSEs that have not acknowledged the last advance (R225). -/
  unacked : List Nat
  ring : List (Nat × EpochStart)
  sel : BitVec 8
  deriving DecidableEq, Repr

/-- The Ledger (R280 to R312). -/
structure Ldg where
  /-- Local entries that are not FREE, rising by index. -/
  localEntries : List (Nat × LdgEntry)
  poolEntries : List (Nat × LdgEntry)
  /-- Pool lines resident in the cache, newest first (R289). -/
  poolCache : List Nat
  /-- Pool line reads outstanding (R289). -/
  poolReads : List Nat
  /-- Pool line versions that are not 0 (R288). -/
  versions : List (Nat × Nat)
  storeOk : Bool
  storeId : Bytes
  /-- The DRK the store's checkpoint key was derived from when it was formatted. -/
  storeRoot : Bytes
  counter : Nat
  sinceBase : Nat
  baseSlotB : Bool
  baseBusy : Bool
  /-- What the base being written holds; it becomes the store's content when its marker record is acknowledged (R303). -/
  baseImage : Option StoreImage
  /-- Position in the log ring of the next record (R301). -/
  logPos : Nat
  logWait : Bool
  changes : List Change
  /-- Entries that grant access, applied once their item is anchored (R283). -/
  grants : List (RegionId × LdgEntry)
  /-- Items ready for a record, oldest first. -/
  items : List DeltaItem
  flight : Option DeltaRecord
  waits : List AnchorWait
  store : StoreImage
  anchor : Anchor
  secCount : Nat
  dedCount : Nat
  rowsExhausted : Bool
  rowTests : List Nat
  sel : BitVec 21
  /-- A restore or a store format runs (R301, R304). -/
  restoring : Bool
  deriving DecidableEq, Repr

/-- A key sweep of a Stall (R297). -/
structure KeySweep where
  stall : Nat
  old : Nat
  new : Nat
  /-- The RETIRE fence has been sent (step 4). -/
  retiring : Bool
  /-- The old generation has reached 100% of its limit: BAND_HI is 4 MiB for every unswept region (R295). -/
  wear : Bool
  deriving DecidableEq, Repr

/-- The Sweeper (R291 to R300, R313 to R315). -/
structure Swp where
  slots : List (Nat × SweepSlot)
  queue : List SweepOrder
  sweeps : List KeySweep
  /-- A yield: its first HINT and its end, elapsed times (R293). -/
  yield : Option (Nat × Nat)
  /-- After YIELD_MAX no yield begins before this many ticks have passed (R293). -/
  yieldBlocked : Nat
  paused : Bool
  zeroed : Nat
  slotSel : BitVec 4
  deriving DecidableEq, Repr

end Sys2Proof.Machine
end

