-- ==== Sys2Proof/Machine/Types/Stl.lean ====
section
/-!
DEFINITION. State of the Stall manager (spec/13_stalls.md): the Stall table, the Stall records, residency, removal and
migration.
-/

namespace Sys2Proof.Machine

/-- The states of R393, coded by `StallState.code`. -/
inductive StallState where
  | free | admitted | keyed | frozen | lost | removing
  deriving DecidableEq, Repr

/-- An owner entry of a Stall record (R396). -/
structure OwnerEntry where
  index : Nat
  valid : Bool
  keyDigest : Bytes
  kEst : Bytes
  deriving DecidableEq, Repr

/-- A key table entry (R397). -/
structure KeyEntry where
  handle : Nat
  gen : Nat
  pinned : Bool
  migratable : Bool
  usage : Nat
  keyLen : Nat
  use : Nat
  ops : Nat
  blobAddr : Nat
  blobTag : Bytes
  eC : Nat
  /-- The owner an EXPORT or INGEST key is derived toward (R183); 0 otherwise. -/
  ownerIdx : Nat
  destroyed : Bool
  deriving DecidableEq, Repr

/-- An entry of a Stall's extend log (R366). -/
structure LogEntry where
  seq : Nat
  reg : Nat
  kind : Nat
  owner : Nat
  digest : Bytes
  time : Nat
  unanchored : Bool
  deriving DecidableEq, Repr

/-- One owner block of the privacy budget (R463): EXPORT_SEQ and the releases charged under classes 0 to 7. -/
structure BudgetEntry where
  seq : Nat
  charged : List Nat
  deriving DecidableEq, Repr

/-- A replay statement (R34, R428), as refreshed at the last tick. -/
structure ReplayStatement where
  span : Nat
  hasLocal : Bool
  hasPool : Bool
  stretch : Bool
  unknown : Bool
  fromRecord : Bool
  /-- Replay age in ms. -/
  age : Nat
  deriving DecidableEq, Repr

/-- The content of a Stall record (R396) with its state in the on-die table (R393). -/
structure Stall where
  state : StallState
  inst : Bytes
  /-- VERSION of the record (R398). -/
  version : Nat
  measLocked : Bool
  x2 : Bool
  rebase : Bool
  saved : Bool
  imported : Bool
  logOverflow : Bool
  lostCause : Nat
  nextSerial : Nat
  extendSeq : Nat
  /-- FILL: true FAULT. -/
  fillFault : Bool
  /-- INTEG: true LOSE. -/
  integLose : Bool
  /-- The tenant exchange has completed (FLAGS [6] KEYED). -/
  keyed : Bool
  /-- BOOTH: the Stall selected stream mode. -/
  boothStream : Bool
  /-- BIND: the Stall selected NOINIT. -/
  bindNoinit : Bool
  eSrc : Nat
  bias : Nat
  admitTime : Nat
  saveSeq : Nat
  deriving DecidableEq, Repr

/-- The secrets and tables of a Stall record (R396). -/
structure StallData where
  stallRoot : Bytes
  kEst : Bytes
  th : Bytes
  tenantKey : Bytes
  policyDigest : Bytes
  account : Nat
  freezeList : Bytes
  freezeEpoch : Nat
  importFloorTime : Nat
  owners : List OwnerEntry
  budget : List BudgetEntry
  mrs : List (Nat × Bytes)
  log : List LogEntry
  keys : List KeyEntry
  wrapCount : Nat
  replay : ReplayStatement
  /-- Domain time of the last use of the Stall's slot, for the LRU choice (R400). -/
  lastUse : Nat
  /-- SHA-384 of the record as it was last written (R398). -/
  recordDigest : Bytes
  deriving DecidableEq, Repr

/-- A fill or an access that waits for a Stall's slot (R400, R401). -/
structure Fill where
  stall : Nat
  /-- The fill has a slot and its record read is outstanding. -/
  slot : Option Nat
  since : Nat
  /-- The Stall spilled for it, 0xFFF for none (R562). -/
  victim : Nat
  deriving DecidableEq, Repr

/-- A removal in progress (R412, R413). -/
structure Removal where
  stall : Nat
  inst : Bytes
  /-- The step in hand, 1 to 6. -/
  step : Nat
  /-- Elapsed time at which the step began. -/
  since : Nat
  /-- Regions whose retirement step 4 waits to see anchored. -/
  regions : List RegionId
  call : Option Call
  deriving DecidableEq, Repr

/-- A freeze that drains (R415). -/
structure Freeze where
  stall : Nat
  since : Nat
  /-- Where the freeze list goes. -/
  list : Nat
  /-- T_DRAIN has expired and the squash orders are out. -/
  squashed : Bool
  call : Call
  deriving DecidableEq, Repr

/-- A migration session held on die (R416). -/
structure MigSession where
  /-- This block is the source. -/
  source : Bool
  stall : Nat
  /-- The other block's logical chip ID. -/
  peer : Nat
  inst : Bytes
  th : Bytes
  kEst : Bytes
  since : Nat
  deriving DecidableEq, Repr

/-- The Stall manager (R393 to R430). -/
structure Stl where
  /-- Stalls that are not FREE, rising by Stall ID. -/
  table : List (Nat × Stall)
  data : List (Nat × StallData)
  /-- What the Stall records in memory hold as last written (R398). -/
  records : List (Nat × Stall × StallData)
  /-- Resident slots: slot, Stall. -/
  slots : List (Nat × Nat)
  fills : List Fill
  removals : List Removal
  freezes : List Freeze
  sessions : List MigSession
  /-- The function map (R403): entry index to function and Stall. -/
  fnMap : List (Nat × (Nat × Nat))
  /-- The admission credit (R405). -/
  credit : Nat
  /-- Elapsed time of the last credit update (R405). -/
  creditAt : Nat
  deferCount : Nat
  sel : BitVec 12
  fnSel : BitVec 10
  deriving DecidableEq, Repr

end Sys2Proof.Machine
end

