-- ==== Sys2Proof/Machine/Flags.lean ====
section
/-!
DEFINITION. Codes and flags: status codes (spec/16_command_interface.md R487), event codes (R489, R514, R542, R565), alarm codes
and causes (spec/18_faults_alarms_recovery.md R521, R522), unit codes (R131, R488), reset causes (R141) and the codes of states.
-/

namespace Sys2Proof.Machine

/-! ### Status codes (R487) -/

def stOk : Nat := 0x0000
def stMalformed : Nat := 0x0001
def stOpcode : Nat := 0x0002
def stAbsent : Nat := 0x0003
def stHarbour : Nat := 0x0004
def stIssuer : Nat := 0x0005
def stParam : Nat := 0x0006
def stFnUnmapped : Nat := 0x0007
def stLifecycle : Nat := 0x0008
def stUnitReset : Nat := 0x0009
def stNoEntropy : Nat := 0x000A
def stMemory : Nat := 0x000B
def stShort : Nat := 0x000C
def stAlmanac : Nat := 0x000D
def stPatch : Nat := 0x000E
def stPatchFull : Nat := 0x000F
def stStallLost : Nat := 0x0100
def stStallUnkeyed : Nat := 0x0101
def stStallFrozen : Nat := 0x0102
def stStallFilling : Nat := 0x0103
def stStallBusy : Nat := 0x0104
def stStallMigrated : Nat := 0x0105
def stMigRebasing : Nat := 0x0106
def stMigStale : Nat := 0x0107
def stMigParam : Nat := 0x0108
def stNoSession : Nat := 0x0109
def stPolicy : Nat := 0x010A
def stFnFull : Nat := 0x010B
def stKeyType : Nat := 0x0200
def stKeyUnknown : Nat := 0x0201
def stKeyStale : Nat := 0x0202
def stKeyLimit : Nat := 0x0203
def stKeyInUse : Nat := 0x0204
def stNoKeyslot : Nat := 0x0205
def stRegionBusy : Nat := 0x0300
def stRegionRange : Nat := 0x0301
def stRegionState : Nat := 0x0302
def stLinkDown : Nat := 0x0400
def stWindowFull : Nat := 0x0401
def stXckFull : Nat := 0x0402
def stMeasLocked : Nat := 0x0500
def stEvidence : Nat := 0x0501
def stX2Late : Nat := 0x0502
def stX2Off : Nat := 0x0503
def stDomainJoined : Nat := 0x0504
def stDomainParam : Nat := 0x0505
def stMarkFull : Nat := 0x0600
def stMarkStale : Nat := 0x0601
def stMarkWrap : Nat := 0x0602
def stMarkPoisoned : Nat := 0x0603
def stMarkMode : Nat := 0x0604
def stMarkTimeout : Nat := 0x0605
def stBoothBusy : Nat := 0x0700
def stBoothNolock : Nat := 0x0701
def stBthParam : Nat := 0x0702
def stBthAddr : Nat := 0x0703
def stBthNotoll : Nat := 0x0704
def stBthMemory : Nat := 0x0705
def stBthTag : Nat := 0x0706
def stTolNopolicy : Nat := 0x0800
def stTolPolicy : Nat := 0x0801
def stTolRule : Nat := 0x0802
def stTolOwner : Nat := 0x0803
def stTolParam : Nat := 0x0804
def stTolAddr : Nat := 0x0805
def stTolBudget : Nat := 0x0806
def stTolMemory : Nat := 0x0807
def stTolNonfinite : Nat := 0x0808

/-! ### Events (R489, R514, R542, R565) -/

def evTickShort : Nat := 0x0001
def evTickLate : Nat := 0x0002
def evTickOverrun : Nat := 0x0003
def evPclkSlow : Nat := 0x0004
def evTimeUnlock : Nat := 0x0005
def evUnitReset : Nat := 0x0006
def evAnchorFail : Nat := 0x0007
def evSettingsNone : Nat := 0x0010
def evFullMode : Nat := 0x0011
def evKeyStale : Nat := 0x0020
def evKeyWear : Nat := 0x0021
def evEntropyFail : Nat := 0x0022
def evMseReread : Nat := 0x0030
def evMseMisroute : Nat := 0x0031
def evLaneFault : Nat := 0x0032
def evLaneShared : Nat := 0x0033
def evLockTimeout : Nat := 0x0034
def evBadlistFull : Nat := 0x0035
def evLdgRowRepair : Nat := 0x0040
def evSweepDone : Nat := 0x0041
def evSwpHold : Nat := 0x0042
def evReplayStretch : Nat := 0x0043
def evLseWindow : Nat := 0x0050
def evLseDead : Nat := 0x0051
def evLseGap : Nat := 0x0052
def evLseDown : Nat := 0x0053
def evHseInsecure : Nat := 0x0054
def evXckMismatch : Nat := 0x0055
def evXckUnpaired : Nat := 0x0056
def evEvidenceChanged : Nat := 0x0060
def evHybFail : Nat := 0x0061
def evJoinFail : Nat := 0x0062
def evMarkPoison : Nat := 0x0063
def evAdmitDeferred : Nat := 0x0070
def evRebaseDone : Nat := 0x0071
def evBthLease : Nat := 0x0080
def evBthNotoll : Nat := 0x0081
def evCmdRejected : Nat := 0x0090
def evCwOverrun : Nat := 0x0091
def evEvqLost : Nat := 0x0092
def evLcDone : Nat := 0x00A0
def evLcResumed : Nat := 0x00A1
def evLcRefused : Nat := 0x00A2
def evDoldrums : Nat := 0x00B0
def evDoldrumsEnd : Nat := 0x00B1
def evSounding : Nat := 0x00B2
def evHangDump : Nat := 0x00B3
def evBeacon : Nat := 0x00C0
def evCtrBankFault : Nat := 0x00C1
def evGaplogFull : Nat := 0x00C2
def evStySealBreak : Nat := 0x00D0
def evStySuspect : Nat := 0x00D1
def evStyExhausted : Nat := 0x00D2

/-- The events marked U, which raise reg_irq[3] (R489, R514, R542, R565). -/
def urgentEvents : List Nat :=
  [evTickLate, evTickOverrun, evTimeUnlock, evAnchorFail, evKeyWear, evEntropyFail, evLaneShared, evBadlistFull,
   evSwpHold, evReplayStretch, evLseDown, evHseInsecure, evCwOverrun, evEvqLost, evLcDone, evLcResumed, evDoldrums,
   evCtrBankFault, evStySealBreak, evStyExhausted]

/-! ### Alarms (R521, R522) -/

def alTamper : Nat := 0x8001
def alClock : Nat := 0x8002
def alIntegrity : Nat := 0x8003
def alSafestop : Nat := 0x8004

/-! ### Unit codes (R131, R488) -/

def unitMse (i : Nat) : Nat := i
def unitLse (i : Nat) : Nat := 0x40 + i
def unitHse (i : Nat) : Nat := 0x80 + i
def unitBooth : Nat := 0xC0
def unitTollgate : Nat := 0xC1
def unitCrosscheck : Nat := 0xC2
def unitSweeper : Nat := 0xC3
def unitSteelyard : Nat := 0xC4
def unitHelm : Nat := 0xC5
def unitStrongbox : Nat := 0xC6
def unitLedger : Nat := 0xC7
def unitStallMgr : Nat := 0xC8
def unitMarks : Nat := 0xC9
def unitChart : Nat := 0xCA
def unitAlmanac : Nat := 0xCB
def unitLifecycle : Nat := 0xCC
def unitRcu : Nat := 0xCD
def unitAlarm : Nat := 0xCE
def unitObs : Nat := 0xCF

/-! ### Reset causes: bit positions of XS_RCU_RSTCAUSE (R141) -/

def causePor : Nat := 0
def causeSys : Nat := 1
def causeSysAfterTamper : Nat := 2
def causeSysAfterSafestop : Nat := 3
def causeEarlyRelease : Nat := 4
def causeLoadRestart : Nat := 5
def causeLcResume : Nat := 6
def causeCoreWdog : Nat := 7
def causeCoreCmd : Nat := 8
def causeCorePatch : Nat := 9
def causeRuntInReset : Nat := 10

/-- A bit of a bit vector set. -/
def setBit {w : Nat} (v : BitVec w) (i : Nat) : BitVec w := v ||| BitVec.ofNat w (2 ^ i)

/-- The bits of `v` cleared where `m` has a 1: a write to a W1C field (R15). -/
def w1c {w : Nat} (v m : BitVec w) : BitVec w := v &&& ~~~m

/-- A flag as a number. -/
def bit (b : Bool) : Nat := if b then 1 else 0

/-! ### Codes of states -/

/-- STATE of a region entry (R282). -/
def RegState.code : RegState → Nat
  | .free => 0
  | .sealed => 1
  | .frozen => 2
  | .plain => 3
  | .boot => 4
  | .zeroing => 5
  | .retiring => 6
  | .quarantined => 7
  | .lstore => 8

/-- STATE of a Stall (R393). -/
def StallState.code : StallState → Nat
  | .free => 0
  | .admitted => 1
  | .keyed => 2
  | .frozen => 3
  | .lost => 4
  | .removing => 5

/-- KIND of a sweep slot (R315). -/
def SweepKind.code : SweepKind → Nat
  | .band => 0
  | .floor => 1
  | .zero => 2
  | .key => 3

/-- Lifecycle codes (R495). -/
def lcBlank : Nat := 0
def lcTestLocked : Nat := 1
def lcTestOpen : Nat := 2
def lcProvision : Nat := 3
def lcDeployed : Nat := 4
def lcAnalysis : Nat := 5
def lcScrap : Nat := 6
def lcInvalid : Nat := 0xF
/-- TARGET of KEYFUSE (R500). -/
def lcKeyfuse : Nat := 0x10

/-- The code of a port status (R60). -/
def PortStatus.code : PortStatus → Nat
  | .ok => 0
  | .refused => 1
  | .integrity => 2
  | .poison => 3

/-- The data of every read response whose status is not OK: ones in every word (R60). -/
def onesData (n : Nat) : Bytes := List.replicate n 0xFF

end Sys2Proof.Machine
end

