-- ==== Sys2Proof/Machine/Types/Core.lean ====
section
/-!
DEFINITION. State of the input pins, the Reset and clock unit (spec/04_clocks_time.md, spec/05_reset.md), the Alarm unit
(spec/18_faults_alarms_recovery.md), Observability (spec/19_observability.md) and Helm (spec/16_command_interface.md).
-/

namespace Sys2Proof.Machine

/-- The input levels the block last sampled (R83, R84, R87). -/
structure Pins where
  porN : Bool
  sysN : Bool
  tick : Bool
  clkcGood : Bool
  clkcStretch : Bool
  freqReq : Bool
  freqAckRet : Bool
  coolantOk : Bool
  tamper : BitVec 8
  tamperB : BitVec 8
  railFlag : Bool
  tempFlag : Bool
  deriving DecidableEq, Repr

/-- Where the block stands between reset and service (R125, R597). -/
inductive Phase where
  /-- In P or S. -/
  | inReset
  /-- Released; steps 1 to 3 of R125 run. -/
  | loading
  /-- Out of the load: no-Almanac, Harbour or full mode, or SCRAP and INVALID (R510). -/
  | service
  deriving DecidableEq, Repr

/-- The state of one unit reset (R132). -/
structure UnitReset where
  code : Nat
  /-- The elapsed time at which its idle request began. -/
  since : Nat
  /-- The unit is idle and held in reset. -/
  held : Bool
  forced : Bool
  squashed : Nat
  deriving DecidableEq, Repr

/-- One partition announcement the block works on or absorbs (R135). -/
structure PartRun where
  index : Nat
  level : Nat
  since : Nat
  /-- part_done_valid has been pulsed for the phase-0 announcement. -/
  answered : Bool
  deriving DecidableEq, Repr

/-- A boundary that waits for Helm to leave core reset (R106). -/
structure QueuedTick where
  time : Nat
  /-- An epoch advance was due at the boundary. -/
  due : Bool
  deriving DecidableEq, Repr

/-- Clocks and time of the RCU (R98 to R117). -/
structure Clk where
  /-- Elapsed time in ns (R98). -/
  elapsed : Nat
  /-- Domain time in ns (R99). -/
  domain : Nat
  anchored : Bool
  timeUnlock : Bool
  /-- The measured offset still to be slewed away, in ns (R100). -/
  slew : Int
  /-- rclk edges since the last slewed edge (R100). -/
  slewGap : Nat
  tickCount : Nat
  /-- Elapsed time of the last accepted boundary since P or S. -/
  lastTick : Option Nat
  /-- Domain time of the last accepted boundary (R117). -/
  tickTime : Nat
  /-- Elapsed time of the release of the last P or S (R103). -/
  releasedAt : Nat
  tickShort : Bool
  /-- Boundaries ignored as too short since P or S (R103). -/
  shortCount : Nat
  tickLate : Bool
  /-- EV_TICK_LATE has been raised since the last accepted boundary. -/
  lateRaised : Bool
  tickOverrun : Bool
  /-- Elapsed time at which the work of the boundary in hand started; none between boundaries (R105). -/
  tickWork : Option Nat
  /-- PCLK_FREQ, in 10 MHz (R109). -/
  pclkFreq : Nat
  deriving DecidableEq, Repr

/-- The clock monitors and the frequency change (R107 to R113). -/
structure Monitor where
  /-- Elapsed times of the last three runts, newest first (R111). -/
  runts : List Nat
  /-- Runts since P (R522). -/
  runtTotal : Nat
  freqChg : Bool
  /-- Elapsed time at which the change was acknowledged. -/
  freqSince : Nat
  /-- Domain time at which the change was acknowledged. -/
  freqStart : Nat
  freqAck : Bool
  /-- AL_CLOCK FREQ_TIMEOUT has been raised for this change. -/
  freqAlarm : Bool
  /-- Elapsed time by which clkc_freq_ack_ret must match (R535). -/
  ackDeadline : Option Nat
  /-- Second request toggles ignored before a change was finished (R108). -/
  freqIgnored : Nat
  /-- Interval of the last logged frequency change, domain times (R108 step 4). -/
  freqLog : List (Nat × Nat)
  /-- A pclk stop in progress: elapsed time of the last change seen. -/
  stop : Option Nat
  /-- AL_CLOCK STOP has been raised for this stop. -/
  stopAlarm : Bool
  /-- The last temperature sample captured. -/
  temp : BitVec 12
  deriving DecidableEq, Repr

/-- Reset control (R118 to R145). -/
structure Rst where
  phase : Phase
  /-- The level of the reset in force, or of the last one. -/
  level : Level
  /-- XS_RCU_RSTCAUSE [10:0]. -/
  cause : BitVec 11
  sysCount : Nat
  coreCount : Nat
  lastS : Bool
  rstReq : Bool
  rstBusy : Bool
  /-- Helm is in core reset since this elapsed time (R127). -/
  coreReset : Option Nat
  /-- A core reset that waits for lifecycle programming to end (R137). -/
  coreDeferred : Option Nat
  /-- Elapsed times of watchdog expiries within the last 10 s (R119). -/
  wdogTimes : List Nat
  /-- Boundaries queued during core reset (R106). -/
  queuedTicks : List QueuedTick
  /-- Boundaries discarded during this core reset. -/
  discarded : Nat
  /-- XS_RCU_URST.UNIT. -/
  urstUnit : BitVec 8
  unitResets : List UnitReset
  forced : Bool
  done : Bool
  refused : Bool
  squashed : Nat
  parts : List PartRun
  /-- The data ports are closed by a level-3 partition reset (R135). -/
  dataClosed : Bool
  /-- The PATCH_COMMIT that began the core reset: its record is written after it (R129). -/
  patchCall : Option Call
  /-- Packets discarded from absorbed streams (R135). -/
  partDropped : Nat
  /-- The fuse or trim load failed: no Almanac load follows (R166). -/
  noLoad : Bool
  deriving DecidableEq, Repr

/-- The words captured by reads of _LO registers (R117, R591), one per capture pair. -/
structure Captures where
  tickCnt : Word
  time : Word
  tickTime : Word
  eStart : Word
  ckpt : Word
  ldgEntry : Word
  cval : Word
  freeze : Word
  arm : Word
  gapTotal : Word
  styEnergy : Word
  deriving DecidableEq, Repr

/-- The Alarm unit (R519 to R547). -/
structure Alr where
  tamper : Bool
  clock : Bool
  integrity : Bool
  safeStop : Bool
  quiet : Bool
  ssIdle : Bool
  doldrums : Bool
  dumpOpen : Bool
  logOverflow : Bool
  /-- The alarm log, oldest first, at most 64 entries (R524). -/
  log : List AlarmEntry
  logSel : BitVec 6
  /-- XS_ALR_TAMPER.SEEN. -/
  seen : BitVec 8
  /-- Elapsed and domain time of the last progress (R536). -/
  progressAt : Nat
  progressTime : Nat
  /-- A progress event has come since the last Doldrums declaration. -/
  progressed : Bool
  /-- Elapsed and domain time of the last Doldrums declaration (R537, R539). -/
  doldrumsAt : Nat
  doldrumsTime : Nat
  episodes : Nat
  soundLane : Nat
  soundRow : Nat
  soundKey : Nat
  soundCtr : Nat
  soundCdc : Nat
  /-- Crossings under Sounding (R535), with the crossing number. -/
  crossings : List Nat
  deriving DecidableEq, Repr

/-- The kinds of waits a synchronisation event ring records (R562), with the code of each. -/
structure RingEntry where
  start : Nat
  kind : Nat
  open_ : Bool
  unanchored : Bool
  duration : Nat
  waiter : Option Nat
  object : Nat
  deriving DecidableEq, Repr

/-- A wait still in progress (R561): the ring it belongs to and when it began. -/
structure RingWait where
  ring : Nat
  start : Nat
  startElapsed : Nat
  kind : Nat
  waiter : Option Nat
  object : Nat
  deriving DecidableEq, Repr

/-- One synchronisation event ring (R561, R569): entries by index. -/
structure Ring where
  entries : List (Nat × RingEntry)
  next : Nat
  count : Nat
  freezeHead : Nat
  frozen : Bool
  overwritten : Nat
  deriving DecidableEq, Repr

/-- One entry of the PCLK gap log (R564). -/
structure GapEntry where
  start : Nat
  stop : Nat
  cause : Nat
  ongoing : Bool
  unanchored : Bool
  alarm : Bool
  deriving DecidableEq, Repr

/-- Observability (R548 to R570). Counters are a sparse list, strictly rising by number, no entry 0. -/
structure Obs where
  counters : List (Nat × Nat)
  /-- Counters marked INVALID, rising. -/
  invalid : List Nat
  /-- XS_OBS_BANKSTAT.FAULT. -/
  bankFault : BitVec 16
  /-- Banks under their Sounding. -/
  testing : BitVec 16
  snapCounters : List (Nat × Nat)
  snapInvalid : List Nat
  csel : BitVec 13
  /-- Per-Stall sets 1 to 62 with VALID: (t, Stall). -/
  track : List (Nat × Nat)
  /-- STALL of the sets whose VALID is 0, where it is not 0 (R567). -/
  trackOff : List (Nat × Nat)
  held : Bool
  armed : Bool
  /-- The armed time T, 0 for the next tick boundary; meaningful while armed. -/
  armTime : Nat
  armCall : List Call
  /-- The armed time was past when the command started (R558). -/
  armLate : Bool
  late : Bool
  ringStale : Bool
  beaconUnanchored : Bool
  src : Nat
  missed : Nat
  freezeTime : Nat
  /-- A freeze that has been triggered and whose edge has not come: source. -/
  freezeDue : Option Nat
  ringMin : BitVec 16
  ringSel : BitVec 15
  rings : List (Nat × Ring)
  waits : List RingWait
  gaps : List GapEntry
  gapOverflow : Bool
  gapSel : BitVec 6
  gapTotal : Nat
  gapReplaced : Nat
  deriving DecidableEq, Repr

/-- A packet in the command buffer or the tick queue: the call, the argument bytes, and the edge data R104 uses. -/
structure Queued where
  call : Call
  args : Bytes
  /-- Its place in the order of acceptance (R478). -/
  order : Nat
  /-- Boundaries the command has waited. -/
  waited : Nat
  deriving DecidableEq, Repr

/-- A Helm patch in staging RAM or applied (R486): its PATCH_SVN and the digest of its code. -/
structure Patch where
  svn : Nat
  digest : Bytes
  deriving DecidableEq, Repr

/-- The event ring registers (R494). -/
structure Evq where
  baseLo : BitVec 27
  baseHi : BitVec 24
  log2Size : BitVec 5
  on : Bool
  head : Nat
  tail : Nat
  lost : Nat
  /-- Records lost since the last record written. -/
  lostPending : Nat
  deriving DecidableEq, Repr

/-- Helm and the command path (R472 to R494). -/
structure Hlm where
  /-- The command buffer, in acceptance order. -/
  buffer : List Queued
  tickQ : List Queued
  /-- Commands started and not completed. -/
  running : List Queued
  /-- Completion records issued and not yet written on cmd_cw. -/
  cwq : List Completion
  cwOverrun : Bool
  /-- EV_CW_OVERRUN is owed once cmd_cw accepts again. -/
  cwEventDue : Bool
  /-- The event FIFO and, behind its 1,024 places, events the tiles hold (R128). -/
  fifo : List Event
  /-- Packets accepted into the command buffer so far: the order of the next. -/
  accepted : Nat
  rejected : Nat
  deferred : Nat
  dwBusy : Bool
  dwDone : Bool
  dwStatus : Nat
  dwBuf : List Word
  evq : Evq
  staged : List Patch
  applied : List Patch
  irqComp : Bool
  irqAlarm : Bool
  irqUrgent : Bool
  irqEnable : BitVec 4
  /-- Elapsed time until which Booth operations run in bandwidth class 3 (R483). -/
  boothClassUntil : Option Nat
  deriving DecidableEq, Repr

end Sys2Proof.Machine
end

