-- ==== Sys2Proof/Machine/Types/Data.lean ====
section
/-!
DEFINITION. State of the Booth (spec/14_booth.md), the Tollgate (spec/15_tollgate.md) and the Steelyard (spec/20_steelyard.md).
-/

namespace Sys2Proof.Machine

/-- A Booth operation, queued or running (R435 to R442). -/
structure BoothOp where
  call : Call
  mode : Nat
  /-- DIR: 1 decrypt or verify. -/
  decrypt : Bool
  flags : Nat
  tail : Nat
  handle : Nat
  src : Nat
  dst : Nat
  len : Nat
  aadLen : Nat
  aadTail : Nat
  aad : Nat
  /-- The IV supplied or drawn, 16 B. -/
  iv : Bytes
  /-- The IV was drawn (R439). -/
  hwNonce : Bool
  du : Nat
  tag : Nat
  /-- A Tollgate handoff, with its header as AAD (R434, R456). -/
  header : Option Bytes
  deriving DecidableEq, Repr

/-- The Booth (R431 to R447). -/
structure Bth where
  /-- The lock: holder function and its Stall; function 0 for a handoff. -/
  holder : Option (Nat × Nat)
  /-- The Tollgate holds the lock in hardware (R434). -/
  tollgate : Bool
  /-- The operation past its commit point. -/
  running : Option BoothOp
  queue : List BoothOp
  /-- Elapsed time since which no operation has been running or queued (R432). -/
  leaseAt : Nat
  /-- A RELEASE waits for the holder's operations to end (R432). -/
  releaseDue : Bool
  opsCount : Nat
  tagFails : Nat
  deriving DecidableEq, Repr

/-- An export, queued or running (R454 to R466). -/
structure Export where
  call : Call
  rule : Nat
  owner : Nat
  outFmt : Nat
  cls : Nat
  handle : Nat
  src : Nat
  len : Nat
  stage : Nat
  dst : Nat
  hdr : Nat
  tag : Nat
  /-- 1 checks, 2 norm pass done, 3 commit, 4 main pass, 5 handoff (R469). -/
  phase : Nat
  /-- The rule and the noise class as the policy holds them (R451, R452). -/
  ruleBytes : Bytes
  classBytes : Bytes
  nonce : Bytes
  /-- S of R458, in units of 2^-298. -/
  norm : Nat
  /-- EXPORT_SEQ after the charge, and the budget block before it. -/
  seq : Nat
  before : BudgetEntry
  header : Bytes
  deriving DecidableEq, Repr

/-- The Tollgate (R448 to R471). -/
structure Tol where
  /-- Exports that wait, in the order accepted (R456). -/
  queue : List Export
  running : Option Export
  /-- Source and staging ranges held against writes of a Stall (R457): Stall, address, length. -/
  hold : List (Nat × Nat × Nat)
  /-- Policy addresses by Stall, with INSTANCE_TAG (R453). -/
  policies : List (Nat × (Nat × Bytes))
  /-- Parsed policies, most recently used first: Stall, INSTANCE_TAG, image. -/
  cache : List (Nat × Bytes × Bytes)
  exports : Nat
  refused : Nat
  nonfinite : Nat
  samplerStall : Nat
  /-- XS_TOL_POLERR: offset, Stall, VALID. -/
  polOffset : Nat
  polStall : Nat
  polValid : Bool
  deriving DecidableEq, Repr

/-- A rail channel (R572 to R574). -/
structure StyChan where
  /-- Last calibrated power, in units of 2^-30 µW. -/
  power : Nat
  /-- Elapsed time of the last good sample. -/
  sampled : Option Nat
  /-- Elapsed time up to which the channel's energy is accounted. -/
  upTo : Option Nat
  deriving DecidableEq, Repr

/-- What a reading of a Stall says (R581), before its signature. -/
structure Reading where
  stall : Nat
  inst : Bytes
  account : Nat
  tick : Nat
  time : Nat
  /-- The seven accumulators of R571. -/
  accs : List Nat
  /-- Die energy since P, in nJ. -/
  dieEnergy : Nat
  unanchored : Bool
  harbour : Bool
  suspect : Bool
  restarted : Bool
  deriving DecidableEq, Repr

/-- The boundary last latched (R571, R581). -/
structure StyLatch where
  tick : Nat
  time : Nat
  dieEnergy : Nat
  unanchored : Bool
  harbour : Bool
  deriving DecidableEq, Repr

/-- The Steelyard (R571 to R587). [DEDUCED: notes/assumptions/42.md] -/
structure Sty where
  /-- The accumulators of R571 as last latched and apportioned: Stall, seven values. -/
  accs : List (Nat × List Nat)
  /-- What the taps have counted since: Stall, the first six classes. -/
  counts : List (Nat × List Nat)
  /-- Die energy since P, in units of 2^-30 × 0.01 pJ (R573). -/
  energy : Nat
  /-- nJ of it apportioned so far. -/
  apportioned : Nat
  /-- Channels 0 to 15. -/
  chans : List StyChan
  latch : StyLatch
  /-- Why the current tick is suspect: 0 it is not, else ARG1 of EV_STY_SUSPECT (R585), with the channel mask. -/
  suspectCause : Nat
  suspectMask : Nat
  /-- The last tick was suspect. -/
  suspectRun : Bool
  suspectTicks : Nat
  /-- Stalls with ENERGY_SUSPECT, rising. -/
  suspects : List Nat
  /-- The last 64 final readings, oldest first (R582). -/
  finals : List Reading
  /-- Signatures queued, at most 16 (R581). -/
  queue : List Call
  keySealed : Bool
  unsealed : Bool
  keyOk : Bool
  keyFailed : Bool
  testKey : Bool
  /-- The seed in use, nothing when cleared (R577). -/
  seed : Bytes
  /-- SD, 48 B (R579). -/
  sd : Bytes
  readings : Nat
  chsel : BitVec 4
  deriving DecidableEq, Repr

end Sys2Proof.Machine
end

