-- ==== Sys2Proof/Machine/Types/Link.lean ====
section
/-!
DEFINITION. State of the Link Sealing Engines, the Remote Window Table, the Host Sealing Engines and Crosscheck
(spec/11_link_sealing_engines.md). Kinds of host-side traffic are the numbers of R69: 0 load, 1 store, 2 atomic, 3 bulk tile, 4 load
response, 5 atomic response, 6 store acknowledgement, 7 link control.
-/

namespace Sys2Proof.Machine

/-- One direction under one generation of its key (R321, R322, R324). -/
structure LinkDir where
  kgen : Nat
  key : Bytes
  /-- SEQ per traffic class: next to send, or expected. -/
  seq : List Nat
  blocks : Nat
  units : Nat
  deriving DecidableEq, Repr

/-- An outbound request that waits for its response (R329, R330). -/
structure OutReq where
  id : Nat
  kind : Nat
  stall : Nat
  nbytes : Nat
  /-- Remote Window Table entry it was accepted under. -/
  window : Nat
  tc : Nat
  /-- The unit has been sent and T_DEAD runs since this elapsed time. -/
  sentAt : Option Nat
  deriving DecidableEq, Repr

/-- An inbound request handed to host logic (R329). -/
structure InReq where
  id : Nat
  kind : Nat
  nbytes : Nat
  tc : Nat
  deriving DecidableEq, Repr

/-- A unit in the transmit buffer (R328). -/
structure TxUnit where
  bytes : Bytes
  stall : Option Nat
  /-- The outbound request it carries. -/
  outId : Option Nat
  ctrl : Bool
  deriving DecidableEq, Repr

/-- A unit received whole and accepted, waiting for its presentation or its action (R329, R334). -/
structure RxUnit where
  kind : Nat
  sub : Nat
  tc : Nat
  src : Nat
  id : Nat
  addr : Nat
  tstall : Nat
  nbytes : Nat
  payload : Bytes
  deriving DecidableEq, Repr

/-- One Link Sealing Engine. -/
structure Lse where
  established : Bool
  down : Bool
  /-- lsN_lt_halt holds until a rekey of both directions completes (R133, R135, R326). -/
  forced : Bool
  peerChip : Nat
  peerPort : Nat
  secret : Bytes
  estId : Bytes
  tx : LinkDir
  rx : LinkDir
  /-- A derivation of the next generation is asked for and not installed (R324). -/
  wantTx : Bool
  wantRx : Bool
  /-- The transition slot (R323): at most one of the two holds a key. -/
  txNext : Option LinkDir
  rxNext : Option LinkDir
  /-- This side's RESYNC is still to be sent, and the first unit of the new generation is awaited (R326). -/
  resyncDue : Bool
  resync : Bool
  out : List OutReq
  inbound : List InReq
  txBuf : List TxUnit
  rxBuf : List RxUnit
  /-- Remote Window Table entries revoked whose REVOKE_ACK is owed (R333). -/
  revokes : List Nat
  /-- Elapsed times of integrity failures within the last 1 ms (R335). -/
  failures : List Nat
  integCount : Nat
  lostCount : Nat
  refusedCount : Nat
  deadCount : Nat
  orphanCount : Nat
  /-- EV_LSE_WINDOW, EV_LSE_DEAD and EV_LSE_GAP raised since the last tick. -/
  windowRaised : Bool
  deadRaised : Bool
  gapRaised : Bool
  spine : Spine
  deriving DecidableEq, Repr

/-- A Remote Window Table entry (R327). -/
structure Window where
  reqStall : Nat
  dst : Nat
  tstall : Nat
  /-- Peer sealed address [43:12]. -/
  base : Nat
  /-- Granules of 4 KiB. -/
  size : Nat
  rights : Nat
  deriving DecidableEq, Repr

/-- A window this chip has granted or is granting or revoking (R332, R333). -/
structure Granted where
  lse : Nat
  reqChip : Nat
  /-- The entry's index at the peer, none until GRANT_ACK. -/
  index : Option Nat
  stall : Nat
  reqStall : Nat
  base : Nat
  size : Nat
  rights : Nat
  /-- The command that waits for GRANT_ACK or REVOKE_ACK. -/
  call : Option Call
  /-- A REVOKE has been sent at this elapsed time. -/
  revoking : Option Nat
  deriving DecidableEq, Repr

/-- One IDE key (R343): stream 0 is the PCIe or CXL.io stream, stream 1 CXL.cachemem. -/
structure IdeKey where
  stream : Nat
  dirTx : Bool
  keySet : Nat
  key : Bytes
  iv : Bytes
  /-- AES blocks used (R345). -/
  blocks : Nat
  wearRaised : Bool
  deriving DecidableEq, Repr

/-- One Host Sealing Engine. -/
structure Hse where
  /-- 0 no stream, 1 secure, 2 Insecure (R354). -/
  state : Nat
  /-- The CXL.cachemem stream's state, coded alike. -/
  cacheState : Nat
  streamId : Nat
  linkStream : Bool
  /-- Active key set of each stream. -/
  keySet : Nat
  cacheSet : Nat
  /-- hsN_tl_halt holds until the streams are established again (R133). -/
  forced : Bool
  keys : List IdeKey
  macFail : Nat
  dropped : Nat
  spine : Spine
  deriving DecidableEq, Repr

/-- A digest or tile that waits for its pair (R339). -/
structure XckTile where
  sideB : Bool
  offset : Nat
  n : Nat
  src : Nat
  nbytes : Nat
  since : Nat
  data : Bytes
  deriving DecidableEq, Repr

/-- A Crosscheck binding (R337). -/
structure XckBinding where
  stall : Nat
  winA : Nat
  winB : Nat
  tiles : Nat
  tolerance : Bool
  k : Nat
  rate : Nat
  action : Bool
  kx : Bytes
  /-- Arrival counters that are not 0: offset to (n_A, n_B) (R338). -/
  arrivals : List (Nat × (Nat × Nat))
  waiting : List XckTile
  compared : Nat
  mismatch : Nat
  unsampled : Nat
  unpaired : Nat
  /-- EV_XCK_UNPAIRED was raised since the last tick. -/
  raised : Bool
  deriving DecidableEq, Repr

/-- Crosscheck (R337 to R341, R355, R356). -/
structure Xck where
  bindings : List (Nat × XckBinding)
  sel : BitVec 3
  deriving DecidableEq, Repr

end Sys2Proof.Machine
end

