-- ==== Sys2Proof/Machine/Types/Sbx.lean ====
section
/-!
DEFINITION. State of the Strongbox (spec/07_strongbox.md) and of the tile key caches it fills (R41).
-/

namespace Sys2Proof.Machine

/-- The class of a key slot (R189, coded as R210). -/
inductive SlotClass where
  | stall | block | link | unpinned
  deriving DecidableEq, Repr

/-- One occupied key slot (R188). The two shares of the cell are held as the key they sum to; the mask is refreshed
by KEYSLOT_MASK_REFRESH without changing it. [DEDUCED: notes/assumptions/60.md] -/
structure KeySlot where
  handle : Nat
  gen : Nat
  usage : Nat
  /-- Uses counted while resident (R196): AES blocks, sectors, signatures or decapsulations. -/
  count : Nat
  /-- Operations, for the types whose limit has two parts (R197). -/
  ops : Nat
  cls : SlotClass
  pinned : Bool
  busy : Bool
  /-- LRU age, 8 bits (R188). -/
  age : Nat
  material : Bytes
  deriving DecidableEq, Repr

/-- One entry of a tile key cache (R41): the tile's unit code, the key, uses not yet reported (R196). -/
structure TileKey where
  tile : Nat
  handle : Nat
  gen : Nat
  unreported : Nat
  /-- Age in the tile's cache, newest 0. -/
  age : Nat
  material : Bytes
  deriving DecidableEq, Repr

/-- What waits for a key (R191, R195). -/
inductive KeyWaiter where
  | tile (unit : Nat)
  | command (call : Call) (pin : Bool)
  deriving DecidableEq, Repr

/-- An unwrap running or queued (R195), with everyone that waits for it. -/
structure Unwrap where
  handle : Nat
  gen : Nat
  /-- The blob has been fetched; none while the fetch waits. -/
  started : Bool
  waiters : List KeyWaiter
  deriving DecidableEq, Repr

/-- A key invalidation sent to a tile and not acknowledged (R203). -/
structure KeyInval where
  tile : Nat
  handle : Nat
  gen : Nat
  deriving DecidableEq, Repr

/-- A KEY_DESTROY that waits for its tiles or for a Booth operation (R203, R205). -/
structure KeyDestroy where
  handle : Nat
  call : Option Call
  /-- A running Booth operation still uses the handle. -/
  held : Bool
  deriving DecidableEq, Repr

/-- A request that waits for random bits (R199). -/
structure EntropyWait where
  call : Call
  since : Nat
  deriving DecidableEq, Repr

/-- The Strongbox (R178 to R212). -/
structure Sbx where
  drkOk : Bool
  drkBank : Nat
  drkTest : Bool
  zeroized : Bool
  zeroizeFail : Bool
  entropyOk : Bool
  entropyFail : Bool
  /-- Hybrid key pairs in the pool (R200). -/
  poolLevel : Nat
  /-- Occupied slots, rising by slot number. -/
  slots : List (Nat × KeySlot)
  tiles : List TileKey
  unwraps : List Unwrap
  invals : List KeyInval
  destroys : List KeyDestroy
  slotSel : BitVec 8
  zeroizeCount : Nat
  staleCount : Nat
  /-- The zeroize net is asserted (R205). -/
  zeroNet : Bool
  /-- A verify pass is running (R204). -/
  verifying : Bool
  /-- The masked root register: the DRK in use, nothing when cleared (R179, R203). -/
  root : Bytes
  entropyWaits : List EntropyWait
  /-- Banks under their Sounding, with whether the spare holds their slots (R533). -/
  testing : List Nat
  /-- Slots out of service until S (R533). -/
  outOfService : List Nat
  /-- Refreshes of the masks since P or S (R188). -/
  refreshes : Nat
  deriving DecidableEq, Repr

end Sys2Proof.Machine
end

