-- ==== Sys2Proof/Machine/State.lean ====
section
/-!
DEFINITION. The state of the block as plain data, its faults and refusals, and the state right after a power-on reset asserts
(spec/05_reset.md R121, spec/21_register_map.md R601).
-/

namespace Sys2Proof.Machine

/-- Why a command cannot act at all. -/
inductive Fault where
  /-- Raised by a tile command whose engine index is at or above the build's count: no such port exists (R6, R9).
  Safe: the hardware has no such port, so no behaviour of it is left out. -/
  | noSuchPort (unit index : Nat)
  deriving DecidableEq, Repr

/-- Why the model declines a command. -/
inductive Refusal where
  /-- Raised by the dispatch arm of a command that has no meaning yet. Safe: nothing is claimed of the command. -/
  | notModelled (mnemonic : String)
  deriving DecidableEq, Repr

/-- The state of the block. -/
structure State where
  build : Build
  cfg : Cfg
  pins : Pins
  clk : Clk
  mon : Monitor
  rst : Rst
  cap : Captures
  alr : Alr
  obs : Obs
  hlm : Hlm
  nvm : Nvm
  ald : Ald
  cht : Chart
  lcu : Lcu
  sbx : Sbx
  epo : Epoch
  ldg : Ldg
  swp : Swp
  stl : Stl
  att : Att
  dom : Dom
  mrk : Mrk
  bth : Bth
  tol : Tol
  sty : Sty
  xck : Xck
  /-- Remote Window Table entries, rising by index (R327). -/
  rwt : List (Nat × Window)
  rwtSel : BitVec 10
  /-- Windows this chip has granted (R332). -/
  granted : List Granted
  mse : List Mse
  /-- LISTED_COUNT (R278). -/
  listedCount : Nat
  lse : List Lse
  hse : List Hse
  /-- What left the block at its ports during the last command, in order. -/
  out : List Out
  /-- The model's own counter: how many free values have been taken. -/
  fresh : Nat
  /-- Commands that wait, first in, first out. -/
  pending : List Instr
  deriving DecidableEq, Repr

/-! ### The values after a power-on reset asserts -/

/-- `n` bytes of 0. -/
def clearBytes (n : Nat) : Bytes := List.replicate n 0

/-- The inputs as quiet levels: rst_por_n is 0, every tamper pair as R85 ties an unused one, coolant and clock good
(notes/assumptions/4.md). -/
def Pins.atReset : Pins :=
  { porN := false, sysN := true, tick := false, clkcGood := true, clkcStretch := false, freqReq := false, freqAckRet := false
    coolantOk := true, tamper := 0, tamperB := 0xFF, railFlag := false, tempFlag := false }

/-- Clocks and time: everything begins anew (R98, R99, R114, R121). [DESIGN CHOICE: notes/assumptions/5.md] -/
def Clk.atReset : Clk :=
  { elapsed := 0, domain := 0, anchored := false, timeUnlock := false, slew := 0, slewGap := 0, tickCount := 0, lastTick := none
    tickTime := 0, releasedAt := 0, tickShort := false, shortCount := 0, tickLate := false, lateRaised := false, tickOverrun := false
    tickWork := none, pclkFreq := 0 }

/-- The monitors: no runt, no change, no stop (R111, R115). [DESIGN CHOICE: notes/assumptions/5.md] -/
def Monitor.atReset : Monitor :=
  { runts := [], runtTotal := 0, freqChg := false, freqSince := 0, freqStart := 0, freqAck := false, freqAlarm := false
    ackDeadline := none, freqIgnored := 0, freqLog := [], stop := none, stopAlarm := false, temp := 0 }

/-- Reset control in P: POR alone is set (R121, R141). -/
def Rst.atReset : Rst :=
  { phase := .inReset, level := .p, cause := 1, sysCount := 0, coreCount := 0, lastS := false, rstReq := false, rstBusy := true
    coreReset := none, coreDeferred := none, wdogTimes := [], queuedTicks := [], discarded := 0, urstUnit := 0, unitResets := []
    forced := false, done := false, refused := false, squashed := 0, parts := [], dataClosed := false, patchCall := none
    partDropped := 0, noLoad := false }

/-- No capture has been made (R591). -/
def Captures.atReset : Captures :=
  { tickCnt := 0, time := 0, tickTime := 0, eStart := 0, ckpt := 0, ldgEntry := 0, cval := 0, freeze := 0, arm := 0, gapTotal := 0
    styEnergy := 0 }

/-- The Alarm unit after P (R543 to R547). -/
def Alr.atReset : Alr :=
  { tamper := false, clock := false, integrity := false, safeStop := false, quiet := false, ssIdle := false, doldrums := false
    dumpOpen := false, logOverflow := false, log := [], logSel := 0, seen := 0, progressAt := 0, progressTime := 0, progressed := false
    doldrumsAt := 0, doldrumsTime := 0, episodes := 0, soundLane := 0, soundRow := 0, soundKey := 0, soundCtr := 0, soundCdc := 0
    crossings := [] }

/-- Observability after P: RING_MIN 10, everything else 0 (R550, R566 to R570). -/
def Obs.atReset : Obs :=
  { counters := [], invalid := [], bankFault := 0, testing := 0, snapCounters := [], snapInvalid := [], csel := 0, track := [], trackOff := []
    held := false, armed := false, armTime := 0, armCall := [], armLate := false, late := false, ringStale := false
    beaconUnanchored := false, src := 0, missed := 0, freezeTime := 0, freezeDue := none, ringMin := 10, ringSel := 0, rings := []
    waits := [], gaps := [], gapOverflow := false, gapSel := 0, gapTotal := 0, gapReplaced := 0 }

/-- The event ring registers after P: LOG2SIZE 6 (R494). -/
def Evq.atReset : Evq :=
  { baseLo := 0, baseHi := 0, log2Size := 6, on := false, head := 0, tail := 0, lost := 0, lostPending := 0 }

/-- Helm after P (R491 to R494, R599). -/
def Hlm.atReset : Hlm :=
  { buffer := [], tickQ := [], running := [], cwq := [], cwOverrun := false, cwEventDue := false, fifo := [], accepted := 0
    rejected := 0, deferred := 0, dwBusy := false, dwDone := false, dwStatus := 0, dwBuf := List.replicate 64 0, evq := Evq.atReset
    staged := [], applied := [], irqComp := false, irqAlarm := false, irqUrgent := false, irqEnable := 0, boothClassUntil := none }

/-- An NVM device on which nothing has been written (R147): every partition reads as erased. [DESIGN CHOICE: notes/assumptions/2.md] -/
def Nvm.erased : Nvm :=
  { slotA := [], slotB := [], settingsA := none, settingsB := none, journal := [], journalQueue := [], journalStale := []
    journalRoot := [], journalErase := none, identity := none, standbyA := none, standbyB := none, sealRec := none }

/-- The Almanac loader before a load (R175, R176). -/
def Ald.atReset : Ald :=
  { done := false, noAlmanac := false, slotB := false, fallback := false, settingsOk := false, setCopyB := false, memTrained := false
    linksTrained := false, restored := false, joined := false, full := false, sdrOnly := false, rejectCause := 0
    integratorChecked := false, harbourReseal := false, setSel := 0, staged := [], updErased := none, updWritten := [], repairDue := none }

/-- No repair (R177). -/
def Chart.atReset : Chart :=
  { spareLanes := [], folds := [], faulty := [], ksBank := none, ksField := false, rows := [], ignored := 0, chipIds := [] }

/-- Trims that map nothing out and fail no check. [DESIGN CHOICE: notes/assumptions/2.md] -/
def Trims.none : Trims := { failed := Option.none, lanes := [], bank := Option.none, rows := [] }

/-- The Lifecycle unit of a part with no fuse programmed: BLANK (R495). [DESIGN CHOICE: notes/assumptions/2.md]
[DESIGN CHOICE: notes/assumptions/5.md] -/
def Lcu.atReset : Lcu :=
  { fuses := [], state := 0, resumed := false, xfail := false, detail := 0, tapOrigin := false, nonce := clearBytes 32, transition := none
    job := none, jobs := [], trims := Trims.none, tapRead := none, tapIr := 1 }

/-- The Strongbox after P, its noise source healthy (R207 to R212). -/
def Sbx.atReset : Sbx :=
  { drkOk := false, drkBank := 0, drkTest := false, zeroized := false, zeroizeFail := false, entropyOk := true, entropyFail := false
    poolLevel := 0, slots := [], tiles := [], unwraps := [], invals := [], destroys := [], slotSel := 0, zeroizeCount := 0
    staleCount := 0, zeroNet := false, verifying := false, root := [], entropyWaits := [], testing := [], outOfService := []
    refreshes := 0 }

/-- The epoch after P: 0, FROZEN (R231, R232). -/
def Epoch.atReset : Epoch :=
  { epoch := 0, held := false, frozen := true, ticksSince := 0, holdCount := 0, holdLocal := false, holdPool := false
    holdRaised := false, unacked := [], ring := [], sel := 0 }

/-- A store of which nothing has been written. -/
def StoreImage.empty : StoreImage :=
  { localEntries := [], poolEntries := [], versions := [], ring := [], digests := [], slots := [] }

/-- The anchor after P (R121, R145). -/
def Anchor.cleared : Anchor := { valid := false, clearedByTamper := false, epoch := 0, root := [], seq := 0 }

/-- The Ledger after P: every region FREE (R308 to R312). [DESIGN CHOICE: notes/assumptions/5.md] -/
def Ldg.atReset : Ldg :=
  { localEntries := [], poolEntries := [], poolCache := [], poolReads := [], versions := [], storeOk := false, storeId := clearBytes 8
    storeRoot := [], counter := 0, sinceBase := 0, baseSlotB := false, baseBusy := false, baseImage := none, logPos := 0
    logWait := false, changes := [], grants := [], items := [], flight := none, waits := [], store := StoreImage.empty
    anchor := Anchor.cleared, secCount := 0, dedCount := 0, rowsExhausted := false, rowTests := [], sel := 0, restoring := false }

/-- The Sweeper after P (R314, R315). -/
def Swp.atReset : Swp :=
  { slots := [], queue := [], sweeps := [], yield := none, yieldBlocked := 0, paused := false, zeroed := 0, slotSel := 0 }

/-- The Stall manager after P: every Stall FREE (R424 to R430). -/
def Stl.atReset : Stl :=
  { table := [], data := [], records := [], slots := [], fills := [], removals := [], freezes := [], sessions := [], fnMap := []
    credit := 0, creditAt := 0, deferCount := 0, sel := 0, fnSel := 0 }

/-- Attestation after P: nothing measured, nothing issued. -/
def Att.atReset : Att := { mFw := [], fwSecret := [], aliases := 0, leafs := [], sessions := [] }

/-- Domain formation after P: no membership, TIME_PARENT 0x3F (R388). -/
def Dom.atReset : Dom :=
  { joined := false, chip := 0, domainId := [], seq := 0, gm := false, testDomain := false, timeParent := 0x3F, timeDepth := 0
    peers := [], fwOk := [], authority := [], exchanges := [], parts := [], anchorTime := 0, lastOffset := none, offset := 0
    probeAt := none, probe := none, prev := none, replies := [], unlockRaised := false, joinErr := none, joinSeen := false }

/-- Marks after P: none exists (R390 to R392). -/
def Mrk.atReset : Mrk :=
  { dir := [], anchored := [], res := [], fills := [], waits := [], sigs := [], routes := [], stale := 0, dup := 0, resend := 0
    drop := 0, routeSel := 0 }

/-- The Booth after P (R443 to R447). -/
def Bth.atReset : Bth :=
  { holder := none, tollgate := false, running := none, queue := [], leaseAt := 0, releaseDue := false, opsCount := 0, tagFails := 0 }

/-- The Tollgate after P (R469 to R471). -/
def Tol.atReset : Tol :=
  { queue := [], running := none, hold := [], policies := [], cache := [], exports := 0, refused := 0, nonfinite := 0
    samplerStall := 0, polOffset := 0, polStall := 0, polValid := false }

/-- The Steelyard after P (R583, R586, R587): everything cleared. -/
def Sty.atReset : Sty :=
  { accs := [], counts := [], energy := 0, apportioned := 0, chans := List.replicate 16 { power := 0, sampled := none, upTo := none }
    latch := { tick := 0, time := 0, dieEnergy := 0, unanchored := true, harbour := true }, suspectCause := 0, suspectMask := 0
    suspectRun := false, suspectTicks := 0, suspects := [], finals := [], queue := [], keySealed := false, unsealed := false
    keyOk := false, keyFailed := false, testKey := false, seed := [], sd := [], readings := 0, chsel := 0 }

/-- Crosscheck after P (R355, R356). -/
def Xck.atReset : Xck := { bindings := [], sel := 0 }

/-- A tile's share of the control spine: it refuses no Stall by name. -/
def Spine.atReset : Spine := { queue := [], acks := [], refused := [] }

/-- Counts and error state of an MSE (R272 to R277). -/
def MseErr.atReset : MseErr :=
  { integrity := 0, rereadOk := 0, refused := 0, misroute := 0, misrouteRaised := false, sound := 0, soundValid := false, bad := []
    badOverflow := false, badSel := 0, katFail := 0, dirLost := false }

/-- An MSE after P. -/
def Mse.atReset : Mse :=
  { epoch := 0, held := [], hazards := [], ops := [], reserved := [], nextId := 0, testing := [], ledger := [], sweeps := []
    retired := [], spine := Spine.atReset, tags := [], tagPending := [], err := MseErr.atReset, rr := 0 }

/-- One direction of a link without a key. -/
def LinkDir.atReset : LinkDir := { kgen := 0, key := [], seq := [0, 0, 0, 0], blocks := 0, units := 0 }

/-- An LSE after P (R348 to R350). -/
def Lse.atReset : Lse :=
  { established := false, down := false, forced := false, peerChip := 0, peerPort := 0, secret := [], estId := []
    tx := LinkDir.atReset, rx := LinkDir.atReset, wantTx := false, wantRx := false, txNext := none, rxNext := none
    resyncDue := false, resync := false, out := [], inbound := [], txBuf := [], rxBuf := [], revokes := [], failures := []
    integCount := 0, lostCount := 0, refusedCount := 0, deadCount := 0, orphanCount := 0, windowRaised := false, deadRaised := false
    gapRaised := false, spine := Spine.atReset }

/-- An HSE after P (R354). -/
def Hse.atReset : Hse :=
  { state := 0, cacheState := 0, streamId := 0, linkStream := false, keySet := 0, cacheSet := 0, forced := false, keys := []
    macFail := 0, dropped := 0, spine := Spine.atReset }

/-- The build of the manual's examples (R596): 24 MSEs, 16 LSEs, 2 HSEs, sideband mode, all optional units (notes/assumptions/2.md). -/
def Build.orvane : Build :=
  { mseCount := 24, lseCount := 16, hseCount := 2, tagSb := true, tagCo := false, sty := true, tol := true, xck := true, x2 := true
    variantL := false, spineStages := 1, dbgMfr := 0 }

/-- The state in P of a build with given fuses and a given NVM device: everything else at its value after P (R121, R601). -/
def State.powerOn (b : Build) (pins : Pins) (fuses : List (Nat × Nat)) (nvm : Nvm) (fresh : Nat) : State :=
  { build := b, cfg := Cfg.restrictive b.tagSb, pins, clk := Clk.atReset, mon := Monitor.atReset, rst := Rst.atReset
    cap := Captures.atReset, alr := Alr.atReset, obs := Obs.atReset, hlm := Hlm.atReset, nvm, ald := Ald.atReset, cht := Chart.atReset
    lcu := { Lcu.atReset with fuses }, sbx := Sbx.atReset, epo := Epoch.atReset, ldg := Ldg.atReset, swp := Swp.atReset
    stl := Stl.atReset, att := Att.atReset, dom := Dom.atReset, mrk := Mrk.atReset, bth := Bth.atReset, tol := Tol.atReset
    sty := Sty.atReset, xck := Xck.atReset, rwt := [], rwtSel := 0, granted := [], mse := List.replicate b.mseCount Mse.atReset
    listedCount := 0, lse := List.replicate b.lseCount Lse.atReset, hse := List.replicate b.hseCount Hse.atReset, out := [], fresh
    pending := [] }

/-- The machine right after reset: rst_por_n is 0 and P has cleared everything; no fuse is programmed and the NVM device is erased
(notes/assumptions/2.md). -/
def State.reset : State := State.powerOn Build.orvane Pins.atReset [] Nvm.erased 0

end Sys2Proof.Machine
end

