-- ==== Sys2Proof/Machine/Ops.lean ====
section
/-!
DEFINITION. The operations every unit shares: outputs, events, counters, draws, the alarm log and what an alarm does, the quiet
state, zeroization, the state of a Stall, the queue of Ledger store items, and the completion of a command.
-/

namespace Sys2Proof.Machine

/-! ### Outputs and outcomes -/

/-- The state a command starts from: no output has left yet. -/
def State.begin (s : State) : State := { s with out := [] }

/-- A transfer leaves the block. -/
def State.emit (o : Out) (s : State) : State := { s with out := s.out ++ [o] }

/-- Transfers leave the block in order. -/
def State.emits (os : List Out) (s : State) : State := { s with out := s.out ++ os }

/-- The outcome of a command that runs. -/
def done (s : State) : Host.Outcome State Fault Refusal := .next s

/-! ### Time -/

/-- The UNANCHORED flag of a record made now (R99). -/
def State.unanchored (s : State) : Bool := !s.clk.anchored

/-- A timer of `t` ns that started at elapsed time `since` has expired (R98). -/
def State.expired (since t : Nat) (s : State) : Bool := decide (since + t ≤ s.clk.elapsed)

/-! ### Counters (R548 to R555) -/

/-- The numbers of counters: block-wide (R554), per engine and per Stall (R552, R553). [DEDUCED: notes/assumptions/55.md] -/
def ctrMse (i off : Nat) : Nat := 256 + 32 * i + off
def ctrLse (i off : Nat) : Nat := 1024 + 16 * i + off
def ctrHse (i off : Nat) : Nat := 1792 + 32 * i + off
def ctrBooth (off : Nat) : Nat := 1920 + off
def ctrToll (off : Nat) : Nat := 1952 + off
def ctrXck (off : Nat) : Nat := 1984 + off
def ctrSbx (off : Nat) : Nat := 2016 + off
def ctrLdg (off : Nat) : Nat := 2048 + off
def ctrMrk (off : Nat) : Nat := 2112 + off
def ctrStl (off : Nat) : Nat := 2144 + off
def ctrHlm (off : Nat) : Nat := 2176 + off
def ctrRcu (off : Nat) : Nat := 2240 + off

/-- The live value of a counter. -/
def Obs.counter (o : Obs) (n : Nat) : Nat := (assocGet n o.counters).getD 0

/-- A counter advanced by `k`, modulo 2^48, unless its bank is under test (R548, R534). -/
def Obs.bump (n k : Nat) (o : Obs) : Obs :=
  if o.testing.getLsbD (n / 256) then o else
    let v := (o.counter n + k) % 2 ^ 48
    { o with counters := if v = 0 then assocDel n o.counters else assocSet n v o.counters }

/-- A counter advanced by `k`. -/
def State.bump (n k : Nat) (s : State) : State := { s with obs := s.obs.bump n k }

/-- The per-Stall set that counts a Stall (R555). -/
def Obs.setOf (o : Obs) (stall : Nat) : Nat :=
  if stall = 0 then 0 else ((o.track.find? fun p => p.2 = stall).map (·.1)).getD 63

/-- A per-Stall counter advanced by `k`. -/
def State.bumpStall (stall off k : Nat) (s : State) : State :=
  s.bump (2304 + 16 * s.obs.setOf stall + off) k

/-! ### The Steelyard's taps (R571) -/

/-- `n` units counted for a Stall in a class: 0 MSE, 1 LSE, 2 HSE, 3 Booth, 4 Tollgate bytes, 5 residency in 10 ns. -/
def Sty.count (cls stall n : Nat) (y : Sty) : Sty :=
  let old := (assocGet stall y.counts).getD [0, 0, 0, 0, 0, 0]
  { y with counts := assocSet stall (listSet old cls fun x => x + n) y.counts }

/-- A tap counts, where the build has a Steelyard (R584). [DEDUCED: notes/assumptions/44.md] -/
def State.meter (cls stall n : Nat) (s : State) : State :=
  if s.build.sty then { s with sty := s.sty.count cls stall n } else s

/-! ### Events (R488, R489) -/

/-- A unit raises an event; an event marked U also sets URGENT (R490, R599). -/
def State.event (code unit : Nat) (stall : Option Nat) (arg0 arg1 : Nat) (s : State) : State :=
  { s with hlm := { s.hlm with
      fifo := s.hlm.fifo ++ [{ code, unit, stall, time := s.clk.domain, unanchored := s.unanchored, arg0, arg1 }]
      irqUrgent := s.hlm.irqUrgent || urgentEvents.contains code } }

/-- The 32 bytes of an event record (R488). -/
def Event.bytes (e : Event) : Bytes :=
  leBytes 2 e.code ++ leBytes 1 (2 * bit e.unanchored) ++ leBytes 1 e.unit ++
    leBytes 2 (e.stall.getD 0xFFFF) ++ leBytes 2 0 ++ leBytes 8 e.time ++ leBytes 8 e.arg0 ++ leBytes 8 e.arg1

/-- The 32 bytes of an alarm log entry (R524). -/
def AlarmEntry.bytes (e : AlarmEntry) : Bytes :=
  leBytes 2 e.code ++ leBytes 1 (1 + 2 * bit e.unanchored) ++ leBytes 1 e.unit ++
    leBytes 2 (e.stall.getD 0xFFFF) ++ leBytes 2 0 ++ leBytes 8 e.time ++
    leBytes 4 (e.cause % 256) ++ leBytes 4 e.word ++ leBytes 4 e.count ++ leBytes 4 0

/-! ### Synchronisation event rings (R561 to R563) -/

/-- A ring that has recorded nothing. -/
def Ring.fresh : Ring := { entries := [], next := 0, count := 0, freezeHead := 0, frozen := false, overwritten := 0 }

/-- A ring with one entry appended; a full ring loses its oldest entry, and a frozen ring counts the wait (R561, R563). -/
def Ring.record (e : RingEntry) (r : Ring) : Ring :=
  if r.frozen then { r with overwritten := satAdd (2 ^ 32 - 1) r.overwritten 1 }
  else { r with
    entries := assocSet r.next e r.entries
    next := (r.next + 1) % 256
    count := min 256 (r.count + 1)
    overwritten := if r.count = 256 then satAdd (2 ^ 32 - 1) r.overwritten 1 else r.overwritten }

/-- A wait that ends now after `dur` ns is recorded in its ring, if it lasted at least RING_MIN (R561, R562). -/
def State.ringRecord (ring kind dur : Nat) (waiter : Option Nat) (object : Nat) (s : State) : State :=
  if dur < s.obs.ringMin.toNat * 100 then s else
    let e : RingEntry :=
      { start := s.clk.domain - dur, kind, open_ := false, unanchored := s.unanchored
        duration := dur, waiter, object }
    let r := (assocGet ring s.obs.rings).getD Ring.fresh
    { s with obs := { s.obs with rings := assocSet ring (r.record e) s.obs.rings } }

/-- A wait begins. -/
def State.waitBegin (ring kind : Nat) (waiter : Option Nat) (object : Nat) (s : State) : State :=
  { s with obs := { s.obs with waits := s.obs.waits ++
    [{ ring, start := s.clk.domain, startElapsed := s.clk.elapsed, kind, waiter, object }] } }

/-- A wait ends: the oldest one of that kind, waiter and object is recorded. -/
def State.waitEnd (ring kind : Nat) (waiter : Option Nat) (object : Nat) (s : State) : State :=
  let is (w : RingWait) : Bool := decide (w.ring = ring ∧ w.kind = kind ∧ w.waiter = waiter ∧ w.object = object)
  match s.obs.waits.find? is with
  | none => s
  | some w =>
    ({ s with obs := { s.obs with waits := s.obs.waits.eraseP is } }).ringRecord
      ring kind (s.clk.elapsed - w.startElapsed) waiter object

/-! ### Random bits (R198) -/

/-- `n` bytes drawn from the DRBG: free values. -/
def State.drawn (n : Nat) (s : State) : Bytes := (List.range n).map (Config.randomByte s.fresh)

/-- The state after a draw: the next draw is another one. -/
def State.tookDraw (s : State) : State := { s with fresh := s.fresh + 1 }

/-- A value the spec leaves open: free, and the next one is another (notes/assumptions/3.md). -/
def State.free (s : State) : Nat := Config.choice s.fresh

/-! ### Stalls -/

/-- The record of a Stall, if it is not FREE. -/
def State.stall? (s : State) (id : Nat) : Option Stall := assocGet id s.stl.table

/-- The state of a Stall (R393). -/
def State.stallState (s : State) (id : Nat) : StallState := ((s.stall? id).map (·.state)).getD .free

/-- The tables and secrets of a Stall. -/
def State.stallData? (s : State) (id : Nat) : Option StallData := assocGet id s.stl.data

/-- A Stall's record replaced. -/
def State.setStall (id : Nat) (x : Stall) (s : State) : State :=
  { s with stl := { s.stl with table := assocSet id x s.stl.table } }

/-- A Stall's tables replaced. -/
def State.setStallData (id : Nat) (x : StallData) (s : State) : State :=
  { s with stl := { s.stl with data := assocSet id x s.stl.data } }

/-- A Stall's record changed, if there is one. -/
def State.modStall (id : Nat) (f : Stall → Stall) (s : State) : State :=
  match s.stall? id with
  | none => s
  | some x => s.setStall id (f x)

/-- A Stall's tables changed, if there are any. -/
def State.modStallData (id : Nat) (f : StallData → StallData) (s : State) : State :=
  match s.stallData? id with
  | none => s
  | some x => s.setStallData id (f x)

/-- The Stall is resident (R399): Stall 0 always is. -/
def State.resident (s : State) (id : Nat) : Bool :=
  decide (id = 0) || s.stl.slots.any fun p => p.2 = id

/-- A refusal map bit is owed to a Stall (R394): its state, or its suspension in Harbour mode (R172). -/
def State.refusesStall (s : State) (id : Nat) : Bool :=
  match s.stallState id with
  | .free | .frozen | .lost | .removing => true
  | .admitted | .keyed => !s.ald.full && decide (id ≠ 0)

/-- A message joins a tile's queue. -/
def Spine.send (m : SpineMsg) (p : Spine) : Spine := { p with queue := p.queue ++ [m] }

/-- The tile still holds the message, applied or not. -/
def Spine.holds (p : Spine) (m : SpineMsg) : Bool := p.queue.contains m || p.acks.any fun a => a.1 = m

/-- A message to every MSE. -/
def State.spineMses (m : SpineMsg) (s : State) : State :=
  { s with mse := s.mse.map fun e => { e with spine := e.spine.send m } }

/-- A message to every tile of every class (R394). -/
def State.spineAll (m : SpineMsg) (s : State) : State :=
  { s.spineMses m with
    lse := s.lse.map fun e => { e with spine := e.spine.send m }
    hse := s.hse.map fun e => { e with spine := e.spine.send m } }

/-- Some tile has not acknowledged the message. -/
def State.spineHolds (s : State) (m : SpineMsg) : Bool :=
  s.mse.any (fun e => e.spine.holds m) || s.lse.any (fun e => e.spine.holds m) || s.hse.any fun e => e.spine.holds m

/-- Every tile is told of a Stall's new state and owes an acknowledgement where access is removed (R394). -/
def State.sendRefusal (id : Nat) (s : State) : State := s.spineAll (.refusal id (s.refusesStall id))

/-! ### Progress of the Doldrums detector (R536) -/

/-- A progress event. -/
def State.progress (s : State) : State :=
  { s with alr := { s.alr with progressAt := s.clk.elapsed, progressTime := s.clk.domain, progressed := true } }

/-! ### Completion records (R481, R482) -/

/-- The 32 bytes of a completion record (R481). -/
def Completion.bytes (r : Completion) : Bytes :=
  leBytes 4 r.call.tag ++ leBytes 2 r.status ++ leBytes 2 r.call.opcode ++
    leBytes 1 (bit r.tagOk + 2 * bit r.doNotTrust + 4 * bit r.call.deferred + 8 * bit r.call.ticked) ++
    leBytes 1 r.call.qid ++ leBytes 2 r.detail ++ (padTo 20 r.result).take 20

/-- The eight words of a completion record, as the direct window shows them (R484). -/
def Completion.words (r : Completion) : List Word := (chunks 4 r.bytes).map fun w => BitVec.ofNat 32 (ofLe w)

/-- A command leaves the list of running commands. [DEDUCED: notes/assumptions/8.md] -/
def Hlm.drop (c : Call) (h : Hlm) : Hlm := { h with running := h.running.eraseP fun q => q.call = c }

/-- Helm issues a command's completion record: to the queue of cmd_cw, or to the direct window (R482, R484). In the
quiet state no record is written (R89, R484). [DEDUCED: notes/assumptions/8.md] -/
def State.complete (r : Completion) (s : State) : State :=
  let h := s.hlm.drop r.call
  if s.alr.quiet then { s with hlm := if r.call.window then { h with dwBusy := false } else h }
  else if r.call.window then
    ({ s with hlm := { h with
        dwBusy := false
        dwDone := true
        dwStatus := r.status
        dwBuf := r.words ++ h.dwBuf.drop 8 } }.progress).bump 5 1
  else (({ s with hlm := { h with cwq := h.cwq ++ [r] } }.progress).bump 5 1).bumpStall r.call.stall 15 1

/-- A record with a status alone. -/
def Call.record (c : Call) (status : Nat) : Completion :=
  { call := c, status, detail := 0, tagOk := false, doNotTrust := false, result := [] }

/-- A command completes with a status and no more. -/
def State.finish (c : Call) (status : Nat) (s : State) : State := s.complete (c.record status)

/-- A command completes with a status and DETAIL. -/
def State.finishDetail (c : Call) (status detail : Nat) (s : State) : State :=
  s.complete { c.record status with detail }

/-- A command completes with ST_OK and RESULT. -/
def State.finishOk (c : Call) (result : Bytes) (s : State) : State :=
  s.complete { c.record stOk with result }

/-! ### Lost Stalls (R407, R408) -/

/-- The command that fuse programming serves. -/
def FuseJob.call? (j : FuseJob) : Option Call :=
  match j.goal with
  | .drk _ c => some c
  | .svn c => some c
  | _ => none

/-- The programming belongs to a lifecycle transition, which goes on in the quiet state (R508). -/
def FuseJob.forLifecycle (j : FuseJob) : Bool := decide (j.goal = .lifecycle)

/-- The command has passed its commit point: what it began goes on without it. -/
def State.committed (s : State) (c : Call) : Bool :=
  s.ldg.waits.any (fun w => decide (w.call = c)) || s.stl.removals.any (fun r => decide (r.call = some c)) ||
    s.stl.freezes.any (fun f => decide (f.call = c)) || s.granted.any (fun g => decide (g.call = some c)) ||
    s.sbx.destroys.any (fun d => decide (d.call = some c)) || s.bth.running.any (fun o => decide (o.call = c)) ||
    s.lcu.job.any (fun j => decide (j.call? = some c)) || s.lcu.jobs.any (fun j => decide (j.call? = some c)) ||
    s.lcu.transition.any (fun t => decide (t.call = some c)) || decide (s.rst.patchCall = some c) || s.tol.running.any fun e => decide (e.call = c ∧ 4 ≤ e.phase)

/-- The commands of a Stall that have not reached their commit point complete with ST_STALL_LOST (R407); an idle Booth it holds is free
(R432). -/
def State.failCommands (id : Nat) (s : State) : State :=
  let mine (q : Queued) : Bool := decide (q.call.stall = id) && !s.committed q.call
  let qs := s.hlm.running.filter mine ++ s.hlm.buffer.filter mine ++ s.hlm.tickQ.filter mine
  let t : State := { s with
    hlm := { s.hlm with buffer := s.hlm.buffer.filter fun q => !mine q, tickQ := s.hlm.tickQ.filter fun q => !mine q }
    mrk := { s.mrk with waits := s.mrk.waits.filter fun w => w.call.stall ≠ id }
    bth := { s.bth with
      queue := s.bth.queue.filter fun o => o.call.stall ≠ id
      holder := if s.bth.running.isNone ∧ ¬ s.bth.tollgate then s.bth.holder.filter fun h => h.2 ≠ id else s.bth.holder }
    tol := { s.tol with queue := s.tol.queue.filter fun e => e.call.stall ≠ id }
    sbx := { s.sbx with entropyWaits := s.sbx.entropyWaits.filter fun w => w.call.stall ≠ id } }
  qs.foldl (fun t q => t.finish q.call stStallLost) t

/-- A Stall becomes LOST with a cause (R408): recorded at once, its windows cleared (R332), the refusal maps updated, its commands ended. A Stall that is FREE,
REMOVING or LOST already keeps its state. -/
def State.loseStall (id cause : Nat) (s : State) : State :=
  match s.stall? id with
  | none => s
  | some x =>
    if x.state = .lost ∨ x.state = .removing then s else
      let t := { s with rwt := s.rwt.filter fun p => p.2.reqStall ≠ id }
      (((t.setStall id { x with state := .lost, lostCause := cause }).bump (ctrStl 6) 1).sendRefusal id).failCommands id

/-! ### The quiet state (R89, R520, R530) -/

/-- Every host-side request an MSE has accepted and not answered. -/
def Mse.requests (m : Mse) : List HostReq :=
  m.held.map (·.1) ++
    m.hazards.flatMap (fun h => (h.outBuf.map (·.list)).getD [] ++ (h.fillBuf.map (·.list)).getD [] ++ h.queue) ++
    m.ops.flatMap (·.reqs) ++ m.tagPending.flatMap fun t => t.waits.flatMap (·.reqs)

/-- The response to a host-side request with a status other than OK (R60). -/
def answerBad (i : Nat) (st : PortStatus) (r : HostReq) : Out :=
  if r.write then .hb i r.lane r.id st else .hd i r.lane r.id st (onesData 128)

/-- An MSE whose work is squashed: writes already presented stay until their acknowledgement, reads presented keep
their ID reserved, everything else ends (R133, R530). -/
def Mse.squash (m : Mse) : Mse :=
  { m with
    held := []
    hazards := []
    ops := (m.ops.filter fun o => o.write && o.id.isSome).map fun o => { o with reqs := [] }
    reserved := m.reserved ++ (m.ops.filter fun o => !o.write && o.id.isSome).map fun o =>
      { id := o.id.getD 0, sector := o.sector, write := false }
    testing := []
    tagPending := m.tagPending.map fun t => { t with waits := t.waits.map fun w => { w with reqs := [] } } }

/-- The poisoned answers of every MSE, in index order. [DEDUCED: notes/assumptions/54.md] -/
def poisonMses : Nat → List Mse → List Out
  | _, [] => []
  | i, m :: ms => m.requests.map (answerBad i .poison) ++ poisonMses (i + 1) ms

/-- The response kind of a request kind, and the data bytes of a response that is not OK (R319, R329). -/
def respKind (kind : Nat) : Nat := if kind = 0 then 4 else if kind = 2 then 5 else 6
def badBytes (kind nbytes : Nat) : Nat := if kind = 0 ∨ kind = 2 then nbytes else 0

/-- The answer to an outbound request with a status other than OK (R328, R330). -/
def answerOut (i src : Nat) (st : PortStatus) (o : OutReq) : Out :=
  .hr i (respKind o.kind) src o.tc 0 o.id st 0 (onesData (badBytes o.kind o.nbytes))

/-- The poisoned answer to an outbound request of a link port. -/
def poisonOut (i src : Nat) (o : OutReq) : Out := answerOut i src .poison o

/-- The poisoned answers of every LSE, in index order. [DEDUCED: notes/assumptions/54.md] -/
def poisonLses : Nat → List Lse → List Out
  | _, [] => []
  | i, l :: ls => l.out.map (poisonOut i l.peerChip) ++ poisonLses (i + 1) ls

/-- An LSE in the quiet state: nothing outstanding, a unit partly sent is cut, received units discarded (R89, R90). -/
def Lse.quiet (l : Lse) : Lse := { l with out := [], inbound := [], txBuf := [], rxBuf := [], revokes := [] }

/-- The block enters the quiet state: outstanding requests are answered POISON, units stop, a running window command
stops without a record (R89, R484, R530). [DEDUCED: notes/assumptions/23.md] -/
def State.enterQuiet (s : State) : State :=
  if s.alr.quiet then s else
    { (s.emits (poisonMses 0 s.mse ++ poisonLses 0 s.lse)) with
      alr := { s.alr with quiet := true, ssIdle := false }
      mse := s.mse.map Mse.squash
      lse := s.lse.map Lse.quiet
      hlm := { s.hlm with cwq := [], dwBusy := false, running := [] }
      bth := { s.bth with running := none, queue := [] }
      tol := { s.tol with running := none, queue := [], hold := [] }
      mrk := { s.mrk with waits := [] }
      stl := { s.stl with fills := [] }
      sty := { s.sty with queue := [] }
      lcu := { s.lcu with job := s.lcu.job.filter FuseJob.forLifecycle, jobs := s.lcu.jobs.filter FuseJob.forLifecycle } }

/-- Safe Stop: the quiet state with tray_safe_stop and rst_req (R520, R529). A cause seen while rst_busy is 1 is held:
the quiet state then follows the load (R531). -/
def State.enterSafeStop (s : State) : State :=
  let q := if s.rst.rstBusy then s else s.enterQuiet
  { q with
    alr := { q.alr with safeStop := true }
    rst := { q.rst with rstReq := true } }

/-! ### Zeroization (R203 to R205) -/

/-- A link direction without its key. -/
def LinkDir.zeroized (d : LinkDir) : LinkDir := { d with key := [] }

/-- The zeroize net clears every key store: slots, tile caches, the root register, the pipelines and the key-pair pool
(R203, R204). It stays asserted until S or P (R205). -/
def State.zeroize (s : State) : State :=
  { s with
    sbx := { s.sbx with
      slots := [], tiles := [], unwraps := [], root := [], poolLevel := 0
      zeroNet := true, verifying := true, drkOk := false
      zeroizeCount := satAdd 65535 s.sbx.zeroizeCount 1 }
    sty := { s.sty with seed := [], keyOk := false, testKey := false }
    lse := s.lse.map fun l => { l with tx := l.tx.zeroized, rx := l.rx.zeroized, txNext := none, rxNext := none, secret := [] }
    hse := s.hse.map fun h => { h with keys := [] } }

/-- The anchor is cleared by a tamper-class alarm (R139). -/
def State.clearAnchorTamper (s : State) : State :=
  { s with ldg := { s.ldg with anchor := { valid := false, clearedByTamper := true, epoch := 0, root := [], seq := 0 } } }

/-- The anchor is cleared when the part leaves DEPLOYED (R139). -/
def State.clearAnchor (s : State) : State :=
  { s with ldg := { s.ldg with
      anchor := { s.ldg.anchor with valid := false, epoch := 0, root := [], seq := 0 } } }

/-! ### The alarm log and the alarm classes (R521 to R527) -/

/-- An integrity alarm that repeats the newest entry within 1 ms coalesces into it (R524). -/
def AlarmEntry.repeats (e n : AlarmEntry) (now : Nat) : Bool :=
  decide (e.code = alIntegrity ∧ n.code = alIntegrity ∧ e.unit = n.unit ∧ e.cause = n.cause ∧
    e.word % 2 ^ 16 = n.word % 2 ^ 16 ∧ e.stall = n.stall ∧ now ≤ e.firstAt + 1000000)

/-- The log without the entry a new one replaces when it is full: the oldest integrity entry, else the oldest entry that
is not a tamper entry; none where every entry is a tamper entry (R524). [DEDUCED: notes/assumptions/57.md] -/
def evictAlarm (log : List AlarmEntry) : Option (List AlarmEntry) :=
  if log.any (fun e => e.code = alIntegrity) then some (log.eraseP fun e => e.code = alIntegrity)
  else if log.any (fun e => e.code ≠ alTamper) then some (log.eraseP fun e => e.code ≠ alTamper)
  else none

/-- An entry is logged (R524): coalesced, appended, or in the place of an older one. [DEDUCED: notes/assumptions/57.md] -/
def Alr.logEntry (n : AlarmEntry) (now : Nat) (a : Alr) : Alr :=
  match a.log.getLast? with
  | some e =>
    if e.repeats n now then { a with log := a.log.dropLast ++ [{ e with count := satAdd (2 ^ 32 - 1) e.count 1 }] }
    else if a.log.length < 64 then { a with log := a.log ++ [n] }
    else match evictAlarm a.log with
      | some l => { a with log := l ++ [n], logOverflow := true }
      | none => { a with logOverflow := true }
  | none => { a with log := [n] }

/-- An alarm is logged: the entry, and ALARM of XS_IRQ_STATUS (R599). -/
def State.logAlarm (code unit : Nat) (stall : Option Nat) (cause word : Nat) (s : State) : State :=
  { s with
    alr := s.alr.logEntry
      { code, unit, stall, time := s.clk.domain, unanchored := s.unanchored, cause, word, count := 1
        firstAt := s.clk.elapsed, copied := false } s.clk.elapsed
    hlm := { s.hlm with irqAlarm := true } }

/-- A tamper-class alarm (R521): zeroize, clear the anchor, Safe Stop, rst_req. [DEDUCED: notes/assumptions/27.md] -/
def State.alarmTamper (unit cause word : Nat) (s : State) : State :=
  let t := ((s.logAlarm alTamper unit none cause word).zeroize).clearAnchorTamper
  ({ t with alr := { t.alr with tamper := true } }.bump (ctrRcu 4) 1).enterSafeStop

/-- A clock-integrity alarm (R521): Safe Stop without key erase, rst_req. [DEDUCED: notes/assumptions/27.md] -/
def State.alarmClock (unit cause word : Nat) (s : State) : State :=
  let t := s.logAlarm alClock unit none cause word
  ({ t with alr := { t.alr with clock := true } }.bump (ctrRcu 5) 1).enterSafeStop

/-- AL_SAFESTOP (R521): Safe Stop without key erase, rst_req. [DEDUCED: notes/assumptions/27.md] -/
def State.alarmSafestop (unit cause word : Nat) (s : State) : State :=
  (s.logAlarm alSafestop unit none cause word).enterSafeStop

/-- The charged Stall's INTEG policy (R409): LOSE makes it LOST with cause 5. -/
def State.integPolicy (charged : Option Nat) (s : State) : State :=
  match charged with
  | none => s
  | some id => match s.stall? id with
    | none => s
    | some x => if x.integLose then s.loseStall id 5 else s

/-- An integrity alarm (R521, R527): logged, tray_al_integrity, and the INTEG policy of the Stall it is charged to.
[DEDUCED: notes/assumptions/27.md] -/
def State.alarmIntegrity (unit : Nat) (stall charged : Option Nat) (cause word : Nat) (s : State) : State :=
  let t := s.logAlarm alIntegrity unit stall cause word
  ({ t with alr := { t.alr with integrity := true } }.bump 10 1).integPolicy charged

/-! ### Soundings (R532) -/

/-- A Sounding has classified: EV_SOUNDING with its type and class code (R542), and its count (R547).
[DEDUCED: notes/assumptions/26.md] -/
def State.sounding (unit type cls : Nat) (s : State) : State :=
  let a := s.alr
  let a' := match type with
    | 0 => { a with soundLane := satAdd 255 a.soundLane 1 }
    | 1 => { a with soundRow := satAdd 63 a.soundRow 1 }
    | 2 => { a with soundKey := satAdd 63 a.soundKey 1 }
    | 3 => { a with soundCtr := satAdd 63 a.soundCtr 1 }
    | _ => { a with soundCdc := satAdd 63 a.soundCdc 1 }
  ({ s with alr := a' }.event evSounding unit none type cls).bump (ctrRcu 6) 1

/-! ### Fuse words (R496) -/

/-- The value of a fuse word. -/
def Lcu.fuse (l : Lcu) (w : Nat) : Nat := (assocGet w l.fuses).getD 0

/-- A fuse bit programmed to 1: the macro programs 0-to-1 transitions only (R82). -/
def Lcu.programBit (w b : Nat) (l : Lcu) : Lcu :=
  { l with fuses := assocSet w (l.fuse w ||| 2 ^ b) l.fuses }

end Sys2Proof.Machine
end

