-- ==== Sys2Proof/Machine/Sector.lean ====
section
/-!
DEFINITION. Addresses and the sealed sector format: the hash that gives a sealed address its MSE (spec/06_almanac_bringup.md R168),
regions (spec/10_ledger_sweeper.md R280), carve-out ranges and tag lines (spec/08_sealed_sector_format.md R222, R223), tweak, MAC,
sideband word and verification (R213 to R220).
-/

namespace Sys2Proof.Machine

/-! ### Addresses -/

/-- Bytes of a region. -/
def regionBytes : Nat := 2 ^ 22

/-- The sealed address of a sector. -/
def sectorAddr (sector : Nat) : Nat := sector * 128

/-- The byte fold of R168. [DEDUCED: notes/assumptions/62.md] -/
def hashFold (q : Nat) : Nat :=
  (q % 256) ^^^ (q / 2 ^ 8 % 256) ^^^ (q / 2 ^ 16 % 256) ^^^ (q / 2 ^ 24 % 256)

/-- The logical MSE and device offset that R168 gives a local sealed address, for `c` MSEs. [DEDUCED: notes/assumptions/62.md] -/
def hashMse (c seed addr : Nat) : Nat × Nat :=
  let g := addr / 2 ^ 12
  let r := g % c
  let q := g / c
  ((r + (hashFold q + seed) % c) % c, q * 2 ^ 12 + addr % 2 ^ 12)

/-- The local sealed address that R168 maps to an MSE at a device offset (R223). [DEDUCED: notes/assumptions/62.md] -/
def unhashMse (c seed mse device : Nat) : Nat :=
  let q := device / 2 ^ 12
  let r := (mse + c - (hashFold q + seed) % c) % c
  (q * c + r) * 2 ^ 12 + device % 2 ^ 12

/-- The pool window an address lies in: its number, its definition and the pool index of its first region (R280). -/
def poolWindowOf : List PoolWindow → Nat → Nat → Nat → Option (Nat × PoolWindow × Nat)
  | [], _, _, _ => none
  | w :: ws, j, base, region =>
    if w.base ≤ region ∧ region < w.base + w.size then some (j, w, base + (region - w.base))
    else poolWindowOf ws (j + 1) (base + w.size) region

/-- The address lies below the local limit. -/
def State.isLocal (s : State) (addr : Nat) : Bool := decide (addr / regionBytes < s.cfg.chart.localLimit)

/-- The region of a sealed address, none above the local limit outside every pool window (R168, R280). -/
def State.regionOf (s : State) (addr : Nat) : Option RegionId :=
  if s.isLocal addr then some { pool := false, index := addr / regionBytes }
  else (poolWindowOf s.cfg.chart.pools 0 0 (addr / regionBytes)).map fun p => { pool := true, index := p.2.2 }

/-- The MSE that serves a sealed address (R168, R169). [DEDUCED: notes/assumptions/62.md] -/
def State.homeMse (s : State) (addr : Nat) : Option Nat :=
  if s.isLocal addr then some (hashMse s.build.mseCount s.cfg.chart.hashSeed addr).1
  else (poolWindowOf s.cfg.chart.pools 0 0 (addr / regionBytes)).map fun p => p.2.1.mse

/-- The window of a pool region index and the window's offset of it (R280). -/
def poolWindowAt : List PoolWindow → Nat → Option (PoolWindow × Nat)
  | [], _ => none
  | w :: ws, i => if i < w.size then some (w, i) else poolWindowAt ws (i - w.size)

/-- The MSE of a pool region (R169). -/
def State.poolMse (s : State) (i : Nat) : Option Nat := (poolWindowAt s.cfg.chart.pools i).map fun p => p.1.mse

/-- The sealed address of a region's first byte. -/
def State.regionAddr (s : State) (r : RegionId) : Option Nat :=
  if r.pool then (poolWindowAt s.cfg.chart.pools r.index).map fun p => regionBytes * (p.1.base + p.2)
  else some (regionBytes * r.index)

/-- The memory of an address is in carve-out mode (R221). -/
def State.carveOut (s : State) (addr : Nat) : Bool :=
  if s.isLocal addr then s.cfg.engine.tagLocalCo
  else match poolWindowOf s.cfg.chart.pools 0 0 (addr / regionBytes) with
    | some (j, _, _) => s.cfg.engine.tagPool.testBit j
    | none => false

/-- The address lies in a carve-out range (R222). -/
def State.inCarveRange (s : State) (addr : Nat) : Bool :=
  s.carveOut addr &&
    (if s.isLocal addr then decide (15 * (regionBytes * s.cfg.chart.localLimit) / 16 ≤ addr)
     else match poolWindowOf s.cfg.chart.pools 0 0 (addr / regionBytes) with
      | some (_, w, _) => decide (regionBytes * w.base + 15 * (regionBytes * w.size) / 16 ≤ addr)
      | none => false)

/-- The tag line of a sector, as a sector index, and the word in it (R223). -/
def State.tagLineOf (s : State) (sector : Nat) : Nat × Nat :=
  let addr := sectorAddr sector
  if s.isLocal addr then
    let c := s.build.mseCount
    let hd := hashMse c s.cfg.chart.hashSeed addr
    let m := regionBytes * s.cfg.chart.localLimit / c
    let t := 15 * m / 16 + hd.2 / 2 ^ 11 * 2 ^ 7
    (unhashMse c s.cfg.chart.hashSeed hd.1 t / 128, hd.2 / 2 ^ 7 % 16)
  else match poolWindowOf s.cfg.chart.pools 0 0 (addr / regionBytes) with
    | some (_, w, _) =>
      let o := addr - regionBytes * w.base
      ((regionBytes * w.base + 15 * (regionBytes * w.size) / 16 + o / 2 ^ 11 * 2 ^ 7) / 128, o / 2 ^ 7 % 16)
    | none => (0, 0)

/-- The address lies in the Harbour range (R169). -/
def State.inHarbour (s : State) (addr : Nat) : Bool :=
  let b := s.cfg.chart.harbourBase
  decide (regionBytes * b ≤ addr ∧ addr < regionBytes * (b + s.cfg.chart.harbourCount))

/-! ### The Ledger's entries -/

/-- An entry that no table lists: FREE (R280). -/
def LdgEntry.freeEntry : LdgEntry := { owner := 0, gen := 0, state := .free, floor := 0, sweep := false }

/-- The entry of a region as the Ledger holds it. -/
def State.entry (s : State) (r : RegionId) : LdgEntry :=
  (assocGet r.index (if r.pool then s.ldg.poolEntries else s.ldg.localEntries)).getD LdgEntry.freeEntry

/-- A table with an entry written: a FREE entry is not listed. -/
def putEntry (i : Nat) (e : LdgEntry) (l : List (Nat × LdgEntry)) : List (Nat × LdgEntry) :=
  if e = LdgEntry.freeEntry then assocDel i l else assocSet i e l

/-- The Ledger writes an entry (R283 step 1). -/
def State.setEntry (r : RegionId) (e : LdgEntry) (s : State) : State :=
  if r.pool then { s with ldg := { s.ldg with poolEntries := putEntry r.index e s.ldg.poolEntries } }
  else { s with ldg := { s.ldg with localEntries := putEntry r.index e s.ldg.localEntries } }

/-- The region entry as a 64-bit word (R280). -/
def LdgEntry.word (e : LdgEntry) : Nat :=
  e.owner % 2 ^ 12 + e.gen % 4 * 2 ^ 12 + e.state.code * 2 ^ 14 + e.floor % 2 ^ 24 * 2 ^ 18 + bit e.sweep * 2 ^ 42

/-! ### Tweak, MAC and sideband word -/

/-- The 16-byte encoding of the tweak value (R214). -/
def tweak (sector epoch gen dom : Nat) : Bytes :=
  leBytes 8 (sector % 2 ^ 49) ++ leBytes 3 epoch ++ leBytes 1 (gen % 4 + 4 * (dom % 8)) ++ zeros 4

/-- XTS data key and tweak key of a REGION key (R213). -/
def keyK1 (k : Bytes) : Bytes := k.take 32
def keyK2 (k : Bytes) : Bytes := (k.drop 32).take 32

/-- The GHASH subkey H (R213). -/
def macH (k : Bytes) : Nat := ofBe (aesEnc (keyK2 k) (tweak 0 0 0 1))

/-- The finalisation key K_F (R213). -/
def macKf (k : Bytes) : Bytes := aesEnc (keyK2 k) (tweak 0 0 0 2) ++ aesEnc (keyK2 k) (tweak 0 0 0 3)

/-- The 48-bit sector MAC (R216). -/
def sectorMac (k ct tw : Bytes) : Nat :=
  ofLe ((aesEnc (macKf k) (beBytes 16 (ghash (macH k) (ct ++ tw)))).take 6)

/-- XOR of the seven low bytes of a sideband word. -/
def xor7 (sb : Nat) : Nat := (leBytes 7 sb).foldl (fun a b => a ^^^ b.toNat) 0

/-- The sideband word of a MAC and an epoch (R217). -/
def sidebandWord (mac epoch : Nat) : Nat :=
  let low := mac % 2 ^ 48 + epoch % 256 * 2 ^ 48
  low + (0xA5 ^^^ xor7 low) * 2 ^ 56

/-- A sealed sector: ciphertext and sideband word (R214 to R217). -/
def sealSector (k : Bytes) (sector epoch gen : Nat) (pt : Bytes) : Bytes × Nat :=
  let tw := tweak sector epoch gen 0
  let ct := xtsEnc (keyK1 k) (keyK2 k) tw pt
  (ct, sidebandWord (sectorMac k ct tw) epoch)

/-- What the verification of a read yields (R219). -/
inductive ReadVerdict where
  | pass (pt : Bytes)
  | sbCheckFail
  | windowFail
  | macFail
  deriving DecidableEq, Repr

/-- The verification of R219 under one key: `e` is the tile's epoch, `f` the floor; under the boot key the epoch is 0 and
no window is tested (R220). -/
def verifySector (k : Bytes) (boot : Bool) (sector gen e f : Nat) (ct : Bytes) (sb : Nat) : ReadVerdict :=
  if sb / 2 ^ 56 % 256 ≠ 0xA5 ^^^ xor7 sb then .sbCheckFail else
    let d := (e % 256 + 256 - sb / 2 ^ 48 % 256) % 256
    let ep := if boot then 0 else sub24 e d
    let tw := tweak sector ep (if boot then 0 else gen) 0
    if !boot && decide (sub24 e f < d) then .windowFail
    else if sectorMac k ct tw ≠ sb % 2 ^ 48 then .macFail
    else .pass (xtsDec (keyK1 k) (keyK2 k) tw ct)

/-- The verdict passes. -/
def ReadVerdict.ok : ReadVerdict → Bool
  | .pass _ => true
  | _ => false

/-- CHECK of a failing verdict (R256). -/
def ReadVerdict.check : ReadVerdict → Nat
  | .pass _ => 0
  | .sbCheckFail => 1
  | .windowFail => 2
  | .macFail => 3

/-! ### Key selection (R240) -/

/-- The key a sector is sealed or opened under: none in a plaintext region (R220), a REGION generation, or the boot key. -/
inductive SectorKey where
  | plain
  | region (handle gen : Nat)
  | boot
  deriving DecidableEq, Repr

/-- The handle of the BOOT key: a block key of TYPE 0x9 (R185, R186). -/
def bootHandle : Nat := 0x00090000

/-- Handle and generation under which the tile key cache and the slots hold the key. -/
def SectorKey.ref : SectorKey → Option (Nat × Nat)
  | .plain => none
  | .region h g => some (h, g)
  | .boot => some (bootHandle, 0)

/-- What R240 selects for a sector: the key of a write, the key a read opens under first, and the second trial. -/
structure KeySel where
  write : SectorKey
  first : SectorKey
  second : Option SectorKey
  deriving DecidableEq, Repr

/-- TYPE of a handle (R185). -/
def handleType (h : Nat) : Nat := h / 2 ^ 16 % 16

/-- OWNER of a handle (R185). -/
def handleOwner (h : Nat) : Nat := h / 2 ^ 20 % 2 ^ 12

/-- The REGION handle of a Stall (R281): the handle of TYPE 0x1 in its key table. -/
def State.regionHandle (s : State) (stall : Nat) : Option Nat :=
  match s.stallData? stall with
  | none => none
  | some d => (d.keys.find? fun k => handleType k.handle = 1 ∧ ¬ k.destroyed).map (·.handle)

/-- The active sweep slot of a region. -/
def State.sweepSlot? (s : State) (r : RegionId) : Option SweepSlot :=
  (s.swp.slots.find? fun p => p.2.order.region = r).map (·.2)

/-- Where a sector stands against the boundary and the band (R240, R294, R295). -/
inductive SweepZone where
  | below | band | above
  deriving DecidableEq, Repr

/-- The zone of a sector with offset `off` (bytes) in its region: a stride below the open one and a done sector are below;
the rest of the band [boundary, BAND_HI) is the band. [DEDUCED: notes/assumptions/63.md] -/
def zoneOf (sl : Option SweepSlot) (off : Nat) : SweepZone :=
  match sl with
  | none => .above
  | some w =>
    if off / 65536 < w.stride ∨ (off / 65536 = w.stride ∧ w.done.contains (off % 65536 / 128)) then .below
    else if off < w.bandHi then .band else .above

/-- The zone of an offset, with every unswept sector of a worn generation in the band (R295). A FLOOR pass moves no boundary
between generations. -/
def State.zone (s : State) (r : RegionId) (owner : Nat) (bootOld : Bool) (off : Nat) : SweepZone :=
  match zoneOf ((s.sweepSlot? r).filter fun (w : SweepSlot) => w.order.kind ≠ .floor) off with
  | .above => if !bootOld && s.swp.sweeps.any fun k => k.stall = owner ∧ k.wear then .band else .above
  | z => z

/-- The key selection of R240 at a tile for a sector of region `r` with entry `e`. -/
def State.selectKey (s : State) (m : Mse) (r : RegionId) (e : LdgEntry) (sector : Nat) : Option KeySel :=
  match e.state with
  | .plain => some { write := .plain, first := .plain, second := none }
  | .lstore => some { write := .plain, first := .plain, second := none }
  | _ =>
    match m.sweeps.find? fun t => t.region = r with
    | none =>
      if e.state = .boot then some { write := .boot, first := .boot, second := none }
      else (s.regionHandle e.owner).map fun h =>
        { write := .region h e.gen, first := .region h e.gen, second := none }
    | some t =>
      (s.regionHandle e.owner).map fun h =>
        let old := if t.bootOld then SectorKey.boot else .region h t.old
        let new := SectorKey.region h t.new
        match s.zone r e.owner t.bootOld (sectorAddr sector % regionBytes) with
        | .below => { write := new, first := new, second := none }
        | .band => { write := new, first := new, second := some old }
        | .above => { write := old, first := old, second := none }

/-- The key a tile's cache holds for a handle and generation. -/
def State.tileKey? (s : State) (tile handle gen : Nat) : Option Bytes :=
  (s.sbx.tiles.find? fun k => k.tile = tile ∧ k.handle = handle ∧ k.gen = gen).map (·.material)

/-- The key material a tile needs for a sector key; a plaintext region needs none. -/
def State.sectorKey? (s : State) (tile : Nat) (k : SectorKey) : Option Bytes :=
  match k.ref with
  | none => some []
  | some (h, g) => s.tileKey? tile h g

/-- Sealing under a selected key at a tile epoch (R239, R220): plaintext regions are stored as they are with sideband 0. -/
def sealWith (k : SectorKey) (mat : Bytes) (sector epoch : Nat) (pt : Bytes) : Bytes × Nat :=
  match k with
  | .plain => (pt, 0)
  | .region _ g => sealSector mat sector epoch g pt
  | .boot => sealSector mat sector 0 0 pt

/-- Verification under one selected key. -/
def verifyWith (k : SectorKey) (mat : Bytes) (sector e f : Nat) (ct : Bytes) (sb : Nat) : ReadVerdict :=
  match k with
  | .plain => .pass ct
  | .region _ g => verifySector mat false sector g e f ct sb
  | .boot => verifySector mat true sector 0 e f ct sb

/-- Both trials of a read (R219, R220): a second trial that passes decides. Under two generations of one handle the window
check does not depend on the generation; where the old key is the boot key it applies to the first trial only. -/
def verifyTrials (first : ReadVerdict) (second : Option ReadVerdict) (bootOld : Bool) : ReadVerdict :=
  match first, second with
  | .pass p, _ => .pass p
  | .sbCheckFail, _ => .sbCheckFail
  | v, none => v
  | .windowFail, some w => if bootOld then (match w with | .pass p => .pass p | _ => .windowFail) else .windowFail
  | .macFail, some w => match w with | .pass p => .pass p | _ => .macFail

end Sys2Proof.Machine
end

