-- ==== Sys2Proof/Machine/Store.lean ====
section
/-!
DEFINITION. The Ledger store (spec/10_ledger_sweeper.md R288, R301 to R303): its addresses, delta records, bases and pool lines, and the
queue of changes that wait for a record.
-/

namespace Sys2Proof.Machine

/-! ### Storage keys (R183) -/

/-- LC_CLASS: 0 with the test DRK, 1 otherwise. -/
def State.lcClass (s : State) : Nat := if s.sbx.drkTest then 0 else 1

/-- The XS-STORE key of a part: 1 settings, 2 journal, 3 User, 4 Ledger checkpoint, 5 Stall record. -/
def State.storeKey (s : State) (part : Nat) : Bytes :=
  kdf s.sbx.root "XS-STORE" (leBytes 1 s.lcClass ++ leBytes 1 part) 256

/-! ### Addresses (R287, R301) -/

/-- The sealed address of a byte of store region `k`: the store is the top 16 regions of the Harbour range.
[DEDUCED: notes/assumptions/45.md] -/
def State.storeAddr (s : State) (k off : Nat) : Nat :=
  regionBytes * (s.cfg.chart.harbourBase + s.cfg.chart.harbourCount - 16 + k) + off

/-- Records of the log ring (R301). -/
def logRecords : Nat := 425984

/-! ### Items (R302) -/

/-- The value of a TYPE 0x03 item: region, POOL, kind, generations, BAND_HI in strides and E_s, in the order R302 lists. -/
def SweepSlot.value (w : SweepSlot) : Nat :=
  w.order.region.index % 2 ^ 20 + bit w.order.region.pool * 2 ^ 20 + w.order.kind.code * 2 ^ 21 +
    w.order.old % 4 * 2 ^ 23 + w.order.new % 4 * 2 ^ 25 + bit w.order.bootOld * 2 ^ 27 +
    w.bandHi / 65536 % 128 * 2 ^ 28 + w.eS % 2 ^ 24 * 2 ^ 35

/-- The 12 bytes of an item: TYPE, INDEX, VALUE. -/
def DeltaItem.bytes : DeltaItem → Bytes
  | .entry r e => leBytes 1 (if r.pool then 2 else 1) ++ leBytes 3 r.index ++ leBytes 8 e.word
  | .stride k n w => leBytes 1 3 ++ leBytes 3 (k * 2 ^ 20 + n) ++ leBytes 8 w.value
  | .epoch e t => leBytes 1 4 ++ leBytes 3 e ++ leBytes 8 t
  | .digest st p b => leBytes 1 5 ++ leBytes 3 (st + p * 2 ^ 12) ++ (padTo 8 b).take 8
  | .base sha => leBytes 1 6 ++ leBytes 3 0 ++ (padTo 8 sha).take 8

/-- The items that record a Stall's digest: six parts of eight bytes. -/
def digestItems (stall : Nat) (sha : Bytes) : List DeltaItem :=
  (List.range 6).map fun p => .digest stall p (slice sha (8 * p) 8)

/-- A part of a digest written over what stood there. -/
def setPart (part : Nat) (b old : Bytes) : Bytes :=
  let o := padTo 48 old
  o.take (8 * part) ++ (padTo 8 b).take 8 ++ o.drop (8 * part + 8)

/-- The store with one item applied. -/
def StoreImage.apply (i : DeltaItem) (m : StoreImage) : StoreImage :=
  match i with
  | .entry r e => if r.pool then { m with poolEntries := putEntry r.index e m.poolEntries }
      else { m with localEntries := putEntry r.index e m.localEntries }
  | .stride k _ w => if w.stride ≥ 64 then { m with slots := assocDel k m.slots } else { m with slots := assocSet k w m.slots }
  | .epoch e t => { m with ring := assocSet (e % 256) { epoch := e, time := t, inherited := false } m.ring }
  | .digest st p b => { m with digests := assocSet st (setPart p b ((assocGet st m.digests).getD [])) m.digests }
  | .base _ => m

/-! ### Records and bases (R302, R303) -/

/-- The nonce of a GCM operation in the store. -/
def storeNonce (id : Bytes) (counter : Nat) : Bytes := (padTo 8 id).take 8 ++ leBytes 4 counter

/-- The 128 bytes of a delta record. -/
def State.recordBytes (s : State) (r : DeltaRecord) : Bytes :=
  let hdr := leBytes 8 r.seq ++ leBytes 4 r.counter ++ leBytes 1 r.items.length ++ zeros 3
  let c := gcmSeal (s.storeKey 4) (storeNonce s.ldg.storeId r.counter) hdr (padTo 96 (r.items.flatMap DeltaItem.bytes))
  hdr ++ c.1 ++ c.2

/-- The live tables as a base holds them (R303). -/
def State.image (s : State) : StoreImage :=
  { localEntries := s.ldg.localEntries, poolEntries := s.ldg.poolEntries, versions := s.ldg.versions
    ring := s.epo.ring, digests := s.ldg.store.digests, slots := s.swp.slots }

/-- A table of `n` words of `w` bytes with the listed entries (0 elsewhere). -/
def tableBytes (w n : Nat) (l : List (Nat × Nat)) : Bytes :=
  (List.range n).flatMap fun i => leBytes w ((assocGet i l).getD 0)

/-- The floor histograms (R290): 2 classes of 256 counters. -/
def histogramBytes (l p : List (Nat × LdgEntry)) : Bytes :=
  let counts (t : List (Nat × LdgEntry)) : Bytes := (List.range 256).flatMap fun f =>
    leBytes 8 (t.filter fun e => decide (e.2.floor % 256 = f) &&
      (decide (e.2.state = .sealed) || decide (e.2.state = .frozen) || decide (e.2.state = .zeroing))).length
  counts l ++ counts p

/-- The 4,096 digests of a base. -/
def digestBytes (d : List (Nat × Bytes)) : Bytes :=
  (List.range 4096).flatMap fun i => (padTo 48 ((assocGet i d).getD [])).take 48

/-- The bytes of a base (R303): header, tables as ciphertext, tag. -/
def State.baseBytes (s : State) (m : StoreImage) (counter seq pos : Nat) : Bytes :=
  let hdr := padTo 128 (leBytes 4 0x424C5358 ++ (padTo 8 s.ldg.storeId).take 8 ++ leBytes 4 counter ++ leBytes 8 seq ++ leBytes 8 pos)
  let pt := tableBytes 8 294912 (m.localEntries.map fun p => (p.1, p.2.word)) ++ tableBytes 4 32768 m.versions ++
    ((List.range 256).flatMap fun i => match assocGet i m.ring with
      | none => zeros 16
      | some e => leBytes 4 e.epoch ++ leBytes 4 (1 + 2 * bit e.inherited) ++ leBytes 8 e.time) ++
    digestBytes m.digests ++
    ((List.range 16).flatMap fun i => match assocGet i m.slots with
      | none => zeros 128
      | some w => padTo 128 (leBytes 8 w.value ++ leBytes 1 w.stride)) ++
    histogramBytes m.localEntries m.poolEntries
  let c := gcmSeal (s.storeKey 4) (storeNonce s.ldg.storeId counter) hdr pt
  hdr ++ c.1 ++ c.2

/-- A base is begun: it is written in the background to the slot not in use, and its marker waits for a record (R303).
[DEDUCED: notes/assumptions/64.md] -/
def State.beginBase (s : State) : State :=
  let bytes := s.baseBytes s.image s.ldg.counter (s.ldg.anchor.seq + 1) s.ldg.logPos
  { (s.emit (.memWrite 0 (s.storeAddr (if s.ldg.baseSlotB then 0 else 1) 0) bytes)) with
    ldg := { s.ldg with
      baseBusy := true
      baseImage := some s.image
      counter := s.ldg.counter + 1
      items := .base (sha384 bytes) :: s.ldg.items } }

/-- The items of the next record: a base marker alone, else up to eight others. [DEDUCED: notes/assumptions/64.md] -/
def nextItems : List DeltaItem → List DeltaItem
  | [] => []
  | .base h :: _ => [.base h]
  | l => l.take 8

/-- The next record is written where changes wait, none is in flight and the log has room (R302, R303).
[DEDUCED: notes/assumptions/64.md] -/
def State.flushStore (s : State) : State :=
  if ¬ s.ldg.storeOk ∨ s.ldg.flight.isSome ∨ s.ldg.items.isEmpty then s
  else if logRecords ≤ s.ldg.sinceBase + 1 ∧ ¬ s.ldg.baseBusy then { s with ldg := { s.ldg with logWait := true } }
  else
    let is := nextItems s.ldg.items
    let r : DeltaRecord := { seq := s.ldg.anchor.seq + 1, counter := s.ldg.counter, items := is }
    { (s.emit (.memWrite 0 (s.storeAddr 3 (s.ldg.logPos * 128)) (s.recordBytes r))) with
      ldg := { s.ldg with
        flight := some r
        items := s.ldg.items.drop is.length
        counter := s.ldg.counter + 1
        logPos := (s.ldg.logPos + 1) % logRecords
        logWait := false } }

/-- Changes become ready for a delta record. [DEDUCED: notes/assumptions/64.md] -/
def State.queueItems (is : List DeltaItem) (s : State) : State :=
  ({ s with ldg := { s.ldg with items := s.ldg.items ++ is } }).flushStore

/-! ### Pool lines (R288, R289) -/

/-- The 128 bytes of pool line `k` under a counter. -/
def State.poolLineBytes (s : State) (k counter : Nat) : Bytes :=
  let pt := (List.range 14).flatMap fun j => leBytes 8 (s.entry { pool := true, index := 14 * k + j }).word
  let c := gcmSeal (s.storeKey 4) (storeNonce s.ldg.storeId counter) (leBytes 4 k) pt
  c.1 ++ c.2

/-- A changed pool entry rewrites its line under a fresh COUNTER (R289). -/
def State.rewriteLine (k : Nat) (s : State) : State :=
  let c := s.ldg.counter
  { (s.emit (.memWrite 0 (s.storeAddr 2 (128 * k)) (s.poolLineBytes k c))) with
    ldg := { s.ldg with
      counter := c + 1, versions := assocSet k c s.ldg.versions
      store := { s.ldg.store with versions := assocSet k c s.ldg.store.versions } } }

/-- The Ledger writes an entry (R283 step 1), and its pool line through to the store (R289). -/
def State.writeEntry (r : RegionId) (e : LdgEntry) (s : State) : State :=
  let t := s.setEntry r e
  if r.pool ∧ t.ldg.storeOk then t.rewriteLine (r.index / 14) else t

end Sys2Proof.Machine
end

