-- ==== Sys2Proof/Machine/MseCore.lean ====
section
/-!
DEFINITION. What the Memory Sealing Engines share (spec/09_memory_sealing_engines.md): the answers of R263, the lanes of R236 and R237,
sealing and verification at a tile, the hazard entries of R244 to R250 and the bad-sector list of R259.
-/

namespace Sys2Proof.Machine

/-- One MSE changed. -/
def State.modMse (i : Nat) (f : Mse → Mse) (s : State) : State := { s with mse := listSet s.mse i f }

/-- The error counters of one MSE changed. -/
def State.modErr (i : Nat) (f : MseErr → MseErr) (s : State) : State := s.modMse i fun m => { m with err := f m.err }

/-- A unit is under a unit reset (R132). -/
def State.inUnitReset (s : State) (code : Nat) : Bool := s.rst.unitResets.any fun u => u.code = code

/-- A unit has drained or been squashed and is held in reset (R132 step 4). -/
def State.unitHeld (s : State) (code : Nat) : Bool := s.rst.unitResets.any fun u => decide (u.code = code) && u.held

/-- The block is in service with an Almanac, outside the quiet state and a level-3 partition reset: data ports may be open
(R89, R125, R135, R164). -/
def State.dataOpen (s : State) : Bool :=
  decide (s.rst.phase = .service) && !s.rst.rstBusy && !s.ald.noAlmanac && !s.alr.quiet && !s.rst.dataClosed

/-- The quiet state after the load: readies are 1 and everything taken is answered POISON or discarded (R89, R91).
[DEDUCED: notes/assumptions/54.md] -/
def State.quietOpen (s : State) : Bool := s.alr.quiet && decide (s.rst.phase = .service) && !s.rst.rstBusy

/-! ### Responses (R60, R263) -/

/-- A sector that an MSE seals and verifies: its region holds sealed data (R219, R282). -/
def State.sealedSector (s : State) (sector : Nat) : Bool :=
  match s.regionOf (sectorAddr sector) with
  | none => false
  | some r => match (s.entry r).state with
    | .sealed | .frozen | .boot | .zeroing => true
    | _ => false

/-- An answer that the Steelyard counts: a sector written sealed, or returned verified, with OK (R571). -/
def State.meterAnswer (st : PortStatus) (r : HostReq) (s : State) : State :=
  if st = .ok ∧ s.sealedSector r.sector then s.meter 0 r.stall 128 else s

/-- A host-side request is answered, on its own lane, and counted (R553). -/
def State.answer (i : Nat) (st : PortStatus) (data : Bytes) (r : HostReq) (s : State) : State :=
  let t := if r.write then (s.emit (.hb i r.lane r.id st)).bump (ctrMse i 3) 1
    else (s.emit (.hd i r.lane r.id st (if st = .ok then data else onesData 128))).bump (ctrMse i 2) 1
  match st with
  | .integrity => t.bumpStall r.stall 5 1
  | .poison => t.bumpStall r.stall 6 1
  | _ => t.meterAnswer st r

/-- Requests answered alike, in order. -/
def State.answerAll (i : Nat) (st : PortStatus) (data : Bytes) (rs : List HostReq) (s : State) : State :=
  rs.foldl (fun t r => t.answer i st data r) s

/-- A refusal counted in REFUSED_COUNT (R274). -/
def State.refuse (i : Nat) (r : HostReq) (s : State) : State :=
  (s.modErr i fun e => { e with refused := satAdd 65535 e.refused 1 }).answer i .refused [] r

/-- Requests answered INTEGRITY and counted in INTEGRITY_COUNT (R274). -/
def State.integrityAll (i : Nat) (rs : List HostReq) (s : State) : State :=
  (s.modErr i fun e => { e with integrity := satAdd 65535 e.integrity rs.length }).answerAll i .integrity [] rs

/-! ### Lanes (R236, R237) -/

/-- The physical lane that serves a logical lane. -/
def Chart.physLane (c : Chart) (i l : Nat) : Nat :=
  match c.folds.find? fun f => f.1 = i ∧ f.2.1 = l with
  | some f => f.2.2
  | none => if c.spareLanes.any fun p => p.1 = i ∧ p.2.1 = l then 10 else l

/-- The logical lanes a physical lane serves. -/
def Chart.lanesOf (c : Chart) (i p : Nat) : List Nat := (List.range 10).filter fun l => c.physLane i l = p

/-- The first logical lane of a direction; lane `(l + k) mod 5` of it follows in the fold order. -/
def dirBase (l : Nat) : Nat := if l < 5 then 0 else 5

/-- The physical lanes of the direction of `l` after `l`, in the fold order, that are healthy. -/
def Chart.foldOrder (c : Chart) (i l : Nat) : List Nat :=
  ((List.range 4).map fun k => c.physLane i (dirBase l + (l % 5 + k + 1) % 5)).filter fun p =>
    p ≠ c.physLane i l ∧ ¬ c.faulty.contains (i, p)

/-- The Chart's repair of a faulty logical lane (R237): onto the spare, else folded onto the next healthy unshared lane, else
onto the next healthy one; none where the direction has no healthy lane left. -/
def Chart.repairLane (c : Chart) (i l : Nat) : Option (Chart × Bool) :=
  let c := { c with faulty := c.faulty ++ [(i, c.physLane i l)] }
  if ¬ (c.spareLanes.any fun p => p.1 = i) then
    some ({ c with spareLanes := c.spareLanes ++ [(i, l, true)] }, false)
  else
    let order := c.foldOrder i l
    match (order.find? fun p => (c.lanesOf i p).length ≤ 1).orElse fun _ => order.head? with
    | none => none
    | some p => some ({ c with folds := (c.folds.filter fun f => ¬ (f.1 = i ∧ f.2.1 = l)) ++ [(i, l, p)] }, true)

/-- A direction (0 read, 5 write) has no healthy physical lane (R237). -/
def Chart.dirLost (c : Chart) (i base : Nat) : Bool :=
  (List.range 5).all fun k => c.faulty.contains (i, c.physLane i (base + k))

/-! ### The bad-sector list (R259, R260) -/

/-- The sector is listed. -/
def Mse.listed (m : Mse) (sector : Nat) : Bool := m.err.bad.any fun b => b.sector = sector

/-- A sector enters the list: a full list loses its oldest entry, with OVERFLOW and EV_BADLIST_FULL (R260). -/
def State.listSector (i sector : Nat) (part : Bool) (s : State) : State :=
  match s.mse[i]? with
  | none => s
  | some m =>
    if m.listed sector then s
    else if m.err.bad.length < 4096 then s.modErr i fun e => { e with bad := e.bad ++ [⟨sector, part⟩] }
    else
      let old := (m.err.bad.head?.map (·.sector)).getD 0
      (s.modErr i fun e => { e with bad := e.bad.tail ++ [⟨sector, part⟩], badOverflow := true }).event
        evBadlistFull (unitMse i) none i (sectorAddr old)

/-- A sector leaves the list. -/
def State.unlistSector (i sector : Nat) (s : State) : State :=
  s.modErr i fun e => { e with bad := e.bad.filter fun b => b.sector ≠ sector }

/-! ### Keys at a tile -/

/-- The key table entry of a handle at a generation (R397). -/
def State.keyEntry? (s : State) (h g : Nat) : Option KeyEntry :=
  (s.stallData? (handleOwner h)).bind fun d => d.keys.find? fun k => k.handle = h ∧ k.gen = g

/-- A REGION key is usable: its table entry exists and is not destroyed (R191); block keys always are. -/
def State.keyUsable (s : State) (k : SectorKey) : Bool :=
  match k with
  | .region h g => match s.keyEntry? h g with
    | some e => !e.destroyed
    | none => false
  | _ => true

/-- The uses a limit check sees (R196): the resident or saved count, and 4,096 for each tile that holds a copy. -/
def State.keyUses (s : State) (h g : Nat) : Nat :=
  let base := match s.sbx.slots.find? fun p => p.2.handle = h ∧ p.2.gen = g with
    | some p => p.2.count
    | none => ((s.keyEntry? h g).map (·.use)).getD 0
  base + 4096 * (s.sbx.tiles.filter fun t => t.handle = h ∧ t.gen = g).length

/-- A REGION generation is past 100% of its limit: sectors sealed (R197) or epochs lived (R228). -/
def State.worn (s : State) (h g : Nat) : Bool :=
  decide (2 ^ 40 ≤ s.keyUses h g) ||
    match s.keyEntry? h g with
    | some e => decide (2 ^ 24 - 512 ≤ sub24 s.epo.epoch e.eC)
    | none => false

/-- The next generation of a REGION handle exists. -/
def State.nextGenLive (s : State) (h g : Nat) : Bool := s.keyUsable (.region h ((g + 1) % 4))

/-- Key material for a tile: its cache, else the slot the cache is filled from (R191). -/
def State.keyMaterial? (s : State) (tile : Nat) (k : SectorKey) : Option Bytes :=
  match k.ref with
  | none => some []
  | some (h, g) => (s.tileKey? tile h g).orElse fun _ =>
      (s.sbx.slots.find? fun p => p.2.handle = h ∧ p.2.gen = g).map fun p => p.2.material

/-- A tile counts one use of its copy (R196). -/
def State.countUse (tile : Nat) (k : SectorKey) (s : State) : State :=
  match k.ref with
  | none => s
  | some (h, g) => { s with sbx := { s.sbx with tiles := s.sbx.tiles.map fun t =>
      if t.tile = tile ∧ t.handle = h ∧ t.gen = g then { t with unreported := t.unreported + 1 } else t } }

/-- The entry an MSE works by: its cached copy, else the Ledger's. -/
def State.tileEntry (s : State) (m : Mse) (r : RegionId) : LdgEntry :=
  ((m.ledger.find? fun p => p.1 = r).map (·.2)).getD (s.entry r)

/-- Region, entry and key selection of a sector at a tile. -/
def State.selectAt (s : State) (m : Mse) (sector : Nat) : Option (RegionId × LdgEntry × KeySel) :=
  (s.regionOf (sectorAddr sector)).bind fun r =>
    let e := s.tileEntry m r
    (s.selectKey m r e sector).map fun k => (r, e, k)

/-! ### Sealing at a tile (R239, R267) -/

/-- The words of a tag line as bytes (R223). -/
def tagBytes (ws : List Nat) : Bytes := ws.flatMap (leBytes 8)

/-- A tag word set in the cached line and its write owed (R267). -/
def Mse.setTag (m : Mse) (line word sb sector now : Nat) : Mse :=
  { m with
    tags := m.tags.map fun t => if t.1 = line then (line, listSet t.2 word fun _ => sb) else t
    tagPending :=
      let w : TagWait := { sector, stage := .pending, dataAcked := false, reqs := [] }
      if m.tagPending.any fun p => p.line = line then
        m.tagPending.map fun p => if p.line = line then
          { p with
            since := if p.waits.any fun x => x.stage = .pending then p.since else now
            waits := p.waits ++ [w] } else p
      else m.tagPending ++ [{ line, since := now, waits := [w] }] }

/-- A memory-side request in the queue of its lane. -/
def Mse.queueOp (o : MemOp) (m : Mse) : Mse := { m with ops := m.ops ++ [o] }

/-- A new memory-side request. -/
def newOp (role : MemRole) (sector lane cls : Nat) (write : Bool) (reqs : List HostReq) : MemOp :=
  { role, sector, lane, cls, write, co := false, id := none, since := 0, data := [], sb := 0, reqs
    attempt := 0, check := 0, beat := false, laneTest := none, second := none }

/-- A plaintext sector sealed and its write queued (R239): none where the key or the tag line is not at hand. -/
def State.sealAndQueue (i : Nat) (key : SectorKey) (pt : Bytes) (o : MemOp) (s : State) : Option State :=
  match s.mse[i]?, s.keyMaterial? (unitMse i) key with
  | some m, some mat =>
    let c := sealWith key mat o.sector m.epoch pt
    let o := { o with since := s.clk.elapsed }
    if s.carveOut (sectorAddr o.sector) then
      let lw := s.tagLineOf o.sector
      if m.tags.any fun t => t.1 = lw.1 then
        some ((s.countUse (unitMse i) key).modMse i fun m =>
          (m.setTag lw.1 lw.2 c.2 o.sector s.clk.elapsed).queueOp { o with data := c.1, sb := 0 })
      else none
    else some ((s.countUse (unitMse i) key).modMse i (Mse.queueOp { o with data := c.1, sb := c.2 }))
  | _, _ => none

/-- A tag-line read in the queue of a lane, once per line (R267). -/
def Mse.wantTag (m : Mse) (line lane cls : Nat) : Mse :=
  if m.ops.any fun o => o.role = .tagRead ∧ o.sector = line then m
  else m.queueOp { newOp .tagRead line lane cls false [] with co := true }

/-- A read of a data sector queued, with its tag-line read where the tag cache misses (R242, R267). -/
def State.queueRead (i : Nat) (o : MemOp) (s : State) : State :=
  let o := { o with since := s.clk.elapsed }
  let t := s.modMse i (Mse.queueOp o)
  if s.carveOut (sectorAddr o.sector) then
    let line := (s.tagLineOf o.sector).1
    match s.mse[i]? with
    | some m => if m.tags.any fun x => x.1 = line then t.bump (ctrMse i 12) 1
      else (t.modMse i fun m => m.wantTag line o.lane o.cls).bump (ctrMse i 13) 1
    | none => t
  else t

/-! ### Hazard entries (R243 to R250) -/

/-- The hazard entry of a sector. -/
def Mse.hazard? (m : Mse) (sector : Nat) : Option Hazard := m.hazards.find? fun h => h.sector = sector

/-- A hazard entry replaced. -/
def Mse.setHazard (h : Hazard) (m : Mse) : Mse :=
  { m with hazards := m.hazards.map fun x => if x.sector = h.sector then h else x }

/-- An empty entry. -/
def Hazard.fresh (sector : Nat) : Hazard :=
  { sector, plain := none, lock := none, outBuf := none, fillBuf := none, queue := [], sweeper := false }

/-- The entry of a sector, allocated where there is none (R244). -/
def State.withHazard (i sector : Nat) (s : State) : State :=
  match s.mse[i]? with
  | none => s
  | some m => if (m.hazard? sector).isSome then s
    else (s.modMse i fun m => { m with hazards := m.hazards ++ [Hazard.fresh sector] }).bump (ctrMse i 16) 1

/-- A memory-side request for the sector is queued or outstanding, or a timed-out write still counts (R65, R262). -/
def Mse.sectorBusy (m : Mse) (sector : Nat) : Bool :=
  (m.ops.any fun o => o.sector = sector ∧ ¬ o.co) || m.reserved.any fun r => r.sector = sector ∧ r.write

/-- Byte `b` of a write is enabled. -/
def beAll : Nat := 2 ^ 128 - 1

/-- Enabled bytes of `new` over `old`. -/
def mergeBytes (be : Nat) (old new : Bytes) : Bytes :=
  (List.range 128).map fun b => if be.testBit b then new.getD b 0 else old.getD b 0

/-- A write merged into a buffer (R247 step 1). -/
def MergeBuf.merge (b : MergeBuf) (r : HostReq) : MergeBuf :=
  { data := mergeBytes r.be b.data r.data, be := b.be ||| r.be, list := b.list ++ [r] }

/-- An empty buffer. -/
def MergeBuf.fresh : MergeBuf := { data := zeros 128, be := 0, list := [] }

/-- A read added to a buffer's list with the bytes merged before it (R246, R247 step 2). -/
def MergeBuf.addRead (b : MergeBuf) (r : HostReq) : MergeBuf :=
  { b with list := b.list ++ [{ r with be := b.be, data := b.data }] }

/-- The reads on a buffer's list are answered once its merge completes: each from the bytes merged before it (R243). -/
def State.answerMerged (i : Nat) (base : Bytes) (b : MergeBuf) (s : State) : State :=
  (b.list.filter fun r => !r.write).foldl (fun t r => t.answer i .ok (mergeBytes r.be base r.data) r) s

/-- The lane a buffer's memory-side requests use: that of its first write. -/
def MergeBuf.lane (b : MergeBuf) : Nat := ((b.list.find? (·.write)).map (·.lane)).getD 0
def MergeBuf.cls (b : MergeBuf) : Nat := ((b.list.find? (·.write)).map (·.cls)).getD 0

/-- The write key of a sector as R240 gives it. -/
def State.writeKey? (s : State) (i sector : Nat) : Option SectorKey :=
  (s.mse[i]?).bind fun m => (s.selectAt m sector).map fun k => k.2.2.write

/-- The outstanding buffer merged over `base`, sealed and its write queued (R247 steps 3 and 4); nothing changes where its
key or tag line is not at hand. -/
def State.issueBuf (i : Nat) (h : Hazard) (b : MergeBuf) (base : Bytes) (s : State) : State :=
  let pt := mergeBytes b.be base b.data
  match s.writeKey? i h.sector with
  | none => s
  | some k =>
    match s.sealAndQueue i k pt (newOp .entryWrite h.sector b.lane b.cls true []) with
    | none => s
    | some t => (t.modMse i (Mse.setHazard
        { h with plain := some pt, outBuf := some { b with list := b.list.filter (·.write) } })).answerMerged i base b

/-- One step of an entry whose sector has no memory-side request: a queued request enters a buffer or is answered, a lock is
granted, the filling buffer becomes outstanding, or the read it needs is queued (R243 to R250). -/
def State.hazardStep (i sector : Nat) (s : State) : State :=
  match s.mse[i]? with
  | none => s
  | some m =>
    match m.hazard? sector with
    | none => s
    | some h =>
      if m.sectorBusy sector then s else
      match h.outBuf, h.fillBuf with
      | some b, _ =>
        if b.be = beAll then s.issueBuf i h b (zeros 128)
        else match h.plain with
          | some p => s.issueBuf i h b p
          | none => s.queueRead i (newOp .entryRead sector b.lane b.cls false [])
      | none, some b => s.modMse i (Mse.setHazard { h with outBuf := some b, fillBuf := none })
      | none, none =>
        if h.lock.isSome then s else
        match h.queue with
        | [] => s
        | r :: rest =>
          if r.write then
            s.modMse i (Mse.setHazard { h with fillBuf := some (MergeBuf.fresh.merge r), queue := rest })
          else match h.plain with
            | some p =>
              if r.lock then
                ((s.modMse i (Mse.setHazard { h with lock := some (r.stall, s.clk.elapsed), queue := rest })).answer
                  i .ok p r).bump (ctrMse i 19) 1
              else (s.modMse i (Mse.setHazard { h with queue := rest })).answer i .ok p r
            | none => if r.lock then s.queueRead i (newOp .entryRead sector r.lane r.cls false [])
              else (s.modMse i (Mse.setHazard { h with queue := rest })).queueRead i
                (newOp .hostRead sector r.lane r.cls false [r])

/-- Writes and reads at the head of an unlocked queue join the filling buffer behind them (R247), up to 64 of them. -/
def Hazard.fillFromQueue : Nat → Hazard → Hazard
  | 0, h => h
  | n + 1, h =>
    match h.lock, h.fillBuf, h.queue with
    | none, some b, r :: rest =>
      if b.list.length ≥ 64 ∨ r.lock then h
      else if r.write then Hazard.fillFromQueue n { h with fillBuf := some (b.merge r), queue := rest }
      else Hazard.fillFromQueue n { h with fillBuf := some (b.addRead r), queue := rest }
    | _, _, _ => h

/-- An entry whose last request is answered is freed once no memory-side request for its sector remains (R244). -/
def State.freeHazard (i sector : Nat) (s : State) : State :=
  match s.mse[i]? with
  | none => s
  | some m =>
    match m.hazard? sector with
    | none => s
    | some h =>
      if h.lock.isNone && h.outBuf.isNone && h.fillBuf.isNone && h.queue.isEmpty && !m.sectorBusy sector then
        s.modMse i fun m => { m with hazards := m.hazards.filter fun x => x.sector ≠ sector }
      else s

/-- Requests that leave an entry's queue have waited behind a hazard or a lock (R562 kind 8). -/
def State.hazardWaited (i : Nat) (rs : List HostReq) (s : State) : State :=
  rs.foldl (fun t r => t.ringRecord i 8 (t.clk.elapsed - r.since) (some r.stall) r.lane) s

/-- An entry advanced as far as it goes: at most one step per waiting request and a few more. -/
def State.hazardRun : Nat → Nat → Nat → State → State
  | 0, i, sector, s => s.freeHazard i sector
  | n + 1, i, sector, s =>
    let q (s : State) := (((s.mse[i]?).bind fun m => m.hazard? sector).map (·.queue)).getD []
    let t := (s.modMse i fun m => { m with hazards := m.hazards.map fun h =>
      if h.sector = sector then h.fillFromQueue 64 else h }).hazardStep i sector
    State.hazardRun n i sector (t.hazardWaited i ((q s).take ((q s).length - (q t).length)))

/-- An entry advanced. -/
def State.advance (i sector : Nat) (s : State) : State :=
  match s.mse[i]? with
  | none => s
  | some m =>
    match m.hazard? sector with
    | none => s
    | some h => s.hazardRun (h.queue.length + 6) i sector

/-- Every entry of an MSE advanced. -/
def State.advanceAll (i : Nat) (s : State) : State :=
  match s.mse[i]? with
  | none => s
  | some m => (m.hazards.map (·.sector)).foldl (fun t sec => t.advance i sec) s

/-! ### Arrival after the checks (R243, R244, R247, R249) -/

/-- A request joins the entry of its sector. -/
def State.joinHazard (i : Nat) (r : HostReq) (h : Hazard) (s : State) : State :=
  let put (h : Hazard) := s.modMse i (Mse.setHazard h)
  if r.unlock then
    put { h with lock := none, outBuf := some (MergeBuf.fresh.merge r) }
  else if h.lock.isSome ∨ ¬ h.queue.isEmpty ∨ r.lock then put { h with queue := h.queue ++ [r] }
  else if r.write then
    let b := h.fillBuf.getD MergeBuf.fresh
    let t := if h.fillBuf.isSome then s.bump (ctrMse i 18) 1 else s
    t.modMse i (Mse.setHazard { h with fillBuf := some (b.merge r) })
  else match h.fillBuf, h.outBuf, h.plain with
    | some b, _, _ => put { h with fillBuf := some (b.addRead r) }
    | none, some b, none => put { h with outBuf := some (b.addRead r) }
    | none, _, some p => s.answer i .ok p r
    | none, none, none =>
      if (s.mse[i]?).any fun m => m.ops.any fun o => o.role = .hostRead ∧ o.sector = r.sector then
        s.modMse i fun m => { m with ops := m.ops.map fun o =>
          if o.role = .hostRead ∧ o.sector = r.sector then { o with reqs := o.reqs ++ [r] } else o }
      else put { h with queue := [r] }

/-- A request that passed every check: it passes through, or takes or joins a hazard entry (R244). -/
def State.place (i : Nat) (r : HostReq) (s : State) : State :=
  match s.mse[i]? with
  | none => s
  | some m =>
    let partial_ := r.write && decide (r.be ≠ beAll)
    if (m.hazard? r.sector).isNone && !m.sectorBusy r.sector && !partial_ && !r.lock then
      if r.write then
        match s.writeKey? i r.sector with
        | none => s
        | some k => (s.sealAndQueue i k r.data (newOp .hostWrite r.sector r.lane r.cls true [r])).getD s
      else s.queueRead i (newOp .hostRead r.sector r.lane r.cls false [r])
    else
      let t := s.withHazard i r.sector
      match (t.mse[i]?).bind fun m => m.hazard? r.sector with
      | none => t
      | some h => (t.joinHazard i r h).advance i r.sector

/-! ### The checks of R263 -/

/-- What the checks of R263 make of a request. -/
inductive Check where
  | pass
  | misroute
  | refuse
  /-- Refused for its region's owner: the Stall's refusal counter counts it too. -/
  | refuseOwner
  /-- A read under a retired generation (R251). -/
  | retired
  | listed
  /-- A full write of a sector whose timed-out write is still out (R262). -/
  | writeTimeout
  /-- A partial write with no byte enabled (R241). -/
  | nothing
  | hold (c : HoldCause)
  deriving DecidableEq, Repr

/-- The keys a request needs. -/
def HostReq.keys (r : HostReq) (k : KeySel) : List SectorKey :=
  let reads := k.first :: k.second.toList
  if r.write then (if r.be = beAll ∧ ¬ r.unlock then [k.write] else reads ++ [k.write]) else reads

/-- The tile's key cache holds the key. -/
def State.tileHas (s : State) (i : Nat) (k : SectorKey) : Bool :=
  match k.ref with
  | none => true
  | some (h, g) => (s.tileKey? (unitMse i) h g).isSome

/-- The rows of R263 from the key rows on. -/
def State.checkKeys (s : State) (i : Nat) (m : Mse) (r : HostReq) (k : KeySel) : Check :=
  if (r.keys k).any fun x => ¬ s.keyUsable x then .refuse
  else if (match k.write with
      | .region h g => r.write && s.worn h g && !s.nextGenLive h g
      | _ => false) then .refuse
  else if (!r.write && match k.first with | .region _ g => m.retired.contains (r.stall, g) | _ => false) then .retired
  else if r.unlock ∧ ((m.hazard? r.sector).bind (·.lock)).map (·.1) ≠ some r.stall then .refuse
  else if m.listed r.sector then
    if r.write ∧ r.be = beAll ∧ ¬ r.unlock then
      if m.reserved.any fun x => x.sector = r.sector ∧ x.write then .writeTimeout
      else match (r.keys k).find? fun x => !s.tileHas i x with
        | some x => .hold (.key (x.ref.getD (0, 0)).1 (x.ref.getD (0, 0)).2)
        | none => .pass
    else .listed
  else if r.write ∧ r.be = 0 ∧ ¬ r.unlock then .nothing
  else match (r.keys k).find? fun x => !s.tileHas i x with
    | some x => .hold (.key (x.ref.getD (0, 0)).1 (x.ref.getD (0, 0)).2)
    | none =>
      if r.write && s.carveOut (sectorAddr r.sector) &&
          !(m.tags.any fun t => t.1 = (s.tagLineOf r.sector).1) then .hold (.tagLine (s.tagLineOf r.sector).1)
      else .pass

/-- A pool line holds fourteen entries (R288). -/
def poolLine (index : Nat) : Nat := index / 14

/-- The host requests a region state lets pass (R282), from its owner. -/
def RegState.hostMay (st : RegState) (stall : Nat) (harbour : Bool) : Bool :=
  match st with
  | .sealed => true
  | .plain => decide (stall = 0)
  | .boot => decide (stall = 0) && harbour
  | _ => false

/-- A write or lock read of the exporting Stall into the source or staging range of a running export (R457). -/
def State.tollHeld (s : State) (r : HostReq) : Bool :=
  (r.write || r.lock) && s.tol.hold.any fun h =>
    decide (h.1 = r.stall ∧ h.2.1 / 128 ≤ r.sector ∧ r.sector ≤ (h.2.1 + h.2.2 - 1) / 128)

/-- The checks of R263 on a request at MSE `i`, in the order of its rows, after the duplicate-ID row. -/
def State.check (s : State) (i : Nat) (m : Mse) (r : HostReq) : Check :=
  let addr := sectorAddr r.sector
  if s.homeMse addr ≠ some i ∨ s.inCarveRange addr then .misroute
  else if ¬ s.ald.full ∧ (r.stall ≠ 0 ∨ ¬ s.inHarbour addr) then .refuse
  else if m.spine.refused.contains r.stall ∨ (r.stall ≠ 0 ∧ s.stallState r.stall = .free) then .refuse
  else match s.regionOf addr with
    | none => .misroute
    | some reg =>
      if reg.pool ∧ ¬ s.ldg.poolCache.contains (poolLine reg.index) then .hold (.poolLine (poolLine reg.index))
      else match m.ledger.find? fun p => p.1 = reg with
        | none => .hold .ledger
        | some (_, e) =>
          if e.owner ≠ r.stall then .refuseOwner
          else if ¬ e.state.hostMay r.stall (s.inHarbour addr) ∨ s.tollHeld r then .refuse
          else match s.selectKey m reg e r.sector with
            | none => .refuse
            | some k =>
              if !s.resident r.stall && (r.keys k).any fun x => !s.tileHas i x then
                if ((s.stall? r.stall).map (·.fillFault)).getD false then .refuse else .hold (.fill r.stall)
              else s.checkKeys i m r k

/-- An access needs a spilled Stall: its fill starts or is queued (R401). -/
def State.wantStall (id : Nat) (s : State) : State :=
  if s.resident id || s.stl.fills.any (fun f => f.stall = id) then s
  else { s with stl := { s.stl with fills := s.stl.fills ++ [{ stall := id, slot := none, since := s.clk.elapsed, victim := 0xFFF }] } }

/-- A miss asks the Strongbox for a key that is in no slot (R191): misses for one handle and generation share one unwrap. -/
def State.wantKey (tile h g : Nat) (s : State) : State :=
  if s.sbx.slots.any fun p => p.2.handle = h ∧ p.2.gen = g then s
  else if s.sbx.unwraps.any fun u => u.handle = h ∧ u.gen = g then
    { s with sbx := { s.sbx with unwraps := s.sbx.unwraps.map fun u =>
      if u.handle = h ∧ u.gen = g ∧ ¬ u.waiters.contains (.tile tile) then { u with waiters := u.waiters ++ [.tile tile] }
      else u } }
  else { s with sbx := { s.sbx with unwraps := s.sbx.unwraps ++
      [{ handle := h, gen := g, started := s.rst.coreReset.isNone, waiters := [.tile tile] }] } }

/-- A Ledger entry or key cache miss delays every later request of its lane (R49). -/
def HoldCause.holdsLane : HoldCause → Bool
  | .ledger => true
  | .key _ _ => true
  | _ => false

/-- A request is held, and what it waits for is asked for (R49, R191, R264, R267, R401). -/
def State.hold (i : Nat) (r : HostReq) (c : HoldCause) (again : Bool) (s : State) : State :=
  let t := s.modMse i fun m => { m with held := m.held ++ [(r, c)] }
  let k := if again then 0 else 1
  match c with
  | .ledger => t.bump (ctrMse i 14) k
  | .key h g => (t.wantKey (unitMse i) h g).bump (ctrMse i 15) k
  | .poolLine l => if t.ldg.poolReads.contains l ∨ t.ldg.poolCache.contains l then t
      else ({ t with ldg := { t.ldg with poolReads := t.ldg.poolReads ++ [l] } }).bump (ctrLdg 4) 1
  | .fill id => t.wantStall id
  | .tagLine l => (t.modMse i fun m => m.wantTag l r.lane r.cls).bump (ctrMse i 13) k

/-- EV_MSE_MISROUTE, at most once per MSE per tick (R263). -/
def State.misroute (i : Nat) (r : HostReq) (s : State) : State :=
  let raised := ((s.mse[i]?).map (·.err.misrouteRaised)).getD true
  let t := (s.modErr i fun e => { e with misroute := satAdd 65535 e.misroute 1, misrouteRaised := true }).answer
    i .refused [] r
  if raised then t else t.event evMseMisroute (unitMse i) (some r.stall) (sectorAddr r.sector) i

/-- A request meets the checks and takes its outcome. -/
def State.enterMse (i : Nat) (again : Bool) (r : HostReq) (s : State) : State :=
  match s.mse[i]? with
  | none => s
  | some m =>
    match m.held.find? fun p => decide (p.1.sector = r.sector) ||
        (decide (p.1.lane = r.lane ∧ p.1.write = r.write) && p.2.holdsLane) with
    | some p => s.modMse i fun m => { m with held := m.held ++ [(r, p.2)] }
    | none =>
      match s.check i m r with
      | .pass =>
        if (s.cht.dirLost i 5 && r.write) || (s.cht.dirLost i 0 && (!r.write || decide (r.be ≠ beAll))) then s.integrityAll i [r]
        else s.place i r
      | .misroute => s.misroute i r
      | .refuse =>
        if !s.resident r.stall then (s.wantStall r.stall).refuse i r else s.refuse i r
      | .refuseOwner => (s.refuse i r).bumpStall r.stall 4 1
      | .retired => s.integrityAll i [r]
      | .listed => ({ s with listedCount := satAdd 255 s.listedCount 1 }).answer i .integrity [] r
      | .writeTimeout => s.integrityAll i [r]
      | .nothing => { (s.answer i .ok [] r) with sty := s.sty }
      | .hold c => s.hold i r c again

/-- The ring kind and object of a hold (R562), where it has one. -/
def HoldCause.ringKind : HoldCause → Option (Nat × Nat)
  | .ledger => none
  | .key h _ => some (7, h % 2 ^ 20)
  | .poolLine l => some (15, l)
  | .fill _ => none
  | .tagLine _ => none

/-- A held request that is no longer held has ended its wait. -/
def State.holdEnded (i : Nat) (r : HostReq) (c : HoldCause) (s : State) : State :=
  match c.ringKind with
  | none => s
  | some (k, o) =>
    if (s.mse[i]?).any fun m => m.held.any fun p => decide (p.1.id = r.id ∧ p.1.write = r.write) then s
    else s.ringRecord i k (s.clk.elapsed - r.since) (some r.stall) o

/-- Held requests whose cause may have ended meet the checks again, in arrival order. -/
def State.rerun (i : Nat) (s : State) : State :=
  match s.mse[i]? with
  | none => s
  | some m => m.held.foldl (fun t p => (t.enterMse i true p.1).holdEnded i p.1 p.2) (s.modMse i fun m => { m with held := [] })

/-- Held requests of every MSE meet the checks again. -/
def State.rerunAll (s : State) : State :=
  (List.range s.mse.length).foldl (fun t i => (t.rerun i).advanceAll i) s

/-! ### Acknowledgements of the control spine (R251, R252, R283, R394) -/

/-- The message is a fence, whose acknowledgement is a step of its own (R251). -/
def SpineMsg.isFence : SpineMsg → Bool
  | .adopt _ _ => true
  | .unadopt _ _ => true
  | .retire _ _ => true
  | _ => false

/-- Earlier requests that have been answered are waited for no more; messages other than fences that wait for nothing are
acknowledged. -/
def State.pollAcks (i : Nat) (s : State) : State :=
  s.modMse i fun m =>
    let live (w : Bool × Nat) : Bool := m.requests.any fun r => decide (r.write = w.1 ∧ r.id = w.2)
    { m with spine := { m.spine with
      acks := (m.spine.acks.map fun a => (a.1, a.2.filter live)).filter fun a => a.1.isFence || !a.2.isEmpty } }

/-! ### Entry changes (R283, R286) -/

/-- A region's sectors leave every bad-sector list (R286). -/
def State.unlistRegion (r : RegionId) (s : State) : State :=
  { s with mse := s.mse.map fun m => { m with err := { m.err with
    bad := m.err.bad.filter fun b => s.regionOf (sectorAddr b.sector) ≠ some r } } }

/-- Commands that wait for a region's change now wait for its item to be anchored. -/
def AnchorWait.settle (r : RegionId) (item : DeltaItem) (w : AnchorWait) : AnchorWait :=
  if w.regions.contains r then { w with regions := w.regions.filter (· ≠ r), items := w.items ++ [item] } else w

/-- An entry change whose acknowledgements are all in takes its next step. -/
def State.settleChange (c : Change) (s : State) : State :=
  let t := match c.goal with
    | .retire => (s.writeEntry c.region LdgEntry.freeEntry).unlistRegion c.region
    | .anchor => s
  let item := DeltaItem.entry c.region (t.entry c.region)
  { t with ldg := { t.ldg with waits := t.ldg.waits.map (AnchorWait.settle c.region item) } }.queueItems [item]

/-- Every entry change that all MSEs have acknowledged is settled. -/
def State.settle (s : State) : State :=
  let ready (c : Change) : Bool := !s.spineHolds (.invalidate c.region)
  (s.ldg.changes.filter ready).foldl (fun t c => t.settleChange c)
    { s with ldg := { s.ldg with changes := s.ldg.changes.filter fun c => !ready c } }

/-- The end of a command of an MSE: acknowledgements that have fallen due, and what they settle. -/
def State.endMse (i : Nat) (s : State) : State := (s.pollAcks i).settle

/-- The Ledger changes an entry (R283 steps 1 and 2): the SRAM is written, and every MSE that can serve the region is told;
`goal` is what follows its acknowledgements, none for a change that is anchored already. -/
def State.changeEntry (r : RegionId) (e : LdgEntry) (goal : Option ChangeGoal) (s : State) : State :=
  let t := s.writeEntry r e
  let serves (i : Nat) : Bool := !r.pool || decide (some i = t.poolMse r.index)
  { t with
    mse := t.mse.mapIdx fun i m => if serves i then { m with spine := m.spine.send (.invalidate r) } else m
    ldg := { t.ldg with changes := t.ldg.changes ++ (goal.toList.map fun g => { region := r, goal := g }) } }

end Sys2Proof.Machine
end

