-- ==== Sys2Proof/Machine/Mse.lean ====
section
/-!
DEFINITION. The commands of the Memory Sealing Engines (spec/09_memory_sealing_engines.md R236 to R269): requests of the host side,
the memory side, Soundings, timeouts, fences, squashes, invalidations and cache fills.
-/

namespace Sys2Proof.Machine

/-- A command of MSE `i`: an index the build lacks has no port (R6). [DESIGN CHOICE: notes/assumptions/7.md] -/
def onMse (i : Nat) (s : State) (f : Mse → State → State) : Host.Outcome State Fault Refusal :=
  match s.mse[i]? with
  | none => .fault (.noSuchPort 0 i)
  | some m => done ((f m s.begin).endMse i)

/-! ### Host-side requests -/

/-- A request needs a hazard entry that is not there yet (R244). -/
def Mse.needsEntry (m : Mse) (r : HostReq) : Bool :=
  (m.hazard? r.sector).isNone &&
    (m.sectorBusy r.sector || (r.write && decide (r.be ≠ beAll ∧ (r.be ≠ 0 ∨ r.unlock))) || r.lock)

/-- Locks held or wanted (R249). -/
def Mse.locks (m : Mse) : Nat :=
  (m.hazards.filter fun h => h.lock.isSome || h.queue.any (·.lock)).length

/-- The lane's ready (R58, R61, R62, R89, R132, R135, R238, R245, R248, R249): 0 leaves the request where it is. -/
def State.mseReady (s : State) (i : Nat) (m : Mse) (r : HostReq) : Bool :=
  s.dataOpen && !s.inUnitReset (unitMse i) && decide (r.lane < 5) && (s.ald.full || decide (r.lane = 0)) &&
    decide ((m.requests.filter fun q => q.write = r.write).length < 256) &&
    !m.testing.contains (if r.write then 5 + r.lane else r.lane) &&
    !(m.needsEntry r && decide (64 ≤ m.hazards.length)) &&
    !(r.lock && decide (16 ≤ m.locks)) &&
    !((m.hazard? r.sector).bind (·.fillBuf)).any fun b => 64 ≤ b.list.length

/-- A request offered on a host-side lane: taken where its ready is 1, counted, refused where its ID is still outstanding
(R61), else checked (R263). In the quiet state every request is taken and answered POISON (R89). -/
def State.acceptHost (i : Nat) (r : HostReq) (m : Mse) (s : State) : State :=
  if s.quietOpen then (s.bump (ctrMse i (if r.write then 1 else 0)) 1).answer i .poison [] r
  else if ¬ s.mseReady i m r then s else
    let t := (s.bump (ctrMse i (if r.write then 1 else 0)) 1).bumpStall r.stall (if r.write then 1 else 0) 1
    if m.requests.any fun q => q.write = r.write ∧ q.id = r.id then t.refuse i r
    else t.enterMse i false r

/-- MSE_READ_REQUEST (R242, R243). -/
def execMseReadRequest (m lane sector stall id cls : Nat) (s : State) : Host.Outcome State Fault Refusal :=
  onMse m s fun e t => t.acceptHost m
    { write := false, lane, sector, stall, id, cls, lock := false, unlock := false, be := 0, data := []
      since := s.clk.elapsed } e

/-- MSE_LOCK_READ (R249). -/
def execMseLockRead (m lane sector stall id cls : Nat) (s : State) : Host.Outcome State Fault Refusal :=
  onMse m s fun e t => t.acceptHost m
    { write := false, lane, sector, stall, id, cls, lock := true, unlock := false, be := 0, data := []
      since := s.clk.elapsed } e

/-- MSE_WRITE_REQUEST: byte enables all ones (R239). -/
def execMseWriteRequest (m lane sector stall id cls : Nat) (data : Bytes) (s : State) :
    Host.Outcome State Fault Refusal :=
  onMse m s fun e t => t.acceptHost m
    { write := true, lane, sector, stall, id, cls, lock := false, unlock := false, be := beAll, data
      since := s.clk.elapsed } e

/-- MSE_PARTIAL_WRITE: byte enables not all ones (R241). -/
def execMsePartialWrite (m lane sector stall id cls be : Nat) (data : Bytes) (s : State) :
    Host.Outcome State Fault Refusal :=
  onMse m s fun e t => t.acceptHost m
    { write := true, lane, sector, stall, id, cls, lock := false, unlock := false, be, data
      since := s.clk.elapsed } e

/-- MSE_UNLOCK_WRITE (R249, R250). -/
def execMseUnlockWrite (m lane sector stall id cls be : Nat) (data : Bytes) (s : State) :
    Host.Outcome State Fault Refusal :=
  onMse m s fun e t => t.acceptHost m
    { write := true, lane, sector, stall, id, cls, lock := false, unlock := true, be, data
      since := s.clk.elapsed } e

/-! ### The memory side (R65, R253, R261) -/

/-- The IDs in use: outstanding and reserved (R261). -/
def Mse.idsUsed (m : Mse) : List Nat := m.ops.filterMap (·.id) ++ m.reserved.map (·.id)

/-- A queued request may be presented: nothing else to its sealed address is outstanding (R65, R262). -/
def Mse.presentable (m : Mse) (o : MemOp) : Bool :=
  o.id.isNone && !o.beat && o.second.isNone &&
    !(m.ops.any fun p => p.id.isSome && decide (p.sector = o.sector ∧ p.co = o.co)) &&
    !(m.reserved.any fun r => r.write && decide (r.sector = o.sector))

/-- The class a weighted round-robin position belongs to (R253). -/
def wrrClass : List Nat → Nat → Nat
  | [], _ => 0
  | w :: ws, p => if p < w then 0 else 1 + wrrClass ws (p - w)

/-- The host request of a lane and direction that leaves next (R253): the class whose turn it is, or the next one that has one. -/
def Mse.choose (m : Mse) (weights : List Nat) (lane : Nat) (write : Bool) : Option MemOp :=
  let c0 := wrrClass weights m.rr % 4
  let cands := m.ops.filter fun o => decide (o.lane = lane ∧ o.write = write ∧ o.cls ≠ 4) && m.presentable o
  (List.range 4).findSome? fun k => cands.find? fun o => o.cls % 4 = (c0 + k) % 4

/-- The first ID from `m.nextId` on that is not in use. -/
def Mse.freeId (m : Mse) : Nat :=
  (((List.range 1024).map fun k => (m.nextId + k) % 1024).find? fun k => !m.idsUsed.contains k).getD 0

/-- A request leaves on its lane with an ID of its own, and its T_MEM timer starts (R64, R261). -/
def State.present (i : Nat) (o : MemOp) (s : State) : State :=
  match s.mse[i]? with
  | none => s
  | some m =>
    let id := m.freeId
    let waited := s.clk.elapsed - o.since
    let t := s.modMse i fun m => { m with
      nextId := (id + 1) % 1024
      rr := (m.rr + 1) % (s.cfg.engine.weights.foldl (· + ·) 0 + 1)
      ops := (m.ops.eraseP (· = o)) ++ [{ o with id := some id, since := s.clk.elapsed }] }
    let u := if o.write then t.emit (.mw i o.lane o.sector id o.co o.data o.sb)
      else t.emit (.mr i o.lane o.sector id o.co)
    let v := (u.bump (ctrMse i (if o.write then 5 else 4)) 1).ringRecord i 9 waited ((o.reqs.head?).map (·.stall)) o.cls
    match o.role with
    | .sweepRead => v.bump (ctrMse i 8) 1
    | .sweepWrite => v.bump (ctrMse i 9) 1
    | .zeroWrite => v.bump (ctrMse i 9) 1
    | .tagRead => v.bump (ctrMse i 10) 1
    | .tagWrite => v.bump (ctrMse i 11) 1
    | _ => v

/-- The sectors of an open stride that MSE `i` serves and has not finished, in ascending order (R294). -/
def State.strideTodo (s : State) (i : Nat) (w : SweepSlot) : List Nat :=
  match s.regionAddr w.order.region with
  | none => []
  | some base =>
    ((List.range 512).filter fun k => ¬ w.done.contains k ∧
      s.homeMse (base + w.stride * 65536 + k * 128) = some i).map fun k => (base + w.stride * 65536 + k * 128) / 128

/-- The done bit of a sector set in the slot that sweeps its region (R294). -/
def State.sweepDone (sector : Nat) (s : State) : State :=
  let off := sectorAddr sector % regionBytes
  let mark (w : SweepSlot) : SweepSlot :=
    if s.regionOf (sectorAddr sector) = some w.order.region ∧ off / 65536 = w.stride ∧
        ¬ w.done.contains (off % 65536 / 128) then
      { w with done := w.done ++ [off % 65536 / 128] }
    else w
  { s with swp := { s.swp with slots := s.swp.slots.map fun p => (p.1, mark p.2) } }

/-- The Sweeper gives up its part of a hazard entry. -/
def Mse.dropSweeper (sector : Nat) (m : Mse) : Mse :=
  { m with hazards := m.hazards.map fun h => if h.sector = sector then { h with sweeper := false } else h }

/-- The zero-fill write of a sector queued (R285). -/
def State.zeroSector (i sector lane : Nat) (s : State) : State :=
  match s.writeKey? i sector with
  | none => s
  | some k => (s.sealAndQueue i k (zeros 128) (newOp .zeroWrite sector lane 4 true [])).getD s

/-- The Sweeper's next sector at an MSE: a listed sector is skipped (R296), a zero fill is written, a re-seal takes a hazard
entry within the Sweeper's eight and reads (R244, R294). -/
def State.sweepNext (i lane : Nat) (m : Mse) (s : State) : State :=
  let todo := s.swp.slots.flatMap fun p =>
    ((s.strideTodo i p.2).filter fun x => ¬ m.sectorBusy x).map fun x => (p.2, x)
  match todo.head? with
  | none => s
  | some (w, sector) =>
    if m.listed sector ∧ w.order.kind ≠ .zero then (s.sweepDone sector).bump (ctrLdg 8) 1
    else if w.order.kind = .zero then s.zeroSector i sector lane
    else if (m.hazard? sector).isSome ∨ 8 ≤ (m.hazards.filter (·.sweeper)).length ∨ 64 ≤ m.hazards.length then s
    else
      let t := (s.withHazard i sector).modMse i fun m => { m with hazards := m.hazards.map fun h =>
        if h.sector = sector then { h with sweeper := true } else h }
      t.queueRead i (newOp .sweepRead sector lane 4 false [])

/-- The Sweeper's queued request of a lane and direction, oldest first. -/
def Mse.chooseSweep (m : Mse) (lane : Nat) (write : Bool) : Option MemOp :=
  m.ops.find? fun o => decide (o.lane = lane ∧ o.write = write ∧ o.cls = 4) && m.presentable o

/-- MSE_MEM_REQUEST_SEND: a slot of a lane comes free for a read or a write; `sweep` says that it is a slot of the Sweeper's
share (R253, R292), in which the Sweeper first takes up its next sector where none of its requests waits. -/
def execMseMemRequestSend (m lane : Nat) (write sweep : Bool) (s : State) : Host.Outcome State Fault Refusal :=
  onMse m s fun e t =>
    if t.alr.quiet || decide (1024 ≤ e.idsUsed.length) then t
    else if sweep then
      let u := if t.swp.paused || !t.ald.full || (e.chooseSweep lane write).isSome then t else t.sweepNext m lane e
      match (u.mse[m]?).bind fun e => e.chooseSweep lane write with
      | some o => u.present m o
      | none => u
    else match e.choose t.cfg.engine.weights lane write with
      | some o => t.present m o
      | none => t

/-! ### Verification of read beats (R219, R240, R254) -/

/-- What a beat comes to: plaintext, a failed check, or a wait for the tag line or the key. -/
inductive BeatVerdict where
  | pass (pt : Bytes) (second : Bool)
  | fail (check : Nat)
  | wait
  deriving DecidableEq, Repr

/-- The sideband word of a beat: beside the data, or from the cached tag line (R223, R267). -/
def State.sidebandOf (s : State) (m : Mse) (sector sb : Nat) : Option Nat :=
  if s.carveOut (sectorAddr sector) then
    let lw := s.tagLineOf sector
    (m.tags.find? fun t => t.1 = lw.1).map fun t => t.2.getD lw.2 0
  else some sb

/-- Verification of a beat at MSE `i` by R219 and R220. -/
def State.verifyBeat (s : State) (i : Nat) (m : Mse) (o : MemOp) (ct : Bytes) (sb : Nat) : BeatVerdict :=
  match s.selectAt m o.sector, s.sidebandOf m o.sector sb with
  | none, _ => .fail 3
  | _, none => .wait
  | some (_, e, k), some sb =>
    match s.keyMaterial? (unitMse i) k.first with
    | none => .wait
    | some k1 =>
      let v1 := verifyWith k.first k1 o.sector m.epoch e.floor ct sb
      match k.second with
      | none => match v1 with
        | .pass p => .pass p false
        | v => .fail v.check
      | some x => match s.keyMaterial? (unitMse i) x with
        | none => .wait
        | some k2 =>
          match verifyTrials v1 (some (verifyWith x k2 o.sector m.epoch e.floor ct sb)) (decide (x = .boot)) with
          | .pass p => .pass p (!v1.ok)
          | v => .fail v.check

/-- A memory-side operation removed, oldest match first. -/
def Mse.dropOp (o : MemOp) (m : Mse) : Mse := { m with ops := m.ops.eraseP (· = o) }

/-- A memory-side operation replaced. -/
def Mse.swapOp (o o' : MemOp) (m : Mse) : Mse := { m with ops := m.ops.map fun p => if p = o then o' else p }

/-- An operation taken out and its successor put first, as a re-read leaves next (R254). -/
def Mse.requeueFirst (o o' : MemOp) (m : Mse) : Mse := { m with ops := o' :: m.ops.eraseP (· = o) }

/-- The sector opens under the boot key in a Harbour re-seal (R296, last row). -/
def State.bootSwept (s : State) (m : Mse) (sector : Nat) : Bool :=
  match s.regionOf (sectorAddr sector) with
  | none => false
  | some r => m.sweeps.any fun t => decide (t.region = r) && t.bootOld

/-- The key a re-seal writes under: the new generation of the sweep; a FLOOR pass keeps the generation a host write would take (R291). -/
def State.resealKey? (s : State) (m : Mse) (sector : Nat) : Option SectorKey :=
  (s.regionOf (sectorAddr sector)).bind fun r =>
    let e := s.tileEntry m r
    if (s.sweepSlot? r).any fun (w : SweepSlot) => decide (w.order.kind = .floor) then (s.selectKey m r e sector).map (·.write)
    else (s.regionHandle e.owner).map fun h =>
      .region h (((m.sweeps.find? fun t => t.region = r).map (·.new)).getD e.gen)

/-- A re-seal writes plaintext under the new key (R296); the operation parks where the key is not at hand. -/
def State.reseal (i : Nat) (o : MemOp) (ct : Bytes) (sb : Nat) (pt : Bytes) (s : State) : State :=
  match (s.mse[i]?).bind fun m => s.resealKey? m o.sector with
  | none => s.modMse i fun m => (m.dropOp o).dropSweeper o.sector
  | some k =>
    match (s.modMse i (Mse.dropOp o)).sealAndQueue i k pt (newOp .sweepWrite o.sector o.lane 4 true []) with
    | some t => t
    | none => s.modMse i (Mse.swapOp o { o with id := none, beat := true, data := ct, sb })

/-- A read that passed serves what waits for it (R242, R243, R247, R249, R296). -/
def State.deliver (i : Nat) (o : MemOp) (ct : Bytes) (sb : Nat) (pt : Bytes) (s : State) : State :=
  match o.role with
  | .sweepRead => s.reseal i o ct sb pt
  | _ =>
    let t := s.modMse i fun m =>
      let m := m.dropOp o
      { m with hazards := m.hazards.map fun h => if h.sector = o.sector then { h with plain := some pt } else h }
    (t.answerAll i .ok pt o.reqs).advance i o.sector

/-! ### Failures and Soundings (R254 to R258) -/

/-- The requests an operation serves: its own, the buffer it reads for, or the lock read that waits. -/
def Mse.served (m : Mse) (o : MemOp) : List HostReq × Bool :=
  match o.role with
  | .entryRead => match m.hazard? o.sector with
    | none => ([], false)
    | some h => match h.outBuf with
      | some b => (b.list, true)
      | none => (h.queue.take 1, false)
  | _ => (o.reqs, false)

/-- The Stall an MSE alarm concerns: that of the request, or the region's owner for a re-seal (R527). -/
def State.concerned (s : State) (m : Mse) (o : MemOp) : Option Nat :=
  match ((m.served o).1.head?).map (·.stall) with
  | some x => some x
  | none => (s.regionOf (sectorAddr o.sector)).map fun r => (s.entry r).owner

/-- The cause word of R256. -/
def causeWord (check cls phys : Nat) (part : Bool) (i : Nat) : Nat :=
  check + cls * 16 + phys * 64 + bit part * 1024 + i * 2048

/-- XS_MSE_SOUND takes a word, and AL_INTEGRITY is raised with it (R255, R262, R275). -/
def State.mseAlarm (i word : Nat) (stall charged : Option Nat) (s : State) : State :=
  (s.modErr i fun e => { e with sound := word, soundValid := true }).alarmIntegrity (unitMse i) stall charged 1 word

/-- A lane found faulty is repaired or folded (R237), and the repair is owed to the Settings partition (R167). -/
def State.repairLane (i l : Nat) (s : State) : State :=
  let t := s.event evLaneFault (unitMse i) none i l
  match s.cht.repairLane i l with
  | some (c, shared) =>
    let u := { t with
      cht := c
      ald := { t.ald with repairDue := t.ald.repairDue.orElse fun _ => some t.clk.elapsed } }
    if shared then u.event evLaneShared (unitMse i) none i l else u
  | none => { (t.modErr i fun e => { e with dirLost := true }) with
      cht := { t.cht with faulty := t.cht.faulty ++ [(i, t.cht.physLane i l)] } }

/-- What the failed requests of an operation get: INTEGRITY, with the buffer or the lock read gone from the entry; a failed
re-seal counts as done (R249, R258, R296). -/
def State.failServed (i : Nat) (o : MemOp) (s : State) : State :=
  match s.mse[i]? with
  | none => s
  | some m =>
    let t := s.modMse i fun m =>
      let m := (m.dropOp o).dropSweeper o.sector
      if o.role = .entryRead then
        { m with hazards := m.hazards.map fun h => if h.sector ≠ o.sector then h
          else if h.outBuf.isSome then { h with outBuf := none } else { h with queue := h.queue.drop 1 } }
      else m
    let u := t.integrityAll i (m.served o).1
    (if o.role = .sweepRead then u.sweepDone o.sector else u).advance i o.sector

/-- A Sounding with both results classifies (R255). -/
def State.classify (i : Nat) (o : MemOp) (laneOk secondOk : Bool) (s : State) : State :=
  match s.mse[i]? with
  | none => s
  | some m =>
    let cls := if ¬ laneOk then 1 else if secondOk then 2 else 3
    let part := (m.served o).2
    let who := s.concerned m o
    let word := causeWord o.check cls (s.cht.physLane i o.lane) part i
    let t := (s.sounding (unitMse i) 0 cls).mseAlarm i word who (if cls = 3 then who else none)
    let t := if cls = 3 ∨ part then t.listSector i o.sector part else t
    let t := if cls = 1 then t.repairLane i o.lane else t
    t.failServed i o

/-- A Sounding whose two results are in classifies; else the operation keeps what it has. -/
def State.soundingStep (i : Nat) (o o' : MemOp) (s : State) : State :=
  let t := s.modMse i (Mse.swapOp o o')
  match o'.laneTest, o'.second with
  | some l, some r => t.classify i o' l r
  | _, _ => t

/-- A read beat or its absence has failed a check: re-read, then Sounding, then classification (R254). -/
def State.failRead (i : Nat) (o : MemOp) (check : Nat) (s : State) : State :=
  match o.attempt with
  | 0 => (s.modMse i (Mse.requeueFirst o
      { o with id := none, attempt := 1, check, beat := false, data := [], since := s.clk.elapsed })).bump (ctrMse i 21) 1
  | 1 =>
    let t := s.modMse i (Mse.requeueFirst o
      { o with id := none, attempt := 2, beat := false, data := [], since := s.clk.elapsed })
    (t.modMse i fun m => { m with
      testing := m.testing ++ s.cht.lanesOf i (s.cht.physLane i o.lane) }).bump (ctrMse i 22) 1
  | _ => s.soundingStep i o { o with id := none, beat := false, second := some false }

/-- A read whose verdict is in (R254, R296). -/
def State.takeVerdict (i : Nat) (o : MemOp) (ct : Bytes) (sb : Nat) (v : BeatVerdict) (s : State) : State :=
  match v with
  | .wait => s.modMse i (Mse.swapOp o { o with id := none, beat := true, data := ct, sb })
  | .fail c =>
    if o.role = .sweepRead ∧ (s.mse[i]?).any fun m => s.bootSwept m o.sector then
      ({ s with swp := { s.swp with zeroed := satAdd 65535 s.swp.zeroed 1 } }.bump (ctrLdg 9) 1).reseal
        i o ct sb (zeros 128)
    else s.failRead i o c
  | .pass pt second =>
    let t := if second then s.bump (ctrMse i 20) 1 else s
    match o.attempt with
    | 0 => t.deliver i o ct sb pt
    | 1 => ((t.modErr i fun e => { e with rereadOk := satAdd 65535 e.rereadOk 1 }).event evMseReread (unitMse i)
        ((t.mse[i]?).bind fun m => t.concerned m o) (sectorAddr o.sector) i).deliver i o ct sb pt
    | _ => t.soundingStep i o { o with id := none, beat := false, second := some true }

/-- Beats that wait for a tag line or a key are verified again. -/
def State.retryBeats (i : Nat) (s : State) : State :=
  match s.mse[i]? with
  | none => s
  | some m => (m.ops.filter (·.beat)).foldl (fun t o =>
      match t.mse[i]? with
      | none => t
      | some m => match t.verifyBeat i m o o.data o.sb with
        | .wait => t
        | v => t.takeVerdict i o o.data o.sb v) s

/-- A tag line comes into the cache of 4,096 lines (R266); lines with a write owed stay. -/
def Mse.installTag (line : Nat) (ws : List Nat) (m : Mse) : Mse :=
  let owed (l : Nat) : Bool := m.tagPending.any fun p => decide (p.line = l) && !p.waits.isEmpty
  let l := (line, ws) :: m.tags.filter fun t => t.1 ≠ line
  { m with tags := if l.length ≤ 4096 then l
      else (l.reverse.eraseP fun t => !owed t.1).reverse }

/-- The 16 words of a tag line (R223). -/
def tagWords (bs : Bytes) : List Nat := (List.range 16).map fun k => leField bs (8 * k) 8

/-- A tag-line beat: the line is installed and what waited for it goes on; an error fails the waiting reads with MEM_ERR. -/
def State.tagBeat (i : Nat) (o : MemOp) (data : Bytes) (err : Bool) (s : State) : State :=
  let t := s.modMse i (Mse.dropOp o)
  if err then
    let waiting := ((t.mse[i]?).map fun m => m.ops.filter fun p =>
      p.beat && decide ((t.tagLineOf p.sector).1 = o.sector)).getD []
    let t := waiting.foldl (fun u p => u.failRead i p 4) t
    t.modMse i fun m => m.wantTag o.sector o.lane o.cls
  else (((t.modMse i (Mse.installTag o.sector (tagWords data))).retryBeats i).rerun i).advanceAll i

/-- MSE_READ_BEAT: a beat for an outstanding ID (R65, R219); a beat of a timed-out or squashed read frees its ID and is
discarded (R133, R261). [DEDUCED: notes/assumptions/53.md] -/
def execMseReadBeat (m id : Nat) (data : Bytes) (sb : Nat) (err : Bool) (s : State) :
    Host.Outcome State Fault Refusal :=
  onMse m s fun e t =>
    if e.reserved.any fun r => r.id = id ∧ ¬ r.write then
      (t.modMse m fun e => { e with reserved := e.reserved.filter fun r => ¬ (r.id = id ∧ ¬ r.write) }).bump (ctrMse m 6) 1
    else match e.ops.find? fun o => o.id = some id ∧ ¬ o.write with
      | none => t
      | some o =>
        let u := t.bump (ctrMse m 6) 1
        if o.role = .tagRead then u.tagBeat m o data err
        else if err then u.takeVerdict m o data sb (.fail 4)
        else u.takeVerdict m o data sb (u.verifyBeat m e o data sb)

/-- MSE_LANE_TEST_DONE: the known-answer test of the physical lane that serves logical lane `lane` ends (R238). -/
def execMseLaneTestDone (m lane : Nat) (pass : Bool) (s : State) : Host.Outcome State Fault Refusal :=
  onMse m s fun e t =>
    if ¬ e.testing.contains lane then t else
      let group := t.cht.lanesOf m (t.cht.physLane m lane)
      let u := t.modMse m fun e => { e with
        testing := e.testing.filter fun l => ¬ group.contains l
        err := { e.err with katFail := if pass then e.err.katFail else setBit e.err.katFail lane } }
      match e.ops.find? fun o => o.attempt = 2 ∧ o.lane = lane ∧ o.laneTest.isNone with
      | none => u
      | some o => u.soundingStep m o { o with laneTest := some pass }

/-! ### Write acknowledgements (R239, R247, R262, R267, R294) -/

/-- A data write's tag word in carve-out mode: its requests wait for the tag line's write, unless that is in (R267). -/
def State.dataAcked (i sector : Nat) (st : PortStatus) (reqs : List HostReq) (s : State) : State :=
  if !s.carveOut (sectorAddr sector) || decide (st ≠ .ok) then s.answerAll i st [] reqs else
    match (s.mse[i]?).bind fun m => (m.tagPending.flatMap (·.waits)).find? fun w =>
        decide (w.sector = sector) && !w.dataAcked with
    | none => s.answerAll i st [] reqs
    | some w =>
      let put (w' : Option TagWait) (s : State) := s.modMse i fun m => { m with tagPending := m.tagPending.map fun p =>
        { p with waits := p.waits.flatMap fun x => if x = w then w'.toList else [x] } }
      if w.stage = .acked then (put none s).answerAll i st [] reqs
      else put (some { w with dataAcked := true, reqs := reqs }) s

/-- A tag line's write is acknowledged: writes whose data is acknowledged too are answered (R267). -/
def State.tagAcked (i line : Nat) (st : PortStatus) (s : State) : State :=
  match (s.mse[i]?).bind fun m => m.tagPending.find? fun p => p.line = line with
  | none => s
  | some p =>
    let due := (p.waits.filter fun w => decide (w.stage = .inFlight) && w.dataAcked).flatMap (·.reqs)
    let rest := (p.waits.filter fun w => !(decide (w.stage = .inFlight) && w.dataAcked)).map fun w =>
      if w.stage = .inFlight then { w with stage := .acked } else w
    (s.modMse i fun m => { m with tagPending := (m.tagPending.map fun q =>
      if q.line = line then { q with waits := rest } else q).filter fun q => !q.waits.isEmpty }).answerAll i st [] due

/-- The status an acknowledgement with msN_mb_err gives the writes (R64): the spec does not state it.
[DEDUCED: notes/assumptions/53.md] -/
def State.errStatus (s : State) : PortStatus := if Config.choice s.fresh % 2 = 0 then .ok else .integrity

/-- A re-seal or a ZERO fill is counted for the region's owner (R571). -/
def State.meterOwner (sector : Nat) (st : PortStatus) (s : State) : State :=
  match s.regionOf (sectorAddr sector) with
  | none => s
  | some r => if st = .ok then s.meter 0 (s.entry r).owner 128 else s

/-- A write of a sector is acknowledged: what waited for it is answered, and the sector leaves the bad-sector list where the
status is OK (R239, R247, R259, R294). -/
def State.ackWrite (i : Nat) (o : MemOp) (st : PortStatus) (s : State) : State :=
  let t := (s.modMse i (Mse.dropOp o)).bump (ctrMse i 7) 1
  let t := if st = .ok then t.unlistSector i o.sector else t
  let u := match o.role with
    | .entryWrite =>
      match (t.mse[i]?).bind fun m => m.hazard? o.sector with
      | some h => (t.modMse i (Mse.setHazard { h with outBuf := none })).dataAcked i o.sector st
          ((h.outBuf.map MergeBuf.list).getD [])
      | none => t
    | .sweepWrite => (((t.modMse i (Mse.dropSweeper o.sector)).meterOwner o.sector st).sweepDone o.sector).bump (ctrLdg 7) 1
    | .zeroWrite => ((t.meterOwner o.sector st).sweepDone o.sector).bump (ctrLdg 7) 1
    | .tagWrite => t.tagAcked i o.sector st
    | _ => t.dataAcked i o.sector st o.reqs
  u.advance i o.sector

/-- MSE_WRITE_ACK: a late acknowledgement only frees its ID and its sector (R262). [DEDUCED: notes/assumptions/53.md] -/
def execMseWriteAck (m id : Nat) (err : Bool) (s : State) : Host.Outcome State Fault Refusal :=
  onMse m s fun e t =>
    match e.reserved.find? fun r => r.id = id ∧ r.write with
    | some r => ((t.modMse m fun e => { e with reserved := e.reserved.filter (· ≠ r) }).bump (ctrMse m 7) 1).advance m r.sector
    | none => match e.ops.find? fun o => o.id = some id ∧ o.write with
      | none => t
      | some o => if err then ({ t with fresh := t.fresh + 1 }).ackWrite m o t.errStatus else t.ackWrite m o .ok

/-! ### Timeouts (R250, R261, R262) -/

/-- T_MEM in ns (R278). -/
def State.tMemNs (s : State) : Nat := s.cfg.engine.tMem * 100

/-- MSE_READ_TIMEOUT (R261): the read fails with READ_TIMEOUT and its ID stays reserved. -/
def execMseReadTimeout (m id : Nat) (s : State) : Host.Outcome State Fault Refusal :=
  onMse m s fun e t =>
    match e.ops.find? fun o => decide (o.id = some id) && !o.write && t.expired o.since t.tMemNs with
    | none => t
    | some o =>
      let u := t.modMse m fun e => { e with reserved := e.reserved ++ [{ id, sector := o.sector, write := false }] }
      if o.role = .tagRead then u.tagBeat m o [] true else u.failRead m o 5

/-- MSE_WRITE_TIMEOUT (R262). -/
def execMseWriteTimeout (m id : Nat) (s : State) : Host.Outcome State Fault Refusal :=
  onMse m s fun e t =>
    match e.ops.find? fun o => decide (o.id = some id) && o.write && t.expired o.since t.tMemNs with
    | none => t
    | some o =>
      let reqs := match o.role with
        | .entryWrite => (((e.hazard? o.sector).bind (·.outBuf)).map (·.list)).getD []
        | .tagWrite => ((e.tagPending.filter fun p => p.line = o.sector).flatMap (·.waits)).flatMap (·.reqs)
        | _ => o.reqs
      let who := (reqs.head?.map (·.stall)).orElse fun _ => (t.regionOf (sectorAddr o.sector)).map fun r => (t.entry r).owner
      let u := t.modMse m fun e => { (e.dropOp o).dropSweeper o.sector with
        reserved := e.reserved ++ [{ id, sector := o.sector, write := true }]
        hazards := (e.dropSweeper o.sector).hazards.map fun h =>
          if h.sector = o.sector ∧ o.role = .entryWrite then { h with outBuf := none } else h
        tagPending := if o.role = .tagWrite then e.tagPending.filter fun p => p.line ≠ o.sector else e.tagPending }
      let u := (u.mseAlarm m (causeWord 6 0 (u.cht.physLane m (5 + o.lane)) false m) who who).listSector m o.sector false
      let u := u.integrityAll m reqs
      (if o.role = .sweepWrite ∨ o.role = .zeroWrite then u.sweepDone o.sector else u).advance m o.sector

/-- MSE_LOCK_TIMEOUT (R250). -/
def execMseLockTimeout (m sector : Nat) (s : State) : Host.Outcome State Fault Refusal :=
  onMse m s fun e t =>
    match (e.hazard? sector).bind fun h => h.lock.map fun l => (h, l) with
    | none => t
    | some (h, stall, at_) =>
      if ¬ t.expired at_ (t.cfg.engine.tLock * 1000) then t else
        ((t.modMse m (Mse.setHazard { h with lock := none })).event evLockTimeout (unitMse m) (some stall)
          (sectorAddr sector) m).advance m sector

/-- TAG_LINE_WRITE_FLUSH (R267): the line with its pending words is written, one write of it at a time. -/
def execTagLineWriteFlush (m line : Nat) (s : State) : Host.Outcome State Fault Refusal :=
  onMse m s fun e t =>
    match e.tagPending.find? fun p => p.line = line, e.tags.find? fun x => x.1 = line with
    | some p, some x =>
      if (e.ops.any fun o => o.co && o.write && decide (o.sector = line)) ∨ ¬ (p.waits.any fun w => w.stage = .pending) then t
      else
        let fly (w : TagWait) : TagWait := if w.stage = .pending then { w with stage := .inFlight } else w
        let put (q : TagPending) : TagPending := if q.line = line then { q with waits := q.waits.map fly } else q
        t.modMse m fun e => { e with tagPending := e.tagPending.map put }.queueOp { newOp .tagWrite line 0 0 true [] with co := true, data := tagBytes x.2, since := t.clk.elapsed }
    | _, _ => t

/-! ### Fences, squashes, invalidations and refusal maps (R45, R251, R252, R283, R394) -/

/-- The requests of an MSE that are outstanding now and meet a condition, as an acknowledgement waits for them. -/
def Mse.earlier (m : Mse) (p : HostReq → Bool) : List (Bool × Nat) :=
  (m.requests.filter p).map fun r => (r.write, r.id)

/-- The first message of a spine queue taken, with what its acknowledgement waits for. -/
def Spine.take (w : List (Bool × Nat)) (p : Spine) : Spine :=
  match p.queue with
  | [] => p
  | a :: q => { p with queue := q, acks := p.acks ++ [(a, w)] }

/-- KEY_GEN_FENCE: the tile applies the fence at the head of its spine queue (R251). -/
def execKeyGenFence (m : Nat) (s : State) : Host.Outcome State Fault Refusal :=
  onMse m s fun e t =>
    if t.inUnitReset (unitMse m) then t else
    match e.spine.queue.head? with
    | some (.adopt w stall) => t.modMse m fun e => { e with
        sweeps := (e.sweeps.filter fun x => x.region ≠ w.region) ++ [w]
        spine := e.spine.take (e.earlier fun r => r.stall = stall) }
    | some (.unadopt r stall) => t.modMse m fun e => { e with
        sweeps := e.sweeps.filter fun x => x.region ≠ r
        spine := e.spine.take (e.earlier fun q => q.stall = stall) }
    | some (.retire stall gen) => t.modMse m fun e => { e with
        retired := e.retired ++ [(stall, gen)]
        spine := e.spine.take (e.earlier fun r => r.stall = stall) }
    | _ => t

/-- KEY_GEN_FENCE_ACK: the oldest fence whose earlier requests have all been answered is acknowledged (R251). -/
def execKeyGenFenceAck (m : Nat) (s : State) : Host.Outcome State Fault Refusal :=
  onMse m s fun _ t => t.modMse m fun e => { e with spine := { e.spine with
    acks := e.spine.acks.eraseP fun a => a.1.isFence && a.2.isEmpty } }

/-- The host-side requests of a Stall squashed at an MSE (R252). -/
def State.squashStall (i stall : Nat) (s : State) : State :=
  match s.mse[i]? with
  | none => s
  | some m =>
    let mine (r : HostReq) : Bool := decide (r.stall = stall)
    let touches (h : Hazard) : Bool := h.queue.any mine || ((h.outBuf.map (·.list)).getD []).any mine ||
      ((h.fillBuf.map (·.list)).getD []).any mine || (h.lock.map (·.1)) = some stall
    let t := s.modMse i fun m => { m with
      held := m.held.filter fun p => !mine p.1
      hazards := (m.hazards.map fun h => if touches h then
          { h with lock := none, outBuf := none, fillBuf := none, queue := h.queue.filter fun r => !mine r } else h)
      ops := (m.ops.filter fun o => o.id.isSome || !(o.reqs.any mine || (decide (o.role = .entryRead ∨ o.role = .entryWrite) &&
          m.hazards.any fun h => decide (h.sector = o.sector) && touches h))).map fun o =>
          { o with reqs := o.reqs.filter fun r => !mine r }
      tagPending := m.tagPending.map fun p => { p with waits := p.waits.map fun w =>
          { w with reqs := w.reqs.filter fun r => !mine r } } }
    (t.answerAll i .poison [] (m.requests.filter mine)).advanceAll i

/-- MSE_SQUASH_ORDER (R252). -/
def execMseSquashOrder (m : Nat) (s : State) : Host.Outcome State Fault Refusal :=
  onMse m s fun e t =>
    match e.spine.queue.head? with
    | some (.squash stall) => (t.squashStall m stall).modMse m fun e => { e with spine := { e.spine.take [] with
        refused := if e.spine.refused.contains stall then e.spine.refused else e.spine.refused ++ [stall] } }
    | _ => t

/-- LEDGER_INVALIDATE (R283 steps 3 and 4). -/
def execLedgerInvalidate (m : Nat) (s : State) : Host.Outcome State Fault Refusal :=
  onMse m s fun e t =>
    if t.inUnitReset (unitMse m) then t else
    match e.spine.queue.head? with
    | some (.invalidate r) => t.modMse m fun e => { e with
        ledger := e.ledger.filter fun p => p.1 ≠ r
        spine := e.spine.take (e.earlier fun q => t.regionOf (sectorAddr q.sector) = some r) }
    | _ => t

/-- A refusal map with one bit set or cleared. -/
def Spine.setRefused (stall : Nat) (on : Bool) (p : Spine) : Spine :=
  { p with refused := if on then (if p.refused.contains stall then p.refused else p.refused ++ [stall])
      else p.refused.filter (· ≠ stall) }

/-- The refusal map update at the head of an MSE's queue is applied (R394). -/
def Mse.applyRefusal (m : Mse) : Mse :=
  match m.spine.queue.head? with
  | some (.refusal stall on) =>
    { m with spine := (m.spine.take (if on then m.earlier fun r => r.stall = stall else [])).setRefused stall on }
  | _ => m

/-- A link or host tile's refusal map update: an LSE's outstanding outbound requests of the Stall are waited for by the
unit's own answers (R328), so the tile acknowledges at once. -/
def Spine.applyRefusal (p : Spine) : Spine :=
  match p.queue.head? with
  | some (.refusal stall on) => { (p.setRefused stall on) with queue := p.queue.drop 1 }
  | some _ => { p with queue := p.queue.drop 1 }
  | none => p

/-- REFUSAL_MAP_UPDATE at the tile with unit code `tile` (R394). -/
def execRefusalMapUpdate (tile : Nat) (s : State) : Host.Outcome State Fault Refusal :=
  if tile < 0x40 then
    onMse tile s fun _ t => if t.inUnitReset tile then t else t.modMse tile Mse.applyRefusal
  else if tile < 0x80 then
    match s.lse[tile - 0x40]? with
    | none => .fault (.noSuchPort 1 (tile - 0x40))
    | some _ => done { s.begin with lse := listSet s.lse (tile - 0x40) fun l => { l with spine := l.spine.applyRefusal } }
  else
    match s.hse[tile - 0x80]? with
    | none => .fault (.noSuchPort 2 (tile - 0x80))
    | some _ => done { s.begin with hse := listSet s.hse (tile - 0x80) fun l => { l with spine := l.spine.applyRefusal } }

/-! ### Cache fills (R41, R49, R191) -/

/-- LEDGER_CACHE_FILL: a missed entry is filled over the spine, and held requests meet the checks again (R49). The cache holds
1,024 entries (R41). -/
def execLedgerCacheFill (m : Nat) (pool : Bool) (index : Nat) (s : State) : Host.Outcome State Fault Refusal :=
  onMse m s fun e t =>
    let r : RegionId := { pool, index }
    if ¬ (e.held.any fun p => p.2 = .ledger ∧ t.regionOf (sectorAddr p.1.sector) = some r) then t
    else ((t.modMse m fun e => { e with
        ledger := ((r, t.entry r) :: e.ledger.filter fun p => p.1 ≠ r).take 1024 }).bump (ctrLdg 0) 1).rerun m

/-- The key cache of a tile holds this many keys (R41). -/
def State.tileKeyPlaces (s : State) (tile : Nat) : Nat :=
  if tile < 0x40 then 8 else if tile < 0x80 then 4
  else if s.cfg.engine.hseCxl.testBit (tile - 0x80) then 8 else 4

/-- A count of uses credited to a key: in its slot while it is resident, else in its owner's key table (R196). -/
def State.creditUses (h g n : Nat) (s : State) : State :=
  if s.sbx.slots.any fun p => p.2.handle = h ∧ p.2.gen = g then
    let add (k : KeySlot) : KeySlot := if k.handle = h ∧ k.gen = g then { k with count := k.count + n } else k
    { s with sbx := { s.sbx with slots := s.sbx.slots.map fun p => (p.1, add p.2) } }
  else s.modStallData (handleOwner h) fun d => { d with keys := d.keys.map fun k =>
    if k.handle = h ∧ k.gen = g then { k with use := k.use + n } else k }

/-- A tile drops its copy of a key and reports every use it has not reported (R196). -/
def State.dropTileKey (k : TileKey) (s : State) : State :=
  ({ s with sbx := { s.sbx with tiles := s.sbx.tiles.eraseP (· = k) } }).creditUses k.handle k.gen k.unreported

/-- A key copied from its slot into a tile cache; a full cache loses its oldest key (R41, R191). -/
def State.fillTileKey (tile h g : Nat) (material : Bytes) (s : State) : State :=
  let mine := s.sbx.tiles.filter fun k => k.tile = tile
  let t := if mine.length < s.tileKeyPlaces tile then s else match mine.head? with
    | some k => s.dropTileKey k
    | none => s
  let k : TileKey := { tile, handle := h, gen := g, unreported := 0, age := 0, material }
  { t with sbx := { t.sbx with tiles := t.sbx.tiles ++ [k] } }.bump (ctrSbx 4) 1

end Sys2Proof.Machine
end

