-- ==== Sys2Proof/Machine/Keys.lean ====
section
/-!
DEFINITION. What the Strongbox's commands share (spec/07_strongbox.md): slots, eviction and pins, tile copies, blobs, the key table of a
Stall, usage limits, and the rotation of a REGION key with the sweep it orders (spec/10_ledger_sweeper.md R297).
-/

namespace Sys2Proof.Machine

/-! ### Slots (R188 to R190) -/

/-- An unpinned slot with a new key. -/
def KeySlot.fresh (handle gen usage : Nat) (material : Bytes) : KeySlot :=
  { handle, gen, usage, count := 0, ops := 0, cls := .unpinned, pinned := false, busy := false, age := 0, material }

/-- A slot may take a key: it is free, in service and its bank is not under test. -/
def Sbx.slotUsable (b : Sbx) (n : Nat) : Bool :=
  (assocGet n b.slots).isNone && !b.outOfService.contains n && !b.testing.contains (n / 16)

/-- The lowest usable slot. -/
def Sbx.freeSlot (b : Sbx) : Option Nat := (List.range 256).find? b.slotUsable

/-- The slot R190 evicts: unpinned, not BUSY, greatest age, lowest number on a tie. -/
def Sbx.victim (b : Sbx) : Option Nat :=
  (b.slots.foldl (fun (best : Option (Nat × Nat)) p =>
    if p.2.pinned || p.2.busy || b.testing.contains (p.1 / 16) then best
    else match best with
      | none => some (p.1, p.2.age)
      | some (_, a) => if a < p.2.age then some (p.1, p.2.age) else best) none).map (·.1)

/-- Every other slot ages by one, and slot `n` becomes the newest (R190). -/
def Sbx.touch (n : Nat) (b : Sbx) : Sbx :=
  { b with slots := b.slots.map fun p => (p.1, { p.2 with age := if p.1 = n then 0 else satAdd 255 p.2.age 1 }) }

/-- The slot that holds a key. -/
def Sbx.slotOf (b : Sbx) (h g : Nat) : Option (Nat × KeySlot) := b.slots.find? fun p => p.2.handle = h ∧ p.2.gen = g

/-- A key's usage count written into its key table entry. -/
def State.saveUse (k : KeySlot) (s : State) : State :=
  s.modStallData (handleOwner k.handle) fun d => { d with keys := d.keys.map fun e =>
    if e.handle = k.handle ∧ e.gen = k.gen then { e with use := k.count, ops := k.ops } else e }

/-- A slot evicted: its count goes back to the key table, both shares are cleared (R190). -/
def State.evict (n : Nat) (s : State) : State :=
  match assocGet n s.sbx.slots with
  | none => s
  | some k => ({ s.saveUse k with sbx := { (s.saveUse k).sbx with slots := assocDel n s.sbx.slots } }).bump (ctrSbx 3) 1

/-- A key placed in a free slot, else in the slot R190 evicts; none where neither exists. -/
def State.placeKey (k : KeySlot) (s : State) : Option State :=
  match s.sbx.freeSlot with
  | some n => some { s with sbx := ({ s.sbx with slots := assocSet n k s.sbx.slots } : Sbx).touch n }
  | none => s.sbx.victim.map fun n =>
    let t := s.evict n
    { t with sbx := ({ t.sbx with slots := assocSet n k t.sbx.slots } : Sbx).touch n }

/-- HSEs the ENGINE section sets to CXL (R189). -/
def State.nCxl (s : State) : Nat := ((List.range s.build.hseCount).filter fun i => s.cfg.engine.hseCxl.testBit i).length

/-- PIN_BLOCK and PIN_POOL (R189, R208). -/
def State.pinBlock (s : State) : Nat := 4 * s.build.lseCount + 8 * s.build.hseCount + 4 * s.nCxl + 4
def State.pinPool (s : State) : Nat := 244 - s.pinBlock

/-- Slots pinned by Stalls, all or one. -/
def Sbx.stallPins (b : Sbx) : Nat := (b.slots.filter fun p => p.2.pinned && decide (p.2.cls = .stall)).length
def Sbx.pinsOf (b : Sbx) (stall : Nat) : Nat :=
  (b.slots.filter fun p => p.2.pinned && decide (p.2.cls = .stall ∧ handleOwner p.2.handle = stall)).length

/-- One more pin of a Stall stays within PIN_POOL and PIN_QUOTA (R189). -/
def State.mayPin (s : State) (stall : Nat) : Bool :=
  decide (s.sbx.stallPins < s.pinPool ∧ s.sbx.pinsOf stall < s.cfg.engine.pinQuota)

/-- A key's slot and its tile copies erased: the slot at once, the copies by invalidations (R203). -/
def State.eraseKey (h g : Nat) (s : State) : State :=
  let mine (t : TileKey) : Bool := decide (t.handle = h ∧ t.gen = g)
  let inv := (s.sbx.tiles.filter mine).map fun t => ({ tile := t.tile, handle := h, gen := g } : KeyInval)
  { s with sbx := { s.sbx with
    slots := s.sbx.slots.filter fun p => ¬ (p.2.handle = h ∧ p.2.gen = g)
    unwraps := s.sbx.unwraps.filter fun u => ¬ (u.handle = h ∧ u.gen = g)
    invals := s.sbx.invals ++ inv } }

/-! ### Key types (R186) -/

def keyRegion : Nat := 0x1
def keyBooth : Nat := 0x2
def keyExport : Nat := 0x3
def keyIngest : Nat := 0x4
def keyDump : Nat := 0x5
def keyPairKem : Nat := 0x6
def keyPairSign : Nat := 0x7

/-- A handle of an owner, a type and a serial (R185). -/
def makeHandle (owner type serial : Nat) : Nat := owner * 2 ^ 20 + type * 2 ^ 16 + serial % 2 ^ 16

/-- The usage limit of a type (R197): uses, none where the type is not limited. -/
def keyLimit (type : Nat) : Option Nat :=
  if type = keyRegion then some (2 ^ 40)
  else if type = keyPairSign ∨ type = keyPairKem then some (2 ^ 32)
  else if type = keyBooth ∨ type = keyExport ∨ type = keyIngest ∨ type = keyDump then some (2 ^ 36)
  else none

/-- Percent of the limit used, 0 to 100 (R210 WEAR). -/
def wearPercent (type use ops : Nat) : Nat :=
  match keyLimit type with
  | none => 0
  | some l =>
    let p := use * 100 / l
    min 100 (if type = keyBooth ∨ type = keyExport ∨ type = keyIngest ∨ type = keyDump then max p (ops * 100 / 2 ^ 32) else p)

/-! ### Blobs (R192 to R195) -/

/-- What a blob carries beside its key. -/
structure BlobHeader where
  handle : Nat
  usage : Nat
  gen : Nat
  keyLen : Nat
  attr : Nat
  inst : Bytes
  deriving DecidableEq, Repr

/-- Bytes 0x00 to 0x17 of a blob. -/
def BlobHeader.bytes (b : BlobHeader) : Bytes :=
  leBytes 2 0x4B58 ++ leBytes 1 3 ++ leBytes 1 (handleType b.handle) ++ leBytes 4 b.handle ++ leBytes 2 b.usage ++
    leBytes 1 b.gen ++ leBytes 1 0 ++ leBytes 1 b.keyLen ++ leBytes 1 b.attr ++ leBytes 2 (handleOwner b.handle) ++
    (padTo 8 b.inst).take 8

/-- The 128 bytes of a blob under a wrap key. -/
def blobBytes (wrapKey : Bytes) (b : BlobHeader) (key : Bytes) : Bytes :=
  b.bytes ++ kwpWrap wrapKey ((padTo 64 key).take 64 ++ (sha384 b.bytes).take 32)

/-- BLOB_TAG (R193). -/
def blobTag (blob : Bytes) : Bytes := (sha384 blob).take 8

/-- The wrap key of a Stall at WRAP_GEN 0 (R183, R193). -/
def StallData.wrapKey (d : StallData) : Bytes := kdf d.stallRoot "XS-WRAP" (leBytes 1 0) 256

/-- The key a blob carries, if the Strongbox accepts it for a handle and generation (R194). -/
def State.openBlob (s : State) (h g : Nat) (blob : Bytes) : Option Bytes :=
  match s.stall? (handleOwner h), s.stallData? (handleOwner h), s.keyEntry? h g with
  | some st, some d, some e =>
    let ok := decide (blob.length = 128 ∧ leField blob 0 2 = 0x4B58 ∧ leField blob 2 1 = 3 ∧
      leField blob 3 1 = handleType h ∧ leField blob 4 4 = h ∧ leField blob 8 2 < 128 ∧ leField blob 0xA 1 = g ∧
      (leField blob 0xC 1 = 32 ∨ leField blob 0xC 1 = 64) ∧ leField blob 0xD 1 < 4 ∧
      leField blob 0xE 2 = handleOwner h ∧ slice blob 0x10 8 = (padTo 8 st.inst).take 8 ∧
      e.destroyed = false ∧ blobTag blob = e.blobTag)
    if !ok then none else
      match kwpUnwrap d.wrapKey (slice blob 0x18 104) with
      | none => none
      | some pt =>
        let n := leField blob 0xC 1
        if pt.drop 64 = (sha384 (blob.take 0x18)).take 32 ∧ (pt.take 64).drop n = zeros (64 - n) then some (pt.take n)
        else none
  | _, _, _ => none

/-! ### The key table (R397) -/

/-- A key table entry added; an entry of the same handle and generation is replaced. -/
def StallData.putKey (k : KeyEntry) (d : StallData) : StallData :=
  { d with keys := (d.keys.filter fun e => ¬ (e.handle = k.handle ∧ e.gen = k.gen)) ++ [k] }

/-- A handle's key entry with the newest generation. -/
def State.liveEntry? (s : State) (h : Nat) : Option KeyEntry :=
  (s.stallData? (handleOwner h)).bind fun d => (d.keys.filter fun k => k.handle = h ∧ ¬ k.destroyed).getLast?

/-! ### Regions of a Stall and their sweeps (R291, R297) -/

/-- The regions whose entries meet a condition, local ones first, in ascending order. -/
def State.regionsWhere (s : State) (p : LdgEntry → Bool) : List RegionId :=
  ((s.ldg.localEntries.filter fun e => p e.2).map fun e => { pool := false, index := e.1 }) ++
    ((s.ldg.poolEntries.filter fun e => p e.2).map fun e => { pool := true, index := e.1 })

/-- A state that has a floor and a window (R282). -/
def RegState.windowed (st : RegState) : Bool :=
  match st with
  | .sealed => true
  | .frozen => true
  | .zeroing => true
  | _ => false

/-- A key sweep of one region ordered: SWEEP set, its ADOPT fence sent, its order queued (R297 step 2). -/
def State.orderRegion (kind : SweepKind) (stall old new : Nat) (bootOld : Bool) (r : RegionId) (s : State) : State :=
  let e := { s.entry r with sweep := true }
  let t := ((s.writeEntry r e).queueItems [.entry r e]).spineMses
    (.adopt { region := r, old, new, bootOld } stall)
  { t with swp := { t.swp with queue := t.swp.queue ++ [{ kind, region := r, stall, old, new, bootOld }] } }

/-- The key sweep of a Stall from one generation to the next (R297 step 2). -/
def State.orderKeySweep (stall old new : Nat) (s : State) : State :=
  let rs := s.regionsWhere fun e => decide (e.owner = stall) && e.state.windowed
  let t := rs.foldl (fun t r => t.orderRegion .key stall old new false r) s
  { t with swp := { t.swp with sweeps := t.swp.sweeps ++
    [{ stall, old, new, retiring := false, wear := false }] } }

/-- The old generation of a Stall's sweep has reached 100%: the rest of each region becomes a band, and its clearance takes
the first priority (R291, R295). -/
def State.wearBand (stall : Nat) (s : State) : State :=
  let up (o : SweepOrder) : SweepOrder := if o.stall = stall ∧ o.kind = .key ∧ ¬ o.bootOld then { o with kind := .band } else o
  { s with swp := { s.swp with
    sweeps := s.swp.sweeps.map fun k => if k.stall = stall then { k with wear := true } else k
    queue := s.swp.queue.map up } }

/-- A REGION handle rotated: the new generation drawn, its blob written to its slot of the blob area, its key table entry and
slot made, and the key sweep ordered (R193, R197, R297). `MIGRATABLE` follows the old entry. [DEDUCED: notes/assumptions/61.md] -/
def State.rotateRegion (stall : Nat) (e : KeyEntry) (s : State) : State :=
  match s.stall? stall, s.stallData? stall with
  | some st, some d =>
    let g := (e.gen + 1) % 4
    let key := s.drawn 64
    let area := e.blobAddr - 128 * (e.gen % 2)
    let addr := area + 128 * (g % 2)
    let blob := blobBytes d.wrapKey
      { handle := e.handle, usage := e.usage, gen := g, keyLen := 64, attr := 1 + 2 * bit e.migratable, inst := st.inst } key
    let entry : KeyEntry :=
      { e with gen := g, use := 0, ops := 0, pinned := false, blobAddr := addr, blobTag := blobTag blob, eC := s.epo.epoch }
    let slot := KeySlot.fresh e.handle g e.usage key
    let t := ((s.tookDraw).emit (.memWrite stall addr blob)).setStallData stall
      { (d.putKey entry) with wrapCount := d.wrapCount + 1 }
    let t := (t.placeKey slot).getD t
    let t := { t with mse := t.mse.map fun (m : Mse) => { m with retired := m.retired.filter fun p => p ≠ (stall, g) } }
    t.orderKeySweep stall e.gen g
  | _, _ => s

/-- A key sweep of the Stall is running. -/
def State.sweepRunning (s : State) (stall : Nat) : Bool := s.swp.sweeps.any fun k => k.stall = stall

/-- The wear and limit checks of a REGION generation (R197, R228): at 75% EV_KEY_WEAR, and a rotation the block starts by
itself unless it must be deferred; at 100% the band of R295. `blobOk` is the answer to the new blob's write: other than OK
discards the new generation. -/
def State.regionWear (h g : Nat) (blobOk : Bool) (s : State) : State :=
  match s.keyEntry? h g with
  | none => s
  | some e =>
    let stall := handleOwner h
    let uses := s.keyUses h g
    let life := sub24 s.epo.epoch e.eC
    let percent := max (min 100 (uses * 100 / 2 ^ 40)) (if 2 ^ 24 - 512 ≤ life then 100 else if 2 ^ 23 ≤ life then 75 else 0)
    if e.destroyed ∨ percent < 75 ∨ s.nextGenLive h g then
      if percent = 100 ∧ s.nextGenLive h g then s.wearBand stall else s
    else
      let t := s.event evKeyWear unitStrongbox (some stall) h percent
      if t.sweepRunning stall || decide (256 ≤ ((t.stallData? stall).map (·.keys.length)).getD 256) || !t.sbx.entropyOk || !blobOk
      then t else t.rotateRegion stall e

end Sys2Proof.Machine
end

