-- ==== Sys2Proof/Machine/Operands.lean ====
section
/-!
DEFINITION. The operands of XS commands (spec/16_command_interface.md R473 to R478, R485): the command table with each command's class,
issuer, argument places and stated ranges, and the checks every command meets before its own.
-/

namespace Sys2Proof.Machine

/-- The class column of R485. -/
inductive CmdClass where
  | t | i | iw | w | a
  deriving DecidableEq, Repr

/-- The issuer column of R485. -/
inductive Issuer where
  | zero | any | selfOrZero
  deriving DecidableEq, Repr

/-- When a command of Stall 0 runs in Harbour mode (R172, R284, R406, R423, R468): always, once RESTORED, or never. -/
inductive HarbourRule where
  | always | restored | never
  deriving DecidableEq, Repr

/-- The unit a command needs (R11). -/
inductive CmdUnit where
  | none | lse | tol | xck | x2 | sty
  deriving DecidableEq, Repr

/-- A row of R485. `args` gives offset and size of each argument from 0x30; `stallAt` where the named Stall stands;
`early`: also for a Stall that is ADMITTED (R393). -/
structure CmdInfo where
  opcode : Nat
  cls : CmdClass
  issuer : Issuer
  args : List (Nat × Nat)
  harbour : HarbourRule
  early : Bool
  needs : CmdUnit
  deriving DecidableEq, Repr

/-- Rows 0x01xx to 0x04xx of R485. -/
def cmdTableLow : List CmdInfo := [
  ⟨0x0100, .i, .any, [], .always, true, .none⟩,
  ⟨0x0101, .a, .any, [(0, 4), (4, 1)], .always, true, .none⟩,
  ⟨0x0102, .iw, .zero, [(0, 8), (8, 4)], .always, true, .none⟩,
  ⟨0x0103, .iw, .zero, [], .always, true, .none⟩,
  ⟨0x0201, .i, .any, [(0, 1), (1, 1), (2, 2), (4, 1), (5, 1), (8, 8)], .restored, false, .none⟩,
  ⟨0x0202, .i, .any, [(0, 4), (4, 1)], .restored, false, .none⟩,
  ⟨0x0203, .i, .any, [(0, 4)], .restored, false, .none⟩,
  ⟨0x0204, .i, .any, [(0, 4), (8, 8)], .restored, false, .none⟩,
  ⟨0x0205, .i, .any, [(0, 4)], .restored, false, .none⟩,
  ⟨0x0206, .i, .any, [(0, 4), (8, 8), (16, 4)], .restored, false, .none⟩,
  ⟨0x0207, .iw, .zero, [], .always, true, .none⟩,
  ⟨0x0301, .i, .any, [(0, 4), (4, 2), (6, 1)], .never, false, .none⟩,
  ⟨0x0302, .i, .any, [(0, 4), (4, 2), (6, 2)], .restored, false, .none⟩,
  ⟨0x0401, .t, .zero, [(0, 2), (2, 1), (3, 1), (4, 1), (5, 1), (8, 8), (16, 48), (64, 48), (112, 48), (160, 8)], .never,
    true, .none⟩,
  ⟨0x0402, .t, .selfOrZero, [(0, 2)], .always, true, .none⟩,
  ⟨0x0403, .t, .selfOrZero, [(0, 2), (8, 8)], .never, true, .none⟩,
  ⟨0x0404, .t, .selfOrZero, [(0, 2)], .never, true, .none⟩,
  ⟨0x0405, .i, .zero, [(0, 2), (8, 8), (16, 8), (24, 8), (32, 4)], .never, true, .none⟩,
  ⟨0x0406, .i, .zero, [(0, 8), (8, 8), (16, 4)], .never, true, .none⟩,
  ⟨0x0407, .iw, .zero, [(0, 2), (2, 2)], .always, true, .none⟩,
  ⟨0x0408, .iw, .zero, [(0, 2)], .always, true, .none⟩,
  ⟨0x0409, .iw, .selfOrZero, [(0, 2)], .always, true, .none⟩]

/-- Rows 0x05xx to 0x07xx of R485. -/
def cmdTableMid : List CmdInfo := [
  ⟨0x0501, .i, .any, [(0, 2), (2, 2), (4, 1), (8, 4), (12, 4)], .restored, false, .lse⟩,
  ⟨0x0502, .i, .any, [(0, 2), (2, 2)], .restored, false, .lse⟩,
  ⟨0x0503, .iw, .zero, [(0, 1)], .always, true, .lse⟩,
  ⟨0x0504, .i, .any, [(0, 8), (8, 8), (16, 2), (18, 1), (19, 1), (20, 1), (21, 1)], .restored, false, .xck⟩,
  ⟨0x0505, .i, .any, [(0, 1)], .restored, false, .xck⟩,
  ⟨0x0601, .i, .any, [(0, 1), (1, 1), (2, 1), (8, 48)], .restored, true, .none⟩,
  ⟨0x0602, .i, .any, [], .restored, true, .none⟩,
  ⟨0x0603, .i, .any, [], .restored, true, .x2⟩,
  ⟨0x0604, .i, .any, [(0, 32), (32, 8), (40, 4)], .restored, true, .x2⟩,
  ⟨0x0605, .i, .selfOrZero, [(0, 2), (8, 8), (16, 4)], .restored, true, .none⟩,
  ⟨0x0606, .iw, .zero, [(0, 8), (8, 4)], .always, true, .none⟩,
  ⟨0x0607, .iw, .zero, [(0, 8), (8, 4)], .always, true, .none⟩,
  ⟨0x0608, .iw, .zero, [(0, 8), (8, 4), (12, 1), (16, 8), (24, 4)], .always, true, .none⟩,
  ⟨0x0609, .i, .zero, [(0, 8), (8, 4), (12, 1), (13, 1), (14, 2), (16, 8), (24, 4), (28, 2)], .always, true, .none⟩,
  ⟨0x060A, .iw, .zero, [(0, 8), (8, 4)], .always, true, .none⟩,
  ⟨0x060B, .iw, .zero, [(0, 8), (8, 4)], .always, true, .none⟩,
  ⟨0x0701, .i, .any, [(0, 8), (8, 1), (9, 1), (10, 2), (12, 2), (16, 48)], .restored, true, .none⟩,
  ⟨0x0702, .i, .any, [(0, 2)], .restored, true, .none⟩,
  ⟨0x0703, .i, .any, [(0, 2), (2, 1), (8, 8)], .restored, true, .none⟩,
  ⟨0x0704, .i, .any, [(0, 2), (4, 4), (8, 8)], .restored, true, .none⟩,
  ⟨0x0705, .iw, .zero, [(0, 2), (2, 1), (3, 1), (4, 1)], .always, true, .none⟩]

/-- Rows 0x08xx to 0x0Cxx of R485. DATA of ALMANAC_UPDATE is carried as far as LEN asks for it. [DEDUCED: notes/assumptions/14.md] -/
def cmdTableHigh : List CmdInfo := [
  ⟨0x0801, .i, .any, [(0, 1), (1, 1), (2, 1), (3, 1), (4, 4), (8, 8), (16, 8), (24, 4), (28, 2), (30, 1), (32, 8), (40, 16),
    (56, 4), (64, 8)], .restored, false, .none⟩,
  ⟨0x0901, .i, .any, [(0, 8)], .never, false, .tol⟩,
  ⟨0x0902, .i, .any, [(0, 1), (1, 1), (2, 1), (3, 1), (4, 4), (8, 8), (16, 4), (24, 8), (32, 8), (40, 8), (48, 8)], .never,
    false, .tol⟩,
  ⟨0x0903, .i, .selfOrZero, [(0, 1), (8, 32), (40, 8), (48, 4)], .never, false, .tol⟩,
  ⟨0x0A01, .iw, .zero, [(0, 1), (1, 1), (4, 4), (8, 4), (16, 8)], .always, true, .none⟩,
  ⟨0x0A02, .iw, .zero, [], .always, true, .none⟩,
  ⟨0x0A03, .iw, .zero, [], .always, true, .none⟩,
  ⟨0x0A04, .iw, .zero, [(0, 1)], .always, true, .none⟩,
  ⟨0x0B01, .w, .zero, [(0, 1), (8, 192)], .always, true, .none⟩,
  ⟨0x0C01, .iw, .zero, [(0, 2), (8, 8), (16, 8), (24, 4)], .always, true, .none⟩,
  ⟨0x0C02, .iw, .zero, [(0, 8)], .always, true, .none⟩,
  ⟨0x0C03, .i, .selfOrZero, [(0, 2), (8, 8), (16, 4)], .restored, false, .sty⟩]

/-- The command table of R485. -/
def cmdTable : List CmdInfo := cmdTableLow ++ (cmdTableMid ++ cmdTableHigh)

/-- The row of an opcode. -/
def cmdInfo? (op : Nat) : Option CmdInfo := cmdTable.find? fun r => r.opcode = op

/-- The unit a command needs is in the build (R11). -/
def Build.has (b : Build) : CmdUnit → Bool
  | .none => true
  | .lse => decide (0 < b.lseCount)
  | .tol => b.tol
  | .xck => b.xck
  | .x2 => b.x2
  | .sty => b.sty

/-- A numbered argument. -/
def arg (a : Bytes) (off len : Nat) : Nat := leField a off len

/-- The Stall a command names in its first argument, for the S/0 issuers (R485): TOLL_BUDGET names an owner, so it is the
issuer's own. -/
def namedStall (op : Nat) (a : Bytes) : Option Nat := if op = 0x0903 then none else some (arg a 0 2)

/-- The argument checks of R475 that R485 states: the offset of the first argument out of its range. -/
def argRange (op : Nat) (a : Bytes) : Option Nat :=
  let bad (c : Bool) (off : Nat) : Option Nat := if c then some off else none
  let stall (off : Nat) : Option Nat := bad (decide (4096 ≤ arg a off 2)) off
  match op with
  | 0x0101 => bad (decide (arg a 0 4 = 0 ∨ 60000000 < arg a 0 4)) 0
  | 0x0301 => (bad (decide (arg a 4 2 = 0 ∨ 1024 < arg a 4 2)) 4).orElse fun _ => bad (decide (2 < arg a 6 1)) 6
  | 0x0302 => (bad (decide (arg a 4 2 = 0 ∨ 1024 < arg a 4 2)) 4).orElse fun _ => stall 6
  | 0x0401 => (bad (decide (arg a 0 2 = 0 ∨ 4096 ≤ arg a 0 2)) 0).orElse fun _ => (bad (decide (1 < arg a 2 1)) 2).orElse fun _ =>
      (bad (decide (1 < arg a 3 1)) 3).orElse fun _ => bad (decide (8 < arg a 5 1)) 5
  | 0x0402 => stall 0
  | 0x0403 => stall 0
  | 0x0404 => stall 0
  | 0x0405 => stall 0
  | 0x0407 => stall 2
  | 0x0409 => stall 0
  | 0x0605 => stall 0
  | 0x0609 => bad (decide (arg a 12 1 = 0 ∨ 4 < arg a 12 1)) 12
  | 0x0703 => bad (decide (1 < arg a 2 1)) 2
  | 0x0A01 => (bad (decide (2 < arg a 0 1)) 0).orElse fun _ => bad (decide (1 < arg a 1 1)) 1
  | 0x0C03 => stall 0
  | _ => none

/-! ### What every command meets when it runs (R174, R393, R401, R406, R407, R423) -/

/-- What the common checks make of a command: it runs, it completes with a status, or it waits for its Stall's fill. -/
inductive Gate where
  | run
  | status (st : Nat)
  | waitFill
  deriving DecidableEq, Repr

/-- Commands of a FROZEN Stall that still run: the Stall's own thaw and removal (R412, R415). -/
def runsFrozen (op : Nat) : Bool := decide (op = 0x0404 ∨ op = 0x0402)

/-- The common checks of a command of the table. [DEDUCED: notes/assumptions/14.md] -/
def State.gate (s : State) (c : Call) (info : CmdInfo) : Gate :=
  if s.ald.noAlmanac ∧ info.opcode ≠ 0x0A01 then .status stHarbour
  else match s.stallState c.stall with
    | .lost => .status stStallLost
    | .removing => .status stStallLost
    | st =>
      if c.stall ≠ 0 ∧ ¬ s.resident c.stall ∧ info.opcode ≠ 0x0101 then
        if ((s.stall? c.stall).map (·.fillFault)).getD false then .status stStallFilling else .waitFill
      else if ¬ s.ald.full ∧ (c.stall ≠ 0 ∨ info.harbour = .never ∨ (info.harbour = .restored ∧ ¬ s.ald.restored)) then
        .status stHarbour
      else if st = .frozen ∧ ¬ runsFrozen info.opcode then .status stStallFrozen
      else if st = .admitted ∧ c.stall ≠ 0 ∧ ¬ info.early then .status stStallUnkeyed
      else .run

/-- A command runs: in service and outside the quiet state, after the common checks (R89, R475). [DEDUCED: notes/assumptions/8.md] -/
def State.command (c : Call) (op : Nat) (body : State → State) (s : State) : State :=
  let t := s.begin
  if t.alr.quiet ∨ t.rst.phase ≠ .service then t else
    match cmdInfo? op with
    | none => t.finish c stOpcode
    | some info =>
      if ¬ t.build.has info.needs then t.finish c stAbsent else
        match t.gate c info with
        | .run => body t
        | .status st => if st = stStallFilling then (t.wantStall c.stall).finish c st else t.finish c st
        | .waitFill => t.wantStall c.stall

/-- A command ends with ST_PARAM, DETAIL the packet offset of the failing argument (R487). [DEDUCED: notes/assumptions/72.md] -/
def State.badArg (c : Call) (off : Nat) (s : State) : State := s.finishDetail c stParam (0x30 + off)

/-- Random bits are to be had, else the command waits for them up to 1 ms (R199). [DEDUCED: notes/assumptions/15.md] -/
def State.withEntropy (c : Call) (body : State → State) (s : State) : State :=
  if s.sbx.entropyOk then
    body (({ s with sbx := { s.sbx with entropyWaits := s.sbx.entropyWaits.filter fun w => w.call ≠ c } }).waitEnd
      80 17 (some c.stall) 0)
  else if s.sbx.entropyWaits.any fun w => w.call = c then s
  else
    let t : State := { s with sbx := { s.sbx with entropyWaits := s.sbx.entropyWaits ++ [{ call := c, since := s.clk.elapsed }] } }
    t.waitBegin 80 17 (some c.stall) 0

/-- An output of a command: written to its buffer as the issuing Stall, or ST_SHORT with the length needed (R480). `ok` is the
answer to the write; one that is not OK ends the command with ST_MEMORY. -/
def State.output (c : Call) (addr room : Nat) (data : Bytes) (ok : Bool) (body : State → State) (s : State) : State :=
  if room < data.length then s.complete { c.record stShort with result := leBytes 4 data.length }
  else
    let t := s.emit (.memWrite c.stall addr data)
    if ok then body t else t.finish c stMemory

/-- An input buffer of a command: its bytes, or ST_MEMORY (R480). [DEDUCED: notes/assumptions/44.md]
[DEDUCED: notes/assumptions/72.md] -/
def State.input (c : Call) (b : BufRead) (body : Bytes → State → State) (s : State) : State :=
  match b with
  | .ok bytes => body bytes s
  | .failed => s.finish c stMemory

end Sys2Proof.Machine
end

