-- ==== Sys2Proof/Machine/LinkCore.lean ====
section
/-!
DEFINITION. What the link and host engines share (spec/11_link_sealing_engines.md): units, keys of a direction and their slots, sending,
DOWN, the Remote Window Table and Crosscheck arrivals.
-/

namespace Sys2Proof.Machine

/-- One LSE changed. -/
def State.modLse (i : Nat) (f : Lse → Lse) (s : State) : State := { s with lse := listSet s.lse i f }

/-- One HSE changed. -/
def State.modHse (i : Nat) (f : Hse → Hse) (s : State) : State := { s with hse := listSet s.hse i f }

/-- A command of LSE `i`: an index the build lacks has no port (R6). [DESIGN CHOICE: notes/assumptions/7.md] -/
def onLse (i : Nat) (s : State) (f : Lse → State → State) : Host.Outcome State Fault Refusal :=
  match s.lse[i]? with
  | none => .fault (.noSuchPort 1 i)
  | some l => done (f l s.begin)

/-- A command of HSE `i`. [DESIGN CHOICE: notes/assumptions/7.md] -/
def onHse (i : Nat) (s : State) (f : Hse → State → State) : Host.Outcome State Fault Refusal :=
  match s.hse[i]? with
  | none => .fault (.noSuchPort 2 i)
  | some h => done (f h s.begin)

/-! ### Units (R317 to R320) -/

/-- A unit before its clear header is made. -/
structure UnitSpec where
  kind : Nat
  sub : Nat
  tstall : Nat
  id : Nat
  nbytes : Nat
  addr : Nat
  tc : Nat
  data : Bytes
  stall : Option Nat
  outId : Option Nat
  deriving DecidableEq, Repr

/-- A link control unit (R321: TC 3). -/
def ctrlUnit (sub : Nat) (data : Bytes) : UnitSpec :=
  { kind := 7, sub, tstall := 0, id := 0, nbytes := data.length, addr := 0, tc := 3, data, stall := none, outId := none }

/-- The inner header (R318). -/
def UnitSpec.inner (u : UnitSpec) : Bytes :=
  leBytes 1 u.kind ++ leBytes 1 u.sub ++ leBytes 2 u.tstall ++ leBytes 2 u.id ++ leBytes 2 u.nbytes ++ leBytes 8 u.addr

/-- The clear header (R317). -/
def clearHeader (src dst port tc kgen flags seq : Nat) : Bytes :=
  leBytes 2 src ++ leBytes 2 dst ++ leBytes 1 (port + 64 * tc) ++ leBytes 1 kgen ++ [0x01] ++ leBytes 1 flags ++ leBytes 8 seq

/-- The GCM nonce (R320). -/
def linkNonce (src port tc kgen seq : Nat) : Bytes :=
  beBytes 4 (src * 2 ^ 16 + port * 2 ^ 10 + tc * 2 ^ 8 + kgen) ++ beBytes 8 seq

/-- AES blocks of a unit with `d` data bytes (R320). -/
def unitBlocks (d : Nat) : Nat := ceilDiv (16 + d) 16 + 1

/-- The key of a direction at a generation (R322). -/
def linkKey (secret : Bytes) (src dst sport rport kgen : Nat) (estId : Bytes) : Bytes :=
  kdf secret "XS-LINK" (leBytes 2 src ++ leBytes 2 dst ++ leBytes 1 sport ++ leBytes 1 rport ++ leBytes 1 kgen ++ estId) 256

/-- A direction at the start of a generation (R321). -/
def LinkDir.start (kgen : Nat) (key : Bytes) : LinkDir := { kgen, key, seq := [0, 0, 0, 0], blocks := 0, units := 0 }

/-- A direction without a key. -/
def LinkDir.none : LinkDir := LinkDir.start 0 []

/-- One more unit of `d` data bytes under the direction's key, SEQ of its class now `next` (R321, R324). -/
def LinkDir.count (tc next d : Nat) (x : LinkDir) : LinkDir :=
  { x with seq := listSet x.seq tc fun _ => next, blocks := x.blocks + unitBlocks d, units := x.units + 1 }

/-- Percent of the limit of a LINK key used (R324). -/
def LinkDir.wear (x : LinkDir) : Nat := min 100 (max (x.blocks * 100 / 2 ^ 44) (x.units * 100 / 2 ^ 40))

/-- 75% of the limit is reached. -/
def LinkDir.worn (x : LinkDir) : Bool := decide (3 * 2 ^ 42 ≤ x.blocks ∨ 3 * 2 ^ 38 ≤ x.units)

/-- The limit is reached. -/
def LinkDir.spent (x : LinkDir) : Bool := decide (2 ^ 44 ≤ x.blocks ∨ 2 ^ 40 ≤ x.units)

/-- The link has keys. -/
def Lse.keyed (l : Lse) : Bool := decide (l.tx.key ≠ [])

/-- lsN_lt_halt apart from the quiet state and a level-3 partition reset (R324, R326, R336). -/
def Lse.halts (l : Lse) : Bool := l.down || l.forced || (l.keyed && l.tx.spent && l.txNext.isNone)

/-- The link carries host traffic (R328). -/
def Lse.usable (l : Lse) : Bool := l.established && !l.down

/-! ### The slots of link keys (R189, R323) -/

/-- The handle under which a slot holds key `k` of LSE `i`: 0 the link secret, 1 transmit, 2 receive, 3 transition. -/
def linkHandle (i k : Nat) : Nat := 0x000A0000 + 4 * i + k

/-- The handle under which a slot holds key `k` of HSE `i`. -/
def ideHandle (i k : Nat) : Nat := 0x000B0000 + 16 * i + k

/-- A pinned Link-class key in its slot: placed, replaced or erased as `want` says. -/
def State.pinLink (h : Nat) (want : Option (Nat × Bytes)) (s : State) : State :=
  let has (p : Nat × KeySlot) : Bool := decide (p.2.handle = h)
  match s.sbx.slots.find? has, want with
  | none, none => s
  | some p, some w =>
    if p.2.gen = w.1 ∧ p.2.material = w.2 then s
    else
      let t := { s with sbx := { s.sbx with slots := s.sbx.slots.filter fun q => !has q } }
      (t.placeKey { KeySlot.fresh h w.1 0 w.2 with cls := .link, pinned := true }).getD t
  | some _, none => { s with sbx := { s.sbx with slots := s.sbx.slots.filter fun q => !has q } }
  | none, some w => (s.placeKey { KeySlot.fresh h w.1 0 w.2 with cls := .link, pinned := true }).getD s

/-- A key that is there, with its generation. -/
def LinkDir.held (x : LinkDir) : Option (Nat × Bytes) := if x.key = [] then Option.none else some (x.kgen, x.key)

/-- The four slots of an LSE follow its keys. -/
def State.syncLink (i : Nat) (s : State) : State :=
  match s.lse[i]? with
  | none => s
  | some l =>
    (((s.pinLink (linkHandle i 0) (if l.secret = [] then none else some (0, l.secret))).pinLink (linkHandle i 1) l.tx.held).pinLink
      (linkHandle i 2) l.rx.held).pinLink (linkHandle i 3) ((l.txNext.orElse fun _ => l.rxNext).bind LinkDir.held)

/-! ### Sending (R321, R324, R328) -/

/-- A unit formed and put in the transmit buffer: sealed under the current transmit key, to which a transition ends first; CLEAR
while the link has no keys (R328). [DESIGN CHOICE: notes/assumptions/71.md] -/
def State.sendUnit (i : Nat) (u : UnitSpec) (s : State) : State :=
  match s.lse[i]? with
  | none => s
  | some l =>
    let dst := ((s.dom.peers.find? fun p => p.lse = i).map (·.chip)).getD l.peerChip
    if ¬ l.keyed then
      s.modLse i fun l => { l with txBuf := l.txBuf ++
        [{ bytes := clearHeader s.dom.chip dst i u.tc 0 1 0 ++ u.inner ++ u.data, stall := u.stall, outId := u.outId, ctrl := true }] }
    else
      let d := l.txNext.getD l.tx
      let seq := d.seq.getD u.tc 0
      let hdr := clearHeader s.dom.chip l.peerChip i u.tc d.kgen 0 seq
      let c := gcmSeal d.key (linkNonce s.dom.chip i u.tc d.kgen seq) hdr (u.inner ++ u.data)
      let d' := d.count u.tc (seq + 1) u.data.length
      let wear := d'.worn && !d.worn
      let t := (s.modLse i fun l => { l with
        tx := d', txNext := none
        wantTx := l.wantTx || (wear && decide (d.kgen < 255))
        txBuf := l.txBuf ++ [{ bytes := hdr ++ c.1 ++ c.2, stall := u.stall, outId := u.outId, ctrl := decide (u.kind = 7) }] }).syncLink i
      let t := if l.txNext.isSome then t.bump (ctrLse i 15) 1 else t
      let t := match u.stall with
        | some st => t.meter 1 st u.data.length
        | none => t
      let t := if u.kind = 7 then t.bump (ctrLse i 4) 1 else t
      if wear then t.event evKeyWear (unitLse i) none (unitLse i) d'.wear else t

/-- Bytes that wait in the transmit and receive buffers. -/
def Lse.txBytes (l : Lse) : Nat := (l.txBuf.map (·.bytes.length)).foldl (· + ·) 0
def Lse.rxBytes (l : Lse) : Nat := (l.rxBuf.map fun u => 32 + u.payload.length).foldl (· + ·) 0

/-! ### Windows (R327, R332, R333) -/

/-- The right a request kind needs. -/
def Window.permits (w : Window) (kind : Nat) : Bool := w.rights.testBit kind

/-- The window covers the whole range of a request. -/
def Window.covers (w : Window) (addr n : Nat) : Bool :=
  decide (w.base * 4096 ≤ addr ∧ addr + n ≤ (w.base + w.size) * 4096)

/-- The entry under which a request may leave (R328). -/
def State.windowFor (s : State) (stall dst kind addr n : Nat) : Option (Nat × Window) :=
  s.rwt.find? fun p => decide (p.2.reqStall = stall ∧ p.2.dst = dst) && p.2.permits kind && p.2.covers addr n

/-- Owed REVOKE_ACKs whose outbound requests have ended are sent (R333). -/
def State.ackRevokes (i : Nat) (s : State) : State :=
  match s.lse[i]? with
  | none => s
  | some l =>
    let ended (w : Nat) : Bool := !l.out.any fun o => decide (o.window = w)
    (l.revokes.filter ended).foldl (fun t w => t.sendUnit i (ctrlUnit 4 (leBytes 2 w)))
      (s.modLse i fun l => { l with revokes := l.revokes.filter fun w => !ended w })

/-- Every outbound request of an LSE is answered POISON. -/
def State.poisonLse (i : Nat) (s : State) : State :=
  match s.lse[i]? with
  | none => s
  | some l =>
    let t := (s.emits (l.out.map (poisonOut i l.peerChip))).modLse i fun l => { l with out := [] }
    l.out.foldl (fun t o => t.bumpStall o.stall 6 1) t

/-- The commands that wait for an answer over an LSE complete with ST_LINK_DOWN, and its revocations are over (R333). -/
def State.dropGrants (i : Nat) (s : State) : State :=
  let mine (g : Granted) : Bool := decide (g.lse = i) && (g.index.isNone || g.revoking.isSome)
  (s.granted.filter mine).foldl (fun t g => match g.call with
    | some c => t.finish c stLinkDown
    | none => t) { s with granted := s.granted.filter fun g => !mine g }

/-- An LSE enters DOWN (R333, R335, R336): its outbound requests are answered POISON, waiting commands end, EV_LSE_DOWN.
[DESIGN CHOICE: notes/assumptions/71.md] -/
def State.lseDown (i cause : Nat) (s : State) : State :=
  match s.lse[i]? with
  | none => s
  | some l =>
    if l.down then s else
      ((((s.poisonLse i).modLse i fun l => { l with down := true, txBuf := [], revokes := [] }).dropGrants i).event
        evLseDown (unitLse i) none i cause)

/-- The LSE's four slots are destroyed and the link has no keys (R336). [DEDUCED: notes/assumptions/65.md] -/
def Lse.unkey (l : Lse) : Lse :=
  { l with
    established := false, secret := [], estId := [], tx := LinkDir.none, rx := LinkDir.none
    txNext := none, rxNext := none, wantTx := false, wantRx := false, resyncDue := false, resync := false
    txBuf := [], rxBuf := [], inbound := [], revokes := [], forced := false }

/-- A resync rekey is asked for: both directions derive the next generation from the kept secret, lsN_lt_halt at 1 (R326). -/
def State.startResync (i : Nat) (s : State) : State :=
  s.modLse i fun l => if l.secret = [] then { l with forced := false } else
    { l with forced := true, wantTx := true, wantRx := true, resyncDue := true, txNext := none, rxNext := none }

/-! ### Keys of the link installed (R322, R324 to R326) -/

/-- A link secret installed: both directions start at KGEN 0 (R325, R375). The receive direction of a link that has keys goes
over at the peer's first unit; on a link that had none RESYNC is the first unit (R375, R326 steps 3 to 5). -/
def State.installSecret (i : Nat) (p : Peer) (secret estId : Bytes) (s : State) : State :=
  let had := ((s.lse[i]?).map Lse.keyed).getD false
  let t := (s.modLse i fun l =>
    let tx := LinkDir.start 0 (linkKey secret s.dom.chip p.chip i p.port 0 estId)
    let rx := LinkDir.start 0 (linkKey secret p.chip s.dom.chip p.port i 0 estId)
    { l with
      established := true, peerChip := p.chip, peerPort := p.port, secret, estId
      tx, rx := if had then l.rx else rx
      txNext := none, rxNext := if had then some rx else none
      wantTx := false, wantRx := false, resyncDue := false, resync := !had, forced := false }).syncLink i
  if had then t else t.sendUnit i (ctrlUnit 5 [])

/-! ### The join exchange over a link (R370, R374) -/

/-- The control units that carry one message (R374): fragments of 56 bytes, numbered from 0. -/
def fragments (sub : Nat) (msg : Bytes) : List UnitSpec :=
  let cs := chunks 56 msg
  (List.range cs.length).map fun k =>
    let b := cs.getD k []
    ctrlUnit sub (leBytes 2 k ++ leBytes 2 cs.length ++ leBytes 1 b.length ++ zeros 3 ++ b)

/-- A message sent as fragments, in order. -/
def State.sendMessage (i sub : Nat) (msg : Bytes) (s : State) : State := (fragments sub msg).foldl (fun t u => t.sendUnit i u) s

/-- An exchange that has begun. -/
def HybExchange.start (initiator : Bool) (purpose : Nat) (lse : Option Nat) (h1 : Bytes) (now : Nat) : HybExchange :=
  { initiator, purpose, stall := 0, inst := [], chip := 0, port := 0, owner := 0, standby := false, lse, h1, h2 := [], h3 := []
    chainOk := false, kEst := [], since := now }

/-- An exchange runs on an LSE; one that waits for its restart at a tick has no H1. -/
def State.joining (s : State) (i : Nat) : Bool := s.dom.exchanges.any fun x => decide (x.lse = some i ∧ x.h1 ≠ [])

/-- The join exchange starts on an LSE (R322: the initiator is the end with the lower logical chip ID): H1 with a fresh N_I and a
fresh key Q_I is sent. [DEDUCED: notes/assumptions/65.md] -/
def State.startJoin (i : Nat) (s : State) : State :=
  match s.dom.peers.find? fun p => p.lse = i with
  | none => s
  | some p =>
    if p.chip < s.dom.chip ∨ s.joining i then s else
      let h1 := leBytes 1 1 ++ leBytes 2 p.chip ++ leBytes 1 p.port ++ s.drawn 32 ++ s.tookDraw.drawn 97
      let x : HybExchange := { HybExchange.start true 1 (some i) h1 s.clk.elapsed with chip := p.chip, port := p.port }
      let t := s.tookDraw.tookDraw
      ({ t with dom := { t.dom with exchanges := (t.dom.exchanges.filter fun (y : HybExchange) => y.lse ≠ some i) ++ [x] } }).sendMessage i 8 h1

/-- Generation 255 is worn: a new establishment starts, and at its limit without one the LSE goes DOWN (R325); the event's second
argument is not stated for this cause, so it is a free value. -/
def State.renewLink (i : Nat) (s : State) : State :=
  match s.lse[i]? with
  | none => s
  | some l =>
    if l.down ∨ ¬ l.keyed then s
    else if l.tx.kgen = 255 ∧ l.tx.spent then s.tookDraw.lseDown i s.free
    else if (l.tx.kgen = 255 ∧ l.tx.worn) ∨ (l.rx.kgen = 255 ∧ l.rx.worn) then s.startJoin i
    else s

/-! ### Integrity failures (R335) -/

/-- An integrity failure of an LSE: counted, AL_INTEGRITY LINK, and DOWN at INTEG_LIMIT within 1 ms. -/
def State.lseFail (i check : Nat) (s : State) : State :=
  let now := s.clk.elapsed
  let recent := (((s.lse[i]?).map (·.failures)).getD []).filter fun t => now < t + 1000000
  let t := (s.modLse i fun l => { l with
    integCount := satAdd 65535 l.integCount 1
    failures := recent ++ [now] }).bump (ctrLse i 7) 1
  let t := t.alarmIntegrity (unitLse i) none none 2 (check + 32 * i)
  if t.cfg.engine.integLimit ≤ recent.length + 1 then t.lseDown i 1 else t

/-! ### Crosscheck (R338 to R341) -/

/-- The sampling block of an arrival. -/
def xckBlock (offset n : Nat) : Bytes := leBytes 4 offset ++ leBytes 1 n ++ zeros 11

/-- The pair is sampled. -/
def XckBinding.sampled (b : XckBinding) (offset n : Nat) : Bool :=
  decide (ofBe ((aesEnc b.kx (xckBlock offset n)).take 2) < 2 ^ (16 - b.rate))

/-- The digest of a sampled tile (R339). -/
def XckBinding.digest (b : XckBinding) (tile : Bytes) (nbytes : Nat) : Bytes :=
  let h := ofBe (aesEnc b.kx (zeros 16))
  (aesEnc b.kx (beBytes 16 (ghash h (padBlocks 16 tile ++ beBytes 8 0 ++ beBytes 8 (8 * nbytes))))).take 8

/-- v(x) of R340. -/
def ulpValue (x : Nat) : Int := if x < 2 ^ 31 then (x : Int) else -((x % 2 ^ 31 : Nat) : Int)

/-- The FP32 pattern is a NaN. -/
def isNan32 (x : Nat) : Bool := decide (x / 2 ^ 23 % 256 = 255 ∧ x % 2 ^ 23 ≠ 0)

/-- Elements of two tiles, with the index of the first failing pair and the largest distance (R340, R341).
[DEDUCED: notes/assumptions/52.md] -/
def xckElements (k : Nat) : Nat → List (Nat × Nat) → Option Nat × Nat
  | _, [] => (none, 0)
  | i, (a, b) :: rest =>
    let r := xckElements k (i + 1) rest
    if isNan32 a && isNan32 b then r
    else if isNan32 a || isNan32 b then (some i, r.2)
    else
      let d := (ulpValue a - ulpValue b).natAbs
      (if k < d then some i else r.1, max d r.2)

/-- The 4-byte words of a tile. -/
def tileWords (t : Bytes) : List Nat := (chunks 4 t).map ofLe

/-- The verdict of a pair: a match, or a mismatch with its element index and largest distance. Tiles of unlike length mismatch
without an element, so both values are open (R341). [DEDUCED: notes/assumptions/52.md] -/
def State.xckVerdict (s : State) (b : XckBinding) (x y : XckTile) : Option (Nat × Nat) :=
  if b.tolerance then
    if x.nbytes ≠ y.nbytes then some (s.free % 2 ^ 32, Config.choice (s.fresh + 1) % 2 ^ 32)
    else
      let r := xckElements b.k 0 ((tileWords x.data).zip (tileWords y.data))
      r.1.map fun e => (e, r.2)
  else if x.data = y.data then none else some (0, 0)

/-- Tiles the comparator holds (R339, R355). -/
def Xck.pending (x : Xck) : Nat :=
  (x.bindings.map fun p => if p.2.tolerance then p.2.waiting.length else 0).foldl (· + ·) 0

/-- One binding changed. -/
def State.modXck (b : Nat) (f : XckBinding → XckBinding) (s : State) : State :=
  { s with xck := { s.xck with bindings := s.xck.bindings.map fun p => if p.1 = b then (p.1, f p.2) else p } }

/-- A sampled pair is complete (R341). [DEDUCED: notes/assumptions/52.md] -/
def State.xckCompare (n : Nat) (b : XckBinding) (first second : XckTile) (s : State) : State :=
  let t := s.modXck n fun b => { b with waiting := b.waiting.erase first }
  match s.xckVerdict b first second with
  | none => (t.modXck n fun b => { b with compared := satAdd 65535 b.compared 1 }).bump (ctrXck 2) 1
  | some (e, d) =>
    let a := if first.sideB then second else first
    let z := if first.sideB then first else second
    let u := ({ t with fresh := t.fresh + 2 }.modXck n fun b => { b with mismatch := satAdd 65535 b.mismatch 1 }).bump (ctrXck 3) 1
    let u := u.event evXckMismatch unitCrosscheck (some b.stall)
      (n + first.n % 256 * 2 ^ 8 + first.offset * 2 ^ 16 + a.src * 2 ^ 32 + z.src * 2 ^ 48) (e + d * 2 ^ 32)
    if b.action then u.alarmIntegrity unitCrosscheck (some b.stall) (some b.stall) 4 (n + first.offset * 2 ^ 16) else u

/-- An arrival in one window of a binding (R338, R339). -/
def State.xckArrive (lse n : Nat) (b : XckBinding) (sideB : Bool) (offset src nbytes : Nat) (tile : Bytes) (s : State) : State :=
  let c := (assocGet offset b.arrivals).getD (0, 0)
  let k := ((if sideB then c.2 else c.1) + 1) % 256
  let c' := if sideB then (c.1, k) else (k, c.2)
  let t := (s.modXck n fun b => { b with arrivals := assocSet offset c' b.arrivals }).bump (ctrXck 0) 1
  if ¬ b.sampled offset k then t else
    let t := (t.bump (ctrXck 1) 1).bump (ctrLse lse 14) 1
    let x : XckTile :=
      { sideB, offset, n := k, src, nbytes, since := t.clk.elapsed
        data := if b.tolerance then tile else b.digest tile nbytes }
    match b.waiting.find? fun w => w.offset = offset ∧ w.n = k ∧ w.sideB ≠ sideB with
    | some w => t.xckCompare n b w x
    | none =>
      if b.tolerance ∧ 32 ≤ t.xck.pending then
        (t.modXck n fun b => { b with unsampled := satAdd 65535 b.unsampled 1 }).bump (ctrXck 5) 1
      else t.modXck n fun b => { b with waiting := b.waiting ++ [x] }

/-- A verified bulk tile unit meets every binding (R338). -/
def State.xckUnit (lse src addr nbytes : Nat) (tile : Bytes) (s : State) : State :=
  s.xck.bindings.foldl (fun t p =>
    let inside (w : Nat) : Bool := decide (w ≤ addr ∧ addr + nbytes ≤ w + p.2.tiles * 4096)
    let b := (assocGet p.1 t.xck.bindings).getD p.2
    if inside p.2.winA then t.xckArrive lse p.1 b false ((addr - p.2.winA) / 4096) src nbytes tile
    else if inside p.2.winB then t.xckArrive lse p.1 b true ((addr - p.2.winB) / 4096) src nbytes tile
    else t) s

end Sys2Proof.Machine
end

