-- ==== Sys2Proof/Machine/Links.lean ====
section
/-!
DEFINITION. The commands of the link and host engines and of Crosscheck (spec/11_link_sealing_engines.md).
-/

namespace Sys2Proof.Machine

/-! ### Requests of the host side (R328, R330) -/

/-- The size and alignment of a request (R319). -/
def linkSizeOk (kind addr nbytes : Nat) : Bool :=
  if kind = 3 then decide (nbytes % 128 = 0 ∧ 128 ≤ nbytes ∧ nbytes ≤ 4096 ∧ addr % 128 = 0 ∧ addr % 4096 + nbytes ≤ 4096)
  else decide (1 ≤ nbytes ∧ nbytes ≤ 128 ∧ addr % 128 + nbytes ≤ 128)

/-- lsN_ht_ready outside the quiet state (R91, R132, R135, R324, R328). -/
def State.lseReady (s : State) (i : Nat) (l : Lse) (request : Bool) (n : Nat) : Bool :=
  s.dataOpen && !s.inUnitReset (unitLse i) && decide (l.txBytes + 48 + n ≤ 32768) &&
    !(request && decide (1024 ≤ l.out.length)) && !(l.keyed && l.tx.spent && l.txNext.isNone)

/-- A request refused: REFUSED_COUNT and the answer (R328, R350). -/
def State.lseRefuse (i : Nat) (l : Lse) (o : OutReq) (s : State) : State :=
  (((s.modLse i fun l => { l with refusedCount := satAdd 65535 l.refusedCount 1 }).emit
    (answerOut i l.peerChip .refused o)).bump (ctrLse i 8) 1).bumpStall o.stall 4 1

/-- LSE_TX_REQUEST (R328): a request of KIND 0 to 3 taken whole is checked in the order of R328 and sealed, or refused. -/
def execLseTxRequest (l kind stall dst tc addr id nbytes : Nat) (data : Bytes) (s : State) :
    Host.Outcome State Fault Refusal :=
  onLse l s fun e t =>
    let o : OutReq := { id, kind, stall, nbytes, window := 0, tc, sentAt := none }
    if t.quietOpen then (t.emit (answerOut l e.peerChip .poison o)).bumpStall stall 6 1
    else if ¬ t.lseReady l e true nbytes ∨ 4 ≤ kind ∨ 4 ≤ tc then t
    else if e.out.any fun x => x.id = id then t.lseRefuse l e o
    else if ¬ e.usable ∨ ¬ t.ald.full then t.lseRefuse l e o
    else if dst ≠ e.peerChip then t.lseRefuse l e o
    else if ¬ linkSizeOk kind addr nbytes ∨ 2 ^ 44 ≤ addr then t.lseRefuse l e o
    else if e.spine.refused.contains stall ∨ t.refusesStall stall then t.lseRefuse l e o
    else match t.windowFor stall dst kind addr nbytes with
      | none =>
        let u := t.lseRefuse l e o
        if e.windowRaised then u
        else (u.modLse l fun x => { x with windowRaised := true }).event evLseWindow (unitLse l) (some stall) l
          (satAdd 65535 e.refusedCount 1)
      | some (k, w) =>
        (t.modLse l fun x => { x with out := x.out ++ [{ o with window := k }] }).sendUnit l
          { kind, sub := 0, tstall := w.tstall, id, nbytes, addr, tc, data := if kind = 0 then [] else (padTo nbytes data).take nbytes
            stall := some stall, outId := some id }

/-- LSE_HOST_RESPONSE (R329): matched by ID and kind to an inbound request, sealed back to the peer, or an orphan. -/
def execLseHostResponse (l kind id st : Nat) (data : Bytes) (s : State) : Host.Outcome State Fault Refusal :=
  onLse l s fun e t =>
    if t.quietOpen ∨ ¬ t.lseReady l e false data.length then t
    else match e.inbound.find? fun r => r.id = id ∧ respKind r.kind = kind with
      | none => t.modLse l fun x => { x with orphanCount := satAdd 255 x.orphanCount 1 }
      | some r =>
        let d := if kind < 6 ∧ st % 4 = 0 then (padTo r.nbytes data).take r.nbytes else []
        (t.modLse l fun x => { x with inbound := x.inbound.eraseP (· = r) }).sendUnit l
          { kind, sub := st % 4, tstall := 0, id, nbytes := if kind < 6 then r.nbytes else 0, addr := 0, tc := r.tc, data := d
            stall := none, outId := none }

/-- LSE_UNIT_SENT (R70): the first unit of the transmit buffer leaves; T_DEAD of its request starts (R330). -/
def execLseUnitSent (l : Nat) (s : State) : Host.Outcome State Fault Refusal :=
  onLse l s fun e t =>
    if t.alr.quiet ∨ t.rst.dataClosed ∨ e.halts ∨ t.inUnitReset (unitLse l) ∧ e.forced then t
    else match e.txBuf with
      | [] => t
      | u :: rest =>
        let v := (t.emit (.lt l u.bytes)).modLse l fun x => { x with
          txBuf := rest
          out := x.out.map fun o => if some o.id = u.outId ∧ o.sentAt.isNone then { o with sentAt := some t.clk.elapsed } else o }
        let v := (v.bump (ctrLse l 0) 1).bump (ctrLse l 1) u.bytes.length
        (match u.stall with
        | some st => v.bumpStall st 7 1
        | none => v).renewLink l

/-- LSE_DEAD_TARGET (R330): a request without a response within T_DEAD is answered POISON. -/
def execLseDeadTarget (l id : Nat) (s : State) : Host.Outcome State Fault Refusal :=
  onLse l s fun e t =>
    match e.out.find? fun o => o.id = id with
    | none => t
    | some o =>
      match o.sentAt with
      | none => t
      | some at_ =>
        if ¬ t.expired at_ (t.cfg.engine.tDead * 1000) then t else
          let u := (t.emit (poisonOut l e.peerChip o)).modLse l fun x => { x with
            out := x.out.eraseP (· = o), deadCount := satAdd 255 x.deadCount 1, deadRaised := true }
          let u := ((u.bump (ctrLse l 9) 1).bumpStall o.stall 10 1).bumpStall o.stall 6 1
          (if e.deadRaised then u else u.event evLseDead (unitLse l) none l e.peerChip).ackRevokes l

/-! ### Receive (R334, R335) -/

/-- A unit counted as lost (R334, R326). -/
def State.lseLost (i n : Nat) (s : State) : State :=
  (s.modLse i fun l => { l with lostCount := satAdd 65535 l.lostCount n }).bump (ctrLse i 6) n

/-- The inner header and data of a unit as a received unit. -/
def rxUnit (src tc : Nat) (pt : Bytes) : RxUnit :=
  { kind := leField pt 0 1, sub := leField pt 1 1, tc, src, id := leField pt 4 2, addr := leField pt 8 8
    tstall := leField pt 2 2, nbytes := leField pt 6 2, payload := pt.drop 16 }

/-- The inner header keeps its rules and the length is the kind's (R318, R319). -/
def RxUnit.formed (u : RxUnit) : Bool :=
  let d := u.payload.length
  decide (u.kind < 8 ∧ u.tstall < 4096 ∧ u.addr < 2 ^ 44) &&
    (match u.kind with
    | 0 => decide (d = 0 ∧ u.sub = 0) && linkSizeOk 0 u.addr u.nbytes
    | 1 => decide (d = u.nbytes ∧ u.sub = 0) && linkSizeOk 1 u.addr u.nbytes
    | 2 => decide (d = u.nbytes ∧ u.sub = 0) && linkSizeOk 2 u.addr u.nbytes
    | 3 => decide (d = u.nbytes ∧ u.sub = 0) && linkSizeOk 3 u.addr u.nbytes
    | 6 => decide (d = 0 ∧ u.sub < 4 ∧ u.addr = 0 ∧ u.tstall = 0)
    | 7 => decide (d ≤ 64 ∧ u.addr = 0 ∧ u.tstall = 0)
    | _ => decide ((d = if u.sub = 0 then u.nbytes else 0) ∧ u.sub < 4 ∧ u.addr = 0 ∧ u.tstall = 0))

/-- Received Mark units that wait (R385). -/
def State.markQueue (s : State) : Nat :=
  (s.lse.map fun l => (l.rxBuf.filter fun u => u.kind = 7 ∧ (u.sub = 6 ∨ u.sub = 7)).length).foldl (· + ·) 0

/-- A verified unit is accepted (R334): counted, compared where it is a bulk tile, and held for its presentation. -/
def State.lseAccept (i bytes : Nat) (u : RxUnit) (s : State) : State :=
  let t := (s.modLse i fun l => { l with rxBuf := l.rxBuf ++ [u] }).bump (ctrLse i 2) 1
  let t := t.bump (ctrLse i 3) bytes
  let t := if u.kind = 7 then t.bump (ctrLse i 5) 1 else t.bumpStall u.tstall 9 1
  let t := t.meter 1 u.tstall u.payload.length
  if u.kind = 3 then t.xckUnit i u.src u.addr u.nbytes u.payload else t

/-- The unit's SEQ against the expected one of its class, and the acceptance (R334). -/
def State.lseSequence (i bytes tc seq : Nat) (d : LinkDir) (next : Bool) (u : RxUnit) (s : State) : State :=
  let want := d.seq.getD tc 0
  if seq < want then s.lseFail i 2
  else
    let d' := d.count tc (seq + 1) u.payload.length
    let t := (s.modLse i fun l =>
      { l with
        rx := d', rxNext := if next then none else l.rxNext, resync := false
        wantRx := l.wantRx || (d'.worn && !d.worn && decide (d.kgen < 255)) }).syncLink i
    let t := if next then t.bump (ctrLse i 15) 1 else t
    let t := if want < seq then
        let v := t.lseLost i (seq - want)
        if ((v.lse[i]?).map (·.gapRaised)).getD true then v
        else (v.modLse i fun l => { l with gapRaised := true }).event evLseGap (unitLse i) none i (seq - want)
      else t
    t.lseAccept i bytes u

/-- The key checks and what follows them. -/
def State.lseOpen (i : Nat) (l : Lse) (unit : Bytes) (d : LinkDir) (next : Bool) (s : State) : State :=
  let src := leField unit 0 2
  let tc := leField unit 4 1 / 64
  let port := leField unit 4 1 % 64
  let seq := leField unit 8 8
  let n := unit.length
  match gcmOpen d.key (linkNonce src port tc d.kgen seq) (unit.take 16) (slice unit 16 (n - 32)) (unit.drop (n - 16)) with
  | none => if l.resync then s.lseLost i 1 else s.lseFail i 1
  | some pt =>
    let u := rxUnit src tc pt
    if ¬ u.formed then s.lseFail i 6
    else if u.kind = 7 ∧ (u.sub = 6 ∨ u.sub = 7) ∧ 256 ≤ s.markQueue then s
    else s.lseSequence i n tc seq d next u

/-- The checks of R334 from ADDRESSING on, for a unit that is not CLEAR. -/
def State.lseSealed (i : Nat) (l : Lse) (unit : Bytes) (s : State) : State :=
  let kgen := leField unit 5 1
  if leField unit 0 2 ≠ l.peerChip ∨ leField unit 2 2 ≠ s.dom.chip ∨ leField unit 4 1 % 64 ≠ l.peerPort ∨ ¬ l.keyed then
    s.lseFail i (if l.keyed then 4 else 3)
  else if (l.rxNext.map (·.kgen)) = some kgen ∧ l.rx.kgen ≠ kgen then s.lseOpen i l unit (l.rxNext.getD l.rx) true
  else if l.resync ∧ kgen ≠ l.rx.kgen then s.lseLost i 1
  else if kgen = l.rx.kgen then s.lseOpen i l unit l.rx false
  else if kgen = l.rx.kgen + 1 then s.modLse i fun l => { l with wantRx := true }
  else s.lseFail i 3

/-- LSE_RX_UNIT (R334): the checks in their order. A CLEAR unit passes only while the link has no keys; its exchange is
authenticated by its own signatures (R328). -/
def execLseRxUnit (l : Nat) (unit : Bytes) (err : Bool) (s : State) : Host.Outcome State Fault Refusal :=
  onLse l s fun e t =>
    if t.rst.phase ≠ .service ∨ t.rst.rstBusy ∨ t.ald.noAlmanac then t
    else if t.alr.quiet ∨ e.down then t
    else if t.inUnitReset (unitLse l) ∨ 32768 < e.rxBytes + unit.length then t
    else if err then t.lseLost l 1
    else if leField unit 6 1 ≠ 1 ∨ 2 ≤ leField unit 7 1 ∨ unit.length < 32 ∨ 4144 < unit.length ∨
        (leField unit 7 1 = 0 ∧ unit.length < 48) then t.lseFail l 6
    else if leField unit 7 1 = 1 then
      if e.keyed then t.lseFail l 5
      else
        let u := rxUnit (leField unit 0 2) (leField unit 4 1 / 64) (unit.drop 16)
        if u.kind = 7 ∧ 8 ≤ u.sub ∧ u.sub ≤ 12 ∧ u.payload.length ≤ 64 then t.lseAccept l unit.length u else t.lseFail l 6
    else (t.lseSealed l e unit).renewLink l

/-- The first received unit that goes to the host side. -/
def Lse.firstHost (l : Lse) : Option RxUnit := l.rxBuf.find? fun u => u.kind < 7

/-- The first received control unit with one of the subtypes, taken out. -/
def Lse.control (l : Lse) (subs : List Nat) : Option RxUnit := l.rxBuf.find? fun u => u.kind = 7 ∧ subs.contains u.sub

/-- A received unit leaves the buffer. -/
def State.dropRx (i : Nat) (u : RxUnit) (s : State) : State := s.modLse i fun l => { l with rxBuf := l.rxBuf.eraseP (· = u) }

/-- LSE_RX_REQUEST (R329): the verified request in front goes to the host network with TSTALL and ADDR, while the table of inbound
requests has room. -/
def execLseRxRequest (l : Nat) (s : State) : Host.Outcome State Fault Refusal :=
  onLse l s fun e t =>
    match e.firstHost with
    | none => t
    | some u =>
      if 4 ≤ u.kind ∨ 1024 ≤ e.inbound.length ∨ t.alr.quiet then t else
        ((t.dropRx l u).modLse l fun x => { x with
          inbound := x.inbound ++ [{ id := u.id, kind := u.kind, nbytes := u.nbytes, tc := u.tc }] }).emit
          (.hr l u.kind u.src u.tc u.addr u.id .ok u.tstall u.payload)

/-- The port status of a two-bit code (R60). -/
def portStatus (c : Nat) : PortStatus :=
  if c = 0 then .ok else if c = 1 then .refused else if c = 2 then .integrity else .poison

/-- LSE_RX_RESPONSE (R329): the verified response in front answers its outbound request; a late one is an orphan (R330). -/
def execLseRxResponse (l : Nat) (s : State) : Host.Outcome State Fault Refusal :=
  onLse l s fun e t =>
    match e.firstHost with
    | none => t
    | some u =>
      if u.kind < 4 ∨ t.alr.quiet then t else
        let v := t.dropRx l u
        match e.out.find? fun o => o.id = u.id ∧ respKind o.kind = u.kind with
        | none => v.modLse l fun x => { x with orphanCount := satAdd 255 x.orphanCount 1 }
        | some o =>
          let st := portStatus u.sub
          ((v.modLse l fun x => { x with out := x.out.eraseP (· = o) }).emit
            (.hr l u.kind u.src u.tc 0 u.id st 0 (if st = .ok then u.payload else onesData (badBytes o.kind o.nbytes)))).ackRevokes l

/-! ### Keys (R324, R326) -/

/-- LINK_KEY_DERIVED (R324, R326): the key of the next generation is installed in the transition slot, which the other direction
must have left; in a resync both directions go over, and with the second one lsN_lt_halt falls and RESYNC leaves. -/
def execLinkKeyDerived (l : Nat) (tx : Bool) (s : State) : Host.Outcome State Fault Refusal :=
  onLse l s fun e t =>
    let me := t.dom.chip
    let key (g : Nat) : Bytes :=
      if tx then linkKey e.secret me e.peerChip l e.peerPort g e.estId else linkKey e.secret e.peerChip me e.peerPort l g e.estId
    if e.secret = [] ∨ ¬ (if tx then e.wantTx else e.wantRx) then t
    else if e.resyncDue ∧ 255 ≤ max e.tx.kgen e.rx.kgen then
      (t.modLse l fun x => { x with wantTx := false, wantRx := false, resyncDue := false, forced := false }).startJoin l
    else if e.resyncDue then
      let t := t.bump (ctrSbx 2) 1
      let g := max e.tx.kgen e.rx.kgen + 1
      let u := (t.modLse l fun x =>
        if tx then { x with txNext := some (LinkDir.start g (key g)), wantTx := false }
        else { x with rxNext := some (LinkDir.start g (key g)), wantRx := false })
      let both : Bool := if tx then !e.wantRx else !e.wantTx
      if ¬ both then u else
        ((u.modLse l fun x => { x with
          tx := x.txNext.getD x.tx, rx := x.rxNext.getD x.rx, txNext := none, rxNext := none
          established := true, forced := false, resyncDue := false, resync := true }).syncLink l).sendUnit l (ctrlUnit 5 [])
    else if (if tx then e.rxNext.isSome else e.txNext.isSome) then t
    else
      let g := if e.tx.worn then e.tx.kgen + 1 else max (e.tx.kgen + 1) e.rx.kgen
      ((t.bump (ctrSbx 2) 1).modLse l fun x =>
      if tx then { x with txNext := some (LinkDir.start g (key g)), wantTx := false }
      else { x with rxNext := some (LinkDir.start (e.rx.kgen + 1) (key (e.rx.kgen + 1))), wantRx := false }).syncLink l

/-- RESYNC_RECEIVE (R326 step 5): the transmit direction goes over at its next unit boundary to the generation RESYNC came under,
unless it is there already (R375). -/
def execResyncReceive (l : Nat) (s : State) : Host.Outcome State Fault Refusal :=
  onLse l s fun e t =>
    match e.control [5] with
    | none => t
    | some u => (t.dropRx l u).modLse l fun x => { x with wantTx := x.wantTx || (x.txNext.isNone && decide (x.tx.kgen < x.rx.kgen)) }

/-! ### Windows (R332, R333) -/

/-- The first free entry of the Remote Window Table. -/
def State.freeWindow (s : State) : Option Nat := firstFree s.rwt 0 1024

/-- GRANT_RECEIVE (R332 step 5). -/
def execGrantReceive (l : Nat) (s : State) : Host.Outcome State Fault Refusal :=
  onLse l s fun e t =>
    match e.control [1] with
    | none => t
    | some u =>
      let p := u.payload
      let v := t.dropRx l u
      match v.freeWindow with
      | none => v.sendUnit l (ctrlUnit 2 (leBytes 2 0xFFFF))
      | some k =>
        let w : Window :=
          { reqStall := leField p 0 2 % 4096, dst := e.peerChip, tstall := leField p 2 2 % 4096
            base := leField p 8 4, size := leField p 12 4, rights := leField p 4 1 % 16 }
        { v with rwt := assocSet k w v.rwt }.sendUnit l (ctrlUnit 2 (leBytes 2 k))

/-- GRANT_ACK_RECEIVE (R332 step 6): the oldest grant sent over the LSE completes. -/
def execGrantAckReceive (l : Nat) (s : State) : Host.Outcome State Fault Refusal :=
  onLse l s fun e t =>
    match e.control [2] with
    | none => t
    | some u =>
      let v := t.dropRx l u
      let k := leField u.payload 0 2
      match v.granted.find? fun g => g.lse = l ∧ g.index.isNone with
      | none => v
      | some g =>
        if k = 0xFFFF then
          let w := { v with granted := v.granted.erase g }
          match g.call with | some c => w.finish c stWindowFull | none => w
        else
          let g' : Granted := { g with index := some k, call := none }
          let w := { v with granted := v.granted.map fun x => if x = g then g' else x }
          match g.call with | some c => w.finishOk c (leBytes 2 k) | none => w

/-- REVOKE_RECEIVE (R333 steps 2 to 4). -/
def execRevokeReceive (l : Nat) (s : State) : Host.Outcome State Fault Refusal :=
  onLse l s fun e t =>
    match e.control [3] with
    | none => t
    | some u =>
      let k := leField u.payload 0 2
      let v := t.dropRx l u
      let mine : Bool := ((assocGet k v.rwt).map fun w => decide (w.dst = e.peerChip)).getD false
      ({ v with rwt := if mine then assocDel k v.rwt else v.rwt }.modLse l fun x => { x with revokes := x.revokes ++ [k] }).ackRevokes l

/-- REVOKE_ACK_RECEIVE (R333 step 5). -/
def execRevokeAckReceive (l : Nat) (s : State) : Host.Outcome State Fault Refusal :=
  onLse l s fun e t =>
    match e.control [4] with
    | none => t
    | some u =>
      let v := t.dropRx l u
      match v.granted.find? fun g => g.lse = l ∧ g.revoking.isSome ∧ g.index = some (leField u.payload 0 2) with
      | none => v
      | some g =>
        let w := { v with granted := v.granted.erase g }
        match g.call with | some c => w.finish c stOk | none => w

/-- REVOKE_TIMEOUT (R333): no REVOKE_ACK within 4 × T_DEAD; the LSE is DOWN and the revocation completes. -/
def execRevokeTimeout (l : Nat) (s : State) : Host.Outcome State Fault Refusal :=
  onLse l s fun _ t =>
    if t.granted.any fun g => decide (g.lse = l) && (g.revoking.map fun r => t.expired r (4 * t.cfg.engine.tDead * 1000)).getD false
    then t.lseDown l 2 else t

/-- A revocation begins (R333 step 1). -/
def State.startRevoke (g : Granted) (call : Option Call) (s : State) : State :=
  match g.index with
  | none => s
  | some k =>
    let g' : Granted := { g with revoking := some s.clk.elapsed, call }
    ({ s with granted := s.granted.map fun x => if x = g then g' else x }).sendUnit g.lse (ctrlUnit 3 (leBytes 2 k))

/-- The regions from byte `lo` up to byte `hi` are SEALED and owned by a Stall. -/
def State.ownsSealed (s : State) (stall lo hi : Nat) : Bool :=
  (List.range ((hi - 1) / regionBytes + 1 - lo / regionBytes)).all fun k =>
    match s.regionOf (regionBytes * (lo / regionBytes + k)) with
    | none => false
    | some r => decide ((s.entry r).state = .sealed ∧ (s.entry r).owner = stall)

/-- WINDOW_GRANT (R332). -/
def execWindowGrant (c : Call) (reqChip reqStall rights base size : Nat) (s : State) : Host.Outcome State Fault Refusal :=
  done (s.command c 0x0501 fun t =>
    if 4096 ≤ reqStall then t.badArg c 2
    else if 16 ≤ rights then t.badArg c 4
    else if size = 0 ∨ 2 ^ 20 < size then t.badArg c 12
    else if ¬ t.ownsSealed c.stall (base * 4096) ((base + size) * 4096) then t.finish c stRegionState
    else match (t.lse.zipIdx).find? fun p => p.1.peerChip = reqChip ∧ p.1.usable with
      | none => t.finish c stLinkDown
      | some (_, l) =>
        let g : Granted :=
          { lse := l, reqChip, index := none, stall := c.stall, reqStall, base, size, rights, call := some c, revoking := none }
        { t with granted := t.granted ++ [g] }.sendUnit l
          (ctrlUnit 1 (leBytes 2 reqStall ++ leBytes 2 c.stall ++ leBytes 1 rights ++ zeros 3 ++ leBytes 4 base ++ leBytes 4 size)))

/-- WINDOW_REVOKE (R333): over an LSE that is DOWN the revocation is over at once (R346). -/
def execWindowRevoke (c : Call) (reqChip index : Nat) (s : State) : Host.Outcome State Fault Refusal :=
  done (s.command c 0x0502 fun t =>
    match t.granted.find? fun g => g.reqChip = reqChip ∧ g.index = some index ∧ g.stall = c.stall ∧ g.revoking.isNone with
    | none => t.badArg c 2
    | some g =>
      if ((t.lse[g.lse]?).map (·.usable)).getD false then t.startRevoke g (some c)
      else { t with granted := t.granted.erase g }.finish c stLinkDown)

/-- LINK_RESET (R336): the slots destroyed, the windows cleared, outbound requests answered POISON, no keys; the join exchange then
establishes the link again. [DEDUCED: notes/assumptions/65.md] -/
def execLinkReset (c : Call) (lse : Nat) (s : State) : Host.Outcome State Fault Refusal :=
  done (s.command c 0x0503 fun t =>
    match t.lse[lse]? with
    | none => t.finish c stAbsent
    | some l =>
      let u := (t.poisonLse lse).dropGrants lse
      let u := { u with
        rwt := u.rwt.filter fun p => p.2.dst ≠ l.peerChip
        granted := u.granted.filter fun g => g.lse ≠ lse
        dom := { u.dom with exchanges := u.dom.exchanges.filter fun x => x.lse ≠ some lse } }
      ((((u.modLse lse fun x => { x.unkey with down := false }).syncLink lse).startJoin lse).finish c stOk))

/-! ### Host Sealing Engines (R342 to R345) -/

/-- The state of a stream: 0 PCIe or CXL.io, 1 CXL.cachemem. -/
def Hse.stream (h : Hse) (k : Nat) : Nat := if k = 1 then h.cacheState else h.state

/-- The active key of a stream and a direction. -/
def Hse.active (h : Hse) (k : Nat) (tx : Bool) : Option IdeKey :=
  h.keys.find? fun x => x.stream = k ∧ x.dirTx = tx ∧ x.keySet = (if k = 1 then h.cacheSet else h.keySet)

/-- The streams of a TLP or flit: kind 0 a configuration request, its completion or a Message without data, 1 any other TLP,
2 a CXL.cachemem flit. -/
def tlpStream (kind : Nat) : Nat := if kind = 2 then 1 else 0

/-- AES blocks of a TLP of `n` bytes under its key. -/
def tlpBlocks (n : Nat) : Nat := ceilDiv n 16 + 1

/-- hsN_tl_halt apart from the quiet state and a level-3 partition reset (R133, R345). -/
def Hse.halts (h : Hse) : Bool :=
  h.forced || h.keys.any fun k => k.dirTx && decide (2 ^ 44 ≤ k.blocks ∧ k.keySet = (if k.stream = 1 then h.cacheSet else h.keySet))

/-- Blocks counted under a stream's active key; at 75% of the limit EV_KEY_WEAR, once per key (R345). -/
def State.ideCount (i k : Nat) (tx : Bool) (n : Nat) (s : State) : State :=
  match (s.hse[i]?).bind fun h => h.active k tx with
  | none => s
  | some x =>
    let b := x.blocks + n
    let wear : Bool := decide (3 * 2 ^ 42 ≤ b) && !x.wearRaised
    let t := s.modHse i fun h => { h with keys := h.keys.map fun y => if y = x then { x with blocks := b, wearRaised := x.wearRaised || wear } else y }
    if wear then t.event evKeyWear (unitHse i) none (unitHse i) (min 100 (b * 100 / 2 ^ 44)) else t

/-- A TLP or flit discarded and counted (R344). -/
def State.hseDrop (i : Nat) (s : State) : State :=
  (s.modHse i fun h => { h with dropped := satAdd 65535 h.dropped 1 }).bump (ctrHse i 5) 1

/-- HSE_TX_TLP (R344): sealed in its stream, passed where R344 lets it pass before the stream is secure, or discarded. `secured` is
the TLP as its IDE stream carries it, in the form of the standards R342 names. -/
def execHseTxTlp (h kind : Nat) (data secured : Bytes) (s : State) : Host.Outcome State Fault Refusal :=
  onHse h s fun e t =>
    if t.quietOpen then t.emit (.rt h (onesData data.length))
    else if ¬ t.dataOpen ∨ t.inUnitReset (unitHse h) ∨ e.halts then t
    else
      let k := tlpStream kind
      if e.stream k = 1 then
        let u := (t.ideCount h k true (tlpBlocks data.length)).emit (.tl h true secured)
        ((u.bump (ctrHse h 0) 1).bump (ctrHse h 1) secured.length).meter 2 0 data.length
      else if kind = 0 then ((t.emit (.tl h false data)).bump (ctrHse h 0) 1).bump (ctrHse h 1) data.length
      else t.hseDrop h

/-- HSE_RX_TLP (R344, R345): a TLP of its secure stream is released after its MAC verifies; a MAC failure makes the stream
Insecure; traffic outside a stream passes only as R344 lets it. -/
def execHseRxTlp (h kind : Nat) (inStream macOk err : Bool) (data : Bytes) (s : State) : Host.Outcome State Fault Refusal :=
  onHse h s fun e t =>
    let k := tlpStream kind
    if t.rst.phase ≠ .service ∨ t.rst.rstBusy ∨ t.ald.noAlmanac ∨ t.inUnitReset (unitHse h) then t
    else if t.alr.quiet ∨ err then t
    else if e.stream k = 1 then
      if ¬ inStream then t.hseDrop h
      else if macOk then
        let u := (t.ideCount h k false (tlpBlocks data.length)).emit (.rt h data)
        ((u.bump (ctrHse h 2) 1).bump (ctrHse h 3) data.length).meter 2 0 data.length
      else
        let u := (t.modHse h fun x =>
          if k = 1 then { x with cacheState := 2, macFail := satAdd 65535 x.macFail 1 }
          else { x with state := 2, macFail := satAdd 65535 x.macFail 1 }).bump (ctrHse h 4) 1
        (u.alarmIntegrity (unitHse h) none none 2 (1 + 16 + 32 * h)).event evHseInsecure (unitHse h) none h 0
    else if kind = 0 ∧ ¬ inStream then ((t.emit (.rt h data)).bump (ctrHse h 2) 1).bump (ctrHse h 3) data.length
    else t.hseDrop h

/-! ### Crosscheck (R337, R341) -/

/-- The two windows of a binding do not overlap. -/
def windowsApart (a b tiles : Nat) : Bool := decide (a + tiles * 4096 ≤ b ∨ b + tiles * 4096 ≤ a)

/-- The regions from `lo` up to `hi` belong to a Stall. -/
def State.ownsRange (s : State) (stall lo hi : Nat) : Bool :=
  (List.range ((hi - 1) / regionBytes + 1 - lo / regionBytes)).all fun k =>
    match s.regionOf (regionBytes * (lo / regionBytes + k)) with
    | none => false
    | some r => decide ((s.entry r).owner = stall ∧ (s.entry r).state ≠ .free)

/-- XCK_BIND (R337). -/
def execXckBind (c : Call) (winA winB tiles mode k rate action : Nat) (s : State) : Host.Outcome State Fault Refusal :=
  done (s.command c 0x0504 fun t =>
    if tiles = 0 ∨ 4096 < tiles then t.badArg c 16
    else if 1 < mode then t.badArg c 18
    else if 15 < rate then t.badArg c 20
    else if 1 < action then t.badArg c 21
    else match firstFree t.xck.bindings 0 8 with
      | none => t.finish c stXckFull
      | some n =>
        if winA % 4096 ≠ 0 ∨ winB % 4096 ≠ 0 ∨ ¬ windowsApart winA winB tiles ∨ ¬ t.ownsRange c.stall winA (winA + tiles * 4096) ∨
            ¬ t.ownsRange c.stall winB (winB + tiles * 4096) then t.finish c stRegionState
        else t.withEntropy c fun u =>
          let b : XckBinding :=
            { stall := c.stall, winA, winB, tiles, tolerance := mode = 1, k, rate, action := action = 1, kx := u.drawn 32
              arrivals := [], waiting := [], compared := 0, mismatch := 0, unsampled := 0, unpaired := 0, raised := false }
          ({ u.tookDraw with xck := { u.xck with bindings := assocSet n b u.xck.bindings } }).finishOk c (leBytes 1 n))

/-- XCK_UNBIND (R337): the binding and its pending comparisons are dropped. -/
def execXckUnbind (c : Call) (binding : Nat) (s : State) : Host.Outcome State Fault Refusal :=
  done (s.command c 0x0505 fun t =>
    match assocGet binding t.xck.bindings with
    | none => t.badArg c 0
    | some b => if b.stall ≠ c.stall then t.badArg c 0
      else { t with xck := { t.xck with bindings := assocDel binding t.xck.bindings } }.finish c stOk)

/-- XCK_UNPAIRED_TIMEOUT (R341): the oldest digest or tile of a binding whose pair has not come within T_XCK is dropped. -/
def execXckUnpairedTimeout (binding : Nat) (s : State) : Host.Outcome State Fault Refusal :=
  let t := s.begin
  done (match assocGet binding t.xck.bindings with
    | none => t
    | some b =>
      match b.waiting.find? fun w => t.expired w.since (t.cfg.engine.tXck * 1000) with
      | none => t
      | some w =>
        let u := (t.modXck binding fun x => { x with
          waiting := x.waiting.erase w, unpaired := satAdd 65535 x.unpaired 1, raised := true }).bump (ctrXck 4) 1
        if b.raised then u else u.event evXckUnpaired unitCrosscheck (some b.stall) binding w.offset)

end Sys2Proof.Machine
end

