-- ==== Sys2Proof/Machine/Meter.lean ====
section
/-!
DEFINITION. The Steelyard's arithmetic (spec/20_steelyard.md R571 to R582): calibrated energy of the rail channels, suspect ticks, the
latch and the apportionment of a boundary, final readings, and the bytes of a reading.
-/

namespace Sys2Proof.Machine

/-! ### Channels (R572 to R574) -/

/-- A channel before its first sample. -/
def StyChan.fresh : StyChan := { power := 0, sampled := none, upTo := none }

/-- The calibrated power of a sample, in units of 2^-30 µW; a negative result counts as 0 (R573). -/
def StyCfg.calibrate (y : StyCfg) (ch val : Nat) : Nat :=
  (Int.ofNat (val * y.gain.getD ch 0x40000000) + y.offset.getD ch 0 * 2 ^ 30).toNat

/-- CH_ENABLE of a channel. -/
def State.styEnabled (s : State) (ch : Nat) : Bool := s.cfg.sty.chEnable.testBit ch

/-- A channel is in gap: no sample for more than 1 ms of elapsed time (R574). -/
def State.styGap (s : State) (ch : Nat) : Bool :=
  s.styEnabled ch && decide (((s.sty.chans.getD ch StyChan.fresh).sampled).getD s.clk.releasedAt + 1000000 < s.clk.elapsed)

/-- The channels in gap, as a mask. [DEDUCED: notes/assumptions/43.md] -/
def State.styGaps (s : State) : Nat :=
  ((List.range 16).map fun c => if s.styGap c then 2 ^ c else 0).foldl (· + ·) 0

/-- A channel's power over the rclk periods not yet accounted joins the die energy (R573). [DEDUCED: notes/assumptions/43.md] -/
def State.styAccount (ch power : Nat) (s : State) : State :=
  let c := s.sty.chans.getD ch StyChan.fresh
  let periods := (s.clk.elapsed - c.upTo.getD s.clk.elapsed) / 10
  { s with sty := { s.sty with
    energy := s.sty.energy + power * periods
    chans := listSet s.sty.chans ch fun c => { c with upTo := some s.clk.elapsed } } }

/-- The current tick becomes suspect, for the first cause seen in it (R574, R585). [DEDUCED: notes/assumptions/43.md] -/
def State.stySuspect (cause mask : Nat) (s : State) : State :=
  if ¬ s.build.sty then s else
    { s with sty := { s.sty with
      suspectCause := if s.sty.suspectCause = 0 then cause else s.sty.suspectCause
      suspectMask := s.sty.suspectMask ||| mask } }

/-- A rail sample that passed its check: its interval is accounted at its own power, or at the power held where the channel was in gap
(R572 to R574). [DEDUCED: notes/assumptions/43.md] -/
def State.stySample (ch val : Nat) (s : State) : State :=
  if ¬ s.build.sty ∨ ¬ s.styEnabled ch then s else
    let p := s.cfg.sty.calibrate ch val
    let c := s.sty.chans.getD ch StyChan.fresh
    let t := if s.styGap ch ∧ c.sampled.isSome then (s.styAccount ch c.power).stySuspect 1 (2 ^ ch) else s.styAccount ch p
    { t with sty := { t.sty with chans := listSet t.sty.chans ch fun x => { x with power := p, sampled := some t.clk.elapsed } } }

/-- A sample discarded: its interval keeps the power held, and the tick is suspect (R574, R535). -/
def State.styDiscard (ch : Nat) (s : State) : State :=
  if ¬ s.build.sty ∨ ¬ s.styEnabled ch then s else
    let t := (s.styAccount ch (s.sty.chans.getD ch StyChan.fresh).power).stySuspect 2 (2 ^ ch)
    { t with sty := { t.sty with chans := listSet t.sty.chans ch fun x => { x with sampled := some t.clk.elapsed } } }

/-- Channels in gap are accounted at the power they hold (R574). -/
def State.styHold (s : State) : State :=
  (List.range 16).foldl (fun t c => if t.styGap c then t.styAccount c (t.sty.chans.getD c StyChan.fresh).power else t) s

/-! ### Apportionment (R575) -/

/-- Die energy in whole nJ: its unit is 2^-30 of 0.01 pJ. -/
def Sty.dieNj (y : Sty) : Nat := y.energy / (100000 * 2 ^ 30)

/-- The weight of a Stall's counts. -/
def StyCfg.weight (y : StyCfg) (c : List Nat) : Nat :=
  y.wbMse * c.getD 0 0 + y.wbLse * c.getD 1 0 + y.wbHse * c.getD 2 0 + y.wbBooth * c.getD 3 0 + y.wbToll * c.getD 4 0 + y.wo * c.getD 5 0

/-- The weights of a tick. -/
def State.styWeights (s : State) : List (Nat × Nat) := s.sty.counts.map fun p => (p.1, s.cfg.sty.weight p.2)

/-- The sum of the weights. -/
def sumSnd (l : List (Nat × Nat)) : Nat := (l.map (·.2)).foldl (· + ·) 0

/-- Each Stall's share of `e` nJ: exact integer division, the rest to Stall 0 (R575). -/
def shares (e : Nat) (ws : List (Nat × Nat)) : List (Nat × Nat) :=
  let w := sumSnd ws
  let fl := if w = 0 then [] else ws.map fun p => (p.1, e * p.2 / w)
  assocSet 0 ((assocGet 0 fl).getD 0 + (e - sumSnd fl)) fl

/-- Seven accumulators with a tick's six counts and its energy added. -/
def addCounts (a c : List Nat) (e : Nat) : List Nat :=
  ((List.range 6).map fun k => a.getD k 0 + c.getD k 0) ++ [a.getD 6 0 + e]

/-- The accumulators of a Stall. -/
def Sty.accsOf (y : Sty) (stall : Nat) : List Nat := (assocGet stall y.accs).getD [0, 0, 0, 0, 0, 0, 0]

/-- The Stalls charged energy in a suspect tick keep ENERGY_SUSPECT (R574). -/
def markSuspects (sh : List (Nat × Nat)) (l : List Nat) : List Nat :=
  ((sh.filter fun p => p.2 ≠ 0).map (·.1)).foldl (fun l i => if l.contains i then l else l ++ [i]) l

/-- The energy and the counts since the last apportionment are shared out (R575), the suspect tick is counted (R574). -/
def State.apportion (s : State) : State :=
  let t := s.styHold
  let t := if t.styGaps = 0 then t else t.stySuspect 1 t.styGaps
  let y := t.sty
  let sh := shares (y.dieNj - y.apportioned) t.styWeights
  let ids := (sh.map (·.1) ++ y.counts.map (·.1)).dedup
  let sus := decide (y.suspectCause ≠ 0)
  let u : State := { t with sty := { y with
    accs := ids.foldl (fun a i => assocSet i (addCounts ((assocGet i a).getD []) ((assocGet i y.counts).getD []) ((assocGet i sh).getD 0)) a) y.accs
    counts := []
    apportioned := y.dieNj
    suspects := if sus then markSuspects sh y.suspects else y.suspects
    suspectTicks := if sus then satAdd 65535 y.suspectTicks 1 else y.suspectTicks
    suspectRun := sus
    suspectCause := 0
    suspectMask := 0 } }
  if sus ∧ ¬ y.suspectRun then u.event evStySuspect unitSteelyard none y.suspectMask y.suspectCause else u

/-- The branch is held under U of the Steelyard (R575, R583). -/
def State.styHeld (s : State) : Bool := s.rst.unitResets.any fun u => decide (u.code = unitSteelyard) && u.held

/-- Step 1 of R104: the latch of a boundary and its apportionment; under U they join the next one (R571, R575, R583). -/
def State.styLatch (s : State) : State :=
  if ¬ s.build.sty ∨ s.styHeld then s else
    let t := s.apportion
    { t with sty := { t.sty with latch :=
      { tick := t.clk.tickCount, time := t.clk.tickTime, dieEnergy := t.sty.dieNj, unanchored := t.unanchored, harbour := !t.ald.full } } }

/-- The Stall's accumulators and its final reading start anew (R571, R582). -/
def State.styAdmit (stall : Nat) (s : State) : State :=
  { s with sty := { s.sty with
    accs := assocDel stall s.sty.accs
    counts := assocDel stall s.sty.counts
    suspects := s.sty.suspects.filter fun i => i ≠ stall
    finals := s.sty.finals.filter fun r => r.stall ≠ stall } }

/-! ### Readings (R581, R582) -/

/-- The latest reading of a Stall that is not FREE. -/
def State.reading (s : State) (stall : Nat) : Reading :=
  let x := s.stall? stall
  { stall
    inst := (x.map (·.inst)).getD []
    account := ((s.stallData? stall).map (·.account)).getD 0
    tick := s.sty.latch.tick
    time := s.sty.latch.time
    accs := s.sty.accsOf stall
    dieEnergy := s.sty.latch.dieEnergy
    unanchored := s.sty.latch.unanchored
    harbour := s.sty.latch.harbour
    suspect := s.sty.suspects.contains stall
    restarted := (x.map (·.imported)).getD false }

/-- Step 6 of a removal: the energy is apportioned as if a boundary fell here, and the final reading is kept, 64 at most (R582). -/
def State.styFinal (stall : Nat) (s : State) : State :=
  if ¬ s.build.sty then s else
    let t := if s.styHeld then s else s.apportion
    let r : Reading := { t.reading stall with
      tick := t.clk.tickCount, time := t.clk.domain, dieEnergy := t.sty.dieNj, unanchored := t.unanchored, harbour := !t.ald.full }
    let fs := (t.sty.finals.filter fun f => f.stall ≠ stall) ++ [r]
    { t with sty := { t.sty with finals := fs.drop (fs.length - 64) } }

/-- The bits set in the low `n` bits of a word. -/
def popcount : Nat → Nat → Nat
  | 0, _ => 0
  | n + 1, w => w % 2 + popcount n (w / 2)

/-- SEAL_BREAKS (R577). -/
def State.sealBreaks (s : State) : Nat := popcount 32 (s.lcu.fuse 0xF1)

/-- XS-SEED (R183): the seed of a signing key, ALG 1 ECDSA P-384, 3 ML-DSA-87. -/
def stySeed (seed : Bytes) (alg : Nat) : Bytes := kdf seed "XS-SEED" (leBytes 1 alg) (if alg = 1 then 448 else 256)

/-- The Steelyard's public keys, laid out as the integrator key block of R153. -/
def Sty.keyBlock (y : Sty) : Bytes :=
  (padTo 97 (Config.publicKey 1 (stySeed y.seed 1))).take 97 ++ (padTo 2592 (Config.publicKey 3 (stySeed y.seed 3))).take 2592 ++ zeros 7

/-- A reading up to its signatures (R581). -/
def State.readingBytes (s : State) (r : Reading) (final : Bool) : Bytes :=
  let flags := bit r.unanchored + 2 * bit r.harbour + 4 * bit s.sty.testKey + 8 * bit final + 16 * bit r.suspect +
    32 * bit s.sty.unsealed + 64 * bit s.sty.keyFailed + 128 * bit r.restarted
  leBytes 4 0x524D5358 ++ leBytes 2 1 ++ leBytes 2 r.stall ++ (padTo 16 r.inst).take 16 ++ leBytes 8 r.account ++ leBytes 8 r.tick ++
    leBytes 8 r.time ++ ((List.range 7).flatMap fun k => leBytes 8 (r.accs.getD k 0)) ++ leBytes 8 r.dieEnergy ++ leBytes 4 flags ++
    leBytes 1 s.sealBreaks ++ zeros 3 ++ leBytes 4 s.cfg.sty.calId ++ zeros 4 ++ (padTo 48 s.sty.sd).take 48 ++
    sha384 s.sty.keyBlock ++ s.sty.keyBlock

end Sys2Proof.Machine
end

