-- ==== Sys2Proof/Machine/StallCore.lean ====
section
/-!
DEFINITION. What the Stall manager's commands share (spec/13_stalls.md): the Stall record (R396 to R398), its writes and their anchoring,
residency (R399, R400), the words of R427 and R428, and the squash of a Stall's work (R413).
-/

namespace Sys2Proof.Machine

/-! ### The Stall record (R396, R397) -/

/-- The STALL_ROOT blob's header (R186, R193). -/
def rootHeader (id : Nat) (inst : Bytes) : BlobHeader :=
  { handle := makeHandle id 8 0, usage := 2 ^ 6, gen := 0, keyLen := 32, attr := 0, inst }

/-- A key table entry as 32 bytes (R397). -/
def KeyEntry.bytes (k : KeyEntry) : Bytes :=
  leBytes 4 k.handle ++ leBytes 1 (bit (!k.destroyed) + 2 * bit k.pinned + 4 * bit k.migratable) ++ leBytes 1 k.gen ++
    leBytes 6 k.use ++ leBytes 8 k.blobAddr ++ (padTo 8 k.blobTag).take 8 ++ leBytes 3 k.eC ++ [0]

/-- An extend log entry as 56 bytes (R366). -/
def LogEntry.bytes (e : LogEntry) : Bytes :=
  leBytes 1 e.reg ++ leBytes 1 e.kind ++ leBytes 1 e.owner ++ [0] ++ leBytes 4 e.seq ++ (padTo 48 e.digest).take 48

/-- An owner block of the privacy budget as 64 bytes (R463). -/
def BudgetEntry.bytes (b : BudgetEntry) : Bytes :=
  leBytes 8 b.seq ++ (List.range 8).flatMap (fun c => leBytes 4 (b.charged.getD c 0)) ++ zeros 24

/-- An owner entry of the record as 64 bytes. -/
def OwnerEntry.bytes (o : OwnerEntry) : Bytes :=
  (padTo 48 o.kEst).take 48 ++ leBytes 1 o.index ++ leBytes 1 (bit o.valid) ++ zeros 14

/-- FLAGS of the record. -/
def Stall.flags (x : Stall) : Nat :=
  bit x.measLocked + 2 * bit x.x2 + 4 * bit x.rebase + 8 * bit x.saved + 16 * bit x.imported + 32 * bit x.logOverflow +
    64 * bit x.keyed

/-- Record bytes 0x0020 to 0x003F: who the Stall is and what it has used. -/
def recordIdentity (x : Stall) (d : StallData) : Bytes :=
  (padTo 16 x.inst).take 16 ++ leBytes 1 x.state.code ++ leBytes 1 x.flags ++ leBytes 1 x.lostCause ++
    leBytes 1 d.owners.length ++ leBytes 2 x.nextSerial ++ leBytes 1 d.log.length ++ [0] ++ leBytes 4 x.extendSeq ++ zeros 4

/-- The option, admission and migration fields that follow. -/
def recordMigration (x : Stall) : Bytes :=
  leBytes 1 (bit x.fillFault) ++ leBytes 1 (bit x.integLose) ++ leBytes 1 (bit x.boothStream) ++ leBytes 1 (bit x.bindNoinit) ++
    zeros 4 ++ leBytes 3 x.eSrc ++ [0] ++ leBytes 3 x.bias ++ [0] ++ leBytes 8 x.admitTime ++ leBytes 4 x.saveSeq ++ zeros 4

/-- Record bytes 0x0020 to 0x005F. -/
def recordHead (x : Stall) (d : StallData) : Bytes :=
  recordIdentity x d ++ recordMigration x

/-- Record bytes 0x00E0 to 0x19FF. -/
def recordTables (d : StallData) : Bytes :=
  let p48 (b : Bytes) : Bytes := (padTo 48 b).take 48
  p48 d.kEst ++ p48 d.th ++ p48 d.tenantKey ++ p48 d.policyDigest ++ leBytes 8 d.account ++ p48 d.freezeList ++
    leBytes 3 d.freezeEpoch ++ zeros 5 ++ leBytes 8 d.importFloorTime ++ zeros 24 ++
    padTo 512 (d.owners.flatMap OwnerEntry.bytes) ++ padTo 512 (d.budget.flatMap BudgetEntry.bytes) ++
    (List.range 32).flatMap (fun i => p48 ((assocGet i d.mrs).getD [])) ++ padTo 3584 (d.log.flatMap LogEntry.bytes)

/-- The plaintext of a record, bytes 0x0020 to 0x3FEF. -/
def State.recordPlain (s : State) (id : Nat) (x : Stall) (d : StallData) : Bytes :=
  recordHead x d ++ (if d.stallRoot = [] then zeros 128 else blobBytes (s.storeKey 5) (rootHeader id x.inst) d.stallRoot) ++
    recordTables d ++ padTo 8192 (d.keys.flatMap KeyEntry.bytes) ++ zeros 1520

/-- The 16,384 bytes of a record at a VERSION under a nonce. -/
def State.recordImage (s : State) (id version : Nat) (nonce : Bytes) (x : Stall) (d : StallData) : Bytes :=
  let hdr := leBytes 4 0x52535358 ++ leBytes 2 1 ++ leBytes 2 id ++ leBytes 8 version ++ nonce ++ zeros 4
  let c := gcmSeal (s.storeKey 5) nonce hdr (s.recordPlain id x d)
  hdr ++ c.1 ++ c.2

/-- Where a record lives: Stall 0's in the Ledger store, the others in the record area (R395, R406). -/
def State.recordAddr (s : State) (id : Nat) : Nat :=
  if id = 0 then s.storeAddr 0 0x3FC000
  else regionBytes * ((s.cfg.policy.map (·.recordBase)).getD 0) + id * 16384

/-- A record written: VERSION up, a fresh nonce, its digest queued for the Ledger store (R398). -/
def State.writeRecord (id : Nat) (s : State) : State :=
  match s.stall? id, s.stallData? id with
  | some x, some d =>
    let x' := { x with version := x.version + 1 }
    let img := s.recordImage id x'.version (s.drawn 12) x' d
    let sha := sha384 img
    let d' : StallData := { d with recordDigest := sha }
    let t := ((s.tookDraw.emit (.memWrite 0 (s.recordAddr id) img)).setStall id x').setStallData id d'
    ({ t with stl := { t.stl with records := assocSet id (x', d') t.stl.records } }).queueItems (digestItems id sha)
  | _, _ => s

/-- The items that anchor a Stall's last record write. -/
def State.recordItems (s : State) (id : Nat) : List DeltaItem :=
  match s.stallData? id with
  | some d => digestItems id d.recordDigest
  | none => []

/-- The item still waits for a record or for its acknowledgement. -/
def State.itemPending (s : State) (i : DeltaItem) : Bool :=
  s.ldg.items.contains i || (s.ldg.flight.map fun r => r.items.contains i).getD false

/-- Some item of a Stall's last record write is not anchored. -/
def State.recordPending (s : State) (id : Nat) : Bool := (s.recordItems id).any s.itemPending

/-- A command completes with a status and RESULT once items are anchored; at once where none is pending. -/
def State.finishAnchored (c : Call) (status : Nat) (result : Bytes) (regions : List RegionId) (items : List DeltaItem)
    (s : State) : State :=
  let is := items.filter s.itemPending
  if is.isEmpty ∧ regions.isEmpty then s.complete { c.record status with result }
  else { s with ldg := { s.ldg with waits := s.ldg.waits ++ [{ call := c, status, result, regions, items := is }] } }

/-! ### Residency (R399, R400) -/

/-- The resident slot of a Stall. -/
def State.slotOfStall (s : State) (id : Nat) : Option Nat :=
  if id = 0 then some 0 else (s.stl.slots.find? fun p => p.2 = id).map (·.1)

/-- Marks of a Stall with outstanding signals. -/
def Mark.outstanding (m : Mark) : Bool := m.poison.isNone && m.dests.any fun d => d.timer.isSome

/-- A resident Stall is busy (R400). -/
def State.stallBusy (s : State) (id : Nat) : Bool :=
  s.stl.fills.any (fun f => decide (f.stall = id)) || decide (s.stallState id = .removing) ||
    (s.bth.holder.map fun h => decide (h.2 = id)).getD false ||
    (s.tol.running.map fun e => decide (e.call.stall = id)).getD false ||
    s.hlm.running.any (fun q => decide (q.call.stall = id) && s.committed q.call) ||
    s.mrk.res.any fun p => p.2.outstanding && decide (((assocGet p.1 s.mrk.dir).map (·.owner)) = some id)

/-- The least recently used resident Stall that is not busy. [DEDUCED: notes/assumptions/59.md] -/
def State.spillVictim (s : State) : Option (Nat × Nat) :=
  let use (id : Nat) : Nat := ((s.stallData? id).map (·.lastUse)).getD 0
  (s.stl.slots.filter fun p => !s.stallBusy p.2).foldl (fun (b : Option (Nat × Nat)) p => match b with
    | none => some p
    | some q => if use p.2 < use q.2 then some p else b) none

/-- A free slot other than slot 0. -/
def State.freeStallSlot (s : State) : Option Nat := firstFree s.stl.slots 1 47

/-- A resident Stall spilled: its record written, its slot scrubbed (R400, R410). -/
def State.spill (slot id : Nat) (s : State) : State :=
  let t := s.writeRecord id
  { t with stl := { t.stl with slots := assocDel slot t.stl.slots } }.bump (ctrStl 1) 1

/-- A use of a Stall's slot, for the LRU choice. [DEDUCED: notes/assumptions/59.md] -/
def State.useStall (id : Nat) (s : State) : State :=
  if id = 0 then s else s.modStallData id fun d => { d with lastUse := s.clk.elapsed }

/-! ### Words of a Stall (R427, R428) -/

/-- XS_STL_INFO of a Stall. -/
def State.stallInfo (s : State) (id : Nat) : Nat :=
  match s.stall? id with
  | none => 0x3F * 8
  | some x =>
    x.state.code + (s.slotOfStall id).getD 0x3F * 8 + bit (s.stl.fills.any fun f => f.stall = id) * 2 ^ 9 +
      bit x.measLocked * 2 ^ 10 + bit x.imported * 2 ^ 11 + bit x.rebase * 2 ^ 12 + bit x.saved * 2 ^ 13 + bit x.x2 * 2 ^ 14 +
      x.lostCause * 2 ^ 15 + bit x.fillFault * 2 ^ 18 + bit x.integLose * 2 ^ 19

/-- XS_STL_REPLAY of a Stall. -/
def State.stallReplay (s : State) (id : Nat) : Nat :=
  match s.stallData? id with
  | none => 0
  | some d =>
    let r := d.replay
    r.span % 256 + bit r.hasLocal * 2 ^ 8 + bit r.hasPool * 2 ^ 9 + bit r.stretch * 2 ^ 10 + bit r.unknown * 2 ^ 11 +
      bit r.fromRecord * 2 ^ 12

/-- XS_STL_AGE of a Stall. -/
def State.stallAge (s : State) (id : Nat) : Nat :=
  match s.stallData? id with
  | none => 0
  | some d => min (2 ^ 32 - 1) d.replay.age

/-! ### Squashes (R413 step 3) -/

/-- Outstanding outbound requests of a Stall are answered POISON at every LSE. -/
def State.poisonStall (id : Nat) (s : State) : State :=
  (List.range s.lse.length).foldl (fun t i =>
    match t.lse[i]? with
    | none => t
    | some l =>
      let mine := l.out.filter fun o => o.stall = id
      ((t.emits (mine.map (poisonOut i l.peerChip))).bumpStall id 6 mine.length).modLse i fun l =>
        { l with out := l.out.filter fun o => o.stall ≠ id }) s

/-- An MSE request, an LSE request, a Booth operation or an export of the Stall is outstanding. -/
def State.stallWork (s : State) (id : Nat) : Bool :=
  s.mse.any (fun m => m.requests.any fun r => decide (r.stall = id)) ||
    s.lse.any (fun l => l.out.any fun o => decide (o.stall = id)) ||
    (s.bth.running.map fun o => decide (o.call.stall = id)).getD false ||
    (s.tol.running.map fun e => decide (e.call.stall = id)).getD false

/-- The Booth's lock is free again; a waiting handoff takes it first (R434). -/
def State.releaseBooth (s : State) : State :=
  { s with bth := { s.bth with holder := none, tollgate := false, releaseDue := false } }

/-- The running Booth operation ends early, with DO_NOT_TRUST (R133, R413). -/
def State.squashBooth (status : Nat) (s : State) : State :=
  match s.bth.running with
  | none => s
  | some o =>
    let t : State := { s with bth := { s.bth with running := none, leaseAt := s.clk.elapsed } }
    if o.header.isSome then
      { t with tol := { t.tol with running := none, hold := [] } }.releaseBooth.complete { o.call.record status with doNotTrust := true }
    else t.complete { o.call.record status with doNotTrust := true }

/-- The running export ends early: before its commit point its charge is taken back (R133, R466). -/
def State.squashToll (status : Nat) (s : State) : State :=
  match s.tol.running with
  | none => s
  | some e =>
    if e.phase = 5 ∧ (s.bth.running.map fun o => o.header.isSome).getD false then s
    else
      let t : State := { s with tol := { s.tol with running := none, hold := [] } }
      let t := if e.phase = 3 then t.modStallData e.call.stall fun d => { d with budget := listSet d.budget e.owner fun _ => e.before }
        else t
      t.finish e.call status

end Sys2Proof.Machine
end

