-- ==== Sys2Proof/Machine/Marks.lean ====
section
/-!
DEFINITION. Marks (spec/12_attestation_domain.md R379 to R386) and the commands on them (spec/16_command_interface.md R486).
-/

namespace Sys2Proof.Machine

/-! ### Marks and their directory (R379, R385) -/

/-- COMPLETE of a Mark (R380). -/
def Mark.complete (m : Mark) : Nat :=
  if m.mirror then m.value else match m.dests with
    | [] => m.value
    | d :: ds => ds.foldl (fun b x => min b x.acked) d.acked

/-- A resident Mark. -/
def State.mark? (s : State) (k : Nat) : Option Mark := assocGet k s.mrk.res

/-- The Stall a Mark is bound to. -/
def State.markOwner (s : State) (k : Nat) : Option Nat := (assocGet k s.mrk.dir).map (·.owner)

/-- A resident Mark replaced. -/
def State.setMark (k : Nat) (m : Mark) (s : State) : State := { s with mrk := { s.mrk with res := assocSet k m s.mrk.res } }

/-- STATE of a directory entry (R385). -/
def State.markState (s : State) (k : Nat) : Nat :=
  if (assocGet k s.mrk.dir).isNone then 0 else if (s.mark? k).isSome then 1 else if s.mrk.fills.contains k then 3 else 2

/-! ### The end of waits (R379, R380, R478, R486) -/

/-- Every wait on a Mark ends with ST_MARK_POISONED: MARK_WAIT commands, and commands held on their WAIT_MARK.
[DEDUCED: notes/assumptions/58.md] -/
def State.endMarkWaits (k : Nat) (s : State) : State :=
  let ws := s.mrk.waits.filter fun w => w.index = k
  let held (q : Queued) : Bool := decide (q.call.waitMark = k)
  let qs := s.hlm.buffer.filter held ++ s.hlm.tickQ.filter held
  let t : State := { s with
    mrk := { s.mrk with waits := s.mrk.waits.filter fun w => w.index ≠ k, sigs := s.mrk.sigs.filter fun p => p.1 ≠ k }
    hlm := { s.hlm with buffer := s.hlm.buffer.filter fun q => !held q, tickQ := s.hlm.tickQ.filter fun q => !held q } }
  let t := ws.foldl (fun t w => (t.waitEnd 79 1 (some w.call.stall) k).finish w.call stMarkPoisoned) t
  qs.foldl (fun t q => t.finish q.call stMarkPoisoned) t

/-- A Mark's COMPLETE or VALUE has changed: progress, and the MARK_WAIT commands it reaches complete (R486, R536). -/
def State.markChanged (k : Nat) (s : State) : State :=
  match s.mark? k with
  | none => s
  | some m =>
    let met (w : MarkWait) : Bool := decide (w.index = k ∧ w.value ≤ m.complete)
    let ws := s.mrk.waits.filter met
    let t : State := { s.progress with mrk := { s.mrk with waits := s.mrk.waits.filter fun w => !met w } }
    ws.foldl (fun t w => (t.waitEnd 79 1 (some w.call.stall) k).finishOk w.call (leBytes 8 m.complete)) t

/-! ### Units of Marks (R381) -/

/-- The 24 bytes of a MARK_SIGNAL or MARK_ACK unit. -/
def markUnit (dst dstMark origin originMark seq hops flags value : Nat) : Bytes :=
  leBytes 2 dst ++ leBytes 2 dstMark ++ leBytes 2 origin ++ leBytes 2 originMark ++ leBytes 4 seq ++ leBytes 1 hops ++
    leBytes 1 flags ++ zeros 2 ++ leBytes 8 value

/-- The LSE toward a chip: the primary if it is usable, else the alternate (R381). -/
def State.markRoute (s : State) (chip : Nat) : Option Nat :=
  let up (l : Nat) : Bool := ((s.lse[l]?).map (·.usable)).getD false
  match assocGet chip s.mrk.routes with
  | none => none
  | some r => if up r.primary then some r.primary else r.alternate.filter up

/-- A unit of SUB 6 or 7 sent toward another chip, or dropped and counted where no route is usable. -/
def State.sendMark (sub chip : Nat) (bytes : Bytes) (s : State) : State :=
  match s.markRoute chip with
  | some l => s.sendUnit l (ctrlUnit sub bytes)
  | none => { s with mrk := { s.mrk with drop := satAdd 65535 s.mrk.drop 1 } }

/-! ### Poisoning (R380, R383, R386) -/

/-- POISON signals to the destinations of a Mark other than `but`. -/
def State.poisonDests (k : Nat) (m : Mark) (but : Option Nat) (s : State) : State :=
  (m.dests.zipIdx.filter fun d => some d.2 ≠ but ∧ d.1.chip ≠ s.dom.chip).foldl (fun t d =>
    t.sendMark 6 d.1.chip (markUnit d.1.chip d.1.mark s.dom.chip k (d.1.seq + 1) 0 1 m.value)) s

/-- A Mark poisoned with a cause: EV_MARK_POISON, its timers stopped, every wait on it ended. -/
def State.poisonMark (k cause : Nat) (s : State) : State :=
  match s.mark? k with
  | none => s
  | some m =>
    if m.poison.isSome then s else
      let t := s.setMark k { m with poison := some cause, dests := m.dests.map fun d => { d with timer := none } }
      ((t.event evMarkPoison unitMarks (s.markOwner k) k cause).bump (ctrMrk 8) 1).endMarkWaits k

/-! ### A mirror takes a signal (R382) -/

/-- A SET signal at this chip's Mark `k` from an origin: the state after, and value and POISON flag of the acknowledgement. A Mark
that is no mirror of that source is acknowledged with POISON (R379). -/
def State.mirrorSignal (k origin originMark seq : Nat) (poison : Bool) (value : Nat) (s : State) : State × Nat × Bool :=
  match s.mark? k with
  | none => (s, 0, true)
  | some m =>
    if ¬ m.mirror ∨ m.srcChip ≠ origin ∨ m.srcMark ≠ originMark then (s, 0, true)
    else if poison then (s.poisonMark k 5, m.value, true)
    else if seq ≤ m.lastSeq then
      (({ s with mrk := { s.mrk with dup := satAdd 65535 s.mrk.dup 1 } }.bump (ctrMrk 3) 1), m.value, m.poison.isSome)
    else if m.value < value then
      ((s.setMark k { m with value, lastSeq := seq, changed := s.clk.domain, lastUse := s.clk.elapsed }).markChanged k, value, m.poison.isSome)
    else
      let t := s.setMark k { m with lastSeq := seq, stale := m.stale + 1, lastUse := s.clk.elapsed }
      (({ t with mrk := { t.mrk with stale := satAdd 65535 t.mrk.stale 1 } }.bump (ctrMrk 4) 1), m.value, m.poison.isSome)

/-- An acknowledgement at the home (R382, R383): one whose value exceeds ACKED raises it, whatever its SEQ, and restarts or stops the destination's timer. -/
def State.homeAck (k origin originMark : Nat) (poison : Bool) (value : Nat) (s : State) : State :=
  match s.mark? k with
  | none => s
  | some m =>
    match m.dests.zipIdx.find? fun d => d.1.chip = origin ∧ d.1.mark = originMark with
    | none => s
    | some (d, i) =>
      let t := s.bump (ctrMrk 1) 1
      if poison ∨ m.mirror ∨ m.poison.isSome ∨ value ≤ d.acked then t
      else
        let d' : MarkDest := { d with acked := value, resends := 0, timer := if value < m.sent then some s.clk.elapsed else none }
        let t := if 0 < d.resends then t.waitEnd 83 13 (s.markOwner k) k else t
        (t.setMark k { m with dests := listSet m.dests i fun _ => d' }).markChanged k

/-! ### Sending a value (R380, R382, R383) -/

/-- The current value sent to one destination: over a link, or at once where the destination is on this chip. -/
def State.sendDest (k i : Nat) (s : State) : State :=
  match s.mark? k with
  | none => s
  | some m => match m.dests[i]? with
    | none => s
    | some d =>
      if d.chip = s.dom.chip then
        match s.mirrorSignal d.mark s.dom.chip k d.seq false m.sent with
        | (t, v, p) => t.homeAck k d.chip d.mark p v
      else s.sendMark 6 d.chip (markUnit d.chip d.mark s.dom.chip k d.seq 0 0 m.sent)

/-- A new value for every destination: SEQ up, the resend timer started where nothing was outstanding. Before full mode nothing is
sent to another chip and no timer runs (R383). -/
def State.sendValue (k : Nat) (s : State) : State :=
  match s.mark? k with
  | none => s
  | some m =>
    let open_ (d : MarkDest) : Bool := s.ald.full || decide (d.chip = s.dom.chip)
    let step (d : MarkDest) : MarkDest :=
      { d with
        seq := d.seq + 1
        resends := if d.acked = m.sent then 0 else d.resends
        timer := if open_ d ∧ d.acked = m.sent then some s.clk.elapsed else d.timer }
    let t := s.setMark k { m with sent := m.value, dests := m.dests.map step }
    (m.dests.zipIdx.filter fun d => open_ d.1).foldl (fun t d => t.sendDest k d.2) t

/-- At entry to full mode the signals held until then leave and their timers start (R383). -/
def State.releaseMarks (s : State) : State :=
  s.mrk.res.foldl (fun t p =>
    (p.2.dests.zipIdx.filter fun d => decide (d.1.acked < p.2.sent) && d.1.timer.isNone && p.2.poison.isNone).foldl (fun t d =>
      match t.mark? p.1 with
      | none => t
      | some m => (t.setMark p.1 { m with dests := listSet m.dests d.2 fun x => { x with timer := some t.clk.elapsed } }).sendDest p.1 d.2)
      t) s

/-- A signal on a LOCAL Mark (R380): the state after and the status. -/
def State.signalMark (k : Nat) (add : Bool) (v : Nat) (s : State) : State × Nat :=
  match s.mark? k with
  | none => (s, stParam)
  | some m =>
    if m.mirror then (s, stMarkMode)
    else if m.poison.isSome then (s, stMarkPoisoned)
    else if ¬ add ∧ v ≤ m.value then
      let t := s.setMark k { m with stale := m.stale + 1, lastUse := s.clk.elapsed }
      ({ t with mrk := { t.mrk with stale := satAdd 65535 t.mrk.stale 1 } }.bump (ctrMrk 4) 1, stMarkStale)
    else if add ∧ 2 ^ 64 - 1 < m.value + v then (s.poisonMark k 1, stMarkWrap)
    else
      let value := if add then m.value + v else v
      let t := s.setMark k { m with value, changed := s.clk.domain, lastUse := s.clk.elapsed }
      (((t.bump (ctrMrk 0) 1).sendValue k).markChanged k, stOk)

/-! ### Spill and fill (R385, R386) -/

/-- The 256-byte spill record of a Mark. -/
def Mark.bytes (k owner version : Nat) (m : Mark) : Bytes :=
  let unreachable := (m.dests.zipIdx.filter fun d => d.1.unreachable).foldl (fun a d => a + 2 ^ d.2) 0
  padTo 256 (leBytes 4 0x4B4D5358 ++ leBytes 2 k ++ leBytes 2 owner ++ leBytes 4 version ++ leBytes 1 (bit m.mirror) ++
    leBytes 1 m.dests.length ++ leBytes 2 (bit m.poison.isSome + 2 * m.poison.getD 0) ++ leBytes 8 m.value ++ leBytes 8 m.sent ++
    leBytes 2 unreachable ++ leBytes 2 m.srcChip ++ leBytes 2 m.srcMark ++ zeros 2 ++ leBytes 4 m.lastSeq ++ leBytes 4 m.stale ++
    leBytes 8 m.changed ++ zeros 8 ++
    m.dests.flatMap fun d => leBytes 8 d.acked ++ leBytes 2 d.chip ++ leBytes 2 d.mark ++ leBytes 4 d.seq)

/-- The Mark a record holds. -/
def markOf (b : Bytes) (now : Nat) : Mark :=
  let n := leField b 0xD 1
  let flags := leField b 0xE 2
  { mirror := decide (leField b 0xC 1 = 1), value := leField b 0x10 8, sent := leField b 0x18 8
    dests := (List.range n).map fun i =>
      let o := 0x40 + 16 * i
      { chip := leField b (o + 8) 2, mark := leField b (o + 10) 2, acked := leField b o 8, seq := leField b (o + 12) 4, timer := none
        resends := 0, unreachable := (leField b 0x20 2).testBit i }
    srcChip := leField b 0x22 2, srcMark := leField b 0x24 2, lastSeq := leField b 0x28 4
    poison := if flags.testBit 0 then some (flags / 2 % 8) else none
    stale := leField b 0x2C 4, changed := leField b 0x30 8, lastUse := now }

/-- A record passes the checks of a fill (R386). [DEDUCED: notes/assumptions/35.md] -/
def markRecordOk (k : Nat) (d : MarkDir) (b : Bytes) : Bool :=
  decide (leField b 0 4 = 0x4B4D5358 ∧ leField b 4 2 = k ∧ leField b 6 2 = d.owner ∧ leField b 8 4 = d.version)

/-- A resident Mark spilled: VERSION up, its record written by the owner Stall; a VERSION that would wrap poisons it first. -/
def State.spillMark (k : Nat) (s : State) : State :=
  match assocGet k s.mrk.dir with
  | none => s
  | some d =>
    let t := if d.version + 1 < 2 ^ 32 then s else s.poisonMark k 4
    match t.mark? k with
    | none => t
    | some m =>
      let d' : MarkDir := { d with version := (d.version + 1) % 2 ^ 32, spilledAt := some s.clk.elapsed }
      { t.emit (.memWrite d.owner d.addr (m.bytes k d.owner d'.version)) with
        mrk := { t.mrk with res := assocDel k t.mrk.res, dir := assocSet k d' t.mrk.dir } }.bump (ctrMrk 6) 1

/-- The resident Mark a spill takes: the least recently used one without an outstanding signal, not spilled within 10 µs.
[DEDUCED: notes/assumptions/58.md] -/
def State.markVictim (s : State) : Option Nat :=
  let may (p : Nat × Mark) : Bool := !p.2.outstanding &&
    !(((assocGet p.1 s.mrk.dir).bind (·.spilledAt)).map fun t => !s.expired t 10000).getD false
  ((s.mrk.res.filter may).foldl (fun (b : Option (Nat × Nat)) p => match b with
    | none => some (p.1, p.2.lastUse)
    | some q => if p.2.lastUse < q.2 then some (p.1, p.2.lastUse) else b) none).map (·.1)

/-- A resident place is made free, if one can be. -/
def State.markPlace (s : State) : Option State :=
  if s.mrk.res.length < 64 then some s else s.markVictim.map fun k => s.spillMark k

/-- A spilled Mark is asked for: its record is read as its owner. -/
def State.wantMark (k : Nat) (s : State) : State :=
  match assocGet k s.mrk.dir with
  | none => s
  | some d =>
    if (s.mark? k).isSome ∨ s.mrk.fills.contains k then s
    else { s with mrk := { s.mrk with fills := s.mrk.fills ++ [k] } }.emit (.memRead d.owner d.addr 256)

/-- MARK_FILL_DONE (R386): the record read back makes the Mark resident, or poisons it with cause RECORD. SET signals that waited
for it apply. -/
def execMarkFillDone (mark : Nat) (rec_ : BufRead) (s : State) : Host.Outcome State Fault Refusal :=
  let t := s.begin
  if ¬ t.mrk.fills.contains mark ∨ t.alr.quiet then done t else
  match assocGet mark t.mrk.dir, t.markPlace with
  | some d, some t =>
    let good : Option Mark := match rec_ with
      | .ok b => if markRecordOk mark d b then some (markOf b t.clk.elapsed) else none
      | .failed => none
    let empty : Mark :=
      { mirror := false, value := 0, sent := 0, dests := [], srcChip := 0, srcMark := 0, lastSeq := 0, poison := none, stale := 0
        changed := 0, lastUse := t.clk.elapsed }
    let u : State := { t with mrk := { t.mrk with
      fills := t.mrk.fills.filter (· ≠ mark), res := assocSet mark (good.getD empty) t.mrk.res } }
    let u := (u.progress).bump (ctrMrk 7) 1
    let u := if good.isSome then u else u.poisonMark mark 3
    let sigs := u.mrk.sigs.filter fun p => p.1 = mark
    done (sigs.foldl (fun u p => (u.signalMark mark false p.2).1)
      { u with mrk := { u.mrk with sigs := u.mrk.sigs.filter fun p => p.1 ≠ mark } })
  | _, _ => done t

/-! ### Received units (R381, R382) -/

/-- A unit for another chip goes on, one hop further, or is dropped (R381). -/
def State.forwardMark (u : RxUnit) (s : State) : State :=
  let p := u.payload
  let hops := leField p 12 1 + 1
  if s.cfg.engine.maxHops < hops then { s with mrk := { s.mrk with drop := satAdd 65535 s.mrk.drop 1 } }
  else (s.sendMark u.sub (leField p 0 2) (p.take 12 ++ leBytes 1 hops ++ p.drop 13)).bump (ctrMrk 5) 1

/-- A Mark's owner is resident and the Mark too, so that a received unit can act; else both are asked for (R385, R399). -/
def State.markAtHand (k : Nat) (s : State) : Option State :=
  match assocGet k s.mrk.dir with
  | none => none
  | some d =>
    if ¬ s.resident d.owner then some (s.wantStall d.owner)
    else if (s.mark? k).isNone then some (s.wantMark k)
    else none

/-- MARK_SIGNAL_RECEIVE (R382): the first SUB 6 unit of an LSE is forwarded, or taken by the mirror and acknowledged.
[DEDUCED: notes/assumptions/58.md] -/
def execMarkSignalReceive (l : Nat) (s : State) : Host.Outcome State Fault Refusal :=
  onLse l s fun e t =>
    match e.control [6] with
    | none => t
    | some u =>
      if t.alr.quiet then t else
      let p := u.payload
      let k := leField p 2 2
      if leField p 0 2 ≠ t.dom.chip then (t.dropRx l u).forwardMark u
      else match t.markAtHand k with
        | some w => w
        | none =>
          let origin := leField p 4 2
          match (t.dropRx l u).mirrorSignal k origin (leField p 6 2) (leField p 8 4) ((leField p 13 1).testBit 0) (leField p 16 8) with
          | (w, v, poison) => w.sendMark 7 origin
              (markUnit origin (leField p 6 2) t.dom.chip k (leField p 8 4) 0 (bit poison) v)

/-- MARK_ACK_RECEIVE (R382): the first SUB 7 unit of an LSE is forwarded, or raises its destination's ACKED. -/
def execMarkAckReceive (l : Nat) (s : State) : Host.Outcome State Fault Refusal :=
  onLse l s fun e t =>
    match e.control [7] with
    | none => t
    | some u =>
      if t.alr.quiet then t else
      let p := u.payload
      let k := leField p 2 2
      if leField p 0 2 ≠ t.dom.chip then (t.dropRx l u).forwardMark u
      else match t.markAtHand k with
        | some w => w
        | none => (t.dropRx l u).homeAck k (leField p 4 2) (leField p 6 2) ((leField p 13 1).testBit 0) (leField p 16 8)

/-- MARK_RESEND_TIMEOUT (R383): the destination's timer has reached T_MARK: the current SEQ is sent again, or after MARK_RETRY
resends the destination is UNREACHABLE and the Mark poisoned with cause LOST. -/
def execMarkResendTimeout (mark dest : Nat) (s : State) : Host.Outcome State Fault Refusal :=
  let t := s.begin
  match t.mark? mark with
  | none => done t
  | some m => match m.dests[dest]? with
    | none => done t
    | some d => match d.timer with
      | none => done t
      | some since =>
        if ¬ t.expired since (t.cfg.engine.tMark * 1000) ∨ t.alr.quiet then done t
        else if d.resends < t.cfg.engine.markRetry then
          let d' : MarkDest := { d with resends := d.resends + 1, timer := some t.clk.elapsed }
          let u := if d.resends = 0 then t.waitBegin 83 13 (t.markOwner mark) mark else t
          let u := u.setMark mark { m with dests := listSet m.dests dest fun _ => d' }
          done (({ u with mrk := { u.mrk with resend := satAdd 65535 u.mrk.resend 1 } }.bump (ctrMrk 2) 1).sendDest mark dest)
        else
          let u := t.waitEnd 83 13 (t.markOwner mark) mark
          let u := u.setMark mark { m with dests := listSet m.dests dest fun x => { x with unreachable := true, timer := none } }
          done ((u.poisonDests mark m (some dest)).poisonMark mark 2)

/-! ### Commands -/

/-- A command on a Mark bound to its issuer: the body runs on the resident Mark, after its fill where it is spilled; another index
returns ST_PARAM. -/
def State.onMark (c : Call) (k : Nat) (body : Mark → State → State) (s : State) : State :=
  if s.markOwner k ≠ some c.stall then s.badArg c 0
  else match s.mark? k with
    | some m => body m (s.setMark k { m with lastUse := s.clk.elapsed })
    | none => s.wantMark k

/-- MARK_CREATE (R379): the lowest free index, bound to the issuer. -/
def execMarkCreate (c : Call) (spill mode ndest srcChip srcMark : Nat) (dests : List (Nat × Nat)) (s : State) :
    Host.Outcome State Fault Refusal :=
  done (s.command c 0x0701 fun t =>
    if spill % 256 ≠ 0 ∨ 2 ^ 56 ≤ spill then t.badArg c 0
    else if 1 < mode then t.badArg c 8
    else if 12 < ndest then t.badArg c 9
    else if ¬ t.ownsSealed c.stall spill (spill + 256) then t.finish c stRegionState
    else match firstFree t.mrk.dir 0 65535 with
      | none => t.finish c stMarkFull
      | some k => match t.markPlace with
        | none => t
        | some t =>
          let m : Mark :=
            { mirror := decide (mode = 1), value := 0, sent := 0
              dests := if mode = 1 then [] else (dests.take ndest).map fun p =>
                { chip := p.1, mark := p.2, acked := 0, seq := 0, timer := none, resends := 0, unreachable := false }
              srcChip := if mode = 1 then srcChip else 0, srcMark := if mode = 1 then srcMark else 0, lastSeq := 0, poison := none
              stale := 0, changed := t.clk.domain, lastUse := t.clk.elapsed }
          let d : MarkDir := { owner := c.stall, version := 0, addr := spill, spilledAt := none }
          { t with mrk := { t.mrk with res := assocSet k m t.mrk.res, dir := assocSet k d t.mrk.dir } }.finishOk c (leBytes 2 k))

/-- A Mark freed: every wait on it ends (R379). -/
def State.freeMark (k : Nat) (s : State) : State :=
  let t := s.endMarkWaits k
  { t with mrk := { t.mrk with dir := assocDel k t.mrk.dir, res := assocDel k t.mrk.res, fills := t.mrk.fills.filter (· ≠ k) } }

/-- MARK_DESTROY (R379): a spilled Mark's index is freed too. -/
def execMarkDestroy (c : Call) (index : Nat) (s : State) : Host.Outcome State Fault Refusal :=
  done (s.command c 0x0702 fun t =>
    if t.markOwner index ≠ some c.stall then t.badArg c 0
    else (t.freeMark index).finish c stOk)

/-- Every Mark of a Stall destroyed, with a POISON signal to every destination (R413 step 1). -/
def State.destroyMarks (stall : Nat) (s : State) : State :=
  (s.mrk.dir.filter fun p => p.2.owner = stall).foldl (fun t p =>
    let t := match t.mark? p.1 with
      | some m => t.poisonDests p.1 m none
      | none => t
    t.freeMark p.1) s

/-- MARK_SIGNAL (R380). -/
def execMarkSignal (c : Call) (index op value : Nat) (s : State) : Host.Outcome State Fault Refusal :=
  done (s.command c 0x0703 fun t =>
    if 1 < op then t.badArg c 2
    else t.onMark c index fun _ t => match t.signalMark index (decide (op = 1)) value with
      | (u, st) => u.finish c st)

/-- MARK_WAIT (R486). -/
def execMarkWait (c : Call) (index timeout value : Nat) (s : State) : Host.Outcome State Fault Refusal :=
  done (s.command c 0x0704 fun t =>
    t.onMark c index fun m t =>
      if m.poison.isSome then t.finish c stMarkPoisoned
      else if value ≤ m.complete then t.finishOk c (leBytes 8 m.complete)
      else if t.mrk.waits.any fun w => w.call = c then t
      else
        let w : MarkWait := { call := c, index, value, deadline := if timeout = 0 then none else some (t.clk.elapsed + timeout * 1000) }
        { t with mrk := { t.mrk with waits := t.mrk.waits ++ [w] } }.waitBegin 79 1 (some c.stall) index)

/-- MARK_WAIT_TIMEOUT (R486): the oldest MARK_WAIT whose TIMEOUT_US has elapsed completes with ST_MARK_TIMEOUT. -/
def execMarkWaitTimeout (s : State) : Host.Outcome State Fault Refusal :=
  let t := s.begin
  match t.mrk.waits.find? fun w => (w.deadline.map fun d => decide (d ≤ t.clk.elapsed)).getD false with
  | none => done t
  | some w =>
    let u : State := { t with mrk := { t.mrk with waits := t.mrk.waits.erase w } }
    done ((u.waitEnd 79 1 (some w.call.stall) w.index).finish w.call stMarkTimeout)

/-- MARK_ROUTE (R381). -/
def execMarkRoute (c : Call) (chip primary alternate flags : Nat) (s : State) : Host.Outcome State Fault Refusal :=
  done (s.command c 0x0705 fun t =>
    if 2 ^ 15 ≤ chip then t.badArg c 0
    else if t.build.lseCount ≤ primary then t.badArg c 2
    else if alternate ≠ 0xFF ∧ t.build.lseCount ≤ alternate then t.badArg c 3
    else if 1 < flags then t.badArg c 4
    else
      let r : Route := { primary, alternate := if alternate = 0xFF then none else some alternate }
      { t with mrk := { t.mrk with
        routes := if flags = 1 then assocDel chip t.mrk.routes else assocSet chip r t.mrk.routes } }.finish c stOk)

end Sys2Proof.Machine
end

