-- ==== Sys2Proof/Machine/NvmOps.lean ====
section
/-!
DEFINITION. Writes to the NVM device the block makes by itself (spec/06_almanac_bringup.md): the Journal (R148, R149) and the STANDBY
session table (R150, R151).
-/

namespace Sys2Proof.Machine

/-! ### The Journal (R148, R149) -/

/-- Device offset of record `pos` of Journal sector `index`. -/
def journalOffset (index pos : Nat) : Nat := 0x00A00000 + index * 4096 + pos * 128

/-- KIND and payload of a record. -/
def JournalBody.payload : JournalBody → Nat × Bytes
  | .removal stall inst step => (1, leBytes 2 stall ++ zeros 2 ++ (padTo 16 inst).take 16 ++ leBytes 1 step ++ zeros 59)
  | .alarm e => (2, padTo 80 (e.take 32))

/-- The 128 bytes of a record. -/
def State.journalBytes (s : State) (kind seq : Nat) (payload nonce : Bytes) : Bytes :=
  let hdr := leBytes 4 0x4E4A5358 ++ leBytes 1 kind ++ zeros 3 ++ leBytes 8 seq ++ nonce ++ zeros 4
  let c := gcmSeal (s.storeKey 2) nonce hdr payload
  hdr ++ c.1 ++ c.2

/-- SEQ of the next record, and SECTOR_SEQ of the next sector: both start at 1 on an empty Journal. -/
def Nvm.nextSeq (n : Nvm) : Nat := ((n.journal.getLast?).map fun x => x.headSeq + x.records.length + 1).getD 1
def Nvm.nextSector (n : Nvm) : Nat × Nat := ((n.journal.getLast?).map fun x => ((x.index + 1) % 512, x.seq + 1)).getD (0, 1)

/-- A record written at the next position of the head sector, if that has room. [DEDUCED: notes/assumptions/39.md] -/
def State.journalPut (b : JournalBody) (s : State) : Option State :=
  match s.nvm.journal.getLast? with
  | none => none
  | some h =>
    if 31 ≤ h.records.length then none else
      let seq := s.nvm.nextSeq
      let p := b.payload
      let bytes := s.journalBytes p.1 seq p.2 (s.drawn 12)
      let h' : JournalSector := { h with records := h.records ++ [{ seq, body := b }] }
      some { s.tookDraw.emit (.nvmWrite (journalOffset h.index (h.records.length + 1)) bytes) with
        nvm := { s.nvm with journal := s.nvm.journal.dropLast ++ [h'] } }

/-- The latest REMOVAL records of a sector whose removal has not completed. -/
def State.liveRecords (s : State) (x : JournalSector) : List JournalBody :=
  (x.records.map (·.body)).filter fun b => match b with
    | .removal stall inst step =>
      (s.stl.removals.any fun r => decide (r.stall = stall ∧ r.inst = inst)) &&
        !(s.nvm.journal.any fun y => y.records.any fun r => match r.body with
          | .removal st i n => decide (st = stall ∧ i = inst ∧ step < n)
          | .alarm _ => false)
    | .alarm _ => false

/-- The next sector becomes the head: its header is written; where the sector after it is the oldest one, the live REMOVAL records of
that one are copied first. -/
def State.journalOpen (s : State) : State :=
  let (index, seq) := s.nvm.nextSector
  let headSeq := s.nvm.nextSeq
  let bytes := s.journalBytes 0 headSeq (padTo 80 (leBytes 8 seq)) (s.drawn 12)
  let t : State := { s.tookDraw.emit (.nvmWrite (journalOffset index 0) bytes) with
    nvm := { s.nvm with journal := s.nvm.journal ++ [{ index, seq, headSeq, records := [] }] } }
  match t.nvm.journal.find? fun x => x.index = (index + 1) % 512 with
  | none => t
  | some x => (t.liveRecords x).foldl (fun t b => (t.journalPut b).getD t) t

/-- A record for the Journal: written now, or queued while a sector erase is awaited; the next sector is erased first where it holds
records. -/
def State.journal (b : JournalBody) (s : State) : State :=
  let queue (t : State) : State := { t with nvm := { t.nvm with journalQueue := t.nvm.journalQueue ++ [b] } }
  if s.nvm.journalErase.isSome then queue s
  else match s.journalPut b with
    | some t => t
    | none =>
      let k := s.nvm.nextSector.1
      if (s.nvm.journal.any fun x => decide (x.index = k)) || s.nvm.journalStale.contains k then
        queue ({ s.emit (.nvmErase ((0x00A00000 + k * 4096) / 4096)) with nvm := { s.nvm with journalErase := some k } })
      else
        let t := s.journalOpen
        (t.journalPut b).getD (queue t)

/-- The queue has room for another record (R149: 64 at most). -/
def State.journalRoom (s : State) : Bool := decide (s.nvm.journalQueue.length < 64)

/-- The erase of a Journal sector has ended: it becomes the head and the queued records are written. -/
def State.journalErased (s : State) : State :=
  match s.nvm.journalErase with
  | none => s
  | some k =>
    let q := s.nvm.journalQueue
    let t : State := { s with nvm := { s.nvm with
      journalErase := none, journalQueue := [], journal := s.nvm.journal.filter fun x => x.index ≠ k
      journalStale := s.nvm.journalStale.filter fun i => i ≠ k } }
    q.foldl (fun t b => t.journal b) t.journalOpen

/-- A removal step has been journalled. -/
def State.journalled (s : State) (stall : Nat) (inst : Bytes) (step : Nat) : Bool :=
  s.nvm.journal.any fun x => x.records.any fun r => decide (r.body = .removal stall inst step)

/-! ### The STANDBY session table (R151) -/

/-- The table in effect: of the two copies that open, the one with the higher TABLE_SEQ. -/
def Nvm.standby (n : Nvm) : StandbyTable :=
  match n.standbyA, n.standbyB with
  | some a, some b => if a.seq < b.seq then b else a
  | some a, none => a
  | none, some b => b
  | none, none => { seq := 0, root := [], entries := [] }

/-- An entry as 160 bytes. -/
def StandbyEntry.bytes (e : StandbyEntry) : Bytes :=
  padTo 160 (leBytes 1 e.role ++ [0] ++ leBytes 2 e.stall ++ leBytes 2 e.peer ++ zeros 2 ++ (padTo 16 e.inst).take 16 ++
    (padTo 48 e.th).take 48 ++ (padTo 48 e.kEst).take 48 ++ leBytes 8 e.recordCounter ++ leBytes 8 e.written)

/-- A copy as it is written. -/
def State.standbyBytes (s : State) (t : StandbyTable) (nonce : Bytes) : Bytes :=
  let hdr := leBytes 4 0x53535358 ++ leBytes 2 1 ++ leBytes 2 t.entries.length ++ leBytes 8 t.seq ++ nonce ++ zeros 4
  let c := gcmSeal (s.storeKey 3) nonce hdr (padTo 10240 (t.entries.flatMap StandbyEntry.bytes))
  hdr ++ c.1 ++ c.2

/-- The whole table written into the copy with the lower TABLE_SEQ, one higher. [DEDUCED: notes/assumptions/39.md] -/
def State.writeStandby (entries : List StandbyEntry) (s : State) : State :=
  let old := s.nvm.standby
  let t : StandbyTable := { seq := old.seq + 1, root := s.sbx.root, entries }
  let toB := match s.nvm.standbyA, s.nvm.standbyB with
    | some a, some b => decide (b.seq ≤ a.seq)
    | some _, none => true
    | _, _ => false
  let off := if toB then 0x00C18000 else 0x00C10000
  let u := (s.tookDraw.emits ((List.range 8).map fun k => .nvmErase (off / 4096 + k))).emit
    (.nvmWrite off (s.standbyBytes t (s.drawn 12)))
  { u with nvm := if toB then { u.nvm with standbyB := some t } else { u.nvm with standbyA := some t } }

/-- A new session: a full table replaces the entry with the lowest WRITTEN. -/
def State.addStandby (e : StandbyEntry) (s : State) : State :=
  let es := s.nvm.standby.entries
  let seq := s.nvm.standby.seq + 1
  let oldest := es.foldl (fun (b : Option StandbyEntry) x => match b with
    | none => some x
    | some y => if x.written < y.written then some x else b) none
  let es := if es.length < 64 then es else match oldest with
    | some y => es.erase y
    | none => es
  s.writeStandby (es ++ [{ e with written := seq }])

end Sys2Proof.Machine
end

