-- ==== Sys2Proof/Machine/Regions.lean ====
section
/-!
DEFINITION. The two region commands of the Ledger (spec/10_ledger_sweeper.md R284 to R286).
-/

namespace Sys2Proof.Machine

/-- The regions a command names: COUNT consecutive ones from sealed address REGION × 4 MiB; none stands for an address without
a region. -/
def State.namedRegions (s : State) (region count : Nat) : List (Option RegionId) :=
  (List.range count).map fun k => s.regionOf (regionBytes * (region + k))

/-- A region is free and no bind of it waits for its anchoring. -/
def State.bindable (s : State) (r : RegionId) : Bool :=
  decide ((s.entry r).state = .free) && !s.ldg.grants.any fun g => decide (g.1 = r)

/-- The status REGION_BIND fails with, in the order of R284; the rows before are common to all commands. -/
def State.bindStatus (s : State) (c : Call) (region count mode : Nat) : Option Nat :=
  let rs := s.namedRegions region count
  let addr (k : Nat) : Nat := regionBytes * (region + k)
  let outside := (List.range count).any fun k => s.inCarveRange (addr k)
  let harbour := (List.range count).any fun k => s.inHarbour (addr k)
  let store := rs.any fun r => (r.map fun r => decide ((s.entry r).state = .lstore)).getD true
  let noinit := if c.stall = 0 then (s.cfg.policy.map (·.bindAllow)).getD false else ((s.stall? c.stall).map (·.bindNoinit)).getD false
  if outside ∨ store then some stRegionRange
  else if c.stall ≠ 0 ∧ (harbour ∨ mode = 2) then some stRegionRange
  else if rs.any fun r => (r.map fun r => !s.bindable r).getD true then some stRegionBusy
  else if mode = 1 ∧ ¬ noinit then some stRegionState
  else none

/-- The newest generation of the handle that seals a Stall's regions (R284); 0 where the Stall has no REGION key. -/
def State.bindGen (s : State) (stall : Nat) : Nat :=
  (((s.regionHandle stall).bind s.liveEntry?).map (·.gen)).getD 0

/-- One region bound in mode ZERO: ZEROING at FLOOR E, its fill ordered (R285). -/
def State.bindZero (stall gen : Nat) (r : RegionId) (s : State) : State :=
  let e : LdgEntry := { owner := stall, gen, state := .zeroing, floor := s.epo.epoch, sweep := true }
  let t := (s.changeEntry r e none).queueItems [.entry r e]
  { t with swp := { t.swp with queue := t.swp.queue ++ [{ kind := .zero, region := r, stall, old := gen, new := gen, bootOld := false }] } }

/-- REGION_BIND (R284, R285): ZERO completes with its fill; NOINIT and PLAIN grant access once anchored (R283). -/
def execRegionBind (c : Call) (region count mode : Nat) (s : State) : Host.Outcome State Fault Refusal :=
  done (s.command c 0x0301 fun t =>
    if count = 0 ∨ 1024 < count then t.badArg c 4
    else if 2 < mode then t.badArg c 6
    else match t.bindStatus c region count mode with
      | some st => t.finish c st
      | none =>
        let rs := (t.namedRegions region count).filterMap id
        let gen := t.bindGen c.stall
        if mode = 0 then
          let u := rs.foldl (fun t r => t.bindZero c.stall gen r) t
          let w : AnchorWait := { call := c, status := stOk, result := [], regions := rs, items := [] }
          { u with ldg := { u.ldg with waits := u.ldg.waits ++ [w] } }
        else
          let entry : LdgEntry :=
            { owner := c.stall, gen := if mode = 2 then 0 else gen, state := if mode = 2 then .plain else .sealed
              floor := t.epo.epoch, sweep := false }
          let items := rs.map fun r => DeltaItem.entry r entry
          let w : AnchorWait := { call := c, status := stOk, result := [], regions := [], items }
          ({ t with ldg := { t.ldg with
            grants := t.ldg.grants ++ rs.map fun r => (r, entry)
            waits := t.ldg.waits ++ [w] } } : State).queueItems items)

/-- A region that leaves its owner: its sweep orders are dropped, it is RETIRING, and FREE once every MSE has acknowledged
(R283, R286). -/
def State.retireRegion (r : RegionId) (s : State) : State :=
  let e := s.entry r
  let swept := s.mse.any fun m => m.sweeps.any fun t => decide (t.region = r)
  let t : State := { s with swp := { s.swp with
    queue := s.swp.queue.filter fun o => o.region ≠ r
    slots := s.swp.slots.filter fun p => p.2.order.region ≠ r } }
  let t := if swept then t.spineMses (.unadopt r e.owner) else t
  t.changeEntry r { e with state := .retiring, sweep := false } (some .retire)

/-- Some region named may not be retired by the command (R286). -/
def State.retireBad (s : State) (c : Call) (owner : Nat) (r : Option RegionId) : Bool :=
  match r with
  | none => true
  | some r =>
    let e := s.entry r
    decide (e.owner ≠ owner ∨ e.state = .free ∨ e.state = .boot ∨ e.state = .lstore ∨
      s.stallState e.owner = .removing ∨ (owner ≠ c.stall ∧ (c.stall ≠ 0 ∨ s.stallState owner ≠ .lost)))

/-- REGION_RETIRE (R286). -/
def execRegionRetire (c : Call) (region count owner : Nat) (s : State) : Host.Outcome State Fault Refusal :=
  done (s.command c 0x0302 fun t =>
    let who := if owner = 0 then c.stall else owner
    let rs := t.namedRegions region count
    if count = 0 ∨ 1024 < count then t.badArg c 4
    else if 4096 ≤ owner then t.badArg c 6
    else if rs.any (t.retireBad c who) then t.finish c stRegionState
    else
      let rs := rs.filterMap id
      let u : State := { t with ldg := { t.ldg with
        waits := t.ldg.waits ++ [{ call := c, status := stOk, result := [], regions := rs, items := [] }] } }
      (rs.foldl (fun t r => t.retireRegion r) u).settle)

end Sys2Proof.Machine
end

