-- ==== Sys2Proof/Machine/BoothCore.lean ====
section
/-!
DEFINITION. What the Booth's commands share (spec/14_booth.md): the lock, the checks of R442, the start of a queued operation, and the
arithmetic of an operation.
-/

namespace Sys2Proof.Machine

/-! ### Ranges (R438) -/

/-- Every region from byte `addr` over `len` bytes has an entry that meets a condition. -/
def State.rangeAll (s : State) (addr len : Nat) (p : LdgEntry → Bool) : Bool :=
  decide (0 < len) && (List.range ((addr + len - 1) / regionBytes + 1 - addr / regionBytes)).all fun k =>
    match s.regionOf (regionBytes * (addr / regionBytes + k)) with
    | none => false
    | some r => p (s.entry r)

/-- The plaintext side of an operation of a Stall. -/
def plainSide (stall : Nat) (e : LdgEntry) : Bool :=
  match e.state with
  | .sealed => decide (e.owner = stall)
  | .plain => decide (stall = 0)
  | .boot => decide (stall = 0)
  | _ => false

/-- The ciphertext side of an operation of a Stall. -/
def cipherSide (stall : Nat) (e : LdgEntry) : Bool :=
  match e.state with
  | .plain => true
  | .sealed => decide (e.owner = stall)
  | _ => false

/-- PLAIN regions alone. -/
def plainOnly (e : LdgEntry) : Bool := decide (e.state = .plain)

/-- Two byte ranges share no byte. -/
def disjoint (a m b n : Nat) : Bool := decide (a + m ≤ b ∨ b + n ≤ a)

/-- Whose identity an access to an address carries: Stall 0 in PLAIN and BOOT regions (R438). -/
def State.accessStall (s : State) (stall addr : Nat) : Nat :=
  match s.regionOf addr with
  | none => stall
  | some r => match (s.entry r).state with
    | .plain => 0
    | .boot => 0
    | _ => stall

/-- A write of bytes on the internal path, cut where a region ends. -/
def State.writeRange (stall addr : Nat) (data : Bytes) (s : State) : State :=
  let first := regionBytes - addr % regionBytes
  let cut := (data.take first, addr) :: (chunks regionBytes (data.drop first)).zipIdx.map fun p =>
    (p.1, addr + first + regionBytes * p.2)
  cut.foldl (fun t p => if p.1.isEmpty then t else t.emit (.memWrite (s.accessStall stall p.2) p.2 p.1)) s

/-! ### The lock (R431, R432) -/

/-- An entry of REG_AUTH matches a function (R593). -/
def AuthEntry.hits (e : AuthEntry) (fn : Nat) : Bool := decide (Nat.land fn e.mask = Nat.land e.fn e.mask)

/-- An operator function: some entry of REG_AUTH matches it (R593). -/
def State.operatorFn (s : State) (fn : Nat) : Bool := s.cfg.regAuth.any fun e => e.hits fn

/-- The Stall a function maps to (R403): Stall 0 for an operator function, none where it maps to no Stall. -/
def State.fnStall? (s : State) (fn : Nat) : Option Nat :=
  if s.operatorFn fn then some 0 else (s.stl.fnMap.find? fun p => p.2.1 = fn).map fun p => p.2.2

/-- The Tollgate waits for the lock (R434). -/
def State.handoffWaits (s : State) : Bool := (s.tol.running.map fun e => decide (e.phase = 5)).getD false && !s.bth.tollgate

/-- The lock is released; operations still queued lose it (R432, R433). -/
def State.unlockBooth (s : State) : State :=
  let q := s.bth.queue
  let t : State := { s with bth := { s.bth with holder := none, tollgate := false, releaseDue := false, queue := [] } }
  q.foldl (fun t o => t.finish o.call stBoothNolock) t

/-- A release that waits takes effect once nothing runs and nothing is queued (R432); so does the loss of the holder's Stall. -/
def State.settleLock (s : State) : State :=
  match s.bth.holder with
  | none => s
  | some h =>
    let st := s.stallState h.2
    if s.bth.running.isSome ∨ s.bth.tollgate then s
    else if st = .lost ∨ st = .removing ∨ (s.bth.releaseDue ∧ s.bth.queue.isEmpty) then s.unlockBooth
    else s

/-! ### The checks of R442 -/

/-- Flags of R435. -/
def BoothOp.stream (o : BoothOp) : Bool := o.flags.testBit 0
def BoothOp.release (o : BoothOp) : Bool := o.flags.testBit 3

/-- The operation authenticates: a GCM decrypt or a CMAC verify. -/
def BoothOp.verifies (o : BoothOp) : Bool := o.decrypt && (decide (o.mode = 0) || decide (o.mode = 3))

/-- Hold mode (R440). -/
def BoothOp.holds (o : BoothOp) : Bool := o.verifies && !o.stream

/-- The operation takes a hardware nonce (R439). -/
def State.hwNonce (s : State) (o : BoothOp) : Bool :=
  !o.decrypt && (decide (o.mode = 0) || decide (o.mode = 2)) &&
    (!s.ald.full || decide (handleType o.handle = keyExport) || o.header.isSome || o.flags.testBit 1)

/-- AES blocks the operation counts (R441). -/
def BoothOp.blocks (o : BoothOp) : Nat :=
  match o.mode with
  | 0 => o.len / 16 + 1
  | 1 => o.len / 16 + o.len / max o.du 1
  | _ => o.len / 16

/-- Type, KEY_LEN, usage and mode go together (R436). -/
def boothPermits (o : BoothOp) (e : KeyEntry) : Bool :=
  let type := handleType o.handle
  (match o.mode with
  | 0 => decide ((type = keyBooth ∨ type = keyIngest ∨ type = keyExport) ∧ e.keyLen = 32)
  | 1 => decide (type = keyBooth ∧ e.keyLen = 64)
  | 2 => decide (type = keyBooth ∧ e.keyLen = 32)
  | 3 => decide (type = keyBooth ∧ e.keyLen = 32)
  | _ => false) &&
    e.usage.testBit (if o.mode = 3 then 3 else if o.decrypt then 2 else 1)

/-- Length, TAIL, DU, IV, overlap, hold limit or counter wrap is wrong (R435, R437 to R440). -/
def State.boothBadParam (s : State) (o : BoothOp) : Bool :=
  let hw := s.hwNonce o
  let iv0 := decide (o.iv = zeros 16)
  decide (o.len % 16 ≠ 0 ∨ o.len < 16 ∨ 2 ^ 24 < o.len ∨ o.src % 16 ≠ 0 ∨ (o.mode ≠ 3 ∧ o.dst % 16 ≠ 0) ∨
    ((o.mode = 0 ∨ o.mode = 3) ∧ o.tag % 16 ≠ 0)) ||
  (if o.mode = 0 then decide (16 < o.tail ∨ o.aadLen % 16 ≠ 0 ∨ 4096 < o.aadLen ∨ 16 < o.aadTail ∨ (o.aadLen = 0 ∧ o.aadTail ≠ 0) ∨
      (o.aadLen ≠ 0 ∧ o.header.isNone ∧ o.aad % 16 ≠ 0) ∨ slice o.iv 12 4 ≠ zeros 4)
    else decide (o.tail ≠ 0 ∨ o.aadLen ≠ 0 ∨ o.aadTail ≠ 0)) ||
  (if o.mode = 1 then decide (o.du % 16 ≠ 0 ∨ o.du < 16 ∨ 2 ^ 24 < o.du) || decide (o.len % max o.du 1 ≠ 0) else decide (o.du ≠ 0)) ||
  ((decide (o.mode = 3) || (hw && !o.hwNonce)) && !iv0) ||
  (decide (o.mode = 2) && !hw && decide (2 ^ 32 < ofBe (slice o.iv 12 4) + o.len / 16)) ||
  (decide (o.mode ≠ 3 ∧ o.src ≠ o.dst) && !disjoint o.src o.len o.dst o.len) ||
  (o.holds && decide (131072 < o.len))

/-- The Stall may select stream mode (R440). -/
def State.streamAllowed (s : State) (stall : Nat) : Bool :=
  ((s.cfg.policy.map (·.boothAllow)).getD false) && (decide (stall = 0) || ((s.stall? stall).map (·.boothStream)).getD false)

/-- Both sides lie where R438 puts them. -/
def State.boothPlaced (s : State) (o : BoothOp) : Bool :=
  let st := o.call.stall
  let cipher : LdgEntry → Bool :=
    if handleType o.handle = keyExport ∧ ¬ o.decrypt ∧ ¬ s.build.tol then plainOnly else cipherSide st
  let src := if ¬ o.decrypt ∨ o.mode = 3 then s.rangeAll o.src o.len (plainSide st) else s.rangeAll o.src o.len (cipherSide st)
  let dst := decide (o.mode = 3) || (if o.decrypt then s.rangeAll o.dst o.len (plainSide st) else s.rangeAll o.dst o.len cipher)
  let tag := !(decide (o.mode = 0) || decide (o.mode = 3)) || s.rangeAll o.tag 16 cipher
  let aad := decide (o.mode ≠ 0 ∨ o.aadLen = 0) || o.header.isSome || s.rangeAll o.aad o.aadLen (cipherSide st)
  src && dst && tag && aad

/-- Uses and operations counted against a key (R197). -/
def State.keyCount (s : State) (h g : Nat) : Nat × Nat :=
  match s.sbx.slotOf h g with
  | some p => (p.2.count, p.2.ops)
  | none => ((s.keyEntry? h g).map fun e => (e.use, e.ops)).getD (0, 0)

/-- The operation would cross a limit of its key. -/
def State.overLimit (s : State) (h g n : Nat) : Bool :=
  let c := s.keyCount h g
  decide (2 ^ 36 < c.1 + n ∨ 2 ^ 32 < c.2 + 1)

/-- The first check of R442 an operation fails, from the key on. -/
def State.boothCheck (s : State) (o : BoothOp) : Option Nat :=
  match (if handleOwner o.handle = o.call.stall then s.liveEntry? o.handle else none) with
  | none => some stKeyUnknown
  | some e =>
    if ¬ boothPermits o e then some stKeyType
    else if handleType o.handle = keyExport ∧ s.build.tol ∧ o.header.isNone then some stBthNotoll
    else if s.boothBadParam o then some stBthParam
    else if o.stream ∧ (handleType o.handle = keyIngest ∨ ¬ s.streamAllowed o.call.stall) then some stPolicy
    else if ¬ s.boothPlaced o then some stBthAddr
    else if s.overLimit o.handle e.gen o.blocks then some stKeyLimit
    else none

/-- What is raised with a status of R442. -/
def State.boothRaise (o : BoothOp) (st : Nat) (s : State) : State :=
  if st = stBthNotoll then s.event evBthNotoll unitBooth (some o.call.stall) o.handle 0
  else if st = stKeyLimit then
    let g := ((s.liveEntry? o.handle).map (·.gen)).getD 0
    let c := s.keyCount o.handle g
    let w := wearPercent (handleType o.handle) c.1 c.2
    if w < 75 then s.event evKeyWear unitStrongbox (some o.call.stall) o.handle w else s
  else s

/-! ### Starting and ending operations (R441) -/

/-- Uses counted in the slot of a resident key: EV_KEY_WEAR as 75% is passed (R197). -/
def State.countBooth (h g n : Nat) (s : State) : State :=
  let c := s.keyCount h g
  let before := wearPercent (handleType h) c.1 c.2
  let after := wearPercent (handleType h) (c.1 + n) (c.2 + 1)
  let t : State := { s with sbx := { s.sbx with slots := s.sbx.slots.map fun p =>
    if p.2.handle = h ∧ p.2.gen = g then (p.1, { p.2 with count := c.1 + n, ops := c.2 + 1 }) else p } }
  if before < 75 ∧ 75 ≤ after then t.event evKeyWear unitStrongbox (some (handleOwner h)) h after else t

/-- A key's slot marked busy or not (R188). -/
def State.keyBusy (h : Nat) (b : Bool) (s : State) : State :=
  { s with sbx := { s.sbx with slots := s.sbx.slots.map fun p => if p.2.handle = h then (p.1, { p.2 with busy := b }) else p } }

/-- A queued operation refused: it leaves the queue and its record is issued; RELEASE releases the lock with it. -/
def State.refuseBooth (o : BoothOp) (st : Nat) (s : State) : State :=
  let t : State := { s with bth := { s.bth with queue := s.bth.queue.erase o, leaseAt := s.clk.elapsed } }
  let t := (t.boothRaise o st).finish o.call st
  if o.release ∧ o.header.isNone then t.unlockBooth else t

/-- The operation reaches its commit point (R441): its nonce is drawn where it takes a hardware one, its uses are counted. -/
def State.startBooth (o : BoothOp) (gen : Nat) (s : State) : State :=
  let hw := s.hwNonce o && !o.hwNonce
  let o' : BoothOp := if hw then { o with iv := s.drawn 12 ++ zeros 4, hwNonce := true } else o
  let t := if hw then s.tookDraw.bump (ctrBooth 7) 1 else s
  let t : State := { t with bth := { t.bth with
    running := some o', queue := t.bth.queue.erase o, opsCount := satAdd 65535 t.bth.opsCount 1 } }
  let t := ((((t.bump (ctrBooth 0) 1).bump (ctrBooth 3) o.blocks).bump (ctrBooth (if o.stream then 6 else 5))
    (if o.verifies then 1 else 0)).countBooth o.handle gen o.blocks).keyBusy o.handle true
  (t.meter 3 o.call.stall o.len).progress

/-- A command waits for random bits, or does not wait any more (R199). -/
def State.addEntropyWait (c : Call) (s : State) : State :=
  let w : EntropyWait := { call := c, since := s.clk.elapsed }
  { s with sbx := { s.sbx with entropyWaits := s.sbx.entropyWaits ++ [w] } }

def State.endEntropyWait (c : Call) (s : State) : State :=
  { s with sbx := { s.sbx with entropyWaits := s.sbx.entropyWaits.filter fun w => w.call ≠ c } }

/-- The next queued operations start or are refused, as far as the Booth is free (R433, R441): a key that is not resident is unwrapped
first (R195), and a hardware nonce waits for entropy up to 1 ms (R199). -/
def State.kickBooth : Nat → State → State
  | 0, s => s
  | n + 1, s =>
    if s.bth.running.isSome ∨ s.sbx.zeroNet ∨ s.alr.quiet ∨ s.unitHeld unitBooth then s
    else match s.bth.queue with
      | [] => s.settleLock
      | o :: _ =>
        match s.boothCheck o with
        | some st => (s.refuseBooth o st).kickBooth n
        | none =>
          let gen := ((s.liveEntry? o.handle).map (·.gen)).getD 0
          if (s.sbx.slotOf o.handle gen).isNone then s.wantKey unitBooth o.handle gen
          else if s.hwNonce o ∧ ¬ o.hwNonce ∧ ¬ s.sbx.entropyOk then
            if s.sbx.entropyWaits.any fun w => w.call = o.call then s
            else (s.addEntropyWait o.call).waitBegin 80 17 (some o.call.stall) 0
          else
            let t : State := s.endEntropyWait o.call
            (t.waitEnd 80 17 (some o.call.stall) 0).startBooth o gen

/-- Queued operations whose key the Strongbox refused (R194, R442). -/
def State.staleBooth (h : Nat) (s : State) : State :=
  (s.bth.queue.filter fun o => o.handle = h).foldl (fun t o => t.refuseBooth o stKeyStale) s

/-- Waiting work of a command ends: it leaves the Booth's queue and the Tollgate (R199). -/
def State.dropWaiting (c : Call) (s : State) : State :=
  let t : State := { s with bth := { s.bth with queue := s.bth.queue.filter fun o => o.call ≠ c } }
  if (t.tol.running.map fun e => decide (e.call = c)).getD false then
    { t with tol := { t.tol with running := none, hold := [] } }
  else t

/-! ### The arithmetic of an operation (R436, R437) -/

/-- True lengths of data and AAD (R437). -/
def BoothOp.trueLen (o : BoothOp) : Nat := if o.mode = 0 ∧ o.tail ≠ 0 then o.len - 16 + o.tail else o.len
def BoothOp.trueAad (o : BoothOp) : Nat := if o.aadTail ≠ 0 then o.aadLen - 16 + o.aadTail else o.aadLen

/-- XTS over data units from a data unit number on (R436). -/
def xtsUnits (decrypt : Bool) (key : Bytes) : Nat → List Bytes → Bytes
  | _, [] => []
  | n, u :: us =>
    let tweak := leBytes 16 n
    (if decrypt then xtsDec (key.take 32) (key.drop 32) tweak u else xtsEnc (key.take 32) (key.drop 32) tweak u) ++
      xtsUnits decrypt key (n + 1) us

/-- The data an operation makes of its input, up to `data`'s length (R436); bytes beyond TAIL are zero (R437).
[DEDUCED: notes/assumptions/44.md] [DEDUCED: notes/assumptions/72.md] -/
def BoothOp.output (o : BoothOp) (key data : Bytes) : Bytes :=
  match o.mode with
  | 0 => padTo data.length (gcmCtr key (o.iv.take 12) (data.take o.trueLen))
  | 1 => xtsUnits o.decrypt key (ofLe o.iv) (chunks (max o.du 16) data)
  | 2 => ctrCrypt key o.iv data
  | _ => []

/-- CMAC with subkey K2 for the last block where FINAL_PARTIAL says that software padded it (R437). -/
def boothCmac (key msg : Bytes) (partial_ : Bool) : Bytes :=
  let k1 := cmacDbl (ofBe (aesEnc key (zeros 16)))
  let k := if partial_ then cmacDbl k1 else k1
  let y := cmacChain key (zeros 16) (chunks 16 (msg.take (msg.length - 16)))
  aesEnc key (xorBytes y (xorBytes (msg.drop (msg.length - 16)) (beBytes 16 k)))

/-- The tag of a GCM or CMAC operation over its whole input. -/
def BoothOp.tagOf (o : BoothOp) (key aad data : Bytes) : Bytes :=
  if o.mode = 3 then boothCmac key data (o.flags.testBit 2)
  else
    let d := data.take o.trueLen
    gcmTag key (o.iv.take 12) (aad.take o.trueAad) (if o.decrypt then d else gcmCtr key (o.iv.take 12) d)

end Sys2Proof.Machine
end

