-- ==== Sys2Proof/Machine/Strongbox.lean ====
section
/-!
DEFINITION. The commands of the Strongbox (spec/07_strongbox.md): unwraps and fills, slot masks and their check codes, entropy and the
key-pair pool, use reports, invalidations, the verify pass, and the KEY_ commands.
-/

namespace Sys2Proof.Machine

/-! ### Slot check codes (R533) -/

/-- The key of HSE stream `st`, direction and key set, as the number `ideHandle` takes. -/
def ideNumber (st : Nat) (dirTx : Bool) (set_ : Nat) : Nat := 4 * st + 2 * bit dirTx + set_

/-- An HSE stream becomes Insecure (R345). -/
def State.hseInsecure (i k : Nat) (s : State) : State :=
  (s.modHse i fun h => if k = 1 then { h with cacheState := 2 } else { h with state := 2 }).event evHseInsecure (unitHse i) none i 0

/-- A LINK key lost: the LSE no longer holds it and enters DOWN. The event's second argument is not stated for this cause, so it
is a free value. -/
def State.linkKeyLost (i k : Nat) (s : State) : State :=
  let t := s.modLse i fun l =>
    if k = 0 then { l with secret := [] }
    else if k = 1 then { l with tx := l.tx.zeroized }
    else if k = 2 then { l with rx := l.rx.zeroized }
    else { l with txNext := none, rxNext := none }
  t.tookDraw.lseDown i t.free

/-- A slot whose check code does not match: its key is discarded, AL_INTEGRITY KEYSLOT is raised, and its bank goes under its Sounding
where the spare bank is free; else the slot is out of service until S (R533). -/
def State.slotMismatch (n : Nat) (s : State) : State :=
  match assocGet n s.sbx.slots with
  | none => s
  | some k =>
    let type := handleType k.handle
    let lost := decide (type = 0x9 ∨ type = 0xA ∨ type = 0xB)
    let owner := if handleOwner k.handle = 0 then none else some (handleOwner k.handle)
    let t := if type = 0xC then s
      else { s.saveUse k with sbx := { (s.saveUse k).sbx with slots := assocDel n s.sbx.slots } }
    let t := if type = 0xA then t.linkKeyLost ((k.handle - linkHandle 0 0) / 4) (k.handle % 4)
      else if type = 0xB then
        let h := k.handle % 65536 / 16
        (t.hseInsecure h (k.handle % 8 / 4)).modHse h fun x => { x with
          keys := x.keys.filter fun y => ideNumber y.stream y.dirTx y.keySet ≠ k.handle % 8 }
      else t
    let b := n / 16
    let t : State :=
      if t.sbx.testing.contains b then t
      else if t.cht.ksBank.isNone then
        { t with sbx := { t.sbx with testing := t.sbx.testing ++ [b] }, cht := { t.cht with ksBank := some b, ksField := false } }
      else { t with sbx := { t.sbx with outOfService := t.sbx.outOfService ++ [n] } }.sounding unitStrongbox 2 3
    t.alarmIntegrity unitStrongbox owner none 6 (n + 256 * bit lost)

/-- KEYSLOT_MASK_REFRESH (R188): every mask changes and no key does; `bad` are the slots whose check code did not match (R533).
[DEDUCED: notes/assumptions/60.md] -/
def execKeyslotMaskRefresh (bad : List Nat) (s : State) : Host.Outcome State Fault Refusal :=
  let t := s.begin
  if t.sbx.zeroNet then done t else
    let u : State := { t with sbx := { t.sbx with refreshes := t.sbx.refreshes + 1 } }
    done (bad.foldl (fun u n => u.slotMismatch n) u)

/-- KEYSLOT_BANK_SOUNDING_DONE (R533): BANK_FAULT keeps the spare in use, SLOT_TRANSIENT copies the keys back. -/
def execKeyslotBankSoundingDone (bank : Nat) (pass : Bool) (s : State) : Host.Outcome State Fault Refusal :=
  let t := s.begin
  if ¬ t.sbx.testing.contains bank then done t else
    let t : State := { t with sbx := { t.sbx with testing := t.sbx.testing.filter (· ≠ bank) } }
    if pass then done ({ t with cht := { t.cht with ksBank := none } }.sounding unitStrongbox 2 2)
    else
      let u : State := { t with
        cht := { t.cht with ksField := true }
        ald := { t.ald with repairDue := t.ald.repairDue.orElse fun _ => some t.clk.elapsed } }
      done (u.sounding unitStrongbox 2 1)

/-! ### Fills and unwraps (R191, R194, R195) -/

/-- KEY_CACHE_FILL: the tile with unit code `tile` gets a key that a slot holds (R191); an MSE's held requests and parked
beats go on. A key in no slot waits for its unwrap. `bad`: the slot's check code does not match (R533). -/
def execKeyCacheFill (tile handle gen : Nat) (bad : Bool) (s : State) : Host.Outcome State Fault Refusal :=
  let t := s.begin
  if (t.tileKey? tile handle gen).isSome ∨ t.sbx.zeroNet then done t else
  match t.sbx.slotOf handle gen with
  | none => done (t.wantKey tile handle gen)
  | some p =>
    if t.sbx.testing.contains (p.1 / 16) then done t
    else if bad then
      let u := t.slotMismatch p.1
      done (if (u.sbx.slotOf handle gen).isNone ∧ (u.keyEntry? handle gen).isSome then u.wantKey tile handle gen else u)
    else
      let u := ({ t with sbx := t.sbx.touch p.1 }).fillTileKey tile handle gen p.2.material
      done (if tile < 0x40 then (((u.retryBeats tile).rerun tile).advanceAll tile).endMse tile else u)

/-- The keys a parked beat waits for. -/
def State.beatNeeds (s : State) (m : Mse) (o : MemOp) (h g : Nat) : Bool :=
  match s.selectAt m o.sector with
  | none => false
  | some (_, _, k) => (k.first :: k.second.toList).any fun x => decide (x.ref = some (h, g))

/-- Requests of an MSE that wait for a key that cannot be had are answered REFUSED, as for an unusable key (R191, R263). -/
def State.refuseKey (i h g : Nat) (s : State) : State :=
  match s.mse[i]? with
  | none => s
  | some m =>
    let waits (p : HostReq × HoldCause) : Bool := decide (p.2 = .key h g)
    let parked := m.ops.filter fun o => o.beat && s.beatNeeds m o h g
    let t := s.modMse i fun m => { m with held := m.held.filter fun p => !waits p }
    let t := (m.held.filter waits).foldl (fun t p => (t.refuse i p.1).holdEnded i p.1 p.2) t
    let t := parked.foldl (fun t o => ((m.served o).1.foldl (fun t r => t.refuse i r) (t.modMse i fun m =>
        let m := (m.dropOp o).dropSweeper o.sector
        if o.role = .entryRead then
          { m with hazards := m.hazards.map fun z => if z.sector ≠ o.sector then z
            else if z.outBuf.isSome then { z with outBuf := none } else { z with queue := z.queue.drop 1 } }
        else m)).advance i o.sector) t
    ((t.rerun i).advanceAll i).endMse i

/-- A blob refused (R194): STALE_COUNT, EV_KEY_STALE, and what waited for the key fails. -/
def State.unwrapFailed (u : Unwrap) (s : State) : State :=
  let t : State := { s with sbx := { s.sbx with staleCount := satAdd 65535 s.sbx.staleCount 1 } }
  let t := (t.event evKeyStale unitStrongbox (some (handleOwner u.handle)) u.handle 0).bump (ctrSbx 1) 1
  u.waiters.foldl (fun t w => match w with
    | .tile i => if i < 0x40 then t.refuseKey i u.handle u.gen else if i = unitBooth then t.staleBooth u.handle else t
    | .command c _ => t.finish c stKeyStale) t

/-- What waited for a key that is in a slot goes on (R191, R195). -/
def State.unwrapServed (u : Unwrap) (material : Bytes) (s : State) : State :=
  u.waiters.foldl (fun t w => match w with
    | .tile i =>
      if i = unitBooth then t else
      let t := if (t.tileKey? i u.handle u.gen).isSome then t else t.fillTileKey i u.handle u.gen material
      if i < 0x40 then (((t.retryBeats i).rerun i).advanceAll i).endMse i else t
    | .command c pin =>
      let t := if ¬ pin then t else
        { t with sbx := { t.sbx with slots := t.sbx.slots.map fun p =>
          if p.2.handle = u.handle ∧ p.2.gen = u.gen then (p.1, { p.2 with pinned := true, cls := .stall }) else p } }
      t.finish c stOk) s

/-- KEY_UNWRAP_DONE (R194, R195): the fetched blob passes the checks and its key goes into a slot, or it is refused. Two unwraps run
at once, and none starts during core reset. -/
def execKeyUnwrapDone (handle gen : Nat) (blob : BufRead) (s : State) : Host.Outcome State Fault Refusal :=
  let t := s.begin
  match (t.sbx.unwraps.take 2).find? fun u => u.handle = handle ∧ u.gen = gen with
  | none => done t
  | some u =>
    if t.sbx.zeroNet ∨ t.rst.coreReset.isSome ∨ t.alr.quiet then done t else
      let v : State := { t with sbx := { t.sbx with unwraps := t.sbx.unwraps.erase u } }
      let key := match blob with
        | .ok b => t.openBlob handle gen b
        | .failed => none
      match key, t.keyEntry? handle gen with
      | some k, some e =>
        let slot := { KeySlot.fresh handle gen e.usage k with count := e.use, ops := e.ops }
        match v.placeKey slot with
        | none => done t
        | some w => done (((w.unwrapServed u k).bump (ctrSbx 0) 1).kickBooth 8)
      | _, _ => done ((v.unwrapFailed u).kickBooth 8)

/-! ### Uses, invalidations and zeroization (R196, R203, R204) -/

/-- KEY_USE_REPORT (R196): a tile reports the uses of its copy at every 4,096; wear and limits are checked (R197). -/
def execKeyUseReport (tile handle gen : Nat) (blobOk : Bool) (s : State) : Host.Outcome State Fault Refusal :=
  let t := s.begin
  match t.sbx.tiles.find? fun k => k.tile = tile ∧ k.handle = handle ∧ k.gen = gen with
  | none => done t
  | some k =>
    if k.unreported < 4096 then done t else
      let u : State := { t with sbx := { t.sbx with
        tiles := t.sbx.tiles.map fun x => if x = k then { k with unreported := 0 } else x } }
      done ((u.creditUses handle gen k.unreported).regionWear handle gen blobOk)

/-- Destructions of keys take their next step: one that waited for the Booth erases its key, one whose tiles have all acknowledged
is complete (R203, R205). -/
def State.settleDestroys (s : State) : State :=
  let uses (h : Nat) : Bool := (s.bth.running.map fun o => decide (o.handle = h)).getD false
  let freed := s.sbx.destroys.filter fun d => d.held && !uses d.handle
  let t := freed.foldl (fun t d =>
    let gens := (((t.stallData? (handleOwner d.handle)).map (·.keys)).getD []).filter fun k => k.handle = d.handle
    gens.foldl (fun t k => t.eraseKey d.handle k.gen) t) s
  let ds := t.sbx.destroys.map fun d => if d.held && !uses d.handle then { d with held := false } else d
  let ended (d : KeyDestroy) : Bool := !d.held && !(t.sbx.invals.any fun v => v.handle = d.handle)
  (ds.filter ended).foldl (fun t d => match d.call with
    | some c => t.finish c stOk
    | none => t) { t with sbx := { t.sbx with destroys := ds.filter fun d => !ended d } }

/-- KEY_INVALIDATION_APPLY (R203): the tile's copy goes, with its last report of uses, and the tile acknowledges. -/
def execKeyInvalidationApply (tile handle gen : Nat) (s : State) : Host.Outcome State Fault Refusal :=
  let t := s.begin
  let i : KeyInval := { tile, handle, gen }
  if ¬ t.sbx.invals.contains i then done t else
    let t := match t.sbx.tiles.find? fun k => k.tile = tile ∧ k.handle = handle ∧ k.gen = gen with
      | none => t
      | some k => t.dropTileKey k
    done { t with sbx := { t.sbx with invals := t.sbx.invals.erase i } }.settleDestroys

/-- ZEROIZE_VERIFY_DONE (R204): ZEROIZED, or ZEROIZE_FAIL with AL_TAMPER raised again; `nonzero` counts the cells that do not read
as zero. -/
def execZeroizeVerifyDone (nonzero : Nat) (s : State) : Host.Outcome State Fault Refusal :=
  let t := s.begin
  if ¬ t.sbx.verifying then done t else
    let u : State := { t with sbx := { t.sbx with verifying := false } }
    if nonzero = 0 then done ({ u with sbx := { u.sbx with zeroized := true } })
    else done ({ u with sbx := { u.sbx with zeroizeFail := true } }.alarmTamper unitStrongbox 6 (min nonzero (2 ^ 32 - 1)))

/-! ### Random bits and key pairs (R199, R200) -/

/-- ENTROPY_FAIL (R199). -/
def execEntropyFail (s : State) : Host.Outcome State Fault Refusal :=
  let t := s.begin
  done ({ t with sbx := { t.sbx with entropyOk := false, entropyFail := true } }.event evEntropyFail unitStrongbox none 0 0)

/-- ENTROPY_RECOVER (R199): generation resumes; the Booth goes on, and a command that waits goes on when its row runs again. -/
def execEntropyRecover (s : State) : Host.Outcome State Fault Refusal :=
  let t := s.begin
  done (({ t with sbx := { t.sbx with entropyOk := true } }).kickBooth 8)

/-- ENTROPY_WAIT_TIMEOUT (R199): the oldest request that has waited 1 ms fails with ST_NO_ENTROPY. -/
def execEntropyWaitTimeout (s : State) : Host.Outcome State Fault Refusal :=
  let t := s.begin
  match t.sbx.entropyWaits with
  | [] => done t
  | w :: ws =>
    if t.sbx.entropyOk ∨ ¬ t.expired w.since 1000000 then done t
    else
      let u : State := { t with sbx := { t.sbx with entropyWaits := ws } }
      done ((((u.waitEnd 80 17 (some w.call.stall) 0).dropWaiting w.call).finish w.call stNoEntropy).kickBooth 8)

/-- KEY_PAIR_GENERATED (R200): the pool of 32 takes a pair. -/
def execKeyPairGenerated (s : State) : Host.Outcome State Fault Refusal :=
  let t := s.begin
  if t.sbx.entropyOk ∧ t.sbx.poolLevel < 32 ∧ ¬ t.sbx.zeroNet then
    done ({ t with sbx := { t.sbx with poolLevel := t.sbx.poolLevel + 1 } }.bump (ctrSbx 5) 1)
  else done t

/-! ### Commands (R206) -/

/-- The live key table entry of a handle the issuer owns (R206). -/
def State.namedKey (s : State) (c : Call) (h : Nat) : Option KeyEntry :=
  if handleOwner h = c.stall then s.liveEntry? h else none

/-- A key of type EXPORT or INGEST toward an owner, or of type DUMP (R183). -/
def derivedKey (stall : Nat) (st : Stall) (d : StallData) (type owner serial gen : Nat) : Bytes :=
  let head := leBytes 2 stall ++ (padTo 16 st.inst).take 16
  let kEst := ((d.owners.find? fun o => o.index = owner ∧ o.valid).map (·.kEst)).getD []
  if type = keyExport then kdf kEst "XS-EXPORT" (head ++ leBytes 1 owner ++ leBytes 2 serial ++ leBytes 1 gen) 256
  else if type = keyIngest then kdf kEst "XS-INGEST" (head ++ leBytes 1 owner ++ leBytes 2 serial ++ leBytes 1 gen) 256
  else kdf d.kEst "XS-DUMP" (head ++ leBytes 2 serial ++ leBytes 1 gen) 256

/-- A type whose keys are drawn from the DRBG (R186). -/
def keyDrawn (type : Nat) : Bool := decide (type = keyRegion ∨ type = keyBooth ∨ type = keyPairKem ∨ type = keyPairSign)

/-- The first argument of KEY_GENERATE that is out of its range (R187, R192, R193, R206). -/
def keyGenBad (d : StallData) (type flags usage keyLen owner addr : Nat) : Option Nat :=
  let toward := decide (type = keyExport ∨ type = keyIngest)
  let valid := d.owners.any fun o => decide (o.index = owner) && o.valid
  if 4 ≤ flags ∨ (flags.testBit 1 ∧ type ≠ keyRegion ∧ type ≠ keyBooth) then some 1
  else if 128 ≤ usage then some 2
  else if ¬ (if type = keyRegion then keyLen = 64 else if type = keyBooth then keyLen = 32 ∨ keyLen = 64 else keyLen = 32) then some 4
  else if (if toward then !valid else decide (owner ≠ 0)) then some 5
  else if addr % (if type = keyRegion then 256 else 128) ≠ 0 ∨ 2 ^ 56 ≤ addr then some 8
  else none

/-- A new key with its blob: the blob written, the key table entry and the slot made; a blob write answered other than OK leaves no
key (ST_MEMORY, R480). `old` is the generation the new one replaces, if any. -/
def State.createKey (c : Call) (e : KeyEntry) (st : Stall) (d : StallData) (key : Bytes) (pin : Bool) (old : Option Nat)
    (blobOk : Bool) (result : Bytes) (s : State) : State :=
  let attr := bit (keyDrawn (handleType e.handle)) + 2 * bit e.migratable
  let blob := blobBytes d.wrapKey { handle := e.handle, usage := e.usage, gen := e.gen, keyLen := e.keyLen, attr, inst := st.inst } key
  let t := (s.emit (.memWrite c.stall e.blobAddr blob)).setStallData c.stall { d with wrapCount := d.wrapCount + 1 }
  if ¬ blobOk then t.finish c stMemory else
    let t := match old with
      | some g => (t.eraseKey e.handle g).modStallData c.stall fun d => { d with
          keys := d.keys.filter fun k => ¬ (k.handle = e.handle ∧ k.gen = g) }
      | none => t
    let t := t.modStallData c.stall fun d => d.putKey { e with blobTag := blobTag blob }
    let slot := { KeySlot.fresh e.handle e.gen e.usage key with pinned := pin, cls := if pin then .stall else .unpinned }
    ((t.placeKey slot).getD t).finishOk c result

/-- KEY_GENERATE (R206). -/
def execKeyGenerate (c : Call) (type flags usage keyLen ownerIdx blobAddr : Nat) (blobOk : Bool) (s : State) :
    Host.Outcome State Fault Refusal :=
  done (s.command c 0x0201 fun t =>
    match t.stall? c.stall, t.stallData? c.stall with
    | some st, some d =>
      if type = 0 ∨ 7 < type then t.finish c stKeyType
      else match keyGenBad d type flags usage keyLen ownerIdx blobAddr with
        | some off => t.badArg c off
        | none =>
          if 256 ≤ d.keys.length ∨ 65535 < st.nextSerial ∨ (flags.testBit 0 ∧ ¬ t.mayPin c.stall) then t.finish c stNoKeyslot
          else if 2 ^ 32 ≤ d.wrapCount then t.finish c stKeyLimit
          else
            let serial := st.nextSerial
            let body (key : Bytes) (t : State) : State :=
              let e : KeyEntry :=
                { handle := makeHandle c.stall type serial, gen := 0, pinned := flags.testBit 0, migratable := flags.testBit 1
                  usage, keyLen, use := 0, ops := 0, blobAddr, blobTag := [], eC := t.epo.epoch, ownerIdx, destroyed := false }
              (t.setStall c.stall { st with nextSerial := serial + 1 }).createKey c e st d key (flags.testBit 0) none blobOk
                (leBytes 4 e.handle)
            if keyDrawn type then t.withEntropy c fun t => body (t.drawn keyLen) t.tookDraw
            else body (derivedKey c.stall st d type ownerIdx serial 0) (t.bump (ctrSbx 2) 1)
    | _, _ => t.finish c stKeyUnknown)

/-- KEY_LOAD (R195): a resident key is pinned as asked; another waits for its unwrap. -/
def execKeyLoad (c : Call) (handle flags : Nat) (s : State) : Host.Outcome State Fault Refusal :=
  done (s.command c 0x0202 fun t =>
    match t.namedKey c handle with
    | none => t.finish c stKeyUnknown
    | some e =>
      let slot := t.sbx.slotOf handle e.gen
      let pinned := (slot.map (·.2.pinned)).getD false
      if 2 ≤ flags then t.badArg c 4
      else if flags.testBit 0 ∧ ¬ pinned ∧ ¬ t.mayPin c.stall then t.finish c stNoKeyslot
      else match slot with
        | some p =>
          let k := if flags.testBit 0 then { p.2 with pinned := true, cls := .stall } else p.2
          ({ t with sbx := ({ t.sbx with slots := assocSet p.1 k t.sbx.slots } : Sbx).touch p.1 }).finish c stOk
        | none =>
          let w := KeyWaiter.command c (flags.testBit 0)
          let t : State := match t.sbx.unwraps.find? fun u => u.handle = handle ∧ u.gen = e.gen with
            | none => { t with sbx := { t.sbx with unwraps := t.sbx.unwraps ++
                [{ handle, gen := e.gen, started := t.rst.coreReset.isNone, waiters := [] }] } }
            | some _ => t
          { t with sbx := { t.sbx with unwraps := t.sbx.unwraps.map fun u =>
            if u.handle = handle ∧ u.gen = e.gen ∧ ¬ u.waiters.contains w then { u with waiters := u.waiters ++ [w] } else u } })

/-- KEY_UNPIN (R206). -/
def execKeyUnpin (c : Call) (handle : Nat) (s : State) : Host.Outcome State Fault Refusal :=
  done (s.command c 0x0203 fun t =>
    match t.namedKey c handle with
    | none => t.finish c stKeyUnknown
    | some _ =>
      let u : State := { t with sbx := { t.sbx with slots := t.sbx.slots.map fun p =>
        if p.2.handle = handle ∧ p.2.cls = .stall then (p.1, { p.2 with pinned := false, cls := .unpinned }) else p } }
      (u.modStallData c.stall fun d => { d with keys := d.keys.map fun k =>
        if k.handle = handle then { k with pinned := false } else k }).finish c stOk)

/-- KEY_ROTATE (R197, R206, R297): generation GEN + 1 of a handle. The handle that seals the Stall's regions orders the sweep; any
other handle's entry is replaced (R397). [DEDUCED: notes/assumptions/61.md] -/
def execKeyRotate (c : Call) (handle blobAddr : Nat) (blobOk : Bool) (s : State) : Host.Outcome State Fault Refusal :=
  done (s.command c 0x0204 fun t =>
    match t.namedKey c handle, t.stall? c.stall, t.stallData? c.stall with
    | some e, some st, some d =>
      let type := handleType handle
      let sealing := decide (t.regionHandle c.stall = some handle)
      if (type = keyRegion ∧ blobAddr ≠ 0) ∨ blobAddr % 128 ≠ 0 ∨ 2 ^ 56 ≤ blobAddr then t.badArg c 8
      else if sealing ∧ t.sweepRunning c.stall then t.finish c stKeyInUse
      else if sealing ∧ 256 ≤ d.keys.length then t.finish c stNoKeyslot
      else if type ≠ keyRegion ∧ 255 ≤ e.gen then t.finish c stKeyLimit
      else if 2 ^ 32 ≤ d.wrapCount then t.finish c stKeyLimit
      else if sealing then t.withEntropy c fun t =>
        if blobOk then (t.rotateRegion c.stall e).finishOk c (leBytes 1 ((e.gen + 1) % 4))
        else t.tookDraw.finish c stMemory
      else
        let g := if type = keyRegion then (e.gen + 1) % 4 else e.gen + 1
        let addr := if type = keyRegion then e.blobAddr - 128 * (e.gen % 2) + 128 * (g % 2) else blobAddr
        let n : KeyEntry := { e with gen := g, use := 0, ops := 0, pinned := false, blobAddr := addr, eC := t.epo.epoch }
        let body (key : Bytes) (t : State) : State := t.createKey c n st d key false (some e.gen) blobOk (leBytes 1 g)
        if keyDrawn type then t.withEntropy c fun t => body (t.drawn e.keyLen) t.tookDraw
        else body (derivedKey c.stall st d type e.ownerIdx (handle % 65536) g) (t.bump (ctrSbx 2) 1)
    | _, _, _ => t.finish c stKeyUnknown)

/-- The Ledger still records a generation of the handle that seals the Stall's regions (R205). -/
def State.regionKeyUsed (s : State) (stall h : Nat) : Bool :=
  decide (s.regionHandle stall = some h) &&
    !(s.regionsWhere fun e => decide (e.owner = stall) && match e.state with
      | .sealed => true | .frozen => true | .zeroing => true | .retiring => true | .quarantined => true
      | _ => false).isEmpty

/-- A handle destroyed (R203): its table entries are marked at once; slot and tile copies go now, or when the Booth operation that
uses the handle ends (R205). -/
def State.destroyKey (stall h : Nat) (call : Option Call) (s : State) : State :=
  let held := (s.bth.running.map fun o => decide (o.handle = h)).getD false
  let gens := (((s.stallData? stall).map (·.keys)).getD []).filter fun k => k.handle = h
  let t := s.modStallData stall fun d => { d with keys := d.keys.map fun k => if k.handle = h then { k with destroyed := true } else k }
  let t := if held then t else gens.foldl (fun t k => t.eraseKey h k.gen) t
  { t with sbx := { t.sbx with destroys := t.sbx.destroys ++ [{ handle := h, call, held }] } }

/-- KEY_DESTROY (R203, R205): complete when every tile has acknowledged. -/
def execKeyDestroy (c : Call) (handle : Nat) (s : State) : Host.Outcome State Fault Refusal :=
  done (s.command c 0x0205 fun t =>
    match t.namedKey c handle with
    | none => t.finish c stKeyUnknown
    | some _ =>
      if handleType handle = keyRegion ∧ t.regionKeyUsed c.stall handle then t.finish c stKeyInUse
      else (t.destroyKey c.stall handle (some c)).settleDestroys)

/-- KEY_ATTEST (R201): `certs` are the two certificates; their serial numbers take a draw. -/
def execKeyAttest (c : Call) (handle out_ outMax : Nat) (certs : Bytes) (ok : Bool) (s : State) : Host.Outcome State Fault Refusal :=
  done (s.command c 0x0206 fun t =>
    match t.namedKey c handle with
    | none => t.finish c stKeyUnknown
    | some _ =>
      if handleType handle ≠ keyPairKem ∧ handleType handle ≠ keyPairSign then t.finish c stKeyType
      else t.withEntropy c fun t => (t.tookDraw.bump (ctrSbx 7) 1).output c out_ outMax certs ok fun t => t.finishOk c (leBytes 4 certs.length))

end Sys2Proof.Machine
end

