-- ==== Sys2Proof/Machine/Stalls.lean ====
section
/-!
DEFINITION. The commands of the Stall manager (spec/13_stalls.md): fills, admission, removal, freeze and thaw, migration, and the
function map.
-/

namespace Sys2Proof.Machine

/-! ### Fills (R400 to R402) -/

/-- STALL_FILL_START (R400, R401): the first fill without a slot takes a free one, or that of the victim, which is spilled; four run
at once. The record read leaves. -/
def execStallFillStart (s : State) : Host.Outcome State Fault Refusal :=
  let t := s.begin
  let start (f : Fill) (slot victim : Nat) (t : State) : State :=
    let f' : Fill := { f with slot := some slot, victim }
    { t.emit (.memRead 0 (t.recordAddr f.stall) 16384) with
      stl := { t.stl with fills := t.stl.fills.map fun x => if x = f then f' else x } }
  let reserved := t.stl.fills.filterMap (·.slot)
  done (match t.stl.fills.find? fun f => f.slot.isNone with
    | none => t
    | some f =>
      if 4 ≤ reserved.length ∨ t.alr.quiet then t
      else match (List.range 47).find? fun k => (assocGet (k + 1) t.stl.slots).isNone ∧ ¬ reserved.contains (k + 1) with
        | some k => start f (k + 1) 0xFFF t
        | none => match t.spillVictim with
          | none => t
          | some (k, id) => start f k id (t.spill k id))

/-- Requests that wait for a Stall's fill are answered as for a LOST Stall: REFUSED (R402). -/
def State.refuseFill (id : Nat) (s : State) : State :=
  (List.range s.mse.length).foldl (fun t i => match t.mse[i]? with
    | none => t
    | some m =>
      let waits (p : HostReq × HoldCause) : Bool := decide (p.2 = .fill id)
      let u := t.modMse i fun m => { m with held := m.held.filter fun p => !waits p }
      ((m.held.filter waits).foldl (fun u p => u.refuse i p.1) u).rerun i) s

/-- The record read back is the one last anchored (R398). [DEDUCED: notes/assumptions/35.md] -/
def State.recordGood (s : State) (id : Nat) (b : Bytes) : Bool :=
  decide (leField b 0 4 = 0x52535358 ∧ leField b 4 2 = 1 ∧ leField b 6 2 = id ∧ b.length = 16384 ∧
    assocGet id s.ldg.store.digests = some (sha384 b))

/-- STALL_FILL_DONE (R398, R401, R402): the record is checked; the Stall is resident and what waited goes on, or it is LOST with
cause FILL. A record whose digest is not yet anchored waits. -/
def execStallFillDone (stall : Nat) (rec_ : BufRead) (s : State) : Host.Outcome State Fault Refusal :=
  let t := s.begin
  match t.stl.fills.find? fun f => f.stall = stall with
  | none => done t
  | some f => match f.slot with
    | none => done t
    | some k =>
      if t.recordPending stall ∨ t.alr.quiet then done t else
        let u : State := { t with stl := { t.stl with fills := t.stl.fills.filter fun x => x ≠ f } }
        let u := u.ringRecord 82 6 (u.clk.elapsed - f.since) (some stall) f.victim
        let good := match rec_ with
          | .ok b => t.recordGood stall b
          | .failed => false
        if good then
          let v : State := { u with stl := { u.stl with slots := assocSet k stall u.stl.slots } }
          done (((v.useStall stall).progress).bump (ctrStl 0) 1).rerunAll
        else done ((u.loseStall stall 1).refuseFill stall)

/-! ### Stall secrets and measurement registers -/

/-- The Stall root key (R183): it mixes the DRK with K_EST. -/
def State.stallRootKey (s : State) (id : Nat) (inst kEst th : Bytes) : Bytes :=
  let who := leBytes 2 id ++ (padTo 16 inst).take 16
  kdf (hmac384 (kdf s.sbx.root "XS-TBIND" who 384) kEst) "XS-STALL-ROOT" (who ++ (padTo 48 th).take 48) 256

/-- A measurement register extended (R358, R406). -/
def StallData.extend (reg : Nat) (digest : Bytes) (d : StallData) : StallData :=
  let old := (padTo 48 ((assocGet reg d.mrs).getD [])).take 48
  { d with mrs := assocSet reg (sha384 (old ++ digest)) d.mrs }

/-- The tables of a Stall that has just begun. -/
def StallData.fresh : StallData :=
  { stallRoot := [], kEst := zeros 48, th := zeros 48, tenantKey := zeros 48, policyDigest := zeros 48, account := 0
    freezeList := zeros 48, freezeEpoch := 0, importFloorTime := 0, owners := [], budget := [], mrs := [], log := [], keys := []
    wrapCount := 0
    replay := { span := 0, hasLocal := false, hasPool := false, stretch := false, unknown := false, fromRecord := false, age := 0 }
    lastUse := 0, recordDigest := [] }

/-- A leaf certificate pair issued for a Stall (R359): its serials take a draw. -/
def State.issueLeaf (id : Nat) (s : State) : State :=
  let n := (assocGet id s.att.leafs).getD 0
  ({ s.tookDraw with att := { s.att with leafs := assocSet id (n + 1) s.att.leafs } }).bump (ctrSbx 7) 1

/-! ### Admission (R404 to R406) -/

/-- OWNERS as R485 lays it out: the entries, or none where a byte is not as required. -/
def parseOwners (n : Nat) (b : Bytes) : Option (List OwnerEntry) :=
  let es := (List.range n).map fun i => slice b (64 * i) 64
  let idx := es.map fun e => leField e 0 1
  if es.all (fun e => decide (e.length = 64 ∧ slice e 1 15 = zeros 15 ∧ leField e 0 1 ≠ 0xFF)) && decide idx.Nodup then
    some (es.map fun e => { index := leField e 0 1, valid := false, keyDigest := slice e 16 48, kEst := [] })
  else none

/-- The record area is bound PLAIN to Stall 0 (R395). -/
def State.recordAreaBound (s : State) (p : StallPolicy) : Bool :=
  (List.range 16).all fun k =>
    let e := s.entry { pool := false, index := p.recordBase + k }
    decide (e.state = .plain ∧ e.owner = 0)

/-- Every selection of an admission is permitted (R404, last row). -/
def State.selectionsOk (s : State) (p : StallPolicy) (fill integ opts : Nat) (policy : Bytes) : Bool :=
  (if fill = 0 then p.fillHold else p.fillFault) && (if integ = 0 then p.integReport else p.integLose) &&
    decide (opts < 4) && (!opts.testBit 0 || p.boothAllow) && (!opts.testBit 1 || p.bindAllow) && (s.build.tol || decide (policy = zeros 48))

/-- A Stall ID may be admitted: FREE, no removal of an earlier Stall running, and no revocation of its windows (R404, R414). -/
def State.idFree (s : State) (id : Nat) : Bool :=
  decide (s.stallState id = .free) && !(s.stl.removals.any fun r => decide (r.stall = id)) &&
    !(s.granted.any fun g => decide (g.stall = id))

/-- An admission that finds no credit goes to the next boundary (R405); EV_ADMIT_DEFERRED once per boundary.
[DEDUCED: notes/assumptions/67.md] -/
def State.deferAdmission (c : Call) (s : State) : State :=
  match s.hlm.running.find? fun q => q.call = c with
  | none => s
  | some q =>
    let first := !(s.hlm.tickQ.any fun q => decide (q.call.opcode = 0x0401) && q.call.deferred)
    let n := (s.hlm.running.filter fun q => q.call.opcode = 0x0401).length
    let q' : Queued := { q with call := { c with deferred := true }, waited := q.waited + 1 }
    let ahead := s.hlm.tickQ.filter fun q => q.call.opcode = 0x0401 ∧ q.call.deferred
    let rest := s.hlm.tickQ.filter fun q => ¬ (q.call.opcode = 0x0401 ∧ q.call.deferred)
    let t : State := { s with
      hlm := { s.hlm with
        running := s.hlm.running.erase q, tickQ := ahead ++ q' :: rest
        deferred := satAdd 65535 s.hlm.deferred 1 }
      stl := { s.stl with deferCount := satAdd 65535 s.stl.deferCount 1 } }
    let t := t.bump 7 1
    if first then t.event evAdmitDeferred unitStallMgr none n 0 else t

/-- A Stall admitted (R406): INSTANCE drawn, MR0 extended and logged, the record written, a slot taken if one is free.
[DEDUCED: notes/assumptions/67.md] -/
def State.admitStall (id fill integ opts account : Nat) (program tenantKey policy : Bytes) (owners : List OwnerEntry) (s : State) :
    State :=
  let x : Stall :=
    { state := .admitted, inst := s.drawn 16, version := 0, measLocked := false, x2 := false, rebase := false, saved := false
      imported := false, logOverflow := false, lostCause := 0, nextSerial := 0, extendSeq := 1, fillFault := decide (fill = 1)
      integLose := decide (integ = 1), keyed := false, boothStream := opts.testBit 0, bindNoinit := opts.testBit 1, eSrc := 0, bias := 0
      admitTime := s.clk.domain, saveSeq := 0 }
  let e : LogEntry :=
    { seq := 1, reg := 0, kind := 1, owner := 0xFF, digest := program, time := s.clk.domain, unanchored := s.unanchored }
  let d : StallData := { StallData.fresh.extend 0 program with tenantKey, policyDigest := policy, account, owners, log := [e] }
  let t := (s.tookDraw.setStall id x).setStallData id { d with lastUse := s.clk.elapsed }
  let slot := (List.range 47).find? fun k =>
    (assocGet (k + 1) t.stl.slots).isNone && !(t.stl.fills.any fun f => decide (f.slot = some (k + 1)))
  let t : State := match slot with
    | some k => { t with stl := { t.stl with slots := assocSet (k + 1) id t.stl.slots } }
    | none => t
  ((((t.styAdmit id).writeRecord id).sendRefusal id).bump (ctrStl 3) 1)

/-- STALL_ADMIT (R404, R405). [DEDUCED: notes/assumptions/67.md] -/
def execStallAdmit (c : Call) (stall fill integ opts nowner account : Nat) (program tenantKey policy : Bytes) (owners : Nat)
    (ownersBuf : BufRead) (s : State) : Host.Outcome State Fault Refusal :=
  done (s.command c 0x0401 fun t =>
    match t.cfg.policy with
    | none => t.finish c stPolicy
    | some p =>
      let t := if nowner = 0 then t else t.emit (.memRead 0 owners (64 * nowner))
      t.input c (if nowner = 0 then .ok [] else ownersBuf) fun b t =>
        match parseOwners nowner b with
        | none => t.badArg c 0xA0
        | some os =>
          if ¬ t.recordAreaBound p then t.finish c stRegionState
          else if ¬ t.idFree stall then t.finish c stStallBusy
          else if ¬ t.selectionsOk p fill integ opts policy then t.finish c stPolicy
          else if t.stl.credit < 10 ^ 9 then t.deferAdmission c
          else t.withEntropy c fun t =>
            let u : State := { t with stl := { t.stl with credit := t.stl.credit - 10 ^ 9 } }
            let u := u.admitStall stall fill integ opts account program tenantKey policy os
            u.finishAnchored c stOk [] [] (u.recordItems stall))

/-! ### Squash (R413 step 3, R415) -/

/-- A Stall's outstanding work squashed. -/
def State.squashWork (id : Nat) (s : State) : State :=
  let t := (s.spineMses (.squash id)).poisonStall id
  let t := if (t.bth.running.map fun o => decide (o.call.stall = id)).getD false then t.squashBooth stStallLost else t
  if (t.tol.running.map fun e => decide (e.call.stall = id)).getD false then t.squashToll stStallLost else t

/-! ### Removal (R412 to R414) -/

/-- Step 1 of a removal: REMOVING, commands ended, function-map entries, windows, bindings and Marks gone (R413). -/
def State.beginRemoval (id : Nat) (call : Option Call) (s : State) : State :=
  match s.stall? id with
  | none => s
  | some x =>
    let r : Removal := { stall := id, inst := x.inst, step := 1, since := s.clk.elapsed, regions := [], call }
    let t : State := { s.setStall id { x with state := .removing } with stl := { (s.setStall id { x with state := .removing }).stl with
      removals := s.stl.removals ++ [r], fnMap := s.stl.fnMap.filter fun p => p.2.2 ≠ id } }
    let t := (t.sendRefusal id).failCommands id
    let fs := t.stl.freezes.filter fun f => f.stall = id
    let t := fs.foldl (fun t f => t.finish f.call stStallLost)
      { t with stl := { t.stl with freezes := t.stl.freezes.filter fun f => f.stall ≠ id } }
    let t := (t.granted.filter fun g => g.stall = id ∧ g.revoking.isNone).foldl (fun t g =>
      if ((t.lse[g.lse]?).map (·.usable)).getD false ∧ g.index.isSome then t.startRevoke g none
      else { t with granted := t.granted.erase g }) t
    let t : State := { t with
      rwt := t.rwt.filter fun p => p.2.reqStall ≠ id
      xck := { t.xck with bindings := t.xck.bindings.filter fun p => p.2.stall ≠ id } }
    t.destroyMarks id

/-- STALL_REMOVE (R412). -/
def execStallRemove (c : Call) (stall : Nat) (s : State) : Host.Outcome State Fault Refusal :=
  if s.stl.removals.any fun r => decide (r.call = some c) then done s.begin
  else done (s.command c 0x0402 fun t =>
    if stall = 0 ∨ t.stallState stall = .free then t.finish c stPolicy
    else if t.stallState stall = .removing then t.finish c stStallBusy
    else t.beginRemoval stall (some c))

/-- The removal's step in hand has ended (R413, third column). -/
def State.removalEnded (s : State) (r : Removal) : Bool :=
  match r.step with
  | 1 => !s.spineHolds (.refusal r.stall true) && !s.stl.fills.any fun f => decide (f.stall = r.stall)
  | 2 => !s.stallWork r.stall
  | 3 => !s.spineHolds (.squash r.stall)
  | 4 => r.regions.all fun g =>
      !(decide ((s.entry g).owner = r.stall ∧ (s.entry g).state = .retiring)) && !(s.ldg.changes.any fun c => decide (c.region = g)) &&
        !s.itemPending (.entry g LdgEntry.freeEntry)
  | 5 => !s.sbx.invals.any fun v => decide (handleOwner v.handle = r.stall)
  | _ => !s.recordPending r.stall && !s.granted.any fun g => decide (g.stall = r.stall)

/-- A removal replaced. -/
def State.setRemoval (r r' : Removal) (s : State) : State :=
  { s with stl := { s.stl with removals := s.stl.removals.map fun x => if x = r then r' else x } }

/-- The Stall's keys, root, K_EST values and slot go (R410, R413 step 5). -/
def State.zeroizeStall (id : Nat) (s : State) : State :=
  let hs := ((((s.stallData? id).map (·.keys)).getD []).map (·.handle)).dedup
  let t := hs.foldl (fun t h => t.destroyKey id h none) s
  let t := t.modStallData id fun d => { d with
    stallRoot := [], kEst := zeros 48, owners := d.owners.map fun o => { o with kEst := [], valid := false }, keys := [], mrs := [], log := [] }
  { t with
    stl := { t.stl with slots := t.stl.slots.filter fun p => p.2 ≠ id, sessions := t.stl.sessions.filter fun x => x.stall ≠ id ∨ ¬ x.source }
    tol := { t.tol with policies := assocDel id t.tol.policies, cache := t.tol.cache.filter fun p => p.1 ≠ id } }.settleDestroys

/-- The record rewritten with STATE FREE and every field after 0x0030 zero (R413 step 6). -/
def State.eraseRecord (id : Nat) (s : State) : State :=
  match s.stall? id with
  | none => s
  | some x =>
    let blank : Stall := { x with
      state := .free, measLocked := false, x2 := false, rebase := false, saved := false, imported := false, logOverflow := false
      keyed := false, lostCause := 0, nextSerial := 0, extendSeq := 0, fillFault := false, integLose := false, boothStream := false
      bindNoinit := false, eSrc := 0, bias := 0, admitTime := 0, saveSeq := 0 }
    let img := s.recordImage id (x.version + 1) (s.drawn 12) blank { StallData.fresh with stallRoot := [] }
    let sha := sha384 img
    let t := (s.tookDraw.emit (.memWrite 0 (s.recordAddr id) img)).modStallData id fun d => { d with recordDigest := sha }
    let kept : Stall × StallData := ({ blank with version := x.version + 1 }, { StallData.fresh with recordDigest := sha })
    ({ t with stl := { t.stl with records := assocSet id kept t.stl.records } }).queueItems (digestItems id sha)

/-- The next step begins. -/
def State.startRemovalStep (r : Removal) (s : State) : State :=
  let next : Removal := { r with step := r.step + 1, since := s.clk.elapsed }
  match r.step with
  | 2 => (s.setRemoval r next).squashWork r.stall
  | 3 =>
    let rs := s.regionsWhere fun e => decide (e.owner = r.stall ∧ e.state ≠ .free ∧ e.state ≠ .boot ∧ e.state ≠ .lstore)
    (rs.foldl (fun t g => t.retireRegion g) (s.setRemoval r { next with regions := rs })).settle
  | 4 => (s.setRemoval r next).zeroizeStall r.stall
  | 5 => ((s.setRemoval r next).styFinal r.stall).eraseRecord r.stall
  | _ => s.setRemoval r next

/-- A removal is over: the Stall is FREE and the command completes (R412). -/
def State.endRemoval (r : Removal) (s : State) : State :=
  let t : State := { s with stl := { s.stl with
    removals := s.stl.removals.erase r, table := assocDel r.stall s.stl.table, data := assocDel r.stall s.stl.data } }
  let t := (t.bump (ctrStl 4) 1).sendRefusal r.stall
  match r.call with
  | some c => t.finish c stOk
  | none => t

/-- A step that has ended is journalled, and then the next one begins (R149, R413). -/
def State.removalStep (stall : Nat) (s : State) : State :=
  match s.stl.removals.find? fun r => r.stall = stall with
  | none => s
  | some r =>
    let body := JournalBody.removal stall r.inst r.step
    if s.rst.coreReset.isSome ∨ s.alr.quiet ∨ s.nvm.journalQueue.contains body then s
    else
      let t := if s.journalled stall r.inst r.step then s else if s.journalRoom then s.journal body else s
      if ¬ t.journalled stall r.inst r.step then t
      else if 6 ≤ r.step then t.endRemoval r
      else t.startRemovalStep r

/-- REMOVAL_STEP_DONE (R413). -/
def execRemovalStepDone (stall : Nat) (s : State) : Host.Outcome State Fault Refusal :=
  let t := s.begin
  done (match t.stl.removals.find? fun r => r.stall = stall with
    | none => t
    | some r => if t.removalEnded r then t.removalStep stall else t)

/-- T_DRAIN in ns (R395, R425: 100 µs where no image sets it). -/
def State.drainNs (s : State) : Nat := ((s.cfg.policy.map (·.tDrain)).getD 100) * 1000

/-- REMOVAL_DRAIN_TIMEOUT (R413 step 2): T_DRAIN has elapsed and the squash step begins. -/
def execRemovalDrainTimeout (stall : Nat) (s : State) : Host.Outcome State Fault Refusal :=
  let t := s.begin
  done (match t.stl.removals.find? fun r => r.stall = stall with
    | none => t
    | some r => if r.step = 2 ∧ t.expired r.since t.drainNs then t.removalStep stall else t)

/-! ### Freeze and thaw (R415) -/

/-- The sealed region number of a region. -/
def State.regionNumber (s : State) (r : RegionId) : Nat := ((s.regionAddr r).getD 0) / regionBytes

/-- Regions of a Stall that a freeze lists, in ascending order of their region numbers. -/
def State.freezeRegions (s : State) (id : Nat) : List RegionId :=
  let rs := s.regionsWhere fun e => decide (e.owner = id ∧ (e.state = .sealed ∨ e.state = .zeroing ∨ e.state = .frozen))
  (rs.foldl (fun l r => assocSet (s.regionNumber r) r l) []).map (·.2)

/-- An entry of the freeze list. -/
def State.freezeEntry (s : State) (r : RegionId) : Bytes :=
  let e := s.entry r
  leBytes 4 (s.regionNumber r) ++ leBytes 1 (e.gen % 4 + 128 * bit r.pool) ++ leBytes 3 e.floor

/-- A zero fill of the region is still queued or active. -/
def State.zeroFilling (s : State) (r : RegionId) : Bool :=
  s.swp.queue.any (fun o => decide (o.region = r ∧ o.kind = .zero)) || s.swp.slots.any fun p => decide (p.2.order.region = r ∧ p.2.order.kind = .zero)

/-- Steps 3 to 5 of a freeze whose requests have drained: the regions become FROZEN, the list is written, its digest and
FREEZE_EPOCH recorded. -/
def State.endFreeze (f : Freeze) (ok : Bool) (s : State) : State :=
  let rs := s.freezeRegions f.stall
  let list := rs.flatMap s.freezeEntry
  let t : State := { s with stl := { s.stl with freezes := s.stl.freezes.erase f } }
  let live := rs.filter fun r => ¬ s.zeroFilling r
  let t := rs.foldl (fun t r =>
    let e := { t.entry r with state := .frozen }
    if s.zeroFilling r then (t.changeEntry r e none).queueItems [.entry r e] else t.changeEntry r e (some .anchor)) t
  let t := t.modStallData f.stall fun d => { d with freezeList := sha384 list, freezeEpoch := s.epo.epoch }
  let t := ((t.emit (.memWrite 0 f.list list)).writeRecord f.stall).bump (ctrStl 5) 1
  let st := if ok then stOk else stMemory
  (t.finishAnchored f.call st (if ok then leBytes 4 rs.length else []) live (t.recordItems f.stall)).settle

/-- A freeze goes on once every tile has acknowledged the refusal and the Stall's work has ended. -/
def State.freezeStep (f : Freeze) (ok : Bool) (s : State) : State :=
  if s.spineHolds (.refusal f.stall true) ∨ s.spineHolds (.squash f.stall) ∨ s.stallWork f.stall ∨ s.alr.quiet then s
  else s.endFreeze f ok

/-- The freeze list lies in PLAIN regions of Stall 0 (R415). -/
def State.plainRange (s : State) (lo n : Nat) : Bool :=
  (List.range ((lo + n - 1) / regionBytes + 1 - lo / regionBytes)).all fun k =>
    match s.regionOf (regionBytes * (lo / regionBytes + k)) with
    | none => false
    | some r => decide ((s.entry r).state = .plain ∧ (s.entry r).owner = 0)

/-- The status of a command that needs a KEYED Stall, from the Stall's state (R393). -/
def keyedStatus (st : StallState) : Option Nat :=
  match st with
  | .keyed => none
  | .admitted => some stStallUnkeyed
  | .frozen => some stStallFrozen
  | .free => some stPolicy
  | .lost => some stStallLost
  | .removing => some stStallLost

/-- STALL_FREEZE (R415); run again while the requests drain. `ok` is the answer to the write of the freeze list. -/
def execStallFreeze (c : Call) (stall flist : Nat) (ok : Bool) (s : State) : Host.Outcome State Fault Refusal :=
  match s.stl.freezes.find? fun f => f.call = c with
  | some f => done (s.begin.freezeStep f ok)
  | none => done (s.command c 0x0403 fun t =>
    match keyedStatus (t.stallState stall) with
    | some st => t.finish c st
    | none =>
      if ¬ t.plainRange flist (8 * (t.freezeRegions stall).length + 1) then t.finish c stRegionState
      else
        let f : Freeze := { stall, since := t.clk.elapsed, list := flist, squashed := false, call := c }
        let u := (t.modStall stall fun x => { x with state := .frozen }).sendRefusal stall
        { u with stl := { u.stl with freezes := u.stl.freezes ++ [f] } }.freezeStep f ok)

/-- FREEZE_DRAIN_TIMEOUT (R415 step 2): what remains at T_DRAIN is squashed. -/
def execFreezeDrainTimeout (stall : Nat) (s : State) : Host.Outcome State Fault Refusal :=
  let t := s.begin
  done (match t.stl.freezes.find? fun f => f.stall = stall with
    | none => t
    | some f =>
      if f.squashed ∨ ¬ t.expired f.since t.drainNs then t else
        let f' : Freeze := { f with squashed := true }
        { t with stl := { t.stl with freezes := t.stl.freezes.map fun x => if x = f then f' else x } }.squashWork stall)

/-- STALL_THAW (R415): KEYED again, its regions SEALED once anchored (R283). -/
def execStallThaw (c : Call) (stall : Nat) (s : State) : Host.Outcome State Fault Refusal :=
  done (s.command c 0x0404 fun t =>
    match t.stall? stall with
    | none => t.finish c stStallFrozen
    | some x =>
      if x.state ≠ .frozen then t.finish c (if x.state = .lost ∨ x.state = .removing then stStallLost else stStallFrozen)
      else if x.saved then t.finish c stStallMigrated
      else if x.rebase then t.finish c stMigRebasing
      else if t.stl.freezes.any fun f => decide (f.stall = stall) then t.finish c stStallBusy
      else
        let rs := t.regionsWhere fun e => decide (e.owner = stall ∧ e.state = .frozen)
        let u := (t.setStall stall { x with state := .keyed }).sendRefusal stall
        let fills := rs.filter u.zeroFilling
        let live := rs.filter fun r => ¬ t.zeroFilling r
        let u := fills.foldl (fun u r =>
          let e := { u.entry r with state := .zeroing }
          (u.changeEntry r e none).queueItems [.entry r e]) u
        let grants := live.map fun r => (r, { t.entry r with state := .sealed })
        let items := grants.map fun g => DeltaItem.entry g.1 g.2
        let u := ({ u with ldg := { u.ldg with grants := u.ldg.grants ++ grants } } : State).queueItems items
        let u := u.writeRecord stall
        u.finishAnchored c stOk [] [] (items ++ u.recordItems stall))

/-! ### Function map and status (R403, R423) -/

/-- FN_MAP (R403): an operator function counts as mapped (R593). -/
def execFnMap (c : Call) (fn stall : Nat) (s : State) : Host.Outcome State Fault Refusal :=
  done (s.command c 0x0407 fun t =>
    let st := t.stallState stall
    if 4096 ≤ stall then t.badArg c 2
    else if st = .free ∨ st = .lost ∨ st = .removing ∨ (t.fnStall? fn).isSome then t.finish c stPolicy
    else match firstFree t.stl.fnMap 0 1024 with
      | none => t.finish c stFnFull
      | some k => { t with stl := { t.stl with fnMap := assocSet k (fn, stall) t.stl.fnMap } }.finish c stOk)

/-- FN_UNMAP (R403): a function without an entry changes nothing. -/
def execFnUnmap (c : Call) (fn : Nat) (s : State) : Host.Outcome State Fault Refusal :=
  done (s.command c 0x0408 fun t =>
    { t with stl := { t.stl with fnMap := t.stl.fnMap.filter fun p => p.2.1 ≠ fn } }.finish c stOk)

/-- STALL_STATUS (R423). -/
def execStallStatus (c : Call) (stall : Nat) (s : State) : Host.Outcome State Fault Refusal :=
  done (s.command c 0x0409 fun t =>
    if 4096 ≤ stall then t.badArg c 0
    else t.finishOk c (leBytes 4 (t.stallInfo stall) ++ leBytes 4 (t.stallReplay stall) ++ leBytes 4 (t.stallAge stall)))

end Sys2Proof.Machine
end

