-- ==== Sys2Proof/Machine/Migration.lean ====
section
/-!
DEFINITION. Migration of Stalls (spec/13_stalls.md R416 to R421).
-/

namespace Sys2Proof.Machine

/-! ### Sessions (R416) -/

/-- MIG_SESSION_EXPIRY: a MOVE session is erased T_MIGSESS after its completion. -/
def execMigSessionExpiry (s : State) : Host.Outcome State Fault Refusal :=
  let t := s.begin
  let life := ((t.cfg.policy.map (·.tMigSess)).getD 60) * 10 ^ 9
  done (match t.stl.sessions.find? fun x => t.expired x.since life with
    | none => t
    | some x => { t with stl := { t.stl with sessions := t.stl.sessions.erase x } })

/-- A session a command names by the first eight bytes of its TH: a MOVE session, or an entry of the STANDBY table. -/
inductive Session where
  | move (m : MigSession)
  | standby (e : StandbyEntry)
  deriving DecidableEq, Repr

/-- The session with a role, for a Stall and INSTANCE where `who` gives them. [DEDUCED: notes/assumptions/49.md] -/
def State.session (s : State) (source : Bool) (id8 : Nat) (who : Option (Nat × Bytes)) : Option Session :=
  let is (th : Bytes) (stall : Nat) (inst : Bytes) : Bool :=
    decide (th.take 8 = leBytes 8 id8) && (who.map fun w => decide (w.1 = stall ∧ w.2 = inst)).getD true
  match s.stl.sessions.find? fun x => decide (x.source = source) && is x.th x.stall x.inst with
  | some m => some (.move m)
  | none => (s.nvm.standby.entries.find? fun e => decide (e.role = if source then 1 else 2) && is e.th e.stall e.inst).map .standby

def Session.th : Session → Bytes
  | .move m => m.th
  | .standby e => e.th

def Session.kEst : Session → Bytes
  | .move m => m.kEst
  | .standby e => e.kEst

/-- The nonce of a record: zeros for MOVE, the counter for STANDBY. -/
def Session.nonce : Session → Nat → Bytes
  | .move _, _ => zeros 12
  | .standby _, n => zeros 4 ++ beBytes 8 n

/-! ### The record (R418) -/

/-- An entry of the freeze list as a region item. -/
def regionItem (e : Bytes) : Bytes :=
  leBytes 4 (leField e 0 4) ++ leBytes 1 (leField e 4 1 % 4) ++ leBytes 1 (leField e 4 1 / 128) ++ zeros 2 ++ slice e 5 3 ++ zeros 5

/-- A migratable key as a key item. -/
def keyItem (k : KeyEntry) (material : Bytes) : Bytes :=
  leBytes 4 k.handle ++ leBytes 1 (handleType k.handle) ++ leBytes 1 k.gen ++ leBytes 2 k.usage ++
    leBytes 1 (bit (keyDrawn (handleType k.handle)) + 2) ++ leBytes 1 k.keyLen ++ leBytes 3 k.eC ++ zeros 3 ++ leBytes 8 k.use ++
    (padTo 64 material).take 64 ++ zeros 8

/-- The 64-byte header. -/
def migHeader (stall : Nat) (standby : Bool) (len src dst nregion nkey saveSeq : Nat) (th : Bytes) : Bytes :=
  leBytes 4 0x4D4D5358 ++ leBytes 2 1 ++ leBytes 2 stall ++ leBytes 1 (if standby then 2 else 1) ++ zeros 3 ++ leBytes 4 len ++
    leBytes 2 src ++ leBytes 2 dst ++ leBytes 4 nregion ++ leBytes 2 nkey ++ zeros 2 ++ leBytes 4 saveSeq ++ (padTo 32 th).take 32

/-- Record bytes 0x0020 to 0x19FF as a migration record carries them. -/
def migCore (x : Stall) (d : StallData) : Bytes := recordHead x d ++ zeros 128 ++ recordTables d

/-- The migratable keys with their material: from a slot, else from the blob read for the entry; none where one does not open. -/
def State.migKeys (s : State) (d : StallData) (blobs : List BufRead) : Option (List (KeyEntry × Bytes)) :=
  let ks := d.keys.filter fun k => k.migratable ∧ ¬ k.destroyed
  let one (p : KeyEntry × Nat) : Option (KeyEntry × Bytes) :=
    match s.sbx.slotOf p.1.handle p.1.gen with
    | some q => some (p.1, q.2.material)
    | none => match blobs[p.2]? with
      | some (.ok b) => (s.openBlob p.1.handle p.1.gen b).map fun m => (p.1, m)
      | _ => none
  let got := ks.zipIdx.map one
  if got.all Option.isSome then some (got.filterMap id) else none

/-- RECORD_COUNTER of the record a session issues next (R418). -/
def Session.counter : Session → Nat
  | .move _ => 0
  | .standby e => e.recordCounter + 1

/-- The length of a record (R418). -/
def migLength (nregion nkey : Nat) : Nat := 6704 + 16 * nregion + 96 * nkey

/-- The migration record of a frozen Stall under a session (R418). -/
def State.migRecord (s : State) (stall : Nat) (ss : Session) (x : Stall) (d : StallData) (entries : List Bytes)
    (ks : List (KeyEntry × Bytes)) : Bytes :=
  let standby := match ss with | .standby _ => true | .move _ => false
  let peer := match ss with | .move m => m.peer | .standby _ => s.dom.chip
  let oldest := (entries.map fun e => leField e 5 3).foldl (fun m f =>
    if sub24 s.epo.epoch m < sub24 s.epo.epoch f then f else m) s.epo.epoch
  let since := ((assocGet (oldest % 256) s.epo.ring).map (·.time)).getD 0
  let core := migCore { x with eSrc := d.freezeEpoch, saveSeq := x.saveSeq + 1 } { d with importFloorTime := since }
  let hdr := migHeader stall standby (migLength entries.length ks.length) s.dom.chip peer entries.length ks.length (x.saveSeq + 1) ss.th
  let body := core ++ entries.flatMap regionItem ++ ks.flatMap fun p => keyItem p.1 p.2
  let sealed_ := gcmSeal (ss.kEst.take 32) (ss.nonce ss.counter) hdr body
  hdr ++ sealed_.1 ++ sealed_.2

/-- MIGRATE_SAVE (R417). `list` is the freeze list read back, `blobs` the blobs of migratable keys in key table order, `ok` the answer
to the record's write. -/
def execMigrateSave (c : Call) (stall session flist out_ outMax : Nat) (list : BufRead) (blobs : List BufRead) (ok : Bool) (s : State) :
    Host.Outcome State Fault Refusal :=
  done (s.command c 0x0405 fun t =>
    match t.stall? stall, t.stallData? stall with
    | some x, some d =>
      if x.state ≠ .frozen then t.finish c stStallFrozen
      else if x.saved then t.finish c stStallMigrated
      else if d.freezeEpoch ≠ t.epo.epoch then t.finish c stMigStale
      else match t.session true session (some (stall, x.inst)) with
        | none => t.finish c stNoSession
        | some ss => (t.emit (.memRead 0 flist (8 * (t.freezeRegions stall).length))).input c list fun b t =>
          if sha384 b ≠ d.freezeList then t.finish c stMigParam
          else match t.migKeys d blobs with
            | none => t.finish c stKeyStale
            | some ks =>
              let entries := chunks 8 b
              let len := migLength entries.length ks.length
              t.output c out_ outMax (t.migRecord stall ss x d entries ks) ok fun t =>
                match ss with
                | .move m =>
                  let u : State := { t with stl := { t.stl with sessions := t.stl.sessions.erase m } }
                  let u := u.modStall stall fun y => { y with saved := true, saveSeq := x.saveSeq + 1 }
                  let rs := u.freezeRegions stall
                  let u := (rs.foldl (fun u r => u.retireRegion r) u).writeRecord stall
                  (u.finishAnchored c stOk (leBytes 4 len) rs (u.recordItems stall)).settle
                | .standby e =>
                  let e' : StandbyEntry := { e with recordCounter := ss.counter, written := t.nvm.standby.seq + 1 }
                  let u := t.writeStandby (t.nvm.standby.entries.map fun y => if y = e then e' else y)
                  let u := (u.modStall stall fun y => { y with saveSeq := x.saveSeq + 1 }).writeRecord stall
                  u.finishAnchored c stOk (leBytes 4 len) [] (u.recordItems stall)
    | _, _ => t.finish c stStallFrozen)

/-! ### Restore (R419, R420) -/

/-- The Stall a record's core describes, as the destination creates it. -/
def coreStall (b : Bytes) (bias : Nat) : Stall :=
  let f := leField b 0x11 1
  { state := .frozen, inst := slice b 0 16, version := 0, measLocked := f.testBit 0, x2 := f.testBit 1, rebase := true, saved := false
    imported := true, logOverflow := f.testBit 5, lostCause := 0, nextSerial := leField b 0x14 2, extendSeq := leField b 0x18 4
    fillFault := decide (leField b 0x20 1 = 1), integLose := decide (leField b 0x21 1 = 1), keyed := f.testBit 6
    boothStream := (leField b 0x22 1).testBit 0, bindNoinit := (leField b 0x23 1).testBit 0, eSrc := leField b 0x28 3, bias
    admitTime := leField b 0x30 8, saveSeq := leField b 0x38 4 }

/-- The tables a record's core carries. -/
def coreData (b : Bytes) : StallData :=
  let n := leField b 0x13 1
  { StallData.fresh with
    kEst := slice b 0xC0 48, th := slice b 0xF0 48, tenantKey := slice b 0x120 48, policyDigest := slice b 0x150 48
    account := leField b 0x180 8, freezeList := slice b 0x188 48, freezeEpoch := leField b 0x1B8 3, importFloorTime := leField b 0x1C0 8
    owners := (List.range n).map fun i =>
      let o := 0x1E0 + 64 * i
      { index := leField b (o + 48) 1, valid := (leField b (o + 49) 1).testBit 0, keyDigest := [], kEst := slice b o 48 }
    budget := (List.range 8).map fun i =>
      let o := 0x3E0 + 64 * i
      { seq := leField b o 8, charged := (List.range 8).map fun k => leField b (o + 8 + 4 * k) 4 }
    mrs := (List.range 32).map fun i => (i, slice b (0x5E0 + 48 * i) 48)
    log := (List.range (leField b 0x16 1)).map fun i =>
      let o := 0xBE0 + 56 * i
      { seq := leField b (o + 4) 4, reg := leField b o 1, kind := leField b (o + 1) 1, owner := leField b (o + 2) 1
        digest := slice b (o + 8) 48, time := 0, unanchored := false } }

/-- The header of a record is formed as R418 says. -/
def migFormed (b : Bytes) : Bool :=
  let n := leField b 0x14 4
  let k := leField b 0x18 2
  decide (leField b 0 4 = 0x4D4D5358 ∧ leField b 4 2 = 1 ∧ (leField b 8 1 = 1 ∨ leField b 8 1 = 2) ∧ k ≤ 256 ∧
    leField b 0xC 4 = 6704 + 16 * n + 96 * k ∧ b.length = leField b 0xC 4)

/-- The window bound of a class (R224). -/
def State.windowOf (s : State) (pool : Bool) : Nat := if pool then s.cfg.epoch.wPool else s.cfg.epoch.wLocal

/-- One key item restored: its blob written in the blob area its handle has, its key table entry made (R419 step 3). -/
def State.restoreKey (id base epochBias : Nat) (handles : List Nat) (b : Bytes) (s : State) : State :=
  match s.stall? id, s.stallData? id with
  | some x, some d =>
    let h := leField b 0 4
    let gen := leField b 5 1
    let area := base + 256 * (handles.idxOf h)
    let addr := area + 128 * (gen % 2)
    let material := (slice b 0x18 64).take (leField b 9 1)
    let hd : BlobHeader :=
      { handle := h, usage := leField b 6 2, gen, keyLen := leField b 9 1, attr := leField b 8 1, inst := x.inst }
    let blob := blobBytes d.wrapKey hd material
    let e : KeyEntry :=
      { handle := h, gen, pinned := false, migratable := true, usage := leField b 6 2, keyLen := leField b 9 1, use := leField b 0x10 8
        ops := 0, blobAddr := addr, blobTag := blobTag blob, eC := (leField b 0xA 3 + epochBias) % 2 ^ 24, ownerIdx := 0
        destroyed := false }
    (s.emit (.memWrite id addr blob)).setStallData id { (d.putKey e) with wrapCount := d.wrapCount + 1 }
  | _, _ => s

/-- One region item restored: bound FROZEN with its floor moved, and queued for a FLOOR pass; false where it cannot be bound. -/
def State.restoreRegion (id bias : Nat) (b : Bytes) (s : State) : State × Bool :=
  match s.regionOf (regionBytes * leField b 0 4) with
  | none => (s, false)
  | some r =>
    if ¬ s.bindable r ∨ s.inCarveRange (regionBytes * leField b 0 4) ∨ s.inHarbour (regionBytes * leField b 0 4) then (s, false)
    else
      let e : LdgEntry :=
        { owner := id, gen := leField b 4 1 % 4, state := .frozen, floor := (leField b 8 3 + bias) % 2 ^ 24, sweep := true }
      let t := (s.changeEntry r e none).queueItems [.entry r e]
      let o : SweepOrder := { kind := .floor, region := r, stall := id, old := e.gen, new := e.gen, bootOld := false }
      ({ t with swp := { t.swp with queue := t.swp.queue ++ [o] } }, true)

/-- MIGRATE_RESTORE (R419). `counter` is the counter the record was issued under, for a STANDBY session: the spec does not say how the
destination learns it, and the tag decides. -/
def execMigrateRestore (c : Call) (session rec_ blobRegion counter : Nat) (record : BufRead) (s : State) :
    Host.Outcome State Fault Refusal :=
  done (s.command c 0x0406 fun t =>
    (t.emit (.memRead 0 rec_ 0)).input c record fun b t =>
      match t.session false session none with
      | none => t.finish c stNoSession
      | some ss =>
        let standby := match ss with | .standby _ => true | .move _ => false
        if slice b 0x20 32 ≠ (padTo 32 ss.th).take 32 then t.finish c stNoSession
        else if ¬ migFormed b ∨ leField b 8 1 ≠ (if standby then 2 else 1) then t.finish c stEvidence
        else match gcmOpen (ss.kEst.take 32) (ss.nonce counter) (b.take 64) ((b.drop 64).take (b.length - 80)) (b.drop (b.length - 16)) with
          | none => t.finish c stEvidence
          | some pt =>
            let id := leField b 6 2
            let blobReg : RegionId := { pool := false, index := blobRegion }
            let n := leField b 0x14 4
            let items := (List.range n).map fun i => slice pt (6624 + 16 * i) 16
            let keys := (List.range (leField b 0x18 2)).map fun i => slice pt (6624 + 16 * n + 96 * i) 96
            let eSrc := leField pt 0x28 3
            let bias := sub24 t.epo.epoch eSrc
            if (if standby then leField b 0x10 2 else leField b 0x12 2) ≠ t.dom.chip then t.finish c stMigParam
            else if id = 0 ∨ 4096 ≤ id ∨ ¬ t.idFree id then t.finish c stStallBusy
            else if t.regionOf (regionBytes * blobRegion) ≠ some blobReg ∨ ¬ t.bindable blobReg then t.finish c stRegionBusy
            else if items.any fun i => decide (t.windowOf (decide (leField i 5 1 = 1)) < sub24 eSrc (leField i 8 3)) then t.finish c stMigParam
            else
              let x := coreStall pt bias
              let d := coreData pt
              let root := t.stallRootKey id x.inst d.kEst d.th
              let u := ((t.setStall id x).setStallData id { d with stallRoot := root }).styAdmit id
              let handles := (keys.map fun k => leField k 0 4).dedup
              let u := keys.foldl (fun u k => u.restoreKey id (regionBytes * blobRegion) bias handles k) u
              let u := u.bindZero id (u.bindGen id) blobReg
              let r := items.foldl (fun (p : State × Nat × Nat) i => match p.1.restoreRegion id bias i with
                | (v, true) => (v, p.2.1 + 1, p.2.2)
                | (v, false) => (v, p.2.1, p.2.2 + 1)) (u, 0, 0)
              let v := (if x.measLocked then r.1.issueLeaf id else r.1).sendRefusal id
              let v := match ss with
                | .move m => { v with stl := { v.stl with sessions := v.stl.sessions.erase m } }
                | .standby e => v.writeStandby (v.nvm.standby.entries.erase e)
              let v := v.writeRecord id
              v.finishAnchored c stOk (leBytes 4 r.2.1 ++ leBytes 4 r.2.2) [] (v.recordItems id ++
                (v.regionsWhere fun e => decide (e.owner = id)).map fun g => .entry g (v.entry g)))

end Sys2Proof.Machine
end

