-- ==== Sys2Proof/Machine/Attest.lean ====
section
/-!
DEFINITION. Measurements, certificates, evidence and SPDM (spec/12_attestation_domain.md R357 to R369).
-/

namespace Sys2Proof.Machine

/-! ### Measurements (R357, R358) -/

/-- ROM_DIGEST (R357, R486), 48 bytes. [DESIGN CHOICE: notes/assumptions/3.md] -/
def romDigest : Bytes := (padTo 48 Config.romDigest).take 48

/-- A measurement register. -/
def StallData.mr (d : StallData) (i : Nat) : Bytes := (padTo 48 ((assocGet i d.mrs).getD [])).take 48

/-- The program digest (R358). -/
def StallData.programDigest (d : StallData) : Bytes := sha384 ((List.range 16).flatMap d.mr)

/-- M_FW over an image's digest and the patches applied (R357). -/
def State.measureFirmware (s : State) (almDigest : Bytes) : Bytes :=
  sha384 (romDigest ++ almDigest ++ s.hlm.applied.flatMap (·.digest) ++ leBytes 1 s.lcu.state ++ leBytes 1 (bit s.sbx.drkTest))

/-- Alias certificates issued, and leaf certificates again for every Stall that has them (R359). -/
def State.issueAlias (s : State) : State :=
  let t := ({ s.tookDraw with att := { s.att with aliases := s.att.aliases + 1 } }).bump (ctrSbx 7) 1
  (t.stl.table.filter fun p => p.2.measLocked).foldl (fun t p => t.issueLeaf p.1) t

/-- MEASURE_EXTEND (R358): the program registers before MEASURE_LOCK, the data registers after it; the log holds 64 extends. -/
def execMeasureExtend (c : Call) (reg kind owner : Nat) (digest : Bytes) (s : State) : Host.Outcome State Fault Refusal :=
  done (s.command c 0x0601 fun t =>
    match t.stall? c.stall, t.stallData? c.stall with
    | some x, some d =>
      if 32 ≤ reg then t.badArg c 0
      else if kind = 0 ∨ 4 < kind then t.badArg c 1
      else if x.measLocked = decide (reg < 16) then t.finish c stMeasLocked
      else
        let seq := x.extendSeq + 1
        let e : LogEntry :=
          { seq, reg, kind, owner, digest := (padTo 48 digest).take 48, time := t.clk.domain, unanchored := t.unanchored }
        let full := decide (64 ≤ d.log.length)
        let d' := d.extend reg ((padTo 48 digest).take 48)
        let u := (t.setStall c.stall { x with extendSeq := seq, logOverflow := x.logOverflow || full }).setStallData c.stall
          { d' with log := if full then d.log else d.log ++ [e] }
        u.finishOk c (leBytes 4 seq)
    | _, _ => t.finish c stStallLost)

/-- MEASURE_LOCK (R358, R359): once per INSTANCE; the leaf certificates are issued. -/
def execMeasureLock (c : Call) (s : State) : Host.Outcome State Fault Refusal :=
  done (s.command c 0x0602 fun t =>
    match t.stall? c.stall with
    | none => t.finish c stStallLost
    | some x =>
      if x.measLocked then t.finish c stMeasLocked
      else t.withEntropy c fun t => ((t.setStall c.stall { x with measLocked := true }).issueLeaf c.stall).finish c stOk)

/-! ### The X2 report (R365, R366) -/

/-- X2_ENABLE (R365). -/
def execX2Enable (c : Call) (s : State) : Host.Outcome State Fault Refusal :=
  done (s.command c 0x0603 fun t =>
    match t.stall? c.stall with
    | none => t.finish c stStallLost
    | some x =>
      if x.measLocked then t.finish c stX2Late
      else (t.setStall c.stall { x with x2 := true }).finish c stOk)

/-- The signed part of a report (R366). -/
def State.x2Body (s : State) (id : Nat) (x : Stall) (d : StallData) (nonce : Bytes) : Bytes :=
  leBytes 4 0x50523258 ++ leBytes 2 2 ++ leBytes 2 id ++ (padTo 16 x.inst).take 16 ++ leBytes 8 s.clk.domain ++
    (padTo 32 nonce).take 32 ++ (padTo 48 s.att.mFw).take 48 ++ d.programDigest ++
    leBytes 2 (bit (!s.ald.full) + 2 * bit s.unanchored + 4 * bit s.sbx.drkTest + 8 * bit x.logOverflow) ++
    leBytes 1 d.log.length ++ zeros 5 ++ d.log.flatMap LogEntry.bytes

/-- X2_REPORT (R365, R366). `sigs` are the leaf keys' signatures over the SHA-384 of the body. -/
def execX2Report (c : Call) (nonce : Bytes) (out_ outMax : Nat) (sigs : Bytes) (ok : Bool) (s : State) :
    Host.Outcome State Fault Refusal :=
  done (s.command c 0x0604 fun t =>
    match t.stall? c.stall, t.stallData? c.stall with
    | some x, some d =>
      if ¬ x.x2 then t.finish c stX2Off
      else if ¬ x.measLocked then t.finish c stEvidence
      else
        let report := t.x2Body c.stall x d nonce ++ (padTo 4728 sigs).take 4728
        t.output c out_ outMax report ok fun t => (t.bump (ctrSbx 7) 1).finishOk c (leBytes 4 report.length)
    | _, _ => t.finish c stStallLost)

/-! ### Evidence and identity (R361, R363) -/

/-- The certificates of a Stall can be given: its leaf exists, and a DEPLOYED part holds its identity record (R361). -/
def State.evidence (s : State) (x : Stall) : Bool :=
  x.measLocked && !(decide (s.lcu.state = lcDeployed) && s.nvm.identity.isNone)

/-- STALL_EVIDENCE (R363). `certs` are the certificates; a spilled Stall is filled first. -/
def execStallEvidence (c : Call) (stall out_ outMax : Nat) (certs : Bytes) (ok : Bool) (s : State) :
    Host.Outcome State Fault Refusal :=
  done (s.command c 0x0605 fun t =>
    match t.stall? stall with
    | none => t.finish c stEvidence
    | some x =>
      if x.state = .lost ∨ x.state = .removing then t.finish c stStallLost
      else if ¬ t.resident stall then t.wantStall stall
      else if ¬ t.evidence x then t.finish c stEvidence
      else t.output c out_ outMax certs ok fun t => t.finishOk c (leBytes 4 certs.length))

/-- IDENTITY_CSR (R361). `csrs` are the two requests, each signed by its own key. -/
def execIdentityCsr (c : Call) (out_ outMax : Nat) (csrs : Bytes) (ok : Bool) (s : State) : Host.Outcome State Fault Refusal :=
  done (s.command c 0x0606 fun t =>
    if t.lcu.state ≠ lcProvision then t.finish c stLifecycle
    else t.output c out_ outMax csrs ok fun t => (t.bump (ctrSbx 7) 1).finishOk c (leBytes 4 csrs.length))

/-- IDENTITY_STORE (R361): up to 16 KiB of certificates for each chain, written sealed over the identity record.
[DEDUCED: notes/assumptions/49.md] -/
def execIdentityStore (c : Call) (src len : Nat) (certs : BufRead) (s : State) : Host.Outcome State Fault Refusal :=
  done (s.command c 0x0607 fun t =>
    if t.lcu.state ≠ lcProvision then t.finish c stLifecycle
    else if len = 0 ∨ 32768 < len then t.badArg c 8
    else (t.emit (.memRead c.stall src len)).input c certs fun b t =>
      let nonce := t.drawn 12
      let w := gcmSeal (t.storeKey 3) nonce [] (b.take len)
      let u := (t.tookDraw.emits ((List.range 16).map fun k => .nvmErase (0xC00 + k))).emit
        (.nvmWrite 0x00C00000 (nonce ++ w.1 ++ w.2))
      ({ u with nvm := { u.nvm with identity := some (b.take len) } }).finish c stOk)

/-! ### SPDM (R342, R343, R367 to R369) -/

/-- The slot number of SPDM session key `k` of an HSE (R343). -/
def sessionHandle (h k : Nat) : Nat := ideHandle h (12 + k)

/-- The key of a stream, direction and key set. -/
def Hse.ideKey? (h : Hse) (stream : Nat) (dirTx : Bool) (keySet : Nat) : Option IdeKey :=
  h.keys.find? fun k => k.stream = stream ∧ k.dirTx = dirTx ∧ k.keySet = keySet

/-- The HSE carries the stream: CXL.cachemem needs the CXL protocol (R342). -/
def State.hasStream (s : State) (h stream : Nat) : Bool :=
  decide (stream = 0) || (decide (stream = 1) && s.cfg.engine.hseCxl.testBit h)

/-- An IDE key programmed (R343): a conflict keeps the earlier key. -/
def State.keyProg (h stream : Nat) (dirTx : Bool) (keySet : Nat) (key iv : Bytes) (s : State) : State :=
  match s.hse[h]? with
  | none => s
  | some e =>
    if ¬ s.hasStream h stream ∨ 2 ≤ keySet ∨ (e.ideKey? stream dirTx keySet).isSome then s else
      let k : IdeKey := { stream, dirTx, keySet, key, iv, blocks := 0, wearRaised := false }
      (s.modHse h fun e => { e with keys := e.keys ++ [k] }).pinLink (ideHandle h (ideNumber stream dirTx keySet)) (some (0, key))

/-- The keys of one key set of a stream destroyed. [DEDUCED: notes/assumptions/47.md] -/
def State.dropKeySet (h stream keySet : Nat) (s : State) : State :=
  ((s.modHse h fun e => { e with keys := e.keys.filter fun k => ¬ (k.stream = stream ∧ k.keySet = keySet) }).pinLink
    (ideHandle h (ideNumber stream true keySet)) none).pinLink (ideHandle h (ideNumber stream false keySet)) none

/-- K_SET_GO (R342): with both directions programmed the set becomes active, the stream is secure, and the other set's keys go.
[DEDUCED: notes/assumptions/47.md] -/
def State.setGo (h stream keySet : Nat) (s : State) : State :=
  match s.hse[h]? with
  | none => s
  | some e =>
    if (e.ideKey? stream true keySet).isNone ∨ (e.ideKey? stream false keySet).isNone then s else
      (s.modHse h fun e =>
        if stream = 1 then { e with cacheState := 1, cacheSet := keySet, forced := false }
        else { e with state := 1, keySet, forced := false }).dropKeySet h stream (1 - keySet)

/-- K_SET_STOP (R342): the set's keys go, and a stream that used them is not secure any more. [DEDUCED: notes/assumptions/47.md] -/
def State.setStop (h stream keySet : Nat) (s : State) : State :=
  match s.hse[h]? with
  | none => s
  | some e =>
    if (e.ideKey? stream true keySet).isNone ∧ (e.ideKey? stream false keySet).isNone then s else
      (s.modHse h fun e =>
        if stream = 1 ∧ e.cacheSet = keySet ∧ e.cacheState = 1 then { e with cacheState := 2 }
        else if stream = 0 ∧ e.keySet = keySet ∧ e.state = 1 then { e with state := 2 }
        else e).dropKeySet h stream keySet

/-- What an SPDM request does to the block's state: at most eight sessions (R367); a session over an HSE holds its four slots (R343). -/
def State.spdm (hse : Nat) (a : SpdmAction) (s : State) : State :=
  match a with
  | .nothing => s
  | .openSession id =>
    if 8 ≤ s.att.sessions.length ∨ s.att.sessions.contains id then s else
      let t : State := { s with att := { s.att with sessions := s.att.sessions ++ [id] } }
      if s.hse.length ≤ hse then t
      else (List.range 4).foldl (fun t k => t.tookDraw.pinLink (sessionHandle hse k) (some (0, t.drawn 32))) t
  | .closeSession id =>
    if ¬ s.att.sessions.contains id then s else
      let t : State := { s with att := { s.att with sessions := s.att.sessions.erase id } }
      if s.hse.length ≤ hse then t else (List.range 4).foldl (fun t k => t.pinLink (sessionHandle hse k) none) t
  | .keyProg stream dirTx keySet key iv => s.keyProg hse stream dirTx keySet key iv
  | .setGo stream keySet => s.setGo hse stream keySet
  | .setStop stream keySet => s.setStop hse stream keySet

/-- SPDM_MSG (R369). `resp` is the response Helm makes, `action` what the request asks of the block's state. -/
def execSpdmMsg (c : Call) (req reqLen hse rsp rspMax : Nat) (reqBuf : BufRead) (resp : Bytes) (action : SpdmAction) (ok : Bool)
    (s : State) : Host.Outcome State Fault Refusal :=
  done (s.command c 0x0608 fun t =>
    if hse ≠ 0xFF ∧ t.build.hseCount ≤ hse then t.badArg c 12
    else (t.emit (.memRead c.stall req reqLen)).input c reqBuf fun _ t =>
      t.output c rsp rspMax resp ok fun t =>
        ((t.spdm hse action).bump (ctrHlm 5) 1).finishOk c (leBytes 4 resp.length))

end Sys2Proof.Machine
end

