-- ==== Sys2Proof/Machine/Hybrid.lean ====
section
/-!
DEFINITION. The hybrid key exchange (spec/12_attestation_domain.md R370, R371): its messages, what each PURPOSE does when it completes, HYB_MSG,
and the join exchange over links (R374, R375).
-/

namespace Sys2Proof.Machine

/-! ### Messages (R370) -/

/-- TH over the whole messages. -/
def HybExchange.th (x : HybExchange) : Bytes := sha384 (x.h1 ++ x.h2 ++ x.h3)

/-- K_EST (R184). -/
def HybExchange.secret (x : HybExchange) (o : HybOps) : Bytes := hmac384 x.th (o.z ++ o.k)

/-- H4. -/
def hybProof (kEst th : Bytes) : Bytes := hmac384 kEst (th ++ [1])

/-- Bytes of the target of H1: Stall ID and INSTANCE, with OWNER_IDX for an owner, or logical chip and port. -/
def targetSize (purpose : Nat) : Nat := if purpose = 1 then 3 else if purpose = 3 then 19 else 18

/-- H1 has the length of its PURPOSE. -/
def hybH1Ok (h1 : Bytes) : Bool :=
  decide (1 ≤ leField h1 0 1 ∧ leField h1 0 1 ≤ 4 ∧ h1.length = 130 + targetSize (leField h1 0 1))

/-- Lengths of H2 and H3 without their signatures. -/
def hybH2Size : Nat := 1697
def hybH3Size : Nat := 1568

/-- The responder's H2: N_R and Q_R drawn, the encapsulation key of a pool pair, the dual signature. -/
def State.hybH2 (o : HybOps) (s : State) : Bytes × State :=
  let h2 := s.drawn 32 ++ s.tookDraw.drawn 97 ++ (padTo 1568 o.ek).take 1568 ++ o.sig
  let t := s.tookDraw.tookDraw
  (h2, (({ t with sbx := { t.sbx with poolLevel := t.sbx.poolLevel - 1 } }.bump (ctrSbx 6) 1).bump (ctrSbx 7) 1))

/-- An exchange over: EV_HYB_FAIL (R370). [DEDUCED: notes/assumptions/46.md] -/
def State.hybFail (x : HybExchange) (s : State) : State :=
  { s with dom := { s.dom with exchanges := s.dom.exchanges.erase x } }.event evHybFail unitHelm
    (if x.purpose = 1 then none else some x.stall) x.purpose (x.lse.getD 0xFF)

/-! ### What an exchange gives (R371, R406, R416) -/

/-- Stall 0's blobs wrapped again under the wrap key of its new root key (R406); `blobs` are the blobs read, in key table order. A blob
that does not open keeps its old bytes, which the Strongbox refuses from then on. -/
def State.rewrapBlobs (id : Nat) (old new : StallData) (inst : Bytes) (blobs : List BufRead) (s : State) : StallData × State :=
  (old.keys.zipIdx).foldl (fun (p : StallData × State) (e : KeyEntry × Nat) =>
    match blobs[e.2]? with
    | some (BufRead.ok b) => match s.openBlob e.1.handle e.1.gen b with
      | none => p
      | some key =>
        let attr := bit (keyDrawn (handleType e.1.handle)) + 2 * bit e.1.migratable
        let blob := blobBytes new.wrapKey
          { handle := e.1.handle, usage := e.1.usage, gen := e.1.gen, keyLen := e.1.keyLen, attr, inst } key
        ({ p.1 with keys := p.1.keys.map fun k => if k = e.1 then { k with blobTag := blobTag blob } else k },
          p.2.emit (.memWrite id e.1.blobAddr blob))
    | _ => p) (new, s)

/-- A tenant exchange completed (R406): the Stall root key derived, K_EST and TH stored, KEYED. -/
def State.hybTenant (x : HybExchange) (kEst th : Bytes) (blobs : List BufRead) (s : State) : State :=
  match s.stall? x.stall, s.stallData? x.stall with
  | some st, some d =>
    let d' : StallData := { d with stallRoot := s.stallRootKey x.stall st.inst kEst th, kEst, th }
    let p := if x.stall = 0 then s.rewrapBlobs 0 d d' st.inst blobs else (d', s)
    ((p.2.setStall x.stall { st with state := if st.state = .admitted then .keyed else st.state, keyed := true }).setStallData x.stall
      p.1).writeRecord x.stall
  | _, _ => s

/-- An owner exchange completed (R406). -/
def State.hybOwner (x : HybExchange) (kEst : Bytes) (s : State) : State :=
  (s.modStallData x.stall fun d => { d with owners := d.owners.map fun o =>
    if o.index = x.owner then { o with valid := true, kEst } else o }).writeRecord x.stall

/-- A migration exchange completed (R416): a MOVE session on die, or an entry of the STANDBY table.
[DEDUCED: notes/assumptions/49.md] -/
def State.hybMigrate (x : HybExchange) (kEst th : Bytes) (s : State) : State :=
  if x.standby then
    s.addStandby { role := if x.initiator then 1 else 2, stall := x.stall, peer := x.chip, inst := x.inst, th, kEst, recordCounter := 0
                   written := 0 }
  else
    { s with stl := { s.stl with sessions := s.stl.sessions ++
      [{ source := x.initiator, stall := x.stall, peer := x.chip, inst := x.inst, th, kEst, since := s.clk.elapsed }] } }

/-- An exchange completes at this end: it is over and its PURPOSE takes effect. -/
def State.hybDone (x : HybExchange) (kEst th : Bytes) (blobs : List BufRead) (s : State) : State :=
  let t := { s with dom := { s.dom with exchanges := s.dom.exchanges.erase x } }.bump (ctrHlm 6) 1
  match x.purpose with
  | 1 => match t.dom.peers.find? fun p => (match x.lse with | some i => p.lse = i | none => p.chip = x.chip) with
    | some p => t.installSecret p.lse p kEst (th.take 8)
    | none => t
  | 2 => t.hybTenant x kEst th blobs
  | 3 => t.hybOwner x kEst
  | _ => t.hybMigrate x kEst th

/-- This end may take part in an exchange as responder (R375, R406): a tenant exchange once, an owner exchange once for each owner, both
after MEASURE_LOCK and for the INSTANCE named; a link exchange with a peer of the membership. -/
def State.hybWilling (s : State) (purpose stall chip : Nat) (h1 : Bytes) : Bool :=
  match purpose with
  | 1 => s.dom.peers.any fun p => decide (p.chip = chip ∧ p.chip < s.dom.chip)
  | 4 => decide (leField h1 1 2 = stall)
  | _ => match s.stall? stall, s.stallData? stall with
    | some x, some d =>
      let named := decide (leField h1 1 2 = stall ∧ slice h1 3 16 = (padTo 16 x.inst).take 16)
      if purpose = 2 then named && x.measLocked && !x.keyed && (decide (x.state = .admitted) || decide (stall = 0))
      else named && x.measLocked && d.owners.any fun o => decide (o.index = leField h1 19 1) && !o.valid
    | _, _ => false

/-- The other end's signature over H3 is required (R371). -/
def State.hybSigned (s : State) (x : HybExchange) : Bool :=
  match x.purpose with
  | 1 => true
  | 4 => true
  | 2 => ((s.stallData? x.stall).map fun d => decide (d.tenantKey ≠ zeros 48)).getD false
  | _ => ((s.stallData? x.stall).map fun d => d.owners.any fun o => decide (o.index = x.owner ∧ o.keyDigest ≠ zeros 48)).getD false

/-! ### The other end's credentials (R375) -/

/-- The cause of the first check a peer's certificates fail: 1 identity, 2 firmware, 3 domain or port, 4 signature; none where they
pass. [DEDUCED: notes/assumptions/66.md] -/
def Dom.certCause (d : Dom) (p : Peer) (c : PeerCert) : Option Nat :=
  if c.identity ≠ p.identity then some 1
  else if ¬ c.verified then some 4
  else if ¬ d.fwOk.contains c.mFw then some 2
  else if c.domainId ≠ d.domainId ∨ c.chip ≠ p.chip ∨ c.port ≠ p.port ∨ (c.test ∧ ¬ d.testDomain) then some 3
  else none

/-- The peer of a link exchange fails the checks of R375, or has shown no certificates. [DEDUCED: notes/assumptions/66.md] -/
def State.credentialBad (s : State) (x : HybExchange) (cert : Option PeerCert) : Bool :=
  decide (x.purpose = 1) && match s.dom.peers.find? fun p => p.chip = x.chip, cert with
    | some p, some k => (s.dom.certCause p k).isSome
    | _, _ => true

/-! ### HYB_MSG (R370, R416) -/

/-- The exchange a HYB_MSG continues. -/
def State.hybFind (s : State) (purpose stall chip : Nat) : Option HybExchange :=
  s.dom.exchanges.find? fun x => decide (x.lse = none ∧ x.purpose = purpose ∧ (if purpose = 1 then x.chip = chip else x.stall = stall))

/-- A HYB_MSG that ends its exchange: EV_HYB_FAIL, and a status the spec does not state, so a free value.
[DEDUCED: notes/assumptions/46.md] [DESIGN CHOICE: notes/assumptions/71.md] -/
def State.hybRefuse (c : Call) (x : HybExchange) (s : State) : State := (s.hybFail x).tookDraw.finish c (s.free % 65536)

/-- HYB_MSG that starts an exchange as initiator: H1. Only a link or a migration has this block as initiator (R370). -/
def State.hybStart (c : Call) (purpose stall chip out_ outMax : Nat) (ok : Bool) (s : State) : State :=
  let inst := ((s.stall? stall).map (·.inst)).getD []
  let port := ((s.dom.peers.find? fun p => p.chip = chip).map (·.port)).getD 0
  let target := if purpose = 1 then leBytes 2 chip ++ leBytes 1 port else leBytes 2 stall ++ (padTo 16 inst).take 16
  let h1 := leBytes 1 purpose ++ target ++ s.drawn 32 ++ s.tookDraw.drawn 97
  let x : HybExchange :=
    { HybExchange.start true purpose none h1 s.clk.elapsed with
      stall := if purpose = 1 then 0 else stall, inst, chip, port }
  s.output c out_ outMax h1 ok fun t =>
    let t := t.tookDraw.tookDraw
    let old := t.dom.exchanges.filter fun y => ¬ (y.lse = none ∧ y.purpose = purpose ∧ y.stall = x.stall ∧ y.chip = chip)
    ({ t with dom := { t.dom with exchanges := old ++ [x] } }).finishOk c (leBytes 4 h1.length)

/-- HYB_MSG that brings an H1: the responder answers with H2; without a pool pair it waits for one (R200). -/
def State.hybAnswer (c : Call) (purpose stall chip out_ outMax : Nat) (h1 : Bytes) (o : HybOps) (ok : Bool) (s : State) : State :=
  let x : HybExchange :=
    { HybExchange.start false purpose none h1 s.clk.elapsed with
      stall := if purpose = 1 then 0 else stall, chip
      inst := if purpose = 1 then [] else slice h1 3 16
      owner := if purpose = 3 then leField h1 19 1 else 0 }
  if ¬ hybH1Ok h1 ∨ leField h1 0 1 ≠ purpose ∨ ¬ s.hybWilling purpose stall chip h1 then s.hybRefuse c x
  else if s.sbx.poolLevel = 0 then s
  else
    let p := s.hybH2 o
    s.output c out_ outMax p.1 ok fun t =>
      let u := (t.hybH2 o).2
      ({ u with dom := { u.dom with exchanges := u.dom.exchanges ++ [{ x with h2 := p.1 }] } }).finishOk c (leBytes 4 p.1.length)

/-- HYB_MSG that brings H2 to an initiator: H3, once the responder's signature and credentials pass. -/
def State.hybAccept (c : Call) (x : HybExchange) (standby : Bool) (out_ outMax : Nat) (h2 : Bytes) (o : HybOps) (cert : Option PeerCert)
    (ok : Bool) (s : State) : State :=
  if h2.length < hybH2Size ∨ ¬ o.sigOk ∨ s.credentialBad x cert then s.hybRefuse c x
  else
    let h3 := (padTo 1568 o.ct).take 1568 ++ o.sig
    let y : HybExchange := { x with h2, h3, standby }
    let y := { y with kEst := y.secret o }
    s.output c out_ outMax h3 ok fun t =>
      ({ t with dom := { t.dom with exchanges := t.dom.exchanges.map fun z => if z = x then y else z } }.bump (ctrSbx 7) 1).finishOk c
        (leBytes 4 h3.length)

/-- HYB_MSG that brings H3 to the responder: K_EST, H4 and the effect of the PURPOSE; complete once what it writes is anchored. -/
def State.hybFinish (c : Call) (x : HybExchange) (standby : Bool) (out_ outMax : Nat) (h3 : Bytes) (o : HybOps) (cert : Option PeerCert)
    (blobs : List BufRead) (ok : Bool) (s : State) : State :=
  if h3.length < hybH3Size ∨ ¬ o.keyOk ∨ (s.hybSigned x ∧ ¬ o.sigOk) ∨ s.credentialBad x cert ∨ (x.purpose ≤ 3 ∧ ¬ s.hybWilling x.purpose x.stall x.chip x.h1)
  then s.hybRefuse c x
  else if x.purpose = 4 ∧ ¬ standby ∧ 8 ≤ s.stl.sessions.length then
    ({ s with dom := { s.dom with exchanges := s.dom.exchanges.erase x } }).finish c stNoSession
  else
    let y : HybExchange := { x with h3, standby }
    let th := y.th
    let kEst := y.secret o
    let h4 := hybProof kEst th
    s.output c out_ outMax h4 ok fun t =>
      let t : State := { t with dom := { t.dom with exchanges := t.dom.exchanges.map fun z => if z = x then y else z } }
      let u := t.hybDone y kEst th blobs
      u.finishAnchored c stOk (leBytes 4 h4.length ++ th.take 8) [] (if x.purpose = 2 ∨ x.purpose = 3 then u.recordItems x.stall else [])

/-- HYB_MSG that brings H4 to an initiator. -/
def State.hybConfirm (c : Call) (x : HybExchange) (h4 : Bytes) (s : State) : State :=
  if h4 ≠ hybProof x.kEst x.th then s.hybRefuse c x
  else if x.purpose = 4 ∧ ¬ x.standby ∧ 8 ≤ s.stl.sessions.length then
    ({ s with dom := { s.dom with exchanges := s.dom.exchanges.erase x } }).finish c stNoSession
  else (s.hybDone x x.kEst x.th []).finishOk c (leBytes 4 0 ++ x.th.take 8)

/-- HYB_MSG (R370, R371, R416). IN_LEN 0 starts an exchange as initiator; otherwise the message is the one the exchange awaits. -/
def execHybMsg (c : Call) (inp inLen purpose flags targetStall out_ outMax targetChip : Nat) (inBuf : BufRead) (o : HybOps)
    (cert : Option PeerCert) (blobs : List BufRead) (ok : Bool) (s : State) : Host.Outcome State Fault Refusal :=
  done (s.command c 0x0609 fun t =>
    if purpose = 0 ∨ 4 < purpose then t.badArg c 12
    else if 2 ≤ flags ∨ (flags = 1 ∧ purpose ≠ 4) then t.badArg c 13
    else if purpose ≠ 1 ∧ 4096 ≤ targetStall then t.badArg c 14
    else if purpose ≠ 1 ∧ ¬ t.ald.restored then t.finish c stHarbour
    else if purpose = 1 ∧ ¬ t.dom.peers.any (fun p => decide (p.chip = targetChip)) then t.badArg c 28
    else if (purpose = 2 ∨ purpose = 3) ∧ (t.stall? targetStall).isSome ∧ ¬ t.resident targetStall then t.wantStall targetStall
    else if inLen = 0 then
      if purpose = 2 ∨ purpose = 3 then t.badArg c 8
      else if purpose = 4 ∧ (t.stall? targetStall).isNone then t.badArg c 14
      else if purpose = 1 ∧ targetChip < t.dom.chip then t.badArg c 8
      else t.withEntropy c fun t => t.hybStart c purpose targetStall targetChip out_ outMax ok
    else (t.emit (.memRead c.stall inp inLen)).input c inBuf fun b t =>
      match t.hybFind purpose targetStall targetChip with
      | none => t.withEntropy c fun t => t.hybAnswer c purpose targetStall targetChip out_ outMax b o ok
      | some x =>
        if ¬ x.initiator then t.hybFinish c x (decide (flags = 1)) out_ outMax b o cert blobs ok
        else if x.h3 = [] then t.hybAccept c x (decide (flags = 1)) out_ outMax b o cert ok
        else t.hybConfirm c x b)

/-! ### The join exchange (R374, R375) -/

/-- A join exchange fails: recorded and raised; an initiator starts again at the next accepted tick (R375).
[DEDUCED: notes/assumptions/46.md] [DEDUCED: notes/assumptions/66.md] -/
def State.joinFail (i cause : Nat) (s : State) : State :=
  let t : State := { s with dom := { s.dom with
    joinErr := some (i, cause), joinSeen := true
    exchanges := s.dom.exchanges.filterMap fun x =>
      if x.lse ≠ some i then some x
      else if x.initiator then some { x with h1 := [], h2 := [], h3 := [], chainOk := false, kEst := [] } else none
    parts := s.dom.parts.filter fun p => p.lse ≠ i } }
  t.event evJoinFail unitHelm none i cause

/-- A join exchange whose exchange itself failed: EV_HYB_FAIL as well. [DEDUCED: notes/assumptions/46.md] -/
def State.joinHybFail (i cause : Nat) (s : State) : State :=
  (s.event evHybFail unitHelm none 1 i).joinFail i cause

/-- The fragments of a subtype in the receive buffer are taken in order; the message where it is whole. -/
def State.takeMessage (i sub : Nat) (s : State) : Option Bytes × Bool × State :=
  let us := (((s.lse[i]?).map (·.rxBuf)).getD []).filter fun u => u.kind = 7 ∧ u.sub = sub
  let old := s.dom.parts.find? fun p => p.lse = i ∧ p.sub = sub
  let start : Assembly := old.getD { lse := i, sub, total := 0, got := 0, bytes := [] }
  let step (p : Option Assembly) (u : RxUnit) : Option Assembly :=
    let k := leField u.payload 0 2
    let n := leField u.payload 2 2
    let len := leField u.payload 4 1
    match p with
    | none => none
    | some a =>
      if len = 0 ∨ 56 < len ∨ u.payload.length ≠ 8 + len ∨ slice u.payload 5 3 ≠ zeros 3 ∨ n = 0 ∨ k ≠ a.got ∨ (a.got ≠ 0 ∧ n ≠ a.total)
      then none
      else some { a with total := n, got := k + 1, bytes := a.bytes ++ u.payload.drop 8 }
  let rest := s.dom.parts.filter fun p => ¬ (p.lse = i ∧ p.sub = sub)
  let t := us.foldl (fun t u => t.modLse i fun l => { l with rxBuf := l.rxBuf.eraseP (· = u) }) s
  match us.foldl step (some start) with
  | none => (none, true, { t with dom := { t.dom with parts := rest } })
  | some a =>
    if a.got = a.total ∧ a.got ≠ 0 then (some a.bytes, false, { t with dom := { t.dom with parts := rest } })
    else if a.got = 0 then (none, false, t)
    else (none, false, { t with dom := { t.dom with parts := rest ++ [a] } })

/-- The exchange on an LSE. -/
def State.joinOf (s : State) (i : Nat) : Option HybExchange := s.dom.exchanges.find? fun x => x.lse = some i ∧ x.h1 ≠ []

/-- The exchange on an LSE replaced. -/
def State.setJoin (x y : HybExchange) (s : State) : State :=
  { s with dom := { s.dom with exchanges := s.dom.exchanges.map fun z => if z = x then y else z } }

/-- A join message: its fragments are taken; a malformed one fails the exchange with cause 6, and a whole one is acted on. -/
def onMessage (l sub : Nat) (s : State) (act : Bytes → State → State) : Host.Outcome State Fault Refusal :=
  match s.lse[l]? with
  | none => .fault (.noSuchPort 1 l)
  | some _ =>
    let t := s.begin
    if t.alr.quiet ∨ t.rst.coreReset.isSome then done t else
      let p := t.takeMessage l sub
      if p.2.1 then done (p.2.2.joinHybFail l 6)
      else match p.1 with
        | none => done p.2.2
        | some b => done (act b p.2.2)

/-- JOIN_H1_RECEIVE (R374, R375): the responder answers with CHAIN and H2 under a pool pair; an exchange that ran on the LSE ends. -/
def execJoinH1Receive (l : Nat) (o : HybOps) (s : State) : Host.Outcome State Fault Refusal :=
  if (s.begin).sbx.poolLevel = 0 ∨ ¬ s.sbx.entropyOk then (match s.lse[l]? with | none => .fault (.noSuchPort 1 l) | some _ => done s.begin)
  else onMessage l 8 s fun h1 t =>
    let t := if t.joining l then t.joinHybFail l 6 else t
    match t.dom.peers.find? fun p => p.lse = l with
    | none => t
    | some p =>
      if t.dom.chip < p.chip then t.joinHybFail l 6
      else if ¬ hybH1Ok h1 ∨ leField h1 0 1 ≠ 1 then t.joinHybFail l 6
      else if leField h1 1 2 ≠ t.dom.chip ∨ leField h1 3 1 ≠ l then t.joinFail l 3
      else
        let h2 := t.hybH2 o
        let x : HybExchange := { HybExchange.start false 1 (some l) h1 t.clk.elapsed with chip := p.chip, port := p.port, h2 := h2.1 }
        let u : State := { h2.2 with dom := { h2.2.dom with exchanges := (h2.2.dom.exchanges.filter fun x => x.lse ≠ some l) ++ [x] } }
        (u.sendMessage l 12 o.chain).sendMessage l 9 h2.1

/-- JOIN_CHAIN_RECEIVE (R375): the other end's certificates, as `cert` reads them, are checked; none where they do not parse. -/
def execJoinChainReceive (l : Nat) (cert : Option PeerCert) (s : State) : Host.Outcome State Fault Refusal :=
  onMessage l 12 s fun _ t =>
    match t.joinOf l, t.dom.peers.find? fun p => p.lse = l with
    | some x, some p => match cert with
      | none => t.joinFail l 6
      | some k => match t.dom.certCause p k with
        | some cause => t.joinFail l cause
        | none => t.setJoin x { x with chainOk := true }
    | _, _ => t

/-- JOIN_H2_RECEIVE (R370, R375): the initiator checks H2 and sends its CHAIN and H3. -/
def execJoinH2Receive (l : Nat) (o : HybOps) (s : State) : Host.Outcome State Fault Refusal :=
  onMessage l 9 s fun h2 t =>
    match t.joinOf l with
    | none => t
    | some x =>
      if ¬ x.initiator ∨ x.h2 ≠ [] ∨ h2.length < hybH2Size then t.joinHybFail l 6
      else if ¬ x.chainOk then t.joinFail l 6
      else if ¬ o.sigOk then t.joinHybFail l 4
      else
        let h3 := (padTo 1568 o.ct).take 1568 ++ o.sig
        let y : HybExchange := { x with h2, h3 }
        let y := { y with kEst := y.secret o }
        (((t.setJoin x y).bump (ctrSbx 7) 1).sendMessage l 12 o.chain).sendMessage l 10 h3

/-- JOIN_H3_RECEIVE (R370, R375): the responder checks H3, sends H4 and installs the link secret. -/
def execJoinH3Receive (l : Nat) (o : HybOps) (s : State) : Host.Outcome State Fault Refusal :=
  onMessage l 10 s fun h3 t =>
    match t.joinOf l with
    | none => t
    | some x =>
      if x.initiator ∨ h3.length < hybH3Size then t.joinHybFail l 6
      else if ¬ x.chainOk then t.joinFail l 6
      else if ¬ o.sigOk ∨ ¬ o.keyOk then t.joinHybFail l 4
      else
        let y : HybExchange := { x with h3 }
        let kEst := y.secret o
        ((t.setJoin x y).sendMessage l 11 (hybProof kEst y.th)).hybDone y kEst y.th []

/-- JOIN_H4_RECEIVE (R375): the initiator checks H4 and installs the link secret. -/
def execJoinH4Receive (l : Nat) (s : State) : Host.Outcome State Fault Refusal :=
  onMessage l 11 s fun h4 t =>
    match t.joinOf l with
    | none => t
    | some x =>
      if ¬ x.initiator ∨ x.h3 = [] then t.joinHybFail l 6
      else if h4 ≠ hybProof x.kEst x.th then t.joinHybFail l 4
      else t.hybDone x x.kEst x.th []

/-- HYBRID_EXCHANGE_TIMEOUT (R370): a responder that has sent H2 and had no message for 10 ms. -/
def execHybridExchangeTimeout (s : State) : Host.Outcome State Fault Refusal :=
  let t := s.begin
  match t.dom.exchanges.find? fun x => !x.initiator && x.h3.isEmpty && t.expired x.since 10000000 with
  | none => done t
  | some x => match x.lse with
    | some i => done (t.joinHybFail i 5)
    | none => done (t.hybFail x)

end Sys2Proof.Machine
end

