-- ==== Sys2Proof/Machine/Domain.lean ====
section
/-!
DEFINITION. Joining a domain, substituting a peer and domain time (spec/12_attestation_domain.md R372 to R378, spec/04_clocks_time.md R99,
R100).
-/

namespace Sys2Proof.Machine

/-! ### The membership (R372, R373) -/

/-- Peers of a membership. -/
def memberPeers (b : Bytes) : List Peer :=
  (List.range (leField b 0x1F 1)).map fun k =>
    let e := slice b (0x1E0 + 56 * k) 56
    { lse := leField e 0 1, port := leField e 1 1, chip := leField e 2 2, identity := slice e 8 48 }

/-- The accepted M_FW values of a membership. -/
def memberFw (b : Bytes) : List Bytes := (List.range (leField b 0x58 1)).map fun k => slice b (0x60 + 48 * k) 48

/-- The digest of the authority key block. -/
def memberAuthority (b : Bytes) : Bytes := sha384 (slice b (0x1E0 + 56 * leField b 0x1F 1) 2696)

/-- The layout of R372. -/
def memberFormed (lseCount : Nat) (b : Bytes) : Bool :=
  let n := leField b 0x1F 1
  decide (leField b 0 4 = 0x4D445358 ∧ leField b 4 2 = 1 ∧ leField b 6 2 < 32768 ∧ leField b 0x1C 1 < 4 ∧ n ≤ lseCount ∧
    1 ≤ leField b 0x58 1 ∧ leField b 0x58 1 ≤ 8 ∧ slice b 0x59 7 = zeros 7 ∧ b.length = 0x1E0 + 56 * n + 2696 + 4728) &&
    (List.range n).all fun k =>
      let e := slice b (0x1E0 + 56 * k) 56
      decide (leField e 0 1 < lseCount ∧ leField e 1 1 < 64 ∧ leField e 2 2 < 32768 ∧ slice e 4 4 = zeros 4)

/-- The last row of R373. -/
def State.memberParams (s : State) (b : Bytes) : Bool :=
  let gm := (leField b 0x1C 1).testBit 0
  let ps := memberPeers b
  let parent := leField b 0x1D 1
  decide (leField b 0x1E 1 ≤ 8) && (gm == decide (leField b 0x1E 1 = 0)) &&
    (gm || decide (s.build.lseCount = 0) || ps.any fun p => decide (p.lse = parent)) &&
    (!s.sbx.drkTest || (leField b 0x1C 1).testBit 1) && decide ((ps.map (·.lse)).Nodup)

/-- The first check of R373 that a membership fails, after ST_DOMAIN_JOINED. `sigsOk`: both authority signatures verify; `idOk`: IDENTITY
is the SHA-384 of this chip's DeviceID key. -/
def State.memberStatus (s : State) (b : Bytes) (sigsOk idOk : Bool) : Option Nat :=
  if ¬ memberFormed s.build.lseCount b ∨ ¬ sigsOk then some stEvidence
  else if ¬ idOk ∨ ¬ (memberFw b).contains s.att.mFw then some stEvidence
  else if ¬ s.memberParams b then some stDomainParam
  else none

/-- Domain time anchored with a step (R99, R376). -/
def State.anchorTo (t : Nat) (s : State) : State :=
  { s with clk := { s.clk with domain := t, anchored := true, slew := 0 } }

/-- A membership kept (R373): its fields, the Chart's identity entries, and the grandmaster's anchor. -/
def State.keepMember (b : Bytes) (s : State) : State :=
  let gm := (leField b 0x1C 1).testBit 0
  let ps := memberPeers b
  let t : State := { s with
    dom := { s.dom with
      joined := true, chip := leField b 6 2, domainId := slice b 8 16, seq := leField b 0x18 4, gm
      testDomain := (leField b 0x1C 1).testBit 1, timeParent := leField b 0x1D 1 % 64, timeDepth := leField b 0x1E 1
      anchorTime := leField b 0x20 8, peers := ps, fwOk := memberFw b, authority := memberAuthority b }
    cht := { s.cht with chipIds := ps.foldl (fun l p => assocSet p.chip p.identity l) s.cht.chipIds } }
  if (gm ∨ t.build.lseCount = 0) ∧ ¬ t.clk.anchored then t.anchorTo t.dom.anchorTime else t

/-- DOMAIN_JOIN (R373): the checks in their order; then the membership is kept, the alias certificate names the domain, and the join
exchange starts on every listed LSE. -/
def execDomainJoin (c : Call) (src len : Nat) (member : BufRead) (sigsOk idOk : Bool) (s : State) : Host.Outcome State Fault Refusal :=
  done (s.command c 0x060A fun t =>
    if t.dom.joined then t.finish c stDomainJoined
    else (t.emit (.memRead c.stall src len)).input c member fun b t =>
      match t.memberStatus b sigsOk idOk with
      | some st => t.finish c st
      | none =>
        let u := (t.keepMember b).issueAlias
        (u.dom.peers.foldl (fun u p => u.startJoin p.lse) u).finish c stOk)

/-! ### Substitution (R378) -/

/-- The new membership differs from the one held in SEQ and PEER_IDENTITY alone, and its SEQ is higher. -/
def State.memberReplaces (s : State) (b : Bytes) : Bool :=
  let d := s.dom
  let bare (p : Peer) : Peer := { p with identity := [] }
  decide (slice b 8 16 = d.domainId ∧ leField b 6 2 = d.chip ∧ leField b 0x1C 1 = bit d.gm + 2 * bit d.testDomain ∧
    leField b 0x1D 1 = d.timeParent ∧ leField b 0x1E 1 = d.timeDepth ∧ leField b 0x20 8 = d.anchorTime ∧ memberFw b = d.fwOk ∧
    memberAuthority b = d.authority ∧ (memberPeers b).map bare = d.peers.map bare ∧ d.seq < leField b 0x18 4)

/-- One LSE whose PEER_IDENTITY changed (R378 step 4). -/
def State.substitutePeer (p : Peer) (s : State) : State :=
  let t := (s.poisonLse p.lse).dropGrants p.lse
  let t := { t with
    rwt := t.rwt.filter fun w => w.2.dst ≠ p.chip
    cht := { t.cht with chipIds := assocSet p.chip p.identity t.cht.chipIds }
    dom := { t.dom with exchanges := t.dom.exchanges.filter fun x => x.lse ≠ some p.lse } }
  ((t.modLse p.lse Lse.unkey).syncLink p.lse).startJoin p.lse

/-- DOMAIN_SUBSTITUTE (R378). -/
def execDomainSubstitute (c : Call) (src len : Nat) (member : BufRead) (sigsOk idOk : Bool) (s : State) :
    Host.Outcome State Fault Refusal :=
  done (s.command c 0x060B fun t =>
    (t.emit (.memRead c.stall src len)).input c member fun b t =>
      if ¬ t.dom.joined then t.finish c stDomainParam
      else match t.memberStatus b sigsOk idOk with
        | some st => t.finish c st
        | none =>
          if ¬ t.memberReplaces b then t.finish c stDomainParam
          else
            let ps := memberPeers b
            let changed := ps.filter fun p => !t.dom.peers.contains p
            let u : State := { t with dom := { t.dom with seq := leField b 0x18 4, peers := ps } }
            (changed.foldl (fun u p => u.substitutePeer p) u).finish c stOk)

/-! ### Domain time (R376, R377) -/

/-- A control unit of a subtype at an LSE, taken; `act` gets it. [DESIGN CHOICE: notes/assumptions/7.md] -/
def onControl (l sub : Nat) (s : State) (act : RxUnit → State → State) : Host.Outcome State Fault Refusal :=
  match s.lse[l]? with
  | none => .fault (.noSuchPort 1 l)
  | some e =>
    let t := s.begin
    if t.alr.quiet then done t else
      match e.rxBuf.find? fun u => u.kind = 7 ∧ u.sub = sub with
      | none => done t
      | some u => done (act u (t.modLse l fun x => { x with rxBuf := x.rxBuf.eraseP (· = u) }))

/-- TIME_PROBE_SEND (R376): every 1 ms to the time parent, once its link has keys; `t1` is the stamp, in ps. -/
def execTimeProbeSend (t1 : Nat) (s : State) : Host.Outcome State Fault Refusal :=
  let t := s.begin
  let due := (t.dom.probeAt.map fun a => t.expired a 1000000).getD true
  let up := ((t.lse[t.dom.timeParent]?).map Lse.usable).getD false
  if ¬ t.dom.joined ∨ t.dom.gm ∨ ¬ due ∨ ¬ up ∨ t.alr.quiet then done t else
    done (({ t with dom := { t.dom with probeAt := some t.clk.elapsed, probe := some t1 } }).sendUnit t.dom.timeParent (ctrlUnit 13 []))

/-- TIME_PROBE_RECEIVE (R376): an anchored chip answers with t2 of the probe and t3 of the reply before; `t3` is the stamp of this
reply. -/
def execTimeProbeReceive (l t2 t3 : Nat) (s : State) : Host.Outcome State Fault Refusal :=
  onControl l 13 s fun _ t =>
    if ¬ t.clk.anchored then t else
      let before := (assocGet l t.dom.replies).getD 0
      ({ t with dom := { t.dom with replies := assocSet l t3 t.dom.replies } }).sendUnit l (ctrlUnit 14 (leBytes 8 t2 ++ leBytes 8 before))

/-- The offset of R376, in ps. [DEDUCED: notes/assumptions/48.md] -/
def timeOffset (t1 t2 t3 t4 : Nat) : Int := (((t2 : Int) - t1) - ((t4 : Int) - t3)) / 2

/-- A measured offset (R99, R100): the first one anchors with a step, later ones drive the slew; EV_TIME_UNLOCK above 1 µs, once, until
it is below 100 ns. -/
def State.timeMeasured (off : Int) (s : State) : State :=
  let ns := off / 1000
  let t : State := { s with dom := { s.dom with offset := off, lastOffset := some s.clk.elapsed, unlockRaised := false } }
  if ¬ t.clk.anchored then t.anchorTo ((t.clk.domain : Int) + ns).toNat
  else
    let far := decide (1000000 < off.natAbs)
    let near := decide (off.natAbs < 100000)
    let u : State := { t with clk := { t.clk with slew := ns, timeUnlock := (t.clk.timeUnlock || far) && !near } }
    if far ∧ ¬ t.clk.timeUnlock then u.event evTimeUnlock unitHelm none (off % 2 ^ 64).toNat 0 else u

/-- TIME_REPLY_RECEIVE (R376): `t4` is the stamp of the reply's arrival. The t3 it brings completes the probe before.
[DEDUCED: notes/assumptions/48.md] -/
def execTimeReplyReceive (l t4 : Nat) (s : State) : Host.Outcome State Fault Refusal :=
  onControl l 14 s fun u t =>
    if l ≠ t.dom.timeParent ∨ t.dom.gm ∨ u.payload.length ≠ 16 then t else
      let t2 := leField u.payload 0 8
      let t3 := leField u.payload 8 8
      let v : State := { t with dom := { t.dom with probe := none, prev := t.dom.probe.map fun t1 => (t1, t2, t4) } }
      match t.dom.prev with
      | none => v
      | some (a1, a2, a4) => v.timeMeasured (timeOffset a1 a2 t3 a4)

/-- TIME_UNLOCK_TIMEOUT (R377): the last offset is older than 100 ms, raised once. -/
def execTimeUnlockTimeout (s : State) : Host.Outcome State Fault Refusal :=
  let t := s.begin
  match t.dom.lastOffset with
  | none => done t
  | some a =>
    if ¬ t.expired a 100000000 ∨ t.dom.unlockRaised then done t
    else done ({ t with dom := { t.dom with unlockRaised := true } }.event evTimeUnlock unitHelm none (t.dom.offset % 2 ^ 64).toNat 0)

end Sys2Proof.Machine
end

