-- ==== Sys2Proof/Machine/Booth.lean ====
section
/-!
DEFINITION. The Booth's commands (spec/14_booth.md R431 to R442).
-/

namespace Sys2Proof.Machine

/-! ### BOOTH_OP (R433, R435, R442) -/

/-- The operation that the arguments of a BOOTH_OP name (R435). -/
def boothOpOf (c : Call) (mode dir flags tail handle src dst len aadLen aadTail aad : Nat) (iv : Bytes) (du tag : Nat) : BoothOp :=
  { call := c, mode, decrypt := decide (dir = 1), flags, tail, handle, src, dst, len, aadLen, aadTail, aad
    iv := (padTo 16 iv).take 16, hwNonce := false, du, tag, header := none }

/-- BOOTH_OP: from the holder function alone, up to 8 queued (R433); the checks of R442; then it waits its turn. -/
def execBoothOp (c : Call) (mode dir flags tail handle src dst len aadLen aadTail aad : Nat) (iv : Bytes) (du tag : Nat) (s : State) :
    Host.Outcome State Fault Refusal :=
  done (s.command c 0x0801 fun t =>
    if t.bth.queue.any (fun o => decide (o.call = c)) ∨ (t.bth.running.map fun o => decide (o.call = c)).getD false then t.kickBooth 8
    else if t.inUnitReset unitBooth then t
    else match t.bth.holder with
      | none => t.finish c stBoothNolock
      | some h =>
        if h.1 ≠ c.fn ∨ t.bth.tollgate then t.finish c stBoothBusy
        else if 8 ≤ t.bth.queue.length then t.finish c stBoothBusy
        else if dir ≥ 2 then t.badArg c 1
        else
          let o := boothOpOf c mode dir flags tail handle src dst len aadLen aadTail aad iv du tag
          match t.boothCheck o with
          | some st => t.refuseBooth o st
          | none => ({ t with bth := { t.bth with queue := t.bth.queue ++ [o] } }).kickBooth 8)

/-! ### The end of an operation (R440 to R442) -/

/-- The record of an operation: the nonce used and the bytes written (R441). -/
def BoothOp.record (o : BoothOp) (status written : Nat) (tagOk dnt : Bool) : Completion :=
  { o.call.record status with tagOk, doNotTrust := dnt, result := (padTo 12 (o.iv.take 12)).take 12 ++ leBytes 4 written }

/-- The outcome of an operation: status, what is written to DST, what is written to TAG, TAG_OK and DO_NOT_TRUST. -/
structure BoothEnd where
  status : Nat
  dst : Bytes
  tag : Option Bytes
  tagOk : Bool
  dnt : Bool
  deriving DecidableEq, Repr

/-- A source, AAD or tag read failed (R442): hold leaves DST unchanged, otherwise what was read is processed and written. -/
def BoothOp.readFailed (o : BoothOp) (key : Bytes) (io : BoothIo) : BoothEnd :=
  if o.holds then { status := stBthMemory, dst := [], tag := none, tagOk := false, dnt := false }
  else { status := stBthMemory, dst := o.output key (io.part.take o.len), tag := none, tagOk := false, dnt := true }

/-- What an operation makes of its input (R436, R437, R440). [DEDUCED: notes/assumptions/50.md] -/
def BoothOp.result (o : BoothOp) (key : Bytes) (io : BoothIo) : BoothEnd :=
  match io.src with
  | .failed => o.readFailed key io
  | .ok data =>
    let data := (padTo o.len data).take o.len
    let aad : Option Bytes := match o.header with
      | some h => some h
      | none => if o.mode = 0 ∧ o.aadLen ≠ 0 then (match io.aad with | .ok b => some ((padTo o.aadLen b).take o.aadLen) | .failed => none)
        else some []
    match aad with
    | none => o.readFailed key io
    | some a =>
      if o.mode = 1 ∨ o.mode = 2 then { status := stOk, dst := o.output key data, tag := none, tagOk := false, dnt := false }
      else
        let t := o.tagOf key a data
        if ¬ o.decrypt then { status := stOk, dst := o.output key data, tag := some t, tagOk := false, dnt := false }
        else match io.tag with
          | .failed => o.readFailed key io
          | .ok want =>
            if t = want then { status := stOk, dst := o.output key data, tag := none, tagOk := true, dnt := false }
            else if o.holds then { status := stBthTag, dst := if o.mode = 0 then zeros o.len else [], tag := none, tagOk := false, dnt := false }
            else { status := stBthTag, dst := o.output key data, tag := none, tagOk := false, dnt := true }

/-- The end with the writes' answers: a failed write leaves what was written before it and ends with ST_BTH_MEMORY.
[DEDUCED: notes/assumptions/50.md] -/
def BoothEnd.written (e : BoothEnd) (io : BoothIo) : BoothEnd :=
  match io.failedAt with
  | none => e
  | some n => if e.dst = [] ∧ e.tag = none then e else { e with status := stBthMemory, dst := e.dst.take n, tag := none, tagOk := false, dnt := true }

/-- The running operation ends: its writes leave, its tag is written, its record is issued; a lock it was to release is released, and
the next operation starts. [DEDUCED: notes/assumptions/50.md] -/
def State.endBooth (o : BoothOp) (e : BoothEnd) (s : State) : State :=
  let t := s.writeRange o.call.stall o.dst e.dst
  let t := match e.tag with
    | some b => t.writeRange o.call.stall o.tag b
    | none => t
  let fail := decide (e.status = stBthTag)
  let t : State := { t with bth := { t.bth with
    running := none, leaseAt := t.clk.elapsed, tagFails := satAdd 65535 t.bth.tagFails (bit fail) } }
  let t := (((t.bump (ctrBooth 1) o.len).bump (ctrBooth 2) e.dst.length).bump (ctrBooth 4) (bit fail)).bumpStall o.call.stall 14 o.len
  t.keyBusy o.handle false

/-- The key an operation runs under. -/
def State.boothKey (s : State) (o : BoothOp) : Bytes :=
  ((s.sbx.slots.find? fun p => p.2.handle = o.handle ∧ p.2.busy).map (·.2.material)).getD []

/-- BOOTH_OP_COMPLETE (R441). -/
def execBoothOpComplete (io : BoothIo) (s : State) : Host.Outcome State Fault Refusal :=
  let t := s.begin
  match t.bth.running with
  | none => done t
  | some o =>
    if o.header.isSome ∨ t.alr.quiet then done t else
      let e := (o.result (t.boothKey o) io).written io
      let u := (t.endBooth o e).complete (o.record e.status e.dst.length e.tagOk e.dnt)
      let u := if o.release then u.unlockBooth else u
      done ((u.settleDestroys).kickBooth 8)

/-- BOOTH_LEASE_EXPIRY (R432, R446): no operation running or queued for T_BLEASE. -/
def execBoothLeaseExpiry (s : State) : Host.Outcome State Fault Refusal :=
  let t := s.begin
  match t.bth.holder with
  | none => done t
  | some h =>
    if t.bth.tollgate ∨ t.bth.running.isSome ∨ ¬ t.bth.queue.isEmpty ∨ ¬ t.expired t.bth.leaseAt (t.cfg.engine.tBlease * 100000) then done t
    else done ((t.event evBthLease unitBooth (some h.2) h.1 0).bump (ctrBooth 10) 1).unlockBooth

/-! ### Claim and release (R431, R432) -/

/-- A claim of the lock by a function that acts as Stall `st`. [DEDUCED: notes/assumptions/13.md] -/
def State.claimFor (fn st : Nat) (s : State) : State :=
  if s.bth.holder.isSome ∨ s.handoffWaits ∨ (st ≠ 0 ∧ (s.stallState st ≠ .keyed ∨ ¬ s.ald.full)) ∨ s.inUnitReset unitBooth
  then s.bump (ctrBooth 9) 1
  else ({ s with bth := { s.bth with holder := some (fn, st), tollgate := false, leaseAt := s.clk.elapsed, releaseDue := false } }).bump
    (ctrBooth 8) 1

/-- A claim of the lock by a function. [DEDUCED: notes/assumptions/13.md] -/
def State.claimBooth (fn : Nat) (s : State) : State :=
  match s.fnStall? fn with
  | none => s.bump (ctrBooth 9) 1
  | some st => s.claimFor fn st

/-- A release of the lock by a function. [DEDUCED: notes/assumptions/13.md] -/
def State.releaseLock (fn : Nat) (s : State) : State :=
  match s.bth.holder with
  | some h => if h.1 = fn ∧ ¬ s.bth.tollgate then ({ s with bth := { s.bth with releaseDue := true } }).settleLock else s
  | none => s

end Sys2Proof.Machine
end

