-- ==== Sys2Proof/Machine/Observe.lean ====
section
/-!
DEFINITION. Observability (spec/19_observability.md): counters and gauges as they read, the Beacon and its freeze, the layout of
synchronisation event rings and of the PCLK gap log, the Doldrums detector and the Soundings of counter banks
(spec/18_faults_alarms_recovery.md R532 to R537).
-/

namespace Sys2Proof.Machine

/-! ### Counters (R548 to R554) -/

/-- The counter is a gauge (R553, R554). -/
def isGauge (n : Nat) : Bool :=
  decide (n = 14 ∨ n = 15 ∨ n = ctrHlm 3) ||
    (decide (256 ≤ n ∧ n < 1024) && decide (23 ≤ n % 32 ∧ n % 32 ≤ 26)) ||
    (decide (1024 ≤ n ∧ n < 1792) && decide (n % 16 = 12 ∨ n % 16 = 13))

/-- The gauges of an MSE (R553): outstanding host reads and writes, hazard entries, memory-side IDs. -/
def Mse.gauge (m : Mse) (off : Nat) : Nat :=
  if off = 23 then (m.requests.filter fun r => !r.write).length
  else if off = 24 then (m.requests.filter fun r => r.write).length
  else if off = 25 then m.hazards.length
  else (m.ops.filter fun o => o.id.isSome).length + m.reserved.length

/-- The level of a gauge. -/
def State.gauge (s : State) (n : Nat) : Nat :=
  if n = 14 then s.hlm.buffer.length
  else if n = 15 then s.hlm.tickQ.length
  else if n = ctrHlm 3 then min 1024 s.hlm.fifo.length
  else if n < 1024 then ((s.mse[(n - 256) / 32]?).map fun m => m.gauge (n % 32)).getD 0
  else ((s.lse[(n - 1024) / 16]?).map fun l => if n % 16 = 12 then l.out.length else l.inbound.length).getD 0

/-- Every gauge of the block. -/
def State.gauges (s : State) : List Nat :=
  [14, 15] ++ (List.range s.mse.length).flatMap (fun i => [ctrMse i 23, ctrMse i 24, ctrMse i 25, ctrMse i 26]) ++
    (List.range s.lse.length).flatMap (fun i => [ctrLse i 12, ctrLse i 13]) ++ [ctrHlm 3]

/-- The live reading of a counter. [DEDUCED: notes/assumptions/55.md] -/
def State.counterValue (s : State) (n : Nat) : Nat := if isGauge n then s.gauge n else s.obs.counter n

/-- A bank all of whose counters are INVALID: held at BANK_FAULT or under test (R534, R551). [DEDUCED: notes/assumptions/56.md] -/
def Obs.bankBad (o : Obs) (b : Nat) : Bool := o.bankFault.getLsbD b || o.testing.getLsbD b

/-- VALID of a live counter. -/
def Obs.valid (o : Obs) (n : Nat) : Bool := !(o.invalid.contains n || o.bankBad (n / 256))

/-- The counters that read INVALID. -/
def Obs.invalids (o : Obs) : List Nat :=
  (o.invalid.filter fun n => !o.bankBad (n / 256)) ++
    ((List.range 16).filter o.bankBad).flatMap fun b => (List.range 256).map (· + 256 * b)

/-- One bank cleared: its counters 0, its marks gone, unless it is held at BANK_FAULT (R550, R551). -/
def Obs.clearBank (b : Nat) (o : Obs) : Obs :=
  if o.bankFault.getLsbD b then o else
    { o with counters := o.counters.filter fun p => p.1 / 256 ≠ b, invalid := o.invalid.filter fun n => n / 256 ≠ b }

/-- A per-Stall set cleared (R550). -/
def Obs.clearSet (t : Nat) (o : Obs) : Obs :=
  let mine (n : Nat) : Bool := decide ((n - 2304) / 16 = t ∧ 2304 ≤ n)
  if o.bankFault.getLsbD ((2304 + 16 * t) / 256) then o else
    { o with counters := o.counters.filter fun p => !mine p.1, invalid := o.invalid.filter fun n => !mine n }

/-! ### The freeze (R556 to R559, R563) -/

/-- A ring with an OPEN entry for a wait in progress: its duration runs up to the freeze (R563). -/
def Ring.open_ (s : State) (w : RingWait) (r : Ring) : Ring :=
  r.record { start := w.start, kind := w.kind, open_ := true, unanchored := s.unanchored
             duration := s.clk.elapsed - w.startElapsed, waiter := w.waiter, object := w.object }

/-- Ring `k` frozen; one that is frozen already stays as it was. -/
def State.frozenRing (s : State) (k : Nat) : Ring :=
  let r := (assocGet k s.obs.rings).getD Ring.fresh
  if r.frozen then r else
    let ws := s.obs.waits.filter fun w => w.ring = k ∧ s.obs.ringMin.toNat * 100 ≤ s.clk.elapsed - w.startElapsed
    { ws.foldl (fun r w => r.open_ s w) { r with freezeHead := r.next } with frozen := true }

/-- The Beacon's freeze edge: counters and marks copied, rings frozen, EV_BEACON (R556, R559, R565). -/
def State.freeze (src : Nat) (late : Bool) (s : State) : State :=
  let o := s.obs
  let stale := o.rings.any fun p => p.2.frozen
  let snap := s.gauges.foldl (fun l n => if s.gauge n = 0 then l else assocSet n (s.gauge n) l) o.counters
  let t : State := { s with obs := { o with
    snapCounters := snap, snapInvalid := o.invalids, held := true, late, ringStale := stale, beaconUnanchored := s.unanchored
    src, freezeTime := s.clk.domain, freezeDue := none, rings := (List.range 84).map fun k => (k, s.frozenRing k) } }
  t.event evBeacon unitObs none s.clk.domain (src + 4 * bit late + 8 * bit stale)

/-- The snapshot and the rings are free again (R559, R563). -/
def State.releaseBeacon (s : State) : State :=
  { s with obs := { s.obs with
    held := false, ringStale := false
    rings := s.obs.rings.map fun (p : Nat × Ring) => (p.1, { p.2 with frozen := false }) } }

/-- NOW (R557, R559): a freeze is on its way, or the write is ignored and counted. -/
def State.beaconNow (s : State) : State :=
  if s.obs.held then { s with obs := { s.obs with missed := satAdd 255 s.obs.missed 1 } }
  else { s with obs := { s.obs with freezeDue := some 0 } }

/-- The armed BEACON_SET ends with its freeze time, or with ST_POLICY where a snapshot is held by then (R558, R559).
[DEDUCED: notes/assumptions/10.md] -/
def State.fireArmed (src : Nat) (s : State) : State :=
  let cs := s.obs.armCall
  let late := s.obs.armLate || (decide (src = 1) && decide (s.obs.armTime + 11 ≤ s.clk.domain))
  let t : State := { s with obs := { s.obs with armed := false, armTime := 0, armCall := [], armLate := false } }
  if s.obs.held then cs.foldl (fun t c => t.finish c stPolicy) t
  else cs.foldl (fun t c => t.finishOk c (leBytes 8 s.clk.domain)) (t.freeze src late)

/-- BEACON_FREEZE (R556, R557): the edge at which a freeze that has been triggered takes effect, or at which the armed time has come. No edge
comes while pclk is stopped (R558). -/
def execBeaconFreeze (s : State) : Host.Outcome State Fault Refusal :=
  let t := s.begin
  done (if t.mon.stop.isSome then t
    else match t.obs.freezeDue with
      | some src => t.freeze src false
      | none => if t.obs.armed ∧ t.obs.armTime ≠ 0 ∧ t.obs.armTime ≤ t.clk.domain then t.fireArmed 1 else t)

/-- BEACON_SET (R557, R558): arms a freeze at a domain time, or with 0 at the next accepted tick boundary. -/
def execBeaconSet (c : Call) (at_ : Nat) (s : State) : Host.Outcome State Fault Refusal :=
  if s.obs.armCall.contains c then done s.begin
  else done (s.command c 0x0C02 fun t =>
    if t.obs.held ∨ t.obs.armed then t.finish c stPolicy
    else { t with obs := { t.obs with
      armed := true, armTime := at_, armCall := [c], armLate := decide (at_ ≠ 0 ∧ at_ < t.clk.domain) } })

/-! ### Layouts (R562 to R564) -/

/-- A ring entry as 16 bytes (R562). -/
def RingEntry.bytes (e : RingEntry) : Bytes :=
  leBytes 6 e.start ++ leBytes 1 e.kind ++ leBytes 1 (bit e.open_ + 2 * bit e.unanchored + 4 * bit (decide (2 ^ 32 ≤ e.duration))) ++
    leBytes 4 (min (2 ^ 32 - 1) e.duration) ++ leBytes 4 (e.waiter.getD 0xFFF % 4096 + e.object % 2 ^ 20 * 4096)

/-- The bytes of entry `k` of a ring; an index not yet written reads 0. -/
def Ring.entryBytes (r : Ring) (k : Nat) : Bytes := ((assocGet k r.entries).map RingEntry.bytes).getD (zeros 16)

/-- A ring as it stands. -/
def State.ring (s : State) (k : Nat) : Ring := (assocGet k s.obs.rings).getD Ring.fresh

/-- The unit of a ring; none where the build lacks it (R561). -/
def State.ringUnit (s : State) (k : Nat) : Option Nat :=
  if k < 24 then if k < s.build.mseCount then some (unitMse k) else none
  else if k < 72 then if k - 24 < s.build.lseCount then some (unitLse (k - 24)) else none
  else if k < 76 then if k - 72 < s.build.hseCount then some (unitHse (k - 72)) else none
  else if k = 76 then some unitBooth
  else if k = 77 then if s.build.tol then some unitTollgate else none
  else if k = 78 then some unitSweeper
  else if k = 79 then some unitHelm
  else if k = 80 then some unitStrongbox
  else if k = 81 then some unitLedger
  else if k = 82 then some unitStallMgr
  else if k = 83 then some unitMarks
  else none

/-- A ring as a hang dump holds it (R563): a frozen ring refers to the freeze time, another one to now. -/
def State.ringBytes (s : State) (k unit : Nat) : Bytes :=
  let r := s.ring k
  leBytes 4 0x52455358 ++ leBytes 2 1 ++ leBytes 1 k ++ leBytes 1 unit ++ leBytes 2 r.next ++ leBytes 2 r.count ++
    leBytes 2 r.freezeHead ++ leBytes 1 (bit r.frozen + 2 * bit s.obs.ringStale) ++ [0] ++ leBytes 8 r.overwritten ++
    leBytes 8 (if r.frozen then s.obs.freezeTime else s.clk.domain) ++ zeros 32 ++ (List.range 256).flatMap r.entryBytes

/-- A gap log entry as 24 bytes (R564). -/
def GapEntry.bytes (g : GapEntry) : Bytes :=
  leBytes 8 g.start ++ leBytes 8 g.stop ++ leBytes 1 g.cause ++ leBytes 1 (bit g.ongoing + 2 * bit g.unanchored + 4 * bit g.alarm) ++ zeros 6

/-- A stop takes a gap log entry; a full log gives up its oldest ended entry (R564). An ongoing entry is never replaced. -/
def State.gapOpen (g : GapEntry) (s : State) : State :=
  if s.obs.gaps.length < 64 then { s with obs := { s.obs with gaps := s.obs.gaps ++ [g] } }
  else
    let n := s.obs.gapReplaced + 1
    let first := !s.obs.gapOverflow
    let t : State := { s with obs := { s.obs with
      gaps := s.obs.gaps.eraseP (fun e => !e.ongoing) ++ [g], gapOverflow := true, gapReplaced := n } }
    if first then t.event evGaplogFull unitObs none n 0 else t

/-- The ongoing entry receives its end, and the total grows (R564). -/
def State.gapClose (s : State) : State :=
  match s.obs.gaps.find? (·.ongoing) with
  | none => s
  | some e =>
    let close (g : GapEntry) : GapEntry := if g.ongoing then { g with stop := s.clk.domain, ongoing := false } else g
    { s with obs := { s.obs with gaps := s.obs.gaps.map close, gapTotal := s.obs.gapTotal + (s.clk.domain - e.start) } }

/-! ### Counter banks (R534, R551) -/

/-- COUNTER_BANK_SOUNDING_DONE (R534): an ECC mismatch of counter `counter` marked it INVALID, and the march test of its bank ends. A bank
held at BANK_FAULT is tested no more. [DEDUCED: notes/assumptions/56.md] -/
def execCounterBankSoundingDone (counter : Nat) (fault : Bool) (s : State) : Host.Outcome State Fault Refusal :=
  let t := s.begin
  let b := counter % 4096 / 256
  done (if t.obs.bankFault.getLsbD b then t
    else
      let u : State := { t with obs := { t.obs with
        invalid := (t.obs.invalid.filter fun n => n / 256 < b) ++ (List.range 256).map (· + 256 * b) ++
          t.obs.invalid.filter fun n => b < n / 256
        bankFault := if fault then setBit t.obs.bankFault b else t.obs.bankFault
        testing := t.obs.testing &&& ~~~BitVec.ofNat 16 (2 ^ b) } }
      let u := u.sounding unitObs 3 (if fault then 1 else 2)
      if fault then u.event evCtrBankFault unitObs none b 0 else u)

/-! ### The Doldrums detector (R536, R537) -/

/-- A LOCAL Mark with an unacknowledged destination. -/
def Mark.unacked (m : Mark) : Bool := !m.mirror && m.poison.isNone && m.dests.any fun d => decide (d.acked < m.value)

/-- The WAIT condition of a command is unmet (R478): its Mark's COMPLETE has not reached WAIT_VALUE. -/
def State.waitUnmet (s : State) (c : Call) : Bool :=
  decide (c.waitMark ≠ 0xFFFF) && !((s.mark? c.waitMark).any fun (m : Mark) => decide (c.waitValue ≤ m.complete))

/-- The FENCE of a command is unmet (R473, R478): an earlier command of its stream has not completed. -/
def State.fenceUnmet (s : State) (q : Queued) : Bool :=
  q.call.fence && (s.hlm.running ++ s.hlm.buffer ++ s.hlm.tickQ).any fun (e : Queued) =>
    decide (e.call.qid = q.call.qid ∧ ¬ e.call.window ∧ e.order < q.order)

/-- The waits of R536. -/
def State.waitCount (s : State) : Nat :=
  (s.hlm.buffer.filter fun q => s.waitUnmet q.call || s.fenceUnmet q).length +
    (s.hlm.tickQ.filter fun q => s.waitUnmet q.call).length + s.mrk.waits.length +
    (s.mrk.res.filter fun p => p.2.unacked).length + s.bth.queue.length + s.tol.queue.length +
    (s.stl.fills.filter fun f => f.slot.isNone).length

/-- DOLDRUMS_DECLARE (R536, R537). The timer runs only while pclk runs, Helm is not in C and the block is not quiet.
[DEDUCED: notes/assumptions/25.md] -/
def execDoldrumsDeclare (s : State) : Host.Outcome State Fault Refusal :=
  let t := s.begin
  done (if t.alr.quiet ∨ t.alr.doldrums ∨ t.mon.stop.isSome ∨ t.rst.coreReset.isSome ∨ t.rst.phase ≠ .service ∨ t.waitCount = 0 ∨
      ¬ t.expired t.alr.progressAt (t.cfg.engine.tDoldrums * 1000000) then t
    else
      let u := t.event evDoldrums unitAlarm none t.waitCount t.alr.progressTime
      { u with
        alr := { u.alr with
          doldrums := true, dumpOpen := true, doldrumsAt := u.clk.elapsed, doldrumsTime := u.clk.domain, progressed := false
          episodes := satAdd 65535 u.alr.episodes 1 }
        obs := { u.obs.bump (ctrRcu 7) 1 with freezeDue := some 3 } })

/-- DOLDRUMS_END (R537): the first progress after the declaration. -/
def execDoldrumsEnd (s : State) : Host.Outcome State Fault Refusal :=
  let t := s.begin
  done (if t.alr.doldrums ∧ t.alr.progressed then
      ({ t with alr := { t.alr with doldrums := false } }).event evDoldrumsEnd unitAlarm none
        ((t.alr.progressAt - t.alr.doldrumsAt) / 1000) 0
    else t)

end Sys2Proof.Machine
end

