-- ==== Sys2Proof/Machine/Clocks.lean ====
section
/-!
DEFINITION. Clock monitors, the frequency change and the crossings (spec/04_clocks_time.md R94 to R113, spec/18_faults_alarms_recovery.md
R535), the tamper pairs and the tray inputs (spec/03_ports.md R83 to R86), and the samples of the rail and temperature sensors
(spec/20_steelyard.md R572 to R574).
-/

namespace Sys2Proof.Machine

/-! ### Crossings (R535) -/

/-- A crossing Sounding begins; an error in a crossing that is being sounded joins it (R532). [DEDUCED: notes/assumptions/26.md] -/
def State.startCrossing (k : Nat) (s : State) : State :=
  if s.alr.crossings.contains k then s else { s with alr := { s.alr with crossings := s.alr.crossings ++ [k] } }

/-- CROSSING_SOUNDING_DONE (R535): crossings 0 to 2 alarm as clock integrity, 3 and 4 as integrity; a transient is counted only.
[DEDUCED: notes/assumptions/26.md] -/
def execCrossingSoundingDone (crossing : Nat) (fault : Bool) (s : State) : Host.Outcome State Fault Refusal :=
  let t := s.begin
  done (if ¬ t.alr.crossings.contains crossing then t
    else
      let u : State := { t with alr := { t.alr with crossings := t.alr.crossings.erase crossing } }
      let u := u.sounding unitRcu 4 (if fault then 1 else 2)
      if ¬ fault then u
      else if crossing ≤ 2 then u.alarmClock unitRcu 6 crossing
      else u.alarmIntegrity unitRcu none none 7 crossing)

/-! ### Runts (R110, R111, R124) -/

/-- The elapsed time from the first to the last of three runts that fall within 1 ms. -/
def runtSpan (now : Nat) (runts : List Nat) : Option Nat :=
  match runts with
  | _ :: first :: _ => if now ≤ first + 1000000 then some (now - first) else none
  | _ => none

/-- A runt joins the history of three (R111); the counts saturate as their fields do. -/
def State.countRunt (s : State) : State :=
  { s with
    mon := { s.mon with runts := (s.clk.elapsed :: s.mon.runts).take 3, runtTotal := satAdd (2 ^ 32 - 1) s.mon.runtTotal 1 }
    rst := if s.rst.phase = Phase.inReset then { s.rst with cause := setBit s.rst.cause causeRuntInReset } else s.rst }.bump (ctrRcu 0) 1

/-- RUNT_DETECTED (R110, R111): Safe Stop at every runt; the third within 1 ms is tamper, whose entry comes first (R523).
[DEDUCED: notes/assumptions/24.md] -/
def execRuntDetected (s : State) : Host.Outcome State Fault Refusal :=
  let t := s.begin
  let u := t.countRunt
  let u := match runtSpan t.clk.elapsed t.mon.runts with
    | some ns => u.alarmTamper unitRcu 2 ns
    | none => u
  done (u.alarmClock unitRcu 1 u.mon.runtTotal)

/-! ### Stops of pclk (R112, R113) -/

/-- A stop's cause in the gap log: 0 a stretch, 1 a frequency change, 2 unannounced (R564). [DEDUCED: notes/assumptions/25.md] -/
def State.stopCause (s : State) (stretch : Bool) : Nat := if stretch then 0 else if s.mon.freqChg then 1 else 2

/-- PCLK_STOP_DECLARED (R112): four rclk cycles without a change; the stop began 40 ns ago. In P and S the gap log is held cleared. -/
def execPclkStopDeclared (stretch : Bool) (s : State) : Host.Outcome State Fault Refusal :=
  let t := s.begin
  done (if t.mon.stop.isSome then t
    else
      let t : State := { t with
        pins := { t.pins with clkcStretch := stretch }
        mon := { t.mon with stop := some (t.clk.elapsed - 40), stopAlarm := false } }
      if t.rst.phase = Phase.inReset then t
      else t.gapOpen { start := t.clk.domain - 40, stop := 0, cause := t.stopCause stretch, ongoing := true
                       unanchored := t.unanchored, alarm := false })

/-- PCLK_STOP_END (R112): the first change after the stop. The Doldrums timer did not run meanwhile (R536).
[DEDUCED: notes/assumptions/25.md] -/
def execPclkStopEnd (s : State) : Host.Outcome State Fault Refusal :=
  let t := s.begin
  done (match t.mon.stop with
    | none => t
    | some since =>
      { t.gapClose with
        mon := { t.mon with stop := none, stopAlarm := false }
        alr := { t.alr with progressAt := t.alr.progressAt + (t.clk.elapsed - since) } })

/-- PCLK_STOP_TIMEOUT (R113): once per stop, whether or not clkc_stretch is 1. -/
def execPclkStopTimeout (s : State) : Host.Outcome State Fault Refusal :=
  let t := s.begin
  done (match t.mon.stop with
    | none => t
    | some since =>
      if t.mon.stopAlarm ∨ ¬ t.pins.clkcGood ∨ t.mon.freqChg ∨ t.rst.phase = Phase.inReset ∨ ¬ t.expired since (t.cfg.clk.tStop * 1000) then t
      else
        let mark (g : GapEntry) : GapEntry := if g.ongoing then { g with alarm := true } else g
        let u : State := { t with mon := { t.mon with stopAlarm := true }, obs := { t.obs with gaps := t.obs.gaps.map mark } }
        u.alarmClock unitRcu 5 (min (2 ^ 32 - 1) ((t.clk.elapsed - since) / 1000)))

/-! ### The frequency window (R109) -/

/-- A change of frequency was in progress at some time of the last 1 µs. -/
def State.freqChgWindow (s : State) : Bool :=
  s.mon.freqChg || s.mon.freqLog.any fun (p : Nat × Nat) => decide (s.clk.domain < p.2 + 1000)

/-- PCLK_FREQ_WINDOW (R109): `mhz`, what the window measured; `stretch`, clkc_stretch was 1 during it. -/
def execPclkFreqWindow (mhz : Nat) (stretch : Bool) (s : State) : Host.Outcome State Fault Refusal :=
  let t := s.begin
  let f := min 255 (mhz / 10)
  let t : State := { t with clk := { t.clk with pclkFreq := f } }
  done (if t.rst.phase = Phase.inReset then t
    else if 2121 < mhz then t.alarmClock unitRcu 4 f
    else if mhz < 990 ∧ ¬ stretch ∧ ¬ t.freqChgWindow then t.event evPclkSlow unitRcu none f 0
    else t)

/-! ### Frequency changes (R108) -/

/-- FREQ_CHANGE_REQUEST (R108): a change of level of clkc_freq_req, ignored in P and S (R122) and counted while a change is unfinished. -/
def execFreqChangeRequest (s : State) : Host.Outcome State Fault Refusal :=
  let t := s.begin
  let t : State := { t with pins := { t.pins with freqReq := !t.pins.freqReq } }
  done (if t.rst.phase = Phase.inReset then t
    else if t.mon.freqChg then { t with mon := { t.mon with freqIgnored := t.mon.freqIgnored + 1 } }
    else { t with
      mon := { t.mon with
        freqChg := true, freqSince := t.clk.elapsed, freqStart := t.clk.domain, freqAck := !t.mon.freqAck, freqAlarm := false
        ackDeadline := some (t.clk.elapsed + 1000) } }.bump (ctrRcu 1) 1)

/-- FREQ_CHANGE_DONE (R108 step 4): clkc_good rises; an acknowledged change ends and its interval is logged. -/
def execFreqChangeDone (s : State) : Host.Outcome State Fault Refusal :=
  let t := s.begin
  done (if t.pins.clkcGood then t
    else
      let t : State := { t with pins := { t.pins with clkcGood := true } }
      if t.mon.freqChg then { t with mon := { t.mon with freqChg := false, freqLog := [(t.mon.freqStart, t.clk.domain)] } } else t)

/-- FREQ_CHANGE_TIMEOUT (R108): clkc_good still 0 at T_FREQ after the acknowledgement, once. -/
def execFreqChangeTimeout (s : State) : Host.Outcome State Fault Refusal :=
  let t := s.begin
  done (if t.pins.clkcGood ∨ ¬ t.mon.freqChg ∨ t.mon.freqAlarm ∨ t.rst.phase = Phase.inReset ∨
      ¬ t.expired t.mon.freqSince (t.cfg.clk.tFreq * 1000) then t
    else ({ t with mon := { t.mon with freqAlarm := true } }).alarmClock unitRcu 2 0)

/-- CLOCK_GOOD_LOST (R108): clkc_good falls; outside an acknowledged change and outside reset that alarms. -/
def execClockGoodLost (s : State) : Host.Outcome State Fault Refusal :=
  let t := s.begin
  done (if ¬ t.pins.clkcGood then t
    else
      let t : State := { t with pins := { t.pins with clkcGood := false } }
      if t.rst.phase = Phase.inReset ∨ t.mon.freqChg then t else t.alarmClock unitRcu 3 0)

/-- FREQ_ACK_RETURN_TIMEOUT (R535): 1 µs after clkc_freq_ack changed, clkc_freq_ack_ret reads `ret`. -/
def execFreqAckReturnTimeout (ret : Bool) (s : State) : Host.Outcome State Fault Refusal :=
  let t := s.begin
  let t : State := { t with pins := { t.pins with freqAckRet := ret } }
  done (match t.mon.ackDeadline with
    | none => t
    | some d =>
      if t.clk.elapsed < d then t
      else
        let u : State := { t with mon := { t.mon with ackDeadline := none } }
        if ret = u.mon.freqAck then u else u.startCrossing 1)

/-! ### Tamper pairs and coolant (R85, R86) -/

/-- A tamper pair in the alarm condition of R85. -/
def Pins.pairBad (p : Pins) (i : Nat) : Bool := p.tamper.getLsbD i == p.tamperB.getLsbD i || p.tamper.getLsbD i

/-- The cause word of a pair: its number, and whether it is asserted rather than equal (R522). -/
def Pins.pairWord (p : Pins) (i : Nat) : Nat := i + 8 * bit (p.tamper.getLsbD i && !p.tamperB.getLsbD i)

/-- The levels of the tamper inputs, each seen on two successive rclk edges: an enabled pair that enters the alarm condition is a
tamper-class alarm (R85). [DEDUCED: notes/assumptions/24.md] -/
def State.sampleTamper (tamper tamperB : Nat) (s : State) : State :=
  let p : Pins := { s.pins with tamper := BitVec.ofNat 8 tamper, tamperB := BitVec.ofNat 8 tamperB }
  let bad := (List.range 8).filter fun i => s.cfg.tamperEnable.getLsbD i && p.pairBad i && !s.pins.pairBad i
  bad.foldl (fun (t : State) i =>
    ({ t with alr := { t.alr with seen := setBit t.alr.seen i } }).alarmTamper unitAlarm 1 (p.pairWord i)) { s with pins := p }

/-- TAMPER_PAIR_TRIP (R85). [DEDUCED: notes/assumptions/24.md] -/
def execTamperPairTrip (tamper tamperB : Nat) (s : State) : Host.Outcome State Fault Refusal := done (s.begin.sampleTamper tamper tamperB)

/-- tray_coolant_ok seen at a level on two successive rclk edges: a fall starts the Safe Stop (R86, R531). -/
def State.sampleCoolant (ok : Bool) (s : State) : State :=
  let t : State := { s with pins := { s.pins with coolantOk := ok } }
  if s.pins.coolantOk ∧ ¬ ok then t.alarmSafestop unitAlarm 1 0 else t

/-- COOLANT_LOSS (R86, R531), in every state and at every reset level. [DEDUCED: notes/assumptions/24.md] -/
def execCoolantLoss (s : State) : Host.Outcome State Fault Refusal := done (s.begin.sampleCoolant false)

/-- SAFE_STOP_DRAIN_DONE (R530): the last work in flight has ended. -/
def execSafeStopDrainDone (s : State) : Host.Outcome State Fault Refusal :=
  let t := s.begin
  done (if t.alr.safeStop ∧ t.alr.quiet ∧ t.mse.all (fun (m : Mse) => m.ops.isEmpty) then { t with alr := { t.alr with ssIdle := true } } else t)

/-! ### Sensor samples (R95, R96, R535, R572) -/

/-- RAIL_SAMPLE_CAPTURE (R572, R535): even parity over value, channel and parity bit; a sample found bad is discarded. -/
def execRailSampleCapture (val ch par : Nat) (s : State) : Host.Outcome State Fault Refusal :=
  let t := s.begin
  let t : State := { t with pins := { t.pins with railFlag := !t.pins.railFlag } }
  let v := val % 2 ^ 32
  let c := ch % 16
  done (if (popcount 32 v + popcount 4 c + par) % 2 = 0 then t.stySample c v else (t.styDiscard c).startCrossing 3)

/-- TEMP_SAMPLE_CAPTURE (R95, R535). -/
def execTempSampleCapture (val par : Nat) (s : State) : Host.Outcome State Fault Refusal :=
  let t := s.begin
  let t : State := { t with pins := { t.pins with tempFlag := !t.pins.tempFlag } }
  let v := val % 4096
  done (if (popcount 12 v + par) % 2 = 0 then { t with mon := { t.mon with temp := BitVec.ofNat 12 v } } else t.startCrossing 4)

/-- RAIL_CHANNEL_GAP (R574): the channel holds its power, and the tick is suspect. -/
def execRailChannelGap (ch : Nat) (s : State) : Host.Outcome State Fault Refusal :=
  let t := s.begin
  done (if t.build.sty ∧ t.styGap ch then
      (t.styAccount ch (t.sty.chans.getD ch StyChan.fresh).power).stySuspect 1 (2 ^ ch)
    else t)

end Sys2Proof.Machine
end

