-- ==== Sys2Proof/Machine/Commands.lean ====
section
/-!
DEFINITION. The command path (spec/16_command_interface.md R472 to R494): packets on cmd_ and in the direct window, the checks of R475, the
start of immediate commands, completion writes, the event ring, and NOP and HINT.
-/

namespace Sys2Proof.Machine

/-! ### Packets (R473 to R475) -/

/-- The header of a packet, for a function, a stream and the Stall it resolved to. -/
def callOf (b : Bytes) (fn qid stall : Nat) (window : Bool) : Call :=
  let flags := leField b 2 1
  { fn, qid, stall, opcode := leField b 0 2, tag := leField b 4 4, comp := leField b 8 8, tick := flags.testBit 0, fence := flags.testBit 1
    irq := flags.testBit 2, sigMark := leField b 0x10 2, sigValue := leField b 0x18 8, waitMark := leField b 0x12 2
    waitValue := leField b 0x20 8, window, deferred := false, ticked := false }

/-- Arguments of a packet: its bytes from 0x30 on. -/
def packetArgs (b : Bytes) : Bytes := b.drop 0x30

/-- The packet offset of the first header field that breaks its rule (R473); in the window also those of R484. -/
def headerBad (b : Bytes) (window : Bool) : Option Nat :=
  let flags := leField b 2 1
  let comp := leField b 8 8
  if 8 ≤ flags ∨ (window ∧ flags ≠ 0) then some 2
  else if comp % 32 ≠ 0 ∨ 2 ^ 56 ≤ comp ∨ (window ∧ comp ≠ 0) then some 8
  else if window ∧ leField b 0x10 2 ≠ 0xFFFF then some 0x10
  else if window ∧ leField b 0x12 2 ≠ 0xFFFF then some 0x12
  else if leField b 0x14 4 ≠ 0 then some 0x14
  else if leField b 0x10 2 = 0xFFFF ∧ leField b 0x18 8 ≠ 0 then some 0x18
  else if leField b 0x12 2 = 0xFFFF ∧ leField b 0x20 8 ≠ 0 then some 0x20
  else if leField b 0x28 8 ≠ 0 then some 0x28
  else none

/-- The packet offset of the first argument that is not wholly carried (R473). DATA of ALMANAC_UPDATE is needed as far as LEN asks. -/
def argMissing (info : CmdInfo) (b : Bytes) : Option Nat :=
  let a := packetArgs b
  match info.args.find? fun p => decide (b.length < 0x30 + p.1 + p.2) with
  | some p => some (0x30 + p.1)
  | none =>
    if info.opcode = 0x0A01 ∧ arg a 1 1 = 1 ∧ arg a 8 4 ≤ 128 ∧ a.length < 24 + arg a 8 4 then some 0x48 else none

/-- The ST_PARAM row of R475: DETAIL. -/
def packetParam (info : CmdInfo) (b : Bytes) (window : Bool) : Option Nat :=
  (headerBad b window).orElse fun _ => (argMissing info b).orElse fun _ => (argRange info.opcode (packetArgs b)).map (0x30 + ·)

/-- The issuing Stall and the path are permitted (R475, R484, R485). -/
def issuerOk (info : CmdInfo) (a : Bytes) (c : Call) : Bool :=
  (if c.window then decide (info.cls = .iw ∨ info.cls = .w) else decide (info.cls ≠ .w)) &&
    match info.issuer with
    | .zero => decide (c.stall = 0)
    | .any => true
    | .selfOrZero => decide (c.stall = 0) || ((namedStall info.opcode a).map fun i => decide (i = c.stall)).getD true

/-- A Mark a header names is bound to the issuing Stall, or none is named. -/
def State.markNamed (s : State) (c : Call) (k : Nat) : Bool := decide (k = 0xFFFF ∨ s.markOwner k = some c.stall)

/-- The checks of R475 up to the row of lost Stalls: STATUS and DETAIL of the first that fails. [DEDUCED: notes/assumptions/9.md] -/
def State.packetStatus (s : State) (b : Bytes) (c : Call) : Option (Nat × Nat) :=
  match cmdInfo? c.opcode with
  | none => some (stOpcode, 0)
  | some info =>
    if ¬ s.build.has info.needs then some (stAbsent, 0)
    else if ¬ issuerOk info (packetArgs b) c then some (stIssuer, 0)
    else match packetParam info b c.window with
      | some d => some (stParam, d)
      | none =>
        if ¬ s.markNamed c c.sigMark then some (stParam, 0x10)
        else if ¬ s.markNamed c c.waitMark then some (stParam, 0x12)
        else if s.stallState c.stall = .lost ∨ s.stallState c.stall = .removing then some (stStallLost, 0)
        else none

/-! ### The command buffer and the tick queue (R476, R477) -/

/-- A command is tick-aligned (R477). -/
def Call.aligned (c : Call) : Bool :=
  (cmdInfo? c.opcode).any fun (i : CmdInfo) => decide (i.cls = .t) || (c.tick && decide (i.cls = .i ∨ i.cls = .iw))

/-- Tick-aligned packets move from the buffer to the tick queue while it has room. -/
def moveTick : List Queued → List Queued → List Queued × List Queued
  | [], tq => ([], tq)
  | q :: rest, tq =>
    if q.call.aligned ∧ tq.length < 1024 then moveTick rest (tq ++ [q])
    else let r := moveTick rest tq; (q :: r.1, r.2)

/-- Helm decodes what stands in the buffer. -/
def State.decodeBuffer (s : State) : State :=
  let r := moveTick s.hlm.buffer s.hlm.tickQ
  { s with hlm := { s.hlm with buffer := r.1, tickQ := r.2 } }

/-- cmd_ready (R75, R91, R476): 0 in reset and load, in C, while the buffer is full, and while a tick-aligned packet at its head finds the
tick queue full. -/
def State.cmdReady (s : State) : Bool :=
  decide (s.rst.phase = .service) && !s.rst.rstBusy && s.rst.coreReset.isNone && decide (s.hlm.buffer.length < 256) &&
    !((s.hlm.buffer.head?.any fun (q : Queued) => q.call.aligned) && decide (1024 ≤ s.hlm.tickQ.length))

/-- A stream whose partition has announced a reset and has not left it (R135). -/
def State.streamAbsorbed (s : State) (qid : Nat) : Bool :=
  s.rst.parts.any fun (p : PartRun) => s.cfg.parts.any fun (c : PartCfg) => decide (c.index = p.index) && c.qids.testBit qid

/-- A packet rejected without a record (R474). [DEDUCED: notes/assumptions/9.md] -/
def State.rejectPacket (b : Bytes) (fn qid st : Nat) (s : State) : State :=
  ({ s with hlm := { s.hlm with rejected := satAdd 65535 s.hlm.rejected 1 } }.bump 6 1).event evCmdRejected unitHelm none
    (leField b 0 2 + qid * 2 ^ 16 + fn * 2 ^ 24) st

/-! ### NOP and HINT (R478, R483) -/

/-- NOP: a completion and nothing else. -/
def execNop (c : Call) (s : State) : Host.Outcome State Fault Refusal := done (s.command c 0x0100 fun t => t.finish c stOk)

/-- What a HINT announces takes effect (R293, R483): TARGETS bit 0 starts or extends a Sweeper yield, bit 1 sets the Booth's class. -/
def State.hint (durationUs targets : Nat) (s : State) : State :=
  let till := s.clk.elapsed + durationUs * 1000
  let t : State :=
    if ¬ targets.testBit 0 then s
    else match s.swp.yield with
      | some (first, old) => { s with swp := { s.swp with yield := some (first, max old till) } }
      | none => if s.swp.yieldBlocked ≠ 0 then s else { s with swp := { s.swp with yield := some (s.clk.elapsed, till) } }
  if targets.testBit 1 then { t with hlm := { t.hlm with boothClassUntil := some (max (t.hlm.boothClassUntil.getD 0) till) } } else t

/-- HINT (R483). -/
def execHint (c : Call) (durationUs targets : Nat) (s : State) : Host.Outcome State Fault Refusal :=
  done (s.command c 0x0101 fun t => (t.hint durationUs targets).finish c stOk)

/-- HINT_BOOTH_CLASS_END (R483). -/
def execHintBoothClassEnd (s : State) : Host.Outcome State Fault Refusal :=
  let t := s.begin
  done (if t.hlm.boothClassUntil.any fun (e : Nat) => decide (e ≤ t.clk.elapsed) then { t with hlm := { t.hlm with boothClassUntil := none } } else t)

/-! ### COMMAND_PACKET and COMMAND_START (R474 to R479) -/

/-- A packet placed for execution: a HINT acts at its acceptance, any other command waits in the buffer or the tick queue.
[DEDUCED: notes/assumptions/9.md] -/
def State.placePacket (b : Bytes) (c : Call) (s : State) : State :=
  match s.packetStatus b c with
  | some (st, d) => s.finishDetail c st d
  | none =>
    if c.opcode = 0x0101 then
      match (cmdInfo? 0x0101).map (s.gate c) with
      | some (.status st) => s.finish c st
      | _ => (s.hint (arg (packetArgs b) 0 4) (arg (packetArgs b) 4 1)).finish c stOk
    else
      let q : Queued := { call := c, args := packetArgs b, order := s.hlm.accepted, waited := 0 }
      ({ s with hlm := { s.hlm with buffer := s.hlm.buffer ++ [q], accepted := s.hlm.accepted + 1 } }).decodeBuffer

/-- COMMAND_PACKET (R74, R75, R473 to R479): `bytes` is what was framed from sop to eop; `framed` is false for an eop without a sop and for
beats of two packets mixed. In the quiet state the packet is accepted and discarded. -/
def execCommandPacket (fn qid : Nat) (framed : Bool) (bytes : Bytes) (s : State) : Host.Outcome State Fault Refusal :=
  let t := s.begin
  done (if ¬ t.cmdReady ∨ t.alr.quiet then t
    else if t.streamAbsorbed qid then { t with rst := { t.rst with partDropped := t.rst.partDropped + 1 } }
    else
      let u := (t.bump 4 1).bump (ctrHlm 0) 1
      let n := leField bytes 3 1
      if ¬ framed ∨ n = 0 ∨ 8 < n ∨ bytes.length ≠ 32 * n then u.rejectPacket bytes fn qid stMalformed
      else match u.fnStall? fn with
        | none => u.rejectPacket bytes fn qid stFnUnmapped
        | some stall => u.placePacket bytes (callOf bytes fn qid stall false))

/-- A command may start next in its stream: no earlier immediate command of the stream waits (R478). -/
def State.atHead (s : State) (q : Queued) : Bool :=
  !q.call.aligned && !(s.hlm.buffer.any fun (e : Queued) => decide (e.call.qid = q.call.qid ∧ e.order < q.order) && !e.call.aligned)

/-- Its WAIT_MARK is poisoned, or was destroyed (R379, R478). -/
def State.waitBroken (s : State) (c : Call) : Bool :=
  decide (c.waitMark ≠ 0xFFFF) && (decide (s.markOwner c.waitMark ≠ some c.stall) || (s.mark? c.waitMark).any fun (m : Mark) => m.poison.isSome)

/-- A wait of that kind is already recorded as in progress. [DEDUCED: notes/assumptions/10.md] -/
def State.waitOpen (s : State) (kind : Nat) (waiter : Option Nat) (object : Nat) : Bool :=
  s.obs.waits.any fun (w : RingWait) => decide (w.ring = 79 ∧ w.kind = kind ∧ w.waiter = waiter ∧ w.object = object)

/-- A wait of Helm's ring begins, once. -/
def State.helmWait (kind : Nat) (waiter : Option Nat) (object : Nat) (s : State) : State :=
  if s.waitOpen kind waiter object then s else s.waitBegin 79 kind waiter object

/-- A command at the head of its stream waits: a spilled WAIT_MARK is asked for, and the wait is recorded (R385, R562). -/
def State.noteWait (s : State) (q : Queued) : State :=
  let t := if s.waitUnmet q.call then (s.wantMark q.call.waitMark).helmWait 1 (some q.call.stall) q.call.waitMark else s
  if t.fenceUnmet q then t.helmWait 2 (some q.call.stall) q.call.qid else t

/-- A command starts: its waits end. -/
def State.startCommand (q : Queued) (s : State) : State :=
  let t := (s.waitEnd 79 1 (some q.call.stall) q.call.waitMark).waitEnd 79 2 (some q.call.stall) q.call.qid
  { t with hlm := { t.hlm with buffer := t.hlm.buffer.erase q, running := t.hlm.running ++ [q] } }

/-- COMMAND_START (R478): the first command in acceptance order whose conditions hold starts. -/
def execCommandStart (s : State) : Host.Outcome State Fault Refusal :=
  let t := s.begin
  done (if t.alr.quiet ∨ t.rst.phase ≠ .service ∨ t.rst.coreReset.isSome then t
    else
      let t := t.decodeBuffer
      let heads := t.hlm.buffer.filter t.atHead
      match heads.find? fun (q : Queued) => t.waitBroken q.call with
      | some q => ({ t with hlm := { t.hlm with buffer := t.hlm.buffer.erase q } }).finish q.call stMarkPoisoned
      | none =>
        match heads.find? fun (q : Queued) => !t.waitUnmet q.call && !t.fenceUnmet q with
        | some q => t.startCommand q
        | none => heads.foldl State.noteWait t)

/-! ### The direct window (R484) -/

/-- The bytes of the window's buffer. -/
def Hlm.windowBytes (h : Hlm) : Bytes := h.dwBuf.flatMap fun (w : Word) => leBytes 4 w.toNat

/-- GO: the packet in the buffer runs as Stall 0 ahead of the command buffer, or completes with the status of its first failed check. NBEAT
outside 1 to 8 fails its rule. [DEDUCED: notes/assumptions/9.md] -/
def State.windowGo (fn : Nat) (s : State) : State :=
  if s.alr.quiet ∨ s.rst.phase ≠ .service ∨ s.hlm.dwBusy ∨ s.rst.coreReset.isSome then s
  else
    let all := s.hlm.windowBytes
    let n := leField all 3 1
    let b := all.take (32 * n)
    let c := callOf (padTo 48 b) fn 0 0 true
    let t : State := { s.bump 4 1 with hlm := { s.hlm with dwBusy := true, accepted := s.hlm.accepted + 1 } }
    if (cmdInfo? c.opcode).isSome ∧ (n = 0 ∨ 8 < n) then t.finishDetail c stParam 3
    else match t.packetStatus (padTo 48 b) c with
      | some (st, d) => t.finishDetail c st d
      | none =>
        let q : Queued := { call := c, args := packetArgs b, order := s.hlm.accepted, waited := 0 }
        { t with hlm := { t.hlm with running := t.hlm.running ++ [q] } }

/-! ### Completion writes (R76, R482) -/

/-- What follows a record on cmd_cw: the Mark it signals, then reg_irq[0]. A signal at a spilled Mark waits for its fill. -/
def State.afterRecord (c : Call) (s : State) : State :=
  let t :=
    if c.sigMark = 0xFFFF then s
    else if (s.mark? c.sigMark).isSome then (s.signalMark c.sigMark false c.sigValue).1
    else if (s.markOwner c.sigMark).isSome then
      let u := s.wantMark c.sigMark
      { u with mrk := { u.mrk with sigs := u.mrk.sigs ++ [(c.sigMark, c.sigValue)] } }
    else s
  if c.irq then { t with hlm := { t.hlm with irqComp := true } } else t

/-- The overrun of cmd_cw ends: its wait is recorded and EV_CW_OVERRUN is raised. -/
def State.endOverrun (s : State) : State :=
  if ¬ s.hlm.cwEventDue then s else
    let t : State := { s with hlm := { s.hlm with cwEventDue := false } }
    let t := match t.obs.waits.find? fun (w : RingWait) => decide (w.ring = 79 ∧ w.kind = 16) with
      | some w => t.waitEnd 79 16 none w.object
      | none => t
    t.event evCwOverrun unitHelm none s.hlm.cwq.length 0

/-- Records leave on cmd_cw: Helm runs and the block is not quiet (R89, R129). -/
def State.cwOpen (s : State) : Bool := !s.alr.quiet && decide (s.rst.phase = .service) && s.rst.coreReset.isNone

/-- COMPLETION_WRITE (R482). -/
def execCompletionWrite (s : State) : Host.Outcome State Fault Refusal :=
  let t := s.begin
  done (match t.hlm.cwq with
    | [] => t
    | r :: rest =>
      if ¬ t.cwOpen then t
      else
        let u := t.endOverrun
        let u : State := { u with hlm := { u.hlm with cwq := rest } }
        let u := if r.call.comp = 0 then u else (u.emit (.cw r.call.comp r.call.stall r.bytes)).bump 11 1
        u.afterRecord r.call)

/-- CW_OVERRUN (R76, R482): cmd_cw_ready did not rise within 4,096 PCLK cycles. -/
def execCwOverrun (s : State) : Host.Outcome State Fault Refusal :=
  let t := s.begin
  done (if t.hlm.cwq.isEmpty ∨ ¬ t.cwOpen ∨ t.hlm.cwEventDue then t
    else
      let u : State := { t with hlm := { t.hlm with cwOverrun := true, cwEventDue := true, irqUrgent := true } }
      u.waitBegin 79 16 none u.hlm.cwq.length)

/-! ### The event ring (R488, R494, R525) -/

/-- Records the ring holds at most. -/
def Evq.size (e : Evq) : Nat := 2 ^ e.log2Size.toNat

/-- The ring takes another record. -/
def Evq.open_ (e : Evq) : Bool := e.on && decide ((e.head + 1) % e.size ≠ e.tail % e.size)

/-- A record written at HEAD (R488). -/
def State.putRecord (b : Bytes) (s : State) : State :=
  let e := s.hlm.evq
  let base := e.baseLo.toNat * 32 + e.baseHi.toNat * 2 ^ 32
  let t := ((s.emit (.cw (base + 32 * e.head) 0 b)).bump 8 1).bump 11 1
  { t with hlm := { t.hlm with evq := { e with head := (e.head + 1) % e.size } } }

/-- A record for the ring: written, or discarded and counted; the first one written after a loss is EV_EVQ_LOST (R488). -/
def State.ringPut (b : Bytes) (s : State) : State :=
  let lose (t : State) : State :=
    let e := t.hlm.evq
    { t with hlm := { t.hlm with evq := { e with lost := satAdd (2 ^ 32 - 1) e.lost 1, lostPending := e.lostPending + 1 } } }.bump 9 1
  let e := s.hlm.evq
  if ¬ e.open_ then lose s
  else if e.lostPending = 0 then s.putRecord b
  else
    let l : Event :=
      { code := evEvqLost, unit := unitHelm, stall := none, time := s.clk.domain, unanchored := s.unanchored, arg0 := e.lostPending, arg1 := 0 }
    let t := s.putRecord l.bytes
    let t : State := { t with hlm := { t.hlm with irqUrgent := true, evq := { t.hlm.evq with lostPending := 0 } } }
    if t.hlm.evq.open_ then t.putRecord b else lose t

/-- EVENT_RING_WRITE (R488): Helm drains the oldest event; while an overrun holds cmd_cw, events wait. -/
def execEventRingWrite (s : State) : Host.Outcome State Fault Refusal :=
  let t := s.begin
  done (match t.hlm.fifo with
    | [] => t
    | e :: rest => if ¬ t.cwOpen ∨ t.hlm.cwEventDue then t else ({ t with hlm := { t.hlm with fifo := rest } }).ringPut e.bytes)

/-- The oldest log entry not copied yet is marked copied. -/
def markCopied : List AlarmEntry → List AlarmEntry
  | [] => []
  | e :: l => if e.copied then e :: markCopied l else { e with copied := true } :: l

/-- ALARM_LOG_COPY (R525): one entry to the event ring and to the Journal, and reg_irq[2]. [DEDUCED: notes/assumptions/57.md] -/
def execAlarmLogCopy (s : State) : Host.Outcome State Fault Refusal :=
  let t := s.begin
  done (match t.alr.log.find? fun (e : AlarmEntry) => !e.copied with
    | none => t
    | some e =>
      if ¬ t.cwOpen ∨ t.hlm.cwEventDue ∨ t.ald.noAlmanac ∨ ¬ t.journalRoom then t
      else
        let u := (t.ringPut e.bytes).journal (.alarm e.bytes)
        { u with alr := { u.alr with log := markCopied u.alr.log }, hlm := { u.hlm with irqAlarm := true } })

end Sys2Proof.Machine
end

