-- ==== Sys2Proof/Machine/Ledger.lean ====
section
/-!
DEFINITION. The commands of the Ledger, its store and the Sweeper (spec/10_ledger_sweeper.md), and the tile's application of an epoch
advance (spec/08_sealed_sector_format.md R225).
-/

namespace Sys2Proof.Machine

/-! ### Epochs at the tiles (R225) -/

/-- EPOCH_APPLY: the MSE applies the epoch sent to it and acknowledges. -/
def execEpochApply (m : Nat) (s : State) : Host.Outcome State Fault Refusal :=
  onMse m s fun _ t =>
    if ¬ t.epo.unacked.contains m then t
    else { (t.modMse m fun e => { e with epoch := t.epo.epoch }) with
      epo := { t.epo with unacked := t.epo.unacked.filter (· ≠ m) } }

/-- The newest epoch every MSE has acknowledged (R291). -/
def State.ackedEpoch (s : State) : Nat := if s.epo.unacked.isEmpty then s.epo.epoch else sub24 s.epo.epoch 1

/-! ### The pool Ledger (R288, R289) -/

/-- A region quarantined after a double-bit error (R306): the owner as the store records it, marked LOST, and AL_INTEGRITY. -/
def State.dedRegion (r : RegionId) (s : State) : State :=
  let kept := (assocGet r.index (if r.pool then s.ldg.store.poolEntries else s.ldg.store.localEntries)).getD LdgEntry.freeEntry
  let t := s.changeEntry r { kept with state := .quarantined, sweep := false } (some .anchor)
  let t := { t with
    ldg := { t.ldg with dedCount := satAdd 65535 t.ldg.dedCount 1 }
    swp := { t.swp with queue := t.swp.queue.filter fun o => o.region ≠ r } }
  let t := if kept.owner = 0 then t else t.loseStall kept.owner 2
  ((t.bump (ctrLdg 2) 1).alarmIntegrity unitLedger (if kept.owner = 0 then none else some kept.owner) none 3
    (r.index % 2 ^ 20 + bit r.pool * 2 ^ 20))

/-- The pool regions of the Chart's windows. -/
def State.poolTotal (s : State) : Nat := (s.cfg.chart.pools.map (·.size)).foldl (· + ·) 0

/-- POOL_LEDGER_LINE_FILL: the 128 bytes read for a line are authenticated under the version the Ledger holds; a failure is a
double-bit error of all its entries (R288, R289). -/
def execPoolLedgerLineFill (line : Nat) (data : Bytes) (s : State) : Host.Outcome State Fault Refusal :=
  let t := s.begin
  if ¬ t.ldg.poolReads.contains line then done t else
    let v := (assocGet line t.ldg.versions).getD 0
    let ok := (gcmOpen (t.storeKey 4) (storeNonce t.ldg.storeId v) (leBytes 4 line) (data.take 112) (slice data 112 16)).isSome
    let u := { t with ldg := { t.ldg with
      poolReads := t.ldg.poolReads.filter (· ≠ line)
      poolCache := (line :: t.ldg.poolCache).take 1024 } }
    let u := if ok then u else
      (((List.range 14).map fun j => 14 * line + j).filter (· < t.poolTotal)).foldl
        (fun w i => w.dedRegion { pool := true, index := i }) u
    done u.rerunAll

/-! ### Sweep orders (R291 to R298) -/

/-- The priority order of R291: BAND, FLOOR (oldest floor first), ZERO, KEY. FROZEN regions' KEY orders are passed over, and so is an order
for a region that is active. [DEDUCED: notes/assumptions/63.md] -/
def State.nextOrder (s : State) : Option SweepOrder :=
  let of (k : SweepKind) := s.swp.queue.filter fun o => decide (o.kind = k) && (s.sweepSlot? o.region).isNone
  let floors := (of .floor).foldl (fun (best : Option SweepOrder) o => match best with
    | none => some o
    | some b => if sub24 s.epo.epoch (s.entry b.region).floor < sub24 s.epo.epoch (s.entry o.region).floor then some o
        else best) none
  let key := (of .key).find? fun o => decide ((s.entry o.region).state ≠ .frozen)
  ((of .band).head?).orElse fun _ => floors.orElse fun _ => ((of .zero).head?).orElse fun _ => key

/-- The ADOPT fence of an order has not been acknowledged by every MSE. -/
def State.adoptPending (s : State) (o : SweepOrder) : Bool :=
  s.spineHolds (.adopt { region := o.region, old := o.old, new := o.new, bootOld := o.bootOld } o.stall)

/-- SWEEP_SLOT_START (R291, R294, R297): a free slot takes the first queued region and opens its first stride, once its ADOPT
fence is acknowledged; not in Harbour mode, while paused, or while Helm is in core reset (R128, R135, R172).
[DEDUCED: notes/assumptions/63.md] -/
def execSweepSlotStart (s : State) : Host.Outcome State Fault Refusal :=
  let t := s.begin
  done (match firstFree t.swp.slots 0 16, t.nextOrder with
    | some k, some o =>
      if !t.ald.full || t.swp.paused || t.rst.coreReset.isSome || t.alr.quiet || t.adoptPending o then t else
        let w : SweepSlot := { order := o, stride := 0, done := [], bandHi := 0, waiting := false, eS := t.ackedEpoch }
        ({ t with swp := { t.swp with
          slots := assocSet k w t.swp.slots
          queue := t.swp.queue.eraseP (· = o) } }).queueItems [.stride k 0 w]
    | _, _ => t)

/-- Every sector of a slot's open stride is done at every MSE. -/
def SweepSlot.strideDone (w : SweepSlot) : Bool := (List.range 512).all fun k => w.done.contains k

/-- STRIDE_CHECKPOINT (R294): the checkpoint of a finished stride is written to the Ledger store; the next stride opens when
it is anchored. The last stride of a ZERO fill ends by ZERO_FILL_DONE. -/
def execStrideCheckpoint (slot : Nat) (s : State) : Host.Outcome State Fault Refusal :=
  let t := s.begin
  done (match assocGet slot t.swp.slots with
    | none => t
    | some w =>
      if w.waiting || !w.strideDone || (decide (w.order.kind = .zero) && decide (63 ≤ w.stride)) then t else
        ({ t with swp := { t.swp with slots := assocSet slot { w with waiting := true } t.swp.slots } }).queueItems
          [.stride slot (w.stride + 1) { w with stride := w.stride + 1, done := [] }])

/-- A region whose last stride checkpoint is written (R291, R297 step 3, R299): FLOOR = E_s, SWEEP cleared, and for a key sweep
the new GEN with the fence that removes the sweep state; a region of the Harbour re-seal becomes SEALED (R173). -/
def State.finishRegion (slot : Nat) (w : SweepSlot) (s : State) : State :=
  let r := w.order.region
  let e := s.entry r
  let t := { s with swp := { s.swp with slots := assocDel slot s.swp.slots } }
  match w.order.kind with
  | .zero => t
  | .floor =>
    let keyed := t.swp.queue.any fun (o : SweepOrder) => decide (o.region = r)
    let t := (t.changeEntry r { e with floor := w.eS, sweep := keyed } (some .anchor)).bump (ctrLdg 11) 1
    let more := t.regionsWhere fun x => decide (x.owner = e.owner) && x.sweep
    match t.stall? e.owner with
    | some st => if st.rebase && more.isEmpty then
        (t.setStall e.owner { st with rebase := false }).event evRebaseDone unitStallMgr (some e.owner) 0 0
      else t
    | none => t
  | _ =>
    let st := if e.state = .boot then .sealed else e.state
    (t.changeEntry r { e with state := st, gen := w.order.new, floor := w.eS, sweep := false } (some .anchor)).spineMses
      (.unadopt r w.order.stall)

/-- SWEEP_RETIRE (R297 step 4): when no region of a Stall's key sweep is left, queued or active, the RETIRE fence of the old
generation goes to every MSE. -/
def execSweepRetire (stall : Nat) (s : State) : Host.Outcome State Fault Refusal :=
  let t := s.begin
  let busy (o : SweepOrder) : Bool := decide (o.stall = stall ∧ (o.kind = .key ∨ o.kind = .band)) && !o.bootOld
  done (match t.swp.sweeps.find? fun k => k.stall = stall with
    | none => t
    | some k =>
      if k.retiring || t.swp.queue.any busy || t.swp.slots.any (fun p => busy p.2.order) then t
      else { (t.spineMses (.retire stall k.old)) with swp := { t.swp with
        sweeps := t.swp.sweeps.map fun x => if x = k then { k with retiring := true } else x } })

/-- SWEEP_DONE (R297 step 5): after every RETIRE acknowledgement the old generation's slot, tile copies and key table entry
go, and EV_SWEEP_DONE is raised. -/
def execSweepDone (stall : Nat) (s : State) : Host.Outcome State Fault Refusal :=
  let t := s.begin
  done (match t.swp.sweeps.find? fun k => k.stall = stall with
    | none => t
    | some k =>
      if !k.retiring || t.spineHolds (.retire stall k.old) then t else
        match t.regionHandle stall with
        | none => { t with swp := { t.swp with sweeps := t.swp.sweeps.filter (· ≠ k) } }
        | some h =>
          let u := (t.eraseKey h k.old).modStallData stall fun d => { d with
            keys := d.keys.filter fun e => ¬ (e.handle = h ∧ e.gen = k.old) }
          ({ u with swp := { u.swp with sweeps := u.swp.sweeps.filter (· ≠ k) } }.event evSweepDone unitLedger
            (some stall) 0 k.old).bump (ctrLdg 12) 1)

/-- ZERO_FILL_DONE (R285): the last write of a ZERO fill is acknowledged; SEALED grants access, so it is anchored before it
takes effect (R283). A region frozen during its fill becomes FROZEN (R415). -/
def execZeroFillDone (slot : Nat) (s : State) : Host.Outcome State Fault Refusal :=
  let t := s.begin
  done (match assocGet slot t.swp.slots with
    | none => t
    | some w =>
      if w.order.kind ≠ .zero ∨ w.stride < 63 ∨ ¬ w.strideDone then t else
        let r := w.order.region
        let e := { t.entry r with state := if t.stallState w.order.stall = .frozen then .frozen else .sealed, sweep := false }
        let item := DeltaItem.entry r e
        ({ t with
          swp := { t.swp with slots := assocDel slot t.swp.slots }
          ldg := { t.ldg with
            grants := t.ldg.grants ++ [(r, e)]
            waits := t.ldg.waits.map (AnchorWait.settle r item) } }).queueItems [item, .stride slot 64 { w with stride := 64, done := [] }])

/-- HARBOUR_RESEAL_DONE (R173): no Harbour region is left under the boot key, and the boot key is zeroized. -/
def execHarbourResealDone (s : State) : Host.Outcome State Fault Refusal :=
  let t := s.begin
  let left := t.ldg.localEntries.any (fun p => decide (p.2.state = .boot)) ||
    t.swp.queue.any (·.bootOld) || t.swp.slots.any fun p => p.2.order.bootOld
  done (if !t.ald.harbourReseal || left then t
    else { (t.eraseKey bootHandle 0) with ald := { t.ald with harbourReseal := false } })

/-- SWEEPER_YIELD_END (R293): at its duration, or at YIELD_MAX from its first HINT, after which one full tick period must pass
without a yield. -/
def execSweeperYieldEnd (s : State) : Host.Outcome State Fault Refusal :=
  let t := s.begin
  done (match t.swp.yield with
    | none => t
    | some (first, till) =>
      let cap := first + t.cfg.engine.yieldMax * 1000000
      if t.clk.elapsed < min till cap then t
      else { t with swp := { t.swp with yield := none, yieldBlocked := if cap ≤ till then 2 else t.swp.yieldBlocked } })

/-! ### The Ledger store (R283, R302, R303) -/

/-- A grant whose item is anchored takes effect (R283). -/
def State.applyGrant (g : RegionId × LdgEntry) (s : State) : State :=
  s.changeEntry g.1 g.2 none

/-- Commands whose last item is anchored complete. -/
def State.completeWaits (s : State) : State :=
  let ready (w : AnchorWait) : Bool := w.regions.isEmpty && w.items.isEmpty
  (s.ldg.waits.filter ready).foldl (fun t w => t.complete { w.call.record w.status with result := w.result })
    { s with ldg := { s.ldg with waits := s.ldg.waits.filter fun w => !ready w } }

/-- An anchored stride checkpoint opens the next stride, or finishes the region (R294, R297). -/
def State.anchoredItem (i : DeltaItem) (s : State) : State :=
  match i with
  | .stride k n w =>
    match assocGet k s.swp.slots with
    | none => s
    | some v =>
      if v.order.region ≠ w.order.region ∨ ¬ v.waiting then s
      else if 64 ≤ n then s.finishRegion k v
      else { s with swp := { s.swp with slots := assocSet k { v with stride := n, done := [], waiting := false } s.swp.slots } }
  | .entry r e =>
    if s.ldg.grants.contains (r, e) then
      { s with ldg := { s.ldg with grants := s.ldg.grants.erase (r, e) } }.applyGrant (r, e)
    else s
  | _ => s

/-- A record's write is acknowledged: anchor and SEQ advance, and its changes count as anchored (R302). -/
def State.anchorRecord (r : DeltaRecord) (s : State) : State :=
  let root := sha384 (s.ldg.anchor.root ++ s.recordBytes r)
  let t : State := { s with ldg := { s.ldg with
    flight := none
    anchor := { valid := true, clearedByTamper := s.ldg.anchor.clearedByTamper, epoch := s.epo.epoch, root, seq := r.seq }
    store := r.items.foldl (fun m i => m.apply i) s.ldg.store
    waits := s.ldg.waits.map fun (w : AnchorWait) => { w with items := w.items.filter fun i => ¬ r.items.contains i } } }
  (r.items.foldl (fun u i => u.anchoredItem i) (t.bump (ctrLdg 5) 1)).completeWaits

/-- DELTA_RECORD_ACK (R302): after 131,072 records a new base is begun (R303). In the quiet state the anchor stays where it is (R530).
[DEDUCED: notes/assumptions/54.md] -/
def execDeltaRecordAck (s : State) : Host.Outcome State Fault Refusal :=
  let t := s.begin
  done (match t.ldg.flight with
    | none => t
    | some r =>
      if t.alr.quiet || r.items.any fun i => match i with | .base _ => true | _ => false then t else
        let u := t.anchorRecord r
        let u := { u with ldg := { u.ldg with sinceBase := u.ldg.sinceBase + 1 } }
        let u := if 131072 ≤ u.ldg.sinceBase ∧ ¬ u.ldg.baseBusy then u.beginBase else u
        u.flushStore)

/-- BASE_MARKER_ACK (R303): the base becomes the newest complete one, BASE_SLOT changes and SINCE_BASE restarts; the format
that wrote a first base has then completed (R173, R301). -/
def execBaseMarkerAck (s : State) : Host.Outcome State Fault Refusal :=
  let t := s.begin
  done (match t.ldg.flight with
    | none => t
    | some r =>
      if t.alr.quiet then t else match r.items with
      | .base sha :: _ =>
        let u := { t with ldg := { t.ldg with
          anchor := { t.ldg.anchor with root := sha }
          store := (t.ldg.baseImage).getD t.ldg.store } }
        let v := u.anchorRecord r
        let v := { v with
          ldg := { v.ldg with
            sinceBase := 0, baseSlotB := !v.ldg.baseSlotB, baseBusy := false, baseImage := none
            restoring := false }
          ald := { v.ald with restored := v.ald.restored || v.ldg.restoring } }
        (v.bump (ctrLdg 6) 1).flushStore
      | _ => t)

/-! ### Ledger SRAM errors (R306, R307) -/

/-- LEDGER_DED: the quarantine, and the Sounding of a local entry's row (R306, R307). -/
def execLedgerDed (pool : Bool) (index : Nat) (s : State) : Host.Outcome State Fault Refusal :=
  let t := s.begin.dedRegion { pool, index }
  done (if pool ∨ t.ldg.rowTests.contains (index / 8) then t
    else { t with ldg := { t.ldg with rowTests := t.ldg.rowTests ++ [index / 8] } })

/-- LEDGER_ROW_SOUNDING_DONE (R307): a faulty row goes to a spare, or where none of the 64 is left its regions are quarantined;
the class is 1 ROW_FAULT or 2 SRAM_TRANSIENT. -/
def execLedgerRowSoundingDone (row : Nat) (pass : Bool) (s : State) : Host.Outcome State Fault Refusal :=
  let t := s.begin
  if ¬ t.ldg.rowTests.contains row then done t else
    let t := { t with ldg := { t.ldg with rowTests := t.ldg.rowTests.filter (· ≠ row) } }
    if pass then done (t.sounding unitLedger 1 2)
    else
      let t := t.sounding unitLedger 1 1
      if t.cht.rows.length < 64 then
        done ({ t with
          cht := { t.cht with rows := t.cht.rows ++ [row] }
          ald := { t.ald with repairDue := t.ald.repairDue.orElse fun _ => some t.clk.elapsed } }.event
            evLdgRowRepair unitLedger none row 1)
      else
        done (((List.range 8).map fun j => 8 * row + j).foldl (fun u i => u.dedRegion { pool := false, index := i })
          { t with ldg := { t.ldg with rowsExhausted := true } })

end Sys2Proof.Machine
end

