-- ==== Sys2Proof/Machine/Tollgate.lean ====
section
/-!
DEFINITION. The Tollgate (spec/15_tollgate.md): the export policy, exact norm and clipping, rounding, the privacy budget, and its commands.
-/

namespace Sys2Proof.Machine

/-! ### The export policy (R448 to R453) -/

/-- Bytes of a policy image. -/
def policySize : Nat := 2384

/-- Owner entry `j`, noise class `c`, rule `r` of an image. -/
def polOwner (p : Bytes) (j : Nat) : Bytes := slice p (0x10 + 24 * j) 24
def polClass (p : Bytes) (c : Nat) : Bytes := slice p (0xD0 + 16 * c) 16
def polRule (p : Bytes) (r : Nat) : Bytes := slice p (0x150 + 32 * r) 32

/-- NOWNER, NCLASS, NRULE. -/
def polOwners (p : Bytes) : Nat := leField p 6 1
def polClasses (p : Bytes) : Nat := leField p 7 1
def polRules (p : Bytes) : Nat := leField p 8 1

/-- FP32 +∞. -/
def fpInf : Nat := 0x7F800000

/-- FP32 patterns from 2^a to 2^b, a and b given with bias 127. -/
def fpBetween (a b x : Nat) : Bool := decide (a * 2 ^ 23 ≤ x ∧ x ≤ b * 2 ^ 23)

/-- Owner slot `j` keeps a budget (R450). -/
def polBudget (p : Bytes) (j : Nat) : Bool := (leField (polOwner p j) 1 1).testBit 0

/-- The fields of an owner entry: offset, and whether its rule holds (R450). -/
def ownerFields (p : Bytes) (owners : List OwnerEntry) (j : Nat) : List (Nat × Bool) :=
  let e := polOwner p j
  let o := 0x10 + 24 * j
  if j < polOwners p then
    let b := (leField e 1 1).testBit 0
    [(o, decide ((owners[j]?).map (·.index) = some (leField e 0 1))), (o + 1, decide (leField e 1 1 < 2)), (o + 2, decide (slice e 2 6 = zeros 6)),
     (o + 8, b || decide (leField e 8 8 = 0)), (o + 16, if b then decide (1 ≤ leField e 16 8) else decide (leField e 16 8 = 0))]
  else [(0, 1), (1, 1), (2, 6), (8, 8), (16, 8)].map fun f => (o + f.1, decide (slice e f.1 f.2 = zeros f.2))

/-- The fields of a noise class (R451). -/
def classFields (p : Bytes) (c : Nat) : List (Nat × Bool) :=
  let e := polClass p c
  let o := 0xD0 + 16 * c
  if c < polClasses p then
    let clip := leField e 0 4
    let sigma := leField e 4 4
    let k := leField e 8 1
    [(o, fpBetween 95 159 clip || decide (clip = fpInf)), (o + 4, fpBetween 95 159 sigma),
     (o + 8, decide (k ≤ 40) && fpBetween (127 - k) (167 - k) sigma), (o + 9, decide (slice e 9 7 = zeros 7))]
  else [(0, 4), (4, 4), (8, 1), (9, 7)].map fun f => (o + f.1, decide (slice e f.1 f.2 = zeros f.2))

/-- The fields of a rule (R452). -/
def ruleFields (p : Bytes) (r : Nat) : List (Nat × Bool) :=
  let e := polRule p r
  let o := 0x150 + 32 * r
  if r < polRules p then
    let kind := leField e 8 1
    let fmt := leField e 9 1
    let cls := leField e 10 1
    let who := leField e 11 1
    let unclipped := decide (kind = 2 ∧ leField (polClass p cls) 0 4 = fpInf)
    [(o, true), (o + 4, decide (1 ≤ leField e 4 4 ∧ leField e 4 4 ≤ 2 ^ 20 ∧ leField e 0 4 + leField e 4 4 ≤ 2 ^ 32)),
     (o + 8, decide (kind = 1 ∨ kind = 2)), (o + 9, if kind = 1 then decide (fmt = 0xA) else decide (fmt = 0 ∨ fmt = 4 ∨ fmt = 5)),
     (o + 10, if kind = 1 then decide (cls = 0xFF) else decide (cls < polClasses p)),
     (o + 11, decide (who ≠ 0 ∧ who < 2 ^ polOwners p) && !(unclipped && (List.range 8).any fun j => who.testBit j && polBudget p j)),
     (o + 12, decide (leField e 12 4 % 32 = 0 ∧ 32 ≤ leField e 12 4 ∧ leField e 12 4 ≤ 2 ^ 24)), (o + 16, decide (slice e 16 16 = zeros 16))]
  else [(0, 4), (4, 4), (8, 1), (9, 1), (10, 1), (11, 1), (12, 4), (16, 16)].map fun f => (o + f.1, decide (slice e f.1 f.2 = zeros f.2))

/-- The byte offset of the first field of an image that breaks its rule (R449 to R452). -/
def policyFault (p : Bytes) (owners : List OwnerEntry) : Option Nat :=
  let head := [(0, decide (leField p 0 4 = 0x50545358)), (4, decide (leField p 4 2 = 1)), (6, decide (1 ≤ polOwners p ∧ polOwners p ≤ 8)),
    (7, decide (polClasses p ≤ 8)), (8, decide (1 ≤ polRules p ∧ polRules p ≤ 64)), (9, decide (slice p 9 7 = zeros 7))]
  let fields := head ++ (List.range 8).flatMap (ownerFields p owners) ++ (List.range 8).flatMap (classFields p) ++
    (List.range 64).flatMap (ruleFields p)
  (fields.find? fun f => !f.2).map (·.1)

/-- INSTANCE_TAG of a Stall. -/
def Stall.tag (x : Stall) : Bytes := (padTo 8 x.inst).take 8

/-- A policy parsed and placed first in the cache of eight (R453). -/
def Tol.remember (stall : Nat) (tag p : Bytes) (t : Tol) : Tol :=
  { t with cache := ((stall, tag, p) :: t.cache.filter fun e => e.1 ≠ stall).take 8 }

/-- A failed policy load (R453, R471). [DEDUCED: notes/assumptions/51.md] -/
def State.policyError (c : Call) (off : Nat) (s : State) : State :=
  ({ s with tol := { s.tol with polOffset := off, polStall := c.stall, polValid := true } }).finish c stTolPolicy

/-- TOLL_POLICY_LOAD (R453). An address outside SEALED regions of the Stall, or a read that fails, leaves no image to match the
digest. -/
def execTollPolicyLoad (c : Call) (addr : Nat) (image : BufRead) (s : State) : Host.Outcome State Fault Refusal :=
  done (s.command c 0x0901 fun t =>
    match t.stall? c.stall, t.stallData? c.stall with
    | some x, some d =>
      if addr % 16 ≠ 0 then t.badArg c 0
      else if ¬ t.rangeAll addr policySize (fun e => decide (e.state = .sealed ∧ e.owner = c.stall)) then t.policyError c 0xFFF
      else
        let t := t.emit (.memRead c.stall addr policySize)
        match image with
        | .failed => t.policyError c 0xFFF
        | .ok p =>
          if sha384 p ≠ d.policyDigest then t.policyError c 0xFFF
          else match policyFault p d.owners with
            | some off => t.policyError c off
            | none =>
              let w : Tol := { t.tol with policies := assocSet c.stall (addr, x.tag) t.tol.policies }
              ({ t with tol := w.remember c.stall x.tag p }).finish c stOk
    | _, _ => t.finish c stStallLost)

/-! ### Numbers (R458, R461) -/

/-- Significand and exponent of a finite FP32 pattern: its magnitude is m × 2^(e − 150). -/
def fpParts (x : Nat) : Nat × Nat :=
  let e := x / 2 ^ 23 % 256
  if e = 0 then (x % 2 ^ 23, 1) else (x % 2 ^ 23 + 2 ^ 23, e)

/-- A NaN or an infinity. -/
def fpSpecial (x : Nat) : Bool := decide (x / 2 ^ 23 % 256 = 255)

/-- The elements of an input as FP32 patterns: BF16 is the upper half of one. -/
def elements (bf16 : Bool) (data : Bytes) : List Nat :=
  if bf16 then (chunks 2 data).map fun b => ofLe b * 2 ^ 16 else (chunks 4 data).map ofLe

/-- x² in units of 2^-298. -/
def fpSquare (x : Nat) : Nat := let p := fpParts x; p.1 ^ 2 * 2 ^ (2 * p.2 - 2)

/-- S of R458 in units of 2^-298. -/
def normSum (xs : List Nat) : Nat := (xs.map fpSquare).foldl (· + ·) 0

/-- The integer part of a square root, bit by bit from 2^n down. -/
def isqrtFrom : Nat → Nat → Nat → Nat
  | 0, _, r => r
  | n + 1, x, r => if (r + 2 ^ n) * (r + 2 ^ n) ≤ x then isqrtFrom n x (r + 2 ^ n) else isqrtFrom n x r

/-- The data is clipped: CLIP is finite and S > C². -/
def clipped (clip s : Nat) : Bool :=
  let c := fpParts clip
  decide (clip ≠ fpInf) && decide (c.1 ^ 2 * 2 ^ (2 * c.2) < 4 * s)

/-- m_i of R458: ⌊|x| × 2^k⌋, or the largest m with m² × S ≤ x² × C² × 2^(2k). -/
def gridMagnitude (clip s k x : Nat) : Nat :=
  let p := fpParts x
  if clipped clip s then
    let c := fpParts clip
    isqrtFrom 128 (fpSquare x * (c.1 ^ 2 * 2 ^ (2 * c.2 + 2 * k)) / (s * 2 ^ 300)) 0
  else p.1 * 2 ^ (p.2 + k) / 2 ^ 150

/-- y_i of R458. -/
def gridValue (clip s k x : Nat) : Int :=
  let m := gridMagnitude clip s k x
  if 2 ^ 31 ≤ x then -(m : Int) else (m : Int)

/-- The largest e with 2^e ≤ a, below `n`. -/
def log2Below : Nat → Nat → Nat
  | 0, _ => 0
  | n + 1, a => if 2 ^ (n + 1) ≤ a then n + 1 else log2Below n a

/-- a / 2^n rounded to nearest, ties to even. -/
def roundEven (a n : Nat) : Nat :=
  let q := a / 2 ^ n
  let r := 2 * (a % 2 ^ n)
  if 2 ^ n < r ∨ (r = 2 ^ n ∧ q % 2 = 1) then q + 1 else q

/-- n × 2^-k rounded once into a format with 8 exponent bits and `p` fraction bits (R461). -/
def roundFloat (p k : Nat) (n : Int) : Nat :=
  let a := n.natAbs
  if a = 0 then 0 else
    let top := log2Below 160 a
    let e := max (top + 127) (k + 1) - k
    let sh := e + k
    let m := if sh ≤ p + 127 then a * 2 ^ (p + 127 - sh) else roundEven a (sh - p - 127)
    let bits := min ((e - 1) * 2 ^ p + m) (255 * 2 ^ p)
    (if n < 0 then 2 ^ (8 + p) else 0) + bits

/-- An output element as bytes. -/
def roundBytes (bf16 : Bool) (k : Nat) (n : Int) : Bytes := if bf16 then leBytes 2 (roundFloat 7 k n) else leBytes 4 (roundFloat 23 k n)

/-- The main pass over elements, with one draw of the sampler for each (R459). -/
def mainPass (bf16 : Bool) (clip s k draw : Nat) : Nat → List Nat → Bytes
  | _, [] => []
  | i, x :: xs => roundBytes bf16 k (gridValue clip s k x + Config.noise (draw + i)) ++ mainPass bf16 clip s k draw (i + 1) xs

/-! ### The privacy budget (R463, R464) -/

/-- Owner block `j`. -/
def StallData.budgetOf (d : StallData) (j : Nat) : BudgetEntry := d.budget.getD j { seq := 0, charged := [] }

/-- N_c of a block. -/
def BudgetEntry.n (b : BudgetEntry) (c : Nat) : Nat := b.charged.getD c 0

/-- Owner block `j` replaced. -/
def StallData.setBudget (j : Nat) (b : BudgetEntry) (d : StallData) : StallData :=
  { d with budget := (List.range 8).map fun i => if i = j then b else d.budgetOf i }

/-- ρ_c = C² / (2σ²) as a fraction (R464). -/
def rho (p : Bytes) (c : Nat) : Nat × Nat :=
  let clip := fpParts (leField (polClass p c) 0 4)
  let sigma := fpParts (leField (polClass p c) 4 4)
  (clip.1 ^ 2 * 2 ^ (2 * clip.2), 2 * sigma.1 ^ 2 * 2 ^ (2 * sigma.2))

/-- Releases charged to a block after one more under class `c`, as a fraction. -/
def charged (p : Bytes) (b : BudgetEntry) (c : Nat) : Nat × Nat :=
  (List.range 8).foldl (fun (a : Nat × Nat) i =>
    let n := b.n i + bit (decide (i = c))
    if n = 0 then a else
      let r := rho p i
      (a.1 * r.2 + n * r.1 * a.2, a.2 * r.2)) (0, 1)

/-- The check of R464. -/
def budgetOk (p : Bytes) (j : Nat) (b : BudgetEntry) (c : Nat) : Bool :=
  let e := polOwner p j
  let sum := charged p b c
  decide (sum.1 * leField e 16 8 ≤ leField e 8 8 * sum.2 ∧ b.n c < 2 ^ 32 - 1)

/-! ### An export (R454 to R457) -/

/-- KIND, input and output format, class of the export's rule. -/
def Export.gradient (e : Export) : Bool := decide (leField e.ruleBytes 8 1 = 2)
def Export.inBf16 (e : Export) : Bool := decide (leField e.ruleBytes 9 1 % 4 = 1)
def Export.outBf16 (e : Export) : Bool := decide (leField e.ruleBytes 9 1 / 4 = 1)
def Export.clip (e : Export) : Nat := leField e.classBytes 0 4
def Export.grid (e : Export) : Nat := leField e.classBytes 8 1

/-- L_out (R454). -/
def Export.outLen (e : Export) : Nat := if e.gradient && !e.inBf16 && e.outBf16 then e.len / 2 else e.len

/-- The ranges of an export are aligned and pairwise disjoint (R454). -/
def Export.apart (e : Export) : Bool :=
  let rs := [(e.src, e.len), (e.stage, e.outLen), (e.dst, e.outLen), (e.hdr, 64), (e.tag, 16)]
  decide (e.src % 32 = 0 ∧ e.stage % 16 = 0 ∧ e.dst % 16 = 0 ∧ e.hdr % 16 = 0 ∧ e.tag % 16 = 0) &&
    decide (rs.Pairwise fun a b => disjoint a.1 a.2 b.1 b.2 = true)

/-- The cached policy of a Stall, if it is of this INSTANCE. -/
def State.policyOf (s : State) (stall : Nat) (tag : Bytes) : Option Bytes :=
  (s.tol.cache.find? fun e => e.1 = stall ∧ e.2.1 = tag).map (·.2.2)

/-- Where the export's regions must lie (R455). -/
def State.exportPlaced (s : State) (e : Export) : Bool :=
  let st := e.call.stall
  let own (x : LdgEntry) : Bool := decide (x.state = .sealed ∧ x.owner = st)
  let lo := regionBytes * leField e.ruleBytes 0 4
  decide (lo ≤ e.src ∧ e.src + e.len ≤ lo + regionBytes * leField e.ruleBytes 4 4) && s.rangeAll e.src e.len own &&
    s.rangeAll e.stage e.outLen own && s.rangeAll e.dst e.outLen (cipherSide st) && s.rangeAll e.hdr 64 (cipherSide st) &&
    s.rangeAll e.tag 16 (cipherSide st)

/-- The key of the handle is the EXPORT key of the owner of a slot (R455). -/
def State.exportKeyOk (s : State) (e : Export) (st : Stall) (d : StallData) (o : OwnerEntry) (k : KeyEntry) : Bool :=
  decide (handleType e.handle = keyExport) &&
    match s.sbx.slotOf e.handle k.gen with
    | some p => decide (p.2.material = derivedKey e.call.stall st d keyExport o.index (e.handle % 65536) k.gen)
    | none => decide (k.ownerIdx = o.index)

/-- The checks of R455 from the rule on, with the policy at hand: a status, or the export with its rule and class.
[DEDUCED: notes/assumptions/51.md] -/
def State.exportCheck (s : State) (e : Export) (p : Bytes) : Nat ⊕ Export :=
  match s.stall? e.call.stall, s.stallData? e.call.stall with
  | some x, some d =>
    let rule := polRule p e.rule
    let e : Export := { e with ruleBytes := rule, classBytes := if leField rule 8 1 = 2 then polClass p (leField rule 10 1) else [] }
    let slot := (d.owners[e.owner]?).filter fun o => o.valid
    if polRules p ≤ e.rule ∨ e.outFmt ≠ leField rule 9 1 / 4 then .inl stTolRule
    else match slot with
      | none => .inl stTolOwner
      | some o =>
        if polOwners p ≤ e.owner ∨ ¬ (leField rule 11 1).testBit e.owner then .inl stTolOwner
        else match (if handleOwner e.handle = e.call.stall then s.liveEntry? e.handle else none) with
          | none => .inl stKeyUnknown
          | some k =>
            if ¬ s.exportKeyOk e x d o k then .inl stTolOwner
            else if e.len % 32 ≠ 0 ∨ e.len = 0 ∨ leField rule 12 4 < e.len ∨ ¬ e.apart then .inl stTolParam
            else if ¬ s.exportPlaced e then .inl stTolAddr
            else if e.gradient ∧ polBudget p e.owner ∧ ¬ budgetOk p e.owner (d.budgetOf e.owner) (leField rule 10 1) then .inl stTolBudget
            else if s.overLimit e.handle k.gen (e.outLen / 16 + 1) then .inl stKeyLimit
            else .inr e
  | _, _ => .inl stStallLost

/-- An export ends before its commit point (R455). -/
def State.refuseExport (e : Export) (st : Nat) (s : State) : State :=
  let t : State := { s with tol := { s.tol with
    running := none, hold := [], refused := satAdd 65535 s.tol.refused 1
    nonfinite := satAdd 65535 s.tol.nonfinite (bit (decide (st = stTolNonfinite))) } }
  (t.bump (ctrToll 1) 1).finish e.call st

/-- The running export replaced. -/
def State.setExport (e : Export) (s : State) : State := { s with tol := { s.tol with running := some e } }

/-- Steps 2 to 4 of R456: the nonce, the hold, the norm pass over what SRC reads as; then the export waits for its commit. -/
def State.normPass (e : Export) (src : BufRead) (s : State) : State :=
  s.withEntropy e.call fun s =>
    let e : Export := { e with nonce := s.drawn 12, phase := 2 }
    let t := (s.tookDraw.bump (ctrBooth 7) 1).setExport e
    let t : State := { t with tol := { t.tol with hold := [(e.call.stall, e.src, e.len), (e.call.stall, e.stage, e.outLen)] } }
    if ¬ (e.gradient && decide (e.clip ≠ fpInf)) then t.setExport { e with phase := 3 }
    else
      let t := t.emit (.memRead e.call.stall e.src e.len)
      match src with
      | .failed => t.refuseExport e stTolMemory
      | .ok b =>
        let xs := elements e.inBf16 ((padTo e.len b).take e.len)
        if xs.any fpSpecial then t.refuseExport e stTolNonfinite
        else t.setExport { e with phase := 3, norm := normSum xs }

/-- Step 1 of R456 and what follows it. -/
def State.runExport (e : Export) (policy src : BufRead) (s : State) : State :=
  match s.stall? e.call.stall, s.stallData? e.call.stall, assocGet e.call.stall s.tol.policies with
  | some x, some d, some (addr, tag) =>
    if tag ≠ x.tag then s.refuseExport e stTolNopolicy
    else
      let cached := s.policyOf e.call.stall tag
      let read := match policy with
        | .ok b => if sha384 b = d.policyDigest then some b else none
        | .failed => none
      let t := if cached.isSome then s else s.emit (.memRead e.call.stall addr policySize)
      match cached.orElse fun _ => read with
      | none =>
        ({ t with tol := { t.tol with policies := assocDel e.call.stall t.tol.policies } }).refuseExport e stTolPolicy
      | some p =>
        let t : State := { t with tol := t.tol.remember e.call.stall tag p }
        match t.exportCheck e p with
        | .inl st => t.refuseExport e st
        | .inr e => t.normPass e src
  | _, _, _ => s.refuseExport e stTolNopolicy

/-- The export that the arguments of a TOLL_EXPORT name (R454). -/
def exportOf (c : Call) (rule owner outFmt cls handle src len stage dst hdr tag : Nat) : Export :=
  { call := c, rule, owner, outFmt, cls, handle, src, len, stage, dst, hdr, tag, phase := 1, ruleBytes := [], classBytes := [], nonce := []
    norm := 0, seq := 0, before := { seq := 0, charged := [] }, header := [] }

/-- TOLL_EXPORT (R454 to R456): queued up to 32 deep, run one at a time in the order accepted. `policy` is the image as read again
where it is not cached, `src` what SRC reads as in the norm pass. -/
def execTollExport (c : Call) (rule owner outFmt cls handle src len stage dst hdr tag : Nat) (policy srcBuf : BufRead) (s : State) :
    Host.Outcome State Fault Refusal :=
  done (s.command c 0x0902 fun t =>
    let e := exportOf c rule owner outFmt cls handle src len stage dst hdr tag
    match t.tol.running with
    | some r => if r.call = c then (if r.phase = 1 then t.runExport r policy srcBuf else t)
      else if t.tol.queue.any (fun x => decide (x.call = c)) ∨ 32 ≤ t.tol.queue.length then t
      else { t with tol := { t.tol with queue := t.tol.queue ++ [e] } }
    | none =>
      if t.inUnitReset unitTollgate then t
      else match t.tol.queue with
        | [] => (t.setExport e).runExport e policy srcBuf
        | x :: rest =>
          if x.call = c then
            let u : State := { t with tol := { t.tol with queue := rest } }
            (u.setExport x).runExport x policy srcBuf
          else if t.tol.queue.any (fun x => decide (x.call = c)) ∨ 32 ≤ t.tol.queue.length then t
          else { t with tol := { t.tol with queue := t.tol.queue ++ [e] } })

/-- TOLL_COMMIT (R456 step 5, R464): the charge is written into the Stall record; once that is anchored the export is past its commit
point. -/
def execTollCommit (s : State) : Host.Outcome State Fault Refusal :=
  let t := s.begin
  match t.tol.running with
  | none => done t
  | some e =>
    if e.phase ≠ 3 ∨ t.alr.quiet ∨ t.rst.coreReset.isSome then done t
    else
      let st := e.call.stall
      let u := if e.seq ≠ 0 then t else match t.stallData? st with
        | none => t
        | some d =>
          let b := d.budgetOf e.owner
          let p := (t.tol.cache.find? fun x => x.1 = st).map (·.2.2)
          let pays := e.gradient && ((p.map fun p => polBudget p e.owner).getD false)
          let c := leField e.ruleBytes 10 1
          let b' : BudgetEntry :=
            { seq := b.seq + 1, charged := if pays then (List.range 8).map fun i => b.n i + bit (decide (i = c)) else b.charged }
          (((t.setStallData st (d.setBudget e.owner b')).writeRecord st).setExport { e with seq := b'.seq, before := b })
      if u.recordPending st then done u
      else match u.tol.running with
        | none => done u
        | some e' =>
          let v : State := { u with tol := { u.tol with running := some { e' with phase := 4 }, exports := satAdd 65535 u.tol.exports 1 } }
          done (((v.bump (ctrToll 0) 1).meter 4 st e.len).progress)

/-! ### Main pass and handoff (R456 steps 6 to 9, R462) -/

/-- The header of an export (R462). -/
def State.exportHeader (s : State) (e : Export) : Bytes :=
  let x := s.stall? e.call.stall
  let d := s.stallData? e.call.stall
  let owner := ((d.bind fun d => d.owners[e.owner]?).map (·.index)).getD 0
  let gen := ((s.liveEntry? e.handle).map (·.gen)).getD 0
  let count := if ¬ e.gradient then e.len else if e.inBf16 then e.len / 2 else e.len / 4
  leBytes 4 0x58545358 ++ leBytes 2 1 ++ leBytes 2 e.call.stall ++ ((x.map Stall.tag).getD (zeros 8)) ++ leBytes 1 owner ++
    leBytes 1 e.rule ++ leBytes 1 (leField e.ruleBytes 8 1) ++ leBytes 1 (leField e.ruleBytes 9 1) ++
    leBytes 1 (if e.gradient then e.grid else 0) ++ leBytes 1 gen ++ leBytes 2 (e.handle % 65536) ++ leBytes 8 e.seq ++ leBytes 4 count ++
    leBytes 4 (if e.gradient then e.clip else 0) ++ leBytes 4 (if e.gradient then leField e.classBytes 4 4 else 0) ++ zeros 4 ++
    (padTo 12 e.nonce).take 12 ++ zeros 4

/-- An export ends after its commit point (R466): the charge stays. [DEDUCED: notes/assumptions/51.md] -/
def State.failExport (e : Export) (st : Nat) (s : State) : State :=
  let t : State := { s with tol := { s.tol with
    running := none, hold := [], nonfinite := satAdd 65535 s.tol.nonfinite (bit (decide (st = stTolNonfinite))) } }
  t.finish e.call st

/-- The handoff's operation (R434, R456 step 8). -/
def Export.op (e : Export) : BoothOp :=
  { call := e.call, mode := 0, decrypt := false, flags := e.cls % 4 * 16, tail := 0, handle := e.handle, src := e.stage, dst := e.dst
    len := e.outLen, aadLen := 64, aadTail := 0, aad := 0, iv := (padTo 12 e.nonce).take 12 ++ zeros 4, hwNonce := true, du := 0, tag := e.tag
    header := some e.header }

/-- The handoff takes the lock, if it is free, and its operation is queued for its start. -/
def State.takeLock (e : Export) (s : State) : State :=
  if s.bth.holder.isSome ∨ s.bth.running.isSome ∨ s.inUnitReset unitBooth then s
  else
    let t : State := { s with bth := { s.bth with holder := some (0, e.call.stall), tollgate := true, queue := [e.op] } }
    t.kickBooth 1

/-- The main pass over what SRC reads as: none where an unclipped pass meets a NaN or an infinity. -/
def State.mainOutput (s : State) (e : Export) (data : Bytes) : Option Bytes :=
  if ¬ e.gradient then some data
  else
    let xs := elements e.inBf16 data
    if xs.any fpSpecial then none else some (mainPass e.outBf16 e.clip e.norm e.grid s.fresh 0 xs)

/-- Steps 6 to 8 of R456 with what SRC reads as. [DEDUCED: notes/assumptions/15.md] -/
def State.mainStage (e : Export) (src : BufRead) (stageAt : Option Nat) (hdrOk : Bool) (stalls : Nat) (t : State) : State :=
  let t := t.emit (.memRead e.call.stall e.src e.len)
  match src with
  | .failed => t.failExport e stTolMemory
  | .ok b => match t.mainOutput e ((padTo e.len b).take e.len) with
    | none => t.failExport e stTolNonfinite
    | some out =>
      let n := if e.gradient then out.length / (if e.outBf16 then 2 else 4) else 0
      let t : State := { t with
        fresh := t.fresh + n, tol := { t.tol with samplerStall := satAdd 65535 t.tol.samplerStall stalls } }
      let t := ((t.bump (ctrToll 2) n).bump (ctrToll 3) (bit (e.gradient && clipped e.clip e.norm))).bump (ctrToll 4) n
      let t := t.bump (ctrToll 5) stalls
      match stageAt with
      | some k => (t.writeRange e.call.stall e.stage (out.take k)).failExport e stTolMemory
      | none =>
        let e : Export := { e with header := t.exportHeader e }
        let t := (t.writeRange e.call.stall e.stage out).writeRange e.call.stall e.hdr e.header
        if ¬ hdrOk then t.failExport e stTolMemory
        else
          let e : Export := { e with phase := 5 }
          (t.setExport e).takeLock e

/-- TOLL_HANDOFF (R434, R456): the main pass into STAGE, the header to HDR, then the Booth lock in hardware; while the lock is held it
waits, and this row takes it later. `stageAt` is where a write to STAGE failed, `hdrOk` the answer to the header's write, `stalls` the
stalls of the sampler (R460). -/
def execTollHandoff (src : BufRead) (stageAt : Option Nat) (hdrOk : Bool) (stalls : Nat) (s : State) : Host.Outcome State Fault Refusal :=
  let t := s.begin
  match t.tol.running with
  | none => done t
  | some e =>
    if t.alr.quiet then done t
    else if e.phase = 5 ∧ ¬ t.bth.tollgate then done (t.takeLock e)
    else if e.phase ≠ 4 then done t
    else if e.gradient then done (t.withEntropy e.call fun t => t.mainStage e src stageAt hdrOk stalls)
    else done (t.mainStage e src stageAt hdrOk stalls)

/-- TOLL_EXPORT_COMPLETE (R456 step 9): the handoff's operation has ended; the hold and the lock end with it, and the record carries the
nonce and EXPORT_SEQ. -/
def execTollExportComplete (io : BoothIo) (s : State) : Host.Outcome State Fault Refusal :=
  let t := s.begin
  match t.bth.running, t.tol.running with
  | some o, some e =>
    if o.header.isNone ∨ t.alr.quiet then done t
    else
      let r := (o.result (t.boothKey o) io).written io
      let u := t.endBooth o r
      let u : State := { u with
        tol := { u.tol with running := none, hold := [] }
        bth := { u.bth with holder := none, tollgate := false, releaseDue := false } }
      let rec_ : Completion :=
        { e.call.record r.status with doNotTrust := r.dnt, result := (padTo 12 e.nonce).take 12 ++ leBytes 8 e.seq }
      done ((u.complete rec_).settleDestroys)
  | _, _ => done t

/-! ### The statement of R465 -/

/-- Bytes 0x00 to 0x9F of the statement. -/
def State.budgetBody (s : State) (id : Nat) (x : Stall) (d : StallData) (j : Nat) (o : OwnerEntry) (nonce : Bytes) : Bytes :=
  leBytes 4 0x42545358 ++ leBytes 2 1 ++ leBytes 2 id ++ (padTo 16 x.inst).take 16 ++ (padTo 32 nonce).take 32 ++ leBytes 8 s.clk.domain ++
    leBytes 1 o.index ++ zeros 7 ++ (d.budgetOf j).bytes.take 40 ++ (padTo 48 d.policyDigest).take 48

/-- TOLL_BUDGET (R465). `sigs` are the leaf keys' signatures. -/
def execTollBudget (c : Call) (owner : Nat) (nonce : Bytes) (out_ outMax : Nat) (sigs : Bytes) (ok : Bool) (s : State) :
    Host.Outcome State Fault Refusal :=
  done (s.command c 0x0903 fun t =>
    match t.stall? c.stall, t.stallData? c.stall with
    | some x, some d => match d.owners[owner]? with
      | none => t.finish c stTolOwner
      | some o =>
        if ¬ x.measLocked then t.finish c stEvidence
        else
          let data := t.budgetBody c.stall x d owner o nonce ++ (padTo 4728 sigs).take 4728
          t.output c out_ outMax data ok fun t => (t.bump (ctrSbx 7) 1).finishOk c (leBytes 4 data.length)
    | _, _ => t.finish c stStallLost)

end Sys2Proof.Machine
end

