-- ==== Sys2Proof/Machine/Fuse.lean ====
section
/-!
DEFINITION. The fuse port and the lifecycle unit (spec/03_ports.md R82, spec/17_lifecycle_debug.md): fuse programming bit by bit, the
decode of the fuse words, transitions with their wipes and their resumption, DRK_GENERATE and SVN_ADVANCE, and the keys the fuses give.
-/

namespace Sys2Proof.Machine

/-! ### Core reset (R127 to R129, R137) -/

/-- What an engine, a queue or an armed unit holds of a command: it has been started (R128, R129). -/
def State.engineHeld (s : State) (c : Call) : Bool :=
  s.bth.queue.any (fun (o : BoothOp) => decide (o.call = c)) || s.tol.queue.any (fun (e : Export) => decide (e.call = c)) ||
    s.tol.running.any (fun (e : Export) => decide (e.call = c)) || s.sty.queue.contains c || s.obs.armCall.contains c

/-- An export before its commit point is given up: a charge on its way is taken back (R129, R466). [DEDUCED: notes/assumptions/29.md] -/
def State.dropExport (s : State) : State :=
  match s.tol.running with
  | none => s
  | some e =>
    if 4 ≤ e.phase then s
    else
      let t : State := { s with tol := { s.tol with running := none, hold := [] } }
      if e.seq = 0 then t
      else (t.modStallData e.call.stall fun d => d.setBudget e.owner e.before).writeRecord e.call.stall

/-- A command put among others by its place in the order of acceptance. -/
def insertQueued (q : Queued) : List Queued → List Queued
  | [] => [q]
  | p :: l => if p.order < q.order then p :: insertQueued q l else q :: p :: l

/-- Commands in the order of acceptance. -/
def sortQueued (l : List Queued) : List Queued := l.foldr insertQueued []

/-- What Helm's working RAM holds of exchanges and sessions is gone: the join exchanges this block began start again at a boundary.
[DEDUCED: notes/assumptions/29.md] -/
def State.clearExchanges (s : State) : State :=
  let again := (s.dom.exchanges.filter fun (x : HybExchange) => x.initiator && x.lse.isSome).map fun (x : HybExchange) =>
    { x with h1 := [], h2 := [], h3 := [], chainOk := false, kEst := [] }
  { s with dom := { s.dom with exchanges := again, parts := [] }, att := { s.att with sessions := [] } }

/-- C is asserted (R121, R127 to R129): commands before their commit point go back to the head of the buffer, those of a boundary to the
head of the tick queue; what an engine holds and what is committed goes on. A window command before its commit point is gone.
[DEDUCED: notes/assumptions/29.md] -/
def State.startCore (cause : Nat) (s : State) : State :=
  let s := s.dropExport
  let stays (q : Queued) : Bool := s.committed q.call || s.engineHeld q.call
  let back := sortQueued (s.hlm.running.filter fun q => !stays q && !q.call.window)
  let kept := s.hlm.running.filter stays
  let gone := s.sbx.entropyWaits.filter fun w => !s.engineHeld w.call
  let t := gone.foldl (fun (t : State) w => t.waitEnd 80 17 (some w.call.stall) 0) s
  let ticked := (back.filter fun q => q.call.ticked).map fun q => { q with call := { q.call with ticked := false } }
  let t : State := { t with
    hlm := { t.hlm with
      running := kept, buffer := (back.filter fun q => !q.call.ticked) ++ t.hlm.buffer, tickQ := ticked ++ t.hlm.tickQ
      dwBusy := kept.any fun q => q.call.window, dwDone := false, dwStatus := 0 }
    mrk := { t.mrk with waits := [] }
    sbx := { t.sbx with entropyWaits := t.sbx.entropyWaits.filter fun w => s.engineHeld w.call }
    clk := { t.clk with tickWork := none }
    rst := { t.rst with
      coreReset := some t.clk.elapsed, coreDeferred := none, cause := setBit t.rst.cause cause, coreCount := satAdd 255 t.rst.coreCount 1 } }
  t.clearExchanges.bump (ctrRcu 3) 1

/-- The Lifecycle unit programs fuses or runs a transition: C waits (R137). -/
def State.coreWaits (s : State) : Bool :=
  s.lcu.job.isSome || !s.lcu.jobs.isEmpty || s.lcu.transition.any fun (t : Transition) => decide (t.phase < 5)

/-- A source of C: inert while rst_busy is 1 and in the quiet state (R119, R126); deferred while fuses are programmed (R137).
[DEDUCED: notes/assumptions/29.md] -/
def State.beginCore (cause : Nat) (s : State) : State :=
  if s.rst.rstBusy ∨ s.rst.phase ≠ .service ∨ s.alr.quiet then s
  else if s.coreWaits then { s with rst := { s.rst with coreDeferred := some cause } }
  else s.startCore cause

/-- A deferred C starts once programming has ended. -/
def State.coreDue (s : State) : State :=
  match s.rst.coreDeferred with
  | none => s
  | some c => if s.coreWaits then s else ({ s with rst := { s.rst with coreDeferred := none } }).beginCore c

/-! ### Fuse bits (R82, R496) -/

/-- The bits of a word that are 1, lowest first. -/
def wordBits (w v : Nat) : List (Nat × Nat) := ((List.range 32).filter fun b => v.testBit b).map fun b => (w, b)

/-- The bits of a byte string laid into words from `w`, the first word holding bytes 0 to 3. -/
def bytesBits (w : Nat) (bs : Bytes) : List (Nat × Nat) :=
  (List.range (bs.length / 4)).flatMap fun k => wordBits (w + k) (leField bs (4 * k) 4)

/-- Every bit of the words from `w` to `v`. -/
def allBits (w v : Nat) : List (Nat × Nat) := (List.range (v + 1 - w)).flatMap fun k => wordBits (w + k) (2 ^ 32 - 1)

/-- Those of the bits that read 0. -/
def Lcu.missing (l : Lcu) (bits : List (Nat × Nat)) : List (Nat × Nat) := bits.filter fun p => !(l.fuse p.1).testBit p.2

/-- The bytes that words `w` to `w + n - 1` hold. -/
def Lcu.wordBytes (l : Lcu) (w n : Nat) : Bytes := (List.range n).flatMap fun k => leBytes 4 (l.fuse (w + k))

/-- The value of a fuse counter: the bits set in two words (R165). -/
def Lcu.svn (l : Lcu) (w : Nat) : Nat := popcount 32 (l.fuse w) + popcount 32 (l.fuse (w + 1))

/-- OPEN and LOCK counts (R498). -/
def Lcu.opens (l : Lcu) : Nat := popcount 16 (l.fuse 2 % 65536)
def Lcu.locks (l : Lcu) : Nat := popcount 16 (l.fuse 2 / 65536)

/-- KEYFUSE_DONE (R497). -/
def Lcu.keyfuseDone (l : Lcu) : Bool := (l.fuse 1).testBit 8

/-- The integrator key digest (R178). -/
def Lcu.integratorDigest (l : Lcu) : Bytes := l.wordBytes 0x32 12

/-! ### States (R495, R497, R498) -/

/-- The STATE pattern of a code. -/
def lcPattern (code : Nat) : Nat :=
  if code = lcTestLocked then 0xF else if code = lcProvision then 0xFF else if code = lcDeployed then 0xFFF
  else if code = lcAnalysis then 0xFFFF else if code = lcScrap then 0xFFFFFFFF else 0

/-- The JOURNAL bit of a target, none for a target without one of its own. -/
def lcJournalBit (code : Nat) : Option Nat :=
  if code = lcTestLocked then some 0 else if code = lcProvision then some 1 else if code = lcDeployed then some 2
  else if code = lcAnalysis then some 3 else if code = lcScrap then some 4 else none

/-- The targets with a JOURNAL bit, highest first. -/
def lcTargets : List Nat := [lcScrap, lcAnalysis, lcDeployed, lcProvision, lcTestLocked]

/-- The highest target whose JOURNAL bit is set, BLANK where none is. -/
def Lcu.journalTarget (l : Lcu) : Nat :=
  (lcTargets.find? fun t => (lcJournalBit t).any fun b => (l.fuse 1).testBit b).getD lcBlank

/-- A decode of the fuse words: a state, or a transition to complete. -/
inductive LcDecode where
  | state (code : Nat)
  | inTransition (target : Nat)
  deriving DecidableEq, Repr

/-- The OPEN and LOCK counts refine a decoded state. -/
def Lcu.tokenState (l : Lcu) (code : Nat) : Nat :=
  if code = lcTestLocked then
    if l.opens = l.locks + 1 then lcTestOpen else if l.opens ≠ l.locks then lcInvalid else code
  else if (code = lcProvision ∨ code = lcDeployed ∨ code = lcAnalysis) ∧ l.opens ≠ l.locks then lcInvalid
  else code

/-- The decode of R498. -/
def Lcu.decode (l : Lcu) : LcDecode :=
  let st := l.fuse 0
  let x := l.journalTarget
  if st = lcPattern x then .state (l.tokenState x)
  else if st ||| lcPattern x = lcPattern x then .inTransition x
  else .state lcInvalid

/-- The state a transition to complete started from: the highest one whose pattern and JOURNAL bit stand, below the target. -/
def Lcu.sourceState (l : Lcu) (target : Nat) : Nat :=
  match lcTargets.find? fun t => decide (t ≠ target ∧ l.fuse 0 ||| lcPattern t = l.fuse 0) &&
      (lcJournalBit t).any fun b => (l.fuse 1).testBit b with
  | some t => l.tokenState t
  | none => lcBlank

/-- The block behaves as SCRAP: SCRAP, INVALID, or a start that could not complete a transition (R508, R510). -/
def State.dead (s : State) : Bool :=
  !s.rst.rstBusy && decide (s.rst.phase = .loading) &&
    (decide (s.lcu.state = lcScrap ∨ s.lcu.state = lcInvalid) || s.lcu.xfail)

/-- Start-up ends without service (R510): rst_busy falls and rst_req is 0. [DEDUCED: notes/assumptions/32.md] -/
def State.enterDead (s : State) : State := { s with rst := { s.rst with rstBusy := false, rstReq := false } }

/-! ### Random NONCE (R501) -/

/-- XS_LCU_NONCE is drawn anew. -/
def State.newNonce (s : State) : State := { s.tookDraw with lcu := { s.lcu with nonce := s.drawn 32 } }

/-! ### The DRK (R178 to R181) -/

/-- The first word of bank `b`. -/
def bankWord (b : Nat) : Nat := if b = 0 then 0x10 else 0x21

/-- A bank is complete; a bank is empty (R179). -/
def Lcu.bankComplete (l : Lcu) (b : Nat) : Bool := (l.fuse 0x3E).testBit b
def Lcu.bankEmpty (l : Lcu) (b : Nat) : Bool := (List.range 17).all fun k => decide (l.fuse (bankWord b + k) = 0)

/-- The DRK of a bank: its two shares added. -/
def Lcu.bankKey (l : Lcu) (b : Nat) : Bytes := xorBytes (l.wordBytes (bankWord b) 8) (l.wordBytes (bankWord b + 8) 8)

/-- XS-DRK-CHECK (R183). -/
def drkCheck (drk : Bytes) : Bytes := kdf drk "XS-DRK-CHECK" [] 32

/-- The bank the Strongbox selects, where the state lets it use a DRK (R179, R495, R509). -/
def Lcu.bank? (l : Lcu) : Option Nat :=
  if l.state ≠ lcProvision ∧ l.state ≠ lcDeployed then none
  else if l.bankComplete 1 then some 1 else if l.bankComplete 0 then some 0 else none

/-- The masked root register is loaded (R179, R180): the selected bank's key, or the test DRK; a complete bank that fails its check is a
tamper-class event. While the zeroize net is asserted nothing is loaded (R205). -/
def State.loadDrk (s : State) : State :=
  if s.sbx.zeroNet then s else
    match s.lcu.bank? with
    | none => { s with sbx := { s.sbx with root := zeros 32, drkOk := true, drkTest := true, drkBank := 0 } }
    | some b =>
      let k := s.lcu.bankKey b
      if drkCheck k = s.lcu.wordBytes (bankWord b + 16) 1 then
        { s with sbx := { s.sbx with root := k, drkOk := true, drkTest := false, drkBank := b } }
      else ({ s with rst := { s.rst with noLoad := true } }).alarmTamper unitStrongbox 5 b

/-! ### The Steelyard's seed (R577, R578) -/

/-- The seed check word of a seed. -/
def seedCheck (seed : Bytes) : Bytes := (sha384 ((padTo 97 (Config.publicKey 1 (stySeed seed 1))).take 97)).take 4

/-- The seed the fuses hold. -/
def Lcu.stySeed (l : Lcu) : Bytes := xorBytes (l.wordBytes 0xE0 8) (l.wordBytes 0xE8 8)

/-- The Steelyard derives its keys from the fused seed, or marks them failed. -/
def State.useSeed (s : State) : State :=
  let seed := s.lcu.stySeed
  if seedCheck seed = s.lcu.wordBytes 0xF0 1 then
    { s with sty := { s.sty with seed, keyOk := true, keyFailed := false, testKey := false } }
  else { s with sty := { s.sty with seed := [], keyOk := false, keyFailed := true, testKey := false } }

/-- Keys from the zero seed, marked TEST (R578). -/
def State.useTestSeed (s : State) : State :=
  { s with sty := { s.sty with seed := zeros 32, keyOk := false, keyFailed := false, testKey := true } }

/-! ### Fuse programming (R82, R504, R508) -/

/-- Programming joins the port's queue. -/
def State.queueJob (goal : FuseGoal) (bits : List (Nat × Nat)) (s : State) : State :=
  { s with lcu := { s.lcu with jobs := s.lcu.jobs ++
    [{ goal, bits, stage := 0, retried := false, since := s.clk.elapsed }] } }

/-- A transition's programming, which nothing else delays. -/
def State.lifecycleJob (bits : List (Nat × Nat)) (s : State) : State :=
  { s with lcu := { s.lcu with jobs :=
    { goal := .lifecycle, bits, stage := 0, retried := false, since := s.clk.elapsed } :: s.lcu.jobs } }

/-! ### Wipes (R500, R505) -/

/-- 4 KiB sectors `a` to `b` of the NVM device. -/
def sectors (a b : Nat) : List Nat := (List.range (b + 1 - a)).map (· + a)

/-- The NVM sectors a transition from `source` to `target` erases where they are not blank. -/
def wipeRange (source target : Nat) : List Nat :=
  if target = lcProvision then sectors 0x800 0x1FFF
  else if target = lcDeployed then sectors 0xA00 0xBFF ++ sectors 0xC10 0x1FFF
  else if target = lcAnalysis then sectors 0xC00 0x1FFF
  else if target = lcScrap then sectors 0 0x1FFF
  else (fun _ => []) source

/-- The length of a Settings copy (R170). -/
def SettingsCopy.length (c : SettingsCopy) : Nat :=
  (c.records.map fun r => 8 + (r.data.length + 7) / 8 * 8).foldl (· + ·) 48

/-- A 4 KiB piece of a slot that does not read as all ones. -/
def slotUsed (b : Bytes) (k : Nat) : Bool := (slice b (4096 * k) 4096).any fun x => decide (x ≠ 0xFF)

/-- The sector does not read as all 0xFF. -/
def Nvm.used (n : Nvm) (k : Nat) : Bool :=
  let copy (c : Option SettingsCopy) (i : Nat) : Bool := c.any fun c => decide (i < (c.length + 4095) / 4096)
  if k < 0x400 then slotUsed n.slotA k
  else if k < 0x800 then slotUsed n.slotB (k - 0x400)
  else if k < 0x900 then copy n.settingsA (k - 0x800)
  else if k < 0xA00 then copy n.settingsB (k - 0x900)
  else if k < 0xC00 then (n.journal.any fun x => decide (x.index = k - 0xA00)) || n.journalStale.contains (k - 0xA00)
  else if k < 0xC10 then n.identity.any fun b => decide (4096 * (k - 0xC00) < b.length)
  else if k < 0xC18 then n.standbyA.isSome && decide (k < 0xC13)
  else if k < 0xC20 then n.standbyB.isSome && decide (k < 0xC1B)
  else n.sealRec.isSome && decide (0x1FFE ≤ k)

/-- 4 KiB of a slot erased. -/
def eraseSlot (b : Bytes) (k : Nat) : Bytes :=
  if b.length ≤ 4096 * (k + 1) then b.take (4096 * k)
  else b.take (4096 * k) ++ List.replicate 4096 0xFF ++ b.drop (4096 * (k + 1))

/-- A sector erased: what stood in it no longer opens. -/
def Nvm.erase (n : Nvm) (k : Nat) : Nvm :=
  if k < 0x400 then { n with slotA := eraseSlot n.slotA k }
  else if k < 0x800 then { n with slotB := eraseSlot n.slotB (k - 0x400) }
  else if k < 0x900 then { n with settingsA := none }
  else if k < 0xA00 then { n with settingsB := none }
  else if k < 0xC00 then { n with
    journal := n.journal.filter fun x => x.index ≠ k - 0xA00, journalStale := n.journalStale.filter fun i => i ≠ k - 0xA00 }
  else if k < 0xC10 then { n with identity := none }
  else if k < 0xC18 then { n with standbyA := none }
  else if k < 0xC20 then { n with standbyB := none }
  else { n with sealRec := none }

/-- The transition's wipe includes the zeroize net; the anchor clear; the fuse words (R500). -/
def lcZeroizes (target : Nat) : Bool := !decide (target = lcTestOpen ∨ target = lcKeyfuse)
def lcClearsAnchor (target : Nat) : Bool := decide (target = lcDeployed ∨ target = lcAnalysis ∨ target = lcScrap)
def lcWipeBits (target : Nat) : List (Nat × Nat) := if target = lcScrap then allBits 0x10 0x31 ++ allBits 0x50 0xFF else []

/-- The bits of step 1: the target's JOURNAL bit. -/
def lcJournalBits (target : Nat) : List (Nat × Nat) := ((lcJournalBit target).map fun b => (1, b)).toList

/-- The lowest bit of `n` from `lo` on that reads 0 in word 2. -/
def Lcu.nextToken (l : Lcu) (lo : Nat) : List (Nat × Nat) :=
  (((List.range 16).find? fun b => !(l.fuse 2).testBit (lo + b)).map fun b => (2, lo + b)).toList

/-- The bits of step 3 (R504): STATE bits, one OPEN or LOCK bit, the integrator digest with KEYFUSE_DONE, and the token root. -/
def Lcu.stateBits (l : Lcu) (t : Transition) : List (Nat × Nat) :=
  if t.target = lcKeyfuse then bytesBits 0x32 (t.auth.take 48) ++ [(1, 8)]
  else if t.target = lcTestOpen then l.nextToken 0
  else if t.target = lcTestLocked ∧ t.source = lcTestOpen then l.nextToken 16
  else (if t.target = lcTestLocked ∧ ¬ t.resumed then bytesBits 0x40 (t.auth.take 48) else []) ++ wordBits 0 (lcPattern t.target)

/-- Fuse bits a transition has still to program (R517 BITS_LEFT). -/
def Lcu.bitsLeft (l : Lcu) : Nat :=
  match l.transition with
  | none => 0
  | some t =>
    (if t.phase ≤ 1 then (l.missing (lcJournalBits t.target)).length else 0) +
      (if t.phase ≤ 2 then (l.missing (lcWipeBits t.target)).length else 0) +
      (if t.phase ≤ 3 then (l.missing (l.stateBits t)).length else 0)

/-! ### The transition sequence (R504 to R508) -/

/-- The transition's fields replaced. -/
def State.modTransition (f : Transition → Transition) (s : State) : State :=
  { s with lcu := { s.lcu with transition := s.lcu.transition.map f } }

/-- The wipe begins (step 2): the zeroize net with the quiet state, the anchor, then the sectors that are not blank. A resumed transition
meets a block that the reset has zeroized already (R507). -/
def State.beginWipe (t : Transition) (s : State) : State :=
  let busy := s.hlm.dwBusy && t.call.isSome
  let u := if lcZeroizes t.target ∧ ¬ t.resumed then (if s.sbx.zeroNet then s else s.zeroize).enterQuiet else s
  let u := if lcClearsAnchor t.target then u.clearAnchor else u
  let es := (wipeRange t.source t.target).filter u.nvm.used
  let u := ({ u with hlm := { u.hlm with dwBusy := u.hlm.dwBusy || busy } }).modTransition fun t => { t with phase := 2, erases := es }
  match es with
  | [] => u.lifecycleJob (lcWipeBits t.target)
  | k :: _ => u.emit (.nvmErase k)

/-- Step 5 (R506): the new state is decoded; TEST_OPEN entry and KEYFUSE take effect, every other transition sets rst_req. The TAP is
forced to IDCODE, the window command records ST_OK, the NONCE is redrawn. -/
def State.endTransition (t : Transition) (code : Nat) (s : State) : State :=
  let stays := decide (t.target = lcTestOpen ∨ t.target = lcKeyfuse)
  let u := { s with
    lcu := { s.lcu with
      state := code, tapIr := 1
      transition := if stays then none else some { t with phase := 5 } }
    rst := { s.rst with rstReq := s.rst.rstReq || !stays } }
  let u := (u.event evLcDone unitLifecycle none t.target ((u.clk.elapsed - t.since) / 1000000)).newNonce
  match t.call with
  | none => u
  | some c =>
    let r := c.record stOk
    { u with hlm := { u.hlm.drop c with
      dwBusy := false, dwDone := true, dwStatus := stOk, dwBuf := r.words ++ u.hlm.dwBuf.drop 8 } }

/-- A transition that cannot complete (R508): XFAIL; at start-up the block then behaves as in SCRAP. -/
def State.failTransition (s : State) : State :=
  match s.lcu.transition with
  | none => s
  | some t =>
    let u := { s with lcu := { s.lcu with transition := none, xfail := true } }
    let u := u.newNonce
    if t.resumed then u.enterDead else u

/-- The fuse and trim load of step 2 of R125 (R166): a failed trim group is a tamper-class event and no Almanac load follows; else the
trims, the DRK and the Steelyard's seed. [DEDUCED: notes/assumptions/32.md] -/
def State.loadFuses (s : State) : State :=
  match s.lcu.trims.failed with
  | some g => ({ s with rst := { s.rst with noLoad := true } }).alarmTamper unitAlmanac 4 g
  | none =>
    let t := s.lcu.trims
    let u := ({ s with cht := { s.cht with
      spareLanes := t.lanes.map fun (p : Nat × Nat) => (p.1, p.2, false), ksBank := t.bank, ksField := false, rows := t.rows } }).loadDrk
    if ¬ u.build.sty ∨ u.sbx.zeroNet then u
    else if u.lcu.state = lcProvision then
      if (List.range 17).all fun k => decide (u.lcu.fuse (0xE0 + k) = 0) then
        let a := u.drawn 32
        let b := u.tookDraw.drawn 32
        u.tookDraw.tookDraw.useTestSeed.queueJob .styseed
          (bytesBits 0xE0 a ++ bytesBits 0xE8 b ++ bytesBits 0xF0 (seedCheck (xorBytes a b)))
      else u.useSeed
    else if u.lcu.state = lcDeployed then u.useSeed
    else u.useTestSeed

/-- Step 4: words 0 to 2 are decoded again and must give the target (R504). A resumed transition goes on with step 2 of R125.
[DEDUCED: notes/assumptions/40.md] -/
def State.verifyTransition (t : Transition) (s : State) : State :=
  let want := if t.target = lcKeyfuse then lcProvision else t.target
  if s.lcu.decode ≠ .state want then s.failTransition
  else if t.resumed then
    let u : State := { s with
      lcu := { s.lcu with state := want, transition := none, resumed := true }
      rst := { s.rst with cause := setBit s.rst.cause causeLcResume } }
    let u := u.event evLcResumed unitLifecycle none t.target t.sectors
    if want = lcScrap then u.enterDead else u.loadFuses
  else s.endTransition t want

/-- A phase of the running transition has ended: the next one begins (R504). -/
def State.nextPhase (s : State) : State :=
  match s.lcu.transition with
  | none => s
  | some t =>
    if t.phase ≤ 1 then s.beginWipe t
    else if t.phase = 2 then (s.modTransition fun t => { t with phase := 3 }).lifecycleJob (s.lcu.stateBits t)
    else if t.phase = 3 then s.verifyTransition { t with phase := 4 }
    else s

/-- Programming has ended (R165, R181, R504, R578, R580). -/
def State.jobDone (goal : FuseGoal) (s : State) : State :=
  match goal with
  | .lifecycle => s.nextPhase
  | .drk bank c => s.loadDrk.finishOk c (leBytes 1 bank)
  | .svn c => s.finish c stOk
  | .styseed => s.useSeed
  | .sealBreak => s
  | .firstReading => s

/-- The fuse port takes up the next bit; programming with no bit left to program ends, and the next job follows. -/
def State.fuseRun : Nat → State → State
  | 0, s => s
  | n + 1, s =>
    match s.lcu.job, s.lcu.jobs with
    | none, [] => s
    | none, j :: js => State.fuseRun n { s with lcu := { s.lcu with job := some j, jobs := js } }
    | some j, _ =>
      if j.stage ≠ 0 then s
      else match s.lcu.missing j.bits with
        | [] => State.fuseRun n (({ s with lcu := { s.lcu with job := none } }).jobDone j.goal)
        | (w, b) :: rest =>
          let j' : FuseJob := { j with bits := (w, b) :: rest, stage := 1, since := s.clk.elapsed }
          { s.emit (.fusePgm w b) with lcu := { s.lcu with job := some j' } }

/-- Programming is taken up; sixteen rounds cover every chain of jobs without a bit to program. -/
def State.runFuses (s : State) : State := (s.fuseRun 16).coreDue

/-! ### The port's answers (R82, R508) -/

/-- A bit could not be programmed a second time, or its macro did not answer: the attempt ends (R508). -/
def State.dropJob (s : State) : State :=
  match s.lcu.job with
  | none => s
  | some j =>
    let u := { s with lcu := { s.lcu with job := none } }
    if j.goal = .lifecycle then u.failTransition else u

/-- FUSE_PGM_DONE (R82, R504): the bit is programmed and its word is read back. -/
def execFusePgmDone (s : State) : Host.Outcome State Fault Refusal :=
  let t := s.begin
  done (match t.lcu.job with
    | none => t
    | some j => match j.bits with
      | [] => t
      | (w, b) :: _ =>
        if j.stage ≠ 1 then t
        else { t.emit (.fuseRd w) with lcu := { t.lcu.programBit w b with job := some { j with stage := 2, since := t.clk.elapsed } } })

/-- The programming is DRK_GENERATE's. [DEDUCED: notes/assumptions/41.md] -/
def FuseJob.forDrk (j : FuseJob) : Bool :=
  match j.goal with
  | .drk _ _ => true
  | _ => false

/-- The bit in hand failed its verify: it is programmed once more; a second error, and every one of DRK_GENERATE, is a tamper-class event
(R181, R508). [DEDUCED: notes/assumptions/41.md] -/
def State.pgmError (s : State) : State :=
  match s.lcu.job with
  | none => s
  | some j => match j.bits with
    | [] => s
    | (w, b) :: _ =>
      if j.retried ∨ j.forDrk = true then (s.alarmTamper unitLifecycle 7 (w + 256 * b)).dropJob
      else { s.emit (.fusePgm w b) with lcu := { s.lcu with job := some { j with stage := 1, retried := true, since := s.clk.elapsed } } }

/-- FUSE_PGM_ERR (R508). [DEDUCED: notes/assumptions/41.md] -/
def execFusePgmErr (s : State) : Host.Outcome State Fault Refusal :=
  let t := s.begin
  done (if (t.lcu.job.map fun j => decide (j.stage = 1)).getD false then t.pgmError else t)

/-- FUSE_READ_RETURN (R82): the word read back shows the bit in hand, and the next one follows; else the word was read for the TAP, which
shifts it out (R511). -/
def execFuseReadReturn (data : Nat) (s : State) : Host.Outcome State Fault Refusal :=
  let t := s.begin
  done (match t.lcu.job with
    | some j => match j.stage, j.bits with
      | 2, (_, b) :: rest =>
        if data.testBit b then
          ({ t with lcu := { t.lcu with job := some { j with bits := rest, stage := 0, retried := false } } }).runFuses
        else t.pgmError
      | _, _ => t
    | none => match t.lcu.tapRead with
      | some _ => { t.emit (.tap (leBytes 4 data)) with lcu := { t.lcu with tapRead := none } }
      | none => t)

/-- FUSE_PORT_TIMEOUT (R82): no fuse_pgm_done within 100 µs, or no fuse_rvalid within 1 µs, is a tamper-class event. -/
def execFusePortTimeout (s : State) : Host.Outcome State Fault Refusal :=
  let t := s.begin
  done (match t.lcu.job with
    | some j => match j.bits with
      | (w, _) :: _ =>
        if j.stage ≠ 0 ∧ t.expired j.since (if j.stage = 1 then 100000 else 1000) then (t.alarmTamper unitLifecycle 3 w).dropJob else t
      | [] => t
    | none => match t.lcu.tapRead with
      | some w => ({ t with lcu := { t.lcu with tapRead := none } }).alarmTamper unitLifecycle 3 w
      | none => t)

/-- NVM_ERASE_DONE (R149, R505): the wipe's next sector is erased, or its fuse step follows; else the Journal goes on.
[DEDUCED: notes/assumptions/39.md] -/
def execNvmEraseDone (s : State) : Host.Outcome State Fault Refusal :=
  let t := s.begin
  done (match t.lcu.transition with
    | some x => match x.phase, x.erases with
      | 2, k :: rest =>
        let u := ({ t with nvm := t.nvm.erase k }).modTransition fun x => { x with erases := rest, sectors := satAdd 2047 x.sectors 1 }
        (match rest with
          | [] => (u.lifecycleJob (lcWipeBits x.target)).runFuses
          | k :: _ => u.emit (.nvmErase k))
      | _, _ => t.journalErased
    | none => t.journalErased)

/-- LC_TRANSITION_RESUME (R507): the wipe, state and verify steps toward the journalled target run again, before step 2 of R125. -/
def execLcTransitionResume (s : State) : Host.Outcome State Fault Refusal :=
  let t := s.begin
  done (match t.lcu.transition with
    | some x => if x.resumed ∧ x.phase = 0 then (t.beginWipe x).runFuses else t
    | none => t)

/-! ### Requests (R499 to R503, R512, R513) -/

/-- A row of R500: whether the TAP may ask for it; none where it is not permitted. -/
def lcRow (from_ target : Nat) : Option Bool :=
  if from_ = lcBlank ∧ target = lcTestLocked then some true
  else if from_ = lcTestLocked ∧ target = lcTestOpen then some true
  else if from_ = lcTestOpen ∧ target = lcTestLocked then some true
  else if from_ = lcTestLocked ∧ target = lcProvision then some true
  else if from_ = lcProvision ∧ (target = lcKeyfuse ∨ target = lcDeployed) then some false
  else if from_ = lcDeployed ∧ (target = lcAnalysis ∨ target = lcScrap) then some false
  else if from_ ≠ lcScrap ∧ target = lcScrap then some true
  else none

/-- AUTH is laid out as the row says: the bytes it does not use are 0 (R500, R501). -/
def authFormed (from_ target : Nat) (auth : Bytes) : Bool :=
  let zeroFrom (n : Nat) : Bool := ((padTo 192 auth).drop n).all fun b => decide (b = 0)
  if from_ = lcBlank ∧ target = lcTestLocked then zeroFrom 48
  else if target = lcTestOpen ∨ target = lcKeyfuse then zeroFrom 48
  else if target = lcDeployed ∨ target = lcAnalysis then zeroFrom 12 && decide (leField auth 8 4 = 4728)
  else zeroFrom 0

/-- The transition is authorised by a signature (R501). -/
def lcSigned (target : Nat) : Bool := decide (target = lcDeployed ∨ target = lcAnalysis)

/-- SHA-384 applied `n` times. -/
def hashTimes : Nat → Bytes → Bytes
  | 0, b => b
  | n + 1, b => hashTimes n (sha384 b)

/-- The root of 48 zero bytes is refused (R499). -/
def zeroDigest (b : Bytes) : Bool := (padTo 48 b).all fun x => decide (x = 0)

/-- The test token opens the part (R499): its hash, once more than the OPEN count, is the root. -/
def Lcu.tokenOk (l : Lcu) (token : Bytes) : Bool :=
  let root := l.wordBytes 0x40 12
  !zeroDigest root && decide (hashTimes (l.opens + 1) ((padTo 48 token).take 48) = root)

/-- The digest contradicts no bit already programmed, and KEYFUSE_DONE is 0 (R503). -/
def Lcu.keyfuseOk (l : Lcu) (digest : Bytes) : Bool :=
  !l.keyfuseDone && (List.range 12).all fun k => decide (l.fuse (0x32 + k) ||| leField digest (4 * k) 4 = leField digest (4 * k) 4)

/-- The preconditions of R502; `identityOk`: the identity record matches the DeviceID keys. -/
def State.deployOk (s : State) (identityOk : Bool) : Bool :=
  s.lcu.keyfuseDone && s.ald.integratorChecked && s.sbx.drkOk && !s.sbx.drkTest && s.nvm.identity.isSome && identityOk &&
    decide (s.lcu.opens = s.lcu.locks)

/-- A transition is running (R508). -/
def State.lcRunning (s : State) : Bool := s.lcu.transition.isSome

/-- The DETAIL that refuses a request (R513); `sigOk`: both signatures of R501 verify over the challenge. -/
def State.lcRefusal (s : State) (target : Nat) (auth : Bytes) (tap sigOk identityOk : Bool) : Option Nat :=
  if s.lcRunning then some 7
  else match lcRow s.lcu.state target with
    | none => some 1
    | some byTap =>
      if tap ∧ ¬ byTap then some 2
      else if s.lcu.state = lcBlank ∧ target = lcTestLocked ∧ zeroDigest (auth.take 48) then some 3
      else if target = lcTestOpen ∧ 16 ≤ s.lcu.opens then some 5
      else if target = lcTestOpen ∧ ¬ s.lcu.tokenOk (auth.take 48) then some 3
      else if target = lcKeyfuse ∧ ¬ s.lcu.keyfuseOk (auth.take 48) then some 6
      else if target = lcDeployed ∧ ¬ s.deployOk identityOk then some 4
      else if lcSigned target ∧ ¬ sigOk then some 3
      else none

/-- A refusal: DETAIL kept, EV_LC_REFUSED, the NONCE redrawn (R501, R514, R517). -/
def State.lcRefused (target detail : Nat) (s : State) : State :=
  (({ s with lcu := { s.lcu with detail } }).event evLcRefused unitLifecycle none target detail).newNonce

/-- A transition that passed its checks begins with its journal step (R504). -/
def State.beginTransition (target : Nat) (auth : Bytes) (tap : Bool) (call : Option Call) (s : State) : State :=
  let x : Transition :=
    { target, source := s.lcu.state, phase := 1, viaTap := tap, call, resumed := false, since := s.clk.elapsed, sectors := 0, erases := [], auth }
  (({ s with lcu := { s.lcu with transition := some x, tapOrigin := tap } }).lifecycleJob (lcJournalBits target)).runFuses

/-- LC_TRANSITION (R500 to R504), through the direct window. -/
def execLcTransition (c : Call) (target : Nat) (auth : Bytes) (sig : BufRead) (sigOk identityOk : Bool) (s : State) :
    Host.Outcome State Fault Refusal :=
  if s.lcu.transition.any fun x => decide (x.call = some c) then done s.begin
  else done (s.command c 0x0B01 fun t =>
    let refuse (d : Nat) (t : State) : State := (t.lcRefused target d).finishDetail c stLifecycle d
    let t : State := { t with lcu := { t.lcu with tapOrigin := if t.lcRunning then t.lcu.tapOrigin else false } }
    if t.lcRunning then refuse 7 t
    else if (lcRow t.lcu.state target).isNone then refuse 1 t
    else if ¬ authFormed t.lcu.state target auth then t.newNonce.badArg c 8
    else
      let failed := match sig with
        | .failed => lcSigned target && !(target = lcDeployed && !t.deployOk identityOk)
        | .ok _ => false
      let t := if lcSigned target then t.emit (.memRead 0 (leField auth 0 8) 4728) else t
      if failed then t.newNonce.finish c stMemory
      else match t.lcRefusal target auth false sigOk identityOk with
        | some d => refuse d t
        | none => t.beginTransition target auth false (some c))

/-- The TAP instruction acts in the decoded state (R511). [DEDUCED: notes/assumptions/21.md] -/
def tapActs (ir state : Nat) : Bool :=
  let open_ := decide (state = lcBlank ∨ state = lcTestOpen ∨ state = lcAnalysis)
  if ir = 0x10 then true
  else if ir = 0x11 then decide (state ≠ lcDeployed ∧ state ≠ lcScrap ∧ state ≠ lcInvalid)
  else if ir = 0x12 then decide (state ≠ lcDeployed ∧ state ≠ lcScrap)
  else if ir = 0x20 ∨ ir = 0x21 ∨ ir = 0x22 ∨ ir = 0x30 ∨ ir = 0x31 then open_
  else false

/-- LC_REQ (R511, R512): a TAP request, run at Update-DR; XS_LCU_XSTAT takes its result. A `coincident` window request at the same rclk
edge runs instead (R508). -/
def execLcReq (target : Nat) (auth : Bytes) (coincident : Bool) (s : State) : Host.Outcome State Fault Refusal :=
  let t := s.begin
  done (if t.rst.phase = .inReset ∨ ¬ tapActs 0x12 t.lcu.state then { t with lcu := { t.lcu with tapIr := 0x12 } } else
    let t : State := { t with lcu := { t.lcu with tapIr := 0x12, tapOrigin := if t.lcRunning then t.lcu.tapOrigin else true } }
    if coincident then t.lcRefused target 7
    else match t.lcRefusal target auth true false false with
      | some d => t.lcRefused target d
      | none => if authFormed t.lcu.state target auth then t.beginTransition target auth true none else t.newNonce)

/-! ### DRK_GENERATE and SVN_ADVANCE (R165, R181) -/

/-- DRK_GENERATE (R181): shares drawn and programmed with their check word, then the COMPLETE bit. [DEDUCED: notes/assumptions/41.md] -/
def execDrkGenerate (c : Call) (s : State) : Host.Outcome State Fault Refusal :=
  if (s.lcu.job.any fun j => decide (j.call? = some c)) || s.lcu.jobs.any fun j => decide (j.call? = some c) then done s.begin
  else done (s.command c 0x0207 fun t =>
    if t.lcu.state ≠ lcProvision ∨ ¬ t.lcu.bankEmpty 1 ∨ t.lcu.bankComplete 1 then t.finishDetail c stLifecycle 1
    else t.withEntropy c fun t =>
      let bank := if t.lcu.bankEmpty 0 then 0 else 1
      let a := t.drawn 32
      let b := t.tookDraw.drawn 32
      let w := bankWord bank
      let bits := bytesBits w a ++ bytesBits (w + 8) b ++ bytesBits (w + 16) (drkCheck (xorBytes a b)) ++ [(0x3E, bank)]
      (t.tookDraw.tookDraw.queueJob (.drk bank c) bits).runFuses)

/-- The lowest clear bits of a counter that bring it up to an SVN (R496). -/
def Lcu.svnBits (l : Lcu) (w svn : Nat) : List (Nat × Nat) :=
  (l.missing (allBits w (w + 1))).take (svn - l.svn w)

/-- SVN_ADVANCE (R165): only in full mode. -/
def execSvnAdvance (c : Call) (s : State) : Host.Outcome State Fault Refusal :=
  if (s.lcu.job.any fun j => decide (j.call? = some c)) || s.lcu.jobs.any fun j => decide (j.call? = some c) then done s.begin
  else done (s.command c 0x0A02 fun t =>
    if ¬ t.ald.full then t.finish c stHarbour
    else (t.queueJob (.svn c) (t.lcu.svnBits 4 t.cfg.almSvn ++ t.lcu.svnBits 6 t.cfg.patchSvn)).runFuses)

end Sys2Proof.Machine
end

