-- ==== Sys2Proof/Machine/Image.lean ====
section
/-!
DEFINITION. Almanac images (spec/06_almanac_bringup.md R153 to R163, R602): the header, the sections, the checks in their order with the code
each rejects with, and the configuration an image carries.
-/

namespace Sys2Proof.Machine

/-- A check: the code it rejects with, unless it holds. -/
def need (code : Nat) (ok : Bool) : Except Nat Unit := if ok then .ok () else .error code

/-- Every byte of a range is 0. -/
def zeroBytes (b : Bytes) (off len : Nat) : Bool := (slice b off len).all fun x => decide (x = 0)

/-- A value lies in a range, both ends included. -/
def inRange (lo hi x : Nat) : Bool := decide (lo ≤ x ∧ x ≤ hi)

/-! ### The header (R153, R163) -/

/-- XS_CAPS of a build (R596). -/
def Build.caps (b : Build) : Nat :=
  b.mseCount + b.lseCount * 2 ^ 5 + b.hseCount * 2 ^ 11 + bit b.tagSb * 2 ^ 14 + bit b.tagCo * 2 ^ 15 + bit b.sty * 2 ^ 16 +
    bit b.tol * 2 ^ 17 + bit b.xck * 2 ^ 18 + bit b.x2 * 2 ^ 19 + bit b.variantL * 2 ^ 20

/-- A TARGET_VERSION this version accepts (R153): the major equal, the minor not above. -/
def versionOk (v : Nat) : Bool := decide (v / 2 ^ 24 = 3 ∧ v / 2 ^ 16 % 256 ≤ 2)

def imageSize (b : Bytes) : Nat := leField b 0x8 4
def imageSeqOf (b : Bytes) : Nat := leField b 0xC 4

/-- The candidacy checks of a slot (R163 step 2), 0 where it is a candidate. -/
def State.candidacy (s : State) (b : Bytes) : Nat :=
  if leField b 0 4 ≠ 0x4D415358 ∨ leField b 4 2 ≠ 3 ∨ leField b 6 2 ≠ 0x80 then 0x1
  else if imageSize b % 8 ≠ 0 ∨ ¬ inRange 0x2FF8 0x400000 (imageSize b) then 0x2
  else if leField b 0x14 4 ≠ s.build.caps then 0x3
  else if ¬ versionOk (leField b 0x10 4) then 0x4
  else if 64 < leField b 0x18 1 ∨ 64 < leField b 0x19 1 then 0xC
  else if leField b 0x18 1 < s.lcu.svn 4 then 0x9
  else if leField b 0x19 1 < s.lcu.svn 6 then 0xA
  else 0

/-! ### Sections (R154, R155) -/

/-- The body of an image. -/
def imageBody (b : Bytes) : Bytes := slice b 0xB08 (imageSize b - 9456 - 0xB08)

/-- The sections of a body: TYPE and payload; none where the framing is wrong. -/
def parseSections : Nat → Bytes → Option (List (Nat × Bytes))
  | _, [] => some []
  | 0, _ => none
  | n + 1, b =>
    let len := leField b 4 4
    let padded := (len + 7) / 8 * 8
    if b.length < 8 + padded ∨ leField b 2 2 ≠ 0 ∨ ¬ zeroBytes b (8 + len) (padded - len) then none
    else (parseSections n (b.drop (8 + padded))).map fun l => (leField b 0 2, slice b 8 len) :: l

/-- The payload of a section of a type. -/
def almSection? (type : Nat) (l : List (Nat × Bytes)) : Option Bytes := (l.find? fun p => p.1 = type).map (·.2)

/-- The lengths the section tables give (R155 to R159, R395, R528, R593). [DEDUCED: notes/assumptions/38.md] -/
def sectionLength (type : Nat) (p : Bytes) : Bool :=
  if type = 0x8001 then decide (p.length = 16)
  else if type = 0x8002 then decide (p.length = 12)
  else if type = 0x8003 then decide (p.length = 8)
  else if type = 0x8004 then decide (p.length = 352)
  else if type = 0x8005 then decide (p.length = 8 + 64 * leField p 0 2)
  else if type = 0x8006 then decide (p.length = 8 + 16 * leField p 0 2)
  else if type = 0x8007 then decide (p.length = 16)
  else if type = 0x8008 then decide (p.length = 192)
  else true

/-- SECTION_COUNT, the repetition limits, the lengths and the mandatory sections. -/
def sectionsFramed (count : Nat) (l : List (Nat × Bytes)) : Bool :=
  decide (l.length = count) &&
    decide (((l.map (·.1)).filter fun t => t ≠ 0x8009).Nodup) && decide ((l.filter fun p => p.1 = 0x8009).length ≤ 8) &&
    (l.all fun p => sectionLength p.1 p.2) &&
    [0x8002, 0x8004, 0x8005, 0x8006].all fun t => (almSection? t l).isSome

/-- A TYPE the block knows (R155). -/
def knownSection (type : Nat) : Bool := inRange 0x8001 0x8009 type

/-! ### Section payloads (R155 to R160 and the owning chapters) -/

/-- TICK_EPOCH (R155). -/
def parseEpoch (p : Bytes) (tickNs : Nat) : Except Nat EpochCfg := do
  let c : EpochCfg := { n := leField p 0 2, wLocal := leField p 2 1, wPool := leField p 3 1, boundLocal := leField p 4 4, boundPool := leField p 8 4 }
  need 0xC (inRange 1 65535 c.n && inRange 1 200 c.wLocal && inRange 1 200 c.wPool)
  need 0xC (decide (c.wLocal * c.n * tickNs / 10 ^ 9 ≤ c.boundLocal ∧ c.wPool * c.n * tickNs / 10 ^ 9 ≤ c.boundPool))
  pure c

/-- CLOCK_RESET (R156). -/
def parseClock (p : Option Bytes) : Except Nat ClockCfg :=
  match p with
  | none => .ok ClockCfg.absent
  | some p => do
    let c : ClockCfg := { tFreq := leField p 0 2, tIdle := leField p 2 2, tStop := leField p 4 4, tPart := leField p 8 2, tWdog := leField p 0xA 2 }
    need 0xC (inRange 1 1000 c.tFreq && inRange 1 1000 c.tIdle && inRange 1 1000000 c.tStop && inRange 1 10000 c.tPart &&
      inRange 1 1000 c.tWdog && zeroBytes p 0xC 4)
    pure c

/-- TAMPER (R528). -/
def parseTamper (p : Option Bytes) : Except Nat (BitVec 8) :=
  match p with
  | none => .ok 0xFF
  | some p => do
    need 0xC (decide (leField p 0 1 ≠ 0) && zeroBytes p 1 7)
    pure (BitVec.ofNat 8 (leField p 0 1))

/-- A map of `n` tiles in a field of `size` bytes: a permutation, then zeros (R157). -/
def permutationOk (p : Bytes) (off size n : Nat) : Bool :=
  let m := (List.range n).map fun i => leField p (off + i) 1
  (m.all fun x => decide (x < n)) && decide m.Nodup && zeroBytes p (off + n) (size - n)

/-- The pool windows of a CHART payload. -/
def parsePools (p : Bytes) : List PoolWindow :=
  (List.range (leField p 5 1)).map fun j =>
    let o := 0x60 + 16 * j
    { base := leField p o 4, size := leField p (o + 4) 4, mse := leField p (o + 8) 1 }

/-- The windows keep R157, R169 and R288. -/
def poolsOk (p : Bytes) (limit mseCount : Nat) (ws : List PoolWindow) : Bool :=
  (ws.all fun w => inRange 1 (2 ^ 22 - 1) w.size && decide (limit ≤ w.base ∧ w.base + w.size ≤ 2 ^ 32 ∧ w.mse < mseCount)) &&
    decide (ws.Pairwise fun a b => a.base + a.size ≤ b.base ∨ b.base + b.size ≤ a.base) &&
    decide ((ws.map (·.size)).foldl (· + ·) 0 ≤ 458752) &&
    ((List.range ws.length).all fun j => zeroBytes p (0x60 + 16 * j + 9) 7) &&
    zeroBytes p (0x60 + 16 * ws.length) (256 - 16 * ws.length)

/-- CHART (R157, R169, R287). -/
def parseChart (b : Build) (p : Bytes) : Except Nat ChartCfg := do
  let count := leField p 0xC 2
  let c : ChartCfg :=
    { localLimit := leField p 0 4, hashSeed := leField p 4 1, harbourBase := leField p 8 4
      harbourCount := if count = 0 then 256 else count
      mseMap := (List.range b.mseCount).map fun i => leField p (0x10 + i) 1
      lseMap := (List.range b.lseCount).map fun i => leField p (0x28 + i) 1
      pools := parsePools p }
  need 0xC (inRange b.mseCount 294912 c.localLimit && decide (c.localLimit % b.mseCount = 0))
  need 0xC (decide (leField p 5 1 ≤ 16) && zeroBytes p 6 2 && zeroBytes p 0xE 2 && zeroBytes p 0x58 8)
  need 0xC (inRange 17 1024 c.harbourCount && decide (c.harbourBase + c.harbourCount ≤ c.localLimit))
  need 0xC (permutationOk p 0x10 24 b.mseCount && permutationOk p 0x28 48 b.lseCount)
  need 0xC (poolsOk p c.localLimit b.mseCount c.pools)
  pure c

/-- A local region range lies outside the carve-out range of local memory (R222), in units of 1/16 region. -/
def outsideCarve (co : Bool) (limit base count : Nat) : Bool := !co || decide (16 * (base + count) ≤ 15 * limit)

/-- PARTITION (R158). -/
def parseParts (p : Bytes) : Except Nat (List PartCfg) := do
  let n := leField p 0 2
  let part (i : Nat) : PartCfg :=
    let o := 64 * i
    { index := leField p (8 + o) 1, qids := leField p (0x10 + o) 32
      fns := (List.range (leField p (9 + o) 1)).map fun r => (leField p (0x30 + o + 4 * r) 2, leField p (0x32 + o + 4 * r) 2) }
  let ps := (List.range n).map part
  need 0xC (inRange 1 256 n && zeroBytes p 2 6)
  need 0xC ((List.range n).all fun i => decide (leField p (9 + 64 * i) 1 ≤ 6) && zeroBytes p (0xA + 64 * i) 6 &&
    zeroBytes p (0x30 + 64 * i + 4 * leField p (9 + 64 * i) 1) (24 - 4 * leField p (9 + 64 * i) 1))
  need 0xC (decide ((ps.map (·.index)).Nodup))
  need 0xC (decide (ps.Pairwise fun a b => a.qids &&& b.qids = 0))
  need 0xC ((ps.all fun q => q.fns.all fun f => decide (f.1 ≤ f.2)) &&
    decide (ps.Pairwise fun a b => (a.fns.all fun f => b.fns.all fun g => decide (f.2 < g.1 ∨ g.2 < f.1)) = true))
  pure ps

/-- REG_AUTH (R593). -/
def parseAuth (p : Bytes) : Except Nat (List AuthEntry) := do
  let n := leField p 0 2
  let es := (List.range n).map fun i =>
    let o := 8 + 16 * i
    ({ fn := leField p o 2, mask := leField p (o + 2) 2, read := leField p (o + 4) 4, write := leField p (o + 8) 4 } : AuthEntry)
  need 0xC (inRange 1 64 n && zeroBytes p 2 6)
  need 0xC ((List.range n).all fun i => zeroBytes p (0x14 + 16 * i) 4)
  need 0xC (es.all fun e => decide (e.read < 2 ^ 21 ∧ e.write < 2 ^ 21 ∧ e.write ||| e.read = e.read))
  pure es

/-- STALL_POLICY (R395). -/
def parsePolicy (ch : ChartCfg) (co : Bool) (p : Option Bytes) : Except Nat (Option StallPolicy) :=
  match p with
  | none => .ok none
  | some p => do
    let f (o n : Nat) : Nat := leField p o n
    let c : StallPolicy :=
      { recordBase := f 0 4, fillHold := (f 4 1).testBit 0, fillFault := (f 4 1).testBit 1, fillDefault := f 5 1
        boothAllow := (f 6 1).testBit 0, bindAllow := (f 7 1).testBit 0, integReport := (f 8 1).testBit 0, integLose := (f 8 1).testBit 1
        integDefault := f 9 1, tDrain := f 0xA 2, tMigSess := f 0xC 2 }
    need 0xC (decide (c.recordBase + 16 ≤ ch.localLimit ∧
      (c.recordBase + 16 ≤ ch.harbourBase ∨ ch.harbourBase + ch.harbourCount ≤ c.recordBase)) && outsideCarve co ch.localLimit c.recordBase 16)
    need 0xC (inRange 1 3 (f 4 1) && inRange 0 1 c.fillDefault && (f 4 1).testBit c.fillDefault)
    need 0xC (inRange 0 1 (f 6 1) && inRange 0 1 (f 7 1))
    need 0xC (inRange 1 3 (f 8 1) && inRange 0 1 c.integDefault && (f 8 1).testBit c.integDefault)
    need 0xC (inRange 1 10000 c.tDrain && inRange 1 3600 c.tMigSess && zeroBytes p 0xE 2)
    pure (some c)

/-- ENGINE without its Steelyard block (R159, R221). -/
def parseEngine (b : Build) (npool : Nat) (p : Option Bytes) : Except Nat EngineCfg :=
  match p with
  | none => .ok (EngineCfg.absent b.tagSb)
  | some p => do
    let f (o n : Nat) : Nat := leField p o n
    let c : EngineCfg :=
      { pinQuota := f 0 1, tagLocalCo := decide (f 1 1 = 1), tagPool := f 2 2, tMem := f 4 2, tLock := f 6 2
        weights := [f 8 1, f 9 1, f 10 1, f 11 1], share := f 0xC 1, yieldShare := f 0xD 1, yieldMax := f 0xE 2, tDead := f 0x10 2
        integLimit := f 0x12 1, hseCxl := f 0x13 1, tXck := f 0x14 4, tMark := f 0x18 2, markRetry := f 0x1A 1, maxHops := f 0x1B 1
        tBlease := f 0x1C 2, tDoldrums := f 0x1E 2 }
    need 0xC (inRange 0 8 c.pinQuota && inRange 0 1 (f 1 1) && decide (if c.tagLocalCo then b.tagCo else b.tagSb))
    need 0xC (decide (c.tagPool < 2 ^ npool) && (List.range npool).all fun j => if c.tagPool.testBit j then b.tagCo else b.tagSb)
    need 0xC (inRange 10 10000 c.tMem && inRange 1 1000 c.tLock && c.weights.all fun w => decide (1 ≤ w))
    need 0xC (inRange 1 10 c.share && decide (c.yieldShare ≤ c.share) && inRange 0 60000 c.yieldMax)
    need 0xC (inRange 1 1000 c.tDead && decide (1 ≤ c.integLimit) && decide (c.hseCxl < 2 ^ b.hseCount))
    need 0xC (inRange 10 1000000 c.tXck && inRange 5 10000 c.tMark && decide (1 ≤ c.markRetry) && inRange 1 15 c.maxHops)
    need 0xC (inRange 1 10000 c.tBlease && inRange 1 10000 c.tDoldrums)
    pure c

/-- A signed 32-bit field. -/
def signed32 (x : Nat) : Int := if x < 2 ^ 31 then Int.ofNat x else Int.ofNat x - 2 ^ 32

/-- The Steelyard block of an ENGINE section (R573); a build without a Steelyard ignores it. -/
def parseSty (b : Build) (p : Option Bytes) : Except Nat StyCfg :=
  match p with
  | none => .ok StyCfg.absent
  | some p =>
    if ¬ b.sty then .ok StyCfg.absent else do
      let f (o n : Nat) : Nat := leField p (0x20 + o) n
      let c : StyCfg :=
        { chEnable := f 0 2, gain := (List.range 16).map fun i => f (4 + 4 * i) 4
          offset := (List.range 16).map fun i => signed32 (f (0x44 + 4 * i) 4)
          wbMse := f 0x84 4, wbLse := f 0x88 4, wbHse := f 0x8C 4, wbBooth := f 0x90 4, wbToll := f 0x94 4, wo := f 0x98 4, calId := f 0x9C 4 }
      need 0xC (decide (f 2 2 = 0) && c.gain.all fun g => inRange 0x30000000 0x50000000 g)
      need 0xC ([c.wbMse, c.wbLse, c.wbHse, c.wbBooth, c.wbToll].all fun w => decide (w ≤ 10000))
      need 0xC (decide (c.wo ≤ 10 ^ 7))
      pure c

/-- The 160 B Steelyard block in force, as R573 lays it out (R579). -/
def StyCfg.bytes (c : StyCfg) : Bytes :=
  leBytes 2 c.chEnable ++ zeros 2 ++ (c.gain.flatMap fun g => leBytes 4 g) ++ (c.offset.flatMap fun o => leBytes 4 (o % 2 ^ 32).toNat) ++
    leBytes 4 c.wbMse ++ leBytes 4 c.wbLse ++ leBytes 4 c.wbHse ++ leBytes 4 c.wbBooth ++ leBytes 4 c.wbToll ++ leBytes 4 c.wo ++
    leBytes 4 c.calId

/-! ### Patches (R486) -/

/-- The DETAIL a patch payload is refused with (R486), none where it is accepted; `sigOk`: both its signatures verify.
[DEDUCED: notes/assumptions/38.md] -/
def State.patchRefusal (s : State) (p : Bytes) (sigOk : Bool) : Option Nat :=
  if p.length > 131072 ∨ p.length < 0x40 ∨ leField p 0 4 ≠ 0x50465358 ∨ leField p 4 2 ≠ 1 ∨ leField p 7 1 ≠ 0 ∨ 64 < leField p 6 1 ∨
      p.length ≠ 0x40 + leField p 0xC 4 + 4728 then some 1
  else if ¬ versionOk (leField p 8 4) then some 2
  else if slice p 0x10 48 ≠ romDigest then some 3
  else if ¬ sigOk then some 4
  else if leField p 6 1 < s.lcu.svn 6 then some 5
  else none

/-- A payload as a staged patch; its digest is that of the FW_PATCH section that carries it, header included (R357). -/
def patchOf (p : Bytes) : Patch :=
  { svn := leField p 6 1, digest := sha384 (leBytes 2 0x8009 ++ zeros 2 ++ leBytes 4 p.length ++ p) }

/-! ### The full checks (R602) -/

/-- Step 7: every field and payload value in its range. -/
def State.imageCfg (s : State) (b : Bytes) (l : List (Nat × Bytes)) : Except Nat Cfg := do
  let tick := leField b 0x50 8
  need 0xC (zeroBytes b 0x1C 4 && zeroBytes b 0x60 32 && inRange 50000 100000000000 tick)
  let epoch ← parseEpoch ((almSection? 0x8002 l).getD []) tick
  let clk ← parseClock (almSection? 0x8001 l)
  let tamper ← parseTamper (almSection? 0x8003 l)
  let chart ← parseChart s.build ((almSection? 0x8004 l).getD [])
  let engine ← parseEngine s.build chart.pools.length (almSection? 0x8008 l)
  need 0xC (outsideCarve engine.tagLocalCo chart.localLimit chart.harbourBase chart.harbourCount)
  let parts ← parseParts ((almSection? 0x8005 l).getD [])
  let auth ← parseAuth ((almSection? 0x8006 l).getD [])
  let policy ← parsePolicy chart engine.tagLocalCo (almSection? 0x8007 l)
  let sty ← parseSty s.build (almSection? 0x8008 l)
  pure { clk, epoch, tamperEnable := tamper, chart, parts, regAuth := auth, policy, engine, sty
         patches := (l.filter fun p => p.1 = 0x8009).map (·.2), declaredTickNs := tick, integratorId := leField b 0x58 4
         productId := leField b 0x5C 4, imageSeq := imageSeqOf b, almSvn := leField b 0x18 1, patchSvn := leField b 0x19 1 }

/-- Every FW_PATCH payload passes its rules (R486), with the verdicts given. -/
def State.patchesOk (s : State) : List Bytes → List Bool → Bool
  | [], _ => true
  | p :: ps, vs => (s.patchRefusal p (vs.headD true)).isNone && s.patchesOk ps vs.tail

/-- The integrator checks are skipped: the integrator key fuses read all-zero (R162). -/
def State.integratorOpen (s : State) : Bool := zeroDigest s.lcu.integratorDigest

/-- The full checks of R602 in their order. -/
def State.fullChecks (s : State) (b : Bytes) (v : ImageSigs) : Except Nat Cfg := do
  need 0x5 (s.integratorOpen || decide (sha384 (slice b 0x80 2696) = s.lcu.integratorDigest))
  need 0x7 (s.integratorOpen || v.integrator)
  need 0x8 (decide (sha384 (imageBody b) = slice b 0x20 48))
  match parseSections (leField b 0x1A 2 + 1) (imageBody b) with
  | none => .error 0x2
  | some l =>
    need 0x2 (sectionsFramed (leField b 0x1A 2) l)
    need 0xB (l.all fun p => decide (p.1 < 0x8000) || knownSection p.1)
    need 0x6 v.vendor
    let c ← s.imageCfg b l
    need 0xC (s.patchesOk c.patches v.patches)
    pure c

end Sys2Proof.Machine
end

