-- ==== Sys2Proof/Machine/Loader.lean ====
section
/-!
DEFINITION. The Almanac load up to Harbour entry (spec/06_almanac_bringup.md R163 to R176), the Steelyard's seal (spec/20_steelyard.md R579,
R580), the store format and the restore through the anchor (spec/10_ledger_sweeper.md R301, R304, spec/05_reset.md R137 to R140), and the
commands on Almanac slots, Settings and patches.
-/

namespace Sys2Proof.Machine

/-! ### Chart repairs in the Settings (R167, R170) -/

/-- The field repairs as the data of a KIND 3 record: entries of four bytes, 1 spare lane, 2 lane fold, 3 bank, 4 row, 5 faulty lane.
[DEDUCED: notes/assumptions/37.md] -/
def State.repairBytes (s : State) : Bytes :=
  ((s.cht.spareLanes.filter fun p => p.2.2).flatMap fun p => [byteOf 1, byteOf p.1, byteOf p.2.1, 0]) ++
    (s.cht.folds.flatMap fun p => [byteOf 2, byteOf p.1, byteOf p.2.1, byteOf p.2.2]) ++
    (if s.cht.ksField then (s.cht.ksBank.toList.flatMap fun b => [byteOf 3, byteOf b, 0, 0]) else []) ++
    ((s.cht.rows.filter fun r => !s.lcu.trims.rows.contains r).flatMap fun r => byteOf 4 :: leBytes 2 r ++ [0]) ++
    (s.cht.faulty.flatMap fun p => [byteOf 5, byteOf p.1, byteOf p.2, 0])

/-- One field repair applied; one that names a spare already used is ignored and counted (R167). [DEDUCED: notes/assumptions/37.md] -/
def Chart.applyRepair (c : Chart) (b : Bytes) : Chart :=
  let f (i : Nat) : Nat := leField b i 1
  let skip : Chart := { c with ignored := c.ignored + 1 }
  match f 0 with
  | 1 => if c.spareLanes.any fun p => p.1 = f 1 then skip else { c with spareLanes := c.spareLanes ++ [(f 1, f 2, true)] }
  | 2 => { c with folds := c.folds ++ [(f 1, f 2, f 3)] }
  | 3 => if c.ksBank.isSome then skip else { c with ksBank := some (f 1), ksField := true }
  | 4 => if 64 ≤ c.rows.length then skip else { c with rows := c.rows ++ [leField b 1 2] }
  | 5 => { c with faulty := c.faulty ++ [(f 1, f 2)] }
  | _ => c

/-! ### Settings (R170, R171) -/

/-- The Settings copy in effect. -/
def State.settings (s : State) : List SettingsRec :=
  if ¬ s.ald.settingsOk then [] else (((if s.ald.setCopyB then s.nvm.settingsB else s.nvm.settingsA).map (·.records)).getD [])

/-- A record of an entity. -/
def settingsRec? (kind index : Nat) (l : List SettingsRec) : Option SettingsRec := l.find? fun r => r.kind = kind ∧ r.index = index

/-- A record in the place of an entity's record, or after the others. -/
def putSettings (r : SettingsRec) (l : List SettingsRec) : List SettingsRec :=
  if l.any fun x => x.kind = r.kind ∧ x.index = r.index then l.map fun x => if x.kind = r.kind ∧ x.index = r.index then r else x
  else l ++ [r]

/-- A record as it stands in a copy. -/
def SettingsRec.bytes (r : SettingsRec) : Bytes :=
  leBytes 1 r.kind ++ leBytes 1 r.index ++ zeros 2 ++ leBytes 4 r.data.length ++ padBlocks 8 r.data

/-- A copy as it is written (R170). -/
def State.settingsBytes (s : State) (c : SettingsCopy) (nonce : Bytes) : Bytes :=
  let hdr := leBytes 4 0x54535358 ++ leBytes 4 c.seq ++ leBytes 4 c.length ++ nonce ++ zeros 8
  let x := gcmSeal (s.storeKey 1) nonce hdr (c.records.flatMap SettingsRec.bytes)
  hdr ++ x.1 ++ x.2

/-- SEQ of a copy that opens, 0 for one that does not. -/
def State.copySeq (s : State) (c : Option SettingsCopy) : Nat := ((c.filter fun c => c.root = s.sbx.root).map (·.seq)).getD 0

/-- The records written over the copy with the lower SEQ, one higher than the current one, which then is current (R171). -/
def State.writeSettings (records : List SettingsRec) (s : State) : State :=
  let a := s.copySeq s.nvm.settingsA
  let b := s.copySeq s.nvm.settingsB
  let toB := decide (b < a)
  let c : SettingsCopy := { seq := max a b + 1, root := s.sbx.root, records }
  let off := if toB then 0x00900000 else 0x00800000
  let t := (s.tookDraw.emits ((sectors (off / 4096) ((off + c.length - 1) / 4096)).map Out.nvmErase)).emit
    (.nvmWrite off (s.settingsBytes c (s.drawn 12)))
  { t with
    nvm := if toB then { t.nvm with settingsB := some c } else { t.nvm with settingsA := some c }
    ald := { t.ald with settingsOk := true, setCopyB := toB } }

/-- At load the copy with the higher SEQ that opens is taken and its field repairs are applied; where none opens, EV_SETTINGS_NONE. -/
def State.openSettings (s : State) : State :=
  let a := s.copySeq s.nvm.settingsA
  let b := s.copySeq s.nvm.settingsB
  if a = 0 ∧ b = 0 then ({ s with ald := { s.ald with settingsOk := false } }).event evSettingsNone unitAlmanac none 0 0
  else
    let t : State := { s with ald := { s.ald with settingsOk := true, setCopyB := decide (a < b) } }
    match settingsRec? 3 0 t.settings with
    | none => t
    | some r => { t with cht := (chunks 4 r.data).foldl Chart.applyRepair t.cht }

/-- The staged words of an entity: index and value. [DEDUCED: notes/assumptions/37.md] -/
def Ald.stagedOf (a : Ald) (kind index : Nat) : List (Nat × Word) :=
  (a.staged.filter fun w => w.1 = kind ∧ w.2.1 = index).map fun w => w.2.2

/-- A staged record: 4 × (highest WORD written + 1) bytes (R176). A word below that which was never written is a free value. -/
def State.stagedData (s : State) (kind index : Nat) : Bytes :=
  let ws := s.ald.stagedOf kind index
  let n := (ws.map fun (w : Nat × Word) => w.1).foldl max 0 + 1
  (List.range n).flatMap fun k => match ws.find? fun (w : Nat × Word) => w.1 = k with
    | some w => leBytes 4 w.2.toNat
    | none => (List.range 4).map fun j => Config.randomByte s.fresh (kind * 2 ^ 20 + index * 2 ^ 14 + 4 * k + j)

/-- The entities with something staged. -/
def Ald.stagedKeys (a : Ald) : List (Nat × Nat) := (a.staged.map fun w => (w.1, w.2.1)).dedup

/-- SETTINGS_SAVE (R171). [DEDUCED: notes/assumptions/37.md] -/
def execSettingsSave (c : Call) (s : State) : Host.Outcome State Fault Refusal :=
  done (s.command c 0x0A03 fun t =>
    let rs := t.ald.stagedKeys.foldl (fun l (k : Nat × Nat) =>
      putSettings { kind := k.1, index := k.2, data := t.stagedData k.1 k.2 } l) t.settings
    let u := t.tookDraw.writeSettings rs
    ({ u with ald := { u.ald with staged := [] } }).finish c stOk)

/-- SETTINGS_REPAIR_WRITE (R167): the Chart's field repairs go into a new Settings copy. -/
def execSettingsRepairWrite (s : State) : Host.Outcome State Fault Refusal :=
  let t := s.begin
  done (if t.ald.repairDue.isNone || t.alr.quiet || t.rst.coreReset.isSome || decide (t.rst.phase ≠ .service) then t
    else
      let u := t.writeSettings (putSettings { kind := 3, index := 0, data := t.repairBytes } t.settings)
      { u with ald := { u.ald with repairDue := none } })

/-! ### The Steelyard's seal (R579, R580) -/

/-- The seal record written before its fuse bit (R580): two erased sectors, then the record with its signatures.
[DEDUCED: notes/assumptions/40.md] -/
def State.writeSeal (gen : Nat) (sigs : Bytes) (s : State) : State :=
  let b := leBytes 4 0x53595358 ++ leBytes 2 1 ++ leBytes 1 gen ++ [0] ++ (padTo 48 s.sty.sd).take 48 ++ zeros 8 ++ (padTo 4728 sigs).take 4728
  { s.emits [.nvmErase 0x1FFE, .nvmErase 0x1FFF, .nvmWrite 0x01FFE000 b] with
    nvm := { s.nvm with sealRec := some { gen, sd := s.sty.sd, signer := s.sty.seed } } }

/-- Bit n of SEAL_BREAKS is programmed, and the break is reported (R580, R585). [DEDUCED: notes/assumptions/40.md] -/
def State.countBreak (n why : Nat) (s : State) : State :=
  (s.queueJob .sealBreak [(0xF1, n)]).event evStySealBreak unitSteelyard none (n + 1) why

/-- SEALED. -/
def State.isSealed (s : State) : State := { s with sty := { s.sty with keySealed := true, unsealed := false } }

/-- The seal evaluated (R580). A record verifies under the keys that signed it. [DEDUCED: notes/assumptions/40.md] -/
def State.sealEvaluate (sigs : Bytes) (s : State) : State :=
  if ¬ s.build.sty then s else
    let s : State := { s with sty := { s.sty with sd := sha384 (Config.styRomDigest ++ s.cfg.sty.bytes) } }
    if s.sty.keyFailed then s else
      let n := s.sealBreaks
      let valid := s.nvm.sealRec.filter fun r => r.signer = s.sty.seed
      let same := (valid.filter fun r => r.sd = s.sty.sd).map (·.gen)
      if same = some n then s.isSealed
      else if same = some (n + 1) ∧ n < 32 then s.isSealed.countBreak n 3
      else if valid.isNone ∧ n = 0 ∧ ¬ (s.lcu.fuse 0xF2).testBit 0 then (s.writeSeal 0 sigs).isSealed
      else if n = 32 then
        ({ s with sty := { s.sty with unsealed := true, keySealed := false } }).event evStyExhausted unitSteelyard none 0 0
      else ((s.writeSeal (n + 1) sigs).isSealed).countBreak n (if valid.any fun (r : SealRecord) => decide (r.sd ≠ s.sty.sd) then 1 else 2)

/-! ### Picking an image (R163) -/

/-- The outcome of a load: the configuration applied and its slot, FALLBACK, and the code of the last rejection. -/
structure LoadResult where
  image : Option (Cfg × Bool)
  fallback : Bool
  cause : Nat
  deriving DecidableEq, Repr

/-- The full checks on the candidates in their order. -/
def State.tryImages (s : State) : List (Bool × Bytes × ImageSigs) → Bool → Nat → LoadResult
  | [], fb, cause => { image := none, fallback := fb, cause }
  | (slotB, b, v) :: rest, fb, cause =>
    match s.fullChecks b v with
    | .ok c => { image := some (c, slotB), fallback := fb, cause }
    | .error e => s.tryImages rest (fb || !rest.isEmpty) e

/-- The candidates, the one with the higher IMAGE_SEQ first, slot A where they are equal. -/
def State.pickImage (s : State) (sigA sigB : ImageSigs) (nvmOk : Bool) : LoadResult :=
  let a := if nvmOk then s.candidacy s.nvm.slotA else 0xD
  let b := if nvmOk then s.candidacy s.nvm.slotB else 0xD
  let ca := if a = 0 then [(false, s.nvm.slotA, sigA)] else []
  let cb := if b = 0 then [(true, s.nvm.slotB, sigB)] else []
  s.tryImages (if imageSeqOf s.nvm.slotA < imageSeqOf s.nvm.slotB then cb ++ ca else ca ++ cb) false (if b = 0 then a else b)

/-! ### Firmware (R127, R357, R486) -/

/-- The staged patches applied: those whose PATCH_SVN is not below the patch fuse counter. -/
def State.applyPatches (s : State) : State :=
  { s with hlm := { s.hlm with applied := s.hlm.staged.filter fun p => s.lcu.svn 6 ≤ p.svn } }

/-- ALM_DIGEST of the active image (R357). -/
def State.almDigest (s : State) : Bytes :=
  let b := if s.ald.slotB then s.nvm.slotB else s.nvm.slotA
  if s.ald.done then sha384 (b.take (imageSize b - 9456)) else zeros 48

/-- M_FW and the firmware layer secret taken anew (R357, R359). -/
def State.measure (s : State) : State :=
  let m := s.measureFirmware s.almDigest
  { s with att := { s.att with mFw := m, fwSecret := kdf s.sbx.root "XS-FW-CDI" m 384 } }

/-! ### Harbour entry (R172, R287, R406) -/

/-- The Harbour range: LSTORE in its top 16 regions, BOOT below them (R287). -/
def State.harbourEntries (s : State) : List (Nat × LdgEntry) :=
  let ch := s.cfg.chart
  (List.range ch.harbourCount).map fun k =>
    (ch.harbourBase + k, { LdgEntry.freeEntry with state := if ch.harbourCount ≤ k + 16 then RegState.lstore else RegState.boot })

/-- Entries outside the Harbour range. -/
def State.outsideHarbour (s : State) (l : List (Nat × LdgEntry)) : List (Nat × LdgEntry) :=
  l.filter fun p => p.1 < s.cfg.chart.harbourBase ∨ s.cfg.chart.harbourBase + s.cfg.chart.harbourCount ≤ p.1

/-- The Harbour range set among other local entries. -/
def State.withHarbour (s : State) (l : List (Nat × LdgEntry)) : List (Nat × LdgEntry) :=
  (l.filter fun p => p.1 < s.cfg.chart.harbourBase) ++ s.harbourEntries ++
    l.filter fun p => s.cfg.chart.harbourBase + s.cfg.chart.harbourCount ≤ p.1

/-- A slot of the Block class, pinned from Harbour entry (R189). [DEDUCED: notes/assumptions/45.md] -/
def blockSlot (handle usage : Nat) (key : Bytes) : KeySlot := { KeySlot.fresh handle 0 usage key with cls := .block, pinned := true }

/-- The Block class: the boot key, and the journal, checkpoint and record STORE keys. -/
def State.blockSlots (s : State) : List (Nat × KeySlot) :=
  [(0, blockSlot bootHandle 1 (s.drawn 64)), (1, blockSlot (makeHandle 0 0xC 2) 0 (s.storeKey 2)),
   (2, blockSlot (makeHandle 0 0xC 4) 0 (s.storeKey 4)), (3, blockSlot (makeHandle 0 0xC 5) 0 (s.storeKey 5))]

/-- Stall 0 between a Harbour entry and the restore or the store format: its on-die slot alone. BOOTH and BIND are the image's (R395).
[DEDUCED: notes/assumptions/45.md] -/
def State.stall0 (s : State) (inst : Bytes) : Stall :=
  { state := .keyed, inst, version := 0, measLocked := false, x2 := false, rebase := false, saved := false, imported := false
    logOverflow := false, lostCause := 0, nextSerial := 0, extendSeq := 0, fillFault := false, integLose := false, keyed := false
    boothStream := (s.cfg.policy.map (·.boothAllow)).getD false, bindNoinit := (s.cfg.policy.map (·.bindAllow)).getD false
    eSrc := 0, bias := 0, admitTime := s.clk.domain, saveSeq := 0 }

/-- Harbour mode begins (step 4 of R125): rst_busy falls at its end. -/
def State.enterHarbour (s : State) : State :=
  let t : State := { s.tookDraw with
    sbx := { s.sbx with slots := s.blockSlots }
    ldg := { s.ldg with localEntries := s.withHarbour s.ldg.localEntries }
    stl := { s.stl with table := assocSet 0 (s.stall0 (zeros 16)) s.stl.table, data := assocSet 0 StallData.fresh s.stl.data }
    rst := { s.rst with phase := .service, rstBusy := false }
    alr := { s.alr with progressAt := s.clk.elapsed, progressTime := s.clk.domain } }
  t.measure.issueAlias

/-! ### The partitions at load (R149, R151) -/

/-- Journal sectors sealed under another DRK open no more, and neither does such a copy of the STANDBY table. -/
def State.openPartitions (s : State) : State :=
  let n := s.nvm
  let stale := decide (n.journalRoot ≠ s.sbx.root)
  { s with nvm := { n with
    journal := if stale then [] else n.journal
    journalStale := if stale then n.journalStale ++ n.journal.map (·.index) else n.journalStale
    journalRoot := s.sbx.root
    standbyA := n.standbyA.filter fun t => t.root = s.sbx.root
    standbyB := n.standbyB.filter fun t => t.root = s.sbx.root } }

/-- The image takes effect (R126, R163 step 5). -/
def State.applyImage (c : Cfg) (slotB : Bool) (s : State) : State :=
  let t : State := { s with
    cfg := c
    ald := { s.ald with done := true, slotB, linksTrained := decide (s.build.lseCount = 0 ∧ s.build.hseCount = 0) }
    hlm := { s.hlm with staged := (c.patches.take 8).map patchOf } }
  t.applyPatches

/-- The block waits in the load for step 3 of R125. -/
def State.loadable (s : State) : Bool :=
  decide (s.rst.phase = .loading) && s.rst.rstBusy && !s.rst.noLoad && s.lcu.transition.isNone

/-- ALMANAC_LOAD (R163, R174, R531): steps 3 and 4 of R125. `sigA` and `sigB`: the verdicts on the signatures of each slot; `nvmOk`: the device
declares itself by SFDP and reports no error; `sdr`: it has no 8D-8D-8D mode; `sigs`: the Steelyard's signatures over a new seal record. The
boot key waits for entropy (R199). [DESIGN CHOICE: notes/assumptions/6.md] -/
def execAlmanacLoad (sigA sigB : ImageSigs) (nvmOk sdr : Bool) (sigs : Bytes) (s : State) : Host.Outcome State Fault Refusal :=
  let t := s.begin
  done (if !t.loadable then t else
    let r := t.pickImage sigA sigB nvmOk
    match r.image with
    | none => { t with
        ald := { t.ald with noAlmanac := true, fallback := r.fallback, rejectCause := r.cause, sdrOnly := sdr }
        rst := { t.rst with phase := .service, rstBusy := false } }
    | some (c, slotB) =>
      if ¬ t.sbx.entropyOk then t else
        let u := (t.applyImage c slotB)
        let u : State := { u with ald := { u.ald with
          fallback := r.fallback, rejectCause := r.cause, sdrOnly := sdr, integratorChecked := !t.integratorOpen } }
        let u := ((u.openSettings).openPartitions.sealEvaluate sigs).runFuses
        if u.alr.safeStop then ({ u with rst := { u.rst with phase := .service, rstBusy := false } }).enterQuiet
        else u.enterHarbour)

/-! ### The store format (R301, R406) -/

/-- The handle of Stall 0's Harbour REGION key (R406). -/
def harbourHandle : Nat := 0x00010000

/-- Stall 0 created: fresh INSTANCE, root key with a K_EST of zeros, its Harbour REGION key with its blob, its record.
[DEDUCED: notes/assumptions/45.md] -/
def State.createStall0 (s : State) : State :=
  let inst := s.drawn 16
  let root := s.stallRootKey 0 inst (zeros 48) (zeros 48)
  let key := s.tookDraw.drawn 64
  let d0 : StallData := { StallData.fresh with stallRoot := root, wrapCount := 1, lastUse := s.clk.elapsed }
  let addr := s.storeAddr 0 0x3FBF00
  let blob := blobBytes d0.wrapKey { handle := harbourHandle, usage := 1, gen := 0, keyLen := 64, attr := 1, inst } key
  let k : KeyEntry :=
    { handle := harbourHandle, gen := 0, pinned := false, migratable := false, usage := 1, keyLen := 64, use := 0, ops := 0, blobAddr := addr
      blobTag := blobTag blob, eC := s.epo.epoch, ownerIdx := 0, destroyed := false }
  let t := (s.tookDraw.tookDraw.emit (.memWrite 0 addr blob))
  let t := (t.setStall 0 { t.stall0 inst with nextSerial := 1 }).setStallData 0 (d0.putKey k)
  let t := (t.placeKey (KeySlot.fresh harbourHandle 0 1 key)).getD t
  t.writeRecord 0

/-- Pool lines of the Chart's windows (R288). -/
def State.poolLines (s : State) : Nat := ((s.cfg.chart.pools.map (·.size)).foldl (· + ·) 0 + 13) / 14

/-- The Ledger store formatted: STORE_ID drawn, every pool line written, Stall 0 created, a base begun whose marker completes it (R301). -/
def State.formatStore (s : State) : State :=
  let id := s.drawn 8
  let n := s.poolLines
  let t : State := { s.tookDraw with ldg := { s.ldg with
    storeId := id, storeRoot := s.sbx.root, storeOk := false, counter := n, sinceBase := 0, baseSlotB := true, baseBusy := false, logPos := 0
    versions := ((List.range n).map fun k => (k, k)).filter fun p => p.2 ≠ 0
    items := [], flight := none
    store := { localEntries := [], poolEntries := [], versions := [], ring := [], digests := [], slots := [] } } }
  let t := t.emits ((List.range n).map fun k => .memWrite 0 (t.storeAddr 2 (128 * k)) (t.poolLineBytes k k))
  let t := t.createStall0
  let sha := ((t.stallData? 0).map (·.recordDigest)).getD []
  let t : State := { t with ldg := { t.ldg with
    storeOk := true, restoring := true, items := [], store := { t.ldg.store with digests := [(0, sha)] } } }
  t.beginBase.flushStore

/-! ### The restore (R140, R230, R304) -/

/-- Epochs up to the anchor's without a recorded start take the newest earlier one and are INHERITED (R230). -/
def inheritRing (ring : List (Nat × EpochStart)) (top : Nat) : List (Nat × EpochStart) :=
  ((List.range 256).foldl (fun (p : List (Nat × EpochStart) × Option Nat) k =>
    let e := sub24 top (255 - k)
    match (assocGet (e % 256) ring).filter fun x => x.epoch = e with
    | some x => (p.1, some x.time)
    | none => match p.2 with
      | none => p
      | some t => (assocSet (e % 256) { epoch := e, time := t, inherited := true } p.1, p.2)) (ring, none)).1

/-- A Stall's record as a restore takes it: one whose digest is not the anchored one is LOST (R140, R408). -/
def State.restoredStall (s : State) (bad : List Nat) (p : Nat × Stall × StallData) : Nat × Stall :=
  let anchored := (padTo 48 ((assocGet p.1 s.ldg.store.digests).getD [])).take 48
  if decide (p.2.2.recordDigest = anchored) && !bad.contains p.1 then (p.1, p.2.1)
  else (p.1, { p.2.1 with state := .lost, lostCause := 3 })

/-- The last step of each unfinished removal that the Journal holds: Stall, INSTANCE, step. -/
def Nvm.removals (n : Nvm) : List (Nat × Bytes × Nat) :=
  n.journal.foldl (fun l x => x.records.foldl (fun l r => match r.body with
    | .removal st i k => (l.filter fun e => e.1 ≠ st) ++ [(st, i, k)]
    | .alarm _ => l) l) []

/-- The generations of a Stall's REGION handle while two are live, older first. -/
def StallData.twoGens (d : StallData) : Option (Nat × Nat) :=
  match (d.keys.filter fun k => handleType k.handle = 1 ∧ ¬ k.destroyed).map (·.gen) with
  | [a, b] => if b = (a + 1) % 4 then some (a, b) else if a = (b + 1) % 4 then some (b, a) else none
  | _ => none

/-- The order a region with SWEEP or a ZEROING region had (R291, R297): its kind follows from the generations its owner's key table holds. -/
def State.restoredOrder (s : State) (r : RegionId) (e : LdgEntry) : Option SweepOrder :=
  let gens := (s.stallData? e.owner).bind (·.twoGens)
  let base : SweepOrder := { kind := .floor, region := r, stall := e.owner, old := e.gen, new := e.gen, bootOld := false }
  if e.state = .zeroing ∧ (gens.map (·.1)) ≠ some e.gen then some { base with kind := .zero }
  else if ¬ e.sweep then none
  else match gens with
    | some (a, b) => if a = e.gen then some { base with kind := .key, old := a, new := b } else some base
    | none => some base

/-- The sweeps of a restore: active slots with their bands, then the queued orders, then the key sweeps of the Stalls.
[DEDUCED: notes/assumptions/34.md] -/
def State.restoreSweeps (s : State) : State :=
  let inH (r : RegionId) : Bool := !r.pool && decide (s.cfg.chart.harbourBase ≤ r.index ∧ r.index < s.cfg.chart.harbourBase + s.cfg.chart.harbourCount)
  let slots := (s.ldg.store.slots.filter fun p => !inH p.2.order.region).map fun (p : Nat × SweepSlot) =>
    (p.1, { p.2 with done := [], waiting := false
                     bandHi := if p.2.order.kind = .key ∨ p.2.order.kind = .band then (p.2.stride + 1) * 65536 else p.2.bandHi })
  let active (r : RegionId) : Bool := slots.any fun p => p.2.order.region = r
  let all := (s.ldg.localEntries.map fun p => (({ pool := false, index := p.1 } : RegionId), p.2)) ++
    s.ldg.poolEntries.map fun p => (({ pool := true, index := p.1 } : RegionId), p.2)
  let queue := (all.filter fun p => !inH p.1 && !active p.1).filterMap fun p => s.restoredOrder p.1 p.2
  let sweeps := s.stl.data.filterMap fun p => (p.2.twoGens).map fun g =>
    ({ stall := p.1, old := g.1, new := g.2, retiring := false
       wear := ((s.regionHandle p.1).map fun h => s.worn h g.1).getD false } : KeySweep)
  let tiles := ((slots.map (·.2.order)) ++ queue).filter fun o => o.kind = .key ∨ o.kind = .band
  { s with
    swp := { s.swp with slots, queue, sweeps }
    mse := s.mse.map fun (m : Mse) => { m with sweeps := tiles.map fun o =>
      { region := o.region, old := o.old, new := o.new, bootOld := o.bootOld } } }

/-- Every tile's refusal map as the Stalls' states make it (R394). -/
def State.setRefusals (s : State) : State :=
  let l := (s.stl.table.filter fun p => s.refusesStall p.1).map (·.1)
  { s with
    mse := s.mse.map fun (m : Mse) => { m with spine := { m.spine with refused := l } }
    lse := s.lse.map fun (x : Lse) => { x with spine := { x.spine with refused := l } }
    hse := s.hse.map fun (x : Hse) => { x with spine := { x.spine with refused := l } } }

/-- Removals the Journal leaves unfinished go on from the first step not journalled (R137). [DEDUCED: notes/assumptions/34.md] -/
def State.resumeRemovals (s : State) : State :=
  s.nvm.removals.foldl (fun t (e : Nat × Bytes × Nat) =>
    match (assocGet e.1 t.stl.records).filter fun x => x.1.inst = e.2.1 with
    | none => t
    | some x =>
      if 6 ≤ e.2.2 then t else
        let r : Removal := { stall := e.1, inst := e.2.1, step := e.2.2, since := t.clk.elapsed, regions := [], call := none }
        let u := (t.setStall e.1 { x.1 with state := .removing }).setStallData e.1 ((t.stallData? e.1).getD x.2)
        let u : State := { u with stl := { u.stl with removals := u.stl.removals ++ [r] } }
        u.startRemovalStep r) s

/-- The Stalls restored spilled, Stall 0 in slot 0 (R140). [DEDUCED: notes/assumptions/34.md] -/
def State.restoreStalls (bad : List Nat) (s : State) : State :=
  let rs := s.stl.records.filter fun p => p.2.1.state ≠ .free
  let table := rs.map (s.restoredStall bad)
  let t : State := { s with
    stl := { s.stl with table, data := rs.map fun p => (p.1, p.2.2), slots := [] }
    mrk := { s.mrk with dir := s.mrk.anchored, anchored := [] } }
  t.modStall 0 fun x => { x with
    boothStream := (s.cfg.policy.map (·.boothAllow)).getD false, bindNoinit := (s.cfg.policy.map (·.bindAllow)).getD false }

/-- The epoch resumes at the anchor's, at every tile (R140). -/
def State.restoreEpoch (s : State) : State :=
  { s with
    epo := { s.epo with epoch := s.ldg.anchor.epoch, unacked := [], ring := inheritRing s.ldg.store.ring s.ldg.anchor.epoch }
    mse := s.mse.map fun (m : Mse) => { m with epoch := s.ldg.anchor.epoch } }

/-- The restore through the anchor: `rootOk` says that the chain read from the store reaches the anchor's root, `bad` names the Stalls whose
record read from memory does not match its digest (R304). [DEDUCED: notes/assumptions/34.md] -/
def State.restore (rootOk : Bool) (bad : List Nat) (s : State) : State :=
  let img := s.ldg.store
  let t := s.restoreEpoch
  if rootOk ∧ s.ldg.storeRoot = s.sbx.root then
    let t : State := { t with ldg := { t.ldg with
      storeOk := true, versions := img.versions, poolEntries := img.poolEntries
      localEntries := t.withHarbour (t.outsideHarbour img.localEntries) } }
    let t := ((t.restoreStalls bad).restoreSweeps).setRefusals.resumeRemovals
    let lost := t.stl.table.filter fun p => p.2.state = .lost ∧ p.2.lostCause = 3
    let t := t.bump (ctrStl 6) lost.length
    { t with ald := { t.ald with restored := true } }
  else
    let q (l : List (Nat × LdgEntry)) : List (Nat × LdgEntry) :=
      l.map fun (p : Nat × LdgEntry) => (p.1, { p.2 with state := .quarantined, sweep := false })
    let rs := s.stl.records.filter fun p => p.2.1.state ≠ .free
    let table := rs.map fun (p : Nat × Stall × StallData) => (p.1, if p.1 = 0 then p.2.1 else { p.2.1 with state := .lost, lostCause := 4 })
    let t : State := { t with
      ldg := { t.ldg with
        storeOk := true, versions := img.versions, poolEntries := q img.poolEntries
        localEntries := t.withHarbour (q (t.outsideHarbour img.localEntries)) }
      stl := { t.stl with table, data := rs.map fun p => (p.1, p.2.2), slots := [] }
      mrk := { t.mrk with anchored := [] } }
    let t := (t.event evAnchorFail unitLedger none t.ldg.anchor.seq 0).setRefusals
    let t := t.bump (ctrStl 6) (table.filter fun p => p.1 ≠ 0).length
    ({ t with ald := { t.ald with restored := true } }.beginBase).flushStore

/-- TRAINING_DONE (R173): the memory flag starts the restore, or the store format where the anchor is not valid; the format waits for entropy.
[DESIGN CHOICE: notes/assumptions/6.md] [DEDUCED: notes/assumptions/35.md] -/
def execTrainingDone (c : Call) (flags : Nat) (rootOk : Bool) (bad : List Nat) (s : State) : Host.Outcome State Fault Refusal :=
  done (s.command c 0x0A04 fun t =>
    let first := flags.testBit 0 && !t.ald.restored && !t.ldg.restoring
    let u : State := { t with ald := { t.ald with
      memTrained := t.ald.memTrained || flags.testBit 0, linksTrained := t.ald.linksTrained || flags.testBit 1 } }
    if ¬ first then u.finish c stOk
    else if u.ldg.anchor.valid then (u.restore rootOk bad).finish c stOk
    else if ¬ u.sbx.entropyOk then u
    else u.formatStore.finish c stOk)

/-! ### Almanac slots (R164, R486) -/

/-- The slot that is not active: in the no-Almanac state the one with the lower IMAGE_SEQ, or slot B where they are equal or one does not
read (R486). [DEDUCED: notes/assumptions/38.md] -/
def State.idleSlotB (s : State) : Bool :=
  if s.ald.done then !s.ald.slotB
  else
    let reads (b : Bytes) : Bool := decide (leField b 0 4 = 0x4D415358)
    !(reads s.nvm.slotA && reads s.nvm.slotB && decide (imageSeqOf s.nvm.slotA < imageSeqOf s.nvm.slotB))

/-- Bytes written over an erased slot. -/
def writeAt (b : Bytes) (off : Nat) (data : Bytes) : Bytes :=
  let p := b ++ List.replicate (off + data.length - b.length) 0xFF
  p.take off ++ data ++ p.drop (off + data.length)

/-- A slot's bytes replaced. -/
def State.setIdleSlot (toB : Bool) (b : Bytes) (s : State) : State :=
  { s with nvm := if toB then { s.nvm with slotB := b } else { s.nvm with slotA := b } }


/-- ALMANAC_UPDATE (R164, R486). `buf`: the bytes read from SRC; `sigs`: the verdicts on the signatures of the image in the slot.
[DEDUCED: notes/assumptions/38.md] -/
def execAlmanacUpdate (c : Call) (phase inline_ offset len src : Nat) (data : Bytes) (buf : BufRead) (sigs : ImageSigs) (s : State) :
    Host.Outcome State Fault Refusal :=
  done (s.command c 0x0A01 fun t =>
    let toB := t.idleSlotB
    let first := if toB then 0x400 else 0
    match phase with
    | 0 =>
      let u := (t.emits ((sectors first (first + 0x3FF)).map Out.nvmErase)).setIdleSlot toB []
      ({ u with ald := { u.ald with updErased := some toB, updWritten := [] } }).finish c stOk
    | 1 =>
      match t.ald.updErased with
      | none => t.badArg c 0
      | some toB =>
        let clash := t.ald.updWritten.any fun w => decide (offset < w.1 + w.2 ∧ w.1 < offset + len)
        if (if inline_ = 1 then decide (128 < len) else decide (0x400000 < len)) then t.badArg c 8
        else if 0x400000 < offset + len ∨ clash then t.badArg c 4
        else
          let put (b : Bytes) (t : State) : State :=
            let b := (padTo len b).take len
            let u := (t.emit (.nvmWrite ((if toB then 0x400000 else 0) + offset) b)).setIdleSlot toB
              (writeAt (if toB then t.nvm.slotB else t.nvm.slotA) offset b)
            ({ u with ald := { u.ald with updWritten := u.ald.updWritten ++ [(offset, len)] } }).finish c stOk
          if inline_ = 1 then put data t
          else if t.ald.noAlmanac then t.finish c stMemory
          else (t.emit (.memRead 0 src len)).input c buf put
    | _ =>
      match t.ald.updErased with
      | none => t.badArg c 0
      | some toB =>
        let b := if toB then t.nvm.slotB else t.nvm.slotA
        let r := t.candidacy b
        if r ≠ 0 then t.finishDetail c stAlmanac r
        else match t.fullChecks b sigs with
          | .ok _ => t.finish c stOk
          | .error e => t.finishDetail c stAlmanac e)

/-! ### Patches (R486) -/

/-- PATCH_STAGE (R486); `sigOk`: both Cogagon signatures verify. -/
def execPatchStage (c : Call) (src len : Nat) (buf : BufRead) (sigOk : Bool) (s : State) : Host.Outcome State Fault Refusal :=
  done (s.command c 0x0102 fun t =>
    if 8 ≤ t.hlm.staged.length then t.finish c stPatchFull
    else if 131072 < len then t.finishDetail c stPatch 1
    else (t.emit (.memRead 0 src len)).input c buf fun b t =>
      match t.patchRefusal b sigOk with
      | some d => t.finishDetail c stPatch d
      | none =>
        ({ t with hlm := { t.hlm with staged := t.hlm.staged ++ [patchOf b] } }).finishOk c (leBytes 1 (t.hlm.staged.length + 1)))

/-! ### METER_READ (R581, R582) -/

/-- What METER_READ names: the running reading of a Stall, or the final one of a FREE Stall. [DEDUCED: notes/assumptions/42.md] -/
def State.meterReading (s : State) (stall : Nat) : Option (Reading × Bool) :=
  if s.stallState stall ≠ .free then some (s.reading stall, false)
  else (s.sty.finals.find? fun r => r.stall = stall).map fun r => (r, true)

/-- A signed reading in DEPLOYED programs FIRST_READING (R577, R581). -/
def State.firstReading (s : State) : State :=
  if s.lcu.state = lcDeployed ∧ ¬ (s.lcu.fuse 0xF2).testBit 0 then (s.queueJob .firstReading [(0xF2, 0)]).runFuses else s

/-- METER_READ (R581): the request joins the signer's queue of 16, and is delivered when it runs again. `sig`: the Steelyard's signatures.
[DEDUCED: notes/assumptions/42.md] -/
def execMeterRead (c : Call) (stall out_ outMax : Nat) (sig : Bytes) (ok : Bool) (s : State) : Host.Outcome State Fault Refusal :=
  done (s.command c 0x0C03 fun t =>
    match t.meterReading stall with
    | none => t.finishDetail c stParam 0x30
    | some (r, final) =>
      if outMax < 7648 then t.complete { c.record stShort with result := leBytes 4 7648 }
      else if !t.sty.queue.contains c then
        if 16 ≤ t.sty.queue.length ∨ t.inUnitReset unitSteelyard then t else { t with sty := { t.sty with queue := t.sty.queue ++ [c] } }
      else if t.styHeld then t
      else
        let t : State := { t with sty := { t.sty with queue := t.sty.queue.erase c } }
        let sg := if t.sty.keyFailed then zeros 4728 else (padTo 4728 sig).take 4728
        t.output c out_ outMax (t.readingBytes r final ++ sg) ok fun t =>
          let t : State := if t.sty.keyFailed then t else { t with sty := { t.sty with readings := satAdd 65535 t.sty.readings 1 } }
          (if t.sty.keyFailed then t else t.firstReading).finishOk c (leBytes 4 7648))

end Sys2Proof.Machine
end

