-- ==== Sys2Proof/Machine/Tick.lean ====
section
/-!
DEFINITION. The tick (spec/04_clocks_time.md R102 to R106): boundaries accepted, queued and discarded, entry to full mode
(spec/06_almanac_bringup.md R173), the advance of the global write epoch (spec/08_sealed_sector_format.md R224 to R229), floor passes that
fall due (spec/10_ledger_sweeper.md R299, R300), replay statements (spec/01_trust_domain.md R34, R35) and tick-aligned commands.
-/

namespace Sys2Proof.Machine

/-! ### Entry to full mode (R173) -/

/-- The conditions of R173. -/
def Ald.ready (a : Ald) : Bool := a.memTrained && a.linksTrained && a.restored && a.joined && !a.full

/-- The start of an epoch recorded in its ring entry (R229). -/
def Epoch.startAt (e time : Nat) (p : Epoch) : Epoch :=
  { p with ring := assocSet (e % 256) { epoch := e, time, inherited := false } p.ring }

/-- The Harbour re-seal ordered: every BOOT region from the boot key to the live generation of Stall 0's Harbour REGION key (R173). -/
def State.orderHarbour (s : State) : State :=
  let g := ((s.liveEntry? harbourHandle).map (·.gen)).getD 0
  let t := (s.regionsWhere fun e => decide (e.state = .boot)).foldl (fun t r => t.orderRegion .key 0 0 g true r) s
  { t with ald := { t.ald with harbourReseal := true } }

/-- The block enters full mode at a boundary (R173): the epoch is no longer frozen, held signals leave, suspended Stalls are served, and the
Harbour range is re-sealed. [DEDUCED: notes/assumptions/11.md] -/
def State.enterFull (time : Nat) (s : State) : State :=
  if ¬ s.ald.ready then s else
    let e := s.epo.epoch
    let p : Epoch := { s.epo with frozen := false, ticksSince := 0 }
    let t : State := { s with
      ald := { s.ald with full := true }
      epo := if (assocGet (e % 256) p.ring).isSome then p else p.startAt e time
      stl := { s.stl with credit := 0 } }
    let t := t.event evFullMode unitAlmanac none e 0
    let t := (t.stl.table.map (·.1)).foldl (fun t i => t.sendRefusal i) t
    t.releaseMarks.orderHarbour.issueAlias

/-! ### The epoch (R224 to R228) -/

/-- The window of a region class. -/
def EpochCfg.window (c : EpochCfg) (pool : Bool) : Nat := if pool then c.wPool else c.wLocal

/-- Entries of a class that have a floor. -/
def State.windowed (s : State) (pool : Bool) : List LdgEntry :=
  (((if pool then s.ldg.poolEntries else s.ldg.localEntries).map (·.2)).filter fun (e : LdgEntry) => e.state.windowed)

/-- The next epoch. -/
def nextEpoch (e : Nat) : Nat := (e + 1) % 2 ^ 24

/-- A region of the class whose floor is too old for the next epoch. -/
def State.holds (s : State) (pool : Bool) : Bool :=
  (s.windowed pool).any fun (e : LdgEntry) => decide (s.cfg.epoch.window pool < sub24 (nextEpoch s.epo.epoch) e.floor)

/-- A live REGION generation whose lifetime the next epoch would bring to 2^24 − 256 (R228). -/
def State.lifeHolds (s : State) : Bool :=
  s.stl.data.any fun p => p.2.keys.any fun (k : KeyEntry) =>
    decide (handleType k.handle = keyRegion ∧ ¬ k.destroyed ∧ 2 ^ 24 - 256 ≤ sub24 (nextEpoch s.epo.epoch) k.eC)

/-- The REGION generations that reach one of the lifetimes of R228 at the epoch in force. [DEDUCED: notes/assumptions/11.md] -/
def State.agedKeys (s : State) : List KeyEntry :=
  s.stl.data.flatMap fun p => p.2.keys.filter fun (k : KeyEntry) =>
    decide (handleType k.handle = keyRegion ∧ ¬ k.destroyed) &&
      decide (sub24 s.epo.epoch k.eC = 2 ^ 23 ∨ sub24 s.epo.epoch k.eC = 2 ^ 24 - 512)

/-- The advance (R224, R225, R229): sent to every MSE, recorded, in the anchor and for the store; the N-tick count restarts. `left`: boundaries
already accepted behind this one. [DEDUCED: notes/assumptions/11.md] -/
def State.advanceEpoch (time left : Nat) (s : State) : State :=
  let e := nextEpoch s.epo.epoch
  let p : Epoch := { s.epo with
    epoch := e, held := false, holdLocal := false, holdPool := false, holdRaised := false, ticksSince := left
    unacked := List.range s.build.mseCount }
  let t := if s.epo.holdLocal then s.waitEnd 78 14 none 0 else s
  let t := if s.epo.holdPool then t.waitEnd 78 14 none 1 else t
  let t : State := { t with
    epo := p.startAt e time
    ldg := { t.ldg with anchor := { t.ldg.anchor with epoch := if t.ldg.anchor.valid then e else t.ldg.anchor.epoch } } }
  let t := (t.queueItems [.epoch e time]).bump 2 1
  t.agedKeys.foldl (fun t k => t.regionWear k.handle k.gen true) t

/-- A boundary at which a due advance is held (R224, R300): HELD, HOLD_COUNT, and EV_SWP_HOLD once where a floor is the cause. -/
def State.holdEpoch (s : State) : State :=
  let l := s.holds false
  let p := s.holds true
  let t := if l ∧ ¬ s.epo.holdLocal then s.waitBegin 78 14 none 0 else s
  let t := if p ∧ ¬ s.epo.holdPool then t.waitBegin 78 14 none 1 else t
  let first := (l || p) && !s.epo.holdRaised
  let t : State := { t with epo := { t.epo with
    held := true, holdCount := satAdd 65535 t.epo.holdCount 1, holdLocal := l, holdPool := p, holdRaised := t.epo.holdRaised || first } }
  let t := t.bump 3 1
  if first then t.event evSwpHold unitLedger none (if l then 0 else 1) t.epo.epoch else t

/-- Step 2 of R104: the advance takes place if it is due, or is held. `left`: accepted boundaries that wait behind this one. -/
def State.stepEpoch (time left : Nat) (s : State) : State :=
  if ¬ s.ald.full then s
  else if ¬ s.epo.held ∧ s.epo.ticksSince - left < s.cfg.epoch.n then s
  else if s.holds false || s.holds true || s.lifeHolds || !s.epo.unacked.isEmpty then s.holdEpoch
  else s.advanceEpoch time left

/-- LEAD of a class (R299). -/
def EpochCfg.lead (c : EpochCfg) (pool : Bool) : Nat := max 1 (c.window pool / 4)

/-- A FLOOR pass ordered for a region: SWEEP set, its order queued; it changes no generation, so no tile adopts it. -/
def State.orderFloor (r : RegionId) (s : State) : State :=
  let e := { s.entry r with sweep := true }
  let t := (s.writeEntry r e).queueItems [.entry r e]
  { t with swp := { t.swp with queue := t.swp.queue ++
    [{ kind := .floor, region := r, stall := e.owner, old := e.gen, new := e.gen, bootOld := false }] } }

/-- A FLOOR pass of the region is queued or active, or its KEY sweep has begun (R299). -/
def State.floorServed (s : State) (r : RegionId) : Bool :=
  (s.sweepSlot? r).isSome || s.swp.queue.any fun (o : SweepOrder) => decide (o.region = r ∧ o.kind ≠ .key)

/-- The regions that are due for a FLOOR pass at a boundary (R299). -/
def State.orderFloors (s : State) : State :=
  if ¬ s.ald.full then s else
    let due (pool : Bool) (e : LdgEntry) : Bool :=
      e.state.windowed && decide (s.cfg.epoch.window pool - s.cfg.epoch.lead pool ≤ sub24 s.epo.epoch e.floor)
    let rs := (s.ldg.localEntries.filter fun p => due false p.2).map (fun p => ({ pool := false, index := p.1 } : RegionId)) ++
      (s.ldg.poolEntries.filter fun p => due true p.2).map fun p => ({ pool := true, index := p.1 } : RegionId)
    rs.foldl (fun t r => if t.floorServed r then t else t.orderFloor r) s

/-! ### Replay statements (R34, R35, R230, R420) -/

/-- The largest (E − FLOOR) of a list of entries. -/
def State.span (s : State) (es : List LdgEntry) : Nat := (es.map fun (e : LdgEntry) => sub24 s.epo.epoch e.floor).foldl max 0

/-- The replay statement of a Stall as of now. -/
def State.replayOf (s : State) (id : Nat) (old : ReplayStatement) : ReplayStatement :=
  let mine (pool : Bool) : List LdgEntry := (s.windowed pool).filter fun (e : LdgEntry) => e.owner = id
  let l := mine false
  let p := mine true
  let es := l ++ p
  let span := s.span es
  let rebase := ((s.stall? id).map (·.rebase)).getD false
  let oldest := sub24 s.epo.epoch span
  let start := if rebase then (s.stallData? id).map (·.importFloorTime)
    else ((assocGet (oldest % 256) s.epo.ring).filter fun (x : EpochStart) => x.epoch = oldest).map (·.time)
  let unknown := !es.isEmpty && (!s.clk.anchored || start.isNone)
  let age := if es.isEmpty ∨ unknown then 0 else (s.clk.domain - start.getD 0) / 1000000
  let past (b : Bool) (bound : Nat) : Bool := b && decide (bound * 1000 < age)
  { span, hasLocal := !l.isEmpty, hasPool := !p.isEmpty
    stretch := if unknown then old.stretch else past (!l.isEmpty) s.cfg.epoch.boundLocal || past (!p.isEmpty) s.cfg.epoch.boundPool
    unknown, fromRecord := rebase, age }

/-- One statement refreshed; EV_REPLAY_STRETCH when its age first exceeds a bound. -/
def State.refreshReplay (id : Nat) (s : State) : State :=
  match s.stallData? id with
  | none => s
  | some d =>
    let r := s.replayOf id d.replay
    let t := s.setStallData id { d with replay := r }
    if r.stretch ∧ ¬ d.replay.stretch then t.event evReplayStretch unitStallMgr (some id) 0 r.age else t

/-- Step 3 of R104: every resident Stall; in Harbour mode also the restored Stalls, which are held suspended. -/
def State.refreshReplays (s : State) : State :=
  ((s.stl.table.map (·.1)).filter fun i => s.resident i || !s.ald.full).foldl (fun t i => t.refreshReplay i) s

/-! ### Tick-aligned commands (R104 step 4, R477) -/

/-- A wait for the next boundary begins, or goes on for one boundary more (R562). -/
def State.deferWait (q : Queued) (s : State) : State :=
  if q.waited = 0 then s.waitBegin 79 3 (some q.call.stall) 1
  else
    let is (w : RingWait) : Bool := decide (w.ring = 79 ∧ w.kind = 3 ∧ w.waiter = some q.call.stall ∧ w.object = q.waited)
    match s.obs.waits.find? is with
    | none => s
    | some w => { s with obs := { s.obs with waits := s.obs.waits.map fun (x : RingWait) => if x = w then { w with object := q.waited + 1 } else x } }

/-- The command as it waits for the next boundary. [DEDUCED: notes/assumptions/10.md] -/
def Queued.deferred (q : Queued) : Queued := { q with call := { q.call with deferred := true }, waited := q.waited + 1 }

/-- A deferral counted (R477). -/
def State.countDefer (q : Queued) (s : State) : State :=
  ({ s with hlm := { s.hlm with deferred := satAdd 65535 s.hlm.deferred 1 } }.bump 7 1).deferWait q

/-- The tick queue of a boundary in order: a command whose WAIT or FENCE is unmet keeps its place for the next boundary (R477, R478). -/
def State.sortTick : List Queued → List Queued → List Queued → State → List Queued × List Queued × State
  | [], kept, started, s => (kept, started, s)
  | q :: rest, kept, started, s =>
    if s.waitBroken q.call then State.sortTick rest kept started (s.finish q.call stMarkPoisoned)
    else if s.waitUnmet q.call || (q.call.fence && (s.hlm.running ++ s.hlm.buffer ++ kept).any fun (e : Queued) =>
        decide (e.call.qid = q.call.qid ∧ ¬ e.call.window ∧ e.order < q.order)) then
      State.sortTick rest (kept ++ [q.deferred]) started ((if s.waitUnmet q.call then s.wantMark q.call.waitMark else s).countDefer q)
    else
      State.sortTick rest kept (started ++ [{ q with call := { q.call with ticked := true } }])
        (s.waitEnd 79 3 (some q.call.stall) q.waited)

/-- Step 4 of R104: Helm decodes what has been accepted and starts the boundary's commands, removals first.
[DEDUCED: notes/assumptions/10.md] -/
def State.runTick (s : State) : State :=
  let t := s.decodeBuffer
  let q := t.hlm.tickQ
  let r := State.sortTick q [] [] { t with hlm := { t.hlm with tickQ := [] } }
  let removal (e : Queued) : Bool := decide (e.call.opcode = 0x0402)
  let u := r.2.2
  { u with hlm := { u.hlm with
    tickQ := r.1, running := u.hlm.running ++ r.2.1.filter removal ++ r.2.1.filter fun e => !removal e } }

/-! ### Boundaries (R102 to R106) -/

/-- What holds only within a tick ends. -/
def State.clearTickFlags (s : State) : State :=
  { s with
    mse := s.mse.map fun (m : Mse) => { m with err := { m.err with misrouteRaised := false } }
    lse := s.lse.map fun (l : Lse) => { l with windowRaised := false, deadRaised := false, gapRaised := false }
    xck := { s.xck with bindings := s.xck.bindings.map fun (p : Nat × XckBinding) => (p.1, { p.2 with raised := false }) }
    swp := { s.swp with yieldBlocked := if s.swp.yield.isNone then s.swp.yieldBlocked - 1 else s.swp.yieldBlocked } }

/-- The join exchanges that wait for a boundary start again (R375). -/
def State.startJoins (s : State) : State :=
  (s.dom.exchanges.filter fun (x : HybExchange) => x.initiator ∧ x.h1 = []).foldl (fun t (x : HybExchange) => match x.lse with
    | some i => t.startJoin i
    | none => t) s

/-- Helm's work for a boundary of domain time `time`, with `left` boundaries behind it (R104, R106). -/
def State.tickHelm (time left : Nat) (s : State) : State :=
  let t := ((s.enterFull time).stepEpoch time left).orderFloors.refreshReplays.startJoins.runTick
  { t with clk := { t.clk with tickWork := some t.clk.elapsed } }

/-- The admission credit at an accepted boundary, in units of 10^-9 admissions (R405). -/
def Stl.addCredit (now last : Nat) (x : Stl) : Stl :=
  { x with credit := min (2500 * 10 ^ 9) (x.credit + 2500 * (now - last)), creditAt := now }

/-- A boundary that comes while Helm is in core reset waits; a fifth one discards the oldest, at which a due advance then counts as held
(R106). -/
def State.queueTick (time : Nat) (s : State) : State :=
  let b : QueuedTick := { time, due := s.ald.full && decide (s.epo.held ∨ s.cfg.epoch.n ≤ s.epo.ticksSince) }
  match s.rst.queuedTicks with
  | old :: rest =>
    if rest.length < 3 then { s with rst := { s.rst with queuedTicks := old :: (rest ++ [b]) } }
    else
      let n := s.rst.discarded + 1
      let t : State := { s with
        rst := { s.rst with queuedTicks := rest ++ [b], discarded := n }
        clk := { s.clk with tickOverrun := true } }
      let t := (t.event evTickOverrun unitRcu none 0 n).bump (ctrHlm 2) 1
      if old.due then t.holdEpoch else t
  | [] => { s with rst := { s.rst with queuedTicks := [b] } }

/-- An accepted boundary (R102 to R104): its time and count, a Beacon armed for it, the Steelyard's latch, then Helm's work.
[DEDUCED: notes/assumptions/11.md] [DEDUCED: notes/assumptions/12.md] -/
def State.acceptTick (s : State) : State :=
  let time := s.clk.domain - 30
  let t := if s.obs.armed ∧ s.obs.armTime = 0 ∧ s.mon.stop.isNone then s.fireArmed 2 else s
  let t : State := { t with
    clk := { t.clk with tickCount := t.clk.tickCount + 1, tickTime := time, lastTick := some t.clk.elapsed, lateRaised := false }
    stl := t.stl.addCredit t.clk.elapsed (t.clk.lastTick.getD t.stl.creditAt) }
  let t := (t.bump 1 1).styLatch.clearTickFlags
  if t.rst.rstBusy ∨ t.rst.phase ≠ .service ∨ t.ald.noAlmanac ∨ t.alr.quiet then t
  else
    let t : State := if t.ald.full then { t with epo := { t.epo with ticksSince := satAdd 65535 t.epo.ticksSince 1 } } else t
    if t.rst.coreReset.isSome then t.queueTick time else t.tickHelm time 0

/-- TICK_BOUNDARY (R102 to R106): a change of level of tick. In P or S it is no boundary; one less than 50 µs after the last is ignored and
sounds its crossing (R103, R535). -/
def execTickBoundary (s : State) : Host.Outcome State Fault Refusal :=
  let t := s.begin
  let t : State := { t with pins := { t.pins with tick := !t.pins.tick } }
  done (if t.rst.phase = .inReset then t
    else match t.clk.lastTick.filter fun (l : Nat) => decide (t.clk.elapsed < l + 50000) with
      | some l =>
        let u : State := { t with
          clk := { t.clk with tickShort := true, shortCount := t.clk.shortCount + 1 }
          alr := { t.alr with crossings := if t.alr.crossings.contains 2 then t.alr.crossings else t.alr.crossings ++ [2] } }
        u.event evTickShort unitRcu none (t.clk.elapsed - l) 0
      | none => t.acceptTick)

/-- TICK_LATE (R103): 100 s without an accepted boundary, once. [DEDUCED: notes/assumptions/12.md] -/
def execTickLate (s : State) : Host.Outcome State Fault Refusal :=
  let t := s.begin
  done (if t.clk.lateRaised ∨ t.rst.phase = .inReset ∨ ¬ t.expired (t.clk.lastTick.getD t.clk.releasedAt) (100 * 10 ^ 9) then t
    else ({ t with clk := { t.clk with tickLate := true, lateRaised := true } }).event evTickLate unitRcu none 0 0)

/-- A command of a boundary has been started. -/
def State.begun (s : State) (c : Call) : Bool :=
  s.committed c || s.engineHeld c || s.mrk.waits.any (fun (w : MarkWait) => decide (w.call = c)) ||
    s.sbx.entropyWaits.any fun (w : EntropyWait) => decide (w.call = c)

/-- TICK_BUDGET_EXPIRY (R105): at 20 µs the commands not yet started go to the next boundary, ahead of later ones. -/
def execTickBudgetExpiry (s : State) : Host.Outcome State Fault Refusal :=
  let t := s.begin
  done (match t.clk.tickWork with
    | none => t
    | some since =>
      if ¬ t.expired since 20000 then t
      else
        let t : State := { t with clk := { t.clk with tickWork := none } }
        let late := t.hlm.running.filter fun (q : Queued) => q.call.ticked && !t.begun q.call
        if late.isEmpty then t
        else
          let u := late.foldl (fun (t : State) q => t.countDefer q) t
          let back := late.map fun (q : Queued) => { q.deferred with call := { q.deferred.call with ticked := false } }
          let u : State := { u with
            hlm := { u.hlm with running := u.hlm.running.filter fun q => !late.contains q, tickQ := back ++ u.hlm.tickQ }
            clk := { u.clk with tickOverrun := true } }
          (u.event evTickOverrun unitRcu none late.length 0).bump (ctrHlm 2) 1)

end Sys2Proof.Machine
end

