-- ==== Sys2Proof/Machine/Reset.lean ====
section
/-!
DEFINITION. Resets (spec/05_reset.md): P and S, the release and the fuse steps of start-up, core reset, unit resets, and the partition
resets of the host.
-/

namespace Sys2Proof.Machine

/-! ### P and S (R118 to R121) -/

/-- The inputs in a reset that has just begun: the samples of the rclk domain start anew (R85, R86, R120).
[DESIGN CHOICE: notes/assumptions/4.md] -/
def Pins.sampleAnew (p : Pins) : Pins := { p with coolantOk := true, tamper := 0, tamperB := 0xFF }

/-- The NVM device through a reset: what it holds stays, what the block had queued for it does not. -/
def Nvm.atReset (n : Nvm) : Nvm := { n with journalQueue := [], journalErase := none }

/-- A reset ends a load (R126). -/
def State.endsLoad (s : State) : Bool := decide (s.rst.phase = .loading) && s.rst.rstBusy

/-- P asserted (R121): everything at its value after P; the device, the fuses and the levels of the clocks stay.
[DEDUCED: notes/assumptions/30.md] -/
def State.assertP (s : State) : State :=
  let t := State.powerOn s.build { s.pins.sampleAnew with porN := false } s.lcu.fuses s.nvm.atReset s.fresh
  { t with
    clk := { t.clk with pclkFreq := s.clk.pclkFreq }
    mon := { t.mon with stop := s.mon.stop, freqAck := s.mon.freqAck }
    rst := if s.endsLoad then { t.rst with cause := setBit t.rst.cause causeLoadRestart } else t.rst
    sbx := { t.sbx with entropyOk := s.sbx.entropyOk }
    pending := s.pending }

/-- XS_RCU_RSTCAUSE at an S (R141). [DEDUCED: notes/assumptions/30.md] -/
def State.causeAtS (s : State) : BitVec 11 :=
  let c := setBit s.rst.cause causeSys
  let c := if s.alr.tamper then setBit c causeSysAfterTamper else c
  let c := if s.alr.safeStop then setBit c causeSysAfterSafestop else c
  if s.endsLoad then setBit c causeLoadRestart else c

/-- What S keeps of the Steelyard: accumulators, counts, die energy and its channels (R583). [DEDUCED: notes/assumptions/30.md] -/
def Sty.throughS (y : Sty) : Sty :=
  { Sty.atReset with
    accs := y.accs, counts := y.counts, energy := y.energy, apportioned := y.apportioned, chans := y.chans, latch := y.latch
    suspectCause := y.suspectCause, suspectMask := y.suspectMask, suspectRun := y.suspectRun, suspectTicks := y.suspectTicks
    suspects := y.suspects, finals := y.finals }

/-- What S keeps of the Ledger: the anchor, and what stands in the store (R121, R139). -/
def Ldg.throughS (l : Ldg) : Ldg :=
  { Ldg.atReset with
    storeId := l.storeId, storeRoot := l.storeRoot, counter := l.counter, sinceBase := l.sinceBase, baseSlotB := l.baseSlotB
    logPos := l.logPos, store := l.store, anchor := l.anchor }

/-- S asserted (R121). [DEDUCED: notes/assumptions/30.md] -/
def State.assertS (s : State) : State :=
  let t := State.powerOn s.build { s.pins.sampleAnew with sysN := false } s.lcu.fuses s.nvm.atReset s.fresh
  { t with
    clk := { t.clk with elapsed := s.clk.elapsed, pclkFreq := s.clk.pclkFreq }
    mon := { t.mon with runts := s.mon.runts, runtTotal := s.mon.runtTotal, stop := s.mon.stop, freqAck := s.mon.freqAck, temp := s.mon.temp }
    rst := { t.rst with
      level := .s, cause := s.causeAtS, sysCount := satAdd 255 s.rst.sysCount 1, coreCount := s.rst.coreCount, lastS := true }
    cap := { s.cap with tickCnt := 0, tickTime := 0, freeze := 0, arm := 0, gapTotal := 0 }
    alr := { t.alr with log := s.alr.log, logOverflow := s.alr.logOverflow, seen := s.alr.seen }
    obs := { t.obs with bankFault := s.obs.bankFault }
    lcu := { t.lcu with xfail := s.lcu.xfail, tapIr := s.lcu.tapIr }
    sbx := { t.sbx with entropyOk := s.sbx.entropyOk, zeroizeCount := satAdd 65535 s.sbx.zeroizeCount 1 }
    epo := { t.epo with epoch := if s.ldg.anchor.valid then s.ldg.anchor.epoch else 0 }
    ldg := s.ldg.throughS
    stl := { t.stl with records := s.stl.records }
    mrk := { t.mrk with anchored := (s.mrk.dir.filter fun (p : Nat × MarkDir) => p.2.spilledAt.isSome) ++ s.mrk.anchored }
    sty := s.sty.throughS
    pending := s.pending }

/-- POWER_ON_RESET (R118, R121). -/
def execPowerOnReset (s : State) : Host.Outcome State Fault Refusal := done s.begin.assertP

/-- SYSTEM_RESET (R118, R121): under P, and while rst_sys_n is 0 already, the input alone changes. -/
def execSystemReset (s : State) : Host.Outcome State Fault Refusal :=
  let t := s.begin
  done (if ¬ t.pins.porN ∨ (t.rst.phase = .inReset ∧ ¬ t.pins.sysN) then { t with pins := { t.pins with sysN := false } } else t.assertS)

/-! ### Release and the fuse steps of start-up (R122 to R125) -/

/-- The User partition's erase of ANALYSIS, which every start in ANALYSIS runs again (R500, R509). -/
def State.eraseUser (s : State) : State :=
  let es := (wipeRange lcDeployed lcAnalysis).filter s.nvm.used
  { s.emits (es.map Out.nvmErase) with nvm := es.foldl Nvm.erase s.nvm }

/-- Steps 1 and 2 of R125: the fuse words are read and decoded (R498); a transition in progress is completed first (R507), SCRAP and
INVALID end the start (R510), else trims, the DRK and the seed are loaded. [DEDUCED: notes/assumptions/32.md] -/
def State.startUp (s : State) : State :=
  match s.lcu.decode with
  | .inTransition x =>
    let src := s.lcu.sourceState x
    let tr : Transition :=
      { target := x, source := src, phase := 0, viaTap := false, call := none, resumed := true, since := s.clk.elapsed, sectors := 0
        erases := [], auth := [] }
    { s with lcu := { s.lcu with state := src, transition := some tr } }
  | .state code =>
    let t : State := { s with lcu := { s.lcu with state := code } }
    if code = lcScrap ∨ code = lcInvalid then t.enterDead
    else (if code = lcAnalysis then t.eraseUser else t).loadFuses.runFuses

/-- The release of P or S (R122): domain time, the tick and the timers start, and start-up begins. `fuseFail` names a fuse word whose read
did not return (R82); `trims` is what the trim words hold. -/
def State.release (coolantOk : Bool) (tamper tamperB : Nat) (fuseFail : Option Nat) (trims : Trims) (s : State) : State :=
  let t : State := { s with
    rst := { s.rst with phase := .loading }
    clk := { s.clk with releasedAt := s.clk.elapsed }
    lcu := { s.lcu with trims } }
  let t := (t.newNonce.sampleTamper tamper tamperB).sampleCoolant coolantOk
  match fuseFail with
  | some w =>
    ({ t with rst := { t.rst with noLoad := true }, lcu := { t.lcu with state := lcInvalid } }).alarmTamper unitLifecycle 3 w
  | none => t.startUp

/-- RESET_RELEASE (R122, R123, R531): the reset inputs have returned to 1 and, with clkc_good at 1 and pclk running, 128 PCLK cycles have
passed without a runt; else EARLY_RELEASE is set and the block stays in reset. [DESIGN CHOICE: notes/assumptions/6.md]
[DEDUCED: notes/assumptions/32.md] [PRESUMED: notes/assumptions/33.md] -/
def execResetRelease (clkcGood coolantOk : Bool) (tamper tamperB : Nat) (fuseFail : Option Nat) (trims : Trims) (s : State) :
    Host.Outcome State Fault Refusal :=
  let t := s.begin
  done (if t.rst.phase ≠ .inReset then t
    else
      let t : State := { t with pins := { t.pins with porN := true, sysN := true, clkcGood } }
      if ¬ clkcGood ∨ t.mon.stop.isSome then { t with rst := { t.rst with cause := setBit t.rst.cause causeEarlyRelease } }
      else t.release coolantOk tamper tamperB fuseFail trims)

/-! ### Core reset (R119, R127 to R130, R142) -/

/-- HELM_WATCHDOG_EXPIRY (R118, R119): a core reset; the third expiry within 10 s of elapsed time enters Safe Stop instead.
[DEDUCED: notes/assumptions/23.md] -/
def execHelmWatchdogExpiry (s : State) : Host.Outcome State Fault Refusal :=
  let t := s.begin
  done (if t.rst.rstBusy ∨ t.rst.phase ≠ .service ∨ t.alr.quiet then t
    else
      let times := (t.clk.elapsed :: t.rst.wdogTimes.filter fun (w : Nat) => decide (t.clk.elapsed ≤ w + 10 ^ 10)).take 3
      let u : State := { t with rst := { t.rst with wdogTimes := times } }
      if 3 ≤ times.length then u.alarmSafestop unitRcu 2 times.length else u.beginCore causeCoreWdog)

/-- PATCH_COMMIT (R486, R129): its commit point starts a core reset; its record is written after it. -/
def execPatchCommit (c : Call) (s : State) : Host.Outcome State Fault Refusal :=
  if s.rst.patchCall = some c then done s.begin
  else done (s.command c 0x0103 fun t => ({ t with rst := { t.rst with patchCall := some c } }).beginCore causeCorePatch)

/-- The boundaries queued during C, in order, each with the work of R104 (R106). -/
def State.runTicks : List QueuedTick → State → State
  | [], s => s
  | b :: rest, s => State.runTicks rest (s.tickHelm b.time rest.length)

/-- The record of the PATCH_COMMIT that began the core reset (R129, R485). -/
def State.finishPatch (s : State) : State :=
  match s.rst.patchCall with
  | none => s
  | some c => ({ s with rst := { s.rst with patchCall := none } }).finishOk c (leBytes 1 s.hlm.applied.length)

/-- CORE_RESET_END (R106, R127, R130, R357): patches are applied, the firmware is measured anew, and Helm takes up what waited. -/
def execCoreResetEnd (s : State) : Host.Outcome State Fault Refusal :=
  let t := s.begin
  done (match t.rst.coreReset with
    | none => t
    | some since =>
      let q := t.rst.queuedTicks
      let u : State := { t with
        rst := { t.rst with coreReset := none, queuedTicks := [], discarded := 0 }
        alr := { t.alr with progressAt := t.alr.progressAt + (t.clk.elapsed - since) } }
      let u := u.applyPatches
      if u.alr.quiet then u
      else
        let old := u.att.mFw
        let u := u.measure
        let u := if u.att.mFw = old ∨ u.ald.noAlmanac then u
          else (u.event evEvidenceChanged unitHelm none u.hlm.applied.length 0).issueAlias
        u.finishPatch.runTicks q)

/-- XS_RCU_RESET written (R142): CORE starts a C, SYS_REQ sets rst_req and the quiet state (R119). -/
def State.writeReset (w : Word) (s : State) : State :=
  let t : State := if w.getLsbD 1 then { s.enterQuiet with rst := { s.rst with rstReq := true } } else s
  if w.getLsbD 0 then t.beginCore causeCoreCmd else t

/-! ### Unit resets (R131 to R134) -/

/-- The unit can be reset alone in this build (R131). -/
def Build.resettable (b : Build) (code : Nat) : Bool :=
  if code < 0x40 then decide (code < b.mseCount)
  else if code < 0x80 then decide (code - 0x40 < b.lseCount)
  else if code < 0xC0 then decide (code - 0x80 < b.hseCount)
  else if code = unitBooth ∨ code = unitSweeper then true
  else if code = unitTollgate then b.tol
  else if code = unitCrosscheck then b.xck
  else if code = unitSteelyard then b.sty
  else false

/-- XS_RCU_URST.GO (R131, R132): the idle request, or REFUSED. -/
def State.unitResetGo (code : Nat) (s : State) : State :=
  if ¬ s.build.resettable code ∨ s.inUnitReset code ∨ s.alr.safeStop ∨ s.alr.quiet then { s with rst := { s.rst with refused := true } }
  else
    let u : UnitReset := { code, since := s.clk.elapsed, held := false, forced := false, squashed := 0 }
    { s with rst := { s.rst with unitResets := s.rst.unitResets ++ [u] } }

/-- XS_RCU_URST written (R143); GO is inert while rst_busy is 1 (R126). -/
def State.writeUrst (w : Word) (s : State) : State :=
  let t : State := { s with rst := { s.rst with
    urstUnit := w.setWidth 8, forced := s.rst.forced && !w.getLsbD 10, done := s.rst.done && !w.getLsbD 11
    refused := s.rst.refused && !w.getLsbD 12 } }
  if w.getLsbD 8 ∧ ¬ s.rst.rstBusy then t.unitResetGo (w.toNat % 256) else t

/-- Nothing is outstanding in a handoff-free Tollgate: an export handed to the Booth is the Booth's (R466). -/
def State.tollIdle (s : State) : Bool := s.tol.running.isNone || s.bth.tollgate

/-- The unit is idle: nothing is outstanding on any of its channels (R132). -/
def State.unitIdle (s : State) (code : Nat) : Bool :=
  if code < 0x40 then (s.mse[code]?).all fun (m : Mse) => m.held.isEmpty && m.hazards.isEmpty && m.ops.isEmpty && m.tagPending.isEmpty
  else if code < 0x80 then (s.lse[code - 0x40]?).all fun (l : Lse) => l.out.isEmpty && l.inbound.isEmpty && l.txBuf.isEmpty && l.rxBuf.isEmpty
  else if code < 0xC0 then true
  else if code = unitBooth then s.bth.running.isNone && s.bth.queue.isEmpty
  else if code = unitTollgate then s.tollIdle
  else if code = unitCrosscheck then s.xck.bindings.all fun p => p.2.waiting.isEmpty
  else if code = unitSweeper then s.swp.slots.isEmpty
  else s.sty.queue.isEmpty

/-- The event ring of a unit. -/
def ringOf (code : Nat) : Nat :=
  if code < 0x40 then code else if code < 0x80 then code - 0x40 + 24 else if code < 0xC0 then code - 0x80 + 72
  else if code = unitBooth then 76 else if code = unitTollgate then 77 else 78

/-- The waits recorded for a unit end. -/
def State.endWaits (ring : Nat) (s : State) : State :=
  (s.obs.waits.filter fun w => w.ring = ring).foldl (fun (t : State) w => t.waitEnd w.ring w.kind w.waiter w.object) s

/-- The sweep slots go back to their last checkpoint, a key sweep with its band (R138, R295). -/
def SweepSlot.toCheckpoint (w : SweepSlot) : SweepSlot :=
  if w.waiting then w
  else { w with
    done := []
    bandHi := if w.order.kind = .key ∨ w.order.kind = .band then max w.bandHi ((w.stride + 1) * 65536) else w.bandHi }

/-- The MSE works on the slot's region. -/
def State.sweeps (s : State) (i : Nat) (w : SweepSlot) : Bool :=
  (s.regionAddr w.order.region).any fun (base : Nat) => (List.range 512).any fun k =>
    decide (s.homeMse (base + w.stride * 65536 + k * 128) = some i)

/-- Work of the Sweeper not yet presented leaves an MSE; what is presented ends on its own. -/
def State.dropSweepOps (i : Nat) (s : State) : State :=
  let ours (o : MemOp) : Bool := decide (o.role = .sweepRead ∨ o.role = .sweepWrite ∨ o.role = .zeroWrite)
  (s.modMse i fun m => { m with
    ops := (m.ops.filter fun o => !(ours o && (o.id.isNone || !o.write))).map fun o => if ours o then { o with role := .hostWrite, reqs := [] } else o
    reserved := m.reserved ++ (m.ops.filter fun o => ours o && !o.write && o.id.isSome).map fun o =>
      { id := o.id.getD 0, sector := o.sector, write := false }
    hazards := (m.hazards.filter fun h => !(h.sweeper && h.queue.isEmpty && h.outBuf.isNone && h.fillBuf.isNone && h.lock.isNone)).map fun h =>
      { h with sweeper := false } }).advanceAll i

/-- A forced MSE (R133): every host-side request is answered POISON, and how many those were. -/
def State.squashMse (i : Nat) (s : State) : State × Nat :=
  match s.mse[i]? with
  | none => (s, 0)
  | some m => ((s.answerAll i .poison [] m.requests).modMse i Mse.squash, m.requests.length)

/-- A forced LSE (R133): units cut, outbound requests answered POISON, lsN_lt_halt at 1 until a rekey of both directions. -/
def State.squashLse (i : Nat) (s : State) : State × Nat :=
  match s.lse[i]? with
  | none => (s, 0)
  | some l =>
    ((s.poisonLse i).modLse i fun l => { l with txBuf := [], rxBuf := [], inbound := [], revokes := [], forced := decide (l.secret ≠ []) },
      l.out.length)

/-- The Booth's operations end with ST_UNIT_RESET and DO_NOT_TRUST, the lock is released (R133). `written` is what stands in DST by then;
an export whose handoff runs ends with it (R466). [DEDUCED: notes/assumptions/28.md] -/
def State.forceBooth (written : Bytes) (s : State) : State × Nat :=
  let q := s.bth.queue
  let t := match s.bth.running with
    | none => s
    | some o =>
      let w := if o.holds then [] else written.take o.len
      let t := ((s.writeRange o.call.stall o.dst w).keyBusy o.handle false).bump (ctrBooth 2) w.length
      let t : State := { t with bth := { t.bth with running := none, leaseAt := t.clk.elapsed } }
      match t.tol.running.filter fun (e : Export) => decide (e.call = o.call ∧ e.phase = 5) with
      | some e =>
        let t : State := { t with tol := { t.tol with running := none, hold := [] } }
        t.complete { e.call.record stUnitReset with doNotTrust := true, result := (padTo 12 e.nonce).take 12 ++ leBytes 8 e.seq }
      | none => t.complete (o.record stUnitReset w.length false true)
  let t : State := { t with bth := { t.bth with queue := [] } }
  let t := q.foldl (fun (t : State) o => t.complete (o.record stUnitReset 0 false true)) t
  (t.unlockBooth.settleDestroys, q.length + bit s.bth.running.isSome)

/-- The Tollgate's export ends with ST_UNIT_RESET before its handoff; a charge past its commit point stays (R133, R466). -/
def State.squashTollgate (s : State) : State × Nat :=
  if s.bth.tollgate then (s, 0) else
    match s.tol.running with
    | none => (s, 0)
    | some e => if 4 ≤ e.phase then (s.failExport e stUnitReset, 1) else (s.dropExport.finish e.call stUnitReset, 1)

/-- The work of a unit that is not idle at T_IDLE is squashed (R133): the state after it and the requests squashed.
[DEDUCED: notes/assumptions/28.md] -/
def State.squashUnit (code : Nat) (written : Bytes) (s : State) : State × Nat :=
  if code < 0x40 then s.squashMse code
  else if code < 0x80 then s.squashLse (code - 0x40)
  else if code < 0xC0 then (s.modHse (code - 0x80) fun h => { h with forced := true }, 0)
  else if code = unitBooth then s.forceBooth written
  else if code = unitTollgate then s.squashTollgate
  else if code = unitSteelyard then
    match s.sty.queue with
    | [] => (s, 0)
    | c :: rest => (({ s with sty := { s.sty with queue := rest } }).finish c stUnitReset, 1)
  else if code = unitSweeper then (s, s.swp.slots.length)
  else (s, ((s.xck.bindings.map fun p => p.2.waiting.length).foldl (· + ·) 0))

/-- The slots of an HSE's keys are erased, and its streams are not secure (R345). [DEDUCED: notes/assumptions/28.md] -/
def State.clearHse (i : Nat) (s : State) : State :=
  let lo := ideHandle i 0
  let t : State := { s with sbx := { s.sbx with slots := s.sbx.slots.filter fun p => ¬ (lo ≤ p.2.handle ∧ p.2.handle < lo + 12) } }
  t.modHse i fun h =>
    { h with state := 0, cacheState := 0, streamId := 0, linkStream := false, keySet := 0, cacheSet := 0, keys := [] }

/-- What reset clears in a unit (R121): its caches, pipelines and lists, and the fields that return to their reset value at U.
[DEDUCED: notes/assumptions/28.md] [DEDUCED: notes/assumptions/51.md] -/
def State.clearUnit (code : Nat) (s : State) : State :=
  let s : State := { s with sbx := { s.sbx with tiles := s.sbx.tiles.filter fun k => k.tile ≠ code } }
  if code < 0x40 then
    let t := s.modMse code fun m => { m with
      held := [], hazards := [], testing := [], ledger := [], tags := m.tags.filter fun p => m.tagPending.any fun w => w.line = p.1
      err := { m.err with sound := 0, soundValid := false, bad := [], badOverflow := false, badSel := 0 } }
    { t with swp := { t.swp with slots := t.swp.slots.map fun p => (p.1, if t.sweeps code p.2 then p.2.toCheckpoint else p.2) } }
  else if code < 0x80 then s.modLse (code - 0x40) fun l => { l with established := false }
  else if code < 0xC0 then s.clearHse (code - 0x80)
  else if code = unitBooth then s.unlockBooth
  else if code = unitTollgate then
    { s with tol := { s.tol with policies := [], cache := [], polOffset := 0, polStall := 0, polValid := false } }
  else if code = unitCrosscheck then
    let n := (s.xck.bindings.map fun p => p.2.waiting.length).foldl (· + ·) 0
    ({ s with xck := { s.xck with bindings := s.xck.bindings.map fun (p : Nat × XckBinding) => (p.1, { p.2 with
      waiting := [], compared := 0, mismatch := 0, unsampled := min 65535 p.2.waiting.length, unpaired := 0 }) } }).bump (ctrXck 5) n
  else if code = unitSweeper then
    let t : State := { s with swp := { s.swp with slots := s.swp.slots.map fun (p : Nat × SweepSlot) => (p.1, p.2.toCheckpoint) } }
    (List.range t.mse.length).foldl (fun t i => t.dropSweepOps i) t
  else ({ s with sty := { s.sty with chsel := 0 } }).stySuspect 3 s.cfg.sty.chEnable

/-- The run of a unit reset changed. -/
def State.modUnitReset (code : Nat) (f : UnitReset → UnitReset) (s : State) : State :=
  { s with rst := { s.rst with unitResets := s.rst.unitResets.map fun u => if u.code = code then f u else u } }

/-- The unit waits to become idle. -/
def State.draining (s : State) (code : Nat) : Option UnitReset := s.rst.unitResets.find? fun u => decide (u.code = code) && !u.held

/-- UNIT_RESET_IDLE (R132): the unit has drained and is held in reset for 16 PCLK cycles. -/
def execUnitResetIdle (unit : Nat) (s : State) : Host.Outcome State Fault Refusal :=
  let t := s.begin
  done (if (t.draining unit).isNone ∨ ¬ t.unitIdle unit then t
    else (t.clearUnit unit).modUnitReset unit fun u => { u with held := true })

/-- UNIT_RESET_FORCE (R132, R133): at T_IDLE the work left is squashed. `written`: what the Booth's running operation has put in DST. -/
def execUnitResetForce (unit : Nat) (written : Bytes) (s : State) : Host.Outcome State Fault Refusal :=
  let t := s.begin
  done (match t.draining unit with
    | none => t
    | some r =>
      if t.unitIdle unit ∨ ¬ t.expired r.since (t.cfg.clk.tIdle * 1000) then t
      else
        let p := t.squashUnit unit written
        let u := (p.1.endWaits (ringOf unit)).clearUnit unit
        let u : State := { u with rst := { u.rst with forced := true, squashed := min 4095 p.2 } }
        u.modUnitReset unit fun u => { u with held := true, forced := true, squashed := p.2 })

/-- A unit that leaves its reset takes up work again (R132 step 4): an LSE with keys rekeys both directions (R326). -/
def State.resumeUnit (code : Nat) (s : State) : State :=
  if code < 0x40 then (s.rerun code).endMse code
  else if code < 0x80 then s.startResync (code - 0x40)
  else if code = unitBooth then (match s.tol.running with
    | some e => if e.phase = 5 ∧ ¬ s.bth.tollgate then s.takeLock e else s
    | none => s)
  else s

/-- UNIT_RESET_RELEASE (R132): the unit is released and EV_UNIT_RESET is raised. -/
def execUnitResetRelease (unit : Nat) (s : State) : Host.Outcome State Fault Refusal :=
  let t := s.begin
  done (match t.rst.unitResets.find? fun u => decide (u.code = unit) && u.held with
    | none => t
    | some r =>
      let u : State := { t with rst := { t.rst with unitResets := t.rst.unitResets.erase r, done := true } }
      ((u.event evUnitReset unitRcu none unit (r.squashed + bit r.forced * 2 ^ 63)).bump (ctrRcu 2) 1).resumeUnit unit)

/-! ### Partition resets of the host (R135, R136) -/

/-- The partition of an index. -/
def Cfg.part? (c : Cfg) (k : Nat) : Option PartCfg := c.parts.find? fun p => p.index = k

/-- A function of the partition. -/
def PartCfg.hasFn (p : PartCfg) (fn : Nat) : Bool := p.fns.any fun r => decide (r.1 ≤ fn ∧ fn ≤ r.2)

/-- The Booth lock is held by one of the partition's functions. -/
def State.partHolds (s : State) (p : PartCfg) : Bool := s.bth.holder.any (fun (h : Nat × Nat) => p.hasFn h.1) && !s.bth.tollgate

/-- Immediate commands of the partition's streams that are not finished, with their records. -/
def State.partBusy (s : State) (p : PartCfg) : Bool :=
  let mine (c : Call) : Bool := !c.window && p.qids.testBit c.qid
  s.hlm.buffer.any (fun q => mine q.call && !q.call.aligned) || s.hlm.running.any (fun q => mine q.call && !q.call.ticked) ||
    s.hlm.cwq.any fun r => mine r.call

/-- What a level-3 announcement drains besides (R135). -/
def State.dataBusy (s : State) : Bool :=
  s.mse.any (fun (m : Mse) => !m.ops.isEmpty) || s.lse.any (fun (l : Lse) => !l.txBuf.isEmpty) || s.bth.running.isSome ||
    !s.bth.queue.isEmpty || s.tol.running.isSome || !s.tol.queue.isEmpty

/-- The block works on an announcement of the partition. -/
def State.partRun? (s : State) (k : Nat) : Option PartRun := s.rst.parts.find? fun r => r.index = k

/-- A release of the lock is due for the partition's functions (R135). [DEDUCED: notes/assumptions/31.md] -/
def State.partRelease (k : Nat) (s : State) : State :=
  if (s.cfg.part? k).any fun p => s.partHolds p then ({ s with bth := { s.bth with releaseDue := true } }).settleLock else s

/-- Level 3 of phase 1 (R135): the data ports open again, every LSE rekeys and every HSE's keys are destroyed (R345), the Sweeper
resumes. [DEDUCED: notes/assumptions/31.md] -/
def State.openPorts (s : State) : State :=
  let t : State := { s with rst := { s.rst with dataClosed := false }, swp := { s.swp with paused := false } }
  let t := (List.range t.lse.length).foldl (fun t i => t.startResync i) t
  (List.range t.hse.length).foldl (fun t i => t.clearHse i) t

/-- PARTITION_ANNOUNCE (R79, R135): `unit` is the partition index. Not taken while the block is not in service, or while an announcement for
the partition is unfinished. [DEDUCED: notes/assumptions/31.md] -/
def execPartitionAnnounce (unit level phase : Nat) (s : State) : Host.Outcome State Fault Refusal :=
  let t := s.begin
  let others := t.rst.parts.filter fun r => r.index ≠ unit
  done (if t.rst.rstBusy ∨ t.rst.phase ≠ .service ∨ ((t.partRun? unit).any fun r => !r.answered) then t
    else if phase = 0 then
      let r : PartRun := { index := unit, level, since := t.clk.elapsed, answered := false }
      ({ t with rst := { t.rst with parts := others ++ [r] } }).partRelease unit
    else
      let u : State := { t with rst := { t.rst with parts := others } }
      let u := if level = 3 ∧ u.rst.dataClosed ∧ ¬ others.any (fun r => decide (r.level = 3 ∧ r.answered)) then u.openPorts else u
      u.emit (.partDone unit))

/-- The announcement is answered; level 3 closes the data ports and pauses the Sweeper (R135). -/
def State.partAnswer (r : PartRun) (s : State) : State :=
  let t : State := { s with rst := { s.rst with
    parts := s.rst.parts.map fun x => if x = r then { r with answered := true } else x
    dataClosed := s.rst.dataClosed || decide (r.level = 3) } }
  (if r.level = 3 then { t with swp := { t.swp with paused := true } } else t).emit (.partDone r.index)

/-- PARTITION_DRAIN_DONE (R135): the partition's work has ended. During C the drain waits for Helm. -/
def execPartitionDrainDone (unit : Nat) (s : State) : Host.Outcome State Fault Refusal :=
  let t := s.begin
  done (match t.partRun? unit with
    | none => t
    | some r =>
      if r.answered ∨ t.rst.coreReset.isSome ∨ ((t.cfg.part? unit).any fun p => t.partBusy p || t.partHolds p) ∨ (r.level = 3 ∧ t.dataBusy) then t
      else t.partAnswer r)

/-- What is left at T_PART of a level-3 announcement is squashed (R135). -/
def State.squashPorts (written : Bytes) (s : State) : State :=
  let t := (List.range s.mse.length).foldl (fun (t : State) i => ((t.squashMse i).1).endWaits i) s
  let t := (List.range t.lse.length).foldl (fun (t : State) i => (t.poisonLse i).modLse i fun l => { l with txBuf := [] }) t
  ((t.squashTollgate.1).forceBooth written).1

/-- PARTITION_DRAIN_TIMEOUT (R135): T_PART after the announcement; the Booth operation of one of the partition's functions ends, and at level
3 everything on the data ports does. -/
def execPartitionDrainTimeout (unit : Nat) (written : Bytes) (s : State) : Host.Outcome State Fault Refusal :=
  let t := s.begin
  done (match t.partRun? unit with
    | none => t
    | some r =>
      if r.answered ∨ ¬ t.expired r.since (t.cfg.clk.tPart * 1000) then t
      else
        let u := if r.level = 3 then t.squashPorts written
          else if (t.cfg.part? unit).any fun p => t.partHolds p then (t.forceBooth written).1
          else t
        u.partAnswer r)

end Sys2Proof.Machine
end

