-- ==== Sys2Proof/Machine/RegRead.lean ====
section
/-!
DEFINITION. What the block's registers read (spec/21_register_map.md R588 to R601), window by window, with the field maps of the unit
chapters. A window function answers none at an offset no register has, and at an index beyond a reported count (R589).
-/

namespace Sys2Proof.Machine

/-- A register value from its fields, each with its width, from bit 0 upward. -/
def pack : List (Nat × Nat) → Nat
  | [] => 0
  | (w, v) :: l => v % 2 ^ w + 2 ^ w * pack l

/-- A flag as a one-bit field. -/
def flag (b : Bool) : Nat × Nat := (1, bit b)

/-- Reserved bits. -/
def gap (w : Nat) : Nat × Nat := (w, 0)

/-- An index of a register array at offset `base` with stride `step` and `n` entries. -/
def indexed (base step n off : Nat) : Option Nat :=
  if base ≤ off ∧ off < base + step * n ∧ (off - base) % step = 0 then some ((off - base) / step) else none

/-- A 32-bit word of a byte string. -/
def wordAt (bs : Bytes) (k : Nat) : Nat := leField bs (4 * k) 4

/-- Bits [63:32] of a value. -/
def hiWord (v : Nat) : Nat := v / 2 ^ 32 % 2 ^ 32

/-! ### Global (R595 to R599) -/

/-- The four reg_irq levels before their enables: pending bits of XS_IRQ_STATUS (R490, R599). -/
def State.irqPending (s : State) : Nat :=
  pack [flag s.hlm.irqComp, flag (s.hlm.evq.on && decide (s.hlm.evq.head ≠ s.hlm.evq.tail)), flag s.hlm.irqAlarm, flag s.hlm.irqUrgent]

/-- The levels of reg_irq[3:0] (R490). -/
def State.irqLines (s : State) : Nat := Nat.land s.irqPending s.hlm.irqEnable.toNat

/-- MODE (R597). Outside the load, no-Almanac and full mode it reads Harbour mode. -/
def State.modeCode (s : State) : Nat :=
  if s.rst.rstBusy then 0 else if s.ald.noAlmanac then 1 else if s.ald.full then 3 else 2

/-- The quiet state is in effect (R89, R91): entered, or the outputs held at their quiet values. -/
def State.quietNow (s : State) : Bool := s.alr.quiet || decide (s.rst.phase ≠ .service)

/-- Window 0x00. -/
def State.readGlobal (s : State) (off : Nat) : Option Nat :=
  match off with
  | 0x00 => some 0x03020000
  | 0x04 => some s.build.caps
  | 0x08 => some (pack [(2, s.modeCode), flag s.quietNow, flag s.alr.safeStop, flag s.rst.rstReq, gap 3, (4, s.lcu.state),
      flag s.sbx.drkTest, gap 3, flag s.rst.lastS])
  | 0x20 => some (pack [(4, s.irqPending), gap 4, (4, s.irqLines)])
  | 0x24 => some s.hlm.irqEnable.toNat
  | _ => none

/-! ### RCU (R115 to R117, R141 to R145) -/

/-- RUNT_COUNT: runts within the last 1 ms (R115). -/
def State.runtCount (s : State) : Nat := min 3 (s.mon.runts.filter fun r => s.clk.elapsed < r + 1000000).length

/-- Window 0x01. -/
def State.readRcu (s : State) (off : Nat) : Option Nat :=
  let c := s.cfg.clk
  match off with
  | 0x00 => some (pack [flag s.pins.clkcGood, flag s.pins.clkcStretch, flag s.mon.freqChg, flag s.clk.anchored, flag s.clk.timeUnlock,
      flag s.clk.tickShort, flag s.clk.tickLate, flag s.clk.tickOverrun, (8, s.clk.pclkFreq), (2, s.runtCount)])
  | 0x04 => some (pack [(10, c.tFreq), (20, c.tStop)])
  | 0x20 => some (pack [(11, s.rst.cause.toNat), gap 5, (8, s.rst.sysCount), (8, s.rst.coreCount)])
  | 0x24 => some 0
  | 0x28 => some (pack [(8, s.rst.urstUnit.toNat), gap 1, flag (!s.rst.unitResets.isEmpty), flag s.rst.forced, flag s.rst.done,
      flag s.rst.refused, gap 3, (12, s.rst.squashed)])
  | 0x2C => some (pack [(10, c.tIdle), (14, c.tPart)])
  | 0x30 => some c.tWdog
  | 0x34 => some (pack [flag s.ldg.anchor.valid, flag s.ldg.anchor.clearedByTamper, gap 6, (24, s.ldg.anchor.epoch)])
  | _ => none

/-! ### ALD and CHT (R175 to R177) -/

/-- The record XS_ALD_SETSEL names, in the current copy. -/
def State.setRecord (s : State) : Option SettingsRec :=
  settingsRec? (s.ald.setSel.toNat % 4) (s.ald.setSel.toNat / 4 % 64) s.settings

/-- XS_ALD_SETDATA read: the word WORD of the record; 0 beyond its LEN. -/
def State.setWord (s : State) : Nat := (s.setRecord.map fun r => wordAt r.data (s.ald.setSel.toNat / 256)).getD 0

/-- Window 0x02. -/
def State.readAld (s : State) (off : Nat) : Option Nat :=
  let a := s.ald
  match off with
  | 0x00 => some (pack [flag a.done, flag a.noAlmanac, flag a.slotB, flag a.fallback, flag a.settingsOk, flag a.setCopyB, flag a.memTrained,
      flag a.linksTrained, flag a.restored, flag a.joined, flag a.full, flag a.sdrOnly, (4, a.rejectCause)])
  | 0x04 => some s.cfg.imageSeq
  | 0x08 => some (pack [(8, s.cfg.almSvn), (8, s.lcu.svn 4), (8, s.cfg.patchSvn), (8, s.lcu.svn 6)])
  | 0x10 => some a.setSel.toNat
  | 0x14 => some s.setWord
  | 0x18 => some (pack [(13, (s.setRecord.map (·.data.length)).getD 0), flag s.setRecord.isSome])
  | _ => none

/-- XS_CHT_MSEMAP(i). -/
def State.mseMap (s : State) (i : Nat) : Nat :=
  let r := s.cht.spareLanes.find? fun p => p.1 = i
  pack [(5, s.cfg.chart.mseMap.getD i 0), gap 3, (4, (r.map (·.2.1)).getD 0xF), flag ((r.map (·.2.2)).getD false)]

/-- Window 0x03. -/
def State.readCht (s : State) (off : Nat) : Option Nat :=
  let c := s.cfg.chart
  match off with
  | 0x00 => some (pack [(8, c.hashSeed), (19, c.localLimit)])
  | 0x04 => some (pack [(19, c.harbourBase), (11, c.harbourCount)])
  | 0x08 => some (pack [(4, s.cht.ksBank.getD 0), flag s.cht.ksBank.isSome, (7, s.cht.rows.length)])
  | _ =>
    match indexed 0x100 4 s.build.mseCount off, indexed 0x200 4 s.build.lseCount off, indexed 0x300 4 32 off with
    | some i, _, _ => some (s.mseMap i)
    | _, some i, _ => some (c.lseMap.getD i 0)
    | _, _, some k => some (match c.pools[k / 2]? with
      | none => 0
      | some w => if k % 2 = 0 then w.base else pack [(22, w.size), (5, w.mse), gap 4, flag true])
    | _, _, _ => none

/-! ### LCU (R515 to R518) -/

/-- A transition runs, or awaits completion under R507. -/
def Lcu.inTransition (l : Lcu) : Bool := l.transition.any fun t => decide (t.phase < 5)

/-- The TAP instruction acts now: after the fuses have been decoded (R511). -/
def State.tapOpen (s : State) (ir : Nat) : Bool := decide (s.rst.phase ≠ .inReset) && tapActs ir s.lcu.state

/-- XS_LCU_STATE. -/
def State.lcuState (s : State) : Nat :=
  let target := ((s.lcu.transition.filter fun t => t.phase < 5).map fun t => if t.target = lcKeyfuse then 0xA else t.target).getD 0
  pack [(4, s.lcu.state), flag s.lcu.inTransition, gap 3, (4, target), flag s.lcu.keyfuseDone, flag (s.tapOpen 0x20), flag s.lcu.resumed]

/-- XS_LCU_TOKENS. -/
def State.lcuTokens (s : State) : Nat :=
  pack [(5, s.lcu.opens), (5, s.lcu.locks), (5, 16 - s.lcu.opens), flag (!zeroDigest (s.lcu.wordBytes 0x40 12))]

/-- XS_LCU_XSTAT. -/
def State.lcuXstat (s : State) : Nat :=
  let t := s.lcu.transition
  pack [(3, (t.map (·.phase)).getD 0), flag s.lcu.xfail, (3, s.lcu.detail), flag s.lcu.tapOrigin, (13, s.lcu.bitsLeft),
    (11, min 2047 ((t.map (·.sectors)).getD 0))]

/-- Window 0x04. -/
def State.readLcu (s : State) (off : Nat) : Option Nat :=
  match off with
  | 0x00 => some s.lcuState
  | 0x04 => some s.lcuTokens
  | 0x08 => some s.lcuXstat
  | _ => (indexed 0x20 4 8 off).map (wordAt s.lcu.nonce)

/-! ### SBX (R207 to R212) -/

/-- CLASS (R210). -/
def SlotClass.code : SlotClass → Nat
  | .stall => 0
  | .block => 1
  | .link => 2
  | .unpinned => 3

/-- WEAR of a key slot (R210): link and IDE keys count against the limits of their chapter (R197, R324, R345). -/
def State.slotWear (s : State) (k : KeySlot) : Nat :=
  let n := k.handle % 2 ^ 16
  if handleType k.handle = 0xA then
    ((s.lse[n / 4]?).map fun (l : Lse) =>
      if n % 4 = 1 then l.tx.wear else if n % 4 = 2 then l.rx.wear
      else if n % 4 = 3 then ((l.txNext.orElse fun _ => l.rxNext).map LinkDir.wear).getD 0 else 0).getD 0
  else if handleType k.handle = 0xB then
    let mine (y : IdeKey) : Bool := decide (ideNumber y.stream y.dirTx y.keySet = n % 16)
    (((s.hse[n / 16]?).bind fun (h : Hse) => h.keys.find? mine).map fun (y : IdeKey) => min 100 (y.blocks * 100 / 2 ^ 44)).getD 0
  else wearPercent (handleType k.handle) k.count k.ops

/-- XS_SBX_SLOTINFO. -/
def State.slotInfo (s : State) : Nat :=
  match assocGet s.sbx.slotSel.toNat s.sbx.slots with
  | none => 0
  | some k => pack [flag true, flag k.pinned, (2, k.cls.code), (4, handleType k.handle), (8, k.gen), (7, s.slotWear k), flag k.busy]

/-- Window 0x05. What R208 takes from the image reads 0 until an image is applied. [DESIGN CHOICE: notes/assumptions/19.md] -/
def State.readSbx (s : State) (off : Nat) : Option Nat :=
  let b := s.sbx
  match off with
  | 0x00 => some (pack [flag b.drkOk, (1, b.drkBank), flag b.drkTest, flag b.zeroized, flag b.zeroizeFail, flag b.entropyOk,
      flag b.entropyFail, gap 1, (6, b.poolLevel), gap 2, (9, b.slots.length)])
  | 0x04 => some (if s.ald.done then pack [(8, s.pinBlock), (8, s.pinPool), (8, b.stallPins), (4, s.cfg.engine.pinQuota)] else 0)
  | 0x08 => some b.slotSel.toNat
  | 0x0C => some s.slotInfo
  | 0x10 => some (((assocGet b.slotSel.toNat b.slots).map (·.handle)).getD 0)
  | 0x14 => some (pack [(16, b.zeroizeCount), (16, b.staleCount)])
  | _ => none

/-! ### LDG and SWP (R231 to R235, R308 to R315) -/

/-- The ring entry XS_LDG_ESTART_SEL names. -/
def State.epochEntry (s : State) : Option EpochStart := assocGet s.epo.sel.toNat s.epo.ring

/-- Regions of a class that are not FREE. -/
def State.regionIn (s : State) (st : RegState) : Nat :=
  ((s.ldg.localEntries ++ s.ldg.poolEntries).filter fun p => p.2.state = st).length

/-- The region XS_LDG_SEL names, if the index exists. -/
def State.selRegion (s : State) : Option RegionId :=
  let r : RegionId := { pool := s.ldg.sel.getLsbD 20, index := s.ldg.sel.toNat % 2 ^ 20 }
  if r.index < (if r.pool then s.poolTotal else s.cfg.chart.localLimit) then some r else none

/-- The pool line that a read of the selected entry has to fill first (R310). -/
def State.selLine (s : State) : Option Nat :=
  s.selRegion.bind fun r => if r.pool ∧ ¬ s.ldg.poolCache.contains (poolLine r.index) then some (poolLine r.index) else none

/-- The entry XS_LDG_ENTRY reports; an uncached pool entry reads 0 until its line is filled. -/
def State.selEntry (s : State) : Nat := if s.selLine.isSome then 0 else (s.selRegion.map fun r => (s.entry r).word).getD 0

/-- Window 0x06 without its pairs. -/
def State.readLdg (s : State) (off : Nat) : Option Nat :=
  let l := s.ldg
  match off with
  | 0x00 => some (pack [(24, s.epo.epoch), flag s.epo.held, flag s.epo.frozen])
  | 0x04 => some (pack [(16, s.epo.ticksSince), (16, s.epo.holdCount)])
  | 0x08 => some (pack [(16, s.cfg.epoch.n), (8, s.cfg.epoch.wLocal), (8, s.cfg.epoch.wPool)])
  | 0x0C => some (pack [(8, s.epo.sel.toNat), flag s.epochEntry.isSome, flag (s.epochEntry.any (·.inherited)),
      (22, ((s.epochEntry.map (·.epoch)).getD 0) / 4)])
  | 0x20 => some (pack [(19, l.localEntries.length), flag l.storeOk, flag l.baseSlotB, flag l.baseBusy, flag l.logWait, flag l.rowsExhausted])
  | 0x24 => some (pack [(16, l.secCount), (16, l.dedCount)])
  | 0x28 => some (s.regionIn .quarantined % 2 ^ 20)
  | 0x2C => some l.sel.toNat
  | 0x38 => some (pack [(8, s.span (s.windowed false)), (8, s.span (s.windowed true)), flag s.epo.holdLocal, flag s.epo.holdPool])
  | 0x3C => some (pack [(15, 14 * l.poolCache.length), (7, l.poolReads.length)])
  | 0x48 => some (if l.storeOk then l.sinceBase % 2 ^ 19 else 0)
  | _ => none

/-- Window 0x07. [DEDUCED: notes/assumptions/20.md] -/
def State.readSwp (s : State) (off : Nat) : Option Nat :=
  let e := s.cfg.engine
  let w := assocGet s.swp.slotSel.toNat s.swp.slots
  match off with
  | 0x00 => some (pack [(4, e.share), (4, e.yieldShare), (16, e.yieldMax)])
  | 0x04 => some (pack [flag s.swp.yield.isSome, (5, s.swp.slots.length), flag s.swp.paused, gap 9, (16, s.swp.zeroed)])
  | 0x08 => some (pack [(16, min 65535 (s.swp.queue.filter fun o => o.kind = .floor).length),
      (16, min 65535 (s.swp.queue.filter fun o => o.kind ≠ .floor).length)])
  | 0x0C => some s.swp.slotSel.toNat
  | 0x10 => some ((w.map fun w => pack [(20, w.order.region.index), flag w.order.region.pool, (2, w.order.kind.code), (2, w.order.old),
      (2, w.order.new), flag w.order.bootOld, gap 3, flag true]).getD 0)
  | 0x14 => some ((w.map fun w => pack [(7, w.stride), (7, w.bandHi / 65536)]).getD 0)
  | _ => none

/-! ### STL (R424 to R430) -/

/-- Window 0x08. -/
def State.readStl (s : State) (off : Nat) : Option Nat :=
  let x := s.stl
  let id := x.sel.toNat
  match off with
  | 0x00 => some (pack [(6, x.slots.length + bit (s.stall? 0).isSome), (3, (x.fills.filter fun f => f.slot.isSome).length), (13, x.table.length)])
  | 0x04 => some (pack [(14, (s.cfg.policy.map (·.tDrain)).getD 100), (12, (s.cfg.policy.map (·.tMigSess)).getD 60)])
  | 0x08 => some id
  | 0x0C => some (s.stallInfo id)
  | 0x10 => some (s.stallReplay id)
  | 0x14 => some (s.stallAge id)
  | 0x18 => some (pack [(12, x.credit / 10 ^ 9), (16, x.deferCount)])
  | 0x1C => some x.fnSel.toNat
  | 0x20 => some (((assocGet x.fnSel.toNat x.fnMap).map fun m => pack [(16, m.1), (12, m.2), gap 3, flag true]).getD 0)
  | _ => none

/-! ### MRK and DOM (R388 to R392) -/

/-- Window 0x09. -/
def State.readMrk (s : State) (off : Nat) : Option Nat :=
  let m := s.mrk
  let e := s.cfg.engine
  match off with
  | 0x00 => some (pack [(7, m.res.length), (7, (m.res.filter fun p => p.2.outstanding).length), (9, s.markQueue)])
  | 0x04 => some (pack [(14, e.tMark), (8, e.markRetry), (4, e.maxHops)])
  | 0x08 => some (pack [(16, m.stale), (16, m.dup)])
  | 0x0C => some (pack [(16, m.resend), (16, m.drop)])
  | 0x10 => some m.routeSel.toNat
  | 0x14 => some (((assocGet m.routeSel.toNat m.routes).map fun r =>
      pack [(6, r.primary), (6, r.alternate.getD 0), flag r.alternate.isSome, flag true]).getD 0)
  | _ => none

/-- A signed value as a saturating two's complement word. -/
def word32 (x : Int) : Nat := (max (-(2 ^ 31)) (min (2 ^ 31 - 1) x) % 2 ^ 32).toNat

/-- Window 0x0A. -/
def State.readDom (s : State) (off : Nat) : Option Nat :=
  let d := s.dom
  match off with
  | 0x00 => some (pack [(16, d.chip), flag d.joined, flag d.gm, (4, d.timeDepth), (6, d.timeParent), flag d.testDomain])
  | 0x04 => some d.seq
  | 0x08 => some (word32 d.offset)
  | 0x0C => some (pack [(6, (d.joinErr.map (·.1)).getD 0), (3, (d.joinErr.map (·.2)).getD 0), flag d.joinSeen])
  | _ => none

/-! ### HLM (R491 to R494) -/

/-- Window 0x0B. XS_HLM_DWBUF reads 0 in the quiet state and in SCRAP and INVALID (R594). -/
def State.readHlm (s : State) (off : Nat) : Option Nat :=
  let h := s.hlm
  let q := h.evq
  match off with
  | 0x00 => some (pack [(9, h.buffer.length), (11, h.tickQ.length), flag s.rst.coreReset.isSome, flag h.cwOverrun, (4, h.staged.length)])
  | 0x04 => some (pack [(16, h.rejected), (16, h.deferred)])
  | 0x10 => some (q.baseLo.toNat * 32)
  | 0x14 => some q.baseHi.toNat
  | 0x18 => some (pack [(5, q.log2Size.toNat), flag q.on])
  | 0x1C => some (q.head % 65536)
  | 0x20 => some (q.tail % 65536)
  | 0x24 => some (min (2 ^ 32 - 1) q.lost)
  | 0x100 => some (pack [gap 1, flag h.dwBusy, flag h.dwDone, gap 13, (16, h.dwStatus)])
  | _ => (indexed 0x200 4 64 off).map fun k => if s.alr.quiet ∨ s.dead then 0 else (h.dwBuf.getD k 0).toNat

/-! ### ALR (R543 to R547) -/

/-- Bit i: pair i reads in the alarm condition (R545). -/
def Pins.pairsBad (p : Pins) : Nat := pack ((List.range 8).map fun i => flag (p.pairBad i))

/-- Window 0x0C. -/
def State.readAlr (s : State) (off : Nat) : Option Nat :=
  let a := s.alr
  match off with
  | 0x00 => some (pack [flag a.tamper, flag a.clock, flag a.integrity, flag a.safeStop, flag s.quietNow, flag a.ssIdle, flag a.logOverflow,
      flag a.doldrums, flag a.dumpOpen, gap 7, (7, a.log.length), flag (a.log.any fun e => !e.copied)])
  | 0x04 => some a.logSel.toNat
  | 0x08 => some (pack [(8, s.cfg.tamperEnable.toNat), (8, s.pins.pairsBad), (8, a.seen.toNat)])
  | 0x0C => some s.cfg.engine.tDoldrums
  | 0x10 => some (pack [(16, min 65535 s.waitCount), (16, a.episodes)])
  | 0x14 => some (pack [(8, a.soundLane), (6, a.soundRow), (6, a.soundKey), (6, a.soundCtr), (6, a.soundCdc)])
  | _ => (indexed 0x20 4 8 off).map fun k => ((a.log[a.logSel.toNat]?).map fun e => wordAt e.bytes k).getD 0

/-! ### OBS (R566 to R570) -/

/-- XS_OBS_CVAL as one 64-bit value: VALUE, VALID and GAUGE. -/
def State.cval (s : State) : Nat :=
  let n := s.obs.csel.toNat % 4096
  let snap := s.obs.csel.getLsbD 12
  let v := if snap then (assocGet n s.obs.snapCounters).getD 0 else s.counterValue n
  let ok := if snap then !s.obs.snapInvalid.contains n else s.obs.valid n
  pack [(48, v), flag ok, flag (isGauge n)]

/-- The ring and the entry XS_OBS_RINGSEL names. -/
def State.selRing (s : State) : Ring := s.ring (s.obs.ringSel.toNat % 128)
def State.selRingEntry (s : State) : Bytes := s.selRing.entryBytes (s.obs.ringSel.toNat / 128)

/-- XS_OBS_TRACK(t): set 0 counts Stall 0, set 63 names none. -/
def Obs.trackWord (o : Obs) (t : Nat) : Nat :=
  if t = 0 then 2 ^ 31
  else if t = 63 then 0
  else match assocGet t o.track with
    | some st => pack [(12, st), gap 19, flag true]
    | none => (assocGet t o.trackOff).getD 0

/-- Window 0x0D without its pairs. [DESIGN CHOICE: notes/assumptions/19.md] -/
def State.readObs (s : State) (off : Nat) : Option Nat :=
  let o := s.obs
  match off with
  | 0x00 => some o.csel.toNat
  | 0x0C => some (pack [(16, o.bankFault.toNat), (16, o.testing.toNat)])
  | 0x10 => some 0
  | 0x14 => some (pack [gap 2, flag o.held, flag o.armed, flag o.late, flag o.ringStale, flag o.beaconUnanchored, (2, o.src), gap 7, (8, o.missed)])
  | 0x30 => some o.ringMin.toNat
  | 0x34 => some o.ringSel.toNat
  | 0x38 => some (pack [(8, s.selRing.next), (9, s.selRing.count), (8, s.selRing.freezeHead), flag s.selRing.frozen])
  | 0x3C => some s.selRing.overwritten
  | 0x50 => some (pack [(6, o.gapSel.toNat), (7, o.gaps.length), flag o.gapOverflow])
  | _ =>
    match indexed 0x40 4 4 off, indexed 0x54 4 6 off, indexed 0x100 4 64 off, indexed 0x200 4 128 off with
    | some k, _, _, _ => some (wordAt s.selRingEntry k)
    | _, some k, _, _ => some (((o.gaps[o.gapSel.toNat]?).map fun g => wordAt g.bytes k).getD 0)
    | _, _, some t, _ => some (o.trackWord t)
    | _, _, _, some k => some (pack ((List.range 32).map fun j => flag (!o.snapInvalid.contains (32 * k + j))))
    | _, _, _, _ => none

/-! ### BTH and TOL (R443 to R447, R469 to R471) -/

/-- Window 0x0E; `who` is the function that reads. -/
def State.readBth (s : State) (who : Nat) (off : Nat) : Option Nat :=
  let b := s.bth
  match off with
  | 0x00 => some (pack [gap 2, flag b.holder.isSome, flag (!b.tollgate && b.holder.any fun h => decide (h.1 = who)), flag b.tollgate,
      flag s.handoffWaits])
  | 0x04 => some (pack [(16, (b.holder.map fun h => if b.tollgate then 0 else h.1).getD 0), (12, (b.holder.map (·.2)).getD 0)])
  | 0x08 => some (match b.running with
      | none => pack [gap 5, flag (!s.ald.full), (4, b.queue.length)]
      | some o => pack [flag true, (2, o.mode), flag o.decrypt, flag o.holds, flag (!s.ald.full), (4, b.queue.length)])
  | 0x0C => some s.cfg.engine.tBlease
  | 0x10 => some (pack [(16, b.opsCount), (16, b.tagFails)])
  | _ => none

/-- Window 0x0F. -/
def State.readTol (s : State) (off : Nat) : Option Nat :=
  let t := s.tol
  match off with
  | 0x00 => some (pack [flag t.running.isSome, (3, (t.running.map (·.phase)).getD 0), (6, t.queue.length), flag (!t.hold.isEmpty),
      (4, t.cache.length), (12, (t.running.map (·.call.stall)).getD 0)])
  | 0x04 => some (pack [(16, t.exports), (16, t.refused)])
  | 0x08 => some (pack [(16, t.nonfinite), (16, t.samplerStall)])
  | 0x0C => some (pack [(12, t.polOffset), (12, t.polStall), flag t.polValid])
  | _ => none

/-! ### XCK and STY (R355, R356, R586, R587) -/

/-- Window 0x10. -/
def State.readXck (s : State) (off : Nat) : Option Nat :=
  let b := assocGet s.xck.sel.toNat s.xck.bindings
  match off with
  | 0x00 => some (pack [(4, s.xck.bindings.length), (6, s.xck.pending)])
  | 0x04 => some s.cfg.engine.tXck
  | 0x08 => some s.xck.sel.toNat
  | 0x0C => some ((b.map fun b => pack [(12, b.stall), flag b.tolerance, (8, b.k), (4, b.rate), flag b.action, gap 5, flag true]).getD 0)
  | 0x10 => some ((b.map fun b => pack [(16, b.compared), (16, b.mismatch)]).getD 0)
  | 0x14 => some ((b.map fun b => pack [(16, b.unsampled), (16, b.unpaired)]).getD 0)
  | _ => none

/-- Window 0x11 without its pair. -/
def State.readSty (s : State) (off : Nat) : Option Nat :=
  let y := s.sty
  match off with
  | 0x00 => some (pack [flag y.keySealed, flag y.unsealed, flag y.keyOk, flag y.keyFailed, flag y.testKey, flag ((s.lcu.fuse 0xF2).testBit 0),
      (6, s.sealBreaks), (5, y.queue.length), flag (decide (y.suspectCause ≠ 0))])
  | 0x04 => some (pack [(16, s.cfg.sty.chEnable), (16, s.styGaps)])
  | 0x08 => some y.chsel.toNat
  | 0x0C => some (min (2 ^ 32 - 1) ((y.chans.getD y.chsel.toNat StyChan.fresh).power / 2 ^ 30))
  | 0x18 => some s.cfg.sty.calId
  | 0x1C => some (pack [(16, y.readings), (16, y.suspectTicks)])
  | _ => (indexed 0x40 4 12 off).map (wordAt y.sd)

/-! ### The engines (R271 to R279, R347 to R354) -/

/-- XS_MSE_INFO(i). [DESIGN CHOICE: notes/assumptions/19.md] -/
def State.mseInfo (s : State) (i : Nat) : Nat :=
  pack [(2, s.build.spineStages), flag (s.ald.done && s.cfg.engine.tagLocalCo), flag (s.cfg.chart.pools.any fun w => decide (w.mse = i)), gap 4,
    (5, s.cfg.chart.mseMap.getD i 0)]

/-- XS_MSE_STATUS(i). -/
def State.mseStatus (s : State) (m : Mse) : Nat :=
  pack [flag (!s.ald.full), flag (m.spine.acks.any fun a => a.1.isFence), flag (m.ops.any fun o => decide (o.attempt = 2)),
    (7, m.hazards.length), (11, m.gauge 26), (5, (m.hazards.filter fun h => h.lock.isSome).length)]

/-- XS_MSE_LANES(i). -/
def State.mseLanes (s : State) (i : Nat) (m : Mse) : Nat :=
  pack [(10, pack ((List.range 10).map fun l => flag (decide (1 < (s.cht.lanesOf i (s.cht.physLane i l)).length)))),
    (10, m.err.katFail.toNat), flag m.err.dirLost]

/-- Entry XS_MSE_BADSEL.INDEX of a bad-sector list. -/
def Mse.badEntry (m : Mse) : Option BadSector := m.err.bad[m.err.badSel.toNat]?

/-- Window 0x12: the block of an MSE, or the shared registers. -/
def State.readMse (s : State) (off : Nat) : Option Nat :=
  if off = 0xF000 then some (pack [(14, s.cfg.engine.tMem), (10, s.cfg.engine.tLock), (8, s.listedCount)])
  else if off = 0xF004 then some (pack (s.cfg.engine.weights.map fun w => (8, w)))
  else
    let i := off / 0x400
    (s.mse[i]?).bind fun m =>
      match off % 0x400 with
      | 0x00 => some (s.mseInfo i)
      | 0x04 => some (s.mseStatus m)
      | 0x08 => some (s.mseLanes i m)
      | 0x0C => some (pack [(16, m.err.integrity), (16, m.err.rereadOk)])
      | 0x10 => some (pack [(16, m.err.refused), (16, m.err.misroute)])
      | 0x14 => some (pack [(16, m.err.sound), flag m.err.soundValid])
      | 0x18 => some (pack [(12, m.err.badSel.toNat), (13, m.err.bad.length), flag m.err.badOverflow])
      | 0x1C => some ((m.badEntry.map fun b => b.sector % 2 ^ 32).getD 0)
      | 0x20 => some ((m.badEntry.map fun b => pack [(17, b.sector / 2 ^ 32), gap 13, flag b.partialWrite, flag true]).getD 0)
      | _ => none

/-- The halt outputs of every link are 1: in the quiet state, and until an image has been applied (R89, R91). -/
def State.haltAll (s : State) : Bool := s.quietNow || !s.ald.done

/-- XS_LSE_STATUS(i). -/
def State.lseStatus (s : State) (l : Lse) : Nat :=
  pack [flag l.established, flag (s.haltAll || l.halts), flag (l.txNext.isSome || l.rxNext.isSome), flag l.down, gap 4,
    (8, if l.established then l.tx.kgen else 0), (8, if l.established then l.rx.kgen else 0), (7, l.tx.wear)]

/-- The Remote Window Table entry XS_LSE_RWTSEL names. -/
def State.selWindow (s : State) : Option Window := assocGet s.rwtSel.toNat s.rwt

/-- Window 0x13. -/
def State.readLse (s : State) (off : Nat) : Option Nat :=
  let w := s.selWindow
  match off with
  | 0xF000 => some (pack [(10, s.cfg.engine.tDead), (8, s.cfg.engine.integLimit)])
  | 0xF010 => some (pack [(10, s.rwtSel.toNat), (11, s.rwt.length)])
  | 0xF014 => some ((w.map fun w => pack [(12, w.reqStall), (12, w.tstall), (4, w.rights), gap 3, flag true]).getD 0)
  | 0xF018 => some ((w.map fun w => w.dst % 65536).getD 0)
  | 0xF01C => some ((w.map fun w => w.base % 2 ^ 32).getD 0)
  | 0xF020 => some ((w.map fun w => (w.size - 1) % 2 ^ 20).getD 0)
  | _ =>
    let i := off / 0x200
    (s.lse[i]?).bind fun l =>
      match off % 0x200 with
      | 0x00 => some (pack [(2, s.build.spineStages), gap 6, (6, s.cfg.chart.lseMap.getD i 0)])
      | 0x04 => some (s.lseStatus l)
      | 0x08 => some (pack [(16, l.peerChip), (6, l.peerPort)])
      | 0x0C => some (pack [(11, l.out.length), (11, l.inbound.length)])
      | 0x10 => some (pack [(16, l.integCount), (16, l.lostCount)])
      | 0x14 => some (pack [(16, l.refusedCount), (8, l.deadCount), (8, l.orphanCount)])
      | _ => none

/-- Percent of the limit used by the active keys of the PCIe or CXL.io stream, the greater direction. -/
def Hse.wear (h : Hse) : Nat :=
  ((h.keys.filter fun k => k.stream = 0 ∧ k.keySet = h.keySet).map fun k => min 100 (k.blocks * 100 / 2 ^ 44)).foldl max 0

/-- Window 0x14. [DESIGN CHOICE: notes/assumptions/19.md] -/
def State.readHse (s : State) (off : Nat) : Option Nat :=
  let i := off / 0x100
  (s.hse[i]?).bind fun h =>
    match off % 0x100 with
    | 0x00 => some (pack [(2, s.build.spineStages), flag (s.cfg.engine.hseCxl.testBit i), gap 5, (2, i)])
    | 0x04 => some (pack [(2, h.state), flag h.linkStream, (1, h.keySet), flag (s.haltAll || h.halts), (7, h.wear), (8, h.streamId),
        flag (decide (h.cacheState = 1))])
    | 0x08 => some (pack [(16, h.macFail), (16, h.dropped)])
    | _ => none

/-! ### The pairs (R117, R591) -/

/-- The 64-bit value of the capture pair whose _LO register stands at the address. -/
def State.pairValue (s : State) (a : Nat) : Option Nat :=
  match a with
  | 0x000010 => some s.clk.tickCount
  | 0x010008 => some s.clk.domain
  | 0x010010 => some s.clk.tickTime
  | 0x060010 => some ((s.epochEntry.map (·.time)).getD 0)
  | 0x060030 => some s.selEntry
  | 0x060040 => some s.ldg.anchor.seq
  | 0x0D0004 => some s.cval
  | 0x0D0018 => some s.obs.freezeTime
  | 0x0D0020 => some s.obs.armTime
  | 0x0D0070 => some s.obs.gapTotal
  | 0x110010 => if s.build.sty then some s.sty.dieNj else none
  | _ => none

/-- The captured word of the pair at the address. -/
def Captures.word (c : Captures) (a : Nat) : Word :=
  match a with
  | 0x000010 => c.tickCnt
  | 0x010008 => c.time
  | 0x010010 => c.tickTime
  | 0x060010 => c.eStart
  | 0x060030 => c.ldgEntry
  | 0x060040 => c.ckpt
  | 0x0D0004 => c.cval
  | 0x0D0018 => c.freeze
  | 0x0D0020 => c.arm
  | 0x0D0070 => c.gapTotal
  | _ => c.styEnergy

/-- The captured word of the pair at the address replaced. -/
def Captures.take (a : Nat) (w : Word) (c : Captures) : Captures :=
  match a with
  | 0x000010 => { c with tickCnt := w }
  | 0x010008 => { c with time := w }
  | 0x010010 => { c with tickTime := w }
  | 0x060010 => { c with eStart := w }
  | 0x060030 => { c with ldgEntry := w }
  | 0x060040 => { c with ckpt := w }
  | 0x0D0004 => { c with cval := w }
  | 0x0D0018 => { c with freeze := w }
  | 0x0D0020 => { c with arm := w }
  | 0x0D0070 => { c with gapTotal := w }
  | _ => { c with styEnergy := w }

/-! ### The whole map (R588, R589, R601) -/

/-- The window's unit is in the build (R11, R589). -/
def Build.window (b : Build) (w : Nat) : Bool :=
  match w with
  | 0x0F => b.tol
  | 0x10 => b.xck
  | 0x11 => b.sty
  | 0x13 => decide (0 < b.lseCount)
  | 0x14 => decide (0 < b.hseCount)
  | _ => decide (w < 0x15)

/-- A register that is no pair, at a byte address. -/
def State.readSingle (s : State) (who a : Nat) : Option Nat :=
  let off := a % 2 ^ 16
  match a / 2 ^ 16 with
  | 0x00 => s.readGlobal off
  | 0x01 => s.readRcu off
  | 0x02 => s.readAld off
  | 0x03 => s.readCht off
  | 0x04 => s.readLcu off
  | 0x05 => s.readSbx off
  | 0x06 => s.readLdg off
  | 0x07 => s.readSwp off
  | 0x08 => s.readStl off
  | 0x09 => s.readMrk off
  | 0x0A => s.readDom off
  | 0x0B => s.readHlm off
  | 0x0C => s.readAlr off
  | 0x0D => s.readObs off
  | 0x0E => s.readBth who off
  | 0x0F => s.readTol off
  | 0x10 => s.readXck off
  | 0x11 => s.readSty off
  | 0x12 => s.readMse off
  | 0x13 => s.readLse off
  | 0x14 => s.readHse off
  | _ => none

/-- What a register reads for function `who`, none where the address holds no register of this build (R589). -/
def State.readReg (s : State) (who a : Nat) : Option Nat :=
  if ¬ s.build.window (a / 2 ^ 16) then none
  else match s.pairValue a, s.pairValue (a - 4) with
    | some v, _ => some (v % 2 ^ 32)
    | none, some _ => some (s.cap.word (a - 4)).toNat
    | none, none => s.readSingle who a

/-- A read of a _LO register captures its _HI word (R117). -/
def State.capturing (a : Nat) (s : State) : State :=
  match s.pairValue a with
  | some v => { s with cap := s.cap.take a (BitVec.ofNat 32 (hiWord v)) }
  | none => s

end Sys2Proof.Machine
end

