-- ==== Sys2Proof/Machine/Dump.lean ====
section
/-!
DEFINITION. HANG_DUMP (spec/18_faults_alarms_recovery.md R538 to R540): the metadata in clear with its unit block
(spec/21_register_map.md R600) and event rings, and the Stall dump sealed under the Stall's DUMP key.
-/

namespace Sys2Proof.Machine

/-! ### The unit block (R600) -/

/-- `n` registers from `base` on, `step` bytes apart. -/
def regRun (base step n : Nat) : List Nat := (List.range n).map fun k => base + step * k

/-- Registers of the windows 0x00 to 0x08 in ascending address, XS_VERSION first (R601). -/
def unitBlockLow : List Nat :=
  [0x000000, 0x000004, 0x000008, 0x000010, 0x000014, 0x000020, 0x000024] ++ regRun 0x010000 4 6 ++ regRun 0x010020 4 6 ++
    regRun 0x020000 4 3 ++ regRun 0x020010 4 3 ++ regRun 0x030000 4 3 ++ regRun 0x030100 4 24 ++ regRun 0x030200 4 48 ++
    regRun 0x030300 4 32 ++ regRun 0x040000 4 3 ++ regRun 0x040020 4 8 ++ regRun 0x050000 4 6 ++ regRun 0x060000 4 6 ++
    regRun 0x060020 4 11 ++ regRun 0x070000 4 6 ++ regRun 0x080000 4 9

/-- Registers of the windows 0x09 to 0x10, XS_XCK_CNT2 last (R601). -/
def unitBlockHigh : List Nat :=
  regRun 0x090000 4 6 ++ regRun 0x0A0000 4 4 ++ regRun 0x0B0000 4 2 ++ regRun 0x0B0010 4 6 ++ [0x0B0100] ++ regRun 0x0B0200 4 64 ++
    regRun 0x0C0000 4 6 ++ regRun 0x0C0020 4 8 ++ regRun 0x0D0000 4 10 ++ regRun 0x0D0030 4 4 ++ regRun 0x0D0040 4 4 ++
    regRun 0x0D0050 4 7 ++ regRun 0x0D0070 4 2 ++ regRun 0x0D0100 4 64 ++ regRun 0x0D0200 4 128 ++ regRun 0x0E0000 4 5 ++
    regRun 0x0F0000 4 4 ++ regRun 0x100000 4 6

/-- The registers of the unit block. -/
def unitBlockRegs : List Nat := unitBlockLow ++ unitBlockHigh

/-- A register as the unit block reads it: no side effect, a _HI register as it stands; no function reads (MINE is 0). -/
def State.blockReg (s : State) (a : Nat) : Nat :=
  match if s.build.window (a / 2 ^ 16) then s.pairValue (a - 4) else none with
  | some v => hiWord v
  | none => (s.readReg 65536 a).getD 0

/-- The unit block. -/
def State.unitBlock (s : State) : Bytes := unitBlockRegs.flatMap fun a => leBytes 4 (s.blockReg a)

/-! ### The metadata (R539) -/

/-- A Stall has a wait of R536. -/
def State.stallWaits (s : State) (id : Nat) : Bool :=
  (s.hlm.buffer.any fun q => decide (q.call.stall = id) && (s.waitUnmet q.call || s.fenceUnmet q)) ||
    (s.hlm.tickQ.any fun q => decide (q.call.stall = id) && s.waitUnmet q.call) || (s.mrk.waits.any fun w => decide (w.call.stall = id)) ||
    (s.mrk.res.any fun p => p.2.unacked && decide (s.markOwner p.1 = some id)) ||
    (s.bth.queue.any fun o => decide (o.call.stall = id)) || (s.tol.queue.any fun e => decide (e.call.stall = id)) ||
    s.stl.fills.any fun f => decide (f.stall = id) && f.slot.isNone

/-- The word of a Stall in the metadata's Stall table. -/
def State.stallWord (s : State) (id : Nat) : Nat :=
  let x := s.stall? id
  pack [(3, (s.stallState id).code), (6, (s.slotOfStall id).getD 0x3F), (3, (x.map (·.lostCause)).getD 0),
    flag (s.stl.fills.any fun f => decide (f.stall = id)), flag (s.stallWaits id)]

/-- The present event rings, in ring order. -/
def State.dumpRings (s : State) : List Bytes :=
  (List.range 84).filterMap fun k => (s.ringUnit k).map fun u => s.ringBytes k u

/-- The metadata. -/
def State.dumpMeta (s : State) : Bytes :=
  let rings := s.dumpRings
  let n := 0x5040 + (rings.map List.length).foldl (· + ·) 0
  leBytes 4 0x4D485358 ++ leBytes 2 1 ++ leBytes 2 rings.length ++ leBytes 4 n ++ zeros 4 ++ leBytes 8 s.clk.domain ++
    leBytes 8 s.obs.freezeTime ++ leBytes 8 s.alr.doldrumsTime ++ leBytes 1 s.lcu.state ++ leBytes 1 (bit s.ald.full) ++ zeros 22 ++
    padTo 2048 (s.alr.log.flatMap AlarmEntry.bytes) ++ ((List.range 4096).flatMap fun id => leBytes 4 (s.stallWord id)) ++
    s.unitBlock ++ rings.flatten

/-! ### The Stall dump (R540) -/

/-- A queued packet as it was accepted, padded with zeros to 256 bytes: header and arguments (R473). -/
def Queued.packet (q : Queued) : Bytes :=
  let c := q.call
  padTo 256 (leBytes 2 c.opcode ++ leBytes 1 (bit c.tick + 2 * bit c.fence + 4 * bit c.irq) ++ leBytes 1 (max 1 ((48 + q.args.length) / 32)) ++
    leBytes 4 c.tag ++ leBytes 8 c.comp ++ leBytes 2 c.sigMark ++ leBytes 2 c.waitMark ++ zeros 4 ++ leBytes 8 c.sigValue ++
    leBytes 8 c.waitValue ++ zeros 8 ++ q.args)

/-- The image in a resident slot: the record's layout with its secrets zeroed (R187); the bytes a record's seal adds are free, as they have no
meaning in a slot. [DEDUCED: notes/assumptions/22.md] -/
def State.slotImage (s : State) (id : Nat) (x : Stall) (d : StallData) : Bytes :=
  let d' : StallData := { d with stallRoot := [], kEst := [], owners := d.owners.map fun o => { o with kEst := [] } }
  leBytes 4 0x52535358 ++ leBytes 2 1 ++ leBytes 2 id ++ leBytes 8 x.version ++ s.drawn 12 ++ zeros 4 ++ s.recordPlain id x d' ++
    ((s.drawn 28).drop 12)

/-- The sectors of a Stall that hazard entries hold in plaintext. -/
def State.heldSectors (s : State) (id : Nat) : Bytes :=
  let mine (sector : Nat) : Bool := (s.regionOf (sectorAddr sector)).any fun r => decide ((s.entry r).owner = id ∧ (s.entry r).state ≠ .free)
  (List.range s.mse.length).flatMap fun i => match s.mse[i]? with
    | none => []
    | some m => m.hazards.flatMap fun h => match h.plain with
      | some p => if mine h.sector then leBytes 1 i ++ zeros 2 ++ leBytes 5 h.sector ++ p else []
      | none => []

/-- Type and content of a section. -/
def dumpPart (type : Nat) (b : Bytes) : List (Nat × Bytes) := if b = [] then [] else [(type, b)]

/-- The sections of a dump; the spec gives the Booth's and the Tollgate's working state no layout, so its bytes are an operand.
[DEDUCED: notes/assumptions/22.md] -/
def State.dumpSections (s : State) (id : Nat) (x : Stall) (d : StallData) (work : Bytes) : List (Nat × Bytes) :=
  dumpPart 1 (s.slotImage id x d) ++
    dumpPart 2 (((s.hlm.buffer ++ s.hlm.tickQ).filter fun q => q.call.stall = id).flatMap Queued.packet) ++
    dumpPart 3 (s.heldSectors id) ++ dumpPart 4 work

/-- The plaintext of the sections. -/
def sectionBytes (l : List (Nat × Bytes)) : Bytes :=
  l.flatMap fun p => leBytes 2 p.1 ++ zeros 2 ++ leBytes 4 p.2.length ++ p.2

/-- The DUMP key of a Stall with the highest SERIAL. -/
def StallData.dumpKey (d : StallData) : Option KeyEntry :=
  (d.keys.filter fun k => handleType k.handle = keyDump ∧ ¬ k.destroyed).foldl (fun (best : Option KeyEntry) k => match best with
    | none => some k
    | some b => if b.handle < k.handle then some k else best) none

/-- The sealed dump under a DUMP key, with a nonce. -/
def State.stallDump (s : State) (id : Nat) (x : Stall) (d : StallData) (k : KeyEntry) (nonce : Bytes) (l : List (Nat × Bytes)) : Bytes :=
  let pt := sectionBytes l
  let hdr := leBytes 4 0x53445358 ++ leBytes 2 1 ++ leBytes 2 id ++ leBytes 4 k.handle ++ leBytes 4 (64 + pt.length + 16) ++
    (padTo 8 x.inst).take 8 ++ leBytes 8 s.clk.domain ++ leBytes 8 s.obs.freezeTime ++ leBytes 2 l.length ++ leBytes 1 k.gen ++ [0] ++
    nonce ++ zeros 8
  let c := gcmSeal (derivedKey id x d keyDump 0 (k.handle % 2 ^ 16) k.gen) nonce hdr pt
  hdr ++ c.1 ++ c.2

/-- The operation counted against the DUMP key: in its slot, else in the key table (R196, R197). -/
def State.countDump (k : KeyEntry) (n : Nat) (s : State) : State :=
  let t := s.countBooth k.handle k.gen n
  if (s.sbx.slotOf k.handle k.gen).isSome then t
  else t.modStallData (handleOwner k.handle) fun d => { d with keys := d.keys.map fun e =>
    if e.handle = k.handle ∧ e.gen = k.gen then { e with use := e.use + n, ops := e.ops + 1 } else e }

/-- The record of a dump with both lengths, and EV_HANG_DUMP (R485, R542). -/
def State.finishDump (c : Call) (st stall metaLen stallLen : Nat) (s : State) : State :=
  (s.event evHangDump unitAlarm (if stall = 0xFFFF then none else some stall) metaLen stallLen).complete
    { c.record st with result := leBytes 4 metaLen ++ leBytes 4 stallLen }

/-- A Stall's record cannot be read any more: it is LOST by its record, or by the anchor (R408). -/
def State.recordGone (s : State) (id : Nat) : Bool :=
  !s.resident id && (s.stall? id).any fun x => decide (x.state = .lost ∧ (x.lostCause = 1 ∨ x.lostCause = 3 ∨ x.lostCause = 4))

/-- The Stall dump of a HANG_DUMP whose metadata has been written. [DEDUCED: notes/assumptions/22.md] -/
def State.dumpStall (c : Call) (id outp outMax metaLen : Nat) (work : Bytes) (ok : Bool) (s : State) : State :=
  match s.stall? id, s.stallData? id, (s.stallData? id).bind StallData.dumpKey with
  | some x, some d, some k =>
    if s.recordGone id then s.finishDump c stKeyUnknown id metaLen 0
    else
      let l := s.dumpSections id x d work
      let n := ceilDiv (sectionBytes l).length 16 + 1
      if s.overLimit k.handle k.gen n then s.finishDump c stKeyLimit id metaLen 0
      else
        let t := s.tookDraw
        let b := t.stallDump id x d k (t.drawn 12) l
        (t.tookDraw.countDump k n).output c outp outMax b ok fun t => t.finishDump c stOk id metaLen b.length
  | _, _, _ => s.finishDump c stKeyUnknown id metaLen 0

/-- HANG_DUMP (R538). `metaOk` and `stallOk`: the writes were answered OK; `work`: section 4. [DEDUCED: notes/assumptions/22.md] -/
def execHangDump (c : Call) (stall meta_ outp outMax : Nat) (work : Bytes) (metaOk stallOk : Bool) (s : State) :
    Host.Outcome State Fault Refusal :=
  done (s.command c 0x0C01 fun t =>
    let named := decide (stall ≠ 0xFFFF)
    if ¬ t.alr.dumpOpen then t.finish c stPolicy
    else if named ∧ 4096 ≤ stall then t.badArg c 0
    else if named ∧ ¬ t.ald.restored then t.finish c stHarbour
    else if named ∧ (t.stall? stall).isSome ∧ ¬ t.resident stall ∧ ¬ t.recordGone stall then t.wantStall stall
    else
      let body (t : State) : State :=
        let m := t.dumpMeta
        let u := t.emit (.memWrite 0 meta_ m)
        if ¬ metaOk then u.finish c stMemory
        else if named then u.dumpStall c stall outp outMax m.length work stallOk
        else u.finishDump c stOk 0xFFFF m.length 0
      let sealed_ := (t.stallData? stall).any fun d => d.dumpKey.isSome && !t.recordGone stall
      if named ∧ sealed_ then t.withEntropy c body else body t)

end Sys2Proof.Machine
end

