-- ==== Sys2Proof/Machine/Regs.lean ====
section
/-!
DEFINITION. Register accesses (spec/21_register_map.md R588 to R594, spec/03_ports.md R77, R78): who may access what, what a write does,
and the rows of the opcode table that are accesses, those of the TAP among them (spec/17_lifecycle_debug.md R511).
-/

namespace Sys2Proof.Machine

/-! ### Who may access what (R589, R592 to R594) -/

/-- What becomes of an access. -/
inductive RegVerdict where
  /-- The port does not answer it yet: in P and S, or a Helm-owned register during C (R78). -/
  | waits
  /-- Completes with data 0 and no effect (R510, R589). -/
  | nothing
  /-- Denied, and counted (R592). -/
  | denied
  | served
  deriving DecidableEq, Repr

/-- XS_HLM_DWCTRL and XS_HLM_DWBUF(k) (R594). -/
def helmOwned (a : Nat) : Bool := decide (a = 0x0B0100 ∨ (0x0B0200 ≤ a ∧ a < 0x0B0300))

/-- The registers every function may read while rst_busy is 1 (R126). [DEDUCED: notes/assumptions/17.md] -/
def loadReadable (a : Nat) : Bool := decide (a = 0x000000 ∨ a = 0x000004 ∨ a = 0x010020 ∨ a = 0x010000)

/-- The registers that SCRAP and INVALID serve (R510). -/
def deadServed (a : Nat) : Bool := decide (a = 0x000000 ∨ a = 0x000004 ∨ a = 0x010020 ∨ (0x040000 ≤ a ∧ a < 0x050000))

/-- REG_AUTH grants the access (R593). -/
def State.authorised (s : State) (fn : Nat) (write : Bool) (a : Nat) : Bool :=
  s.cfg.regAuth.any fun e => e.hits fn && (if write then e.write else e.read).testBit (a / 2 ^ 16)

/-- The rows of R592 after the load. -/
def State.mayAccess (s : State) (fn : Nat) (write : Bool) (a : Nat) : Bool :=
  if s.rst.rstBusy then !write && loadReadable a
  else if s.ald.noAlmanac then (!write && (loadReadable a || decide (a = 0x020000))) || helmOwned a
  else (!write && decide (a = 0x000000 ∨ a = 0x000004)) || s.authorised fn write a

/-- What becomes of an access of function `fn`, or of the TAP where there is none (R511, R592). [DEDUCED: notes/assumptions/17.md]
[DEDUCED: notes/assumptions/18.md] -/
def State.regVerdict (s : State) (fn : Option Nat) (write : Bool) (a : Nat) : RegVerdict :=
  if s.rst.phase = .inReset then .waits
  else if (s.readReg (fn.getD 0) a).isNone then .nothing
  else if s.dead then if deadServed a then .served else .nothing
  else if (fn.map fun f => s.mayAccess f write a).getD true then
    if helmOwned a ∧ s.rst.coreReset.isSome then .waits else .served
  else .denied

/-! ### What a write does (R15, R16) -/

/-- Bits `hi` down to `lo` of a written word, as a field of that width. -/
def fieldOf (w : Word) (lo n : Nat) : BitVec n := (w >>> lo).setWidth n

/-- XS_IRQ_STATUS and XS_IRQ_ENABLE (R599). -/
def State.writeGlobal (off : Nat) (w : Word) (s : State) : State :=
  match off with
  | 0x20 => { s with hlm := { s.hlm with
      irqComp := s.hlm.irqComp && !w.getLsbD 0, irqAlarm := s.hlm.irqAlarm && !w.getLsbD 2, irqUrgent := s.hlm.irqUrgent && !w.getLsbD 3 } }
  | 0x24 => { s with hlm := { s.hlm with irqEnable := fieldOf w 0 4 } }
  | _ => s

/-- Window 0x01 (R115, R141 to R143). -/
def State.writeRcu (off : Nat) (w : Word) (s : State) : State :=
  match off with
  | 0x00 => { s with clk := { s.clk with
      tickShort := s.clk.tickShort && !w.getLsbD 5, tickLate := s.clk.tickLate && !w.getLsbD 6
      tickOverrun := s.clk.tickOverrun && !w.getLsbD 7 } }
  | 0x20 => { s with rst := { s.rst with cause := w1c s.rst.cause (fieldOf w 0 11) } }
  | 0x24 => s.writeReset w
  | 0x28 => s.writeUrst w
  | _ => s

/-- WORD of XS_ALD_SETSEL advances by 1 (R176). -/
def State.nextSetWord (s : State) : State :=
  let v := s.ald.setSel.toNat
  { s with ald := { s.ald with setSel := BitVec.ofNat 18 (v % 256 + (v / 256 + 1) % 1024 * 256) } }

/-- A Settings word staged (R176); KIND 3 is not written. -/
def State.stageWord (w : Word) (s : State) : State :=
  let v := s.ald.setSel.toNat
  if v % 4 = 3 then s
  else
    let other (x : Nat × Nat × Nat × Word) : Bool := !decide (x.1 = v % 4 ∧ x.2.1 = v / 4 % 64 ∧ x.2.2.1 = v / 256)
    { s with ald := { s.ald with staged := s.ald.staged.filter other ++ [(v % 4, v / 4 % 64, v / 256, w)] } }

/-- Window 0x02 (R176). -/
def State.writeAld (off : Nat) (w : Word) (s : State) : State :=
  match off with
  | 0x10 => { s with ald := { s.ald with setSel := fieldOf w 0 18 } }
  | 0x14 => (s.stageWord w).nextSetWord
  | _ => s

/-- Window 0x05 (R207, R209). -/
def State.writeSbx (off : Nat) (w : Word) (s : State) : State :=
  match off with
  | 0x00 => { s with sbx := { s.sbx with entropyFail := s.sbx.entropyFail && !w.getLsbD 6 } }
  | 0x08 => { s with sbx := { s.sbx with slotSel := fieldOf w 0 8 } }
  | _ => s

/-- Window 0x06 (R234, R310). -/
def State.writeLdg (off : Nat) (w : Word) (s : State) : State :=
  match off with
  | 0x0C => { s with epo := { s.epo with sel := fieldOf w 0 8 } }
  | 0x2C => { s with ldg := { s.ldg with sel := fieldOf w 0 21 } }
  | _ => s

/-- XS_SWP_SLOTSEL (R315). -/
def State.writeSwp (off : Nat) (w : Word) (s : State) : State :=
  match off with
  | 0x0C => { s with swp := { s.swp with slotSel := fieldOf w 0 4 } }
  | _ => s

/-- XS_STL_SEL and XS_STL_FNSEL (R426, R430). -/
def State.writeStl (off : Nat) (w : Word) (s : State) : State :=
  match off with
  | 0x08 => { s with stl := { s.stl with sel := fieldOf w 0 12 } }
  | 0x1C => { s with stl := { s.stl with fnSel := fieldOf w 0 10 } }
  | _ => s

/-- XS_MRK_ROUTESEL (R392). -/
def State.writeMrk (off : Nat) (w : Word) (s : State) : State :=
  match off with
  | 0x10 => { s with mrk := { s.mrk with routeSel := fieldOf w 0 15 } }
  | _ => s

/-- XS_DOM_JOINERR (R389). -/
def State.writeDom (off : Nat) (w : Word) (s : State) : State :=
  match off with
  | 0x0C => { s with dom := { s.dom with joinSeen := s.dom.joinSeen && !w.getLsbD 9 } }
  | _ => s

/-- XS_HLM_EVQCFG written (R494): LOG2SIZE outside 6 to 16, or while ON is 1, is ignored; ON going to 1 clears HEAD and TAIL.
[DEDUCED: notes/assumptions/20.md] -/
def Evq.writeCfg (w : Word) (q : Evq) : Evq :=
  let n := (fieldOf w 0 5).toNat
  let size := if q.on ∨ n < 6 ∨ 16 < n then q.log2Size else fieldOf w 0 5
  if w.getLsbD 5 ∧ ¬ q.on then { q with log2Size := size, on := true, head := 0, tail := 0 }
  else { q with log2Size := size, on := w.getLsbD 5 }

/-- The event ring registers (R494). -/
def Evq.write (off : Nat) (w : Word) (q : Evq) : Evq :=
  match off with
  | 0x10 => if q.on then q else { q with baseLo := fieldOf w 5 27 }
  | 0x14 => if q.on then q else { q with baseHi := fieldOf w 0 24 }
  | 0x18 => q.writeCfg w
  | 0x20 => { q with tail := w.toNat % 65536 }
  | _ => q

/-- XS_HLM_DWCTRL written (R493): DONE cleared, then GO. -/
def State.writeDwctrl (fn : Nat) (w : Word) (s : State) : State :=
  let t : State := { s with hlm := { s.hlm with dwDone := s.hlm.dwDone && !w.getLsbD 2 } }
  if w.getLsbD 0 then t.windowGo fn else t

/-- Window 0x0B (R491 to R494); `fn` is the writing function. -/
def State.writeHlm (fn off : Nat) (w : Word) (s : State) : State :=
  match off with
  | 0x00 => { s with hlm := { s.hlm with cwOverrun := s.hlm.cwOverrun && !w.getLsbD 21 } }
  | 0x100 => s.writeDwctrl fn w
  | _ =>
    match indexed 0x200 4 64 off with
    | some k => if s.hlm.dwBusy then s else { s with hlm := { s.hlm with dwBuf := listSet s.hlm.dwBuf k fun _ => w } }
    | none => { s with hlm := { s.hlm with evq := s.hlm.evq.write off w } }

/-- Window 0x0C (R526, R543, R544): clearing INTEGRITY lowers tray_al_integrity. -/
def State.writeAlr (off : Nat) (w : Word) (s : State) : State :=
  match off with
  | 0x00 => { s with alr := { s.alr with
      integrity := s.alr.integrity && !w.getLsbD 2, logOverflow := s.alr.logOverflow && !w.getLsbD 6
      dumpOpen := s.alr.dumpOpen && !w.getLsbD 8 } }
  | 0x04 => { s with alr := { s.alr with logSel := fieldOf w 0 6 } }
  | _ => s

/-- XS_OBS_TRACK(t) written, `t` 1 to 62 (R550, R555, R567): the set is cleared. A write that names a Stall another set tracks is ignored.
[DEDUCED: notes/assumptions/20.md] -/
def Obs.writeTrack (t : Nat) (w : Word) (o : Obs) : Obs :=
  let stall := w.toNat % 4096
  let valid := w.getLsbD 31
  if t = 0 ∨ 63 ≤ t then o
  else if valid ∧ (stall = 0 ∨ o.track.any fun p => decide (p.1 ≠ t ∧ p.2 = stall)) then o
  else ({ o with
      track := if valid then assocSet t stall o.track else assocDel t o.track
      trackOff := if valid ∨ stall = 0 then assocDel t o.trackOff else assocSet t stall o.trackOff } : Obs).clearSet t

/-- XS_OBS_BEACON written (R568): NOW meets the state of that edge, then RELEASE. [DEDUCED: notes/assumptions/20.md] -/
def State.writeBeacon (w : Word) (s : State) : State :=
  let t := if w.getLsbD 0 then s.beaconNow else s
  if w.getLsbD 1 then t.releaseBeacon else t

/-- Window 0x0D (R566 to R570). -/
def State.writeObs (off : Nat) (w : Word) (s : State) : State :=
  match off with
  | 0x00 => { s with obs := { s.obs with csel := fieldOf w 0 13 } }
  | 0x10 => if w.getLsbD 4 then { s with obs := s.obs.clearBank (w.toNat % 16) } else s
  | 0x14 => s.writeBeacon w
  | 0x30 => { s with obs := { s.obs with ringMin := fieldOf w 0 16 } }
  | 0x34 => { s with obs := { s.obs with ringSel := fieldOf w 0 15 } }
  | 0x50 => { s with obs := { s.obs with gapSel := fieldOf w 0 6, gapOverflow := s.obs.gapOverflow && !w.getLsbD 13 } }
  | _ =>
    match indexed 0x100 4 64 off with
    | some t => { s with obs := s.obs.writeTrack t w }
    | none => s

/-- XS_BTH_LOCK written (R443): a claim, then a release. The TAP claims as Stall 0. [DEDUCED: notes/assumptions/13.md] -/
def State.writeLock (fn : Option Nat) (w : Word) (s : State) : State :=
  let t := if ¬ w.getLsbD 0 then s else match fn with
    | some f => s.claimBooth f
    | none => s.claimFor 0 0
  if w.getLsbD 1 then t.releaseLock (fn.getD 0) else t

/-- XS_MSE_SOUND(i) and XS_MSE_BADSEL(i) (R275, R276). -/
def State.writeMse (off : Nat) (w : Word) (s : State) : State :=
  match off % 0x400 with
  | 0x14 => s.modErr (off / 0x400) fun e => { e with soundValid := e.soundValid && !w.getLsbD 16 }
  | 0x18 => s.modErr (off / 0x400) fun e => { e with badSel := fieldOf w 0 12, badOverflow := e.badOverflow && !w.getLsbD 25 }
  | _ => s

/-- What a write to a register does. `fn`: the writing function, none for the TAP. -/
def State.writeReg (fn : Option Nat) (a : Nat) (w : Word) (s : State) : State :=
  let off := a % 2 ^ 16
  match a / 2 ^ 16 with
  | 0x00 => s.writeGlobal off w
  | 0x01 => s.writeRcu off w
  | 0x02 => s.writeAld off w
  | 0x05 => s.writeSbx off w
  | 0x06 => s.writeLdg off w
  | 0x07 => s.writeSwp off w
  | 0x08 => s.writeStl off w
  | 0x09 => s.writeMrk off w
  | 0x0A => s.writeDom off w
  | 0x0B => s.writeHlm (fn.getD 0) off w
  | 0x0C => s.writeAlr off w
  | 0x0D => s.writeObs off w
  | 0x0E => if off = 0 then s.writeLock fn w else s
  | 0x0F => if off = 0x0C then { s with tol := { s.tol with polValid := s.tol.polValid && !w.getLsbD 24 } } else s
  | 0x10 => if off = 0x08 then { s with xck := { s.xck with sel := fieldOf w 0 3 } } else s
  | 0x11 => if off = 0x08 then { s with sty := { s.sty with chsel := fieldOf w 0 4 } } else s
  | 0x12 => s.writeMse off w
  | 0x13 => if off = 0xF010 then { s with rwtSel := fieldOf w 0 10 } else s
  | _ => s

/-! ### Accesses -/

/-- The access is answered and counted (R77, R554); the TAP shifts its data out instead. -/
def State.regAnswer (fn : Option Nat) (denied : Bool) (v : Nat) (s : State) : State :=
  match fn with
  | none => s.emit (.tap (leBytes 4 v))
  | some _ => ((s.emit (.reg denied (BitVec.ofNat 32 v))).bump 12 1).bump 13 (bit denied)

/-- A served read: data and captures as of its edge; XS_ALD_SETDATA advances its selector; an uncached pool entry asks for its line
and is answered once that has come (R310). -/
def State.serveRead (fn : Option Nat) (a : Nat) (s : State) : State :=
  match if a = 0x060030 then s.selLine else none with
  | some l =>
    if s.ldg.poolReads.contains l then s
    else ({ s with ldg := { s.ldg with poolReads := s.ldg.poolReads ++ [l] } }).bump (ctrLdg 4) 1
  | none =>
    let v := (s.readReg (fn.getD 0) a).getD 0
    let t := s.capturing a
    (if a = 0x020014 then t.nextSetWord else t).regAnswer fn false v

/-- A read of the register at byte address `a`. -/
def State.regRead (fn : Option Nat) (a : Nat) (s : State) : State :=
  match s.regVerdict fn false a with
  | .waits => s
  | .nothing => s.regAnswer fn false 0
  | .denied => s.regAnswer fn true 0
  | .served => s.serveRead fn a

/-- A write of the register at byte address `a`. -/
def State.regWrite (fn : Option Nat) (a data : Nat) (s : State) : State :=
  match s.regVerdict fn true a with
  | .waits => s
  | .nothing => s.regAnswer fn false 0
  | .denied => s.regAnswer fn true 0
  | .served => (s.writeReg fn a (BitVec.ofNat 32 data)).regAnswer fn false 0

/-- reg_addr [23:2] as the byte address of its register (R588). [DESIGN CHOICE: notes/assumptions/16.md] -/
def regAddr (a : Nat) : Nat := a % 2 ^ 24 / 4 * 4

/-! ### The rows -/

/-- CAPTURE_PAIR_READ (R591): a read of any register; one of a _LO register captures. [DESIGN CHOICE: notes/assumptions/16.md] -/
def execCapturePairRead (fn addr : Nat) (s : State) : Host.Outcome State Fault Refusal := done (s.begin.regRead (some fn) (regAddr addr))

/-- REGISTER_WRITE (R590). [DESIGN CHOICE: notes/assumptions/16.md] -/
def execRegisterWrite (fn addr data : Nat) (s : State) : Host.Outcome State Fault Refusal :=
  done (s.begin.regWrite (some fn) (regAddr addr) data)

/-- CORE_RESET_REQUEST (R142): XS_RCU_RESET.CORE. -/
def execCoreResetRequest (fn : Nat) (s : State) : Host.Outcome State Fault Refusal := done (s.begin.regWrite (some fn) 0x010024 1)

/-- SYS_REQ_WRITE (R119): XS_RCU_RESET.SYS_REQ. [DEDUCED: notes/assumptions/23.md] -/
def execSysReqWrite (fn : Nat) (s : State) : Host.Outcome State Fault Refusal := done (s.begin.regWrite (some fn) 0x010024 2)

/-- UNIT_RESET_GO (R132): XS_RCU_URST with UNIT and GO. -/
def execUnitResetGo (fn unit : Nat) (s : State) : Host.Outcome State Fault Refusal :=
  done (s.begin.regWrite (some fn) 0x010028 (unit % 256 + 256))

/-- BOOTH_CLAIM (R431). -/
def execBoothClaim (fn : Nat) (s : State) : Host.Outcome State Fault Refusal := done (s.begin.regWrite (some fn) 0x0E0000 1)

/-- BOOTH_RELEASE (R432). -/
def execBoothRelease (fn : Nat) (s : State) : Host.Outcome State Fault Refusal := done (s.begin.regWrite (some fn) 0x0E0000 2)

/-- BEACON_NOW (R557). -/
def execBeaconNow (fn : Nat) (s : State) : Host.Outcome State Fault Refusal := done (s.begin.regWrite (some fn) 0x0D0014 1)

/-- BEACON_RELEASE (R559). -/
def execBeaconRelease (fn : Nat) (s : State) : Host.Outcome State Fault Refusal := done (s.begin.regWrite (some fn) 0x0D0014 2)

/-- COUNTER_BANK_CLEAR (R550): XS_OBS_CLEAR with BANK and GO. -/
def execCounterBankClear (fn bank : Nat) (s : State) : Host.Outcome State Fault Refusal :=
  done (s.begin.regWrite (some fn) 0x0D0010 (bank % 16 + 16))

/-- OBS_TRACK_WRITE (R555): XS_OBS_TRACK(t). -/
def execObsTrackWrite (fn t stall : Nat) (valid : Bool) (s : State) : Host.Outcome State Fault Refusal :=
  done (s.begin.regWrite (some fn) (0x0D0100 + 4 * (t % 64)) (stall % 4096 + bit valid * 2 ^ 31))

/-- EVQ_CFG_WRITE (R494). -/
def execEvqCfgWrite (fn log2 : Nat) (on : Bool) (s : State) : Host.Outcome State Fault Refusal :=
  done (s.begin.regWrite (some fn) 0x0B0018 (log2 % 32 + bit on * 32))

/-- EVQ_TAIL_WRITE (R490, R494). -/
def execEvqTailWrite (fn tail : Nat) (s : State) : Host.Outcome State Fault Refusal :=
  done (s.begin.regWrite (some fn) 0x0B0020 (tail % 65536))

/-- SETTINGS_DATA_ACCESS (R176): XS_ALD_SETDATA read or written. -/
def execSettingsDataAccess (fn : Nat) (write : Bool) (data : Nat) (s : State) : Host.Outcome State Fault Refusal :=
  done (if write then s.begin.regWrite (some fn) 0x020014 data else s.begin.regRead (some fn) 0x020014)

/-- INTEGRITY_ALARM_CLEAR (R526): XS_ALR_STATUS.INTEGRITY. -/
def execIntegrityAlarmClear (fn : Nat) (s : State) : Host.Outcome State Fault Refusal := done (s.begin.regWrite (some fn) 0x0C0000 4)

/-- DW_GO (R484): XS_HLM_DWCTRL.GO. -/
def execDwGo (fn : Nat) (s : State) : Host.Outcome State Fault Refusal := done (s.begin.regWrite (some fn) 0x0B0100 1)

/-! ### The TAP (R511) -/

/-- TAP_DEBUG_ENTER (R511): SCAN, MBIST or HELM_DBG is entered: AL_INTEGRITY DEBUG and rst_req. In a state in which it does not act it selects
BYPASS (R88). [DEDUCED: notes/assumptions/21.md] -/
def execTapDebugEnter (ir : Nat) (s : State) : Host.Outcome State Fault Refusal :=
  let t := s.begin
  let u : State := { t with lcu := { t.lcu with tapIr := BitVec.ofNat 8 ir } }
  done (if (ir = 0x20 ∨ ir = 0x21 ∨ ir = 0x30) ∧ t.tapOpen ir then
      let v := u.alarmIntegrity unitLifecycle none none 5 ir
      { v with rst := { v.rst with rstReq := true } }
    else u)

/-- TAP_FUSE_READ (R511): the word is read at the fuse port once that is free; ANALYSIS withholds the key words.
[DEDUCED: notes/assumptions/21.md] -/
def execTapFuseRead (word : Nat) (s : State) : Host.Outcome State Fault Refusal :=
  let t := s.begin
  let w := word % 256
  let withheld := t.lcu.state = lcAnalysis ∧ ((0x10 ≤ w ∧ w ≤ 0x31) ∨ (0xE0 ≤ w ∧ w ≤ 0xEF))
  let u : State := { t with lcu := { t.lcu with tapIr := 0x22 } }
  done (if ¬ t.tapOpen 0x22 ∨ withheld then u
    else if t.lcu.job.isSome ∨ t.lcu.tapRead.isSome then t
    else ({ u with lcu := { u.lcu with tapRead := some w } }).emit (.fuseRd w))

/-- TAP_REG_ACCESS (R511, R592): an access as Stall 0, authorised for every register. [DEDUCED: notes/assumptions/21.md] -/
def execTapRegAccess (write : Bool) (addr data : Nat) (s : State) : Host.Outcome State Fault Refusal :=
  let t := s.begin
  let u : State := { t with lcu := { t.lcu with tapIr := 0x31 } }
  done (if ¬ t.tapOpen 0x31 then u
    else if write then u.regWrite none (regAddr addr) data else u.regRead none (regAddr addr))

end Sys2Proof.Machine
end

