-- ==== Sys2Proof/Machine/Dispatch.lean ====
section
/-!
DEFINITION. The dispatch of a command to its meaning: one arm per constructor, one direct call each.
-/

namespace Sys2Proof.Machine

def exec (i : Instr) (s : State) : Host.Outcome State Fault Refusal :=
  match i with
  | .powerOnReset => Sys2Proof.Machine.execPowerOnReset s
  | .systemReset => Sys2Proof.Machine.execSystemReset s
  | .resetRelease clkcGood coolantOk tamper tamperB fuseFail trims => Sys2Proof.Machine.execResetRelease clkcGood coolantOk tamper tamperB fuseFail trims s
  | .lcTransitionResume => Sys2Proof.Machine.execLcTransitionResume s
  | .almanacLoad sigA sigB nvmOk sdr sigs => Sys2Proof.Machine.execAlmanacLoad sigA sigB nvmOk sdr sigs s
  | .helmWatchdogExpiry => Sys2Proof.Machine.execHelmWatchdogExpiry s
  | .coreResetEnd => Sys2Proof.Machine.execCoreResetEnd s
  | .coreResetRequest fn => Sys2Proof.Machine.execCoreResetRequest fn s
  | .sysReqWrite fn => Sys2Proof.Machine.execSysReqWrite fn s
  | .unitResetGo fn unit => Sys2Proof.Machine.execUnitResetGo fn unit s
  | .unitResetIdle unit => Sys2Proof.Machine.execUnitResetIdle unit s
  | .unitResetForce unit written => Sys2Proof.Machine.execUnitResetForce unit written s
  | .unitResetRelease unit => Sys2Proof.Machine.execUnitResetRelease unit s
  | .runtDetected => Sys2Proof.Machine.execRuntDetected s
  | .pclkStopDeclared stretch => Sys2Proof.Machine.execPclkStopDeclared stretch s
  | .pclkStopEnd => Sys2Proof.Machine.execPclkStopEnd s
  | .pclkStopTimeout => Sys2Proof.Machine.execPclkStopTimeout s
  | .pclkFreqWindow mhz stretch => Sys2Proof.Machine.execPclkFreqWindow mhz stretch s
  | .freqChangeRequest => Sys2Proof.Machine.execFreqChangeRequest s
  | .freqChangeDone => Sys2Proof.Machine.execFreqChangeDone s
  | .freqChangeTimeout => Sys2Proof.Machine.execFreqChangeTimeout s
  | .clockGoodLost => Sys2Proof.Machine.execClockGoodLost s
  | .freqAckReturnTimeout ret => Sys2Proof.Machine.execFreqAckReturnTimeout ret s
  | .tickBoundary => Sys2Proof.Machine.execTickBoundary s
  | .tickLate => Sys2Proof.Machine.execTickLate s
  | .tickBudgetExpiry => Sys2Proof.Machine.execTickBudgetExpiry s
  | .epochApply m => Sys2Proof.Machine.execEpochApply m s
  | .tamperPairTrip tamper tamperB => Sys2Proof.Machine.execTamperPairTrip tamper tamperB s
  | .coolantLoss => Sys2Proof.Machine.execCoolantLoss s
  | .safeStopDrainDone => Sys2Proof.Machine.execSafeStopDrainDone s
  | .zeroizeVerifyDone nonzero => Sys2Proof.Machine.execZeroizeVerifyDone nonzero s
  | .fusePortTimeout => Sys2Proof.Machine.execFusePortTimeout s
  | .fusePgmDone => Sys2Proof.Machine.execFusePgmDone s
  | .fusePgmErr => Sys2Proof.Machine.execFusePgmErr s
  | .railSampleCapture val ch par => Sys2Proof.Machine.execRailSampleCapture val ch par s
  | .tempSampleCapture val par => Sys2Proof.Machine.execTempSampleCapture val par s
  | .railChannelGap ch => Sys2Proof.Machine.execRailChannelGap ch s
  | .crossingSoundingDone crossing fault => Sys2Proof.Machine.execCrossingSoundingDone crossing fault s
  | .partitionAnnounce unit level phase => Sys2Proof.Machine.execPartitionAnnounce unit level phase s
  | .partitionDrainDone unit => Sys2Proof.Machine.execPartitionDrainDone unit s
  | .partitionDrainTimeout unit written => Sys2Proof.Machine.execPartitionDrainTimeout unit written s
  | .mseReadRequest m lane sector stall id cls => Sys2Proof.Machine.execMseReadRequest m lane sector stall id cls s
  | .mseLockRead m lane sector stall id cls => Sys2Proof.Machine.execMseLockRead m lane sector stall id cls s
  | .mseWriteRequest m lane sector stall id cls data => Sys2Proof.Machine.execMseWriteRequest m lane sector stall id cls data s
  | .msePartialWrite m lane sector stall id cls be data => Sys2Proof.Machine.execMsePartialWrite m lane sector stall id cls be data s
  | .mseUnlockWrite m lane sector stall id cls be data => Sys2Proof.Machine.execMseUnlockWrite m lane sector stall id cls be data s
  | .mseMemRequestSend m lane write sweep => Sys2Proof.Machine.execMseMemRequestSend m lane write sweep s
  | .mseReadBeat m id data sb err => Sys2Proof.Machine.execMseReadBeat m id data sb err s
  | .mseLaneTestDone m lane pass => Sys2Proof.Machine.execMseLaneTestDone m lane pass s
  | .mseWriteAck m id err => Sys2Proof.Machine.execMseWriteAck m id err s
  | .mseReadTimeout m id => Sys2Proof.Machine.execMseReadTimeout m id s
  | .mseWriteTimeout m id => Sys2Proof.Machine.execMseWriteTimeout m id s
  | .mseLockTimeout m sector => Sys2Proof.Machine.execMseLockTimeout m sector s
  | .tagLineWriteFlush m line => Sys2Proof.Machine.execTagLineWriteFlush m line s
  | .keyGenFence m => Sys2Proof.Machine.execKeyGenFence m s
  | .keyGenFenceAck m => Sys2Proof.Machine.execKeyGenFenceAck m s
  | .mseSquashOrder m => Sys2Proof.Machine.execMseSquashOrder m s
  | .ledgerInvalidate m => Sys2Proof.Machine.execLedgerInvalidate m s
  | .refusalMapUpdate tile => Sys2Proof.Machine.execRefusalMapUpdate tile s
  | .ledgerCacheFill m pool index => Sys2Proof.Machine.execLedgerCacheFill m pool index s
  | .keyCacheFill tile handle gen bad => Sys2Proof.Machine.execKeyCacheFill tile handle gen bad s
  | .keyUnwrapDone handle gen blob => Sys2Proof.Machine.execKeyUnwrapDone handle gen blob s
  | .poolLedgerLineFill line data => Sys2Proof.Machine.execPoolLedgerLineFill line data s
  | .sweepSlotStart => Sys2Proof.Machine.execSweepSlotStart s
  | .strideCheckpoint slot => Sys2Proof.Machine.execStrideCheckpoint slot s
  | .sweepRetire stall => Sys2Proof.Machine.execSweepRetire stall s
  | .sweepDone stall => Sys2Proof.Machine.execSweepDone stall s
  | .zeroFillDone slot => Sys2Proof.Machine.execZeroFillDone slot s
  | .harbourResealDone => Sys2Proof.Machine.execHarbourResealDone s
  | .sweeperYieldEnd => Sys2Proof.Machine.execSweeperYieldEnd s
  | .deltaRecordAck => Sys2Proof.Machine.execDeltaRecordAck s
  | .baseMarkerAck => Sys2Proof.Machine.execBaseMarkerAck s
  | .ledgerDed pool index => Sys2Proof.Machine.execLedgerDed pool index s
  | .ledgerRowSoundingDone row pass => Sys2Proof.Machine.execLedgerRowSoundingDone row pass s
  | .keyslotMaskRefresh bad => Sys2Proof.Machine.execKeyslotMaskRefresh bad s
  | .keyslotBankSoundingDone bank pass => Sys2Proof.Machine.execKeyslotBankSoundingDone bank pass s
  | .entropyFail => Sys2Proof.Machine.execEntropyFail s
  | .entropyRecover => Sys2Proof.Machine.execEntropyRecover s
  | .entropyWaitTimeout => Sys2Proof.Machine.execEntropyWaitTimeout s
  | .keyPairGenerated => Sys2Proof.Machine.execKeyPairGenerated s
  | .keyUseReport tile handle gen blobOk => Sys2Proof.Machine.execKeyUseReport tile handle gen blobOk s
  | .lseTxRequest l kind stall dst tc addr id nbytes data => Sys2Proof.Machine.execLseTxRequest l kind stall dst tc addr id nbytes data s
  | .lseHostResponse l kind id st data => Sys2Proof.Machine.execLseHostResponse l kind id st data s
  | .lseRxUnit l unit err => Sys2Proof.Machine.execLseRxUnit l unit err s
  | .lseRxRequest l => Sys2Proof.Machine.execLseRxRequest l s
  | .lseRxResponse l => Sys2Proof.Machine.execLseRxResponse l s
  | .lseDeadTarget l id => Sys2Proof.Machine.execLseDeadTarget l id s
  | .linkKeyDerived l tx => Sys2Proof.Machine.execLinkKeyDerived l tx s
  | .resyncReceive l => Sys2Proof.Machine.execResyncReceive l s
  | .grantReceive l => Sys2Proof.Machine.execGrantReceive l s
  | .grantAckReceive l => Sys2Proof.Machine.execGrantAckReceive l s
  | .revokeReceive l => Sys2Proof.Machine.execRevokeReceive l s
  | .revokeAckReceive l => Sys2Proof.Machine.execRevokeAckReceive l s
  | .revokeTimeout l => Sys2Proof.Machine.execRevokeTimeout l s
  | .joinH1Receive l o => Sys2Proof.Machine.execJoinH1Receive l o s
  | .joinChainReceive l cert => Sys2Proof.Machine.execJoinChainReceive l cert s
  | .joinH2Receive l o => Sys2Proof.Machine.execJoinH2Receive l o s
  | .joinH3Receive l o => Sys2Proof.Machine.execJoinH3Receive l o s
  | .joinH4Receive l => Sys2Proof.Machine.execJoinH4Receive l s
  | .hybridExchangeTimeout => Sys2Proof.Machine.execHybridExchangeTimeout s
  | .timeProbeSend t1 => Sys2Proof.Machine.execTimeProbeSend t1 s
  | .timeProbeReceive l t2 t3 => Sys2Proof.Machine.execTimeProbeReceive l t2 t3 s
  | .timeReplyReceive l t4 => Sys2Proof.Machine.execTimeReplyReceive l t4 s
  | .timeUnlockTimeout => Sys2Proof.Machine.execTimeUnlockTimeout s
  | .hseTxTlp h kind data secured => Sys2Proof.Machine.execHseTxTlp h kind data secured s
  | .hseRxTlp h kind inStream macOk err data => Sys2Proof.Machine.execHseRxTlp h kind inStream macOk err data s
  | .xckUnpairedTimeout binding => Sys2Proof.Machine.execXckUnpairedTimeout binding s
  | .markSignalReceive l => Sys2Proof.Machine.execMarkSignalReceive l s
  | .markAckReceive l => Sys2Proof.Machine.execMarkAckReceive l s
  | .markResendTimeout mark dest => Sys2Proof.Machine.execMarkResendTimeout mark dest s
  | .markFillDone mark rec_ => Sys2Proof.Machine.execMarkFillDone mark rec_ s
  | .stallFillStart => Sys2Proof.Machine.execStallFillStart s
  | .stallFillDone stall rec_ => Sys2Proof.Machine.execStallFillDone stall rec_ s
  | .removalStepDone stall => Sys2Proof.Machine.execRemovalStepDone stall s
  | .removalDrainTimeout stall => Sys2Proof.Machine.execRemovalDrainTimeout stall s
  | .freezeDrainTimeout stall => Sys2Proof.Machine.execFreezeDrainTimeout stall s
  | .migSessionExpiry => Sys2Proof.Machine.execMigSessionExpiry s
  | .boothClaim fn => Sys2Proof.Machine.execBoothClaim fn s
  | .boothRelease fn => Sys2Proof.Machine.execBoothRelease fn s
  | .boothLeaseExpiry => Sys2Proof.Machine.execBoothLeaseExpiry s
  | .boothOpComplete io => Sys2Proof.Machine.execBoothOpComplete io s
  | .tollCommit => Sys2Proof.Machine.execTollCommit s
  | .tollHandoff src stageAt hdrOk stalls => Sys2Proof.Machine.execTollHandoff src stageAt hdrOk stalls s
  | .tollExportComplete io => Sys2Proof.Machine.execTollExportComplete io s
  | .hintBoothClassEnd => Sys2Proof.Machine.execHintBoothClassEnd s
  | .commandPacket fn qid framed bytes => Sys2Proof.Machine.execCommandPacket fn qid framed bytes s
  | .commandStart => Sys2Proof.Machine.execCommandStart s
  | .completionWrite => Sys2Proof.Machine.execCompletionWrite s
  | .cwOverrun => Sys2Proof.Machine.execCwOverrun s
  | .eventRingWrite => Sys2Proof.Machine.execEventRingWrite s
  | .alarmLogCopy => Sys2Proof.Machine.execAlarmLogCopy s
  | .settingsRepairWrite => Sys2Proof.Machine.execSettingsRepairWrite s
  | .doldrumsDeclare => Sys2Proof.Machine.execDoldrumsDeclare s
  | .doldrumsEnd => Sys2Proof.Machine.execDoldrumsEnd s
  | .counterBankSoundingDone counter fault => Sys2Proof.Machine.execCounterBankSoundingDone counter fault s
  | .beaconFreeze => Sys2Proof.Machine.execBeaconFreeze s
  | .beaconNow fn => Sys2Proof.Machine.execBeaconNow fn s
  | .beaconRelease fn => Sys2Proof.Machine.execBeaconRelease fn s
  | .counterBankClear fn bank => Sys2Proof.Machine.execCounterBankClear fn bank s
  | .obsTrackWrite fn t stall valid => Sys2Proof.Machine.execObsTrackWrite fn t stall valid s
  | .evqCfgWrite fn log2 on => Sys2Proof.Machine.execEvqCfgWrite fn log2 on s
  | .evqTailWrite fn tail => Sys2Proof.Machine.execEvqTailWrite fn tail s
  | .settingsDataAccess fn write data => Sys2Proof.Machine.execSettingsDataAccess fn write data s
  | .capturePairRead fn addr => Sys2Proof.Machine.execCapturePairRead fn addr s
  | .integrityAlarmClear fn => Sys2Proof.Machine.execIntegrityAlarmClear fn s
  | .registerWrite fn addr data => Sys2Proof.Machine.execRegisterWrite fn addr data s
  | .dwGo fn => Sys2Proof.Machine.execDwGo fn s
  | .lcReq target auth coincident => Sys2Proof.Machine.execLcReq target auth coincident s
  | .tapDebugEnter ir => Sys2Proof.Machine.execTapDebugEnter ir s
  | .tapFuseRead word => Sys2Proof.Machine.execTapFuseRead word s
  | .tapRegAccess write addr data => Sys2Proof.Machine.execTapRegAccess write addr data s
  | .nop c => Sys2Proof.Machine.execNop c s
  | .hint c durationUs targets => Sys2Proof.Machine.execHint c durationUs targets s
  | .patchStage c src len buf sigOk => Sys2Proof.Machine.execPatchStage c src len buf sigOk s
  | .patchCommit c => Sys2Proof.Machine.execPatchCommit c s
  | .keyGenerate c type flags usage keyLen ownerIdx blobAddr blobOk => Sys2Proof.Machine.execKeyGenerate c type flags usage keyLen ownerIdx blobAddr blobOk s
  | .keyLoad c handle flags => Sys2Proof.Machine.execKeyLoad c handle flags s
  | .keyUnpin c handle => Sys2Proof.Machine.execKeyUnpin c handle s
  | .keyRotate c handle blobAddr blobOk => Sys2Proof.Machine.execKeyRotate c handle blobAddr blobOk s
  | .keyDestroy c handle => Sys2Proof.Machine.execKeyDestroy c handle s
  | .keyAttest c handle out_ outMax certs ok => Sys2Proof.Machine.execKeyAttest c handle out_ outMax certs ok s
  | .drkGenerate c => Sys2Proof.Machine.execDrkGenerate c s
  | .regionBind c region count mode => Sys2Proof.Machine.execRegionBind c region count mode s
  | .regionRetire c region count owner => Sys2Proof.Machine.execRegionRetire c region count owner s
  | .stallAdmit c stall fill integ opts nowner account program tenantKey policy owners ownersBuf => Sys2Proof.Machine.execStallAdmit c stall fill integ opts nowner account program tenantKey policy owners ownersBuf s
  | .stallRemove c stall => Sys2Proof.Machine.execStallRemove c stall s
  | .stallFreeze c stall flist ok => Sys2Proof.Machine.execStallFreeze c stall flist ok s
  | .stallThaw c stall => Sys2Proof.Machine.execStallThaw c stall s
  | .migrateSave c stall session flist out_ outMax list blobs ok => Sys2Proof.Machine.execMigrateSave c stall session flist out_ outMax list blobs ok s
  | .migrateRestore c session rec_ blobRegion counter record => Sys2Proof.Machine.execMigrateRestore c session rec_ blobRegion counter record s
  | .fnMap c fn stall => Sys2Proof.Machine.execFnMap c fn stall s
  | .fnUnmap c fn => Sys2Proof.Machine.execFnUnmap c fn s
  | .stallStatus c stall => Sys2Proof.Machine.execStallStatus c stall s
  | .windowGrant c reqChip reqStall rights base size => Sys2Proof.Machine.execWindowGrant c reqChip reqStall rights base size s
  | .windowRevoke c reqChip index => Sys2Proof.Machine.execWindowRevoke c reqChip index s
  | .linkReset c lse => Sys2Proof.Machine.execLinkReset c lse s
  | .xckBind c winA winB tiles mode k rate action => Sys2Proof.Machine.execXckBind c winA winB tiles mode k rate action s
  | .xckUnbind c binding => Sys2Proof.Machine.execXckUnbind c binding s
  | .measureExtend c reg kind owner digest => Sys2Proof.Machine.execMeasureExtend c reg kind owner digest s
  | .measureLock c => Sys2Proof.Machine.execMeasureLock c s
  | .x2Enable c => Sys2Proof.Machine.execX2Enable c s
  | .x2Report c nonce out_ outMax sigs ok => Sys2Proof.Machine.execX2Report c nonce out_ outMax sigs ok s
  | .stallEvidence c stall out_ outMax certs ok => Sys2Proof.Machine.execStallEvidence c stall out_ outMax certs ok s
  | .identityCsr c out_ outMax csrs ok => Sys2Proof.Machine.execIdentityCsr c out_ outMax csrs ok s
  | .identityStore c src len certs => Sys2Proof.Machine.execIdentityStore c src len certs s
  | .spdmMsg c req reqLen hse rsp rspMax reqBuf resp action ok => Sys2Proof.Machine.execSpdmMsg c req reqLen hse rsp rspMax reqBuf resp action ok s
  | .hybMsg c inp inLen purpose flags targetStall out_ outMax targetChip inBuf o cert blobs ok => Sys2Proof.Machine.execHybMsg c inp inLen purpose flags targetStall out_ outMax targetChip inBuf o cert blobs ok s
  | .domainJoin c src len member sigsOk idOk => Sys2Proof.Machine.execDomainJoin c src len member sigsOk idOk s
  | .domainSubstitute c src len member sigsOk idOk => Sys2Proof.Machine.execDomainSubstitute c src len member sigsOk idOk s
  | .markCreate c spill mode ndest srcChip srcMark dests => Sys2Proof.Machine.execMarkCreate c spill mode ndest srcChip srcMark dests s
  | .markDestroy c index => Sys2Proof.Machine.execMarkDestroy c index s
  | .markSignal c index op value => Sys2Proof.Machine.execMarkSignal c index op value s
  | .markWait c index timeout value => Sys2Proof.Machine.execMarkWait c index timeout value s
  | .markWaitTimeout => Sys2Proof.Machine.execMarkWaitTimeout s
  | .markRoute c chip primary alternate flags => Sys2Proof.Machine.execMarkRoute c chip primary alternate flags s
  | .boothOp c mode dir flags tail handle src dst len aadLen aadTail aad iv du tag => Sys2Proof.Machine.execBoothOp c mode dir flags tail handle src dst len aadLen aadTail aad iv du tag s
  | .tollPolicyLoad c addr image => Sys2Proof.Machine.execTollPolicyLoad c addr image s
  | .tollExport c rule owner outFmt cls handle src len stage dst hdr tag policy srcBuf => Sys2Proof.Machine.execTollExport c rule owner outFmt cls handle src len stage dst hdr tag policy srcBuf s
  | .tollBudget c owner nonce out_ outMax sigs ok => Sys2Proof.Machine.execTollBudget c owner nonce out_ outMax sigs ok s
  | .almanacUpdate c phase inline_ offset len src data buf sigs => Sys2Proof.Machine.execAlmanacUpdate c phase inline_ offset len src data buf sigs s
  | .svnAdvance c => Sys2Proof.Machine.execSvnAdvance c s
  | .settingsSave c => Sys2Proof.Machine.execSettingsSave c s
  | .trainingDone c flags rootOk bad => Sys2Proof.Machine.execTrainingDone c flags rootOk bad s
  | .lcTransition c target auth sig sigOk identityOk => Sys2Proof.Machine.execLcTransition c target auth sig sigOk identityOk s
  | .hangDump c stall meta_ outp outMax work metaOk stallOk => Sys2Proof.Machine.execHangDump c stall meta_ outp outMax work metaOk stallOk s
  | .beaconSet c at_ => Sys2Proof.Machine.execBeaconSet c at_ s
  | .meterRead c stall out_ outMax sig ok => Sys2Proof.Machine.execMeterRead c stall out_ outMax sig ok s
  | .fuseReadReturn data => Sys2Proof.Machine.execFuseReadReturn data s
  | .nvmEraseDone => Sys2Proof.Machine.execNvmEraseDone s
  | .keyInvalidationApply tile handle gen => Sys2Proof.Machine.execKeyInvalidationApply tile handle gen s
  | .lseUnitSent l => Sys2Proof.Machine.execLseUnitSent l s

end Sys2Proof.Machine
end

