-- ==== Sys2Proof/Machine/Time.lean ====
section
/-!
DEFINITION. One rclk edge (spec/04_clocks_time.md R98 to R100): what happens when no command waits. The table has no row for it, so it
is the step on an empty queue (notes/assumptions/1.md).
-/

namespace Sys2Proof.Machine

/-- What one edge adds to domain time and takes from the offset that is left: 9 or 11 at most at one edge in 100, else 10 (R100). -/
def Clk.slewStep (c : Clk) : Nat × Int :=
  if c.slewGap < 99 ∨ ¬ c.anchored ∨ c.slew = 0 then (10, 0)
  else if 0 < c.slew then (11, 1)
  else (9, -1)

/-- Domain time over one rclk edge (R99, R100). [DESIGN CHOICE: notes/assumptions/1.md] -/
def Clk.domainEdge (c : Clk) : Clk :=
  { c with
    domain := c.domain + c.slewStep.1
    slew := c.slew - c.slewStep.2
    slewGap := if c.slewStep.2 = 0 then min 99 (c.slewGap + 1) else 0 }

/-- The clocks over one rclk edge: elapsed time stands while rst_por_n is 0 (R98), domain time while P or S is asserted (R99).
[DESIGN CHOICE: notes/assumptions/1.md] -/
def State.clocksEdge (s : State) : State :=
  let c := if s.pins.porN then { s.clk with elapsed := s.clk.elapsed + 10 } else s.clk
  { s with clk := if s.rst.phase = .inReset then c else c.domainEdge }

/-- The Stalls that hold a resident slot: Stall 0 from every Harbour entry on (R399, R403). -/
def State.residents (s : State) : List Nat := (if (s.stall? 0).isSome then [0] else []) ++ s.stl.slots.map (·.2)

/-- One rclk edge: the clocks, and one unit of residency for every resident Stall (R571). [DESIGN CHOICE: notes/assumptions/1.md] -/
def State.rclkEdge (s : State) : State :=
  s.residents.foldl (fun t id => t.meter 5 id 1) s.begin.clocksEdge

end Sys2Proof.Machine
end

