-- ==== Sys2Proof/Machine/Step.lean ====
section
/-!
DEFINITION. One step of the block: the command at the front of the queue, or, on an empty queue, one rclk edge
(notes/assumptions/1.md).
-/

namespace Sys2Proof.Machine

/-- The command at the front runs on the state with the rest of the queue; an empty queue lets one rclk edge pass.
[DESIGN CHOICE: notes/assumptions/1.md] [DESIGN CHOICE: notes/assumptions/69.md] -/
def step (s : State) : Host.Outcome State Fault Refusal :=
  match s.pending with
  | [] => .next s.rclkEdge
  | c :: rest => exec c { s with pending := rest }

/-- The opcode table gives its rows no bits, so no word spells a command and the queue stays as it is.
[DESIGN CHOICE: notes/assumptions/6.md] -/
def State.withFetchWord (s : State) (nbits w : Nat) : State :=
  match decodeTableWord nbits w with
  | none => s
  | some c => { s with pending := c :: s.pending }

end Sys2Proof.Machine
end

