-- ==== Sys2Proof/Safety.lean ====
section
/-!
DEFINITION. What the statements say about states: when the block serves, when a command is admitted, the engines the build counts, and what
every command but a reset and its release keeps.
-/

namespace Sys2Proof

/-- The command is a reset or its release (R118, R122). -/
def Instr.isReset : Instr → Bool
  | .powerOnReset => true
  | .systemReset => true
  | .resetRelease .. => true
  | _ => false

/-- The engine whose port or message a command names: 0 MSE, 1 LSE, 2 HSE, and its index. -/
def Instr.engine : Instr → Option (Nat × Nat)
  | .epochApply m => some (0, m)
  | .mseReadRequest m .. => some (0, m)
  | .mseLockRead m .. => some (0, m)
  | .mseWriteRequest m .. => some (0, m)
  | .msePartialWrite m .. => some (0, m)
  | .mseUnlockWrite m .. => some (0, m)
  | .mseMemRequestSend m .. => some (0, m)
  | .mseReadBeat m .. => some (0, m)
  | .mseLaneTestDone m .. => some (0, m)
  | .mseWriteAck m .. => some (0, m)
  | .mseReadTimeout m .. => some (0, m)
  | .mseWriteTimeout m .. => some (0, m)
  | .mseLockTimeout m .. => some (0, m)
  | .tagLineWriteFlush m .. => some (0, m)
  | .keyGenFence m => some (0, m)
  | .keyGenFenceAck m => some (0, m)
  | .mseSquashOrder m => some (0, m)
  | .ledgerInvalidate m => some (0, m)
  | .ledgerCacheFill m .. => some (0, m)
  | .lseTxRequest l .. => some (1, l)
  | .lseHostResponse l .. => some (1, l)
  | .lseRxUnit l .. => some (1, l)
  | .lseRxRequest l => some (1, l)
  | .lseRxResponse l => some (1, l)
  | .lseDeadTarget l .. => some (1, l)
  | .linkKeyDerived l .. => some (1, l)
  | .resyncReceive l => some (1, l)
  | .grantReceive l => some (1, l)
  | .grantAckReceive l => some (1, l)
  | .revokeReceive l => some (1, l)
  | .revokeAckReceive l => some (1, l)
  | .revokeTimeout l => some (1, l)
  | .joinH1Receive l .. => some (1, l)
  | .joinChainReceive l .. => some (1, l)
  | .joinH2Receive l .. => some (1, l)
  | .joinH3Receive l .. => some (1, l)
  | .joinH4Receive l => some (1, l)
  | .timeProbeReceive l .. => some (1, l)
  | .timeReplyReceive l .. => some (1, l)
  | .markSignalReceive l => some (1, l)
  | .markAckReceive l => some (1, l)
  | .lseUnitSent l => some (1, l)
  | .hseTxTlp h .. => some (2, h)
  | .hseRxTlp h .. => some (2, h)
  | .refusalMapUpdate t => some (if t < 0x40 then (0, t) else if t < 0x80 then (1, t - 0x40) else (2, t - 0x80))
  | _ => none

end Sys2Proof

namespace Sys2Proof.Machine

/-- In service, with the load complete and outside the quiet state (R89, R125). -/
abbrev State.serving (s : State) : Prop := s.rst.phase = .service ∧ s.rst.rstBusy = false ∧ s.alr.quiet = false

/-- The command of opcode `op` passes the checks every command meets when it runs (R475, R174, R393, R401). -/
abbrev State.admits (s : State) (c : Call) (op : Nat) : Prop :=
  s.serving ∧ (cmdInfo? op).any (fun i => s.build.has i.needs && decide (s.gate c i = .run)) = true

/-- Out of the load, a function may make the access of the register at byte address `a` that REG_AUTH grants (R592, R593). -/
abbrev State.grants (s : State) (fn : Nat) (write : Bool) (a : Nat) : Prop :=
  s.rst.phase = .service ∧ s.rst.rstBusy = false ∧ s.ald.noAlmanac = false ∧ s.authorised fn write a = true

/-- Engines exist as the build counts them (R9, R47). -/
abbrev State.enginesMatch (s : State) : Prop :=
  s.mse.length = s.build.mseCount ∧ s.lse.length = s.build.lseCount ∧ s.hse.length = s.build.hseCount

/-- From `s` to `t` the record `r` is what its command ended with: one more for cmd_cw, or the direct window's (R481, R482, R484). -/
abbrev State.recorded (s t : State) (r : Completion) : Prop :=
  if r.call.window = true then
    t.hlm.dwBusy = false ∧ t.hlm.dwDone = true ∧ t.hlm.dwStatus = r.status ∧ t.hlm.dwBuf = r.words ++ s.hlm.dwBuf.drop 8
  else t.hlm.cwq = s.hlm.cwq ++ [r]

/-- From `s` to `t` nothing changed but MSE `m`, the transfers that leave, the events raised and the counters. -/
abbrev State.onlyMse (m : Nat) (s t : State) : Prop :=
  t.mse.length = s.mse.length ∧ (∀ i < s.mse.length, i ≠ m → t.mse[i]? = s.mse[i]?) ∧ t.lse = s.lse ∧ t.hse = s.hse ∧ t.ldg = s.ldg ∧
    t.epo = s.epo ∧ t.swp = s.swp ∧ t.stl = s.stl ∧ t.rst = s.rst ∧ t.sbx.slots = s.sbx.slots ∧ t.sbx.unwraps = s.sbx.unwraps ∧
    t.hlm.cwq = s.hlm.cwq

/-- What of an MSE is said of a request: its memory-side requests, hazard entries, held requests and reserved IDs. -/
abbrev Mse.work (m : Mse) : List MemOp × List Hazard × List (HostReq × HoldCause) × List Reserved :=
  (m.ops, m.hazards, m.held, m.reserved)

/-- From `s` to `t` nothing changed but LSE `l`, the windows, the slots of its keys and the uses of a key that had to leave its slot, the transfers that leave, events and counters. -/
abbrev State.onlyLse (l : Nat) (s t : State) : Prop :=
  t.lse.length = s.lse.length ∧ (∀ i < s.lse.length, i ≠ l → t.lse[i]? = s.lse[i]?) ∧ t.mse = s.mse ∧ t.hse = s.hse ∧ t.ldg = s.ldg ∧
    t.epo = s.epo ∧ t.stl = { s.stl with data := t.stl.data } ∧ t.rst = s.rst ∧ t.dom = s.dom ∧ t.sbx.tiles = s.sbx.tiles

/-- The bytes of a unit that LSE `i` of chip `chip` seals under its transmit key (R317, R318, R320). -/
def Lse.sealed (chip i : Nat) (u : UnitSpec) (l : Lse) : Bytes :=
  let seq := l.tx.seq.getD u.tc 0
  let hdr := clearHeader chip l.peerChip i u.tc l.tx.kgen 0 seq
  let c := gcmSeal l.tx.key (linkNonce chip i u.tc l.tx.kgen seq) hdr (u.inner ++ u.data)
  hdr ++ c.1 ++ c.2

/-- The LSE has keys, no transition of its transmit key waits, and the unit leaves the key below 75% of its limit (R324). -/
abbrev Lse.carries (u : UnitSpec) (l : Lse) : Prop :=
  l.keyed = true ∧ l.txNext = none ∧ (l.tx.count u.tc (l.tx.seq.getD u.tc 0 + 1) u.data.length).worn = false

/-- The LSE with the unit sealed in its transmit buffer, its SEQ and its key's use counted (R321, R328). -/
def Lse.sent (chip i : Nat) (u : UnitSpec) (l : Lse) : Lse :=
  { l with
    tx := l.tx.count u.tc (l.tx.seq.getD u.tc 0 + 1) u.data.length
    txBuf := l.txBuf ++ [{ bytes := l.sealed chip i u, stall := u.stall, outId := u.outId, ctrl := decide (u.kind = 7) }] }

/-- The Booth runs the operation `o` of a BOOTH_OP, with none queued and no release due, for a holder whose Stall stays (R432, R441). -/
abbrev State.boothRuns (s : State) (o : BoothOp) : Prop :=
  s.bth.running = some o ∧ o.header = none ∧ s.alr.quiet = false ∧ s.bth.queue = [] ∧ s.bth.releaseDue = false ∧
    s.bth.holder.all (fun h => decide (s.stallState h.2 ≠ .lost ∧ s.stallState h.2 ≠ .removing)) = true ∧ s.sbx.destroys = []

/-- The Tollgate has an operation of its own in the Booth: the handoff of the export `e`. -/
abbrev State.handsOff (s : State) (o : BoothOp) (e : Export) : Prop :=
  s.bth.running = some o ∧ s.tol.running = some e ∧ o.header.isSome = true ∧ s.alr.quiet = false ∧ s.sbx.destroys = []

/-- The engine that a command names exists. -/
def State.hasEngine (s : State) (c : Instr) : Bool :=
  c.engine.all fun e => decide (e.2 < if e.1 = 0 then s.mse.length else if e.1 = 1 then s.lse.length else s.hse.length)

end Sys2Proof.Machine
end

