-- ==== Sys2Proof/Certificates/Slice0/Obligations.lean ====
section
/-!
DEFINITION. The statements for the provers, by family of commands.
-/

open Sys2Proof Sys2Proof.Machine

/-- FREQ_CHANGE_REQUEST: outside reset and outside a change, the toggle sets FREQ_CHG, toggles clkc_freq_ack, notes the start in elapsed and
domain time, and counts the change; nothing else in the block changes. A second toggle during a change is only counted.
FREQ_CHANGE_DONE: clkc_good rising ends an acknowledged change and logs its interval, and changes nothing else. FREQ_CHANGE_TIMEOUT:
with clkc_good still 0 at T_FREQ, once per change, AL_CLOCK is logged with cause FREQ_TIMEOUT, tray_al_clock and Safe Stop are set, and
the keys stay (slots and anchor as they were). PCLK_STOP_DECLARED, outside reset and with room in the gap log: the stop is taken to have
begun 40 ns ago, and an ongoing entry with its cause (0 a stretch, 1 a frequency change, 2 unannounced) joins the gap log; nothing else
changes. PCLK_STOP_END: the stop is over; the ongoing entry gets the current domain time as its end and the total grows by the
difference, and no entry is left ongoing where only one was. -/
def Obligations.FrequencyChangesAndStops : Prop :=
  (∀ s : State, s.rst.phase ≠ .inReset → s.mon.freqChg = false →
    exec .freqChangeRequest s = .next { s with
      out := []
      pins := { s.pins with freqReq := !s.pins.freqReq }
      mon := { s.mon with
        freqChg := true, freqSince := s.clk.elapsed, freqStart := s.clk.domain, freqAck := !s.mon.freqAck, freqAlarm := false
        ackDeadline := some (s.clk.elapsed + 1000) }
      obs := s.obs.bump (ctrRcu 1) 1 }) ∧
  (∀ s : State, s.rst.phase ≠ .inReset → s.mon.freqChg = true →
    exec .freqChangeRequest s = .next { s with
      out := []
      pins := { s.pins with freqReq := !s.pins.freqReq }
      mon := { s.mon with freqIgnored := s.mon.freqIgnored + 1 } }) ∧
  (∀ s : State, s.pins.clkcGood = false → s.mon.freqChg = true →
    exec .freqChangeDone s = .next { s with
      out := []
      pins := { s.pins with clkcGood := true }
      mon := { s.mon with freqChg := false, freqLog := [(s.mon.freqStart, s.clk.domain)] } }) ∧
  (∀ s : State, s.pins.clkcGood = false → s.mon.freqChg = true → s.mon.freqAlarm = false → s.rst.phase ≠ .inReset →
    s.mon.freqSince + s.cfg.clk.tFreq * 1000 ≤ s.clk.elapsed →
    ∃ t, exec .freqChangeTimeout s = .next t ∧ t.mon = { s.mon with freqAlarm := true } ∧ t.alr.clock = true ∧ t.alr.safeStop = true ∧
      t.rst.rstReq = true ∧
      t.alr.log = (s.alr.logEntry { code := alClock, unit := unitRcu, stall := none, time := s.clk.domain, unanchored := !s.clk.anchored,
                                    cause := 2, word := 0, count := 1, firstAt := s.clk.elapsed, copied := false } s.clk.elapsed).log ∧
      t.sbx = s.sbx ∧ t.ldg = s.ldg ∧ t.pins = s.pins ∧ t.clk = s.clk) ∧
  (∀ (s : State) (stretch : Bool), s.mon.stop = none → s.rst.phase ≠ .inReset → s.obs.gaps.length < 64 →
    exec (.pclkStopDeclared stretch) s = .next { s with
      out := []
      pins := { s.pins with clkcStretch := stretch }
      mon := { s.mon with stop := some (s.clk.elapsed - 40), stopAlarm := false }
      obs := { s.obs with gaps := s.obs.gaps ++ [({ start := s.clk.domain - 40, stop := 0
                                                    cause := if stretch then 0 else if s.mon.freqChg then 1 else 2
                                                    ongoing := true, unanchored := !s.clk.anchored, alarm := false } : GapEntry)] } }) ∧
  (∀ (s : State) (since : Nat) (gs : List GapEntry) (g : GapEntry), s.mon.stop = some since → s.obs.gaps = gs ++ [g] →
    (∀ e ∈ gs, e.ongoing = false) → g.ongoing = true →
    exec .pclkStopEnd s = .next { s with
      out := []
      mon := { s.mon with stop := none, stopAlarm := false }
      alr := { s.alr with progressAt := s.alr.progressAt + (s.clk.elapsed - since) }
      obs := { s.obs with
        gaps := gs ++ [{ g with stop := s.clk.domain, ongoing := false }]
        gapTotal := s.obs.gapTotal + (s.clk.domain - g.start) } })

/-- CLOCK_GOOD_LOST: outside reset and outside an acknowledged change, AL_CLOCK is raised with cause GOOD_LOST. RUNT_DETECTED: a runt is
counted and raises AL_CLOCK with cause RUNT; where the two runts before it fell within the last 1 ms, the tamper-class alarm comes too:
tray_al_tamper is set, every key slot is empty and the anchor is gone. PCLK_FREQ_WINDOW: PCLK_FREQ takes the measured frequency in 10
MHz; above 2,121 MHz the overspeed alarm is raised, with its keys kept; below 990 MHz, without a stretch or a change, EV_PCLK_SLOW alone
is raised; in between nothing else happens. -/
def Obligations.ClockMonitorsRaiseAlarms : Prop :=
  (∀ s : State, s.pins.clkcGood = true → s.rst.phase ≠ .inReset → s.mon.freqChg = false →
    ∃ t, exec .clockGoodLost s = .next t ∧ t.pins = { s.pins with clkcGood := false } ∧ t.alr.clock = true ∧ t.alr.safeStop = true ∧
      t.rst.rstReq = true ∧ t.sbx = s.sbx ∧ t.ldg = s.ldg ∧ t.mon = s.mon ∧ t.clk = s.clk) ∧
  (∀ s : State, runtSpan s.clk.elapsed s.mon.runts = none →
    ∃ t, exec .runtDetected s = .next t ∧ t.mon = { s.mon with
        runts := (s.clk.elapsed :: s.mon.runts).take 3, runtTotal := satAdd (2 ^ 32 - 1) s.mon.runtTotal 1 } ∧
      t.alr.clock = true ∧ t.alr.safeStop = true ∧ t.alr.tamper = s.alr.tamper ∧ t.sbx = s.sbx ∧ t.ldg = s.ldg ∧ t.clk = s.clk) ∧
  (∀ (s : State) (a b : Nat) (rest : List Nat), s.mon.runts = a :: b :: rest → s.clk.elapsed ≤ b + 1000000 →
    ∃ t, exec .runtDetected s = .next t ∧ t.alr.clock = true ∧ t.alr.tamper = true ∧ t.sbx.slots = [] ∧ t.ldg.anchor.valid = false ∧
      t.ldg.anchor.clearedByTamper = true) ∧
  (∀ (s : State) (mhz : Nat) (stretch : Bool), s.rst.phase ≠ .inReset → 2121 < mhz →
    ∃ t, exec (.pclkFreqWindow mhz stretch) s = .next t ∧ t.clk = { s.clk with pclkFreq := min 255 (mhz / 10) } ∧ t.alr.clock = true ∧
      t.alr.safeStop = true ∧ t.sbx = s.sbx ∧ t.ldg = s.ldg ∧ t.mon = s.mon) ∧
  (∀ (s : State) (mhz : Nat), s.rst.phase ≠ .inReset → mhz < 990 → s.freqChgWindow = false →
    exec (.pclkFreqWindow mhz false) s = .next (({ s with
      out := [], clk := { s.clk with pclkFreq := min 255 (mhz / 10) } } : State).event evPclkSlow unitRcu none (min 255 (mhz / 10)) 0)) ∧
  (∀ (s : State) (mhz : Nat) (stretch : Bool), 990 ≤ mhz → mhz ≤ 2121 →
    exec (.pclkFreqWindow mhz stretch) s = .next { s with out := [], clk := { s.clk with pclkFreq := min 255 (mhz / 10) } })

/-- PCLK_STOP_TIMEOUT: a stop that has lasted T_STOP, with clkc_good at 1 and FREQ_CHG at 0, whatever clkc_stretch is: AL_CLOCK is logged
with cause STOP (5) and the stop's length in microseconds, and Safe Stop follows. With clkc_good at 0, or during a frequency change,
nothing happens. It is raised once a stop, and not in reset. -/
def Obligations.LongStopRaisesClockAlarm : Prop :=
  (∀ (s : State) (since : Nat), s.mon.stop = some since → s.mon.stopAlarm = false → s.pins.clkcGood = true → s.mon.freqChg = false →
    s.rst.phase ≠ .inReset → since + s.cfg.clk.tStop * 1000 ≤ s.clk.elapsed →
    ∃ t, exec .pclkStopTimeout s = .next t ∧ t.alr.clock = true ∧ t.alr.safeStop = true ∧ t.rst.rstReq = true ∧
      t.mon = { s.mon with stopAlarm := true } ∧
      t.alr.log = (s.alr.logEntry { code := alClock, unit := unitRcu, stall := none, time := s.clk.domain, unanchored := !s.clk.anchored
                                    cause := 5, word := min (2 ^ 32 - 1) ((s.clk.elapsed - since) / 1000), count := 1
                                    firstAt := s.clk.elapsed, copied := false } s.clk.elapsed).log) ∧
  (∀ s : State, s.pins.clkcGood = false ∨ s.mon.freqChg = true → exec .pclkStopTimeout s = .next { s with out := [] })

/-- FREQ_ACK_RETURN_TIMEOUT: 1 us after clkc_freq_ack changed, a return that differs starts the Sounding of crossing 1, a return that
matches starts none. CROSSING_SOUNDING_DONE: a transient is counted with its event and raises no alarm; a lasting fault of crossings 0
to 2 raises AL_CLOCK, one of crossings 3 and 4 an integrity alarm that stops nothing. TEMP_SAMPLE_CAPTURE: a sample of even parity
becomes the temperature; one of odd parity is discarded and starts the Sounding of crossing 4. RAIL_SAMPLE_CAPTURE: a good sample of an
enabled channel that is not in gap adds its calibrated power times the rclk periods since the channel was last accounted to the die
energy; a sample of odd parity keeps the power held, makes the tick suspect with cause 2 and starts the Sounding of crossing 3; without
a Steelyard a good sample has no effect on it. RAIL_CHANNEL_GAP: a channel in gap is accounted at the power it holds and the tick is
suspect. -/
def Obligations.CrossingsAndSensors : Prop :=
  (∀ (s : State) (d : Nat) (ret : Bool), s.mon.ackDeadline = some d → d ≤ s.clk.elapsed → ret = s.mon.freqAck →
    exec (.freqAckReturnTimeout ret) s = .next { s with
      out := [], pins := { s.pins with freqAckRet := ret }, mon := { s.mon with ackDeadline := none } }) ∧
  (∀ (s : State) (d : Nat) (ret : Bool), s.mon.ackDeadline = some d → d ≤ s.clk.elapsed → ret ≠ s.mon.freqAck →
    s.alr.crossings.contains 1 = false →
    exec (.freqAckReturnTimeout ret) s = .next { s with
      out := [], pins := { s.pins with freqAckRet := ret }, mon := { s.mon with ackDeadline := none }
      alr := { s.alr with crossings := s.alr.crossings ++ [1] } }) ∧
  (∀ (s : State) (k : Nat), s.alr.crossings.contains k = true →
    ∃ t, exec (.crossingSoundingDone k false) s = .next t ∧ t.alr = { s.alr with
        crossings := s.alr.crossings.erase k, soundCdc := satAdd 63 s.alr.soundCdc 1 } ∧
      t.obs = s.obs.bump (ctrRcu 6) 1 ∧ t = { s with out := [], alr := t.alr, obs := t.obs, hlm := t.hlm } ∧
      t.hlm = (s.event evSounding unitRcu none 4 2).hlm) ∧
  (∀ (s : State) (k : Nat), s.alr.crossings.contains k = true → k ≤ 2 →
    ∃ t, exec (.crossingSoundingDone k true) s = .next t ∧ t.alr.clock = true ∧ t.alr.safeStop = true ∧
      t.alr.crossings = s.alr.crossings.erase k ∧ t.sbx = s.sbx ∧ t.ldg = s.ldg) ∧
  (∀ (s : State) (k : Nat), s.alr.crossings.contains k = true → 2 < k →
    ∃ t, exec (.crossingSoundingDone k true) s = .next t ∧ t.alr.integrity = true ∧ t.alr.clock = s.alr.clock ∧
      t.alr.safeStop = s.alr.safeStop ∧ t.alr.quiet = s.alr.quiet ∧ t.alr.crossings = s.alr.crossings.erase k ∧ t.sbx = s.sbx ∧
      t.ldg = s.ldg ∧ t.rst = s.rst) ∧
  (∀ (s : State) (val par : Nat), val < 4096 → (popcount 12 val + par) % 2 = 0 →
    exec (.tempSampleCapture val par) s = .next { s with
      out := [], pins := { s.pins with tempFlag := !s.pins.tempFlag }, mon := { s.mon with temp := BitVec.ofNat 12 val } }) ∧
  (∀ (s : State) (val par : Nat), val < 4096 → (popcount 12 val + par) % 2 = 1 →
    ∃ t, exec (.tempSampleCapture val par) s = .next t ∧ 4 ∈ t.alr.crossings ∧
      t = { s with out := [], pins := { s.pins with tempFlag := !s.pins.tempFlag }, alr := t.alr }) ∧
  (∀ (s : State) (val ch par : Nat), val < 2 ^ 32 → ch < 16 → (popcount 32 val + popcount 4 ch + par) % 2 = 0 →
    s.build.sty = true → s.styEnabled ch = true → s.styGap ch = false →
    ∃ t, exec (.railSampleCapture val ch par) s = .next t ∧
      t.sty.energy = s.sty.energy + s.cfg.sty.calibrate ch val *
        ((s.clk.elapsed - (s.sty.chans.getD ch StyChan.fresh).upTo.getD s.clk.elapsed) / 10) ∧
      t.sty.suspectCause = s.sty.suspectCause ∧
      t = { s with out := [], pins := { s.pins with railFlag := !s.pins.railFlag }, sty := t.sty }) ∧
  (∀ (s : State) (val ch par : Nat), val < 2 ^ 32 → ch < 16 → (popcount 32 val + popcount 4 ch + par) % 2 = 1 →
    s.build.sty = true → s.styEnabled ch = true → s.sty.suspectCause = 0 →
    ∃ t, exec (.railSampleCapture val ch par) s = .next t ∧ t.sty.suspectCause = 2 ∧ t.sty.suspectMask = s.sty.suspectMask ||| 2 ^ ch ∧
      3 ∈ t.alr.crossings ∧
      t = { s with out := [], pins := { s.pins with railFlag := !s.pins.railFlag }, sty := t.sty, alr := t.alr }) ∧
  (∀ (s : State) (ch : Nat), s.build.sty = true → s.styGap ch = true → s.sty.suspectCause = 0 →
    ∃ t, exec (.railChannelGap ch) s = .next t ∧ t.sty.suspectCause = 1 ∧ t.sty.suspectMask = s.sty.suspectMask ||| 2 ^ ch ∧
      t.sty.energy = s.sty.energy + (s.sty.chans.getD ch StyChan.fresh).power *
        ((s.clk.elapsed - (s.sty.chans.getD ch StyChan.fresh).upTo.getD s.clk.elapsed) / 10) ∧
      t = { s with out := [], sty := t.sty })

/-- TICK_BOUNDARY: a boundary less than 50 us after the previous accepted one leaves the tick count, the tick time, the epoch and the
command path as they are, counts itself, sets TICK_SHORT and raises EV_TICK_SHORT with the time since. An accepted one (no previous, or
50 us and more) outside reset adds 1 to the tick count, takes domain time less 30 ns as its time and the current elapsed time as the
time of the last boundary. In P or S a change of level of tick is no boundary. TICK_LATE: 100 s after the last accepted boundary, or
after the release where there was none, TICK_LATE is set and EV_TICK_LATE raised, and not again. At 20 us after the boundary's work
began, with a command of the boundary not yet started: it leaves the running commands, stands at the head of the tick queue in order,
marked deferred, TICK_OVERRUN is set, DEFERRED grows by the number of them (saturating), and the tick budget is over. With none left the
budget ends and nothing else happens. -/
def Obligations.TicksAndTheirCommands : Prop :=
  (∀ (s : State) (l : Nat), s.rst.phase ≠ .inReset → s.clk.lastTick = some l → s.clk.elapsed < l + 50000 →
    ∃ t, exec .tickBoundary s = .next t ∧ t.clk = { s.clk with tickShort := true, shortCount := s.clk.shortCount + 1 } ∧
      t.hlm = (s.event evTickShort unitRcu none (s.clk.elapsed - l) 0).hlm ∧
      t = { s with out := [], pins := { s.pins with tick := !s.pins.tick }, clk := t.clk, alr := t.alr, hlm := t.hlm } ∧
      2 ∈ t.alr.crossings) ∧
  (∀ s : State, s.rst.phase ≠ .inReset → s.clk.lastTick.all (fun l => l + 50000 ≤ s.clk.elapsed) = true →
    ∃ t, exec .tickBoundary s = .next t ∧ t.clk.tickCount = s.clk.tickCount + 1 ∧ t.clk.tickTime = s.clk.domain - 30 ∧
      t.clk.lastTick = some s.clk.elapsed ∧ t.clk.elapsed = s.clk.elapsed ∧ t.clk.shortCount = s.clk.shortCount) ∧
  (∀ s : State, s.rst.phase = .inReset → exec .tickBoundary s = .next { s with
    out := [], pins := { s.pins with tick := !s.pins.tick } }) ∧
  (∀ s : State, s.rst.phase ≠ .inReset → s.clk.lateRaised = false →
    s.clk.lastTick.getD s.clk.releasedAt + 100000000000 ≤ s.clk.elapsed →
    exec .tickLate s = .next (({ s with
      out := [], clk := { s.clk with tickLate := true, lateRaised := true } } : State).event evTickLate unitRcu none 0 0)) ∧
  (∀ s : State, s.clk.lateRaised = true → exec .tickLate s = .next { s with out := [] }) ∧
  (∀ (s : State) (since : Nat), s.clk.tickWork = some since → since + 20000 ≤ s.clk.elapsed →
    (s.hlm.running.filter fun q => q.call.ticked && !s.begun q.call) = [] →
    exec .tickBudgetExpiry s = .next { s with out := [], clk := { s.clk with tickWork := none } }) ∧
  (∀ (s : State) (since : Nat) (q : Queued), s.clk.tickWork = some since → since + 20000 ≤ s.clk.elapsed →
    s.hlm.running = [q] → q.call.ticked = true → s.begun q.call = false →
    ∃ t, exec .tickBudgetExpiry s = .next t ∧ t.hlm.running = [] ∧
      t.hlm.tickQ = { q with call := { q.call with deferred := true, ticked := false }, waited := q.waited + 1 } :: s.hlm.tickQ ∧
      t.hlm.deferred = satAdd 65535 s.hlm.deferred 1 ∧ t.clk = { s.clk with tickWork := none, tickOverrun := true } ∧
      t = { s with out := [], hlm := t.hlm, clk := t.clk, obs := t.obs })

/-- With cmd_ready at 1, outside the quiet state, on a stream no partition has taken: a packet whose framing or beat count is wrong is
counted in REJECTED and reported by EV_CMD_REJECTED with ST_MALFORMED, without a record and without joining the buffer; so is one of an
unmapped function, with ST_FN_UNMAPPED. One that fails a later check completes with that STATUS and DETAIL and joins nothing. One that
passes, other than HINT, joins the command buffer behind the others and Helm decodes the buffer. A HINT that passes takes effect and
completes with ST_OK. Every one of them leaves Stalls, keys, memory tiles, links, Marks and the epoch as they were. -/
def Obligations.CommandPacketIsCheckedAndPlaced : Prop :=
  (∀ (s : State) (fn qid : Nat) (framed : Bool) (b : Bytes), s.cmdReady = true → s.alr.quiet = false → s.streamAbsorbed qid = false →
    framed = false ∨ leField b 3 1 = 0 ∨ 8 < leField b 3 1 ∨ b.length ≠ 32 * leField b 3 1 →
    ∃ t, exec (.commandPacket fn qid framed b) s = .next t ∧
      t.hlm = { s.hlm with
        rejected := satAdd 65535 s.hlm.rejected 1
        irqUrgent := s.hlm.irqUrgent || urgentEvents.contains evCmdRejected
        fifo := s.hlm.fifo ++ [({ code := evCmdRejected, unit := unitHelm, stall := none, time := s.clk.domain, unanchored := !s.clk.anchored,
                                  arg0 := leField b 0 2 + qid * 2 ^ 16 + fn * 2 ^ 24, arg1 := stMalformed } : Event)] } ∧
      t = { s with out := [], hlm := t.hlm, obs := ((s.obs.bump 4 1).bump (ctrHlm 0) 1).bump 6 1 }) ∧
  (∀ (s : State) (fn qid : Nat) (b : Bytes), s.cmdReady = true → s.alr.quiet = false → s.streamAbsorbed qid = false →
    leField b 3 1 ≠ 0 → leField b 3 1 ≤ 8 → b.length = 32 * leField b 3 1 → s.fnStall? fn = none →
    ∃ t, exec (.commandPacket fn qid true b) s = .next t ∧
      t.hlm = { s.hlm with
        rejected := satAdd 65535 s.hlm.rejected 1
        irqUrgent := s.hlm.irqUrgent || urgentEvents.contains evCmdRejected
        fifo := s.hlm.fifo ++ [({ code := evCmdRejected, unit := unitHelm, stall := none, time := s.clk.domain, unanchored := !s.clk.anchored,
                                  arg0 := leField b 0 2 + qid * 2 ^ 16 + fn * 2 ^ 24, arg1 := stFnUnmapped } : Event)] } ∧
      t = { s with out := [], hlm := t.hlm, obs := ((s.obs.bump 4 1).bump (ctrHlm 0) 1).bump 6 1 }) ∧
  (∀ (s : State) (fn qid stall st d : Nat) (b : Bytes), s.cmdReady = true → s.alr.quiet = false → s.streamAbsorbed qid = false →
    leField b 3 1 ≠ 0 → leField b 3 1 ≤ 8 → b.length = 32 * leField b 3 1 → s.fnStall? fn = some stall →
    s.packetStatus b (callOf b fn qid stall false) = some (st, d) →
    ∃ t, exec (.commandPacket fn qid true b) s = .next t ∧
      t.hlm.cwq = s.hlm.cwq ++ [{ (callOf b fn qid stall false).record st with detail := d }] ∧
      t.hlm.buffer = s.hlm.buffer ∧ t.hlm.tickQ = s.hlm.tickQ ∧ t.hlm.fifo = s.hlm.fifo ∧
      t = { s with out := [], hlm := t.hlm, obs := t.obs, alr := t.alr }) ∧
  (∀ (s : State) (fn qid stall : Nat) (b : Bytes), s.cmdReady = true → s.alr.quiet = false → s.streamAbsorbed qid = false →
    leField b 3 1 ≠ 0 → leField b 3 1 ≤ 8 → b.length = 32 * leField b 3 1 → s.fnStall? fn = some stall →
    s.packetStatus b (callOf b fn qid stall false) = none → leField b 0 2 ≠ 0x0101 →
    ∃ t, exec (.commandPacket fn qid true b) s = .next t ∧
      (let q : Queued := { call := callOf b fn qid stall false, args := packetArgs b, order := s.hlm.accepted, waited := 0 }
       t.hlm = { s.hlm with
         accepted := s.hlm.accepted + 1
         buffer := (moveTick (s.hlm.buffer ++ [q]) s.hlm.tickQ).1
         tickQ := (moveTick (s.hlm.buffer ++ [q]) s.hlm.tickQ).2 }) ∧
      t = { s with out := [], hlm := t.hlm, obs := (s.obs.bump 4 1).bump (ctrHlm 0) 1 }) ∧
  (∀ (s : State) (fn qid stall : Nat) (b : Bytes) (i : CmdInfo), s.cmdReady = true → s.alr.quiet = false → s.streamAbsorbed qid = false →
    leField b 3 1 ≠ 0 → leField b 3 1 ≤ 8 → b.length = 32 * leField b 3 1 → s.fnStall? fn = some stall →
    s.packetStatus b (callOf b fn qid stall false) = none → leField b 0 2 = 0x0101 → cmdInfo? 0x0101 = some i →
    s.gate (callOf b fn qid stall false) i = .run →
    ∃ t, exec (.commandPacket fn qid true b) s = .next t ∧
      t.hlm.cwq = s.hlm.cwq ++ [(callOf b fn qid stall false).record stOk] ∧ t.hlm.buffer = s.hlm.buffer ∧ t.hlm.tickQ = s.hlm.tickQ ∧
      t.swp = (s.hint (leField b 0x30 4) (leField b 0x34 1)).swp ∧
      t.hlm.boothClassUntil = (s.hint (leField b 0x30 4) (leField b 0x34 1)).hlm.boothClassUntil ∧
      t = { s with out := [], hlm := t.hlm, obs := t.obs, alr := t.alr, swp := t.swp })

/-- Of the commands that stand at the head of their streams once Helm has decoded the buffer: where one waits for a Mark that is poisoned or
gone, it leaves the buffer with ST_MARK_POISONED. Where none does, the first whose WAIT_MARK is reached and whose FENCE is met leaves
the buffer and runs. Nothing else in the block changes but the wait records and counters. NOP, admitted: ST_OK and nothing else. HINT,
admitted: TARGETS bit 0, with no yield in progress and none blocked, starts one that ends DURATION_US later, or lengthens one in
progress to the later end; bit 1 sets the Booth class until the later of its old end and now plus DURATION_US; then ST_OK. TARGETS 0
does nothing but complete. HINT_BOOTH_CLASS_END ends the Booth's class change once its time has come, and does nothing before.
SWEEPER_YIELD_END is stated with the Sweeper. -/
def Obligations.CommandStartNopAndHint : Prop :=
  (∀ (s : State) (q : Queued), s.serving → s.rst.coreReset = none →
    (s.decodeBuffer.hlm.buffer.filter s.decodeBuffer.atHead).find? (fun q => s.waitBroken q.call) = some q →
    q.call.window = false →
    ∃ t, exec .commandStart s = .next t ∧ t.hlm.buffer = s.decodeBuffer.hlm.buffer.erase q ∧ t.hlm.tickQ = s.decodeBuffer.hlm.tickQ ∧
      t.hlm.cwq = s.hlm.cwq ++ [q.call.record stMarkPoisoned] ∧
      t = { s with out := [], hlm := t.hlm, obs := t.obs, alr := t.alr }) ∧
  (∀ (s : State) (q : Queued), s.serving → s.rst.coreReset = none →
    (s.decodeBuffer.hlm.buffer.filter s.decodeBuffer.atHead).find? (fun q => s.waitBroken q.call) = none →
    (s.decodeBuffer.hlm.buffer.filter s.decodeBuffer.atHead).find?
      (fun q => !s.waitUnmet q.call && !s.decodeBuffer.fenceUnmet q) = some q →
    ∃ t, exec .commandStart s = .next t ∧ t.hlm = { s.decodeBuffer.hlm with
        buffer := s.decodeBuffer.hlm.buffer.erase q, running := s.hlm.running ++ [q] } ∧
      t = { s with out := [], hlm := t.hlm, obs := t.obs }) ∧
  (∀ (s : State) (c : Call), s.admits c 0x0100 → exec (.nop c) s = .next (s.begin.finish c stOk)) ∧
  (∀ (s : State) (c : Call) (us targets : Nat), s.admits c 0x0101 →
    exec (.hint c us targets) s = .next (({ s with
      out := []
      swp := { s.swp with yield :=
        (if targets % 2 = 0 then s.swp.yield
         else match s.swp.yield with
           | some (first, old) => some (first, max old (s.clk.elapsed + us * 1000))
           | none => if s.swp.yieldBlocked = 0 then some (s.clk.elapsed, s.clk.elapsed + us * 1000) else none) }
      hlm := { s.hlm with boothClassUntil :=
        (if (targets / 2) % 2 = 0 then s.hlm.boothClassUntil
         else some (max (s.hlm.boothClassUntil.getD 0) (s.clk.elapsed + us * 1000))) } } : State).finish c stOk)) ∧
  (∀ (s : State) (e : Nat), s.hlm.boothClassUntil = some e → e ≤ s.clk.elapsed →
    exec .hintBoothClassEnd s = .next { s with out := [], hlm := { s.hlm with boothClassUntil := none } }) ∧
  (∀ s : State, s.hlm.boothClassUntil.all (fun e => s.clk.elapsed < e) = true → exec .hintBoothClassEnd s = .next s.begin)

/-- COMPLETION_WRITE, with Helm running outside the quiet state and no overrun: the oldest record leaves the queue; with COMP not 0 its 32
bytes are written to COMP as the Stall, with COMP 0 nothing is written; where IRQ is set and no Mark is to be signalled, reg_irq[0] is
raised, and nothing else changes. CW_OVERRUN, with a record waiting: CW_OVERRUN and URGENT are set and the wait begins; the records stay
in the queue. EVENT_RING_WRITE, with Helm running outside the quiet state, no overrun and nothing lost before: the oldest event leaves
the FIFO; a ring that takes it has its 32 bytes written at HEAD and HEAD advanced round the ring; a ring that is off or full leaves HEAD
and counts it lost. ALARM_LOG_COPY, with room in the Journal: the oldest entry not yet copied is written at HEAD, joins the records for
the Journal, is marked copied, and reg_irq[2] is raised; the entry stays in the log. For every record, outside the quiet state: a
command of a stream puts one record behind those waiting on cmd_cw and leaves the running commands; a command of the direct window sets
DONE, STATUS and the record's eight words in the buffer and clears BUSY. Both count the completion and count as progress. Registers,
Stalls, keys, tiles, links, Marks, the Ledger and the epoch stay. In the quiet state no record is written. -/
def Obligations.RecordsOnTheCompletionPort : Prop :=
  (∀ (s : State) (r : Completion) (rest : List Completion), s.hlm.cwq = r :: rest → s.cwOpen = true → s.hlm.cwEventDue = false →
    r.call.sigMark = 0xFFFF → r.call.comp ≠ 0 →
    exec .completionWrite s = .next { s with
      out := [.cw r.call.comp r.call.stall r.bytes]
      hlm := { s.hlm with cwq := rest, irqComp := r.call.irq || s.hlm.irqComp }
      obs := s.obs.bump 11 1 }) ∧
  (∀ (s : State) (r : Completion) (rest : List Completion), s.hlm.cwq = r :: rest → s.cwOpen = true → s.hlm.cwEventDue = false →
    r.call.sigMark = 0xFFFF → r.call.comp = 0 →
    exec .completionWrite s = .next { s with out := [], hlm := { s.hlm with cwq := rest, irqComp := r.call.irq || s.hlm.irqComp } }) ∧
  (∀ (s : State) (r : Completion) (rest : List Completion), s.hlm.cwq = r :: rest → s.cwOpen = true → s.hlm.cwEventDue = false →
    exec .cwOverrun s = .next { s with
      out := []
      hlm := { s.hlm with cwOverrun := true, cwEventDue := true, irqUrgent := true }
      obs := { s.obs with waits := s.obs.waits ++ [({ ring := 79, start := s.clk.domain, startElapsed := s.clk.elapsed, kind := 16,
                                                      waiter := none, object := s.hlm.cwq.length } : RingWait)] } }) ∧
  (∀ (s : State) (e : Event) (rest : List Event), s.hlm.fifo = e :: rest → s.cwOpen = true → s.hlm.cwEventDue = false →
    s.hlm.evq.open_ = true → s.hlm.evq.lostPending = 0 →
    exec .eventRingWrite s = .next { s with
      out := [.cw (s.hlm.evq.baseLo.toNat * 32 + s.hlm.evq.baseHi.toNat * 2 ^ 32 + 32 * s.hlm.evq.head) 0 e.bytes]
      hlm := { s.hlm with fifo := rest, evq := { s.hlm.evq with head := (s.hlm.evq.head + 1) % s.hlm.evq.size } }
      obs := (s.obs.bump 8 1).bump 11 1 }) ∧
  (∀ (s : State) (e : Event) (rest : List Event), s.hlm.fifo = e :: rest → s.cwOpen = true → s.hlm.cwEventDue = false →
    s.hlm.evq.open_ = false →
    exec .eventRingWrite s = .next { s with
      out := []
      hlm := { s.hlm with fifo := rest, evq := { s.hlm.evq with
        lost := satAdd (2 ^ 32 - 1) s.hlm.evq.lost 1, lostPending := s.hlm.evq.lostPending + 1 } }
      obs := s.obs.bump 9 1 }) ∧
  (∀ (s : State) (e : AlarmEntry) (l k : List AlarmEntry), s.alr.log = l ++ e :: k → (∀ x ∈ l, x.copied = true) → e.copied = false →
    s.cwOpen = true → s.hlm.cwEventDue = false → s.ald.noAlmanac = false → s.journalRoom = true →
    s.hlm.evq.open_ = true → s.hlm.evq.lostPending = 0 →
    ∃ t, exec .alarmLogCopy s = .next t ∧ t.alr = { s.alr with log := l ++ { e with copied := true } :: k } ∧
      t.hlm = { s.hlm with irqAlarm := true, evq := { s.hlm.evq with head := (s.hlm.evq.head + 1) % s.hlm.evq.size } } ∧
      t.nvm = (s.journal (.alarm e.bytes)).nvm ∧ t.stl = s.stl ∧ t.sbx = s.sbx ∧ t.ldg = s.ldg ∧ t.rst = s.rst) ∧
  (∀ (s : State) (r : Completion), s.alr.quiet = false → r.call.window = false →
    s.complete r = { s with
      hlm := { s.hlm with running := s.hlm.running.eraseP (fun q => q.call = r.call), cwq := s.hlm.cwq ++ [r] }
      alr := { s.alr with progressAt := s.clk.elapsed, progressTime := s.clk.domain, progressed := true }
      obs := (s.obs.bump 5 1).bump (2304 + 16 * (s.obs.bump 5 1).setOf r.call.stall + 15) 1 }) ∧
  (∀ (s : State) (r : Completion), s.alr.quiet = false → r.call.window = true →
    s.complete r = { s with
      hlm := { s.hlm with
        running := s.hlm.running.eraseP (fun q => q.call = r.call), dwBusy := false, dwDone := true, dwStatus := r.status
        dwBuf := r.words ++ s.hlm.dwBuf.drop 8 }
      alr := { s.alr with progressAt := s.clk.elapsed, progressTime := s.clk.domain, progressed := true }
      obs := s.obs.bump 5 1 }) ∧
  (∀ (s : State) (r : Completion), s.alr.quiet = true → (s.complete r).hlm.cwq = s.hlm.cwq ∧ (s.complete r).hlm.dwDone = s.hlm.dwDone) ∧
  (∀ (c : Call) (st : Nat), c.record st = { call := c, status := st, detail := 0, tagOk := false, doNotTrust := false, result := [] })

/-- KEY_GENERATE of a drawn type, admitted, with good arguments, room in the key table, a usable slot and random bits: the key is the next
draw; its blob is written as the Stall to BLOB_ADDR; the table gains an entry of generation 0 under the next SERIAL, nothing used yet;
the lowest usable slot holds it, pinned as asked; NEXT_SERIAL and the wrap count grow by 1; the record is ST_OK with the handle.
KEY_ROTATE of a BOOTH key: generation GEN + 1 replaces the entry and the slot copy of the old one, with a fresh draw and its blob, and
the record is ST_OK with the new generation. In both, every other Stall, memory tiles, links, Marks, the Ledger and the epoch stay. -/
def Obligations.KeyGenerateAndRotate : Prop :=
  (∀ (s : State) (c : Call) (type flags usage keyLen addr n : Nat) (st : Stall) (d : StallData), s.admits c 0x0201 →
    s.stall? c.stall = some st → s.stallData? c.stall = some d → keyDrawn type = true →
    keyGenBad d type flags usage keyLen 0 addr = none → d.keys.length < 256 → st.nextSerial ≤ 65535 → d.wrapCount < 2 ^ 32 →
    flags.testBit 0 = false ∨ s.mayPin c.stall = true → s.sbx.entropyOk = true → s.sbx.freeSlot = some n →
    ∃ t, exec (.keyGenerate c type flags usage keyLen 0 addr true) s = .next t ∧
      (let h := makeHandle c.stall type st.nextSerial
       let key := s.drawn keyLen
       let blob := blobBytes d.wrapKey { handle := h, usage, gen := 0, keyLen, attr := 1 + 2 * bit (flags.testBit 1), inst := st.inst } key
       let e : KeyEntry :=
         { handle := h, gen := 0, pinned := flags.testBit 0, migratable := flags.testBit 1, usage, keyLen, use := 0, ops := 0
           blobAddr := addr, blobTag := blobTag blob, eC := s.epo.epoch, ownerIdx := 0, destroyed := false }
       t.out = [.memWrite c.stall addr blob] ∧ t.stall? c.stall = some { st with nextSerial := st.nextSerial + 1 } ∧
       t.stallData? c.stall = some { (d.putKey e) with wrapCount := d.wrapCount + 1 } ∧
       (assocGet n t.sbx.slots).map (fun k => (k.handle, k.gen, k.material, k.pinned)) = some (h, 0, key, flags.testBit 0) ∧
       t.fresh = s.fresh + 1 ∧ s.recorded t { c.record stOk with result := leBytes 4 h }) ∧
      t = { s with out := t.out, hlm := t.hlm, obs := t.obs, alr := t.alr, sbx := t.sbx, stl := t.stl, fresh := t.fresh }) ∧
  (∀ (s : State) (c : Call) (h addr n : Nat) (st : Stall) (d : StallData) (e : KeyEntry), s.admits c 0x0204 →
    s.namedKey c h = some e → s.stall? c.stall = some st → s.stallData? c.stall = some d → handleType h = keyBooth →
    addr % 128 = 0 → addr < 2 ^ 56 → e.gen < 255 → d.wrapCount < 2 ^ 32 → s.regionHandle c.stall ≠ some h → s.sbx.entropyOk = true →
    ({ s.sbx with slots := s.sbx.slots.filter fun p => ¬ (p.2.handle = e.handle ∧ p.2.gen = e.gen) } : Sbx).freeSlot = some n →
    ∃ t, exec (.keyRotate c h addr true) s = .next t ∧
      (let key := s.drawn e.keyLen
       let blob := blobBytes d.wrapKey
         { handle := e.handle, usage := e.usage, gen := e.gen + 1, keyLen := e.keyLen, attr := bit (keyDrawn (handleType e.handle)) + 2 * bit e.migratable
           inst := st.inst } key
       t.out = [.memWrite c.stall addr blob] ∧
       t.stallData? c.stall = some { ({ d with keys := d.keys.filter fun k => ¬ (k.handle = e.handle ∧ k.gen = e.gen) } : StallData).putKey
         { e with gen := e.gen + 1, use := 0, ops := 0, pinned := false, blobAddr := addr, blobTag := blobTag blob, eC := s.epo.epoch } with
           wrapCount := d.wrapCount + 1 } ∧
       (assocGet n t.sbx.slots).map (fun k => (k.handle, k.gen, k.material)) = some (e.handle, e.gen + 1, key) ∧
       t.fresh = s.fresh + 1 ∧ s.recorded t { c.record stOk with result := leBytes 1 (e.gen + 1) }) ∧
      t = { s with out := t.out, hlm := t.hlm, obs := t.obs, alr := t.alr, sbx := t.sbx, stl := t.stl, fresh := t.fresh })

/-- Each admitted, on a live handle the issuer owns. KEY_LOAD of a resident key that may be pinned: its slot is pinned where asked, it
becomes the newest of the slots, ST_OK. KEY_LOAD of a key in no slot: nothing completes; the unwrap list holds its unwrap with this
command waiting. KEY_UNPIN: its pinned slots and its table entries are unpinned, ST_OK. KEY_DESTROY of a key no tile holds, no running
Booth operation uses and no region is sealed under: its table entries are marked destroyed, its slots and unwraps are gone, ST_OK.
KEY_ATTEST of a key pair with random bits and room: the certificates are written to OUT, one draw is taken and the record gives their
length. A handle the issuer does not own ends with ST_KEY_UNKNOWN for each, and nothing else happens. -/
def Obligations.KeyCommandsOnOwnedHandles : Prop :=
  (∀ (s : State) (c : Call) (h flags n : Nat) (e : KeyEntry) (k : KeySlot), s.admits c 0x0202 → s.namedKey c h = some e →
    s.sbx.slotOf h e.gen = some (n, k) → flags < 2 → flags = 0 ∨ k.pinned = true ∨ s.mayPin c.stall = true →
    exec (.keyLoad c h flags) s = .next (({ s with
      out := []
      sbx := Sbx.touch n { s.sbx with
        slots := assocSet n (if flags = 1 then { k with pinned := true, cls := .stall } else k) s.sbx.slots } } : State).finish c stOk)) ∧
  (∀ (s : State) (c : Call) (h flags : Nat) (e : KeyEntry), s.admits c 0x0202 → s.namedKey c h = some e →
    s.sbx.slotOf h e.gen = none → flags < 2 → flags = 0 ∨ s.mayPin c.stall = true →
    s.sbx.unwraps.any (fun u => decide (u.handle = h ∧ u.gen = e.gen)) = false → s.rst.coreReset = none →
    exec (.keyLoad c h flags) s = .next { s with
      out := []
      sbx := { s.sbx with unwraps := s.sbx.unwraps ++
        [({ handle := h, gen := e.gen, started := true, waiters := [.command c (flags.testBit 0)] } : Unwrap)] } }) ∧
  (∀ (s : State) (c : Call) (h : Nat) (e : KeyEntry) (d : StallData), s.admits c 0x0203 → s.namedKey c h = some e →
    s.stallData? c.stall = some d →
    exec (.keyUnpin c h) s = .next (({ s with
      out := []
      sbx := { s.sbx with slots := s.sbx.slots.map fun p =>
        if p.2.handle = h ∧ p.2.cls = .stall then (p.1, { p.2 with pinned := false, cls := .unpinned }) else p }
      stl := { s.stl with data := assocSet c.stall { d with keys := d.keys.map fun k =>
        if k.handle = h then { k with pinned := false } else k } s.stl.data } } : State).finish c stOk)) ∧
  (∀ (s : State) (c : Call) (h : Nat) (e : KeyEntry) (d : StallData), s.admits c 0x0205 → s.namedKey c h = some e →
    s.stallData? c.stall = some d → s.regionKeyUsed c.stall h = false → s.bth.running = none → s.sbx.destroys = [] →
    s.sbx.tiles.any (fun k => decide (k.handle = h)) = false → s.sbx.invals.any (fun k => decide (k.handle = h)) = false →
    ∃ t, exec (.keyDestroy c h) s = .next t ∧
      t.stallData? c.stall = some { d with keys := d.keys.map fun k => if k.handle = h then { k with destroyed := true } else k } ∧
      t.sbx.slots = s.sbx.slots.filter (fun p => ¬ (p.2.handle = h ∧ (d.keys.any fun k => k.handle = h ∧ k.gen = p.2.gen) = true)) ∧
      t.sbx.destroys = [] ∧ s.recorded t (c.record stOk) ∧
      t = { s with out := t.out, hlm := t.hlm, obs := t.obs, alr := t.alr, sbx := t.sbx, stl := t.stl }) ∧
  (∀ (s : State) (c : Call) (h out_ outMax : Nat) (certs : Bytes) (e : KeyEntry), s.admits c 0x0206 → s.namedKey c h = some e →
    handleType h = keyPairKem ∨ handleType h = keyPairSign → s.sbx.entropyOk = true → certs.length ≤ outMax →
    ∃ t, exec (.keyAttest c h out_ outMax certs true) s = .next t ∧ t.out = [.memWrite c.stall out_ certs] ∧
      t.fresh = s.fresh + 1 ∧ s.recorded t { c.record stOk with result := leBytes 4 certs.length } ∧
      t.sbx = { s.sbx with entropyWaits := s.sbx.entropyWaits.filter fun w => w.call ≠ c } ∧
      t = { s with out := t.out, hlm := t.hlm, obs := t.obs, alr := t.alr, sbx := t.sbx, fresh := t.fresh }) ∧
  (∀ (s : State) (c : Call) (h a b : Nat) (certs : Bytes) (ok : Bool), s.namedKey c h = none →
    (s.admits c 0x0202 → exec (.keyLoad c h a) s = .next (s.begin.finish c stKeyUnknown)) ∧
    (s.admits c 0x0203 → exec (.keyUnpin c h) s = .next (s.begin.finish c stKeyUnknown)) ∧
    (s.admits c 0x0204 → exec (.keyRotate c h a ok) s = .next (s.begin.finish c stKeyUnknown)) ∧
    (s.admits c 0x0205 → exec (.keyDestroy c h) s = .next (s.begin.finish c stKeyUnknown)) ∧
    (s.admits c 0x0206 → exec (.keyAttest c h a b certs ok) s = .next (s.begin.finish c stKeyUnknown)))

/-- KEY_CACHE_FILL of a link, host or Booth tile with room in its cache, the key in a slot of a bank not under test and its check code good:
the tile's cache gains the copy, with nothing unreported, and the slot becomes the newest. KEY_UNWRAP_DONE, outside C and the quiet
state: a blob that does not open is counted, EV_KEY_STALE is raised with the handle, the unwrap is gone and a command waiting alone for
it ends with ST_KEY_STALE; a blob that opens puts the key in the lowest usable slot with its use counts, and a command waiting alone
ends with ST_OK. KEY_USE_REPORT below 4,096 unreported uses does nothing; from 4,096 on, of a block key in a slot, the uses are credited
to the slot and the copy has none unreported. KEY_INVALIDATION_APPLY, with no destruction waiting: the tile's copy is gone, its
unreported uses are credited to the slot, and the invalidation is acknowledged. -/
def Obligations.TileKeyCaches : Prop :=
  (∀ (s : State) (tile h g n : Nat) (k : KeySlot), 0x40 ≤ tile → s.tileKey? tile h g = none → s.sbx.zeroNet = false →
    s.sbx.slotOf h g = some (n, k) → s.sbx.testing.contains (n / 16) = false →
    (s.sbx.tiles.filter fun x => x.tile = tile).length < s.tileKeyPlaces tile →
    exec (.keyCacheFill tile h g false) s = .next { s with
      out := []
      sbx := { s.sbx.touch n with tiles := s.sbx.tiles ++ [({ tile, handle := h, gen := g, unreported := 0, age := 0, material := k.material } : TileKey)] }
      obs := s.obs.bump (ctrSbx 4) 1 }) ∧
  (∀ (s : State) (h g : Nat) (c : Call) (pin started : Bool) (blob : BufRead) (us : List Unwrap), s.serving → s.rst.coreReset = none →
    s.sbx.zeroNet = false → s.sbx.unwraps = { handle := h, gen := g, started, waiters := [.command c pin] } :: us →
    (match blob with | .ok b => s.openBlob h g b | .failed => none) = none → s.bth.running.isSome = true →
    ∃ t, exec (.keyUnwrapDone h g blob) s = .next t ∧ t.sbx = { s.sbx with unwraps := us, staleCount := satAdd 65535 s.sbx.staleCount 1 } ∧
      s.recorded t (c.record stKeyStale) ∧ t.hlm.fifo = (s.event evKeyStale unitStrongbox (some (handleOwner h)) h 0).hlm.fifo ∧
      t = { s with out := [], hlm := t.hlm, obs := t.obs, alr := t.alr, sbx := t.sbx }) ∧
  (∀ (s : State) (h g n : Nat) (c : Call) (started : Bool) (b key : Bytes) (e : KeyEntry) (us : List Unwrap), s.serving →
    s.rst.coreReset = none → s.sbx.zeroNet = false →
    s.sbx.unwraps = { handle := h, gen := g, started, waiters := [.command c false] } :: us → s.openBlob h g b = some key →
    s.keyEntry? h g = some e → s.sbx.freeSlot = some n → s.bth.running.isSome = true →
    ∃ t, exec (.keyUnwrapDone h g (.ok b)) s = .next t ∧
      t.sbx = Sbx.touch n { s.sbx with
        unwraps := us, slots := assocSet n { KeySlot.fresh h g e.usage key with count := e.use, ops := e.ops } s.sbx.slots } ∧
      s.recorded t (c.record stOk) ∧ t = { s with out := [], hlm := t.hlm, obs := t.obs, alr := t.alr, sbx := t.sbx }) ∧
  (∀ (s : State) (tile h g : Nat) (ok : Bool), (s.sbx.tiles.all fun k => decide (k.tile = tile ∧ k.handle = h ∧ k.gen = g → k.unreported < 4096)) = true →
    exec (.keyUseReport tile h g ok) s = .next s.begin) ∧
  (∀ (s : State) (tile h g : Nat) (ok : Bool) (k : TileKey), s.sbx.tiles.find? (fun k => k.tile = tile ∧ k.handle = h ∧ k.gen = g) = some k →
    4096 ≤ k.unreported → s.sbx.slots.any (fun p => p.2.handle = h ∧ p.2.gen = g) = true → s.keyEntry? h g = none →
    exec (.keyUseReport tile h g ok) s = .next { s with
      out := []
      sbx := { s.sbx with
        tiles := s.sbx.tiles.map fun x => if x = k then { k with unreported := 0 } else x
        slots := s.sbx.slots.map fun p => (p.1, if p.2.handle = h ∧ p.2.gen = g then { p.2 with count := p.2.count + k.unreported } else p.2) } }) ∧
  (∀ (s : State) (tile h g : Nat) (k : TileKey), s.sbx.invals.contains { tile, handle := h, gen := g } = true → s.sbx.destroys = [] →
    s.sbx.tiles.find? (fun k => k.tile = tile ∧ k.handle = h ∧ k.gen = g) = some k →
    s.sbx.slots.any (fun p => p.2.handle = k.handle ∧ p.2.gen = k.gen) = true →
    exec (.keyInvalidationApply tile h g) s = .next { s with
      out := []
      sbx := { s.sbx with
        tiles := s.sbx.tiles.eraseP (· = k), invals := s.sbx.invals.erase { tile, handle := h, gen := g }
        slots := s.sbx.slots.map fun p =>
          (p.1, if p.2.handle = k.handle ∧ p.2.gen = k.gen then { p.2 with count := p.2.count + k.unreported } else p.2) } })

/-- ENTROPY_FAIL clears ENTROPY_OK, sets the failure bit and raises EV_ENTROPY_FAIL, and changes nothing else. ENTROPY_RECOVER sets
ENTROPY_OK; with a Booth operation running nothing else changes. ENTROPY_WAIT_TIMEOUT, entropy failed, the oldest wait 1 ms old and not
an export: that command ends with ST_NO_ENTROPY, the wait is gone, and a queued Booth operation of it is gone; a younger wait stays.
KEY_PAIR_GENERATED: the pool grows by one below 32 with entropy; at 32, or without, it stays. ZEROIZE_VERIFY_DONE while a pass runs:
with every cell zero, ZEROIZED is set and the pass is over, and nothing else changes. With a cell that is not zero, ZEROIZE_FAIL is set,
tray_al_tamper and Safe Stop are set, the keys are erased again, the anchor is gone and the net stays asserted. With no pass running
nothing happens. KEYSLOT_MASK_REFRESH with every check code good, the net not asserted: the refresh count grows by 1 and nothing else
changes. With one slot bad, holding a Stall's key, its bank not under test and the spare free: the slot is empty, its use counts are in
the key table, the bank is under its Sounding and served by the spare, and an integrity alarm names the slot; tray_al_tamper and Safe
Stop stay as they were. KEYSLOT_BANK_SOUNDING_DONE: a pass frees the spare and raises EV_SOUNDING with its code 2; a failure keeps the
spare in use as a field repair, to be written to Settings, with code 1. -/
def Obligations.EntropyPairsSlotsAndZeroize : Prop :=
  (∀ s : State, exec .entropyFail s = .next (({ s with
      out := [], sbx := { s.sbx with entropyOk := false, entropyFail := true } } : State).event evEntropyFail unitStrongbox none 0 0)) ∧
  (∀ s : State, s.bth.running.isSome = true →
    exec .entropyRecover s = .next { s with out := [], sbx := { s.sbx with entropyOk := true } }) ∧
  (∀ (s : State) (w : EntropyWait) (ws : List EntropyWait), s.alr.quiet = false → s.sbx.entropyWaits = w :: ws → s.sbx.entropyOk = false →
    w.since + 1000000 ≤ s.clk.elapsed → s.bth.running.isSome = true → s.tol.running = none →
    ∃ t, exec .entropyWaitTimeout s = .next t ∧ t.sbx = { s.sbx with entropyWaits := ws } ∧ s.recorded t (w.call.record stNoEntropy) ∧
      t.bth = { s.bth with queue := s.bth.queue.filter fun o => o.call ≠ w.call } ∧
      t = { s with out := [], hlm := t.hlm, obs := t.obs, alr := t.alr, sbx := t.sbx, bth := t.bth }) ∧
  (∀ (s : State) (w : EntropyWait) (ws : List EntropyWait), s.sbx.entropyWaits = w :: ws → s.clk.elapsed < w.since + 1000000 →
    exec .entropyWaitTimeout s = .next s.begin) ∧
  (∀ s : State, s.sbx.entropyOk = true → s.sbx.poolLevel < 32 → s.sbx.zeroNet = false →
    exec .keyPairGenerated s = .next { s with
      out := [], sbx := { s.sbx with poolLevel := s.sbx.poolLevel + 1 }, obs := s.obs.bump (ctrSbx 5) 1 }) ∧
  (∀ s : State, s.sbx.entropyOk = false ∨ 32 ≤ s.sbx.poolLevel → exec .keyPairGenerated s = .next s.begin) ∧
  (∀ s : State, s.sbx.verifying = true →
    exec (.zeroizeVerifyDone 0) s = .next { s with out := [], sbx := { s.sbx with verifying := false, zeroized := true } }) ∧
  (∀ (s : State) (n : Nat), s.sbx.verifying = true → 0 < n →
    ∃ t, exec (.zeroizeVerifyDone n) s = .next t ∧ t.sbx.zeroizeFail = true ∧ t.alr.tamper = true ∧ t.alr.safeStop = true ∧
      t.rst.rstReq = true ∧ t.sbx.slots = [] ∧ t.sbx.tiles = [] ∧ t.sbx.root = [] ∧ t.sbx.zeroNet = true ∧ t.ldg.anchor.valid = false) ∧
  (∀ (s : State) (n : Nat), s.sbx.verifying = false → exec (.zeroizeVerifyDone n) s = .next s.begin) ∧
  (∀ s : State, s.sbx.zeroNet = false →
    exec (.keyslotMaskRefresh []) s = .next { s with out := [], sbx := { s.sbx with refreshes := s.sbx.refreshes + 1 } }) ∧
  (∀ (s : State) (n : Nat) (k : KeySlot) (d : StallData), s.sbx.zeroNet = false → assocGet n s.sbx.slots = some k →
    handleType k.handle < 9 → handleOwner k.handle ≠ 0 → s.stallData? (handleOwner k.handle) = some d →
    s.sbx.testing.contains (n / 16) = false → s.cht.ksBank = none →
    ∃ t, exec (.keyslotMaskRefresh [n]) s = .next t ∧
      t.sbx = { s.sbx with refreshes := s.sbx.refreshes + 1, slots := assocDel n s.sbx.slots, testing := s.sbx.testing ++ [n / 16] } ∧
      t.cht = { s.cht with ksBank := some (n / 16), ksField := false } ∧
      t.stallData? (handleOwner k.handle) = some { d with keys := d.keys.map fun e =>
        if e.handle = k.handle ∧ e.gen = k.gen then { e with use := k.count, ops := k.ops } else e } ∧
      t.alr.integrity = true ∧ t.alr.tamper = s.alr.tamper ∧ t.alr.safeStop = s.alr.safeStop ∧
      t = { s with out := [], sbx := t.sbx, cht := t.cht, stl := t.stl, alr := t.alr, hlm := t.hlm, obs := t.obs }) ∧
  (∀ (s : State) (b : Nat), s.sbx.testing.contains b = true →
    exec (.keyslotBankSoundingDone b true) s = .next (({ s with
      out := [], sbx := { s.sbx with testing := s.sbx.testing.filter (· ≠ b) }, cht := { s.cht with ksBank := none } } : State).sounding
        unitStrongbox 2 2)) ∧
  (∀ (s : State) (b : Nat), s.sbx.testing.contains b = true →
    exec (.keyslotBankSoundingDone b false) s = .next (({ s with
      out := []
      sbx := { s.sbx with testing := s.sbx.testing.filter (· ≠ b) }
      cht := { s.cht with ksField := true }
      ald := { s.ald with repairDue := s.ald.repairDue.orElse fun _ => some s.clk.elapsed } } : State).sounding unitStrongbox 2 1))

/-- STALL_ADMIT without owners, admitted, with the record area bound, the ID free, every selection permitted, one admission of credit and
random bits: INSTANCE is the next draw; the Stall is ADMITTED with the selections asked for; MR0 is 48 zero bytes extended by PROGRAM
and the extend log holds that extend; the credit falls by one admission; the command waits for its record to be anchored and completes
with ST_OK. Each check that fails, in the order of R404, ends it instead: no policy section ST_POLICY, a record area not bound
ST_REGION_STATE, an ID not free ST_STALL_BUSY, a selection not permitted ST_POLICY; without credit it goes to the next boundary,
deferred. -/
def Obligations.StallAdmit : Prop :=
  (∀ (s : State) (c : Call) (id fill integ opts account owners k : Nat) (program tenantKey policy : Bytes) (buf : BufRead) (p : StallPolicy),
    s.admits c 0x0401 → s.cfg.policy = some p → s.recordAreaBound p = true → s.idFree id = true →
    s.selectionsOk p fill integ opts policy = true → 1000000000 ≤ s.stl.credit → s.sbx.entropyOk = true → s.ldg.flight = none →
    s.ldg.storeOk = true → s.ldg.items = [] → s.ldg.baseBusy = false → s.freeStallSlot = some k → s.stl.fills = [] → id ≠ 0 →
    ∃ t, exec (.stallAdmit c id fill integ opts 0 account program tenantKey policy owners buf) s = .next t ∧
      (t.stall? id).map (fun x => (x.state, x.inst, x.fillFault, x.integLose, x.boothStream, x.bindNoinit, x.extendSeq, x.admitTime)) =
        some (.admitted, s.drawn 16, decide (fill = 1), decide (integ = 1), opts.testBit 0, opts.testBit 1, 1, s.clk.domain) ∧
      (t.stallData? id).map (fun d => (d.mrs, d.tenantKey, d.policyDigest, d.account, d.owners, d.keys)) =
        some ([(0, sha384 (zeros 48 ++ program))], tenantKey, policy, account, [], []) ∧
      (t.stallData? id).map (fun d => d.log) = some [{ seq := 1, reg := 0, kind := 1, owner := 0xFF, digest := program
                                                       time := s.clk.domain, unanchored := !s.clk.anchored }] ∧
      t.stl.credit = s.stl.credit - 1000000000 ∧ t.stl.slots = assocSet k id s.stl.slots ∧
      t.ldg.waits.map (fun w => (w.call, w.status)) = s.ldg.waits.map (fun w => (w.call, w.status)) ++ [(c, stOk)] ∧
      t.sbx.slots = s.sbx.slots ∧ t.epo = s.epo ∧ t.rst = s.rst ∧ t.alr = s.alr) ∧
  (∀ (s : State) (c : Call) (id fill integ opts account owners : Nat) (program tenantKey policy : Bytes) (buf : BufRead),
    s.admits c 0x0401 →
    (s.cfg.policy = none →
      exec (.stallAdmit c id fill integ opts 0 account program tenantKey policy owners buf) s = .next (s.begin.finish c stPolicy)) ∧
    (∀ p ∈ s.cfg.policy.toList, s.recordAreaBound p = false →
      exec (.stallAdmit c id fill integ opts 0 account program tenantKey policy owners buf) s = .next (s.begin.finish c stRegionState)) ∧
    (∀ p ∈ s.cfg.policy.toList, s.recordAreaBound p = true → s.idFree id = false →
      exec (.stallAdmit c id fill integ opts 0 account program tenantKey policy owners buf) s = .next (s.begin.finish c stStallBusy)) ∧
    (∀ p ∈ s.cfg.policy.toList, s.recordAreaBound p = true → s.idFree id = true → s.selectionsOk p fill integ opts policy = false →
      exec (.stallAdmit c id fill integ opts 0 account program tenantKey policy owners buf) s = .next (s.begin.finish c stPolicy)))

/-- STALL_FILL_START: the first fill without a slot, fewer than four running and outside the quiet state, takes the lowest slot that is free
and not reserved, and the read of the Stall's record leaves. STALL_FILL_DONE, with a slot and no write of the record pending: a record
that fails a check of R398, or whose read failed, makes the Stall LOST with cause FILL (1), its fill is gone, every request that an MSE
holds for the fill is answered REFUSED, and every command of the Stall that was started and is not committed completes with
ST_STALL_LOST; where no MSE holds a request, a good record puts the Stall in the slot, and its record fields stay. -/
def Obligations.StallFills : Prop :=
  (∀ (s : State) (f : Fill) (k : Nat), s.alr.quiet = false → s.stl.fills.find? (fun f => f.slot.isNone) = some f →
    (s.stl.fills.filterMap (·.slot)).length < 4 →
    (List.range 47).find? (fun k => (assocGet (k + 1) s.stl.slots).isNone ∧ ¬ (s.stl.fills.filterMap (·.slot)).contains (k + 1)) = some k →
    exec .stallFillStart s = .next { s with
      out := [.memRead 0 (s.recordAddr f.stall) 16384]
      stl := { s.stl with fills := s.stl.fills.map fun x => if x = f then { f with slot := some (k + 1), victim := 0xFFF } else x } }) ∧
  (∀ (s : State) (id k : Nat) (f : Fill) (x : Stall) (r : BufRead), s.alr.quiet = false → s.stl.fills.find? (fun f => f.stall = id) = some f →
    f.slot = some k → s.recordPending id = false → s.stall? id = some x → x.state ≠ .lost → x.state ≠ .removing →
    (match r with | .ok b => s.recordGood id b | .failed => false) = false →
    ∃ t, exec (.stallFillDone id r) s = .next t ∧ t.stall? id = some { x with state := .lost, lostCause := 1 } ∧
      t.stl.fills.contains f = false ∧ t.stl.slots = s.stl.slots ∧ t.epo = s.epo ∧
      (s.mse.zipIdx.all fun m => m.1.held.all fun p => !decide (p.2 = .fill id) || t.out.contains (answerBad m.2 .refused p.1)) = true ∧
      (s.hlm.running.all fun q => decide (q.call.stall ≠ id) || s.committed q.call ||
        (if q.call.window then t.hlm.dwDone && decide (t.hlm.dwStatus = stStallLost)
          else t.hlm.cwq.contains (q.call.record stStallLost))) = true) ∧
  (∀ (s : State) (id k : Nat) (f : Fill) (b : Bytes), s.alr.quiet = false → s.stl.fills.find? (fun f => f.stall = id) = some f →
    f.slot = some k → s.recordPending id = false → s.recordGood id b = true → (s.mse.all fun m => m.held.isEmpty && m.hazards.isEmpty) = true →
    ∃ t, exec (.stallFillDone id (.ok b)) s = .next t ∧ t.stl.slots = assocSet k id s.stl.slots ∧
      t.stl.fills = s.stl.fills.filter (fun y => y ≠ f) ∧ t.stl.table = s.stl.table ∧ t.ldg = s.ldg ∧ t.epo = s.epo ∧ t.sbx = s.sbx)

/-- STALL_REMOVE, admitted, of a Stall that is not FREE, not 0 and not REMOVING: it is REMOVING, its function-map entries and its windows in
the Remote Window Table are gone, its removal is at step 1, and the command has not completed; keys, the Ledger and the epoch stay.
Stall 0 or a FREE Stall ends with ST_POLICY, a REMOVING one with ST_STALL_BUSY. REMOVAL_STEP_DONE: a step that has not ended stays; step
1, ended and journalled, gives step 2; step 6, ended and journalled, leaves the Stall FREE with no record and no tables and completes
the command with ST_OK. REMOVAL_DRAIN_TIMEOUT: before T_DRAIN nothing happens; at T_DRAIN step 2, journalled, gives step 3 and every MSE
is sent the squash. -/
def Obligations.StallRemoval : Prop :=
  (∀ (s : State) (c : Call) (id : Nat) (x : Stall), s.admits c 0x0402 → s.stl.removals = [] → id ≠ 0 → s.stall? id = some x →
    x.state ≠ .free → x.state ≠ .removing → s.granted.any (fun g => g.stall = id) = false → s.mrk.dir.any (fun p => p.2.owner = id) = false →
    s.stl.freezes = [] →
    ∃ t, exec (.stallRemove c id) s = .next t ∧ t.stall? id = some { x with state := .removing } ∧
      t.stl.removals = [{ stall := id, inst := x.inst, step := 1, since := s.clk.elapsed, regions := [], call := some c }] ∧
      t.stl.fnMap = s.stl.fnMap.filter (fun p => p.2.2 ≠ id) ∧ t.rwt = s.rwt.filter (fun p => p.2.reqStall ≠ id) ∧
      t.sbx.slots = s.sbx.slots ∧ t.ldg = s.ldg ∧ t.epo = s.epo ∧ t.rst = s.rst ∧ t.mrk.dir = s.mrk.dir) ∧
  (∀ (s : State) (c : Call) (id : Nat), s.admits c 0x0402 → s.stl.removals.any (fun r => decide (r.call = some c)) = false →
    id = 0 ∨ s.stallState id = .free → exec (.stallRemove c id) s = .next (s.begin.finish c stPolicy)) ∧
  (∀ (s : State) (c : Call) (id : Nat), s.admits c 0x0402 → s.stl.removals.any (fun r => decide (r.call = some c)) = false →
    id ≠ 0 → s.stallState id = .removing → exec (.stallRemove c id) s = .next (s.begin.finish c stStallBusy)) ∧
  (∀ (s : State) (id : Nat) (r : Removal), s.stl.removals.find? (fun r => r.stall = id) = some r → s.removalEnded r = false →
    exec (.removalStepDone id) s = .next s.begin) ∧
  (∀ (s : State) (id : Nat) (r : Removal), s.stl.removals.find? (fun r => r.stall = id) = some r → s.removalEnded r = true →
    s.alr.quiet = false → s.rst.coreReset = none → s.journalled id r.inst r.step = true →
    s.nvm.journalQueue.contains (.removal id r.inst r.step) = false → r.step = 1 →
    exec (.removalStepDone id) s = .next { s with
      out := []
      stl := { s.stl with removals := s.stl.removals.map fun y => if y = r then { r with step := 2, since := s.clk.elapsed } else y } }) ∧
  (∀ (s : State) (id : Nat) (r : Removal) (c : Call), s.stl.removals.find? (fun r => r.stall = id) = some r → s.removalEnded r = true →
    s.alr.quiet = false → s.rst.coreReset = none → s.journalled id r.inst r.step = true →
    s.nvm.journalQueue.contains (.removal id r.inst r.step) = false → r.step = 6 → r.call = some c →
    ∃ t, exec (.removalStepDone id) s = .next t ∧ t.stl.table = assocDel id s.stl.table ∧ t.stl.data = assocDel id s.stl.data ∧
      t.stl.removals = s.stl.removals.erase r ∧ s.recorded t (c.record stOk) ∧ t.ldg = s.ldg ∧ t.sbx = s.sbx ∧ t.epo = s.epo) ∧
  (∀ (s : State) (id : Nat) (r : Removal), s.stl.removals.find? (fun r => r.stall = id) = some r → s.clk.elapsed < r.since + s.drainNs →
    exec (.removalDrainTimeout id) s = .next s.begin) ∧
  (∀ (s : State) (id : Nat) (r : Removal), s.stl.removals.find? (fun r => r.stall = id) = some r → r.step = 2 →
    r.since + s.drainNs ≤ s.clk.elapsed → s.alr.quiet = false → s.rst.coreReset = none → s.journalled id r.inst 2 = true →
    s.nvm.journalQueue.contains (.removal id r.inst 2) = false →
    ∃ t, exec (.removalDrainTimeout id) s = .next t ∧
      t.stl.removals = s.stl.removals.map (fun y => if y = r then { r with step := 3, since := s.clk.elapsed } else y) ∧
      (t.mse.all fun m => m.spine.queue.contains (.squash id)) = true ∧ t.ldg.localEntries = s.ldg.localEntries ∧ t.epo = s.epo ∧
      t.sbx.slots = s.sbx.slots)

/-- STALL_FREEZE of a KEYED Stall with its list in PLAIN regions of Stall 0, in a block with MSEs: the Stall is FROZEN at once, every tile
is told to refuse it, and the command waits for the drain. Run again once every tile has acknowledged and the Stall's work has ended,
with no region to freeze: the list, its digest and FREEZE_EPOCH are recorded, and the freeze is over. A Stall not KEYED ends with the
status of its state. FREEZE_DRAIN_TIMEOUT before T_DRAIN does nothing; at T_DRAIN the freeze is squashed once and every MSE is sent the
squash. STALL_THAW of a FROZEN Stall, not saved, not rebasing and not freezing: KEYED again, its frozen regions are granted SEALED once
anchored; a Stall that is not FROZEN, was saved, or is rebasing ends with ST_STALL_FROZEN, ST_STALL_MIGRATED or ST_MIG_REBASING. -/
def Obligations.StallFreezeAndThaw : Prop :=
  (∀ (s : State) (c : Call) (id flist : Nat) (ok : Bool) (x : Stall), s.admits c 0x0403 → s.stl.freezes.any (fun f => decide (f.call = c)) = false →
    s.stall? id = some x → x.state = .keyed → s.plainRange flist (8 * (s.freezeRegions id).length + 1) = true → s.mse ≠ [] →
    ∃ t, exec (.stallFreeze c id flist ok) s = .next t ∧ t.stall? id = some { x with state := .frozen } ∧
      t.stl.freezes = s.stl.freezes ++ [{ stall := id, since := s.clk.elapsed, list := flist, squashed := false, call := c }] ∧
      t.mse = s.mse.map (fun m => { m with spine := m.spine.send (.refusal id true) }) ∧
      t.lse = s.lse.map (fun l => { l with spine := l.spine.send (.refusal id true) }) ∧
      t.hse = s.hse.map (fun h => { h with spine := h.spine.send (.refusal id true) }) ∧
      t = { s with out := [], stl := t.stl, mse := t.mse, lse := t.lse, hse := t.hse }) ∧
  (∀ (s : State) (c : Call) (id flist : Nat) (f : Freeze) (d : StallData) (x : Stall), s.serving →
    s.stl.freezes.find? (fun f => f.call = c) = some f →
    f.stall = id → s.spineHolds (.refusal id true) = false → s.spineHolds (.squash id) = false → s.stallWork id = false →
    s.freezeRegions id = [] → s.stallData? id = some d → s.stall? id = some x → s.ldg.changes = [] →
    ∃ t, exec (.stallFreeze c id flist true) s = .next t ∧ t.stl.freezes = s.stl.freezes.erase f ∧
      (t.stallData? id).map (fun d => (d.freezeList, d.freezeEpoch)) = some (sha384 [], s.epo.epoch) ∧
      t.stall? id = some { x with version := x.version + 1 } ∧ t.epo = s.epo ∧ t.sbx.slots = s.sbx.slots ∧
      t.ldg.localEntries = s.ldg.localEntries ∧ t.mse = s.mse) ∧
  (∀ (s : State) (c : Call) (id flist st : Nat) (ok : Bool), s.admits c 0x0403 → s.stl.freezes.any (fun f => decide (f.call = c)) = false →
    keyedStatus (s.stallState id) = some st → exec (.stallFreeze c id flist ok) s = .next (s.begin.finish c st)) ∧
  (∀ (s : State) (id : Nat) (f : Freeze), s.stl.freezes.find? (fun f => f.stall = id) = some f →
    f.squashed = true ∨ s.clk.elapsed < f.since + s.drainNs → exec (.freezeDrainTimeout id) s = .next s.begin) ∧
  (∀ (s : State) (id : Nat) (f : Freeze), s.stl.freezes.find? (fun f => f.stall = id) = some f → f.squashed = false →
    f.since + s.drainNs ≤ s.clk.elapsed →
    ∃ t, exec (.freezeDrainTimeout id) s = .next t ∧
      t.stl.freezes = s.stl.freezes.map (fun y => if y = f then { f with squashed := true } else y) ∧
      (t.mse.all fun m => m.spine.queue.contains (.squash id)) = true ∧ t.ldg = s.ldg ∧ t.epo = s.epo ∧ t.sbx = s.sbx) ∧
  (∀ (s : State) (c : Call) (id : Nat) (x : Stall), s.admits c 0x0404 → s.stall? id = some x → x.state = .frozen → x.saved = false →
    x.rebase = false → s.stl.freezes = [] → (s.stallData? id).isSome = true → s.ldg.flight.isSome = true →
    (s.regionsWhere fun e => e.owner = id ∧ e.state = .frozen).all (fun r => !s.zeroFilling r) = true →
    ∃ t, exec (.stallThaw c id) s = .next t ∧ t.stall? id = some { x with state := .keyed, version := x.version + 1 } ∧
      t.ldg.grants = s.ldg.grants ++ (s.regionsWhere fun e => e.owner = id ∧ e.state = .frozen).map
        (fun r => (r, { s.entry r with state := .sealed })) ∧
      t.ldg.waits.map (fun w => (w.call, w.status)) = s.ldg.waits.map (fun w => (w.call, w.status)) ++ [(c, stOk)] ∧
      t.ldg.localEntries = s.ldg.localEntries ∧ t.epo = s.epo ∧ t.sbx = s.sbx) ∧
  (∀ (s : State) (c : Call) (id : Nat) (x : Stall), s.admits c 0x0404 → s.stall? id = some x →
    (x.state = .keyed ∨ x.state = .admitted → exec (.stallThaw c id) s = .next (s.begin.finish c stStallFrozen)) ∧
    (x.state = .frozen → x.saved = true → exec (.stallThaw c id) s = .next (s.begin.finish c stStallMigrated)) ∧
    (x.state = .frozen → x.saved = false → x.rebase = true → exec (.stallThaw c id) s = .next (s.begin.finish c stMigRebasing)))

/-- Each admitted. FN_MAP of an unmapped function to a Stall that is ADMITTED, KEYED or FROZEN, with room: the lowest free entry maps it,
ST_OK; a mapped function or another state ends with ST_POLICY, a full map with ST_FN_FULL. FN_UNMAP: every entry of the function is
gone, ST_OK, whether there was one or not. STALL_STATUS: ST_OK with the information, replay and age words, and nothing else changes. -/
def Obligations.FunctionMapAndStatus : Prop :=
  (∀ (s : State) (c : Call) (fn id k : Nat), s.admits c 0x0407 → id < 4096 →
    s.stallState id = .admitted ∨ s.stallState id = .keyed ∨ s.stallState id = .frozen →
    s.fnStall? fn = none → firstFree s.stl.fnMap 0 1024 = some k →
    exec (.fnMap c fn id) s = .next (({ s with out := [], stl := { s.stl with fnMap := assocSet k (fn, id) s.stl.fnMap } } : State).finish c stOk)) ∧
  (∀ (s : State) (c : Call) (fn id : Nat), s.admits c 0x0407 → id < 4096 →
    s.stallState id = .free ∨ s.stallState id = .lost ∨ s.stallState id = .removing ∨ (s.fnStall? fn).isSome = true →
    exec (.fnMap c fn id) s = .next (s.begin.finish c stPolicy)) ∧
  (∀ (s : State) (c : Call) (fn id : Nat), s.admits c 0x0407 → id < 4096 →
    s.stallState id = .admitted ∨ s.stallState id = .keyed ∨ s.stallState id = .frozen →
    s.fnStall? fn = none → firstFree s.stl.fnMap 0 1024 = none → exec (.fnMap c fn id) s = .next (s.begin.finish c stFnFull)) ∧
  (∀ (s : State) (c : Call) (fn : Nat), s.admits c 0x0408 →
    exec (.fnUnmap c fn) s = .next (({ s with out := [], stl := { s.stl with fnMap := s.stl.fnMap.filter fun p => p.2.1 ≠ fn } } : State).finish c stOk)) ∧
  (∀ (s : State) (c : Call) (id : Nat), s.admits c 0x0409 → id < 4096 →
    exec (.stallStatus c id) s = .next (s.begin.finishOk c
      (leBytes 4 (s.stallInfo id) ++ leBytes 4 (s.stallReplay id) ++ leBytes 4 (s.stallAge id))))

/-- REGION_BIND, admitted, with COUNT 1 to 1,024 and no status of R284 against it. Mode ZERO: one region becomes ZEROING at FLOOR E under
the newest generation, its zero fill is queued, and the command waits for the region. Modes NOINIT and PLAIN: the entries stay as they
are until anchored; each region is granted SEALED under the newest generation, or PLAIN under generation 0, at FLOOR E, and the command
waits for the items. A status of R284 ends it, and COUNT or MODE out of range ends it with ST_PARAM, with nothing bound. REGION_RETIRE
of one region it may retire: RETIRING, its sweep orders gone, every MSE that can serve it is told to drop its entry, and the command
waits for it; one it may not ends with ST_REGION_STATE. -/
def Obligations.RegionBindAndRetire : Prop :=
  (∀ (s : State) (c : Call) (region : Nat) (r : RegionId), s.admits c 0x0301 → s.bindStatus c region 1 0 = none →
    s.namedRegions region 1 = [some r] → r.pool = false → s.ldg.flight.isSome = true →
    ∃ t, exec (.regionBind c region 1 0) s = .next t ∧
      t.entry r = { owner := c.stall, gen := s.bindGen c.stall, state := .zeroing, floor := s.epo.epoch, sweep := true } ∧
      t.swp.queue = s.swp.queue ++ [{ kind := .zero, region := r, stall := c.stall, old := s.bindGen c.stall, new := s.bindGen c.stall, bootOld := false }] ∧
      t.ldg.waits = s.ldg.waits ++ [{ call := c, status := stOk, result := [], regions := [r], items := [] }] ∧
      t.mse = s.mse.map (fun m => { m with spine := m.spine.send (.invalidate r) }) ∧
      t = { s with out := [], ldg := t.ldg, swp := t.swp, mse := t.mse }) ∧
  (∀ (s : State) (c : Call) (region count mode : Nat), s.admits c 0x0301 → 1 ≤ count → count ≤ 1024 → mode = 1 ∨ mode = 2 →
    s.bindStatus c region count mode = none → s.ldg.flight.isSome = true →
    ∃ t, exec (.regionBind c region count mode) s = .next t ∧
      (let e : LdgEntry := { owner := c.stall, gen := if mode = 2 then 0 else s.bindGen c.stall, state := if mode = 2 then .plain else .sealed
                             floor := s.epo.epoch, sweep := false }
       let rs := (s.namedRegions region count).filterMap id
       t.ldg = { s.ldg with
         grants := s.ldg.grants ++ rs.map fun r => (r, e)
         items := s.ldg.items ++ rs.map fun r => DeltaItem.entry r e
         waits := s.ldg.waits ++ [{ call := c, status := stOk, result := [], regions := [], items := rs.map fun r => DeltaItem.entry r e }] }) ∧
      t = { s with out := [], ldg := t.ldg }) ∧
  (∀ (s : State) (c : Call) (region count mode : Nat), s.admits c 0x0301 →
    (count = 0 ∨ 1024 < count → exec (.regionBind c region count mode) s = .next (s.begin.badArg c 4)) ∧
    (1 ≤ count → count ≤ 1024 → 2 < mode → exec (.regionBind c region count mode) s = .next (s.begin.badArg c 6)) ∧
    (∀ st ∈ (s.bindStatus c region count mode).toList, 1 ≤ count → count ≤ 1024 → mode ≤ 2 →
      exec (.regionBind c region count mode) s = .next (s.begin.finish c st))) ∧
  (∀ (s : State) (c : Call) (region : Nat) (r : RegionId), s.admits c 0x0302 → s.namedRegions region 1 = [some r] → r.pool = false →
    s.retireBad c c.stall (some r) = false → s.mse ≠ [] → s.ldg.changes = [] → (s.mse.all fun m => m.sweeps.isEmpty) = true →
    ∃ t, exec (.regionRetire c region 1 0) s = .next t ∧ t.entry r = { s.entry r with state := .retiring, sweep := false } ∧
      t.ldg.waits = s.ldg.waits ++ [{ call := c, status := stOk, result := [], regions := [r], items := [] }] ∧
      t.ldg.changes = [{ region := r, goal := .retire }] ∧ t.mse = s.mse.map (fun m => { m with spine := m.spine.send (.invalidate r) }) ∧
      t.swp.queue = s.swp.queue.filter (fun o => o.region ≠ r) ∧ t.swp.slots = s.swp.slots.filter (fun p => p.2.order.region ≠ r) ∧
      t = { s with out := [], ldg := t.ldg, swp := t.swp, mse := t.mse }) ∧
  (∀ (s : State) (c : Call) (region count : Nat), s.admits c 0x0302 → 1 ≤ count → count ≤ 1024 →
    (s.namedRegions region count).any (s.retireBad c c.stall) = true →
    exec (.regionRetire c region count 0) s = .next (s.begin.finish c stRegionState))

/-- MIGRATE_SAVE under a MOVE session, admitted, of a FROZEN Stall not saved, at the epoch of its freeze, with the freeze list whose digest
the record holds, no region to retire and room in OUT: the record is written to OUT as the issuer, the Stall is saved with the next
SAVE_SEQ, and the session is gone. A Stall not FROZEN, already saved, or frozen in an earlier epoch, or without a session, ends with
ST_STALL_FROZEN, ST_STALL_MIGRATED, ST_MIG_STALE or ST_NO_SESSION. MIGRATE_RESTORE under a MOVE session of a record without regions or
keys that opens: the Stall named is FROZEN, imported and rebasing, with the identity and tables its record carries and the epoch's bias;
its blob region is ZEROING, and the session is gone. MIG_SESSION_EXPIRY drops the first session whose life has ended, and nothing else. -/
def Obligations.Migration : Prop :=
  (∀ (s : State) (c : Call) (id session flist out_ outMax : Nat) (b : Bytes) (x : Stall) (d : StallData) (m : MigSession) (ks : List (KeyEntry × Bytes)),
    s.admits c 0x0405 → s.stall? id = some x → s.stallData? id = some d → x.state = .frozen → x.saved = false →
    d.freezeEpoch = s.epo.epoch → s.session true session (some (id, x.inst)) = some (.move m) → sha384 b = d.freezeList →
    s.migKeys d [] = some ks → (s.migRecord id (.move m) x d (chunks 8 b) ks).length ≤ outMax → s.freezeRegions id = [] →
    s.ldg.flight.isSome = true → s.ldg.changes = [] →
    ∃ t, exec (.migrateSave c id session flist out_ outMax (.ok b) [] true) s = .next t ∧
      t.out.take 2 = [.memRead 0 flist 0, .memWrite c.stall out_ (s.migRecord id (.move m) x d (chunks 8 b) ks)] ∧
      t.stall? id = some { x with saved := true, saveSeq := x.saveSeq + 1, version := x.version + 1 } ∧
      t.stl.sessions = s.stl.sessions.erase m ∧ t.ldg.localEntries = s.ldg.localEntries ∧ t.sbx = s.sbx ∧ t.epo = s.epo ∧ t.mse = s.mse) ∧
  (∀ (s : State) (c : Call) (id session flist out_ outMax : Nat) (list : BufRead) (bs : List BufRead) (ok : Bool) (x : Stall) (d : StallData),
    s.admits c 0x0405 → s.stall? id = some x → s.stallData? id = some d →
    (x.state ≠ .frozen → exec (.migrateSave c id session flist out_ outMax list bs ok) s = .next (s.begin.finish c stStallFrozen)) ∧
    (x.state = .frozen → x.saved = true → exec (.migrateSave c id session flist out_ outMax list bs ok) s = .next (s.begin.finish c stStallMigrated)) ∧
    (x.state = .frozen → x.saved = false → d.freezeEpoch ≠ s.epo.epoch →
      exec (.migrateSave c id session flist out_ outMax list bs ok) s = .next (s.begin.finish c stMigStale)) ∧
    (x.state = .frozen → x.saved = false → d.freezeEpoch = s.epo.epoch → s.session true session (some (id, x.inst)) = none →
      exec (.migrateSave c id session flist out_ outMax list bs ok) s = .next (s.begin.finish c stNoSession))) ∧
  (∀ (s : State) (c : Call) (session rec_ blobRegion counter : Nat) (b pt : Bytes) (m : MigSession), s.admits c 0x0406 →
    s.session false session none = some (.move m) → slice b 0x20 32 = (padTo 32 m.th).take 32 → migFormed b = true → leField b 8 1 = 1 →
    gcmOpen (m.kEst.take 32) (zeros 12) (b.take 64) ((b.drop 64).take (b.length - 80)) (b.drop (b.length - 16)) = some pt →
    leField b 0x12 2 = s.dom.chip → leField b 6 2 ≠ 0 → leField b 6 2 < 4096 → s.idFree (leField b 6 2) = true →
    s.regionOf (regionBytes * blobRegion) = some { pool := false, index := blobRegion } → s.bindable { pool := false, index := blobRegion } = true →
    leField b 0x14 4 = 0 → leField b 0x18 2 = 0 → (leField pt 0x11 1).testBit 0 = false → s.ldg.flight.isSome = true →
    ∃ t, exec (.migrateRestore c session rec_ blobRegion counter (.ok b)) s = .next t ∧
      t.stall? (leField b 6 2) = some { coreStall pt (sub24 s.epo.epoch (leField pt 0x28 3)) with version := 1 } ∧
      (t.stallData? (leField b 6 2)).map (fun d => (d.kEst, d.th, d.tenantKey, d.mrs, d.keys)) =
        some ((coreData pt).kEst, (coreData pt).th, (coreData pt).tenantKey, (coreData pt).mrs, []) ∧
      (t.entry { pool := false, index := blobRegion }).state = .zeroing ∧ (t.entry { pool := false, index := blobRegion }).owner = leField b 6 2 ∧
      t.stl.sessions = s.stl.sessions.erase m ∧ t.epo = s.epo ∧ t.rst = s.rst ∧ t.hlm = s.hlm) ∧
  (∀ (s : State) (x : MigSession),
    s.stl.sessions.find? (fun x => decide (x.since + ((s.cfg.policy.map (·.tMigSess)).getD 60) * 1000000000 ≤ s.clk.elapsed)) = some x →
    exec .migSessionExpiry s = .next { s with out := [], stl := { s.stl with sessions := s.stl.sessions.erase x } }) ∧
  (∀ s : State, s.stl.sessions.all (fun x => decide (s.clk.elapsed < x.since + ((s.cfg.policy.map (·.tMigSess)).getD 60) * 1000000000)) = true →
    exec .migSessionExpiry s = .next s.begin)

/-- Each admitted, from a Stall with a record. MEASURE_EXTEND of a program register before the lock, or of a data register after it: the
register becomes SHA-384 of its old value and the digest, EXTEND_SEQ grows by 1, the log gains the extend while it holds fewer than 64
and overflows otherwise, and the record gives the sequence number; the other registers, the Stall's keys and every other Stall stay. On
the wrong side of the lock it ends with ST_MEAS_LOCKED. MEASURE_LOCK locks once, with a leaf certificate issued, and ends with
ST_MEAS_LOCKED the second time. X2_ENABLE sets X2 before the lock and ends with ST_X2_LATE after it. X2_REPORT with X2 and the lock, and
room, writes the report body and its signatures to OUT; without X2 it ends with ST_X2_OFF, without the lock with ST_EVIDENCE. -/
def Obligations.Measurements : Prop :=
  (∀ (s : State) (c : Call) (reg kind owner : Nat) (digest : Bytes) (x : Stall) (d : StallData), s.admits c 0x0601 →
    s.stall? c.stall = some x → s.stallData? c.stall = some d → reg < 32 → 1 ≤ kind → kind ≤ 4 → digest.length = 48 →
    x.measLocked = decide (16 ≤ reg) →
    exec (.measureExtend c reg kind owner digest) s = .next (({ s with
      out := []
      stl := { s.stl with
        table := assocSet c.stall { x with extendSeq := x.extendSeq + 1, logOverflow := x.logOverflow || decide (64 ≤ d.log.length) } s.stl.table
        data := assocSet c.stall { d with
          mrs := assocSet reg (sha384 (d.mr reg ++ digest)) d.mrs
          log := if 64 ≤ d.log.length then d.log else d.log ++
            [{ seq := x.extendSeq + 1, reg, kind, owner, digest, time := s.clk.domain, unanchored := !s.clk.anchored }] } s.stl.data } } : State).finishOk c
              (leBytes 4 (x.extendSeq + 1)))) ∧
  (∀ (s : State) (c : Call) (reg kind owner : Nat) (digest : Bytes) (x : Stall) (d : StallData), s.admits c 0x0601 →
    s.stall? c.stall = some x → s.stallData? c.stall = some d → reg < 32 → 1 ≤ kind → kind ≤ 4 → x.measLocked = decide (reg < 16) →
    exec (.measureExtend c reg kind owner digest) s = .next (s.begin.finish c stMeasLocked)) ∧
  (∀ (s : State) (c : Call) (x : Stall), s.admits c 0x0602 → s.stall? c.stall = some x → x.measLocked = false → s.sbx.entropyOk = true →
    ∃ t, exec (.measureLock c) s = .next t ∧ t.stl = { s.stl with table := assocSet c.stall { x with measLocked := true } s.stl.table } ∧
      t.att = { s.att with leafs := assocSet c.stall ((assocGet c.stall s.att.leafs).getD 0 + 1) s.att.leafs } ∧ t.fresh = s.fresh + 1 ∧
      s.recorded t (c.record stOk) ∧
      t = { s with out := [], stl := t.stl, att := t.att, fresh := t.fresh, sbx := t.sbx, hlm := t.hlm, obs := t.obs, alr := t.alr }) ∧
  (∀ (s : State) (c : Call) (x : Stall), s.admits c 0x0602 → s.stall? c.stall = some x → x.measLocked = true →
    exec (.measureLock c) s = .next (s.begin.finish c stMeasLocked)) ∧
  (∀ (s : State) (c : Call) (x : Stall), s.admits c 0x0603 → s.stall? c.stall = some x → x.measLocked = false →
    exec (.x2Enable c) s = .next (({ s with
      out := [], stl := { s.stl with table := assocSet c.stall { x with x2 := true } s.stl.table } } : State).finish c stOk)) ∧
  (∀ (s : State) (c : Call) (x : Stall), s.admits c 0x0603 → s.stall? c.stall = some x → x.measLocked = true →
    exec (.x2Enable c) s = .next (s.begin.finish c stX2Late)) ∧
  (∀ (s : State) (c : Call) (nonce sigs : Bytes) (out_ outMax : Nat) (x : Stall) (d : StallData), s.admits c 0x0604 →
    s.stall? c.stall = some x → s.stallData? c.stall = some d → x.x2 = true → x.measLocked = true →
    (s.x2Body c.stall x d nonce ++ (padTo 4728 sigs).take 4728).length ≤ outMax →
    exec (.x2Report c nonce out_ outMax sigs true) s = .next (({ s with
      out := [.memWrite c.stall out_ (s.x2Body c.stall x d nonce ++ (padTo 4728 sigs).take 4728)]
      obs := s.obs.bump (ctrSbx 7) 1 } : State).finishOk c
        (leBytes 4 (s.x2Body c.stall x d nonce ++ (padTo 4728 sigs).take 4728).length))) ∧
  (∀ (s : State) (c : Call) (nonce sigs : Bytes) (out_ outMax : Nat) (ok : Bool) (x : Stall) (d : StallData), s.admits c 0x0604 →
    s.stall? c.stall = some x → s.stallData? c.stall = some d →
    (x.x2 = false → exec (.x2Report c nonce out_ outMax sigs ok) s = .next (s.begin.finish c stX2Off)) ∧
    (x.x2 = true → x.measLocked = false → exec (.x2Report c nonce out_ outMax sigs ok) s = .next (s.begin.finish c stEvidence)))

/-- STALL_EVIDENCE, admitted, of a resident Stall that has evidence, with room: the certificates are written to OUT and their length is the
result; a Stall not in the table ends with ST_EVIDENCE, a LOST or REMOVING one with ST_STALL_LOST. IDENTITY_CSR and IDENTITY_STORE,
admitted, outside PROVISION end with ST_LIFECYCLE; in PROVISION the requests are written to OUT, and up to 32 KiB of certificates become
the identity record, under a fresh nonce. SPDM_MSG with a request that asks nothing of the block's state, and room: the response is
written and its length is the result; a session opened joins the sessions held while there are fewer than eight. -/
def Obligations.EvidenceAndIdentity : Prop :=
  (∀ (s : State) (c : Call) (id out_ outMax : Nat) (certs : Bytes) (x : Stall), s.admits c 0x0605 → s.stall? id = some x →
    x.state ≠ .lost → x.state ≠ .removing → s.resident id = true → s.evidence x = true → certs.length ≤ outMax →
    exec (.stallEvidence c id out_ outMax certs true) s =
      .next (({ s with out := [.memWrite c.stall out_ certs] } : State).finishOk c (leBytes 4 certs.length))) ∧
  (∀ (s : State) (c : Call) (id out_ outMax : Nat) (certs : Bytes) (ok : Bool), s.admits c 0x0605 →
    (s.stall? id = none → exec (.stallEvidence c id out_ outMax certs ok) s = .next (s.begin.finish c stEvidence)) ∧
    (s.stallState id = .lost ∨ s.stallState id = .removing →
      exec (.stallEvidence c id out_ outMax certs ok) s = .next (s.begin.finish c stStallLost))) ∧
  (∀ (s : State) (c : Call) (out_ outMax : Nat) (csrs : Bytes), s.admits c 0x0606 → s.lcu.state = lcProvision → csrs.length ≤ outMax →
    exec (.identityCsr c out_ outMax csrs true) s = .next (({ s with
      out := [.memWrite c.stall out_ csrs], obs := s.obs.bump (ctrSbx 7) 1 } : State).finishOk c (leBytes 4 csrs.length))) ∧
  (∀ (s : State) (c : Call) (src len : Nat) (b : Bytes), s.admits c 0x0607 → s.lcu.state = lcProvision → 1 ≤ len → len ≤ 32768 →
    ∃ t, exec (.identityStore c src len (.ok b)) s = .next t ∧ t.nvm = { s.nvm with identity := some (b.take len) } ∧
      t.fresh = s.fresh + 1 ∧ s.recorded t (c.record stOk) ∧
      t = { s with out := t.out, nvm := t.nvm, fresh := t.fresh, hlm := t.hlm, obs := t.obs, alr := t.alr }) ∧
  (∀ (s : State) (c : Call) (a b : Nat) (x : Bytes) (y : BufRead) (ok : Bool), s.lcu.state ≠ lcProvision →
    (s.admits c 0x0606 → exec (.identityCsr c a b x ok) s = .next (s.begin.finish c stLifecycle)) ∧
    (s.admits c 0x0607 → exec (.identityStore c a b y) s = .next (s.begin.finish c stLifecycle))) ∧
  (∀ (s : State) (c : Call) (req n hse rsp rspMax : Nat) (q resp : Bytes), s.admits c 0x0608 → hse = 0xFF ∨ hse < s.build.hseCount →
    resp.length ≤ rspMax →
    exec (.spdmMsg c req n hse rsp rspMax (.ok q) resp .nothing true) s = .next (({ s with
      out := [.memRead c.stall req n, .memWrite c.stall rsp resp], obs := s.obs.bump (ctrHlm 5) 1 } : State).finishOk c (leBytes 4 resp.length))) ∧
  (∀ (s : State) (c : Call) (req n rsp rspMax k : Nat) (q resp : Bytes), s.admits c 0x0608 → resp.length ≤ rspMax →
    s.att.sessions.length < 8 → s.att.sessions.contains k = false → s.hse.length ≤ 0xFF →
    exec (.spdmMsg c req n 0xFF rsp rspMax (.ok q) resp (.openSession k) true) s = .next (({ s with
      out := [.memRead c.stall req n, .memWrite c.stall rsp resp], att := { s.att with sessions := s.att.sessions ++ [k] }
      obs := s.obs.bump (ctrHlm 5) 1 } : State).finishOk c (leBytes 4 resp.length)))

/-- With a bit being programmed: FUSE_PGM_DONE sets the bit in its word, asks for the word and changes nothing else. With its word asked
for: FUSE_READ_RETURN showing the bit takes up the next bit that still reads 0; a word that does not show it has the bit programmed once
more. FUSE_PGM_ERR of a bit that has not failed, outside DRK_GENERATE, programs it once more. FUSE_PGM_ERR of a bit that failed before,
or under DRK_GENERATE, and FUSE_PORT_TIMEOUT 100 us after a programming request or 1 us after a read request, are tamper-class events:
TAMPER, Safe Stop and rst_req are set, every key slot, tile cache and the root are cleared, the anchor is not valid, the programming is
given up, and a transition it served ends with XFAIL. A word read for the TAP is shifted out. -/
def Obligations.FusePortAnswers : Prop :=
  (∀ (s : State) (j : FuseJob) (w b : Nat) (rest : List (Nat × Nat)), s.lcu.job = some j → j.stage = 1 → j.bits = (w, b) :: rest →
    exec .fusePgmDone s = .next { s with
      out := [.fuseRd w]
      lcu := { s.lcu with
        fuses := assocSet w (s.lcu.fuse w ||| 2 ^ b) s.lcu.fuses
        job := some { j with stage := 2, since := s.clk.elapsed } } }) ∧
  (∀ (s : State) (j : FuseJob) (w b w2 b2 data : Nat) (rest more : List (Nat × Nat)), s.lcu.job = some j → j.stage = 2 →
    j.bits = (w, b) :: rest → data.testBit b = true → s.lcu.missing rest = (w2, b2) :: more →
    exec (.fuseReadReturn data) s = .next { s with
      out := [.fusePgm w2 b2]
      lcu := { s.lcu with job := some { j with bits := (w2, b2) :: more, stage := 1, retried := false, since := s.clk.elapsed } } }) ∧
  (∀ (s : State) (i : Instr) (j : FuseJob) (w b data : Nat) (rest : List (Nat × Nat)), s.lcu.job = some j → j.bits = (w, b) :: rest →
    j.retried = false → j.forDrk = false →
    (i = .fusePgmErr ∧ j.stage = 1) ∨ (i = .fuseReadReturn data ∧ j.stage = 2 ∧ data.testBit b = false) →
    exec i s = .next { s with
      out := [.fusePgm w b]
      lcu := { s.lcu with job := some { j with stage := 1, retried := true, since := s.clk.elapsed } } }) ∧
  (∀ (s : State) (i : Instr) (j : FuseJob) (w b : Nat) (rest : List (Nat × Nat)), s.lcu.job = some j → j.bits = (w, b) :: rest →
    (i = .fusePgmErr ∧ j.stage = 1 ∧ (j.retried = true ∨ j.forDrk = true)) ∨
      (i = .fusePortTimeout ∧ j.stage = 1 ∧ j.since + 100000 ≤ s.clk.elapsed) ∨
      (i = .fusePortTimeout ∧ j.stage = 2 ∧ j.since + 1000 ≤ s.clk.elapsed) →
    ∃ t, exec i s = .next t ∧ t.alr.tamper = true ∧ t.alr.safeStop = true ∧ t.rst.rstReq = true ∧ t.sbx.slots = [] ∧ t.sbx.tiles = [] ∧
      t.sbx.root = [] ∧ t.sbx.zeroNet = true ∧ t.ldg.anchor.valid = false ∧ t.lcu.fuses = s.lcu.fuses ∧ t.lcu.job = none ∧
      t.lcu.xfail = (s.lcu.xfail || (decide (j.goal = .lifecycle) && s.lcu.transition.isSome)) ∧ t.clk = s.clk ∧ t.epo = s.epo ∧ t.nvm = s.nvm) ∧
  (∀ (s : State) (w data : Nat), s.lcu.job = none → s.lcu.tapRead = some w →
    exec (.fuseReadReturn data) s = .next { s with out := [.tap (leBytes 4 data)], lcu := { s.lcu with tapRead := none } })

/-- Each admitted. DRK_GENERATE in PROVISION with bank 1 empty and not complete, and random bits: two draws are taken, and the bits of the
two shares, of the check word and of the COMPLETE bit of the selected bank (0 if empty, else 1) that read 0 are programmed, the first
one at once; in another state, or with bank 1 used, ST_LIFECYCLE with DETAIL 1. SVN_ADVANCE in full mode programs the lowest clear bits
that the counters of the Almanac and of the patches lack, and completes at once where none is lacking; outside full mode ST_HARBOUR.
PATCH_STAGE with room reads the patch: one that passes its checks is staged and its count returned, one that fails ends with ST_PATCH
and its DETAIL; with 8 staged, ST_PATCH_FULL. PATCH_COMMIT begins a core reset: its cause bit, its count and its time are recorded, the
command is kept for its record after it, waits of Marks end, and no record is written yet. -/
def Obligations.ProvisionAndPatch : Prop :=
  (∀ (s : State) (c : Call) (bank : Nat), s.admits c 0x0207 → s.lcu.state = lcProvision → s.lcu.bankEmpty 1 = true →
    s.lcu.bankComplete 1 = false → s.sbx.entropyOk = true → s.lcu.job = none → s.lcu.jobs = [] →
    bank = (if s.lcu.bankEmpty 0 then 0 else 1) → s.lcu.bankComplete bank = false →
    ∃ t, exec (.drkGenerate c) s = .next t ∧
      (let a := s.drawn 32
       let b := s.tookDraw.drawn 32
       let w := bankWord bank
       let bits := s.lcu.missing (bytesBits w a ++ bytesBits (w + 8) b ++ bytesBits (w + 16) (drkCheck (xorBytes a b)) ++ [(0x3E, bank)])
       t.lcu = { s.lcu with job := some { goal := .drk bank c, bits, stage := 1, retried := false, since := s.clk.elapsed } } ∧
       t.out = (bits.head?.map fun p => Out.fusePgm p.1 p.2).toList) ∧
      t.fresh = s.fresh + 2 ∧ t = { s with out := t.out, lcu := t.lcu, fresh := t.fresh, sbx := t.sbx, obs := t.obs }) ∧
  (∀ (s : State) (c : Call), s.admits c 0x0207 → s.lcu.job = none → s.lcu.jobs = [] →
    s.lcu.state ≠ lcProvision ∨ s.lcu.bankEmpty 1 = false ∨ s.lcu.bankComplete 1 = true →
    exec (.drkGenerate c) s = .next (s.begin.finishDetail c stLifecycle 1)) ∧
  (∀ (s : State) (c : Call), s.admits c 0x0A02 → s.lcu.job = none → s.lcu.jobs = [] → s.ald.full = false →
    exec (.svnAdvance c) s = .next (s.begin.finish c stHarbour)) ∧
  (∀ (s : State) (c : Call), s.admits c 0x0A02 → s.lcu.job = none → s.lcu.jobs = [] → s.rst.coreDeferred = none → s.ald.full = true →
    s.lcu.svnBits 4 s.cfg.almSvn ++ s.lcu.svnBits 6 s.cfg.patchSvn = [] → exec (.svnAdvance c) s = .next (s.begin.finish c stOk)) ∧
  (∀ (s : State) (c : Call) (w b : Nat) (more : List (Nat × Nat)), s.admits c 0x0A02 → s.lcu.job = none → s.lcu.jobs = [] →
    s.ald.full = true → s.lcu.svnBits 4 s.cfg.almSvn ++ s.lcu.svnBits 6 s.cfg.patchSvn = (w, b) :: more →
    exec (.svnAdvance c) s = .next { s with
      out := [.fusePgm w b]
      lcu := { s.lcu with job := some { goal := .svn c, bits := (w, b) :: more, stage := 1, retried := false, since := s.clk.elapsed } } }) ∧
  (∀ (s : State) (c : Call) (src len : Nat) (buf : BufRead) (sigOk : Bool), s.admits c 0x0102 → 8 ≤ s.hlm.staged.length ∨ 131072 < len →
    exec (.patchStage c src len buf sigOk) s =
      .next (if 8 ≤ s.hlm.staged.length then s.begin.finish c stPatchFull else s.begin.finishDetail c stPatch 1)) ∧
  (∀ (s : State) (c : Call) (src len : Nat) (b : Bytes) (sigOk : Bool), s.admits c 0x0102 → s.hlm.staged.length < 8 → len ≤ 131072 →
    s.patchRefusal b sigOk = none →
    ∃ t, exec (.patchStage c src len (.ok b) sigOk) s = .next t ∧ t.out = [.memRead 0 src len] ∧
      s.recorded t { c.record stOk with result := leBytes 1 (s.hlm.staged.length + 1) } ∧ t.hlm.staged = s.hlm.staged ++ [patchOf b] ∧
      t = { s with out := t.out, hlm := t.hlm, obs := t.obs, alr := t.alr }) ∧
  (∀ (s : State) (c : Call) (src len d : Nat) (b : Bytes) (sigOk : Bool), s.admits c 0x0102 → s.hlm.staged.length < 8 → len ≤ 131072 →
    s.patchRefusal b sigOk = some d →
    ∃ t, exec (.patchStage c src len (.ok b) sigOk) s = .next t ∧ t.out = [.memRead 0 src len] ∧
      s.recorded t { c.record stPatch with detail := d } ∧ t.hlm.staged = s.hlm.staged ∧
      t = { s with out := t.out, hlm := t.hlm, obs := t.obs, alr := t.alr }) ∧
  (∀ (s : State) (c : Call), s.admits c 0x0103 → s.rst.patchCall ≠ some c → s.lcu.job = none → s.lcu.jobs = [] → s.lcu.transition = none →
    s.tol.running = none →
    ∃ t, exec (.patchCommit c) s = .next t ∧
      t.rst = { s.rst with
        patchCall := some c, coreReset := some s.clk.elapsed, coreDeferred := none, cause := setBit s.rst.cause causeCorePatch
        coreCount := satAdd 255 s.rst.coreCount 1 } ∧
      t.mrk.waits = [] ∧ t.hlm.cwq = s.hlm.cwq ∧ t.hlm.dwDone = false ∧ t.hlm.staged = s.hlm.staged ∧ t.hlm.applied = s.hlm.applied ∧
      t.att.sessions = [] ∧ t.dom.parts = [] ∧ t.sbx.slots = s.sbx.slots ∧ t.stl = s.stl ∧ t.ldg = s.ldg ∧ t.epo = s.epo ∧ t.mse = s.mse ∧
      t.lse = s.lse ∧ t.hse = s.hse ∧ t.nvm = s.nvm ∧ t.lcu = s.lcu ∧ t.clk = { s.clk with tickWork := none })

/-- LC_TRANSITION, admitted through the window, and LC_REQ, in a state where it acts, for a target with a JOURNAL bit still 0, that no check
refuses and whose AUTH is well formed: the transition stands in phase 1 with its source and AUTH, and its JOURNAL bit is being
programmed; a signed target reads its signatures first. A refused request keeps DETAIL, raises EV_LC_REFUSED and draws a NONCE; the
window command ends with ST_LIFECYCLE and that DETAIL. In phase 2, NVM_ERASE_DONE erases the sector in hand, counts it and asks for the
next one. LC_TRANSITION_RESUME begins the wipe of a resumed transition without a new zeroize pass: the first sector that is not blank is
erased, the anchor cleared where the target clears it. Programming the last bit of phase 3 decodes the words again: where they give the
target, the state is taken, EV_LC_DONE raised, the TAP set to IDCODE, a NONCE drawn, and rst_req set unless the target is TEST_OPEN or
KEYFUSE. NVM_ERASE_DONE for the Journal opens the sector and writes the record that waited. -/
def Obligations.LifecycleTransitions : Prop :=
  (∀ (s : State) (c : Call) (target b : Nat) (auth : Bytes) (buf : Bytes) (sigOk idOk : Bool), s.admits c 0x0B01 → s.lcu.transition = none →
    s.lcu.job = none → (lcRow s.lcu.state target).isSome = true → authFormed s.lcu.state target auth = true →
    s.lcRefusal target auth false sigOk idOk = none → lcJournalBit target = some b → (s.lcu.fuse 1).testBit b = false →
    exec (.lcTransition c target auth (.ok buf) sigOk idOk) s = .next { s with
      out := (if lcSigned target then [Out.memRead 0 (leField auth 0 8) 4728] else []) ++ [.fusePgm 1 b]
      lcu := { s.lcu with
        tapOrigin := false
        transition := some
          { target, source := s.lcu.state, phase := 1, viaTap := false, call := some c, resumed := false, since := s.clk.elapsed, sectors := 0
            erases := [], auth }
        job := some { goal := .lifecycle, bits := [(1, b)], stage := 1, retried := false, since := s.clk.elapsed } } }) ∧
  (∀ (s : State) (c : Call) (target d : Nat) (auth buf : Bytes) (sigOk idOk : Bool), s.admits c 0x0B01 → s.lcu.transition = none →
    (lcRow s.lcu.state target).isSome = true → authFormed s.lcu.state target auth = true → s.lcRefusal target auth false sigOk idOk = some d →
    ∃ t, exec (.lcTransition c target auth (.ok buf) sigOk idOk) s = .next t ∧ t.lcu.detail = d ∧ t.lcu.transition = none ∧
      t.lcu.nonce = s.drawn 32 ∧ t.fresh = s.fresh + 1 ∧ t.lcu.state = s.lcu.state ∧ t.lcu.fuses = s.lcu.fuses ∧
      t.hlm.fifo = (s.event evLcRefused unitLifecycle none target d).hlm.fifo ∧ s.recorded t { c.record stLifecycle with detail := d } ∧
      t = { s with out := t.out, hlm := t.hlm, obs := t.obs, alr := t.alr, lcu := t.lcu, fresh := t.fresh }) ∧
  (∀ (s : State) (target b : Nat) (auth : Bytes), s.rst.phase ≠ .inReset → tapActs 0x12 s.lcu.state = true → s.lcu.transition = none →
    s.lcu.job = none → lcJournalBit target = some b → s.lcRefusal target auth true false false = none →
    authFormed s.lcu.state target auth = true → (s.lcu.fuse 1).testBit b = false →
    exec (.lcReq target auth false) s = .next { s with
      out := [.fusePgm 1 b]
      lcu := { s.lcu with
        tapIr := 0x12
        tapOrigin := true
        transition := some
          { target, source := s.lcu.state, phase := 1, viaTap := true, call := none, resumed := false, since := s.clk.elapsed, sectors := 0
            erases := [], auth }
        job := some { goal := .lifecycle, bits := [(1, b)], stage := 1, retried := false, since := s.clk.elapsed } } }) ∧
  (∀ (s : State) (target d : Nat) (auth : Bytes), s.rst.phase ≠ .inReset → tapActs 0x12 s.lcu.state = true → s.lcu.transition = none →
    s.lcRefusal target auth true false false = some d →
    exec (.lcReq target auth false) s = .next { (s.event evLcRefused unitLifecycle none target d) with
      out := []
      lcu := { s.lcu with tapIr := 0x12, tapOrigin := true, detail := d, nonce := s.drawn 32 }
      fresh := s.fresh + 1 }) ∧
  (∀ (s : State) (x : Transition) (k k2 : Nat) (rest : List Nat), s.lcu.transition = some x → x.phase = 2 → x.erases = k :: k2 :: rest →
    exec .nvmEraseDone s = .next { s with
      out := [.nvmErase k2]
      nvm := s.nvm.erase k
      lcu := { s.lcu with transition := some { x with erases := k2 :: rest, sectors := satAdd 2047 x.sectors 1 } } }) ∧
  (∀ (s : State) (x : Transition) (k : Nat) (rest : List Nat), s.lcu.transition = some x → x.resumed = true → x.phase = 0 →
    (wipeRange x.source x.target).filter s.nvm.used = k :: rest → s.lcu.job = none → s.lcu.jobs = [] →
    exec .lcTransitionResume s = .next { (if lcClearsAnchor x.target then s.clearAnchor else s) with
      out := [.nvmErase k]
      lcu := { s.lcu with transition := some { x with phase := 2, erases := k :: rest } } }) ∧
  (∀ (s : State) (x : Transition) (j : FuseJob) (w b data want : Nat), s.lcu.transition = some x → x.phase = 3 → x.resumed = false →
    s.lcu.job = some j → s.lcu.jobs = [] → j.goal = .lifecycle → j.stage = 2 → j.bits = [(w, b)] → data.testBit b = true →
    want = (if x.target = lcKeyfuse then lcProvision else x.target) → s.lcu.decode = .state want → s.rst.coreDeferred = none →
    ∃ t, exec (.fuseReadReturn data) s = .next t ∧ t.lcu.state = want ∧ t.lcu.tapIr = 1 ∧ t.lcu.job = none ∧ t.lcu.nonce = s.drawn 32 ∧
      t.rst = { s.rst with rstReq := s.rst.rstReq || !decide (x.target = lcTestOpen ∨ x.target = lcKeyfuse) } ∧
      t.lcu.transition = (if x.target = lcTestOpen ∨ x.target = lcKeyfuse then none else some { x with phase := 5 }) ∧
      t.hlm.fifo = (s.event evLcDone unitLifecycle none x.target ((s.clk.elapsed - x.since) / 1000000)).hlm.fifo ∧
      (x.call.isSome = true → t.hlm.dwDone = true ∧ t.hlm.dwBusy = false ∧ t.hlm.dwStatus = stOk) ∧
      t = { s with out := t.out, hlm := t.hlm, lcu := t.lcu, rst := t.rst, fresh := t.fresh }) ∧
  (∀ (s : State) (k index seq headSeq : Nat) (b : JournalBody) (old : List JournalSector), s.lcu.transition = none →
    s.nvm.journalErase = some k → s.nvm.journalQueue = [b] → old = s.nvm.journal.filter (fun x => x.index ≠ k) →
    (index, seq) = ({ s.nvm with journal := old } : Nvm).nextSector → headSeq = ({ s.nvm with journal := old } : Nvm).nextSeq →
    old.any (fun x => decide (x.index = (index + 1) % 512)) = false → index < 512 →
    ∃ t, exec .nvmEraseDone s = .next t ∧
      t.nvm = { s.nvm with
        journalErase := none, journalQueue := [], journalStale := s.nvm.journalStale.filter (fun i => i ≠ k)
        journal := old ++ [{ index, seq, headSeq, records := [{ seq := headSeq + 1, body := b }] }] } ∧
      t.out.length = 2 ∧ t.fresh = s.fresh + 2 ∧ t = { s with out := t.out, nvm := t.nvm, fresh := t.fresh })

/-- ALMANAC_LOAD while the block waits in the load. Where no image passes: the no-Almanac state with the code of the last rejection,
rst_busy 0. Where one passes and random bits are to be had, with no Safe Stop held and no programming: its configuration is applied,
DONE, its slot and FALLBACK are as picked, rst_busy is 0 and Stall 0 is KEYED; the boot key is the first slot of the Block class; no
record, no epoch change. Without random bits the load waits. Outside the load nothing happens. ALMANAC_UPDATE, admitted: PHASE 0 erases
the idle slot; PHASE 1 of inline data writes it there; PHASE 2 answers ST_OK for an image that passes its checks, and ST_ALMANAC with
the code of the check that fails; PHASE 1 or 2 before PHASE 0 is ST_PARAM. -/
def Obligations.AlmanacLoadAndUpdate : Prop :=
  (∀ (s : State) (sigA sigB : ImageSigs) (nvmOk sdr : Bool) (sigs : Bytes), s.loadable = true →
    (s.pickImage sigA sigB nvmOk).image = none →
    exec (.almanacLoad sigA sigB nvmOk sdr sigs) s = .next { s with
      out := []
      ald := { s.ald with
        noAlmanac := true, fallback := (s.pickImage sigA sigB nvmOk).fallback, rejectCause := (s.pickImage sigA sigB nvmOk).cause, sdrOnly := sdr }
      rst := { s.rst with phase := .service, rstBusy := false } }) ∧
  (∀ (s : State) (sigA sigB : ImageSigs) (nvmOk sdr : Bool) (sigs : Bytes), s.loadable = true →
    (s.pickImage sigA sigB nvmOk).image.isSome = true → s.sbx.entropyOk = false →
    exec (.almanacLoad sigA sigB nvmOk sdr sigs) s = .next s.begin) ∧
  (∀ (s : State) (sigA sigB : ImageSigs) (nvmOk sdr slotB : Bool) (sigs : Bytes) (r : LoadResult) (c : Cfg), s.loadable = true →
    s.pickImage sigA sigB nvmOk = r → r.image = some (c, slotB) → s.sbx.entropyOk = true → s.alr.safeStop = false → s.lcu.job = none →
    s.lcu.jobs = [] → s.rst.coreDeferred = none →
    ∃ t, exec (.almanacLoad sigA sigB nvmOk sdr sigs) s = .next t ∧ t.cfg = c ∧ t.ald.done = true ∧ t.ald.slotB = slotB ∧
      t.ald.fallback = r.fallback ∧ t.ald.sdrOnly = sdr ∧ t.ald.full = s.ald.full ∧ t.ald.integratorChecked = !s.integratorOpen ∧
      t.rst = { s.rst with phase := .service, rstBusy := false } ∧ (t.stall? 0).map (·.state) = some .keyed ∧
      (assocGet 0 t.sbx.slots).map (fun k => (k.handle, k.pinned, k.cls)) = some (bootHandle, true, .block) ∧ t.hlm.cwq = s.hlm.cwq ∧
      t.epo = s.epo ∧ t.mse = s.mse ∧ t.lse = s.lse ∧ t.hse = s.hse ∧ t.clk = s.clk) ∧
  (∀ (s : State) (sigA sigB : ImageSigs) (nvmOk sdr : Bool) (sigs : Bytes), s.loadable = false →
    exec (.almanacLoad sigA sigB nvmOk sdr sigs) s = .next s.begin) ∧
  (∀ (s : State) (c : Call) (a b d e : Nat) (data : Bytes) (buf : BufRead) (sigs : ImageSigs), s.admits c 0x0A01 →
    ∃ t, exec (.almanacUpdate c 0 a b d e data buf sigs) s = .next t ∧
      t.out = (sectors (if s.idleSlotB then 0x400 else 0) (if s.idleSlotB then 0x7FF else 0x3FF)).map Out.nvmErase ∧
      t.nvm = (if s.idleSlotB then { s.nvm with slotB := [] } else { s.nvm with slotA := [] }) ∧
      t.ald = { s.ald with updErased := some s.idleSlotB, updWritten := [] } ∧ s.recorded t (c.record stOk) ∧
      t = { s with out := t.out, hlm := t.hlm, obs := t.obs, alr := t.alr, nvm := t.nvm, ald := t.ald }) ∧
  (∀ (s : State) (c : Call) (offset len src : Nat) (data : Bytes) (buf : BufRead) (sigs : ImageSigs) (toB : Bool), s.admits c 0x0A01 →
    s.ald.updErased = some toB → len ≤ 128 → offset + len ≤ 0x400000 →
    s.ald.updWritten.any (fun w => decide (offset < w.1 + w.2 ∧ w.1 < offset + len)) = false → data.length = len →
    ∃ t, exec (.almanacUpdate c 1 1 offset len src data buf sigs) s = .next t ∧
      t.out = [.nvmWrite ((if toB then 0x400000 else 0) + offset) data] ∧
      t.nvm = (if toB then { s.nvm with slotB := writeAt s.nvm.slotB offset data } else { s.nvm with slotA := writeAt s.nvm.slotA offset data }) ∧
      t.ald = { s.ald with updWritten := s.ald.updWritten ++ [(offset, len)] } ∧ s.recorded t (c.record stOk) ∧
      t = { s with out := t.out, hlm := t.hlm, obs := t.obs, alr := t.alr, nvm := t.nvm, ald := t.ald }) ∧
  (∀ (s : State) (c : Call) (phase inline_ offset len src : Nat) (data : Bytes) (buf : BufRead) (sigs : ImageSigs), s.admits c 0x0A01 →
    1 ≤ phase → s.ald.updErased = none →
    exec (.almanacUpdate c phase inline_ offset len src data buf sigs) s = .next (s.begin.finishDetail c stParam 0x30)) ∧
  (∀ (s : State) (c : Call) (inline_ offset len src : Nat) (b data : Bytes) (buf : BufRead) (sigs : ImageSigs) (toB : Bool), s.admits c 0x0A01 →
    s.ald.updErased = some toB → b = (if toB then s.nvm.slotB else s.nvm.slotA) →
    exec (.almanacUpdate c 2 inline_ offset len src data buf sigs) s = .next
      (if s.candidacy b ≠ 0 then s.begin.finishDetail c stAlmanac (s.candidacy b)
       else match s.fullChecks b sigs with
         | .ok _ => s.begin.finish c stOk
         | .error e => s.begin.finishDetail c stAlmanac e))

/-- TRAINING_DONE, admitted. Without the memory flag, or once restored, it only sets the flags and completes. With the memory flag, a valid
anchor and no unfinished removal in the Journal: where the chain reaches the anchor's root under the same DRK, the epoch resumes at the
anchor's at every MSE, entries and versions are those of the store, every Stall of the records returns spilled, and one whose record
does not match becomes LOST with cause 3; RESTORED is set and the command completes. Where the chain fails: EV_ANCHOR_FAIL, every Stall
but Stall 0 is LOST with cause 4, no Mark remains anchored, RESTORED is set. Without a valid anchor and with random bits the store is
formatted: a fresh STORE_ID under this DRK, Stall 0 with fresh INSTANCE and one Harbour REGION key, a base begun. Without random bits
the command waits. -/
def Obligations.TrainingDone : Prop :=
  (∀ (s : State) (c : Call) (flags : Nat) (rootOk : Bool) (bad : List Nat), s.admits c 0x0A04 →
    flags.testBit 0 = false ∨ s.ald.restored = true ∨ s.ldg.restoring = true →
    exec (.trainingDone c flags rootOk bad) s = .next (({ s with
      out := []
      ald := { s.ald with
        memTrained := s.ald.memTrained || flags.testBit 0, linksTrained := s.ald.linksTrained || flags.testBit 1 } } : State).finish c stOk)) ∧
  (∀ (s : State) (c : Call) (flags : Nat) (bad : List Nat), s.admits c 0x0A04 → flags.testBit 0 = true → s.ald.restored = false →
    s.ldg.restoring = false → s.ldg.anchor.valid = true → s.nvm.removals = [] → s.ldg.storeRoot = s.sbx.root →
    ∃ t, exec (.trainingDone c flags true bad) s = .next t ∧ t.ald.restored = true ∧ t.ald.memTrained = true ∧ t.ldg.storeOk = true ∧
      t.epo.epoch = s.ldg.anchor.epoch ∧ t.mse.all (fun m => decide (m.epoch = s.ldg.anchor.epoch)) = true ∧
      t.ldg.versions = s.ldg.store.versions ∧ t.ldg.poolEntries = s.ldg.store.poolEntries ∧ t.ldg.anchor = s.ldg.anchor ∧ t.stl.slots = [] ∧
      t.stl.table.map (·.1) = (s.stl.records.filter fun p => p.2.1.state ≠ .free).map (·.1) ∧
      t.mrk.dir = s.mrk.anchored ∧ s.recorded t (c.record stOk) ∧ t.fresh = s.fresh ∧ t.nvm = s.nvm ∧ t.lcu = s.lcu ∧ t.rst = s.rst) ∧
  (∀ (s : State) (c : Call) (flags id : Nat) (bad : List Nat) (x : Stall) (d : StallData), s.admits c 0x0A04 → flags.testBit 0 = true →
    s.ald.restored = false → s.ldg.restoring = false → s.ldg.anchor.valid = true → s.nvm.removals = [] → s.ldg.storeRoot = s.sbx.root →
    s.stl.records = [(id, x, d)] → id ≠ 0 → x.state ≠ .free → bad.contains id = true →
    ∃ t, exec (.trainingDone c flags true bad) s = .next t ∧ t.stall? id = some { x with state := .lost, lostCause := 3 } ∧
      s.recorded t (c.record stOk) ∧ t.mse.all (fun m => m.spine.refused.contains id) = true) ∧
  (∀ (s : State) (c : Call) (flags : Nat) (rootOk : Bool) (bad : List Nat), s.admits c 0x0A04 → flags.testBit 0 = true →
    s.ald.restored = false → s.ldg.restoring = false → s.ldg.anchor.valid = true → rootOk = false ∨ s.ldg.storeRoot ≠ s.sbx.root →
    ∃ t, exec (.trainingDone c flags rootOk bad) s = .next t ∧ t.ald.restored = true ∧ t.epo.epoch = s.ldg.anchor.epoch ∧
      t.stl.table = ((s.stl.records.filter fun p => p.2.1.state ≠ .free).map fun p =>
        (p.1, if p.1 = 0 then p.2.1 else { p.2.1 with state := .lost, lostCause := 4 })) ∧
      t.stl.slots = [] ∧ t.mrk.anchored = [] ∧ t.hlm.fifo = (s.event evAnchorFail unitLedger none s.ldg.anchor.seq 0).hlm.fifo ∧
      s.recorded t (c.record stOk) ∧ t.nvm = s.nvm ∧ t.lcu = s.lcu ∧ t.rst = s.rst) ∧
  (∀ (s : State) (c : Call) (flags : Nat) (rootOk : Bool) (bad : List Nat), s.admits c 0x0A04 → flags.testBit 0 = true →
    s.ald.restored = false → s.ldg.restoring = false → s.ldg.anchor.valid = false →
    s.sbx.entropyOk = false → exec (.trainingDone c flags rootOk bad) s = .next { s with
      out := []
      ald := { s.ald with memTrained := true, linksTrained := s.ald.linksTrained || flags.testBit 1 } }) ∧
  (∀ (s : State) (c : Call) (flags : Nat) (rootOk : Bool) (bad : List Nat), s.admits c 0x0A04 → flags.testBit 0 = true →
    s.ald.restored = false → s.ldg.restoring = false → s.ldg.anchor.valid = false → s.sbx.entropyOk = true →
    ∃ t, exec (.trainingDone c flags rootOk bad) s = .next t ∧ t.ldg.storeId = s.drawn 8 ∧ t.ldg.storeRoot = s.sbx.root ∧
      t.ldg.storeOk = true ∧ t.ldg.restoring = true ∧ t.ald.restored = false ∧
      (t.stall? 0).map (fun x => (x.state, x.inst, x.nextSerial)) = some (.keyed, s.tookDraw.drawn 16, 1) ∧
      (t.stallData? 0).map (fun d => d.keys.map (·.handle)) = some [0x00010000] ∧ s.recorded t (c.record stOk) ∧ t.nvm = s.nvm ∧
      t.lcu = s.lcu ∧ t.rst = s.rst)

/-- SETTINGS_SAVE, admitted: what is staged replaces the records of its entities in the Settings, all of it stands in the copy with the
lower SEQ, which then is current, nothing stays staged, the other copy stays, ST_OK. SETTINGS_REPAIR_WRITE in service with a repair to
write: the KIND 3 record of the Chart's field repairs stands in the new current copy and no write is due. METER_READ, admitted, of a
Stall with a reading and with room: the first execution queues it; the next one, outside a reset of the Steelyard, delivers the reading
with its signatures to OUT, counts it and completes with its length; the reading is SHORT without room, and ST_PARAM for a Stall without
a reading. -/
def Obligations.SettingsAndMeter : Prop :=
  (∀ (s : State) (c : Call), s.admits c 0x0A03 →
    ∃ t, exec (.settingsSave c) s = .next t ∧
      t.settings = s.ald.stagedKeys.foldl (fun l (k : Nat × Nat) =>
        putSettings { kind := k.1, index := k.2, data := s.stagedData k.1 k.2 } l) s.settings ∧
      t.ald.staged = [] ∧ t.ald.settingsOk = true ∧ t.ald.setCopyB = decide (s.copySeq s.nvm.settingsB < s.copySeq s.nvm.settingsA) ∧
      (if t.ald.setCopyB then t.nvm = { s.nvm with settingsB := t.nvm.settingsB } else t.nvm = { s.nvm with settingsA := t.nvm.settingsA }) ∧
      (if t.ald.setCopyB then t.copySeq t.nvm.settingsB else t.copySeq t.nvm.settingsA) =
        max (s.copySeq s.nvm.settingsA) (s.copySeq s.nvm.settingsB) + 1 ∧
      s.recorded t (c.record stOk) ∧ t.cht = s.cht ∧ t.cfg = s.cfg ∧ t.lcu = s.lcu ∧ t.sbx = s.sbx ∧ t.stl = s.stl) ∧
  (∀ (s : State) (since : Nat), s.ald.repairDue = some since → s.serving → s.rst.coreReset = none →
    ∃ t, exec .settingsRepairWrite s = .next t ∧ t.settings = putSettings { kind := 3, index := 0, data := s.repairBytes } s.settings ∧
      t.ald.repairDue = none ∧ t.ald.staged = s.ald.staged ∧ t.cht = s.cht ∧
      t = { s with out := t.out, nvm := t.nvm, ald := t.ald, fresh := t.fresh }) ∧
  (∀ (s : State) (c : Call) (stall out_ outMax : Nat) (sig : Bytes) (ok : Bool), s.admits c 0x0C03 → (s.meterReading stall).isSome = true →
    7648 ≤ outMax → s.sty.queue.contains c = false → s.sty.queue.length < 16 → s.inUnitReset unitSteelyard = false →
    exec (.meterRead c stall out_ outMax sig ok) s = .next { s with out := [], sty := { s.sty with queue := s.sty.queue ++ [c] } }) ∧
  (∀ (s : State) (c : Call) (stall out_ outMax : Nat) (sig : Bytes) (r : Reading) (final : Bool), s.admits c 0x0C03 →
    s.meterReading stall = some (r, final) → 7648 ≤ outMax → s.sty.queue.contains c = true → s.styHeld = false → s.sty.keyFailed = false →
    s.lcu.state ≠ lcDeployed ∨ (s.lcu.fuse 0xF2).testBit 0 = true → sig.length = 4728 →
    ∃ t, exec (.meterRead c stall out_ outMax sig true) s = .next t ∧ t.out = [.memWrite c.stall out_ (s.readingBytes r final ++ sig)] ∧
      t.sty = { s.sty with queue := s.sty.queue.erase c, readings := satAdd 65535 s.sty.readings 1 } ∧
      s.recorded t { c.record stOk with result := leBytes 4 7648 } ∧
      t = { s with out := t.out, hlm := t.hlm, obs := t.obs, alr := t.alr, sty := t.sty }) ∧
  (∀ (s : State) (c : Call) (stall out_ outMax : Nat) (sig : Bytes) (ok : Bool), s.admits c 0x0C03 → s.meterReading stall = none →
    exec (.meterRead c stall out_ outMax sig ok) s = .next (s.begin.finishDetail c stParam 0x30)) ∧
  (∀ (s : State) (c : Call) (stall out_ outMax : Nat) (sig : Bytes) (ok : Bool), s.admits c 0x0C03 → (s.meterReading stall).isSome = true →
    outMax < 7648 → exec (.meterRead c stall out_ outMax sig ok) s = .next (s.begin.complete { c.record stShort with result := leBytes 4 7648 }))

/-- POWER_ON_RESET: the block is in reset with rst_busy 1 and POR set (with LOAD_RESTART where it ends a load); elapsed time is 0; every
key, tile copy, Stall, record, counter, command and alarm entry is gone and the anchor is not valid; fuses, the NVM device's content,
the build and the waiting commands stay. SYSTEM_RESET outside P and S: the same, but elapsed time, the alarm log, CORE_COUNT, the
anchor, the store and the Stall records stay, the epoch is the anchor's where that is valid and 0 else, SYS is set and SYS_COUNT and
ZEROIZE_COUNT are one higher. RESET_RELEASE in reset with clkc_good 0 or pclk stopped sets EARLY_RELEASE and leaves the block in reset.
With both good, quiet inputs and fuses that decode to a state: SCRAP or INVALID clear rst_busy and rst_req; with good trims and a good
DRK check another state but ANALYSIS goes on in the load with that state, a drawn NONCE, the trims' repairs, and the selected DRK, or
the test DRK of zeros where the state gives none. -/
def Obligations.ResetsAndRelease : Prop :=
  (∀ s : State,
    ∃ t, exec .powerOnReset s = .next t ∧ t.rst.phase = .inReset ∧ t.rst.rstBusy = true ∧ t.rst.rstReq = false ∧ t.rst.level = .p ∧
      t.rst.cause = (if s.rst.phase = .loading ∧ s.rst.rstBusy = true then 0x21 else 1) ∧ t.rst.sysCount = 0 ∧ t.clk.elapsed = 0 ∧
      t.sbx.slots = [] ∧ t.sbx.tiles = [] ∧ t.sbx.root = [] ∧ t.sbx.zeroNet = false ∧ t.lse.all (fun l => l.tx.key.isEmpty && l.secret.isEmpty) = true ∧
      t.hse.all (fun h => h.keys.isEmpty) = true ∧ t.ldg.anchor.valid = false ∧ t.stl.table = [] ∧ t.stl.records = [] ∧ t.alr.log = [] ∧
      t.alr.quiet = false ∧ t.obs.counters = [] ∧ t.hlm.buffer = [] ∧ t.hlm.running = [] ∧ t.epo.epoch = 0 ∧
      t.nvm = { s.nvm with journalQueue := [], journalErase := none } ∧ t.lcu.fuses = s.lcu.fuses ∧ t.build = s.build ∧ t.fresh = s.fresh ∧
      t.pending = s.pending) ∧
  (∀ s : State, s.pins.porN = true → s.rst.phase ≠ .inReset ∨ s.pins.sysN = true →
    ∃ t, exec .systemReset s = .next t ∧ t.rst.phase = .inReset ∧ t.rst.rstBusy = true ∧ t.rst.level = .s ∧ t.rst.lastS = true ∧
      t.rst.sysCount = satAdd 255 s.rst.sysCount 1 ∧ t.rst.coreCount = s.rst.coreCount ∧ t.rst.cause.getLsbD causeSys = true ∧
      t.rst.cause.getLsbD causeSysAfterTamper = (s.alr.tamper || s.rst.cause.getLsbD causeSysAfterTamper) ∧ t.clk.elapsed = s.clk.elapsed ∧
      t.sbx.slots = [] ∧ t.sbx.tiles = [] ∧ t.sbx.root = [] ∧ t.sbx.zeroizeCount = satAdd 65535 s.sbx.zeroizeCount 1 ∧
      t.lse.all (fun l => l.tx.key.isEmpty && l.secret.isEmpty) = true ∧ t.hse.all (fun h => h.keys.isEmpty) = true ∧
      t.ldg.anchor = s.ldg.anchor ∧ t.ldg.store = s.ldg.store ∧ t.epo.epoch = (if s.ldg.anchor.valid then s.ldg.anchor.epoch else 0) ∧
      t.stl.table = [] ∧ t.stl.records = s.stl.records ∧ t.alr.log = s.alr.log ∧ t.alr.quiet = false ∧ t.obs.counters = [] ∧
      t.hlm.buffer = [] ∧ t.hlm.running = [] ∧ t.nvm = { s.nvm with journalQueue := [], journalErase := none } ∧
      t.lcu.fuses = s.lcu.fuses ∧ t.build = s.build ∧ t.fresh = s.fresh ∧ t.pending = s.pending) ∧
  (∀ (s : State) (good cool : Bool) (tp tpB : Nat) (ff : Option Nat) (tr : Trims), s.rst.phase = .inReset →
    good = false ∨ s.mon.stop.isSome = true →
    exec (.resetRelease good cool tp tpB ff tr) s = .next { s with
      out := []
      pins := { s.pins with porN := true, sysN := true, clkcGood := good }
      rst := { s.rst with cause := setBit s.rst.cause causeEarlyRelease } }) ∧
  (∀ (s : State) (code : Nat) (tr : Trims), s.rst.phase = .inReset → s.mon.stop = none → s.lcu.decode = .state code →
    code = lcScrap ∨ code = lcInvalid →
    ∃ t, exec (.resetRelease true true 0 0xFF none tr) s = .next t ∧ t.rst = { s.rst with phase := .loading, rstBusy := false, rstReq := false } ∧
      t.lcu.state = code ∧ t.sbx = s.sbx ∧ t.alr = s.alr ∧ t.nvm = s.nvm ∧ t.ldg = s.ldg ∧ t.out = []) ∧
  (∀ (s : State) (code : Nat) (bank : Option Nat) (tr : Trims), s.rst.phase = .inReset → s.mon.stop = none → s.lcu.decode = .state code →
    code ≠ lcScrap → code ≠ lcInvalid → code ≠ lcAnalysis → tr.failed = none → s.sbx.zeroNet = false → s.lcu.job = none → s.lcu.jobs = [] →
    s.rst.coreDeferred = none → ({ s.lcu with state := code } : Lcu).bank? = bank →
    (bank.all fun b => decide (drkCheck (s.lcu.bankKey b) = s.lcu.wordBytes (bankWord b + 16) 1)) = true →
    ∃ t, exec (.resetRelease true true 0 0xFF none tr) s = .next t ∧ t.rst = { s.rst with phase := .loading } ∧ t.lcu.state = code ∧
      t.lcu.nonce = s.drawn 32 ∧ t.lcu.trims = tr ∧ t.clk = { s.clk with releasedAt := s.clk.elapsed } ∧ t.pins.porN = true ∧ t.pins.sysN = true ∧
      t.sbx.root = (bank.map s.lcu.bankKey).getD (zeros 32) ∧ t.sbx.drkOk = true ∧ t.sbx.drkTest = bank.isNone ∧
      t.cht.rows = tr.rows ∧ t.cht.ksBank = tr.bank ∧ t.alr = s.alr ∧ t.ldg = s.ldg ∧ t.nvm = s.nvm ∧ t.epo = s.epo ∧ t.stl = s.stl ∧
      t.mse = s.mse) ∧
  (∀ (s : State) (cool : Bool) (w : Nat) (tr : Trims), s.rst.phase = .inReset → s.mon.stop = none → s.rst.rstBusy = true →
    s.pins.coolantOk = true →
    ∃ t, exec (.resetRelease true cool 0 0xFF (some w) tr) s = .next t ∧ t.rst.phase = .loading ∧ t.rst.noLoad = true ∧ t.rst.rstBusy = true ∧
      t.rst.rstReq = true ∧ t.lcu.state = lcInvalid ∧ t.alr.tamper = true ∧ t.alr.safeStop = true ∧ t.sbx.zeroNet = true ∧ t.sbx.root = [] ∧
      t.ldg.anchor.valid = false)

/-- HELM_WATCHDOG_EXPIRY in service, with fewer than two others within 10 s and no fuse programming, export or transition running, and
CORE_RESET_REQUEST by a function REG_AUTH lets write: a core reset starts, with its time, its cause bit and CORE_COUNT; keys, tiles,
Stalls, the Ledger and the epoch stay. The third expiry enters Safe Stop with rst_req and keys kept, without a core reset. SYS_REQ_WRITE
sets rst_req and enters the quiet state. CORE_RESET_END without queued boundaries and outside the quiet state: staged patches not below
the fused SVN are applied, the firmware measured, EV_EVIDENCE_CHANGED raised where that changed outside the no-Almanac state, and the
record of a waiting PATCH_COMMIT written with the count of patches. SAFE_STOP_DRAIN_DONE with no memory operation left sets SS_IDLE. -/
def Obligations.CoreResetAndSafeStop : Prop :=
  (∀ s : State, s.serving → s.rst.coreReset = none →
    (s.rst.wdogTimes.filter fun (w : Nat) => decide (s.clk.elapsed ≤ w + 10 ^ 10)).length < 2 → s.lcu.job = none → s.lcu.jobs = [] →
    s.lcu.transition = none → s.tol.running = none →
    ∃ t, exec .helmWatchdogExpiry s = .next t ∧
      t.rst = { s.rst with
        wdogTimes := s.clk.elapsed :: s.rst.wdogTimes.filter fun (w : Nat) => decide (s.clk.elapsed ≤ w + 10 ^ 10)
        coreReset := some s.clk.elapsed, coreDeferred := none, cause := setBit s.rst.cause causeCoreWdog
        coreCount := satAdd 255 s.rst.coreCount 1 } ∧
      t.mrk.waits = [] ∧ t.att.sessions = [] ∧ t.hlm.cwq = s.hlm.cwq ∧ t.hlm.fifo = s.hlm.fifo ∧ t.sbx.slots = s.sbx.slots ∧
      t.sbx.tiles = s.sbx.tiles ∧ t.stl = s.stl ∧ t.ldg = s.ldg ∧ t.epo = s.epo ∧ t.mse = s.mse ∧ t.lse = s.lse ∧ t.hse = s.hse ∧ t.alr = s.alr ∧
      t.nvm = s.nvm) ∧
  (∀ s : State, s.serving → 2 ≤ (s.rst.wdogTimes.filter fun (w : Nat) => decide (s.clk.elapsed ≤ w + 10 ^ 10)).length →
    ∃ t, exec .helmWatchdogExpiry s = .next t ∧ t.alr.safeStop = true ∧ t.alr.quiet = true ∧ t.rst.rstReq = true ∧
      t.rst.coreReset = s.rst.coreReset ∧ t.sbx = s.sbx ∧ t.ldg = s.ldg ∧ t.epo = s.epo ∧ t.stl.table = s.stl.table) ∧
  (∀ (s : State) (fn : Nat), s.serving → s.grants fn true 0x010024 → s.rst.coreReset = none → s.lcu.job = none → s.lcu.jobs = [] →
    s.lcu.transition = none → s.tol.running = none →
    ∃ t, exec (.coreResetRequest fn) s = .next t ∧ t.out = [.reg false 0] ∧
      t.rst = { s.rst with
        coreReset := some s.clk.elapsed, coreDeferred := none, cause := setBit s.rst.cause causeCoreCmd
        coreCount := satAdd 255 s.rst.coreCount 1 } ∧
      t.mrk.waits = [] ∧ t.att.sessions = [] ∧ t.hlm.cwq = s.hlm.cwq ∧ t.sbx.slots = s.sbx.slots ∧ t.stl = s.stl ∧ t.ldg = s.ldg ∧
      t.epo = s.epo ∧ t.mse = s.mse ∧ t.alr = s.alr ∧ t.nvm = s.nvm) ∧
  (∀ (s : State) (fn : Nat), s.serving → s.grants fn true 0x010024 →
    ∃ t, exec (.sysReqWrite fn) s = .next t ∧ t.rst = { s.rst with rstReq := true } ∧ t.alr.quiet = true ∧
      t.alr.safeStop = s.alr.safeStop ∧ t.hlm.running = [] ∧ t.hlm.cwq = [] ∧ t.mse.all (fun m => m.held.isEmpty && m.hazards.isEmpty) = true ∧
      t.out.getLast? = some (.reg false 0) ∧ t.sbx = s.sbx ∧ t.ldg = s.ldg ∧ t.epo = s.epo ∧ t.stl.table = s.stl.table) ∧
  (∀ (s : State) (since : Nat) (ps : List Patch) (m : Bytes), s.rst.coreReset = some since → s.alr.quiet = false → s.rst.queuedTicks = [] →
    s.rst.patchCall = none → ps = s.hlm.staged.filter (fun p => s.lcu.svn 6 ≤ p.svn) →
    m = ({ s with hlm := { s.hlm with applied := ps } } : State).measureFirmware s.almDigest →
    ∃ t, exec .coreResetEnd s = .next t ∧ t.rst = { s.rst with coreReset := none, queuedTicks := [], discarded := 0 } ∧ t.hlm.applied = ps ∧
      t.att.mFw = m ∧ t.hlm.fifo = (if m = s.att.mFw ∨ s.ald.noAlmanac = true then s.hlm.fifo
        else (s.event evEvidenceChanged unitHelm none ps.length 0).hlm.fifo) ∧
      t.hlm.cwq = s.hlm.cwq ∧ t.hlm.buffer = s.hlm.buffer ∧ t.sbx = s.sbx ∧ t.stl = s.stl ∧ t.ldg = s.ldg ∧ t.epo = s.epo ∧ t.mse = s.mse) ∧
  (∀ (s : State) (since : Nat) (c : Call), s.rst.coreReset = some since → s.alr.quiet = false → s.rst.queuedTicks = [] →
    s.rst.patchCall = some c →
    ∃ t, exec .coreResetEnd s = .next t ∧ t.rst = { s.rst with coreReset := none, queuedTicks := [], discarded := 0, patchCall := none } ∧
      t.hlm.applied = s.hlm.staged.filter (fun p => s.lcu.svn 6 ≤ p.svn) ∧
      s.recorded t { c.record stOk with result := leBytes 1 (s.hlm.staged.filter (fun p => s.lcu.svn 6 ≤ p.svn)).length } ∧
      t.sbx = s.sbx ∧ t.stl = s.stl ∧ t.ldg = s.ldg ∧ t.epo = s.epo ∧ t.mse = s.mse) ∧
  (∀ s : State, s.alr.safeStop = true → s.alr.quiet = true → s.mse.all (fun m => m.ops.isEmpty) = true →
    exec .safeStopDrainDone s = .next { s with out := [], alr := { s.alr with ssIdle := true } })

/-- COOLANT_LOSS after coolant was good, out of the load and with room in the alarm log: AL_SAFESTOP with cause COOLANT is the newest entry,
Safe Stop with rst_req and the quiet state, keys, anchor, epoch and Stalls as before. TAMPER_PAIR_TRIP where at least one enabled pair
comes newly into the alarm condition: tray_al_tamper, Safe Stop and rst_req, SEEN has each such pair, every key slot and tile copy,
every link key, every host key and the root are cleared, the pass over them is to be verified, and the anchor is not valid and marked as
cleared by tamper. Where no enabled pair comes newly into the condition only the levels are taken. -/
def Obligations.CoolantAndTamper : Prop :=
  (∀ s : State, s.pins.coolantOk = true → s.rst.rstBusy = false → s.alr.log.length < 64 →
    ∃ t, exec .coolantLoss s = .next t ∧ t.pins.coolantOk = false ∧ t.alr.safeStop = true ∧ t.alr.quiet = true ∧ t.rst.rstReq = true ∧
      t.alr.log.getLast?.map (fun e => (e.code, e.unit, e.cause, e.time)) = some (alSafestop, unitAlarm, 1, s.clk.domain) ∧
      t.hlm.irqAlarm = true ∧ t.alr.tamper = s.alr.tamper ∧ t.sbx = s.sbx ∧ t.ldg = s.ldg ∧ t.epo = s.epo ∧ t.stl.table = s.stl.table ∧
      t.nvm = s.nvm ∧ t.cfg = s.cfg) ∧
  (∀ s : State, s.pins.coolantOk = false → exec .coolantLoss s = .next s.begin) ∧
  (∀ (s : State) (tp tpB : Nat) (p : Pins) (bad : List Nat),
    p = { s.pins with tamper := BitVec.ofNat 8 tp, tamperB := BitVec.ofNat 8 tpB } →
    bad = ((List.range 8).filter fun i => s.cfg.tamperEnable.getLsbD i && p.pairBad i && !s.pins.pairBad i) → bad ≠ [] →
    ∃ t, exec (.tamperPairTrip tp tpB) s = .next t ∧ t.pins = p ∧ t.alr.tamper = true ∧ t.alr.safeStop = true ∧ t.rst.rstReq = true ∧
      bad.all (fun i => t.alr.seen.getLsbD i) = true ∧ t.sbx.slots = [] ∧ t.sbx.tiles = [] ∧ t.sbx.root = [] ∧ t.sbx.zeroNet = true ∧
      t.sbx.verifying = true ∧ t.lse.all (fun l => l.tx.key.isEmpty && l.rx.key.isEmpty && l.secret.isEmpty) = true ∧
      t.hse.all (fun h => h.keys.isEmpty) = true ∧ t.sty.seed = [] ∧ t.ldg.anchor.valid = false ∧ t.ldg.anchor.clearedByTamper = true ∧
      t.epo = s.epo ∧ t.clk = s.clk ∧ t.nvm = s.nvm ∧ t.cfg = s.cfg ∧ (s.rst.rstBusy = false → t.alr.quiet = true)) ∧
  (∀ (s : State) (tp tpB : Nat) (p : Pins), p = { s.pins with tamper := BitVec.ofNat 8 tp, tamperB := BitVec.ofNat 8 tpB } →
    ((List.range 8).filter fun i => s.cfg.tamperEnable.getLsbD i && p.pairBad i && !s.pins.pairBad i) = [] →
    exec (.tamperPairTrip tp tpB) s = .next { s with out := [], pins := p })

/-- UNIT_RESET_GO by a function REG_AUTH lets write: a unit the build has, not in reset, outside Safe Stop and the quiet state, begins its
idle request; any other sets REFUSED. UNIT_RESET_IDLE of a unit that drains and is idle holds it in reset and clears its key cache.
UNIT_RESET_FORCE of an MSE that drains and is not idle, T_IDLE after GO: every host-side request is answered POISON in order, nothing is
held there any more, FORCED is set and SQUASHED counts those requests. UNIT_RESET_RELEASE of a unit held: the unit is in reset no more,
DONE is set and EV_UNIT_RESET raised with the count and FORCED. -/
def Obligations.UnitResets : Prop :=
  (∀ (s : State) (fn unit : Nat), s.grants fn true 0x010028 → unit < 256 → s.build.resettable unit = true → s.inUnitReset unit = false →
    s.alr.safeStop = false → s.alr.quiet = false →
    ∃ t, exec (.unitResetGo fn unit) s = .next t ∧ t.out = [.reg false 0] ∧
      t.rst = { s.rst with
        urstUnit := BitVec.ofNat 8 unit
        unitResets := s.rst.unitResets ++ [{ code := unit, since := s.clk.elapsed, held := false, forced := false, squashed := 0 }] } ∧
      t = { s with out := t.out, rst := t.rst, obs := t.obs }) ∧
  (∀ (s : State) (fn unit : Nat), s.grants fn true 0x010028 → unit < 256 →
    s.build.resettable unit = false ∨ s.inUnitReset unit = true ∨ s.alr.safeStop = true ∨ s.alr.quiet = true →
    ∃ t, exec (.unitResetGo fn unit) s = .next t ∧ t.out = [.reg false 0] ∧
      t.rst = { s.rst with urstUnit := BitVec.ofNat 8 unit, refused := true } ∧ t = { s with out := t.out, rst := t.rst, obs := t.obs }) ∧
  (∀ (s : State) (unit : Nat), (s.draining unit).isSome = true → s.unitIdle unit = true →
    ∃ t, exec (.unitResetIdle unit) s = .next t ∧
      t.rst = { s.rst with unitResets := s.rst.unitResets.map fun u => if u.code = unit then { u with held := true } else u } ∧
      t.sbx.tiles = s.sbx.tiles.filter (fun k => k.tile ≠ unit) ∧ t.out = [] ∧ t.hlm = s.hlm ∧ t.ldg = s.ldg ∧ t.epo = s.epo ∧
      t.stl = s.stl ∧ t.nvm = s.nvm) ∧
  (∀ (s : State) (unit : Nat) (written : Bytes) (r : UnitReset) (m : Mse), unit < 0x40 → s.draining unit = some r → s.unitIdle unit = false →
    r.since + s.cfg.clk.tIdle * 1000 ≤ s.clk.elapsed → s.mse[unit]? = some m →
    ∃ t, exec (.unitResetForce unit written) s = .next t ∧ t.out = m.requests.map (answerBad unit .poison) ∧
      t.rst = { s.rst with
        forced := true, squashed := min 4095 m.requests.length
        unitResets := s.rst.unitResets.map fun u =>
          if u.code = unit then { u with held := true, forced := true, squashed := m.requests.length } else u } ∧
      (t.mse[unit]?).map (fun x => (x.held, x.hazards, x.epoch)) = some ([], [], m.epoch) ∧ t.stl = s.stl ∧ t.ldg = s.ldg ∧ t.epo = s.epo ∧
      t.alr = s.alr) ∧
  (∀ (s : State) (unit : Nat) (r : UnitReset), s.rst.unitResets.find? (fun u => decide (u.code = unit) && u.held) = some r →
    unit = unitTollgate ∨ unit = unitCrosscheck ∨ unit = unitSweeper ∨ unit = unitSteelyard ∨ (0x40 ≤ unit ∧ unit < 0xC0) ∨
      (unit = unitBooth ∧ s.tol.running = none) →
    ∃ t, exec (.unitResetRelease unit) s = .next t ∧ t.rst = { s.rst with unitResets := s.rst.unitResets.erase r, done := true } ∧
      t.hlm.fifo = (s.event evUnitReset unitRcu none unit (r.squashed + bit r.forced * 2 ^ 63)).hlm.fifo ∧
      (0x40 ≤ unit → unit < 0x80 → (t.lse[unit - 0x40]?).map (fun l => (l.forced, l.secret)) =
        (s.lse[unit - 0x40]?).map (fun l => (decide (l.secret ≠ []), l.secret))) ∧
      t = { s with out := t.out, rst := t.rst, hlm := t.hlm, obs := t.obs, lse := t.lse }) ∧
  (∀ (s : State) (unit : Nat) (r : UnitReset) (m : Mse), s.rst.unitResets.find? (fun u => decide (u.code = unit) && u.held) = some r →
    unit < 0x40 → s.mse[unit]? = some m → m.held = [] → s.ldg.changes = [] →
    ∃ t, exec (.unitResetRelease unit) s = .next t ∧ t.rst = { s.rst with unitResets := s.rst.unitResets.erase r, done := true } ∧
      t.hlm.fifo = (s.event evUnitReset unitRcu none unit (r.squashed + bit r.forced * 2 ^ 63)).hlm.fifo ∧ t.stl = s.stl ∧ t.epo = s.epo ∧
      t.sbx = s.sbx ∧ t.ldg = s.ldg)

/-- In service, with no unfinished announcement of the partition: PARTITION_ANNOUNCE of phase 0, where none of its functions holds the Booth
lock, begins its drain; of phase 1 below level 3 it re-admits the partition and answers. PARTITION_DRAIN_DONE of an announcement not
answered, outside a core reset, once nothing of the partition is left: part_done is pulsed and the announcement answered; level 3 also
closes the data ports and pauses the Sweeper. PARTITION_DRAIN_TIMEOUT at T_PART answers it too: below level 3, where none of its
functions holds the lock, nothing else changes; at level 3 the data ports are closed, the Sweeper is paused and no MSE holds a host-side
request. -/
def Obligations.PartitionResets : Prop :=
  (∀ (s : State) (unit level : Nat), s.rst.rstBusy = false → s.rst.phase = .service →
    ((s.partRun? unit).any fun r => !r.answered) = false → ((s.cfg.part? unit).any fun p => s.partHolds p) = false →
    exec (.partitionAnnounce unit level 0) s = .next { s with
      out := []
      rst := { s.rst with parts := s.rst.parts.filter (fun r => r.index ≠ unit) ++
        [({ index := unit, level, since := s.clk.elapsed, answered := false } : PartRun)] } }) ∧
  (∀ (s : State) (unit level : Nat), s.rst.rstBusy = false → s.rst.phase = .service →
    ((s.partRun? unit).any fun r => !r.answered) = false → level ≠ 3 →
    exec (.partitionAnnounce unit level 1) s = .next { s with
      out := [.partDone unit], rst := { s.rst with parts := s.rst.parts.filter (fun r => r.index ≠ unit) } }) ∧
  (∀ (s : State) (unit : Nat), s.rst.rstBusy = false → s.rst.phase = .service → ((s.partRun? unit).any fun r => !r.answered) = false →
    s.rst.dataClosed = true → s.rst.parts.all (fun r => decide (r.index = unit ∨ r.level ≠ 3)) = true →
    ∃ t, exec (.partitionAnnounce unit 3 1) s = .next t ∧ t.rst.dataClosed = false ∧ t.swp.paused = false ∧
      t.out.getLast? = some (.partDone unit) ∧ t.hse.all (fun h => h.keys.isEmpty) = true ∧ t.mse = s.mse ∧ t.stl = s.stl ∧ t.ldg = s.ldg) ∧
  (∀ (s : State) (unit : Nat) (r : PartRun), s.partRun? unit = some r → r.answered = false → s.rst.coreReset = none →
    ((s.cfg.part? unit).any fun p => s.partBusy p || s.partHolds p) = false → r.level = 3 → s.dataBusy = false →
    exec (.partitionDrainDone unit) s = .next { s with
      out := [.partDone r.index]
      rst := { s.rst with parts := s.rst.parts.map (fun x => if x = r then { r with answered := true } else x), dataClosed := true }
      swp := { s.swp with paused := true } }) ∧
  (∀ (s : State) (unit : Nat) (r : PartRun), s.partRun? unit = some r → r.answered = false → s.rst.coreReset = none →
    ((s.cfg.part? unit).any fun p => s.partBusy p || s.partHolds p) = false → r.level ≠ 3 →
    exec (.partitionDrainDone unit) s = .next { s with
      out := [.partDone r.index]
      rst := { s.rst with parts := s.rst.parts.map (fun x => if x = r then { r with answered := true } else x) } }) ∧
  (∀ (s : State) (unit : Nat) (written : Bytes) (r : PartRun), s.partRun? unit = some r → r.answered = false →
    r.since + s.cfg.clk.tPart * 1000 ≤ s.clk.elapsed → r.level ≠ 3 → ((s.cfg.part? unit).any fun p => s.partHolds p) = false →
    exec (.partitionDrainTimeout unit written) s = .next { s with
      out := [.partDone r.index]
      rst := { s.rst with parts := s.rst.parts.map (fun x => if x = r then { r with answered := true } else x) } }) ∧
  (∀ (s : State) (unit : Nat) (written : Bytes) (r : PartRun), s.partRun? unit = some r → r.answered = false →
    r.since + s.cfg.clk.tPart * 1000 ≤ s.clk.elapsed → r.level = 3 → s.bth.running = none → s.bth.queue = [] → s.tol.running = none →
    ∃ t, exec (.partitionDrainTimeout unit written) s = .next t ∧ t.rst.dataClosed = true ∧ t.swp.paused = true ∧
      t.rst.parts = s.rst.parts.map (fun x => if x = r then { r with answered := true } else x) ∧ t.out.getLast? = some (.partDone r.index) ∧
      t.mse.all (fun m => m.held.isEmpty && m.hazards.isEmpty) = true ∧ t.lse.all (fun l => l.txBuf.isEmpty) = true ∧ t.epo = s.epo ∧
      t.ldg = s.ldg)

/-- A request of a host-side lane that is ready, with an ID not outstanding, no request held, the checks of R263 passed, the lane's
direction healthy, memory in sideband mode and no entry change waiting. MSE_READ_REQUEST of a sector without entry and without
memory-side request: one read is queued that answers it. MSE_WRITE_REQUEST, byte enables all ones: one write is queued, the sector
sealed under the write key of R240 at the tile's epoch. MSE_PARTIAL_WRITE: a new hazard entry whose outstanding buffer holds the merged
bytes, and the read it needs. MSE_LOCK_READ: a new entry with the request in its queue, and the read. MSE_UNLOCK_WRITE of a sector
locked by its Stall whose plaintext the entry holds: the lock is released and the merge is sealed and its write queued. Nothing leaves
yet, and nothing but the MSE, key uses and counters changes. A request that an MSE does not serve at once, shown for MSE_READ_REQUEST.
In the quiet state it is answered POISON with data of all ones. Where the lane is not ready nothing changes. An ID that is still
outstanding, or a failed check of a resident Stall, is answered REFUSED and counted in REFUSED_COUNT. A listed sector is answered
INTEGRITY. A request that needs a Ledger entry, a key, a pool line, a tag line or a fill first is held, with no answer. -/
def Obligations.MseHostPort : Prop :=
  (∀ (s : State) (m : Nat) (e : Mse) (r : HostReq), s.mse[m]? = some e → r.write = false → r.lock = false → r.unlock = false → r.be = 0 →
    r.data = [] → r.since = s.clk.elapsed → s.mseReady m e r = true → e.requests.any (fun q => q.write = r.write ∧ q.id = r.id) = false →
    e.held = [] → s.check m e r = .pass → s.cht.dirLost m 0 = false → s.carveOut (sectorAddr r.sector) = false → s.ldg.changes = [] →
    e.hazard? r.sector = none → e.sectorBusy r.sector = false →
    ∃ t, exec (.mseReadRequest m r.lane r.sector r.stall r.id r.cls) s = .next t ∧
      (t.mse[m]?).map (·.work) = some (e.ops ++ [{ newOp .hostRead r.sector r.lane r.cls false [r] with since := s.clk.elapsed }],
        e.hazards, [], e.reserved) ∧
      t.out = [] ∧ s.onlyMse m t) ∧
  (∀ (s : State) (m : Nat) (e : Mse) (r : HostReq) (k : SectorKey) (mat : Bytes), s.mse[m]? = some e → r.write = true → r.lock = false →
    r.unlock = false → r.be = beAll → r.since = s.clk.elapsed → s.mseReady m e r = true →
    e.requests.any (fun q => q.write = r.write ∧ q.id = r.id) = false → e.held = [] → s.check m e r = .pass → s.cht.dirLost m 5 = false →
    s.carveOut (sectorAddr r.sector) = false → s.ldg.changes = [] → e.hazard? r.sector = none → e.sectorBusy r.sector = false →
    s.writeKey? m r.sector = some k → s.keyMaterial? (unitMse m) k = some mat →
    ∃ t, exec (.mseWriteRequest m r.lane r.sector r.stall r.id r.cls r.data) s = .next t ∧
      (t.mse[m]?).map (·.work) = some (e.ops ++ [{ newOp .hostWrite r.sector r.lane r.cls true [r] with
        since := s.clk.elapsed
        data := (sealWith k mat r.sector e.epoch r.data).1
        sb := (sealWith k mat r.sector e.epoch r.data).2 }], e.hazards, [], e.reserved) ∧
      t.out = [] ∧ s.onlyMse m t) ∧
  (∀ (s : State) (m : Nat) (e : Mse) (r : HostReq), s.mse[m]? = some e → r.write = true → r.lock = false → r.unlock = false → r.be ≠ beAll →
    r.since = s.clk.elapsed → s.mseReady m e r = true → e.requests.any (fun q => q.write = r.write ∧ q.id = r.id) = false →
    e.held = [] → s.check m e r = .pass → s.cht.dirLost m 0 = false → s.cht.dirLost m 5 = false →
    s.carveOut (sectorAddr r.sector) = false → s.ldg.changes = [] → e.hazard? r.sector = none → e.sectorBusy r.sector = false →
    ∃ t, exec (.msePartialWrite m r.lane r.sector r.stall r.id r.cls r.be r.data) s = .next t ∧
      (t.mse[m]?).map (·.work) = some (e.ops ++ [{ newOp .entryRead r.sector r.lane r.cls false [] with since := s.clk.elapsed }],
        e.hazards ++ [{ Hazard.fresh r.sector with outBuf := some (MergeBuf.fresh.merge r) }], [], e.reserved) ∧
      t.out = [] ∧ s.onlyMse m t) ∧
  (∀ (s : State) (m : Nat) (e : Mse) (r : HostReq), s.mse[m]? = some e → r.write = false → r.lock = true → r.unlock = false → r.be = 0 →
    r.data = [] → r.since = s.clk.elapsed → s.mseReady m e r = true → e.requests.any (fun q => q.write = r.write ∧ q.id = r.id) = false →
    e.held = [] → s.check m e r = .pass → s.cht.dirLost m 0 = false → s.carveOut (sectorAddr r.sector) = false → s.ldg.changes = [] →
    e.hazard? r.sector = none → e.sectorBusy r.sector = false →
    ∃ t, exec (.mseLockRead m r.lane r.sector r.stall r.id r.cls) s = .next t ∧
      (t.mse[m]?).map (·.work) = some (e.ops ++ [{ newOp .entryRead r.sector r.lane r.cls false [] with since := s.clk.elapsed }],
        e.hazards ++ [{ Hazard.fresh r.sector with queue := [r] }], [], e.reserved) ∧
      t.out = [] ∧ s.onlyMse m t) ∧
  (∀ (s : State) (m at_ : Nat) (e : Mse) (r : HostReq) (h : Hazard) (p mat : Bytes) (k : SectorKey), s.mse[m]? = some e → r.write = true →
    r.lock = false → r.unlock = true → r.since = s.clk.elapsed → s.mseReady m e r = true →
    e.requests.any (fun q => q.write = r.write ∧ q.id = r.id) = false → e.held = [] → s.check m e r = .pass → s.cht.dirLost m 0 = false →
    s.cht.dirLost m 5 = false → s.carveOut (sectorAddr r.sector) = false → s.ldg.changes = [] → e.hazard? r.sector = some h →
    h.lock = some (r.stall, at_) → h.plain = some p → h.outBuf = none → h.fillBuf = none → h.queue = [] → e.sectorBusy r.sector = false →
    s.writeKey? m r.sector = some k → s.keyMaterial? (unitMse m) k = some mat →
    ∃ t, exec (.mseUnlockWrite m r.lane r.sector r.stall r.id r.cls r.be r.data) s = .next t ∧
      (t.mse[m]?).map (·.work) = some (e.ops ++ [{ newOp .entryWrite r.sector r.lane r.cls true [] with
        since := s.clk.elapsed
        data := (sealWith k mat r.sector e.epoch (mergeBytes r.be p r.data)).1
        sb := (sealWith k mat r.sector e.epoch (mergeBytes r.be p r.data)).2 }],
        (e.setHazard { h with
          lock := none
          plain := some (mergeBytes r.be p r.data)
          outBuf := some (MergeBuf.fresh.merge r) }).hazards, [], e.reserved) ∧
      t.out = [] ∧ s.onlyMse m t) ∧
  (∀ (s : State) (m lane sector stall id cls : Nat) (e : Mse), s.mse[m]? = some e → s.quietOpen = true → e.spine.acks = [] →
    s.ldg.changes = [] →
    ∃ t, exec (.mseReadRequest m lane sector stall id cls) s = .next t ∧ t.out = [.hd m lane id .poison (onesData 128)] ∧ t.mse = s.mse ∧
      s.onlyMse m t) ∧
  (∀ (s : State) (m : Nat) (e : Mse) (r : HostReq), s.mse[m]? = some e → r.write = false → r.lock = false → r.unlock = false → r.be = 0 →
    r.data = [] → r.since = s.clk.elapsed → s.quietOpen = false → s.mseReady m e r = false → e.spine.acks = [] → s.ldg.changes = [] →
    exec (.mseReadRequest m r.lane r.sector r.stall r.id r.cls) s = .next s.begin) ∧
  (∀ (s : State) (m : Nat) (e : Mse) (r : HostReq), s.mse[m]? = some e → r.write = false → r.lock = false → r.unlock = false → r.be = 0 →
    r.data = [] → r.since = s.clk.elapsed → s.mseReady m e r = true → s.ldg.changes = [] →
    e.requests.any (fun q => q.write = r.write ∧ q.id = r.id) = true ∨ (e.held = [] ∧ s.check m e r = .refuse ∧ s.resident r.stall = true) →
    ∃ t, exec (.mseReadRequest m r.lane r.sector r.stall r.id r.cls) s = .next t ∧
      t.out = [.hd m r.lane r.id .refused (onesData 128)] ∧ (t.mse[m]?).map (·.work) = some e.work ∧
      (t.mse[m]?).map (·.err.refused) = some (satAdd 65535 e.err.refused 1) ∧ s.onlyMse m t) ∧
  (∀ (s : State) (m : Nat) (e : Mse) (r : HostReq), s.mse[m]? = some e → r.write = false → r.lock = false → r.unlock = false → r.be = 0 →
    r.data = [] → r.since = s.clk.elapsed → s.mseReady m e r = true → s.ldg.changes = [] →
    e.requests.any (fun q => q.write = r.write ∧ q.id = r.id) = false → e.held = [] → s.check m e r = .listed →
    ∃ t, exec (.mseReadRequest m r.lane r.sector r.stall r.id r.cls) s = .next t ∧
      t.out = [.hd m r.lane r.id .integrity (onesData 128)] ∧ (t.mse[m]?).map (·.work) = some e.work ∧ s.onlyMse m t) ∧
  (∀ (s : State) (m : Nat) (e : Mse) (r : HostReq) (c : HoldCause), s.mse[m]? = some e → r.write = false → r.lock = false → r.unlock = false →
    r.be = 0 → r.data = [] → r.since = s.clk.elapsed → s.mseReady m e r = true → s.ldg.changes = [] →
    e.requests.any (fun q => q.write = r.write ∧ q.id = r.id) = false → e.held = [] → s.check m e r = .hold c →
    ∃ t, exec (.mseReadRequest m r.lane r.sector r.stall r.id r.cls) s = .next t ∧ t.out = [] ∧
      (t.mse[m]?).map (fun x => (x.held, x.hazards, x.reserved)) = some ([(r, c)], e.hazards, e.reserved) ∧
      t.stl.table = s.stl.table ∧ t.epo = s.epo ∧ t.rst = s.rst ∧ t.hlm.cwq = s.hlm.cwq)

/-- MSE_MEM_REQUEST_SEND: outside the quiet state and with an ID free, the request of the lane and direction whose class has its turn leaves
with the next free ID, and its timer starts; in a slot of the Sweeper its own queued request leaves. MSE_READ_BEAT of a host read,
sector without entry: a verified beat answers every read that waits for it with OK and the plaintext, and the read is over; a beat that
fails a check on the first read is queued first again as the re-read, with the failed check kept, and nothing is answered; a second
failure starts the Sounding of the lane. MSE_WRITE_ACK of a host write in sideband mode answers it OK, and the sector leaves the
bad-sector list. A late beat or acknowledgement frees its reserved ID and answers nothing. TAG_LINE_WRITE_FLUSH: the line with its words
is queued as one write. Nothing but the MSE, bytes metered and counters changes. -/
def Obligations.MseMemorySide : Prop :=
  (∀ (s : State) (m lane : Nat) (write : Bool) (e : Mse) (o : MemOp), s.mse[m]? = some e → s.alr.quiet = false → e.idsUsed.length < 1024 →
    e.choose s.cfg.engine.weights lane write = some o → s.ldg.changes = [] →
    ∃ t, exec (.mseMemRequestSend m lane write false) s = .next t ∧
      t.out = [if o.write then .mw m o.lane o.sector e.freeId o.co o.data o.sb else .mr m o.lane o.sector e.freeId o.co] ∧
      (t.mse[m]?).map (·.work) = some (e.ops.eraseP (· = o) ++ [{ o with id := some e.freeId, since := s.clk.elapsed }],
        e.hazards, e.held, e.reserved) ∧ s.onlyMse m t) ∧
  (∀ (s : State) (m lane : Nat) (write : Bool) (e : Mse) (o : MemOp), s.mse[m]? = some e → s.alr.quiet = false → e.idsUsed.length < 1024 →
    e.chooseSweep lane write = some o → s.ldg.changes = [] →
    ∃ t, exec (.mseMemRequestSend m lane write true) s = .next t ∧
      t.out = [if o.write then .mw m o.lane o.sector e.freeId o.co o.data o.sb else .mr m o.lane o.sector e.freeId o.co] ∧
      (t.mse[m]?).map (·.work) = some (e.ops.eraseP (· = o) ++ [{ o with id := some e.freeId, since := s.clk.elapsed }],
        e.hazards, e.held, e.reserved) ∧ s.onlyMse m t) ∧
  (∀ (s : State) (m id sb : Nat) (data pt : Bytes) (second : Bool) (e : Mse) (o : MemOp), s.mse[m]? = some e →
    e.reserved.any (fun r => r.id = id ∧ ¬ r.write) = false → e.ops.find? (fun o => o.id = some id ∧ ¬ o.write) = some o →
    o.role = .hostRead → o.attempt = 0 → s.verifyBeat m e o data sb = .pass pt second → e.hazard? o.sector = none →
    o.reqs.all (fun r => !r.write) = true → s.ldg.changes = [] →
    ∃ t, exec (.mseReadBeat m id data sb false) s = .next t ∧ t.out = o.reqs.map (fun r => .hd m r.lane r.id .ok pt) ∧
      (t.mse[m]?).map (·.work) = some (e.ops.eraseP (· = o), e.hazards, e.held, e.reserved) ∧ s.onlyMse m t) ∧
  (∀ (s : State) (m id sb check : Nat) (data : Bytes) (err : Bool) (e : Mse) (o : MemOp), s.mse[m]? = some e →
    e.reserved.any (fun r => r.id = id ∧ ¬ r.write) = false → e.ops.find? (fun o => o.id = some id ∧ ¬ o.write) = some o →
    o.role = .hostRead → o.attempt = 0 → (err = true ∧ check = 4) ∨ (err = false ∧ s.verifyBeat m e o data sb = .fail check) →
    s.ldg.changes = [] →
    ∃ t, exec (.mseReadBeat m id data sb err) s = .next t ∧ t.out = [] ∧
      (t.mse[m]?).map (·.work) = some ({ o with
        id := none
        attempt := 1
        check := check
        beat := false
        data := []
        since := s.clk.elapsed } :: e.ops.eraseP (· = o), e.hazards, e.held, e.reserved) ∧ s.onlyMse m t) ∧
  (∀ (s : State) (m id sb : Nat) (data : Bytes) (e : Mse) (o : MemOp), s.mse[m]? = some e →
    e.reserved.any (fun r => r.id = id ∧ ¬ r.write) = false → e.ops.find? (fun o => o.id = some id ∧ ¬ o.write) = some o →
    o.role = .hostRead → o.attempt = 1 → s.ldg.changes = [] →
    ∃ t, exec (.mseReadBeat m id data sb true) s = .next t ∧ t.out = [] ∧
      (t.mse[m]?).map (fun x => (x.ops.map (·.attempt), x.testing)) = some (2 :: (e.ops.eraseP (· = o)).map (·.attempt),
        e.testing ++ s.cht.lanesOf m (s.cht.physLane m o.lane)) ∧ s.onlyMse m t) ∧
  (∀ (s : State) (m id : Nat) (e : Mse) (o : MemOp), s.mse[m]? = some e →
    e.reserved.find? (fun r => r.id = id ∧ r.write) = none → e.ops.find? (fun o => o.id = some id ∧ o.write) = some o →
    o.role = .hostWrite → s.carveOut (sectorAddr o.sector) = false → e.hazard? o.sector = none → o.reqs.all (·.write) = true →
    s.ldg.changes = [] →
    ∃ t, exec (.mseWriteAck m id false) s = .next t ∧ t.out = o.reqs.map (fun r => .hb m r.lane r.id .ok) ∧
      (t.mse[m]?).map (·.work) = some (e.ops.eraseP (· = o), e.hazards, e.held, e.reserved) ∧
      (t.mse[m]?).map (·.err.bad) = some (e.err.bad.filter fun b => b.sector ≠ o.sector) ∧ s.onlyMse m t) ∧
  (∀ (s : State) (m id : Nat) (e : Mse) (r : Reserved), s.mse[m]? = some e → e.reserved.find? (fun r => r.id = id ∧ r.write) = some r →
    e.hazard? r.sector = none → s.ldg.changes = [] →
    ∃ t, exec (.mseWriteAck m id false) s = .next t ∧ t.out = [] ∧
      (t.mse[m]?).map (·.work) = some (e.ops, e.hazards, e.held, e.reserved.filter (· ≠ r)) ∧ s.onlyMse m t) ∧
  (∀ (s : State) (m id sb : Nat) (data : Bytes) (err : Bool) (e : Mse), s.mse[m]? = some e →
    e.reserved.any (fun r => r.id = id ∧ ¬ r.write) = true → s.ldg.changes = [] →
    ∃ t, exec (.mseReadBeat m id data sb err) s = .next t ∧ t.out = [] ∧
      (t.mse[m]?).map (·.work) = some (e.ops, e.hazards, e.held, e.reserved.filter fun r => ¬ (r.id = id ∧ ¬ r.write)) ∧ s.onlyMse m t) ∧
  (∀ (s : State) (m line : Nat) (e : Mse) (p : TagPending) (x : Nat × List Nat), s.mse[m]? = some e →
    e.tagPending.find? (fun p => p.line = line) = some p → e.tags.find? (fun x => x.1 = line) = some x →
    e.ops.any (fun o => o.co && o.write && decide (o.sector = line)) = false → p.waits.any (fun w => w.stage = .pending) = true →
    s.ldg.changes = [] →
    ∃ t, exec (.tagLineWriteFlush m line) s = .next t ∧ t.out = [] ∧
      (t.mse[m]?).map (·.work) = some (e.ops ++ [{ newOp .tagWrite line 0 0 true [] with
        co := true
        data := tagBytes x.2
        since := s.clk.elapsed }], e.hazards, e.held, e.reserved) ∧ s.onlyMse m t)

/-- MSE_READ_TIMEOUT before T_MEM does nothing; at T_MEM the first read of a host read is queued first again with check READ_TIMEOUT (5) and
its ID stays reserved. MSE_WRITE_TIMEOUT of a host write, sector without entry, its Stall's INTEG policy not LOSE: the write is answered
INTEGRITY, its ID stays reserved, the sector is listed, XS_MSE_SOUND takes the cause word with check 6, and the integrity alarm is
raised. MSE_LOCK_TIMEOUT before T_LOCK does nothing; at T_LOCK an idle entry loses its lock, EV_LOCK_TIMEOUT is raised and the entry is
freed. MSE_LANE_TEST_DONE of a lane not under test does nothing; with no Sounding waiting it ends the test and KAT_FAIL keeps a failure;
with a second re-read in, a lane that passes, and a read of one Stall that keeps its Stall alive, the failure is classified TRANSIENT
(2) where the second re-read passed and RAM (3) otherwise: XS_MSE_SOUND takes the cause word, the read is answered INTEGRITY, and for
class 3 the sector is listed. -/
def Obligations.MseTimeouts : Prop :=
  (∀ (s : State) (m id : Nat) (e : Mse), s.mse[m]? = some e → e.spine.acks = [] → s.ldg.changes = [] →
    e.ops.find? (fun o => decide (o.id = some id) && !o.write && s.expired o.since s.tMemNs) = none →
    exec (.mseReadTimeout m id) s = .next s.begin) ∧
  (∀ (s : State) (m id : Nat) (e : Mse) (o : MemOp), s.mse[m]? = some e → s.ldg.changes = [] →
    e.ops.find? (fun o => decide (o.id = some id) && !o.write && s.expired o.since s.tMemNs) = some o → o.role = .hostRead → o.attempt = 0 →
    ∃ t, exec (.mseReadTimeout m id) s = .next t ∧ t.out = [] ∧
      (t.mse[m]?).map (·.work) = some ({ o with
        id := none
        attempt := 1
        check := 5
        beat := false
        data := []
        since := s.clk.elapsed } :: e.ops.eraseP (· = o), e.hazards, e.held, e.reserved ++ [⟨id, o.sector, false⟩]) ∧ s.onlyMse m t) ∧
  (∀ (s : State) (m id : Nat) (e : Mse) (o : MemOp) (r : HostReq), s.mse[m]? = some e → s.ldg.changes = [] →
    e.ops.find? (fun o => decide (o.id = some id) && o.write && s.expired o.since s.tMemNs) = some o → o.role = .hostWrite → o.reqs = [r] →
    r.write = true → e.hazard? o.sector = none → (s.stall? r.stall).any (·.integLose) = false →
    ∃ t, exec (.mseWriteTimeout m id) s = .next t ∧ t.out = [.hb m r.lane r.id .integrity] ∧
      (t.mse[m]?).map (fun x => (x.ops, x.held, x.reserved)) = some (e.ops.eraseP (· = o), e.held, e.reserved ++ [⟨id, o.sector, true⟩]) ∧
      (t.mse[m]?).map (fun x => (x.err.sound, x.err.soundValid, x.listed o.sector)) =
        some (causeWord 6 0 (s.cht.physLane m (5 + o.lane)) false m, true, true) ∧
      t.alr.integrity = true ∧ t.hlm.irqAlarm = true ∧ s.onlyMse m t) ∧
  (∀ (s : State) (m sector stall at_ : Nat) (e : Mse) (h : Hazard), s.mse[m]? = some e → s.ldg.changes = [] → e.hazard? sector = some h →
    h.lock = some (stall, at_) → s.clk.elapsed < at_ + s.cfg.engine.tLock * 1000 → e.spine.acks = [] →
    exec (.mseLockTimeout m sector) s = .next s.begin) ∧
  (∀ (s : State) (m sector stall at_ : Nat) (e : Mse) (h : Hazard), s.mse[m]? = some e → s.ldg.changes = [] → e.hazard? sector = some h →
    h.lock = some (stall, at_) → at_ + s.cfg.engine.tLock * 1000 ≤ s.clk.elapsed → h.queue = [] → h.outBuf = none → h.fillBuf = none →
    e.sectorBusy sector = false →
    ∃ t, exec (.mseLockTimeout m sector) s = .next t ∧ t.out = [] ∧
      (t.mse[m]?).map (·.work) = some (e.ops, e.hazards.filter (fun x => x.sector ≠ sector), e.held, e.reserved) ∧
      t.hlm.fifo.map (fun v => (v.code, v.unit, v.stall, v.arg0, v.arg1)) =
        s.hlm.fifo.map (fun v => (v.code, v.unit, v.stall, v.arg0, v.arg1)) ++ [(evLockTimeout, unitMse m, some stall, sectorAddr sector, m)] ∧
      s.onlyMse m t) ∧
  (∀ (s : State) (m lane : Nat) (pass : Bool) (e : Mse), s.mse[m]? = some e → s.ldg.changes = [] → e.testing.contains lane = false →
    e.spine.acks = [] → exec (.mseLaneTestDone m lane pass) s = .next s.begin) ∧
  (∀ (s : State) (m lane : Nat) (pass : Bool) (e : Mse), s.mse[m]? = some e → s.ldg.changes = [] → e.testing.contains lane = true →
    e.ops.find? (fun o => o.attempt = 2 ∧ o.lane = lane ∧ o.laneTest.isNone) = none →
    ∃ t, exec (.mseLaneTestDone m lane pass) s = .next t ∧ t.out = [] ∧ (t.mse[m]?).map (·.work) = some e.work ∧
      (t.mse[m]?).map (fun x => (x.testing, x.err.katFail)) =
        some (e.testing.filter (fun l => ¬ (s.cht.lanesOf m (s.cht.physLane m lane)).contains l),
          if pass then e.err.katFail else setBit e.err.katFail lane) ∧
      s.onlyMse m t) ∧
  (∀ (s : State) (m lane : Nat) (second : Bool) (e : Mse) (o : MemOp) (r : HostReq), s.mse[m]? = some e → s.ldg.changes = [] →
    e.testing.contains lane = true → e.ops.find? (fun o => o.attempt = 2 ∧ o.lane = lane ∧ o.laneTest.isNone) = some o →
    o.second = some second → o.role = .hostRead → o.reqs = [r] → r.write = false → e.hazard? o.sector = none → e.listed o.sector = false →
    (s.stall? r.stall).any (·.integLose) = false →
    ∃ t, exec (.mseLaneTestDone m lane true) s = .next t ∧ t.out = [.hd m r.lane r.id .integrity (onesData 128)] ∧
      (t.mse[m]?).map (fun x => (x.err.sound, x.err.soundValid, x.listed o.sector)) =
        some (causeWord o.check (if second then 2 else 3) (s.cht.physLane m lane) false m, true, !second) ∧
      t.alr.integrity = true ∧ s.onlyMse m t)

/-- The message at the head of a tile's queue is applied and leaves the queue. KEY_GEN_FENCE outside a unit reset: an ADOPT fence brings its
region's sweep state, and waits for the earlier requests of its Stall; a RETIRE fence makes the generation unusable. KEY_GEN_FENCE_ACK:
a fence that waits for no request is acknowledged; one that waits is not. MSE_SQUASH_ORDER with no hazard entry: every outstanding
request of the Stall is answered POISON, and the refusal map refuses the Stall. LEDGER_INVALIDATE: the region's entry leaves the entry
cache. REFUSAL_MAP_UPDATE: at an MSE, an LSE or an HSE the Stall's bit is set or cleared. LEDGER_CACHE_FILL for a request that waits for
the entry: the entry is the newest of the cache; with no such request nothing happens. POOL_LEDGER_LINE_FILL of a line not asked for
does nothing; of a line that authenticates, it is cached and no read of it is outstanding. EPOCH_APPLY: the tile's epoch is the global
one, and the tile is no longer waited for. -/
def Obligations.TileMessages : Prop :=
  (∀ (s : State) (m stall : Nat) (e : Mse) (w : TileSweep) (q : List SpineMsg), s.mse[m]? = some e → s.inUnitReset (unitMse m) = false →
    e.spine.queue = .adopt w stall :: q → s.ldg.changes = [] →
    ∃ t, exec (.keyGenFence m) s = .next t ∧ t.out = [] ∧ (t.mse[m]?).map (·.work) = some e.work ∧
      (t.mse[m]?).map (fun x => (x.sweeps, x.spine.queue, x.spine.refused)) =
        some (e.sweeps.filter (fun x => x.region ≠ w.region) ++ [w], q, e.spine.refused) ∧
      (t.mse[m]?).any (fun x => x.spine.acks.contains (.adopt w stall, e.earlier fun r => r.stall = stall)) = true ∧ s.onlyMse m t) ∧
  (∀ (s : State) (m stall gen : Nat) (e : Mse) (q : List SpineMsg), s.mse[m]? = some e → s.inUnitReset (unitMse m) = false →
    e.spine.queue = .retire stall gen :: q → s.ldg.changes = [] →
    ∃ t, exec (.keyGenFence m) s = .next t ∧ t.out = [] ∧ (t.mse[m]?).map (·.work) = some e.work ∧
      (t.mse[m]?).map (fun x => (x.retired, x.spine.queue)) = some (e.retired ++ [(stall, gen)], q) ∧ s.onlyMse m t) ∧
  (∀ (s : State) (m : Nat) (e : Mse) (a : SpineMsg × List (Bool × Nat)), s.mse[m]? = some e → e.spine.acks = [a] → a.1.isFence = true →
    a.2.all (fun w => e.requests.any fun r => decide (r.write = w.1 ∧ r.id = w.2)) = true → s.ldg.changes = [] →
    ∃ t, exec (.keyGenFenceAck m) s = .next t ∧ t.out = [] ∧ (t.mse[m]?).map (·.work) = some e.work ∧
      (t.mse[m]?).map (·.spine.acks) = some (if a.2.isEmpty then [] else [a]) ∧ s.onlyMse m t) ∧
  (∀ (s : State) (m stall : Nat) (e : Mse) (q : List SpineMsg), s.mse[m]? = some e → e.spine.queue = .squash stall :: q → e.hazards = [] →
    s.ldg.changes = [] →
    ∃ t, exec (.mseSquashOrder m) s = .next t ∧
      t.out = (e.requests.filter fun r => r.stall = stall).map (answerBad m .poison) ∧
      (t.mse[m]?).any (fun x => x.requests.all fun r => r.stall ≠ stall) = true ∧
      (t.mse[m]?).map (·.spine.queue) = some q ∧ (t.mse[m]?).any (fun x => x.spine.refused.contains stall) = true ∧ s.onlyMse m t) ∧
  (∀ (s : State) (m : Nat) (e : Mse) (r : RegionId) (q : List SpineMsg), s.mse[m]? = some e → s.inUnitReset (unitMse m) = false →
    e.spine.queue = .invalidate r :: q → s.ldg.changes = [] →
    ∃ t, exec (.ledgerInvalidate m) s = .next t ∧ t.out = [] ∧ (t.mse[m]?).map (·.work) = some e.work ∧
      (t.mse[m]?).map (fun x => (x.ledger, x.spine.queue)) = some (e.ledger.filter (fun p => p.1 ≠ r), q) ∧ s.onlyMse m t) ∧
  (∀ (s : State) (m stall : Nat) (on : Bool) (e : Mse) (q : List SpineMsg), m < 0x40 → s.mse[m]? = some e → s.inUnitReset m = false →
    e.spine.queue = .refusal stall on :: q → s.ldg.changes = [] →
    ∃ t, exec (.refusalMapUpdate m) s = .next t ∧ t.out = [] ∧ (t.mse[m]?).map (·.work) = some e.work ∧
      (t.mse[m]?).map (fun x => (x.spine.refused.contains stall, x.spine.queue)) = some (on, q) ∧ s.onlyMse m t) ∧
  (∀ (s : State) (i stall : Nat) (on : Bool) (l : Lse) (q : List SpineMsg), i < 0x40 → s.lse[i]? = some l →
    l.spine.queue = .refusal stall on :: q →
    ∃ t, exec (.refusalMapUpdate (0x40 + i)) s = .next t ∧ t.out = [] ∧
      (t.lse[i]?).map (fun x => (x.spine.refused.contains stall, x.spine.queue)) = some (on, q) ∧
      t = { s with out := [], lse := t.lse } ∧ t.lse.length = s.lse.length) ∧
  (∀ (s : State) (i stall : Nat) (on : Bool) (h : Hse) (q : List SpineMsg), s.hse[i]? = some h →
    h.spine.queue = .refusal stall on :: q →
    ∃ t, exec (.refusalMapUpdate (0x80 + i)) s = .next t ∧ t.out = [] ∧
      (t.hse[i]?).map (fun x => (x.spine.refused.contains stall, x.spine.queue)) = some (on, q) ∧
      t = { s with out := [], hse := t.hse } ∧ t.hse.length = s.hse.length) ∧
  (∀ (s : State) (m index : Nat) (pool : Bool) (e : Mse), s.mse[m]? = some e → s.ldg.changes = [] → e.spine.acks = [] →
    e.held.any (fun p => p.2 = .ledger ∧ s.regionOf (sectorAddr p.1.sector) = some ⟨pool, index⟩) = false →
    exec (.ledgerCacheFill m pool index) s = .next s.begin) ∧
  (∀ (s : State) (m index : Nat) (pool : Bool) (e : Mse), s.mse[m]? = some e → s.ldg.changes = [] →
    e.held.any (fun p => p.2 = .ledger ∧ s.regionOf (sectorAddr p.1.sector) = some ⟨pool, index⟩) = true →
    ∃ t, exec (.ledgerCacheFill m pool index) s = .next t ∧
      (t.mse[m]?).map (·.ledger) = some (((⟨pool, index⟩, s.entry ⟨pool, index⟩) :: e.ledger.filter fun p => p.1 ≠ ⟨pool, index⟩).take 1024) ∧
      t.epo = s.epo ∧ t.swp = s.swp ∧ t.rst = s.rst ∧ t.ldg.localEntries = s.ldg.localEntries ∧ t.hlm.cwq = s.hlm.cwq) ∧
  (∀ (s : State) (line : Nat) (data : Bytes), s.ldg.poolReads.contains line = false →
    exec (.poolLedgerLineFill line data) s = .next s.begin) ∧
  (∀ (s : State) (line : Nat) (data : Bytes), s.ldg.poolReads.contains line = true → s.mse.all (fun e => e.held.isEmpty && e.hazards.isEmpty) = true →
    (gcmOpen (s.storeKey 4) (storeNonce s.ldg.storeId ((assocGet line s.ldg.versions).getD 0)) (leBytes 4 line) (data.take 112)
      (slice data 112 16)).isSome = true →
    exec (.poolLedgerLineFill line data) s = .next { s with
      out := []
      ldg := { s.ldg with
        poolReads := s.ldg.poolReads.filter (· ≠ line)
        poolCache := (line :: s.ldg.poolCache).take 1024 } }) ∧
  (∀ (s : State) (m : Nat) (e : Mse), s.mse[m]? = some e → s.epo.unacked.contains m = true → s.ldg.changes = [] → e.spine.acks = [] →
    exec (.epochApply m) s = .next { s with
      out := []
      mse := listSet s.mse m fun e => { e with epoch := s.epo.epoch }
      epo := { s.epo with unacked := s.epo.unacked.filter (· ≠ m) } })

/-- With a store record in flight. SWEEP_SLOT_START: in full mode, not paused, outside core reset and the quiet state, the lowest free slot
takes the next order by priority, once its ADOPT fence is acknowledged, opens stride 0 with no sector done, and its checkpoint waits for
a record; otherwise nothing changes. STRIDE_CHECKPOINT of a slot whose 512 sectors are done, not the last of a ZERO fill: the checkpoint
of the next stride waits for a record; with a sector not done nothing changes. ZERO_FILL_DONE of a finished fill: the slot is free and
the SEALED entry is granted once anchored. SWEEP_RETIRE with no region left: every MSE is sent the RETIRE fence. SWEEP_DONE after every
acknowledgement: the old generation has no slot and no key table entry, the sweep is over, and EV_SWEEP_DONE is raised.
HARBOUR_RESEAL_DONE with no boot-key region left: the boot key's slot is gone. SWEEPER_YIELD_END before its time does nothing; at its
time the yield is over, and at YIELD_MAX none begins for two ticks. -/
def Obligations.SweeperSteps : Prop :=
  (∀ (s : State) (k : Nat) (o : SweepOrder), firstFree s.swp.slots 0 16 = some k → s.nextOrder = some o → s.ald.full = true →
    s.swp.paused = false → s.rst.coreReset = none → s.alr.quiet = false → s.adoptPending o = false → s.ldg.flight.isSome = true →
    ∃ t, exec .sweepSlotStart s = .next t ∧
      assocGet k t.swp.slots = some { order := o, stride := 0, done := [], bandHi := 0, waiting := false, eS := s.ackedEpoch } ∧
      t = { s with
        out := []
        swp := { s.swp with slots := t.swp.slots, queue := s.swp.queue.eraseP (· = o) }
        ldg := { s.ldg with items := s.ldg.items ++
          [.stride k 0 { order := o, stride := 0, done := [], bandHi := 0, waiting := false, eS := s.ackedEpoch }] } }) ∧
  (∀ (s : State), s.ald.full = false ∨ s.swp.paused = true ∨ s.rst.coreReset.isSome = true ∨ s.alr.quiet = true →
    exec .sweepSlotStart s = .next s.begin) ∧
  (∀ (s : State) (k : Nat) (w : SweepSlot), assocGet k s.swp.slots = some w → w.waiting = false → w.strideDone = true →
    (w.order.kind = .zero → w.stride < 63) → s.ldg.flight.isSome = true →
    exec (.strideCheckpoint k) s = .next { s with
      out := []
      swp := { s.swp with slots := assocSet k { w with waiting := true } s.swp.slots }
      ldg := { s.ldg with items := s.ldg.items ++ [.stride k (w.stride + 1) { w with stride := w.stride + 1, done := [] }] } }) ∧
  (∀ (s : State) (k : Nat) (w : SweepSlot), assocGet k s.swp.slots = some w → w.strideDone = false →
    exec (.strideCheckpoint k) s = .next s.begin) ∧
  (∀ (s : State) (k : Nat) (w : SweepSlot) (e : LdgEntry), assocGet k s.swp.slots = some w → w.order.kind = .zero → 63 ≤ w.stride →
    w.strideDone = true → s.ldg.flight.isSome = true → s.stallState w.order.stall ≠ .frozen →
    e = { s.entry w.order.region with state := .sealed, sweep := false } →
    exec (.zeroFillDone k) s = .next { s with
      out := []
      swp := { s.swp with slots := assocDel k s.swp.slots }
      ldg := { s.ldg with
        grants := s.ldg.grants ++ [(w.order.region, e)]
        waits := s.ldg.waits.map (AnchorWait.settle w.order.region (.entry w.order.region e))
        items := s.ldg.items ++ [.entry w.order.region e, .stride k 64 { w with stride := 64, done := [] }] } }) ∧
  (∀ (s : State) (stall : Nat) (k : KeySweep), s.swp.sweeps.find? (fun k => k.stall = stall) = some k → k.retiring = false →
    s.swp.queue.any (fun o => decide (o.stall = stall ∧ (o.kind = .key ∨ o.kind = .band)) && !o.bootOld) = false →
    s.swp.slots.any (fun p => decide (p.2.order.stall = stall ∧ (p.2.order.kind = .key ∨ p.2.order.kind = .band)) && !p.2.order.bootOld) = false →
    exec (.sweepRetire stall) s = .next { s with
      out := []
      mse := s.mse.map fun e => { e with spine := e.spine.send (.retire stall k.old) }
      swp := { s.swp with sweeps := s.swp.sweeps.map fun x => if x = k then { k with retiring := true } else x } }) ∧
  (∀ (s : State) (stall h : Nat) (k : KeySweep) (d : StallData), s.swp.sweeps.find? (fun k => k.stall = stall) = some k → k.retiring = true →
    s.spineHolds (.retire stall k.old) = false → s.regionHandle stall = some h → s.stallData? stall = some d →
    ∃ t, exec (.sweepDone stall) s = .next t ∧ t.swp = { s.swp with sweeps := s.swp.sweeps.filter (· ≠ k) } ∧
      t.sbx.slots = s.sbx.slots.filter (fun p => ¬ (p.2.handle = h ∧ p.2.gen = k.old)) ∧
      t.stallData? stall = some { d with keys := d.keys.filter fun e => ¬ (e.handle = h ∧ e.gen = k.old) } ∧
      t.hlm = (s.event evSweepDone unitLedger (some stall) 0 k.old).hlm ∧ t.stl.table = s.stl.table ∧ t.ldg = s.ldg ∧ t.mse = s.mse ∧
      t.epo = s.epo ∧ t.rst = s.rst) ∧
  (∀ (s : State), s.ald.harbourReseal = true → s.ldg.localEntries.any (fun p => decide (p.2.state = .boot)) = false →
    s.swp.queue.any (·.bootOld) = false → s.swp.slots.any (fun p => p.2.order.bootOld) = false →
    ∃ t, exec .harbourResealDone s = .next t ∧ t.ald = { s.ald with harbourReseal := false } ∧
      t.sbx.slots = s.sbx.slots.filter (fun p => ¬ (p.2.handle = bootHandle ∧ p.2.gen = 0)) ∧ t = { s with out := [], ald := t.ald, sbx := t.sbx }) ∧
  (∀ (s : State) (first till : Nat), s.swp.yield = some (first, till) → s.clk.elapsed < min till (first + s.cfg.engine.yieldMax * 1000000) →
    exec .sweeperYieldEnd s = .next s.begin) ∧
  (∀ (s : State) (first till : Nat), s.swp.yield = some (first, till) → min till (first + s.cfg.engine.yieldMax * 1000000) ≤ s.clk.elapsed →
    exec .sweeperYieldEnd s = .next { s with
      out := []
      swp := { s.swp with
        yield := none
        yieldBlocked := if first + s.cfg.engine.yieldMax * 1000000 ≤ till then 2 else s.swp.yieldBlocked } })

/-- DELTA_RECORD_ACK, outside the quiet state, of a record without base marker and with nothing else waiting: the anchor is valid with the
current epoch, the record's SEQ and the hash of its old root with the record's bytes, no record is in flight, and SINCE_BASE is one
more; in the quiet state nothing changes. BASE_MARKER_ACK of a marker: the anchor's root restarts from the marker's digest, BASE_SLOT
changes, SINCE_BASE is 0, no base is being written, and a restore is over. LEDGER_DED of a local entry whose owner in the store is a
Stall not yet LOST: the region is QUARANTINED with that owner, every MSE is told, the Stall is LOST with cause LEDGER (2), AL_INTEGRITY
is raised, and the Sounding of its row is owed. LEDGER_ROW_SOUNDING_DONE of a row not under test does nothing; a row that passes is
over; one that fails goes to a spare while fewer than 64 are used, with EV_LDG_ROW_REPAIR; with none left its regions are quarantined. -/
def Obligations.LedgerStore : Prop :=
  (∀ (s : State) (r : DeltaRecord), s.ldg.flight = some r → s.alr.quiet = false →
    r.items.any (fun i => match i with | .base _ => true | _ => false) = false → s.ldg.items = [] → s.ldg.sinceBase + 1 < 131072 →
    ∃ t, exec .deltaRecordAck s = .next t ∧
      t.ldg.anchor = { valid := true, clearedByTamper := s.ldg.anchor.clearedByTamper, epoch := s.epo.epoch
                       root := sha384 (s.ldg.anchor.root ++ s.recordBytes r), seq := r.seq } ∧
      t.ldg.flight = none ∧ t.ldg.sinceBase = s.ldg.sinceBase + 1 ∧ t.epo = s.epo ∧ t.rst = s.rst ∧ t.sbx.slots = s.sbx.slots) ∧
  (∀ (s : State), s.alr.quiet = true → exec .deltaRecordAck s = .next s.begin) ∧
  (∀ (s : State) (r : DeltaRecord) (sha : Bytes), s.ldg.flight = some r → s.alr.quiet = false → r.items = [.base sha] → s.ldg.items = [] →
    ∃ t, exec .baseMarkerAck s = .next t ∧
      t.ldg.anchor = { valid := true, clearedByTamper := s.ldg.anchor.clearedByTamper, epoch := s.epo.epoch
                       root := sha384 (sha ++ s.recordBytes r), seq := r.seq } ∧
      t.ldg.flight = none ∧ t.ldg.sinceBase = 0 ∧ t.ldg.baseSlotB = !s.ldg.baseSlotB ∧ t.ldg.baseBusy = false ∧ t.ldg.restoring = false ∧
      t.ald.restored = (s.ald.restored || s.ldg.restoring) ∧ t.ldg.store = s.ldg.baseImage.getD s.ldg.store ∧ t.epo = s.epo ∧
      t.sbx = s.sbx ∧ t.mse = s.mse) ∧
  (∀ (s : State) (index : Nat) (e : LdgEntry) (x : Stall), assocGet index s.ldg.store.localEntries = some e → e.owner ≠ 0 →
    s.stall? e.owner = some x → x.state ≠ .lost → x.state ≠ .removing →
    ∃ t, exec (.ledgerDed false index) s = .next t ∧ t.entry ⟨false, index⟩ = { e with state := .quarantined, sweep := false } ∧
      t.mse.all (fun m => m.spine.queue.contains (.invalidate ⟨false, index⟩)) = true ∧
      t.stall? e.owner = some { x with state := .lost, lostCause := 2 } ∧ t.alr.integrity = true ∧ t.hlm.irqAlarm = true ∧
      t.ldg.rowTests.contains (index / 8) = true ∧ t.ldg.dedCount = satAdd 65535 s.ldg.dedCount 1 ∧ t.epo = s.epo ∧ t.rst = s.rst ∧
      t.sbx.slots = s.sbx.slots ∧ t.ldg.anchor = s.ldg.anchor) ∧
  (∀ (s : State) (row : Nat) (pass : Bool), s.ldg.rowTests.contains row = false → exec (.ledgerRowSoundingDone row pass) s = .next s.begin) ∧
  (∀ (s : State) (row : Nat), s.ldg.rowTests.contains row = true →
    ∃ t, exec (.ledgerRowSoundingDone row true) s = .next t ∧ t.ldg = { s.ldg with rowTests := s.ldg.rowTests.filter (· ≠ row) } ∧
      t.hlm = (s.event evSounding unitLedger none 1 2).hlm ∧ t.alr = { s.alr with soundRow := satAdd 63 s.alr.soundRow 1 } ∧
      t = { s with out := [], ldg := t.ldg, hlm := t.hlm, alr := t.alr, obs := t.obs }) ∧
  (∀ (s : State) (row : Nat), s.ldg.rowTests.contains row = true → s.cht.rows.length < 64 →
    ∃ t, exec (.ledgerRowSoundingDone row false) s = .next t ∧ t.ldg = { s.ldg with rowTests := s.ldg.rowTests.filter (· ≠ row) } ∧
      t.hlm = ((s.event evSounding unitLedger none 1 1).event evLdgRowRepair unitLedger none row 1).hlm ∧
      t.cht = { s.cht with rows := s.cht.rows ++ [row] } ∧
      t = { s with out := [], ldg := t.ldg, hlm := t.hlm, alr := t.alr, obs := t.obs, cht := t.cht, ald := t.ald }) ∧
  (∀ (s : State) (row : Nat), s.ldg.rowTests.contains row = true → 64 ≤ s.cht.rows.length →
    ∃ t, exec (.ledgerRowSoundingDone row false) s = .next t ∧ t.ldg.rowsExhausted = true ∧ t.cht = s.cht ∧
      (List.range 8).all (fun j => decide ((t.entry ⟨false, 8 * row + j⟩).state = .quarantined)) = true)

/-- LSE_TX_REQUEST on a ready port of a link with keys, in full mode, for the peer, with a good size and address, of a Stall not refused, in
a window that permits and covers it: the request is outstanding under its window, and its unit is sealed under the transmit key into the
transmit buffer, with SEQ and key use counted. Where a check fails it is answered REFUSED, counted, and nothing is outstanding.
LSE_HOST_RESPONSE on a ready port: the inbound request it matches is over and the response is sealed; without a match the orphan count
rises. LSE_UNIT_SENT: the first unit leaves, and T_DEAD of its request starts. LSE_DEAD_TARGET: before T_DEAD nothing; at T_DEAD, with
no revocation owed, the request is answered POISON and is over. In the quiet state a request is answered POISON at once. Only that LSE,
its windows, key slots and counters change. -/
def Obligations.LinkTransmission : Prop :=
  (∀ (s : State) (l kind stall dst tc addr id nbytes k : Nat) (data : Bytes) (e : Lse) (w : Window) (u : UnitSpec), s.lse[l]? = some e →
    s.lseReady l e true nbytes = true → kind < 4 → tc < 4 → e.out.any (fun x => x.id = id) = false → e.usable = true → s.ald.full = true →
    dst = e.peerChip → linkSizeOk kind addr nbytes = true → addr < 2 ^ 44 → e.spine.refused.contains stall = false →
    s.refusesStall stall = false → s.windowFor stall dst kind addr nbytes = some (k, w) →
    u = ⟨kind, 0, w.tstall, id, nbytes, addr, tc, if kind = 0 then [] else (padTo nbytes data).take nbytes, some stall, some id⟩ →
    e.carries u →
    ∃ t, exec (.lseTxRequest l kind stall dst tc addr id nbytes data) s = .next t ∧ t.out = [] ∧
      t.lse[l]? = some (({ e with
        out := e.out ++ [{ id, kind, stall, nbytes, window := k, tc, sentAt := none }] } : Lse).sent s.dom.chip l u) ∧
      t.rwt = s.rwt ∧ s.onlyLse l t) ∧
  (∀ (s : State) (l kind stall dst tc addr id nbytes : Nat) (data : Bytes) (e : Lse), s.lse[l]? = some e →
    s.lseReady l e true nbytes = true → kind < 4 → tc < 4 →
    e.out.any (fun x => x.id = id) = true ∨ e.usable = false ∨ s.ald.full = false ∨ dst ≠ e.peerChip ∨
      linkSizeOk kind addr nbytes = false ∨ 2 ^ 44 ≤ addr ∨ e.spine.refused.contains stall = true ∨ s.refusesStall stall = true ∨
      s.windowFor stall dst kind addr nbytes = none →
    ∃ t, exec (.lseTxRequest l kind stall dst tc addr id nbytes data) s = .next t ∧
      t.out = [.hr l (respKind kind) e.peerChip tc 0 id .refused 0 (onesData (badBytes kind nbytes))] ∧
      (t.lse[l]?).map (fun x => (x.out, x.txBuf, x.refusedCount)) = some (e.out, e.txBuf, satAdd 65535 e.refusedCount 1) ∧
      t.rwt = s.rwt ∧ s.onlyLse l t) ∧
  (∀ (s : State) (l kind stall dst tc addr id nbytes : Nat) (data : Bytes) (e : Lse), s.lse[l]? = some e → s.quietOpen = true →
    ∃ t, exec (.lseTxRequest l kind stall dst tc addr id nbytes data) s = .next t ∧
      t.out = [.hr l (respKind kind) e.peerChip tc 0 id .poison 0 (onesData (badBytes kind nbytes))] ∧
      t = { s with out := t.out, obs := t.obs }) ∧
  (∀ (s : State) (l kind id st : Nat) (data : Bytes) (e : Lse) (r : InReq) (u : UnitSpec), s.lse[l]? = some e →
    s.lseReady l e false data.length = true → e.inbound.find? (fun r => r.id = id ∧ respKind r.kind = kind) = some r →
    u = ⟨kind, st % 4, 0, id, if kind < 6 then r.nbytes else 0, 0, r.tc,
      if kind < 6 ∧ st % 4 = 0 then (padTo r.nbytes data).take r.nbytes else [], none, none⟩ →
    e.carries u →
    ∃ t, exec (.lseHostResponse l kind id st data) s = .next t ∧ t.out = [] ∧
      t.lse[l]? = some (({ e with inbound := e.inbound.eraseP (· = r) } : Lse).sent s.dom.chip l u) ∧ t.rwt = s.rwt ∧ s.onlyLse l t) ∧
  (∀ (s : State) (l kind id st : Nat) (data : Bytes) (e : Lse), s.lse[l]? = some e → s.lseReady l e false data.length = true →
    e.inbound.find? (fun r => r.id = id ∧ respKind r.kind = kind) = none →
    exec (.lseHostResponse l kind id st data) s = .next { s with
      out := []
      lse := listSet s.lse l fun x => { x with orphanCount := satAdd 255 x.orphanCount 1 } }) ∧
  (∀ (s : State) (l : Nat) (e : Lse) (u : TxUnit) (rest : List TxUnit), s.lse[l]? = some e → s.alr.quiet = false → s.rst.dataClosed = false →
    e.halts = false → s.inUnitReset (unitLse l) = false → e.txBuf = u :: rest → e.tx.kgen < 255 → e.rx.kgen < 255 →
    ∃ t, exec (.lseUnitSent l) s = .next t ∧ t.out = [.lt l u.bytes] ∧
      t.lse[l]? = some { e with
        txBuf := rest
        out := e.out.map fun o => if some o.id = u.outId ∧ o.sentAt.isNone then { o with sentAt := some s.clk.elapsed } else o } ∧
      t.rwt = s.rwt ∧ t.sbx = s.sbx ∧ s.onlyLse l t) ∧
  (∀ (s : State) (l id at_ : Nat) (e : Lse) (o : OutReq), s.lse[l]? = some e → e.out.find? (fun o => o.id = id) = some o →
    o.sentAt = some at_ → s.clk.elapsed < at_ + s.cfg.engine.tDead * 1000 → exec (.lseDeadTarget l id) s = .next s.begin) ∧
  (∀ (s : State) (l id at_ : Nat) (e : Lse) (o : OutReq), s.lse[l]? = some e → e.out.find? (fun o => o.id = id) = some o →
    o.sentAt = some at_ → at_ + s.cfg.engine.tDead * 1000 ≤ s.clk.elapsed → e.revokes = [] →
    ∃ t, exec (.lseDeadTarget l id) s = .next t ∧
      t.out = [.hr l (respKind o.kind) e.peerChip o.tc 0 o.id .poison 0 (onesData (badBytes o.kind o.nbytes))] ∧
      t.lse[l]? = some { e with out := e.out.eraseP (· = o), deadCount := satAdd 255 e.deadCount 1, deadRaised := true } ∧
      t.rwt = s.rwt ∧ t.sbx = s.sbx ∧ s.onlyLse l t)

/-- LSE_RX_UNIT in service, the link not DOWN, no unit reset, room in the buffer. A unit with an error is counted lost. A unit with a wrong
version is an integrity failure, counted, with AL_INTEGRITY raised, the link not DOWN below INTEG_LIMIT. A sealed unit from the peer
under the current receive key whose tag verifies, whose header keeps the rules, and whose SEQ is the expected one enters the receive
buffer, with SEQ and key use counted; with a SEQ already seen it is an integrity failure and enters nothing. LSE_RX_REQUEST: the first
request goes to the host with TSTALL and ADDR and is inbound. LSE_RX_RESPONSE, with no revocation owed: the first response answers its
outbound request, which is over. LINK_KEY_DERIVED of a wanted transmit key, outside a resync: the key of the next generation waits in
the transition slot. RESYNC_RECEIVE: RESYNC leaves the buffer, and a transmit direction behind its receive direction asks for its next
key. -/
def Obligations.LinkReceive : Prop :=
  (∀ (s : State) (l : Nat) (unit : Bytes) (e : Lse), s.lse[l]? = some e → s.serving → s.ald.noAlmanac = false → e.down = false →
    s.inUnitReset (unitLse l) = false → e.rxBytes + unit.length ≤ 32768 →
    ∃ t, exec (.lseRxUnit l unit true) s = .next t ∧ t.out = [] ∧
      t.lse[l]? = some { e with lostCount := satAdd 65535 e.lostCount 1 } ∧ t.rwt = s.rwt ∧ t.sbx = s.sbx ∧ s.onlyLse l t) ∧
  (∀ (s : State) (l : Nat) (unit : Bytes) (e : Lse), s.lse[l]? = some e → s.serving → s.ald.noAlmanac = false → e.down = false →
    s.inUnitReset (unitLse l) = false → e.rxBytes + unit.length ≤ 32768 → leField unit 6 1 ≠ 1 →
    (e.failures.filter fun t => s.clk.elapsed < t + 1000000).length + 1 < s.cfg.engine.integLimit →
    ∃ t, exec (.lseRxUnit l unit false) s = .next t ∧ t.out = [] ∧ t.alr.integrity = true ∧ t.hlm.irqAlarm = true ∧
      t.lse[l]? = some { e with
        integCount := satAdd 65535 e.integCount 1
        failures := (e.failures.filter fun t => s.clk.elapsed < t + 1000000) ++ [s.clk.elapsed] } ∧
      t.rwt = s.rwt ∧ t.sbx = s.sbx ∧ s.onlyLse l t) ∧
  (∀ (s : State) (l tc : Nat) (unit pt : Bytes) (e : Lse) (u : RxUnit), s.lse[l]? = some e → s.serving → s.ald.noAlmanac = false →
    e.down = false → s.inUnitReset (unitLse l) = false → e.rxBytes + unit.length ≤ 32768 → 48 ≤ unit.length → unit.length ≤ 4144 →
    leField unit 6 1 = 1 → leField unit 7 1 = 0 → leField unit 0 2 = e.peerChip → leField unit 2 2 = s.dom.chip →
    leField unit 4 1 % 64 = e.peerPort → tc = leField unit 4 1 / 64 → e.keyed = true → e.rxNext = none → e.resync = false →
    leField unit 5 1 = e.rx.kgen → e.tx.kgen < 255 → e.rx.kgen < 255 →
    gcmOpen e.rx.key (linkNonce (leField unit 0 2) (leField unit 4 1 % 64) tc e.rx.kgen (leField unit 8 8)) (unit.take 16)
      (slice unit 16 (unit.length - 32)) (unit.drop (unit.length - 16)) = some pt →
    u = rxUnit (leField unit 0 2) tc pt → u.formed = true → u.kind ≠ 7 → u.kind ≠ 3 → leField unit 8 8 = e.rx.seq.getD tc 0 →
    (e.rx.count tc (leField unit 8 8 + 1) u.payload.length).worn = false →
    ∃ t, exec (.lseRxUnit l unit false) s = .next t ∧ t.out = [] ∧
      t.lse[l]? = some { e with rx := e.rx.count tc (leField unit 8 8 + 1) u.payload.length, rxBuf := e.rxBuf ++ [u] } ∧
      t.rwt = s.rwt ∧ s.onlyLse l t) ∧
  (∀ (s : State) (l tc : Nat) (unit pt : Bytes) (e : Lse), s.lse[l]? = some e → s.serving → s.ald.noAlmanac = false →
    e.down = false → s.inUnitReset (unitLse l) = false → e.rxBytes + unit.length ≤ 32768 → 48 ≤ unit.length → unit.length ≤ 4144 →
    leField unit 6 1 = 1 → leField unit 7 1 = 0 → leField unit 0 2 = e.peerChip → leField unit 2 2 = s.dom.chip →
    leField unit 4 1 % 64 = e.peerPort → tc = leField unit 4 1 / 64 → e.keyed = true → e.rxNext = none → e.resync = false →
    leField unit 5 1 = e.rx.kgen → e.tx.kgen < 255 → e.rx.kgen < 255 →
    gcmOpen e.rx.key (linkNonce (leField unit 0 2) (leField unit 4 1 % 64) tc e.rx.kgen (leField unit 8 8)) (unit.take 16)
      (slice unit 16 (unit.length - 32)) (unit.drop (unit.length - 16)) = some pt →
    (rxUnit (leField unit 0 2) tc pt).formed = true → (rxUnit (leField unit 0 2) tc pt).kind ≠ 7 → leField unit 8 8 < e.rx.seq.getD tc 0 →
    (e.failures.filter fun t => s.clk.elapsed < t + 1000000).length + 1 < s.cfg.engine.integLimit →
    ∃ t, exec (.lseRxUnit l unit false) s = .next t ∧ t.out = [] ∧ t.alr.integrity = true ∧
      t.lse[l]? = some { e with
        integCount := satAdd 65535 e.integCount 1
        failures := (e.failures.filter fun t => s.clk.elapsed < t + 1000000) ++ [s.clk.elapsed] } ∧
      t.rwt = s.rwt ∧ t.sbx = s.sbx ∧ s.onlyLse l t) ∧
  (∀ (s : State) (l : Nat) (e : Lse) (u : RxUnit), s.lse[l]? = some e → e.firstHost = some u → u.kind < 4 → e.inbound.length < 1024 →
    s.alr.quiet = false →
    exec (.lseRxRequest l) s = .next { s with
      out := [.hr l u.kind u.src u.tc u.addr u.id .ok u.tstall u.payload]
      lse := listSet s.lse l fun x => { x with
        rxBuf := x.rxBuf.eraseP (· = u)
        inbound := x.inbound ++ [{ id := u.id, kind := u.kind, nbytes := u.nbytes, tc := u.tc }] } }) ∧
  (∀ (s : State) (l : Nat) (e : Lse) (u : RxUnit) (o : OutReq) (st : PortStatus), s.lse[l]? = some e → e.firstHost = some u → 4 ≤ u.kind →
    s.alr.quiet = false → e.out.find? (fun o => o.id = u.id ∧ respKind o.kind = u.kind) = some o → e.revokes = [] → st = portStatus u.sub →
    ∃ t, exec (.lseRxResponse l) s = .next t ∧
      t.out = [.hr l u.kind u.src u.tc 0 u.id st 0 (if st = .ok then u.payload else onesData (badBytes o.kind o.nbytes))] ∧
      t.lse[l]? = some { e with rxBuf := e.rxBuf.eraseP (· = u), out := e.out.eraseP (· = o) } ∧
      t.rwt = s.rwt ∧ t.sbx = s.sbx ∧ s.onlyLse l t) ∧
  (∀ (s : State) (l g : Nat) (e : Lse), s.lse[l]? = some e → e.secret ≠ [] → e.wantTx = true → e.resyncDue = false → e.rxNext = none →
    g = (if e.tx.worn then e.tx.kgen + 1 else max (e.tx.kgen + 1) e.rx.kgen) →
    ∃ t, exec (.linkKeyDerived l true) s = .next t ∧ t.out = [] ∧
      t.lse[l]? = some { e with
        txNext := some (LinkDir.start g (linkKey e.secret s.dom.chip e.peerChip l e.peerPort g e.estId))
        wantTx := false } ∧
      t.rwt = s.rwt ∧ s.onlyLse l t) ∧
  (∀ (s : State) (l : Nat) (e : Lse) (u : RxUnit), s.lse[l]? = some e → e.control [5] = some u →
    exec (.resyncReceive l) s = .next { s with
      out := []
      lse := listSet s.lse l fun x => { x with
        rxBuf := x.rxBuf.eraseP (· = u)
        wantTx := x.wantTx || (x.txNext.isNone && decide (x.tx.kgen < x.rx.kgen)) } })

/-- WINDOW_GRANT, admitted, of granules in SEALED regions of the issuer to a chip over a usable LSE with keys: the window is noted as being
granted and GRANT is sealed to the peer; regions that are not the issuer's end it with ST_REGION_STATE, no usable LSE with ST_LINK_DOWN.
GRANT_RECEIVE: the first free entry of the Remote Window Table takes the window, and GRANT_ACK carries its index; with no entry free
GRANT_ACK carries 0xFFFF. GRANT_ACK_RECEIVE: the oldest grant over the LSE takes the index and its command ends with ST_OK and the
index. WINDOW_REVOKE, admitted, of a granted window over a usable LSE: REVOKE is sealed and the revocation is timed; of an unknown
window it ends with ST_PARAM. REVOKE_RECEIVE, no request outstanding under the entry: the entry is cleared and REVOKE_ACK is sealed.
REVOKE_ACK_RECEIVE ends the window and the command with ST_OK. REVOKE_TIMEOUT before 4 T_DEAD does nothing; after it the LSE is DOWN,
its requests answered POISON. LINK_RESET, admitted, without grants: requests answered POISON, no keys, no windows, not DOWN, ST_OK. -/
def Obligations.Windows : Prop :=
  (∀ (s : State) (c : Call) (reqChip reqStall rights base size l : Nat) (e : Lse) (u : UnitSpec), s.admits c 0x0501 → reqStall < 4096 →
    rights < 16 → 0 < size → size ≤ 2 ^ 20 → s.ownsSealed c.stall (base * 4096) ((base + size) * 4096) = true →
    s.lse.zipIdx.find? (fun p => p.1.peerChip = reqChip ∧ p.1.usable) = some (e, l) →
    u = ctrlUnit 1 (leBytes 2 reqStall ++ leBytes 2 c.stall ++ leBytes 1 rights ++ zeros 3 ++ leBytes 4 base ++ leBytes 4 size) → e.carries u →
    ∃ t, exec (.windowGrant c reqChip reqStall rights base size) s = .next t ∧ t.out = [] ∧
      t.granted = s.granted ++ [{ lse := l, reqChip, index := none, stall := c.stall, reqStall, base, size, rights, call := some c, revoking := none }] ∧
      t.lse[l]? = some (e.sent s.dom.chip l u) ∧ t.rwt = s.rwt ∧ t.hlm.cwq = s.hlm.cwq ∧ s.onlyLse l t) ∧
  (∀ (s : State) (c : Call) (reqChip reqStall rights base size : Nat), s.admits c 0x0501 → reqStall < 4096 → rights < 16 → 0 < size →
    size ≤ 2 ^ 20 →
    (s.ownsSealed c.stall (base * 4096) ((base + size) * 4096) = false →
      exec (.windowGrant c reqChip reqStall rights base size) s = .next (s.begin.finish c stRegionState)) ∧
    (s.ownsSealed c.stall (base * 4096) ((base + size) * 4096) = true → s.lse.any (fun x => x.peerChip = reqChip ∧ x.usable) = false →
      exec (.windowGrant c reqChip reqStall rights base size) s = .next (s.begin.finish c stLinkDown))) ∧
  (∀ (s : State) (l k : Nat) (e : Lse) (u : RxUnit), s.lse[l]? = some e → e.control [1] = some u → s.freeWindow = some k →
    e.carries (ctrlUnit 2 (leBytes 2 k)) →
    ∃ t, exec (.grantReceive l) s = .next t ∧ t.out = [] ∧
      assocGet k t.rwt = some { reqStall := leField u.payload 0 2 % 4096, dst := e.peerChip, tstall := leField u.payload 2 2 % 4096
                                base := leField u.payload 8 4, size := leField u.payload 12 4, rights := leField u.payload 4 1 % 16 } ∧
      assocDel k t.rwt = assocDel k s.rwt ∧
      t.lse[l]? = some (({ e with rxBuf := e.rxBuf.eraseP (· = u) } : Lse).sent s.dom.chip l (ctrlUnit 2 (leBytes 2 k))) ∧ s.onlyLse l t) ∧
  (∀ (s : State) (l : Nat) (e : Lse) (u : RxUnit), s.lse[l]? = some e → e.control [1] = some u → s.freeWindow = none →
    e.carries (ctrlUnit 2 (leBytes 2 0xFFFF)) →
    ∃ t, exec (.grantReceive l) s = .next t ∧ t.out = [] ∧ t.rwt = s.rwt ∧
      t.lse[l]? = some (({ e with rxBuf := e.rxBuf.eraseP (· = u) } : Lse).sent s.dom.chip l (ctrlUnit 2 (leBytes 2 0xFFFF))) ∧ s.onlyLse l t) ∧
  (∀ (s : State) (l : Nat) (e : Lse) (u : RxUnit) (g : Granted) (c : Call), s.lse[l]? = some e → s.alr.quiet = false →
    e.control [2] = some u → s.granted.find? (fun g => g.lse = l ∧ g.index.isNone) = some g → g.call = some c → leField u.payload 0 2 ≠ 0xFFFF →
    ∃ t, exec (.grantAckReceive l) s = .next t ∧ t.out = [] ∧
      t.granted = s.granted.map (fun x => if x = g then { g with index := some (leField u.payload 0 2), call := none } else x) ∧
      s.recorded t { c.record stOk with result := leBytes 2 (leField u.payload 0 2) } ∧
      t.lse[l]? = some { e with rxBuf := e.rxBuf.eraseP (· = u) } ∧ t.rwt = s.rwt ∧ s.onlyLse l t) ∧
  (∀ (s : State) (c : Call) (reqChip index : Nat) (g : Granted) (e : Lse), s.admits c 0x0502 →
    s.granted.find? (fun g => g.reqChip = reqChip ∧ g.index = some index ∧ g.stall = c.stall ∧ g.revoking.isNone) = some g →
    s.lse[g.lse]? = some e → e.usable = true → e.carries (ctrlUnit 3 (leBytes 2 index)) →
    ∃ t, exec (.windowRevoke c reqChip index) s = .next t ∧ t.out = [] ∧
      t.granted = s.granted.map (fun x => if x = g then { g with revoking := some s.clk.elapsed, call := some c } else x) ∧
      t.lse[g.lse]? = some (e.sent s.dom.chip g.lse (ctrlUnit 3 (leBytes 2 index))) ∧ t.rwt = s.rwt ∧ s.onlyLse g.lse t) ∧
  (∀ (s : State) (c : Call) (reqChip index : Nat), s.admits c 0x0502 →
    s.granted.find? (fun g => g.reqChip = reqChip ∧ g.index = some index ∧ g.stall = c.stall ∧ g.revoking.isNone) = none →
    exec (.windowRevoke c reqChip index) s = .next (s.begin.finishDetail c stParam 0x32)) ∧
  (∀ (s : State) (l k : Nat) (e : Lse) (u : RxUnit) (w : Window), s.lse[l]? = some e → e.control [3] = some u → k = leField u.payload 0 2 →
    assocGet k s.rwt = some w → w.dst = e.peerChip → e.revokes = [] → e.out.any (fun o => decide (o.window = k)) = false →
    e.carries (ctrlUnit 4 (leBytes 2 k)) →
    ∃ t, exec (.revokeReceive l) s = .next t ∧ t.out = [] ∧ t.rwt = assocDel k s.rwt ∧
      t.lse[l]? = some (({ e with rxBuf := e.rxBuf.eraseP (· = u) } : Lse).sent s.dom.chip l (ctrlUnit 4 (leBytes 2 k))) ∧ s.onlyLse l t) ∧
  (∀ (s : State) (l : Nat) (e : Lse) (u : RxUnit) (g : Granted) (c : Call), s.lse[l]? = some e → s.alr.quiet = false →
    e.control [4] = some u → s.granted.find? (fun g => g.lse = l ∧ g.revoking.isSome ∧ g.index = some (leField u.payload 0 2)) = some g →
    g.call = some c →
    ∃ t, exec (.revokeAckReceive l) s = .next t ∧ t.out = [] ∧ t.granted = s.granted.erase g ∧ s.recorded t (c.record stOk) ∧
      t.lse[l]? = some { e with rxBuf := e.rxBuf.eraseP (· = u) } ∧ t.rwt = s.rwt ∧ s.onlyLse l t) ∧
  (∀ (s : State) (l : Nat) (e : Lse), s.lse[l]? = some e →
    s.granted.any (fun g => decide (g.lse = l) && (g.revoking.map fun r => s.expired r (4 * s.cfg.engine.tDead * 1000)).getD false) = false →
    exec (.revokeTimeout l) s = .next s.begin) ∧
  (∀ (s : State) (l : Nat) (e : Lse), s.lse[l]? = some e → e.down = false →
    s.granted.any (fun g => decide (g.lse = l) && (g.revoking.map fun r => s.expired r (4 * s.cfg.engine.tDead * 1000)).getD false) = true →
    ∃ t, exec (.revokeTimeout l) s = .next t ∧ t.out = e.out.map (poisonOut l e.peerChip) ∧
      t.lse[l]? = some { e with down := true, out := [], txBuf := [], revokes := [] } ∧
      t.granted = s.granted.filter (fun g => !(decide (g.lse = l) && (g.index.isNone || g.revoking.isSome))) ∧ t.rwt = s.rwt ∧ s.onlyLse l t) ∧
  (∀ (s : State) (c : Call) (l : Nat) (e : Lse), s.admits c 0x0503 → s.lse[l]? = some e → s.granted.any (fun g => decide (g.lse = l)) = false →
    s.dom.peers.any (fun p => p.lse = l) = false → s.dom.exchanges = [] →
    ∃ t, exec (.linkReset c l) s = .next t ∧ t.out = e.out.map (poisonOut l e.peerChip) ∧
      t.lse[l]? = some { ({ e with out := [] } : Lse).unkey with down := false } ∧ t.rwt = s.rwt.filter (fun p => p.2.dst ≠ e.peerChip) ∧
      t.granted = s.granted ∧ s.recorded t (c.record stOk) ∧ s.onlyLse l t)

/-- HSE_TX_TLP and HSE_RX_TLP at an HSE outside unit reset and the quiet state. With the stream secure and its key below 75% of its limit, a
TLP of the host leaves secured, and a received TLP whose MAC verifies is released, each with its blocks counted under the key; one whose
MAC fails is not released, the stream is Insecure, the failure is counted, AL_INTEGRITY and EV_HSE_INSECURE are raised; one outside the
stream is discarded. With no secure stream a configuration request or Message without data passes unsealed and any other TLP is
discarded and counted. In the quiet state a TLP of the host comes back as ones. XCK_BIND, admitted, with windows apart in the issuer's
regions, a binding free and random bits: the binding holds a fresh key, and ST_OK carries its number; without a free binding
ST_XCK_FULL, windows not the issuer's ST_REGION_STATE. XCK_UNBIND of the issuer's binding drops it. XCK_UNPAIRED_TIMEOUT: the oldest
tile waiting longer than T_XCK is dropped and counted; with none nothing happens. -/
def Obligations.HostStreamsAndCrosscheck : Prop :=
  (∀ (s : State) (h kind : Nat) (data secured : Bytes) (e : Hse) (x : IdeKey), s.hse[h]? = some e → s.dataOpen = true →
    s.inUnitReset (unitHse h) = false → e.halts = false → e.stream (tlpStream kind) = 1 → e.active (tlpStream kind) true = some x →
    x.blocks + tlpBlocks data.length < 3 * 2 ^ 42 →
    ∃ t, exec (.hseTxTlp h kind data secured) s = .next t ∧ t.out = [.tl h true secured] ∧
      t.hse = listSet s.hse h (fun e => { e with keys := e.keys.map fun y => if y = x then { x with blocks := x.blocks + tlpBlocks data.length } else y }) ∧
      t = { s with out := t.out, hse := t.hse, obs := t.obs, sty := t.sty }) ∧
  (∀ (s : State) (h kind : Nat) (data secured : Bytes) (e : Hse), s.hse[h]? = some e → s.dataOpen = true →
    s.inUnitReset (unitHse h) = false → e.halts = false → e.stream (tlpStream kind) ≠ 1 →
    ∃ t, exec (.hseTxTlp h kind data secured) s = .next t ∧ t.out = (if kind = 0 then [.tl h false data] else []) ∧
      t.hse = (if kind = 0 then s.hse else listSet s.hse h fun e => { e with dropped := satAdd 65535 e.dropped 1 }) ∧
      t = { s with out := t.out, hse := t.hse, obs := t.obs }) ∧
  (∀ (s : State) (h kind : Nat) (data secured : Bytes) (e : Hse), s.hse[h]? = some e → s.quietOpen = true →
    exec (.hseTxTlp h kind data secured) s = .next { s with out := [.rt h (onesData data.length)] }) ∧
  (∀ (s : State) (h kind : Nat) (data : Bytes) (e : Hse) (x : IdeKey), s.hse[h]? = some e → s.serving → s.ald.noAlmanac = false →
    s.inUnitReset (unitHse h) = false → e.stream (tlpStream kind) = 1 → e.active (tlpStream kind) false = some x →
    x.blocks + tlpBlocks data.length < 3 * 2 ^ 42 →
    ∃ t, exec (.hseRxTlp h kind true true false data) s = .next t ∧ t.out = [.rt h data] ∧
      t.hse = listSet s.hse h (fun e => { e with keys := e.keys.map fun y => if y = x then { x with blocks := x.blocks + tlpBlocks data.length } else y }) ∧
      t = { s with out := t.out, hse := t.hse, obs := t.obs, sty := t.sty }) ∧
  (∀ (s : State) (h kind : Nat) (data : Bytes) (e : Hse), s.hse[h]? = some e → s.serving → s.ald.noAlmanac = false →
    s.inUnitReset (unitHse h) = false → kind ≠ 2 → e.state = 1 →
    ∃ t, exec (.hseRxTlp h kind true false false data) s = .next t ∧ t.out = [] ∧
      t.hse = listSet s.hse h (fun e => { e with state := 2, macFail := satAdd 65535 e.macFail 1 }) ∧ t.alr.integrity = true ∧
      t.hlm.irqAlarm = true ∧ t.hlm.fifo = (s.event evHseInsecure (unitHse h) none h 0).hlm.fifo ∧
      t = { s with out := [], hse := t.hse, obs := t.obs, alr := t.alr, hlm := t.hlm }) ∧
  (∀ (s : State) (h kind : Nat) (data : Bytes) (ok : Bool) (e : Hse), s.hse[h]? = some e → s.serving → s.ald.noAlmanac = false →
    s.inUnitReset (unitHse h) = false → e.stream (tlpStream kind) = 1 ∨ kind ≠ 0 →
    ∃ t, exec (.hseRxTlp h kind false ok false data) s = .next t ∧ t.out = [] ∧
      t.hse = listSet s.hse h (fun e => { e with dropped := satAdd 65535 e.dropped 1 }) ∧ t = { s with out := [], hse := t.hse, obs := t.obs }) ∧
  (∀ (s : State) (c : Call) (winA winB tiles mode k rate action n : Nat), s.admits c 0x0504 → 0 < tiles → tiles ≤ 4096 → mode ≤ 1 →
    rate ≤ 15 → action ≤ 1 → firstFree s.xck.bindings 0 8 = some n → winA % 4096 = 0 → winB % 4096 = 0 →
    windowsApart winA winB tiles = true → s.ownsRange c.stall winA (winA + tiles * 4096) = true →
    s.ownsRange c.stall winB (winB + tiles * 4096) = true → s.sbx.entropyOk = true →
    ∃ t, exec (.xckBind c winA winB tiles mode k rate action) s = .next t ∧
      (assocGet n t.xck.bindings).map (fun b => (b.stall, b.winA, b.winB, b.tiles, b.tolerance, b.k)) =
        some (c.stall, winA, winB, tiles, decide (mode = 1), k) ∧
      (assocGet n t.xck.bindings).map (fun b => (b.rate, b.action, b.kx, b.waiting)) = some (rate, decide (action = 1), s.drawn 32, []) ∧
      assocDel n t.xck.bindings = assocDel n s.xck.bindings ∧ t.fresh = s.fresh + 1 ∧
      s.recorded t { c.record stOk with result := leBytes 1 n } ∧ t.ldg = s.ldg ∧ t.stl = s.stl ∧ t.sbx.slots = s.sbx.slots ∧ t.lse = s.lse) ∧
  (∀ (s : State) (c : Call) (winA winB tiles mode k rate action : Nat), s.admits c 0x0504 → 0 < tiles → tiles ≤ 4096 → mode ≤ 1 →
    rate ≤ 15 → action ≤ 1 →
    (firstFree s.xck.bindings 0 8 = none →
      exec (.xckBind c winA winB tiles mode k rate action) s = .next (s.begin.finish c stXckFull)) ∧
    ((firstFree s.xck.bindings 0 8).isSome = true → s.ownsRange c.stall winA (winA + tiles * 4096) = false →
      exec (.xckBind c winA winB tiles mode k rate action) s = .next (s.begin.finish c stRegionState))) ∧
  (∀ (s : State) (c : Call) (n : Nat) (b : XckBinding), s.admits c 0x0505 → assocGet n s.xck.bindings = some b → b.stall = c.stall →
    ∃ t, exec (.xckUnbind c n) s = .next t ∧ t.xck = { s.xck with bindings := assocDel n s.xck.bindings } ∧ s.recorded t (c.record stOk) ∧
      t = { s with out := [], xck := t.xck, hlm := t.hlm, obs := t.obs, alr := t.alr }) ∧
  (∀ (s : State) (n : Nat) (b : XckBinding), assocGet n s.xck.bindings = some b →
    b.waiting.any (fun w => s.expired w.since (s.cfg.engine.tXck * 1000)) = false → exec (.xckUnpairedTimeout n) s = .next s.begin) ∧
  (∀ (s : State) (n : Nat) (b : XckBinding) (w : XckTile), assocGet n s.xck.bindings = some b →
    b.waiting.find? (fun w => s.expired w.since (s.cfg.engine.tXck * 1000)) = some w → b.raised = true →
    ∃ t, exec (.xckUnpairedTimeout n) s = .next t ∧
      t.xck.bindings = s.xck.bindings.map (fun p => if p.1 = n then
        (p.1, { p.2 with waiting := p.2.waiting.erase w, unpaired := satAdd 65535 p.2.unpaired 1, raised := true }) else p) ∧
      t = { s with out := [], xck := t.xck, obs := t.obs })

/-- HYB_MSG, admitted, RESTORED, random bits at hand, room in OUT and its write answered OK. PURPOSE 4 with IN_LEN 0 for a Stall that is not
FREE, no exchange running: H1, PURPOSE, target, nonce and key, is written, the exchange is kept as initiator, and the command ends with
ST_OK and H1's length. A well-formed H1 of PURPOSE 2 for a resident Stall that may take it, no exchange of it running: H2 is written,
one pool pair is used, the exchange is kept as responder. H3 of that exchange, decapsulated and signed: the Stall is KEYED, K_EST is
HMAC-SHA-384 under TH of Z and K, H4 is written, the exchange is over, and the command waits until the record is anchored. An H3 that is
too short or does not decapsulate ends the exchange with EV_HYB_FAIL and a status the spec does not state (log 3). -/
def Obligations.HybridMessages : Prop :=
  (∀ (s : State) (c : Call) (inp flags id out_ outMax chip : Nat) (inBuf : BufRead) (o : HybOps) (cert : Option PeerCert) (bs : List BufRead)
    (x : Stall) (h1 : Bytes), s.admits c 0x0609 → flags < 2 → id < 4096 → s.ald.restored = true → s.stall? id = some x → s.sbx.entropyOk = true →
    s.dom.exchanges = [] → h1 = leBytes 1 4 ++ (leBytes 2 id ++ (padTo 16 x.inst).take 16) ++ s.drawn 32 ++ s.tookDraw.drawn 97 →
    h1.length ≤ outMax →
    ∃ t, exec (.hybMsg c inp 0 4 flags id out_ outMax chip inBuf o cert bs true) s = .next t ∧ t.out = [.memWrite c.stall out_ h1] ∧
      t.dom.exchanges.map (fun y => (y.initiator, y.purpose, y.stall, y.lse, y.h1)) = [(true, 4, id, none, h1)] ∧ t.fresh = s.fresh + 2 ∧
      s.recorded t { c.record stOk with result := leBytes 4 h1.length } ∧ t.stl = s.stl ∧ t.ldg = s.ldg ∧ t.sbx.slots = s.sbx.slots) ∧
  (∀ (s : State) (c : Call) (inp inLen id out_ outMax chip : Nat) (b : Bytes) (o : HybOps) (cert : Option PeerCert) (bs : List BufRead),
    s.admits c 0x0609 → id < 4096 → s.ald.restored = true → s.resident id = true → s.sbx.entropyOk = true → inLen ≠ 0 →
    s.hybFind 2 id chip = none → hybH1Ok b = true → leField b 0 1 = 2 → s.hybWilling 2 id chip b = true → s.sbx.poolLevel ≠ 0 →
    (s.hybH2 o).1.length ≤ outMax →
    ∃ t, exec (.hybMsg c inp inLen 2 0 id out_ outMax chip (.ok b) o cert bs true) s = .next t ∧
      t.out = [.memRead c.stall inp inLen, .memWrite c.stall out_ (s.hybH2 o).1] ∧
      t.dom.exchanges.map (fun y => (y.initiator, y.purpose, y.stall, y.h1, y.h2)) =
        s.dom.exchanges.map (fun y => (y.initiator, y.purpose, y.stall, y.h1, y.h2)) ++ [(false, 2, id, b, (s.hybH2 o).1)] ∧
      t.sbx.poolLevel = s.sbx.poolLevel - 1 ∧ s.recorded t { c.record stOk with result := leBytes 4 (s.hybH2 o).1.length } ∧
      t.stl = s.stl ∧ t.ldg = s.ldg ∧ t.sbx.slots = s.sbx.slots) ∧
  (∀ (s : State) (c : Call) (inp inLen id out_ outMax chip : Nat) (h3 th : Bytes) (o : HybOps) (cert : Option PeerCert) (bs : List BufRead)
    (e y : HybExchange) (x : Stall) (d : StallData), s.admits c 0x0609 → id < 4096 → id ≠ 0 → s.ald.restored = true → s.resident id = true →
    inLen ≠ 0 → s.hybFind 2 id chip = some e → e.initiator = false → 1568 ≤ h3.length → o.keyOk = true → o.sigOk = true →
    s.hybWilling 2 id e.chip e.h1 = true → s.stall? id = some x → s.stallData? id = some d → 48 ≤ outMax →
    y = { e with h3 := h3, standby := false } → th = sha384 (e.h1 ++ e.h2 ++ h3) →
    ∃ t, exec (.hybMsg c inp inLen 2 0 id out_ outMax chip (.ok h3) o cert bs true) s = .next t ∧
      t.out.take 2 = [.memRead c.stall inp inLen, .memWrite c.stall out_ (hmac384 (hmac384 th (o.z ++ o.k)) (th ++ [1]))] ∧
      t.stall? id = some { x with state := .keyed, keyed := true, version := x.version + 1 } ∧
      (t.stallData? id).map (fun d => (d.kEst, d.th)) = some (hmac384 th (o.z ++ o.k), th) ∧
      t.dom.exchanges = (s.dom.exchanges.map fun z => if z = e then y else z).erase y ∧
      t.ldg.waits.map (·.call) = s.ldg.waits.map (·.call) ++ [c] ∧ t.sbx.slots = s.sbx.slots ∧ t.epo = s.epo ∧ t.mse = s.mse) ∧
  (∀ (s : State) (c : Call) (inp inLen id out_ outMax chip : Nat) (h3 : Bytes) (o : HybOps) (cert : Option PeerCert) (bs : List BufRead) (ok : Bool)
    (e : HybExchange), s.admits c 0x0609 → id < 4096 → s.ald.restored = true → s.resident id = true → inLen ≠ 0 →
    s.hybFind 2 id chip = some e → e.initiator = false → h3.length < 1568 ∨ o.keyOk = false →
    ∃ t, exec (.hybMsg c inp inLen 2 0 id out_ outMax chip (.ok h3) o cert bs ok) s = .next t ∧
      t.out = [.memRead c.stall inp inLen] ∧ t.dom = { s.dom with exchanges := s.dom.exchanges.erase e } ∧
      s.recorded t (c.record (s.free % 65536)) ∧ t.fresh = s.fresh + 1 ∧
      t.hlm.fifo = (s.event evHybFail unitHelm (some e.stall) 2 (e.lse.getD 0xFF)).hlm.fifo ∧ t.stl = s.stl ∧ t.ldg = s.ldg ∧ t.sbx = s.sbx)

/-- DOMAIN_JOIN, admitted: of a chip already joined ST_DOMAIN_JOINED; a membership that fails a check ends with that check's status; one
that passes is kept, its chip, domain, SEQ and peers, and the command ends with ST_OK. DOMAIN_SUBSTITUTE with no window granted: a
membership that may replace the one held gives its SEQ and peers, every LSE whose peer changed has no keys, ST_OK; otherwise
ST_DOMAIN_PARAM. The join exchange, outside the quiet state and core reset, its message whole. JOIN_H1 from a peer with a lower chip ID
and this chip and port as target, no exchange running: the exchange is kept as responder, one pool pair used, CHAIN and H2 sealed.
JOIN_CHAIN with good certificates: noted; with a bad one the cause is recorded. JOIN_H2 with a good signature after CHAIN: CHAIN and H3
sealed. JOIN_H3, good, and JOIN_H4, matching: the link is established with K_EST. HYBRID_EXCHANGE_TIMEOUT: a responder of a link without
H3 for 10 ms fails with cause 5; with none nothing happens. -/
def Obligations.DomainFormation : Prop :=
  (∀ (s : State) (c : Call) (src len : Nat) (m : BufRead) (ok1 ok2 : Bool), s.admits c 0x060A → s.dom.joined = true →
    exec (.domainJoin c src len m ok1 ok2) s = .next (s.begin.finish c stDomainJoined)) ∧
  (∀ (s : State) (c : Call) (src len st : Nat) (b : Bytes) (ok1 ok2 : Bool), s.admits c 0x060A → s.dom.joined = false →
    s.memberStatus b ok1 ok2 = some st →
    ∃ t, exec (.domainJoin c src len (.ok b) ok1 ok2) s = .next t ∧ t.out = [.memRead c.stall src len] ∧ s.recorded t (c.record st) ∧
      t.dom = s.dom ∧ t.cht = s.cht ∧ t.lse = s.lse ∧ t.clk = s.clk) ∧
  (∀ (s : State) (c : Call) (src len : Nat) (b : Bytes) (ok1 ok2 : Bool), s.admits c 0x060A → s.dom.joined = false →
    s.memberStatus b ok1 ok2 = none →
    ∃ t, exec (.domainJoin c src len (.ok b) ok1 ok2) s = .next t ∧ t.dom.joined = true ∧ t.dom.chip = leField b 6 2 ∧
      t.dom.domainId = slice b 8 16 ∧ t.dom.seq = leField b 0x18 4 ∧ t.dom.gm = (leField b 0x1C 1).testBit 0 ∧
      t.dom.peers = memberPeers b ∧ t.dom.fwOk = memberFw b ∧ s.recorded t (c.record stOk) ∧
      (t.clk.anchored = true ∨ (s.clk.anchored = false ∧ (leField b 0x1C 1).testBit 0 = false)) ∧ t.ldg.localEntries = s.ldg.localEntries ∧
      t.stl.table = s.stl.table ∧ t.mse = s.mse) ∧
  (∀ (s : State) (c : Call) (src len : Nat) (b : Bytes) (ok1 ok2 : Bool), s.admits c 0x060B → s.dom.joined = true →
    s.memberStatus b ok1 ok2 = none → s.memberReplaces b = true → s.granted = [] →
    ∃ t, exec (.domainSubstitute c src len (.ok b) ok1 ok2) s = .next t ∧ t.dom.seq = leField b 0x18 4 ∧ t.dom.peers = memberPeers b ∧
      s.recorded t (c.record stOk) ∧ t.dom.chip = s.dom.chip ∧ t.dom.domainId = s.dom.domainId ∧
      ((memberPeers b).filter fun p => !s.dom.peers.contains p).all (fun p => (t.lse[p.lse]?).all fun e => e.secret.isEmpty) = true ∧
      t.ldg = s.ldg ∧ t.stl.table = s.stl.table ∧ t.mse = s.mse ∧ t.clk = s.clk) ∧
  (∀ (s : State) (c : Call) (src len : Nat) (b : Bytes) (ok1 ok2 : Bool), s.admits c 0x060B →
    s.dom.joined = false ∨ (s.memberStatus b ok1 ok2 = none ∧ s.memberReplaces b = false) →
    ∃ t, exec (.domainSubstitute c src len (.ok b) ok1 ok2) s = .next t ∧ s.recorded t (c.record stDomainParam) ∧ t.dom = s.dom ∧
      t.lse = s.lse ∧ t.rwt = s.rwt) ∧
  (∀ (s : State) (l : Nat) (o : HybOps) (e : Lse) (p : Peer) (h1 : Bytes), s.lse[l]? = some e → s.alr.quiet = false → s.rst.coreReset = none →
    s.sbx.poolLevel ≠ 0 → s.sbx.entropyOk = true → (s.takeMessage l 8).1 = some h1 → (s.takeMessage l 8).2.1 = false → s.joining l = false →
    s.dom.peers.find? (fun p => p.lse = l) = some p → p.chip ≤ s.dom.chip → hybH1Ok h1 = true → leField h1 0 1 = 1 →
    leField h1 1 2 = s.dom.chip → leField h1 3 1 = l →
    ∃ t, exec (.joinH1Receive l o) s = .next t ∧
      (t.dom.exchanges.filter fun x => x.lse = some l).map (fun x => (x.initiator, x.purpose, x.chip, x.port, x.h1, x.h2)) =
        [(false, 1, p.chip, p.port, h1, (s.hybH2 o).1)] ∧
      (t.lse[l]?).map (·.txBuf.length) = some (e.txBuf.length + (fragments 12 o.chain).length + (fragments 9 (s.hybH2 o).1).length) ∧
      t.sbx.poolLevel = s.sbx.poolLevel - 1 ∧ t.dom.joinErr = s.dom.joinErr ∧ t.out = [] ∧ t.ldg = s.ldg ∧ t.mse = s.mse) ∧
  (∀ (s : State) (l : Nat) (e : Lse) (x : HybExchange) (p : Peer) (k : PeerCert) (b : Bytes), s.lse[l]? = some e → s.alr.quiet = false →
    s.rst.coreReset = none → (s.takeMessage l 12).1 = some b → (s.takeMessage l 12).2.1 = false → s.joinOf l = some x →
    s.dom.peers.find? (fun p => p.lse = l) = some p →
    ∃ t, exec (.joinChainReceive l (some k)) s = .next t ∧
      (s.dom.certCause p k = none → t.dom.exchanges = s.dom.exchanges.map fun z => if z = x then { x with chainOk := true } else z) ∧
      (s.dom.certCause p k = none → t.dom.joinErr = s.dom.joinErr) ∧
      ((s.dom.certCause p k).isSome = true → t.dom.joinErr = (s.dom.certCause p k).map fun cause => (l, cause)) ∧
      t.out = [] ∧ t.ldg = s.ldg ∧ t.mse = s.mse ∧ t.sbx = s.sbx) ∧
  (∀ (s : State) (l : Nat) (o : HybOps) (e : Lse) (x : HybExchange) (h2 : Bytes), s.lse[l]? = some e → s.alr.quiet = false →
    s.rst.coreReset = none → (s.takeMessage l 9).1 = some h2 → (s.takeMessage l 9).2.1 = false → s.joinOf l = some x → x.initiator = true →
    x.h2 = [] → 1697 ≤ h2.length → x.chainOk = true → o.sigOk = true →
    ∃ t, exec (.joinH2Receive l o) s = .next t ∧
      t.dom.exchanges = s.dom.exchanges.map (fun z => if z = x then { x with
        h2 := h2
        h3 := (padTo 1568 o.ct).take 1568 ++ o.sig
        kEst := hmac384 (sha384 (x.h1 ++ h2 ++ ((padTo 1568 o.ct).take 1568 ++ o.sig))) (o.z ++ o.k) } else z) ∧
      (t.lse[l]?).map (·.txBuf.length) = some (e.txBuf.length + (fragments 12 o.chain).length +
        (fragments 10 ((padTo 1568 o.ct).take 1568 ++ o.sig)).length) ∧ t.out = [] ∧ t.ldg = s.ldg ∧ t.mse = s.mse) ∧
  (∀ (s : State) (l : Nat) (o : HybOps) (e : Lse) (x : HybExchange) (p : Peer) (h3 th : Bytes), s.lse[l]? = some e → s.alr.quiet = false →
    s.rst.coreReset = none → (s.takeMessage l 10).1 = some h3 → (s.takeMessage l 10).2.1 = false → s.joinOf l = some x →
    x.initiator = false → x.purpose = 1 → 1568 ≤ h3.length → x.chainOk = true → o.sigOk = true → o.keyOk = true →
    s.dom.peers.find? (fun p => p.lse = l) = some p → th = sha384 (x.h1 ++ x.h2 ++ h3) →
    ∃ t, exec (.joinH3Receive l o) s = .next t ∧
      (t.lse[l]?).map (fun e => (e.established, e.secret, e.estId, e.peerChip, e.peerPort)) =
        some (true, hmac384 th (o.z ++ o.k), th.take 8, p.chip, p.port) ∧
      t.dom.exchanges = (s.dom.exchanges.map fun z => if z = x then { x with h3 := h3 } else z).erase { x with h3 := h3 } ∧
      t.out = [] ∧ t.ldg = s.ldg ∧ t.mse = s.mse) ∧
  (∀ (s : State) (l : Nat) (e : Lse) (x : HybExchange) (p : Peer) (h4 : Bytes), s.lse[l]? = some e → s.alr.quiet = false →
    s.rst.coreReset = none → (s.takeMessage l 11).1 = some h4 → (s.takeMessage l 11).2.1 = false → s.joinOf l = some x →
    x.initiator = true → x.purpose = 1 → x.h3 ≠ [] → h4 = hmac384 x.kEst (x.th ++ [1]) → s.dom.peers.find? (fun p => p.lse = l) = some p →
    ∃ t, exec (.joinH4Receive l) s = .next t ∧
      (t.lse[l]?).map (fun e => (e.established, e.secret, e.estId, e.peerChip, e.peerPort)) =
        some (true, x.kEst, x.th.take 8, p.chip, p.port) ∧
      t.dom.exchanges = s.dom.exchanges.erase x ∧ t.out = [] ∧ t.ldg = s.ldg ∧ t.mse = s.mse) ∧
  (∀ (s : State), s.dom.exchanges.any (fun x => !x.initiator && x.h3.isEmpty && s.expired x.since 10000000) = false →
    exec .hybridExchangeTimeout s = .next s.begin) ∧
  (∀ (s : State) (x : HybExchange) (l : Nat),
    s.dom.exchanges.find? (fun x => !x.initiator && x.h3.isEmpty && s.expired x.since 10000000) = some x → x.lse = some l →
    ∃ t, exec .hybridExchangeTimeout s = .next t ∧ t.dom.joinErr = some (l, 5) ∧ t.dom.joinSeen = true ∧
      t.hlm = ((s.event evHybFail unitHelm none 1 l).event evJoinFail unitHelm none l 5).hlm ∧
      t = { s with out := [], dom := t.dom, hlm := t.hlm })

/-- TIME_PROBE_SEND of a joined chip that is not the grandmaster, over a usable link to its time parent with keys, a millisecond after the
last probe: the probe is sealed and its stamp kept; of the grandmaster, or before that, nothing. TIME_PROBE_RECEIVE of an anchored chip:
TIME_REPLY is sealed with t2 and the t3 of the reply before, and this t3 is kept. TIME_REPLY_RECEIVE from the parent: the stamps of the
probe are kept for the next reply; with the stamps of the probe before, half the difference of the two ways is the offset, by which an
unanchored time steps and is anchored, and an anchored one slews. TIME_UNLOCK_TIMEOUT: with an offset older than 100 ms EV_TIME_UNLOCK
is raised once; before that nothing. -/
def Obligations.DomainTime : Prop :=
  (∀ (s : State) (t1 : Nat) (e : Lse), s.dom.joined = true → s.dom.gm = false →
    ((s.dom.probeAt.map fun a => s.expired a 1000000).getD true) = true → s.lse[s.dom.timeParent]? = some e → e.usable = true →
    s.alr.quiet = false → e.carries (ctrlUnit 13 []) →
    ∃ t, exec (.timeProbeSend t1) s = .next t ∧ t.dom = { s.dom with probeAt := some s.clk.elapsed, probe := some t1 } ∧
      t.lse[s.dom.timeParent]? = some (e.sent s.dom.chip s.dom.timeParent (ctrlUnit 13 [])) ∧ t.out = [] ∧ t.clk = s.clk ∧ t.ldg = s.ldg ∧
      t.mse = s.mse ∧ t.stl.table = s.stl.table) ∧
  (∀ (s : State) (t1 a : Nat), s.dom.gm = true ∨ (s.dom.probeAt = some a ∧ s.clk.elapsed < a + 1000000) →
    exec (.timeProbeSend t1) s = .next s.begin) ∧
  (∀ (s : State) (l t2 t3 : Nat) (e : Lse) (u : RxUnit), s.lse[l]? = some e → s.alr.quiet = false →
    e.rxBuf.find? (fun u => u.kind = 7 ∧ u.sub = 13) = some u → s.clk.anchored = true →
    e.carries (ctrlUnit 14 (leBytes 8 t2 ++ leBytes 8 ((assocGet l s.dom.replies).getD 0))) →
    ∃ t, exec (.timeProbeReceive l t2 t3) s = .next t ∧ t.dom = { s.dom with replies := assocSet l t3 s.dom.replies } ∧
      t.lse[l]? = some (({ e with rxBuf := e.rxBuf.eraseP (· = u) } : Lse).sent s.dom.chip l
        (ctrlUnit 14 (leBytes 8 t2 ++ leBytes 8 ((assocGet l s.dom.replies).getD 0)))) ∧ t.out = [] ∧ t.clk = s.clk ∧ t.ldg = s.ldg ∧
      t.mse = s.mse ∧ t.stl.table = s.stl.table) ∧
  (∀ (s : State) (l t4 : Nat) (e : Lse) (u : RxUnit), s.lse[l]? = some e → s.alr.quiet = false →
    e.rxBuf.find? (fun u => u.kind = 7 ∧ u.sub = 14) = some u → l = s.dom.timeParent → s.dom.gm = false → u.payload.length = 16 →
    s.dom.prev = none →
    ∃ t, exec (.timeReplyReceive l t4) s = .next t ∧
      t.dom = { s.dom with probe := none, prev := s.dom.probe.map fun t1 => (t1, leField u.payload 0 8, t4) } ∧
      t = { s with out := [], dom := t.dom, lse := t.lse }) ∧
  (∀ (s : State) (l t4 a1 a2 a4 : Nat) (e : Lse) (u : RxUnit) (off : Int), s.lse[l]? = some e → s.alr.quiet = false →
    e.rxBuf.find? (fun u => u.kind = 7 ∧ u.sub = 14) = some u → l = s.dom.timeParent → s.dom.gm = false → u.payload.length = 16 →
    s.dom.prev = some (a1, a2, a4) → off = (((a2 : Int) - a1) - ((a4 : Int) - leField u.payload 8 8)) / 2 → s.clk.anchored = false →
    ∃ t, exec (.timeReplyReceive l t4) s = .next t ∧ t.dom.offset = off ∧ t.dom.lastOffset = some s.clk.elapsed ∧
      t.clk = { s.clk with domain := ((s.clk.domain : Int) + off / 1000).toNat, anchored := true, slew := 0 } ∧
      t = { s with out := [], dom := t.dom, lse := t.lse, clk := t.clk }) ∧
  (∀ (s : State) (l t4 a1 a2 a4 : Nat) (e : Lse) (u : RxUnit) (off : Int), s.lse[l]? = some e → s.alr.quiet = false →
    e.rxBuf.find? (fun u => u.kind = 7 ∧ u.sub = 14) = some u → l = s.dom.timeParent → s.dom.gm = false → u.payload.length = 16 →
    s.dom.prev = some (a1, a2, a4) → off = (((a2 : Int) - a1) - ((a4 : Int) - leField u.payload 8 8)) / 2 → s.clk.anchored = true →
    ∃ t, exec (.timeReplyReceive l t4) s = .next t ∧ t.dom.offset = off ∧ t.dom.lastOffset = some s.clk.elapsed ∧
      t.clk.slew = off / 1000 ∧ t.clk.domain = s.clk.domain ∧ t.clk.elapsed = s.clk.elapsed ∧ t.clk.anchored = true ∧
      t.clk.timeUnlock = ((s.clk.timeUnlock || decide (1000000 < off.natAbs)) && !decide (off.natAbs < 100000)) ∧
      t = { s with out := [], dom := t.dom, lse := t.lse, clk := t.clk, hlm := t.hlm }) ∧
  (∀ (s : State) (a : Nat), s.dom.lastOffset = some a → s.clk.elapsed < a + 100000000 → exec .timeUnlockTimeout s = .next s.begin) ∧
  (∀ (s : State) (a : Nat), s.dom.lastOffset = some a → a + 100000000 ≤ s.clk.elapsed → s.dom.unlockRaised = false →
    ∃ t, exec .timeUnlockTimeout s = .next t ∧ t.dom = { s.dom with unlockRaised := true } ∧
      t.hlm = (s.event evTimeUnlock unitHelm none (s.dom.offset % 2 ^ 64).toNat 0).hlm ∧ t = { s with out := [], dom := t.dom, hlm := t.hlm })

/-- Commands admitted, of the Mark's owner. MARK_CREATE with a spill address in the issuer's SEALED regions and a place free: the lowest
free index is bound to the issuer and the Mark is resident with value 0; without a free index ST_MARK_FULL, a spill address elsewhere
ST_REGION_STATE. MARK_SIGNAL on a resident LOCAL Mark without destinations, no wait on any: ADD and a rising SET give the new value; a
SET that does not rise ends with ST_MARK_STALE, one that would wrap poisons the Mark with cause 1 and ends with ST_MARK_WRAP; a MIRROR
gives ST_MARK_MODE, a poisoned one ST_MARK_POISONED. MARK_WAIT ends at once with COMPLETE where it is reached, else it waits.
MARK_WAIT_TIMEOUT: the oldest expired wait ends with ST_MARK_TIMEOUT; with none nothing happens. MARK_DESTROY frees the index; another's
gives ST_PARAM. MARK_ROUTE sets or removes the route. MARK_FILL_DONE, a place free and no signal waiting: a good record makes the Mark
resident, any other poisons it with cause 3. -/
def Obligations.MarkCommands : Prop :=
  (∀ (s : State) (c : Call) (spill mode ndest srcChip srcMark k : Nat) (dests : List (Nat × Nat)), s.admits c 0x0701 → spill % 256 = 0 →
    spill < 2 ^ 56 → mode ≤ 1 → ndest ≤ 12 → s.ownsSealed c.stall spill (spill + 256) = true → firstFree s.mrk.dir 0 65535 = some k →
    s.mrk.res.length < 64 →
    ∃ t, exec (.markCreate c spill mode ndest srcChip srcMark dests) s = .next t ∧
      assocGet k t.mrk.dir = some { owner := c.stall, version := 0, addr := spill, spilledAt := none } ∧
      (t.mark? k).map (fun m => (m.mirror, m.value, m.sent, m.lastSeq, m.poison)) = some (decide (mode = 1), 0, 0, 0, none) ∧
      (t.mark? k).map (fun m => m.dests.map fun d => (d.chip, d.mark)) = some (if mode = 1 then [] else dests.take ndest) ∧
      (t.mark? k).map (fun m => (m.srcChip, m.srcMark)) = some (if mode = 1 then (srcChip, srcMark) else (0, 0)) ∧
      assocDel k t.mrk.res = assocDel k s.mrk.res ∧ assocDel k t.mrk.dir = assocDel k s.mrk.dir ∧
      s.recorded t { c.record stOk with result := leBytes 2 k } ∧ t = { s with out := [], mrk := t.mrk, hlm := t.hlm, alr := t.alr, obs := t.obs }) ∧
  (∀ (s : State) (c : Call) (spill mode ndest srcChip srcMark : Nat) (dests : List (Nat × Nat)), s.admits c 0x0701 → spill % 256 = 0 →
    spill < 2 ^ 56 → mode ≤ 1 → ndest ≤ 12 →
    (s.ownsSealed c.stall spill (spill + 256) = false →
      exec (.markCreate c spill mode ndest srcChip srcMark dests) s = .next (s.begin.finish c stRegionState)) ∧
    (s.ownsSealed c.stall spill (spill + 256) = true → firstFree s.mrk.dir 0 65535 = none →
      exec (.markCreate c spill mode ndest srcChip srcMark dests) s = .next (s.begin.finish c stMarkFull))) ∧
  (∀ (s : State) (c : Call) (k op v new : Nat) (m : Mark), s.admits c 0x0703 → op ≤ 1 → s.markOwner k = some c.stall → s.mark? k = some m →
    m.mirror = false → m.poison = none → m.dests = [] → s.mrk.waits = [] → new = (if op = 1 then m.value + v else v) → new < 2 ^ 64 →
    (op = 0 → m.value < v) →
    ∃ t, exec (.markSignal c k op v) s = .next t ∧
      t.mrk = { s.mrk with res := assocSet k { m with value := new, sent := new, changed := s.clk.domain, lastUse := s.clk.elapsed } s.mrk.res } ∧
      s.recorded t (c.record stOk) ∧ t = { s with out := [], mrk := t.mrk, hlm := t.hlm, alr := t.alr, obs := t.obs }) ∧
  (∀ (s : State) (c : Call) (k v : Nat) (m : Mark), s.admits c 0x0703 → s.markOwner k = some c.stall → s.mark? k = some m →
    m.mirror = false → m.poison = none → v ≤ m.value →
    ∃ t, exec (.markSignal c k 0 v) s = .next t ∧
      t.mrk = { s.mrk with
        res := assocSet k { m with stale := m.stale + 1, lastUse := s.clk.elapsed } s.mrk.res
        stale := satAdd 65535 s.mrk.stale 1 } ∧
      s.recorded t (c.record stMarkStale)) ∧
  (∀ (s : State) (c : Call) (k v : Nat) (m : Mark), s.admits c 0x0703 → s.markOwner k = some c.stall → s.mark? k = some m →
    m.mirror = false → m.poison = none → 2 ^ 64 ≤ m.value + v → s.mrk.waits = [] → s.hlm.buffer = [] → s.hlm.tickQ = [] →
    ∃ t, exec (.markSignal c k 1 v) s = .next t ∧ (t.mark? k).map (fun m => (m.poison, m.value)) = some (some 1, m.value) ∧
      s.recorded t (c.record stMarkWrap) ∧ t.hlm.fifo = (s.event evMarkPoison unitMarks (some c.stall) k 1).hlm.fifo) ∧
  (∀ (s : State) (c : Call) (k op v : Nat) (m : Mark), s.admits c 0x0703 → op ≤ 1 → s.markOwner k = some c.stall → s.mark? k = some m →
    m.mirror = true ∨ m.poison.isSome = true →
    ∃ t, exec (.markSignal c k op v) s = .next t ∧ s.recorded t (c.record (if m.mirror then stMarkMode else stMarkPoisoned)) ∧
      t.mark? k = some { m with lastUse := s.clk.elapsed }) ∧
  (∀ (s : State) (c : Call) (k timeout v : Nat) (m : Mark), s.admits c 0x0704 → s.markOwner k = some c.stall → s.mark? k = some m →
    m.poison = none → v ≤ m.complete →
    ∃ t, exec (.markWait c k timeout v) s = .next t ∧ s.recorded t { c.record stOk with result := leBytes 8 m.complete } ∧
      t.mrk.waits = s.mrk.waits ∧ t.mark? k = some { m with lastUse := s.clk.elapsed }) ∧
  (∀ (s : State) (c : Call) (k timeout v : Nat) (m : Mark), s.admits c 0x0704 → s.markOwner k = some c.stall → s.mark? k = some m →
    m.poison = none → m.complete < v → s.mrk.waits.any (fun w => w.call = c) = false →
    ∃ t, exec (.markWait c k timeout v) s = .next t ∧ t.hlm = s.hlm ∧
      t.mrk.waits = s.mrk.waits ++ [{ call := c, index := k, value := v, deadline := if timeout = 0 then none else some (s.clk.elapsed + timeout * 1000) }] ∧
      t = { s with out := [], mrk := t.mrk, obs := t.obs }) ∧
  (∀ (s : State), s.mrk.waits.any (fun w => (w.deadline.map fun d => decide (d ≤ s.clk.elapsed)).getD false) = false →
    exec .markWaitTimeout s = .next s.begin) ∧
  (∀ (s : State) (w : MarkWait), s.mrk.waits.find? (fun w => (w.deadline.map fun d => decide (d ≤ s.clk.elapsed)).getD false) = some w →
    s.alr.quiet = false →
    ∃ t, exec .markWaitTimeout s = .next t ∧ t.mrk = { s.mrk with waits := s.mrk.waits.erase w } ∧ s.recorded t (w.call.record stMarkTimeout) ∧
      t = { s with out := [], mrk := t.mrk, hlm := t.hlm, alr := t.alr, obs := t.obs }) ∧
  (∀ (s : State) (c : Call) (k : Nat), s.admits c 0x0702 → s.markOwner k = some c.stall → s.mrk.waits = [] → s.hlm.buffer = [] →
    s.hlm.tickQ = [] →
    ∃ t, exec (.markDestroy c k) s = .next t ∧ t.mrk.dir = assocDel k s.mrk.dir ∧ t.mrk.res = assocDel k s.mrk.res ∧
      s.recorded t (c.record stOk) ∧ t = { s with out := [], mrk := t.mrk, hlm := t.hlm, alr := t.alr, obs := t.obs }) ∧
  (∀ (s : State) (c : Call) (k : Nat), s.admits c 0x0702 → s.markOwner k ≠ some c.stall →
    exec (.markDestroy c k) s = .next (s.begin.finishDetail c stParam 0x30)) ∧
  (∀ (s : State) (c : Call) (chip primary alternate flags : Nat), s.admits c 0x0705 → chip < 2 ^ 15 → primary < s.build.lseCount →
    alternate = 0xFF ∨ alternate < s.build.lseCount → flags ≤ 1 →
    ∃ t, exec (.markRoute c chip primary alternate flags) s = .next t ∧
      t.mrk = { s.mrk with routes := (if flags = 1 then assocDel chip s.mrk.routes else
        assocSet chip { primary, alternate := (if alternate = 0xFF then none else some alternate) } s.mrk.routes) } ∧
      s.recorded t (c.record stOk) ∧ t = { s with out := [], mrk := t.mrk, hlm := t.hlm, alr := t.alr, obs := t.obs }) ∧
  (∀ (s : State) (k : Nat) (d : MarkDir) (b : Bytes), s.mrk.fills.contains k = true → s.alr.quiet = false → assocGet k s.mrk.dir = some d →
    s.mrk.res.length < 64 → s.mrk.sigs.any (fun p => p.1 = k) = false → markRecordOk k d b = true →
    ∃ t, exec (.markFillDone k (.ok b)) s = .next t ∧ t.mrk.fills = s.mrk.fills.filter (· ≠ k) ∧ t.mrk.dir = s.mrk.dir ∧
      t.mrk.res = assocSet k (markOf b s.clk.elapsed) s.mrk.res ∧ t = { s with out := [], mrk := t.mrk, alr := t.alr, obs := t.obs }) ∧
  (∀ (s : State) (k : Nat) (d : MarkDir) (r : BufRead), s.mrk.fills.contains k = true → s.alr.quiet = false → assocGet k s.mrk.dir = some d →
    s.mrk.res.length < 64 → s.mrk.sigs.any (fun p => p.1 = k) = false →
    (match r with | .ok b => markRecordOk k d b | .failed => false) = false →
    ∃ t, exec (.markFillDone k r) s = .next t ∧ t.mrk.fills = s.mrk.fills.filter (· ≠ k) ∧ t.mrk.dir = s.mrk.dir ∧
      (t.mark? k).map (·.poison) = some (some 3) ∧ assocDel k t.mrk.res = assocDel k s.mrk.res)

/-- Outside the quiet state, with the Mark and its owner resident and no wait on any Mark. MARK_SIGNAL_RECEIVE of a unit for this chip at
the mirror of its source, with a new SEQ and a higher value: the mirror takes value and SEQ, and MARK_ACK with that value is sealed
toward the origin. A unit for another chip whose hops would exceed MAX_HOPS is dropped and counted. MARK_ACK_RECEIVE at the home, from
one of its destinations, with a value above ACKED: ACKED rises, the resend count restarts, and the timer runs only while a value is
outstanding. MARK_RESEND_TIMEOUT before T_MARK: nothing; at T_MARK with resends left, over a usable route: the current SEQ and value are
sealed again and the timer restarts; with none left: the destination is UNREACHABLE and the Mark poisoned with cause 2. -/
def Obligations.MarkUnits : Prop :=
  (∀ (s : State) (l k origin om seq v : Nat) (e : Lse) (u : RxUnit) (d : MarkDir) (m : Mark) (a : Bytes), s.lse[l]? = some e →
    s.alr.quiet = false → e.control [6] = some u → leField u.payload 0 2 = s.dom.chip → k = leField u.payload 2 2 →
    origin = leField u.payload 4 2 → om = leField u.payload 6 2 → seq = leField u.payload 8 4 → v = leField u.payload 16 8 →
    (leField u.payload 13 1).testBit 0 = false → assocGet k s.mrk.dir = some d → s.resident d.owner = true → s.mark? k = some m →
    m.mirror = true → m.srcChip = origin → m.srcMark = om → m.lastSeq < seq → m.value < v → s.mrk.waits = [] →
    s.markRoute origin = some l → a = markUnit origin om s.dom.chip k seq 0 (bit m.poison.isSome) v → e.carries (ctrlUnit 7 a) →
    ∃ t, exec (.markSignalReceive l) s = .next t ∧
      t.mark? k = some { m with value := v, lastSeq := seq, changed := s.clk.domain, lastUse := s.clk.elapsed } ∧
      t.lse[l]? = some (({ e with rxBuf := e.rxBuf.eraseP (· = u) } : Lse).sent s.dom.chip l (ctrlUnit 7 a)) ∧ t.out = [] ∧
      t.mrk.dir = s.mrk.dir ∧ s.onlyLse l t) ∧
  (∀ (s : State) (l : Nat) (e : Lse) (u : RxUnit), s.lse[l]? = some e → s.alr.quiet = false → e.control [6] = some u →
    leField u.payload 0 2 ≠ s.dom.chip → s.cfg.engine.maxHops ≤ leField u.payload 12 1 →
    exec (.markSignalReceive l) s = .next { s with
      out := []
      lse := listSet s.lse l fun x => { x with rxBuf := x.rxBuf.eraseP (· = u) }
      mrk := { s.mrk with drop := satAdd 65535 s.mrk.drop 1 } }) ∧
  (∀ (s : State) (l k v i : Nat) (e : Lse) (u : RxUnit) (d : MarkDir) (m : Mark) (x : MarkDest), s.lse[l]? = some e → s.alr.quiet = false →
    e.control [7] = some u → leField u.payload 0 2 = s.dom.chip → k = leField u.payload 2 2 → v = leField u.payload 16 8 →
    (leField u.payload 13 1).testBit 0 = false → assocGet k s.mrk.dir = some d → s.resident d.owner = true → s.mark? k = some m →
    m.mirror = false → m.poison = none →
    m.dests.zipIdx.find? (fun d => d.1.chip = leField u.payload 4 2 ∧ d.1.mark = leField u.payload 6 2) = some (x, i) → x.acked < v →
    s.mrk.waits = [] →
    ∃ t, exec (.markAckReceive l) s = .next t ∧
      t.mark? k = some { m with dests := listSet m.dests i fun _ =>
        { x with acked := v, resends := 0, timer := if v < m.sent then some s.clk.elapsed else none } } ∧
      t.lse[l]? = some { e with rxBuf := e.rxBuf.eraseP (· = u) } ∧ t.out = [] ∧ t.mrk.dir = s.mrk.dir ∧ s.onlyLse l t) ∧
  (∀ (s : State) (k i since : Nat) (m : Mark) (d : MarkDest), s.mark? k = some m → m.dests[i]? = some d → d.timer = some since →
    s.clk.elapsed < since + s.cfg.engine.tMark * 1000 → exec (.markResendTimeout k i) s = .next s.begin) ∧
  (∀ (s : State) (k i since l : Nat) (m : Mark) (d : MarkDest) (e : Lse) (a : Bytes), s.mark? k = some m → m.dests[i]? = some d →
    d.timer = some since → since + s.cfg.engine.tMark * 1000 ≤ s.clk.elapsed → s.alr.quiet = false → d.resends < s.cfg.engine.markRetry →
    d.chip ≠ s.dom.chip → s.markRoute d.chip = some l → s.lse[l]? = some e →
    a = markUnit d.chip d.mark s.dom.chip k d.seq 0 0 m.sent → e.carries (ctrlUnit 6 a) →
    ∃ t, exec (.markResendTimeout k i) s = .next t ∧
      t.mark? k = some { m with dests := listSet m.dests i fun _ => { d with resends := d.resends + 1, timer := some s.clk.elapsed } } ∧
      t.lse[l]? = some (e.sent s.dom.chip l (ctrlUnit 6 a)) ∧ t.mrk.resend = satAdd 65535 s.mrk.resend 1 ∧ t.out = [] ∧ s.onlyLse l t) ∧
  (∀ (s : State) (k i since : Nat) (m : Mark) (d : MarkDest), s.mark? k = some m → m.dests[i]? = some d → d.timer = some since →
    since + s.cfg.engine.tMark * 1000 ≤ s.clk.elapsed → s.alr.quiet = false → s.cfg.engine.markRetry ≤ d.resends → m.poison = none →
    ∃ t, exec (.markResendTimeout k i) s = .next t ∧
      (t.mark? k).map (fun x => (x.poison, x.value, (x.dests[i]?).map (·.unreachable))) = some (some 2, m.value, some true) ∧
      t.mrk.dir = s.mrk.dir ∧ t.stl.table = s.stl.table ∧ t.ldg = s.ldg ∧ t.mse = s.mse)

/-- A function that REG_AUTH lets write XS_BTH_LOCK claims with CLAIM: while the lock is free, no handoff waits, the Booth is not in U, and
the function acts as Stall 0 or as a KEYED Stall in full mode, the function and its Stall hold the lock. A claim while the lock is held,
while a handoff waits, or by a function of no Stall or of a Stall that is not KEYED has no effect. RELEASE by the holder function with
nothing running or queued frees the lock; with an operation running it takes effect later; from another function it has no effect.
BOOTH_LEASE_EXPIRY does nothing while an operation runs or waits or T_BLEASE has not passed since the last one; otherwise the lock is
free and EV_BTH_LEASE is raised. No other state changes. For BOOTH_OP admitted and not yet taken, with the Booth not in U. With the lock
free it ends with ST_BOOTH_NOLOCK, and from a function that does not hold it or as a ninth with ST_BOOTH_BUSY; nothing else happens at
the Booth. An operation that fails a check of R442 while the Booth is free ends with that check's status, nothing is written, and the
lock stays unless RELEASE is set. One that passes them all, its key resident and its IV supplied, runs: its blocks and one operation are
counted against the key, whose slot is busy. One that takes a hardware nonce, with entropy at hand, runs with 12 fresh random bytes and
four zero bytes. While another operation runs, it is queued behind those waiting. -/
def Obligations.BoothLockAndOps : Prop :=
  (∀ (s : State) (fn st : Nat), s.grants fn true 0x0E0000 → s.bth.holder = none → s.handoffWaits = false → s.fnStall? fn = some st →
    st = 0 ∨ (s.stallState st = .keyed ∧ s.ald.full = true) → s.inUnitReset unitBooth = false →
    ∃ t, exec (.boothClaim fn) s = .next t ∧
      t.bth = { s.bth with holder := some (fn, st), tollgate := false, leaseAt := s.clk.elapsed, releaseDue := false } ∧
      t = { s with out := [.reg false 0], bth := t.bth, obs := t.obs }) ∧
  (∀ (s : State) (fn : Nat), s.grants fn true 0x0E0000 →
    s.bth.holder.isSome = true ∨ s.handoffWaits = true ∨ (s.fnStall? fn).all (fun st => decide (st ≠ 0 ∧ s.stallState st ≠ .keyed)) = true →
    ∃ t, exec (.boothClaim fn) s = .next t ∧ t = { s with out := [.reg false 0], obs := t.obs }) ∧
  (∀ (s : State) (fn st : Nat), s.grants fn true 0x0E0000 → s.bth.holder = some (fn, st) → s.bth.tollgate = false → s.bth.running = none →
    s.bth.queue = [] →
    ∃ t, exec (.boothRelease fn) s = .next t ∧ t.bth = { s.bth with holder := none, tollgate := false, releaseDue := false } ∧
      t = { s with out := [.reg false 0], bth := t.bth, obs := t.obs }) ∧
  (∀ (s : State) (fn st : Nat), s.grants fn true 0x0E0000 → s.bth.holder = some (fn, st) → s.bth.tollgate = false →
    s.bth.running.isSome = true →
    ∃ t, exec (.boothRelease fn) s = .next t ∧ t.bth = { s.bth with releaseDue := true } ∧
      t = { s with out := [.reg false 0], bth := t.bth, obs := t.obs }) ∧
  (∀ (s : State) (fn : Nat), s.grants fn true 0x0E0000 → s.bth.holder.all (fun h => decide (h.1 ≠ fn)) = true →
    ∃ t, exec (.boothRelease fn) s = .next t ∧ t = { s with out := [.reg false 0], obs := t.obs }) ∧
  (∀ (s : State), s.bth.holder = none ∨ s.bth.running.isSome = true ∨ s.bth.queue ≠ [] ∨
    s.clk.elapsed < s.bth.leaseAt + s.cfg.engine.tBlease * 100000 → exec .boothLeaseExpiry s = .next s.begin) ∧
  (∀ (s : State) (fn st : Nat), s.bth.holder = some (fn, st) → s.bth.tollgate = false → s.bth.running = none → s.bth.queue = [] →
    s.bth.leaseAt + s.cfg.engine.tBlease * 100000 ≤ s.clk.elapsed →
    ∃ t, exec .boothLeaseExpiry s = .next t ∧ t.bth = { s.bth with holder := none, tollgate := false, releaseDue := false } ∧
      t.hlm.fifo = s.hlm.fifo ++
        [{ code := evBthLease, unit := unitBooth, stall := some st, time := s.clk.domain, unanchored := s.unanchored, arg0 := fn, arg1 := 0 }] ∧
      t.hlm.cwq = s.hlm.cwq ∧ t = { s with out := [], bth := t.bth, hlm := t.hlm, obs := t.obs }) ∧
  (∀ (s : State) (c : Call) (mode dir flags tail handle src dst len aadLen aadTail aad du tag : Nat) (iv : Bytes), s.admits c 0x0801 →
    s.inUnitReset unitBooth = false → s.bth.queue = [] → s.bth.running = none → s.bth.holder = none →
    exec (.boothOp c mode dir flags tail handle src dst len aadLen aadTail aad iv du tag) s = .next (s.begin.finish c stBoothNolock)) ∧
  (∀ (s : State) (c : Call) (mode dir flags tail handle src dst len aadLen aadTail aad du tag : Nat) (iv : Bytes) (h : Nat × Nat),
    s.admits c 0x0801 → s.inUnitReset unitBooth = false → s.bth.queue.any (fun o => decide (o.call = c)) = false →
    s.bth.running.any (fun o => decide (o.call = c)) = false → s.bth.holder = some h → h.1 ≠ c.fn ∨ 8 ≤ s.bth.queue.length →
    exec (.boothOp c mode dir flags tail handle src dst len aadLen aadTail aad iv du tag) s = .next (s.begin.finish c stBoothBusy)) ∧
  (∀ (s : State) (c : Call) (mode dir flags tail handle src dst len aadLen aadTail aad du tag st stall : Nat) (iv : Bytes) (o : BoothOp),
    s.admits c 0x0801 → s.inUnitReset unitBooth = false → s.bth.queue = [] → s.bth.running = none → s.bth.holder = some (c.fn, stall) →
    s.bth.tollgate = false → dir < 2 →
    o = boothOpOf c mode dir flags tail handle src dst len aadLen aadTail aad iv du tag →
    s.boothCheck o = some st →
    ∃ t, exec (.boothOp c mode dir flags tail handle src dst len aadLen aadTail aad iv du tag) s = .next t ∧
      s.recorded t (c.record st) ∧
      t.bth = (if o.release then { s.bth with holder := none, tollgate := false, releaseDue := false, leaseAt := s.clk.elapsed }
        else { s.bth with leaseAt := s.clk.elapsed }) ∧
      t = { s with out := [], bth := t.bth, hlm := t.hlm, alr := t.alr, obs := t.obs }) ∧
  (∀ (s : State) (c : Call) (mode dir flags tail handle src dst len aadLen aadTail aad du tag stall n : Nat) (iv : Bytes) (o : BoothOp)
    (e : KeyEntry) (k : KeySlot),
    s.admits c 0x0801 → s.inUnitReset unitBooth = false → s.bth.queue = [] → s.bth.running = none → s.bth.holder = some (c.fn, stall) →
    s.bth.tollgate = false → dir < 2 → s.sbx.zeroNet = false →
    o = boothOpOf c mode dir flags tail handle src dst len aadLen aadTail aad iv du tag →
    s.boothCheck o = none → s.liveEntry? handle = some e → s.sbx.slotOf handle e.gen = some (n, k) → s.hwNonce o = false →
    ∃ t, exec (.boothOp c mode dir flags tail handle src dst len aadLen aadTail aad iv du tag) s = .next t ∧
      t.bth = { s.bth with running := some o, opsCount := satAdd 65535 s.bth.opsCount 1 } ∧
      t.sbx.slotOf handle e.gen = some (n, { k with count := k.count + o.blocks, ops := k.ops + 1, busy := true }) ∧
      t.out = [] ∧ t.hlm.cwq = s.hlm.cwq ∧ t.fresh = s.fresh ∧ t.stl = s.stl ∧ t.ldg = s.ldg ∧ t.tol = s.tol ∧ t.mse = s.mse ∧
      t.epo = s.epo) ∧
  (∀ (s : State) (c : Call) (mode dir flags tail handle src dst len aadLen aadTail aad du tag stall n : Nat) (iv : Bytes) (o : BoothOp)
    (e : KeyEntry) (k : KeySlot),
    s.admits c 0x0801 → s.inUnitReset unitBooth = false → s.bth.queue = [] → s.bth.running = none → s.bth.holder = some (c.fn, stall) →
    s.bth.tollgate = false → dir < 2 → s.sbx.zeroNet = false → s.sbx.entropyOk = true →
    o = boothOpOf c mode dir flags tail handle src dst len aadLen aadTail aad iv du tag →
    s.boothCheck o = none → s.liveEntry? handle = some e → s.sbx.slotOf handle e.gen = some (n, k) → s.hwNonce o = true →
    ∃ t, exec (.boothOp c mode dir flags tail handle src dst len aadLen aadTail aad iv du tag) s = .next t ∧
      t.bth = { s.bth with
        running := some { o with iv := s.drawn 12 ++ zeros 4, hwNonce := true }
        opsCount := satAdd 65535 s.bth.opsCount 1 } ∧
      t.fresh = s.fresh + 1 ∧ t.out = [] ∧ t.hlm.cwq = s.hlm.cwq ∧ t.stl = s.stl ∧ t.ldg = s.ldg ∧ t.tol = s.tol ∧ t.mse = s.mse) ∧
  (∀ (s : State) (c : Call) (mode dir flags tail handle src dst len aadLen aadTail aad du tag stall : Nat) (iv : Bytes) (o : BoothOp),
    s.admits c 0x0801 → s.inUnitReset unitBooth = false → s.bth.queue.any (fun o => decide (o.call = c)) = false →
    s.bth.running.any (fun o => decide (o.call ≠ c)) = true → s.bth.holder = some (c.fn, stall) → s.bth.queue.length < 8 →
    s.bth.tollgate = false → dir < 2 →
    o = boothOpOf c mode dir flags tail handle src dst len aadLen aadTail aad iv du tag →
    s.boothCheck o = none →
    exec (.boothOp c mode dir flags tail handle src dst len aadLen aadTail aad iv du tag) s =
      .next { s with out := [], bth := { s.bth with queue := s.bth.queue ++ [o] } })

/-- For BOOTH_OP_COMPLETE with an operation running and none queued. Without one, nothing. A GCM encrypt without AAD whose source is read
writes the ciphertext to DST and the tag over it to TAG and ends with ST_OK. XTS and CTR write their output to DST and no tag. A CMAC
generate writes its result to TAG alone. A GCM decrypt without AAD in hold mode writes the plaintext where the tag read equals the tag
computed, with TAG_OK; otherwise it writes zeros over all of DST and ends with ST_BTH_TAG; in stream mode the plaintext stays and
DO_NOT_TRUST is set. A failed source read in hold mode writes nothing and ends with ST_BTH_MEMORY. A write that fails after some bytes
leaves those, no tag, and ends with ST_BTH_MEMORY and DO_NOT_TRUST. The record carries the nonce and the number of bytes written; the
Booth is free afterwards, the key's slot is no longer busy, and with RELEASE the lock is free. -/
def Obligations.BoothOpEnds : Prop :=
  (∀ (s : State) (io : BoothIo), s.bth.running = none → exec (.boothOpComplete io) s = .next s.begin) ∧
  (∀ (s : State) (io : BoothIo) (o : BoothOp) (data ct tag : Bytes), s.boothRuns o → o.mode = 0 → o.decrypt = false → o.aadLen = 0 →
    io.src = .ok data → data.length = o.len → io.failedAt = none → ct = o.output (s.boothKey o) data →
    tag = o.tagOf (s.boothKey o) [] data →
    ∃ t, exec (.boothOpComplete io) s = .next t ∧
      t.out = ((s.begin.writeRange o.call.stall o.dst ct).writeRange o.call.stall o.tag tag).out ∧
      s.recorded t (o.record stOk ct.length false false) ∧
      t.bth = (if o.release then
          { s.bth with
            running := none, leaseAt := s.clk.elapsed, holder := none, tollgate := false, releaseDue := false
            tagFails := satAdd 65535 s.bth.tagFails 0 }
        else { s.bth with running := none, leaseAt := s.clk.elapsed, tagFails := satAdd 65535 s.bth.tagFails 0 }) ∧
      t.sbx.slots = s.sbx.slots.map (fun p => if p.2.handle = o.handle then (p.1, { p.2 with busy := false }) else p) ∧
      t.stl = s.stl ∧ t.ldg = s.ldg ∧ t.tol = s.tol ∧ t.mse = s.mse ∧ t.fresh = s.fresh) ∧
  (∀ (s : State) (io : BoothIo) (o : BoothOp) (data out : Bytes), s.boothRuns o → o.mode = 1 ∨ o.mode = 2 →
    io.src = .ok data → data.length = o.len → io.failedAt = none → out = o.output (s.boothKey o) data →
    ∃ t, exec (.boothOpComplete io) s = .next t ∧ t.out = (s.begin.writeRange o.call.stall o.dst out).out ∧
      s.recorded t (o.record stOk out.length false false) ∧ t.bth.running = none ∧ t.stl = s.stl ∧ t.ldg = s.ldg ∧ t.mse = s.mse) ∧
  (∀ (s : State) (io : BoothIo) (o : BoothOp) (data tag : Bytes), s.boothRuns o → o.mode = 3 → o.decrypt = false →
    io.src = .ok data → data.length = o.len → io.failedAt = none → tag = boothCmac (s.boothKey o) data (o.flags.testBit 2) →
    ∃ t, exec (.boothOpComplete io) s = .next t ∧ t.out = (s.begin.writeRange o.call.stall o.tag tag).out ∧
      s.recorded t (o.record stOk 0 false false) ∧ t.bth.running = none ∧ t.stl = s.stl ∧ t.ldg = s.ldg ∧ t.mse = s.mse) ∧
  (∀ (s : State) (io : BoothIo) (o : BoothOp) (data want out : Bytes) (pass : Bool), s.boothRuns o → o.mode = 0 → o.decrypt = true →
    o.aadLen = 0 → o.flags.testBit 0 = false → io.src = .ok data → data.length = o.len → io.tag = .ok want → io.failedAt = none →
    pass = decide (o.tagOf (s.boothKey o) [] data = want) → out = (if pass then o.output (s.boothKey o) data else zeros o.len) →
    ∃ t, exec (.boothOpComplete io) s = .next t ∧ t.out = (s.begin.writeRange o.call.stall o.dst out).out ∧
      s.recorded t (o.record (if pass then stOk else stBthTag) out.length pass false) ∧ t.bth.running = none ∧
      t.bth.tagFails = satAdd 65535 s.bth.tagFails (bit !pass) ∧ t.stl = s.stl ∧ t.ldg = s.ldg ∧ t.mse = s.mse) ∧
  (∀ (s : State) (io : BoothIo) (o : BoothOp) (data want out : Bytes), s.boothRuns o → o.mode = 0 → o.decrypt = true →
    o.aadLen = 0 → o.flags.testBit 0 = true → io.src = .ok data → data.length = o.len → io.tag = .ok want → io.failedAt = none →
    o.tagOf (s.boothKey o) [] data ≠ want → out = o.output (s.boothKey o) data →
    ∃ t, exec (.boothOpComplete io) s = .next t ∧ t.out = (s.begin.writeRange o.call.stall o.dst out).out ∧
      s.recorded t (o.record stBthTag out.length false true) ∧ t.bth.running = none ∧
      t.bth.tagFails = satAdd 65535 s.bth.tagFails 1 ∧ t.stl = s.stl ∧ t.ldg = s.ldg ∧ t.mse = s.mse) ∧
  (∀ (s : State) (io : BoothIo) (o : BoothOp), s.boothRuns o → o.holds = true → io.src = .failed →
    ∃ t, exec (.boothOpComplete io) s = .next t ∧ t.out = [] ∧ s.recorded t (o.record stBthMemory 0 false false) ∧ t.bth.running = none ∧
      t.stl = s.stl ∧ t.ldg = s.ldg ∧ t.mse = s.mse) ∧
  (∀ (s : State) (io : BoothIo) (o : BoothOp) (data out : Bytes) (n : Nat), s.boothRuns o → o.mode = 0 → o.decrypt = false →
    o.aadLen = 0 → io.src = .ok data → data.length = o.len → io.failedAt = some n → n < o.len →
    out = (o.output (s.boothKey o) data).take n →
    ∃ t, exec (.boothOpComplete io) s = .next t ∧ t.out = (s.begin.writeRange o.call.stall o.dst out).out ∧
      s.recorded t (o.record stBthMemory out.length false true) ∧ t.bth.running = none ∧ t.stl = s.stl ∧ t.ldg = s.ldg ∧ t.mse = s.mse)

/-- TOLL_POLICY_LOAD, admitted, of a 16 B-aligned address in SEALED regions of the Stall: the 2,384 B are read as that Stall; an image whose
SHA-384 is the digest of the Stall record and which passes every field rule is kept with its address and INSTANCE_TAG, is placed first
in the cache of eight, and the command ends with ST_OK. An image that cannot be read or has another digest ends it with ST_TOL_POLICY
and XS_TOL_POLERR 0xFFF; one that breaks a field rule with ST_TOL_POLICY and the offset of the first such field; the address table is
unchanged in both. An address that is not aligned ends it with ST_PARAM. TOLL_BUDGET, admitted, of an owner slot of a measured Stall:
the statement of R465 with the signatures is written to the buffer and the command ends with ST_OK and its length; with a buffer too
small, ST_SHORT and nothing written; an owner slot the record does not have, ST_TOL_OWNER. -/
def Obligations.TollPolicyAndBudget : Prop :=
  (∀ (s : State) (c : Call) (addr : Nat) (p : Bytes) (x : Stall) (d : StallData), s.admits c 0x0901 → s.stall? c.stall = some x →
    s.stallData? c.stall = some d → addr % 16 = 0 →
    s.rangeAll addr policySize (fun e => decide (e.state = .sealed ∧ e.owner = c.stall)) = true → sha384 p = d.policyDigest →
    policyFault p d.owners = none →
    ∃ t, exec (.tollPolicyLoad c addr (.ok p)) s = .next t ∧ s.recorded t (c.record stOk) ∧ t.out = [.memRead c.stall addr policySize] ∧
      t.tol = { s.tol with
        policies := assocSet c.stall (addr, x.tag) s.tol.policies
        cache := ((c.stall, x.tag, p) :: s.tol.cache.filter fun e => e.1 ≠ c.stall).take 8 } ∧
      t = { s with out := t.out, tol := t.tol, hlm := t.hlm, alr := t.alr, obs := t.obs }) ∧
  (∀ (s : State) (c : Call) (addr : Nat) (image : BufRead) (x : Stall) (d : StallData), s.admits c 0x0901 → s.stall? c.stall = some x →
    s.stallData? c.stall = some d → addr % 16 = 0 →
    s.rangeAll addr policySize (fun e => decide (e.state = .sealed ∧ e.owner = c.stall)) = true →
    (match image with | .ok p => decide (sha384 p ≠ d.policyDigest) | .failed => true) = true →
    ∃ t, exec (.tollPolicyLoad c addr image) s = .next t ∧ s.recorded t (c.record stTolPolicy) ∧
      t.tol = { s.tol with polOffset := 0xFFF, polStall := c.stall, polValid := true } ∧
      t = { s with out := t.out, tol := t.tol, hlm := t.hlm, alr := t.alr, obs := t.obs }) ∧
  (∀ (s : State) (c : Call) (addr off : Nat) (p : Bytes) (x : Stall) (d : StallData), s.admits c 0x0901 → s.stall? c.stall = some x →
    s.stallData? c.stall = some d → addr % 16 = 0 →
    s.rangeAll addr policySize (fun e => decide (e.state = .sealed ∧ e.owner = c.stall)) = true → sha384 p = d.policyDigest →
    policyFault p d.owners = some off →
    ∃ t, exec (.tollPolicyLoad c addr (.ok p)) s = .next t ∧ s.recorded t (c.record stTolPolicy) ∧
      t.tol = { s.tol with polOffset := off, polStall := c.stall, polValid := true } ∧
      t = { s with out := t.out, tol := t.tol, hlm := t.hlm, alr := t.alr, obs := t.obs }) ∧
  (∀ (s : State) (c : Call) (addr : Nat) (image : BufRead) (x : Stall) (d : StallData), s.admits c 0x0901 → s.stall? c.stall = some x →
    s.stallData? c.stall = some d → addr % 16 ≠ 0 →
    exec (.tollPolicyLoad c addr image) s = .next (s.begin.finishDetail c stParam 0x30)) ∧
  (∀ (s : State) (c : Call) (owner dst room : Nat) (nonce sigs b : Bytes) (x : Stall) (d : StallData) (o : OwnerEntry), s.admits c 0x0903 →
    s.stall? c.stall = some x → s.stallData? c.stall = some d → d.owners[owner]? = some o → x.measLocked = true →
    b = s.budgetBody c.stall x d owner o nonce ++ (padTo 4728 sigs).take 4728 → b.length ≤ room →
    ∃ t, exec (.tollBudget c owner nonce dst room sigs true) s = .next t ∧ t.out = [.memWrite c.stall dst b] ∧
      s.recorded t { c.record stOk with result := leBytes 4 b.length } ∧
      t = { s with out := t.out, hlm := t.hlm, alr := t.alr, obs := t.obs }) ∧
  (∀ (s : State) (c : Call) (owner dst room : Nat) (nonce sigs b : Bytes) (ok : Bool) (x : Stall) (d : StallData) (o : OwnerEntry),
    s.admits c 0x0903 → s.stall? c.stall = some x → s.stallData? c.stall = some d → d.owners[owner]? = some o → x.measLocked = true →
    b = s.budgetBody c.stall x d owner o nonce ++ (padTo 4728 sigs).take 4728 → room < b.length →
    exec (.tollBudget c owner nonce dst room sigs ok) s = .next (s.begin.complete { c.record stShort with result := leBytes 4 b.length })) ∧
  (∀ (s : State) (c : Call) (owner dst room : Nat) (nonce sigs : Bytes) (ok : Bool) (x : Stall) (d : StallData), s.admits c 0x0903 →
    s.stall? c.stall = some x → s.stallData? c.stall = some d → d.owners[owner]? = none →
    exec (.tollBudget c owner nonce dst room sigs ok) s = .next (s.begin.finish c stTolOwner))

/-- TOLL_EXPORT, admitted: while another export runs it joins the queue, which holds 32. With none running or queued and no policy of the
Stall's it ends with ST_TOL_NOPOLICY; with a policy in the cache, a failed check of R455 ends it with that status, counted as refused;
in both, nothing is written. A WEIGHT export that passes, with entropy at hand, holds SRC and STAGE, has a nonce, and waits for its
commit; a GRADIENT export under a finite CLIP first reads SRC: its exact sum of squares is kept, a NaN or an infinity ends it with
ST_TOL_NONFINITE. TOLL_COMMIT raises EXPORT_SEQ by one, and N_c for a BUDGET owner of a GRADIENT export, writes the Stall record, and
goes on to the main pass once that is anchored. TOLL_HANDOFF of a WEIGHT export writes the bytes of SRC to STAGE and the header to HDR,
then waits for the lock or takes it; of a GRADIENT export it writes the noised and rounded elements; a failed read of SRC ends the
export with ST_TOL_MEMORY and the charge stays. TOLL_EXPORT_COMPLETE ends the hold, the lock and the export with the Booth's status,
nonce and EXPORT_SEQ. -/
def Obligations.TollExports : Prop :=
  (∀ (s : State) (c : Call) (rule owner outFmt cls handle src len stage dst hdr tag : Nat) (policy b : BufRead) (r : Export),
    s.admits c 0x0902 → s.tol.running = some r → r.call ≠ c → s.tol.queue.any (fun x => decide (x.call = c)) = false →
    s.tol.queue.length < 32 →
    ∃ t, exec (.tollExport c rule owner outFmt cls handle src len stage dst hdr tag policy b) s = .next t ∧
      t.tol.queue.map (·.call) = s.tol.queue.map (·.call) ++ [c] ∧ t = { s with out := [], tol := { s.tol with queue := t.tol.queue } }) ∧
  (∀ (s : State) (c : Call) (rule owner outFmt cls handle src len stage dst hdr tag : Nat) (policy b : BufRead),
    s.admits c 0x0902 → s.tol.running = none → s.inUnitReset unitTollgate = false → s.tol.queue = [] →
    assocGet c.stall s.tol.policies = none →
    ∃ t, exec (.tollExport c rule owner outFmt cls handle src len stage dst hdr tag policy b) s = .next t ∧
      s.recorded t (c.record stTolNopolicy) ∧ t.tol.running = none ∧ t.tol.hold = [] ∧ t.tol.refused = satAdd 65535 s.tol.refused 1 ∧
      t = { s with out := [], tol := t.tol, hlm := t.hlm, alr := t.alr, obs := t.obs }) ∧
  (∀ (s : State) (c : Call) (rule owner outFmt cls handle src len stage dst hdr tag addr st : Nat) (policy b : BufRead) (x : Stall)
    (d : StallData) (p : Bytes) (e : Export),
    s.admits c 0x0902 → s.tol.running = none → s.inUnitReset unitTollgate = false → s.tol.queue = [] → s.stall? c.stall = some x →
    s.stallData? c.stall = some d → assocGet c.stall s.tol.policies = some (addr, x.tag) → s.policyOf c.stall x.tag = some p →
    e = exportOf c rule owner outFmt cls handle src len stage dst hdr tag →
    s.exportCheck e p = .inl st →
    ∃ t, exec (.tollExport c rule owner outFmt cls handle src len stage dst hdr tag policy b) s = .next t ∧
      s.recorded t (c.record st) ∧ t.tol.running = none ∧ t.tol.hold = [] ∧ t.tol.refused = satAdd 65535 s.tol.refused 1 ∧
      t = { s with out := [], tol := t.tol, hlm := t.hlm, alr := t.alr, obs := t.obs }) ∧
  (∀ (s : State) (c : Call) (rule owner outFmt cls handle src len stage dst hdr tag addr : Nat) (policy b : BufRead) (x : Stall)
    (d : StallData) (p : Bytes) (e e' : Export),
    s.admits c 0x0902 → s.tol.running = none → s.inUnitReset unitTollgate = false → s.tol.queue = [] → s.stall? c.stall = some x →
    s.stallData? c.stall = some d → assocGet c.stall s.tol.policies = some (addr, x.tag) → s.policyOf c.stall x.tag = some p →
    e = exportOf c rule owner outFmt cls handle src len stage dst hdr tag →
    s.exportCheck e p = .inr e' → e'.gradient = false → s.sbx.entropyOk = true →
    ∃ t, exec (.tollExport c rule owner outFmt cls handle src len stage dst hdr tag policy b) s = .next t ∧
      t.tol.running = some { e' with nonce := s.drawn 12, phase := 3 } ∧
      t.tol.hold = [(c.stall, src, len), (c.stall, stage, e'.outLen)] ∧ t.fresh = s.fresh + 1 ∧ t.out = [] ∧ t.hlm = s.hlm ∧
      t.stl = s.stl ∧ t.bth = s.bth ∧ t.ldg = s.ldg ∧ t.mse = s.mse) ∧
  (∀ (s : State) (c : Call) (rule owner outFmt cls handle src len stage dst hdr tag addr : Nat) (policy : BufRead) (x : Stall)
    (d : StallData) (p b : Bytes) (e e' : Export) (xs : List Nat),
    s.admits c 0x0902 → s.tol.running = none → s.inUnitReset unitTollgate = false → s.tol.queue = [] → s.stall? c.stall = some x →
    s.stallData? c.stall = some d → assocGet c.stall s.tol.policies = some (addr, x.tag) → s.policyOf c.stall x.tag = some p →
    e = exportOf c rule owner outFmt cls handle src len stage dst hdr tag →
    s.exportCheck e p = .inr e' → e'.gradient = true → e'.clip ≠ fpInf → s.sbx.entropyOk = true → b.length = len →
    xs = elements e'.inBf16 b →
    xs.any fpSpecial = false →
    ∃ t, exec (.tollExport c rule owner outFmt cls handle src len stage dst hdr tag policy (.ok b)) s = .next t ∧
      t.tol.running = some { e' with nonce := s.drawn 12, phase := 3, norm := normSum xs } ∧
      t.out = [.memRead c.stall src len] ∧ t.hlm = s.hlm ∧ t.stl = s.stl ∧ t.bth = s.bth ∧ t.ldg = s.ldg ∧ t.mse = s.mse) ∧
  (∀ (s : State) (c : Call) (rule owner outFmt cls handle src len stage dst hdr tag addr : Nat) (policy : BufRead) (x : Stall)
    (d : StallData) (p b : Bytes) (e e' : Export) (xs : List Nat),
    s.admits c 0x0902 → s.tol.running = none → s.inUnitReset unitTollgate = false → s.tol.queue = [] → s.stall? c.stall = some x →
    s.stallData? c.stall = some d → assocGet c.stall s.tol.policies = some (addr, x.tag) → s.policyOf c.stall x.tag = some p →
    e = exportOf c rule owner outFmt cls handle src len stage dst hdr tag →
    s.exportCheck e p = .inr e' → e'.gradient = true → e'.clip ≠ fpInf → s.sbx.entropyOk = true → b.length = len →
    xs = elements e'.inBf16 b →
    xs.any fpSpecial = true →
    ∃ t, exec (.tollExport c rule owner outFmt cls handle src len stage dst hdr tag policy (.ok b)) s = .next t ∧
      t.tol.running = none ∧ t.tol.hold = [] ∧ s.recorded t (c.record stTolNonfinite) ∧ t.out = [.memRead c.stall src len] ∧
      t.stl = s.stl ∧ t.bth = s.bth) ∧
  (∀ (s : State) (e : Export) (d : StallData) (x : Stall) (p : Bytes) (pays : Bool) (c : Nat), s.tol.running = some e → e.phase = 3 →
    s.alr.quiet = false → s.rst.coreReset = none → e.seq = 0 → s.stall? e.call.stall = some x → s.stallData? e.call.stall = some d →
    (s.tol.cache.find? fun x => x.1 = e.call.stall) = some (e.call.stall, x.tag, p) → pays = (e.gradient && polBudget p e.owner) →
    c = leField e.ruleBytes 10 1 → e.owner < 8 → c < 8 →
    ∃ t, exec .tollCommit s = .next t ∧
      (t.stallData? e.call.stall).map (fun y => (y.budgetOf e.owner).seq) = some ((d.budgetOf e.owner).seq + 1) ∧
      (t.stallData? e.call.stall).map (fun y => (y.budgetOf e.owner).n c) = some ((d.budgetOf e.owner).n c + bit pays) ∧
      t.tol.running = some { e with
        seq := (d.budgetOf e.owner).seq + 1
        before := d.budgetOf e.owner
        phase := if t.recordPending e.call.stall then 3 else 4 } ∧
      t.hlm = s.hlm ∧ t.bth = s.bth ∧ t.mse = s.mse) ∧
  (∀ (s : State) (e : Export), s.tol.running = some e → e.phase = 3 → s.alr.quiet = false → s.rst.coreReset = none → e.seq ≠ 0 →
    ∃ t, exec .tollCommit s = .next t ∧ t.out = [] ∧ t.stl = s.stl ∧
      t.tol = (if s.recordPending e.call.stall then s.tol else
        { s.tol with running := some { e with phase := 4 }, exports := satAdd 65535 s.tol.exports 1 }) ∧ t.hlm = s.hlm) ∧
  (∀ (s : State) (e : Export) (b h : Bytes) (stalls : Nat), s.tol.running = some e → e.phase = 4 → s.alr.quiet = false →
    e.gradient = false → b.length = e.len → s.bth.holder.isSome = true → h = s.exportHeader e →
    ∃ t, exec (.tollHandoff (.ok b) none true stalls) s = .next t ∧
      t.out = (((s.begin.emit (.memRead e.call.stall e.src e.len)).writeRange e.call.stall e.stage b).writeRange e.call.stall e.hdr h).out ∧
      t.tol.running = some { e with header := h, phase := 5 } ∧ t.bth = s.bth ∧ t.stl = s.stl ∧ t.hlm = s.hlm ∧ t.fresh = s.fresh) ∧
  (∀ (s : State) (e : Export) (b out : Bytes) (stalls : Nat) (xs : List Nat), s.tol.running = some e → e.phase = 4 → s.alr.quiet = false →
    s.sbx.entropyOk = true → e.gradient = true → b.length = e.len → s.bth.holder.isSome = true →
    xs = elements e.inBf16 b → xs.any fpSpecial = false → out = mainPass e.outBf16 e.clip e.norm e.grid s.fresh 0 xs →
    ∃ t, exec (.tollHandoff (.ok b) none true stalls) s = .next t ∧
      t.out = (((s.begin.emit (.memRead e.call.stall e.src e.len)).writeRange e.call.stall e.stage out).writeRange e.call.stall e.hdr
        (s.exportHeader e)).out ∧
      t.tol.running = some { e with header := s.exportHeader e, phase := 5 } ∧ t.bth = s.bth ∧ t.stl = s.stl ∧ t.hlm = s.hlm) ∧
  (∀ (s : State) (e : Export) (stageAt : Option Nat) (hdrOk : Bool) (stalls : Nat), s.tol.running = some e → e.phase = 4 →
    s.alr.quiet = false → s.sbx.entropyOk = true →
    ∃ t, exec (.tollHandoff .failed stageAt hdrOk stalls) s = .next t ∧ s.recorded t (e.call.record stTolMemory) ∧ t.tol.running = none ∧
      t.tol.hold = [] ∧ t.stl = s.stl ∧ t.bth = s.bth) ∧
  (∀ (s : State) (e : Export) (k : KeyEntry) (src : BufRead) (stageAt : Option Nat) (hdrOk : Bool) (stalls : Nat), s.tol.running = some e →
    e.phase = 5 → s.alr.quiet = false → s.bth.tollgate = false → s.bth.holder = none → s.bth.running = none →
    s.inUnitReset unitBooth = false → s.sbx.zeroNet = false → s.boothCheck e.op = none → s.liveEntry? e.handle = some k →
    (s.sbx.slotOf e.handle k.gen).isSome = true →
    ∃ t, exec (.tollHandoff src stageAt hdrOk stalls) s = .next t ∧
      t.bth = { s.bth with
        holder := some (0, e.call.stall), tollgate := true, queue := [], running := some e.op, opsCount := satAdd 65535 s.bth.opsCount 1 } ∧
      t.tol = s.tol ∧ t.out = [] ∧ t.hlm.cwq = s.hlm.cwq ∧ t.stl = s.stl ∧ t.fresh = s.fresh) ∧
  (∀ (s : State) (io : BoothIo) (o : BoothOp) (e : Export) (data ct tag : Bytes), s.handsOff o e → o.mode = 0 → o.decrypt = false →
    io.src = .ok data → data.length = o.len → io.failedAt = none → ct = o.output (s.boothKey o) data →
    tag = o.tagOf (s.boothKey o) (o.header.getD []) data → e.nonce.length = 12 →
    ∃ t, exec (.tollExportComplete io) s = .next t ∧
      t.out = ((s.begin.writeRange o.call.stall o.dst ct).writeRange o.call.stall o.tag tag).out ∧
      s.recorded t { e.call.record stOk with result := e.nonce ++ leBytes 8 e.seq } ∧
      t.tol = { s.tol with running := none, hold := [] } ∧ t.bth.holder = none ∧ t.bth.tollgate = false ∧ t.bth.running = none ∧
      t.stl = s.stl)

/-- For a function that REG_AUTH lets write. XS_OBS_BEACON.NOW without a held snapshot puts a freeze on its way; with one it is ignored and
counted in MISSED. RELEASE frees the snapshot and every ring. BEACON_FREEZE makes no freeze while pclk is stopped. A freeze that is due
copies the counters and their INVALID marks, notes source and domain time, freezes each ring, holds the snapshot and raises EV_BEACON.
BEACON_SET, admitted, arms its time unless a snapshot is held or one is armed, when it ends with ST_POLICY; when the armed time has come
without a held snapshot, the freeze with source 1 ends it with ST_OK and the freeze time. XS_OBS_CLEAR sets the counters of a bank to 0
and removes their INVALID marks, other banks stay, and a bank held at BANK_FAULT stays. COUNTER_BANK_SOUNDING_DONE marks every counter
of the bank INVALID and ends its test; a fault also holds the bank and raises EV_CTR_BANK_FAULT; a held bank is tested no more. A write
of XS_OBS_TRACK(t) that names a Stall no other set tracks makes set t track it from 0; one that names a Stall tracked elsewhere changes
no set. Counters 12 and 13 count the accesses themselves and are left out. -/
def Obligations.BeaconAndCounterBanks : Prop :=
  (∀ (s : State) (fn : Nat), s.grants fn true 0x0D0014 → s.obs.held = false →
    ∃ t, exec (.beaconNow fn) s = .next t ∧ t.obs.freezeDue = some 0 ∧ t.obs.held = false ∧ t.obs.missed = s.obs.missed ∧
      t.obs.rings = s.obs.rings ∧ t.obs.snapCounters = s.obs.snapCounters ∧ t = { s with out := [.reg false 0], obs := t.obs }) ∧
  (∀ (s : State) (fn : Nat), s.grants fn true 0x0D0014 → s.obs.held = true →
    ∃ t, exec (.beaconNow fn) s = .next t ∧ t.obs.freezeDue = s.obs.freezeDue ∧ t.obs.held = true ∧
      t.obs.missed = satAdd 255 s.obs.missed 1 ∧ t.obs.rings = s.obs.rings ∧ t.obs.snapCounters = s.obs.snapCounters ∧
      t = { s with out := [.reg false 0], obs := t.obs }) ∧
  (∀ (s : State) (fn : Nat), s.grants fn true 0x0D0014 →
    ∃ t, exec (.beaconRelease fn) s = .next t ∧ t.obs.held = false ∧ t.obs.ringStale = false ∧
      t.obs.rings = s.obs.rings.map (fun p => (p.1, { p.2 with frozen := false })) ∧ t.obs.snapCounters = s.obs.snapCounters ∧
      t = { s with out := [.reg false 0], obs := t.obs }) ∧
  (∀ (s : State), s.mon.stop.isSome = true → exec .beaconFreeze s = .next s.begin) ∧
  (∀ (s : State) (src k : Nat) (stale : Bool), s.mon.stop = none → s.obs.freezeDue = some src →
    stale = s.obs.rings.any (fun p => p.2.frozen) → k < 84 →
    ∃ t, exec .beaconFreeze s = .next t ∧ t.obs.held = true ∧ t.obs.src = src ∧ t.obs.late = false ∧ t.obs.freezeTime = s.clk.domain ∧
      t.obs.freezeDue = none ∧ t.obs.ringStale = stale ∧ t.obs.snapInvalid = s.obs.invalids ∧ t.obs.counters = s.obs.counters ∧
      t.ring k = s.frozenRing k ∧
      t.hlm.fifo = s.hlm.fifo ++
        [{ code := evBeacon, unit := unitObs, stall := none, time := s.clk.domain, unanchored := s.unanchored, arg0 := s.clk.domain
           arg1 := src + 8 * bit stale }] ∧
      t.hlm.cwq = s.hlm.cwq ∧ t = { s with out := [], obs := t.obs, hlm := t.hlm }) ∧
  (∀ (s : State) (c : Call) (at_ : Nat), s.admits c 0x0C02 → s.obs.armCall.contains c = false → s.obs.held = false → s.obs.armed = false →
    exec (.beaconSet c at_) s = .next { s with
      out := []
      obs := { s.obs with armed := true, armTime := at_, armCall := [c], armLate := decide (at_ ≠ 0 ∧ at_ < s.clk.domain) } }) ∧
  (∀ (s : State) (c : Call) (at_ : Nat), s.admits c 0x0C02 → s.obs.armCall.contains c = false →
    s.obs.held = true ∨ s.obs.armed = true → exec (.beaconSet c at_) s = .next (s.begin.finish c stPolicy)) ∧
  (∀ (s : State) (c : Call), s.mon.stop = none → s.obs.freezeDue = none → s.obs.armed = true → s.obs.armTime ≠ 0 →
    s.obs.armTime ≤ s.clk.domain → s.obs.armCall = [c] → s.obs.held = false → s.alr.quiet = false →
    ∃ t, exec .beaconFreeze s = .next t ∧ t.obs.held = true ∧ t.obs.src = 1 ∧ t.obs.armed = false ∧ t.obs.freezeTime = s.clk.domain ∧
      s.recorded t { c.record stOk with result := leBytes 8 s.clk.domain } ∧ t = { s with out := [], obs := t.obs, hlm := t.hlm, alr := t.alr }) ∧
  (∀ (s : State) (fn bank n : Nat), s.grants fn true 0x0D0010 → bank < 16 → s.obs.bankFault.getLsbD bank = false → n ≠ 12 → n ≠ 13 →
    ∃ t, exec (.counterBankClear fn bank) s = .next t ∧ t.obs.counter n = (if n / 256 = bank then 0 else s.obs.counter n) ∧
      t.obs.invalid = s.obs.invalid.filter (fun k => k / 256 ≠ bank) ∧ t.obs.snapCounters = s.obs.snapCounters ∧
      t = { s with out := [.reg false 0], obs := t.obs }) ∧
  (∀ (s : State) (fn bank n : Nat), s.grants fn true 0x0D0010 → bank < 16 → s.obs.bankFault.getLsbD bank = true → n ≠ 12 → n ≠ 13 →
    ∃ t, exec (.counterBankClear fn bank) s = .next t ∧ t.obs.counter n = s.obs.counter n ∧ t.obs.invalid = s.obs.invalid ∧
      t = { s with out := [.reg false 0], obs := t.obs }) ∧
  (∀ (s : State) (counter b n : Nat) (fault : Bool), counter < 4096 → b = counter / 256 → s.obs.bankFault.getLsbD b = false →
    n ≠ ctrRcu 6 → n / 256 = b →
    ∃ t, exec (.counterBankSoundingDone counter fault) s = .next t ∧ t.obs.invalid.contains n = true ∧ t.obs.testing.getLsbD b = false ∧
      t.obs.bankFault.getLsbD b = fault ∧ t.obs.counter n = s.obs.counter n ∧
      t.hlm.fifo.drop s.hlm.fifo.length = [{ code := evSounding, unit := unitObs, stall := none, time := s.clk.domain
                                             unanchored := s.unanchored, arg0 := 3, arg1 := if fault then 1 else 2 }] ++
        (if fault then [{ code := evCtrBankFault, unit := unitObs, stall := none, time := s.clk.domain, unanchored := s.unanchored
                          arg0 := b, arg1 := 0 }] else []) ∧
      t = { s with out := [], obs := t.obs, hlm := t.hlm, alr := t.alr }) ∧
  (∀ (s : State) (counter : Nat) (fault : Bool), s.obs.bankFault.getLsbD (counter % 4096 / 256) = true →
    exec (.counterBankSoundingDone counter fault) s = .next s.begin) ∧
  (∀ (s : State) (fn k stall n : Nat), s.grants fn true (0x0D0100 + 4 * k) → 1 ≤ k → k ≤ 62 → 1 ≤ stall → stall < 4096 →
    s.obs.track.any (fun p => decide (p.1 ≠ k ∧ p.2 = stall)) = false → s.obs.bankFault.getLsbD ((2304 + 16 * k) / 256) = false → n < 16 →
    ∃ t, exec (.obsTrackWrite fn k stall true) s = .next t ∧ t.obs.track = assocSet k stall s.obs.track ∧
      t.obs.counter (2304 + 16 * k + n) = 0 ∧ t.obs.invalid.contains (2304 + 16 * k + n) = false ∧
      t = { s with out := [.reg false 0], obs := t.obs }) ∧
  (∀ (s : State) (fn k stall n : Nat), s.grants fn true (0x0D0100 + 4 * k) → 1 ≤ k → k ≤ 62 → stall < 4096 → n ≠ 12 → n ≠ 13 →
    stall = 0 ∨ s.obs.track.any (fun p => decide (p.1 ≠ k ∧ p.2 = stall)) = true →
    ∃ t, exec (.obsTrackWrite fn k stall true) s = .next t ∧ t.obs.track = s.obs.track ∧ t.obs.counter n = s.obs.counter n ∧
      t = { s with out := [.reg false 0], obs := t.obs })

/-- In service, outside the quiet state and C, with pclk running and at least one wait of R536: when T_DOLDRUMS has passed since the last
progress, DOLDRUMS_DECLARE sets DOLDRUMS and DUMP_OPEN, counts the episode, raises EV_DOLDRUMS with the number of waits and the time of
the last progress, and puts a Beacon freeze with source 3 on its way; before, or without a wait, or in a declared Doldrums, it does
nothing. DOLDRUMS_END ends it at the first progress after the declaration, with EV_DOLDRUMS_END. HANG_DUMP, admitted: while DUMP_OPEN is
0 it ends with ST_POLICY. Without a Stall it writes the metadata as Stall 0, raises EV_HANG_DUMP, and its record carries both lengths; a
metadata write that fails ends it with ST_MEMORY. With a resident Stall that has a DUMP key it writes, behind the metadata, the sections
sealed under the key of the highest SERIAL, or ends with ST_KEY_LIMIT where the key's limit would be crossed; with a resident Stall
without one it ends with ST_KEY_UNKNOWN. -/
def Obligations.DoldrumsAndHangDump : Prop :=
  (∀ (s : State), s.alr.quiet = false → s.alr.doldrums = false → s.mon.stop = none → s.rst.coreReset = none → s.rst.phase = .service →
    s.waitCount ≠ 0 → s.alr.progressAt + s.cfg.engine.tDoldrums * 1000000 ≤ s.clk.elapsed →
    ∃ t, exec .doldrumsDeclare s = .next t ∧
      t.alr = { s.alr with
        doldrums := true, dumpOpen := true, doldrumsAt := s.clk.elapsed, doldrumsTime := s.clk.domain, progressed := false
        episodes := satAdd 65535 s.alr.episodes 1 } ∧
      t.obs.freezeDue = some 3 ∧
      t.hlm.fifo = s.hlm.fifo ++
        [{ code := evDoldrums, unit := unitAlarm, stall := none, time := s.clk.domain, unanchored := s.unanchored, arg0 := s.waitCount
           arg1 := s.alr.progressTime }] ∧
      t.hlm.cwq = s.hlm.cwq ∧ t = { s with out := [], alr := t.alr, obs := t.obs, hlm := t.hlm }) ∧
  (∀ (s : State), s.waitCount = 0 ∨ s.clk.elapsed < s.alr.progressAt + s.cfg.engine.tDoldrums * 1000000 ∨ s.alr.doldrums = true →
    exec .doldrumsDeclare s = .next s.begin) ∧
  (∀ (s : State), s.alr.doldrums = true → s.alr.progressed = true →
    ∃ t, exec .doldrumsEnd s = .next t ∧ t.alr = { s.alr with doldrums := false } ∧
      t.hlm.fifo = s.hlm.fifo ++
        [{ code := evDoldrumsEnd, unit := unitAlarm, stall := none, time := s.clk.domain, unanchored := s.unanchored
           arg0 := (s.alr.progressAt - s.alr.doldrumsAt) / 1000, arg1 := 0 }] ∧
      t = { s with out := [], alr := t.alr, hlm := t.hlm }) ∧
  (∀ (s : State), s.alr.progressed = false → exec .doldrumsEnd s = .next s.begin) ∧
  (∀ (s : State) (c : Call) (stall dst outp room : Nat) (work : Bytes) (a b : Bool), s.admits c 0x0C01 → s.alr.dumpOpen = false →
    exec (.hangDump c stall dst outp room work a b) s = .next (s.begin.finish c stPolicy)) ∧
  (∀ (s : State) (c : Call) (dst outp room : Nat) (work m : Bytes) (b : Bool), s.admits c 0x0C01 → s.alr.dumpOpen = true →
    m = s.dumpMeta →
    ∃ t, exec (.hangDump c 0xFFFF dst outp room work true b) s = .next t ∧ t.out = [.memWrite 0 dst m] ∧
      s.recorded t { c.record stOk with result := leBytes 4 m.length ++ leBytes 4 0 } ∧
      t.hlm.fifo = s.hlm.fifo ++
        [{ code := evHangDump, unit := unitAlarm, stall := none, time := s.clk.domain, unanchored := s.unanchored, arg0 := m.length
           arg1 := 0 }] ∧
      t = { s with out := t.out, hlm := t.hlm, alr := t.alr, obs := t.obs }) ∧
  (∀ (s : State) (c : Call) (dst outp room : Nat) (work : Bytes) (b : Bool), s.admits c 0x0C01 → s.alr.dumpOpen = true →
    ∃ t, exec (.hangDump c 0xFFFF dst outp room work false b) s = .next t ∧ t.out = [.memWrite 0 dst s.dumpMeta] ∧
      s.recorded t (c.record stMemory) ∧ t = { s with out := t.out, hlm := t.hlm, alr := t.alr, obs := t.obs }) ∧
  (∀ (s : State) (c : Call) (id dst outp room n : Nat) (work m b : Bytes) (x : Stall) (d : StallData) (k : KeyEntry),
    s.admits c 0x0C01 → s.alr.dumpOpen = true → id < 4096 → s.ald.restored = true → s.stall? id = some x → s.stallData? id = some d →
    s.resident id = true → d.dumpKey = some k → s.sbx.entropyOk = true → s.sbx.entropyWaits = [] → s.obs.waits = [] →
    m = s.dumpMeta → n = ceilDiv (sectionBytes (s.dumpSections id x d work)).length 16 + 1 →
    b = s.stallDump id x d k (s.tookDraw.drawn 12) (s.dumpSections id x d work) → b.length ≤ room →
    ∃ t, exec (.hangDump c id dst outp room work true true) s = .next t ∧
      t.out = (if s.overLimit k.handle k.gen n then [.memWrite 0 dst m] else [.memWrite 0 dst m, .memWrite c.stall outp b]) ∧
      s.recorded t (if s.overLimit k.handle k.gen n then { c.record stKeyLimit with result := leBytes 4 m.length ++ leBytes 4 0 }
        else { c.record stOk with result := leBytes 4 m.length ++ leBytes 4 b.length }) ∧
      t.stl.table = s.stl.table ∧ t.ldg = s.ldg ∧ t.mse = s.mse ∧ t.epo = s.epo) ∧
  (∀ (s : State) (c : Call) (id dst outp room : Nat) (work m : Bytes) (ok : Bool) (x : Stall) (d : StallData),
    s.admits c 0x0C01 → s.alr.dumpOpen = true → id < 4096 → s.ald.restored = true → s.stall? id = some x → s.stallData? id = some d →
    s.resident id = true → d.dumpKey = none → m = s.dumpMeta →
    ∃ t, exec (.hangDump c id dst outp room work true ok) s = .next t ∧ t.out = [.memWrite 0 dst m] ∧
      s.recorded t { c.record stKeyUnknown with result := leBytes 4 m.length ++ leBytes 4 0 } ∧
      t = { s with out := t.out, hlm := t.hlm, alr := t.alr, obs := t.obs })

/-- In P and S the port answers no access. Out of them, with the block not dead: an access to an address without a register completes with
data 0; one that the state of the block or REG_AUTH does not allow is denied; neither changes anything but counters. A granted read of a
plain register answers its value; of a _LO register it answers the low half and captures the high half for the _HI register, which a
read of _HI then answers. A granted write of XS_IRQ_ENABLE replaces its four bits; one of XS_IRQ_STATUS clears the COMP, ALARM and
URGENT bits written 1 and no other; one of a selector takes its field. SETTINGS_DATA_ACCESS, granted: a write stages the word at the
selected KIND, SERIAL and WORD (KIND 0 to 2) in place of any staged there, a read answers the register, and in both WORD of
XS_ALD_SETSEL advances by 1. No other state changes. -/
def Obligations.RegisterAccesses : Prop :=
  (∀ (s : State) (fn addr data : Nat), s.rst.phase = .inReset →
    exec (.capturePairRead fn addr) s = .next s.begin ∧ exec (.registerWrite fn addr data) s = .next s.begin) ∧
  (∀ (s : State) (fn addr data : Nat), s.rst.phase ≠ .inReset → s.readReg fn (regAddr addr) = none →
    ∃ t, exec (.registerWrite fn addr data) s = .next t ∧ exec (.capturePairRead fn addr) s = .next t ∧
      t = { s with out := [.reg false 0], obs := t.obs }) ∧
  (∀ (s : State) (fn addr : Nat), s.rst.phase ≠ .inReset → (s.readReg fn (regAddr addr)).isSome = true → s.dead = false →
    s.mayAccess fn false (regAddr addr) = false →
    ∃ t, exec (.capturePairRead fn addr) s = .next t ∧ t = { s with out := [.reg true 0], obs := t.obs }) ∧
  (∀ (s : State) (fn addr data : Nat), s.rst.phase ≠ .inReset → (s.readReg fn (regAddr addr)).isSome = true → s.dead = false →
    s.mayAccess fn true (regAddr addr) = false →
    ∃ t, exec (.registerWrite fn addr data) s = .next t ∧ t = { s with out := [.reg true 0], obs := t.obs }) ∧
  (∀ (s : State) (fn addr v : Nat), s.grants fn false (regAddr addr) → s.readReg fn (regAddr addr) = some v →
    s.pairValue (regAddr addr) = none → regAddr addr ≠ 0x020014 → helmOwned (regAddr addr) = false →
    ∃ t, exec (.capturePairRead fn addr) s = .next t ∧ t = { s with out := [.reg false (BitVec.ofNat 32 v)], obs := t.obs }) ∧
  (∀ (s : State) (fn addr v : Nat), s.grants fn false (regAddr addr) → s.pairValue (regAddr addr) = some v →
    s.build.window (regAddr addr / 2 ^ 16) = true → regAddr addr ≠ 0x060030 → v < 2 ^ 64 →
    ∃ t, exec (.capturePairRead fn addr) s = .next t ∧ t.cap = s.cap.take (regAddr addr) (BitVec.ofNat 32 (v / 2 ^ 32)) ∧
      t.readReg fn (regAddr addr + 4) = some (v / 2 ^ 32) ∧
      t = { s with out := [.reg false (BitVec.ofNat 32 v)], cap := t.cap, obs := t.obs }) ∧
  (∀ (s : State) (fn data : Nat), s.grants fn true 0x000024 →
    ∃ t, exec (.registerWrite fn 0x000024 data) s = .next t ∧ t.hlm = { s.hlm with irqEnable := BitVec.ofNat 4 data } ∧
      t = { s with out := [.reg false 0], hlm := t.hlm, obs := t.obs }) ∧
  (∀ (s : State) (fn data : Nat), s.grants fn true 0x000020 → data < 2 ^ 32 →
    ∃ t, exec (.registerWrite fn 0x000020 data) s = .next t ∧
      t.hlm = { s.hlm with
        irqComp := s.hlm.irqComp && !data.testBit 0
        irqAlarm := s.hlm.irqAlarm && !data.testBit 2
        irqUrgent := s.hlm.irqUrgent && !data.testBit 3 } ∧
      t = { s with out := [.reg false 0], hlm := t.hlm, obs := t.obs }) ∧
  (∀ (s : State) (fn data : Nat), s.grants fn true 0x080008 → data < 2 ^ 32 →
    ∃ t, exec (.registerWrite fn 0x080008 data) s = .next t ∧ t.stl = { s.stl with sel := BitVec.ofNat 12 data } ∧
      t = { s with out := [.reg false 0], stl := t.stl, obs := t.obs }) ∧
  (∀ (s : State) (fn data kind serial word : Nat), s.grants fn true 0x020014 → kind = s.ald.setSel.toNat % 4 →
    serial = s.ald.setSel.toNat / 4 % 64 → word = s.ald.setSel.toNat / 256 → kind < 3 → data < 2 ^ 32 →
    ∃ t, exec (.settingsDataAccess fn true data) s = .next t ∧
      t.ald.staged = s.ald.staged.filter (fun x => !decide (x.1 = kind ∧ x.2.1 = serial ∧ x.2.2.1 = word)) ++
        [(kind, serial, word, BitVec.ofNat 32 data)] ∧
      t.ald.setSel.toNat = s.ald.setSel.toNat % 256 + (word + 1) % 1024 * 256 ∧
      t = { s with out := [.reg false 0], ald := { s.ald with staged := t.ald.staged, setSel := t.ald.setSel }, obs := t.obs }) ∧
  (∀ (s : State) (fn data v : Nat), s.grants fn false 0x020014 → s.readReg fn 0x020014 = some v →
    ∃ t, exec (.settingsDataAccess fn false data) s = .next t ∧ t.out = [.reg false (BitVec.ofNat 32 v)] ∧
      t.ald.setSel.toNat = s.ald.setSel.toNat % 256 + (s.ald.setSel.toNat / 256 + 1) % 1024 * 256 ∧
      t = { s with out := t.out, ald := { s.ald with setSel := t.ald.setSel }, obs := t.obs })

/-- For a function that REG_AUTH lets write, outside C. XS_HLM_EVQCFG written while the ring is off: a LOG2SIZE of 6 to 16 is taken, one
outside keeps the old size, and ON going to 1 clears HEAD and TAIL; while the ring is on, the size stays. XS_HLM_EVQTAIL takes the index
written. XS_ALR_STATUS.INTEGRITY written 1 lowers that alarm and no other state. GO with the window free: a packet that fails a check
ends with that status in the window; one that passes runs as Stall 0 and the window is busy; GO while the window is busy or in the quiet
state does nothing. TAP: outside P, S and the states marked in R511 an instruction selects only. In those states, entering SCAN, MBIST
or HELM_DBG raises AL_INTEGRITY, class DEBUG, and sets rst_req; FUSE_READ reads the word at the fuse port, in ANALYSIS only outside the
key words; REG_ACCESS reads and writes any register and shifts its data out. -/
def Obligations.HelmRegistersAndTap : Prop :=
  (∀ (s : State) (fn log2 : Nat) (on : Bool), s.grants fn true 0x0B0018 → s.hlm.evq.on = false → log2 < 32 →
    ∃ t, exec (.evqCfgWrite fn log2 on) s = .next t ∧
      t.hlm.evq = { s.hlm.evq with
        log2Size := if 6 ≤ log2 ∧ log2 ≤ 16 then BitVec.ofNat 5 log2 else s.hlm.evq.log2Size
        on := on
        head := if on then 0 else s.hlm.evq.head
        tail := if on then 0 else s.hlm.evq.tail } ∧
      t = { s with out := [.reg false 0], hlm := { s.hlm with evq := t.hlm.evq }, obs := t.obs }) ∧
  (∀ (s : State) (fn log2 : Nat) (on : Bool), s.grants fn true 0x0B0018 → s.hlm.evq.on = true →
    ∃ t, exec (.evqCfgWrite fn log2 on) s = .next t ∧ t.hlm.evq = { s.hlm.evq with on := on } ∧
      t = { s with out := [.reg false 0], hlm := { s.hlm with evq := t.hlm.evq }, obs := t.obs }) ∧
  (∀ (s : State) (fn tail : Nat), s.grants fn true 0x0B0020 → tail < 65536 →
    ∃ t, exec (.evqTailWrite fn tail) s = .next t ∧ t.hlm.evq = { s.hlm.evq with tail := tail } ∧
      t = { s with out := [.reg false 0], hlm := { s.hlm with evq := t.hlm.evq }, obs := t.obs }) ∧
  (∀ (s : State) (fn : Nat), s.grants fn true 0x0C0000 →
    ∃ t, exec (.integrityAlarmClear fn) s = .next t ∧ t.alr = { s.alr with integrity := false } ∧
      t = { s with out := [.reg false 0], alr := t.alr, obs := t.obs }) ∧
  (∀ (s : State) (fn n st d : Nat) (b : Bytes) (c : Call), s.serving → s.grants fn true 0x0B0100 → s.rst.coreReset = none →
    s.hlm.dwBusy = false → n = leField s.hlm.windowBytes 3 1 → 1 ≤ n → n ≤ 8 → b = padTo 48 (s.hlm.windowBytes.take (32 * n)) →
    c = callOf b fn 0 0 true → s.packetStatus b c = some (st, d) →
    ∃ t, exec (.dwGo fn) s = .next t ∧ s.recorded t { c.record st with detail := d } ∧ t.hlm.running.length ≤ s.hlm.running.length ∧
      t.hlm.accepted = s.hlm.accepted + 1 ∧ t.out = [.reg false 0] ∧ t = { s with out := t.out, hlm := t.hlm, alr := t.alr, obs := t.obs }) ∧
  (∀ (s : State) (fn n : Nat) (b : Bytes) (c : Call), s.serving → s.grants fn true 0x0B0100 → s.rst.coreReset = none →
    s.hlm.dwBusy = false → n = leField s.hlm.windowBytes 3 1 → 1 ≤ n → n ≤ 8 → b = padTo 48 (s.hlm.windowBytes.take (32 * n)) →
    c = callOf b fn 0 0 true → s.packetStatus b c = none →
    ∃ t, exec (.dwGo fn) s = .next t ∧
      t.hlm = { s.hlm with
        dwBusy := true
        accepted := s.hlm.accepted + 1
        running := s.hlm.running ++
          [{ call := c, args := packetArgs (s.hlm.windowBytes.take (32 * n)), order := s.hlm.accepted, waited := 0 }] } ∧
      t = { s with out := [.reg false 0], hlm := t.hlm, obs := t.obs }) ∧
  (∀ (s : State) (fn : Nat), s.grants fn true 0x0B0100 → s.rst.coreReset = none → s.hlm.dwBusy = true ∨ s.alr.quiet = true →
    ∃ t, exec (.dwGo fn) s = .next t ∧ t = { s with out := [.reg false 0], obs := t.obs }) ∧
  (∀ (s : State) (ir : Nat), s.tapOpen ir = true → ir = 0x20 ∨ ir = 0x21 ∨ ir = 0x30 →
    ∃ t, exec (.tapDebugEnter ir) s = .next t ∧ t.lcu.tapIr = BitVec.ofNat 8 ir ∧ t.rst = { s.rst with rstReq := true } ∧
      t.alr.integrity = true ∧ t.out = [] ∧ t.lcu.state = s.lcu.state ∧ t.mse = s.mse ∧ t.stl = s.stl) ∧
  (∀ (s : State) (ir word addr data : Nat) (write : Bool), s.rst.phase = .inReset ∨ (s.lcu.state ≠ lcBlank ∧ s.lcu.state ≠ lcTestOpen ∧
      s.lcu.state ≠ lcAnalysis) → ir = 0x20 ∨ ir = 0x21 ∨ ir = 0x30 →
    exec (.tapDebugEnter ir) s = .next { s with out := [], lcu := { s.lcu with tapIr := BitVec.ofNat 8 ir } } ∧
      exec (.tapFuseRead word) s = .next { s with out := [], lcu := { s.lcu with tapIr := 0x22 } } ∧
      exec (.tapRegAccess write addr data) s = .next { s with out := [], lcu := { s.lcu with tapIr := 0x31 } }) ∧
  (∀ (s : State) (word : Nat), s.tapOpen 0x22 = true → word < 256 →
    s.lcu.state ≠ lcAnalysis ∨ ¬ ((0x10 ≤ word ∧ word ≤ 0x31) ∨ (0xE0 ≤ word ∧ word ≤ 0xEF)) → s.lcu.job = none → s.lcu.tapRead = none →
    exec (.tapFuseRead word) s = .next { s with out := [.fuseRd word], lcu := { s.lcu with tapIr := 0x22, tapRead := some word } }) ∧
  (∀ (s : State) (word : Nat), s.lcu.state = lcAnalysis → (0x10 ≤ word ∧ word ≤ 0x31) ∨ (0xE0 ≤ word ∧ word ≤ 0xEF) →
    exec (.tapFuseRead word) s = .next { s with out := [], lcu := { s.lcu with tapIr := 0x22 } }) ∧
  (∀ (s : State) (addr data v : Nat), s.tapOpen 0x31 = true → s.dead = false → s.readReg 0 (regAddr addr) = some v →
    s.pairValue (regAddr addr) = none → regAddr addr ≠ 0x020014 → helmOwned (regAddr addr) = false →
    exec (.tapRegAccess false addr data) s = .next { s with out := [.tap (leBytes 4 v)], lcu := { s.lcu with tapIr := 0x31 } }) ∧
  (∀ (s : State) (data : Nat), s.tapOpen 0x31 = true → s.dead = false →
    exec (.tapRegAccess true 0x000024 data) s = .next { s with
      out := [.tap (leBytes 4 0)]
      lcu := { s.lcu with tapIr := 0x31 }
      hlm := { s.hlm with irqEnable := BitVec.ofNat 4 data } })

/-- With a command at the front of the queue, a step is exec of that command on the state with the rest of the queue. With none, the model
lets one rclk edge pass (its own choice, notes/assumptions/1.md): elapsed time advances by 10 ns unless rst_por_n is 0, domain time
stands while P or S is asserted, and nothing changes but the clocks and the Steelyard's residency counts. -/
def Obligations.StepRunsTheFrontCommand : Prop :=
  (∀ (s : State) (c : Instr) (rest : List Instr), s.pending = c :: rest → step s = exec c { s with pending := rest }) ∧
  (∀ (s : State), s.pending = [] →
    ∃ t, step s = .next t ∧ t.clk.elapsed = (if s.pins.porN then s.clk.elapsed + 10 else s.clk.elapsed) ∧
      (s.rst.phase = .inReset → t.clk.domain = s.clk.domain) ∧
      t = { s with out := [], clk := { s.clk with elapsed := t.clk.elapsed, domain := t.clk.domain, slew := t.clk.slew, slewGap := t.clk.slewGap }, sty := t.sty })

/-- The state right after reset has as many MSEs, LSEs and HSEs as its build counts (the build is the model's choice,
notes/assumptions/2.md), P is asserted with rst_busy 1, no Stall exists but for those a start makes, every buffer of Helm is empty, and
no command waits. -/
def Obligations.ResetSatisfiesInvariant : Prop :=
  State.reset.enginesMatch ∧ State.reset.rst.phase = .inReset ∧ State.reset.rst.rstBusy = true ∧ State.reset.stl.table = [] ∧
    State.reset.hlm.buffer = [] ∧ State.reset.hlm.tickQ = [] ∧ State.reset.hlm.running = [] ∧ State.reset.hlm.cwq = [] ∧
    State.reset.pending = []

/-- In every state in which the block has as many MSEs, LSEs and HSEs as its build counts, whatever else it holds, and for every command at
the front of the queue, resets among them: if the step answers a next state, that state has them too, for the same build, and the queue
has lost the command alone. -/
def Obligations.EveryStepKeepsTheEngines : Prop :=
  ∀ (s t : State), s.enginesMatch → step s = .next t → t.enginesMatch ∧ t.build = s.build ∧ t.pending = s.pending.tail

/-- No state and no operand makes a command of the table stop: exec of a command that names no engine, or one that exists, answers a next
state. A command that names an MSE, LSE or HSE which the block does not have faults, and only such a command does. -/
def Obligations.EveryCommandRuns : Prop :=
  (∀ (s : State) (c : Instr), s.hasEngine c = true → ∃ t, exec c s = .next t) ∧
  (∀ (s : State) (c : Instr) (e : Nat × Nat), s.hasEngine c = false → c.engine = some e → exec c s = .fault (.noSuchPort e.1 e.2))

/-- In every state and for every command at the front of the queue whose step answers a next state: a fuse bit that reads 1 reads 1
afterwards. Where the command is none of POWER_ON_RESET, SYSTEM_RESET and RESET_RELEASE, the quiet state is not left, P or S is not
left, and elapsed time is the same (that a command takes no time is the model's choice, notes/assumptions/1.md). -/
def Obligations.WhatNoCommandUndoes : Prop :=
  (∀ (s t : State) (c : Instr) (rest : List Instr) (w b : Nat), s.pending = c :: rest → step s = .next t →
    (s.lcu.fuse w).testBit b = true → (t.lcu.fuse w).testBit b = true) ∧
  (∀ (s t : State) (c : Instr) (rest : List Instr), s.pending = c :: rest → step s = .next t → c.isReset = false →
    s.alr.quiet = true → t.alr.quiet = true) ∧
  (∀ (s t : State) (c : Instr) (rest : List Instr), s.pending = c :: rest → step s = .next t → c.isReset = false →
    s.rst.phase = .inReset → t.rst.phase = .inReset) ∧
  (∀ (s t : State) (c : Instr) (rest : List Instr), s.pending = c :: rest → step s = .next t → c.isReset = false →
    t.clk.elapsed = s.clk.elapsed)
end

