-- ==== Sys2Proof/Laws/Command.lean ====
section
/-!
SUPPORT. What an admitted command does is its body, on the state with the outputs of the last command cleared.
-/

namespace Sys2Proof.Machine

/-- An admitted command runs its body. -/
theorem State.command_run {s : State} {c : Call} {op : Nat} {body : State → State} (h : s.admits c op) :
    s.command c op body = body s.begin := by
  obtain ⟨⟨hp, -, hq⟩, hi⟩ := h
  have hp' : s.begin.rst.phase = .service := hp
  have hq' : s.begin.alr.quiet = false := hq
  unfold State.command
  cases he : cmdInfo? op with
  | none => simp [he] at hi
  | some info =>
    have hb : s.begin.build = s.build := rfl
    have hg : s.begin.gate c info = s.gate c info := rfl
    simp only [he, Option.any_some, Bool.and_eq_true, decide_eq_true_eq] at hi
    simp [hp', hq', hb, hg, hi.1, hi.2]

/-- Outside service, and in the quiet state, a command has no effect (R89). -/
theorem State.command_idle {s : State} {c : Call} {op : Nat} {body : State → State} (h : s.alr.quiet = true ∨ s.rst.phase ≠ .service) :
    s.command c op body = s.begin := by
  have h' : s.begin.alr.quiet = true ∨ s.begin.rst.phase ≠ .service := h
  unfold State.command
  simp [h']

end Sys2Proof.Machine
end

