-- ==== Sys2Proof/Laws/State.lean ====
section
/-!
SUPPORT. What each plain update of State leaves in each field.
-/

namespace Sys2Proof.Machine

/-! ### State.begin -/

@[simp] theorem State.begin_build (s : State) : (s.begin).build = s.build := rfl
@[simp] theorem State.begin_cfg (s : State) : (s.begin).cfg = s.cfg := rfl
@[simp] theorem State.begin_pins (s : State) : (s.begin).pins = s.pins := rfl
@[simp] theorem State.begin_clk (s : State) : (s.begin).clk = s.clk := rfl
@[simp] theorem State.begin_mon (s : State) : (s.begin).mon = s.mon := rfl
@[simp] theorem State.begin_rst (s : State) : (s.begin).rst = s.rst := rfl
@[simp] theorem State.begin_cap (s : State) : (s.begin).cap = s.cap := rfl
@[simp] theorem State.begin_alr (s : State) : (s.begin).alr = s.alr := rfl
@[simp] theorem State.begin_obs (s : State) : (s.begin).obs = s.obs := rfl
@[simp] theorem State.begin_hlm (s : State) : (s.begin).hlm = s.hlm := rfl
@[simp] theorem State.begin_nvm (s : State) : (s.begin).nvm = s.nvm := rfl
@[simp] theorem State.begin_ald (s : State) : (s.begin).ald = s.ald := rfl
@[simp] theorem State.begin_cht (s : State) : (s.begin).cht = s.cht := rfl
@[simp] theorem State.begin_lcu (s : State) : (s.begin).lcu = s.lcu := rfl
@[simp] theorem State.begin_sbx (s : State) : (s.begin).sbx = s.sbx := rfl
@[simp] theorem State.begin_epo (s : State) : (s.begin).epo = s.epo := rfl
@[simp] theorem State.begin_ldg (s : State) : (s.begin).ldg = s.ldg := rfl
@[simp] theorem State.begin_swp (s : State) : (s.begin).swp = s.swp := rfl
@[simp] theorem State.begin_stl (s : State) : (s.begin).stl = s.stl := rfl
@[simp] theorem State.begin_att (s : State) : (s.begin).att = s.att := rfl
@[simp] theorem State.begin_dom (s : State) : (s.begin).dom = s.dom := rfl
@[simp] theorem State.begin_mrk (s : State) : (s.begin).mrk = s.mrk := rfl
@[simp] theorem State.begin_bth (s : State) : (s.begin).bth = s.bth := rfl
@[simp] theorem State.begin_tol (s : State) : (s.begin).tol = s.tol := rfl
@[simp] theorem State.begin_sty (s : State) : (s.begin).sty = s.sty := rfl
@[simp] theorem State.begin_xck (s : State) : (s.begin).xck = s.xck := rfl
@[simp] theorem State.begin_rwt (s : State) : (s.begin).rwt = s.rwt := rfl
@[simp] theorem State.begin_rwtSel (s : State) : (s.begin).rwtSel = s.rwtSel := rfl
@[simp] theorem State.begin_granted (s : State) : (s.begin).granted = s.granted := rfl
@[simp] theorem State.begin_mse (s : State) : (s.begin).mse = s.mse := rfl
@[simp] theorem State.begin_listedCount (s : State) : (s.begin).listedCount = s.listedCount := rfl
@[simp] theorem State.begin_lse (s : State) : (s.begin).lse = s.lse := rfl
@[simp] theorem State.begin_hse (s : State) : (s.begin).hse = s.hse := rfl
@[simp] theorem State.begin_out (s : State) : (s.begin).out = [] := rfl
@[simp] theorem State.begin_fresh (s : State) : (s.begin).fresh = s.fresh := rfl
@[simp] theorem State.begin_pending (s : State) : (s.begin).pending = s.pending := rfl

/-! ### State.emit -/

@[simp] theorem State.emit_build (o : Out) (s : State) : (s.emit o).build = s.build := rfl
@[simp] theorem State.emit_cfg (o : Out) (s : State) : (s.emit o).cfg = s.cfg := rfl
@[simp] theorem State.emit_pins (o : Out) (s : State) : (s.emit o).pins = s.pins := rfl
@[simp] theorem State.emit_clk (o : Out) (s : State) : (s.emit o).clk = s.clk := rfl
@[simp] theorem State.emit_mon (o : Out) (s : State) : (s.emit o).mon = s.mon := rfl
@[simp] theorem State.emit_rst (o : Out) (s : State) : (s.emit o).rst = s.rst := rfl
@[simp] theorem State.emit_cap (o : Out) (s : State) : (s.emit o).cap = s.cap := rfl
@[simp] theorem State.emit_alr (o : Out) (s : State) : (s.emit o).alr = s.alr := rfl
@[simp] theorem State.emit_obs (o : Out) (s : State) : (s.emit o).obs = s.obs := rfl
@[simp] theorem State.emit_hlm (o : Out) (s : State) : (s.emit o).hlm = s.hlm := rfl
@[simp] theorem State.emit_nvm (o : Out) (s : State) : (s.emit o).nvm = s.nvm := rfl
@[simp] theorem State.emit_ald (o : Out) (s : State) : (s.emit o).ald = s.ald := rfl
@[simp] theorem State.emit_cht (o : Out) (s : State) : (s.emit o).cht = s.cht := rfl
@[simp] theorem State.emit_lcu (o : Out) (s : State) : (s.emit o).lcu = s.lcu := rfl
@[simp] theorem State.emit_sbx (o : Out) (s : State) : (s.emit o).sbx = s.sbx := rfl
@[simp] theorem State.emit_epo (o : Out) (s : State) : (s.emit o).epo = s.epo := rfl
@[simp] theorem State.emit_ldg (o : Out) (s : State) : (s.emit o).ldg = s.ldg := rfl
@[simp] theorem State.emit_swp (o : Out) (s : State) : (s.emit o).swp = s.swp := rfl
@[simp] theorem State.emit_stl (o : Out) (s : State) : (s.emit o).stl = s.stl := rfl
@[simp] theorem State.emit_att (o : Out) (s : State) : (s.emit o).att = s.att := rfl
@[simp] theorem State.emit_dom (o : Out) (s : State) : (s.emit o).dom = s.dom := rfl
@[simp] theorem State.emit_mrk (o : Out) (s : State) : (s.emit o).mrk = s.mrk := rfl
@[simp] theorem State.emit_bth (o : Out) (s : State) : (s.emit o).bth = s.bth := rfl
@[simp] theorem State.emit_tol (o : Out) (s : State) : (s.emit o).tol = s.tol := rfl
@[simp] theorem State.emit_sty (o : Out) (s : State) : (s.emit o).sty = s.sty := rfl
@[simp] theorem State.emit_xck (o : Out) (s : State) : (s.emit o).xck = s.xck := rfl
@[simp] theorem State.emit_rwt (o : Out) (s : State) : (s.emit o).rwt = s.rwt := rfl
@[simp] theorem State.emit_rwtSel (o : Out) (s : State) : (s.emit o).rwtSel = s.rwtSel := rfl
@[simp] theorem State.emit_granted (o : Out) (s : State) : (s.emit o).granted = s.granted := rfl
@[simp] theorem State.emit_mse (o : Out) (s : State) : (s.emit o).mse = s.mse := rfl
@[simp] theorem State.emit_listedCount (o : Out) (s : State) : (s.emit o).listedCount = s.listedCount := rfl
@[simp] theorem State.emit_lse (o : Out) (s : State) : (s.emit o).lse = s.lse := rfl
@[simp] theorem State.emit_hse (o : Out) (s : State) : (s.emit o).hse = s.hse := rfl
@[simp] theorem State.emit_out (o : Out) (s : State) : (s.emit o).out = s.out ++ [o] := rfl
@[simp] theorem State.emit_fresh (o : Out) (s : State) : (s.emit o).fresh = s.fresh := rfl
@[simp] theorem State.emit_pending (o : Out) (s : State) : (s.emit o).pending = s.pending := rfl

/-! ### State.emits -/

@[simp] theorem State.emits_build (os : List Out) (s : State) : (s.emits os).build = s.build := rfl
@[simp] theorem State.emits_cfg (os : List Out) (s : State) : (s.emits os).cfg = s.cfg := rfl
@[simp] theorem State.emits_pins (os : List Out) (s : State) : (s.emits os).pins = s.pins := rfl
@[simp] theorem State.emits_clk (os : List Out) (s : State) : (s.emits os).clk = s.clk := rfl
@[simp] theorem State.emits_mon (os : List Out) (s : State) : (s.emits os).mon = s.mon := rfl
@[simp] theorem State.emits_rst (os : List Out) (s : State) : (s.emits os).rst = s.rst := rfl
@[simp] theorem State.emits_cap (os : List Out) (s : State) : (s.emits os).cap = s.cap := rfl
@[simp] theorem State.emits_alr (os : List Out) (s : State) : (s.emits os).alr = s.alr := rfl
@[simp] theorem State.emits_obs (os : List Out) (s : State) : (s.emits os).obs = s.obs := rfl
@[simp] theorem State.emits_hlm (os : List Out) (s : State) : (s.emits os).hlm = s.hlm := rfl
@[simp] theorem State.emits_nvm (os : List Out) (s : State) : (s.emits os).nvm = s.nvm := rfl
@[simp] theorem State.emits_ald (os : List Out) (s : State) : (s.emits os).ald = s.ald := rfl
@[simp] theorem State.emits_cht (os : List Out) (s : State) : (s.emits os).cht = s.cht := rfl
@[simp] theorem State.emits_lcu (os : List Out) (s : State) : (s.emits os).lcu = s.lcu := rfl
@[simp] theorem State.emits_sbx (os : List Out) (s : State) : (s.emits os).sbx = s.sbx := rfl
@[simp] theorem State.emits_epo (os : List Out) (s : State) : (s.emits os).epo = s.epo := rfl
@[simp] theorem State.emits_ldg (os : List Out) (s : State) : (s.emits os).ldg = s.ldg := rfl
@[simp] theorem State.emits_swp (os : List Out) (s : State) : (s.emits os).swp = s.swp := rfl
@[simp] theorem State.emits_stl (os : List Out) (s : State) : (s.emits os).stl = s.stl := rfl
@[simp] theorem State.emits_att (os : List Out) (s : State) : (s.emits os).att = s.att := rfl
@[simp] theorem State.emits_dom (os : List Out) (s : State) : (s.emits os).dom = s.dom := rfl
@[simp] theorem State.emits_mrk (os : List Out) (s : State) : (s.emits os).mrk = s.mrk := rfl
@[simp] theorem State.emits_bth (os : List Out) (s : State) : (s.emits os).bth = s.bth := rfl
@[simp] theorem State.emits_tol (os : List Out) (s : State) : (s.emits os).tol = s.tol := rfl
@[simp] theorem State.emits_sty (os : List Out) (s : State) : (s.emits os).sty = s.sty := rfl
@[simp] theorem State.emits_xck (os : List Out) (s : State) : (s.emits os).xck = s.xck := rfl
@[simp] theorem State.emits_rwt (os : List Out) (s : State) : (s.emits os).rwt = s.rwt := rfl
@[simp] theorem State.emits_rwtSel (os : List Out) (s : State) : (s.emits os).rwtSel = s.rwtSel := rfl
@[simp] theorem State.emits_granted (os : List Out) (s : State) : (s.emits os).granted = s.granted := rfl
@[simp] theorem State.emits_mse (os : List Out) (s : State) : (s.emits os).mse = s.mse := rfl
@[simp] theorem State.emits_listedCount (os : List Out) (s : State) : (s.emits os).listedCount = s.listedCount := rfl
@[simp] theorem State.emits_lse (os : List Out) (s : State) : (s.emits os).lse = s.lse := rfl
@[simp] theorem State.emits_hse (os : List Out) (s : State) : (s.emits os).hse = s.hse := rfl
@[simp] theorem State.emits_out (os : List Out) (s : State) : (s.emits os).out = s.out ++ os := rfl
@[simp] theorem State.emits_fresh (os : List Out) (s : State) : (s.emits os).fresh = s.fresh := rfl
@[simp] theorem State.emits_pending (os : List Out) (s : State) : (s.emits os).pending = s.pending := rfl

/-! ### State.bump -/

@[simp] theorem State.bump_build (n k : Nat) (s : State) : (s.bump n k).build = s.build := rfl
@[simp] theorem State.bump_cfg (n k : Nat) (s : State) : (s.bump n k).cfg = s.cfg := rfl
@[simp] theorem State.bump_pins (n k : Nat) (s : State) : (s.bump n k).pins = s.pins := rfl
@[simp] theorem State.bump_clk (n k : Nat) (s : State) : (s.bump n k).clk = s.clk := rfl
@[simp] theorem State.bump_mon (n k : Nat) (s : State) : (s.bump n k).mon = s.mon := rfl
@[simp] theorem State.bump_rst (n k : Nat) (s : State) : (s.bump n k).rst = s.rst := rfl
@[simp] theorem State.bump_cap (n k : Nat) (s : State) : (s.bump n k).cap = s.cap := rfl
@[simp] theorem State.bump_alr (n k : Nat) (s : State) : (s.bump n k).alr = s.alr := rfl
@[simp] theorem State.bump_obs (n k : Nat) (s : State) : (s.bump n k).obs = s.obs.bump n k := rfl
@[simp] theorem State.bump_hlm (n k : Nat) (s : State) : (s.bump n k).hlm = s.hlm := rfl
@[simp] theorem State.bump_nvm (n k : Nat) (s : State) : (s.bump n k).nvm = s.nvm := rfl
@[simp] theorem State.bump_ald (n k : Nat) (s : State) : (s.bump n k).ald = s.ald := rfl
@[simp] theorem State.bump_cht (n k : Nat) (s : State) : (s.bump n k).cht = s.cht := rfl
@[simp] theorem State.bump_lcu (n k : Nat) (s : State) : (s.bump n k).lcu = s.lcu := rfl
@[simp] theorem State.bump_sbx (n k : Nat) (s : State) : (s.bump n k).sbx = s.sbx := rfl
@[simp] theorem State.bump_epo (n k : Nat) (s : State) : (s.bump n k).epo = s.epo := rfl
@[simp] theorem State.bump_ldg (n k : Nat) (s : State) : (s.bump n k).ldg = s.ldg := rfl
@[simp] theorem State.bump_swp (n k : Nat) (s : State) : (s.bump n k).swp = s.swp := rfl
@[simp] theorem State.bump_stl (n k : Nat) (s : State) : (s.bump n k).stl = s.stl := rfl
@[simp] theorem State.bump_att (n k : Nat) (s : State) : (s.bump n k).att = s.att := rfl
@[simp] theorem State.bump_dom (n k : Nat) (s : State) : (s.bump n k).dom = s.dom := rfl
@[simp] theorem State.bump_mrk (n k : Nat) (s : State) : (s.bump n k).mrk = s.mrk := rfl
@[simp] theorem State.bump_bth (n k : Nat) (s : State) : (s.bump n k).bth = s.bth := rfl
@[simp] theorem State.bump_tol (n k : Nat) (s : State) : (s.bump n k).tol = s.tol := rfl
@[simp] theorem State.bump_sty (n k : Nat) (s : State) : (s.bump n k).sty = s.sty := rfl
@[simp] theorem State.bump_xck (n k : Nat) (s : State) : (s.bump n k).xck = s.xck := rfl
@[simp] theorem State.bump_rwt (n k : Nat) (s : State) : (s.bump n k).rwt = s.rwt := rfl
@[simp] theorem State.bump_rwtSel (n k : Nat) (s : State) : (s.bump n k).rwtSel = s.rwtSel := rfl
@[simp] theorem State.bump_granted (n k : Nat) (s : State) : (s.bump n k).granted = s.granted := rfl
@[simp] theorem State.bump_mse (n k : Nat) (s : State) : (s.bump n k).mse = s.mse := rfl
@[simp] theorem State.bump_listedCount (n k : Nat) (s : State) : (s.bump n k).listedCount = s.listedCount := rfl
@[simp] theorem State.bump_lse (n k : Nat) (s : State) : (s.bump n k).lse = s.lse := rfl
@[simp] theorem State.bump_hse (n k : Nat) (s : State) : (s.bump n k).hse = s.hse := rfl
@[simp] theorem State.bump_out (n k : Nat) (s : State) : (s.bump n k).out = s.out := rfl
@[simp] theorem State.bump_fresh (n k : Nat) (s : State) : (s.bump n k).fresh = s.fresh := rfl
@[simp] theorem State.bump_pending (n k : Nat) (s : State) : (s.bump n k).pending = s.pending := rfl

/-! ### State.bumpStall -/

@[simp] theorem State.bumpStall_build (stall off k : Nat) (s : State) : (s.bumpStall stall off k).build = s.build := rfl
@[simp] theorem State.bumpStall_cfg (stall off k : Nat) (s : State) : (s.bumpStall stall off k).cfg = s.cfg := rfl
@[simp] theorem State.bumpStall_pins (stall off k : Nat) (s : State) : (s.bumpStall stall off k).pins = s.pins := rfl
@[simp] theorem State.bumpStall_clk (stall off k : Nat) (s : State) : (s.bumpStall stall off k).clk = s.clk := rfl
@[simp] theorem State.bumpStall_mon (stall off k : Nat) (s : State) : (s.bumpStall stall off k).mon = s.mon := rfl
@[simp] theorem State.bumpStall_rst (stall off k : Nat) (s : State) : (s.bumpStall stall off k).rst = s.rst := rfl
@[simp] theorem State.bumpStall_cap (stall off k : Nat) (s : State) : (s.bumpStall stall off k).cap = s.cap := rfl
@[simp] theorem State.bumpStall_alr (stall off k : Nat) (s : State) : (s.bumpStall stall off k).alr = s.alr := rfl
@[simp] theorem State.bumpStall_obs (stall off k : Nat) (s : State) : (s.bumpStall stall off k).obs = s.obs.bump (2304 + 16 * s.obs.setOf stall + off) k := rfl
@[simp] theorem State.bumpStall_hlm (stall off k : Nat) (s : State) : (s.bumpStall stall off k).hlm = s.hlm := rfl
@[simp] theorem State.bumpStall_nvm (stall off k : Nat) (s : State) : (s.bumpStall stall off k).nvm = s.nvm := rfl
@[simp] theorem State.bumpStall_ald (stall off k : Nat) (s : State) : (s.bumpStall stall off k).ald = s.ald := rfl
@[simp] theorem State.bumpStall_cht (stall off k : Nat) (s : State) : (s.bumpStall stall off k).cht = s.cht := rfl
@[simp] theorem State.bumpStall_lcu (stall off k : Nat) (s : State) : (s.bumpStall stall off k).lcu = s.lcu := rfl
@[simp] theorem State.bumpStall_sbx (stall off k : Nat) (s : State) : (s.bumpStall stall off k).sbx = s.sbx := rfl
@[simp] theorem State.bumpStall_epo (stall off k : Nat) (s : State) : (s.bumpStall stall off k).epo = s.epo := rfl
@[simp] theorem State.bumpStall_ldg (stall off k : Nat) (s : State) : (s.bumpStall stall off k).ldg = s.ldg := rfl
@[simp] theorem State.bumpStall_swp (stall off k : Nat) (s : State) : (s.bumpStall stall off k).swp = s.swp := rfl
@[simp] theorem State.bumpStall_stl (stall off k : Nat) (s : State) : (s.bumpStall stall off k).stl = s.stl := rfl
@[simp] theorem State.bumpStall_att (stall off k : Nat) (s : State) : (s.bumpStall stall off k).att = s.att := rfl
@[simp] theorem State.bumpStall_dom (stall off k : Nat) (s : State) : (s.bumpStall stall off k).dom = s.dom := rfl
@[simp] theorem State.bumpStall_mrk (stall off k : Nat) (s : State) : (s.bumpStall stall off k).mrk = s.mrk := rfl
@[simp] theorem State.bumpStall_bth (stall off k : Nat) (s : State) : (s.bumpStall stall off k).bth = s.bth := rfl
@[simp] theorem State.bumpStall_tol (stall off k : Nat) (s : State) : (s.bumpStall stall off k).tol = s.tol := rfl
@[simp] theorem State.bumpStall_sty (stall off k : Nat) (s : State) : (s.bumpStall stall off k).sty = s.sty := rfl
@[simp] theorem State.bumpStall_xck (stall off k : Nat) (s : State) : (s.bumpStall stall off k).xck = s.xck := rfl
@[simp] theorem State.bumpStall_rwt (stall off k : Nat) (s : State) : (s.bumpStall stall off k).rwt = s.rwt := rfl
@[simp] theorem State.bumpStall_rwtSel (stall off k : Nat) (s : State) : (s.bumpStall stall off k).rwtSel = s.rwtSel := rfl
@[simp] theorem State.bumpStall_granted (stall off k : Nat) (s : State) : (s.bumpStall stall off k).granted = s.granted := rfl
@[simp] theorem State.bumpStall_mse (stall off k : Nat) (s : State) : (s.bumpStall stall off k).mse = s.mse := rfl
@[simp] theorem State.bumpStall_listedCount (stall off k : Nat) (s : State) : (s.bumpStall stall off k).listedCount = s.listedCount := rfl
@[simp] theorem State.bumpStall_lse (stall off k : Nat) (s : State) : (s.bumpStall stall off k).lse = s.lse := rfl
@[simp] theorem State.bumpStall_hse (stall off k : Nat) (s : State) : (s.bumpStall stall off k).hse = s.hse := rfl
@[simp] theorem State.bumpStall_out (stall off k : Nat) (s : State) : (s.bumpStall stall off k).out = s.out := rfl
@[simp] theorem State.bumpStall_fresh (stall off k : Nat) (s : State) : (s.bumpStall stall off k).fresh = s.fresh := rfl
@[simp] theorem State.bumpStall_pending (stall off k : Nat) (s : State) : (s.bumpStall stall off k).pending = s.pending := rfl

/-! ### State.tookDraw -/

@[simp] theorem State.tookDraw_build (s : State) : (s.tookDraw).build = s.build := rfl
@[simp] theorem State.tookDraw_cfg (s : State) : (s.tookDraw).cfg = s.cfg := rfl
@[simp] theorem State.tookDraw_pins (s : State) : (s.tookDraw).pins = s.pins := rfl
@[simp] theorem State.tookDraw_clk (s : State) : (s.tookDraw).clk = s.clk := rfl
@[simp] theorem State.tookDraw_mon (s : State) : (s.tookDraw).mon = s.mon := rfl
@[simp] theorem State.tookDraw_rst (s : State) : (s.tookDraw).rst = s.rst := rfl
@[simp] theorem State.tookDraw_cap (s : State) : (s.tookDraw).cap = s.cap := rfl
@[simp] theorem State.tookDraw_alr (s : State) : (s.tookDraw).alr = s.alr := rfl
@[simp] theorem State.tookDraw_obs (s : State) : (s.tookDraw).obs = s.obs := rfl
@[simp] theorem State.tookDraw_hlm (s : State) : (s.tookDraw).hlm = s.hlm := rfl
@[simp] theorem State.tookDraw_nvm (s : State) : (s.tookDraw).nvm = s.nvm := rfl
@[simp] theorem State.tookDraw_ald (s : State) : (s.tookDraw).ald = s.ald := rfl
@[simp] theorem State.tookDraw_cht (s : State) : (s.tookDraw).cht = s.cht := rfl
@[simp] theorem State.tookDraw_lcu (s : State) : (s.tookDraw).lcu = s.lcu := rfl
@[simp] theorem State.tookDraw_sbx (s : State) : (s.tookDraw).sbx = s.sbx := rfl
@[simp] theorem State.tookDraw_epo (s : State) : (s.tookDraw).epo = s.epo := rfl
@[simp] theorem State.tookDraw_ldg (s : State) : (s.tookDraw).ldg = s.ldg := rfl
@[simp] theorem State.tookDraw_swp (s : State) : (s.tookDraw).swp = s.swp := rfl
@[simp] theorem State.tookDraw_stl (s : State) : (s.tookDraw).stl = s.stl := rfl
@[simp] theorem State.tookDraw_att (s : State) : (s.tookDraw).att = s.att := rfl
@[simp] theorem State.tookDraw_dom (s : State) : (s.tookDraw).dom = s.dom := rfl
@[simp] theorem State.tookDraw_mrk (s : State) : (s.tookDraw).mrk = s.mrk := rfl
@[simp] theorem State.tookDraw_bth (s : State) : (s.tookDraw).bth = s.bth := rfl
@[simp] theorem State.tookDraw_tol (s : State) : (s.tookDraw).tol = s.tol := rfl
@[simp] theorem State.tookDraw_sty (s : State) : (s.tookDraw).sty = s.sty := rfl
@[simp] theorem State.tookDraw_xck (s : State) : (s.tookDraw).xck = s.xck := rfl
@[simp] theorem State.tookDraw_rwt (s : State) : (s.tookDraw).rwt = s.rwt := rfl
@[simp] theorem State.tookDraw_rwtSel (s : State) : (s.tookDraw).rwtSel = s.rwtSel := rfl
@[simp] theorem State.tookDraw_granted (s : State) : (s.tookDraw).granted = s.granted := rfl
@[simp] theorem State.tookDraw_mse (s : State) : (s.tookDraw).mse = s.mse := rfl
@[simp] theorem State.tookDraw_listedCount (s : State) : (s.tookDraw).listedCount = s.listedCount := rfl
@[simp] theorem State.tookDraw_lse (s : State) : (s.tookDraw).lse = s.lse := rfl
@[simp] theorem State.tookDraw_hse (s : State) : (s.tookDraw).hse = s.hse := rfl
@[simp] theorem State.tookDraw_out (s : State) : (s.tookDraw).out = s.out := rfl
@[simp] theorem State.tookDraw_fresh (s : State) : (s.tookDraw).fresh = s.fresh + 1 := rfl
@[simp] theorem State.tookDraw_pending (s : State) : (s.tookDraw).pending = s.pending := rfl

/-! ### State.event -/

@[simp] theorem State.event_build (code unit : Nat) (stall : Option Nat) (arg0 arg1 : Nat) (s : State) : (s.event code unit stall arg0 arg1).build = s.build := rfl
@[simp] theorem State.event_cfg (code unit : Nat) (stall : Option Nat) (arg0 arg1 : Nat) (s : State) : (s.event code unit stall arg0 arg1).cfg = s.cfg := rfl
@[simp] theorem State.event_pins (code unit : Nat) (stall : Option Nat) (arg0 arg1 : Nat) (s : State) : (s.event code unit stall arg0 arg1).pins = s.pins := rfl
@[simp] theorem State.event_clk (code unit : Nat) (stall : Option Nat) (arg0 arg1 : Nat) (s : State) : (s.event code unit stall arg0 arg1).clk = s.clk := rfl
@[simp] theorem State.event_mon (code unit : Nat) (stall : Option Nat) (arg0 arg1 : Nat) (s : State) : (s.event code unit stall arg0 arg1).mon = s.mon := rfl
@[simp] theorem State.event_rst (code unit : Nat) (stall : Option Nat) (arg0 arg1 : Nat) (s : State) : (s.event code unit stall arg0 arg1).rst = s.rst := rfl
@[simp] theorem State.event_cap (code unit : Nat) (stall : Option Nat) (arg0 arg1 : Nat) (s : State) : (s.event code unit stall arg0 arg1).cap = s.cap := rfl
@[simp] theorem State.event_alr (code unit : Nat) (stall : Option Nat) (arg0 arg1 : Nat) (s : State) : (s.event code unit stall arg0 arg1).alr = s.alr := rfl
@[simp] theorem State.event_obs (code unit : Nat) (stall : Option Nat) (arg0 arg1 : Nat) (s : State) : (s.event code unit stall arg0 arg1).obs = s.obs := rfl
@[simp] theorem State.event_nvm (code unit : Nat) (stall : Option Nat) (arg0 arg1 : Nat) (s : State) : (s.event code unit stall arg0 arg1).nvm = s.nvm := rfl
@[simp] theorem State.event_ald (code unit : Nat) (stall : Option Nat) (arg0 arg1 : Nat) (s : State) : (s.event code unit stall arg0 arg1).ald = s.ald := rfl
@[simp] theorem State.event_cht (code unit : Nat) (stall : Option Nat) (arg0 arg1 : Nat) (s : State) : (s.event code unit stall arg0 arg1).cht = s.cht := rfl
@[simp] theorem State.event_lcu (code unit : Nat) (stall : Option Nat) (arg0 arg1 : Nat) (s : State) : (s.event code unit stall arg0 arg1).lcu = s.lcu := rfl
@[simp] theorem State.event_sbx (code unit : Nat) (stall : Option Nat) (arg0 arg1 : Nat) (s : State) : (s.event code unit stall arg0 arg1).sbx = s.sbx := rfl
@[simp] theorem State.event_epo (code unit : Nat) (stall : Option Nat) (arg0 arg1 : Nat) (s : State) : (s.event code unit stall arg0 arg1).epo = s.epo := rfl
@[simp] theorem State.event_ldg (code unit : Nat) (stall : Option Nat) (arg0 arg1 : Nat) (s : State) : (s.event code unit stall arg0 arg1).ldg = s.ldg := rfl
@[simp] theorem State.event_swp (code unit : Nat) (stall : Option Nat) (arg0 arg1 : Nat) (s : State) : (s.event code unit stall arg0 arg1).swp = s.swp := rfl
@[simp] theorem State.event_stl (code unit : Nat) (stall : Option Nat) (arg0 arg1 : Nat) (s : State) : (s.event code unit stall arg0 arg1).stl = s.stl := rfl
@[simp] theorem State.event_att (code unit : Nat) (stall : Option Nat) (arg0 arg1 : Nat) (s : State) : (s.event code unit stall arg0 arg1).att = s.att := rfl
@[simp] theorem State.event_dom (code unit : Nat) (stall : Option Nat) (arg0 arg1 : Nat) (s : State) : (s.event code unit stall arg0 arg1).dom = s.dom := rfl
@[simp] theorem State.event_mrk (code unit : Nat) (stall : Option Nat) (arg0 arg1 : Nat) (s : State) : (s.event code unit stall arg0 arg1).mrk = s.mrk := rfl
@[simp] theorem State.event_bth (code unit : Nat) (stall : Option Nat) (arg0 arg1 : Nat) (s : State) : (s.event code unit stall arg0 arg1).bth = s.bth := rfl
@[simp] theorem State.event_tol (code unit : Nat) (stall : Option Nat) (arg0 arg1 : Nat) (s : State) : (s.event code unit stall arg0 arg1).tol = s.tol := rfl
@[simp] theorem State.event_sty (code unit : Nat) (stall : Option Nat) (arg0 arg1 : Nat) (s : State) : (s.event code unit stall arg0 arg1).sty = s.sty := rfl
@[simp] theorem State.event_xck (code unit : Nat) (stall : Option Nat) (arg0 arg1 : Nat) (s : State) : (s.event code unit stall arg0 arg1).xck = s.xck := rfl
@[simp] theorem State.event_rwt (code unit : Nat) (stall : Option Nat) (arg0 arg1 : Nat) (s : State) : (s.event code unit stall arg0 arg1).rwt = s.rwt := rfl
@[simp] theorem State.event_rwtSel (code unit : Nat) (stall : Option Nat) (arg0 arg1 : Nat) (s : State) : (s.event code unit stall arg0 arg1).rwtSel = s.rwtSel := rfl
@[simp] theorem State.event_granted (code unit : Nat) (stall : Option Nat) (arg0 arg1 : Nat) (s : State) : (s.event code unit stall arg0 arg1).granted = s.granted := rfl
@[simp] theorem State.event_mse (code unit : Nat) (stall : Option Nat) (arg0 arg1 : Nat) (s : State) : (s.event code unit stall arg0 arg1).mse = s.mse := rfl
@[simp] theorem State.event_listedCount (code unit : Nat) (stall : Option Nat) (arg0 arg1 : Nat) (s : State) : (s.event code unit stall arg0 arg1).listedCount = s.listedCount := rfl
@[simp] theorem State.event_lse (code unit : Nat) (stall : Option Nat) (arg0 arg1 : Nat) (s : State) : (s.event code unit stall arg0 arg1).lse = s.lse := rfl
@[simp] theorem State.event_hse (code unit : Nat) (stall : Option Nat) (arg0 arg1 : Nat) (s : State) : (s.event code unit stall arg0 arg1).hse = s.hse := rfl
@[simp] theorem State.event_out (code unit : Nat) (stall : Option Nat) (arg0 arg1 : Nat) (s : State) : (s.event code unit stall arg0 arg1).out = s.out := rfl
@[simp] theorem State.event_fresh (code unit : Nat) (stall : Option Nat) (arg0 arg1 : Nat) (s : State) : (s.event code unit stall arg0 arg1).fresh = s.fresh := rfl
@[simp] theorem State.event_pending (code unit : Nat) (stall : Option Nat) (arg0 arg1 : Nat) (s : State) : (s.event code unit stall arg0 arg1).pending = s.pending := rfl

/-! ### State.waitBegin -/

@[simp] theorem State.waitBegin_build (ring kind : Nat) (waiter : Option Nat) (object : Nat) (s : State) : (s.waitBegin ring kind waiter object).build = s.build := rfl
@[simp] theorem State.waitBegin_cfg (ring kind : Nat) (waiter : Option Nat) (object : Nat) (s : State) : (s.waitBegin ring kind waiter object).cfg = s.cfg := rfl
@[simp] theorem State.waitBegin_pins (ring kind : Nat) (waiter : Option Nat) (object : Nat) (s : State) : (s.waitBegin ring kind waiter object).pins = s.pins := rfl
@[simp] theorem State.waitBegin_clk (ring kind : Nat) (waiter : Option Nat) (object : Nat) (s : State) : (s.waitBegin ring kind waiter object).clk = s.clk := rfl
@[simp] theorem State.waitBegin_mon (ring kind : Nat) (waiter : Option Nat) (object : Nat) (s : State) : (s.waitBegin ring kind waiter object).mon = s.mon := rfl
@[simp] theorem State.waitBegin_rst (ring kind : Nat) (waiter : Option Nat) (object : Nat) (s : State) : (s.waitBegin ring kind waiter object).rst = s.rst := rfl
@[simp] theorem State.waitBegin_cap (ring kind : Nat) (waiter : Option Nat) (object : Nat) (s : State) : (s.waitBegin ring kind waiter object).cap = s.cap := rfl
@[simp] theorem State.waitBegin_alr (ring kind : Nat) (waiter : Option Nat) (object : Nat) (s : State) : (s.waitBegin ring kind waiter object).alr = s.alr := rfl
@[simp] theorem State.waitBegin_hlm (ring kind : Nat) (waiter : Option Nat) (object : Nat) (s : State) : (s.waitBegin ring kind waiter object).hlm = s.hlm := rfl
@[simp] theorem State.waitBegin_nvm (ring kind : Nat) (waiter : Option Nat) (object : Nat) (s : State) : (s.waitBegin ring kind waiter object).nvm = s.nvm := rfl
@[simp] theorem State.waitBegin_ald (ring kind : Nat) (waiter : Option Nat) (object : Nat) (s : State) : (s.waitBegin ring kind waiter object).ald = s.ald := rfl
@[simp] theorem State.waitBegin_cht (ring kind : Nat) (waiter : Option Nat) (object : Nat) (s : State) : (s.waitBegin ring kind waiter object).cht = s.cht := rfl
@[simp] theorem State.waitBegin_lcu (ring kind : Nat) (waiter : Option Nat) (object : Nat) (s : State) : (s.waitBegin ring kind waiter object).lcu = s.lcu := rfl
@[simp] theorem State.waitBegin_sbx (ring kind : Nat) (waiter : Option Nat) (object : Nat) (s : State) : (s.waitBegin ring kind waiter object).sbx = s.sbx := rfl
@[simp] theorem State.waitBegin_epo (ring kind : Nat) (waiter : Option Nat) (object : Nat) (s : State) : (s.waitBegin ring kind waiter object).epo = s.epo := rfl
@[simp] theorem State.waitBegin_ldg (ring kind : Nat) (waiter : Option Nat) (object : Nat) (s : State) : (s.waitBegin ring kind waiter object).ldg = s.ldg := rfl
@[simp] theorem State.waitBegin_swp (ring kind : Nat) (waiter : Option Nat) (object : Nat) (s : State) : (s.waitBegin ring kind waiter object).swp = s.swp := rfl
@[simp] theorem State.waitBegin_stl (ring kind : Nat) (waiter : Option Nat) (object : Nat) (s : State) : (s.waitBegin ring kind waiter object).stl = s.stl := rfl
@[simp] theorem State.waitBegin_att (ring kind : Nat) (waiter : Option Nat) (object : Nat) (s : State) : (s.waitBegin ring kind waiter object).att = s.att := rfl
@[simp] theorem State.waitBegin_dom (ring kind : Nat) (waiter : Option Nat) (object : Nat) (s : State) : (s.waitBegin ring kind waiter object).dom = s.dom := rfl
@[simp] theorem State.waitBegin_mrk (ring kind : Nat) (waiter : Option Nat) (object : Nat) (s : State) : (s.waitBegin ring kind waiter object).mrk = s.mrk := rfl
@[simp] theorem State.waitBegin_bth (ring kind : Nat) (waiter : Option Nat) (object : Nat) (s : State) : (s.waitBegin ring kind waiter object).bth = s.bth := rfl
@[simp] theorem State.waitBegin_tol (ring kind : Nat) (waiter : Option Nat) (object : Nat) (s : State) : (s.waitBegin ring kind waiter object).tol = s.tol := rfl
@[simp] theorem State.waitBegin_sty (ring kind : Nat) (waiter : Option Nat) (object : Nat) (s : State) : (s.waitBegin ring kind waiter object).sty = s.sty := rfl
@[simp] theorem State.waitBegin_xck (ring kind : Nat) (waiter : Option Nat) (object : Nat) (s : State) : (s.waitBegin ring kind waiter object).xck = s.xck := rfl
@[simp] theorem State.waitBegin_rwt (ring kind : Nat) (waiter : Option Nat) (object : Nat) (s : State) : (s.waitBegin ring kind waiter object).rwt = s.rwt := rfl
@[simp] theorem State.waitBegin_rwtSel (ring kind : Nat) (waiter : Option Nat) (object : Nat) (s : State) : (s.waitBegin ring kind waiter object).rwtSel = s.rwtSel := rfl
@[simp] theorem State.waitBegin_granted (ring kind : Nat) (waiter : Option Nat) (object : Nat) (s : State) : (s.waitBegin ring kind waiter object).granted = s.granted := rfl
@[simp] theorem State.waitBegin_mse (ring kind : Nat) (waiter : Option Nat) (object : Nat) (s : State) : (s.waitBegin ring kind waiter object).mse = s.mse := rfl
@[simp] theorem State.waitBegin_listedCount (ring kind : Nat) (waiter : Option Nat) (object : Nat) (s : State) : (s.waitBegin ring kind waiter object).listedCount = s.listedCount := rfl
@[simp] theorem State.waitBegin_lse (ring kind : Nat) (waiter : Option Nat) (object : Nat) (s : State) : (s.waitBegin ring kind waiter object).lse = s.lse := rfl
@[simp] theorem State.waitBegin_hse (ring kind : Nat) (waiter : Option Nat) (object : Nat) (s : State) : (s.waitBegin ring kind waiter object).hse = s.hse := rfl
@[simp] theorem State.waitBegin_out (ring kind : Nat) (waiter : Option Nat) (object : Nat) (s : State) : (s.waitBegin ring kind waiter object).out = s.out := rfl
@[simp] theorem State.waitBegin_fresh (ring kind : Nat) (waiter : Option Nat) (object : Nat) (s : State) : (s.waitBegin ring kind waiter object).fresh = s.fresh := rfl
@[simp] theorem State.waitBegin_pending (ring kind : Nat) (waiter : Option Nat) (object : Nat) (s : State) : (s.waitBegin ring kind waiter object).pending = s.pending := rfl

/-! ### State.progress -/

@[simp] theorem State.progress_build (s : State) : (s.progress).build = s.build := rfl
@[simp] theorem State.progress_cfg (s : State) : (s.progress).cfg = s.cfg := rfl
@[simp] theorem State.progress_pins (s : State) : (s.progress).pins = s.pins := rfl
@[simp] theorem State.progress_clk (s : State) : (s.progress).clk = s.clk := rfl
@[simp] theorem State.progress_mon (s : State) : (s.progress).mon = s.mon := rfl
@[simp] theorem State.progress_rst (s : State) : (s.progress).rst = s.rst := rfl
@[simp] theorem State.progress_cap (s : State) : (s.progress).cap = s.cap := rfl
@[simp] theorem State.progress_obs (s : State) : (s.progress).obs = s.obs := rfl
@[simp] theorem State.progress_hlm (s : State) : (s.progress).hlm = s.hlm := rfl
@[simp] theorem State.progress_nvm (s : State) : (s.progress).nvm = s.nvm := rfl
@[simp] theorem State.progress_ald (s : State) : (s.progress).ald = s.ald := rfl
@[simp] theorem State.progress_cht (s : State) : (s.progress).cht = s.cht := rfl
@[simp] theorem State.progress_lcu (s : State) : (s.progress).lcu = s.lcu := rfl
@[simp] theorem State.progress_sbx (s : State) : (s.progress).sbx = s.sbx := rfl
@[simp] theorem State.progress_epo (s : State) : (s.progress).epo = s.epo := rfl
@[simp] theorem State.progress_ldg (s : State) : (s.progress).ldg = s.ldg := rfl
@[simp] theorem State.progress_swp (s : State) : (s.progress).swp = s.swp := rfl
@[simp] theorem State.progress_stl (s : State) : (s.progress).stl = s.stl := rfl
@[simp] theorem State.progress_att (s : State) : (s.progress).att = s.att := rfl
@[simp] theorem State.progress_dom (s : State) : (s.progress).dom = s.dom := rfl
@[simp] theorem State.progress_mrk (s : State) : (s.progress).mrk = s.mrk := rfl
@[simp] theorem State.progress_bth (s : State) : (s.progress).bth = s.bth := rfl
@[simp] theorem State.progress_tol (s : State) : (s.progress).tol = s.tol := rfl
@[simp] theorem State.progress_sty (s : State) : (s.progress).sty = s.sty := rfl
@[simp] theorem State.progress_xck (s : State) : (s.progress).xck = s.xck := rfl
@[simp] theorem State.progress_rwt (s : State) : (s.progress).rwt = s.rwt := rfl
@[simp] theorem State.progress_rwtSel (s : State) : (s.progress).rwtSel = s.rwtSel := rfl
@[simp] theorem State.progress_granted (s : State) : (s.progress).granted = s.granted := rfl
@[simp] theorem State.progress_mse (s : State) : (s.progress).mse = s.mse := rfl
@[simp] theorem State.progress_listedCount (s : State) : (s.progress).listedCount = s.listedCount := rfl
@[simp] theorem State.progress_lse (s : State) : (s.progress).lse = s.lse := rfl
@[simp] theorem State.progress_hse (s : State) : (s.progress).hse = s.hse := rfl
@[simp] theorem State.progress_out (s : State) : (s.progress).out = s.out := rfl
@[simp] theorem State.progress_fresh (s : State) : (s.progress).fresh = s.fresh := rfl
@[simp] theorem State.progress_pending (s : State) : (s.progress).pending = s.pending := rfl

/-! ### State.setStall -/

@[simp] theorem State.setStall_build (id : Nat) (x : Stall) (s : State) : (s.setStall id x).build = s.build := rfl
@[simp] theorem State.setStall_cfg (id : Nat) (x : Stall) (s : State) : (s.setStall id x).cfg = s.cfg := rfl
@[simp] theorem State.setStall_pins (id : Nat) (x : Stall) (s : State) : (s.setStall id x).pins = s.pins := rfl
@[simp] theorem State.setStall_clk (id : Nat) (x : Stall) (s : State) : (s.setStall id x).clk = s.clk := rfl
@[simp] theorem State.setStall_mon (id : Nat) (x : Stall) (s : State) : (s.setStall id x).mon = s.mon := rfl
@[simp] theorem State.setStall_rst (id : Nat) (x : Stall) (s : State) : (s.setStall id x).rst = s.rst := rfl
@[simp] theorem State.setStall_cap (id : Nat) (x : Stall) (s : State) : (s.setStall id x).cap = s.cap := rfl
@[simp] theorem State.setStall_alr (id : Nat) (x : Stall) (s : State) : (s.setStall id x).alr = s.alr := rfl
@[simp] theorem State.setStall_obs (id : Nat) (x : Stall) (s : State) : (s.setStall id x).obs = s.obs := rfl
@[simp] theorem State.setStall_hlm (id : Nat) (x : Stall) (s : State) : (s.setStall id x).hlm = s.hlm := rfl
@[simp] theorem State.setStall_nvm (id : Nat) (x : Stall) (s : State) : (s.setStall id x).nvm = s.nvm := rfl
@[simp] theorem State.setStall_ald (id : Nat) (x : Stall) (s : State) : (s.setStall id x).ald = s.ald := rfl
@[simp] theorem State.setStall_cht (id : Nat) (x : Stall) (s : State) : (s.setStall id x).cht = s.cht := rfl
@[simp] theorem State.setStall_lcu (id : Nat) (x : Stall) (s : State) : (s.setStall id x).lcu = s.lcu := rfl
@[simp] theorem State.setStall_sbx (id : Nat) (x : Stall) (s : State) : (s.setStall id x).sbx = s.sbx := rfl
@[simp] theorem State.setStall_epo (id : Nat) (x : Stall) (s : State) : (s.setStall id x).epo = s.epo := rfl
@[simp] theorem State.setStall_ldg (id : Nat) (x : Stall) (s : State) : (s.setStall id x).ldg = s.ldg := rfl
@[simp] theorem State.setStall_swp (id : Nat) (x : Stall) (s : State) : (s.setStall id x).swp = s.swp := rfl
@[simp] theorem State.setStall_stl (id : Nat) (x : Stall) (s : State) : (s.setStall id x).stl = { s.stl with table := assocSet id x s.stl.table } := rfl
@[simp] theorem State.setStall_att (id : Nat) (x : Stall) (s : State) : (s.setStall id x).att = s.att := rfl
@[simp] theorem State.setStall_dom (id : Nat) (x : Stall) (s : State) : (s.setStall id x).dom = s.dom := rfl
@[simp] theorem State.setStall_mrk (id : Nat) (x : Stall) (s : State) : (s.setStall id x).mrk = s.mrk := rfl
@[simp] theorem State.setStall_bth (id : Nat) (x : Stall) (s : State) : (s.setStall id x).bth = s.bth := rfl
@[simp] theorem State.setStall_tol (id : Nat) (x : Stall) (s : State) : (s.setStall id x).tol = s.tol := rfl
@[simp] theorem State.setStall_sty (id : Nat) (x : Stall) (s : State) : (s.setStall id x).sty = s.sty := rfl
@[simp] theorem State.setStall_xck (id : Nat) (x : Stall) (s : State) : (s.setStall id x).xck = s.xck := rfl
@[simp] theorem State.setStall_rwt (id : Nat) (x : Stall) (s : State) : (s.setStall id x).rwt = s.rwt := rfl
@[simp] theorem State.setStall_rwtSel (id : Nat) (x : Stall) (s : State) : (s.setStall id x).rwtSel = s.rwtSel := rfl
@[simp] theorem State.setStall_granted (id : Nat) (x : Stall) (s : State) : (s.setStall id x).granted = s.granted := rfl
@[simp] theorem State.setStall_mse (id : Nat) (x : Stall) (s : State) : (s.setStall id x).mse = s.mse := rfl
@[simp] theorem State.setStall_listedCount (id : Nat) (x : Stall) (s : State) : (s.setStall id x).listedCount = s.listedCount := rfl
@[simp] theorem State.setStall_lse (id : Nat) (x : Stall) (s : State) : (s.setStall id x).lse = s.lse := rfl
@[simp] theorem State.setStall_hse (id : Nat) (x : Stall) (s : State) : (s.setStall id x).hse = s.hse := rfl
@[simp] theorem State.setStall_out (id : Nat) (x : Stall) (s : State) : (s.setStall id x).out = s.out := rfl
@[simp] theorem State.setStall_fresh (id : Nat) (x : Stall) (s : State) : (s.setStall id x).fresh = s.fresh := rfl
@[simp] theorem State.setStall_pending (id : Nat) (x : Stall) (s : State) : (s.setStall id x).pending = s.pending := rfl

/-! ### State.setStallData -/

@[simp] theorem State.setStallData_build (id : Nat) (x : StallData) (s : State) : (s.setStallData id x).build = s.build := rfl
@[simp] theorem State.setStallData_cfg (id : Nat) (x : StallData) (s : State) : (s.setStallData id x).cfg = s.cfg := rfl
@[simp] theorem State.setStallData_pins (id : Nat) (x : StallData) (s : State) : (s.setStallData id x).pins = s.pins := rfl
@[simp] theorem State.setStallData_clk (id : Nat) (x : StallData) (s : State) : (s.setStallData id x).clk = s.clk := rfl
@[simp] theorem State.setStallData_mon (id : Nat) (x : StallData) (s : State) : (s.setStallData id x).mon = s.mon := rfl
@[simp] theorem State.setStallData_rst (id : Nat) (x : StallData) (s : State) : (s.setStallData id x).rst = s.rst := rfl
@[simp] theorem State.setStallData_cap (id : Nat) (x : StallData) (s : State) : (s.setStallData id x).cap = s.cap := rfl
@[simp] theorem State.setStallData_alr (id : Nat) (x : StallData) (s : State) : (s.setStallData id x).alr = s.alr := rfl
@[simp] theorem State.setStallData_obs (id : Nat) (x : StallData) (s : State) : (s.setStallData id x).obs = s.obs := rfl
@[simp] theorem State.setStallData_hlm (id : Nat) (x : StallData) (s : State) : (s.setStallData id x).hlm = s.hlm := rfl
@[simp] theorem State.setStallData_nvm (id : Nat) (x : StallData) (s : State) : (s.setStallData id x).nvm = s.nvm := rfl
@[simp] theorem State.setStallData_ald (id : Nat) (x : StallData) (s : State) : (s.setStallData id x).ald = s.ald := rfl
@[simp] theorem State.setStallData_cht (id : Nat) (x : StallData) (s : State) : (s.setStallData id x).cht = s.cht := rfl
@[simp] theorem State.setStallData_lcu (id : Nat) (x : StallData) (s : State) : (s.setStallData id x).lcu = s.lcu := rfl
@[simp] theorem State.setStallData_sbx (id : Nat) (x : StallData) (s : State) : (s.setStallData id x).sbx = s.sbx := rfl
@[simp] theorem State.setStallData_epo (id : Nat) (x : StallData) (s : State) : (s.setStallData id x).epo = s.epo := rfl
@[simp] theorem State.setStallData_ldg (id : Nat) (x : StallData) (s : State) : (s.setStallData id x).ldg = s.ldg := rfl
@[simp] theorem State.setStallData_swp (id : Nat) (x : StallData) (s : State) : (s.setStallData id x).swp = s.swp := rfl
@[simp] theorem State.setStallData_stl (id : Nat) (x : StallData) (s : State) : (s.setStallData id x).stl = { s.stl with data := assocSet id x s.stl.data } := rfl
@[simp] theorem State.setStallData_att (id : Nat) (x : StallData) (s : State) : (s.setStallData id x).att = s.att := rfl
@[simp] theorem State.setStallData_dom (id : Nat) (x : StallData) (s : State) : (s.setStallData id x).dom = s.dom := rfl
@[simp] theorem State.setStallData_mrk (id : Nat) (x : StallData) (s : State) : (s.setStallData id x).mrk = s.mrk := rfl
@[simp] theorem State.setStallData_bth (id : Nat) (x : StallData) (s : State) : (s.setStallData id x).bth = s.bth := rfl
@[simp] theorem State.setStallData_tol (id : Nat) (x : StallData) (s : State) : (s.setStallData id x).tol = s.tol := rfl
@[simp] theorem State.setStallData_sty (id : Nat) (x : StallData) (s : State) : (s.setStallData id x).sty = s.sty := rfl
@[simp] theorem State.setStallData_xck (id : Nat) (x : StallData) (s : State) : (s.setStallData id x).xck = s.xck := rfl
@[simp] theorem State.setStallData_rwt (id : Nat) (x : StallData) (s : State) : (s.setStallData id x).rwt = s.rwt := rfl
@[simp] theorem State.setStallData_rwtSel (id : Nat) (x : StallData) (s : State) : (s.setStallData id x).rwtSel = s.rwtSel := rfl
@[simp] theorem State.setStallData_granted (id : Nat) (x : StallData) (s : State) : (s.setStallData id x).granted = s.granted := rfl
@[simp] theorem State.setStallData_mse (id : Nat) (x : StallData) (s : State) : (s.setStallData id x).mse = s.mse := rfl
@[simp] theorem State.setStallData_listedCount (id : Nat) (x : StallData) (s : State) : (s.setStallData id x).listedCount = s.listedCount := rfl
@[simp] theorem State.setStallData_lse (id : Nat) (x : StallData) (s : State) : (s.setStallData id x).lse = s.lse := rfl
@[simp] theorem State.setStallData_hse (id : Nat) (x : StallData) (s : State) : (s.setStallData id x).hse = s.hse := rfl
@[simp] theorem State.setStallData_out (id : Nat) (x : StallData) (s : State) : (s.setStallData id x).out = s.out := rfl
@[simp] theorem State.setStallData_fresh (id : Nat) (x : StallData) (s : State) : (s.setStallData id x).fresh = s.fresh := rfl
@[simp] theorem State.setStallData_pending (id : Nat) (x : StallData) (s : State) : (s.setStallData id x).pending = s.pending := rfl

/-! ### State.modMse -/

@[simp] theorem State.modMse_build (i : Nat) (f : Mse → Mse) (s : State) : (s.modMse i f).build = s.build := rfl
@[simp] theorem State.modMse_cfg (i : Nat) (f : Mse → Mse) (s : State) : (s.modMse i f).cfg = s.cfg := rfl
@[simp] theorem State.modMse_pins (i : Nat) (f : Mse → Mse) (s : State) : (s.modMse i f).pins = s.pins := rfl
@[simp] theorem State.modMse_clk (i : Nat) (f : Mse → Mse) (s : State) : (s.modMse i f).clk = s.clk := rfl
@[simp] theorem State.modMse_mon (i : Nat) (f : Mse → Mse) (s : State) : (s.modMse i f).mon = s.mon := rfl
@[simp] theorem State.modMse_rst (i : Nat) (f : Mse → Mse) (s : State) : (s.modMse i f).rst = s.rst := rfl
@[simp] theorem State.modMse_cap (i : Nat) (f : Mse → Mse) (s : State) : (s.modMse i f).cap = s.cap := rfl
@[simp] theorem State.modMse_alr (i : Nat) (f : Mse → Mse) (s : State) : (s.modMse i f).alr = s.alr := rfl
@[simp] theorem State.modMse_obs (i : Nat) (f : Mse → Mse) (s : State) : (s.modMse i f).obs = s.obs := rfl
@[simp] theorem State.modMse_hlm (i : Nat) (f : Mse → Mse) (s : State) : (s.modMse i f).hlm = s.hlm := rfl
@[simp] theorem State.modMse_nvm (i : Nat) (f : Mse → Mse) (s : State) : (s.modMse i f).nvm = s.nvm := rfl
@[simp] theorem State.modMse_ald (i : Nat) (f : Mse → Mse) (s : State) : (s.modMse i f).ald = s.ald := rfl
@[simp] theorem State.modMse_cht (i : Nat) (f : Mse → Mse) (s : State) : (s.modMse i f).cht = s.cht := rfl
@[simp] theorem State.modMse_lcu (i : Nat) (f : Mse → Mse) (s : State) : (s.modMse i f).lcu = s.lcu := rfl
@[simp] theorem State.modMse_sbx (i : Nat) (f : Mse → Mse) (s : State) : (s.modMse i f).sbx = s.sbx := rfl
@[simp] theorem State.modMse_epo (i : Nat) (f : Mse → Mse) (s : State) : (s.modMse i f).epo = s.epo := rfl
@[simp] theorem State.modMse_ldg (i : Nat) (f : Mse → Mse) (s : State) : (s.modMse i f).ldg = s.ldg := rfl
@[simp] theorem State.modMse_swp (i : Nat) (f : Mse → Mse) (s : State) : (s.modMse i f).swp = s.swp := rfl
@[simp] theorem State.modMse_stl (i : Nat) (f : Mse → Mse) (s : State) : (s.modMse i f).stl = s.stl := rfl
@[simp] theorem State.modMse_att (i : Nat) (f : Mse → Mse) (s : State) : (s.modMse i f).att = s.att := rfl
@[simp] theorem State.modMse_dom (i : Nat) (f : Mse → Mse) (s : State) : (s.modMse i f).dom = s.dom := rfl
@[simp] theorem State.modMse_mrk (i : Nat) (f : Mse → Mse) (s : State) : (s.modMse i f).mrk = s.mrk := rfl
@[simp] theorem State.modMse_bth (i : Nat) (f : Mse → Mse) (s : State) : (s.modMse i f).bth = s.bth := rfl
@[simp] theorem State.modMse_tol (i : Nat) (f : Mse → Mse) (s : State) : (s.modMse i f).tol = s.tol := rfl
@[simp] theorem State.modMse_sty (i : Nat) (f : Mse → Mse) (s : State) : (s.modMse i f).sty = s.sty := rfl
@[simp] theorem State.modMse_xck (i : Nat) (f : Mse → Mse) (s : State) : (s.modMse i f).xck = s.xck := rfl
@[simp] theorem State.modMse_rwt (i : Nat) (f : Mse → Mse) (s : State) : (s.modMse i f).rwt = s.rwt := rfl
@[simp] theorem State.modMse_rwtSel (i : Nat) (f : Mse → Mse) (s : State) : (s.modMse i f).rwtSel = s.rwtSel := rfl
@[simp] theorem State.modMse_granted (i : Nat) (f : Mse → Mse) (s : State) : (s.modMse i f).granted = s.granted := rfl
@[simp] theorem State.modMse_mse (i : Nat) (f : Mse → Mse) (s : State) : (s.modMse i f).mse = listSet s.mse i f := rfl
@[simp] theorem State.modMse_listedCount (i : Nat) (f : Mse → Mse) (s : State) : (s.modMse i f).listedCount = s.listedCount := rfl
@[simp] theorem State.modMse_lse (i : Nat) (f : Mse → Mse) (s : State) : (s.modMse i f).lse = s.lse := rfl
@[simp] theorem State.modMse_hse (i : Nat) (f : Mse → Mse) (s : State) : (s.modMse i f).hse = s.hse := rfl
@[simp] theorem State.modMse_out (i : Nat) (f : Mse → Mse) (s : State) : (s.modMse i f).out = s.out := rfl
@[simp] theorem State.modMse_fresh (i : Nat) (f : Mse → Mse) (s : State) : (s.modMse i f).fresh = s.fresh := rfl
@[simp] theorem State.modMse_pending (i : Nat) (f : Mse → Mse) (s : State) : (s.modMse i f).pending = s.pending := rfl

/-! ### State.modLse -/

@[simp] theorem State.modLse_build (i : Nat) (f : Lse → Lse) (s : State) : (s.modLse i f).build = s.build := rfl
@[simp] theorem State.modLse_cfg (i : Nat) (f : Lse → Lse) (s : State) : (s.modLse i f).cfg = s.cfg := rfl
@[simp] theorem State.modLse_pins (i : Nat) (f : Lse → Lse) (s : State) : (s.modLse i f).pins = s.pins := rfl
@[simp] theorem State.modLse_clk (i : Nat) (f : Lse → Lse) (s : State) : (s.modLse i f).clk = s.clk := rfl
@[simp] theorem State.modLse_mon (i : Nat) (f : Lse → Lse) (s : State) : (s.modLse i f).mon = s.mon := rfl
@[simp] theorem State.modLse_rst (i : Nat) (f : Lse → Lse) (s : State) : (s.modLse i f).rst = s.rst := rfl
@[simp] theorem State.modLse_cap (i : Nat) (f : Lse → Lse) (s : State) : (s.modLse i f).cap = s.cap := rfl
@[simp] theorem State.modLse_alr (i : Nat) (f : Lse → Lse) (s : State) : (s.modLse i f).alr = s.alr := rfl
@[simp] theorem State.modLse_obs (i : Nat) (f : Lse → Lse) (s : State) : (s.modLse i f).obs = s.obs := rfl
@[simp] theorem State.modLse_hlm (i : Nat) (f : Lse → Lse) (s : State) : (s.modLse i f).hlm = s.hlm := rfl
@[simp] theorem State.modLse_nvm (i : Nat) (f : Lse → Lse) (s : State) : (s.modLse i f).nvm = s.nvm := rfl
@[simp] theorem State.modLse_ald (i : Nat) (f : Lse → Lse) (s : State) : (s.modLse i f).ald = s.ald := rfl
@[simp] theorem State.modLse_cht (i : Nat) (f : Lse → Lse) (s : State) : (s.modLse i f).cht = s.cht := rfl
@[simp] theorem State.modLse_lcu (i : Nat) (f : Lse → Lse) (s : State) : (s.modLse i f).lcu = s.lcu := rfl
@[simp] theorem State.modLse_sbx (i : Nat) (f : Lse → Lse) (s : State) : (s.modLse i f).sbx = s.sbx := rfl
@[simp] theorem State.modLse_epo (i : Nat) (f : Lse → Lse) (s : State) : (s.modLse i f).epo = s.epo := rfl
@[simp] theorem State.modLse_ldg (i : Nat) (f : Lse → Lse) (s : State) : (s.modLse i f).ldg = s.ldg := rfl
@[simp] theorem State.modLse_swp (i : Nat) (f : Lse → Lse) (s : State) : (s.modLse i f).swp = s.swp := rfl
@[simp] theorem State.modLse_stl (i : Nat) (f : Lse → Lse) (s : State) : (s.modLse i f).stl = s.stl := rfl
@[simp] theorem State.modLse_att (i : Nat) (f : Lse → Lse) (s : State) : (s.modLse i f).att = s.att := rfl
@[simp] theorem State.modLse_dom (i : Nat) (f : Lse → Lse) (s : State) : (s.modLse i f).dom = s.dom := rfl
@[simp] theorem State.modLse_mrk (i : Nat) (f : Lse → Lse) (s : State) : (s.modLse i f).mrk = s.mrk := rfl
@[simp] theorem State.modLse_bth (i : Nat) (f : Lse → Lse) (s : State) : (s.modLse i f).bth = s.bth := rfl
@[simp] theorem State.modLse_tol (i : Nat) (f : Lse → Lse) (s : State) : (s.modLse i f).tol = s.tol := rfl
@[simp] theorem State.modLse_sty (i : Nat) (f : Lse → Lse) (s : State) : (s.modLse i f).sty = s.sty := rfl
@[simp] theorem State.modLse_xck (i : Nat) (f : Lse → Lse) (s : State) : (s.modLse i f).xck = s.xck := rfl
@[simp] theorem State.modLse_rwt (i : Nat) (f : Lse → Lse) (s : State) : (s.modLse i f).rwt = s.rwt := rfl
@[simp] theorem State.modLse_rwtSel (i : Nat) (f : Lse → Lse) (s : State) : (s.modLse i f).rwtSel = s.rwtSel := rfl
@[simp] theorem State.modLse_granted (i : Nat) (f : Lse → Lse) (s : State) : (s.modLse i f).granted = s.granted := rfl
@[simp] theorem State.modLse_mse (i : Nat) (f : Lse → Lse) (s : State) : (s.modLse i f).mse = s.mse := rfl
@[simp] theorem State.modLse_listedCount (i : Nat) (f : Lse → Lse) (s : State) : (s.modLse i f).listedCount = s.listedCount := rfl
@[simp] theorem State.modLse_lse (i : Nat) (f : Lse → Lse) (s : State) : (s.modLse i f).lse = listSet s.lse i f := rfl
@[simp] theorem State.modLse_hse (i : Nat) (f : Lse → Lse) (s : State) : (s.modLse i f).hse = s.hse := rfl
@[simp] theorem State.modLse_out (i : Nat) (f : Lse → Lse) (s : State) : (s.modLse i f).out = s.out := rfl
@[simp] theorem State.modLse_fresh (i : Nat) (f : Lse → Lse) (s : State) : (s.modLse i f).fresh = s.fresh := rfl
@[simp] theorem State.modLse_pending (i : Nat) (f : Lse → Lse) (s : State) : (s.modLse i f).pending = s.pending := rfl

/-! ### State.modHse -/

@[simp] theorem State.modHse_build (i : Nat) (f : Hse → Hse) (s : State) : (s.modHse i f).build = s.build := rfl
@[simp] theorem State.modHse_cfg (i : Nat) (f : Hse → Hse) (s : State) : (s.modHse i f).cfg = s.cfg := rfl
@[simp] theorem State.modHse_pins (i : Nat) (f : Hse → Hse) (s : State) : (s.modHse i f).pins = s.pins := rfl
@[simp] theorem State.modHse_clk (i : Nat) (f : Hse → Hse) (s : State) : (s.modHse i f).clk = s.clk := rfl
@[simp] theorem State.modHse_mon (i : Nat) (f : Hse → Hse) (s : State) : (s.modHse i f).mon = s.mon := rfl
@[simp] theorem State.modHse_rst (i : Nat) (f : Hse → Hse) (s : State) : (s.modHse i f).rst = s.rst := rfl
@[simp] theorem State.modHse_cap (i : Nat) (f : Hse → Hse) (s : State) : (s.modHse i f).cap = s.cap := rfl
@[simp] theorem State.modHse_alr (i : Nat) (f : Hse → Hse) (s : State) : (s.modHse i f).alr = s.alr := rfl
@[simp] theorem State.modHse_obs (i : Nat) (f : Hse → Hse) (s : State) : (s.modHse i f).obs = s.obs := rfl
@[simp] theorem State.modHse_hlm (i : Nat) (f : Hse → Hse) (s : State) : (s.modHse i f).hlm = s.hlm := rfl
@[simp] theorem State.modHse_nvm (i : Nat) (f : Hse → Hse) (s : State) : (s.modHse i f).nvm = s.nvm := rfl
@[simp] theorem State.modHse_ald (i : Nat) (f : Hse → Hse) (s : State) : (s.modHse i f).ald = s.ald := rfl
@[simp] theorem State.modHse_cht (i : Nat) (f : Hse → Hse) (s : State) : (s.modHse i f).cht = s.cht := rfl
@[simp] theorem State.modHse_lcu (i : Nat) (f : Hse → Hse) (s : State) : (s.modHse i f).lcu = s.lcu := rfl
@[simp] theorem State.modHse_sbx (i : Nat) (f : Hse → Hse) (s : State) : (s.modHse i f).sbx = s.sbx := rfl
@[simp] theorem State.modHse_epo (i : Nat) (f : Hse → Hse) (s : State) : (s.modHse i f).epo = s.epo := rfl
@[simp] theorem State.modHse_ldg (i : Nat) (f : Hse → Hse) (s : State) : (s.modHse i f).ldg = s.ldg := rfl
@[simp] theorem State.modHse_swp (i : Nat) (f : Hse → Hse) (s : State) : (s.modHse i f).swp = s.swp := rfl
@[simp] theorem State.modHse_stl (i : Nat) (f : Hse → Hse) (s : State) : (s.modHse i f).stl = s.stl := rfl
@[simp] theorem State.modHse_att (i : Nat) (f : Hse → Hse) (s : State) : (s.modHse i f).att = s.att := rfl
@[simp] theorem State.modHse_dom (i : Nat) (f : Hse → Hse) (s : State) : (s.modHse i f).dom = s.dom := rfl
@[simp] theorem State.modHse_mrk (i : Nat) (f : Hse → Hse) (s : State) : (s.modHse i f).mrk = s.mrk := rfl
@[simp] theorem State.modHse_bth (i : Nat) (f : Hse → Hse) (s : State) : (s.modHse i f).bth = s.bth := rfl
@[simp] theorem State.modHse_tol (i : Nat) (f : Hse → Hse) (s : State) : (s.modHse i f).tol = s.tol := rfl
@[simp] theorem State.modHse_sty (i : Nat) (f : Hse → Hse) (s : State) : (s.modHse i f).sty = s.sty := rfl
@[simp] theorem State.modHse_xck (i : Nat) (f : Hse → Hse) (s : State) : (s.modHse i f).xck = s.xck := rfl
@[simp] theorem State.modHse_rwt (i : Nat) (f : Hse → Hse) (s : State) : (s.modHse i f).rwt = s.rwt := rfl
@[simp] theorem State.modHse_rwtSel (i : Nat) (f : Hse → Hse) (s : State) : (s.modHse i f).rwtSel = s.rwtSel := rfl
@[simp] theorem State.modHse_granted (i : Nat) (f : Hse → Hse) (s : State) : (s.modHse i f).granted = s.granted := rfl
@[simp] theorem State.modHse_mse (i : Nat) (f : Hse → Hse) (s : State) : (s.modHse i f).mse = s.mse := rfl
@[simp] theorem State.modHse_listedCount (i : Nat) (f : Hse → Hse) (s : State) : (s.modHse i f).listedCount = s.listedCount := rfl
@[simp] theorem State.modHse_lse (i : Nat) (f : Hse → Hse) (s : State) : (s.modHse i f).lse = s.lse := rfl
@[simp] theorem State.modHse_hse (i : Nat) (f : Hse → Hse) (s : State) : (s.modHse i f).hse = listSet s.hse i f := rfl
@[simp] theorem State.modHse_out (i : Nat) (f : Hse → Hse) (s : State) : (s.modHse i f).out = s.out := rfl
@[simp] theorem State.modHse_fresh (i : Nat) (f : Hse → Hse) (s : State) : (s.modHse i f).fresh = s.fresh := rfl
@[simp] theorem State.modHse_pending (i : Nat) (f : Hse → Hse) (s : State) : (s.modHse i f).pending = s.pending := rfl

/-! ### Fields within an update -/

@[simp] theorem State.event_cwq (code unit : Nat) (stall : Option Nat) (arg0 arg1 : Nat) (s : State) :
    (s.event code unit stall arg0 arg1).hlm.cwq = s.hlm.cwq := rfl
@[simp] theorem State.event_fifo (code unit : Nat) (stall : Option Nat) (arg0 arg1 : Nat) (s : State) :
    (s.event code unit stall arg0 arg1).hlm.fifo =
      s.hlm.fifo ++ [{ code, unit, stall, time := s.clk.domain, unanchored := s.unanchored, arg0, arg1 }] := rfl
@[simp] theorem State.event_running (code unit : Nat) (stall : Option Nat) (arg0 arg1 : Nat) (s : State) :
    (s.event code unit stall arg0 arg1).hlm.running = s.hlm.running := rfl
@[simp] theorem State.event_dwBuf (code unit : Nat) (stall : Option Nat) (arg0 arg1 : Nat) (s : State) :
    (s.event code unit stall arg0 arg1).hlm.dwBuf = s.hlm.dwBuf := rfl
@[simp] theorem State.progress_quiet (s : State) : s.progress.alr.quiet = s.alr.quiet := rfl

end Sys2Proof.Machine
end

