-- ==== Sys2Proof/Laws/Ops.lean ====
section
/-!
SUPPORT. What each shared operation can do, said once: the fields it may change, and the record that a command ends with.
-/

namespace Sys2Proof.Machine

/-! ### Frames -/

theorem State.ringRecord_frame (ring kind dur : Nat) (waiter : Option Nat) (object : Nat) (s : State) :
    s.ringRecord ring kind dur waiter object = { s with obs := (s.ringRecord ring kind dur waiter object).obs } := by
  unfold State.ringRecord
  split <;> rfl

theorem State.waitEnd_frame (ring kind : Nat) (waiter : Option Nat) (object : Nat) (s : State) :
    s.waitEnd ring kind waiter object = { s with obs := (s.waitEnd ring kind waiter object).obs } := by
  unfold State.waitEnd
  dsimp only
  split
  · rfl
  · exact State.ringRecord_frame _ _ _ _ _ _

/-- With no wait in progress, the end of a wait changes nothing. -/
theorem State.waitEnd_none (ring kind : Nat) (waiter : Option Nat) (object : Nat) {s : State} (h : s.obs.waits = []) :
    s.waitEnd ring kind waiter object = s := by
  simp [State.waitEnd, h]

theorem State.meter_frame (cls stall n : Nat) (s : State) : s.meter cls stall n = { s with sty := (s.meter cls stall n).sty } := by
  unfold State.meter
  split <;> rfl

theorem State.complete_frame (r : Completion) (s : State) :
    s.complete r = { s with hlm := (s.complete r).hlm, alr := (s.complete r).alr, obs := (s.complete r).obs } := by
  unfold State.complete
  dsimp only
  split
  · rfl
  · split <;> rfl

theorem State.finish_frame (c : Call) (st : Nat) (s : State) :
    s.finish c st = { s with hlm := (s.finish c st).hlm, alr := (s.finish c st).alr, obs := (s.finish c st).obs } :=
  s.complete_frame (c.record st)

theorem State.finishDetail_frame (c : Call) (st d : Nat) (s : State) :
    s.finishDetail c st d =
      { s with hlm := (s.finishDetail c st d).hlm, alr := (s.finishDetail c st d).alr, obs := (s.finishDetail c st d).obs } :=
  s.complete_frame _

theorem State.finishOk_frame (c : Call) (b : Bytes) (s : State) :
    s.finishOk c b = { s with hlm := (s.finishOk c b).hlm, alr := (s.finishOk c b).alr, obs := (s.finishOk c b).obs } :=
  s.complete_frame _

theorem State.logAlarm_frame (code unit : Nat) (stall : Option Nat) (cause word : Nat) (s : State) :
    s.logAlarm code unit stall cause word =
      { s with alr := (s.logAlarm code unit stall cause word).alr, hlm := (s.logAlarm code unit stall cause word).hlm } := by
  unfold State.logAlarm
  rfl

theorem State.modStall_frame (id : Nat) (f : Stall → Stall) (s : State) : s.modStall id f = { s with stl := (s.modStall id f).stl } := by
  unfold State.modStall
  split <;> rfl

theorem State.modStallData_frame (id : Nat) (f : StallData → StallData) (s : State) :
    s.modStallData id f = { s with stl := (s.modStallData id f).stl } := by
  unfold State.modStallData
  split <;> rfl

/-! ### Records -/

/-- Outside the quiet state a command's record is issued (R481, R482, R484). -/
theorem State.complete_recorded (r : Completion) {s : State} (h : s.alr.quiet = false) : s.recorded (s.complete r) r := by
  unfold State.recorded State.complete
  cases hw : r.call.window <;> simp [h, Hlm.drop]

/-- In the quiet state no record is written (R89). -/
theorem State.complete_quiet (r : Completion) {s : State} (h : s.alr.quiet = true) : (s.complete r).hlm.cwq = s.hlm.cwq := by
  unfold State.complete
  cases hw : r.call.window <;> simp [h, Hlm.drop]

theorem State.finish_recorded (c : Call) (st : Nat) {s : State} (h : s.alr.quiet = false) : s.recorded (s.finish c st) (c.record st) :=
  State.complete_recorded _ h

theorem State.finishDetail_recorded (c : Call) (st d : Nat) {s : State} (h : s.alr.quiet = false) :
    s.recorded (s.finishDetail c st d) { c.record st with detail := d } :=
  State.complete_recorded _ h

theorem State.finishOk_recorded (c : Call) (b : Bytes) {s : State} (h : s.alr.quiet = false) :
    s.recorded (s.finishOk c b) { c.record stOk with result := b } :=
  State.complete_recorded _ h

/-! ### Outputs and inputs of commands (R480) -/

/-- A buffer with room enough: the bytes leave, and the command goes on where the write was answered OK. -/
theorem State.output_fits (c : Call) (addr room : Nat) (data : Bytes) (body : State → State) {s : State} (h : data.length ≤ room) :
    s.output c addr room data true body = body (s.emit (.memWrite c.stall addr data)) := by
  simp [State.output, Nat.not_lt.mpr h]

/-- A buffer too small: nothing is written and the record says how much is needed. -/
theorem State.output_short (c : Call) (addr room : Nat) (data : Bytes) (ok : Bool) (body : State → State) {s : State} (h : room < data.length) :
    s.output c addr room data ok body = s.complete { c.record stShort with result := leBytes 4 data.length } := by
  simp [State.output, h]

/-- With entropy at hand and no wait for it in progress, a command goes on at once. -/
theorem State.withEntropy_run (c : Call) (body : State → State) {s : State} (h : s.sbx.entropyOk = true) (hw : s.sbx.entropyWaits = [])
    (ho : s.obs.waits = []) : s.withEntropy c body = body s := by
  have hf : (s.sbx.entropyWaits.filter fun w => w.call ≠ c) = s.sbx.entropyWaits := by rw [hw]; rfl
  unfold State.withEntropy
  rw [if_pos h, hf, State.waitEnd_none _ _ _ _ ho]

end Sys2Proof.Machine
end

