-- ==== Sys2Proof/Laws/Steady.lean ====
section
/-!
SUPPORT. What every command but a reset and its release keeps: the build, the queue, elapsed time, the engines, fuse bits once they are
programmed, the quiet state, and P or S.
-/

namespace Sys2Proof.Machine

set_option linter.unreachableTactic false
set_option linter.unusedTactic false
set_option linter.unnecessarySeqFocus false

/-- From `s` to `t` the build, the queue, elapsed time and the number of engines are the same, no fuse bit is lost, the quiet state stays, and
the block stays in P or S (R47, R82, R98, R520, R122). -/
structure Steady (s t : State) : Prop where
  build : t.build = s.build
  pending : t.pending = s.pending
  elapsed : t.clk.elapsed = s.clk.elapsed
  mse : t.mse.length = s.mse.length
  lse : t.lse.length = s.lse.length
  hse : t.hse.length = s.hse.length
  fuses : ∀ w b, (s.lcu.fuse w).testBit b = true → (t.lcu.fuse w).testBit b = true
  quiet : s.alr.quiet = true → t.alr.quiet = true
  inReset : s.rst.phase = .inReset → t.rst.phase = .inReset

theorem Steady.refl {s : State} : Steady s s := ⟨by rfl, by rfl, by rfl, by rfl, by rfl, by rfl, fun _ _ h => h, fun h => h, fun h => h⟩
theorem Steady.upd {s t : State} {x_build x_cfg x_pins x_clk x_mon x_rst x_cap x_alr x_obs x_hlm x_nvm x_ald x_cht x_lcu x_sbx x_epo x_ldg x_swp x_stl x_att x_dom x_mrk x_bth x_tol x_sty x_xck x_rwt x_rwtSel x_granted x_mse x_listedCount x_lse x_hse x_out x_fresh x_pending} (h : Steady s t) (h1 : x_build = t.build) (h2 : x_pending = t.pending) (h3 : Clk.elapsed x_clk = t.clk.elapsed)
  (h4 : List.length x_mse = t.mse.length) (h5 : List.length x_lse = t.lse.length) (h6 : List.length x_hse = t.hse.length) (h7 : ∀ w b, (t.lcu.fuse w).testBit b = true → (Lcu.fuse x_lcu w).testBit b = true)
  (h8 : t.alr.quiet = true → Alr.quiet x_alr = true) (h9 : t.rst.phase = .inReset → Rst.phase x_rst = .inReset) : Steady s (State.mk x_build x_cfg x_pins x_clk x_mon x_rst x_cap x_alr x_obs x_hlm x_nvm x_ald x_cht x_lcu x_sbx x_epo x_ldg x_swp x_stl x_att x_dom x_mrk x_bth x_tol x_sty x_xck x_rwt x_rwtSel x_granted x_mse x_listedCount x_lse x_hse x_out x_fresh x_pending) := by
  obtain ⟨a1, a2, a3, a4, a5, a6, a7, a8, a9⟩ := h
  exact ⟨h1.trans a1, h2.trans a2, h3.trans a3, h4.trans a4, h5.trans a5, h6.trans a6, fun w b e => h7 w b (a7 w b e),
    fun e => h8 (a8 e), fun e => h9 (a9 e)⟩

theorem Steady.ite {s a b : State} {c : Prop} [Decidable c] (ha : Steady s a) (hb : Steady s b) : Steady s (if c then a else b) := by
  split <;> assumption

theorem Steady.foldl {s0 s : State} {α : Type} {f : State → α → State} {l : List α} (h : Steady s0 s)
    (hf : ∀ t a, Steady s0 t → Steady s0 (f t a)) : Steady s0 (l.foldl f s) := by
  induction l generalizing s with
  | nil => exact h
  | cons a l ih => exact ih (hf s a h)

@[simp] theorem length_listSet {α : Type} (l : List α) (i : Nat) (f : α → α) : (listSet l i f).length = l.length := by
  induction l generalizing i with
  | nil => rfl
  | cons a l ih => cases i <;> simp [listSet, ih]

theorem Steady.with_cfg {s0 t : State} (hst : Steady s0 t) (y : Cfg) : Steady s0 { t with cfg := y } :=
  Steady.upd hst rfl rfl rfl rfl rfl rfl (fun _ _ h => h) id id

theorem Steady.with_pins {s0 t : State} (hst : Steady s0 t) (y : Pins) : Steady s0 { t with pins := y } :=
  Steady.upd hst rfl rfl rfl rfl rfl rfl (fun _ _ h => h) id id

theorem Steady.with_mon {s0 t : State} (hst : Steady s0 t) (y : Monitor) : Steady s0 { t with mon := y } :=
  Steady.upd hst rfl rfl rfl rfl rfl rfl (fun _ _ h => h) id id

theorem Steady.with_cap {s0 t : State} (hst : Steady s0 t) (y : Captures) : Steady s0 { t with cap := y } :=
  Steady.upd hst rfl rfl rfl rfl rfl rfl (fun _ _ h => h) id id

theorem Steady.with_obs {s0 t : State} (hst : Steady s0 t) (y : Obs) : Steady s0 { t with obs := y } :=
  Steady.upd hst rfl rfl rfl rfl rfl rfl (fun _ _ h => h) id id

theorem Steady.with_hlm {s0 t : State} (hst : Steady s0 t) (y : Hlm) : Steady s0 { t with hlm := y } :=
  Steady.upd hst rfl rfl rfl rfl rfl rfl (fun _ _ h => h) id id

theorem Steady.with_nvm {s0 t : State} (hst : Steady s0 t) (y : Nvm) : Steady s0 { t with nvm := y } :=
  Steady.upd hst rfl rfl rfl rfl rfl rfl (fun _ _ h => h) id id

theorem Steady.with_ald {s0 t : State} (hst : Steady s0 t) (y : Ald) : Steady s0 { t with ald := y } :=
  Steady.upd hst rfl rfl rfl rfl rfl rfl (fun _ _ h => h) id id

theorem Steady.with_cht {s0 t : State} (hst : Steady s0 t) (y : Chart) : Steady s0 { t with cht := y } :=
  Steady.upd hst rfl rfl rfl rfl rfl rfl (fun _ _ h => h) id id

theorem Steady.with_sbx {s0 t : State} (hst : Steady s0 t) (y : Sbx) : Steady s0 { t with sbx := y } :=
  Steady.upd hst rfl rfl rfl rfl rfl rfl (fun _ _ h => h) id id

theorem Steady.with_epo {s0 t : State} (hst : Steady s0 t) (y : Epoch) : Steady s0 { t with epo := y } :=
  Steady.upd hst rfl rfl rfl rfl rfl rfl (fun _ _ h => h) id id

theorem Steady.with_ldg {s0 t : State} (hst : Steady s0 t) (y : Ldg) : Steady s0 { t with ldg := y } :=
  Steady.upd hst rfl rfl rfl rfl rfl rfl (fun _ _ h => h) id id

theorem Steady.with_swp {s0 t : State} (hst : Steady s0 t) (y : Swp) : Steady s0 { t with swp := y } :=
  Steady.upd hst rfl rfl rfl rfl rfl rfl (fun _ _ h => h) id id

theorem Steady.with_stl {s0 t : State} (hst : Steady s0 t) (y : Stl) : Steady s0 { t with stl := y } :=
  Steady.upd hst rfl rfl rfl rfl rfl rfl (fun _ _ h => h) id id

theorem Steady.with_att {s0 t : State} (hst : Steady s0 t) (y : Att) : Steady s0 { t with att := y } :=
  Steady.upd hst rfl rfl rfl rfl rfl rfl (fun _ _ h => h) id id

theorem Steady.with_dom {s0 t : State} (hst : Steady s0 t) (y : Dom) : Steady s0 { t with dom := y } :=
  Steady.upd hst rfl rfl rfl rfl rfl rfl (fun _ _ h => h) id id

theorem Steady.with_mrk {s0 t : State} (hst : Steady s0 t) (y : Mrk) : Steady s0 { t with mrk := y } :=
  Steady.upd hst rfl rfl rfl rfl rfl rfl (fun _ _ h => h) id id

theorem Steady.with_bth {s0 t : State} (hst : Steady s0 t) (y : Bth) : Steady s0 { t with bth := y } :=
  Steady.upd hst rfl rfl rfl rfl rfl rfl (fun _ _ h => h) id id

theorem Steady.with_tol {s0 t : State} (hst : Steady s0 t) (y : Tol) : Steady s0 { t with tol := y } :=
  Steady.upd hst rfl rfl rfl rfl rfl rfl (fun _ _ h => h) id id

theorem Steady.with_sty {s0 t : State} (hst : Steady s0 t) (y : Sty) : Steady s0 { t with sty := y } :=
  Steady.upd hst rfl rfl rfl rfl rfl rfl (fun _ _ h => h) id id

theorem Steady.with_xck {s0 t : State} (hst : Steady s0 t) (y : Xck) : Steady s0 { t with xck := y } :=
  Steady.upd hst rfl rfl rfl rfl rfl rfl (fun _ _ h => h) id id

theorem Steady.with_rwt {s0 t : State} (hst : Steady s0 t) (y : List (Nat × Window)) : Steady s0 { t with rwt := y } :=
  Steady.upd hst rfl rfl rfl rfl rfl rfl (fun _ _ h => h) id id

theorem Steady.with_rwtSel {s0 t : State} (hst : Steady s0 t) (y : BitVec 10) : Steady s0 { t with rwtSel := y } :=
  Steady.upd hst rfl rfl rfl rfl rfl rfl (fun _ _ h => h) id id

theorem Steady.with_granted {s0 t : State} (hst : Steady s0 t) (y : List Granted) : Steady s0 { t with granted := y } :=
  Steady.upd hst rfl rfl rfl rfl rfl rfl (fun _ _ h => h) id id

theorem Steady.with_listedCount {s0 t : State} (hst : Steady s0 t) (y : Nat) : Steady s0 { t with listedCount := y } :=
  Steady.upd hst rfl rfl rfl rfl rfl rfl (fun _ _ h => h) id id

theorem Steady.with_out {s0 t : State} (hst : Steady s0 t) (y : List Out) : Steady s0 { t with out := y } :=
  Steady.upd hst rfl rfl rfl rfl rfl rfl (fun _ _ h => h) id id

theorem Steady.with_fresh {s0 t : State} (hst : Steady s0 t) (y : Nat) : Steady s0 { t with fresh := y } :=
  Steady.upd hst rfl rfl rfl rfl rfl rfl (fun _ _ h => h) id id

theorem Steady.trans {a b c : State} (h : Steady a b) (k : Steady b c) : Steady a c :=
  ⟨k.build.trans h.build, k.pending.trans h.pending, k.elapsed.trans h.elapsed, k.mse.trans h.mse, k.lse.trans h.lse, k.hse.trans h.hse,
    fun w b e => k.fuses w b (h.fuses w b e), fun e => k.quiet (h.quiet e), fun e => k.inReset (h.inReset e)⟩

end Sys2Proof.Machine
end

