-- ==== Sys2Proof/Laws/SteadyOps.lean ====
section
/-!
SUPPORT. The operations of Machine/Ops.lean keep what every step keeps (Laws/Steady.lean).
-/

namespace Sys2Proof.Machine

set_option linter.unreachableTactic false
set_option linter.unusedTactic false
set_option linter.unnecessarySeqFocus false

theorem Alr.logEntry_quiet (n : AlarmEntry) (now : Nat) (a : Alr) : (a.logEntry n now).quiet = a.quiet := by
  unfold Alr.logEntry
  repeat' first
    | rfl
    | split

theorem State.begin_steady {s0 s : State} (hst : Steady s0 s) :
    Steady s0 (State.begin s) := by
  unfold State.begin
  repeat' first
    | assumption
    | (intro _)
    | (fail_if_no_progress refine Steady.upd ?_ rfl rfl rfl (by first | rfl | (simp <;> rfl)) (by first | rfl | (simp <;> rfl)) (by first | rfl | (simp <;> rfl)) (by exact fun _ _ h => h) (by first | exact id | (intro hk; (repeat' (first | assumption | split)); done) | simp) (by first | exact id | (intro hk; (repeat' (first | assumption | split)); done) | simp))

theorem State.emit_steady {s0 s : State} (o : Out) (hst : Steady s0 s) :
    Steady s0 (State.emit o s) := by
  unfold State.emit
  repeat' first
    | assumption
    | (intro _)
    | (fail_if_no_progress refine Steady.upd ?_ rfl rfl rfl (by first | rfl | (simp <;> rfl)) (by first | rfl | (simp <;> rfl)) (by first | rfl | (simp <;> rfl)) (by exact fun _ _ h => h) (by first | exact id | (intro hk; (repeat' (first | assumption | split)); done) | simp) (by first | exact id | (intro hk; (repeat' (first | assumption | split)); done) | simp))

theorem State.emits_steady {s0 s : State} (os : List Out) (hst : Steady s0 s) :
    Steady s0 (State.emits os s) := by
  unfold State.emits
  repeat' first
    | assumption
    | (intro _)
    | (fail_if_no_progress refine Steady.upd ?_ rfl rfl rfl (by first | rfl | (simp <;> rfl)) (by first | rfl | (simp <;> rfl)) (by first | rfl | (simp <;> rfl)) (by exact fun _ _ h => h) (by first | exact id | (intro hk; (repeat' (first | assumption | split)); done) | simp) (by first | exact id | (intro hk; (repeat' (first | assumption | split)); done) | simp))

theorem State.bump_steady {s0 s : State} (n : Nat) (k : Nat) (hst : Steady s0 s) :
    Steady s0 (State.bump n k s) := by
  unfold State.bump
  repeat' first
    | assumption
    | (intro _)
    | (fail_if_no_progress refine Steady.upd ?_ rfl rfl rfl (by first | rfl | (simp <;> rfl)) (by first | rfl | (simp <;> rfl)) (by first | rfl | (simp <;> rfl)) (by exact fun _ _ h => h) (by first | exact id | (intro hk; (repeat' (first | assumption | split)); done) | simp) (by first | exact id | (intro hk; (repeat' (first | assumption | split)); done) | simp))

theorem State.bumpStall_steady {s0 s : State} (stall : Nat) (off : Nat) (k : Nat) (hst : Steady s0 s) :
    Steady s0 (State.bumpStall stall off k s) := by
  unfold State.bumpStall
  repeat' first
    | assumption
    | (intro _)
    | with_reducible apply State.bump_steady

theorem State.meter_steady {s0 s : State} (cls : Nat) (stall : Nat) (n : Nat) (hst : Steady s0 s) :
    Steady s0 (State.meter cls stall n s) := by
  unfold State.meter
  repeat' first
    | assumption
    | (intro _)
    | with_reducible apply Steady.ite
    | (fail_if_no_progress refine Steady.upd ?_ rfl rfl rfl (by first | rfl | (simp <;> rfl)) (by first | rfl | (simp <;> rfl)) (by first | rfl | (simp <;> rfl)) (by exact fun _ _ h => h) (by first | exact id | (intro hk; (repeat' (first | assumption | split)); done) | simp) (by first | exact id | (intro hk; (repeat' (first | assumption | split)); done) | simp))

theorem State.event_steady {s0 s : State} (code : Nat) (unit : Nat) (stall : Option Nat) (arg0 : Nat) (arg1 : Nat) (hst : Steady s0 s) :
    Steady s0 (State.event code unit stall arg0 arg1 s) := by
  unfold State.event
  repeat' first
    | assumption
    | (intro _)
    | (fail_if_no_progress refine Steady.upd ?_ rfl rfl rfl (by first | rfl | (simp <;> rfl)) (by first | rfl | (simp <;> rfl)) (by first | rfl | (simp <;> rfl)) (by exact fun _ _ h => h) (by first | exact id | (intro hk; (repeat' (first | assumption | split)); done) | simp) (by first | exact id | (intro hk; (repeat' (first | assumption | split)); done) | simp))

theorem State.ringRecord_steady {s0 s : State} (ring : Nat) (kind : Nat) (dur : Nat) (waiter : Option Nat) (object : Nat) (hst : Steady s0 s) :
    Steady s0 (State.ringRecord ring kind dur waiter object s) := by
  unfold State.ringRecord
  repeat' first
    | assumption
    | (intro _)
    | with_reducible apply Steady.ite
    | (fail_if_no_progress refine Steady.upd ?_ rfl rfl rfl (by first | rfl | (simp <;> rfl)) (by first | rfl | (simp <;> rfl)) (by first | rfl | (simp <;> rfl)) (by exact fun _ _ h => h) (by first | exact id | (intro hk; (repeat' (first | assumption | split)); done) | simp) (by first | exact id | (intro hk; (repeat' (first | assumption | split)); done) | simp))

theorem State.waitBegin_steady {s0 s : State} (ring : Nat) (kind : Nat) (waiter : Option Nat) (object : Nat) (hst : Steady s0 s) :
    Steady s0 (State.waitBegin ring kind waiter object s) := by
  unfold State.waitBegin
  repeat' first
    | assumption
    | (intro _)
    | (fail_if_no_progress refine Steady.upd ?_ rfl rfl rfl (by first | rfl | (simp <;> rfl)) (by first | rfl | (simp <;> rfl)) (by first | rfl | (simp <;> rfl)) (by exact fun _ _ h => h) (by first | exact id | (intro hk; (repeat' (first | assumption | split)); done) | simp) (by first | exact id | (intro hk; (repeat' (first | assumption | split)); done) | simp))

theorem State.waitEnd_steady {s0 s : State} (ring : Nat) (kind : Nat) (waiter : Option Nat) (object : Nat) (hst : Steady s0 s) :
    Steady s0 (State.waitEnd ring kind waiter object s) := by
  unfold State.waitEnd
  repeat' first
    | assumption
    | (intro _)
    | with_reducible apply State.ringRecord_steady
    | (fail_if_no_progress refine Steady.upd ?_ rfl rfl rfl (by first | rfl | (simp <;> rfl)) (by first | rfl | (simp <;> rfl)) (by first | rfl | (simp <;> rfl)) (by exact fun _ _ h => h) (by first | exact id | (intro hk; (repeat' (first | assumption | split)); done) | simp) (by first | exact id | (intro hk; (repeat' (first | assumption | split)); done) | simp))
    | split
    | dsimp only

theorem State.tookDraw_steady {s0 s : State} (hst : Steady s0 s) :
    Steady s0 (State.tookDraw s) := by
  unfold State.tookDraw
  repeat' first
    | assumption
    | (intro _)
    | (fail_if_no_progress refine Steady.upd ?_ rfl rfl rfl (by first | rfl | (simp <;> rfl)) (by first | rfl | (simp <;> rfl)) (by first | rfl | (simp <;> rfl)) (by exact fun _ _ h => h) (by first | exact id | (intro hk; (repeat' (first | assumption | split)); done) | simp) (by first | exact id | (intro hk; (repeat' (first | assumption | split)); done) | simp))

theorem State.setStall_steady {s0 s : State} (id : Nat) (x : Stall) (hst : Steady s0 s) :
    Steady s0 (State.setStall id x s) := by
  unfold State.setStall
  repeat' first
    | assumption
    | (intro _)
    | (fail_if_no_progress refine Steady.upd ?_ rfl rfl rfl (by first | rfl | (simp <;> rfl)) (by first | rfl | (simp <;> rfl)) (by first | rfl | (simp <;> rfl)) (by exact fun _ _ h => h) (by first | exact id | (intro hk; (repeat' (first | assumption | split)); done) | simp) (by first | exact id | (intro hk; (repeat' (first | assumption | split)); done) | simp))

theorem State.setStallData_steady {s0 s : State} (id : Nat) (x : StallData) (hst : Steady s0 s) :
    Steady s0 (State.setStallData id x s) := by
  unfold State.setStallData
  repeat' first
    | assumption
    | (intro _)
    | (fail_if_no_progress refine Steady.upd ?_ rfl rfl rfl (by first | rfl | (simp <;> rfl)) (by first | rfl | (simp <;> rfl)) (by first | rfl | (simp <;> rfl)) (by exact fun _ _ h => h) (by first | exact id | (intro hk; (repeat' (first | assumption | split)); done) | simp) (by first | exact id | (intro hk; (repeat' (first | assumption | split)); done) | simp))

theorem State.modStall_steady {s0 s : State} (id : Nat) (f : Stall → Stall) (hst : Steady s0 s) :
    Steady s0 (State.modStall id f s) := by
  unfold State.modStall
  repeat' first
    | assumption
    | (intro _)
    | with_reducible apply State.setStall_steady
    | (fail_if_no_progress refine Steady.upd ?_ rfl rfl rfl (by first | rfl | (simp <;> rfl)) (by first | rfl | (simp <;> rfl)) (by first | rfl | (simp <;> rfl)) (by exact fun _ _ h => h) (by first | exact id | (intro hk; (repeat' (first | assumption | split)); done) | simp) (by first | exact id | (intro hk; (repeat' (first | assumption | split)); done) | simp))
    | split

theorem State.modStallData_steady {s0 s : State} (id : Nat) (f : StallData → StallData) (hst : Steady s0 s) :
    Steady s0 (State.modStallData id f s) := by
  unfold State.modStallData
  repeat' first
    | assumption
    | (intro _)
    | with_reducible apply State.setStallData_steady
    | (fail_if_no_progress refine Steady.upd ?_ rfl rfl rfl (by first | rfl | (simp <;> rfl)) (by first | rfl | (simp <;> rfl)) (by first | rfl | (simp <;> rfl)) (by exact fun _ _ h => h) (by first | exact id | (intro hk; (repeat' (first | assumption | split)); done) | simp) (by first | exact id | (intro hk; (repeat' (first | assumption | split)); done) | simp))
    | split

theorem State.spineMses_steady {s0 s : State} (m : SpineMsg) (hst : Steady s0 s) :
    Steady s0 (State.spineMses m s) := by
  unfold State.spineMses
  repeat' first
    | assumption
    | (intro _)
    | (fail_if_no_progress refine Steady.upd ?_ rfl rfl rfl (by first | rfl | (simp <;> rfl)) (by first | rfl | (simp <;> rfl)) (by first | rfl | (simp <;> rfl)) (by exact fun _ _ h => h) (by first | exact id | (intro hk; (repeat' (first | assumption | split)); done) | simp) (by first | exact id | (intro hk; (repeat' (first | assumption | split)); done) | simp))

theorem State.spineAll_steady {s0 s : State} (m : SpineMsg) (hst : Steady s0 s) :
    Steady s0 (State.spineAll m s) := by
  unfold State.spineAll
  repeat' first
    | assumption
    | (intro _)
    | with_reducible apply State.spineMses_steady
    | (fail_if_no_progress refine Steady.upd ?_ rfl rfl rfl (by first | rfl | (simp <;> rfl)) (by first | rfl | (simp <;> rfl)) (by first | rfl | (simp <;> rfl)) (by exact fun _ _ h => h) (by first | exact id | (intro hk; (repeat' (first | assumption | split)); done) | simp) (by first | exact id | (intro hk; (repeat' (first | assumption | split)); done) | simp))

theorem State.sendRefusal_steady {s0 s : State} (id : Nat) (hst : Steady s0 s) :
    Steady s0 (State.sendRefusal id s) := by
  unfold State.sendRefusal
  repeat' first
    | assumption
    | (intro _)
    | with_reducible apply State.spineAll_steady

theorem State.progress_steady {s0 s : State} (hst : Steady s0 s) :
    Steady s0 (State.progress s) := by
  unfold State.progress
  repeat' first
    | assumption
    | (intro _)
    | (fail_if_no_progress refine Steady.upd ?_ rfl rfl rfl (by first | rfl | (simp <;> rfl)) (by first | rfl | (simp <;> rfl)) (by first | rfl | (simp <;> rfl)) (by exact fun _ _ h => h) (by first | exact id | (intro hk; (repeat' (first | assumption | split)); done) | simp) (by first | exact id | (intro hk; (repeat' (first | assumption | split)); done) | simp))

theorem State.complete_steady {s0 s : State} (r : Completion) (hst : Steady s0 s) :
    Steady s0 (State.complete r s) := by
  unfold State.complete
  repeat' first
    | assumption
    | (intro _)
    | with_reducible apply State.progress_steady
    | with_reducible apply State.bump_steady
    | with_reducible apply State.bumpStall_steady
    | with_reducible apply Steady.ite
    | (fail_if_no_progress refine Steady.upd ?_ rfl rfl rfl (by first | rfl | (simp <;> rfl)) (by first | rfl | (simp <;> rfl)) (by first | rfl | (simp <;> rfl)) (by exact fun _ _ h => h) (by first | exact id | (intro hk; (repeat' (first | assumption | split)); done) | simp) (by first | exact id | (intro hk; (repeat' (first | assumption | split)); done) | simp))

theorem State.finish_steady {s0 s : State} (c : Call) (status : Nat) (hst : Steady s0 s) :
    Steady s0 (State.finish c status s) := by
  unfold State.finish
  repeat' first
    | assumption
    | (intro _)
    | with_reducible apply State.complete_steady

theorem State.finishDetail_steady {s0 s : State} (c : Call) (status : Nat) (detail : Nat) (hst : Steady s0 s) :
    Steady s0 (State.finishDetail c status detail s) := by
  unfold State.finishDetail
  repeat' first
    | assumption
    | (intro _)
    | with_reducible apply State.complete_steady

theorem State.finishOk_steady {s0 s : State} (c : Call) (result : Bytes) (hst : Steady s0 s) :
    Steady s0 (State.finishOk c result s) := by
  unfold State.finishOk
  repeat' first
    | assumption
    | (intro _)
    | with_reducible apply State.complete_steady

theorem State.failCommands_steady {s0 s : State} (id : Nat) (hst : Steady s0 s) :
    Steady s0 (State.failCommands id s) := by
  unfold State.failCommands
  repeat' first
    | assumption
    | (intro _)
    | with_reducible apply State.finish_steady
    | with_reducible apply Steady.ite
    | with_reducible apply Steady.foldl
    | (fail_if_no_progress refine Steady.upd ?_ rfl rfl rfl (by first | rfl | (simp <;> rfl)) (by first | rfl | (simp <;> rfl)) (by first | rfl | (simp <;> rfl)) (by exact fun _ _ h => h) (by first | exact id | (intro hk; (repeat' (first | assumption | split)); done) | simp) (by first | exact id | (intro hk; (repeat' (first | assumption | split)); done) | simp))

theorem State.loseStall_steady {s0 s : State} (id : Nat) (cause : Nat) (hst : Steady s0 s) :
    Steady s0 (State.loseStall id cause s) := by
  unfold State.loseStall
  repeat' first
    | assumption
    | (intro _)
    | with_reducible apply State.setStall_steady
    | with_reducible apply State.bump_steady
    | with_reducible apply State.sendRefusal_steady
    | with_reducible apply State.failCommands_steady
    | with_reducible apply Steady.ite
    | (fail_if_no_progress refine Steady.upd ?_ rfl rfl rfl (by first | rfl | (simp <;> rfl)) (by first | rfl | (simp <;> rfl)) (by first | rfl | (simp <;> rfl)) (by exact fun _ _ h => h) (by first | exact id | (intro hk; (repeat' (first | assumption | split)); done) | simp) (by first | exact id | (intro hk; (repeat' (first | assumption | split)); done) | simp))
    | split

theorem State.enterQuiet_steady {s0 s : State} (hst : Steady s0 s) :
    Steady s0 (State.enterQuiet s) := by
  unfold State.enterQuiet
  repeat' first
    | assumption
    | (intro _)
    | with_reducible apply State.emits_steady
    | with_reducible apply State.hold_steady
    | with_reducible apply Steady.ite
    | (fail_if_no_progress refine Steady.upd ?_ rfl rfl rfl (by first | rfl | (simp <;> rfl)) (by first | rfl | (simp <;> rfl)) (by first | rfl | (simp <;> rfl)) (by exact fun _ _ h => h) (by first | exact id | (intro hk; (repeat' (first | assumption | split)); done) | simp) (by first | exact id | (intro hk; (repeat' (first | assumption | split)); done) | simp))

theorem State.enterSafeStop_steady {s0 s : State} (hst : Steady s0 s) :
    Steady s0 (State.enterSafeStop s) := by
  unfold State.enterSafeStop
  repeat' first
    | assumption
    | (intro _)
    | with_reducible apply State.enterQuiet_steady
    | with_reducible apply Steady.ite
    | (fail_if_no_progress refine Steady.upd ?_ rfl rfl rfl (by first | rfl | (simp <;> rfl)) (by first | rfl | (simp <;> rfl)) (by first | rfl | (simp <;> rfl)) (by exact fun _ _ h => h) (by first | exact id | (intro hk; (repeat' (first | assumption | split)); done) | simp) (by first | exact id | (intro hk; (repeat' (first | assumption | split)); done) | simp))

theorem State.zeroize_steady {s0 s : State} (hst : Steady s0 s) :
    Steady s0 (State.zeroize s) := by
  unfold State.zeroize
  repeat' first
    | assumption
    | (intro _)
    | (fail_if_no_progress refine Steady.upd ?_ rfl rfl rfl (by first | rfl | (simp <;> rfl)) (by first | rfl | (simp <;> rfl)) (by first | rfl | (simp <;> rfl)) (by exact fun _ _ h => h) (by first | exact id | (intro hk; (repeat' (first | assumption | split)); done) | simp) (by first | exact id | (intro hk; (repeat' (first | assumption | split)); done) | simp))

theorem State.clearAnchorTamper_steady {s0 s : State} (hst : Steady s0 s) :
    Steady s0 (State.clearAnchorTamper s) := by
  unfold State.clearAnchorTamper
  repeat' first
    | assumption
    | (intro _)
    | (fail_if_no_progress refine Steady.upd ?_ rfl rfl rfl (by first | rfl | (simp <;> rfl)) (by first | rfl | (simp <;> rfl)) (by first | rfl | (simp <;> rfl)) (by exact fun _ _ h => h) (by first | exact id | (intro hk; (repeat' (first | assumption | split)); done) | simp) (by first | exact id | (intro hk; (repeat' (first | assumption | split)); done) | simp))

theorem State.clearAnchor_steady {s0 s : State} (hst : Steady s0 s) :
    Steady s0 (State.clearAnchor s) := by
  unfold State.clearAnchor
  repeat' first
    | assumption
    | (intro _)
    | (fail_if_no_progress refine Steady.upd ?_ rfl rfl rfl (by first | rfl | (simp <;> rfl)) (by first | rfl | (simp <;> rfl)) (by first | rfl | (simp <;> rfl)) (by exact fun _ _ h => h) (by first | exact id | (intro hk; (repeat' (first | assumption | split)); done) | simp) (by first | exact id | (intro hk; (repeat' (first | assumption | split)); done) | simp))

theorem State.logAlarm_steady {s0 s : State} (code unit : Nat) (stall : Option Nat) (cause word : Nat) (hst : Steady s0 s) :
    Steady s0 (s.logAlarm code unit stall cause word) := by
  unfold State.logAlarm
  refine Steady.upd hst rfl rfl rfl rfl rfl rfl (fun _ _ h => h) (fun e => ?_) id
  rw [Alr.logEntry_quiet]
  exact e

theorem State.alarmTamper_steady {s0 s : State} (unit : Nat) (cause : Nat) (word : Nat) (hst : Steady s0 s) :
    Steady s0 (State.alarmTamper unit cause word s) := by
  unfold State.alarmTamper
  repeat' first
    | assumption
    | (intro _)
    | with_reducible apply State.logAlarm_steady
    | with_reducible apply State.zeroize_steady
    | with_reducible apply State.clearAnchorTamper_steady
    | with_reducible apply State.bump_steady
    | with_reducible apply State.enterSafeStop_steady
    | (fail_if_no_progress refine Steady.upd ?_ rfl rfl rfl (by first | rfl | (simp <;> rfl)) (by first | rfl | (simp <;> rfl)) (by first | rfl | (simp <;> rfl)) (by exact fun _ _ h => h) (by first | exact id | (intro hk; (repeat' (first | assumption | split)); done) | simp) (by first | exact id | (intro hk; (repeat' (first | assumption | split)); done) | simp))

theorem State.alarmClock_steady {s0 s : State} (unit : Nat) (cause : Nat) (word : Nat) (hst : Steady s0 s) :
    Steady s0 (State.alarmClock unit cause word s) := by
  unfold State.alarmClock
  repeat' first
    | assumption
    | (intro _)
    | with_reducible apply State.logAlarm_steady
    | with_reducible apply State.bump_steady
    | with_reducible apply State.enterSafeStop_steady
    | (fail_if_no_progress refine Steady.upd ?_ rfl rfl rfl (by first | rfl | (simp <;> rfl)) (by first | rfl | (simp <;> rfl)) (by first | rfl | (simp <;> rfl)) (by exact fun _ _ h => h) (by first | exact id | (intro hk; (repeat' (first | assumption | split)); done) | simp) (by first | exact id | (intro hk; (repeat' (first | assumption | split)); done) | simp))

theorem State.alarmSafestop_steady {s0 s : State} (unit : Nat) (cause : Nat) (word : Nat) (hst : Steady s0 s) :
    Steady s0 (State.alarmSafestop unit cause word s) := by
  unfold State.alarmSafestop
  repeat' first
    | assumption
    | (intro _)
    | with_reducible apply State.logAlarm_steady
    | with_reducible apply State.enterSafeStop_steady

theorem State.integPolicy_steady {s0 s : State} (charged : Option Nat) (hst : Steady s0 s) :
    Steady s0 (State.integPolicy charged s) := by
  unfold State.integPolicy
  repeat' first
    | assumption
    | (intro _)
    | with_reducible apply State.loseStall_steady
    | with_reducible apply Steady.ite
    | (fail_if_no_progress refine Steady.upd ?_ rfl rfl rfl (by first | rfl | (simp <;> rfl)) (by first | rfl | (simp <;> rfl)) (by first | rfl | (simp <;> rfl)) (by exact fun _ _ h => h) (by first | exact id | (intro hk; (repeat' (first | assumption | split)); done) | simp) (by first | exact id | (intro hk; (repeat' (first | assumption | split)); done) | simp))
    | split

theorem State.alarmIntegrity_steady {s0 s : State} (unit : Nat) (stall : Option Nat) (charged : Option Nat) (cause : Nat) (word : Nat) (hst : Steady s0 s) :
    Steady s0 (State.alarmIntegrity unit stall charged cause word s) := by
  unfold State.alarmIntegrity
  repeat' first
    | assumption
    | (intro _)
    | with_reducible apply State.logAlarm_steady
    | with_reducible apply State.bump_steady
    | with_reducible apply State.integPolicy_steady
    | (fail_if_no_progress refine Steady.upd ?_ rfl rfl rfl (by first | rfl | (simp <;> rfl)) (by first | rfl | (simp <;> rfl)) (by first | rfl | (simp <;> rfl)) (by exact fun _ _ h => h) (by first | exact id | (intro hk; (repeat' (first | assumption | split)); done) | simp) (by first | exact id | (intro hk; (repeat' (first | assumption | split)); done) | simp))

theorem State.sounding_steady {s0 s : State} (unit : Nat) (type : Nat) (cls : Nat) (hst : Steady s0 s) :
    Steady s0 (State.sounding unit type cls s) := by
  unfold State.sounding
  repeat' first
    | assumption
    | (intro _)
    | with_reducible apply State.event_steady
    | with_reducible apply State.bump_steady
    | (fail_if_no_progress refine Steady.upd ?_ rfl rfl rfl (by first | rfl | (simp <;> rfl)) (by first | rfl | (simp <;> rfl)) (by first | rfl | (simp <;> rfl)) (by exact fun _ _ h => h) (by first | exact id | (intro hk; (repeat' (first | assumption | split)); done) | simp) (by first | exact id | (intro hk; (repeat' (first | assumption | split)); done) | simp))

end Sys2Proof.Machine
end

