-- ==== Sys2Proof/Laws/SteadySector.lean ====
section
/-!
SUPPORT. The operations of Machine/Sector.lean keep what every step keeps (Laws/Steady.lean).
-/

namespace Sys2Proof.Machine

set_option linter.unreachableTactic false
set_option linter.unusedTactic false
set_option linter.unnecessarySeqFocus false

theorem State.setEntry_steady {s0 s : State} (r : RegionId) (e : LdgEntry) (hst : Steady s0 s) :
    Steady s0 (State.setEntry r e s) := by
  unfold State.setEntry
  repeat' first
    | assumption
    | (intro _)
    | with_reducible apply Steady.ite
    | (fail_if_no_progress refine Steady.upd ?_ rfl rfl rfl (by first | rfl | (simp <;> rfl)) (by first | rfl | (simp <;> rfl)) (by first | rfl | (simp <;> rfl)) (by exact fun _ _ h => h) (by first | exact id | (intro hk; (repeat' (first | assumption | split)); done) | simp) (by first | exact id | (intro hk; (repeat' (first | assumption | split)); done) | simp))

end Sys2Proof.Machine
end

