-- ==== Sys2Proof/Laws/SteadyStore.lean ====
section
/-!
SUPPORT. The operations of Machine/Store.lean keep what every step keeps (Laws/Steady.lean).
-/

namespace Sys2Proof.Machine

set_option linter.unreachableTactic false
set_option linter.unusedTactic false
set_option linter.unnecessarySeqFocus false

theorem State.beginBase_steady {s0 s : State} (hst : Steady s0 s) :
    Steady s0 (State.beginBase s) := by
  unfold State.beginBase
  repeat' first
    | assumption
    | (intro _)
    | with_reducible apply State.emit_steady
    | with_reducible apply Steady.ite
    | (fail_if_no_progress refine Steady.upd ?_ rfl rfl rfl (by first | rfl | (simp <;> rfl)) (by first | rfl | (simp <;> rfl)) (by first | rfl | (simp <;> rfl)) (by exact fun _ _ h => h) (by first | exact id | (intro hk; (repeat' (first | assumption | split)); done) | simp) (by first | exact id | (intro hk; (repeat' (first | assumption | split)); done) | simp))

theorem State.flushStore_steady {s0 s : State} (hst : Steady s0 s) :
    Steady s0 (State.flushStore s) := by
  unfold State.flushStore
  repeat' first
    | assumption
    | (intro _)
    | with_reducible apply State.emit_steady
    | with_reducible apply Steady.ite
    | (fail_if_no_progress refine Steady.upd ?_ rfl rfl rfl (by first | rfl | (simp <;> rfl)) (by first | rfl | (simp <;> rfl)) (by first | rfl | (simp <;> rfl)) (by exact fun _ _ h => h) (by first | exact id | (intro hk; (repeat' (first | assumption | split)); done) | simp) (by first | exact id | (intro hk; (repeat' (first | assumption | split)); done) | simp))

theorem State.queueItems_steady {s0 s : State} (is : List DeltaItem) (hst : Steady s0 s) :
    Steady s0 (State.queueItems is s) := by
  unfold State.queueItems
  repeat' first
    | assumption
    | (intro _)
    | with_reducible apply State.flushStore_steady
    | (fail_if_no_progress refine Steady.upd ?_ rfl rfl rfl (by first | rfl | (simp <;> rfl)) (by first | rfl | (simp <;> rfl)) (by first | rfl | (simp <;> rfl)) (by exact fun _ _ h => h) (by first | exact id | (intro hk; (repeat' (first | assumption | split)); done) | simp) (by first | exact id | (intro hk; (repeat' (first | assumption | split)); done) | simp))

theorem State.rewriteLine_steady {s0 s : State} (k : Nat) (hst : Steady s0 s) :
    Steady s0 (State.rewriteLine k s) := by
  unfold State.rewriteLine
  repeat' first
    | assumption
    | (intro _)
    | with_reducible apply State.emit_steady
    | (fail_if_no_progress refine Steady.upd ?_ rfl rfl rfl (by first | rfl | (simp <;> rfl)) (by first | rfl | (simp <;> rfl)) (by first | rfl | (simp <;> rfl)) (by exact fun _ _ h => h) (by first | exact id | (intro hk; (repeat' (first | assumption | split)); done) | simp) (by first | exact id | (intro hk; (repeat' (first | assumption | split)); done) | simp))

theorem State.writeEntry_steady {s0 s : State} (r : RegionId) (e : LdgEntry) (hst : Steady s0 s) :
    Steady s0 (State.writeEntry r e s) := by
  unfold State.writeEntry
  repeat' first
    | assumption
    | (intro _)
    | with_reducible apply State.setEntry_steady
    | with_reducible apply State.rewriteLine_steady
    | with_reducible apply Steady.ite

end Sys2Proof.Machine
end

