-- ==== Sys2Proof/Laws/SteadyMseCore.lean ====
section
/-!
SUPPORT. The operations of Machine/MseCore.lean keep what every step keeps (Laws/Steady.lean).
-/

namespace Sys2Proof.Machine

set_option linter.unreachableTactic false
set_option linter.unusedTactic false
set_option linter.unnecessarySeqFocus false

theorem Steady.withSty {s0 t : State} (hst : Steady s0 t) (y : Sty) : Steady s0 { t with sty := y } :=
  Steady.upd hst rfl rfl rfl rfl rfl rfl (fun _ _ h => h) id id

theorem State.modMse_steady {s0 s : State} (i : Nat) (f : Mse → Mse) (hst : Steady s0 s) :
    Steady s0 (State.modMse i f s) := by
  unfold State.modMse
  repeat' first
    | assumption
    | (intro _)
    | (fail_if_no_progress refine Steady.upd ?_ rfl rfl rfl (by first | rfl | (simp <;> rfl)) (by first | rfl | (simp <;> rfl)) (by first | rfl | (simp <;> rfl)) (by exact fun _ _ h => h) (by first | exact id | (intro hk; (repeat' (first | assumption | split)); done) | simp) (by first | exact id | (intro hk; (repeat' (first | assumption | split)); done) | simp))

theorem State.modErr_steady {s0 s : State} (i : Nat) (f : MseErr → MseErr) (hst : Steady s0 s) :
    Steady s0 (State.modErr i f s) := by
  unfold State.modErr
  repeat' first
    | assumption
    | (intro _)
    | with_reducible apply State.modMse_steady

theorem State.meterAnswer_steady {s0 s : State} (st : PortStatus) (r : HostReq) (hst : Steady s0 s) :
    Steady s0 (State.meterAnswer st r s) := by
  unfold State.meterAnswer
  repeat' first
    | assumption
    | (intro _)
    | with_reducible apply State.meter_steady
    | with_reducible apply Steady.ite

theorem State.answer_steady {s0 s : State} (i : Nat) (st : PortStatus) (data : Bytes) (r : HostReq) (hst : Steady s0 s) :
    Steady s0 (State.answer i st data r s) := by
  unfold State.answer
  repeat' first
    | assumption
    | (intro _)
    | with_reducible apply State.emit_steady
    | with_reducible apply State.bump_steady
    | with_reducible apply State.bumpStall_steady
    | with_reducible apply State.meterAnswer_steady
    | with_reducible apply Steady.ite
    | (fail_if_no_progress refine Steady.upd ?_ rfl rfl rfl (by first | rfl | (simp <;> rfl)) (by first | rfl | (simp <;> rfl)) (by first | rfl | (simp <;> rfl)) (by exact fun _ _ h => h) (by first | exact id | (intro hk; (repeat' (first | assumption | split)); done) | simp) (by first | exact id | (intro hk; (repeat' (first | assumption | split)); done) | simp))
    | split

theorem State.answerAll_steady {s0 s : State} (i : Nat) (st : PortStatus) (data : Bytes) (rs : List HostReq) (hst : Steady s0 s) :
    Steady s0 (State.answerAll i st data rs s) := by
  unfold State.answerAll
  repeat' first
    | assumption
    | (intro _)
    | with_reducible apply State.answer_steady
    | with_reducible apply Steady.foldl

theorem State.refuse_steady {s0 s : State} (i : Nat) (r : HostReq) (hst : Steady s0 s) :
    Steady s0 (State.refuse i r s) := by
  unfold State.refuse
  repeat' first
    | assumption
    | (intro _)
    | with_reducible apply State.modErr_steady
    | with_reducible apply State.answer_steady

theorem State.integrityAll_steady {s0 s : State} (i : Nat) (rs : List HostReq) (hst : Steady s0 s) :
    Steady s0 (State.integrityAll i rs s) := by
  unfold State.integrityAll
  repeat' first
    | assumption
    | (intro _)
    | with_reducible apply State.modErr_steady
    | with_reducible apply State.answerAll_steady

theorem State.listSector_steady {s0 s : State} (i : Nat) (sector : Nat) (part : Bool) (hst : Steady s0 s) :
    Steady s0 (State.listSector i sector part s) := by
  unfold State.listSector
  repeat' first
    | assumption
    | (intro _)
    | with_reducible apply State.modErr_steady
    | with_reducible apply State.event_steady
    | with_reducible apply Steady.ite
    | (fail_if_no_progress refine Steady.upd ?_ rfl rfl rfl (by first | rfl | (simp <;> rfl)) (by first | rfl | (simp <;> rfl)) (by first | rfl | (simp <;> rfl)) (by exact fun _ _ h => h) (by first | exact id | (intro hk; (repeat' (first | assumption | split)); done) | simp) (by first | exact id | (intro hk; (repeat' (first | assumption | split)); done) | simp))
    | split

theorem State.unlistSector_steady {s0 s : State} (i : Nat) (sector : Nat) (hst : Steady s0 s) :
    Steady s0 (State.unlistSector i sector s) := by
  unfold State.unlistSector
  repeat' first
    | assumption
    | (intro _)
    | with_reducible apply State.modErr_steady

theorem State.countUse_steady {s0 s : State} (tile : Nat) (k : SectorKey) (hst : Steady s0 s) :
    Steady s0 (State.countUse tile k s) := by
  unfold State.countUse
  repeat' first
    | assumption
    | (intro _)
    | with_reducible apply Steady.ite
    | (fail_if_no_progress refine Steady.upd ?_ rfl rfl rfl (by first | rfl | (simp <;> rfl)) (by first | rfl | (simp <;> rfl)) (by first | rfl | (simp <;> rfl)) (by exact fun _ _ h => h) (by first | exact id | (intro hk; (repeat' (first | assumption | split)); done) | simp) (by first | exact id | (intro hk; (repeat' (first | assumption | split)); done) | simp))
    | split

theorem State.sealAndQueue_steady {s0 s : State} {i : Nat} {key : SectorKey} {pt : Bytes} {o : MemOp} (hst : Steady s0 s) (t : State)
    (e : s.sealAndQueue i key pt o = some t) : Steady s0 t := by
  unfold State.sealAndQueue at e
  split at e
  · dsimp only at e
    split at e
    · split at e
      · cases e
        exact State.modMse_steady _ _ (State.countUse_steady _ _ hst)
      · cases e
    · cases e
      exact State.modMse_steady _ _ (State.countUse_steady _ _ hst)
  · cases e

theorem State.queueRead_steady {s0 s : State} (i : Nat) (o : MemOp) (hst : Steady s0 s) :
    Steady s0 (State.queueRead i o s) := by
  unfold State.queueRead
  repeat' first
    | assumption
    | (intro _)
    | with_reducible apply State.modMse_steady
    | with_reducible apply State.bump_steady
    | with_reducible apply Steady.ite
    | (fail_if_no_progress refine Steady.upd ?_ rfl rfl rfl (by first | rfl | (simp <;> rfl)) (by first | rfl | (simp <;> rfl)) (by first | rfl | (simp <;> rfl)) (by exact fun _ _ h => h) (by first | exact id | (intro hk; (repeat' (first | assumption | split)); done) | simp) (by first | exact id | (intro hk; (repeat' (first | assumption | split)); done) | simp))
    | split

theorem State.withHazard_steady {s0 s : State} (i : Nat) (sector : Nat) (hst : Steady s0 s) :
    Steady s0 (State.withHazard i sector s) := by
  unfold State.withHazard
  repeat' first
    | assumption
    | (intro _)
    | with_reducible apply State.modMse_steady
    | with_reducible apply State.bump_steady
    | with_reducible apply Steady.ite
    | (fail_if_no_progress refine Steady.upd ?_ rfl rfl rfl (by first | rfl | (simp <;> rfl)) (by first | rfl | (simp <;> rfl)) (by first | rfl | (simp <;> rfl)) (by exact fun _ _ h => h) (by first | exact id | (intro hk; (repeat' (first | assumption | split)); done) | simp) (by first | exact id | (intro hk; (repeat' (first | assumption | split)); done) | simp))
    | split

theorem State.answerMerged_steady {s0 s : State} (i : Nat) (base : Bytes) (b : MergeBuf) (hst : Steady s0 s) :
    Steady s0 (State.answerMerged i base b s) := by
  unfold State.answerMerged
  repeat' first
    | assumption
    | (intro _)
    | with_reducible apply State.answer_steady
    | with_reducible apply Steady.foldl

theorem State.issueBuf_steady {s0 s : State} (i : Nat) (h : Hazard) (b : MergeBuf) (base : Bytes) (hst : Steady s0 s) :
    Steady s0 (State.issueBuf i h b base s) := by
  unfold State.issueBuf
  repeat' first
    | assumption
    | (intro _)
    | (refine State.sealAndQueue_steady ?_ _ (by assumption))
    | with_reducible apply State.modMse_steady
    | with_reducible apply State.answerMerged_steady
    | (fail_if_no_progress refine Steady.upd ?_ rfl rfl rfl (by first | rfl | (simp <;> rfl)) (by first | rfl | (simp <;> rfl)) (by first | rfl | (simp <;> rfl)) (by exact fun _ _ h => h) (by first | exact id | (intro hk; (repeat' (first | assumption | split)); done) | simp) (by first | exact id | (intro hk; (repeat' (first | assumption | split)); done) | simp))
    | split
    | dsimp only

theorem State.hazardStep_steady {s0 s : State} (i : Nat) (sector : Nat) (hst : Steady s0 s) :
    Steady s0 (State.hazardStep i sector s) := by
  unfold State.hazardStep
  repeat' first
    | assumption
    | (intro _)
    | with_reducible apply State.issueBuf_steady
    | with_reducible apply State.queueRead_steady
    | with_reducible apply State.modMse_steady
    | with_reducible apply State.answer_steady
    | with_reducible apply State.bump_steady
    | with_reducible apply Steady.ite
    | (fail_if_no_progress refine Steady.upd ?_ rfl rfl rfl (by first | rfl | (simp <;> rfl)) (by first | rfl | (simp <;> rfl)) (by first | rfl | (simp <;> rfl)) (by exact fun _ _ h => h) (by first | exact id | (intro hk; (repeat' (first | assumption | split)); done) | simp) (by first | exact id | (intro hk; (repeat' (first | assumption | split)); done) | simp))
    | split

theorem State.freeHazard_steady {s0 s : State} (i : Nat) (sector : Nat) (hst : Steady s0 s) :
    Steady s0 (State.freeHazard i sector s) := by
  unfold State.freeHazard
  repeat' first
    | assumption
    | (intro _)
    | with_reducible apply State.modMse_steady
    | with_reducible apply Steady.ite
    | (fail_if_no_progress refine Steady.upd ?_ rfl rfl rfl (by first | rfl | (simp <;> rfl)) (by first | rfl | (simp <;> rfl)) (by first | rfl | (simp <;> rfl)) (by exact fun _ _ h => h) (by first | exact id | (intro hk; (repeat' (first | assumption | split)); done) | simp) (by first | exact id | (intro hk; (repeat' (first | assumption | split)); done) | simp))
    | split

theorem State.hazardWaited_steady {s0 s : State} (i : Nat) (rs : List HostReq) (hst : Steady s0 s) :
    Steady s0 (State.hazardWaited i rs s) := by
  unfold State.hazardWaited
  repeat' first
    | assumption
    | (intro _)
    | with_reducible apply State.ringRecord_steady
    | with_reducible apply Steady.foldl

theorem State.hazardRun_steady {s0 s : State} (n i sector : Nat) (hst : Steady s0 s) : Steady s0 (State.hazardRun n i sector s) := by
  induction n generalizing s with
  | zero => exact State.freeHazard_steady _ _ hst
  | succ n ih => exact ih (State.hazardWaited_steady _ _ (State.hazardStep_steady _ _ (State.modMse_steady _ _ hst)))

theorem State.advance_steady {s0 s : State} (i : Nat) (sector : Nat) (hst : Steady s0 s) :
    Steady s0 (State.advance i sector s) := by
  unfold State.advance
  repeat' first
    | assumption
    | (intro _)
    | with_reducible apply State.hazardRun_steady
    | (fail_if_no_progress refine Steady.upd ?_ rfl rfl rfl (by first | rfl | (simp <;> rfl)) (by first | rfl | (simp <;> rfl)) (by first | rfl | (simp <;> rfl)) (by exact fun _ _ h => h) (by first | exact id | (intro hk; (repeat' (first | assumption | split)); done) | simp) (by first | exact id | (intro hk; (repeat' (first | assumption | split)); done) | simp))
    | split

theorem State.advanceAll_steady {s0 s : State} (i : Nat) (hst : Steady s0 s) :
    Steady s0 (State.advanceAll i s) := by
  unfold State.advanceAll
  repeat' first
    | assumption
    | (intro _)
    | with_reducible apply State.advance_steady
    | with_reducible apply Steady.foldl
    | (fail_if_no_progress refine Steady.upd ?_ rfl rfl rfl (by first | rfl | (simp <;> rfl)) (by first | rfl | (simp <;> rfl)) (by first | rfl | (simp <;> rfl)) (by exact fun _ _ h => h) (by first | exact id | (intro hk; (repeat' (first | assumption | split)); done) | simp) (by first | exact id | (intro hk; (repeat' (first | assumption | split)); done) | simp))
    | split

theorem State.joinHazard_steady {s0 s : State} (i : Nat) (r : HostReq) (h : Hazard) (hst : Steady s0 s) :
    Steady s0 (State.joinHazard i r h s) := by
  unfold State.joinHazard
  repeat' first
    | assumption
    | (intro _)
    | with_reducible apply State.modMse_steady
    | with_reducible apply State.bump_steady
    | with_reducible apply State.answer_steady
    | with_reducible apply Steady.ite
    | (fail_if_no_progress refine Steady.upd ?_ rfl rfl rfl (by first | rfl | (simp <;> rfl)) (by first | rfl | (simp <;> rfl)) (by first | rfl | (simp <;> rfl)) (by exact fun _ _ h => h) (by first | exact id | (intro hk; (repeat' (first | assumption | split)); done) | simp) (by first | exact id | (intro hk; (repeat' (first | assumption | split)); done) | simp))
    | split

theorem State.place_steady {s0 s : State} (i : Nat) (r : HostReq) (hst : Steady s0 s) :
    Steady s0 (State.place i r s) := by
  unfold State.place
  repeat' first
    | assumption
    | (intro _)
    | (refine State.sealAndQueue_steady ?_ _ (by assumption))
    | with_reducible apply State.queueRead_steady
    | with_reducible apply State.withHazard_steady
    | with_reducible apply State.joinHazard_steady
    | with_reducible apply State.advance_steady
    | with_reducible apply Steady.ite
    | (fail_if_no_progress refine Steady.upd ?_ rfl rfl rfl (by first | rfl | (simp <;> rfl)) (by first | rfl | (simp <;> rfl)) (by first | rfl | (simp <;> rfl)) (by exact fun _ _ h => h) (by first | exact id | (intro hk; (repeat' (first | assumption | split)); done) | simp) (by first | exact id | (intro hk; (repeat' (first | assumption | split)); done) | simp))
    | split
    | dsimp only

theorem State.wantStall_steady {s0 s : State} (id : Nat) (hst : Steady s0 s) :
    Steady s0 (State.wantStall id s) := by
  unfold State.wantStall
  repeat' first
    | assumption
    | (intro _)
    | with_reducible apply Steady.ite
    | (fail_if_no_progress refine Steady.upd ?_ rfl rfl rfl (by first | rfl | (simp <;> rfl)) (by first | rfl | (simp <;> rfl)) (by first | rfl | (simp <;> rfl)) (by exact fun _ _ h => h) (by first | exact id | (intro hk; (repeat' (first | assumption | split)); done) | simp) (by first | exact id | (intro hk; (repeat' (first | assumption | split)); done) | simp))

theorem State.wantKey_steady {s0 s : State} (tile : Nat) (h : Nat) (g : Nat) (hst : Steady s0 s) :
    Steady s0 (State.wantKey tile h g s) := by
  unfold State.wantKey
  repeat' first
    | assumption
    | (intro _)
    | with_reducible apply Steady.ite
    | (fail_if_no_progress refine Steady.upd ?_ rfl rfl rfl (by first | rfl | (simp <;> rfl)) (by first | rfl | (simp <;> rfl)) (by first | rfl | (simp <;> rfl)) (by exact fun _ _ h => h) (by first | exact id | (intro hk; (repeat' (first | assumption | split)); done) | simp) (by first | exact id | (intro hk; (repeat' (first | assumption | split)); done) | simp))

theorem State.hold_steady {s0 s : State} (i : Nat) (r : HostReq) (c : HoldCause) (again : Bool) (hst : Steady s0 s) :
    Steady s0 (State.hold i r c again s) := by
  unfold State.hold
  repeat' first
    | assumption
    | (intro _)
    | with_reducible apply State.modMse_steady
    | with_reducible apply State.bump_steady
    | with_reducible apply State.wantKey_steady
    | with_reducible apply State.wantStall_steady
    | with_reducible apply Steady.ite
    | (fail_if_no_progress refine Steady.upd ?_ rfl rfl rfl (by first | rfl | (simp <;> rfl)) (by first | rfl | (simp <;> rfl)) (by first | rfl | (simp <;> rfl)) (by exact fun _ _ h => h) (by first | exact id | (intro hk; (repeat' (first | assumption | split)); done) | simp) (by first | exact id | (intro hk; (repeat' (first | assumption | split)); done) | simp))
    | split

theorem State.misroute_steady {s0 s : State} (i : Nat) (r : HostReq) (hst : Steady s0 s) :
    Steady s0 (State.misroute i r s) := by
  unfold State.misroute
  repeat' first
    | assumption
    | (intro _)
    | with_reducible apply State.modErr_steady
    | with_reducible apply State.answer_steady
    | with_reducible apply State.event_steady
    | with_reducible apply Steady.ite

theorem State.enterMse_steady {s0 s : State} (i : Nat) (again : Bool) (r : HostReq) (hst : Steady s0 s) :
    Steady s0 (State.enterMse i again r s) := by
  unfold State.enterMse
  split
  · exact hst
  · generalize List.find? _ _ = p
    cases p with
    | some p => exact State.modMse_steady _ _ hst
    | none =>
      generalize State.check _ _ _ _ = v
      cases v
      · exact Steady.ite (State.integrityAll_steady _ _ hst) (State.place_steady _ _ hst)
      · exact State.misroute_steady _ _ hst
      · exact Steady.ite (State.refuse_steady _ _ (State.wantStall_steady _ hst)) (State.refuse_steady _ _ hst)
      · exact State.bumpStall_steady _ _ _ (State.refuse_steady _ _ hst)
      · exact State.integrityAll_steady _ _ hst
      · exact State.answer_steady _ _ _ _ (Steady.upd hst rfl rfl rfl rfl rfl rfl (fun _ _ h => h) id id)
      · exact State.integrityAll_steady _ _ hst
      · exact Steady.withSty (State.answer_steady i .ok [] r hst) _
      · exact State.hold_steady _ _ _ _ hst

theorem State.holdEnded_steady {s0 s : State} (i : Nat) (r : HostReq) (c : HoldCause) (hst : Steady s0 s) :
    Steady s0 (State.holdEnded i r c s) := by
  unfold State.holdEnded
  repeat' first
    | assumption
    | (intro _)
    | with_reducible apply State.ringRecord_steady
    | with_reducible apply Steady.ite
    | (fail_if_no_progress refine Steady.upd ?_ rfl rfl rfl (by first | rfl | (simp <;> rfl)) (by first | rfl | (simp <;> rfl)) (by first | rfl | (simp <;> rfl)) (by exact fun _ _ h => h) (by first | exact id | (intro hk; (repeat' (first | assumption | split)); done) | simp) (by first | exact id | (intro hk; (repeat' (first | assumption | split)); done) | simp))
    | split

theorem State.rerun_steady {s0 s : State} (i : Nat) (hst : Steady s0 s) :
    Steady s0 (State.rerun i s) := by
  unfold State.rerun
  repeat' first
    | assumption
    | (intro _)
    | with_reducible apply State.enterMse_steady
    | with_reducible apply State.holdEnded_steady
    | with_reducible apply State.modMse_steady
    | with_reducible apply Steady.foldl
    | (fail_if_no_progress refine Steady.upd ?_ rfl rfl rfl (by first | rfl | (simp <;> rfl)) (by first | rfl | (simp <;> rfl)) (by first | rfl | (simp <;> rfl)) (by exact fun _ _ h => h) (by first | exact id | (intro hk; (repeat' (first | assumption | split)); done) | simp) (by first | exact id | (intro hk; (repeat' (first | assumption | split)); done) | simp))
    | split

theorem State.rerunAll_steady {s0 s : State} (hst : Steady s0 s) :
    Steady s0 (State.rerunAll s) := by
  unfold State.rerunAll
  repeat' first
    | assumption
    | (intro _)
    | with_reducible apply State.rerun_steady
    | with_reducible apply State.advanceAll_steady
    | with_reducible apply Steady.foldl

theorem State.pollAcks_steady {s0 s : State} (i : Nat) (hst : Steady s0 s) :
    Steady s0 (State.pollAcks i s) := by
  unfold State.pollAcks
  repeat' first
    | assumption
    | (intro _)
    | with_reducible apply State.modMse_steady

theorem State.unlistRegion_steady {s0 s : State} (r : RegionId) (hst : Steady s0 s) :
    Steady s0 (State.unlistRegion r s) := by
  unfold State.unlistRegion
  repeat' first
    | assumption
    | (intro _)
    | (fail_if_no_progress refine Steady.upd ?_ rfl rfl rfl (by first | rfl | (simp <;> rfl)) (by first | rfl | (simp <;> rfl)) (by first | rfl | (simp <;> rfl)) (by exact fun _ _ h => h) (by first | exact id | (intro hk; (repeat' (first | assumption | split)); done) | simp) (by first | exact id | (intro hk; (repeat' (first | assumption | split)); done) | simp))

theorem State.settleChange_steady {s0 s : State} (c : Change) (hst : Steady s0 s) :
    Steady s0 (State.settleChange c s) := by
  unfold State.settleChange
  repeat' first
    | assumption
    | (intro _)
    | with_reducible apply State.writeEntry_steady
    | with_reducible apply State.unlistRegion_steady
    | with_reducible apply State.settle_steady
    | with_reducible apply State.queueItems_steady
    | (fail_if_no_progress refine Steady.upd ?_ rfl rfl rfl (by first | rfl | (simp <;> rfl)) (by first | rfl | (simp <;> rfl)) (by first | rfl | (simp <;> rfl)) (by exact fun _ _ h => h) (by first | exact id | (intro hk; (repeat' (first | assumption | split)); done) | simp) (by first | exact id | (intro hk; (repeat' (first | assumption | split)); done) | simp))
    | split

theorem State.settle_steady {s0 s : State} (hst : Steady s0 s) :
    Steady s0 (State.settle s) := by
  unfold State.settle
  repeat' first
    | assumption
    | (intro _)
    | with_reducible apply State.settleChange_steady
    | with_reducible apply Steady.foldl
    | (fail_if_no_progress refine Steady.upd ?_ rfl rfl rfl (by first | rfl | (simp <;> rfl)) (by first | rfl | (simp <;> rfl)) (by first | rfl | (simp <;> rfl)) (by exact fun _ _ h => h) (by first | exact id | (intro hk; (repeat' (first | assumption | split)); done) | simp) (by first | exact id | (intro hk; (repeat' (first | assumption | split)); done) | simp))

theorem State.endMse_steady {s0 s : State} (i : Nat) (hst : Steady s0 s) :
    Steady s0 (State.endMse i s) := by
  unfold State.endMse
  repeat' first
    | assumption
    | (intro _)
    | with_reducible apply State.pollAcks_steady
    | with_reducible apply State.settle_steady

theorem State.changeEntry_steady {s0 s : State} (r : RegionId) (e : LdgEntry) (goal : Option ChangeGoal) (hst : Steady s0 s) :
    Steady s0 (State.changeEntry r e goal s) := by
  unfold State.changeEntry
  repeat' first
    | assumption
    | (intro _)
    | with_reducible apply State.writeEntry_steady
    | with_reducible apply Steady.ite
    | (fail_if_no_progress refine Steady.upd ?_ rfl rfl rfl (by first | rfl | (simp <;> rfl)) (by first | rfl | (simp <;> rfl)) (by first | rfl | (simp <;> rfl)) (by exact fun _ _ h => h) (by first | exact id | (intro hk; (repeat' (first | assumption | split)); done) | simp) (by first | exact id | (intro hk; (repeat' (first | assumption | split)); done) | simp))

end Sys2Proof.Machine
end

