-- ==== Sys2Proof/Laws/SteadyMse.lean ====
section
/-!
SUPPORT. The operations of Machine/Mse.lean keep what every step keeps (Laws/Steady.lean).
-/

namespace Sys2Proof.Machine

set_option linter.unreachableTactic false
set_option linter.unusedTactic false
set_option linter.unnecessarySeqFocus false

theorem State.acceptHost_steady {s0 s : State} (i : Nat) (r : HostReq) (m : Mse) (hst : Steady s0 s) :
    Steady s0 (State.acceptHost i r m s) := by
  unfold State.acceptHost
  repeat' first
    | assumption
    | (intro _)
    | with_reducible apply State.bump_steady
    | with_reducible apply State.answer_steady
    | with_reducible apply State.bumpStall_steady
    | with_reducible apply State.refuse_steady
    | with_reducible apply State.enterMse_steady
    | with_reducible apply Steady.ite

theorem State.present_steady {s0 s : State} (i : Nat) (o : MemOp) (hst : Steady s0 s) :
    Steady s0 (State.present i o s) := by
  unfold State.present
  repeat' first
    | assumption
    | (intro _)
    | with_reducible apply State.modMse_steady
    | with_reducible apply State.emit_steady
    | with_reducible apply State.bump_steady
    | with_reducible apply State.ringRecord_steady
    | with_reducible apply Steady.ite
    | with_reducible apply Steady.foldl
    | (fail_if_no_progress refine Steady.upd ?_ rfl rfl rfl (by first | rfl | (simp <;> rfl)) (by first | rfl | (simp <;> rfl)) (by first | rfl | (simp <;> rfl)) (by exact fun _ _ h => h) (by first | exact id | (intro hk; (repeat' (first | assumption | split)); done) | simp) (by first | exact id | (intro hk; (repeat' (first | assumption | split)); done) | simp))
    | split

theorem State.sweepDone_steady {s0 s : State} (sector : Nat) (hst : Steady s0 s) :
    Steady s0 (State.sweepDone sector s) := by
  unfold State.sweepDone
  repeat' first
    | assumption
    | (intro _)
    | with_reducible apply Steady.ite
    | (fail_if_no_progress refine Steady.upd ?_ rfl rfl rfl (by first | rfl | (simp <;> rfl)) (by first | rfl | (simp <;> rfl)) (by first | rfl | (simp <;> rfl)) (by exact fun _ _ h => h) (by first | exact id | (intro hk; (repeat' (first | assumption | split)); done) | simp) (by first | exact id | (intro hk; (repeat' (first | assumption | split)); done) | simp))

theorem State.zeroSector_steady {s0 s : State} (i : Nat) (sector : Nat) (lane : Nat) (hst : Steady s0 s) :
    Steady s0 (State.zeroSector i sector lane s) := by
  unfold State.zeroSector
  repeat' first
    | assumption
    | (intro _)
    | (refine State.sealAndQueue_steady ?_ _ (by assumption))
    | (fail_if_no_progress refine Steady.upd ?_ rfl rfl rfl (by first | rfl | (simp <;> rfl)) (by first | rfl | (simp <;> rfl)) (by first | rfl | (simp <;> rfl)) (by exact fun _ _ h => h) (by first | exact id | (intro hk; (repeat' (first | assumption | split)); done) | simp) (by first | exact id | (intro hk; (repeat' (first | assumption | split)); done) | simp))
    | split

theorem State.sweepNext_steady {s0 s : State} (i : Nat) (lane : Nat) (m : Mse) (hst : Steady s0 s) :
    Steady s0 (State.sweepNext i lane m s) := by
  unfold State.sweepNext
  repeat' first
    | assumption
    | (intro _)
    | with_reducible apply State.sweepDone_steady
    | with_reducible apply State.bump_steady
    | with_reducible apply State.zeroSector_steady
    | with_reducible apply State.withHazard_steady
    | with_reducible apply State.modMse_steady
    | with_reducible apply State.queueRead_steady
    | with_reducible apply Steady.ite
    | (fail_if_no_progress refine Steady.upd ?_ rfl rfl rfl (by first | rfl | (simp <;> rfl)) (by first | rfl | (simp <;> rfl)) (by first | rfl | (simp <;> rfl)) (by exact fun _ _ h => h) (by first | exact id | (intro hk; (repeat' (first | assumption | split)); done) | simp) (by first | exact id | (intro hk; (repeat' (first | assumption | split)); done) | simp))
    | split
    | dsimp only

theorem State.reseal_steady {s0 s : State} (i : Nat) (o : MemOp) (ct : Bytes) (sb : Nat) (pt : Bytes) (hst : Steady s0 s) :
    Steady s0 (State.reseal i o ct sb pt s) := by
  unfold State.reseal
  repeat' first
    | assumption
    | (intro _)
    | with_reducible apply State.modMse_steady
    | (refine State.sealAndQueue_steady ?_ _ (by assumption))
    | (fail_if_no_progress refine Steady.upd ?_ rfl rfl rfl (by first | rfl | (simp <;> rfl)) (by first | rfl | (simp <;> rfl)) (by first | rfl | (simp <;> rfl)) (by exact fun _ _ h => h) (by first | exact id | (intro hk; (repeat' (first | assumption | split)); done) | simp) (by first | exact id | (intro hk; (repeat' (first | assumption | split)); done) | simp))
    | split

theorem State.deliver_steady {s0 s : State} (i : Nat) (o : MemOp) (ct : Bytes) (sb : Nat) (pt : Bytes) (hst : Steady s0 s) :
    Steady s0 (State.deliver i o ct sb pt s) := by
  unfold State.deliver
  repeat' first
    | assumption
    | (intro _)
    | with_reducible apply State.reseal_steady
    | with_reducible apply State.modMse_steady
    | with_reducible apply State.answerAll_steady
    | with_reducible apply State.advance_steady
    | with_reducible apply Steady.ite
    | (fail_if_no_progress refine Steady.upd ?_ rfl rfl rfl (by first | rfl | (simp <;> rfl)) (by first | rfl | (simp <;> rfl)) (by first | rfl | (simp <;> rfl)) (by exact fun _ _ h => h) (by first | exact id | (intro hk; (repeat' (first | assumption | split)); done) | simp) (by first | exact id | (intro hk; (repeat' (first | assumption | split)); done) | simp))
    | split

theorem State.mseAlarm_steady {s0 s : State} (i : Nat) (word : Nat) (stall : Option Nat) (charged : Option Nat) (hst : Steady s0 s) :
    Steady s0 (State.mseAlarm i word stall charged s) := by
  unfold State.mseAlarm
  repeat' first
    | assumption
    | (intro _)
    | with_reducible apply State.modErr_steady
    | with_reducible apply State.alarmIntegrity_steady

theorem State.repairLane_steady {s0 s : State} (i : Nat) (l : Nat) (hst : Steady s0 s) :
    Steady s0 (State.repairLane i l s) := by
  unfold State.repairLane
  repeat' first
    | assumption
    | (intro _)
    | with_reducible apply State.event_steady
    | with_reducible apply State.modErr_steady
    | with_reducible apply Steady.ite
    | (fail_if_no_progress refine Steady.upd ?_ rfl rfl rfl (by first | rfl | (simp <;> rfl)) (by first | rfl | (simp <;> rfl)) (by first | rfl | (simp <;> rfl)) (by exact fun _ _ h => h) (by first | exact id | (intro hk; (repeat' (first | assumption | split)); done) | simp) (by first | exact id | (intro hk; (repeat' (first | assumption | split)); done) | simp))
    | split

theorem State.failServed_steady {s0 s : State} (i : Nat) (o : MemOp) (hst : Steady s0 s) :
    Steady s0 (State.failServed i o s) := by
  unfold State.failServed
  repeat' first
    | assumption
    | (intro _)
    | with_reducible apply State.modMse_steady
    | with_reducible apply State.integrityAll_steady
    | with_reducible apply State.sweepDone_steady
    | with_reducible apply State.advance_steady
    | with_reducible apply Steady.ite
    | (fail_if_no_progress refine Steady.upd ?_ rfl rfl rfl (by first | rfl | (simp <;> rfl)) (by first | rfl | (simp <;> rfl)) (by first | rfl | (simp <;> rfl)) (by exact fun _ _ h => h) (by first | exact id | (intro hk; (repeat' (first | assumption | split)); done) | simp) (by first | exact id | (intro hk; (repeat' (first | assumption | split)); done) | simp))
    | split

theorem State.classify_steady {s0 s : State} (i : Nat) (o : MemOp) (laneOk : Bool) (secondOk : Bool) (hst : Steady s0 s) :
    Steady s0 (State.classify i o laneOk secondOk s) := by
  unfold State.classify
  repeat' first
    | assumption
    | (intro _)
    | with_reducible apply State.sounding_steady
    | with_reducible apply State.mseAlarm_steady
    | with_reducible apply State.listSector_steady
    | with_reducible apply State.repairLane_steady
    | with_reducible apply State.failServed_steady
    | with_reducible apply Steady.ite
    | (fail_if_no_progress refine Steady.upd ?_ rfl rfl rfl (by first | rfl | (simp <;> rfl)) (by first | rfl | (simp <;> rfl)) (by first | rfl | (simp <;> rfl)) (by exact fun _ _ h => h) (by first | exact id | (intro hk; (repeat' (first | assumption | split)); done) | simp) (by first | exact id | (intro hk; (repeat' (first | assumption | split)); done) | simp))
    | split

theorem State.soundingStep_steady {s0 s : State} (i : Nat) (o : MemOp) (o' : MemOp) (hst : Steady s0 s) :
    Steady s0 (State.soundingStep i o o' s) := by
  unfold State.soundingStep
  repeat' first
    | assumption
    | (intro _)
    | with_reducible apply State.modMse_steady
    | with_reducible apply State.classify_steady
    | (fail_if_no_progress refine Steady.upd ?_ rfl rfl rfl (by first | rfl | (simp <;> rfl)) (by first | rfl | (simp <;> rfl)) (by first | rfl | (simp <;> rfl)) (by exact fun _ _ h => h) (by first | exact id | (intro hk; (repeat' (first | assumption | split)); done) | simp) (by first | exact id | (intro hk; (repeat' (first | assumption | split)); done) | simp))
    | split

theorem State.failRead_steady {s0 s : State} (i : Nat) (o : MemOp) (check : Nat) (hst : Steady s0 s) :
    Steady s0 (State.failRead i o check s) := by
  unfold State.failRead
  repeat' first
    | assumption
    | (intro _)
    | with_reducible apply State.modMse_steady
    | with_reducible apply State.bump_steady
    | with_reducible apply State.soundingStep_steady
    | (fail_if_no_progress refine Steady.upd ?_ rfl rfl rfl (by first | rfl | (simp <;> rfl)) (by first | rfl | (simp <;> rfl)) (by first | rfl | (simp <;> rfl)) (by exact fun _ _ h => h) (by first | exact id | (intro hk; (repeat' (first | assumption | split)); done) | simp) (by first | exact id | (intro hk; (repeat' (first | assumption | split)); done) | simp))
    | split

theorem State.takeVerdict_steady {s0 s : State} (i : Nat) (o : MemOp) (ct : Bytes) (sb : Nat) (v : BeatVerdict) (hst : Steady s0 s) :
    Steady s0 (State.takeVerdict i o ct sb v s) := by
  unfold State.takeVerdict
  repeat' first
    | assumption
    | (intro _)
    | with_reducible apply State.modMse_steady
    | with_reducible apply State.bump_steady
    | with_reducible apply State.reseal_steady
    | with_reducible apply State.failRead_steady
    | with_reducible apply State.deliver_steady
    | with_reducible apply State.modErr_steady
    | with_reducible apply State.event_steady
    | with_reducible apply State.soundingStep_steady
    | with_reducible apply Steady.ite
    | (fail_if_no_progress refine Steady.upd ?_ rfl rfl rfl (by first | rfl | (simp <;> rfl)) (by first | rfl | (simp <;> rfl)) (by first | rfl | (simp <;> rfl)) (by exact fun _ _ h => h) (by first | exact id | (intro hk; (repeat' (first | assumption | split)); done) | simp) (by first | exact id | (intro hk; (repeat' (first | assumption | split)); done) | simp))
    | split

theorem State.retryBeats_steady {s0 s : State} (i : Nat) (hst : Steady s0 s) : Steady s0 (State.retryBeats i s) := by
  unfold State.retryBeats
  generalize s.mse[i]? = e
  cases e with
  | none => exact hst
  | some m =>
    refine Steady.foldl hst fun t o ht => ?_
    generalize t.mse[i]? = e
    cases e with
    | none => exact ht
    | some m =>
      dsimp only
      generalize t.verifyBeat i m o o.data o.sb = v
      cases v with
      | wait => exact ht
      | _ => exact State.takeVerdict_steady _ _ _ _ _ ht

theorem State.tagBeat_steady {s0 s : State} (i : Nat) (o : MemOp) (data : Bytes) (err : Bool) (hst : Steady s0 s) :
    Steady s0 (State.tagBeat i o data err s) := by
  unfold State.tagBeat
  repeat' first
    | assumption
    | (intro _)
    | with_reducible apply State.modMse_steady
    | with_reducible apply State.failRead_steady
    | with_reducible apply State.retryBeats_steady
    | with_reducible apply State.rerun_steady
    | with_reducible apply State.advanceAll_steady
    | with_reducible apply Steady.ite
    | with_reducible apply Steady.foldl

theorem State.dataAcked_steady {s0 s : State} (i : Nat) (sector : Nat) (st : PortStatus) (reqs : List HostReq) (hst : Steady s0 s) :
    Steady s0 (State.dataAcked i sector st reqs s) := by
  unfold State.dataAcked
  repeat' first
    | assumption
    | (intro _)
    | with_reducible apply State.answerAll_steady
    | with_reducible apply State.modMse_steady
    | with_reducible apply Steady.ite
    | (fail_if_no_progress refine Steady.upd ?_ rfl rfl rfl (by first | rfl | (simp <;> rfl)) (by first | rfl | (simp <;> rfl)) (by first | rfl | (simp <;> rfl)) (by exact fun _ _ h => h) (by first | exact id | (intro hk; (repeat' (first | assumption | split)); done) | simp) (by first | exact id | (intro hk; (repeat' (first | assumption | split)); done) | simp))
    | split

theorem State.tagAcked_steady {s0 s : State} (i : Nat) (line : Nat) (st : PortStatus) (hst : Steady s0 s) :
    Steady s0 (State.tagAcked i line st s) := by
  unfold State.tagAcked
  repeat' first
    | assumption
    | (intro _)
    | with_reducible apply State.dataAcked_steady
    | with_reducible apply State.modMse_steady
    | with_reducible apply State.answerAll_steady
    | with_reducible apply Steady.ite
    | (fail_if_no_progress refine Steady.upd ?_ rfl rfl rfl (by first | rfl | (simp <;> rfl)) (by first | rfl | (simp <;> rfl)) (by first | rfl | (simp <;> rfl)) (by exact fun _ _ h => h) (by first | exact id | (intro hk; (repeat' (first | assumption | split)); done) | simp) (by first | exact id | (intro hk; (repeat' (first | assumption | split)); done) | simp))
    | split

theorem State.meterOwner_steady {s0 s : State} (sector : Nat) (st : PortStatus) (hst : Steady s0 s) :
    Steady s0 (State.meterOwner sector st s) := by
  unfold State.meterOwner
  generalize s.regionOf (sectorAddr sector) = r
  cases r with
  | none => exact hst
  | some r => exact Steady.ite (State.meter_steady _ _ _ hst) hst

theorem State.ackWrite_steady {s0 s : State} (i : Nat) (o : MemOp) (st : PortStatus) (hst : Steady s0 s) :
    Steady s0 (State.ackWrite i o st s) := by
  unfold State.ackWrite
  repeat' first
    | assumption
    | (intro _)
    | with_reducible apply State.modMse_steady
    | with_reducible apply State.bump_steady
    | with_reducible apply State.unlistSector_steady
    | with_reducible apply State.dataAcked_steady
    | with_reducible apply State.meterOwner_steady
    | with_reducible apply State.sweepDone_steady
    | with_reducible apply State.tagAcked_steady
    | with_reducible apply State.advance_steady
    | with_reducible apply Steady.ite
    | (fail_if_no_progress refine Steady.upd ?_ rfl rfl rfl (by first | rfl | (simp <;> rfl)) (by first | rfl | (simp <;> rfl)) (by first | rfl | (simp <;> rfl)) (by exact fun _ _ h => h) (by first | exact id | (intro hk; (repeat' (first | assumption | split)); done) | simp) (by first | exact id | (intro hk; (repeat' (first | assumption | split)); done) | simp))
    | split

theorem State.squashStall_steady {s0 s : State} (i : Nat) (stall : Nat) (hst : Steady s0 s) :
    Steady s0 (State.squashStall i stall s) := by
  unfold State.squashStall
  repeat' first
    | assumption
    | (intro _)
    | with_reducible apply State.modMse_steady
    | with_reducible apply State.answerAll_steady
    | with_reducible apply State.advanceAll_steady
    | with_reducible apply Steady.ite
    | (fail_if_no_progress refine Steady.upd ?_ rfl rfl rfl (by first | rfl | (simp <;> rfl)) (by first | rfl | (simp <;> rfl)) (by first | rfl | (simp <;> rfl)) (by exact fun _ _ h => h) (by first | exact id | (intro hk; (repeat' (first | assumption | split)); done) | simp) (by first | exact id | (intro hk; (repeat' (first | assumption | split)); done) | simp))
    | split

theorem State.creditUses_steady {s0 s : State} (h : Nat) (g : Nat) (n : Nat) (hst : Steady s0 s) :
    Steady s0 (State.creditUses h g n s) := by
  unfold State.creditUses
  repeat' first
    | assumption
    | (intro _)
    | with_reducible apply State.modStallData_steady
    | with_reducible apply Steady.ite
    | (fail_if_no_progress refine Steady.upd ?_ rfl rfl rfl (by first | rfl | (simp <;> rfl)) (by first | rfl | (simp <;> rfl)) (by first | rfl | (simp <;> rfl)) (by exact fun _ _ h => h) (by first | exact id | (intro hk; (repeat' (first | assumption | split)); done) | simp) (by first | exact id | (intro hk; (repeat' (first | assumption | split)); done) | simp))

theorem State.dropTileKey_steady {s0 s : State} (k : TileKey) (hst : Steady s0 s) :
    Steady s0 (State.dropTileKey k s) := by
  unfold State.dropTileKey
  repeat' first
    | assumption
    | (intro _)
    | with_reducible apply State.creditUses_steady
    | (fail_if_no_progress refine Steady.upd ?_ rfl rfl rfl (by first | rfl | (simp <;> rfl)) (by first | rfl | (simp <;> rfl)) (by first | rfl | (simp <;> rfl)) (by exact fun _ _ h => h) (by first | exact id | (intro hk; (repeat' (first | assumption | split)); done) | simp) (by first | exact id | (intro hk; (repeat' (first | assumption | split)); done) | simp))

theorem State.fillTileKey_steady {s0 s : State} (tile : Nat) (h : Nat) (g : Nat) (material : Bytes) (hst : Steady s0 s) :
    Steady s0 (State.fillTileKey tile h g material s) := by
  unfold State.fillTileKey
  repeat' first
    | assumption
    | (intro _)
    | with_reducible apply State.dropTileKey_steady
    | with_reducible apply State.bump_steady
    | with_reducible apply Steady.ite
    | (fail_if_no_progress refine Steady.upd ?_ rfl rfl rfl (by first | rfl | (simp <;> rfl)) (by first | rfl | (simp <;> rfl)) (by first | rfl | (simp <;> rfl)) (by exact fun _ _ h => h) (by first | exact id | (intro hk; (repeat' (first | assumption | split)); done) | simp) (by first | exact id | (intro hk; (repeat' (first | assumption | split)); done) | simp))
    | split

end Sys2Proof.Machine
end

