-- ==== Sys2Proof/Laws/SteadyKeys.lean ====
section
/-!
SUPPORT. The operations of Machine/Keys.lean keep what every step keeps (Laws/Steady.lean).
-/

namespace Sys2Proof.Machine

set_option linter.unreachableTactic false
set_option linter.unusedTactic false
set_option linter.unnecessarySeqFocus false

theorem State.saveUse_steady {s0 s : State} (k : KeySlot) (hst : Steady s0 s) :
    Steady s0 (State.saveUse k s) := by
  unfold State.saveUse
  repeat' first
    | assumption
    | (intro _)
    | with_reducible apply State.modStallData_steady

theorem State.evict_steady {s0 s : State} (n : Nat) (hst : Steady s0 s) :
    Steady s0 (State.evict n s) := by
  unfold State.evict
  repeat' first
    | assumption
    | (intro _)
    | with_reducible apply State.saveUse_steady
    | with_reducible apply State.bump_steady
    | (fail_if_no_progress refine Steady.upd ?_ rfl rfl rfl (by first | rfl | (simp <;> rfl)) (by first | rfl | (simp <;> rfl)) (by first | rfl | (simp <;> rfl)) (by exact fun _ _ h => h) (by first | exact id | (intro hk; (repeat' (first | assumption | split)); done) | simp) (by first | exact id | (intro hk; (repeat' (first | assumption | split)); done) | simp))
    | split

theorem State.placeKey_steady {s0 s : State} {k : KeySlot} (hst : Steady s0 s) (t : State) (e : s.placeKey k = some t) : Steady s0 t := by
  unfold State.placeKey at e
  split at e
  · cases e
    exact Steady.upd hst rfl rfl rfl rfl rfl rfl (fun _ _ h => h) id id
  · cases hv : s.sbx.victim with
    | none => rw [hv] at e; cases e
    | some n =>
      rw [hv] at e
      cases e
      exact Steady.upd (State.evict_steady n hst) rfl rfl rfl rfl rfl rfl (fun _ _ h => h) id id

theorem State.eraseKey_steady {s0 s : State} (h : Nat) (g : Nat) (hst : Steady s0 s) :
    Steady s0 (State.eraseKey h g s) := by
  unfold State.eraseKey
  repeat' first
    | assumption
    | (intro _)
    | (fail_if_no_progress refine Steady.upd ?_ rfl rfl rfl (by first | rfl | (simp <;> rfl)) (by first | rfl | (simp <;> rfl)) (by first | rfl | (simp <;> rfl)) (by exact fun _ _ h => h) (by first | exact id | (intro hk; (repeat' (first | assumption | split)); done) | simp) (by first | exact id | (intro hk; (repeat' (first | assumption | split)); done) | simp))

theorem State.orderRegion_steady {s0 s : State} (kind : SweepKind) (stall : Nat) (old : Nat) (new : Nat) (bootOld : Bool) (r : RegionId) (hst : Steady s0 s) :
    Steady s0 (State.orderRegion kind stall old new bootOld r s) := by
  unfold State.orderRegion
  repeat' first
    | assumption
    | (intro _)
    | with_reducible apply State.writeEntry_steady
    | with_reducible apply State.queueItems_steady
    | with_reducible apply State.spineMses_steady
    | (fail_if_no_progress refine Steady.upd ?_ rfl rfl rfl (by first | rfl | (simp <;> rfl)) (by first | rfl | (simp <;> rfl)) (by first | rfl | (simp <;> rfl)) (by exact fun _ _ h => h) (by first | exact id | (intro hk; (repeat' (first | assumption | split)); done) | simp) (by first | exact id | (intro hk; (repeat' (first | assumption | split)); done) | simp))

theorem State.orderKeySweep_steady {s0 s : State} (stall : Nat) (old : Nat) (new : Nat) (hst : Steady s0 s) :
    Steady s0 (State.orderKeySweep stall old new s) := by
  unfold State.orderKeySweep
  repeat' first
    | assumption
    | (intro _)
    | with_reducible apply State.orderRegion_steady
    | with_reducible apply Steady.foldl
    | (fail_if_no_progress refine Steady.upd ?_ rfl rfl rfl (by first | rfl | (simp <;> rfl)) (by first | rfl | (simp <;> rfl)) (by first | rfl | (simp <;> rfl)) (by exact fun _ _ h => h) (by first | exact id | (intro hk; (repeat' (first | assumption | split)); done) | simp) (by first | exact id | (intro hk; (repeat' (first | assumption | split)); done) | simp))

theorem State.wearBand_steady {s0 s : State} (stall : Nat) (hst : Steady s0 s) :
    Steady s0 (State.wearBand stall s) := by
  unfold State.wearBand
  repeat' first
    | assumption
    | (intro _)
    | with_reducible apply Steady.ite
    | (fail_if_no_progress refine Steady.upd ?_ rfl rfl rfl (by first | rfl | (simp <;> rfl)) (by first | rfl | (simp <;> rfl)) (by first | rfl | (simp <;> rfl)) (by exact fun _ _ h => h) (by first | exact id | (intro hk; (repeat' (first | assumption | split)); done) | simp) (by first | exact id | (intro hk; (repeat' (first | assumption | split)); done) | simp))

theorem State.rotateRegion_steady {s0 s : State} (stall : Nat) (e : KeyEntry) (hst : Steady s0 s) :
    Steady s0 (State.rotateRegion stall e s) := by
  unfold State.rotateRegion
  repeat' first
    | assumption
    | (intro _)
    | with_reducible apply State.tookDraw_steady
    | with_reducible apply State.emit_steady
    | with_reducible apply State.setStallData_steady
    | (refine State.placeKey_steady ?_ _ (by assumption))
    | with_reducible apply State.orderKeySweep_steady
    | (fail_if_no_progress refine Steady.upd ?_ rfl rfl rfl (by first | rfl | (simp <;> rfl)) (by first | rfl | (simp <;> rfl)) (by first | rfl | (simp <;> rfl)) (by exact fun _ _ h => h) (by first | exact id | (intro hk; (repeat' (first | assumption | split)); done) | simp) (by first | exact id | (intro hk; (repeat' (first | assumption | split)); done) | simp))
    | split

theorem State.regionWear_steady {s0 s : State} (h : Nat) (g : Nat) (blobOk : Bool) (hst : Steady s0 s) :
    Steady s0 (State.regionWear h g blobOk s) := by
  unfold State.regionWear
  repeat' first
    | assumption
    | (intro _)
    | with_reducible apply State.wearBand_steady
    | with_reducible apply State.event_steady
    | with_reducible apply State.rotateRegion_steady
    | with_reducible apply Steady.ite
    | (fail_if_no_progress refine Steady.upd ?_ rfl rfl rfl (by first | rfl | (simp <;> rfl)) (by first | rfl | (simp <;> rfl)) (by first | rfl | (simp <;> rfl)) (by exact fun _ _ h => h) (by first | exact id | (intro hk; (repeat' (first | assumption | split)); done) | simp) (by first | exact id | (intro hk; (repeat' (first | assumption | split)); done) | simp))
    | split

end Sys2Proof.Machine
end

