-- ==== Sys2Proof/Laws/SteadyOperands.lean ====
section
/-!
SUPPORT. The operations of Machine/Operands.lean keep what every step keeps (Laws/Steady.lean).
-/

namespace Sys2Proof.Machine

set_option linter.unreachableTactic false
set_option linter.unusedTactic false
set_option linter.unnecessarySeqFocus false

theorem State.command_steady {s0 s : State} (c : Call) (op : Nat) (body : State → State) (hbody : ∀ t, Steady s0 t → Steady s0 (body t)) (hst : Steady s0 s) :
    Steady s0 (State.command c op body s) := by
  unfold State.command
  repeat' first
    | assumption
    | (intro _)
    | with_reducible apply State.begin_steady
    | with_reducible apply State.finish_steady
    | with_reducible apply State.wantStall_steady
    | with_reducible apply Steady.ite
    | (fail_if_no_progress refine Steady.upd ?_ rfl rfl rfl (by first | rfl | (simp <;> rfl)) (by first | rfl | (simp <;> rfl)) (by first | rfl | (simp <;> rfl)) (by exact fun _ _ h => h) (by first | exact id | (intro hk; (repeat' (first | assumption | split)); done) | simp) (by first | exact id | (intro hk; (repeat' (first | assumption | split)); done) | simp))
    | split
    | apply hbody

theorem State.badArg_steady {s0 s : State} (c : Call) (off : Nat) (hst : Steady s0 s) :
    Steady s0 (State.badArg c off s) := by
  unfold State.badArg
  repeat' first
    | assumption
    | (intro _)
    | with_reducible apply State.finishDetail_steady

theorem State.withEntropy_steady {s0 s : State} (c : Call) (body : State → State) (hbody : ∀ t, Steady s0 t → Steady s0 (body t)) (hst : Steady s0 s) :
    Steady s0 (State.withEntropy c body s) := by
  unfold State.withEntropy
  repeat' first
    | assumption
    | (intro _)
    | with_reducible apply State.waitEnd_steady
    | with_reducible apply State.waitBegin_steady
    | with_reducible apply Steady.ite
    | (fail_if_no_progress refine Steady.upd ?_ rfl rfl rfl (by first | rfl | (simp <;> rfl)) (by first | rfl | (simp <;> rfl)) (by first | rfl | (simp <;> rfl)) (by exact fun _ _ h => h) (by first | exact id | (intro hk; (repeat' (first | assumption | split)); done) | simp) (by first | exact id | (intro hk; (repeat' (first | assumption | split)); done) | simp))
    | split
    | apply hbody

theorem State.output_steady {s0 s : State} (c : Call) (addr : Nat) (room : Nat) (data : Bytes) (ok : Bool) (body : State → State) (hbody : ∀ t, Steady s0 t → Steady s0 (body t)) (hst : Steady s0 s) :
    Steady s0 (State.output c addr room data ok body s) := by
  unfold State.output
  repeat' first
    | assumption
    | (intro _)
    | with_reducible apply State.complete_steady
    | with_reducible apply State.emit_steady
    | with_reducible apply State.finish_steady
    | with_reducible apply Steady.ite
    | (fail_if_no_progress refine Steady.upd ?_ rfl rfl rfl (by first | rfl | (simp <;> rfl)) (by first | rfl | (simp <;> rfl)) (by first | rfl | (simp <;> rfl)) (by exact fun _ _ h => h) (by first | exact id | (intro hk; (repeat' (first | assumption | split)); done) | simp) (by first | exact id | (intro hk; (repeat' (first | assumption | split)); done) | simp))
    | split
    | apply hbody

theorem State.input_steady {s0 s : State} (c : Call) (b : BufRead) (body : Bytes → State → State) (hbody : ∀ a0 t, Steady s0 t → Steady s0 (body a0 t)) (hst : Steady s0 s) :
    Steady s0 (State.input c b body s) := by
  unfold State.input
  repeat' first
    | assumption
    | (intro _)
    | with_reducible apply State.finish_steady
    | (fail_if_no_progress refine Steady.upd ?_ rfl rfl rfl (by first | rfl | (simp <;> rfl)) (by first | rfl | (simp <;> rfl)) (by first | rfl | (simp <;> rfl)) (by exact fun _ _ h => h) (by first | exact id | (intro hk; (repeat' (first | assumption | split)); done) | simp) (by first | exact id | (intro hk; (repeat' (first | assumption | split)); done) | simp))
    | split
    | apply hbody

end Sys2Proof.Machine
end

