-- ==== Sys2Proof/Laws/SteadyLinkCore.lean ====
section
/-!
SUPPORT. The operations of Machine/LinkCore.lean keep what every step keeps (Laws/Steady.lean).
-/

namespace Sys2Proof.Machine

set_option linter.unreachableTactic false
set_option linter.unusedTactic false
set_option linter.unnecessarySeqFocus false

theorem State.modLse_steady {s0 s : State} (i : Nat) (f : Lse → Lse) (hst : Steady s0 s) :
    Steady s0 (State.modLse i f s) := by
  unfold State.modLse
  repeat' first
    | assumption
    | (intro _)
    | (fail_if_no_progress refine Steady.upd ?_ rfl rfl rfl (by first | rfl | (simp <;> rfl)) (by first | rfl | (simp <;> rfl)) (by first | rfl | (simp <;> rfl)) (by exact fun _ _ h => h) (by first | exact id | (intro hk; (repeat' (first | assumption | split)); done) | simp) (by first | exact id | (intro hk; (repeat' (first | assumption | split)); done) | simp))

theorem State.modHse_steady {s0 s : State} (i : Nat) (f : Hse → Hse) (hst : Steady s0 s) :
    Steady s0 (State.modHse i f s) := by
  unfold State.modHse
  repeat' first
    | assumption
    | (intro _)
    | (fail_if_no_progress refine Steady.upd ?_ rfl rfl rfl (by first | rfl | (simp <;> rfl)) (by first | rfl | (simp <;> rfl)) (by first | rfl | (simp <;> rfl)) (by exact fun _ _ h => h) (by first | exact id | (intro hk; (repeat' (first | assumption | split)); done) | simp) (by first | exact id | (intro hk; (repeat' (first | assumption | split)); done) | simp))

theorem State.pinLink_steady {s0 s : State} (h : Nat) (want : Option (Nat × Bytes)) (hst : Steady s0 s) :
    Steady s0 (State.pinLink h want s) := by
  unfold State.pinLink
  repeat' first
    | assumption
    | (intro _)
    | (refine State.placeKey_steady ?_ _ (by assumption))
    | with_reducible apply Steady.ite
    | (fail_if_no_progress refine Steady.upd ?_ rfl rfl rfl (by first | rfl | (simp <;> rfl)) (by first | rfl | (simp <;> rfl)) (by first | rfl | (simp <;> rfl)) (by exact fun _ _ h => h) (by first | exact id | (intro hk; (repeat' (first | assumption | split)); done) | simp) (by first | exact id | (intro hk; (repeat' (first | assumption | split)); done) | simp))
    | split
    | dsimp only

theorem State.syncLink_steady {s0 s : State} (i : Nat) (hst : Steady s0 s) :
    Steady s0 (State.syncLink i s) := by
  unfold State.syncLink
  repeat' first
    | assumption
    | (intro _)
    | with_reducible apply State.pinLink_steady
    | with_reducible apply Steady.ite
    | (fail_if_no_progress refine Steady.upd ?_ rfl rfl rfl (by first | rfl | (simp <;> rfl)) (by first | rfl | (simp <;> rfl)) (by first | rfl | (simp <;> rfl)) (by exact fun _ _ h => h) (by first | exact id | (intro hk; (repeat' (first | assumption | split)); done) | simp) (by first | exact id | (intro hk; (repeat' (first | assumption | split)); done) | simp))
    | split

theorem State.sendUnit_steady {s0 s : State} (i : Nat) (u : UnitSpec) (hst : Steady s0 s) :
    Steady s0 (State.sendUnit i u s) := by
  unfold State.sendUnit
  repeat' first
    | assumption
    | (intro _)
    | with_reducible apply State.modLse_steady
    | with_reducible apply State.syncLink_steady
    | with_reducible apply State.bump_steady
    | with_reducible apply State.meter_steady
    | with_reducible apply State.event_steady
    | with_reducible apply Steady.ite
    | (fail_if_no_progress refine Steady.upd ?_ rfl rfl rfl (by first | rfl | (simp <;> rfl)) (by first | rfl | (simp <;> rfl)) (by first | rfl | (simp <;> rfl)) (by exact fun _ _ h => h) (by first | exact id | (intro hk; (repeat' (first | assumption | split)); done) | simp) (by first | exact id | (intro hk; (repeat' (first | assumption | split)); done) | simp))
    | split

theorem State.ackRevokes_steady {s0 s : State} (i : Nat) (hst : Steady s0 s) :
    Steady s0 (State.ackRevokes i s) := by
  unfold State.ackRevokes
  repeat' first
    | assumption
    | (intro _)
    | with_reducible apply State.sendUnit_steady
    | with_reducible apply State.modLse_steady
    | with_reducible apply Steady.foldl
    | (fail_if_no_progress refine Steady.upd ?_ rfl rfl rfl (by first | rfl | (simp <;> rfl)) (by first | rfl | (simp <;> rfl)) (by first | rfl | (simp <;> rfl)) (by exact fun _ _ h => h) (by first | exact id | (intro hk; (repeat' (first | assumption | split)); done) | simp) (by first | exact id | (intro hk; (repeat' (first | assumption | split)); done) | simp))
    | split

theorem State.poisonLse_steady {s0 s : State} (i : Nat) (hst : Steady s0 s) :
    Steady s0 (State.poisonLse i s) := by
  unfold State.poisonLse
  repeat' first
    | assumption
    | (intro _)
    | with_reducible apply State.emits_steady
    | with_reducible apply State.modLse_steady
    | with_reducible apply State.bumpStall_steady
    | with_reducible apply Steady.foldl
    | (fail_if_no_progress refine Steady.upd ?_ rfl rfl rfl (by first | rfl | (simp <;> rfl)) (by first | rfl | (simp <;> rfl)) (by first | rfl | (simp <;> rfl)) (by exact fun _ _ h => h) (by first | exact id | (intro hk; (repeat' (first | assumption | split)); done) | simp) (by first | exact id | (intro hk; (repeat' (first | assumption | split)); done) | simp))
    | split

theorem State.dropGrants_steady {s0 s : State} (i : Nat) (hst : Steady s0 s) :
    Steady s0 (State.dropGrants i s) := by
  unfold State.dropGrants
  repeat' first
    | assumption
    | (intro _)
    | with_reducible apply State.finish_steady
    | with_reducible apply Steady.foldl
    | (fail_if_no_progress refine Steady.upd ?_ rfl rfl rfl (by first | rfl | (simp <;> rfl)) (by first | rfl | (simp <;> rfl)) (by first | rfl | (simp <;> rfl)) (by exact fun _ _ h => h) (by first | exact id | (intro hk; (repeat' (first | assumption | split)); done) | simp) (by first | exact id | (intro hk; (repeat' (first | assumption | split)); done) | simp))
    | split

theorem State.lseDown_steady {s0 s : State} (i : Nat) (cause : Nat) (hst : Steady s0 s) :
    Steady s0 (State.lseDown i cause s) := by
  unfold State.lseDown
  repeat' first
    | assumption
    | (intro _)
    | with_reducible apply State.poisonLse_steady
    | with_reducible apply State.modLse_steady
    | with_reducible apply State.dropGrants_steady
    | with_reducible apply State.event_steady
    | with_reducible apply Steady.ite
    | (fail_if_no_progress refine Steady.upd ?_ rfl rfl rfl (by first | rfl | (simp <;> rfl)) (by first | rfl | (simp <;> rfl)) (by first | rfl | (simp <;> rfl)) (by exact fun _ _ h => h) (by first | exact id | (intro hk; (repeat' (first | assumption | split)); done) | simp) (by first | exact id | (intro hk; (repeat' (first | assumption | split)); done) | simp))
    | split

theorem State.startResync_steady {s0 s : State} (i : Nat) (hst : Steady s0 s) :
    Steady s0 (State.startResync i s) := by
  unfold State.startResync
  repeat' first
    | assumption
    | (intro _)
    | with_reducible apply State.modLse_steady

theorem State.installSecret_steady {s0 s : State} (i : Nat) (p : Peer) (secret : Bytes) (estId : Bytes) (hst : Steady s0 s) :
    Steady s0 (State.installSecret i p secret estId s) := by
  unfold State.installSecret
  repeat' first
    | assumption
    | (intro _)
    | with_reducible apply State.modLse_steady
    | with_reducible apply State.syncLink_steady
    | with_reducible apply State.sendUnit_steady
    | with_reducible apply Steady.ite

theorem State.sendMessage_steady {s0 s : State} (i : Nat) (sub : Nat) (msg : Bytes) (hst : Steady s0 s) :
    Steady s0 (State.sendMessage i sub msg s) := by
  unfold State.sendMessage
  repeat' first
    | assumption
    | (intro _)
    | with_reducible apply State.sendUnit_steady
    | with_reducible apply Steady.foldl

theorem State.startJoin_steady {s0 s : State} (i : Nat) (hst : Steady s0 s) :
    Steady s0 (State.startJoin i s) := by
  unfold State.startJoin
  repeat' first
    | assumption
    | (intro _)
    | with_reducible apply State.tookDraw_steady
    | with_reducible apply State.sendMessage_steady
    | with_reducible apply Steady.ite
    | (fail_if_no_progress refine Steady.upd ?_ rfl rfl rfl (by first | rfl | (simp <;> rfl)) (by first | rfl | (simp <;> rfl)) (by first | rfl | (simp <;> rfl)) (by exact fun _ _ h => h) (by first | exact id | (intro hk; (repeat' (first | assumption | split)); done) | simp) (by first | exact id | (intro hk; (repeat' (first | assumption | split)); done) | simp))
    | split

theorem State.renewLink_steady {s0 s : State} (i : Nat) (hst : Steady s0 s) :
    Steady s0 (State.renewLink i s) := by
  unfold State.renewLink
  repeat' first
    | assumption
    | (intro _)
    | with_reducible apply State.tookDraw_steady
    | with_reducible apply State.lseDown_steady
    | with_reducible apply State.startJoin_steady
    | with_reducible apply Steady.ite
    | (fail_if_no_progress refine Steady.upd ?_ rfl rfl rfl (by first | rfl | (simp <;> rfl)) (by first | rfl | (simp <;> rfl)) (by first | rfl | (simp <;> rfl)) (by exact fun _ _ h => h) (by first | exact id | (intro hk; (repeat' (first | assumption | split)); done) | simp) (by first | exact id | (intro hk; (repeat' (first | assumption | split)); done) | simp))
    | split

theorem State.lseFail_steady {s0 s : State} (i : Nat) (check : Nat) (hst : Steady s0 s) :
    Steady s0 (State.lseFail i check s) := by
  unfold State.lseFail
  repeat' first
    | assumption
    | (intro _)
    | with_reducible apply State.modLse_steady
    | with_reducible apply State.bump_steady
    | with_reducible apply State.alarmIntegrity_steady
    | with_reducible apply State.lseDown_steady
    | with_reducible apply Steady.ite

theorem State.modXck_steady {s0 s : State} (b : Nat) (f : XckBinding → XckBinding) (hst : Steady s0 s) :
    Steady s0 (State.modXck b f s) := by
  unfold State.modXck
  repeat' first
    | assumption
    | (intro _)
    | with_reducible apply Steady.ite
    | (fail_if_no_progress refine Steady.upd ?_ rfl rfl rfl (by first | rfl | (simp <;> rfl)) (by first | rfl | (simp <;> rfl)) (by first | rfl | (simp <;> rfl)) (by exact fun _ _ h => h) (by first | exact id | (intro hk; (repeat' (first | assumption | split)); done) | simp) (by first | exact id | (intro hk; (repeat' (first | assumption | split)); done) | simp))

theorem State.xckCompare_steady {s0 s : State} (n : Nat) (b : XckBinding) (first : XckTile) (second : XckTile) (hst : Steady s0 s) :
    Steady s0 (State.xckCompare n b first second s) := by
  unfold State.xckCompare
  repeat' first
    | assumption
    | (intro _)
    | with_reducible apply State.modXck_steady
    | with_reducible apply State.bump_steady
    | with_reducible apply State.event_steady
    | with_reducible apply State.alarmIntegrity_steady
    | with_reducible apply Steady.ite
    | (fail_if_no_progress refine Steady.upd ?_ rfl rfl rfl (by first | rfl | (simp <;> rfl)) (by first | rfl | (simp <;> rfl)) (by first | rfl | (simp <;> rfl)) (by exact fun _ _ h => h) (by first | exact id | (intro hk; (repeat' (first | assumption | split)); done) | simp) (by first | exact id | (intro hk; (repeat' (first | assumption | split)); done) | simp))
    | split

theorem State.xckArrive_steady {s0 s : State} (lse n : Nat) (b : XckBinding) (sideB : Bool) (offset src nbytes : Nat) (tile : Bytes)
    (hst : Steady s0 s) : Steady s0 (State.xckArrive lse n b sideB offset src nbytes tile s) := by
  have h1 {f} : Steady s0 ((s.modXck n f).bump (ctrXck 0) 1) := State.bump_steady _ _ (State.modXck_steady _ _ hst)
  have h2 {t : State} (ht : Steady s0 t) : Steady s0 ((t.bump (ctrXck 1) 1).bump (ctrLse lse 14) 1) :=
    State.bump_steady _ _ (State.bump_steady _ _ ht)
  unfold State.xckArrive
  refine Steady.ite h1 ?_
  generalize List.find? _ _ = w
  cases w with
  | some w => exact State.xckCompare_steady _ _ _ _ (h2 h1)
  | none => exact Steady.ite (State.bump_steady _ _ (State.modXck_steady _ _ (h2 h1))) (State.modXck_steady _ _ (h2 h1))

theorem State.xckUnit_steady {s0 s : State} (lse : Nat) (src : Nat) (addr : Nat) (nbytes : Nat) (tile : Bytes) (hst : Steady s0 s) :
    Steady s0 (State.xckUnit lse src addr nbytes tile s) := by
  unfold State.xckUnit
  repeat' first
    | assumption
    | (intro _)
    | with_reducible apply State.xckArrive_steady
    | with_reducible apply Steady.ite
    | with_reducible apply Steady.foldl

end Sys2Proof.Machine
end

