-- ==== Sys2Proof/Laws/SteadyMeter.lean ====
section
/-!
SUPPORT. The operations of Machine/Meter.lean keep what every step keeps (Laws/Steady.lean).
-/

namespace Sys2Proof.Machine

set_option linter.unreachableTactic false
set_option linter.unusedTactic false
set_option linter.unnecessarySeqFocus false

theorem State.styAccount_steady {s0 s : State} (ch : Nat) (power : Nat) (hst : Steady s0 s) :
    Steady s0 (State.styAccount ch power s) := by
  unfold State.styAccount
  repeat' first
    | assumption
    | (intro _)
    | (fail_if_no_progress refine Steady.upd ?_ rfl rfl rfl (by first | rfl | (simp <;> rfl)) (by first | rfl | (simp <;> rfl)) (by first | rfl | (simp <;> rfl)) (by exact fun _ _ h => h) (by first | exact id | (intro hk; (repeat' (first | assumption | split)); done) | simp) (by first | exact id | (intro hk; (repeat' (first | assumption | split)); done) | simp))

theorem State.stySuspect_steady {s0 s : State} (cause : Nat) (mask : Nat) (hst : Steady s0 s) :
    Steady s0 (State.stySuspect cause mask s) := by
  unfold State.stySuspect
  repeat' first
    | assumption
    | (intro _)
    | with_reducible apply Steady.ite
    | (fail_if_no_progress refine Steady.upd ?_ rfl rfl rfl (by first | rfl | (simp <;> rfl)) (by first | rfl | (simp <;> rfl)) (by first | rfl | (simp <;> rfl)) (by exact fun _ _ h => h) (by first | exact id | (intro hk; (repeat' (first | assumption | split)); done) | simp) (by first | exact id | (intro hk; (repeat' (first | assumption | split)); done) | simp))

theorem State.stySample_steady {s0 s : State} (ch : Nat) (val : Nat) (hst : Steady s0 s) :
    Steady s0 (State.stySample ch val s) := by
  unfold State.stySample
  repeat' first
    | assumption
    | (intro _)
    | with_reducible apply State.styAccount_steady
    | with_reducible apply State.stySuspect_steady
    | with_reducible apply Steady.ite
    | (fail_if_no_progress refine Steady.upd ?_ rfl rfl rfl (by first | rfl | (simp <;> rfl)) (by first | rfl | (simp <;> rfl)) (by first | rfl | (simp <;> rfl)) (by exact fun _ _ h => h) (by first | exact id | (intro hk; (repeat' (first | assumption | split)); done) | simp) (by first | exact id | (intro hk; (repeat' (first | assumption | split)); done) | simp))

theorem State.styDiscard_steady {s0 s : State} (ch : Nat) (hst : Steady s0 s) :
    Steady s0 (State.styDiscard ch s) := by
  unfold State.styDiscard
  repeat' first
    | assumption
    | (intro _)
    | with_reducible apply State.styAccount_steady
    | with_reducible apply State.stySuspect_steady
    | with_reducible apply Steady.ite
    | (fail_if_no_progress refine Steady.upd ?_ rfl rfl rfl (by first | rfl | (simp <;> rfl)) (by first | rfl | (simp <;> rfl)) (by first | rfl | (simp <;> rfl)) (by exact fun _ _ h => h) (by first | exact id | (intro hk; (repeat' (first | assumption | split)); done) | simp) (by first | exact id | (intro hk; (repeat' (first | assumption | split)); done) | simp))

theorem State.styHold_steady {s0 s : State} (hst : Steady s0 s) :
    Steady s0 (State.styHold s) := by
  unfold State.styHold
  repeat' first
    | assumption
    | (intro _)
    | with_reducible apply State.styAccount_steady
    | with_reducible apply Steady.ite
    | with_reducible apply Steady.foldl

theorem State.apportion_steady {s0 s : State} (hst : Steady s0 s) :
    Steady s0 (State.apportion s) := by
  unfold State.apportion
  repeat' first
    | assumption
    | (intro _)
    | with_reducible apply State.styHold_steady
    | with_reducible apply State.stySuspect_steady
    | with_reducible apply State.event_steady
    | with_reducible apply Steady.ite
    | with_reducible apply Steady.foldl
    | (fail_if_no_progress refine Steady.upd ?_ rfl rfl rfl (by first | rfl | (simp <;> rfl)) (by first | rfl | (simp <;> rfl)) (by first | rfl | (simp <;> rfl)) (by exact fun _ _ h => h) (by first | exact id | (intro hk; (repeat' (first | assumption | split)); done) | simp) (by first | exact id | (intro hk; (repeat' (first | assumption | split)); done) | simp))

theorem State.styLatch_steady {s0 s : State} (hst : Steady s0 s) :
    Steady s0 (State.styLatch s) := by
  unfold State.styLatch
  repeat' first
    | assumption
    | (intro _)
    | with_reducible apply State.apportion_steady
    | with_reducible apply Steady.ite
    | (fail_if_no_progress refine Steady.upd ?_ rfl rfl rfl (by first | rfl | (simp <;> rfl)) (by first | rfl | (simp <;> rfl)) (by first | rfl | (simp <;> rfl)) (by exact fun _ _ h => h) (by first | exact id | (intro hk; (repeat' (first | assumption | split)); done) | simp) (by first | exact id | (intro hk; (repeat' (first | assumption | split)); done) | simp))

theorem State.styAdmit_steady {s0 s : State} (stall : Nat) (hst : Steady s0 s) :
    Steady s0 (State.styAdmit stall s) := by
  unfold State.styAdmit
  repeat' first
    | assumption
    | (intro _)
    | (fail_if_no_progress refine Steady.upd ?_ rfl rfl rfl (by first | rfl | (simp <;> rfl)) (by first | rfl | (simp <;> rfl)) (by first | rfl | (simp <;> rfl)) (by exact fun _ _ h => h) (by first | exact id | (intro hk; (repeat' (first | assumption | split)); done) | simp) (by first | exact id | (intro hk; (repeat' (first | assumption | split)); done) | simp))

theorem State.styFinal_steady {s0 s : State} (stall : Nat) (hst : Steady s0 s) :
    Steady s0 (State.styFinal stall s) := by
  unfold State.styFinal
  repeat' first
    | assumption
    | (intro _)
    | with_reducible apply State.apportion_steady
    | with_reducible apply Steady.ite
    | (fail_if_no_progress refine Steady.upd ?_ rfl rfl rfl (by first | rfl | (simp <;> rfl)) (by first | rfl | (simp <;> rfl)) (by first | rfl | (simp <;> rfl)) (by exact fun _ _ h => h) (by first | exact id | (intro hk; (repeat' (first | assumption | split)); done) | simp) (by first | exact id | (intro hk; (repeat' (first | assumption | split)); done) | simp))

end Sys2Proof.Machine
end

