-- ==== Sys2Proof/Laws/SteadyStallCore.lean ====
section
/-!
SUPPORT. The operations of Machine/StallCore.lean keep what every step keeps (Laws/Steady.lean).
-/

namespace Sys2Proof.Machine

set_option linter.unreachableTactic false
set_option linter.unusedTactic false
set_option linter.unnecessarySeqFocus false

theorem State.writeRecord_steady {s0 s : State} (id : Nat) (hst : Steady s0 s) : Steady s0 (State.writeRecord id s) := by
  unfold State.writeRecord
  split
  · exact State.queueItems_steady _ (Steady.with_stl
      (State.setStallData_steady _ _ (State.setStall_steady _ _ (State.emit_steady _ (State.tookDraw_steady hst)))) _)
  · exact hst

theorem State.finishAnchored_steady {s0 s : State} (c : Call) (status : Nat) (result : Bytes) (regions : List RegionId) (items : List DeltaItem) (hst : Steady s0 s) :
    Steady s0 (State.finishAnchored c status result regions items s) := by
  unfold State.finishAnchored
  repeat' first
    | assumption
    | (intro _)
    | with_reducible apply State.complete_steady
    | with_reducible apply Steady.ite
    | (fail_if_no_progress refine Steady.upd ?_ rfl rfl rfl (by first | rfl | (simp <;> rfl)) (by first | rfl | (simp <;> rfl)) (by first | rfl | (simp <;> rfl)) (by exact fun _ _ h => h) (by first | exact id | (intro hk; (repeat' (first | assumption | split)); done) | simp) (by first | exact id | (intro hk; (repeat' (first | assumption | split)); done) | simp))

theorem State.spill_steady {s0 s : State} (slot : Nat) (id : Nat) (hst : Steady s0 s) :
    Steady s0 (State.spill slot id s) := by
  unfold State.spill
  repeat' first
    | assumption
    | (intro _)
    | with_reducible apply State.writeRecord_steady
    | with_reducible apply State.bump_steady
    | (fail_if_no_progress refine Steady.upd ?_ rfl rfl rfl (by first | rfl | (simp <;> rfl)) (by first | rfl | (simp <;> rfl)) (by first | rfl | (simp <;> rfl)) (by exact fun _ _ h => h) (by first | exact id | (intro hk; (repeat' (first | assumption | split)); done) | simp) (by first | exact id | (intro hk; (repeat' (first | assumption | split)); done) | simp))

theorem State.useStall_steady {s0 s : State} (id : Nat) (hst : Steady s0 s) :
    Steady s0 (State.useStall id s) := by
  unfold State.useStall
  repeat' first
    | assumption
    | (intro _)
    | with_reducible apply State.modStallData_steady
    | with_reducible apply Steady.ite

theorem State.poisonStall_steady {s0 s : State} (id : Nat) (hst : Steady s0 s) :
    Steady s0 (State.poisonStall id s) := by
  unfold State.poisonStall
  repeat' first
    | assumption
    | (intro _)
    | with_reducible apply State.emits_steady
    | with_reducible apply State.bumpStall_steady
    | with_reducible apply State.modLse_steady
    | with_reducible apply Steady.foldl
    | (fail_if_no_progress refine Steady.upd ?_ rfl rfl rfl (by first | rfl | (simp <;> rfl)) (by first | rfl | (simp <;> rfl)) (by first | rfl | (simp <;> rfl)) (by exact fun _ _ h => h) (by first | exact id | (intro hk; (repeat' (first | assumption | split)); done) | simp) (by first | exact id | (intro hk; (repeat' (first | assumption | split)); done) | simp))
    | split

theorem State.releaseBooth_steady {s0 s : State} (hst : Steady s0 s) :
    Steady s0 (State.releaseBooth s) := by
  unfold State.releaseBooth
  repeat' first
    | assumption
    | (intro _)
    | (fail_if_no_progress refine Steady.upd ?_ rfl rfl rfl (by first | rfl | (simp <;> rfl)) (by first | rfl | (simp <;> rfl)) (by first | rfl | (simp <;> rfl)) (by exact fun _ _ h => h) (by first | exact id | (intro hk; (repeat' (first | assumption | split)); done) | simp) (by first | exact id | (intro hk; (repeat' (first | assumption | split)); done) | simp))

theorem State.squashBooth_steady {s0 s : State} (status : Nat) (hst : Steady s0 s) :
    Steady s0 (State.squashBooth status s) := by
  unfold State.squashBooth
  repeat' first
    | assumption
    | (intro _)
    | with_reducible apply State.hold_steady
    | with_reducible apply State.releaseBooth_steady
    | with_reducible apply State.complete_steady
    | with_reducible apply Steady.ite
    | (fail_if_no_progress refine Steady.upd ?_ rfl rfl rfl (by first | rfl | (simp <;> rfl)) (by first | rfl | (simp <;> rfl)) (by first | rfl | (simp <;> rfl)) (by exact fun _ _ h => h) (by first | exact id | (intro hk; (repeat' (first | assumption | split)); done) | simp) (by first | exact id | (intro hk; (repeat' (first | assumption | split)); done) | simp))
    | split

theorem State.squashToll_steady {s0 s : State} (status : Nat) (hst : Steady s0 s) :
    Steady s0 (State.squashToll status s) := by
  unfold State.squashToll
  repeat' first
    | assumption
    | (intro _)
    | with_reducible apply State.hold_steady
    | with_reducible apply State.modStallData_steady
    | with_reducible apply State.finish_steady
    | with_reducible apply Steady.ite
    | (fail_if_no_progress refine Steady.upd ?_ rfl rfl rfl (by first | rfl | (simp <;> rfl)) (by first | rfl | (simp <;> rfl)) (by first | rfl | (simp <;> rfl)) (by exact fun _ _ h => h) (by first | exact id | (intro hk; (repeat' (first | assumption | split)); done) | simp) (by first | exact id | (intro hk; (repeat' (first | assumption | split)); done) | simp))
    | split

end Sys2Proof.Machine
end

