-- ==== Sys2Proof/Laws/SteadyBoothCore.lean ====
section
/-!
SUPPORT. The operations of Machine/BoothCore.lean keep what every step keeps (Laws/Steady.lean).
-/

namespace Sys2Proof.Machine

set_option linter.unreachableTactic false
set_option linter.unusedTactic false
set_option linter.unnecessarySeqFocus false

theorem State.writeRange_steady {s0 s : State} (stall : Nat) (addr : Nat) (data : Bytes) (hst : Steady s0 s) :
    Steady s0 (State.writeRange stall addr data s) := by
  unfold State.writeRange
  repeat' first
    | assumption
    | (intro _)
    | with_reducible apply State.emit_steady
    | with_reducible apply Steady.ite
    | with_reducible apply Steady.foldl

theorem State.unlockBooth_steady {s0 s : State} (hst : Steady s0 s) :
    Steady s0 (State.unlockBooth s) := by
  unfold State.unlockBooth
  repeat' first
    | assumption
    | (intro _)
    | with_reducible apply State.finish_steady
    | with_reducible apply Steady.foldl
    | (fail_if_no_progress refine Steady.upd ?_ rfl rfl rfl (by first | rfl | (simp <;> rfl)) (by first | rfl | (simp <;> rfl)) (by first | rfl | (simp <;> rfl)) (by exact fun _ _ h => h) (by first | exact id | (intro hk; (repeat' (first | assumption | split)); done) | simp) (by first | exact id | (intro hk; (repeat' (first | assumption | split)); done) | simp))

theorem State.settleLock_steady {s0 s : State} (hst : Steady s0 s) :
    Steady s0 (State.settleLock s) := by
  unfold State.settleLock
  repeat' first
    | assumption
    | (intro _)
    | with_reducible apply State.unlockBooth_steady
    | with_reducible apply Steady.ite
    | (fail_if_no_progress refine Steady.upd ?_ rfl rfl rfl (by first | rfl | (simp <;> rfl)) (by first | rfl | (simp <;> rfl)) (by first | rfl | (simp <;> rfl)) (by exact fun _ _ h => h) (by first | exact id | (intro hk; (repeat' (first | assumption | split)); done) | simp) (by first | exact id | (intro hk; (repeat' (first | assumption | split)); done) | simp))
    | split

theorem State.boothRaise_steady {s0 s : State} (o : BoothOp) (st : Nat) (hst : Steady s0 s) :
    Steady s0 (State.boothRaise o st s) := by
  unfold State.boothRaise
  repeat' first
    | assumption
    | (intro _)
    | with_reducible apply State.event_steady
    | with_reducible apply Steady.ite

theorem State.countBooth_steady {s0 s : State} (h : Nat) (g : Nat) (n : Nat) (hst : Steady s0 s) :
    Steady s0 (State.countBooth h g n s) := by
  unfold State.countBooth
  repeat' first
    | assumption
    | (intro _)
    | with_reducible apply State.event_steady
    | with_reducible apply Steady.ite
    | (fail_if_no_progress refine Steady.upd ?_ rfl rfl rfl (by first | rfl | (simp <;> rfl)) (by first | rfl | (simp <;> rfl)) (by first | rfl | (simp <;> rfl)) (by exact fun _ _ h => h) (by first | exact id | (intro hk; (repeat' (first | assumption | split)); done) | simp) (by first | exact id | (intro hk; (repeat' (first | assumption | split)); done) | simp))

theorem State.keyBusy_steady {s0 s : State} (h : Nat) (b : Bool) (hst : Steady s0 s) :
    Steady s0 (State.keyBusy h b s) := by
  unfold State.keyBusy
  repeat' first
    | assumption
    | (intro _)
    | with_reducible apply Steady.ite
    | (fail_if_no_progress refine Steady.upd ?_ rfl rfl rfl (by first | rfl | (simp <;> rfl)) (by first | rfl | (simp <;> rfl)) (by first | rfl | (simp <;> rfl)) (by exact fun _ _ h => h) (by first | exact id | (intro hk; (repeat' (first | assumption | split)); done) | simp) (by first | exact id | (intro hk; (repeat' (first | assumption | split)); done) | simp))

theorem State.refuseBooth_steady {s0 s : State} (o : BoothOp) (st : Nat) (hst : Steady s0 s) :
    Steady s0 (State.refuseBooth o st s) := by
  unfold State.refuseBooth
  repeat' first
    | assumption
    | (intro _)
    | with_reducible apply State.boothRaise_steady
    | with_reducible apply State.finish_steady
    | with_reducible apply State.unlockBooth_steady
    | with_reducible apply Steady.ite
    | (fail_if_no_progress refine Steady.upd ?_ rfl rfl rfl (by first | rfl | (simp <;> rfl)) (by first | rfl | (simp <;> rfl)) (by first | rfl | (simp <;> rfl)) (by exact fun _ _ h => h) (by first | exact id | (intro hk; (repeat' (first | assumption | split)); done) | simp) (by first | exact id | (intro hk; (repeat' (first | assumption | split)); done) | simp))

theorem State.startBooth_steady {s0 s : State} (o : BoothOp) (gen : Nat) (hst : Steady s0 s) :
    Steady s0 (State.startBooth o gen s) := by
  unfold State.startBooth
  repeat' first
    | assumption
    | (intro _)
    | with_reducible apply State.tookDraw_steady
    | with_reducible apply State.bump_steady
    | with_reducible apply State.countBooth_steady
    | with_reducible apply State.keyBusy_steady
    | with_reducible apply State.meter_steady
    | with_reducible apply State.progress_steady
    | with_reducible apply Steady.ite
    | (fail_if_no_progress refine Steady.upd ?_ rfl rfl rfl (by first | rfl | (simp <;> rfl)) (by first | rfl | (simp <;> rfl)) (by first | rfl | (simp <;> rfl)) (by exact fun _ _ h => h) (by first | exact id | (intro hk; (repeat' (first | assumption | split)); done) | simp) (by first | exact id | (intro hk; (repeat' (first | assumption | split)); done) | simp))

theorem State.addEntropyWait_steady {s0 s : State} (c : Call) (hst : Steady s0 s) :
    Steady s0 (State.addEntropyWait c s) := by
  unfold State.addEntropyWait
  repeat' first
    | assumption
    | (intro _)
    | (fail_if_no_progress refine Steady.upd ?_ rfl rfl rfl (by first | rfl | (simp <;> rfl)) (by first | rfl | (simp <;> rfl)) (by first | rfl | (simp <;> rfl)) (by exact fun _ _ h => h) (by first | exact id | (intro hk; (repeat' (first | assumption | split)); done) | simp) (by first | exact id | (intro hk; (repeat' (first | assumption | split)); done) | simp))

theorem State.endEntropyWait_steady {s0 s : State} (c : Call) (hst : Steady s0 s) :
    Steady s0 (State.endEntropyWait c s) := by
  unfold State.endEntropyWait
  repeat' first
    | assumption
    | (intro _)
    | (fail_if_no_progress refine Steady.upd ?_ rfl rfl rfl (by first | rfl | (simp <;> rfl)) (by first | rfl | (simp <;> rfl)) (by first | rfl | (simp <;> rfl)) (by exact fun _ _ h => h) (by first | exact id | (intro hk; (repeat' (first | assumption | split)); done) | simp) (by first | exact id | (intro hk; (repeat' (first | assumption | split)); done) | simp))

theorem State.kickBooth_steady {s0 s : State} (n : Nat) (hst : Steady s0 s) : Steady s0 (State.kickBooth n s) := by
  induction n generalizing s with
  | zero => exact hst
  | succ n ih =>
    unfold State.kickBooth
    repeat' first
      | assumption
      | with_reducible apply ih
      | with_reducible apply State.settleLock_steady
      | with_reducible apply State.refuseBooth_steady
      | with_reducible apply State.wantKey_steady
      | with_reducible apply State.waitBegin_steady
      | with_reducible apply State.addEntropyWait_steady
      | with_reducible apply State.startBooth_steady
      | with_reducible apply State.waitEnd_steady
      | with_reducible apply State.endEntropyWait_steady
      | with_reducible apply Steady.ite
      | split
      | dsimp only

theorem State.staleBooth_steady {s0 s : State} (h : Nat) (hst : Steady s0 s) :
    Steady s0 (State.staleBooth h s) := by
  unfold State.staleBooth
  repeat' first
    | assumption
    | (intro _)
    | with_reducible apply State.refuseBooth_steady
    | with_reducible apply Steady.foldl

theorem State.dropWaiting_steady {s0 s : State} (c : Call) (hst : Steady s0 s) :
    Steady s0 (State.dropWaiting c s) := by
  unfold State.dropWaiting
  repeat' first
    | assumption
    | (intro _)
    | with_reducible apply State.hold_steady
    | with_reducible apply Steady.ite
    | (fail_if_no_progress refine Steady.upd ?_ rfl rfl rfl (by first | rfl | (simp <;> rfl)) (by first | rfl | (simp <;> rfl)) (by first | rfl | (simp <;> rfl)) (by exact fun _ _ h => h) (by first | exact id | (intro hk; (repeat' (first | assumption | split)); done) | simp) (by first | exact id | (intro hk; (repeat' (first | assumption | split)); done) | simp))

end Sys2Proof.Machine
end

