-- ==== Sys2Proof/Laws/SteadyStrongbox.lean ====
section
/-!
SUPPORT. The operations of Machine/Strongbox.lean keep what every step keeps (Laws/Steady.lean).
-/

namespace Sys2Proof.Machine

set_option linter.unreachableTactic false
set_option linter.unusedTactic false
set_option linter.unnecessarySeqFocus false

theorem State.hseInsecure_steady {s0 s : State} (i : Nat) (k : Nat) (hst : Steady s0 s) :
    Steady s0 (State.hseInsecure i k s) := by
  unfold State.hseInsecure
  repeat' first
    | assumption
    | (intro _)
    | with_reducible apply State.modHse_steady
    | with_reducible apply State.event_steady

theorem State.linkKeyLost_steady {s0 s : State} (i : Nat) (k : Nat) (hst : Steady s0 s) :
    Steady s0 (State.linkKeyLost i k s) := by
  unfold State.linkKeyLost
  repeat' first
    | assumption
    | (intro _)
    | with_reducible apply State.modLse_steady
    | with_reducible apply State.tookDraw_steady
    | with_reducible apply State.lseDown_steady

theorem State.slotMismatch_steady {s0 s : State} (n : Nat) (hst : Steady s0 s) :
    Steady s0 (State.slotMismatch n s) := by
  unfold State.slotMismatch
  repeat' first
    | assumption
    | (intro _)
    | with_reducible apply State.saveUse_steady
    | with_reducible apply State.linkKeyLost_steady
    | with_reducible apply State.hseInsecure_steady
    | with_reducible apply State.modHse_steady
    | with_reducible apply State.sounding_steady
    | with_reducible apply State.alarmIntegrity_steady
    | with_reducible apply Steady.ite
    | (fail_if_no_progress refine Steady.upd ?_ rfl rfl rfl (by first | rfl | (simp <;> rfl)) (by first | rfl | (simp <;> rfl)) (by first | rfl | (simp <;> rfl)) (by exact fun _ _ h => h) (by first | exact id | (intro hk; (repeat' (first | assumption | split)); done) | simp) (by first | exact id | (intro hk; (repeat' (first | assumption | split)); done) | simp))
    | split

theorem State.refuseKey_steady {s0 s : State} (i : Nat) (h : Nat) (g : Nat) (hst : Steady s0 s) :
    Steady s0 (State.refuseKey i h g s) := by
  unfold State.refuseKey
  repeat' first
    | assumption
    | (intro _)
    | with_reducible apply State.modMse_steady
    | with_reducible apply State.refuse_steady
    | with_reducible apply State.holdEnded_steady
    | with_reducible apply State.advance_steady
    | with_reducible apply State.rerun_steady
    | with_reducible apply State.advanceAll_steady
    | with_reducible apply State.endMse_steady
    | with_reducible apply Steady.ite
    | with_reducible apply Steady.foldl
    | (fail_if_no_progress refine Steady.upd ?_ rfl rfl rfl (by first | rfl | (simp <;> rfl)) (by first | rfl | (simp <;> rfl)) (by first | rfl | (simp <;> rfl)) (by exact fun _ _ h => h) (by first | exact id | (intro hk; (repeat' (first | assumption | split)); done) | simp) (by first | exact id | (intro hk; (repeat' (first | assumption | split)); done) | simp))
    | split

theorem State.unwrapFailed_steady {s0 s : State} (u : Unwrap) (hst : Steady s0 s) :
    Steady s0 (State.unwrapFailed u s) := by
  unfold State.unwrapFailed
  repeat' first
    | assumption
    | (intro _)
    | with_reducible apply State.event_steady
    | with_reducible apply State.bump_steady
    | with_reducible apply State.refuseKey_steady
    | with_reducible apply State.staleBooth_steady
    | with_reducible apply State.command_steady
    | with_reducible apply State.finish_steady
    | with_reducible apply Steady.ite
    | with_reducible apply Steady.foldl
    | (fail_if_no_progress refine Steady.upd ?_ rfl rfl rfl (by first | rfl | (simp <;> rfl)) (by first | rfl | (simp <;> rfl)) (by first | rfl | (simp <;> rfl)) (by exact fun _ _ h => h) (by first | exact id | (intro hk; (repeat' (first | assumption | split)); done) | simp) (by first | exact id | (intro hk; (repeat' (first | assumption | split)); done) | simp))
    | split

theorem State.unwrapServed_steady {s0 s : State} (u : Unwrap) (material : Bytes) (hst : Steady s0 s) :
    Steady s0 (State.unwrapServed u material s) := by
  unfold State.unwrapServed
  repeat' first
    | assumption
    | (intro _)
    | with_reducible apply State.fillTileKey_steady
    | with_reducible apply State.retryBeats_steady
    | with_reducible apply State.rerun_steady
    | with_reducible apply State.advanceAll_steady
    | with_reducible apply State.endMse_steady
    | with_reducible apply State.command_steady
    | with_reducible apply State.finish_steady
    | with_reducible apply Steady.ite
    | with_reducible apply Steady.foldl
    | (fail_if_no_progress refine Steady.upd ?_ rfl rfl rfl (by first | rfl | (simp <;> rfl)) (by first | rfl | (simp <;> rfl)) (by first | rfl | (simp <;> rfl)) (by exact fun _ _ h => h) (by first | exact id | (intro hk; (repeat' (first | assumption | split)); done) | simp) (by first | exact id | (intro hk; (repeat' (first | assumption | split)); done) | simp))
    | split

theorem State.settleDestroys_steady {s0 s : State} (hst : Steady s0 s) :
    Steady s0 (State.settleDestroys s) := by
  unfold State.settleDestroys
  repeat' first
    | assumption
    | (intro _)
    | with_reducible apply State.eraseKey_steady
    | with_reducible apply State.finish_steady
    | with_reducible apply Steady.ite
    | with_reducible apply Steady.foldl
    | (fail_if_no_progress refine Steady.upd ?_ rfl rfl rfl (by first | rfl | (simp <;> rfl)) (by first | rfl | (simp <;> rfl)) (by first | rfl | (simp <;> rfl)) (by exact fun _ _ h => h) (by first | exact id | (intro hk; (repeat' (first | assumption | split)); done) | simp) (by first | exact id | (intro hk; (repeat' (first | assumption | split)); done) | simp))
    | split

theorem State.createKey_steady {s0 s : State} (c : Call) (e : KeyEntry) (st : Stall) (d : StallData) (key : Bytes) (pin : Bool) (old : Option Nat) (blobOk : Bool) (result : Bytes) (hst : Steady s0 s) :
    Steady s0 (State.createKey c e st d key pin old blobOk result s) := by
  unfold State.createKey
  repeat' first
    | assumption
    | (intro _)
    | with_reducible apply State.emit_steady
    | with_reducible apply State.setStallData_steady
    | with_reducible apply State.finish_steady
    | with_reducible apply State.eraseKey_steady
    | with_reducible apply State.modStallData_steady
    | (refine State.placeKey_steady ?_ _ (by assumption))
    | with_reducible apply State.finishOk_steady
    | with_reducible apply Steady.ite
    | (fail_if_no_progress refine Steady.upd ?_ rfl rfl rfl (by first | rfl | (simp <;> rfl)) (by first | rfl | (simp <;> rfl)) (by first | rfl | (simp <;> rfl)) (by exact fun _ _ h => h) (by first | exact id | (intro hk; (repeat' (first | assumption | split)); done) | simp) (by first | exact id | (intro hk; (repeat' (first | assumption | split)); done) | simp))
    | split

theorem State.destroyKey_steady {s0 s : State} (stall : Nat) (h : Nat) (call : Option Call) (hst : Steady s0 s) :
    Steady s0 (State.destroyKey stall h call s) := by
  unfold State.destroyKey
  repeat' first
    | assumption
    | (intro _)
    | with_reducible apply State.modStallData_steady
    | with_reducible apply State.eraseKey_steady
    | with_reducible apply Steady.ite
    | with_reducible apply Steady.foldl
    | (fail_if_no_progress refine Steady.upd ?_ rfl rfl rfl (by first | rfl | (simp <;> rfl)) (by first | rfl | (simp <;> rfl)) (by first | rfl | (simp <;> rfl)) (by exact fun _ _ h => h) (by first | exact id | (intro hk; (repeat' (first | assumption | split)); done) | simp) (by first | exact id | (intro hk; (repeat' (first | assumption | split)); done) | simp))

end Sys2Proof.Machine
end

