-- ==== Sys2Proof/Laws/SteadyRegions.lean ====
section
/-!
SUPPORT. The operations of Machine/Regions.lean keep what every step keeps (Laws/Steady.lean).
-/

namespace Sys2Proof.Machine

set_option linter.unreachableTactic false
set_option linter.unusedTactic false
set_option linter.unnecessarySeqFocus false

theorem State.bindZero_steady {s0 s : State} (stall : Nat) (gen : Nat) (r : RegionId) (hst : Steady s0 s) :
    Steady s0 (State.bindZero stall gen r s) := by
  unfold State.bindZero
  repeat' first
    | assumption
    | (intro _)
    | with_reducible apply State.changeEntry_steady
    | with_reducible apply State.queueItems_steady
    | (fail_if_no_progress refine Steady.upd ?_ rfl rfl rfl (by first | rfl | (simp <;> rfl)) (by first | rfl | (simp <;> rfl)) (by first | rfl | (simp <;> rfl)) (by exact fun _ _ h => h) (by first | exact id | (intro hk; (repeat' (first | assumption | split)); done) | simp) (by first | exact id | (intro hk; (repeat' (first | assumption | split)); done) | simp))

theorem State.retireRegion_steady {s0 s : State} (r : RegionId) (hst : Steady s0 s) :
    Steady s0 (State.retireRegion r s) := by
  unfold State.retireRegion
  repeat' first
    | assumption
    | (intro _)
    | with_reducible apply State.spineMses_steady
    | with_reducible apply State.changeEntry_steady
    | with_reducible apply Steady.ite
    | (fail_if_no_progress refine Steady.upd ?_ rfl rfl rfl (by first | rfl | (simp <;> rfl)) (by first | rfl | (simp <;> rfl)) (by first | rfl | (simp <;> rfl)) (by exact fun _ _ h => h) (by first | exact id | (intro hk; (repeat' (first | assumption | split)); done) | simp) (by first | exact id | (intro hk; (repeat' (first | assumption | split)); done) | simp))

end Sys2Proof.Machine
end

