-- ==== Sys2Proof/Laws/SteadyLinks.lean ====
section
/-!
SUPPORT. The operations of Machine/Links.lean keep what every step keeps (Laws/Steady.lean).
-/

namespace Sys2Proof.Machine

set_option linter.unreachableTactic false
set_option linter.unusedTactic false
set_option linter.unnecessarySeqFocus false

theorem State.lseRefuse_steady {s0 s : State} (i : Nat) (l : Lse) (o : OutReq) (hst : Steady s0 s) :
    Steady s0 (State.lseRefuse i l o s) := by
  unfold State.lseRefuse
  repeat' first
    | assumption
    | (intro _)
    | with_reducible apply State.modLse_steady
    | with_reducible apply State.emit_steady
    | with_reducible apply State.bump_steady
    | with_reducible apply State.bumpStall_steady

theorem State.lseLost_steady {s0 s : State} (i : Nat) (n : Nat) (hst : Steady s0 s) :
    Steady s0 (State.lseLost i n s) := by
  unfold State.lseLost
  repeat' first
    | assumption
    | (intro _)
    | with_reducible apply State.modLse_steady
    | with_reducible apply State.bump_steady

theorem State.lseAccept_steady {s0 s : State} (i : Nat) (bytes : Nat) (u : RxUnit) (hst : Steady s0 s) :
    Steady s0 (State.lseAccept i bytes u s) := by
  unfold State.lseAccept
  repeat' first
    | assumption
    | (intro _)
    | with_reducible apply State.modLse_steady
    | with_reducible apply State.bump_steady
    | with_reducible apply State.bumpStall_steady
    | with_reducible apply State.meter_steady
    | with_reducible apply State.xckUnit_steady
    | with_reducible apply Steady.ite

theorem State.lseSequence_steady {s0 s : State} (i : Nat) (bytes : Nat) (tc : Nat) (seq : Nat) (d : LinkDir) (next : Bool) (u : RxUnit) (hst : Steady s0 s) :
    Steady s0 (State.lseSequence i bytes tc seq d next u s) := by
  unfold State.lseSequence
  repeat' first
    | assumption
    | (intro _)
    | with_reducible apply State.lseFail_steady
    | with_reducible apply State.modLse_steady
    | with_reducible apply State.syncLink_steady
    | with_reducible apply State.bump_steady
    | with_reducible apply State.lseLost_steady
    | with_reducible apply State.event_steady
    | with_reducible apply State.lseAccept_steady
    | with_reducible apply Steady.ite

theorem State.lseOpen_steady {s0 s : State} (i : Nat) (l : Lse) (unit : Bytes) (d : LinkDir) (next : Bool) (hst : Steady s0 s) :
    Steady s0 (State.lseOpen i l unit d next s) := by
  unfold State.lseOpen
  repeat' first
    | assumption
    | (intro _)
    | with_reducible apply State.lseLost_steady
    | with_reducible apply State.lseFail_steady
    | with_reducible apply State.lseSequence_steady
    | with_reducible apply Steady.ite
    | (fail_if_no_progress refine Steady.upd ?_ rfl rfl rfl (by first | rfl | (simp <;> rfl)) (by first | rfl | (simp <;> rfl)) (by first | rfl | (simp <;> rfl)) (by exact fun _ _ h => h) (by first | exact id | (intro hk; (repeat' (first | assumption | split)); done) | simp) (by first | exact id | (intro hk; (repeat' (first | assumption | split)); done) | simp))
    | split
    | dsimp only

theorem State.lseSealed_steady {s0 s : State} (i : Nat) (l : Lse) (unit : Bytes) (hst : Steady s0 s) :
    Steady s0 (State.lseSealed i l unit s) := by
  unfold State.lseSealed
  repeat' first
    | assumption
    | (intro _)
    | with_reducible apply State.lseFail_steady
    | with_reducible apply State.lseOpen_steady
    | with_reducible apply State.lseLost_steady
    | with_reducible apply State.modLse_steady
    | with_reducible apply Steady.ite

theorem State.dropRx_steady {s0 s : State} (i : Nat) (u : RxUnit) (hst : Steady s0 s) :
    Steady s0 (State.dropRx i u s) := by
  unfold State.dropRx
  repeat' first
    | assumption
    | (intro _)
    | with_reducible apply State.modLse_steady

theorem State.startRevoke_steady {s0 s : State} (g : Granted) (call : Option Call) (hst : Steady s0 s) :
    Steady s0 (State.startRevoke g call s) := by
  unfold State.startRevoke
  repeat' first
    | assumption
    | (intro _)
    | with_reducible apply State.sendUnit_steady
    | with_reducible apply Steady.ite
    | (fail_if_no_progress refine Steady.upd ?_ rfl rfl rfl (by first | rfl | (simp <;> rfl)) (by first | rfl | (simp <;> rfl)) (by first | rfl | (simp <;> rfl)) (by exact fun _ _ h => h) (by first | exact id | (intro hk; (repeat' (first | assumption | split)); done) | simp) (by first | exact id | (intro hk; (repeat' (first | assumption | split)); done) | simp))
    | split

theorem State.ideCount_steady {s0 s : State} (i : Nat) (k : Nat) (tx : Bool) (n : Nat) (hst : Steady s0 s) :
    Steady s0 (State.ideCount i k tx n s) := by
  unfold State.ideCount
  repeat' first
    | assumption
    | (intro _)
    | with_reducible apply State.modHse_steady
    | with_reducible apply State.event_steady
    | with_reducible apply Steady.ite
    | (fail_if_no_progress refine Steady.upd ?_ rfl rfl rfl (by first | rfl | (simp <;> rfl)) (by first | rfl | (simp <;> rfl)) (by first | rfl | (simp <;> rfl)) (by exact fun _ _ h => h) (by first | exact id | (intro hk; (repeat' (first | assumption | split)); done) | simp) (by first | exact id | (intro hk; (repeat' (first | assumption | split)); done) | simp))
    | split

theorem State.hseDrop_steady {s0 s : State} (i : Nat) (hst : Steady s0 s) :
    Steady s0 (State.hseDrop i s) := by
  unfold State.hseDrop
  repeat' first
    | assumption
    | (intro _)
    | with_reducible apply State.modHse_steady
    | with_reducible apply State.bump_steady

end Sys2Proof.Machine
end

