-- ==== Sys2Proof/Laws/SteadyMarks.lean ====
section
/-!
SUPPORT. The operations of Machine/Marks.lean keep what every step keeps (Laws/Steady.lean).
-/

namespace Sys2Proof.Machine

set_option linter.unreachableTactic false
set_option linter.unusedTactic false
set_option linter.unnecessarySeqFocus false

theorem State.setMark_steady {s0 s : State} (k : Nat) (m : Mark) (hst : Steady s0 s) :
    Steady s0 (State.setMark k m s) := by
  unfold State.setMark
  repeat' first
    | assumption
    | (intro _)
    | (fail_if_no_progress refine Steady.upd ?_ rfl rfl rfl (by first | rfl | (simp <;> rfl)) (by first | rfl | (simp <;> rfl)) (by first | rfl | (simp <;> rfl)) (by exact fun _ _ h => h) (by first | exact id | (intro hk; (repeat' (first | assumption | split)); done) | simp) (by first | exact id | (intro hk; (repeat' (first | assumption | split)); done) | simp))

theorem State.endMarkWaits_steady {s0 s : State} (k : Nat) (hst : Steady s0 s) :
    Steady s0 (State.endMarkWaits k s) := by
  unfold State.endMarkWaits
  repeat' first
    | assumption
    | (intro _)
    | with_reducible apply State.waitEnd_steady
    | with_reducible apply State.finish_steady
    | with_reducible apply Steady.foldl
    | (fail_if_no_progress refine Steady.upd ?_ rfl rfl rfl (by first | rfl | (simp <;> rfl)) (by first | rfl | (simp <;> rfl)) (by first | rfl | (simp <;> rfl)) (by exact fun _ _ h => h) (by first | exact id | (intro hk; (repeat' (first | assumption | split)); done) | simp) (by first | exact id | (intro hk; (repeat' (first | assumption | split)); done) | simp))

theorem State.markChanged_steady {s0 s : State} (k : Nat) (hst : Steady s0 s) :
    Steady s0 (State.markChanged k s) := by
  unfold State.markChanged
  repeat' first
    | assumption
    | (intro _)
    | with_reducible apply State.complete_steady
    | with_reducible apply State.progress_steady
    | with_reducible apply State.waitEnd_steady
    | with_reducible apply State.finishOk_steady
    | with_reducible apply Steady.foldl
    | (fail_if_no_progress refine Steady.upd ?_ rfl rfl rfl (by first | rfl | (simp <;> rfl)) (by first | rfl | (simp <;> rfl)) (by first | rfl | (simp <;> rfl)) (by exact fun _ _ h => h) (by first | exact id | (intro hk; (repeat' (first | assumption | split)); done) | simp) (by first | exact id | (intro hk; (repeat' (first | assumption | split)); done) | simp))
    | split

theorem State.sendMark_steady {s0 s : State} (sub : Nat) (chip : Nat) (bytes : Bytes) (hst : Steady s0 s) :
    Steady s0 (State.sendMark sub chip bytes s) := by
  unfold State.sendMark
  repeat' first
    | assumption
    | (intro _)
    | with_reducible apply State.sendUnit_steady
    | (fail_if_no_progress refine Steady.upd ?_ rfl rfl rfl (by first | rfl | (simp <;> rfl)) (by first | rfl | (simp <;> rfl)) (by first | rfl | (simp <;> rfl)) (by exact fun _ _ h => h) (by first | exact id | (intro hk; (repeat' (first | assumption | split)); done) | simp) (by first | exact id | (intro hk; (repeat' (first | assumption | split)); done) | simp))
    | split

theorem State.poisonDests_steady {s0 s : State} (k : Nat) (m : Mark) (but : Option Nat) (hst : Steady s0 s) :
    Steady s0 (State.poisonDests k m but s) := by
  unfold State.poisonDests
  repeat' first
    | assumption
    | (intro _)
    | with_reducible apply State.sendMark_steady
    | with_reducible apply Steady.foldl

theorem State.poisonMark_steady {s0 s : State} (k : Nat) (cause : Nat) (hst : Steady s0 s) :
    Steady s0 (State.poisonMark k cause s) := by
  unfold State.poisonMark
  repeat' first
    | assumption
    | (intro _)
    | with_reducible apply State.setMark_steady
    | with_reducible apply State.event_steady
    | with_reducible apply State.bump_steady
    | with_reducible apply State.endMarkWaits_steady
    | with_reducible apply Steady.ite
    | (fail_if_no_progress refine Steady.upd ?_ rfl rfl rfl (by first | rfl | (simp <;> rfl)) (by first | rfl | (simp <;> rfl)) (by first | rfl | (simp <;> rfl)) (by exact fun _ _ h => h) (by first | exact id | (intro hk; (repeat' (first | assumption | split)); done) | simp) (by first | exact id | (intro hk; (repeat' (first | assumption | split)); done) | simp))
    | split

theorem State.mirrorSignal_steady {s0 s : State} (k : Nat) (origin : Nat) (originMark : Nat) (seq : Nat) (poison : Bool) (value : Nat) (hst : Steady s0 s) :
    Steady s0 (State.mirrorSignal k origin originMark seq poison value s).1 := by
  unfold State.mirrorSignal
  repeat' first
    | assumption
    | (intro _)
    | with_reducible apply State.poisonMark_steady
    | with_reducible apply State.bump_steady
    | with_reducible apply State.setMark_steady
    | with_reducible apply State.markChanged_steady
    | with_reducible apply Steady.ite
    | (fail_if_no_progress refine Steady.upd ?_ rfl rfl rfl (by first | rfl | (simp <;> rfl)) (by first | rfl | (simp <;> rfl)) (by first | rfl | (simp <;> rfl)) (by exact fun _ _ h => h) (by first | exact id | (intro hk; (repeat' (first | assumption | split)); done) | simp) (by first | exact id | (intro hk; (repeat' (first | assumption | split)); done) | simp))
    | split

theorem State.homeAck_steady {s0 s : State} (k : Nat) (origin : Nat) (originMark : Nat) (poison : Bool) (value : Nat) (hst : Steady s0 s) :
    Steady s0 (State.homeAck k origin originMark poison value s) := by
  unfold State.homeAck
  repeat' first
    | assumption
    | (intro _)
    | with_reducible apply State.bump_steady
    | with_reducible apply State.waitEnd_steady
    | with_reducible apply State.setMark_steady
    | with_reducible apply State.markChanged_steady
    | with_reducible apply Steady.ite
    | (fail_if_no_progress refine Steady.upd ?_ rfl rfl rfl (by first | rfl | (simp <;> rfl)) (by first | rfl | (simp <;> rfl)) (by first | rfl | (simp <;> rfl)) (by exact fun _ _ h => h) (by first | exact id | (intro hk; (repeat' (first | assumption | split)); done) | simp) (by first | exact id | (intro hk; (repeat' (first | assumption | split)); done) | simp))
    | split

theorem State.sendDest_steady {s0 s : State} (k : Nat) (i : Nat) (hst : Steady s0 s) :
    Steady s0 (State.sendDest k i s) := by
  unfold State.sendDest
  repeat' first
    | assumption
    | (intro _)
    | with_reducible apply State.mirrorSignal_steady
    | with_reducible apply State.homeAck_steady
    | with_reducible apply State.sendMark_steady
    | with_reducible apply Steady.ite
    | (fail_if_no_progress refine Steady.upd ?_ rfl rfl rfl (by first | rfl | (simp <;> rfl)) (by first | rfl | (simp <;> rfl)) (by first | rfl | (simp <;> rfl)) (by exact fun _ _ h => h) (by first | exact id | (intro hk; (repeat' (first | assumption | split)); done) | simp) (by first | exact id | (intro hk; (repeat' (first | assumption | split)); done) | simp))
    | split

theorem State.sendValue_steady {s0 s : State} (k : Nat) (hst : Steady s0 s) :
    Steady s0 (State.sendValue k s) := by
  unfold State.sendValue
  repeat' first
    | assumption
    | (intro _)
    | with_reducible apply State.setMark_steady
    | with_reducible apply State.sendDest_steady
    | with_reducible apply Steady.ite
    | with_reducible apply Steady.foldl
    | (fail_if_no_progress refine Steady.upd ?_ rfl rfl rfl (by first | rfl | (simp <;> rfl)) (by first | rfl | (simp <;> rfl)) (by first | rfl | (simp <;> rfl)) (by exact fun _ _ h => h) (by first | exact id | (intro hk; (repeat' (first | assumption | split)); done) | simp) (by first | exact id | (intro hk; (repeat' (first | assumption | split)); done) | simp))
    | split

theorem State.releaseMarks_steady {s0 s : State} (hst : Steady s0 s) :
    Steady s0 (State.releaseMarks s) := by
  unfold State.releaseMarks
  repeat' first
    | assumption
    | (intro _)
    | with_reducible apply State.setMark_steady
    | with_reducible apply State.sendDest_steady
    | with_reducible apply Steady.foldl
    | (fail_if_no_progress refine Steady.upd ?_ rfl rfl rfl (by first | rfl | (simp <;> rfl)) (by first | rfl | (simp <;> rfl)) (by first | rfl | (simp <;> rfl)) (by exact fun _ _ h => h) (by first | exact id | (intro hk; (repeat' (first | assumption | split)); done) | simp) (by first | exact id | (intro hk; (repeat' (first | assumption | split)); done) | simp))
    | split

theorem State.signalMark_steady {s0 s : State} (k : Nat) (add : Bool) (v : Nat) (hst : Steady s0 s) :
    Steady s0 (State.signalMark k add v s).1 := by
  unfold State.signalMark
  repeat' first
    | assumption
    | (intro _)
    | with_reducible apply State.setMark_steady
    | with_reducible apply State.bump_steady
    | with_reducible apply State.poisonMark_steady
    | with_reducible apply State.sendValue_steady
    | with_reducible apply State.markChanged_steady
    | with_reducible apply Steady.ite
    | (fail_if_no_progress refine Steady.upd ?_ rfl rfl rfl (by first | rfl | (simp <;> rfl)) (by first | rfl | (simp <;> rfl)) (by first | rfl | (simp <;> rfl)) (by exact fun _ _ h => h) (by first | exact id | (intro hk; (repeat' (first | assumption | split)); done) | simp) (by first | exact id | (intro hk; (repeat' (first | assumption | split)); done) | simp))
    | split

theorem State.spillMark_steady {s0 s : State} (k : Nat) (hst : Steady s0 s) :
    Steady s0 (State.spillMark k s) := by
  unfold State.spillMark
  repeat' first
    | assumption
    | (intro _)
    | with_reducible apply State.poisonMark_steady
    | with_reducible apply State.emit_steady
    | with_reducible apply State.bump_steady
    | with_reducible apply Steady.ite
    | (fail_if_no_progress refine Steady.upd ?_ rfl rfl rfl (by first | rfl | (simp <;> rfl)) (by first | rfl | (simp <;> rfl)) (by first | rfl | (simp <;> rfl)) (by exact fun _ _ h => h) (by first | exact id | (intro hk; (repeat' (first | assumption | split)); done) | simp) (by first | exact id | (intro hk; (repeat' (first | assumption | split)); done) | simp))
    | split
    | dsimp only

theorem State.markPlace_steady {s0 s : State} (hst : Steady s0 s) (t : State) (e : s.markPlace = some t) : Steady s0 t := by
  unfold State.markPlace at e
  split at e
  · cases e
    exact hst
  · cases hv : s.markVictim with
    | none => rw [hv] at e; cases e
    | some k =>
      rw [hv] at e
      cases e
      exact State.spillMark_steady k hst

theorem State.wantMark_steady {s0 s : State} (k : Nat) (hst : Steady s0 s) :
    Steady s0 (State.wantMark k s) := by
  unfold State.wantMark
  repeat' first
    | assumption
    | (intro _)
    | with_reducible apply State.emit_steady
    | with_reducible apply Steady.ite
    | (fail_if_no_progress refine Steady.upd ?_ rfl rfl rfl (by first | rfl | (simp <;> rfl)) (by first | rfl | (simp <;> rfl)) (by first | rfl | (simp <;> rfl)) (by exact fun _ _ h => h) (by first | exact id | (intro hk; (repeat' (first | assumption | split)); done) | simp) (by first | exact id | (intro hk; (repeat' (first | assumption | split)); done) | simp))
    | split

theorem State.forwardMark_steady {s0 s : State} (u : RxUnit) (hst : Steady s0 s) :
    Steady s0 (State.forwardMark u s) := by
  unfold State.forwardMark
  repeat' first
    | assumption
    | (intro _)
    | with_reducible apply State.sendMark_steady
    | with_reducible apply State.bump_steady
    | with_reducible apply Steady.ite
    | (fail_if_no_progress refine Steady.upd ?_ rfl rfl rfl (by first | rfl | (simp <;> rfl)) (by first | rfl | (simp <;> rfl)) (by first | rfl | (simp <;> rfl)) (by exact fun _ _ h => h) (by first | exact id | (intro hk; (repeat' (first | assumption | split)); done) | simp) (by first | exact id | (intro hk; (repeat' (first | assumption | split)); done) | simp))

theorem State.markAtHand_steady {s0 s : State} {k : Nat} (hst : Steady s0 s) (t : State) (e : s.markAtHand k = some t) : Steady s0 t := by
  unfold State.markAtHand at e
  split at e
  · cases e
  · split at e
    · cases e
      exact State.wantStall_steady _ hst
    · split at e
      · cases e
        exact State.wantMark_steady _ hst
      · cases e

theorem State.onMark_steady {s0 s : State} (c : Call) (k : Nat) (body : Mark → State → State) (hbody : ∀ a0 t, Steady s0 t → Steady s0 (body a0 t)) (hst : Steady s0 s) :
    Steady s0 (State.onMark c k body s) := by
  unfold State.onMark
  repeat' first
    | assumption
    | (intro _)
    | with_reducible apply State.badArg_steady
    | with_reducible apply State.setMark_steady
    | with_reducible apply State.wantMark_steady
    | with_reducible apply Steady.ite
    | (fail_if_no_progress refine Steady.upd ?_ rfl rfl rfl (by first | rfl | (simp <;> rfl)) (by first | rfl | (simp <;> rfl)) (by first | rfl | (simp <;> rfl)) (by exact fun _ _ h => h) (by first | exact id | (intro hk; (repeat' (first | assumption | split)); done) | simp) (by first | exact id | (intro hk; (repeat' (first | assumption | split)); done) | simp))
    | split
    | apply hbody

theorem State.freeMark_steady {s0 s : State} (k : Nat) (hst : Steady s0 s) :
    Steady s0 (State.freeMark k s) := by
  unfold State.freeMark
  repeat' first
    | assumption
    | (intro _)
    | with_reducible apply State.endMarkWaits_steady
    | (fail_if_no_progress refine Steady.upd ?_ rfl rfl rfl (by first | rfl | (simp <;> rfl)) (by first | rfl | (simp <;> rfl)) (by first | rfl | (simp <;> rfl)) (by exact fun _ _ h => h) (by first | exact id | (intro hk; (repeat' (first | assumption | split)); done) | simp) (by first | exact id | (intro hk; (repeat' (first | assumption | split)); done) | simp))

theorem State.destroyMarks_steady {s0 s : State} (stall : Nat) (hst : Steady s0 s) :
    Steady s0 (State.destroyMarks stall s) := by
  unfold State.destroyMarks
  repeat' first
    | assumption
    | (intro _)
    | with_reducible apply State.poisonDests_steady
    | with_reducible apply State.freeMark_steady
    | with_reducible apply Steady.foldl
    | (fail_if_no_progress refine Steady.upd ?_ rfl rfl rfl (by first | rfl | (simp <;> rfl)) (by first | rfl | (simp <;> rfl)) (by first | rfl | (simp <;> rfl)) (by exact fun _ _ h => h) (by first | exact id | (intro hk; (repeat' (first | assumption | split)); done) | simp) (by first | exact id | (intro hk; (repeat' (first | assumption | split)); done) | simp))
    | split

end Sys2Proof.Machine
end

