-- ==== Sys2Proof/Laws/SteadyNvmOps.lean ====
section
/-!
SUPPORT. The operations of Machine/NvmOps.lean keep what every step keeps (Laws/Steady.lean).
-/

namespace Sys2Proof.Machine

set_option linter.unreachableTactic false
set_option linter.unusedTactic false
set_option linter.unnecessarySeqFocus false

theorem State.journalPut_steady {s0 s : State} {b : JournalBody} (hst : Steady s0 s) (t : State) (e : s.journalPut b = some t) :
    Steady s0 t := by
  unfold State.journalPut at e
  split at e
  · cases e
  · split at e
    · cases e
    · cases e
      exact Steady.upd (State.emit_steady _ (State.tookDraw_steady hst)) rfl rfl rfl rfl rfl rfl (fun _ _ h => h) id id

theorem State.journalOpen_steady {s0 s : State} (hst : Steady s0 s) :
    Steady s0 (State.journalOpen s) := by
  unfold State.journalOpen
  repeat' first
    | assumption
    | (intro _)
    | with_reducible apply State.tookDraw_steady
    | with_reducible apply State.emit_steady
    | with_reducible apply State.journal_steady
    | (refine State.journalPut_steady ?_ _ (by assumption))
    | with_reducible apply Steady.foldl
    | (fail_if_no_progress refine Steady.upd ?_ rfl rfl rfl (by first | rfl | (simp <;> rfl)) (by first | rfl | (simp <;> rfl)) (by first | rfl | (simp <;> rfl)) (by exact fun _ _ h => h) (by first | exact id | (intro hk; (repeat' (first | assumption | split)); done) | simp) (by first | exact id | (intro hk; (repeat' (first | assumption | split)); done) | simp))
    | split

theorem State.journal_steady {s0 s : State} (b : JournalBody) (hst : Steady s0 s) :
    Steady s0 (State.journal b s) := by
  unfold State.journal
  repeat' first
    | assumption
    | (intro _)
    | (refine State.journalPut_steady ?_ _ (by assumption))
    | with_reducible apply State.emit_steady
    | with_reducible apply State.journalOpen_steady
    | with_reducible apply Steady.ite
    | (fail_if_no_progress refine Steady.upd ?_ rfl rfl rfl (by first | rfl | (simp <;> rfl)) (by first | rfl | (simp <;> rfl)) (by first | rfl | (simp <;> rfl)) (by exact fun _ _ h => h) (by first | exact id | (intro hk; (repeat' (first | assumption | split)); done) | simp) (by first | exact id | (intro hk; (repeat' (first | assumption | split)); done) | simp))
    | split

theorem State.journalErased_steady {s0 s : State} (hst : Steady s0 s) :
    Steady s0 (State.journalErased s) := by
  unfold State.journalErased
  repeat' first
    | assumption
    | (intro _)
    | with_reducible apply State.journal_steady
    | with_reducible apply State.journalOpen_steady
    | with_reducible apply Steady.foldl
    | (fail_if_no_progress refine Steady.upd ?_ rfl rfl rfl (by first | rfl | (simp <;> rfl)) (by first | rfl | (simp <;> rfl)) (by first | rfl | (simp <;> rfl)) (by exact fun _ _ h => h) (by first | exact id | (intro hk; (repeat' (first | assumption | split)); done) | simp) (by first | exact id | (intro hk; (repeat' (first | assumption | split)); done) | simp))
    | split

theorem State.writeStandby_steady {s0 s : State} (entries : List StandbyEntry) (hst : Steady s0 s) :
    Steady s0 (State.writeStandby entries s) := by
  unfold State.writeStandby
  repeat' first
    | assumption
    | (intro _)
    | with_reducible apply State.tookDraw_steady
    | with_reducible apply State.emits_steady
    | with_reducible apply State.emit_steady
    | with_reducible apply Steady.ite
    | (fail_if_no_progress refine Steady.upd ?_ rfl rfl rfl (by first | rfl | (simp <;> rfl)) (by first | rfl | (simp <;> rfl)) (by first | rfl | (simp <;> rfl)) (by exact fun _ _ h => h) (by first | exact id | (intro hk; (repeat' (first | assumption | split)); done) | simp) (by first | exact id | (intro hk; (repeat' (first | assumption | split)); done) | simp))

theorem State.addStandby_steady {s0 s : State} (e : StandbyEntry) (hst : Steady s0 s) :
    Steady s0 (State.addStandby e s) := by
  unfold State.addStandby
  repeat' first
    | assumption
    | (intro _)
    | with_reducible apply State.writeStandby_steady

end Sys2Proof.Machine
end

