-- ==== Sys2Proof/Laws/SteadyStalls.lean ====
section
/-!
SUPPORT. The operations of Machine/Stalls.lean keep what every step keeps (Laws/Steady.lean).
-/

namespace Sys2Proof.Machine

set_option linter.unreachableTactic false
set_option linter.unusedTactic false
set_option linter.unnecessarySeqFocus false

theorem State.refuseFill_steady {s0 s : State} (id : Nat) (hst : Steady s0 s) :
    Steady s0 (State.refuseFill id s) := by
  unfold State.refuseFill
  repeat' first
    | assumption
    | (intro _)
    | with_reducible apply State.modMse_steady
    | with_reducible apply State.refuse_steady
    | with_reducible apply State.rerun_steady
    | with_reducible apply Steady.foldl
    | (fail_if_no_progress refine Steady.upd ?_ rfl rfl rfl (by first | rfl | (simp <;> rfl)) (by first | rfl | (simp <;> rfl)) (by first | rfl | (simp <;> rfl)) (by exact fun _ _ h => h) (by first | exact id | (intro hk; (repeat' (first | assumption | split)); done) | simp) (by first | exact id | (intro hk; (repeat' (first | assumption | split)); done) | simp))
    | split

theorem State.issueLeaf_steady {s0 s : State} (id : Nat) (hst : Steady s0 s) :
    Steady s0 (State.issueLeaf id s) := by
  unfold State.issueLeaf
  repeat' first
    | assumption
    | (intro _)
    | with_reducible apply State.tookDraw_steady
    | with_reducible apply State.bump_steady
    | (fail_if_no_progress refine Steady.upd ?_ rfl rfl rfl (by first | rfl | (simp <;> rfl)) (by first | rfl | (simp <;> rfl)) (by first | rfl | (simp <;> rfl)) (by exact fun _ _ h => h) (by first | exact id | (intro hk; (repeat' (first | assumption | split)); done) | simp) (by first | exact id | (intro hk; (repeat' (first | assumption | split)); done) | simp))

theorem State.deferAdmission_steady {s0 s : State} (c : Call) (hst : Steady s0 s) :
    Steady s0 (State.deferAdmission c s) := by
  unfold State.deferAdmission
  repeat' first
    | assumption
    | (intro _)
    | with_reducible apply State.bump_steady
    | with_reducible apply State.event_steady
    | with_reducible apply Steady.ite
    | (fail_if_no_progress refine Steady.upd ?_ rfl rfl rfl (by first | rfl | (simp <;> rfl)) (by first | rfl | (simp <;> rfl)) (by first | rfl | (simp <;> rfl)) (by exact fun _ _ h => h) (by first | exact id | (intro hk; (repeat' (first | assumption | split)); done) | simp) (by first | exact id | (intro hk; (repeat' (first | assumption | split)); done) | simp))
    | split

theorem State.admitStall_steady {s0 s : State} (id : Nat) (fill : Nat) (integ : Nat) (opts : Nat) (account : Nat) (program : Bytes) (tenantKey : Bytes) (policy : Bytes) (owners : List OwnerEntry) (hst : Steady s0 s) :
    Steady s0 (State.admitStall id fill integ opts account program tenantKey policy owners s) := by
  unfold State.admitStall
  repeat' first
    | assumption
    | (intro _)
    | with_reducible apply State.tookDraw_steady
    | with_reducible apply State.setStall_steady
    | with_reducible apply State.setStallData_steady
    | with_reducible apply State.styAdmit_steady
    | with_reducible apply State.writeRecord_steady
    | with_reducible apply State.sendRefusal_steady
    | with_reducible apply State.bump_steady
    | (fail_if_no_progress refine Steady.upd ?_ rfl rfl rfl (by first | rfl | (simp <;> rfl)) (by first | rfl | (simp <;> rfl)) (by first | rfl | (simp <;> rfl)) (by exact fun _ _ h => h) (by first | exact id | (intro hk; (repeat' (first | assumption | split)); done) | simp) (by first | exact id | (intro hk; (repeat' (first | assumption | split)); done) | simp))
    | split

theorem State.squashWork_steady {s0 s : State} (id : Nat) (hst : Steady s0 s) :
    Steady s0 (State.squashWork id s) := by
  unfold State.squashWork
  repeat' first
    | assumption
    | (intro _)
    | with_reducible apply State.spineMses_steady
    | with_reducible apply State.poisonStall_steady
    | with_reducible apply State.squashBooth_steady
    | with_reducible apply State.squashToll_steady
    | with_reducible apply Steady.ite

theorem State.beginRemoval_steady {s0 s : State} (id : Nat) (call : Option Call) (hst : Steady s0 s) :
    Steady s0 (State.beginRemoval id call s) := by
  unfold State.beginRemoval
  repeat' first
    | assumption
    | (intro _)
    | with_reducible apply State.setStall_steady
    | with_reducible apply State.sendRefusal_steady
    | with_reducible apply State.failCommands_steady
    | with_reducible apply State.finish_steady
    | with_reducible apply State.startRevoke_steady
    | with_reducible apply State.destroyMarks_steady
    | with_reducible apply Steady.ite
    | with_reducible apply Steady.foldl
    | (fail_if_no_progress refine Steady.upd ?_ rfl rfl rfl (by first | rfl | (simp <;> rfl)) (by first | rfl | (simp <;> rfl)) (by first | rfl | (simp <;> rfl)) (by exact fun _ _ h => h) (by first | exact id | (intro hk; (repeat' (first | assumption | split)); done) | simp) (by first | exact id | (intro hk; (repeat' (first | assumption | split)); done) | simp))
    | split

theorem State.setRemoval_steady {s0 s : State} (r : Removal) (r' : Removal) (hst : Steady s0 s) :
    Steady s0 (State.setRemoval r r' s) := by
  unfold State.setRemoval
  repeat' first
    | assumption
    | (intro _)
    | with_reducible apply Steady.ite
    | (fail_if_no_progress refine Steady.upd ?_ rfl rfl rfl (by first | rfl | (simp <;> rfl)) (by first | rfl | (simp <;> rfl)) (by first | rfl | (simp <;> rfl)) (by exact fun _ _ h => h) (by first | exact id | (intro hk; (repeat' (first | assumption | split)); done) | simp) (by first | exact id | (intro hk; (repeat' (first | assumption | split)); done) | simp))

theorem State.zeroizeStall_steady {s0 s : State} (id : Nat) (hst : Steady s0 s) :
    Steady s0 (State.zeroizeStall id s) := by
  unfold State.zeroizeStall
  repeat' first
    | assumption
    | (intro _)
    | with_reducible apply State.destroyKey_steady
    | with_reducible apply State.modStallData_steady
    | with_reducible apply State.settleDestroys_steady
    | with_reducible apply Steady.foldl
    | (fail_if_no_progress refine Steady.upd ?_ rfl rfl rfl (by first | rfl | (simp <;> rfl)) (by first | rfl | (simp <;> rfl)) (by first | rfl | (simp <;> rfl)) (by exact fun _ _ h => h) (by first | exact id | (intro hk; (repeat' (first | assumption | split)); done) | simp) (by first | exact id | (intro hk; (repeat' (first | assumption | split)); done) | simp))

theorem State.eraseRecord_steady {s0 s : State} (id : Nat) (hst : Steady s0 s) :
    Steady s0 (State.eraseRecord id s) := by
  unfold State.eraseRecord
  repeat' first
    | assumption
    | (intro _)
    | with_reducible apply State.tookDraw_steady
    | with_reducible apply State.emit_steady
    | with_reducible apply State.modStallData_steady
    | with_reducible apply State.queueItems_steady
    | (fail_if_no_progress refine Steady.upd ?_ rfl rfl rfl (by first | rfl | (simp <;> rfl)) (by first | rfl | (simp <;> rfl)) (by first | rfl | (simp <;> rfl)) (by exact fun _ _ h => h) (by first | exact id | (intro hk; (repeat' (first | assumption | split)); done) | simp) (by first | exact id | (intro hk; (repeat' (first | assumption | split)); done) | simp))
    | split

theorem State.startRemovalStep_steady {s0 s : State} (r : Removal) (hst : Steady s0 s) :
    Steady s0 (State.startRemovalStep r s) := by
  unfold State.startRemovalStep
  repeat' first
    | assumption
    | (intro _)
    | with_reducible apply State.setRemoval_steady
    | with_reducible apply State.squashWork_steady
    | with_reducible apply State.retireRegion_steady
    | with_reducible apply State.settle_steady
    | with_reducible apply State.zeroizeStall_steady
    | with_reducible apply State.styFinal_steady
    | with_reducible apply State.eraseRecord_steady
    | with_reducible apply Steady.foldl
    | (fail_if_no_progress refine Steady.upd ?_ rfl rfl rfl (by first | rfl | (simp <;> rfl)) (by first | rfl | (simp <;> rfl)) (by first | rfl | (simp <;> rfl)) (by exact fun _ _ h => h) (by first | exact id | (intro hk; (repeat' (first | assumption | split)); done) | simp) (by first | exact id | (intro hk; (repeat' (first | assumption | split)); done) | simp))
    | split

theorem State.endRemoval_steady {s0 s : State} (r : Removal) (hst : Steady s0 s) :
    Steady s0 (State.endRemoval r s) := by
  unfold State.endRemoval
  repeat' first
    | assumption
    | (intro _)
    | with_reducible apply State.bump_steady
    | with_reducible apply State.sendRefusal_steady
    | with_reducible apply State.finish_steady
    | (fail_if_no_progress refine Steady.upd ?_ rfl rfl rfl (by first | rfl | (simp <;> rfl)) (by first | rfl | (simp <;> rfl)) (by first | rfl | (simp <;> rfl)) (by exact fun _ _ h => h) (by first | exact id | (intro hk; (repeat' (first | assumption | split)); done) | simp) (by first | exact id | (intro hk; (repeat' (first | assumption | split)); done) | simp))
    | split

theorem State.removalStep_steady {s0 s : State} (stall : Nat) (hst : Steady s0 s) :
    Steady s0 (State.removalStep stall s) := by
  unfold State.removalStep
  repeat' first
    | assumption
    | (intro _)
    | with_reducible apply State.journal_steady
    | with_reducible apply State.endRemoval_steady
    | with_reducible apply State.startRemovalStep_steady
    | with_reducible apply Steady.ite
    | (fail_if_no_progress refine Steady.upd ?_ rfl rfl rfl (by first | rfl | (simp <;> rfl)) (by first | rfl | (simp <;> rfl)) (by first | rfl | (simp <;> rfl)) (by exact fun _ _ h => h) (by first | exact id | (intro hk; (repeat' (first | assumption | split)); done) | simp) (by first | exact id | (intro hk; (repeat' (first | assumption | split)); done) | simp))
    | split

theorem State.endFreeze_steady {s0 s : State} (f : Freeze) (ok : Bool) (hst : Steady s0 s) :
    Steady s0 (State.endFreeze f ok s) := by
  unfold State.endFreeze
  repeat' first
    | assumption
    | (intro _)
    | with_reducible apply State.changeEntry_steady
    | with_reducible apply State.queueItems_steady
    | with_reducible apply State.modStallData_steady
    | with_reducible apply State.emit_steady
    | with_reducible apply State.writeRecord_steady
    | with_reducible apply State.bump_steady
    | with_reducible apply State.finishAnchored_steady
    | with_reducible apply State.settle_steady
    | with_reducible apply Steady.ite
    | with_reducible apply Steady.foldl
    | (fail_if_no_progress refine Steady.upd ?_ rfl rfl rfl (by first | rfl | (simp <;> rfl)) (by first | rfl | (simp <;> rfl)) (by first | rfl | (simp <;> rfl)) (by exact fun _ _ h => h) (by first | exact id | (intro hk; (repeat' (first | assumption | split)); done) | simp) (by first | exact id | (intro hk; (repeat' (first | assumption | split)); done) | simp))

theorem State.freezeStep_steady {s0 s : State} (f : Freeze) (ok : Bool) (hst : Steady s0 s) :
    Steady s0 (State.freezeStep f ok s) := by
  unfold State.freezeStep
  repeat' first
    | assumption
    | (intro _)
    | with_reducible apply State.endFreeze_steady
    | with_reducible apply Steady.ite

end Sys2Proof.Machine
end

