-- ==== Sys2Proof/Laws/SteadyMigration.lean ====
section
/-!
SUPPORT. The operations of Machine/Migration.lean keep what every step keeps (Laws/Steady.lean).
-/

namespace Sys2Proof.Machine

set_option linter.unreachableTactic false
set_option linter.unusedTactic false
set_option linter.unnecessarySeqFocus false

theorem State.restoreKey_steady {s0 s : State} (id : Nat) (base : Nat) (epochBias : Nat) (handles : List Nat) (b : Bytes) (hst : Steady s0 s) :
    Steady s0 (State.restoreKey id base epochBias handles b s) := by
  unfold State.restoreKey
  repeat' first
    | assumption
    | (intro _)
    | with_reducible apply State.emit_steady
    | with_reducible apply State.setStallData_steady
    | (fail_if_no_progress refine Steady.upd ?_ rfl rfl rfl (by first | rfl | (simp <;> rfl)) (by first | rfl | (simp <;> rfl)) (by first | rfl | (simp <;> rfl)) (by exact fun _ _ h => h) (by first | exact id | (intro hk; (repeat' (first | assumption | split)); done) | simp) (by first | exact id | (intro hk; (repeat' (first | assumption | split)); done) | simp))
    | split

theorem State.restoreRegion_steady {s0 s : State} (id : Nat) (bias : Nat) (b : Bytes) (hst : Steady s0 s) :
    Steady s0 (State.restoreRegion id bias b s).1 := by
  unfold State.restoreRegion
  repeat' first
    | assumption
    | (intro _)
    | with_reducible apply State.changeEntry_steady
    | with_reducible apply State.queueItems_steady
    | with_reducible apply Steady.ite
    | (fail_if_no_progress refine Steady.upd ?_ rfl rfl rfl (by first | rfl | (simp <;> rfl)) (by first | rfl | (simp <;> rfl)) (by first | rfl | (simp <;> rfl)) (by exact fun _ _ h => h) (by first | exact id | (intro hk; (repeat' (first | assumption | split)); done) | simp) (by first | exact id | (intro hk; (repeat' (first | assumption | split)); done) | simp))
    | split

end Sys2Proof.Machine
end

