-- ==== Sys2Proof/Laws/SteadyAttest.lean ====
section
/-!
SUPPORT. The operations of Machine/Attest.lean keep what every step keeps (Laws/Steady.lean).
-/

namespace Sys2Proof.Machine

set_option linter.unreachableTactic false
set_option linter.unusedTactic false
set_option linter.unnecessarySeqFocus false

theorem State.issueAlias_steady {s0 s : State} (hst : Steady s0 s) :
    Steady s0 (State.issueAlias s) := by
  unfold State.issueAlias
  repeat' first
    | assumption
    | (intro _)
    | with_reducible apply State.tookDraw_steady
    | with_reducible apply State.bump_steady
    | with_reducible apply State.issueLeaf_steady
    | with_reducible apply Steady.foldl
    | (fail_if_no_progress refine Steady.upd ?_ rfl rfl rfl (by first | rfl | (simp <;> rfl)) (by first | rfl | (simp <;> rfl)) (by first | rfl | (simp <;> rfl)) (by exact fun _ _ h => h) (by first | exact id | (intro hk; (repeat' (first | assumption | split)); done) | simp) (by first | exact id | (intro hk; (repeat' (first | assumption | split)); done) | simp))

theorem State.keyProg_steady {s0 s : State} (h : Nat) (stream : Nat) (dirTx : Bool) (keySet : Nat) (key : Bytes) (iv : Bytes) (hst : Steady s0 s) :
    Steady s0 (State.keyProg h stream dirTx keySet key iv s) := by
  unfold State.keyProg
  repeat' first
    | assumption
    | (intro _)
    | with_reducible apply State.modHse_steady
    | with_reducible apply State.pinLink_steady
    | with_reducible apply Steady.ite
    | (fail_if_no_progress refine Steady.upd ?_ rfl rfl rfl (by first | rfl | (simp <;> rfl)) (by first | rfl | (simp <;> rfl)) (by first | rfl | (simp <;> rfl)) (by exact fun _ _ h => h) (by first | exact id | (intro hk; (repeat' (first | assumption | split)); done) | simp) (by first | exact id | (intro hk; (repeat' (first | assumption | split)); done) | simp))
    | split

theorem State.dropKeySet_steady {s0 s : State} (h : Nat) (stream : Nat) (keySet : Nat) (hst : Steady s0 s) :
    Steady s0 (State.dropKeySet h stream keySet s) := by
  unfold State.dropKeySet
  repeat' first
    | assumption
    | (intro _)
    | with_reducible apply State.modHse_steady
    | with_reducible apply State.pinLink_steady

theorem State.setGo_steady {s0 s : State} (h : Nat) (stream : Nat) (keySet : Nat) (hst : Steady s0 s) :
    Steady s0 (State.setGo h stream keySet s) := by
  unfold State.setGo
  repeat' first
    | assumption
    | (intro _)
    | with_reducible apply State.modHse_steady
    | with_reducible apply State.dropKeySet_steady
    | with_reducible apply Steady.ite
    | (fail_if_no_progress refine Steady.upd ?_ rfl rfl rfl (by first | rfl | (simp <;> rfl)) (by first | rfl | (simp <;> rfl)) (by first | rfl | (simp <;> rfl)) (by exact fun _ _ h => h) (by first | exact id | (intro hk; (repeat' (first | assumption | split)); done) | simp) (by first | exact id | (intro hk; (repeat' (first | assumption | split)); done) | simp))
    | split

theorem State.setStop_steady {s0 s : State} (h : Nat) (stream : Nat) (keySet : Nat) (hst : Steady s0 s) :
    Steady s0 (State.setStop h stream keySet s) := by
  unfold State.setStop
  repeat' first
    | assumption
    | (intro _)
    | with_reducible apply State.modHse_steady
    | with_reducible apply State.dropKeySet_steady
    | with_reducible apply Steady.ite
    | (fail_if_no_progress refine Steady.upd ?_ rfl rfl rfl (by first | rfl | (simp <;> rfl)) (by first | rfl | (simp <;> rfl)) (by first | rfl | (simp <;> rfl)) (by exact fun _ _ h => h) (by first | exact id | (intro hk; (repeat' (first | assumption | split)); done) | simp) (by first | exact id | (intro hk; (repeat' (first | assumption | split)); done) | simp))
    | split

theorem State.spdm_steady {s0 s : State} (hse : Nat) (a : SpdmAction) (hst : Steady s0 s) :
    Steady s0 (State.spdm hse a s) := by
  unfold State.spdm
  repeat' first
    | assumption
    | (intro _)
    | with_reducible apply State.tookDraw_steady
    | with_reducible apply State.pinLink_steady
    | with_reducible apply State.keyProg_steady
    | with_reducible apply State.setGo_steady
    | with_reducible apply State.setStop_steady
    | with_reducible apply Steady.ite
    | with_reducible apply Steady.foldl
    | (fail_if_no_progress refine Steady.upd ?_ rfl rfl rfl (by first | rfl | (simp <;> rfl)) (by first | rfl | (simp <;> rfl)) (by first | rfl | (simp <;> rfl)) (by exact fun _ _ h => h) (by first | exact id | (intro hk; (repeat' (first | assumption | split)); done) | simp) (by first | exact id | (intro hk; (repeat' (first | assumption | split)); done) | simp))
    | split

end Sys2Proof.Machine
end

