-- ==== Sys2Proof/Laws/SteadyHybrid.lean ====
section
/-!
SUPPORT. The operations of Machine/Hybrid.lean keep what every step keeps (Laws/Steady.lean).
-/

namespace Sys2Proof.Machine

set_option linter.unreachableTactic false
set_option linter.unusedTactic false
set_option linter.unnecessarySeqFocus false

theorem Steady.foldlSnd {s0 : State} {α β : Type} {f : β × State → α → β × State} {l : List α} {p : β × State} (h : Steady s0 p.2)
    (hf : ∀ p a, Steady s0 p.2 → Steady s0 (f p a).2) : Steady s0 (l.foldl f p).2 := by
  induction l generalizing p with
  | nil => exact h
  | cons a l ih => exact ih (hf p a h)

theorem State.hybH2_steady {s0 s : State} (o : HybOps) (hst : Steady s0 s) :
    Steady s0 (State.hybH2 o s).2 := by
  unfold State.hybH2
  repeat' first
    | assumption
    | (intro _)
    | with_reducible apply State.tookDraw_steady
    | with_reducible apply State.bump_steady
    | (fail_if_no_progress refine Steady.upd ?_ rfl rfl rfl (by first | rfl | (simp <;> rfl)) (by first | rfl | (simp <;> rfl)) (by first | rfl | (simp <;> rfl)) (by exact fun _ _ h => h) (by first | exact id | (intro hk; (repeat' (first | assumption | split)); done) | simp) (by first | exact id | (intro hk; (repeat' (first | assumption | split)); done) | simp))

theorem State.hybFail_steady {s0 s : State} (x : HybExchange) (hst : Steady s0 s) :
    Steady s0 (State.hybFail x s) := by
  unfold State.hybFail
  repeat' first
    | assumption
    | (intro _)
    | with_reducible apply State.event_steady
    | with_reducible apply Steady.ite
    | (fail_if_no_progress refine Steady.upd ?_ rfl rfl rfl (by first | rfl | (simp <;> rfl)) (by first | rfl | (simp <;> rfl)) (by first | rfl | (simp <;> rfl)) (by exact fun _ _ h => h) (by first | exact id | (intro hk; (repeat' (first | assumption | split)); done) | simp) (by first | exact id | (intro hk; (repeat' (first | assumption | split)); done) | simp))

theorem State.rewrapBlobs_steady {s0 s : State} (id : Nat) (old new : StallData) (inst : Bytes) (blobs : List BufRead)
    (hst : Steady s0 s) : Steady s0 (State.rewrapBlobs id old new inst blobs s).2 := by
  unfold State.rewrapBlobs
  refine Steady.foldlSnd hst fun p e hp => ?_
  split
  · split
    · exact hp
    · exact State.emit_steady _ hp
  · exact hp

theorem State.hybTenant_steady {s0 s : State} (x : HybExchange) (kEst : Bytes) (th : Bytes) (blobs : List BufRead) (hst : Steady s0 s) :
    Steady s0 (State.hybTenant x kEst th blobs s) := by
  unfold State.hybTenant
  repeat' first
    | assumption
    | (intro _)
    | with_reducible apply State.rewrapBlobs_steady
    | with_reducible apply State.setStall_steady
    | with_reducible apply State.setStallData_steady
    | with_reducible apply State.writeRecord_steady
    | with_reducible apply Steady.ite
    | (fail_if_no_progress refine Steady.upd ?_ rfl rfl rfl (by first | rfl | (simp <;> rfl)) (by first | rfl | (simp <;> rfl)) (by first | rfl | (simp <;> rfl)) (by exact fun _ _ h => h) (by first | exact id | (intro hk; (repeat' (first | assumption | split)); done) | simp) (by first | exact id | (intro hk; (repeat' (first | assumption | split)); done) | simp))
    | split

theorem State.hybOwner_steady {s0 s : State} (x : HybExchange) (kEst : Bytes) (hst : Steady s0 s) :
    Steady s0 (State.hybOwner x kEst s) := by
  unfold State.hybOwner
  repeat' first
    | assumption
    | (intro _)
    | with_reducible apply State.modStallData_steady
    | with_reducible apply State.writeRecord_steady

theorem State.hybMigrate_steady {s0 s : State} (x : HybExchange) (kEst : Bytes) (th : Bytes) (hst : Steady s0 s) :
    Steady s0 (State.hybMigrate x kEst th s) := by
  unfold State.hybMigrate
  repeat' first
    | assumption
    | (intro _)
    | with_reducible apply State.addStandby_steady
    | with_reducible apply Steady.ite
    | (fail_if_no_progress refine Steady.upd ?_ rfl rfl rfl (by first | rfl | (simp <;> rfl)) (by first | rfl | (simp <;> rfl)) (by first | rfl | (simp <;> rfl)) (by exact fun _ _ h => h) (by first | exact id | (intro hk; (repeat' (first | assumption | split)); done) | simp) (by first | exact id | (intro hk; (repeat' (first | assumption | split)); done) | simp))

theorem State.hybDone_steady {s0 s : State} (x : HybExchange) (kEst : Bytes) (th : Bytes) (blobs : List BufRead) (hst : Steady s0 s) :
    Steady s0 (State.hybDone x kEst th blobs s) := by
  unfold State.hybDone
  repeat' first
    | assumption
    | (intro _)
    | with_reducible apply State.bump_steady
    | with_reducible apply State.installSecret_steady
    | with_reducible apply State.hybTenant_steady
    | with_reducible apply State.hybOwner_steady
    | with_reducible apply State.hybMigrate_steady
    | (fail_if_no_progress refine Steady.upd ?_ rfl rfl rfl (by first | rfl | (simp <;> rfl)) (by first | rfl | (simp <;> rfl)) (by first | rfl | (simp <;> rfl)) (by exact fun _ _ h => h) (by first | exact id | (intro hk; (repeat' (first | assumption | split)); done) | simp) (by first | exact id | (intro hk; (repeat' (first | assumption | split)); done) | simp))
    | split
    | dsimp only

theorem State.hybRefuse_steady {s0 s : State} (c : Call) (x : HybExchange) (hst : Steady s0 s) :
    Steady s0 (State.hybRefuse c x s) := by
  unfold State.hybRefuse
  repeat' first
    | assumption
    | (intro _)
    | with_reducible apply State.hybFail_steady
    | with_reducible apply State.tookDraw_steady
    | with_reducible apply State.finish_steady

theorem State.hybStart_steady {s0 s : State} (c : Call) (purpose : Nat) (stall : Nat) (chip : Nat) (out_ : Nat) (outMax : Nat) (ok : Bool) (hst : Steady s0 s) :
    Steady s0 (State.hybStart c purpose stall chip out_ outMax ok s) := by
  unfold State.hybStart
  repeat' first
    | assumption
    | (intro _)
    | with_reducible apply State.tookDraw_steady
    | with_reducible apply State.output_steady
    | with_reducible apply State.finishOk_steady
    | with_reducible apply Steady.ite
    | (fail_if_no_progress refine Steady.upd ?_ rfl rfl rfl (by first | rfl | (simp <;> rfl)) (by first | rfl | (simp <;> rfl)) (by first | rfl | (simp <;> rfl)) (by exact fun _ _ h => h) (by first | exact id | (intro hk; (repeat' (first | assumption | split)); done) | simp) (by first | exact id | (intro hk; (repeat' (first | assumption | split)); done) | simp))

theorem State.hybAnswer_steady {s0 s : State} (c : Call) (purpose : Nat) (stall : Nat) (chip : Nat) (out_ : Nat) (outMax : Nat) (h1 : Bytes) (o : HybOps) (ok : Bool) (hst : Steady s0 s) :
    Steady s0 (State.hybAnswer c purpose stall chip out_ outMax h1 o ok s) := by
  unfold State.hybAnswer
  repeat' first
    | assumption
    | (intro _)
    | with_reducible apply State.hybRefuse_steady
    | with_reducible apply State.hybH2_steady
    | with_reducible apply State.output_steady
    | with_reducible apply State.finishOk_steady
    | with_reducible apply Steady.ite
    | (fail_if_no_progress refine Steady.upd ?_ rfl rfl rfl (by first | rfl | (simp <;> rfl)) (by first | rfl | (simp <;> rfl)) (by first | rfl | (simp <;> rfl)) (by exact fun _ _ h => h) (by first | exact id | (intro hk; (repeat' (first | assumption | split)); done) | simp) (by first | exact id | (intro hk; (repeat' (first | assumption | split)); done) | simp))

theorem State.hybAccept_steady {s0 s : State} (c : Call) (x : HybExchange) (standby : Bool) (out_ : Nat) (outMax : Nat) (h2 : Bytes) (o : HybOps) (cert : Option PeerCert) (ok : Bool) (hst : Steady s0 s) :
    Steady s0 (State.hybAccept c x standby out_ outMax h2 o cert ok s) := by
  unfold State.hybAccept
  repeat' first
    | assumption
    | (intro _)
    | with_reducible apply State.hybRefuse_steady
    | with_reducible apply State.output_steady
    | with_reducible apply State.bump_steady
    | with_reducible apply State.finishOk_steady
    | with_reducible apply Steady.ite
    | (fail_if_no_progress refine Steady.upd ?_ rfl rfl rfl (by first | rfl | (simp <;> rfl)) (by first | rfl | (simp <;> rfl)) (by first | rfl | (simp <;> rfl)) (by exact fun _ _ h => h) (by first | exact id | (intro hk; (repeat' (first | assumption | split)); done) | simp) (by first | exact id | (intro hk; (repeat' (first | assumption | split)); done) | simp))

theorem State.hybFinish_steady {s0 s : State} (c : Call) (x : HybExchange) (standby : Bool) (out_ outMax : Nat) (h3 : Bytes) (o : HybOps)
    (cert : Option PeerCert) (blobs : List BufRead) (ok : Bool) (hst : Steady s0 s) :
    Steady s0 (State.hybFinish c x standby out_ outMax h3 o cert blobs ok s) := by
  unfold State.hybFinish
  refine Steady.ite (State.hybRefuse_steady _ _ hst) (Steady.ite (State.finish_steady _ _ (Steady.with_dom hst _)) ?_)
  exact State.output_steady _ _ _ _ _ _ (fun t ht =>
    State.finishAnchored_steady _ _ _ _ _ (State.hybDone_steady _ _ _ _ (Steady.with_dom ht _))) hst

theorem State.hybConfirm_steady {s0 s : State} (c : Call) (x : HybExchange) (h4 : Bytes) (hst : Steady s0 s) :
    Steady s0 (State.hybConfirm c x h4 s) := by
  unfold State.hybConfirm
  repeat' first
    | assumption
    | (intro _)
    | with_reducible apply State.hybRefuse_steady
    | with_reducible apply State.finish_steady
    | with_reducible apply State.hybDone_steady
    | with_reducible apply State.finishOk_steady
    | with_reducible apply Steady.ite
    | (fail_if_no_progress refine Steady.upd ?_ rfl rfl rfl (by first | rfl | (simp <;> rfl)) (by first | rfl | (simp <;> rfl)) (by first | rfl | (simp <;> rfl)) (by exact fun _ _ h => h) (by first | exact id | (intro hk; (repeat' (first | assumption | split)); done) | simp) (by first | exact id | (intro hk; (repeat' (first | assumption | split)); done) | simp))

theorem State.joinFail_steady {s0 s : State} (i : Nat) (cause : Nat) (hst : Steady s0 s) :
    Steady s0 (State.joinFail i cause s) := by
  unfold State.joinFail
  repeat' first
    | assumption
    | (intro _)
    | with_reducible apply State.event_steady
    | with_reducible apply Steady.ite
    | (fail_if_no_progress refine Steady.upd ?_ rfl rfl rfl (by first | rfl | (simp <;> rfl)) (by first | rfl | (simp <;> rfl)) (by first | rfl | (simp <;> rfl)) (by exact fun _ _ h => h) (by first | exact id | (intro hk; (repeat' (first | assumption | split)); done) | simp) (by first | exact id | (intro hk; (repeat' (first | assumption | split)); done) | simp))

theorem State.joinHybFail_steady {s0 s : State} (i : Nat) (cause : Nat) (hst : Steady s0 s) :
    Steady s0 (State.joinHybFail i cause s) := by
  unfold State.joinHybFail
  repeat' first
    | assumption
    | (intro _)
    | with_reducible apply State.event_steady
    | with_reducible apply State.joinFail_steady

theorem State.takeMessage_steady {s0 s : State} (i : Nat) (sub : Nat) (hst : Steady s0 s) :
    Steady s0 (State.takeMessage i sub s).2.2 := by
  unfold State.takeMessage
  repeat' first
    | assumption
    | (intro _)
    | with_reducible apply State.modLse_steady
    | with_reducible apply Steady.ite
    | with_reducible apply Steady.foldl
    | (fail_if_no_progress refine Steady.upd ?_ rfl rfl rfl (by first | rfl | (simp <;> rfl)) (by first | rfl | (simp <;> rfl)) (by first | rfl | (simp <;> rfl)) (by exact fun _ _ h => h) (by first | exact id | (intro hk; (repeat' (first | assumption | split)); done) | simp) (by first | exact id | (intro hk; (repeat' (first | assumption | split)); done) | simp))
    | split
    | dsimp only

theorem State.setJoin_steady {s0 s : State} (x : HybExchange) (y : HybExchange) (hst : Steady s0 s) :
    Steady s0 (State.setJoin x y s) := by
  unfold State.setJoin
  repeat' first
    | assumption
    | (intro _)
    | with_reducible apply Steady.ite
    | (fail_if_no_progress refine Steady.upd ?_ rfl rfl rfl (by first | rfl | (simp <;> rfl)) (by first | rfl | (simp <;> rfl)) (by first | rfl | (simp <;> rfl)) (by exact fun _ _ h => h) (by first | exact id | (intro hk; (repeat' (first | assumption | split)); done) | simp) (by first | exact id | (intro hk; (repeat' (first | assumption | split)); done) | simp))

end Sys2Proof.Machine
end

