-- ==== Sys2Proof/Laws/SteadyDomain.lean ====
section
/-!
SUPPORT. The operations of Machine/Domain.lean keep what every step keeps (Laws/Steady.lean).
-/

namespace Sys2Proof.Machine

set_option linter.unreachableTactic false
set_option linter.unusedTactic false
set_option linter.unnecessarySeqFocus false

theorem State.anchorTo_steady {s0 s : State} (t : Nat) (hst : Steady s0 s) :
    Steady s0 (State.anchorTo t s) := by
  unfold State.anchorTo
  repeat' first
    | assumption
    | (intro _)
    | (fail_if_no_progress refine Steady.upd ?_ rfl rfl rfl (by first | rfl | (simp <;> rfl)) (by first | rfl | (simp <;> rfl)) (by first | rfl | (simp <;> rfl)) (by exact fun _ _ h => h) (by first | exact id | (intro hk; (repeat' (first | assumption | split)); done) | simp) (by first | exact id | (intro hk; (repeat' (first | assumption | split)); done) | simp))

theorem State.keepMember_steady {s0 s : State} (b : Bytes) (hst : Steady s0 s) :
    Steady s0 (State.keepMember b s) := by
  unfold State.keepMember
  repeat' first
    | assumption
    | (intro _)
    | with_reducible apply State.anchorTo_steady
    | with_reducible apply Steady.ite
    | with_reducible apply Steady.foldl
    | (fail_if_no_progress refine Steady.upd ?_ rfl rfl rfl (by first | rfl | (simp <;> rfl)) (by first | rfl | (simp <;> rfl)) (by first | rfl | (simp <;> rfl)) (by exact fun _ _ h => h) (by first | exact id | (intro hk; (repeat' (first | assumption | split)); done) | simp) (by first | exact id | (intro hk; (repeat' (first | assumption | split)); done) | simp))

theorem State.substitutePeer_steady {s0 s : State} (p : Peer) (hst : Steady s0 s) :
    Steady s0 (State.substitutePeer p s) := by
  unfold State.substitutePeer
  repeat' first
    | assumption
    | (intro _)
    | with_reducible apply State.poisonLse_steady
    | with_reducible apply State.dropGrants_steady
    | with_reducible apply State.modLse_steady
    | with_reducible apply State.syncLink_steady
    | with_reducible apply State.startJoin_steady
    | (fail_if_no_progress refine Steady.upd ?_ rfl rfl rfl (by first | rfl | (simp <;> rfl)) (by first | rfl | (simp <;> rfl)) (by first | rfl | (simp <;> rfl)) (by exact fun _ _ h => h) (by first | exact id | (intro hk; (repeat' (first | assumption | split)); done) | simp) (by first | exact id | (intro hk; (repeat' (first | assumption | split)); done) | simp))

theorem State.timeMeasured_steady {s0 s : State} (off : Int) (hst : Steady s0 s) :
    Steady s0 (State.timeMeasured off s) := by
  unfold State.timeMeasured
  repeat' first
    | assumption
    | (intro _)
    | with_reducible apply State.anchorTo_steady
    | with_reducible apply State.event_steady
    | with_reducible apply Steady.ite
    | (fail_if_no_progress refine Steady.upd ?_ rfl rfl rfl (by first | rfl | (simp <;> rfl)) (by first | rfl | (simp <;> rfl)) (by first | rfl | (simp <;> rfl)) (by exact fun _ _ h => h) (by first | exact id | (intro hk; (repeat' (first | assumption | split)); done) | simp) (by first | exact id | (intro hk; (repeat' (first | assumption | split)); done) | simp))

end Sys2Proof.Machine
end

