-- ==== Sys2Proof/Laws/SteadyBooth.lean ====
section
/-!
SUPPORT. The operations of Machine/Booth.lean keep what every step keeps (Laws/Steady.lean).
-/

namespace Sys2Proof.Machine

set_option linter.unreachableTactic false
set_option linter.unusedTactic false
set_option linter.unnecessarySeqFocus false

theorem State.endBooth_steady {s0 s : State} (o : BoothOp) (e : BoothEnd) (hst : Steady s0 s) :
    Steady s0 (State.endBooth o e s) := by
  unfold State.endBooth
  repeat' first
    | assumption
    | (intro _)
    | with_reducible apply State.writeRange_steady
    | with_reducible apply State.bump_steady
    | with_reducible apply State.bumpStall_steady
    | with_reducible apply State.keyBusy_steady
    | (fail_if_no_progress refine Steady.upd ?_ rfl rfl rfl (by first | rfl | (simp <;> rfl)) (by first | rfl | (simp <;> rfl)) (by first | rfl | (simp <;> rfl)) (by exact fun _ _ h => h) (by first | exact id | (intro hk; (repeat' (first | assumption | split)); done) | simp) (by first | exact id | (intro hk; (repeat' (first | assumption | split)); done) | simp))
    | split

theorem State.claimFor_steady {s0 s : State} (fn : Nat) (st : Nat) (hst : Steady s0 s) :
    Steady s0 (State.claimFor fn st s) := by
  unfold State.claimFor
  repeat' first
    | assumption
    | (intro _)
    | with_reducible apply State.bump_steady
    | with_reducible apply Steady.ite
    | (fail_if_no_progress refine Steady.upd ?_ rfl rfl rfl (by first | rfl | (simp <;> rfl)) (by first | rfl | (simp <;> rfl)) (by first | rfl | (simp <;> rfl)) (by exact fun _ _ h => h) (by first | exact id | (intro hk; (repeat' (first | assumption | split)); done) | simp) (by first | exact id | (intro hk; (repeat' (first | assumption | split)); done) | simp))

theorem State.claimBooth_steady {s0 s : State} (fn : Nat) (hst : Steady s0 s) :
    Steady s0 (State.claimBooth fn s) := by
  unfold State.claimBooth
  repeat' first
    | assumption
    | (intro _)
    | with_reducible apply State.bump_steady
    | with_reducible apply State.claimFor_steady
    | (fail_if_no_progress refine Steady.upd ?_ rfl rfl rfl (by first | rfl | (simp <;> rfl)) (by first | rfl | (simp <;> rfl)) (by first | rfl | (simp <;> rfl)) (by exact fun _ _ h => h) (by first | exact id | (intro hk; (repeat' (first | assumption | split)); done) | simp) (by first | exact id | (intro hk; (repeat' (first | assumption | split)); done) | simp))
    | split

theorem State.releaseLock_steady {s0 s : State} (fn : Nat) (hst : Steady s0 s) :
    Steady s0 (State.releaseLock fn s) := by
  unfold State.releaseLock
  repeat' first
    | assumption
    | (intro _)
    | with_reducible apply State.settleLock_steady
    | with_reducible apply Steady.ite
    | (fail_if_no_progress refine Steady.upd ?_ rfl rfl rfl (by first | rfl | (simp <;> rfl)) (by first | rfl | (simp <;> rfl)) (by first | rfl | (simp <;> rfl)) (by exact fun _ _ h => h) (by first | exact id | (intro hk; (repeat' (first | assumption | split)); done) | simp) (by first | exact id | (intro hk; (repeat' (first | assumption | split)); done) | simp))
    | split

end Sys2Proof.Machine
end

