-- ==== Sys2Proof/Laws/SteadyClocks.lean ====
section
/-!
SUPPORT. The operations of Machine/Clocks.lean keep what every step keeps (Laws/Steady.lean).
-/

namespace Sys2Proof.Machine

set_option linter.unreachableTactic false
set_option linter.unusedTactic false
set_option linter.unnecessarySeqFocus false

theorem State.startCrossing_steady {s0 s : State} (k : Nat) (hst : Steady s0 s) :
    Steady s0 (State.startCrossing k s) := by
  unfold State.startCrossing
  repeat' first
    | assumption
    | (intro _)
    | with_reducible apply Steady.ite
    | (fail_if_no_progress refine Steady.upd ?_ rfl rfl rfl (by first | rfl | (simp <;> rfl)) (by first | rfl | (simp <;> rfl)) (by first | rfl | (simp <;> rfl)) (by exact fun _ _ h => h) (by first | exact id | (intro hk; (repeat' (first | assumption | split)); done) | simp) (by first | exact id | (intro hk; (repeat' (first | assumption | split)); done) | simp))

theorem State.countRunt_steady {s0 s : State} (hst : Steady s0 s) :
    Steady s0 (State.countRunt s) := by
  unfold State.countRunt
  repeat' first
    | assumption
    | (intro _)
    | with_reducible apply State.bump_steady
    | with_reducible apply Steady.ite
    | (fail_if_no_progress refine Steady.upd ?_ rfl rfl rfl (by first | rfl | (simp <;> rfl)) (by first | rfl | (simp <;> rfl)) (by first | rfl | (simp <;> rfl)) (by exact fun _ _ h => h) (by first | exact id | (intro hk; (repeat' (first | assumption | split)); done) | simp) (by first | exact id | (intro hk; (repeat' (first | assumption | split)); done) | simp))

theorem State.sampleTamper_steady {s0 s : State} (tamper : Nat) (tamperB : Nat) (hst : Steady s0 s) :
    Steady s0 (State.sampleTamper tamper tamperB s) := by
  unfold State.sampleTamper
  repeat' first
    | assumption
    | (intro _)
    | with_reducible apply State.alarmTamper_steady
    | with_reducible apply Steady.foldl
    | (fail_if_no_progress refine Steady.upd ?_ rfl rfl rfl (by first | rfl | (simp <;> rfl)) (by first | rfl | (simp <;> rfl)) (by first | rfl | (simp <;> rfl)) (by exact fun _ _ h => h) (by first | exact id | (intro hk; (repeat' (first | assumption | split)); done) | simp) (by first | exact id | (intro hk; (repeat' (first | assumption | split)); done) | simp))

theorem State.sampleCoolant_steady {s0 s : State} (ok : Bool) (hst : Steady s0 s) :
    Steady s0 (State.sampleCoolant ok s) := by
  unfold State.sampleCoolant
  repeat' first
    | assumption
    | (intro _)
    | with_reducible apply State.alarmSafestop_steady
    | with_reducible apply Steady.ite
    | (fail_if_no_progress refine Steady.upd ?_ rfl rfl rfl (by first | rfl | (simp <;> rfl)) (by first | rfl | (simp <;> rfl)) (by first | rfl | (simp <;> rfl)) (by exact fun _ _ h => h) (by first | exact id | (intro hk; (repeat' (first | assumption | split)); done) | simp) (by first | exact id | (intro hk; (repeat' (first | assumption | split)); done) | simp))

end Sys2Proof.Machine
end

