-- ==== Sys2Proof/Laws/SteadyCommands.lean ====
section
/-!
SUPPORT. The operations of Machine/Commands.lean keep what every step keeps (Laws/Steady.lean).
-/

namespace Sys2Proof.Machine

set_option linter.unreachableTactic false
set_option linter.unusedTactic false
set_option linter.unnecessarySeqFocus false

theorem State.decodeBuffer_steady {s0 s : State} (hst : Steady s0 s) :
    Steady s0 (State.decodeBuffer s) := by
  unfold State.decodeBuffer
  repeat' first
    | assumption
    | (intro _)
    | (fail_if_no_progress refine Steady.upd ?_ rfl rfl rfl (by first | rfl | (simp <;> rfl)) (by first | rfl | (simp <;> rfl)) (by first | rfl | (simp <;> rfl)) (by exact fun _ _ h => h) (by first | exact id | (intro hk; (repeat' (first | assumption | split)); done) | simp) (by first | exact id | (intro hk; (repeat' (first | assumption | split)); done) | simp))

theorem State.rejectPacket_steady {s0 s : State} (b : Bytes) (fn : Nat) (qid : Nat) (st : Nat) (hst : Steady s0 s) :
    Steady s0 (State.rejectPacket b fn qid st s) := by
  unfold State.rejectPacket
  repeat' first
    | assumption
    | (intro _)
    | with_reducible apply State.bump_steady
    | with_reducible apply State.event_steady
    | (fail_if_no_progress refine Steady.upd ?_ rfl rfl rfl (by first | rfl | (simp <;> rfl)) (by first | rfl | (simp <;> rfl)) (by first | rfl | (simp <;> rfl)) (by exact fun _ _ h => h) (by first | exact id | (intro hk; (repeat' (first | assumption | split)); done) | simp) (by first | exact id | (intro hk; (repeat' (first | assumption | split)); done) | simp))

theorem State.hint_steady {s0 s : State} (durationUs : Nat) (targets : Nat) (hst : Steady s0 s) :
    Steady s0 (State.hint durationUs targets s) := by
  unfold State.hint
  repeat' first
    | assumption
    | (intro _)
    | with_reducible apply Steady.ite
    | (fail_if_no_progress refine Steady.upd ?_ rfl rfl rfl (by first | rfl | (simp <;> rfl)) (by first | rfl | (simp <;> rfl)) (by first | rfl | (simp <;> rfl)) (by exact fun _ _ h => h) (by first | exact id | (intro hk; (repeat' (first | assumption | split)); done) | simp) (by first | exact id | (intro hk; (repeat' (first | assumption | split)); done) | simp))
    | split

theorem State.placePacket_steady {s0 s : State} (b : Bytes) (c : Call) (hst : Steady s0 s) :
    Steady s0 (State.placePacket b c s) := by
  unfold State.placePacket
  repeat' first
    | assumption
    | (intro _)
    | with_reducible apply State.finishDetail_steady
    | with_reducible apply State.finish_steady
    | with_reducible apply State.hint_steady
    | with_reducible apply State.decodeBuffer_steady
    | with_reducible apply Steady.ite
    | (fail_if_no_progress refine Steady.upd ?_ rfl rfl rfl (by first | rfl | (simp <;> rfl)) (by first | rfl | (simp <;> rfl)) (by first | rfl | (simp <;> rfl)) (by exact fun _ _ h => h) (by first | exact id | (intro hk; (repeat' (first | assumption | split)); done) | simp) (by first | exact id | (intro hk; (repeat' (first | assumption | split)); done) | simp))
    | split

theorem State.helmWait_steady {s0 s : State} (kind : Nat) (waiter : Option Nat) (object : Nat) (hst : Steady s0 s) :
    Steady s0 (State.helmWait kind waiter object s) := by
  unfold State.helmWait
  repeat' first
    | assumption
    | (intro _)
    | with_reducible apply State.waitBegin_steady
    | with_reducible apply Steady.ite

theorem State.noteWait_steady {s0 s : State} (q : Queued) (hst : Steady s0 s) :
    Steady s0 (State.noteWait s q) := by
  unfold State.noteWait
  repeat' first
    | assumption
    | (intro _)
    | with_reducible apply State.wantMark_steady
    | with_reducible apply State.helmWait_steady
    | with_reducible apply Steady.ite

theorem State.startCommand_steady {s0 s : State} (q : Queued) (hst : Steady s0 s) :
    Steady s0 (State.startCommand q s) := by
  unfold State.startCommand
  repeat' first
    | assumption
    | (intro _)
    | with_reducible apply State.waitEnd_steady
    | (fail_if_no_progress refine Steady.upd ?_ rfl rfl rfl (by first | rfl | (simp <;> rfl)) (by first | rfl | (simp <;> rfl)) (by first | rfl | (simp <;> rfl)) (by exact fun _ _ h => h) (by first | exact id | (intro hk; (repeat' (first | assumption | split)); done) | simp) (by first | exact id | (intro hk; (repeat' (first | assumption | split)); done) | simp))

theorem State.windowGo_steady {s0 s : State} (fn : Nat) (hst : Steady s0 s) :
    Steady s0 (State.windowGo fn s) := by
  unfold State.windowGo
  repeat' first
    | assumption
    | (intro _)
    | with_reducible apply State.bump_steady
    | with_reducible apply State.finishDetail_steady
    | with_reducible apply Steady.ite
    | (fail_if_no_progress refine Steady.upd ?_ rfl rfl rfl (by first | rfl | (simp <;> rfl)) (by first | rfl | (simp <;> rfl)) (by first | rfl | (simp <;> rfl)) (by exact fun _ _ h => h) (by first | exact id | (intro hk; (repeat' (first | assumption | split)); done) | simp) (by first | exact id | (intro hk; (repeat' (first | assumption | split)); done) | simp))
    | split

theorem State.afterRecord_steady {s0 s : State} (c : Call) (hst : Steady s0 s) :
    Steady s0 (State.afterRecord c s) := by
  unfold State.afterRecord
  repeat' first
    | assumption
    | (intro _)
    | with_reducible apply State.signalMark_steady
    | with_reducible apply State.wantMark_steady
    | with_reducible apply Steady.ite
    | (fail_if_no_progress refine Steady.upd ?_ rfl rfl rfl (by first | rfl | (simp <;> rfl)) (by first | rfl | (simp <;> rfl)) (by first | rfl | (simp <;> rfl)) (by exact fun _ _ h => h) (by first | exact id | (intro hk; (repeat' (first | assumption | split)); done) | simp) (by first | exact id | (intro hk; (repeat' (first | assumption | split)); done) | simp))

theorem State.endOverrun_steady {s0 s : State} (hst : Steady s0 s) :
    Steady s0 (State.endOverrun s) := by
  unfold State.endOverrun
  repeat' first
    | assumption
    | (intro _)
    | with_reducible apply State.waitEnd_steady
    | with_reducible apply State.event_steady
    | with_reducible apply Steady.ite
    | (fail_if_no_progress refine Steady.upd ?_ rfl rfl rfl (by first | rfl | (simp <;> rfl)) (by first | rfl | (simp <;> rfl)) (by first | rfl | (simp <;> rfl)) (by exact fun _ _ h => h) (by first | exact id | (intro hk; (repeat' (first | assumption | split)); done) | simp) (by first | exact id | (intro hk; (repeat' (first | assumption | split)); done) | simp))
    | split

theorem State.putRecord_steady {s0 s : State} (b : Bytes) (hst : Steady s0 s) :
    Steady s0 (State.putRecord b s) := by
  unfold State.putRecord
  repeat' first
    | assumption
    | (intro _)
    | with_reducible apply State.emit_steady
    | with_reducible apply State.bump_steady
    | (fail_if_no_progress refine Steady.upd ?_ rfl rfl rfl (by first | rfl | (simp <;> rfl)) (by first | rfl | (simp <;> rfl)) (by first | rfl | (simp <;> rfl)) (by exact fun _ _ h => h) (by first | exact id | (intro hk; (repeat' (first | assumption | split)); done) | simp) (by first | exact id | (intro hk; (repeat' (first | assumption | split)); done) | simp))

theorem State.ringPut_steady {s0 s : State} (b : Bytes) (hst : Steady s0 s) : Steady s0 (State.ringPut b s) := by
  have hp {b} := State.putRecord_steady b hst
  unfold State.ringPut
  refine Steady.ite (State.bump_steady _ _ (Steady.with_hlm hst _)) (Steady.ite hp ?_)
  exact Steady.ite (State.putRecord_steady _ (Steady.with_hlm hp _)) (State.bump_steady _ _ (Steady.with_hlm (Steady.with_hlm hp _) _))

end Sys2Proof.Machine
end

