-- ==== Sys2Proof/Laws/SteadyTollgate.lean ====
section
/-!
SUPPORT. The operations of Machine/Tollgate.lean keep what every step keeps (Laws/Steady.lean).
-/

namespace Sys2Proof.Machine

set_option linter.unreachableTactic false
set_option linter.unusedTactic false
set_option linter.unnecessarySeqFocus false

theorem State.policyError_steady {s0 s : State} (c : Call) (off : Nat) (hst : Steady s0 s) :
    Steady s0 (State.policyError c off s) := by
  unfold State.policyError
  repeat' first
    | assumption
    | (intro _)
    | with_reducible apply State.finish_steady
    | (fail_if_no_progress refine Steady.upd ?_ rfl rfl rfl (by first | rfl | (simp <;> rfl)) (by first | rfl | (simp <;> rfl)) (by first | rfl | (simp <;> rfl)) (by exact fun _ _ h => h) (by first | exact id | (intro hk; (repeat' (first | assumption | split)); done) | simp) (by first | exact id | (intro hk; (repeat' (first | assumption | split)); done) | simp))

theorem State.refuseExport_steady {s0 s : State} (e : Export) (st : Nat) (hst : Steady s0 s) :
    Steady s0 (State.refuseExport e st s) := by
  unfold State.refuseExport
  repeat' first
    | assumption
    | (intro _)
    | with_reducible apply State.hold_steady
    | with_reducible apply State.bump_steady
    | with_reducible apply State.finish_steady
    | (fail_if_no_progress refine Steady.upd ?_ rfl rfl rfl (by first | rfl | (simp <;> rfl)) (by first | rfl | (simp <;> rfl)) (by first | rfl | (simp <;> rfl)) (by exact fun _ _ h => h) (by first | exact id | (intro hk; (repeat' (first | assumption | split)); done) | simp) (by first | exact id | (intro hk; (repeat' (first | assumption | split)); done) | simp))

theorem State.setExport_steady {s0 s : State} (e : Export) (hst : Steady s0 s) :
    Steady s0 (State.setExport e s) := by
  unfold State.setExport
  repeat' first
    | assumption
    | (intro _)
    | (fail_if_no_progress refine Steady.upd ?_ rfl rfl rfl (by first | rfl | (simp <;> rfl)) (by first | rfl | (simp <;> rfl)) (by first | rfl | (simp <;> rfl)) (by exact fun _ _ h => h) (by first | exact id | (intro hk; (repeat' (first | assumption | split)); done) | simp) (by first | exact id | (intro hk; (repeat' (first | assumption | split)); done) | simp))

theorem State.normPass_steady {s0 s : State} (e : Export) (src : BufRead) (hst : Steady s0 s) :
    Steady s0 (State.normPass e src s) := by
  unfold State.normPass
  repeat' first
    | assumption
    | (intro _)
    | with_reducible apply State.withEntropy_steady
    | with_reducible apply State.tookDraw_steady
    | with_reducible apply State.bump_steady
    | with_reducible apply State.setExport_steady
    | with_reducible apply State.hold_steady
    | with_reducible apply State.emit_steady
    | with_reducible apply State.refuseExport_steady
    | with_reducible apply Steady.ite
    | (fail_if_no_progress refine Steady.upd ?_ rfl rfl rfl (by first | rfl | (simp <;> rfl)) (by first | rfl | (simp <;> rfl)) (by first | rfl | (simp <;> rfl)) (by exact fun _ _ h => h) (by first | exact id | (intro hk; (repeat' (first | assumption | split)); done) | simp) (by first | exact id | (intro hk; (repeat' (first | assumption | split)); done) | simp))
    | split

theorem State.runExport_steady {s0 s : State} (e : Export) (policy : BufRead) (src : BufRead) (hst : Steady s0 s) :
    Steady s0 (State.runExport e policy src s) := by
  unfold State.runExport
  repeat' first
    | assumption
    | (intro _)
    | with_reducible apply State.refuseExport_steady
    | with_reducible apply State.emit_steady
    | with_reducible apply State.normPass_steady
    | with_reducible apply Steady.ite
    | (fail_if_no_progress refine Steady.upd ?_ rfl rfl rfl (by first | rfl | (simp <;> rfl)) (by first | rfl | (simp <;> rfl)) (by first | rfl | (simp <;> rfl)) (by exact fun _ _ h => h) (by first | exact id | (intro hk; (repeat' (first | assumption | split)); done) | simp) (by first | exact id | (intro hk; (repeat' (first | assumption | split)); done) | simp))
    | split
    | dsimp only

theorem State.failExport_steady {s0 s : State} (e : Export) (st : Nat) (hst : Steady s0 s) :
    Steady s0 (State.failExport e st s) := by
  unfold State.failExport
  repeat' first
    | assumption
    | (intro _)
    | with_reducible apply State.hold_steady
    | with_reducible apply State.finish_steady
    | (fail_if_no_progress refine Steady.upd ?_ rfl rfl rfl (by first | rfl | (simp <;> rfl)) (by first | rfl | (simp <;> rfl)) (by first | rfl | (simp <;> rfl)) (by exact fun _ _ h => h) (by first | exact id | (intro hk; (repeat' (first | assumption | split)); done) | simp) (by first | exact id | (intro hk; (repeat' (first | assumption | split)); done) | simp))

theorem State.takeLock_steady {s0 s : State} (e : Export) (hst : Steady s0 s) :
    Steady s0 (State.takeLock e s) := by
  unfold State.takeLock
  repeat' first
    | assumption
    | (intro _)
    | with_reducible apply State.kickBooth_steady
    | with_reducible apply Steady.ite
    | (fail_if_no_progress refine Steady.upd ?_ rfl rfl rfl (by first | rfl | (simp <;> rfl)) (by first | rfl | (simp <;> rfl)) (by first | rfl | (simp <;> rfl)) (by exact fun _ _ h => h) (by first | exact id | (intro hk; (repeat' (first | assumption | split)); done) | simp) (by first | exact id | (intro hk; (repeat' (first | assumption | split)); done) | simp))

end Sys2Proof.Machine
end

