-- ==== Sys2Proof/Laws/SteadyFuse.lean ====
section
/-!
SUPPORT. The operations of Machine/Fuse.lean keep what every step keeps (Laws/Steady.lean).
-/

namespace Sys2Proof.Machine

set_option linter.unreachableTactic false
set_option linter.unusedTactic false
set_option linter.unnecessarySeqFocus false

theorem State.dropExport_steady {s0 s : State} (hst : Steady s0 s) :
    Steady s0 (State.dropExport s) := by
  unfold State.dropExport
  repeat' first
    | assumption
    | (intro _)
    | with_reducible apply State.hold_steady
    | with_reducible apply State.modStallData_steady
    | with_reducible apply State.writeRecord_steady
    | with_reducible apply Steady.ite
    | (fail_if_no_progress refine Steady.upd ?_ rfl rfl rfl (by first | rfl | (simp <;> rfl)) (by first | rfl | (simp <;> rfl)) (by first | rfl | (simp <;> rfl)) (by exact fun _ _ h => h) (by first | exact id | (intro hk; (repeat' (first | assumption | split)); done) | simp) (by first | exact id | (intro hk; (repeat' (first | assumption | split)); done) | simp))
    | split

theorem State.clearExchanges_steady {s0 s : State} (hst : Steady s0 s) :
    Steady s0 (State.clearExchanges s) := by
  unfold State.clearExchanges
  repeat' first
    | assumption
    | (intro _)
    | (fail_if_no_progress refine Steady.upd ?_ rfl rfl rfl (by first | rfl | (simp <;> rfl)) (by first | rfl | (simp <;> rfl)) (by first | rfl | (simp <;> rfl)) (by exact fun _ _ h => h) (by first | exact id | (intro hk; (repeat' (first | assumption | split)); done) | simp) (by first | exact id | (intro hk; (repeat' (first | assumption | split)); done) | simp))

theorem State.startCore_steady {s0 s : State} (cause : Nat) (hst : Steady s0 s) :
    Steady s0 (State.startCore cause s) := by
  unfold State.startCore
  repeat' first
    | assumption
    | (intro _)
    | with_reducible apply State.dropExport_steady
    | with_reducible apply State.waitEnd_steady
    | with_reducible apply State.clearExchanges_steady
    | with_reducible apply State.bump_steady
    | with_reducible apply Steady.foldl
    | (fail_if_no_progress refine Steady.upd ?_ rfl rfl rfl (by first | rfl | (simp <;> rfl)) (by first | rfl | (simp <;> rfl)) (by first | rfl | (simp <;> rfl)) (by exact fun _ _ h => h) (by first | exact id | (intro hk; (repeat' (first | assumption | split)); done) | simp) (by first | exact id | (intro hk; (repeat' (first | assumption | split)); done) | simp))

theorem State.beginCore_steady {s0 s : State} (cause : Nat) (hst : Steady s0 s) :
    Steady s0 (State.beginCore cause s) := by
  unfold State.beginCore
  repeat' first
    | assumption
    | (intro _)
    | with_reducible apply State.startCore_steady
    | with_reducible apply Steady.ite
    | (fail_if_no_progress refine Steady.upd ?_ rfl rfl rfl (by first | rfl | (simp <;> rfl)) (by first | rfl | (simp <;> rfl)) (by first | rfl | (simp <;> rfl)) (by exact fun _ _ h => h) (by first | exact id | (intro hk; (repeat' (first | assumption | split)); done) | simp) (by first | exact id | (intro hk; (repeat' (first | assumption | split)); done) | simp))

theorem State.coreDue_steady {s0 s : State} (hst : Steady s0 s) :
    Steady s0 (State.coreDue s) := by
  unfold State.coreDue
  repeat' first
    | assumption
    | (intro _)
    | with_reducible apply State.beginCore_steady
    | with_reducible apply Steady.ite
    | (fail_if_no_progress refine Steady.upd ?_ rfl rfl rfl (by first | rfl | (simp <;> rfl)) (by first | rfl | (simp <;> rfl)) (by first | rfl | (simp <;> rfl)) (by exact fun _ _ h => h) (by first | exact id | (intro hk; (repeat' (first | assumption | split)); done) | simp) (by first | exact id | (intro hk; (repeat' (first | assumption | split)); done) | simp))
    | split

theorem State.enterDead_steady {s0 s : State} (hst : Steady s0 s) :
    Steady s0 (State.enterDead s) := by
  unfold State.enterDead
  repeat' first
    | assumption
    | (intro _)
    | (fail_if_no_progress refine Steady.upd ?_ rfl rfl rfl (by first | rfl | (simp <;> rfl)) (by first | rfl | (simp <;> rfl)) (by first | rfl | (simp <;> rfl)) (by exact fun _ _ h => h) (by first | exact id | (intro hk; (repeat' (first | assumption | split)); done) | simp) (by first | exact id | (intro hk; (repeat' (first | assumption | split)); done) | simp))

theorem State.newNonce_steady {s0 s : State} (hst : Steady s0 s) :
    Steady s0 (State.newNonce s) := by
  unfold State.newNonce
  repeat' first
    | assumption
    | (intro _)
    | with_reducible apply State.tookDraw_steady
    | (fail_if_no_progress refine Steady.upd ?_ rfl rfl rfl (by first | rfl | (simp <;> rfl)) (by first | rfl | (simp <;> rfl)) (by first | rfl | (simp <;> rfl)) (by exact fun _ _ h => h) (by first | exact id | (intro hk; (repeat' (first | assumption | split)); done) | simp) (by first | exact id | (intro hk; (repeat' (first | assumption | split)); done) | simp))

theorem State.loadDrk_steady {s0 s : State} (hst : Steady s0 s) : Steady s0 (State.loadDrk s) := by
  unfold State.loadDrk
  refine Steady.ite hst ?_
  generalize s.lcu.bank? = b
  cases b with
  | none => exact Steady.with_sbx hst _
  | some b =>
    exact Steady.ite (Steady.with_sbx hst _) (State.alarmTamper_steady _ _ _
      (Steady.upd hst rfl rfl rfl rfl rfl rfl (fun _ _ h => h) id id))

theorem State.useSeed_steady {s0 s : State} (hst : Steady s0 s) : Steady s0 (State.useSeed s) := by
  unfold State.useSeed
  exact Steady.ite (Steady.with_sty hst _) (Steady.with_sty hst _)

theorem State.useTestSeed_steady {s0 s : State} (hst : Steady s0 s) :
    Steady s0 (State.useTestSeed s) := by
  unfold State.useTestSeed
  repeat' first
    | assumption
    | (intro _)
    | (fail_if_no_progress refine Steady.upd ?_ rfl rfl rfl (by first | rfl | (simp <;> rfl)) (by first | rfl | (simp <;> rfl)) (by first | rfl | (simp <;> rfl)) (by exact fun _ _ h => h) (by first | exact id | (intro hk; (repeat' (first | assumption | split)); done) | simp) (by first | exact id | (intro hk; (repeat' (first | assumption | split)); done) | simp))

theorem State.queueJob_steady {s0 s : State} (goal : FuseGoal) (bits : List (Nat × Nat)) (hst : Steady s0 s) :
    Steady s0 (State.queueJob goal bits s) := by
  unfold State.queueJob
  repeat' first
    | assumption
    | (intro _)
    | (fail_if_no_progress refine Steady.upd ?_ rfl rfl rfl (by first | rfl | (simp <;> rfl)) (by first | rfl | (simp <;> rfl)) (by first | rfl | (simp <;> rfl)) (by exact fun _ _ h => h) (by first | exact id | (intro hk; (repeat' (first | assumption | split)); done) | simp) (by first | exact id | (intro hk; (repeat' (first | assumption | split)); done) | simp))

theorem State.lifecycleJob_steady {s0 s : State} (bits : List (Nat × Nat)) (hst : Steady s0 s) :
    Steady s0 (State.lifecycleJob bits s) := by
  unfold State.lifecycleJob
  repeat' first
    | assumption
    | (intro _)
    | (fail_if_no_progress refine Steady.upd ?_ rfl rfl rfl (by first | rfl | (simp <;> rfl)) (by first | rfl | (simp <;> rfl)) (by first | rfl | (simp <;> rfl)) (by exact fun _ _ h => h) (by first | exact id | (intro hk; (repeat' (first | assumption | split)); done) | simp) (by first | exact id | (intro hk; (repeat' (first | assumption | split)); done) | simp))

theorem State.modTransition_steady {s0 s : State} (f : Transition → Transition) (hst : Steady s0 s) :
    Steady s0 (State.modTransition f s) := by
  unfold State.modTransition
  repeat' first
    | assumption
    | (intro _)
    | (fail_if_no_progress refine Steady.upd ?_ rfl rfl rfl (by first | rfl | (simp <;> rfl)) (by first | rfl | (simp <;> rfl)) (by first | rfl | (simp <;> rfl)) (by exact fun _ _ h => h) (by first | exact id | (intro hk; (repeat' (first | assumption | split)); done) | simp) (by first | exact id | (intro hk; (repeat' (first | assumption | split)); done) | simp))

theorem State.beginWipe_steady {s0 s : State} (t : Transition) (hst : Steady s0 s) :
    Steady s0 (State.beginWipe t s) := by
  unfold State.beginWipe
  repeat' first
    | assumption
    | (intro _)
    | with_reducible apply State.zeroize_steady
    | with_reducible apply State.enterQuiet_steady
    | with_reducible apply State.clearAnchor_steady
    | with_reducible apply State.modTransition_steady
    | with_reducible apply State.lifecycleJob_steady
    | with_reducible apply State.emit_steady
    | with_reducible apply Steady.ite
    | (fail_if_no_progress refine Steady.upd ?_ rfl rfl rfl (by first | rfl | (simp <;> rfl)) (by first | rfl | (simp <;> rfl)) (by first | rfl | (simp <;> rfl)) (by exact fun _ _ h => h) (by first | exact id | (intro hk; (repeat' (first | assumption | split)); done) | simp) (by first | exact id | (intro hk; (repeat' (first | assumption | split)); done) | simp))
    | split
    | dsimp only

theorem State.endTransition_steady {s0 s : State} (t : Transition) (code : Nat) (hst : Steady s0 s) :
    Steady s0 (State.endTransition t code s) := by
  unfold State.endTransition
  repeat' first
    | assumption
    | (intro _)
    | with_reducible apply State.event_steady
    | with_reducible apply State.newNonce_steady
    | with_reducible apply Steady.ite
    | (fail_if_no_progress refine Steady.upd ?_ rfl rfl rfl (by first | rfl | (simp <;> rfl)) (by first | rfl | (simp <;> rfl)) (by first | rfl | (simp <;> rfl)) (by exact fun _ _ h => h) (by first | exact id | (intro hk; (repeat' (first | assumption | split)); done) | simp) (by first | exact id | (intro hk; (repeat' (first | assumption | split)); done) | simp))
    | split

theorem State.failTransition_steady {s0 s : State} (hst : Steady s0 s) :
    Steady s0 (State.failTransition s) := by
  unfold State.failTransition
  repeat' first
    | assumption
    | (intro _)
    | with_reducible apply State.newNonce_steady
    | with_reducible apply State.enterDead_steady
    | with_reducible apply Steady.ite
    | (fail_if_no_progress refine Steady.upd ?_ rfl rfl rfl (by first | rfl | (simp <;> rfl)) (by first | rfl | (simp <;> rfl)) (by first | rfl | (simp <;> rfl)) (by exact fun _ _ h => h) (by first | exact id | (intro hk; (repeat' (first | assumption | split)); done) | simp) (by first | exact id | (intro hk; (repeat' (first | assumption | split)); done) | simp))
    | split

theorem State.loadFuses_steady {s0 s : State} (hst : Steady s0 s) :
    Steady s0 (State.loadFuses s) := by
  unfold State.loadFuses
  repeat' first
    | assumption
    | (intro _)
    | with_reducible apply State.alarmTamper_steady
    | with_reducible apply State.loadDrk_steady
    | with_reducible apply State.tookDraw_steady
    | with_reducible apply State.useTestSeed_steady
    | with_reducible apply State.queueJob_steady
    | with_reducible apply State.useSeed_steady
    | with_reducible apply Steady.ite
    | (fail_if_no_progress refine Steady.upd ?_ rfl rfl rfl (by first | rfl | (simp <;> rfl)) (by first | rfl | (simp <;> rfl)) (by first | rfl | (simp <;> rfl)) (by exact fun _ _ h => h) (by first | exact id | (intro hk; (repeat' (first | assumption | split)); done) | simp) (by first | exact id | (intro hk; (repeat' (first | assumption | split)); done) | simp))
    | split

theorem State.verifyTransition_steady {s0 s : State} (t : Transition) (hst : Steady s0 s) :
    Steady s0 (State.verifyTransition t s) := by
  unfold State.verifyTransition
  repeat' first
    | assumption
    | (intro _)
    | with_reducible apply State.failTransition_steady
    | with_reducible apply State.event_steady
    | with_reducible apply State.enterDead_steady
    | with_reducible apply State.loadFuses_steady
    | with_reducible apply State.endTransition_steady
    | with_reducible apply Steady.ite
    | (fail_if_no_progress refine Steady.upd ?_ rfl rfl rfl (by first | rfl | (simp <;> rfl)) (by first | rfl | (simp <;> rfl)) (by first | rfl | (simp <;> rfl)) (by exact fun _ _ h => h) (by first | exact id | (intro hk; (repeat' (first | assumption | split)); done) | simp) (by first | exact id | (intro hk; (repeat' (first | assumption | split)); done) | simp))

theorem State.nextPhase_steady {s0 s : State} (hst : Steady s0 s) :
    Steady s0 (State.nextPhase s) := by
  unfold State.nextPhase
  repeat' first
    | assumption
    | (intro _)
    | with_reducible apply State.beginWipe_steady
    | with_reducible apply State.modTransition_steady
    | with_reducible apply State.lifecycleJob_steady
    | with_reducible apply State.verifyTransition_steady
    | with_reducible apply Steady.ite
    | (fail_if_no_progress refine Steady.upd ?_ rfl rfl rfl (by first | rfl | (simp <;> rfl)) (by first | rfl | (simp <;> rfl)) (by first | rfl | (simp <;> rfl)) (by exact fun _ _ h => h) (by first | exact id | (intro hk; (repeat' (first | assumption | split)); done) | simp) (by first | exact id | (intro hk; (repeat' (first | assumption | split)); done) | simp))
    | split

theorem State.jobDone_steady {s0 s : State} (goal : FuseGoal) (hst : Steady s0 s) :
    Steady s0 (State.jobDone goal s) := by
  unfold State.jobDone
  repeat' first
    | assumption
    | (intro _)
    | with_reducible apply State.nextPhase_steady
    | with_reducible apply State.loadDrk_steady
    | with_reducible apply State.finishOk_steady
    | with_reducible apply State.finish_steady
    | with_reducible apply State.useSeed_steady
    | with_reducible apply State.firstReading_steady
    | (fail_if_no_progress refine Steady.upd ?_ rfl rfl rfl (by first | rfl | (simp <;> rfl)) (by first | rfl | (simp <;> rfl)) (by first | rfl | (simp <;> rfl)) (by exact fun _ _ h => h) (by first | exact id | (intro hk; (repeat' (first | assumption | split)); done) | simp) (by first | exact id | (intro hk; (repeat' (first | assumption | split)); done) | simp))
    | split

theorem State.fuseRun_steady {s0 s : State} (n : Nat) (hst : Steady s0 s) : Steady s0 (State.fuseRun n s) := by
  induction n generalizing s with
  | zero => exact hst
  | succ n ih =>
    unfold State.fuseRun
    split
    · exact hst
    · exact ih (Steady.upd hst rfl rfl rfl rfl rfl rfl (fun _ _ h => h) id id)
    · refine Steady.ite hst ?_
      split
      · exact ih (State.jobDone_steady _ (Steady.upd hst rfl rfl rfl rfl rfl rfl (fun _ _ h => h) id id))
      · exact Steady.upd (State.emit_steady _ hst) rfl rfl rfl rfl rfl rfl (fun _ _ h => h) id id

theorem State.runFuses_steady {s0 s : State} (hst : Steady s0 s) :
    Steady s0 (State.runFuses s) := by
  unfold State.runFuses
  repeat' first
    | assumption
    | (intro _)
    | with_reducible apply State.fuseRun_steady
    | with_reducible apply State.coreDue_steady

theorem State.dropJob_steady {s0 s : State} (hst : Steady s0 s) :
    Steady s0 (State.dropJob s) := by
  unfold State.dropJob
  repeat' first
    | assumption
    | (intro _)
    | with_reducible apply State.failTransition_steady
    | with_reducible apply Steady.ite
    | (fail_if_no_progress refine Steady.upd ?_ rfl rfl rfl (by first | rfl | (simp <;> rfl)) (by first | rfl | (simp <;> rfl)) (by first | rfl | (simp <;> rfl)) (by exact fun _ _ h => h) (by first | exact id | (intro hk; (repeat' (first | assumption | split)); done) | simp) (by first | exact id | (intro hk; (repeat' (first | assumption | split)); done) | simp))
    | split

theorem State.pgmError_steady {s0 s : State} (hst : Steady s0 s) :
    Steady s0 (State.pgmError s) := by
  unfold State.pgmError
  repeat' first
    | assumption
    | (intro _)
    | with_reducible apply State.alarmTamper_steady
    | with_reducible apply State.dropJob_steady
    | with_reducible apply State.emit_steady
    | with_reducible apply Steady.ite
    | (fail_if_no_progress refine Steady.upd ?_ rfl rfl rfl (by first | rfl | (simp <;> rfl)) (by first | rfl | (simp <;> rfl)) (by first | rfl | (simp <;> rfl)) (by exact fun _ _ h => h) (by first | exact id | (intro hk; (repeat' (first | assumption | split)); done) | simp) (by first | exact id | (intro hk; (repeat' (first | assumption | split)); done) | simp))
    | split

theorem State.lcRefused_steady {s0 s : State} (target : Nat) (detail : Nat) (hst : Steady s0 s) :
    Steady s0 (State.lcRefused target detail s) := by
  unfold State.lcRefused
  repeat' first
    | assumption
    | (intro _)
    | with_reducible apply State.event_steady
    | with_reducible apply State.newNonce_steady
    | (fail_if_no_progress refine Steady.upd ?_ rfl rfl rfl (by first | rfl | (simp <;> rfl)) (by first | rfl | (simp <;> rfl)) (by first | rfl | (simp <;> rfl)) (by exact fun _ _ h => h) (by first | exact id | (intro hk; (repeat' (first | assumption | split)); done) | simp) (by first | exact id | (intro hk; (repeat' (first | assumption | split)); done) | simp))

theorem State.beginTransition_steady {s0 s : State} (target : Nat) (auth : Bytes) (tap : Bool) (call : Option Call) (hst : Steady s0 s) :
    Steady s0 (State.beginTransition target auth tap call s) := by
  unfold State.beginTransition
  repeat' first
    | assumption
    | (intro _)
    | with_reducible apply State.lifecycleJob_steady
    | with_reducible apply State.runFuses_steady
    | (fail_if_no_progress refine Steady.upd ?_ rfl rfl rfl (by first | rfl | (simp <;> rfl)) (by first | rfl | (simp <;> rfl)) (by first | rfl | (simp <;> rfl)) (by exact fun _ _ h => h) (by first | exact id | (intro hk; (repeat' (first | assumption | split)); done) | simp) (by first | exact id | (intro hk; (repeat' (first | assumption | split)); done) | simp))

end Sys2Proof.Machine
end

