-- ==== Sys2Proof/Laws/SteadyLoader.lean ====
section
/-!
SUPPORT. The operations of Machine/Loader.lean keep what every step keeps (Laws/Steady.lean).
-/

namespace Sys2Proof.Machine

set_option linter.unreachableTactic false
set_option linter.unusedTactic false
set_option linter.unnecessarySeqFocus false

theorem State.writeSettings_steady {s0 s : State} (records : List SettingsRec) (hst : Steady s0 s) :
    Steady s0 (State.writeSettings records s) := by
  unfold State.writeSettings
  repeat' first
    | assumption
    | (intro _)
    | with_reducible apply State.tookDraw_steady
    | with_reducible apply State.emits_steady
    | with_reducible apply State.emit_steady
    | with_reducible apply Steady.ite
    | (fail_if_no_progress refine Steady.upd ?_ rfl rfl rfl (by first | rfl | (simp <;> rfl)) (by first | rfl | (simp <;> rfl)) (by first | rfl | (simp <;> rfl)) (by exact fun _ _ h => h) (by first | exact id | (intro hk; (repeat' (first | assumption | split)); done) | simp) (by first | exact id | (intro hk; (repeat' (first | assumption | split)); done) | simp))

theorem State.openSettings_steady {s0 s : State} (hst : Steady s0 s) :
    Steady s0 (State.openSettings s) := by
  unfold State.openSettings
  repeat' first
    | assumption
    | (intro _)
    | with_reducible apply State.event_steady
    | with_reducible apply Steady.ite
    | with_reducible apply Steady.foldl
    | (fail_if_no_progress refine Steady.upd ?_ rfl rfl rfl (by first | rfl | (simp <;> rfl)) (by first | rfl | (simp <;> rfl)) (by first | rfl | (simp <;> rfl)) (by exact fun _ _ h => h) (by first | exact id | (intro hk; (repeat' (first | assumption | split)); done) | simp) (by first | exact id | (intro hk; (repeat' (first | assumption | split)); done) | simp))
    | split
    | dsimp only

theorem State.writeSeal_steady {s0 s : State} (gen : Nat) (sigs : Bytes) (hst : Steady s0 s) :
    Steady s0 (State.writeSeal gen sigs s) := by
  unfold State.writeSeal
  repeat' first
    | assumption
    | (intro _)
    | with_reducible apply State.emits_steady
    | (fail_if_no_progress refine Steady.upd ?_ rfl rfl rfl (by first | rfl | (simp <;> rfl)) (by first | rfl | (simp <;> rfl)) (by first | rfl | (simp <;> rfl)) (by exact fun _ _ h => h) (by first | exact id | (intro hk; (repeat' (first | assumption | split)); done) | simp) (by first | exact id | (intro hk; (repeat' (first | assumption | split)); done) | simp))

theorem State.countBreak_steady {s0 s : State} (n : Nat) (why : Nat) (hst : Steady s0 s) :
    Steady s0 (State.countBreak n why s) := by
  unfold State.countBreak
  repeat' first
    | assumption
    | (intro _)
    | with_reducible apply State.queueJob_steady
    | with_reducible apply State.event_steady

theorem State.isSealed_steady {s0 s : State} (hst : Steady s0 s) :
    Steady s0 (State.isSealed s) := by
  unfold State.isSealed
  repeat' first
    | assumption
    | (intro _)
    | (fail_if_no_progress refine Steady.upd ?_ rfl rfl rfl (by first | rfl | (simp <;> rfl)) (by first | rfl | (simp <;> rfl)) (by first | rfl | (simp <;> rfl)) (by exact fun _ _ h => h) (by first | exact id | (intro hk; (repeat' (first | assumption | split)); done) | simp) (by first | exact id | (intro hk; (repeat' (first | assumption | split)); done) | simp))

theorem State.sealEvaluate_steady {s0 s : State} (sigs : Bytes) (hst : Steady s0 s) :
    Steady s0 (State.sealEvaluate sigs s) := by
  unfold State.sealEvaluate
  refine Steady.ite hst ?_
  have h1 := Steady.with_sty hst { s.sty with sd := sha384 (Config.styRomDigest ++ s.cfg.sty.bytes) }
  generalize { s with sty := { s.sty with sd := sha384 (Config.styRomDigest ++ s.cfg.sty.bytes) } } = t at h1
  refine Steady.ite h1 ?_
  have hw (n) := State.isSealed_steady (State.writeSeal_steady n sigs h1)
  refine Steady.ite (State.isSealed_steady h1) (Steady.ite (State.countBreak_steady _ _ (State.isSealed_steady h1)) (Steady.ite (hw _)
    (Steady.ite (State.event_steady _ _ _ _ _ (Steady.with_sty h1 _)) (State.countBreak_steady _ _ (hw _)))))

theorem State.applyPatches_steady {s0 s : State} (hst : Steady s0 s) :
    Steady s0 (State.applyPatches s) := by
  unfold State.applyPatches
  repeat' first
    | assumption
    | (intro _)
    | (fail_if_no_progress refine Steady.upd ?_ rfl rfl rfl (by first | rfl | (simp <;> rfl)) (by first | rfl | (simp <;> rfl)) (by first | rfl | (simp <;> rfl)) (by exact fun _ _ h => h) (by first | exact id | (intro hk; (repeat' (first | assumption | split)); done) | simp) (by first | exact id | (intro hk; (repeat' (first | assumption | split)); done) | simp))

theorem State.measure_steady {s0 s : State} (hst : Steady s0 s) :
    Steady s0 (State.measure s) := by
  unfold State.measure
  repeat' first
    | assumption
    | (intro _)
    | (fail_if_no_progress refine Steady.upd ?_ rfl rfl rfl (by first | rfl | (simp <;> rfl)) (by first | rfl | (simp <;> rfl)) (by first | rfl | (simp <;> rfl)) (by exact fun _ _ h => h) (by first | exact id | (intro hk; (repeat' (first | assumption | split)); done) | simp) (by first | exact id | (intro hk; (repeat' (first | assumption | split)); done) | simp))

theorem State.enterHarbour_steady {s0 s : State} (hp : s0.rst.phase ≠ .inReset) (hst : Steady s0 s) :
    Steady s0 (State.enterHarbour s) := by
  unfold State.enterHarbour
  obtain ⟨a1, a2, a3, a4, a5, a6, a7, a8, -⟩ := State.tookDraw_steady hst
  exact State.issueAlias_steady (State.measure_steady ⟨a1, a2, a3, a4, a5, a6, a7, a8, fun h => absurd h hp⟩)

theorem State.openPartitions_steady {s0 s : State} (hst : Steady s0 s) :
    Steady s0 (State.openPartitions s) := by
  unfold State.openPartitions
  repeat' first
    | assumption
    | (intro _)
    | with_reducible apply State.journal_steady
    | with_reducible apply Steady.ite
    | (fail_if_no_progress refine Steady.upd ?_ rfl rfl rfl (by first | rfl | (simp <;> rfl)) (by first | rfl | (simp <;> rfl)) (by first | rfl | (simp <;> rfl)) (by exact fun _ _ h => h) (by first | exact id | (intro hk; (repeat' (first | assumption | split)); done) | simp) (by first | exact id | (intro hk; (repeat' (first | assumption | split)); done) | simp))

theorem State.applyImage_steady {s0 s : State} (c : Cfg) (slotB : Bool) (hst : Steady s0 s) :
    Steady s0 (State.applyImage c slotB s) := by
  unfold State.applyImage
  repeat' first
    | assumption
    | (intro _)
    | with_reducible apply State.applyPatches_steady
    | (fail_if_no_progress refine Steady.upd ?_ rfl rfl rfl (by first | rfl | (simp <;> rfl)) (by first | rfl | (simp <;> rfl)) (by first | rfl | (simp <;> rfl)) (by exact fun _ _ h => h) (by first | exact id | (intro hk; (repeat' (first | assumption | split)); done) | simp) (by first | exact id | (intro hk; (repeat' (first | assumption | split)); done) | simp))

theorem State.createStall0_steady {s0 s : State} (hst : Steady s0 s) : Steady s0 (State.createStall0 s) := by
  unfold State.createStall0
  apply State.writeRecord_steady
  have h := State.tookDraw_steady (State.tookDraw_steady hst)
  dsimp only
  generalize s.tookDraw.tookDraw = t at h
  have h1 (o i d) := State.setStallData_steady 0 d (State.setStall_steady 0 i (State.emit_steady o h))
  have h2 (k o i d) : Steady s0 ((((t.emit o).setStall 0 i).setStallData 0 d).placeKey k |>.getD (((t.emit o).setStall 0 i).setStallData 0 d)) := by
    cases e : (((t.emit o).setStall 0 i).setStallData 0 d).placeKey k with
    | none => exact h1 _ _ _
    | some u => exact State.placeKey_steady (h1 _ _ _) _ e
  exact h2 _ _ _ _

theorem State.formatStore_steady {s0 s : State} (hst : Steady s0 s) :
    Steady s0 (State.formatStore s) := by
  unfold State.formatStore
  repeat' first
    | assumption
    | (intro _)
    | with_reducible apply State.tookDraw_steady
    | with_reducible apply State.emits_steady
    | with_reducible apply State.createStall0_steady
    | with_reducible apply State.beginBase_steady
    | with_reducible apply State.flushStore_steady
    | (fail_if_no_progress refine Steady.upd ?_ rfl rfl rfl (by first | rfl | (simp <;> rfl)) (by first | rfl | (simp <;> rfl)) (by first | rfl | (simp <;> rfl)) (by exact fun _ _ h => h) (by first | exact id | (intro hk; (repeat' (first | assumption | split)); done) | simp) (by first | exact id | (intro hk; (repeat' (first | assumption | split)); done) | simp))

theorem State.restoreSweeps_steady {s0 s : State} (hst : Steady s0 s) :
    Steady s0 (State.restoreSweeps s) := by
  unfold State.restoreSweeps
  repeat' first
    | assumption
    | (intro _)
    | with_reducible apply Steady.ite
    | (fail_if_no_progress refine Steady.upd ?_ rfl rfl rfl (by first | rfl | (simp <;> rfl)) (by first | rfl | (simp <;> rfl)) (by first | rfl | (simp <;> rfl)) (by exact fun _ _ h => h) (by first | exact id | (intro hk; (repeat' (first | assumption | split)); done) | simp) (by first | exact id | (intro hk; (repeat' (first | assumption | split)); done) | simp))

theorem State.setRefusals_steady {s0 s : State} (hst : Steady s0 s) :
    Steady s0 (State.setRefusals s) := by
  unfold State.setRefusals
  repeat' first
    | assumption
    | (intro _)
    | (fail_if_no_progress refine Steady.upd ?_ rfl rfl rfl (by first | rfl | (simp <;> rfl)) (by first | rfl | (simp <;> rfl)) (by first | rfl | (simp <;> rfl)) (by exact fun _ _ h => h) (by first | exact id | (intro hk; (repeat' (first | assumption | split)); done) | simp) (by first | exact id | (intro hk; (repeat' (first | assumption | split)); done) | simp))

theorem State.resumeRemovals_steady {s0 s : State} (hst : Steady s0 s) :
    Steady s0 (State.resumeRemovals s) := by
  unfold State.resumeRemovals
  repeat' first
    | assumption
    | (intro _)
    | with_reducible apply State.setStall_steady
    | with_reducible apply State.setStallData_steady
    | with_reducible apply State.startRemovalStep_steady
    | with_reducible apply Steady.ite
    | with_reducible apply Steady.foldl
    | (fail_if_no_progress refine Steady.upd ?_ rfl rfl rfl (by first | rfl | (simp <;> rfl)) (by first | rfl | (simp <;> rfl)) (by first | rfl | (simp <;> rfl)) (by exact fun _ _ h => h) (by first | exact id | (intro hk; (repeat' (first | assumption | split)); done) | simp) (by first | exact id | (intro hk; (repeat' (first | assumption | split)); done) | simp))
    | split

theorem State.restoreStalls_steady {s0 s : State} (bad : List Nat) (hst : Steady s0 s) :
    Steady s0 (State.restoreStalls bad s) := by
  unfold State.restoreStalls
  repeat' first
    | assumption
    | (intro _)
    | with_reducible apply State.modStall_steady
    | (fail_if_no_progress refine Steady.upd ?_ rfl rfl rfl (by first | rfl | (simp <;> rfl)) (by first | rfl | (simp <;> rfl)) (by first | rfl | (simp <;> rfl)) (by exact fun _ _ h => h) (by first | exact id | (intro hk; (repeat' (first | assumption | split)); done) | simp) (by first | exact id | (intro hk; (repeat' (first | assumption | split)); done) | simp))

theorem State.restoreEpoch_steady {s0 s : State} (hst : Steady s0 s) :
    Steady s0 (State.restoreEpoch s) := by
  unfold State.restoreEpoch
  repeat' first
    | assumption
    | (intro _)
    | (fail_if_no_progress refine Steady.upd ?_ rfl rfl rfl (by first | rfl | (simp <;> rfl)) (by first | rfl | (simp <;> rfl)) (by first | rfl | (simp <;> rfl)) (by exact fun _ _ h => h) (by first | exact id | (intro hk; (repeat' (first | assumption | split)); done) | simp) (by first | exact id | (intro hk; (repeat' (first | assumption | split)); done) | simp))

theorem State.restore_steady {s0 s : State} (rootOk : Bool) (bad : List Nat) (hst : Steady s0 s) :
    Steady s0 (State.restore rootOk bad s) := by
  unfold State.restore
  have h1 := State.restoreEpoch_steady hst
  generalize s.restoreEpoch = t at h1
  refine Steady.ite ?_ ?_
  · have h2 := State.resumeRemovals_steady (State.setRefusals_steady (State.restoreSweeps_steady (State.restoreStalls_steady bad (Steady.with_ldg h1
      { t.ldg with
        storeOk := true, versions := s.ldg.store.versions, poolEntries := s.ldg.store.poolEntries
        localEntries := t.withHarbour (t.outsideHarbour s.ldg.store.localEntries) }))))
    exact Steady.with_ald (State.bump_steady _ _ h2) _
  · refine State.flushStore_steady (State.beginBase_steady (Steady.with_ald (State.bump_steady _ _ (State.setRefusals_steady
      (State.event_steady _ _ _ _ _ ?_))) _))
    exact Steady.upd h1 rfl rfl rfl rfl rfl rfl (fun _ _ h => h) id id

theorem State.setIdleSlot_steady {s0 s : State} (toB : Bool) (b : Bytes) (hst : Steady s0 s) :
    Steady s0 (State.setIdleSlot toB b s) := by
  unfold State.setIdleSlot
  repeat' first
    | assumption
    | (intro _)
    | with_reducible apply Steady.ite
    | (fail_if_no_progress refine Steady.upd ?_ rfl rfl rfl (by first | rfl | (simp <;> rfl)) (by first | rfl | (simp <;> rfl)) (by first | rfl | (simp <;> rfl)) (by exact fun _ _ h => h) (by first | exact id | (intro hk; (repeat' (first | assumption | split)); done) | simp) (by first | exact id | (intro hk; (repeat' (first | assumption | split)); done) | simp))

theorem State.firstReading_steady {s0 s : State} (hst : Steady s0 s) :
    Steady s0 (State.firstReading s) := by
  unfold State.firstReading
  repeat' first
    | assumption
    | (intro _)
    | with_reducible apply State.queueJob_steady
    | with_reducible apply State.runFuses_steady
    | with_reducible apply Steady.ite

end Sys2Proof.Machine
end

