-- ==== Sys2Proof/Laws/SteadyTick.lean ====
section
/-!
SUPPORT. The operations of Machine/Tick.lean keep what every step keeps (Laws/Steady.lean).
-/

namespace Sys2Proof.Machine

set_option linter.unreachableTactic false
set_option linter.unusedTactic false
set_option linter.unnecessarySeqFocus false

theorem State.orderHarbour_steady {s0 s : State} (hst : Steady s0 s) :
    Steady s0 (State.orderHarbour s) := by
  unfold State.orderHarbour
  repeat' first
    | assumption
    | (intro _)
    | with_reducible apply State.orderRegion_steady
    | with_reducible apply Steady.foldl
    | (fail_if_no_progress refine Steady.upd ?_ rfl rfl rfl (by first | rfl | (simp <;> rfl)) (by first | rfl | (simp <;> rfl)) (by first | rfl | (simp <;> rfl)) (by exact fun _ _ h => h) (by first | exact id | (intro hk; (repeat' (first | assumption | split)); done) | simp) (by first | exact id | (intro hk; (repeat' (first | assumption | split)); done) | simp))

theorem State.enterFull_steady {s0 s : State} (time : Nat) (hst : Steady s0 s) :
    Steady s0 (State.enterFull time s) := by
  unfold State.enterFull
  repeat' first
    | assumption
    | (intro _)
    | with_reducible apply State.event_steady
    | with_reducible apply State.sendRefusal_steady
    | with_reducible apply State.releaseMarks_steady
    | with_reducible apply State.orderHarbour_steady
    | with_reducible apply State.issueAlias_steady
    | with_reducible apply Steady.ite
    | with_reducible apply Steady.foldl
    | (fail_if_no_progress refine Steady.upd ?_ rfl rfl rfl (by first | rfl | (simp <;> rfl)) (by first | rfl | (simp <;> rfl)) (by first | rfl | (simp <;> rfl)) (by exact fun _ _ h => h) (by first | exact id | (intro hk; (repeat' (first | assumption | split)); done) | simp) (by first | exact id | (intro hk; (repeat' (first | assumption | split)); done) | simp))

theorem State.advanceEpoch_steady {s0 s : State} (time : Nat) (left : Nat) (hst : Steady s0 s) :
    Steady s0 (State.advanceEpoch time left s) := by
  unfold State.advanceEpoch
  repeat' first
    | assumption
    | (intro _)
    | with_reducible apply State.waitEnd_steady
    | with_reducible apply State.queueItems_steady
    | with_reducible apply State.bump_steady
    | with_reducible apply State.regionWear_steady
    | with_reducible apply Steady.ite
    | with_reducible apply Steady.foldl
    | (fail_if_no_progress refine Steady.upd ?_ rfl rfl rfl (by first | rfl | (simp <;> rfl)) (by first | rfl | (simp <;> rfl)) (by first | rfl | (simp <;> rfl)) (by exact fun _ _ h => h) (by first | exact id | (intro hk; (repeat' (first | assumption | split)); done) | simp) (by first | exact id | (intro hk; (repeat' (first | assumption | split)); done) | simp))

theorem State.holdEpoch_steady {s0 s : State} (hst : Steady s0 s) :
    Steady s0 (State.holdEpoch s) := by
  unfold State.holdEpoch
  repeat' first
    | assumption
    | (intro _)
    | with_reducible apply State.waitBegin_steady
    | with_reducible apply State.bump_steady
    | with_reducible apply State.event_steady
    | with_reducible apply Steady.ite
    | (fail_if_no_progress refine Steady.upd ?_ rfl rfl rfl (by first | rfl | (simp <;> rfl)) (by first | rfl | (simp <;> rfl)) (by first | rfl | (simp <;> rfl)) (by exact fun _ _ h => h) (by first | exact id | (intro hk; (repeat' (first | assumption | split)); done) | simp) (by first | exact id | (intro hk; (repeat' (first | assumption | split)); done) | simp))

theorem State.stepEpoch_steady {s0 s : State} (time : Nat) (left : Nat) (hst : Steady s0 s) :
    Steady s0 (State.stepEpoch time left s) := by
  unfold State.stepEpoch
  repeat' first
    | assumption
    | (intro _)
    | with_reducible apply State.holdEpoch_steady
    | with_reducible apply State.advanceEpoch_steady
    | with_reducible apply Steady.ite

theorem State.orderFloor_steady {s0 s : State} (r : RegionId) (hst : Steady s0 s) :
    Steady s0 (State.orderFloor r s) := by
  unfold State.orderFloor
  repeat' first
    | assumption
    | (intro _)
    | with_reducible apply State.writeEntry_steady
    | with_reducible apply State.queueItems_steady
    | (fail_if_no_progress refine Steady.upd ?_ rfl rfl rfl (by first | rfl | (simp <;> rfl)) (by first | rfl | (simp <;> rfl)) (by first | rfl | (simp <;> rfl)) (by exact fun _ _ h => h) (by first | exact id | (intro hk; (repeat' (first | assumption | split)); done) | simp) (by first | exact id | (intro hk; (repeat' (first | assumption | split)); done) | simp))

theorem State.orderFloors_steady {s0 s : State} (hst : Steady s0 s) :
    Steady s0 (State.orderFloors s) := by
  unfold State.orderFloors
  repeat' first
    | assumption
    | (intro _)
    | with_reducible apply State.orderFloor_steady
    | with_reducible apply Steady.ite
    | with_reducible apply Steady.foldl

theorem State.refreshReplay_steady {s0 s : State} (id : Nat) (hst : Steady s0 s) :
    Steady s0 (State.refreshReplay id s) := by
  unfold State.refreshReplay
  repeat' first
    | assumption
    | (intro _)
    | with_reducible apply State.setStallData_steady
    | with_reducible apply State.event_steady
    | with_reducible apply Steady.ite
    | (fail_if_no_progress refine Steady.upd ?_ rfl rfl rfl (by first | rfl | (simp <;> rfl)) (by first | rfl | (simp <;> rfl)) (by first | rfl | (simp <;> rfl)) (by exact fun _ _ h => h) (by first | exact id | (intro hk; (repeat' (first | assumption | split)); done) | simp) (by first | exact id | (intro hk; (repeat' (first | assumption | split)); done) | simp))
    | split

theorem State.refreshReplays_steady {s0 s : State} (hst : Steady s0 s) :
    Steady s0 (State.refreshReplays s) := by
  unfold State.refreshReplays
  repeat' first
    | assumption
    | (intro _)
    | with_reducible apply State.refreshReplay_steady
    | with_reducible apply Steady.foldl

theorem State.deferWait_steady {s0 s : State} (q : Queued) (hst : Steady s0 s) :
    Steady s0 (State.deferWait q s) := by
  unfold State.deferWait
  repeat' first
    | assumption
    | (intro _)
    | with_reducible apply State.waitBegin_steady
    | with_reducible apply Steady.ite
    | (fail_if_no_progress refine Steady.upd ?_ rfl rfl rfl (by first | rfl | (simp <;> rfl)) (by first | rfl | (simp <;> rfl)) (by first | rfl | (simp <;> rfl)) (by exact fun _ _ h => h) (by first | exact id | (intro hk; (repeat' (first | assumption | split)); done) | simp) (by first | exact id | (intro hk; (repeat' (first | assumption | split)); done) | simp))
    | split
    | dsimp only

theorem State.countDefer_steady {s0 s : State} (q : Queued) (hst : Steady s0 s) :
    Steady s0 (State.countDefer q s) := by
  unfold State.countDefer
  repeat' first
    | assumption
    | (intro _)
    | with_reducible apply State.bump_steady
    | with_reducible apply State.deferWait_steady
    | (fail_if_no_progress refine Steady.upd ?_ rfl rfl rfl (by first | rfl | (simp <;> rfl)) (by first | rfl | (simp <;> rfl)) (by first | rfl | (simp <;> rfl)) (by exact fun _ _ h => h) (by first | exact id | (intro hk; (repeat' (first | assumption | split)); done) | simp) (by first | exact id | (intro hk; (repeat' (first | assumption | split)); done) | simp))

theorem State.runTick_steady {s0 s : State} (hst : Steady s0 s) : Steady s0 (State.runTick s) := by
  have sort : ∀ (q a b : List Queued) (t : State), Steady s0 t → Steady s0 (State.sortTick q a b t).2.2 := by
    intro q
    induction q with
    | nil => exact fun _ _ _ h => h
    | cons x rest ih =>
      intro a b t h
      unfold State.sortTick
      split
      · exact ih _ _ _ (State.finish_steady _ _ h)
      · split
        · exact ih _ _ _ (State.countDefer_steady _ (Steady.ite (State.wantMark_steady _ h) h))
        · exact ih _ _ _ (State.waitEnd_steady _ _ _ _ h)
  exact Steady.with_hlm (sort _ _ _ _ (Steady.with_hlm (State.decodeBuffer_steady hst) _)) _

theorem State.clearTickFlags_steady {s0 s : State} (hst : Steady s0 s) :
    Steady s0 (State.clearTickFlags s) := by
  unfold State.clearTickFlags
  repeat' first
    | assumption
    | (intro _)
    | with_reducible apply Steady.ite
    | (fail_if_no_progress refine Steady.upd ?_ rfl rfl rfl (by first | rfl | (simp <;> rfl)) (by first | rfl | (simp <;> rfl)) (by first | rfl | (simp <;> rfl)) (by exact fun _ _ h => h) (by first | exact id | (intro hk; (repeat' (first | assumption | split)); done) | simp) (by first | exact id | (intro hk; (repeat' (first | assumption | split)); done) | simp))

theorem State.startJoins_steady {s0 s : State} (hst : Steady s0 s) :
    Steady s0 (State.startJoins s) := by
  unfold State.startJoins
  repeat' first
    | assumption
    | (intro _)
    | with_reducible apply State.startJoin_steady
    | with_reducible apply Steady.foldl
    | (fail_if_no_progress refine Steady.upd ?_ rfl rfl rfl (by first | rfl | (simp <;> rfl)) (by first | rfl | (simp <;> rfl)) (by first | rfl | (simp <;> rfl)) (by exact fun _ _ h => h) (by first | exact id | (intro hk; (repeat' (first | assumption | split)); done) | simp) (by first | exact id | (intro hk; (repeat' (first | assumption | split)); done) | simp))
    | split

theorem State.tickHelm_steady {s0 s : State} (time : Nat) (left : Nat) (hst : Steady s0 s) :
    Steady s0 (State.tickHelm time left s) := by
  unfold State.tickHelm
  repeat' first
    | assumption
    | (intro _)
    | with_reducible apply State.enterFull_steady
    | with_reducible apply State.stepEpoch_steady
    | with_reducible apply State.orderFloors_steady
    | with_reducible apply State.refreshReplays_steady
    | with_reducible apply State.startJoins_steady
    | with_reducible apply State.runTick_steady
    | (fail_if_no_progress refine Steady.upd ?_ rfl rfl rfl (by first | rfl | (simp <;> rfl)) (by first | rfl | (simp <;> rfl)) (by first | rfl | (simp <;> rfl)) (by exact fun _ _ h => h) (by first | exact id | (intro hk; (repeat' (first | assumption | split)); done) | simp) (by first | exact id | (intro hk; (repeat' (first | assumption | split)); done) | simp))

theorem State.queueTick_steady {s0 s : State} (time : Nat) (hst : Steady s0 s) :
    Steady s0 (State.queueTick time s) := by
  unfold State.queueTick
  repeat' first
    | assumption
    | (intro _)
    | with_reducible apply State.event_steady
    | with_reducible apply State.bump_steady
    | with_reducible apply State.holdEpoch_steady
    | with_reducible apply Steady.ite
    | (fail_if_no_progress refine Steady.upd ?_ rfl rfl rfl (by first | rfl | (simp <;> rfl)) (by first | rfl | (simp <;> rfl)) (by first | rfl | (simp <;> rfl)) (by exact fun _ _ h => h) (by first | exact id | (intro hk; (repeat' (first | assumption | split)); done) | simp) (by first | exact id | (intro hk; (repeat' (first | assumption | split)); done) | simp))
    | split

theorem State.acceptTick_steady {s0 s : State} (hst : Steady s0 s) :
    Steady s0 (State.acceptTick s) := by
  unfold State.acceptTick
  repeat' first
    | assumption
    | (intro _)
    | with_reducible apply State.fireArmed_steady
    | with_reducible apply State.bump_steady
    | with_reducible apply State.styLatch_steady
    | with_reducible apply State.clearTickFlags_steady
    | with_reducible apply State.queueTick_steady
    | with_reducible apply State.tickHelm_steady
    | with_reducible apply Steady.ite
    | (fail_if_no_progress refine Steady.upd ?_ rfl rfl rfl (by first | rfl | (simp <;> rfl)) (by first | rfl | (simp <;> rfl)) (by first | rfl | (simp <;> rfl)) (by exact fun _ _ h => h) (by first | exact id | (intro hk; (repeat' (first | assumption | split)); done) | simp) (by first | exact id | (intro hk; (repeat' (first | assumption | split)); done) | simp))

end Sys2Proof.Machine
end

