-- ==== Sys2Proof/Laws/SteadyReset.lean ====
section
/-!
SUPPORT. The operations of Machine/Reset.lean keep what every step keeps (Laws/Steady.lean).
-/

namespace Sys2Proof.Machine

set_option linter.unreachableTactic false
set_option linter.unusedTactic false
set_option linter.unnecessarySeqFocus false

theorem State.eraseUser_steady {s0 s : State} (hst : Steady s0 s) : Steady s0 (State.eraseUser s) := by
  unfold State.eraseUser
  extract_lets es
  exact Steady.with_nvm (State.emits_steady _ hst) _

theorem State.runTicks_steady {s0 s : State} (l : List QueuedTick) (hst : Steady s0 s) : Steady s0 (State.runTicks l s) := by
  induction l generalizing s with
  | nil => exact hst
  | cons b rest ih => exact ih (State.tickHelm_steady _ _ hst)

theorem State.finishPatch_steady {s0 s : State} (hst : Steady s0 s) :
    Steady s0 (State.finishPatch s) := by
  unfold State.finishPatch
  repeat' first
    | assumption
    | (intro _)
    | with_reducible apply State.finishOk_steady
    | (fail_if_no_progress refine Steady.upd ?_ rfl rfl rfl (by first | rfl | (simp <;> rfl)) (by first | rfl | (simp <;> rfl)) (by first | rfl | (simp <;> rfl)) (by exact fun _ _ h => h) (by first | exact id | (intro hk; (repeat' (first | assumption | split)); done) | simp) (by first | exact id | (intro hk; (repeat' (first | assumption | split)); done) | simp))
    | split

theorem State.writeReset_steady {s0 s : State} (w : Word) (hst : Steady s0 s) : Steady s0 (State.writeReset w s) := by
  have h : Steady s0 (if w.getLsbD 1 then { s.enterQuiet with rst := { s.rst with rstReq := true } } else s) := by
    refine Steady.ite ?_ hst
    obtain ⟨a1, a2, a3, a4, a5, a6, a7, a8, -⟩ := State.enterQuiet_steady hst
    exact ⟨a1, a2, a3, a4, a5, a6, a7, a8, fun h => hst.inReset h⟩
  exact Steady.ite (State.beginCore_steady _ h) h

theorem State.unitResetGo_steady {s0 s : State} (code : Nat) (hst : Steady s0 s) :
    Steady s0 (State.unitResetGo code s) := by
  unfold State.unitResetGo
  repeat' first
    | assumption
    | (intro _)
    | with_reducible apply Steady.ite
    | (fail_if_no_progress refine Steady.upd ?_ rfl rfl rfl (by first | rfl | (simp <;> rfl)) (by first | rfl | (simp <;> rfl)) (by first | rfl | (simp <;> rfl)) (by exact fun _ _ h => h) (by first | exact id | (intro hk; (repeat' (first | assumption | split)); done) | simp) (by first | exact id | (intro hk; (repeat' (first | assumption | split)); done) | simp))

theorem State.writeUrst_steady {s0 s : State} (w : Word) (hst : Steady s0 s) :
    Steady s0 (State.writeUrst w s) := by
  unfold State.writeUrst
  repeat' first
    | assumption
    | (intro _)
    | with_reducible apply State.unitResetGo_steady
    | with_reducible apply Steady.ite
    | (fail_if_no_progress refine Steady.upd ?_ rfl rfl rfl (by first | rfl | (simp <;> rfl)) (by first | rfl | (simp <;> rfl)) (by first | rfl | (simp <;> rfl)) (by exact fun _ _ h => h) (by first | exact id | (intro hk; (repeat' (first | assumption | split)); done) | simp) (by first | exact id | (intro hk; (repeat' (first | assumption | split)); done) | simp))

theorem State.endWaits_steady {s0 s : State} (ring : Nat) (hst : Steady s0 s) :
    Steady s0 (State.endWaits ring s) := by
  unfold State.endWaits
  repeat' first
    | assumption
    | (intro _)
    | with_reducible apply State.waitEnd_steady
    | with_reducible apply Steady.foldl

theorem State.dropSweepOps_steady {s0 s : State} (i : Nat) (hst : Steady s0 s) :
    Steady s0 (State.dropSweepOps i s) := by
  unfold State.dropSweepOps
  repeat' first
    | assumption
    | (intro _)
    | with_reducible apply State.modMse_steady
    | with_reducible apply State.advanceAll_steady

theorem State.squashMse_steady {s0 s : State} (i : Nat) (hst : Steady s0 s) :
    Steady s0 (State.squashMse i s).1 := by
  unfold State.squashMse
  repeat' first
    | assumption
    | (intro _)
    | with_reducible apply State.answerAll_steady
    | with_reducible apply State.modMse_steady
    | (fail_if_no_progress refine Steady.upd ?_ rfl rfl rfl (by first | rfl | (simp <;> rfl)) (by first | rfl | (simp <;> rfl)) (by first | rfl | (simp <;> rfl)) (by exact fun _ _ h => h) (by first | exact id | (intro hk; (repeat' (first | assumption | split)); done) | simp) (by first | exact id | (intro hk; (repeat' (first | assumption | split)); done) | simp))
    | split

theorem State.squashLse_steady {s0 s : State} (i : Nat) (hst : Steady s0 s) :
    Steady s0 (State.squashLse i s).1 := by
  unfold State.squashLse
  repeat' first
    | assumption
    | (intro _)
    | with_reducible apply State.poisonLse_steady
    | with_reducible apply State.modLse_steady
    | (fail_if_no_progress refine Steady.upd ?_ rfl rfl rfl (by first | rfl | (simp <;> rfl)) (by first | rfl | (simp <;> rfl)) (by first | rfl | (simp <;> rfl)) (by exact fun _ _ h => h) (by first | exact id | (intro hk; (repeat' (first | assumption | split)); done) | simp) (by first | exact id | (intro hk; (repeat' (first | assumption | split)); done) | simp))
    | split

theorem State.forceBooth_steady {s0 s : State} (written : Bytes) (hst : Steady s0 s) :
    Steady s0 (State.forceBooth written s).1 := by
  unfold State.forceBooth
  repeat' first
    | assumption
    | (intro _)
    | with_reducible apply State.writeRange_steady
    | with_reducible apply State.keyBusy_steady
    | with_reducible apply State.bump_steady
    | with_reducible apply State.hold_steady
    | with_reducible apply State.complete_steady
    | with_reducible apply State.unlockBooth_steady
    | with_reducible apply State.settleDestroys_steady
    | with_reducible apply Steady.ite
    | with_reducible apply Steady.foldl
    | (fail_if_no_progress refine Steady.upd ?_ rfl rfl rfl (by first | rfl | (simp <;> rfl)) (by first | rfl | (simp <;> rfl)) (by first | rfl | (simp <;> rfl)) (by exact fun _ _ h => h) (by first | exact id | (intro hk; (repeat' (first | assumption | split)); done) | simp) (by first | exact id | (intro hk; (repeat' (first | assumption | split)); done) | simp))
    | split
    | dsimp only

theorem State.squashTollgate_steady {s0 s : State} (hst : Steady s0 s) :
    Steady s0 (State.squashTollgate s).1 := by
  unfold State.squashTollgate
  repeat' first
    | assumption
    | (intro _)
    | with_reducible apply State.failExport_steady
    | with_reducible apply State.dropExport_steady
    | with_reducible apply State.finish_steady
    | with_reducible apply Steady.ite
    | (fail_if_no_progress refine Steady.upd ?_ rfl rfl rfl (by first | rfl | (simp <;> rfl)) (by first | rfl | (simp <;> rfl)) (by first | rfl | (simp <;> rfl)) (by exact fun _ _ h => h) (by first | exact id | (intro hk; (repeat' (first | assumption | split)); done) | simp) (by first | exact id | (intro hk; (repeat' (first | assumption | split)); done) | simp))
    | split

theorem State.squashUnit_steady {s0 s : State} (code : Nat) (written : Bytes) (hst : Steady s0 s) :
    Steady s0 (State.squashUnit code written s).1 := by
  unfold State.squashUnit
  repeat' first
    | assumption
    | (intro _)
    | with_reducible apply State.squashMse_steady
    | with_reducible apply State.squashLse_steady
    | with_reducible apply State.modHse_steady
    | with_reducible apply State.forceBooth_steady
    | with_reducible apply State.squashTollgate_steady
    | with_reducible apply State.finish_steady
    | with_reducible apply Steady.ite
    | with_reducible apply Steady.foldl
    | (fail_if_no_progress refine Steady.upd ?_ rfl rfl rfl (by first | rfl | (simp <;> rfl)) (by first | rfl | (simp <;> rfl)) (by first | rfl | (simp <;> rfl)) (by exact fun _ _ h => h) (by first | exact id | (intro hk; (repeat' (first | assumption | split)); done) | simp) (by first | exact id | (intro hk; (repeat' (first | assumption | split)); done) | simp))
    | split

theorem State.clearHse_steady {s0 s : State} (i : Nat) (hst : Steady s0 s) :
    Steady s0 (State.clearHse i s) := by
  unfold State.clearHse
  repeat' first
    | assumption
    | (intro _)
    | with_reducible apply State.modHse_steady
    | (fail_if_no_progress refine Steady.upd ?_ rfl rfl rfl (by first | rfl | (simp <;> rfl)) (by first | rfl | (simp <;> rfl)) (by first | rfl | (simp <;> rfl)) (by exact fun _ _ h => h) (by first | exact id | (intro hk; (repeat' (first | assumption | split)); done) | simp) (by first | exact id | (intro hk; (repeat' (first | assumption | split)); done) | simp))

theorem State.clearUnit_steady {s0 s : State} (code : Nat) (hst : Steady s0 s) :
    Steady s0 (State.clearUnit code s) := by
  unfold State.clearUnit
  repeat' first
    | assumption
    | (intro _)
    | with_reducible apply State.modMse_steady
    | with_reducible apply State.modLse_steady
    | with_reducible apply State.clearHse_steady
    | with_reducible apply State.unlockBooth_steady
    | with_reducible apply State.bump_steady
    | with_reducible apply State.dropSweepOps_steady
    | with_reducible apply State.stySuspect_steady
    | with_reducible apply Steady.ite
    | with_reducible apply Steady.foldl
    | (fail_if_no_progress refine Steady.upd ?_ rfl rfl rfl (by first | rfl | (simp <;> rfl)) (by first | rfl | (simp <;> rfl)) (by first | rfl | (simp <;> rfl)) (by exact fun _ _ h => h) (by first | exact id | (intro hk; (repeat' (first | assumption | split)); done) | simp) (by first | exact id | (intro hk; (repeat' (first | assumption | split)); done) | simp))

theorem State.modUnitReset_steady {s0 s : State} (code : Nat) (f : UnitReset → UnitReset) (hst : Steady s0 s) :
    Steady s0 (State.modUnitReset code f s) := by
  unfold State.modUnitReset
  repeat' first
    | assumption
    | (intro _)
    | with_reducible apply Steady.ite
    | (fail_if_no_progress refine Steady.upd ?_ rfl rfl rfl (by first | rfl | (simp <;> rfl)) (by first | rfl | (simp <;> rfl)) (by first | rfl | (simp <;> rfl)) (by exact fun _ _ h => h) (by first | exact id | (intro hk; (repeat' (first | assumption | split)); done) | simp) (by first | exact id | (intro hk; (repeat' (first | assumption | split)); done) | simp))

theorem State.resumeUnit_steady {s0 s : State} (code : Nat) (hst : Steady s0 s) :
    Steady s0 (State.resumeUnit code s) := by
  unfold State.resumeUnit
  repeat' first
    | assumption
    | (intro _)
    | with_reducible apply State.rerun_steady
    | with_reducible apply State.endMse_steady
    | with_reducible apply State.startResync_steady
    | with_reducible apply State.takeLock_steady
    | with_reducible apply Steady.ite
    | (fail_if_no_progress refine Steady.upd ?_ rfl rfl rfl (by first | rfl | (simp <;> rfl)) (by first | rfl | (simp <;> rfl)) (by first | rfl | (simp <;> rfl)) (by exact fun _ _ h => h) (by first | exact id | (intro hk; (repeat' (first | assumption | split)); done) | simp) (by first | exact id | (intro hk; (repeat' (first | assumption | split)); done) | simp))
    | split

theorem State.partRelease_steady {s0 s : State} (k : Nat) (hst : Steady s0 s) :
    Steady s0 (State.partRelease k s) := by
  unfold State.partRelease
  repeat' first
    | assumption
    | (intro _)
    | with_reducible apply State.settleLock_steady
    | with_reducible apply Steady.ite
    | (fail_if_no_progress refine Steady.upd ?_ rfl rfl rfl (by first | rfl | (simp <;> rfl)) (by first | rfl | (simp <;> rfl)) (by first | rfl | (simp <;> rfl)) (by exact fun _ _ h => h) (by first | exact id | (intro hk; (repeat' (first | assumption | split)); done) | simp) (by first | exact id | (intro hk; (repeat' (first | assumption | split)); done) | simp))

theorem State.openPorts_steady {s0 s : State} (hst : Steady s0 s) :
    Steady s0 (State.openPorts s) := by
  unfold State.openPorts
  repeat' first
    | assumption
    | (intro _)
    | with_reducible apply State.startResync_steady
    | with_reducible apply State.clearHse_steady
    | with_reducible apply Steady.foldl
    | (fail_if_no_progress refine Steady.upd ?_ rfl rfl rfl (by first | rfl | (simp <;> rfl)) (by first | rfl | (simp <;> rfl)) (by first | rfl | (simp <;> rfl)) (by exact fun _ _ h => h) (by first | exact id | (intro hk; (repeat' (first | assumption | split)); done) | simp) (by first | exact id | (intro hk; (repeat' (first | assumption | split)); done) | simp))

theorem State.partAnswer_steady {s0 s : State} (r : PartRun) (hst : Steady s0 s) :
    Steady s0 (State.partAnswer r s) := by
  unfold State.partAnswer
  repeat' first
    | assumption
    | (intro _)
    | with_reducible apply State.emit_steady
    | with_reducible apply Steady.ite
    | (fail_if_no_progress refine Steady.upd ?_ rfl rfl rfl (by first | rfl | (simp <;> rfl)) (by first | rfl | (simp <;> rfl)) (by first | rfl | (simp <;> rfl)) (by exact fun _ _ h => h) (by first | exact id | (intro hk; (repeat' (first | assumption | split)); done) | simp) (by first | exact id | (intro hk; (repeat' (first | assumption | split)); done) | simp))

theorem State.squashPorts_steady {s0 s : State} (written : Bytes) (hst : Steady s0 s) :
    Steady s0 (State.squashPorts written s) := by
  unfold State.squashPorts
  repeat' first
    | assumption
    | (intro _)
    | with_reducible apply State.squashMse_steady
    | with_reducible apply State.endWaits_steady
    | with_reducible apply State.poisonLse_steady
    | with_reducible apply State.modLse_steady
    | with_reducible apply State.squashTollgate_steady
    | with_reducible apply State.forceBooth_steady
    | with_reducible apply Steady.foldl

end Sys2Proof.Machine
end

