-- ==== Sys2Proof/Laws/SteadyLedger.lean ====
section
/-!
SUPPORT. The operations of Machine/Ledger.lean keep what every step keeps (Laws/Steady.lean).
-/

namespace Sys2Proof.Machine

set_option linter.unreachableTactic false
set_option linter.unusedTactic false
set_option linter.unnecessarySeqFocus false

theorem State.dedRegion_steady {s0 s : State} (r : RegionId) (hst : Steady s0 s) :
    Steady s0 (State.dedRegion r s) := by
  unfold State.dedRegion
  repeat' first
    | assumption
    | (intro _)
    | with_reducible apply State.changeEntry_steady
    | with_reducible apply State.loseStall_steady
    | with_reducible apply State.bump_steady
    | with_reducible apply State.alarmIntegrity_steady
    | with_reducible apply Steady.ite
    | (fail_if_no_progress refine Steady.upd ?_ rfl rfl rfl (by first | rfl | (simp <;> rfl)) (by first | rfl | (simp <;> rfl)) (by first | rfl | (simp <;> rfl)) (by exact fun _ _ h => h) (by first | exact id | (intro hk; (repeat' (first | assumption | split)); done) | simp) (by first | exact id | (intro hk; (repeat' (first | assumption | split)); done) | simp))

theorem State.finishRegion_steady {s0 s : State} (slot : Nat) (w : SweepSlot) (hst : Steady s0 s) :
    Steady s0 (State.finishRegion slot w s) := by
  unfold State.finishRegion
  repeat' first
    | assumption
    | (intro _)
    | with_reducible apply State.changeEntry_steady
    | with_reducible apply State.bump_steady
    | with_reducible apply State.setStall_steady
    | with_reducible apply State.event_steady
    | with_reducible apply State.spineMses_steady
    | with_reducible apply Steady.ite
    | (fail_if_no_progress refine Steady.upd ?_ rfl rfl rfl (by first | rfl | (simp <;> rfl)) (by first | rfl | (simp <;> rfl)) (by first | rfl | (simp <;> rfl)) (by exact fun _ _ h => h) (by first | exact id | (intro hk; (repeat' (first | assumption | split)); done) | simp) (by first | exact id | (intro hk; (repeat' (first | assumption | split)); done) | simp))
    | split
    | dsimp only

theorem State.applyGrant_steady {s0 s : State} (g : RegionId × LdgEntry) (hst : Steady s0 s) :
    Steady s0 (State.applyGrant g s) := by
  unfold State.applyGrant
  repeat' first
    | assumption
    | (intro _)
    | with_reducible apply State.changeEntry_steady

theorem State.completeWaits_steady {s0 s : State} (hst : Steady s0 s) :
    Steady s0 (State.completeWaits s) := by
  unfold State.completeWaits
  repeat' first
    | assumption
    | (intro _)
    | with_reducible apply State.complete_steady
    | with_reducible apply Steady.foldl
    | (fail_if_no_progress refine Steady.upd ?_ rfl rfl rfl (by first | rfl | (simp <;> rfl)) (by first | rfl | (simp <;> rfl)) (by first | rfl | (simp <;> rfl)) (by exact fun _ _ h => h) (by first | exact id | (intro hk; (repeat' (first | assumption | split)); done) | simp) (by first | exact id | (intro hk; (repeat' (first | assumption | split)); done) | simp))

theorem State.anchoredItem_steady {s0 s : State} (i : DeltaItem) (hst : Steady s0 s) :
    Steady s0 (State.anchoredItem i s) := by
  unfold State.anchoredItem
  repeat' first
    | assumption
    | (intro _)
    | with_reducible apply State.finishRegion_steady
    | with_reducible apply State.applyGrant_steady
    | with_reducible apply Steady.ite
    | (fail_if_no_progress refine Steady.upd ?_ rfl rfl rfl (by first | rfl | (simp <;> rfl)) (by first | rfl | (simp <;> rfl)) (by first | rfl | (simp <;> rfl)) (by exact fun _ _ h => h) (by first | exact id | (intro hk; (repeat' (first | assumption | split)); done) | simp) (by first | exact id | (intro hk; (repeat' (first | assumption | split)); done) | simp))
    | split

theorem State.anchorRecord_steady {s0 s : State} (r : DeltaRecord) (hst : Steady s0 s) :
    Steady s0 (State.anchorRecord r s) := by
  unfold State.anchorRecord
  repeat' first
    | assumption
    | (intro _)
    | with_reducible apply State.anchoredItem_steady
    | with_reducible apply State.bump_steady
    | with_reducible apply State.completeWaits_steady
    | with_reducible apply Steady.foldl
    | (fail_if_no_progress refine Steady.upd ?_ rfl rfl rfl (by first | rfl | (simp <;> rfl)) (by first | rfl | (simp <;> rfl)) (by first | rfl | (simp <;> rfl)) (by exact fun _ _ h => h) (by first | exact id | (intro hk; (repeat' (first | assumption | split)); done) | simp) (by first | exact id | (intro hk; (repeat' (first | assumption | split)); done) | simp))

end Sys2Proof.Machine
end

