-- ==== Sys2Proof/Laws/SteadyDump.lean ====
section
/-!
SUPPORT. The operations of Machine/Dump.lean keep what every step keeps (Laws/Steady.lean).
-/

namespace Sys2Proof.Machine

set_option linter.unreachableTactic false
set_option linter.unusedTactic false
set_option linter.unnecessarySeqFocus false

theorem State.countDump_steady {s0 s : State} (k : KeyEntry) (n : Nat) (hst : Steady s0 s) :
    Steady s0 (State.countDump k n s) := by
  unfold State.countDump
  repeat' first
    | assumption
    | (intro _)
    | with_reducible apply State.countBooth_steady
    | with_reducible apply State.modStallData_steady
    | with_reducible apply Steady.ite

theorem State.finishDump_steady {s0 s : State} (c : Call) (st : Nat) (stall : Nat) (metaLen : Nat) (stallLen : Nat) (hst : Steady s0 s) :
    Steady s0 (State.finishDump c st stall metaLen stallLen s) := by
  unfold State.finishDump
  repeat' first
    | assumption
    | (intro _)
    | with_reducible apply State.event_steady
    | with_reducible apply State.complete_steady

theorem State.dumpStall_steady {s0 s : State} (c : Call) (id : Nat) (outp : Nat) (outMax : Nat) (metaLen : Nat) (work : Bytes) (ok : Bool) (hst : Steady s0 s) :
    Steady s0 (State.dumpStall c id outp outMax metaLen work ok s) := by
  unfold State.dumpStall
  repeat' first
    | assumption
    | (intro _)
    | with_reducible apply State.finishDump_steady
    | with_reducible apply State.tookDraw_steady
    | with_reducible apply State.countDump_steady
    | with_reducible apply State.output_steady
    | with_reducible apply Steady.ite
    | (fail_if_no_progress refine Steady.upd ?_ rfl rfl rfl (by first | rfl | (simp <;> rfl)) (by first | rfl | (simp <;> rfl)) (by first | rfl | (simp <;> rfl)) (by exact fun _ _ h => h) (by first | exact id | (intro hk; (repeat' (first | assumption | split)); done) | simp) (by first | exact id | (intro hk; (repeat' (first | assumption | split)); done) | simp))
    | split

end Sys2Proof.Machine
end

