-- ==== Sys2Proof/Laws/SteadyRegs.lean ====
section
/-!
SUPPORT. The operations of Machine/Regs.lean keep what every step keeps (Laws/Steady.lean).
-/

namespace Sys2Proof.Machine

set_option linter.unreachableTactic false
set_option linter.unusedTactic false
set_option linter.unnecessarySeqFocus false

theorem State.writeGlobal_steady {s0 s : State} (off : Nat) (w : Word) (hst : Steady s0 s) :
    Steady s0 (State.writeGlobal off w s) := by
  unfold State.writeGlobal
  repeat' first
    | assumption
    | (intro _)
    | (fail_if_no_progress refine Steady.upd ?_ rfl rfl rfl (by first | rfl | (simp <;> rfl)) (by first | rfl | (simp <;> rfl)) (by first | rfl | (simp <;> rfl)) (by exact fun _ _ h => h) (by first | exact id | (intro hk; (repeat' (first | assumption | split)); done) | simp) (by first | exact id | (intro hk; (repeat' (first | assumption | split)); done) | simp))
    | split

theorem State.writeRcu_steady {s0 s : State} (off : Nat) (w : Word) (hst : Steady s0 s) :
    Steady s0 (State.writeRcu off w s) := by
  unfold State.writeRcu
  repeat' first
    | assumption
    | (intro _)
    | with_reducible apply State.writeReset_steady
    | with_reducible apply State.writeUrst_steady
    | (fail_if_no_progress refine Steady.upd ?_ rfl rfl rfl (by first | rfl | (simp <;> rfl)) (by first | rfl | (simp <;> rfl)) (by first | rfl | (simp <;> rfl)) (by exact fun _ _ h => h) (by first | exact id | (intro hk; (repeat' (first | assumption | split)); done) | simp) (by first | exact id | (intro hk; (repeat' (first | assumption | split)); done) | simp))
    | split

theorem State.nextSetWord_steady {s0 s : State} (hst : Steady s0 s) :
    Steady s0 (State.nextSetWord s) := by
  unfold State.nextSetWord
  repeat' first
    | assumption
    | (intro _)
    | (fail_if_no_progress refine Steady.upd ?_ rfl rfl rfl (by first | rfl | (simp <;> rfl)) (by first | rfl | (simp <;> rfl)) (by first | rfl | (simp <;> rfl)) (by exact fun _ _ h => h) (by first | exact id | (intro hk; (repeat' (first | assumption | split)); done) | simp) (by first | exact id | (intro hk; (repeat' (first | assumption | split)); done) | simp))

theorem State.stageWord_steady {s0 s : State} (w : Word) (hst : Steady s0 s) :
    Steady s0 (State.stageWord w s) := by
  unfold State.stageWord
  repeat' first
    | assumption
    | (intro _)
    | with_reducible apply Steady.ite
    | (fail_if_no_progress refine Steady.upd ?_ rfl rfl rfl (by first | rfl | (simp <;> rfl)) (by first | rfl | (simp <;> rfl)) (by first | rfl | (simp <;> rfl)) (by exact fun _ _ h => h) (by first | exact id | (intro hk; (repeat' (first | assumption | split)); done) | simp) (by first | exact id | (intro hk; (repeat' (first | assumption | split)); done) | simp))

theorem State.writeAld_steady {s0 s : State} (off : Nat) (w : Word) (hst : Steady s0 s) :
    Steady s0 (State.writeAld off w s) := by
  unfold State.writeAld
  repeat' first
    | assumption
    | (intro _)
    | with_reducible apply State.stageWord_steady
    | with_reducible apply State.nextSetWord_steady
    | (fail_if_no_progress refine Steady.upd ?_ rfl rfl rfl (by first | rfl | (simp <;> rfl)) (by first | rfl | (simp <;> rfl)) (by first | rfl | (simp <;> rfl)) (by exact fun _ _ h => h) (by first | exact id | (intro hk; (repeat' (first | assumption | split)); done) | simp) (by first | exact id | (intro hk; (repeat' (first | assumption | split)); done) | simp))
    | split

theorem State.writeSbx_steady {s0 s : State} (off : Nat) (w : Word) (hst : Steady s0 s) :
    Steady s0 (State.writeSbx off w s) := by
  unfold State.writeSbx
  repeat' first
    | assumption
    | (intro _)
    | (fail_if_no_progress refine Steady.upd ?_ rfl rfl rfl (by first | rfl | (simp <;> rfl)) (by first | rfl | (simp <;> rfl)) (by first | rfl | (simp <;> rfl)) (by exact fun _ _ h => h) (by first | exact id | (intro hk; (repeat' (first | assumption | split)); done) | simp) (by first | exact id | (intro hk; (repeat' (first | assumption | split)); done) | simp))
    | split

theorem State.writeLdg_steady {s0 s : State} (off : Nat) (w : Word) (hst : Steady s0 s) :
    Steady s0 (State.writeLdg off w s) := by
  unfold State.writeLdg
  repeat' first
    | assumption
    | (intro _)
    | (fail_if_no_progress refine Steady.upd ?_ rfl rfl rfl (by first | rfl | (simp <;> rfl)) (by first | rfl | (simp <;> rfl)) (by first | rfl | (simp <;> rfl)) (by exact fun _ _ h => h) (by first | exact id | (intro hk; (repeat' (first | assumption | split)); done) | simp) (by first | exact id | (intro hk; (repeat' (first | assumption | split)); done) | simp))
    | split

theorem State.writeSwp_steady {s0 s : State} (off : Nat) (w : Word) (hst : Steady s0 s) :
    Steady s0 (State.writeSwp off w s) := by
  unfold State.writeSwp
  repeat' first
    | assumption
    | (intro _)
    | (fail_if_no_progress refine Steady.upd ?_ rfl rfl rfl (by first | rfl | (simp <;> rfl)) (by first | rfl | (simp <;> rfl)) (by first | rfl | (simp <;> rfl)) (by exact fun _ _ h => h) (by first | exact id | (intro hk; (repeat' (first | assumption | split)); done) | simp) (by first | exact id | (intro hk; (repeat' (first | assumption | split)); done) | simp))
    | split

theorem State.writeStl_steady {s0 s : State} (off : Nat) (w : Word) (hst : Steady s0 s) :
    Steady s0 (State.writeStl off w s) := by
  unfold State.writeStl
  repeat' first
    | assumption
    | (intro _)
    | (fail_if_no_progress refine Steady.upd ?_ rfl rfl rfl (by first | rfl | (simp <;> rfl)) (by first | rfl | (simp <;> rfl)) (by first | rfl | (simp <;> rfl)) (by exact fun _ _ h => h) (by first | exact id | (intro hk; (repeat' (first | assumption | split)); done) | simp) (by first | exact id | (intro hk; (repeat' (first | assumption | split)); done) | simp))
    | split

theorem State.writeMrk_steady {s0 s : State} (off : Nat) (w : Word) (hst : Steady s0 s) :
    Steady s0 (State.writeMrk off w s) := by
  unfold State.writeMrk
  repeat' first
    | assumption
    | (intro _)
    | (fail_if_no_progress refine Steady.upd ?_ rfl rfl rfl (by first | rfl | (simp <;> rfl)) (by first | rfl | (simp <;> rfl)) (by first | rfl | (simp <;> rfl)) (by exact fun _ _ h => h) (by first | exact id | (intro hk; (repeat' (first | assumption | split)); done) | simp) (by first | exact id | (intro hk; (repeat' (first | assumption | split)); done) | simp))
    | split

theorem State.writeDom_steady {s0 s : State} (off : Nat) (w : Word) (hst : Steady s0 s) :
    Steady s0 (State.writeDom off w s) := by
  unfold State.writeDom
  repeat' first
    | assumption
    | (intro _)
    | (fail_if_no_progress refine Steady.upd ?_ rfl rfl rfl (by first | rfl | (simp <;> rfl)) (by first | rfl | (simp <;> rfl)) (by first | rfl | (simp <;> rfl)) (by exact fun _ _ h => h) (by first | exact id | (intro hk; (repeat' (first | assumption | split)); done) | simp) (by first | exact id | (intro hk; (repeat' (first | assumption | split)); done) | simp))
    | split

theorem State.writeDwctrl_steady {s0 s : State} (fn : Nat) (w : Word) (hst : Steady s0 s) :
    Steady s0 (State.writeDwctrl fn w s) := by
  unfold State.writeDwctrl
  repeat' first
    | assumption
    | (intro _)
    | with_reducible apply State.windowGo_steady
    | with_reducible apply Steady.ite
    | (fail_if_no_progress refine Steady.upd ?_ rfl rfl rfl (by first | rfl | (simp <;> rfl)) (by first | rfl | (simp <;> rfl)) (by first | rfl | (simp <;> rfl)) (by exact fun _ _ h => h) (by first | exact id | (intro hk; (repeat' (first | assumption | split)); done) | simp) (by first | exact id | (intro hk; (repeat' (first | assumption | split)); done) | simp))

theorem State.writeHlm_steady {s0 s : State} (fn : Nat) (off : Nat) (w : Word) (hst : Steady s0 s) :
    Steady s0 (State.writeHlm fn off w s) := by
  unfold State.writeHlm
  repeat' first
    | assumption
    | (intro _)
    | with_reducible apply State.writeDwctrl_steady
    | with_reducible apply Steady.ite
    | (fail_if_no_progress refine Steady.upd ?_ rfl rfl rfl (by first | rfl | (simp <;> rfl)) (by first | rfl | (simp <;> rfl)) (by first | rfl | (simp <;> rfl)) (by exact fun _ _ h => h) (by first | exact id | (intro hk; (repeat' (first | assumption | split)); done) | simp) (by first | exact id | (intro hk; (repeat' (first | assumption | split)); done) | simp))
    | split

theorem State.writeAlr_steady {s0 s : State} (off : Nat) (w : Word) (hst : Steady s0 s) :
    Steady s0 (State.writeAlr off w s) := by
  unfold State.writeAlr
  repeat' first
    | assumption
    | (intro _)
    | (fail_if_no_progress refine Steady.upd ?_ rfl rfl rfl (by first | rfl | (simp <;> rfl)) (by first | rfl | (simp <;> rfl)) (by first | rfl | (simp <;> rfl)) (by exact fun _ _ h => h) (by first | exact id | (intro hk; (repeat' (first | assumption | split)); done) | simp) (by first | exact id | (intro hk; (repeat' (first | assumption | split)); done) | simp))
    | split

theorem State.writeBeacon_steady {s0 s : State} (w : Word) (hst : Steady s0 s) :
    Steady s0 (State.writeBeacon w s) := by
  unfold State.writeBeacon
  repeat' first
    | assumption
    | (intro _)
    | with_reducible apply State.beaconNow_steady
    | with_reducible apply State.releaseBeacon_steady
    | with_reducible apply Steady.ite

theorem State.writeObs_steady {s0 s : State} (off : Nat) (w : Word) (hst : Steady s0 s) :
    Steady s0 (State.writeObs off w s) := by
  unfold State.writeObs
  repeat' first
    | assumption
    | (intro _)
    | with_reducible apply State.writeBeacon_steady
    | with_reducible apply Steady.ite
    | (fail_if_no_progress refine Steady.upd ?_ rfl rfl rfl (by first | rfl | (simp <;> rfl)) (by first | rfl | (simp <;> rfl)) (by first | rfl | (simp <;> rfl)) (by exact fun _ _ h => h) (by first | exact id | (intro hk; (repeat' (first | assumption | split)); done) | simp) (by first | exact id | (intro hk; (repeat' (first | assumption | split)); done) | simp))
    | split

theorem State.writeLock_steady {s0 s : State} (fn : Option Nat) (w : Word) (hst : Steady s0 s) :
    Steady s0 (State.writeLock fn w s) := by
  unfold State.writeLock
  repeat' first
    | assumption
    | (intro _)
    | with_reducible apply State.claimBooth_steady
    | with_reducible apply State.claimFor_steady
    | with_reducible apply State.releaseLock_steady
    | with_reducible apply Steady.ite
    | (fail_if_no_progress refine Steady.upd ?_ rfl rfl rfl (by first | rfl | (simp <;> rfl)) (by first | rfl | (simp <;> rfl)) (by first | rfl | (simp <;> rfl)) (by exact fun _ _ h => h) (by first | exact id | (intro hk; (repeat' (first | assumption | split)); done) | simp) (by first | exact id | (intro hk; (repeat' (first | assumption | split)); done) | simp))
    | split

theorem State.writeMse_steady {s0 s : State} (off : Nat) (w : Word) (hst : Steady s0 s) :
    Steady s0 (State.writeMse off w s) := by
  unfold State.writeMse
  repeat' first
    | assumption
    | (intro _)
    | with_reducible apply State.modErr_steady
    | (fail_if_no_progress refine Steady.upd ?_ rfl rfl rfl (by first | rfl | (simp <;> rfl)) (by first | rfl | (simp <;> rfl)) (by first | rfl | (simp <;> rfl)) (by exact fun _ _ h => h) (by first | exact id | (intro hk; (repeat' (first | assumption | split)); done) | simp) (by first | exact id | (intro hk; (repeat' (first | assumption | split)); done) | simp))
    | split

theorem State.writeReg_steady {s0 s : State} (fn : Option Nat) (a : Nat) (w : Word) (hst : Steady s0 s) :
    Steady s0 (State.writeReg fn a w s) := by
  unfold State.writeReg
  repeat' first
    | assumption
    | (intro _)
    | with_reducible apply State.writeGlobal_steady
    | with_reducible apply State.writeRcu_steady
    | with_reducible apply State.writeAld_steady
    | with_reducible apply State.writeSbx_steady
    | with_reducible apply State.writeLdg_steady
    | with_reducible apply State.writeSwp_steady
    | with_reducible apply State.writeStl_steady
    | with_reducible apply State.writeMrk_steady
    | with_reducible apply State.writeDom_steady
    | with_reducible apply State.writeHlm_steady
    | with_reducible apply State.writeAlr_steady
    | with_reducible apply State.writeObs_steady
    | with_reducible apply State.writeLock_steady
    | with_reducible apply State.writeMse_steady
    | with_reducible apply Steady.ite
    | (fail_if_no_progress refine Steady.upd ?_ rfl rfl rfl (by first | rfl | (simp <;> rfl)) (by first | rfl | (simp <;> rfl)) (by first | rfl | (simp <;> rfl)) (by exact fun _ _ h => h) (by first | exact id | (intro hk; (repeat' (first | assumption | split)); done) | simp) (by first | exact id | (intro hk; (repeat' (first | assumption | split)); done) | simp))
    | split

theorem State.regAnswer_steady {s0 s : State} (fn : Option Nat) (denied : Bool) (v : Nat) (hst : Steady s0 s) :
    Steady s0 (State.regAnswer fn denied v s) := by
  unfold State.regAnswer
  repeat' first
    | assumption
    | (intro _)
    | with_reducible apply State.emit_steady
    | with_reducible apply State.bump_steady
    | (fail_if_no_progress refine Steady.upd ?_ rfl rfl rfl (by first | rfl | (simp <;> rfl)) (by first | rfl | (simp <;> rfl)) (by first | rfl | (simp <;> rfl)) (by exact fun _ _ h => h) (by first | exact id | (intro hk; (repeat' (first | assumption | split)); done) | simp) (by first | exact id | (intro hk; (repeat' (first | assumption | split)); done) | simp))
    | split

theorem State.serveRead_steady {s0 s : State} (fn : Option Nat) (a : Nat) (hst : Steady s0 s) :
    Steady s0 (State.serveRead fn a s) := by
  unfold State.serveRead
  repeat' first
    | assumption
    | (intro _)
    | with_reducible apply State.bump_steady
    | with_reducible apply State.capturing_steady
    | with_reducible apply State.nextSetWord_steady
    | with_reducible apply State.regAnswer_steady
    | with_reducible apply Steady.ite
    | (fail_if_no_progress refine Steady.upd ?_ rfl rfl rfl (by first | rfl | (simp <;> rfl)) (by first | rfl | (simp <;> rfl)) (by first | rfl | (simp <;> rfl)) (by exact fun _ _ h => h) (by first | exact id | (intro hk; (repeat' (first | assumption | split)); done) | simp) (by first | exact id | (intro hk; (repeat' (first | assumption | split)); done) | simp))
    | split

theorem State.regRead_steady {s0 s : State} (fn : Option Nat) (a : Nat) (hst : Steady s0 s) :
    Steady s0 (State.regRead fn a s) := by
  unfold State.regRead
  repeat' first
    | assumption
    | (intro _)
    | with_reducible apply State.regAnswer_steady
    | with_reducible apply State.serveRead_steady
    | (fail_if_no_progress refine Steady.upd ?_ rfl rfl rfl (by first | rfl | (simp <;> rfl)) (by first | rfl | (simp <;> rfl)) (by first | rfl | (simp <;> rfl)) (by exact fun _ _ h => h) (by first | exact id | (intro hk; (repeat' (first | assumption | split)); done) | simp) (by first | exact id | (intro hk; (repeat' (first | assumption | split)); done) | simp))
    | split

theorem State.regWrite_steady {s0 s : State} (fn : Option Nat) (a : Nat) (data : Nat) (hst : Steady s0 s) :
    Steady s0 (State.regWrite fn a data s) := by
  unfold State.regWrite
  repeat' first
    | assumption
    | (intro _)
    | with_reducible apply State.regAnswer_steady
    | with_reducible apply State.writeReg_steady
    | (fail_if_no_progress refine Steady.upd ?_ rfl rfl rfl (by first | rfl | (simp <;> rfl)) (by first | rfl | (simp <;> rfl)) (by first | rfl | (simp <;> rfl)) (by exact fun _ _ h => h) (by first | exact id | (intro hk; (repeat' (first | assumption | split)); done) | simp) (by first | exact id | (intro hk; (repeat' (first | assumption | split)); done) | simp))
    | split

end Sys2Proof.Machine
end

