-- ==== Sys2Proof/WellFormed.lean ====
section
/-!
DEFINITION. Well-formed commands: every field fits the width that its port (spec/03_ports.md) or its command's argument list
(spec/16_command_interface.md R473, R485) gives it, and engine indices lie in the largest build (R6). What comes from outside beside
the fields (bytes read back, verdicts) has no width of its own and is not constrained.
-/

namespace Sys2Proof

open Sys2Proof.Machine

/-- The number has at most `w` bits. -/
def fits (w n : Nat) : Bool := decide (n < 2 ^ w)

/-- The header fields of a call fit their widths (R473, R75); the Stall is one of 4,096 (R393). -/
def Machine.Call.wf (c : Call) : Bool :=
  fits 16 c.fn && fits 8 c.qid && fits 12 c.stall && fits 16 c.opcode && fits 32 c.tag && fits 56 c.comp && fits 16 c.sigMark &&
    fits 64 c.sigValue && fits 16 c.waitMark && fits 64 c.waitValue

/-- The destination list of MARK_CREATE: at most 12 pairs of a chip and a Mark (R485). -/
def destsOk (ds : List (Nat × Nat)) : Bool := decide (ds.length ≤ 12) && ds.all fun d => fits 16 d.1 && fits 16 d.2

/-- A command whose fields fit. [DESIGN CHOICE: notes/assumptions/70.md] -/
def Instr.wf : Instr → Bool
  | .powerOnReset => true
  | .systemReset => true
  | .resetRelease _ _ tamper tamperB fuseFail _ => fits 8 tamper && fits 8 tamperB && (fuseFail.all fun w => decide (w < 256))
  | .lcTransitionResume => true
  | .almanacLoad _ _ _ _ _ => true
  | .helmWatchdogExpiry => true
  | .coreResetEnd => true
  | .coreResetRequest fn => fits 16 fn
  | .sysReqWrite fn => fits 16 fn
  | .unitResetGo fn unit => fits 16 fn && fits 8 unit
  | .unitResetIdle unit => fits 8 unit
  | .unitResetForce unit _ => fits 8 unit
  | .unitResetRelease unit => fits 8 unit
  | .runtDetected => true
  | .pclkStopDeclared _ => true
  | .pclkStopEnd => true
  | .pclkStopTimeout => true
  | .pclkFreqWindow _ _ => true
  | .freqChangeRequest => true
  | .freqChangeDone => true
  | .freqChangeTimeout => true
  | .clockGoodLost => true
  | .freqAckReturnTimeout _ => true
  | .tickBoundary => true
  | .tickLate => true
  | .tickBudgetExpiry => true
  | .epochApply m => decide (m < 24)
  | .tamperPairTrip tamper tamperB => fits 8 tamper && fits 8 tamperB
  | .coolantLoss => true
  | .safeStopDrainDone => true
  | .zeroizeVerifyDone nonzero => fits 8 nonzero
  | .fusePortTimeout => true
  | .fusePgmDone => true
  | .fusePgmErr => true
  | .railSampleCapture val ch par => fits 32 val && fits 4 ch && fits 1 par
  | .tempSampleCapture val par => fits 12 val && fits 1 par
  | .railChannelGap ch => fits 4 ch
  | .crossingSoundingDone crossing _ => fits 8 crossing
  | .partitionAnnounce unit level phase => fits 8 unit && fits 2 level && fits 1 phase
  | .partitionDrainDone unit => fits 8 unit
  | .partitionDrainTimeout unit _ => fits 8 unit
  | .mseReadRequest m lane sector stall id cls =>
      decide (m < 24) && fits 5 lane && fits 49 sector && fits 12 stall && fits 16 id && fits 2 cls
  | .mseLockRead m lane sector stall id cls =>
      decide (m < 24) && fits 5 lane && fits 49 sector && fits 12 stall && fits 16 id && fits 2 cls
  | .mseWriteRequest m lane sector stall id cls data =>
      decide (m < 24) && fits 5 lane && fits 49 sector && fits 12 stall && fits 16 id && fits 2 cls && decide (data.length = 128)
  | .msePartialWrite m lane sector stall id cls be data =>
      decide (m < 24) && fits 5 lane && fits 49 sector && fits 12 stall && fits 16 id && fits 2 cls && fits 128 be &&
        decide (data.length = 128)
  | .mseUnlockWrite m lane sector stall id cls be data =>
      decide (m < 24) && fits 5 lane && fits 49 sector && fits 12 stall && fits 16 id && fits 2 cls && fits 128 be &&
        decide (data.length = 128)
  | .mseMemRequestSend m lane _ _ => decide (m < 24) && fits 4 lane
  | .mseReadBeat m id data sb _ => decide (m < 24) && fits 10 id && decide (data.length = 128) && fits 64 sb
  | .mseLaneTestDone m lane _ => decide (m < 24) && fits 5 lane
  | .mseWriteAck m id _ => decide (m < 24) && fits 10 id
  | .mseReadTimeout m id => decide (m < 24) && fits 10 id
  | .mseWriteTimeout m id => decide (m < 24) && fits 10 id
  | .mseLockTimeout m sector => decide (m < 24) && fits 49 sector
  | .tagLineWriteFlush m line => decide (m < 24) && fits 49 line
  | .keyGenFence m => decide (m < 24)
  | .keyGenFenceAck m => decide (m < 24)
  | .mseSquashOrder m => decide (m < 24)
  | .ledgerInvalidate m => decide (m < 24)
  | .refusalMapUpdate tile => decide (tile < 24)
  | .ledgerCacheFill m _ index => decide (m < 24) && fits 32 index
  | .keyCacheFill tile handle gen _ => decide (tile < 24) && fits 32 handle && fits 8 gen
  | .keyUnwrapDone handle gen _ => fits 32 handle && fits 8 gen
  | .poolLedgerLineFill line data => fits 32 line && decide (data.length = 128)
  | .sweepSlotStart => true
  | .strideCheckpoint slot => fits 8 slot
  | .sweepRetire stall => fits 12 stall
  | .sweepDone stall => fits 12 stall
  | .zeroFillDone slot => fits 8 slot
  | .harbourResealDone => true
  | .sweeperYieldEnd => true
  | .deltaRecordAck => true
  | .baseMarkerAck => true
  | .ledgerDed _ index => fits 32 index
  | .ledgerRowSoundingDone row _ => fits 16 row
  | .keyslotMaskRefresh _ => true
  | .keyslotBankSoundingDone bank _ => fits 8 bank
  | .entropyFail => true
  | .entropyRecover => true
  | .entropyWaitTimeout => true
  | .keyPairGenerated => true
  | .keyUseReport tile handle gen _ => decide (tile < 24) && fits 32 handle && fits 8 gen
  | .lseTxRequest l kind stall dst tc addr id nbytes data =>
      decide (l < 48) && fits 3 kind && fits 12 stall && fits 16 dst && fits 2 tc && fits 56 addr && fits 16 id &&
        decide (nbytes ≤ 128) && decide (data.length ≤ 128)
  | .lseHostResponse l kind id st data => decide (l < 48) && fits 3 kind && fits 16 id && fits 2 st && decide (data.length ≤ 128)
  | .lseRxUnit l _ _ => decide (l < 48)
  | .lseRxRequest l => decide (l < 48)
  | .lseRxResponse l => decide (l < 48)
  | .lseDeadTarget l id => decide (l < 48) && fits 32 id
  | .linkKeyDerived l _ => decide (l < 48)
  | .resyncReceive l => decide (l < 48)
  | .grantReceive l => decide (l < 48)
  | .grantAckReceive l => decide (l < 48)
  | .revokeReceive l => decide (l < 48)
  | .revokeAckReceive l => decide (l < 48)
  | .revokeTimeout l => decide (l < 48)
  | .joinH1Receive l _ => decide (l < 48)
  | .joinChainReceive l _ => decide (l < 48)
  | .joinH2Receive l _ => decide (l < 48)
  | .joinH3Receive l _ => decide (l < 48)
  | .joinH4Receive l => decide (l < 48)
  | .hybridExchangeTimeout => true
  | .timeProbeSend t1 => fits 64 t1
  | .timeProbeReceive l t2 t3 => decide (l < 48) && fits 64 t2 && fits 64 t3
  | .timeReplyReceive l t4 => decide (l < 48) && fits 64 t4
  | .timeUnlockTimeout => true
  | .hseTxTlp h kind _ _ => decide (h < 4) && fits 4 kind
  | .hseRxTlp h kind _ _ _ _ => decide (h < 4) && fits 4 kind
  | .xckUnpairedTimeout binding => fits 8 binding
  | .markSignalReceive l => decide (l < 48)
  | .markAckReceive l => decide (l < 48)
  | .markResendTimeout mark dest => fits 16 mark && fits 8 dest
  | .markFillDone mark _ => fits 16 mark
  | .stallFillStart => true
  | .stallFillDone stall _ => fits 12 stall
  | .removalStepDone stall => fits 12 stall
  | .removalDrainTimeout stall => fits 12 stall
  | .freezeDrainTimeout stall => fits 12 stall
  | .migSessionExpiry => true
  | .boothClaim fn => fits 16 fn
  | .boothRelease fn => fits 16 fn
  | .boothLeaseExpiry => true
  | .boothOpComplete _ => true
  | .tollCommit => true
  | .tollHandoff _ _ _ _ => true
  | .tollExportComplete _ => true
  | .hintBoothClassEnd => true
  | .commandPacket fn qid _ _ => fits 16 fn && fits 8 qid
  | .commandStart => true
  | .completionWrite => true
  | .cwOverrun => true
  | .eventRingWrite => true
  | .alarmLogCopy => true
  | .settingsRepairWrite => true
  | .doldrumsDeclare => true
  | .doldrumsEnd => true
  | .counterBankSoundingDone counter _ => fits 12 counter
  | .beaconFreeze => true
  | .beaconNow fn => fits 16 fn
  | .beaconRelease fn => fits 16 fn
  | .counterBankClear fn bank => fits 16 fn && fits 8 bank
  | .obsTrackWrite fn t stall _ => fits 16 fn && fits 6 t && fits 12 stall
  | .evqCfgWrite fn log2 _ => fits 16 fn && fits 5 log2
  | .evqTailWrite fn tail => fits 16 fn && fits 16 tail
  | .settingsDataAccess fn _ data => fits 16 fn && fits 32 data
  | .capturePairRead fn addr => fits 16 fn && fits 24 addr
  | .integrityAlarmClear fn => fits 16 fn
  | .registerWrite fn addr data => fits 16 fn && fits 24 addr && fits 32 data
  | .dwGo fn => fits 16 fn
  | .lcReq target auth _ => fits 8 target && decide (auth.length = 192)
  | .tapDebugEnter ir => fits 8 ir
  | .tapFuseRead word => fits 8 word
  | .tapRegAccess _ addr data => fits 24 addr && fits 32 data
  | .nop c => c.wf
  | .hint c durationUs targets => c.wf && fits 32 durationUs && fits 8 targets
  | .patchStage c src len _ _ => c.wf && fits 64 src && fits 32 len
  | .patchCommit c => c.wf
  | .keyGenerate c type flags usage keyLen ownerIdx blobAddr _ =>
      c.wf && fits 8 type && fits 8 flags && fits 16 usage && fits 8 keyLen && fits 8 ownerIdx && fits 64 blobAddr
  | .keyLoad c handle flags => c.wf && fits 32 handle && fits 8 flags
  | .keyUnpin c handle => c.wf && fits 32 handle
  | .keyRotate c handle blobAddr _ => c.wf && fits 32 handle && fits 64 blobAddr
  | .keyDestroy c handle => c.wf && fits 32 handle
  | .keyAttest c handle out_ outMax _ _ => c.wf && fits 32 handle && fits 64 out_ && fits 32 outMax
  | .drkGenerate c => c.wf
  | .regionBind c region count mode => c.wf && fits 32 region && fits 16 count && fits 8 mode
  | .regionRetire c region count owner => c.wf && fits 32 region && fits 16 count && fits 16 owner
  | .stallAdmit c stall fill integ opts nowner account program tenantKey policy owners _ =>
      c.wf && fits 16 stall && fits 8 fill && fits 8 integ && fits 8 opts && fits 8 nowner && fits 64 account &&
        decide (program.length = 48) && decide (tenantKey.length = 48) && decide (policy.length = 48) && fits 64 owners
  | .stallRemove c stall => c.wf && fits 16 stall
  | .stallFreeze c stall flist _ => c.wf && fits 16 stall && fits 64 flist
  | .stallThaw c stall => c.wf && fits 16 stall
  | .migrateSave c stall session flist out_ outMax _ _ _ =>
      c.wf && fits 16 stall && fits 64 session && fits 64 flist && fits 64 out_ && fits 32 outMax
  | .migrateRestore c session rec_ blobRegion counter _ =>
      c.wf && fits 64 session && fits 64 rec_ && fits 32 blobRegion && fits 64 counter
  | .fnMap c fn stall => c.wf && fits 16 fn && fits 16 stall
  | .fnUnmap c fn => c.wf && fits 16 fn
  | .stallStatus c stall => c.wf && fits 16 stall
  | .windowGrant c reqChip reqStall rights base size =>
      c.wf && fits 16 reqChip && fits 16 reqStall && fits 8 rights && fits 32 base && fits 32 size
  | .windowRevoke c reqChip index => c.wf && fits 16 reqChip && fits 16 index
  | .linkReset c lse => c.wf && fits 8 lse
  | .xckBind c winA winB tiles mode k rate action =>
      c.wf && fits 64 winA && fits 64 winB && fits 16 tiles && fits 8 mode && fits 8 k && fits 8 rate && fits 8 action
  | .xckUnbind c binding => c.wf && fits 8 binding
  | .measureExtend c reg kind owner digest => c.wf && fits 8 reg && fits 8 kind && fits 8 owner && decide (digest.length = 48)
  | .measureLock c => c.wf
  | .x2Enable c => c.wf
  | .x2Report c nonce out_ outMax _ _ => c.wf && decide (nonce.length = 32) && fits 64 out_ && fits 32 outMax
  | .stallEvidence c stall out_ outMax _ _ => c.wf && fits 16 stall && fits 64 out_ && fits 32 outMax
  | .identityCsr c out_ outMax _ _ => c.wf && fits 64 out_ && fits 32 outMax
  | .identityStore c src len _ => c.wf && fits 64 src && fits 32 len
  | .spdmMsg c req reqLen hse rsp rspMax _ _ _ _ => c.wf && fits 64 req && fits 32 reqLen && fits 8 hse && fits 64 rsp && fits 32 rspMax
  | .hybMsg c inp inLen purpose flags targetStall out_ outMax targetChip _ _ _ _ _ =>
      c.wf && fits 64 inp && fits 32 inLen && fits 8 purpose && fits 8 flags && fits 16 targetStall && fits 64 out_ &&
        fits 32 outMax && fits 16 targetChip
  | .domainJoin c src len _ _ _ => c.wf && fits 64 src && fits 32 len
  | .domainSubstitute c src len _ _ _ => c.wf && fits 64 src && fits 32 len
  | .markCreate c spill mode ndest srcChip srcMark dests =>
      c.wf && fits 64 spill && fits 8 mode && fits 8 ndest && fits 16 srcChip && fits 16 srcMark && destsOk dests
  | .markDestroy c index => c.wf && fits 16 index
  | .markSignal c index op value => c.wf && fits 16 index && fits 8 op && fits 64 value
  | .markWait c index timeout value => c.wf && fits 16 index && fits 32 timeout && fits 64 value
  | .markWaitTimeout => true
  | .markRoute c chip primary alternate flags => c.wf && fits 16 chip && fits 8 primary && fits 8 alternate && fits 8 flags
  | .boothOp c mode dir flags tail handle src dst len aadLen aadTail aad iv du tag =>
      c.wf && fits 8 mode && fits 8 dir && fits 8 flags && fits 8 tail && fits 32 handle && fits 64 src && fits 64 dst &&
        fits 32 len && fits 16 aadLen && fits 8 aadTail && fits 64 aad && decide (iv.length = 16) && fits 32 du && fits 64 tag
  | .tollPolicyLoad c addr _ => c.wf && fits 64 addr
  | .tollExport c rule owner outFmt cls handle src len stage dst hdr tag _ _ =>
      c.wf && fits 8 rule && fits 8 owner && fits 8 outFmt && fits 8 cls && fits 32 handle && fits 64 src && fits 32 len &&
        fits 64 stage && fits 64 dst && fits 64 hdr && fits 64 tag
  | .tollBudget c owner nonce out_ outMax _ _ => c.wf && fits 8 owner && decide (nonce.length = 32) && fits 64 out_ && fits 32 outMax
  | .almanacUpdate c phase inline_ offset len src data _ _ =>
      c.wf && fits 8 phase && fits 8 inline_ && fits 32 offset && fits 32 len && fits 64 src && decide (data.length ≤ 128)
  | .svnAdvance c => c.wf
  | .settingsSave c => c.wf
  | .trainingDone c flags _ _ => c.wf && fits 8 flags
  | .lcTransition c target auth _ _ _ => c.wf && fits 8 target && decide (auth.length = 192)
  | .hangDump c stall meta_ outp outMax _ _ _ => c.wf && fits 16 stall && fits 64 meta_ && fits 64 outp && fits 32 outMax
  | .beaconSet c at_ => c.wf && fits 64 at_
  | .meterRead c stall out_ outMax _ _ => c.wf && fits 16 stall && fits 64 out_ && fits 32 outMax
  | .fuseReadReturn data => fits 32 data
  | .nvmEraseDone => true
  | .keyInvalidationApply tile handle gen => decide (tile < 24) && fits 32 handle && fits 8 gen
  | .lseUnitSent l => decide (l < 48)

end Sys2Proof
end

