-- ==== Sys2Proof/Tests/Slice0.lean ====
section
/-!
SUPPORT. Tests of the model: ill-formed commands that WellFormed refuses, small runs of one step, and a concrete state and operands for
the hypotheses of the statements.
-/

namespace Sys2Proof.Tests

open Sys2Proof Sys2Proof.Machine

set_option linter.unusedVariables false
set_option Elab.async false

/-! ### Terms for the tests -/

/-- A call of Stall 0. -/
def call0 : Call :=
  { fn := 0, qid := 0, stall := 0, opcode := 0x0100, tag := 7, comp := 0, tick := false, fence := false, irq := false, sigMark := 0xFFFF
    sigValue := 0, waitMark := 0xFFFF, waitValue := 0, window := false, deferred := false, ticked := false }

/-- Work of the public-key engine that makes nothing. -/
def hyb0 : HybOps := { ek := [], ct := [], z := [], k := [], sig := [], sigOk := true, keyOk := true, chain := [] }

/-- Verdicts on an image. -/
def sigs0 : ImageSigs := { integrator := true, vendor := true, patches := [] }

/-- Memory that answers nothing. -/
def io0 : BoothIo := { src := .failed, aad := .failed, tag := .failed, part := [], failedAt := none }

/-! ### States for the witnesses -/

/-- A Stall in a state. -/
def stallOf (st : StallState) : Stall :=
  { state := st, inst := List.replicate 16 7, version := 1, measLocked := false, x2 := false, rebase := false, saved := false, imported := false
    logOverflow := false, lostCause := 0, nextSerial := 1, extendSeq := 0, fillFault := false, integLose := false, keyed := true
    boothStream := false, bindNoinit := false, eSrc := 0, bias := 0, admitTime := 0, saveSeq := 0 }

/-- Orvane in full mode, 1,000 s after its power-on reset, with Stall 5 keyed and resident. -/
def svc : State :=
  { State.reset with
    cfg := { State.reset.cfg with chart := { State.reset.cfg.chart with localLimit := 4096, harbourBase := 4000, harbourCount := 17 } }
    pins := { Pins.atReset with porN := true }
    clk := { State.reset.clk with elapsed := 10 ^ 12, domain := 10 ^ 12, anchored := true, lastTick := some (10 ^ 12 - 10 ^ 6) }
    rst := { State.reset.rst with phase := .service, rstBusy := false, cause := 0 }
    ald := { State.reset.ald with done := true, memTrained := true, linksTrained := true, restored := true, full := true }
    sbx := { State.reset.sbx with drkOk := true, entropyOk := true, poolLevel := 2 }
    ldg := { State.reset.ldg with storeOk := true }
    stl := { State.reset.stl with
      table := [(0, stallOf .keyed), (5, stallOf .keyed)], data := [(0, StallData.fresh), (5, StallData.fresh)], slots := [(1, 5)]
      fnMap := [(0, (1, 5))] } }

/-- A call of Stall 5. -/
def call5 (op : Nat) : Call := { call0 with fn := 1, qid := 1, stall := 5, opcode := op, comp := 64 }

/-- A call of Stall 0. -/
def call00 (op : Nat) : Call := { call0 with opcode := op }

/-- A command in the buffer. -/
def queued (c : Call) (order : Nat) : Queued := { call := c, args := [], order, waited := 0 }

/-- A packet of one beat pair: opcode, beats, no Marks. -/
def packet (op nbeat : Nat) : Bytes :=
  (leBytes 2 op ++ [0] ++ leBytes 1 nbeat ++ leBytes 4 7 ++ leBytes 8 64 ++ leBytes 2 0xFFFF ++ leBytes 2 0xFFFF ++ zeros 28) ++
    zeros (32 * nbeat - 48)

/-- An event. -/
def event0 : Event := { code := 1, unit := 0, stall := none, time := 5, unanchored := false, arg0 := 1, arg1 := 2 }

/-- An event ring of 64 records that is on. -/
def evqOn : Evq := { Evq.atReset with on := true }

/-- An alarm log entry. -/
def alarm0 : AlarmEntry :=
  { code := alIntegrity, unit := 0, stall := none, time := 5, unanchored := false, cause := 1, word := 0, count := 1, firstAt := 5, copied := false }

/-- A key table entry. -/
def keyE (h : Nat) : KeyEntry :=
  { handle := h, gen := 0, pinned := false, migratable := false, usage := 5, keyLen := 32, use := 0, ops := 0, blobAddr := 512, blobTag := []
    eC := 0, ownerIdx := 0, destroyed := false }

/-- Full mode with one key of Stall 5, in slot 0. -/
def svcKey (h : Nat) : State :=
  { svc with
    stl := { svc.stl with data := [(0, StallData.fresh), (5, { StallData.fresh with keys := [keyE h] })] }
    sbx := { svc.sbx with slots := [(0, KeySlot.fresh h 0 0 [1])] } }

/-- A Booth operation of Stall 5. -/
def op5 : BoothOp :=
  { call := call5 0x0801, mode := 0, decrypt := false, flags := 0, tail := 0, handle := 0, src := 64, dst := 128, len := 16, aadLen := 0
    aadTail := 0, aad := 0, iv := [], hwNonce := false, du := 0, tag := 0, header := none }

/-- A Stall policy that allows every selection. -/
def pol0 : StallPolicy :=
  { recordBase := 16, fillHold := true, fillFault := true, integReport := true, integLose := true, boothAllow := true, bindAllow := true
    tDrain := 100, fillDefault := 0, integDefault := 0, tMigSess := 100 }

/-- A region entry. -/
def entryOf (owner : Nat) (st : RegState) : LdgEntry := { owner, gen := 0, state := st, floor := 0, sweep := false }

/-- Full mode with a Stall policy and a bound record area. -/
def svcPol : State :=
  { svc with
    cfg := { svc.cfg with policy := some pol0 }
    ldg := { svc.ldg with localEntries := (List.range 16).map fun k => (16 + k, entryOf 0 .plain) }
    stl := { svc.stl with credit := 2500 * 10 ^ 9 } }

/-- Full mode with region 0 PLAIN and owned by Stall 0. -/
def svcPlain : State := { svc with ldg := { svc.ldg with localEntries := [(0, entryOf 0 .plain)] } }

/-- A removal of Stall 5 at a step. -/
def rem5 (step : Nat) : Removal :=
  { stall := 5, inst := List.replicate 16 7, step, since := 0, regions := [], call := some (call00 0x0402) }

/-- Full mode with that removal and its step journalled. -/
def svcRem (step : Nat) : State :=
  { svc with
    stl := { svc.stl with table := [(0, stallOf .keyed), (5, stallOf .removing)], removals := [rem5 step] }
    nvm := { svc.nvm with journal := [{ index := 0, seq := 1, headSeq := 1
                                        records := [{ seq := 2, body := .removal 5 (List.replicate 16 7) step }] }] } }

/-- Full mode with Stall 5 locked and X2. -/
def svcLock : State :=
  { svc with stl := { svc.stl with table := [(0, stallOf .keyed), (5, { stallOf .keyed with measLocked := true, x2 := true })] } }

/-- Full mode in PROVISION. -/
def svcProv : State := { svc with lcu := { svc.lcu with state := lcProvision } }

/-- A migration record of Stall 9 for chip 0 without regions or keys: header, ciphertext of zeros, tag. -/
def migBytes : Bytes :=
  let h := migHeader 9 false (migLength 0 0) 2 0 0 0 1 (leBytes 8 77)
  h ++ zeros 6624 ++ gcmTag (zeros 32) (zeros 12) h (zeros 6624)


/-- A block that waits in the load, its fuses decoded. -/
def loading : State :=
  { State.reset with
    pins := { Pins.atReset with porN := true }
    clk := { State.reset.clk with elapsed := 10 ^ 9, domain := 10 ^ 9 }
    rst := { State.reset.rst with phase := .loading, cause := 1 }
    sbx := { State.reset.sbx with drkOk := true, entropyOk := true } }

/-- The body of an image: TICK_EPOCH, CHART, PARTITION and REG_AUTH. -/
def body0 : Bytes :=
  leBytes 2 0x8002 ++ zeros 2 ++ leBytes 4 12 ++ leBytes 2 10 ++ [100, 100] ++ leBytes 4 3600 ++ leBytes 4 3600 ++ zeros 4 ++
    (leBytes 2 0x8004 ++ zeros 2 ++ leBytes 4 352 ++ leBytes 4 4800 ++ zeros 4 ++ leBytes 4 4000 ++ leBytes 4 17 ++
      ((List.range 24).map fun i => BitVec.ofNat 8 i) ++ ((List.range 16).map fun i => BitVec.ofNat 8 i) ++ zeros 296) ++
    (leBytes 2 0x8005 ++ zeros 2 ++ leBytes 4 72 ++ leBytes 8 1 ++ [0, 1] ++ zeros 6 ++ leBytes 32 1 ++ leBytes 2 0 ++ leBytes 2 5 ++ zeros 20) ++
    (leBytes 2 0x8006 ++ zeros 2 ++ leBytes 4 24 ++ leBytes 8 1 ++ leBytes 2 0 ++ leBytes 2 0 ++ leBytes 4 0x1FFFFF ++ leBytes 4 0x1FFFFF ++ zeros 4)

/-- An image of Orvane, without keys. -/
def image0 : Bytes :=
  leBytes 4 0x4D415358 ++ leBytes 2 3 ++ leBytes 2 0x80 ++ leBytes 4 12776 ++ leBytes 4 7 ++ leBytes 4 0x03020000 ++
    leBytes 4 0x000F5218 ++ zeros 2 ++ leBytes 2 4 ++ zeros 4 ++ sha384 body0 ++ leBytes 8 1000000 ++ zeros 40 ++ zeros 2696 ++ body0 ++
    zeros 9456

/-- Harbour mode, before the restore. -/
def svcHarbour : State := { svc with ald := { svc.ald with memTrained := false, linksTrained := false, restored := false, full := false } }

/-- Full mode in which function 3 may access every register. -/
def svcReg : State := { svc with cfg := { svc.cfg with regAuth := [{ fn := 3, mask := 0xFFFF, read := 0x1FFFFF, write := 0x1FFFFF }] } }

/-- A read of a host. -/
def read0 : HostReq :=
  { write := false, lane := 1, sector := 64, stall := 5, id := 9, cls := 0, lock := false, unlock := false, be := 0, data := [], since := 5 }

/-- MSE 0 with something in it. -/
def withMse (m : Mse) (s : State) : State := { s with mse := m :: s.mse.drop 1 }

/-- A command of Stall 5 that runs, and a read that MSE 0 holds for Stall 5's fill. -/
def svcHeld : State :=
  withMse { Mse.atReset with held := [(read0, .fill 5)] } { svc with hlm := { svc.hlm with running := [queued (call5 0x0100) 1] } }

/-- Full mode with an announcement of partition 2, which has streams 0 to 7 and functions 8 to 9. -/
def svcPart (r : PartRun) : State :=
  { svc with
    cfg := { svc.cfg with parts := [{ index := 2, qids := 255, fns := [(8, 9)] }], clk := { svc.cfg.clk with tPart := 10 } }
    rst := { svc.rst with parts := [r] } }

/-- MSE 0 with the entry of region 0 PLAIN in its cache. -/
def msePlain : Mse := { Mse.atReset with ledger := [({ pool := false, index := 0 }, entryOf 0 .plain)] }

/-- A read of Stall 0 in region 0. -/
def read00 : HostReq := { read0 with sector := 0, stall := 0, since := 10 ^ 12 }

/-- A full write of Stall 0 in region 0. -/
def write00 : HostReq := { read00 with write := true, be := beAll, data := List.replicate 128 3 }

/-- Full mode with an MSE 0. -/
def svcMse (e : Mse) : State := withMse e svcPlain

/-- A link to port 3 of chip 2, keyed. -/
def lseUp : Lse :=
  { Lse.atReset with
    established := true, peerChip := 2, peerPort := 3, secret := [1], estId := zeros 8
    tx := LinkDir.start 0 (zeros 32), rx := LinkDir.start 0 (zeros 32) }

/-- Full mode with an LSE 0 and a window for Stall 5. -/
def svcLse (e : Lse) : State :=
  { svc with
    lse := e :: svc.lse.drop 1
    rwt := [(4, { reqStall := 5, dst := 2, tstall := 6, base := 0, size := 10, rights := 15 })]
    cfg := { svc.cfg with engine := { svc.cfg.engine with integLimit := 4, tDead := 100 } } }

/-- A store of the peer, as its port seals it. -/
def store0 : UnitSpec :=
  { kind := 1, sub := 0, tstall := 5, id := 9, nbytes := 4, addr := 0, tc := 0, data := [1, 2, 3, 4], stall := none, outId := none }

/-- The bytes of that unit. -/
def unit0 : Bytes := { lseUp with peerChip := svc.dom.chip }.sealed 2 3 store0

/-- A received control unit. -/
def rx7 (sub : Nat) (b : Bytes) : RxUnit :=
  { kind := 7, sub, tc := 3, src := 2, id := 0, addr := 0, tstall := 0, nbytes := b.length, payload := b }

/-- An outbound load. -/
def out0 : OutReq := { id := 9, kind := 0, stall := 5, nbytes := 4, window := 4, tc := 1, sentAt := some 5 }

/-- A window granted over LSE 0. -/
def grant0 : Granted :=
  { lse := 0, reqChip := 2, index := none, stall := 5, reqStall := 7, base := 0, size := 1, rights := 1, call := some (call5 0x0501)
    revoking := none }

/-- An HSE whose stream is secure. -/
def hseUp : Hse :=
  { Hse.atReset with
    state := 1
    keys := [{ stream := 0, dirTx := true, keySet := 0, key := [1], iv := [], blocks := 0, wearRaised := false },
      { stream := 0, dirTx := false, keySet := 0, key := [2], iv := [], blocks := 0, wearRaised := false }] }

/-- A Crosscheck binding of Stall 5 with a tile that waits. -/
def bind0 : XckBinding :=
  { stall := 5, winA := 0, winB := 8192, tiles := 1, tolerance := false, k := 0, rate := 0, action := false, kx := zeros 32, arrivals := []
    waiting := [{ sideB := false, offset := 0, n := 1, src := 2, nbytes := 128, since := 5, data := [] }]
    compared := 0, mismatch := 0, unsampled := 0, unpaired := 0, raised := true }

/-- What the key engine makes of a step of an exchange. -/
def ops0 : HybOps := { ek := [], ct := [], z := [1], k := [2], sig := [], sigOk := true, keyOk := true, chain := [1, 2, 3] }

/-- The peer on LSE 0. -/
def peer0 : Peer := { lse := 0, port := 3, chip := 2, identity := zeros 48 }

/-- Full mode of chip 4, joined, with a link to that peer. -/
def svcDom (e : Lse) : State :=
  { svcLse e with
    dom := { svc.dom with joined := true, chip := 4, peers := [peer0], fwOk := [zeros 48], timeParent := 0 }
    sbx := { svc.sbx with poolLevel := 2 } }

/-- The fragments of a message as they stand in a receive buffer. -/
def frags (sub : Nat) (msg : Bytes) : List RxUnit := (fragments sub msg).map fun u => rx7 sub u.data

/-- An exchange over LSE 0. -/
def join0 : HybExchange := { HybExchange.start false 1 (some 0) [1] (10 ^ 12) with chip := 2, port := 3 }

/-- A tenant exchange of Stall 5, which is admitted and locked. -/
def hyb5 : HybExchange :=
  { HybExchange.start false 2 none (leBytes 1 2 ++ leBytes 2 5 ++ List.replicate 16 7 ++ zeros 129) 5 with
    stall := 5, inst := List.replicate 16 7, h2 := [1] }

/-- Full mode with Stall 5 admitted and locked. -/
def svcAdm (xs : List HybExchange) : State :=
  { svcPol with
    stl := { svcPol.stl with
      table := [(0, stallOf .keyed), (5, { stallOf .admitted with measLocked := true, keyed := false })] }
    sbx := { svc.sbx with poolLevel := 2 }
    dom := { svc.dom with exchanges := xs } }

/-- A membership of a grandmaster alone. -/
def member0 : Bytes :=
  leBytes 4 0x4D445358 ++ leBytes 2 1 ++ leBytes 2 4 ++ zeros 16 ++ leBytes 4 9 ++ [1, 0, 0, 0] ++ leBytes 8 1000 ++ zeros 48 ++ [1] ++
    zeros 7 ++ zeros 384 ++ zeros 2696 ++ zeros 4728

/-- A LOCAL Mark of value 3 without destinations. -/
def mark0 : Mark :=
  { mirror := false, value := 3, sent := 3, dests := [], srcChip := 0, srcMark := 0, lastSeq := 0, poison := none, stale := 0, changed := 0
    lastUse := 0 }

/-- A destination of a Mark on chip 2, with value 5 outstanding. -/
def dest0 : MarkDest := { chip := 2, mark := 9, acked := 3, seq := 4, timer := some 5, resends := 1, unreachable := false }

/-- A joined chip with Mark 7 of Stall 5 resident and a route to chip 2. -/
def svcMark (m : Mark) (e : Lse) : State :=
  { svcDom e with
    mrk := { svc.mrk with
      dir := [(7, { owner := 5, version := 1, addr := 0, spilledAt := none })], res := [(7, m)]
      routes := [(2, { primary := 0, alternate := none })] }
    cfg := { (svcDom e).cfg with engine := { (svcDom e).cfg.engine with tMark := 100, markRetry := 3, maxHops := 2 } }
    ldg := { svc.ldg with localEntries := [(0, entryOf 5 .sealed)] } }

/-- Full mode in which function 3 is the operator's and function 1 holds the Booth for Stall 5, whose regions 0 is SEALED and whose key may do everything. -/
def svcBth (h : Nat) : State :=
  { svcReg with
    stl := { svc.stl with data := [(0, StallData.fresh), (5, { StallData.fresh with keys := [{ keyE h with usage := 15 }] })] }
    ldg := { svc.ldg with localEntries := [(0, entryOf 5 .sealed)] }
    sbx := { svc.sbx with slots := [(0, KeySlot.fresh h 0 0 (zeros 32))] }
    bth := { svc.bth with holder := some (1, 5) } }

/-- The same with an operation running. -/
def svcRun (o : BoothOp) : State := { svcBth 0x00520001 with bth := { svc.bth with holder := some (1, 5), running := some o } }

/-- A running operation on 16 bytes. -/
def opRun (mode flags : Nat) (decrypt : Bool) : BoothOp := { op5 with mode, flags, decrypt, handle := 0x00520001, iv := zeros 16 }

/-- What the memory answers an operation on 16 bytes. -/
def bio0 : BoothIo := { src := .ok (zeros 16), aad := .ok [], tag := .ok (zeros 16), part := [], failedAt := none }

/-- A policy image of one owner with a budget, one noise class and one rule. -/
def polImg (rule : Bytes) : Bytes :=
  [0x58, 0x53, 0x54, 0x50, 1, 0, 1, 1, 1] ++ zeros 7 ++ ([0, 1] ++ zeros 6 ++ leBytes 8 100 ++ leBytes 8 1 ++ zeros 168) ++
    ([0, 0, 0x20, 0x40, 0, 0, 0x80, 0x3F, 0x0A] ++ zeros 119) ++ rule ++ zeros 2032

/-- A rule for region 0 and owner slot 0. -/
def rule0 (kind fmt cls : Nat) : Bytes := leBytes 4 0 ++ leBytes 4 1 ++ leBytes 1 kind ++ leBytes 1 fmt ++ leBytes 1 cls ++ [1] ++ leBytes 4 4096

/-- The data of Stall 5 with one owner, whose EXPORT key it has. -/
def data0 : StallData :=
  { StallData.fresh with
    owners := [{ index := 0, valid := true, keyDigest := zeros 48, kEst := zeros 48 }]
    keys := [{ keyE 0x00530004 with usage := 15 }] }

/-- Full mode with that Stall, a policy in the Tollgate's cache and an export that runs. -/
def svcToll (p : Bytes) (e : Option Export) : State :=
  { svcBth 0x00530004 with
    stl := { svc.stl with data := [(0, StallData.fresh), (5, data0)] }
    sbx := { svc.sbx with slots := [] }
    tol := { svc.tol with
      policies := [(5, (0, (stallOf .keyed).tag))], cache := [(5, (stallOf .keyed).tag, p)], running := e } }

/-- An export of 32 bytes under rule 0. -/
def exp0 (phase : Nat) (rule cls : Bytes) : Export :=
  { call := call5 0x0902, rule := 0, owner := 0, outFmt := 2, cls := 0, handle := 0x00530004, src := 0, len := 32, stage := 64, dst := 128
    hdr := 192, tag := 256, phase, ruleBytes := rule, classBytes := cls, nonce := zeros 12, norm := 0, seq := 0
    before := { seq := 0, charged := [] }, header := [] }

/-! ### WellFormed: an ill-formed command for each check -/

/-- Ill-formed terms, one for each check of WellFormed, which the check refuses, part 1. -/
theorem test_wf_refuses_1 :
    ([.resetRelease true true (2 ^ 8) 0 none Trims.none,
    .resetRelease true true 0 (2 ^ 8) none Trims.none,
    .resetRelease true true 0 0 (some 256) Trims.none,
    .coreResetRequest (2 ^ 16),
    .sysReqWrite (2 ^ 16),
    .unitResetGo (2 ^ 16) 0,
    .unitResetGo 0 (2 ^ 8),
    .unitResetIdle (2 ^ 8),
    .unitResetForce (2 ^ 8) [],
    .unitResetRelease (2 ^ 8),
    .epochApply 24,
    .tamperPairTrip (2 ^ 8) 0,
    .tamperPairTrip 0 (2 ^ 8),
    .zeroizeVerifyDone (2 ^ 8),
    .railSampleCapture (2 ^ 32) 0 0,
    .railSampleCapture 0 (2 ^ 4) 0,
    .railSampleCapture 0 0 (2 ^ 1),
    .tempSampleCapture (2 ^ 12) 0,
    .tempSampleCapture 0 (2 ^ 1),
    .railChannelGap (2 ^ 4),
    .crossingSoundingDone (2 ^ 8) true,
    .partitionAnnounce (2 ^ 8) 0 0,
    .partitionAnnounce 0 (2 ^ 2) 0,
    .partitionAnnounce 0 0 (2 ^ 1),
    .partitionDrainDone (2 ^ 8),
    .partitionDrainTimeout (2 ^ 8) [],
    .mseReadRequest 24 0 0 0 0 0,
    .mseReadRequest 0 (2 ^ 5) 0 0 0 0,
    .mseReadRequest 0 0 (2 ^ 49) 0 0 0,
    .mseReadRequest 0 0 0 (2 ^ 12) 0 0,
    .mseReadRequest 0 0 0 0 (2 ^ 16) 0,
    .mseReadRequest 0 0 0 0 0 (2 ^ 2),
    .mseLockRead 24 0 0 0 0 0,
    .mseLockRead 0 (2 ^ 5) 0 0 0 0,
    .mseLockRead 0 0 (2 ^ 49) 0 0 0,
    .mseLockRead 0 0 0 (2 ^ 12) 0 0,
    .mseLockRead 0 0 0 0 (2 ^ 16) 0,
    .mseLockRead 0 0 0 0 0 (2 ^ 2),
    .mseWriteRequest 24 0 0 0 0 0 (clearBytes 128),
    .mseWriteRequest 0 (2 ^ 5) 0 0 0 0 (clearBytes 128),
    .mseWriteRequest 0 0 (2 ^ 49) 0 0 0 (clearBytes 128),
    .mseWriteRequest 0 0 0 (2 ^ 12) 0 0 (clearBytes 128),
    .mseWriteRequest 0 0 0 0 (2 ^ 16) 0 (clearBytes 128),
    .mseWriteRequest 0 0 0 0 0 (2 ^ 2) (clearBytes 128),
    .mseWriteRequest 0 0 0 0 0 0 (clearBytes 129),
    .msePartialWrite 24 0 0 0 0 0 0 (clearBytes 128),
    .msePartialWrite 0 (2 ^ 5) 0 0 0 0 0 (clearBytes 128),
    .msePartialWrite 0 0 (2 ^ 49) 0 0 0 0 (clearBytes 128),
    .msePartialWrite 0 0 0 (2 ^ 12) 0 0 0 (clearBytes 128),
    .msePartialWrite 0 0 0 0 (2 ^ 16) 0 0 (clearBytes 128),
    .msePartialWrite 0 0 0 0 0 (2 ^ 2) 0 (clearBytes 128),
    .msePartialWrite 0 0 0 0 0 0 (2 ^ 128) (clearBytes 128),
    .msePartialWrite 0 0 0 0 0 0 0 (clearBytes 129),
    .mseUnlockWrite 24 0 0 0 0 0 0 (clearBytes 128),
    .mseUnlockWrite 0 (2 ^ 5) 0 0 0 0 0 (clearBytes 128),
    .mseUnlockWrite 0 0 (2 ^ 49) 0 0 0 0 (clearBytes 128),
    .mseUnlockWrite 0 0 0 (2 ^ 12) 0 0 0 (clearBytes 128),
    .mseUnlockWrite 0 0 0 0 (2 ^ 16) 0 0 (clearBytes 128),
    .mseUnlockWrite 0 0 0 0 0 (2 ^ 2) 0 (clearBytes 128),
    .mseUnlockWrite 0 0 0 0 0 0 (2 ^ 128) (clearBytes 128)] : List Instr).all fun i => !i.wf = true := by
  decide +kernel

/-- Ill-formed terms, one for each check of WellFormed, which the check refuses, part 2. -/
theorem test_wf_refuses_2 :
    ([.mseUnlockWrite 0 0 0 0 0 0 0 (clearBytes 129),
    .mseMemRequestSend 24 0 true true,
    .mseMemRequestSend 0 (2 ^ 4) true true,
    .mseReadBeat 24 0 (clearBytes 128) 0 true,
    .mseReadBeat 0 (2 ^ 10) (clearBytes 128) 0 true,
    .mseReadBeat 0 0 (clearBytes 129) 0 true,
    .mseReadBeat 0 0 (clearBytes 128) (2 ^ 64) true,
    .mseLaneTestDone 24 0 true,
    .mseLaneTestDone 0 (2 ^ 5) true,
    .mseWriteAck 24 0 true,
    .mseWriteAck 0 (2 ^ 10) true,
    .mseReadTimeout 24 0,
    .mseReadTimeout 0 (2 ^ 10),
    .mseWriteTimeout 24 0,
    .mseWriteTimeout 0 (2 ^ 10),
    .mseLockTimeout 24 0,
    .mseLockTimeout 0 (2 ^ 49),
    .tagLineWriteFlush 24 0,
    .tagLineWriteFlush 0 (2 ^ 49),
    .keyGenFence 24,
    .keyGenFenceAck 24,
    .mseSquashOrder 24,
    .ledgerInvalidate 24,
    .refusalMapUpdate 24,
    .ledgerCacheFill 24 true 0,
    .ledgerCacheFill 0 true (2 ^ 32),
    .keyCacheFill 24 0 0 true,
    .keyCacheFill 0 (2 ^ 32) 0 true,
    .keyCacheFill 0 0 (2 ^ 8) true,
    .keyUnwrapDone (2 ^ 32) 0 .failed,
    .keyUnwrapDone 0 (2 ^ 8) .failed,
    .poolLedgerLineFill (2 ^ 32) (clearBytes 128),
    .poolLedgerLineFill 0 (clearBytes 129),
    .strideCheckpoint (2 ^ 8),
    .sweepRetire (2 ^ 12),
    .sweepDone (2 ^ 12),
    .zeroFillDone (2 ^ 8),
    .ledgerDed true (2 ^ 32),
    .ledgerRowSoundingDone (2 ^ 16) true,
    .keyslotBankSoundingDone (2 ^ 8) true,
    .keyUseReport 24 0 0 true,
    .keyUseReport 0 (2 ^ 32) 0 true,
    .keyUseReport 0 0 (2 ^ 8) true,
    .lseTxRequest 48 0 0 0 0 0 0 0 [],
    .lseTxRequest 0 (2 ^ 3) 0 0 0 0 0 0 [],
    .lseTxRequest 0 0 (2 ^ 12) 0 0 0 0 0 [],
    .lseTxRequest 0 0 0 (2 ^ 16) 0 0 0 0 [],
    .lseTxRequest 0 0 0 0 (2 ^ 2) 0 0 0 [],
    .lseTxRequest 0 0 0 0 0 (2 ^ 56) 0 0 [],
    .lseTxRequest 0 0 0 0 0 0 (2 ^ 16) 0 [],
    .lseTxRequest 0 0 0 0 0 0 0 129 [],
    .lseTxRequest 0 0 0 0 0 0 0 0 (clearBytes 129),
    .lseHostResponse 48 0 0 0 [],
    .lseHostResponse 0 (2 ^ 3) 0 0 [],
    .lseHostResponse 0 0 (2 ^ 16) 0 [],
    .lseHostResponse 0 0 0 (2 ^ 2) [],
    .lseHostResponse 0 0 0 0 (clearBytes 129),
    .lseRxUnit 48 [] true,
    .lseRxRequest 48,
    .lseRxResponse 48] : List Instr).all fun i => !i.wf = true := by
  decide +kernel

/-- Ill-formed terms, one for each check of WellFormed, which the check refuses, part 3. -/
theorem test_wf_refuses_3 :
    ([.lseDeadTarget 48 0,
    .lseDeadTarget 0 (2 ^ 32),
    .linkKeyDerived 48 true,
    .resyncReceive 48,
    .grantReceive 48,
    .grantAckReceive 48,
    .revokeReceive 48,
    .revokeAckReceive 48,
    .revokeTimeout 48,
    .joinH1Receive 48 hyb0,
    .joinChainReceive 48 none,
    .joinH2Receive 48 hyb0,
    .joinH3Receive 48 hyb0,
    .joinH4Receive 48,
    .timeProbeSend (2 ^ 64),
    .timeProbeReceive 48 0 0,
    .timeProbeReceive 0 (2 ^ 64) 0,
    .timeProbeReceive 0 0 (2 ^ 64),
    .timeReplyReceive 48 0,
    .timeReplyReceive 0 (2 ^ 64),
    .hseTxTlp 4 0 [] [],
    .hseTxTlp 0 (2 ^ 4) [] [],
    .hseRxTlp 4 0 true true true [],
    .hseRxTlp 0 (2 ^ 4) true true true [],
    .xckUnpairedTimeout (2 ^ 8),
    .markSignalReceive 48,
    .markAckReceive 48,
    .markResendTimeout (2 ^ 16) 0,
    .markResendTimeout 0 (2 ^ 8),
    .markFillDone (2 ^ 16) .failed,
    .stallFillDone (2 ^ 12) .failed,
    .removalStepDone (2 ^ 12),
    .removalDrainTimeout (2 ^ 12),
    .freezeDrainTimeout (2 ^ 12),
    .boothClaim (2 ^ 16),
    .boothRelease (2 ^ 16),
    .commandPacket (2 ^ 16) 0 true [],
    .commandPacket 0 (2 ^ 8) true [],
    .counterBankSoundingDone (2 ^ 12) true,
    .beaconNow (2 ^ 16),
    .beaconRelease (2 ^ 16),
    .counterBankClear (2 ^ 16) 0,
    .counterBankClear 0 (2 ^ 8),
    .obsTrackWrite (2 ^ 16) 0 0 true,
    .obsTrackWrite 0 (2 ^ 6) 0 true,
    .obsTrackWrite 0 0 (2 ^ 12) true,
    .evqCfgWrite (2 ^ 16) 0 true,
    .evqCfgWrite 0 (2 ^ 5) true,
    .evqTailWrite (2 ^ 16) 0,
    .evqTailWrite 0 (2 ^ 16),
    .settingsDataAccess (2 ^ 16) true 0,
    .settingsDataAccess 0 true (2 ^ 32),
    .capturePairRead (2 ^ 16) 0,
    .capturePairRead 0 (2 ^ 24),
    .integrityAlarmClear (2 ^ 16),
    .registerWrite (2 ^ 16) 0 0,
    .registerWrite 0 (2 ^ 24) 0,
    .registerWrite 0 0 (2 ^ 32),
    .dwGo (2 ^ 16),
    .lcReq (2 ^ 8) (clearBytes 192) true] : List Instr).all fun i => !i.wf = true := by
  decide +kernel

/-- Ill-formed terms, one for each check of WellFormed, which the check refuses, part 4. -/
theorem test_wf_refuses_4 :
    ([.lcReq 0 (clearBytes 193) true,
    .tapDebugEnter (2 ^ 8),
    .tapFuseRead (2 ^ 8),
    .tapRegAccess true (2 ^ 24) 0,
    .tapRegAccess true 0 (2 ^ 32),
    .nop { call0 with tag := 2 ^ 32 },
    .hint { call0 with tag := 2 ^ 32 } 0 0,
    .hint call0 (2 ^ 32) 0,
    .hint call0 0 (2 ^ 8),
    .patchStage { call0 with tag := 2 ^ 32 } 0 0 .failed true,
    .patchStage call0 (2 ^ 64) 0 .failed true,
    .patchStage call0 0 (2 ^ 32) .failed true,
    .patchCommit { call0 with tag := 2 ^ 32 },
    .keyGenerate { call0 with tag := 2 ^ 32 } 0 0 0 0 0 0 true,
    .keyGenerate call0 (2 ^ 8) 0 0 0 0 0 true,
    .keyGenerate call0 0 (2 ^ 8) 0 0 0 0 true,
    .keyGenerate call0 0 0 (2 ^ 16) 0 0 0 true,
    .keyGenerate call0 0 0 0 (2 ^ 8) 0 0 true,
    .keyGenerate call0 0 0 0 0 (2 ^ 8) 0 true,
    .keyGenerate call0 0 0 0 0 0 (2 ^ 64) true,
    .keyLoad { call0 with tag := 2 ^ 32 } 0 0,
    .keyLoad call0 (2 ^ 32) 0,
    .keyLoad call0 0 (2 ^ 8),
    .keyUnpin { call0 with tag := 2 ^ 32 } 0,
    .keyUnpin call0 (2 ^ 32),
    .keyRotate { call0 with tag := 2 ^ 32 } 0 0 true,
    .keyRotate call0 (2 ^ 32) 0 true,
    .keyRotate call0 0 (2 ^ 64) true,
    .keyDestroy { call0 with tag := 2 ^ 32 } 0,
    .keyDestroy call0 (2 ^ 32),
    .keyAttest { call0 with tag := 2 ^ 32 } 0 0 0 [] true,
    .keyAttest call0 (2 ^ 32) 0 0 [] true,
    .keyAttest call0 0 (2 ^ 64) 0 [] true,
    .keyAttest call0 0 0 (2 ^ 32) [] true,
    .drkGenerate { call0 with tag := 2 ^ 32 },
    .regionBind { call0 with tag := 2 ^ 32 } 0 0 0,
    .regionBind call0 (2 ^ 32) 0 0,
    .regionBind call0 0 (2 ^ 16) 0,
    .regionBind call0 0 0 (2 ^ 8),
    .regionRetire { call0 with tag := 2 ^ 32 } 0 0 0,
    .regionRetire call0 (2 ^ 32) 0 0,
    .regionRetire call0 0 (2 ^ 16) 0,
    .regionRetire call0 0 0 (2 ^ 16),
    .stallAdmit { call0 with tag := 2 ^ 32 } 0 0 0 0 0 0 (clearBytes 48) (clearBytes 48) (clearBytes 48) 0 .failed,
    .stallAdmit call0 (2 ^ 16) 0 0 0 0 0 (clearBytes 48) (clearBytes 48) (clearBytes 48) 0 .failed,
    .stallAdmit call0 0 (2 ^ 8) 0 0 0 0 (clearBytes 48) (clearBytes 48) (clearBytes 48) 0 .failed,
    .stallAdmit call0 0 0 (2 ^ 8) 0 0 0 (clearBytes 48) (clearBytes 48) (clearBytes 48) 0 .failed,
    .stallAdmit call0 0 0 0 (2 ^ 8) 0 0 (clearBytes 48) (clearBytes 48) (clearBytes 48) 0 .failed,
    .stallAdmit call0 0 0 0 0 (2 ^ 8) 0 (clearBytes 48) (clearBytes 48) (clearBytes 48) 0 .failed,
    .stallAdmit call0 0 0 0 0 0 (2 ^ 64) (clearBytes 48) (clearBytes 48) (clearBytes 48) 0 .failed,
    .stallAdmit call0 0 0 0 0 0 0 (clearBytes 49) (clearBytes 48) (clearBytes 48) 0 .failed,
    .stallAdmit call0 0 0 0 0 0 0 (clearBytes 48) (clearBytes 49) (clearBytes 48) 0 .failed,
    .stallAdmit call0 0 0 0 0 0 0 (clearBytes 48) (clearBytes 48) (clearBytes 49) 0 .failed,
    .stallAdmit call0 0 0 0 0 0 0 (clearBytes 48) (clearBytes 48) (clearBytes 48) (2 ^ 64) .failed,
    .stallRemove { call0 with tag := 2 ^ 32 } 0,
    .stallRemove call0 (2 ^ 16),
    .stallFreeze { call0 with tag := 2 ^ 32 } 0 0 true,
    .stallFreeze call0 (2 ^ 16) 0 true,
    .stallFreeze call0 0 (2 ^ 64) true,
    .stallThaw { call0 with tag := 2 ^ 32 } 0] : List Instr).all fun i => !i.wf = true := by
  decide +kernel

/-- Ill-formed terms, one for each check of WellFormed, which the check refuses, part 5. -/
theorem test_wf_refuses_5 :
    ([.stallThaw call0 (2 ^ 16),
    .migrateSave { call0 with tag := 2 ^ 32 } 0 0 0 0 0 .failed [] true,
    .migrateSave call0 (2 ^ 16) 0 0 0 0 .failed [] true,
    .migrateSave call0 0 (2 ^ 64) 0 0 0 .failed [] true,
    .migrateSave call0 0 0 (2 ^ 64) 0 0 .failed [] true,
    .migrateSave call0 0 0 0 (2 ^ 64) 0 .failed [] true,
    .migrateSave call0 0 0 0 0 (2 ^ 32) .failed [] true,
    .migrateRestore { call0 with tag := 2 ^ 32 } 0 0 0 0 .failed,
    .migrateRestore call0 (2 ^ 64) 0 0 0 .failed,
    .migrateRestore call0 0 (2 ^ 64) 0 0 .failed,
    .migrateRestore call0 0 0 (2 ^ 32) 0 .failed,
    .migrateRestore call0 0 0 0 (2 ^ 64) .failed,
    .fnMap { call0 with tag := 2 ^ 32 } 0 0,
    .fnMap call0 (2 ^ 16) 0,
    .fnMap call0 0 (2 ^ 16),
    .fnUnmap { call0 with tag := 2 ^ 32 } 0,
    .fnUnmap call0 (2 ^ 16),
    .stallStatus { call0 with tag := 2 ^ 32 } 0,
    .stallStatus call0 (2 ^ 16),
    .windowGrant { call0 with tag := 2 ^ 32 } 0 0 0 0 0,
    .windowGrant call0 (2 ^ 16) 0 0 0 0,
    .windowGrant call0 0 (2 ^ 16) 0 0 0,
    .windowGrant call0 0 0 (2 ^ 8) 0 0,
    .windowGrant call0 0 0 0 (2 ^ 32) 0,
    .windowGrant call0 0 0 0 0 (2 ^ 32),
    .windowRevoke { call0 with tag := 2 ^ 32 } 0 0,
    .windowRevoke call0 (2 ^ 16) 0,
    .windowRevoke call0 0 (2 ^ 16),
    .linkReset { call0 with tag := 2 ^ 32 } 0,
    .linkReset call0 (2 ^ 8),
    .xckBind { call0 with tag := 2 ^ 32 } 0 0 0 0 0 0 0,
    .xckBind call0 (2 ^ 64) 0 0 0 0 0 0,
    .xckBind call0 0 (2 ^ 64) 0 0 0 0 0,
    .xckBind call0 0 0 (2 ^ 16) 0 0 0 0,
    .xckBind call0 0 0 0 (2 ^ 8) 0 0 0,
    .xckBind call0 0 0 0 0 (2 ^ 8) 0 0,
    .xckBind call0 0 0 0 0 0 (2 ^ 8) 0,
    .xckBind call0 0 0 0 0 0 0 (2 ^ 8),
    .xckUnbind { call0 with tag := 2 ^ 32 } 0,
    .xckUnbind call0 (2 ^ 8),
    .measureExtend { call0 with tag := 2 ^ 32 } 0 0 0 (clearBytes 48),
    .measureExtend call0 (2 ^ 8) 0 0 (clearBytes 48),
    .measureExtend call0 0 (2 ^ 8) 0 (clearBytes 48),
    .measureExtend call0 0 0 (2 ^ 8) (clearBytes 48),
    .measureExtend call0 0 0 0 (clearBytes 49),
    .measureLock { call0 with tag := 2 ^ 32 },
    .x2Enable { call0 with tag := 2 ^ 32 },
    .x2Report { call0 with tag := 2 ^ 32 } (clearBytes 32) 0 0 [] true,
    .x2Report call0 (clearBytes 33) 0 0 [] true,
    .x2Report call0 (clearBytes 32) (2 ^ 64) 0 [] true,
    .x2Report call0 (clearBytes 32) 0 (2 ^ 32) [] true,
    .stallEvidence { call0 with tag := 2 ^ 32 } 0 0 0 [] true,
    .stallEvidence call0 (2 ^ 16) 0 0 [] true,
    .stallEvidence call0 0 (2 ^ 64) 0 [] true,
    .stallEvidence call0 0 0 (2 ^ 32) [] true,
    .identityCsr { call0 with tag := 2 ^ 32 } 0 0 [] true,
    .identityCsr call0 (2 ^ 64) 0 [] true,
    .identityCsr call0 0 (2 ^ 32) [] true,
    .identityStore { call0 with tag := 2 ^ 32 } 0 0 .failed,
    .identityStore call0 (2 ^ 64) 0 .failed] : List Instr).all fun i => !i.wf = true := by
  decide +kernel

/-- Ill-formed terms, one for each check of WellFormed, which the check refuses, part 6. -/
theorem test_wf_refuses_6 :
    ([.identityStore call0 0 (2 ^ 32) .failed,
    .spdmMsg { call0 with tag := 2 ^ 32 } 0 0 0 0 0 .failed [] .nothing true,
    .spdmMsg call0 (2 ^ 64) 0 0 0 0 .failed [] .nothing true,
    .spdmMsg call0 0 (2 ^ 32) 0 0 0 .failed [] .nothing true,
    .spdmMsg call0 0 0 (2 ^ 8) 0 0 .failed [] .nothing true,
    .spdmMsg call0 0 0 0 (2 ^ 64) 0 .failed [] .nothing true,
    .spdmMsg call0 0 0 0 0 (2 ^ 32) .failed [] .nothing true,
    .hybMsg { call0 with tag := 2 ^ 32 } 0 0 0 0 0 0 0 0 .failed hyb0 none [] true,
    .hybMsg call0 (2 ^ 64) 0 0 0 0 0 0 0 .failed hyb0 none [] true,
    .hybMsg call0 0 (2 ^ 32) 0 0 0 0 0 0 .failed hyb0 none [] true,
    .hybMsg call0 0 0 (2 ^ 8) 0 0 0 0 0 .failed hyb0 none [] true,
    .hybMsg call0 0 0 0 (2 ^ 8) 0 0 0 0 .failed hyb0 none [] true,
    .hybMsg call0 0 0 0 0 (2 ^ 16) 0 0 0 .failed hyb0 none [] true,
    .hybMsg call0 0 0 0 0 0 (2 ^ 64) 0 0 .failed hyb0 none [] true,
    .hybMsg call0 0 0 0 0 0 0 (2 ^ 32) 0 .failed hyb0 none [] true,
    .hybMsg call0 0 0 0 0 0 0 0 (2 ^ 16) .failed hyb0 none [] true,
    .domainJoin { call0 with tag := 2 ^ 32 } 0 0 .failed true true,
    .domainJoin call0 (2 ^ 64) 0 .failed true true,
    .domainJoin call0 0 (2 ^ 32) .failed true true,
    .domainSubstitute { call0 with tag := 2 ^ 32 } 0 0 .failed true true,
    .domainSubstitute call0 (2 ^ 64) 0 .failed true true,
    .domainSubstitute call0 0 (2 ^ 32) .failed true true,
    .markCreate { call0 with tag := 2 ^ 32 } 0 0 0 0 0 [],
    .markCreate call0 (2 ^ 64) 0 0 0 0 [],
    .markCreate call0 0 (2 ^ 8) 0 0 0 [],
    .markCreate call0 0 0 (2 ^ 8) 0 0 [],
    .markCreate call0 0 0 0 (2 ^ 16) 0 [],
    .markCreate call0 0 0 0 0 (2 ^ 16) [],
    .markCreate call0 0 0 0 0 0 [(2 ^ 16, 0)],
    .markDestroy { call0 with tag := 2 ^ 32 } 0,
    .markDestroy call0 (2 ^ 16),
    .markSignal { call0 with tag := 2 ^ 32 } 0 0 0,
    .markSignal call0 (2 ^ 16) 0 0,
    .markSignal call0 0 (2 ^ 8) 0,
    .markSignal call0 0 0 (2 ^ 64),
    .markWait { call0 with tag := 2 ^ 32 } 0 0 0,
    .markWait call0 (2 ^ 16) 0 0,
    .markWait call0 0 (2 ^ 32) 0,
    .markWait call0 0 0 (2 ^ 64),
    .markRoute { call0 with tag := 2 ^ 32 } 0 0 0 0,
    .markRoute call0 (2 ^ 16) 0 0 0,
    .markRoute call0 0 (2 ^ 8) 0 0,
    .markRoute call0 0 0 (2 ^ 8) 0,
    .markRoute call0 0 0 0 (2 ^ 8),
    .boothOp { call0 with tag := 2 ^ 32 } 0 0 0 0 0 0 0 0 0 0 0 (clearBytes 16) 0 0,
    .boothOp call0 (2 ^ 8) 0 0 0 0 0 0 0 0 0 0 (clearBytes 16) 0 0,
    .boothOp call0 0 (2 ^ 8) 0 0 0 0 0 0 0 0 0 (clearBytes 16) 0 0,
    .boothOp call0 0 0 (2 ^ 8) 0 0 0 0 0 0 0 0 (clearBytes 16) 0 0,
    .boothOp call0 0 0 0 (2 ^ 8) 0 0 0 0 0 0 0 (clearBytes 16) 0 0,
    .boothOp call0 0 0 0 0 (2 ^ 32) 0 0 0 0 0 0 (clearBytes 16) 0 0,
    .boothOp call0 0 0 0 0 0 (2 ^ 64) 0 0 0 0 0 (clearBytes 16) 0 0,
    .boothOp call0 0 0 0 0 0 0 (2 ^ 64) 0 0 0 0 (clearBytes 16) 0 0,
    .boothOp call0 0 0 0 0 0 0 0 (2 ^ 32) 0 0 0 (clearBytes 16) 0 0,
    .boothOp call0 0 0 0 0 0 0 0 0 (2 ^ 16) 0 0 (clearBytes 16) 0 0,
    .boothOp call0 0 0 0 0 0 0 0 0 0 (2 ^ 8) 0 (clearBytes 16) 0 0,
    .boothOp call0 0 0 0 0 0 0 0 0 0 0 (2 ^ 64) (clearBytes 16) 0 0,
    .boothOp call0 0 0 0 0 0 0 0 0 0 0 0 (clearBytes 17) 0 0,
    .boothOp call0 0 0 0 0 0 0 0 0 0 0 0 (clearBytes 16) (2 ^ 32) 0,
    .boothOp call0 0 0 0 0 0 0 0 0 0 0 0 (clearBytes 16) 0 (2 ^ 64),
    .tollPolicyLoad { call0 with tag := 2 ^ 32 } 0 .failed] : List Instr).all fun i => !i.wf = true := by
  decide +kernel

/-- Ill-formed terms, one for each check of WellFormed, which the check refuses, part 7. -/
theorem test_wf_refuses_7 :
    ([.tollPolicyLoad call0 (2 ^ 64) .failed,
    .tollExport { call0 with tag := 2 ^ 32 } 0 0 0 0 0 0 0 0 0 0 0 .failed .failed,
    .tollExport call0 (2 ^ 8) 0 0 0 0 0 0 0 0 0 0 .failed .failed,
    .tollExport call0 0 (2 ^ 8) 0 0 0 0 0 0 0 0 0 .failed .failed,
    .tollExport call0 0 0 (2 ^ 8) 0 0 0 0 0 0 0 0 .failed .failed,
    .tollExport call0 0 0 0 (2 ^ 8) 0 0 0 0 0 0 0 .failed .failed,
    .tollExport call0 0 0 0 0 (2 ^ 32) 0 0 0 0 0 0 .failed .failed,
    .tollExport call0 0 0 0 0 0 (2 ^ 64) 0 0 0 0 0 .failed .failed,
    .tollExport call0 0 0 0 0 0 0 (2 ^ 32) 0 0 0 0 .failed .failed,
    .tollExport call0 0 0 0 0 0 0 0 (2 ^ 64) 0 0 0 .failed .failed,
    .tollExport call0 0 0 0 0 0 0 0 0 (2 ^ 64) 0 0 .failed .failed,
    .tollExport call0 0 0 0 0 0 0 0 0 0 (2 ^ 64) 0 .failed .failed,
    .tollExport call0 0 0 0 0 0 0 0 0 0 0 (2 ^ 64) .failed .failed,
    .tollBudget { call0 with tag := 2 ^ 32 } 0 (clearBytes 32) 0 0 [] true,
    .tollBudget call0 (2 ^ 8) (clearBytes 32) 0 0 [] true,
    .tollBudget call0 0 (clearBytes 33) 0 0 [] true,
    .tollBudget call0 0 (clearBytes 32) (2 ^ 64) 0 [] true,
    .tollBudget call0 0 (clearBytes 32) 0 (2 ^ 32) [] true,
    .almanacUpdate { call0 with tag := 2 ^ 32 } 0 0 0 0 0 [] .failed sigs0,
    .almanacUpdate call0 (2 ^ 8) 0 0 0 0 [] .failed sigs0,
    .almanacUpdate call0 0 (2 ^ 8) 0 0 0 [] .failed sigs0,
    .almanacUpdate call0 0 0 (2 ^ 32) 0 0 [] .failed sigs0,
    .almanacUpdate call0 0 0 0 (2 ^ 32) 0 [] .failed sigs0,
    .almanacUpdate call0 0 0 0 0 (2 ^ 64) [] .failed sigs0,
    .almanacUpdate call0 0 0 0 0 0 (clearBytes 129) .failed sigs0,
    .svnAdvance { call0 with tag := 2 ^ 32 },
    .settingsSave { call0 with tag := 2 ^ 32 },
    .trainingDone { call0 with tag := 2 ^ 32 } 0 true [],
    .trainingDone call0 (2 ^ 8) true [],
    .lcTransition { call0 with tag := 2 ^ 32 } 0 (clearBytes 192) .failed true true,
    .lcTransition call0 (2 ^ 8) (clearBytes 192) .failed true true,
    .lcTransition call0 0 (clearBytes 193) .failed true true,
    .hangDump { call0 with tag := 2 ^ 32 } 0 0 0 0 [] true true,
    .hangDump call0 (2 ^ 16) 0 0 0 [] true true,
    .hangDump call0 0 (2 ^ 64) 0 0 [] true true,
    .hangDump call0 0 0 (2 ^ 64) 0 [] true true,
    .hangDump call0 0 0 0 (2 ^ 32) [] true true,
    .beaconSet { call0 with tag := 2 ^ 32 } 0,
    .beaconSet call0 (2 ^ 64),
    .meterRead { call0 with tag := 2 ^ 32 } 0 0 0 [] true,
    .meterRead call0 (2 ^ 16) 0 0 [] true,
    .meterRead call0 0 (2 ^ 64) 0 [] true,
    .meterRead call0 0 0 (2 ^ 32) [] true,
    .fuseReadReturn (2 ^ 32),
    .keyInvalidationApply 24 0 0,
    .keyInvalidationApply 0 (2 ^ 32) 0,
    .keyInvalidationApply 0 0 (2 ^ 8),
    .lseUnitSent 48] : List Instr).all fun i => !i.wf = true := by
  decide +kernel

/-! ### Witnesses: states and operands that meet the hypotheses of each statement -/

/-- Witness: FrequencyChangesAndStops, clause 1. -/
theorem wit_FrequencyChangesAndStops_1 : let s : State := svc; (s.rst.phase ≠ .inReset) ∧ (s.mon.freqChg = false) := by decide +kernel

/-- Witness: FrequencyChangesAndStops, clause 2. -/
theorem wit_FrequencyChangesAndStops_2 : let s : State := { svc with mon := { svc.mon with freqChg := true } }; (s.rst.phase ≠ .inReset) ∧ (s.mon.freqChg = true) := by decide +kernel

/-- Witness: FrequencyChangesAndStops, clause 3. -/
theorem wit_FrequencyChangesAndStops_3 : let s : State := { svc with mon := { svc.mon with freqChg := true }, pins := { svc.pins with clkcGood := false } }; (s.pins.clkcGood = false) ∧ (s.mon.freqChg = true) := by decide +kernel

/-- Witness: FrequencyChangesAndStops, clause 4. -/
theorem wit_FrequencyChangesAndStops_4 : let s : State := { svc with mon := { svc.mon with freqChg := true }, pins := { svc.pins with clkcGood := false } }; (s.pins.clkcGood = false) ∧ (s.mon.freqChg = true) ∧ (s.mon.freqAlarm = false) ∧ (s.rst.phase ≠ .inReset) ∧ (s.mon.freqSince + s.cfg.clk.tFreq * 1000 ≤ s.clk.elapsed) := by decide +kernel

/-- Witness: FrequencyChangesAndStops, clause 5. -/
theorem wit_FrequencyChangesAndStops_5 : let s : State := svc; let stretch : Bool := false; (s.mon.stop = none) ∧ (s.rst.phase ≠ .inReset) ∧ (s.obs.gaps.length < 64) := by decide +kernel

/-- Witness: FrequencyChangesAndStops, clause 6. -/
theorem wit_FrequencyChangesAndStops_6 : let s : State := { svc with mon := { svc.mon with stop := some 5 }, obs := { svc.obs with gaps := [⟨1, 2, 0, false, false, false⟩] ++ [⟨5, 0, 2, true, false, false⟩] } }; let since : Nat := 5; let gs : List GapEntry := [⟨1, 2, 0, false, false, false⟩]; let g : GapEntry := ⟨5, 0, 2, true, false, false⟩; (s.mon.stop = some since) ∧ (s.obs.gaps = gs ++ [g]) ∧ ((∀ e ∈ gs, e.ongoing = false)) ∧ (g.ongoing = true) := by decide +kernel

/-- Witness: ClockMonitorsRaiseAlarms, clause 1. -/
theorem wit_ClockMonitorsRaiseAlarms_1 : let s : State := svc; (s.pins.clkcGood = true) ∧ (s.rst.phase ≠ .inReset) ∧ (s.mon.freqChg = false) := by decide +kernel

/-- Witness: ClockMonitorsRaiseAlarms, clause 2. -/
theorem wit_ClockMonitorsRaiseAlarms_2 : let s : State := svc; (runtSpan s.clk.elapsed s.mon.runts = none) := by decide +kernel

/-- Witness: ClockMonitorsRaiseAlarms, clause 3. -/
theorem wit_ClockMonitorsRaiseAlarms_3 : let s : State := { svc with mon := { svc.mon with runts := [10 ^ 12 - 2000, 10 ^ 12 - 1000000] } }; let a : Nat := 10 ^ 12 - 2000; let b : Nat := 10 ^ 12 - 1000000; let rest : List Nat := []; (s.mon.runts = a :: b :: rest) ∧ (s.clk.elapsed ≤ b + 1000000) := by decide +kernel

/-- Witness: ClockMonitorsRaiseAlarms, clause 4. -/
theorem wit_ClockMonitorsRaiseAlarms_4 : let s : State := svc; let mhz : Nat := 2122; let stretch : Bool := true; (s.rst.phase ≠ .inReset) ∧ (2121 < mhz) := by decide +kernel

/-- Witness: ClockMonitorsRaiseAlarms, clause 5. -/
theorem wit_ClockMonitorsRaiseAlarms_5 : let s : State := svc; let mhz : Nat := 989; (s.rst.phase ≠ .inReset) ∧ (mhz < 990) ∧ (s.freqChgWindow = false) := by decide +kernel

/-- Witness: ClockMonitorsRaiseAlarms, clause 6. -/
theorem wit_ClockMonitorsRaiseAlarms_6 : let s : State := svc; let mhz : Nat := 990; let stretch : Bool := false; (990 ≤ mhz) ∧ (mhz ≤ 2121) := by decide +kernel

/-- Witness: LongStopRaisesClockAlarm, clause 1. -/
theorem wit_LongStopRaisesClockAlarm_1 : let s : State := { svc with mon := { svc.mon with stop := some 5 } }; let since : Nat := 5; (s.mon.stop = some since) ∧ (s.mon.stopAlarm = false) ∧ (s.pins.clkcGood = true) ∧ (s.mon.freqChg = false) ∧ (s.rst.phase ≠ .inReset) ∧ (since + s.cfg.clk.tStop * 1000 ≤ s.clk.elapsed) := by decide +kernel

/-- Witness: LongStopRaisesClockAlarm, clause 2. -/
theorem wit_LongStopRaisesClockAlarm_2 : let s : State := { svc with mon := { svc.mon with stop := some 5 }, pins := { svc.pins with clkcGood := false } }; (s.pins.clkcGood = false ∨ s.mon.freqChg = true) := by decide +kernel

/-- Witness: CrossingsAndSensors, clause 1. -/
theorem wit_CrossingsAndSensors_1 : let s : State := { svc with mon := { svc.mon with ackDeadline := some 1000 } }; let d : Nat := 1000; let ret : Bool := false; (s.mon.ackDeadline = some d) ∧ (d ≤ s.clk.elapsed) ∧ (ret = s.mon.freqAck) := by decide +kernel

/-- Witness: CrossingsAndSensors, clause 2. -/
theorem wit_CrossingsAndSensors_2 : let s : State := { svc with mon := { svc.mon with ackDeadline := some 1000 } }; let d : Nat := 1000; let ret : Bool := true; (s.mon.ackDeadline = some d) ∧ (d ≤ s.clk.elapsed) ∧ (ret ≠ s.mon.freqAck) ∧ (s.alr.crossings.contains 1 = false) := by decide +kernel

/-- Witness: CrossingsAndSensors, clause 3. -/
theorem wit_CrossingsAndSensors_3 : let s : State := { svc with alr := { svc.alr with crossings := [1] } }; let k : Nat := 1; (s.alr.crossings.contains k = true) := by decide +kernel

/-- Witness: CrossingsAndSensors, clause 4. -/
theorem wit_CrossingsAndSensors_4 : let s : State := { svc with alr := { svc.alr with crossings := [2] } }; let k : Nat := 2; (s.alr.crossings.contains k = true) ∧ (k ≤ 2) := by decide +kernel

/-- Witness: CrossingsAndSensors, clause 5. -/
theorem wit_CrossingsAndSensors_5 : let s : State := { svc with alr := { svc.alr with crossings := [3] } }; let k : Nat := 3; (s.alr.crossings.contains k = true) ∧ (2 < k) := by decide +kernel

/-- Witness: CrossingsAndSensors, clause 6. -/
theorem wit_CrossingsAndSensors_6 : let s : State := svc; let val : Nat := 4095; let par : Nat := 0; (val < 4096) ∧ ((popcount 12 val + par) % 2 = 0) := by decide +kernel

/-- Witness: CrossingsAndSensors, clause 7. -/
theorem wit_CrossingsAndSensors_7 : let s : State := svc; let val : Nat := 4095; let par : Nat := 1; (val < 4096) ∧ ((popcount 12 val + par) % 2 = 1) := by decide +kernel

/-- Witness: CrossingsAndSensors, clause 8. -/
theorem wit_CrossingsAndSensors_8 : let s : State := { svc with cfg := { svc.cfg with sty := { svc.cfg.sty with chEnable := 0xFFFF } }, sty := { svc.sty with chans := List.replicate 16 ⟨4, some (10 ^ 12 - 1000), some (10 ^ 12 - 1000)⟩ } }; let val : Nat := 3; let ch : Nat := 3; let par : Nat := 0; (val < 2 ^ 32) ∧ (ch < 16) ∧ ((popcount 32 val + popcount 4 ch + par) % 2 = 0) ∧ (s.build.sty = true) ∧ (s.styEnabled ch = true) ∧ (s.styGap ch = false) := by decide +kernel

/-- Witness: CrossingsAndSensors, clause 9. -/
theorem wit_CrossingsAndSensors_9 : let s : State := { svc with cfg := { svc.cfg with sty := { svc.cfg.sty with chEnable := 0xFFFF } }, sty := { svc.sty with chans := List.replicate 16 ⟨4, some (10 ^ 12 - 1000), some (10 ^ 12 - 1000)⟩ } }; let val : Nat := 3; let ch : Nat := 3; let par : Nat := 1; (val < 2 ^ 32) ∧ (ch < 16) ∧ ((popcount 32 val + popcount 4 ch + par) % 2 = 1) ∧ (s.build.sty = true) ∧ (s.styEnabled ch = true) ∧ (s.sty.suspectCause = 0) := by decide +kernel

/-- Witness: CrossingsAndSensors, clause 10. -/
theorem wit_CrossingsAndSensors_10 : let s : State := { svc with cfg := { svc.cfg with sty := { svc.cfg.sty with chEnable := 0xFFFF } }, sty := { svc.sty with chans := List.replicate 16 ⟨4, some 10, some (10 ^ 12 - 1000)⟩ } }; let ch : Nat := 3; (s.build.sty = true) ∧ (s.styGap ch = true) ∧ (s.sty.suspectCause = 0) := by decide +kernel

/-- Witness: TicksAndTheirCommands, clause 1. -/
theorem wit_TicksAndTheirCommands_1 : let s : State := { svc with clk := { svc.clk with lastTick := some (10 ^ 12 - 49999) } }; let l : Nat := 10 ^ 12 - 49999; (s.rst.phase ≠ .inReset) ∧ (s.clk.lastTick = some l) ∧ (s.clk.elapsed < l + 50000) := by decide +kernel

/-- Witness: TicksAndTheirCommands, clause 2. -/
theorem wit_TicksAndTheirCommands_2 : let s : State := { svc with clk := { svc.clk with lastTick := some (10 ^ 12 - 50000) } }; (s.rst.phase ≠ .inReset) ∧ (s.clk.lastTick.all (fun l => l + 50000 ≤ s.clk.elapsed) = true) := by decide +kernel

/-- Witness: TicksAndTheirCommands, clause 3. -/
theorem wit_TicksAndTheirCommands_3 : let s : State := State.reset; (s.rst.phase = .inReset) := by decide +kernel

/-- Witness: TicksAndTheirCommands, clause 4. -/
theorem wit_TicksAndTheirCommands_4 : let s : State := { svc with clk := { svc.clk with lastTick := some 5 } }; (s.rst.phase ≠ .inReset) ∧ (s.clk.lateRaised = false) ∧ (s.clk.lastTick.getD s.clk.releasedAt + 100000000000 ≤ s.clk.elapsed) := by decide +kernel

/-- Witness: TicksAndTheirCommands, clause 5. -/
theorem wit_TicksAndTheirCommands_5 : let s : State := { svc with clk := { svc.clk with lateRaised := true } }; (s.clk.lateRaised = true) := by decide +kernel

/-- Witness: TicksAndTheirCommands, clause 6. -/
theorem wit_TicksAndTheirCommands_6 : let s : State := { svc with clk := { svc.clk with tickWork := some 5 } }; let since : Nat := 5; (s.clk.tickWork = some since) ∧ (since + 20000 ≤ s.clk.elapsed) ∧ ((s.hlm.running.filter fun q => q.call.ticked && !s.begun q.call) = []) := by decide +kernel

/-- Witness: TicksAndTheirCommands, clause 7. -/
theorem wit_TicksAndTheirCommands_7 : let q : Queued := queued { call5 0x0301 with ticked := true } 0; let s : State := { svc with clk := { svc.clk with tickWork := some 5 }, hlm := { svc.hlm with running := [q] } }; let since : Nat := 5; (s.clk.tickWork = some since) ∧ (since + 20000 ≤ s.clk.elapsed) ∧ (s.hlm.running = [q]) ∧ (q.call.ticked = true) ∧ (s.begun q.call = false) := by decide +kernel

/-- Witness: CommandPacketIsCheckedAndPlaced, clause 1. -/
theorem wit_CommandPacketIsCheckedAndPlaced_1 : let s : State := svc; let fn : Nat := 1; let qid : Nat := 1; let framed : Bool := true; let b : Bytes := zeros 32; (s.cmdReady = true) ∧ (s.alr.quiet = false) ∧ (s.streamAbsorbed qid = false) ∧ (framed = false ∨ leField b 3 1 = 0 ∨ 8 < leField b 3 1 ∨ b.length ≠ 32 * leField b 3 1) := by decide +kernel

/-- Witness: CommandPacketIsCheckedAndPlaced, clause 2. -/
theorem wit_CommandPacketIsCheckedAndPlaced_2 : let s : State := svc; let fn : Nat := 2; let qid : Nat := 1; let b : Bytes := packet 0x0100 2; (s.cmdReady = true) ∧ (s.alr.quiet = false) ∧ (s.streamAbsorbed qid = false) ∧ (leField b 3 1 ≠ 0) ∧ (leField b 3 1 ≤ 8) ∧ (b.length = 32 * leField b 3 1) ∧ (s.fnStall? fn = none) := by decide +kernel

/-- Witness: CommandPacketIsCheckedAndPlaced, clause 3. -/
theorem wit_CommandPacketIsCheckedAndPlaced_3 : let s : State := svc; let fn : Nat := 1; let qid : Nat := 1; let b : Bytes := packet 0x0102 2; let stall : Nat := 5; let st : Nat := stIssuer; let d : Nat := 0; (s.cmdReady = true) ∧ (s.alr.quiet = false) ∧ (s.streamAbsorbed qid = false) ∧ (leField b 3 1 ≠ 0) ∧ (leField b 3 1 ≤ 8) ∧ (b.length = 32 * leField b 3 1) ∧ (s.fnStall? fn = some stall) ∧ (s.packetStatus b (callOf b fn qid stall false) = some (st, d)) := by decide +kernel

/-- Witness: CommandPacketIsCheckedAndPlaced, clause 4. -/
theorem wit_CommandPacketIsCheckedAndPlaced_4 : let s : State := svc; let fn : Nat := 1; let qid : Nat := 1; let b : Bytes := packet 0x0100 2; let stall : Nat := 5; (s.cmdReady = true) ∧ (s.alr.quiet = false) ∧ (s.streamAbsorbed qid = false) ∧ (leField b 3 1 ≠ 0) ∧ (leField b 3 1 ≤ 8) ∧ (b.length = 32 * leField b 3 1) ∧ (s.fnStall? fn = some stall) ∧ (s.packetStatus b (callOf b fn qid stall false) = none) ∧ (leField b 0 2 ≠ 0x0101) := by decide +kernel

/-- Witness: CommandPacketIsCheckedAndPlaced, clause 5. -/
theorem wit_CommandPacketIsCheckedAndPlaced_5 : let s : State := svc; let fn : Nat := 1; let qid : Nat := 1; let b : Bytes := (packet 0x0101 2).take 48 ++ [9, 0, 0, 0, 3] ++ zeros 11; let stall : Nat := 5; let i : CmdInfo := ⟨0x0101, .a, .any, [(0, 4), (4, 1)], .always, true, .none⟩; (s.cmdReady = true) ∧ (s.alr.quiet = false) ∧ (s.streamAbsorbed qid = false) ∧ (leField b 3 1 ≠ 0) ∧ (leField b 3 1 ≤ 8) ∧ (b.length = 32 * leField b 3 1) ∧ (s.fnStall? fn = some stall) ∧ (s.packetStatus b (callOf b fn qid stall false) = none) ∧ (leField b 0 2 = 0x0101) ∧ (cmdInfo? 0x0101 = some i) ∧ (s.gate (callOf b fn qid stall false) i = .run) := by decide +kernel

/-- Witness: CommandStartNopAndHint, clause 1. -/
theorem wit_CommandStartNopAndHint_1 : let q : Queued := queued { call5 0x0301 with waitMark := 3 } 0; let s : State := { svc with hlm := { svc.hlm with buffer := [q] } }; (s.serving) ∧ (s.rst.coreReset = none) ∧ ((s.decodeBuffer.hlm.buffer.filter s.decodeBuffer.atHead).find? (fun q => s.waitBroken q.call) = some q) ∧ (q.call.window = false) := by decide +kernel

/-- Witness: CommandStartNopAndHint, clause 2. -/
theorem wit_CommandStartNopAndHint_2 : let q : Queued := queued (call5 0x0301) 0; let s : State := { svc with hlm := { svc.hlm with buffer := [q, queued (call5 0x0301) 1] } }; (s.serving) ∧ (s.rst.coreReset = none) ∧ ((s.decodeBuffer.hlm.buffer.filter s.decodeBuffer.atHead).find? (fun q => s.waitBroken q.call) = none) ∧ ((s.decodeBuffer.hlm.buffer.filter s.decodeBuffer.atHead).find?
      (fun q => !s.waitUnmet q.call && !s.decodeBuffer.fenceUnmet q) = some q) := by decide +kernel

/-- Witness: CommandStartNopAndHint, clause 3. -/
theorem wit_CommandStartNopAndHint_3 : let s : State := svc; let c : Call := call5 0x0100; (s.admits c 0x0100) := by decide +kernel

/-- Witness: CommandStartNopAndHint, clause 4. -/
theorem wit_CommandStartNopAndHint_4 : let s : State := { svc with swp := { svc.swp with yield := some (5, 10 ^ 13) } }; let c : Call := call5 0x0101; let us : Nat := 7; let targets : Nat := 3; (s.admits c 0x0101) := by decide +kernel

/-- Witness: CommandStartNopAndHint, clause 5. -/
theorem wit_CommandStartNopAndHint_5 : let s : State := { svc with hlm := { svc.hlm with boothClassUntil := some 5 } }; let e : Nat := 5; (s.hlm.boothClassUntil = some e) ∧ (e ≤ s.clk.elapsed) := by decide +kernel

/-- Witness: CommandStartNopAndHint, clause 6. -/
theorem wit_CommandStartNopAndHint_6 : let s : State := svc; (s.hlm.boothClassUntil.all (fun e => s.clk.elapsed < e) = true) := by decide +kernel

/-- Witness: RecordsOnTheCompletionPort, clause 1. -/
theorem wit_RecordsOnTheCompletionPort_1 : let r : Completion := (call5 0x0301).record stOk; let rest : List Completion := []; let s : State := { svc with hlm := { svc.hlm with cwq := [r] } }; (s.hlm.cwq = r :: rest) ∧ (s.cwOpen = true) ∧ (s.hlm.cwEventDue = false) ∧ (r.call.sigMark = 0xFFFF) ∧ (r.call.comp ≠ 0) := by decide +kernel

/-- Witness: RecordsOnTheCompletionPort, clause 2. -/
theorem wit_RecordsOnTheCompletionPort_2 : let r : Completion := { (call5 0x0301).record stOk with call := call0 }; let rest : List Completion := []; let s : State := { svc with hlm := { svc.hlm with cwq := [r] } }; (s.hlm.cwq = r :: rest) ∧ (s.cwOpen = true) ∧ (s.hlm.cwEventDue = false) ∧ (r.call.sigMark = 0xFFFF) ∧ (r.call.comp = 0) := by decide +kernel

/-- Witness: RecordsOnTheCompletionPort, clause 3. -/
theorem wit_RecordsOnTheCompletionPort_3 : let r : Completion := (call5 0x0301).record stOk; let rest : List Completion := []; let s : State := { svc with hlm := { svc.hlm with cwq := [r] } }; (s.hlm.cwq = r :: rest) ∧ (s.cwOpen = true) ∧ (s.hlm.cwEventDue = false) := by decide +kernel

/-- Witness: RecordsOnTheCompletionPort, clause 4. -/
theorem wit_RecordsOnTheCompletionPort_4 : let e : Event := event0; let rest : List Event := [event0]; let s : State := { svc with hlm := { svc.hlm with fifo := [event0, event0], evq := evqOn } }; (s.hlm.fifo = e :: rest) ∧ (s.cwOpen = true) ∧ (s.hlm.cwEventDue = false) ∧ (s.hlm.evq.open_ = true) ∧ (s.hlm.evq.lostPending = 0) := by decide +kernel

/-- Witness: RecordsOnTheCompletionPort, clause 5. -/
theorem wit_RecordsOnTheCompletionPort_5 : let e : Event := event0; let rest : List Event := [event0]; let s : State := { svc with hlm := { svc.hlm with fifo := [event0, event0] } }; (s.hlm.fifo = e :: rest) ∧ (s.cwOpen = true) ∧ (s.hlm.cwEventDue = false) ∧ (s.hlm.evq.open_ = false) := by decide +kernel

/-- Witness: RecordsOnTheCompletionPort, clause 6. -/
theorem wit_RecordsOnTheCompletionPort_6 : let e : AlarmEntry := alarm0; let l : List AlarmEntry := [{ alarm0 with copied := true }]; let k : List AlarmEntry := []; let s : State := { svc with hlm := { svc.hlm with evq := evqOn }, alr := { svc.alr with log := l ++ e :: k } }; (s.alr.log = l ++ e :: k) ∧ ((∀ x ∈ l, x.copied = true)) ∧ (e.copied = false) ∧ (s.cwOpen = true) ∧ (s.hlm.cwEventDue = false) ∧ (s.ald.noAlmanac = false) ∧ (s.journalRoom = true) ∧ (s.hlm.evq.open_ = true) ∧ (s.hlm.evq.lostPending = 0) := by decide +kernel

/-- Witness: RecordsOnTheCompletionPort, clause 7. -/
theorem wit_RecordsOnTheCompletionPort_7 : let s : State := svc; let r : Completion := (call5 0x0100).record stOk; (s.alr.quiet = false) ∧ (r.call.window = false) := by decide +kernel

/-- Witness: RecordsOnTheCompletionPort, clause 8. -/
theorem wit_RecordsOnTheCompletionPort_8 : let s : State := svc; let r : Completion := { call0 with window := true }.record stOk; (s.alr.quiet = false) ∧ (r.call.window = true) := by decide +kernel

/-- Witness: RecordsOnTheCompletionPort, clause 9. -/
theorem wit_RecordsOnTheCompletionPort_9 : let s : State := { svc with alr := { svc.alr with quiet := true } }; let r : Completion := call0.record stOk; (s.alr.quiet = true) := by decide +kernel

/-- Witness: KeyGenerateAndRotate, clause 1. -/
theorem wit_KeyGenerateAndRotate_1 : let s : State := svc; let c : Call := call5 0x0201; let type : Nat := 2; let flags : Nat := 2; let usage : Nat := 5; let keyLen : Nat := 32; let addr : Nat := 256; let n : Nat := 0; let st : Stall := stallOf .keyed; let d : StallData := StallData.fresh; (s.admits c 0x0201) ∧ (s.stall? c.stall = some st) ∧ (s.stallData? c.stall = some d) ∧ (keyDrawn type = true) ∧ (keyGenBad d type flags usage keyLen 0 addr = none) ∧ (d.keys.length < 256) ∧ (st.nextSerial ≤ 65535) ∧ (d.wrapCount < 2 ^ 32) ∧ (flags.testBit 0 = false ∨ s.mayPin c.stall = true) ∧ (s.sbx.entropyOk = true) ∧ (s.sbx.freeSlot = some n) := by decide +kernel

/-- Witness: KeyGenerateAndRotate, clause 2. -/
theorem wit_KeyGenerateAndRotate_2 : let h : Nat := makeHandle 5 2 9; let e : KeyEntry := keyE h; let d : StallData := { StallData.fresh with keys := [keyE h] }; let s : State := svcKey h; let c : Call := call5 0x0204; let addr : Nat := 256; let n : Nat := 0; let st : Stall := stallOf .keyed; (s.admits c 0x0204) ∧ (s.namedKey c h = some e) ∧ (s.stall? c.stall = some st) ∧ (s.stallData? c.stall = some d) ∧ (handleType h = keyBooth) ∧ (addr % 128 = 0) ∧ (addr < 2 ^ 56) ∧ (e.gen < 255) ∧ (d.wrapCount < 2 ^ 32) ∧ (s.regionHandle c.stall ≠ some h) ∧ (s.sbx.entropyOk = true) ∧ (({ s.sbx with slots := s.sbx.slots.filter fun p => ¬ (p.2.handle = e.handle ∧ p.2.gen = e.gen) } : Sbx).freeSlot = some n) := by decide +kernel

/-- Witness: KeyCommandsOnOwnedHandles, clause 1. -/
theorem wit_KeyCommandsOnOwnedHandles_1 : let h : Nat := makeHandle 5 2 9; let e : KeyEntry := keyE h; let s : State := svcKey h; let c : Call := call5 0x0202; let flags : Nat := 1; let n : Nat := 0; let k : KeySlot := KeySlot.fresh h 0 0 [1]; (s.admits c 0x0202) ∧ (s.namedKey c h = some e) ∧ (s.sbx.slotOf h e.gen = some (n, k)) ∧ (flags < 2) ∧ (flags = 0 ∨ k.pinned = true ∨ s.mayPin c.stall = true) := by decide +kernel

/-- Witness: KeyCommandsOnOwnedHandles, clause 2. -/
theorem wit_KeyCommandsOnOwnedHandles_2 : let h : Nat := makeHandle 5 2 9; let e : KeyEntry := keyE h; let s : State := { svcKey h with sbx := svc.sbx }; let c : Call := call5 0x0202; let flags : Nat := 0; (s.admits c 0x0202) ∧ (s.namedKey c h = some e) ∧ (s.sbx.slotOf h e.gen = none) ∧ (flags < 2) ∧ (flags = 0 ∨ s.mayPin c.stall = true) ∧ (s.sbx.unwraps.any (fun u => decide (u.handle = h ∧ u.gen = e.gen)) = false) ∧ (s.rst.coreReset = none) := by decide +kernel

/-- Witness: KeyCommandsOnOwnedHandles, clause 3. -/
theorem wit_KeyCommandsOnOwnedHandles_3 : let h : Nat := makeHandle 5 2 9; let e : KeyEntry := keyE h; let d : StallData := { StallData.fresh with keys := [keyE h] }; let s : State := svcKey h; let c : Call := call5 0x0203; (s.admits c 0x0203) ∧ (s.namedKey c h = some e) ∧ (s.stallData? c.stall = some d) := by decide +kernel

/-- Witness: KeyCommandsOnOwnedHandles, clause 4. -/
theorem wit_KeyCommandsOnOwnedHandles_4 : let h : Nat := makeHandle 5 2 9; let e : KeyEntry := keyE h; let d : StallData := { StallData.fresh with keys := [keyE h] }; let s : State := svcKey h; let c : Call := call5 0x0205; (s.admits c 0x0205) ∧ (s.namedKey c h = some e) ∧ (s.stallData? c.stall = some d) ∧ (s.regionKeyUsed c.stall h = false) ∧ (s.bth.running = none) ∧ (s.sbx.destroys = []) ∧ (s.sbx.tiles.any (fun k => decide (k.handle = h)) = false) ∧ (s.sbx.invals.any (fun k => decide (k.handle = h)) = false) := by decide +kernel

/-- Witness: KeyCommandsOnOwnedHandles, clause 5. -/
theorem wit_KeyCommandsOnOwnedHandles_5 : let h : Nat := makeHandle 5 6 9; let e : KeyEntry := keyE h; let s : State := svcKey h; let c : Call := call5 0x0206; let out_ : Nat := 64; let outMax : Nat := 64; let certs : Bytes := zeros 64; (s.admits c 0x0206) ∧ (s.namedKey c h = some e) ∧ (handleType h = keyPairKem ∨ handleType h = keyPairSign) ∧ (s.sbx.entropyOk = true) ∧ (certs.length ≤ outMax) := by decide +kernel

/-- Witness: KeyCommandsOnOwnedHandles, clause 6. -/
theorem wit_KeyCommandsOnOwnedHandles_6 : let h : Nat := makeHandle 5 6 9; let s : State := svc; let c : Call := call5 0x0206; let a : Nat := 0; let b : Nat := 0; let certs : Bytes := []; let ok : Bool := true; (s.namedKey c h = none) := by decide +kernel

/-- Witness: TileKeyCaches, clause 1. -/
theorem wit_TileKeyCaches_1 : let h : Nat := makeHandle 5 2 9; let s : State := svcKey h; let tile : Nat := 0x40; let g : Nat := 0; let n : Nat := 0; let k : KeySlot := KeySlot.fresh h 0 0 [1]; (0x40 ≤ tile) ∧ (s.tileKey? tile h g = none) ∧ (s.sbx.zeroNet = false) ∧ (s.sbx.slotOf h g = some (n, k)) ∧ (s.sbx.testing.contains (n / 16) = false) ∧ ((s.sbx.tiles.filter fun x => x.tile = tile).length < s.tileKeyPlaces tile) := by decide +kernel

/-- Witness: TileKeyCaches, clause 2. -/
theorem wit_TileKeyCaches_2 : let h : Nat := makeHandle 5 2 9; let g : Nat := 0; let c : Call := call5 0x0202; let pin : Bool := true; let started : Bool := true; let blob : BufRead := .failed; let us : List Unwrap := []; let s : State := { svcKey h with sbx := { svc.sbx with unwraps := [⟨h, 0, true, [.command c true]⟩] }, bth := { svc.bth with running := some op5 } }; (s.serving) ∧ (s.rst.coreReset = none) ∧ (s.sbx.zeroNet = false) ∧ (s.sbx.unwraps = { handle := h, gen := g, started, waiters := [.command c pin] } :: us) ∧ ((match blob with | .ok b => s.openBlob h g b | .failed => none) = none) ∧ (s.bth.running.isSome = true) := by decide +kernel

/-! ### A blob that opens -/

/-- XS-WRAP of a Stall root of zeros. -/
def wrap5 : Bytes := beBytes 32 0x4a4f17f94398f3798a3e9eec68b93b2ffe0a827f76152dd942e69fb51c483143

/-- A blob of key 9 of Stall 5: 32 bytes of 9. -/
def blob5 : Bytes :=
  beBytes 24 0x584b03020900520005000000200105000707070707070707 ++ beBytes 8 0xf01c1135bbe5b474 ++
    (chunks 8 (beBytes 96 0xd00bb53b22f0c64679def7cefa127d6fe548dc1f9b28660b8696c3321e67fec178dc0839f506a8b01b14e33b1cd9186e7e383ae649f94b6bc6f0354b4a5103543b8d78a918da7c7e12640aab4e633bb5955bf1e9763b48743bb0c9a73aba2ce6)).reverse.flatten

/-- The semiblocks after `k` passes. -/
def pass5 (k : Nat) : Bytes × List Bytes :=
  match k with
  | 0 => (beBytes 8 0xf01c1135bbe5b474, chunks 8 (beBytes 96
      0xd00bb53b22f0c64679def7cefa127d6fe548dc1f9b28660b8696c3321e67fec178dc0839f506a8b01b14e33b1cd9186e7e383ae649f94b6bc6f0354b4a5103543b8d78a918da7c7e12640aab4e633bb5955bf1e9763b48743bb0c9a73aba2ce6))
  | 1 => (beBytes 8 0xcbba8853c81e95c6, chunks 8 (beBytes 96
      0x6631692fb7def4e5707142cd13422e658d8b4060231eddca2658f5da48f43b424259af2a19ee6105e5ed4070821ae9d6d8317486558aedf5cf47671e152debba09e18c29cf0b03c4b71b7e63d9c4ad5e5141f4b5b108b1a47997f1c313ef3dfa))
  | 2 => (beBytes 8 0xc63838faa5440d12, chunks 8 (beBytes 96
      0x26870dc0b0d88a1d588239bc9f7cd826e79a8918e58d10cb6a8be3101823b8504a2bfca78d134e09b88bebed9e165dea1c1845fff7fde3d2ffe3cd287a14a8553a1084131342c4cd22237a2376a1e04f56ffead80b716748a35f5133bd0bfed))
  | 3 => (beBytes 8 0x6637898bf38bf197, chunks 8 (beBytes 96
      0xe8ce5a9a0dae53eebfc5afe482de9236d62782ffed86f84bbd5392bd2b44bcbaa6bc102fefb57f88220315a4aad6a334243b6bdc97808c45d14db571f9a221ba915b2e9cdb39ebf736ea0294624667b55593aaad6ce1ef742ace342e25ac02aa))
  | 4 => (beBytes 8 0x46ff78d98e4fed8a, chunks 8 (beBytes 96
      0xbb3b9941d8b822fab7d32b25b0d5c24db4711a2f4358c3ab8026e02423fa75886779244bc185db6045cb470769678998b09f7766423f4e9cefdb8213a0c8409395c8b49f26026a22a9fbaa95af39f7a19ad2fa05db57e00405218af971ba7891))
  | 5 => (beBytes 8 0x7fbc3d5663e83876, chunks 8 (beBytes 96
      0x1cc309ff038bb562a30888e6c7a7a5868b0190b042093e8902ffa88e61387221cd5fca0d2952f52131b960de4d7e566c7197a400af36fdb053865ecd5a81a35eee7f4b567f50fc4b629ef71c02778df7cf31168e6764bbc3cf7e4dc6a2f71efe))
  | _ => (beBytes 8 0xa65959a600000060, chunks 8 (beBytes 96
      0x330cbb4077e392ba18a59bf74db854da6180d48731014e5fe2f1e2ee49c0baa700000000000000000000000000000000000000000000000000000000000000000909090909090909090909090909090909090909090909090909090909090909))

theorem pass5_0 : unwrapPass wrap5 72 (pass5 0).1 (pass5 0).2 = pass5 1 := by decide +kernel
theorem pass5_1 : unwrapPass wrap5 60 (pass5 1).1 (pass5 1).2 = pass5 2 := by decide +kernel
theorem pass5_2 : unwrapPass wrap5 48 (pass5 2).1 (pass5 2).2 = pass5 3 := by decide +kernel
theorem pass5_3 : unwrapPass wrap5 36 (pass5 3).1 (pass5 3).2 = pass5 4 := by decide +kernel
theorem pass5_4 : unwrapPass wrap5 24 (pass5 4).1 (pass5 4).2 = pass5 5 := by decide +kernel
theorem pass5_5 : unwrapPass wrap5 12 (pass5 5).1 (pass5 5).2 = pass5 6 := by decide +kernel

theorem wrap5_eq : StallData.fresh.wrapKey = wrap5 := by decide +kernel

theorem blob5_unwraps : kwpUnwrap wrap5 (slice blob5 0x18 104) = some (pass5 6).2.reverse.flatten := by
  have h1 : ((slice blob5 0x18 104).take 8) = (pass5 0).1 := by decide +kernel
  have h2 : (chunks 8 ((slice blob5 0x18 104).drop 8)).reverse = (pass5 0).2 := by decide +kernel
  have h3 : (chunks 8 ((slice blob5 0x18 104).drop 8)).length = 12 := by decide +kernel
  have l (k : Nat) (h : k < 6) : (pass5 k).2.length = 12 := by
    have : ∀ k : Fin 6, (pass5 k).2.length = 12 := by decide +kernel
    exact this ⟨k, h⟩
  simp only [kwpUnwrap, h1, h2, h3, unwrapPasses, pass5_0, pass5_1, pass5_2, pass5_3, pass5_4, pass5_5, l, Nat.reduceMul, Nat.reduceSub,
    Nat.reduceLT]
  exact if_pos (by decide +kernel)

/-- Full mode with key 9 of Stall 5 spilled in that blob, and its unwrap begun for a KEY_LOAD. -/
def svcUnwrap : State :=
  let h := makeHandle 5 2 9
  { svcKey h with
    stl := { svc.stl with data := [(5, { StallData.fresh with keys := [{ keyE h with blobTag := beBytes 8 0x781b1a24abbc4687 }] })] }
    sbx := { svc.sbx with unwraps := [⟨h, 0, true, [.command (call5 0x0202) false]⟩] }
    bth := { svc.bth with running := some op5 } }

theorem openBlob_of {s : State} {h g : Nat} {blob pt : Bytes} {st : Stall} {d : StallData} {e : KeyEntry}
    (hs : s.stall? (handleOwner h) = some st) (hd : s.stallData? (handleOwner h) = some d) (hk : s.keyEntry? h g = some e)
    (ok : blob.length = 128 ∧ leField blob 0 2 = 0x4B58 ∧ leField blob 2 1 = 3 ∧
      leField blob 3 1 = handleType h ∧ leField blob 4 4 = h ∧ leField blob 8 2 < 128 ∧ leField blob 0xA 1 = g ∧
      (leField blob 0xC 1 = 32 ∨ leField blob 0xC 1 = 64) ∧ leField blob 0xD 1 < 4 ∧
      leField blob 0xE 2 = handleOwner h ∧ slice blob 0x10 8 = (padTo 8 st.inst).take 8 ∧
      e.destroyed = false ∧ blobTag blob = e.blobTag)
    (hu : kwpUnwrap d.wrapKey (slice blob 0x18 104) = some pt)
    (hp : pt.drop 64 = (sha384 (blob.take 0x18)).take 32 ∧
      (pt.take 64).drop (leField blob 0xC 1) = zeros (64 - leField blob 0xC 1)) :
    s.openBlob h g blob = some (pt.take (leField blob 0xC 1)) := by
  unfold State.openBlob
  rw [hs, hd, hk]
  dsimp only
  rw [hu, decide_eq_true ok]
  exact if_pos hp

theorem blob5_opens : svcUnwrap.openBlob (makeHandle 5 2 9) 0 blob5 = some (List.replicate 32 9) := by
  have hw : ({ StallData.fresh with keys := [{ keyE (makeHandle 5 2 9) with blobTag := beBytes 8 0x781b1a24abbc4687 }] } : StallData).wrapKey = wrap5 := by
    decide +kernel
  have h := openBlob_of (s := svcUnwrap) (h := makeHandle 5 2 9) (g := 0) (blob := blob5) (pt := (pass5 6).2.reverse.flatten)
    (st := stallOf .keyed) (d := { StallData.fresh with keys := [{ keyE (makeHandle 5 2 9) with blobTag := beBytes 8 0x781b1a24abbc4687 }] })
    (e := { keyE (makeHandle 5 2 9) with blobTag := beBytes 8 0x781b1a24abbc4687 })
    (by decide +kernel) (by decide +kernel) (by decide +kernel) (by decide +kernel) (by rw [hw]; exact blob5_unwraps) (by decide +kernel)
  rw [h]
  decide +kernel

/-- Witness: TileKeyCaches, clause 3. -/
theorem wit_TileKeyCaches_3 : let s : State := svcUnwrap; let h : Nat := makeHandle 5 2 9; let g : Nat := 0; let n : Nat := 0; let c : Call := call5 0x0202; let started : Bool := true; let us : List Unwrap := []; let b : Bytes := blob5; let e : KeyEntry := { keyE h with blobTag := beBytes 8 0x781b1a24abbc4687 };  let key : Bytes := List.replicate 32 9; (s.serving) ∧ (s.rst.coreReset = none) ∧ (s.sbx.zeroNet = false) ∧ (s.sbx.unwraps = { handle := h, gen := g, started, waiters := [.command c false] } :: us) ∧ (s.openBlob h g b = some key) ∧ (s.keyEntry? h g = some e) ∧ (s.sbx.freeSlot = some n) ∧ (s.bth.running.isSome = true) := by
  intro s h g n c started us b e key
  exact ⟨by decide +kernel, by decide +kernel, by decide +kernel, by decide +kernel, blob5_opens, by decide +kernel, by decide +kernel, by decide +kernel⟩

/-- Witness: TileKeyCaches, clause 4. -/
theorem wit_TileKeyCaches_4 : let h : Nat := makeHandle 5 2 9; let s : State := { svc with sbx := { svc.sbx with tiles := [⟨64, h, 0, 4095, 0, []⟩] } }; let tile : Nat := 64; let g : Nat := 0; let ok : Bool := true; ((s.sbx.tiles.all fun k => decide (k.tile = tile ∧ k.handle = h ∧ k.gen = g → k.unreported < 4096)) = true) := by decide +kernel

/-- Witness: TileKeyCaches, clause 5. -/
theorem wit_TileKeyCaches_5 : let k : TileKey := ⟨3, 0x90000, 0, 4097, 0, [1]⟩; let s : State := { svcKey 0x90000 with sbx := { (svcKey 0x90000).sbx with tiles := [k] }, stl := svc.stl }; let tile : Nat := 3; let h : Nat := 0x90000; let g : Nat := 0; let ok : Bool := true; (s.sbx.tiles.find? (fun k => k.tile = tile ∧ k.handle = h ∧ k.gen = g) = some k) ∧ (4096 ≤ k.unreported) ∧ (s.sbx.slots.any (fun p => p.2.handle = h ∧ p.2.gen = g) = true) ∧ (s.keyEntry? h g = none) := by decide +kernel

/-- Witness: TileKeyCaches, clause 6. -/
theorem wit_TileKeyCaches_6 : let h : Nat := makeHandle 5 2 9; let k : TileKey := ⟨64, h, 0, 77, 0, [1]⟩; let s : State := { svcKey h with sbx := { (svcKey h).sbx with tiles := [k], invals := [⟨64, h, 0⟩] } }; let tile : Nat := 64; let g : Nat := 0; (s.sbx.invals.contains { tile, handle := h, gen := g } = true) ∧ (s.sbx.destroys = []) ∧ (s.sbx.tiles.find? (fun k => k.tile = tile ∧ k.handle = h ∧ k.gen = g) = some k) ∧ (s.sbx.slots.any (fun p => p.2.handle = k.handle ∧ p.2.gen = k.gen) = true) := by decide +kernel

/-- Witness: EntropyPairsSlotsAndZeroize, clause 2. -/
theorem wit_EntropyPairsSlotsAndZeroize_2 : let s : State := { svc with bth := { svc.bth with running := some op5 } }; (s.bth.running.isSome = true) := by decide +kernel

/-- Witness: EntropyPairsSlotsAndZeroize, clause 3. -/
theorem wit_EntropyPairsSlotsAndZeroize_3 : let w : EntropyWait := ⟨call5 0x0201, 5⟩; let ws : List EntropyWait := []; let s : State := { svc with sbx := { svc.sbx with entropyOk := false, entropyWaits := [w] }, bth := { svc.bth with running := some op5 } }; (s.alr.quiet = false) ∧ (s.sbx.entropyWaits = w :: ws) ∧ (s.sbx.entropyOk = false) ∧ (w.since + 1000000 ≤ s.clk.elapsed) ∧ (s.bth.running.isSome = true) ∧ (s.tol.running = none) := by decide +kernel

/-- Witness: EntropyPairsSlotsAndZeroize, clause 4. -/
theorem wit_EntropyPairsSlotsAndZeroize_4 : let w : EntropyWait := ⟨call5 0x0201, 10 ^ 12 - 999999⟩; let ws : List EntropyWait := []; let s : State := { svc with sbx := { svc.sbx with entropyOk := false, entropyWaits := [w] } }; (s.sbx.entropyWaits = w :: ws) ∧ (s.clk.elapsed < w.since + 1000000) := by decide +kernel

/-- Witness: EntropyPairsSlotsAndZeroize, clause 5. -/
theorem wit_EntropyPairsSlotsAndZeroize_5 : let s : State := svc; (s.sbx.entropyOk = true) ∧ (s.sbx.poolLevel < 32) ∧ (s.sbx.zeroNet = false) := by decide +kernel

/-- Witness: EntropyPairsSlotsAndZeroize, clause 6. -/
theorem wit_EntropyPairsSlotsAndZeroize_6 : let s : State := { svc with sbx := { svc.sbx with poolLevel := 32 } }; (s.sbx.entropyOk = false ∨ 32 ≤ s.sbx.poolLevel) := by decide +kernel

/-- Witness: EntropyPairsSlotsAndZeroize, clause 7. -/
theorem wit_EntropyPairsSlotsAndZeroize_7 : let s : State := { svc with sbx := { svc.sbx with verifying := true, zeroNet := true } }; (s.sbx.verifying = true) := by decide +kernel

/-- Witness: EntropyPairsSlotsAndZeroize, clause 8. -/
theorem wit_EntropyPairsSlotsAndZeroize_8 : let s : State := { svc with sbx := { svc.sbx with verifying := true, zeroNet := true } }; let n : Nat := 1; (s.sbx.verifying = true) ∧ (0 < n) := by decide +kernel

/-- Witness: EntropyPairsSlotsAndZeroize, clause 9. -/
theorem wit_EntropyPairsSlotsAndZeroize_9 : let s : State := svc; let n : Nat := 1; (s.sbx.verifying = false) := by decide +kernel

/-- Witness: EntropyPairsSlotsAndZeroize, clause 10. -/
theorem wit_EntropyPairsSlotsAndZeroize_10 : let s : State := svc; (s.sbx.zeroNet = false) := by decide +kernel

/-- Witness: EntropyPairsSlotsAndZeroize, clause 11. -/
theorem wit_EntropyPairsSlotsAndZeroize_11 : let h := makeHandle 5 2 9; let s : State := svcKey h; let n : Nat := 0; let k : KeySlot := KeySlot.fresh h 0 0 [1]; let d : StallData := { StallData.fresh with keys := [keyE h] }; (s.sbx.zeroNet = false) ∧ (assocGet n s.sbx.slots = some k) ∧ (handleType k.handle < 9) ∧ (handleOwner k.handle ≠ 0) ∧ (s.stallData? (handleOwner k.handle) = some d) ∧ (s.sbx.testing.contains (n / 16) = false) ∧ (s.cht.ksBank = none) := by decide +kernel

/-- Witness: EntropyPairsSlotsAndZeroize, clause 12. -/
theorem wit_EntropyPairsSlotsAndZeroize_12 : let s : State := { svc with sbx := { svc.sbx with testing := [3] } }; let b : Nat := 3; (s.sbx.testing.contains b = true) := by decide +kernel

/-- Witness: EntropyPairsSlotsAndZeroize, clause 13. -/
theorem wit_EntropyPairsSlotsAndZeroize_13 : let s : State := { svc with sbx := { svc.sbx with testing := [3] } }; let b : Nat := 3; (s.sbx.testing.contains b = true) := by decide +kernel

/-- Witness: StallAdmit, clause 1. -/
theorem wit_StallAdmit_1 : let p : StallPolicy := pol0; let s : State := svcPol; let c : Call := call00 0x0401; let id : Nat := 9; let fill : Nat := 1; let integ : Nat := 0; let opts : Nat := 0; let account : Nat := 3; let owners : Nat := 0; let k : Nat := 2; let program : Bytes := zeros 48; let tenantKey : Bytes := zeros 48; let policy : Bytes := zeros 48; let buf : BufRead := .failed; (s.admits c 0x0401) ∧ (s.cfg.policy = some p) ∧ (s.recordAreaBound p = true) ∧ (s.idFree id = true) ∧ (s.selectionsOk p fill integ opts policy = true) ∧ (1000000000 ≤ s.stl.credit) ∧ (s.sbx.entropyOk = true) ∧ (s.ldg.flight = none) ∧ (s.ldg.storeOk = true) ∧ (s.ldg.items = []) ∧ (s.ldg.baseBusy = false) ∧ (s.freeStallSlot = some k) ∧ (s.stl.fills = []) ∧ (id ≠ 0) := by decide +kernel

/-- Witness: StallAdmit, clause 2. -/
theorem wit_StallAdmit_2 : let s : State := svc; let c : Call := call00 0x0401; let id : Nat := 9; let fill : Nat := 1; let integ : Nat := 0; let opts : Nat := 0; let account : Nat := 3; let owners : Nat := 0; let program : Bytes := zeros 48; let tenantKey : Bytes := zeros 48; let policy : Bytes := zeros 48; let buf : BufRead := .failed; (s.admits c 0x0401) := by decide +kernel

/-- Witness: StallFills, clause 1. -/
theorem wit_StallFills_1 : let f : Fill := ⟨7, none, 5, 0xFFF⟩; let s : State := { svc with stl := { svc.stl with fills := [f] } }; let k : Nat := 1; (s.alr.quiet = false) ∧ (s.stl.fills.find? (fun f => f.slot.isNone) = some f) ∧ ((s.stl.fills.filterMap (·.slot)).length < 4) ∧ ((List.range 47).find? (fun k => (assocGet (k + 1) s.stl.slots).isNone ∧ ¬ (s.stl.fills.filterMap (·.slot)).contains (k + 1)) = some k) := by decide +kernel

/-- Witness: StallFills, clause 2. -/
theorem wit_StallFills_2 : let f : Fill := ⟨5, some 3, 5, 0xFFF⟩; let s : State := { svcHeld with stl := { svc.stl with fills := [f], slots := [] } }; let id : Nat := 5; let k : Nat := 3; let x : Stall := stallOf .keyed; let r : BufRead := .failed; (s.alr.quiet = false) ∧ (s.stl.fills.find? (fun f => f.stall = id) = some f) ∧ (f.slot = some k) ∧ (s.recordPending id = false) ∧ (s.stall? id = some x) ∧ (x.state ≠ .lost) ∧ (x.state ≠ .removing) ∧ ((match r with | .ok b => s.recordGood id b | .failed => false) = false) := by decide +kernel

/-- Witness: StallFills, clause 3. -/
theorem wit_StallFills_3 : let b : Bytes := leBytes 4 0x52535358 ++ leBytes 2 1 ++ leBytes 2 5 ++ zeros 16376; let f : Fill := ⟨5, some 3, 5, 0xFFF⟩; let s : State := { svc with stl := { svc.stl with fills := [f], slots := [] }, ldg := { svc.ldg with store := { svc.ldg.store with digests := [(5, sha384 b)] } } }; let id : Nat := 5; let k : Nat := 3; (s.alr.quiet = false) ∧ (s.stl.fills.find? (fun f => f.stall = id) = some f) ∧ (f.slot = some k) ∧ (s.recordPending id = false) ∧ (s.recordGood id b = true) ∧ ((s.mse.all fun m => m.held.isEmpty && m.hazards.isEmpty) = true) := by
  intro b f s id k
  exact ⟨by decide +kernel, by decide +kernel, by decide +kernel, by decide +kernel, decide_eq_true ⟨by decide +kernel, by decide +kernel, by decide +kernel,
    by decide +kernel, if_pos rfl⟩, by decide +kernel⟩

/-- Witness: StallRemoval, clause 1. -/
theorem wit_StallRemoval_1 : let s : State := svc; let c : Call := call00 0x0402; let id : Nat := 5; let x : Stall := stallOf .keyed; (s.admits c 0x0402) ∧ (s.stl.removals = []) ∧ (id ≠ 0) ∧ (s.stall? id = some x) ∧ (x.state ≠ .free) ∧ (x.state ≠ .removing) ∧ (s.granted.any (fun g => g.stall = id) = false) ∧ (s.mrk.dir.any (fun p => p.2.owner = id) = false) ∧ (s.stl.freezes = []) := by decide +kernel

/-- Witness: StallRemoval, clause 2. -/
theorem wit_StallRemoval_2 : let s : State := svc; let c : Call := call00 0x0402; let id : Nat := 6; (s.admits c 0x0402) ∧ (s.stl.removals.any (fun r => decide (r.call = some c)) = false) ∧ (id = 0 ∨ s.stallState id = .free) := by decide +kernel

/-- Witness: StallRemoval, clause 3. -/
theorem wit_StallRemoval_3 : let s : State := svcRem 1; let c : Call := { call00 0x0402 with tag := 8 }; let id : Nat := 5; (s.admits c 0x0402) ∧ (s.stl.removals.any (fun r => decide (r.call = some c)) = false) ∧ (id ≠ 0) ∧ (s.stallState id = .removing) := by decide +kernel

/-- Witness: StallRemoval, clause 4. -/
theorem wit_StallRemoval_4 : let s : State := { svcRem 1 with stl := { (svcRem 1).stl with fills := [⟨5, none, 0, 0⟩] } }; let id : Nat := 5; let r : Removal := rem5 1; (s.stl.removals.find? (fun r => r.stall = id) = some r) ∧ (s.removalEnded r = false) := by decide +kernel

/-- Witness: StallRemoval, clause 5. -/
theorem wit_StallRemoval_5 : let s : State := svcRem 1; let id : Nat := 5; let r : Removal := rem5 1; (s.stl.removals.find? (fun r => r.stall = id) = some r) ∧ (s.removalEnded r = true) ∧ (s.alr.quiet = false) ∧ (s.rst.coreReset = none) ∧ (s.journalled id r.inst r.step = true) ∧ (s.nvm.journalQueue.contains (.removal id r.inst r.step) = false) ∧ (r.step = 1) := by decide +kernel

/-- Witness: StallRemoval, clause 6. -/
theorem wit_StallRemoval_6 : let s : State := svcRem 6; let id : Nat := 5; let r : Removal := rem5 6; let c : Call := call00 0x0402; (s.stl.removals.find? (fun r => r.stall = id) = some r) ∧ (s.removalEnded r = true) ∧ (s.alr.quiet = false) ∧ (s.rst.coreReset = none) ∧ (s.journalled id r.inst r.step = true) ∧ (s.nvm.journalQueue.contains (.removal id r.inst r.step) = false) ∧ (r.step = 6) ∧ (r.call = some c) := by decide +kernel

/-- Witness: StallRemoval, clause 7. -/
theorem wit_StallRemoval_7 : let s : State := { svcRem 2 with clk := { svc.clk with elapsed := 99999 } }; let id : Nat := 5; let r : Removal := rem5 2; (s.stl.removals.find? (fun r => r.stall = id) = some r) ∧ (s.clk.elapsed < r.since + s.drainNs) := by decide +kernel

/-- Witness: StallRemoval, clause 8. -/
theorem wit_StallRemoval_8 : let s : State := svcRem 2; let id : Nat := 5; let r : Removal := rem5 2; (s.stl.removals.find? (fun r => r.stall = id) = some r) ∧ (r.step = 2) ∧ (r.since + s.drainNs ≤ s.clk.elapsed) ∧ (s.alr.quiet = false) ∧ (s.rst.coreReset = none) ∧ (s.journalled id r.inst 2 = true) ∧ (s.nvm.journalQueue.contains (.removal id r.inst 2) = false) := by decide +kernel

/-- Witness: StallFreezeAndThaw, clause 1. -/
theorem wit_StallFreezeAndThaw_1 : let s : State := svcPlain; let c : Call := call00 0x0403; let id : Nat := 5; let flist : Nat := 0; let ok : Bool := true; let x : Stall := stallOf .keyed; (s.admits c 0x0403) ∧ (s.stl.freezes.any (fun f => decide (f.call = c)) = false) ∧ (s.stall? id = some x) ∧ (x.state = .keyed) ∧ (s.plainRange flist (8 * (s.freezeRegions id).length + 1) = true) ∧ (s.mse ≠ []) := by decide +kernel

/-- Witness: StallFreezeAndThaw, clause 2. -/
theorem wit_StallFreezeAndThaw_2 : let f : Freeze := ⟨5, 5, 0, false, call00 0x0403⟩; let s : State := { svcPlain with stl := { svc.stl with table := [(5, stallOf .frozen)], freezes := [f] }, ldg := { svcPlain.ldg with flight := some ⟨1, 1, []⟩ } }; let c : Call := call00 0x0403; let id : Nat := 5; let flist : Nat := 0; let d : StallData := StallData.fresh; let x : Stall := stallOf .frozen; (s.serving) ∧ (s.stl.freezes.find? (fun f => f.call = c) = some f) ∧ (f.stall = id) ∧ (s.spineHolds (.refusal id true) = false) ∧ (s.spineHolds (.squash id) = false) ∧ (s.stallWork id = false) ∧ (s.freezeRegions id = []) ∧ (s.stallData? id = some d) ∧ (s.stall? id = some x) ∧ (s.ldg.changes = []) := by decide +kernel

/-- Witness: StallFreezeAndThaw, clause 3. -/
theorem wit_StallFreezeAndThaw_3 : let s : State := svc; let c : Call := call00 0x0403; let id : Nat := 6; let flist : Nat := 0; let ok : Bool := true; let st : Nat := stPolicy; (s.admits c 0x0403) ∧ (s.stl.freezes.any (fun f => decide (f.call = c)) = false) ∧ (keyedStatus (s.stallState id) = some st) := by decide +kernel

/-- Witness: StallFreezeAndThaw, clause 4. -/
theorem wit_StallFreezeAndThaw_4 : let f : Freeze := ⟨5, 10 ^ 12 - 99999, 0, false, call00 0x0403⟩; let s : State := { svcPlain with stl := { svc.stl with freezes := [f] } }; let id : Nat := 5; (s.stl.freezes.find? (fun f => f.stall = id) = some f) ∧ (f.squashed = true ∨ s.clk.elapsed < f.since + s.drainNs) := by decide +kernel

/-- Witness: StallFreezeAndThaw, clause 5. -/
theorem wit_StallFreezeAndThaw_5 : let f : Freeze := ⟨5, 10 ^ 12 - 100000, 0, false, call00 0x0403⟩; let s : State := { svcPlain with stl := { svc.stl with freezes := [f] } }; let id : Nat := 5; (s.stl.freezes.find? (fun f => f.stall = id) = some f) ∧ (f.squashed = false) ∧ (f.since + s.drainNs ≤ s.clk.elapsed) := by decide +kernel

/-- Witness: StallFreezeAndThaw, clause 6. -/
theorem wit_StallFreezeAndThaw_6 : let x : Stall := stallOf .frozen; let s : State := { svcPlain with stl := { svc.stl with table := [(0, stallOf .keyed), (5, x)] }, ldg := { svcPlain.ldg with flight := some ⟨1, 1, []⟩, localEntries := [(7, ⟨5, 0, .frozen, 0, false⟩)] } }; let c : Call := call00 0x0404; let id : Nat := 5; (s.admits c 0x0404) ∧ (s.stall? id = some x) ∧ (x.state = .frozen) ∧ (x.saved = false) ∧ (x.rebase = false) ∧ (s.stl.freezes = []) ∧ ((s.stallData? id).isSome = true) ∧ (s.ldg.flight.isSome = true) ∧ ((s.regionsWhere fun e => e.owner = id ∧ e.state = .frozen).all (fun r => !s.zeroFilling r) = true) := by decide +kernel

/-- Witness: StallFreezeAndThaw, clause 7. -/
theorem wit_StallFreezeAndThaw_7 : let s : State := svc; let x : Stall := stallOf .keyed; let c : Call := call00 0x0404; let id : Nat := 5; (s.admits c 0x0404) ∧ (s.stall? id = some x) := by decide +kernel

/-- Witness: FunctionMapAndStatus, clause 1. -/
theorem wit_FunctionMapAndStatus_1 : let s : State := svc; let c : Call := call00 0x0407; let fn : Nat := 2; let id : Nat := 5; let k : Nat := 1; (s.admits c 0x0407) ∧ (id < 4096) ∧ (s.stallState id = .admitted ∨ s.stallState id = .keyed ∨ s.stallState id = .frozen) ∧ (s.fnStall? fn = none) ∧ (firstFree s.stl.fnMap 0 1024 = some k) := by decide +kernel

/-- Witness: FunctionMapAndStatus, clause 2. -/
theorem wit_FunctionMapAndStatus_2 : let s : State := svc; let c : Call := call00 0x0407; let fn : Nat := 1; let id : Nat := 5; (s.admits c 0x0407) ∧ (id < 4096) ∧ (s.stallState id = .free ∨ s.stallState id = .lost ∨ s.stallState id = .removing ∨ (s.fnStall? fn).isSome = true) := by decide +kernel

theorem assocGet_map {β : Type} (f : Nat → β) (k : Nat) (l : List Nat) (h : k ∈ l) : (assocGet k (l.map fun i => (i, f i))).isSome = true := by
  induction l with
  | nil => simp at h
  | cons a l ih =>
    by_cases e : a = k
    · simp [assocGet, e]
    · have : k ∈ l := by
        rcases List.mem_cons.mp h with h | h
        · exact absurd h.symm e
        · exact h
      simpa [assocGet, e] using ih this

theorem firstFree_none {β : Type} {l : List (Nat × β)} : ∀ n k, (∀ j, k ≤ j → j < k + n → (assocGet j l).isSome = true) → firstFree l k n = none
  | 0, _, _ => rfl
  | n + 1, k, h => by
    have hk := h k (Nat.le_refl k) (by omega)
    cases e : assocGet k l with
    | none => simp [e] at hk
    | some v => simpa [firstFree, e] using firstFree_none n (k + 1) fun j h1 h2 => h j (by omega) (by omega)

/-- A function map whose 1,024 places are all taken. -/
def fullMap : List (Nat × (Nat × Nat)) := (List.range 1024).map fun k => (k, (k + 10, 5))

theorem fullMap_full : firstFree fullMap 0 1024 = none :=
  firstFree_none 1024 0 fun j _ h => assocGet_map (fun k => (k + 10, 5)) j _ (List.mem_range.mpr (by omega))

/-- Full mode with such a map. -/
def svcFnFull : State := { svc with stl := { svc.stl with fnMap := fullMap } }
/-- Witness: FunctionMapAndStatus, clause 3. -/
theorem wit_FunctionMapAndStatus_3 : let s : State := svcFnFull; let c : Call := call00 0x0407; let fn : Nat := 1; let id : Nat := 5; (s.admits c 0x0407) ∧ (id < 4096) ∧ (s.stallState id = .admitted ∨ s.stallState id = .keyed ∨ s.stallState id = .frozen) ∧ (s.fnStall? fn = none) ∧ (firstFree s.stl.fnMap 0 1024 = none) := by
  intro s c fn id
  exact ⟨by decide +kernel, by decide +kernel, by decide +kernel, by decide +kernel, by
    have e : s.stl.fnMap = fullMap := by decide +kernel
    rw [e]
    exact fullMap_full⟩

/-- Witness: FunctionMapAndStatus, clause 4. -/
theorem wit_FunctionMapAndStatus_4 : let s : State := svc; let c : Call := call00 0x0408; let fn : Nat := 1; (s.admits c 0x0408) := by decide +kernel

/-- Witness: FunctionMapAndStatus, clause 5. -/
theorem wit_FunctionMapAndStatus_5 : let s : State := svc; let c : Call := call00 0x0409; let id : Nat := 5; (s.admits c 0x0409) ∧ (id < 4096) := by decide +kernel

/-- Witness: RegionBindAndRetire, clause 1. -/
theorem wit_RegionBindAndRetire_1 : let s : State := { svcPlain with ldg := { svcPlain.ldg with flight := some ⟨1, 1, []⟩ } }; let c : Call := call00 0x0301; let region : Nat := 7; let r : RegionId := ⟨false, 7⟩; (s.admits c 0x0301) ∧ (s.bindStatus c region 1 0 = none) ∧ (s.namedRegions region 1 = [some r]) ∧ (r.pool = false) ∧ (s.ldg.flight.isSome = true) := by decide +kernel

/-- Witness: RegionBindAndRetire, clause 2. -/
theorem wit_RegionBindAndRetire_2 : let s : State := { svcPlain with ldg := { svcPlain.ldg with flight := some ⟨1, 1, []⟩ } }; let c : Call := call00 0x0301; let region : Nat := 7; let count : Nat := 3; let mode : Nat := 2; (s.admits c 0x0301) ∧ (1 ≤ count) ∧ (count ≤ 1024) ∧ (mode = 1 ∨ mode = 2) ∧ (s.bindStatus c region count mode = none) ∧ (s.ldg.flight.isSome = true) := by decide +kernel

/-- Witness: RegionBindAndRetire, clause 3. -/
theorem wit_RegionBindAndRetire_3 : let s : State := svcPlain; let c : Call := call00 0x0301; let region : Nat := 0; let count : Nat := 1; let mode : Nat := 0; (s.admits c 0x0301) := by decide +kernel

/-- Witness: RegionBindAndRetire, clause 4. -/
theorem wit_RegionBindAndRetire_4 : let s : State := svcPlain; let c : Call := call00 0x0302; let region : Nat := 0; let r : RegionId := ⟨false, 0⟩; (s.admits c 0x0302) ∧ (s.namedRegions region 1 = [some r]) ∧ (r.pool = false) ∧ (s.retireBad c c.stall (some r) = false) ∧ (s.mse ≠ []) ∧ (s.ldg.changes = []) ∧ ((s.mse.all fun m => m.sweeps.isEmpty) = true) := by decide +kernel

/-- Witness: RegionBindAndRetire, clause 5. -/
theorem wit_RegionBindAndRetire_5 : let s : State := svcPlain; let c : Call := call00 0x0302; let region : Nat := 1; let count : Nat := 1; (s.admits c 0x0302) ∧ (1 ≤ count) ∧ (count ≤ 1024) ∧ ((s.namedRegions region count).any (s.retireBad c c.stall) = true) := by decide +kernel

/-- Witness: Migration, clause 1. -/
theorem wit_Migration_1 : let m : MigSession := ⟨true, 5, 2, List.replicate 16 7, leBytes 8 77, zeros 32, 0⟩; let x : Stall := stallOf .frozen; let d : StallData := { StallData.fresh with freezeList := sha384 [] }; let s : State := { svc with stl := { svc.stl with table := [(0, stallOf .keyed), (5, x)], data := [(5, d)], sessions := [m] }, ldg := { svc.ldg with flight := some ⟨1, 1, []⟩ } }; let c : Call := call00 0x0405; let id : Nat := 5; let session : Nat := 77; let flist : Nat := 64; let out_ : Nat := 128; let b : Bytes := []; let ks : List (KeyEntry × Bytes) := []; let outMax : Nat := (s.migRecord id (.move m) x d (chunks 8 b) ks).length; (s.admits c 0x0405) ∧ (s.stall? id = some x) ∧ (s.stallData? id = some d) ∧ (x.state = .frozen) ∧ (x.saved = false) ∧ (d.freezeEpoch = s.epo.epoch) ∧ (s.session true session (some (id, x.inst)) = some (.move m)) ∧ (sha384 b = d.freezeList) ∧ (s.migKeys d [] = some ks) ∧ ((s.migRecord id (.move m) x d (chunks 8 b) ks).length ≤ outMax) ∧ (s.freezeRegions id = []) ∧ (s.ldg.flight.isSome = true) ∧ (s.ldg.changes = []) := by
  intro m x d s c id session flist out_ b ks outMax
  exact ⟨by decide +kernel, by decide +kernel, by decide +kernel, by decide +kernel, by decide +kernel, by decide +kernel, by decide +kernel, by decide +kernel, by decide +kernel, Nat.le_refl _, by decide +kernel, by decide +kernel, by decide +kernel⟩

/-- Witness: Migration, clause 2. -/
theorem wit_Migration_2 : let s : State := svc; let x : Stall := stallOf .keyed; let d : StallData := StallData.fresh; let c : Call := call00 0x0405; let id : Nat := 5; let session : Nat := 77; let flist : Nat := 64; let out_ : Nat := 128; let outMax : Nat := 7000; let list : BufRead := .failed; let bs : List BufRead := []; let ok : Bool := true; (s.admits c 0x0405) ∧ (s.stall? id = some x) ∧ (s.stallData? id = some d) := by decide +kernel

theorem tagLen : (gcmTag (zeros 32) (zeros 12) (migHeader 9 false (migLength 0 0) 2 0 0 0 1 (leBytes 8 77)) (zeros 6624)).length = 16 := by
  decide +kernel
theorem gcmOpenTail (k n h c t : Bytes) (hh : h.length = 64) (ht : t.length = 16) (hg : gcmTag k n h c = t) :
    gcmOpen k n ((h ++ c ++ t).take 64) (((h ++ c ++ t).drop 64).take ((h ++ c ++ t).length - 80)) ((h ++ c ++ t).drop ((h ++ c ++ t).length - 16)) =
      some (gcmCtr k n c) := by
  have e1 : (h ++ c ++ t).take 64 = h := by rw [List.append_assoc, ← hh]; simp
  have e2 : ((h ++ c ++ t).drop 64).take ((h ++ c ++ t).length - 80) = c := by
    rw [List.append_assoc, ← hh]; simp [ht]
    rw [show h.length + (c.length + 16) - 80 = c.length by omega]; simp
  have e3 : (h ++ c ++ t).drop ((h ++ c ++ t).length - 16) = t := by
    rw [show (h ++ c ++ t).length - 16 = (h ++ c).length by simp [ht]; omega]; simp
  rw [e1, e2, e3]; exact if_pos hg

/-- Witness: Migration, clause 3. -/
theorem wit_Migration_3 : let m : MigSession := ⟨false, 0, 2, [], leBytes 8 77, zeros 32, 0⟩; let s : State := { svc with stl := { svc.stl with sessions := [m] }, ldg := { svc.ldg with flight := some ⟨1, 1, []⟩ } }; let c : Call := call00 0x0406; let session : Nat := 77; let rec_ : Nat := 64; let blobRegion : Nat := 9; let counter : Nat := 0; let b : Bytes := migBytes; let pt : Bytes := gcmCtr (zeros 32) (zeros 12) (zeros 6624); (s.admits c 0x0406) ∧ (s.session false session none = some (.move m)) ∧ (slice b 0x20 32 = (padTo 32 m.th).take 32) ∧ (migFormed b = true) ∧ (leField b 8 1 = 1) ∧ (gcmOpen (m.kEst.take 32) (zeros 12) (b.take 64) ((b.drop 64).take (b.length - 80)) (b.drop (b.length - 16)) = some pt) ∧ (leField b 0x12 2 = s.dom.chip) ∧ (leField b 6 2 ≠ 0) ∧ (leField b 6 2 < 4096) ∧ (s.idFree (leField b 6 2) = true) ∧ (s.regionOf (regionBytes * blobRegion) = some { pool := false, index := blobRegion }) ∧ (s.bindable { pool := false, index := blobRegion } = true) ∧ (leField b 0x14 4 = 0) ∧ (leField b 0x18 2 = 0) ∧ ((leField pt 0x11 1).testBit 0 = false) ∧ (s.ldg.flight.isSome = true) := by
  intro m s c session rec_ blobRegion counter b pt
  refine ⟨by decide +kernel, by decide +kernel, by decide +kernel, by decide +kernel, by decide +kernel, ?_, by decide +kernel, by decide +kernel, by decide +kernel,
    by decide +kernel, by decide +kernel, by decide +kernel, by decide +kernel, by decide +kernel, by decide +kernel, by decide +kernel⟩
  exact gcmOpenTail (zeros 32) (zeros 12) _ (zeros 6624) _ (by decide +kernel) tagLen rfl

/-- Witness: Migration, clause 4. -/
theorem wit_Migration_4 : let x : MigSession := ⟨false, 0, 2, [], leBytes 8 77, zeros 32, 0⟩; let s : State := { svc with stl := { svc.stl with sessions := [x] } }; (s.stl.sessions.find? (fun x => decide (x.since + ((s.cfg.policy.map (·.tMigSess)).getD 60) * 1000000000 ≤ s.clk.elapsed)) = some x) := by decide +kernel

/-- Witness: Migration, clause 5. -/
theorem wit_Migration_5 : let x := ⟨false, 0, 2, [], leBytes 8 77, zeros 32, 10 ^ 12 - 1⟩; let s : State := { svc with stl := { svc.stl with sessions := [x] } }; (s.stl.sessions.all (fun x => decide (s.clk.elapsed < x.since + ((s.cfg.policy.map (·.tMigSess)).getD 60) * 1000000000)) = true) := by decide +kernel

/-- Witness: Measurements, clause 1. -/
theorem wit_Measurements_1 : let s : State := svc; let c : Call := call5 0x0601; let reg : Nat := 3; let kind : Nat := 1; let owner : Nat := 0xFF; let digest : Bytes := zeros 48; let x : Stall := stallOf .keyed; let d : StallData := StallData.fresh; (s.admits c 0x0601) ∧ (s.stall? c.stall = some x) ∧ (s.stallData? c.stall = some d) ∧ (reg < 32) ∧ (1 ≤ kind) ∧ (kind ≤ 4) ∧ (digest.length = 48) ∧ (x.measLocked = decide (16 ≤ reg)) := by decide +kernel

/-- Witness: Measurements, clause 2. -/
theorem wit_Measurements_2 : let s : State := svc; let c : Call := call5 0x0601; let reg : Nat := 16; let kind : Nat := 1; let owner : Nat := 0xFF; let digest : Bytes := zeros 48; let x : Stall := { stallOf .keyed with measLocked := false }; let d : StallData := StallData.fresh; (s.admits c 0x0601) ∧ (s.stall? c.stall = some x) ∧ (s.stallData? c.stall = some d) ∧ (reg < 32) ∧ (1 ≤ kind) ∧ (kind ≤ 4) ∧ (x.measLocked = decide (reg < 16)) := by decide +kernel

/-- Witness: Measurements, clause 3. -/
theorem wit_Measurements_3 : let s : State := svc; let c : Call := call5 0x0602; let x : Stall := stallOf .keyed; (s.admits c 0x0602) ∧ (s.stall? c.stall = some x) ∧ (x.measLocked = false) ∧ (s.sbx.entropyOk = true) := by decide +kernel

/-- Witness: Measurements, clause 4. -/
theorem wit_Measurements_4 : let s : State := svcLock; let c : Call := call5 0x0602; let x : Stall := { stallOf .keyed with measLocked := true, x2 := true }; (s.admits c 0x0602) ∧ (s.stall? c.stall = some x) ∧ (x.measLocked = true) := by decide +kernel

/-- Witness: Measurements, clause 5. -/
theorem wit_Measurements_5 : let s : State := svc; let c : Call := call5 0x0603; let x : Stall := stallOf .keyed; (s.admits c 0x0603) ∧ (s.stall? c.stall = some x) ∧ (x.measLocked = false) := by decide +kernel

/-- Witness: Measurements, clause 6. -/
theorem wit_Measurements_6 : let s : State := svcLock; let c : Call := call5 0x0603; let x : Stall := { stallOf .keyed with measLocked := true, x2 := true }; (s.admits c 0x0603) ∧ (s.stall? c.stall = some x) ∧ (x.measLocked = true) := by decide +kernel

/-- Witness: Measurements, clause 7. -/
theorem wit_Measurements_7 : let s : State := svcLock; let c : Call := call5 0x0604; let x : Stall := { stallOf .keyed with measLocked := true, x2 := true }; let d : StallData := StallData.fresh; let nonce : Bytes := zeros 32; let sigs : Bytes := []; let out_ : Nat := 64; let outMax : Nat := 100000; (s.admits c 0x0604) ∧ (s.stall? c.stall = some x) ∧ (s.stallData? c.stall = some d) ∧ (x.x2 = true) ∧ (x.measLocked = true) ∧ ((s.x2Body c.stall x d nonce ++ (padTo 4728 sigs).take 4728).length ≤ outMax) := by decide +kernel

/-- Witness: Measurements, clause 8. -/
theorem wit_Measurements_8 : let s : State := svc; let c : Call := call5 0x0604; let x : Stall := stallOf .keyed; let d : StallData := StallData.fresh; let nonce : Bytes := zeros 32; let sigs : Bytes := []; let out_ : Nat := 64; let outMax : Nat := 100000; let ok : Bool := true; (s.admits c 0x0604) ∧ (s.stall? c.stall = some x) ∧ (s.stallData? c.stall = some d) := by decide +kernel

/-- Witness: EvidenceAndIdentity, clause 1. -/
theorem wit_EvidenceAndIdentity_1 : let s : State := svcLock; let x : Stall := { stallOf .keyed with measLocked := true, x2 := true }; let c : Call := call00 0x0605; let id : Nat := 5; let out_ : Nat := 64; let outMax : Nat := 3; let certs : Bytes := [1, 2, 3]; (s.admits c 0x0605) ∧ (s.stall? id = some x) ∧ (x.state ≠ .lost) ∧ (x.state ≠ .removing) ∧ (s.resident id = true) ∧ (s.evidence x = true) ∧ (certs.length ≤ outMax) := by decide +kernel

/-- Witness: EvidenceAndIdentity, clause 2. -/
theorem wit_EvidenceAndIdentity_2 : let s : State := svc; let c : Call := call00 0x0605; let id : Nat := 6; let out_ : Nat := 64; let outMax : Nat := 3; let certs : Bytes := [1, 2, 3]; let ok : Bool := true; (s.admits c 0x0605) := by decide +kernel

/-- Witness: EvidenceAndIdentity, clause 3. -/
theorem wit_EvidenceAndIdentity_3 : let s : State := svcProv; let c : Call := call00 0x0606; let out_ : Nat := 64; let outMax : Nat := 3; let csrs : Bytes := [1, 2, 3]; (s.admits c 0x0606) ∧ (s.lcu.state = lcProvision) ∧ (csrs.length ≤ outMax) := by decide +kernel

/-- Witness: EvidenceAndIdentity, clause 4. -/
theorem wit_EvidenceAndIdentity_4 : let s : State := svcProv; let c : Call := call00 0x0607; let src : Nat := 64; let len : Nat := 3; let b : Bytes := [1, 2, 3]; (s.admits c 0x0607) ∧ (s.lcu.state = lcProvision) ∧ (1 ≤ len) ∧ (len ≤ 32768) := by decide +kernel

/-- Witness: EvidenceAndIdentity, clause 5. -/
theorem wit_EvidenceAndIdentity_5 : let s : State := svc; let c : Call := call00 0x0606; let a : Nat := 1; let b : Nat := 2; let x : Bytes := []; let y : BufRead := .failed; let ok : Bool := true; (s.lcu.state ≠ lcProvision) := by decide +kernel

/-- Witness: EvidenceAndIdentity, clause 6. -/
theorem wit_EvidenceAndIdentity_6 : let s : State := svc; let c : Call := call00 0x0608; let req : Nat := 64; let n : Nat := 16; let hse : Nat := 0; let rsp : Nat := 128; let rspMax : Nat := 2; let q : Bytes := [1]; let resp : Bytes := [1, 2]; (s.admits c 0x0608) ∧ (hse = 0xFF ∨ hse < s.build.hseCount) ∧ (resp.length ≤ rspMax) := by decide +kernel

/-- Witness: EvidenceAndIdentity, clause 7. -/
theorem wit_EvidenceAndIdentity_7 : let s : State := svc; let c : Call := call00 0x0608; let req : Nat := 64; let n : Nat := 16; let rsp : Nat := 128; let rspMax : Nat := 2; let k : Nat := 5; let q : Bytes := [1]; let resp : Bytes := [1, 2]; (s.admits c 0x0608) ∧ (resp.length ≤ rspMax) ∧ (s.att.sessions.length < 8) ∧ (s.att.sessions.contains k = false) ∧ (s.hse.length ≤ 0xFF) := by decide +kernel

/-- Witness: FusePortAnswers, clause 1. -/
theorem wit_FusePortAnswers_1 : let j : FuseJob := { goal := .styseed, bits := [(5, 3), (5, 4)], stage := 1, retried := false, since := 0 }; let s : State := { svc with lcu := { svc.lcu with job := some j } }; let w : Nat := 5; let b : Nat := 3; let rest : List (Nat × Nat) := [(5, 4)]; (s.lcu.job = some j) ∧ (j.stage = 1) ∧ (j.bits = (w, b) :: rest) := by decide +kernel

/-- Witness: FusePortAnswers, clause 2. -/
theorem wit_FusePortAnswers_2 : let j : FuseJob := { goal := .styseed, bits := [(5, 3), (5, 4)], stage := 2, retried := true, since := 0 }; let s : State := { svc with lcu := { svc.lcu with job := some j, fuses := [(5, 8)] } }; let w : Nat := 5; let b : Nat := 3; let w2 : Nat := 5; let b2 : Nat := 4; let data : Nat := 8; let rest : List (Nat × Nat) := [(5, 4)]; let more : List (Nat × Nat) := []; (s.lcu.job = some j) ∧ (j.stage = 2) ∧ (j.bits = (w, b) :: rest) ∧ (data.testBit b = true) ∧ (s.lcu.missing rest = (w2, b2) :: more) := by decide +kernel

/-- Witness: FusePortAnswers, clause 3. -/
theorem wit_FusePortAnswers_3 : let j : FuseJob := { goal := .styseed, bits := [(5, 3), (5, 4)], stage := 2, retried := false, since := 0 }; let s : State := { svc with lcu := { svc.lcu with job := some j } }; let w : Nat := 5; let b : Nat := 3; let data : Nat := 16; let rest : List (Nat × Nat) := [(5, 4)]; let i : Instr := .fuseReadReturn data; (s.lcu.job = some j) ∧ (j.bits = (w, b) :: rest) ∧ (j.retried = false) ∧ (j.forDrk = false) ∧ ((i = .fusePgmErr ∧ j.stage = 1) ∨ (i = .fuseReadReturn data ∧ j.stage = 2 ∧ data.testBit b = false)) := by decide +kernel

/-- Witness: FusePortAnswers, clause 4. -/
theorem wit_FusePortAnswers_4 : let j : FuseJob := { goal := .lifecycle, bits := [(5, 3), (5, 4)], stage := 2, retried := false, since := 10 ^ 12 - 1000 }; let s : State := { svc with lcu := { svc.lcu with job := some j } }; let w : Nat := 5; let b : Nat := 3; let rest : List (Nat × Nat) := [(5, 4)]; let i : Instr := .fusePortTimeout; (s.lcu.job = some j) ∧ (j.bits = (w, b) :: rest) ∧ ((i = .fusePgmErr ∧ j.stage = 1 ∧ (j.retried = true ∨ j.forDrk = true)) ∨
      (i = .fusePortTimeout ∧ j.stage = 1 ∧ j.since + 100000 ≤ s.clk.elapsed) ∨
      (i = .fusePortTimeout ∧ j.stage = 2 ∧ j.since + 1000 ≤ s.clk.elapsed)) := by decide +kernel

/-- Witness: FusePortAnswers, clause 5. -/
theorem wit_FusePortAnswers_5 : let s : State := { svc with lcu := { svc.lcu with tapRead := some 3 } }; let w : Nat := 3; let data : Nat := 0x01020304; (s.lcu.job = none) ∧ (s.lcu.tapRead = some w) := by decide +kernel

/-- Witness: ProvisionAndPatch, clause 1. -/
theorem wit_ProvisionAndPatch_1 : let s : State := svcProv; let c : Call := call00 0x0207; let bank : Nat := 0; (s.admits c 0x0207) ∧ (s.lcu.state = lcProvision) ∧ (s.lcu.bankEmpty 1 = true) ∧ (s.lcu.bankComplete 1 = false) ∧ (s.sbx.entropyOk = true) ∧ (s.lcu.job = none) ∧ (s.lcu.jobs = []) ∧ (bank = (if s.lcu.bankEmpty 0 then 0 else 1)) ∧ (s.lcu.bankComplete bank = false) := by decide +kernel

/-- Witness: ProvisionAndPatch, clause 2. -/
theorem wit_ProvisionAndPatch_2 : let s : State := svc; let c : Call := call00 0x0207; (s.admits c 0x0207) ∧ (s.lcu.job = none) ∧ (s.lcu.jobs = []) ∧ (s.lcu.state ≠ lcProvision ∨ s.lcu.bankEmpty 1 = false ∨ s.lcu.bankComplete 1 = true) := by decide +kernel

/-- Witness: ProvisionAndPatch, clause 3. -/
theorem wit_ProvisionAndPatch_3 : let s : State := { svc with ald := { svc.ald with full := false } }; let c : Call := call00 0x0A02; (s.admits c 0x0A02) ∧ (s.lcu.job = none) ∧ (s.lcu.jobs = []) ∧ (s.ald.full = false) := by decide +kernel

/-- Witness: ProvisionAndPatch, clause 4. -/
theorem wit_ProvisionAndPatch_4 : let s : State := svc; let c : Call := call00 0x0A02; (s.admits c 0x0A02) ∧ (s.lcu.job = none) ∧ (s.lcu.jobs = []) ∧ (s.rst.coreDeferred = none) ∧ (s.ald.full = true) ∧ (s.lcu.svnBits 4 s.cfg.almSvn ++ s.lcu.svnBits 6 s.cfg.patchSvn = []) := by decide +kernel

/-- Witness: ProvisionAndPatch, clause 5. -/
theorem wit_ProvisionAndPatch_5 : let s : State := { svc with cfg := { svc.cfg with almSvn := 3 }, lcu := { svc.lcu with fuses := [(4, 1)] } }; let c : Call := call00 0x0A02; let w : Nat := 4; let b : Nat := 1; let more : List (Nat × Nat) := [(4, 2)]; (s.admits c 0x0A02) ∧ (s.lcu.job = none) ∧ (s.lcu.jobs = []) ∧ (s.ald.full = true) ∧ (s.lcu.svnBits 4 s.cfg.almSvn ++ s.lcu.svnBits 6 s.cfg.patchSvn = (w, b) :: more) := by decide +kernel

/-- Witness: ProvisionAndPatch, clause 6. -/
theorem wit_ProvisionAndPatch_6 : let s : State := svc; let c : Call := call00 0x0102; let src : Nat := 0; let len : Nat := 131073; let buf : BufRead := .failed; let sigOk : Bool := true; (s.admits c 0x0102) ∧ (8 ≤ s.hlm.staged.length ∨ 131072 < len) := by decide +kernel

/-- A patch of no code. -/
def patch0 : Bytes := leBytes 4 0x50465358 ++ leBytes 2 1 ++ [0, 0] ++ leBytes 4 0x03020000 ++ leBytes 4 0 ++ romDigest ++ zeros 4728

theorem romDigest_length : romDigest.length = 48 := by
  simp [romDigest, padTo, zeros]
  omega

theorem patch0_length : patch0.length = 4792 := by
  have h : patch0 = (leBytes 4 0x50465358 ++ leBytes 2 1 ++ [0, 0] ++ leBytes 4 0x03020000 ++ leBytes 4 0) ++ (romDigest ++ zeros 4728) := by
    simp only [patch0, List.append_assoc]
  simp only [h, List.length_append, romDigest_length]
  decide +kernel

theorem patch0_digest : slice patch0 0x10 48 = romDigest := by
  have h : patch0 = (leBytes 4 0x50465358 ++ leBytes 2 1 ++ [0, 0] ++ leBytes 4 0x03020000 ++ leBytes 4 0) ++ (romDigest ++ zeros 4728) := by
    simp only [patch0, List.append_assoc]
  rw [h, slice, List.drop_left' (by decide +kernel), List.take_left' romDigest_length]

theorem patch0_passes : svc.patchRefusal patch0 true = none := by
  have h0 : leField patch0 0 4 = 0x50465358 := by decide +kernel
  have h1 : leField patch0 4 2 = 1 := by decide +kernel
  have h2 : leField patch0 7 1 = 0 := by decide +kernel
  have h3 : leField patch0 6 1 = 0 := by decide +kernel
  have h4 : leField patch0 8 4 = 0x03020000 := by decide +kernel
  have h5 : leField patch0 0xC 4 = 0 := by decide +kernel
  have h6 : svc.lcu.svn 6 = 0 := by decide +kernel
  have h7 : versionOk 0x03020000 = true := by decide +kernel
  unfold State.patchRefusal
  rw [patch0_digest, patch0_length, h0, h1, h2, h3, h4, h5, h6, h7]
  simp

/-- Witness: ProvisionAndPatch, clause 7. -/
theorem wit_ProvisionAndPatch_7 : let s : State := svc; let c : Call := call00 0x0102; let b : Bytes := patch0; let src : Nat := 256; let len : Nat := 4792; let sigOk : Bool := true; (s.admits c 0x0102) ∧ (s.hlm.staged.length < 8) ∧ (len ≤ 131072) ∧ (s.patchRefusal b sigOk = none) := by
  intro s c b src len sigOk
  exact ⟨by decide +kernel, by decide +kernel, by decide +kernel, patch0_passes⟩

/-- Witness: ProvisionAndPatch, clause 8. -/
theorem wit_ProvisionAndPatch_8 : let s : State := svc; let c : Call := call00 0x0102; let src : Nat := 256; let len : Nat := 100; let d : Nat := 1; let b : Bytes := zeros 100; let sigOk : Bool := true; (s.admits c 0x0102) ∧ (s.hlm.staged.length < 8) ∧ (len ≤ 131072) ∧ (s.patchRefusal b sigOk = some d) := by decide +kernel

/-- Witness: ProvisionAndPatch, clause 9. -/
theorem wit_ProvisionAndPatch_9 : let s : State := svc; let c : Call := call00 0x0103; (s.admits c 0x0103) ∧ (s.rst.patchCall ≠ some c) ∧ (s.lcu.job = none) ∧ (s.lcu.jobs = []) ∧ (s.lcu.transition = none) ∧ (s.tol.running = none) := by decide +kernel

/-- Witness: LifecycleTransitions, clause 1. -/
theorem wit_LifecycleTransitions_1 : let s : State := { svc with lcu := { svc.lcu with state := lcDeployed } }; let c : Call := { call00 0x0B01 with window := true }; let target : Nat := lcScrap; let b : Nat := 4; let auth : Bytes := zeros 192; let buf : Bytes := []; let sigOk : Bool := false; let idOk : Bool := false; (s.admits c 0x0B01) ∧ (s.lcu.transition = none) ∧ (s.lcu.job = none) ∧ ((lcRow s.lcu.state target).isSome = true) ∧ (authFormed s.lcu.state target auth = true) ∧ (s.lcRefusal target auth false sigOk idOk = none) ∧ (lcJournalBit target = some b) ∧ ((s.lcu.fuse 1).testBit b = false) := by decide +kernel

/-- Witness: LifecycleTransitions, clause 2. -/
theorem wit_LifecycleTransitions_2 : let s : State := { svc with lcu := { svc.lcu with state := lcProvision } }; let c : Call := { call00 0x0B01 with window := true }; let target : Nat := lcDeployed; let d : Nat := 4; let auth : Bytes := zeros 8 ++ leBytes 4 4728 ++ zeros 180; let buf : Bytes := []; let sigOk : Bool := true; let idOk : Bool := true; (s.admits c 0x0B01) ∧ (s.lcu.transition = none) ∧ ((lcRow s.lcu.state target).isSome = true) ∧ (authFormed s.lcu.state target auth = true) ∧ (s.lcRefusal target auth false sigOk idOk = some d) := by decide +kernel

/-- Witness: LifecycleTransitions, clause 3. -/
theorem wit_LifecycleTransitions_3 : let s : State := { svc with lcu := { svc.lcu with state := lcTestLocked } }; let target : Nat := lcProvision; let b : Nat := 1; let auth : Bytes := zeros 192; (s.rst.phase ≠ .inReset) ∧ (tapActs 0x12 s.lcu.state = true) ∧ (s.lcu.transition = none) ∧ (s.lcu.job = none) ∧ (lcJournalBit target = some b) ∧ (s.lcRefusal target auth true false false = none) ∧ (authFormed s.lcu.state target auth = true) ∧ ((s.lcu.fuse 1).testBit b = false) := by decide +kernel

/-- Witness: LifecycleTransitions, clause 4. -/
theorem wit_LifecycleTransitions_4 : let s : State := { svc with lcu := { svc.lcu with state := lcProvision } }; let target : Nat := lcTestOpen; let d : Nat := 1; let auth : Bytes := zeros 192; (s.rst.phase ≠ .inReset) ∧ (tapActs 0x12 s.lcu.state = true) ∧ (s.lcu.transition = none) ∧ (s.lcRefusal target auth true false false = some d) := by decide +kernel

/-- Witness: LifecycleTransitions, clause 5. -/
theorem wit_LifecycleTransitions_5 : let x : Transition := { target := lcScrap, source := lcDeployed, phase := 2, viaTap := false, call := none, resumed := false, since := 0, sectors := 3, erases := [4, 5, 6], auth := [] }; let s : State := { svc with lcu := { svc.lcu with transition := some x }, nvm := { svc.nvm with slotA := List.replicate 20000 7 } }; let k : Nat := 4; let k2 : Nat := 5; let rest : List Nat := [6]; (s.lcu.transition = some x) ∧ (x.phase = 2) ∧ (x.erases = k :: k2 :: rest) := by decide +kernel

/-- Witness: LifecycleTransitions, clause 6. -/
theorem wit_LifecycleTransitions_6 : let x : Transition := { target := lcDeployed, source := lcProvision, phase := 0, viaTap := false, call := none, resumed := true, since := 0, sectors := 0, erases := [], auth := [] }; let s : State := { svc with lcu := { svc.lcu with transition := some x }, nvm := { svc.nvm with journalStale := [3, 9] } }; let k : Nat := 0xA03; let rest : List Nat := [0xA09]; (s.lcu.transition = some x) ∧ (x.resumed = true) ∧ (x.phase = 0) ∧ ((wipeRange x.source x.target).filter s.nvm.used = k :: rest) ∧ (s.lcu.job = none) ∧ (s.lcu.jobs = []) := by decide +kernel

/-- Witness: LifecycleTransitions, clause 7. -/
theorem wit_LifecycleTransitions_7 : let x : Transition := { target := lcProvision, source := lcTestLocked, phase := 3, viaTap := true, call := none, resumed := false, since := 0, sectors := 0, erases := [], auth := [] }; let j : FuseJob := { goal := .lifecycle, bits := [(0, 7)], stage := 2, retried := false, since := 0 }; let s : State := { svc with lcu := { svc.lcu with transition := some x, job := some j, fuses := [(0, 0xFF), (1, 3)] } }; let w : Nat := 0; let b : Nat := 7; let data : Nat := 0xFF; let want : Nat := lcProvision; (s.lcu.transition = some x) ∧ (x.phase = 3) ∧ (x.resumed = false) ∧ (s.lcu.job = some j) ∧ (s.lcu.jobs = []) ∧ (j.goal = .lifecycle) ∧ (j.stage = 2) ∧ (j.bits = [(w, b)]) ∧ (data.testBit b = true) ∧ (want = (if x.target = lcKeyfuse then lcProvision else x.target)) ∧ (s.lcu.decode = .state want) ∧ (s.rst.coreDeferred = none) := by decide +kernel

/-- Witness: LifecycleTransitions, clause 8. -/
theorem wit_LifecycleTransitions_8 : let b : JournalBody := .alarm [1, 2]; let s : State := { svc with nvm := { svc.nvm with journalErase := some 4, journalQueue := [b], journal := [{ index := 4, seq := 1, headSeq := 1, records := [] }, { index := 3, seq := 9, headSeq := 100, records := [{ seq := 101, body := .alarm [3] }] }] } }; let k : Nat := 4; let index : Nat := 4; let seq : Nat := 10; let headSeq : Nat := 102; let old : List JournalSector := [{ index := 3, seq := 9, headSeq := 100, records := [{ seq := 101, body := .alarm [3] }] }]; (s.lcu.transition = none) ∧ (s.nvm.journalErase = some k) ∧ (s.nvm.journalQueue = [b]) ∧ (old = s.nvm.journal.filter (fun x => x.index ≠ k)) ∧ ((index, seq) = ({ s.nvm with journal := old } : Nvm).nextSector) ∧ (headSeq = ({ s.nvm with journal := old } : Nvm).nextSeq) ∧ (old.any (fun x => decide (x.index = (index + 1) % 512)) = false) ∧ (index < 512) := by decide +kernel

/-- Witness: AlmanacLoadAndUpdate, clause 1. -/
theorem wit_AlmanacLoadAndUpdate_1 : let s : State := loading; let sigA : ImageSigs := sigs0; let sigB : ImageSigs := sigs0; let nvmOk : Bool := true; let sdr : Bool := false; let sigs : Bytes := []; (s.loadable = true) ∧ ((s.pickImage sigA sigB nvmOk).image = none) := by decide +kernel

/-- Witness: AlmanacLoadAndUpdate, clause 2. -/
theorem wit_AlmanacLoadAndUpdate_2 : let s : State := { loading with nvm := { loading.nvm with slotB := image0 }, sbx := { loading.sbx with entropyOk := false } }; let sigA : ImageSigs := sigs0; let sigB : ImageSigs := sigs0; let nvmOk : Bool := true; let sdr : Bool := false; let sigs : Bytes := []; (s.loadable = true) ∧ ((s.pickImage sigA sigB nvmOk).image.isSome = true) ∧ (s.sbx.entropyOk = false) := by decide +kernel

/-- Witness: AlmanacLoadAndUpdate, clause 3. -/
theorem wit_AlmanacLoadAndUpdate_3 : let s : State := { loading with nvm := { loading.nvm with slotB := image0 } }; let sigA : ImageSigs := sigs0; let sigB : ImageSigs := sigs0; let nvmOk : Bool := true; let sdr : Bool := false; let sigs : Bytes := []; let r : LoadResult := s.pickImage sigs0 sigs0 true; let c : Cfg := ((r.image).map (·.1)).getD State.reset.cfg; let slotB : Bool := true; (s.loadable = true) ∧ (s.pickImage sigA sigB nvmOk = r) ∧ (r.image = some (c, slotB)) ∧ (s.sbx.entropyOk = true) ∧ (s.alr.safeStop = false) ∧ (s.lcu.job = none) ∧ (s.lcu.jobs = []) ∧ (s.rst.coreDeferred = none) := by decide +kernel

/-- Witness: AlmanacLoadAndUpdate, clause 4. -/
theorem wit_AlmanacLoadAndUpdate_4 : let s : State := svc; let sigA : ImageSigs := sigs0; let sigB : ImageSigs := sigs0; let nvmOk : Bool := true; let sdr : Bool := false; let sigs : Bytes := []; (s.loadable = false) := by decide +kernel

/-- Witness: AlmanacLoadAndUpdate, clause 5. -/
theorem wit_AlmanacLoadAndUpdate_5 : let s : State := svc; let c : Call := call00 0x0A01; let a : Nat := 0; let b : Nat := 0; let d : Nat := 0; let e : Nat := 0; let data : Bytes := []; let buf : BufRead := .failed; let sigs : ImageSigs := sigs0; (s.admits c 0x0A01) := by decide +kernel

/-- Witness: AlmanacLoadAndUpdate, clause 6. -/
theorem wit_AlmanacLoadAndUpdate_6 : let s : State := { svc with ald := { svc.ald with updErased := some true, updWritten := [(0, 128)] } }; let c : Call := call00 0x0A01; let offset : Nat := 128; let len : Nat := 3; let src : Nat := 0; let data : Bytes := [1, 2, 3]; let buf : BufRead := .failed; let sigs : ImageSigs := sigs0; let toB : Bool := true; (s.admits c 0x0A01) ∧ (s.ald.updErased = some toB) ∧ (len ≤ 128) ∧ (offset + len ≤ 0x400000) ∧ (s.ald.updWritten.any (fun w => decide (offset < w.1 + w.2 ∧ w.1 < offset + len)) = false) ∧ (data.length = len) := by decide +kernel

/-- Witness: AlmanacLoadAndUpdate, clause 7. -/
theorem wit_AlmanacLoadAndUpdate_7 : let s : State := svc; let c : Call := call00 0x0A01; let phase : Nat := 1; let inline_ : Nat := 1; let offset : Nat := 128; let len : Nat := 3; let src : Nat := 0; let data : Bytes := [1, 2, 3]; let buf : BufRead := .failed; let sigs : ImageSigs := sigs0; (s.admits c 0x0A01) ∧ (1 ≤ phase) ∧ (s.ald.updErased = none) := by decide +kernel

/-- Witness: AlmanacLoadAndUpdate, clause 8. -/
theorem wit_AlmanacLoadAndUpdate_8 : let s : State := { svc with ald := { svc.ald with updErased := some true }, nvm := { svc.nvm with slotB := [1, 2, 3] } }; let c : Call := call00 0x0A01; let b : Bytes := [1, 2, 3]; let inline_ : Nat := 1; let offset : Nat := 128; let len : Nat := 3; let src : Nat := 0; let data : Bytes := []; let buf : BufRead := .failed; let sigs : ImageSigs := sigs0; let toB : Bool := true; (s.admits c 0x0A01) ∧ (s.ald.updErased = some toB) ∧ (b = (if toB then s.nvm.slotB else s.nvm.slotA)) := by decide +kernel

/-- Witness: TrainingDone, clause 1. -/
theorem wit_TrainingDone_1 : let s : State := svcHarbour; let c : Call := call00 0x0A04; let flags : Nat := 2; let rootOk : Bool := true; let bad : List Nat := []; (s.admits c 0x0A04) ∧ (flags.testBit 0 = false ∨ s.ald.restored = true ∨ s.ldg.restoring = true) := by decide +kernel

/-- Witness: TrainingDone, clause 2. -/
theorem wit_TrainingDone_2 : let d := StallData.fresh; let s : State := { svcHarbour with stl := { svcHarbour.stl with records := [(0, stallOf .keyed, d), (7, stallOf .frozen, d)] }, ldg := { svcHarbour.ldg with anchor := { svcHarbour.ldg.anchor with valid := true, epoch := 77 } } }; let c : Call := call00 0x0A04; let flags : Nat := 3; let bad : List Nat := []; (s.admits c 0x0A04) ∧ (flags.testBit 0 = true) ∧ (s.ald.restored = false) ∧ (s.ldg.restoring = false) ∧ (s.ldg.anchor.valid = true) ∧ (s.nvm.removals = []) ∧ (s.ldg.storeRoot = s.sbx.root) := by decide +kernel

/-- Witness: TrainingDone, clause 3. -/
theorem wit_TrainingDone_3 : let d : StallData := StallData.fresh; let x : Stall := stallOf .frozen; let id : Nat := 7; let s : State := { svcHarbour with stl := { svcHarbour.stl with records := [(7, x, d)] }, ldg := { svcHarbour.ldg with anchor := { svcHarbour.ldg.anchor with valid := true, epoch := 77 } } }; let c : Call := call00 0x0A04; let flags : Nat := 3; let bad : List Nat := [7]; (s.admits c 0x0A04) ∧ (flags.testBit 0 = true) ∧ (s.ald.restored = false) ∧ (s.ldg.restoring = false) ∧ (s.ldg.anchor.valid = true) ∧ (s.nvm.removals = []) ∧ (s.ldg.storeRoot = s.sbx.root) ∧ (s.stl.records = [(id, x, d)]) ∧ (id ≠ 0) ∧ (x.state ≠ .free) ∧ (bad.contains id = true) := by decide +kernel

/-- Witness: TrainingDone, clause 4. -/
theorem wit_TrainingDone_4 : let d := StallData.fresh; let s : State := { svcHarbour with stl := { svcHarbour.stl with records := [(0, stallOf .keyed, d), (7, stallOf .frozen, d)] }, ldg := { svcHarbour.ldg with anchor := { svcHarbour.ldg.anchor with valid := true, epoch := 77 } } }; let c : Call := call00 0x0A04; let flags : Nat := 3; let rootOk : Bool := false; let bad : List Nat := []; (s.admits c 0x0A04) ∧ (flags.testBit 0 = true) ∧ (s.ald.restored = false) ∧ (s.ldg.restoring = false) ∧ (s.ldg.anchor.valid = true) ∧ (rootOk = false ∨ s.ldg.storeRoot ≠ s.sbx.root) := by decide +kernel

/-- Witness: TrainingDone, clause 5. -/
theorem wit_TrainingDone_5 : let s : State := { svcHarbour with sbx := { svcHarbour.sbx with entropyOk := false } }; let c : Call := call00 0x0A04; let flags : Nat := 1; let rootOk : Bool := true; let bad : List Nat := []; (s.admits c 0x0A04) ∧ (flags.testBit 0 = true) ∧ (s.ald.restored = false) ∧ (s.ldg.restoring = false) ∧ (s.ldg.anchor.valid = false) ∧ (s.sbx.entropyOk = false) := by decide +kernel

/-- Witness: TrainingDone, clause 6. -/
theorem wit_TrainingDone_6 : let s : State := svcHarbour; let c : Call := call00 0x0A04; let flags : Nat := 1; let rootOk : Bool := true; let bad : List Nat := []; (s.admits c 0x0A04) ∧ (flags.testBit 0 = true) ∧ (s.ald.restored = false) ∧ (s.ldg.restoring = false) ∧ (s.ldg.anchor.valid = false) ∧ (s.sbx.entropyOk = true) := by decide +kernel

/-- Witness: SettingsAndMeter, clause 1. -/
theorem wit_SettingsAndMeter_1 : let s : State := { svc with ald := { svc.ald with staged := [(1, 2, 1, 0xABCD)] }, nvm := { svc.nvm with settingsA := some { seq := 4, root := svc.sbx.root, records := [⟨1, 2, [1]⟩, ⟨3, 0, []⟩] } } }; let c : Call := call00 0x0A03; (s.admits c 0x0A03) := by decide +kernel

/-- Witness: SettingsAndMeter, clause 2. -/
theorem wit_SettingsAndMeter_2 : let s : State := { svc with ald := { svc.ald with repairDue := some 4 }, cht := { svc.cht with folds := [(3, 2, 1)] } }; let since : Nat := 4; (s.ald.repairDue = some since) ∧ (s.serving) ∧ (s.rst.coreReset = none) := by decide +kernel

/-- Witness: SettingsAndMeter, clause 3. -/
theorem wit_SettingsAndMeter_3 : let s : State := svc; let c : Call := call5 0x0C03; let stall : Nat := 5; let out_ : Nat := 64; let outMax : Nat := 7648; let sig : Bytes := zeros 4728; let ok : Bool := true; (s.admits c 0x0C03) ∧ ((s.meterReading stall).isSome = true) ∧ (7648 ≤ outMax) ∧ (s.sty.queue.contains c = false) ∧ (s.sty.queue.length < 16) ∧ (s.inUnitReset unitSteelyard = false) := by decide +kernel

/-- Witness: SettingsAndMeter, clause 4. -/
theorem wit_SettingsAndMeter_4 : let c : Call := call5 0x0C03; let s : State := { svc with sty := { svc.sty with queue := [c] } }; let stall : Nat := 5; let out_ : Nat := 64; let outMax : Nat := 7648; let sig : Bytes := zeros 4728; let r : Reading := s.reading 5; let final : Bool := false; (s.admits c 0x0C03) ∧ (s.meterReading stall = some (r, final)) ∧ (7648 ≤ outMax) ∧ (s.sty.queue.contains c = true) ∧ (s.styHeld = false) ∧ (s.sty.keyFailed = false) ∧ (s.lcu.state ≠ lcDeployed ∨ (s.lcu.fuse 0xF2).testBit 0 = true) ∧ (sig.length = 4728) := by decide +kernel

/-- Witness: SettingsAndMeter, clause 5. -/
theorem wit_SettingsAndMeter_5 : let c : Call := call00 0x0C03; let s : State := svc; let stall : Nat := 6; let out_ : Nat := 64; let outMax : Nat := 7648; let sig : Bytes := zeros 4728; let ok : Bool := true; (s.admits c 0x0C03) ∧ (s.meterReading stall = none) := by decide +kernel

/-- Witness: SettingsAndMeter, clause 6. -/
theorem wit_SettingsAndMeter_6 : let c : Call := call00 0x0C03; let s : State := svc; let stall : Nat := 0; let out_ : Nat := 64; let outMax : Nat := 7647; let sig : Bytes := zeros 4728; let ok : Bool := true; (s.admits c 0x0C03) ∧ ((s.meterReading stall).isSome = true) ∧ (outMax < 7648) := by decide +kernel

/-- Witness: ResetsAndRelease, clause 2. -/
theorem wit_ResetsAndRelease_2 : let s : State := svcKey 7; (s.pins.porN = true) ∧ (s.rst.phase ≠ .inReset ∨ s.pins.sysN = true) := by decide +kernel

/-- Witness: ResetsAndRelease, clause 3. -/
theorem wit_ResetsAndRelease_3 : let s : State := { State.reset with clk := { State.reset.clk with elapsed := 50 } }; let good : Bool := false; let cool : Bool := true; let tp : Nat := 0; let tpB : Nat := 0xFF; let ff : Option Nat := none; let tr : Trims := Trims.none; (s.rst.phase = .inReset) ∧ (good = false ∨ s.mon.stop.isSome = true) := by decide +kernel

/-- Witness: ResetsAndRelease, clause 4. -/
theorem wit_ResetsAndRelease_4 : let s : State := { State.reset with lcu := { State.reset.lcu with fuses := [(0, 0xFFFFFFFF), (1, 0x10)] } }; let code : Nat := lcScrap; let tr : Trims := Trims.none; (s.rst.phase = .inReset) ∧ (s.mon.stop = none) ∧ (s.lcu.decode = .state code) ∧ (code = lcScrap ∨ code = lcInvalid) := by decide +kernel

/-- Witness: ResetsAndRelease, clause 5. -/
theorem wit_ResetsAndRelease_5 : let s : State := { State.reset with lcu := { State.reset.lcu with fuses := [(0, 0xF), (1, 1)] } }; let code : Nat := lcTestLocked; let bank : Option Nat := none; let tr : Trims := { Trims.none with rows := [4, 5], bank := some 2 }; (s.rst.phase = .inReset) ∧ (s.mon.stop = none) ∧ (s.lcu.decode = .state code) ∧ (code ≠ lcScrap) ∧ (code ≠ lcInvalid) ∧ (code ≠ lcAnalysis) ∧ (tr.failed = none) ∧ (s.sbx.zeroNet = false) ∧ (s.lcu.job = none) ∧ (s.lcu.jobs = []) ∧ (s.rst.coreDeferred = none) ∧ (({ s.lcu with state := code } : Lcu).bank? = bank) ∧ ((bank.all fun b => decide (drkCheck (s.lcu.bankKey b) = s.lcu.wordBytes (bankWord b + 16) 1)) = true) := by decide +kernel

/-- Witness: ResetsAndRelease, clause 6. -/
theorem wit_ResetsAndRelease_6 : let s : State := State.reset; let cool : Bool := false; let w : Nat := 4; let tr : Trims := Trims.none; (s.rst.phase = .inReset) ∧ (s.mon.stop = none) ∧ (s.rst.rstBusy = true) ∧ (s.pins.coolantOk = true) := by decide +kernel

/-- Witness: CoreResetAndSafeStop, clause 1. -/
theorem wit_CoreResetAndSafeStop_1 : let s : State := { svc with rst := { svc.rst with wdogTimes := [10 ^ 12 - 10 ^ 9, 5] } }; (s.serving) ∧ (s.rst.coreReset = none) ∧ ((s.rst.wdogTimes.filter fun (w : Nat) => decide (s.clk.elapsed ≤ w + 10 ^ 10)).length < 2) ∧ (s.lcu.job = none) ∧ (s.lcu.jobs = []) ∧ (s.lcu.transition = none) ∧ (s.tol.running = none) := by decide +kernel

/-- Witness: CoreResetAndSafeStop, clause 2. -/
theorem wit_CoreResetAndSafeStop_2 : let s : State := { svcKey 7 with rst := { svc.rst with wdogTimes := [10 ^ 12 - 10 ^ 9, 10 ^ 12 - 2 * 10 ^ 9, 5] } }; (s.serving) ∧ (2 ≤ (s.rst.wdogTimes.filter fun (w : Nat) => decide (s.clk.elapsed ≤ w + 10 ^ 10)).length) := by decide +kernel

/-- Witness: CoreResetAndSafeStop, clause 3. -/
theorem wit_CoreResetAndSafeStop_3 : let s : State := svcReg; let fn : Nat := 3; (s.serving) ∧ (s.grants fn true 0x010024) ∧ (s.rst.coreReset = none) ∧ (s.lcu.job = none) ∧ (s.lcu.jobs = []) ∧ (s.lcu.transition = none) ∧ (s.tol.running = none) := by decide +kernel

/-- Witness: CoreResetAndSafeStop, clause 4. -/
theorem wit_CoreResetAndSafeStop_4 : let s : State := withMse { Mse.atReset with held := [(read0, .ledger)] } svcReg; let fn : Nat := 3; (s.serving) ∧ (s.grants fn true 0x010024) := by decide +kernel

/-- Witness: CoreResetAndSafeStop, clause 5. -/
theorem wit_CoreResetAndSafeStop_5 : let s : State := { svc with rst := { svc.rst with coreReset := some (10 ^ 12 - 5000) }, hlm := { svc.hlm with staged := [⟨3, [1, 2]⟩] } }; let since : Nat := 10 ^ 12 - 5000; let ps : List Patch := [⟨3, [1, 2]⟩]; let m : Bytes := ({ s with hlm := { s.hlm with applied := ps } } : State).measureFirmware s.almDigest; (s.rst.coreReset = some since) ∧ (s.alr.quiet = false) ∧ (s.rst.queuedTicks = []) ∧ (s.rst.patchCall = none) ∧ (ps = s.hlm.staged.filter (fun p => s.lcu.svn 6 ≤ p.svn)) ∧ (m = ({ s with hlm := { s.hlm with applied := ps } } : State).measureFirmware s.almDigest) := by
  intro s since ps m
  exact ⟨by decide +kernel, by decide +kernel, by decide +kernel, by decide +kernel, by decide +kernel, rfl⟩

/-- Witness: CoreResetAndSafeStop, clause 6. -/
theorem wit_CoreResetAndSafeStop_6 : let c : Call := call00 0x0103; let s : State := { svc with rst := { svc.rst with coreReset := some (10 ^ 12 - 5000), patchCall := some c }, hlm := { svc.hlm with staged := [⟨3, [1, 2]⟩] } }; let since : Nat := 10 ^ 12 - 5000; (s.rst.coreReset = some since) ∧ (s.alr.quiet = false) ∧ (s.rst.queuedTicks = []) ∧ (s.rst.patchCall = some c) := by decide +kernel

/-- Witness: CoreResetAndSafeStop, clause 7. -/
theorem wit_CoreResetAndSafeStop_7 : let s : State := { svc with alr := { svc.alr with safeStop := true, quiet := true } }; (s.alr.safeStop = true) ∧ (s.alr.quiet = true) ∧ (s.mse.all (fun m => m.ops.isEmpty) = true) := by decide +kernel

/-- Witness: CoolantAndTamper, clause 1. -/
theorem wit_CoolantAndTamper_1 : let s : State := svcKey 7; (s.pins.coolantOk = true) ∧ (s.rst.rstBusy = false) ∧ (s.alr.log.length < 64) := by decide +kernel

/-- Witness: CoolantAndTamper, clause 2. -/
theorem wit_CoolantAndTamper_2 : let s : State := { svc with pins := { svc.pins with coolantOk := false } }; (s.pins.coolantOk = false) := by decide +kernel

/-- Witness: CoolantAndTamper, clause 3. -/
theorem wit_CoolantAndTamper_3 : let s : State := svcKey 7; let tp : Nat := 4; let tpB : Nat := 0xFF; let p : Pins := { s.pins with tamper := BitVec.ofNat 8 tp, tamperB := BitVec.ofNat 8 tpB }; let bad : List Nat := [2]; (p = { s.pins with tamper := BitVec.ofNat 8 tp, tamperB := BitVec.ofNat 8 tpB }) ∧ (bad = ((List.range 8).filter fun i => s.cfg.tamperEnable.getLsbD i && p.pairBad i && !s.pins.pairBad i)) ∧ (bad ≠ []) := by decide +kernel

/-- Witness: CoolantAndTamper, clause 4. -/
theorem wit_CoolantAndTamper_4 : let s : State := { svc with cfg := { svc.cfg with tamperEnable := 1 } }; let tp : Nat := 4; let tpB : Nat := 0xFF; let p : Pins := { s.pins with tamper := BitVec.ofNat 8 tp, tamperB := BitVec.ofNat 8 tpB }; (p = { s.pins with tamper := BitVec.ofNat 8 tp, tamperB := BitVec.ofNat 8 tpB }) ∧ (((List.range 8).filter fun i => s.cfg.tamperEnable.getLsbD i && p.pairBad i && !s.pins.pairBad i) = []) := by decide +kernel

/-- Witness: UnitResets, clause 1. -/
theorem wit_UnitResets_1 : let s : State := svcReg; let fn : Nat := 3; let unit : Nat := 0x4F; (s.grants fn true 0x010028) ∧ (unit < 256) ∧ (s.build.resettable unit = true) ∧ (s.inUnitReset unit = false) ∧ (s.alr.safeStop = false) ∧ (s.alr.quiet = false) := by decide +kernel

/-- Witness: UnitResets, clause 2. -/
theorem wit_UnitResets_2 : let s : State := svcReg; let fn : Nat := 3; let unit : Nat := 0x50; (s.grants fn true 0x010028) ∧ (unit < 256) ∧ (s.build.resettable unit = false ∨ s.inUnitReset unit = true ∨ s.alr.safeStop = true ∨ s.alr.quiet = true) := by decide +kernel

/-- Witness: UnitResets, clause 3. -/
theorem wit_UnitResets_3 : let s : State := { svc with rst := { svc.rst with unitResets := [⟨unitBooth, 0, false, false, 0⟩] } }; let unit : Nat := unitBooth; ((s.draining unit).isSome = true) ∧ (s.unitIdle unit = true) := by decide +kernel

/-- Witness: UnitResets, clause 4. -/
theorem wit_UnitResets_4 : let m : Mse := { Mse.atReset with epoch := 4, held := [(read0, .ledger)] }; let s : State := withMse m { svc with rst := { svc.rst with unitResets := [⟨0, 0, false, false, 0⟩] } }; let unit : Nat := 0; let written : Bytes := []; let r : UnitReset := ⟨0, 0, false, false, 0⟩; (unit < 0x40) ∧ (s.draining unit = some r) ∧ (s.unitIdle unit = false) ∧ (r.since + s.cfg.clk.tIdle * 1000 ≤ s.clk.elapsed) ∧ (s.mse[unit]? = some m) := by decide +kernel

/-- Witness: UnitResets, clause 5. -/
theorem wit_UnitResets_5 : let s : State := { svc with rst := { svc.rst with unitResets := [⟨0x41, 0, true, true, 3⟩] } }; let unit : Nat := 0x41; let r : UnitReset := ⟨0x41, 0, true, true, 3⟩; (s.rst.unitResets.find? (fun u => decide (u.code = unit) && u.held) = some r) ∧ (unit = unitTollgate ∨ unit = unitCrosscheck ∨ unit = unitSweeper ∨ unit = unitSteelyard ∨ (0x40 ≤ unit ∧ unit < 0xC0) ∨
      (unit = unitBooth ∧ s.tol.running = none)) := by decide +kernel

/-- Witness: UnitResets, clause 6. -/
theorem wit_UnitResets_6 : let s : State := { svc with rst := { svc.rst with unitResets := [⟨7, 0, true, true, 3⟩] } }; let unit : Nat := 7; let r : UnitReset := ⟨7, 0, true, true, 3⟩; let m : Mse := Mse.atReset; (s.rst.unitResets.find? (fun u => decide (u.code = unit) && u.held) = some r) ∧ (unit < 0x40) ∧ (s.mse[unit]? = some m) ∧ (m.held = []) ∧ (s.ldg.changes = []) := by decide +kernel

/-- Witness: PartitionResets, clause 1. -/
theorem wit_PartitionResets_1 : let s : State := svcPart ⟨2, 1, 0, true⟩; let unit : Nat := 2; let level : Nat := 2; (s.rst.rstBusy = false) ∧ (s.rst.phase = .service) ∧ (((s.partRun? unit).any fun r => !r.answered) = false) ∧ (((s.cfg.part? unit).any fun p => s.partHolds p) = false) := by decide +kernel

/-- Witness: PartitionResets, clause 2. -/
theorem wit_PartitionResets_2 : let s : State := svcPart ⟨2, 1, 0, true⟩; let unit : Nat := 2; let level : Nat := 1; (s.rst.rstBusy = false) ∧ (s.rst.phase = .service) ∧ (((s.partRun? unit).any fun r => !r.answered) = false) ∧ (level ≠ 3) := by decide +kernel

/-- Witness: PartitionResets, clause 3. -/
theorem wit_PartitionResets_3 : let s : State := { svcPart ⟨2, 3, 0, true⟩ with rst := { svc.rst with parts := [⟨2, 3, 0, true⟩], dataClosed := true } }; let unit : Nat := 2; (s.rst.rstBusy = false) ∧ (s.rst.phase = .service) ∧ (((s.partRun? unit).any fun r => !r.answered) = false) ∧ (s.rst.dataClosed = true) ∧ (s.rst.parts.all (fun r => decide (r.index = unit ∨ r.level ≠ 3)) = true) := by decide +kernel

/-- Witness: PartitionResets, clause 4. -/
theorem wit_PartitionResets_4 : let s : State := svcPart ⟨2, 3, 0, false⟩; let unit : Nat := 2; let r : PartRun := ⟨2, 3, 0, false⟩; (s.partRun? unit = some r) ∧ (r.answered = false) ∧ (s.rst.coreReset = none) ∧ (((s.cfg.part? unit).any fun p => s.partBusy p || s.partHolds p) = false) ∧ (r.level = 3) ∧ (s.dataBusy = false) := by decide +kernel

/-- Witness: PartitionResets, clause 5. -/
theorem wit_PartitionResets_5 : let s : State := svcPart ⟨2, 2, 0, false⟩; let unit : Nat := 2; let r : PartRun := ⟨2, 2, 0, false⟩; (s.partRun? unit = some r) ∧ (r.answered = false) ∧ (s.rst.coreReset = none) ∧ (((s.cfg.part? unit).any fun p => s.partBusy p || s.partHolds p) = false) ∧ (r.level ≠ 3) := by decide +kernel

/-- Witness: PartitionResets, clause 6. -/
theorem wit_PartitionResets_6 : let s : State := svcPart ⟨2, 2, 10 ^ 12 - 10000, false⟩; let unit : Nat := 2; let written : Bytes := []; let r : PartRun := ⟨2, 2, 10 ^ 12 - 10000, false⟩; (s.partRun? unit = some r) ∧ (r.answered = false) ∧ (r.since + s.cfg.clk.tPart * 1000 ≤ s.clk.elapsed) ∧ (r.level ≠ 3) ∧ (((s.cfg.part? unit).any fun p => s.partHolds p) = false) := by decide +kernel

/-- Witness: PartitionResets, clause 7. -/
theorem wit_PartitionResets_7 : let s : State := withMse { Mse.atReset with held := [(read0, .ledger)] } (svcPart ⟨2, 3, 0, false⟩); let unit : Nat := 2; let written : Bytes := []; let r : PartRun := ⟨2, 3, 0, false⟩; (s.partRun? unit = some r) ∧ (r.answered = false) ∧ (r.since + s.cfg.clk.tPart * 1000 ≤ s.clk.elapsed) ∧ (r.level = 3) ∧ (s.bth.running = none) ∧ (s.bth.queue = []) ∧ (s.tol.running = none) := by decide +kernel

/-- Witness: MseHostPort, clause 1. -/
theorem wit_MseHostPort_1 : let e : Mse := msePlain; let s : State := svcMse e; let m : Nat := 0; let r : HostReq := read00; (s.mse[m]? = some e) ∧ (r.write = false) ∧ (r.lock = false) ∧ (r.unlock = false) ∧ (r.be = 0) ∧ (r.data = []) ∧ (r.since = s.clk.elapsed) ∧ (s.mseReady m e r = true) ∧ (e.requests.any (fun q => q.write = r.write ∧ q.id = r.id) = false) ∧ (e.held = []) ∧ (s.check m e r = .pass) ∧ (s.cht.dirLost m 0 = false) ∧ (s.carveOut (sectorAddr r.sector) = false) ∧ (s.ldg.changes = []) ∧ (e.hazard? r.sector = none) ∧ (e.sectorBusy r.sector = false) := by decide +kernel

/-- Witness: MseHostPort, clause 2. -/
theorem wit_MseHostPort_2 : let e : Mse := msePlain; let s : State := svcMse e; let m : Nat := 0; let r : HostReq := write00; let k : SectorKey := .plain; let mat : Bytes := []; (s.mse[m]? = some e) ∧ (r.write = true) ∧ (r.lock = false) ∧ (r.unlock = false) ∧ (r.be = beAll) ∧ (r.since = s.clk.elapsed) ∧ (s.mseReady m e r = true) ∧ (e.requests.any (fun q => q.write = r.write ∧ q.id = r.id) = false) ∧ (e.held = []) ∧ (s.check m e r = .pass) ∧ (s.cht.dirLost m 5 = false) ∧ (s.carveOut (sectorAddr r.sector) = false) ∧ (s.ldg.changes = []) ∧ (e.hazard? r.sector = none) ∧ (e.sectorBusy r.sector = false) ∧ (s.writeKey? m r.sector = some k) ∧ (s.keyMaterial? (unitMse m) k = some mat) := by decide +kernel

/-- Witness: MseHostPort, clause 3. -/
theorem wit_MseHostPort_3 : let e : Mse := msePlain; let s : State := svcMse e; let m : Nat := 0; let r : HostReq := { write00 with be := 5 }; (s.mse[m]? = some e) ∧ (r.write = true) ∧ (r.lock = false) ∧ (r.unlock = false) ∧ (r.be ≠ beAll) ∧ (r.since = s.clk.elapsed) ∧ (s.mseReady m e r = true) ∧ (e.requests.any (fun q => q.write = r.write ∧ q.id = r.id) = false) ∧ (e.held = []) ∧ (s.check m e r = .pass) ∧ (s.cht.dirLost m 0 = false) ∧ (s.cht.dirLost m 5 = false) ∧ (s.carveOut (sectorAddr r.sector) = false) ∧ (s.ldg.changes = []) ∧ (e.hazard? r.sector = none) ∧ (e.sectorBusy r.sector = false) := by decide +kernel

/-- Witness: MseHostPort, clause 4. -/
theorem wit_MseHostPort_4 : let e : Mse := msePlain; let s : State := svcMse e; let m : Nat := 0; let r : HostReq := { read00 with lock := true }; (s.mse[m]? = some e) ∧ (r.write = false) ∧ (r.lock = true) ∧ (r.unlock = false) ∧ (r.be = 0) ∧ (r.data = []) ∧ (r.since = s.clk.elapsed) ∧ (s.mseReady m e r = true) ∧ (e.requests.any (fun q => q.write = r.write ∧ q.id = r.id) = false) ∧ (e.held = []) ∧ (s.check m e r = .pass) ∧ (s.cht.dirLost m 0 = false) ∧ (s.carveOut (sectorAddr r.sector) = false) ∧ (s.ldg.changes = []) ∧ (e.hazard? r.sector = none) ∧ (e.sectorBusy r.sector = false) := by decide +kernel

/-- Witness: MseHostPort, clause 5. -/
theorem wit_MseHostPort_5 : let p : Bytes := List.replicate 128 9; let h : Hazard := { Hazard.fresh 0 with lock := some (0, 5), plain := some p }; let e : Mse := { msePlain with hazards := [h] }; let s : State := svcMse e; let m : Nat := 0; let at_ : Nat := 5; let r : HostReq := { write00 with unlock := true, be := 7 }; let k : SectorKey := .plain; let mat : Bytes := []; (s.mse[m]? = some e) ∧ (r.write = true) ∧ (r.lock = false) ∧ (r.unlock = true) ∧ (r.since = s.clk.elapsed) ∧ (s.mseReady m e r = true) ∧ (e.requests.any (fun q => q.write = r.write ∧ q.id = r.id) = false) ∧ (e.held = []) ∧ (s.check m e r = .pass) ∧ (s.cht.dirLost m 0 = false) ∧ (s.cht.dirLost m 5 = false) ∧ (s.carveOut (sectorAddr r.sector) = false) ∧ (s.ldg.changes = []) ∧ (e.hazard? r.sector = some h) ∧ (h.lock = some (r.stall, at_)) ∧ (h.plain = some p) ∧ (h.outBuf = none) ∧ (h.fillBuf = none) ∧ (h.queue = []) ∧ (e.sectorBusy r.sector = false) ∧ (s.writeKey? m r.sector = some k) ∧ (s.keyMaterial? (unitMse m) k = some mat) := by decide +kernel

/-- Witness: MseHostPort, clause 6. -/
theorem wit_MseHostPort_6 : let e : Mse := Mse.atReset; let s : State := { svc with alr := { svc.alr with quiet := true } }; let m : Nat := 3; let lane : Nat := 2; let sector : Nat := 7; let stall : Nat := 5; let id : Nat := 9; let cls : Nat := 0; (s.mse[m]? = some e) ∧ (s.quietOpen = true) ∧ (e.spine.acks = []) ∧ (s.ldg.changes = []) := by decide +kernel

/-- Witness: MseHostPort, clause 7. -/
theorem wit_MseHostPort_7 : let e : Mse := msePlain; let s : State := svcMse e; let m : Nat := 0; let r : HostReq := { read00 with lane := 5 }; (s.mse[m]? = some e) ∧ (r.write = false) ∧ (r.lock = false) ∧ (r.unlock = false) ∧ (r.be = 0) ∧ (r.data = []) ∧ (r.since = s.clk.elapsed) ∧ (s.quietOpen = false) ∧ (s.mseReady m e r = false) ∧ (e.spine.acks = []) ∧ (s.ldg.changes = []) := by decide +kernel

/-- Witness: MseHostPort, clause 8. -/
theorem wit_MseHostPort_8 : let e : Mse := { msePlain with held := [({ read00 with lane := 3 }, .ledger)] }; let s : State := svcMse e; let m : Nat := 0; let r : HostReq := read00; (s.mse[m]? = some e) ∧ (r.write = false) ∧ (r.lock = false) ∧ (r.unlock = false) ∧ (r.be = 0) ∧ (r.data = []) ∧ (r.since = s.clk.elapsed) ∧ (s.mseReady m e r = true) ∧ (s.ldg.changes = []) ∧ (e.requests.any (fun q => q.write = r.write ∧ q.id = r.id) = true ∨ (e.held = [] ∧ s.check m e r = .refuse ∧ s.resident r.stall = true)) := by decide +kernel

/-- Witness: MseHostPort, clause 9. -/
theorem wit_MseHostPort_9 : let e : Mse := { msePlain with err := { MseErr.atReset with bad := [⟨0, false⟩] } }; let s : State := svcMse e; let m : Nat := 0; let r : HostReq := read00; (s.mse[m]? = some e) ∧ (r.write = false) ∧ (r.lock = false) ∧ (r.unlock = false) ∧ (r.be = 0) ∧ (r.data = []) ∧ (r.since = s.clk.elapsed) ∧ (s.mseReady m e r = true) ∧ (s.ldg.changes = []) ∧ (e.requests.any (fun q => q.write = r.write ∧ q.id = r.id) = false) ∧ (e.held = []) ∧ (s.check m e r = .listed) := by decide +kernel

/-- Witness: MseHostPort, clause 10. -/
theorem wit_MseHostPort_10 : let e : Mse := Mse.atReset; let s : State := svcMse e; let m : Nat := 0; let r : HostReq := read00; let c : HoldCause := .ledger; (s.mse[m]? = some e) ∧ (r.write = false) ∧ (r.lock = false) ∧ (r.unlock = false) ∧ (r.be = 0) ∧ (r.data = []) ∧ (r.since = s.clk.elapsed) ∧ (s.mseReady m e r = true) ∧ (s.ldg.changes = []) ∧ (e.requests.any (fun q => q.write = r.write ∧ q.id = r.id) = false) ∧ (e.held = []) ∧ (s.check m e r = .hold c) := by decide +kernel

/-- Witness: MseMemorySide, clause 1. -/
theorem wit_MseMemorySide_1 : let o : MemOp := { newOp .hostRead 0 1 0 false [read00] with since := 5 }; let e : Mse := { msePlain with ops := [o] }; let s : State := svcMse e; let m : Nat := 0; let lane : Nat := 1; let write : Bool := false; (s.mse[m]? = some e) ∧ (s.alr.quiet = false) ∧ (e.idsUsed.length < 1024) ∧ (e.choose s.cfg.engine.weights lane write = some o) ∧ (s.ldg.changes = []) := by decide +kernel

/-- Witness: MseMemorySide, clause 2. -/
theorem wit_MseMemorySide_2 : let o : MemOp := { newOp .sweepRead 0 1 4 false [] with since := 5 }; let e : Mse := { msePlain with ops := [o], nextId := 1023 }; let s : State := svcMse e; let m : Nat := 0; let lane : Nat := 1; let write : Bool := false; (s.mse[m]? = some e) ∧ (s.alr.quiet = false) ∧ (e.idsUsed.length < 1024) ∧ (e.chooseSweep lane write = some o) ∧ (s.ldg.changes = []) := by decide +kernel

/-- Witness: MseMemorySide, clause 3. -/
theorem wit_MseMemorySide_3 : let o : MemOp := { newOp .hostRead 0 1 0 false [read00] with id := some 7 }; let e : Mse := { msePlain with ops := [o] }; let s : State := svcMse e; let m : Nat := 0; let id : Nat := 7; let sb : Nat := 0; let data : Bytes := List.replicate 128 4; let pt : Bytes := data; let second : Bool := false; (s.mse[m]? = some e) ∧ (e.reserved.any (fun r => r.id = id ∧ ¬ r.write) = false) ∧ (e.ops.find? (fun o => o.id = some id ∧ ¬ o.write) = some o) ∧ (o.role = .hostRead) ∧ (o.attempt = 0) ∧ (s.verifyBeat m e o data sb = .pass pt second) ∧ (e.hazard? o.sector = none) ∧ (o.reqs.all (fun r => !r.write) = true) ∧ (s.ldg.changes = []) := by decide +kernel

/-- Witness: MseMemorySide, clause 4. -/
theorem wit_MseMemorySide_4 : let o : MemOp := { newOp .hostRead 0 1 0 false [read00] with id := some 7 }; let e : Mse := { msePlain with ops := [o] }; let s : State := svcMse e; let m : Nat := 0; let id : Nat := 7; let sb : Nat := 0; let check : Nat := 4; let data : Bytes := []; let err : Bool := true; (s.mse[m]? = some e) ∧ (e.reserved.any (fun r => r.id = id ∧ ¬ r.write) = false) ∧ (e.ops.find? (fun o => o.id = some id ∧ ¬ o.write) = some o) ∧ (o.role = .hostRead) ∧ (o.attempt = 0) ∧ ((err = true ∧ check = 4) ∨ (err = false ∧ s.verifyBeat m e o data sb = .fail check)) ∧ (s.ldg.changes = []) := by decide +kernel

/-- Witness: MseMemorySide, clause 5. -/
theorem wit_MseMemorySide_5 : let o : MemOp := { newOp .hostRead 0 1 0 false [read00] with id := some 7, attempt := 1 }; let e : Mse := { msePlain with ops := [o] }; let s : State := svcMse e; let m : Nat := 0; let id : Nat := 7; let sb : Nat := 0; let data : Bytes := []; (s.mse[m]? = some e) ∧ (e.reserved.any (fun r => r.id = id ∧ ¬ r.write) = false) ∧ (e.ops.find? (fun o => o.id = some id ∧ ¬ o.write) = some o) ∧ (o.role = .hostRead) ∧ (o.attempt = 1) ∧ (s.ldg.changes = []) := by decide +kernel

/-- Witness: MseMemorySide, clause 6. -/
theorem wit_MseMemorySide_6 : let o : MemOp := { newOp .hostWrite 0 1 0 true [write00] with id := some 7 }; let e : Mse := { msePlain with ops := [o], err := { MseErr.atReset with bad := [⟨0, false⟩, ⟨1, false⟩] } }; let s : State := svcMse e; let m : Nat := 0; let id : Nat := 7; (s.mse[m]? = some e) ∧ (e.reserved.find? (fun r => r.id = id ∧ r.write) = none) ∧ (e.ops.find? (fun o => o.id = some id ∧ o.write) = some o) ∧ (o.role = .hostWrite) ∧ (s.carveOut (sectorAddr o.sector) = false) ∧ (e.hazard? o.sector = none) ∧ (o.reqs.all (·.write) = true) ∧ (s.ldg.changes = []) := by decide +kernel

/-- Witness: MseMemorySide, clause 7. -/
theorem wit_MseMemorySide_7 : let r : Reserved := ⟨7, 0, true⟩; let e : Mse := { msePlain with reserved := [r] }; let s : State := svcMse e; let m : Nat := 0; let id : Nat := 7; (s.mse[m]? = some e) ∧ (e.reserved.find? (fun r => r.id = id ∧ r.write) = some r) ∧ (e.hazard? r.sector = none) ∧ (s.ldg.changes = []) := by decide +kernel

/-- Witness: MseMemorySide, clause 8. -/
theorem wit_MseMemorySide_8 : let e : Mse := { msePlain with reserved := [⟨7, 0, false⟩] }; let s : State := svcMse e; let m : Nat := 0; let id : Nat := 7; let sb : Nat := 0; let data : Bytes := []; let err : Bool := false; (s.mse[m]? = some e) ∧ (e.reserved.any (fun r => r.id = id ∧ ¬ r.write) = true) ∧ (s.ldg.changes = []) := by decide +kernel

/-- Witness: MseMemorySide, clause 9. -/
theorem wit_MseMemorySide_9 : let p : TagPending := ⟨99, 5, [⟨3, .pending, false, []⟩]⟩; let x : Nat × List Nat := (99, [1, 2]); let e : Mse := { msePlain with tagPending := [p], tags := [x] }; let s : State := svcMse e; let m : Nat := 0; let line : Nat := 99; (s.mse[m]? = some e) ∧ (e.tagPending.find? (fun p => p.line = line) = some p) ∧ (e.tags.find? (fun x => x.1 = line) = some x) ∧ (e.ops.any (fun o => o.co && o.write && decide (o.sector = line)) = false) ∧ (p.waits.any (fun w => w.stage = .pending) = true) ∧ (s.ldg.changes = []) := by decide +kernel

/-- Witness: MseTimeouts, clause 1. -/
theorem wit_MseTimeouts_1 : let e : Mse := msePlain; let s : State := svcMse e; let m : Nat := 0; let id : Nat := 7; (s.mse[m]? = some e) ∧ (e.spine.acks = []) ∧ (s.ldg.changes = []) ∧ (e.ops.find? (fun o => decide (o.id = some id) && !o.write && s.expired o.since s.tMemNs) = none) := by decide +kernel

/-- Witness: MseTimeouts, clause 2. -/
theorem wit_MseTimeouts_2 : let o : MemOp := { newOp .hostRead 0 1 0 false [read00] with id := some 7, since := 5 }; let e : Mse := { msePlain with ops := [o] }; let s : State := svcMse e; let m : Nat := 0; let id : Nat := 7; (s.mse[m]? = some e) ∧ (s.ldg.changes = []) ∧ (e.ops.find? (fun o => decide (o.id = some id) && !o.write && s.expired o.since s.tMemNs) = some o) ∧ (o.role = .hostRead) ∧ (o.attempt = 0) := by decide +kernel

/-- Witness: MseTimeouts, clause 3. -/
theorem wit_MseTimeouts_3 : let o : MemOp := { newOp .hostWrite 0 1 0 true [write00] with id := some 7 }; let e : Mse := { msePlain with ops := [o] }; let s : State := svcMse e; let m : Nat := 0; let id : Nat := 7; let r : HostReq := write00; (s.mse[m]? = some e) ∧ (s.ldg.changes = []) ∧ (e.ops.find? (fun o => decide (o.id = some id) && o.write && s.expired o.since s.tMemNs) = some o) ∧ (o.role = .hostWrite) ∧ (o.reqs = [r]) ∧ (r.write = true) ∧ (e.hazard? o.sector = none) ∧ ((s.stall? r.stall).any (·.integLose) = false) := by decide +kernel

/-- Witness: MseTimeouts, clause 4. -/
theorem wit_MseTimeouts_4 : let h : Hazard := { Hazard.fresh 0 with lock := some (0, 10 ^ 12) }; let e : Mse := { msePlain with hazards := [h] }; let s : State := { svcMse e with cfg := { svcPlain.cfg with engine := { svcPlain.cfg.engine with tLock := 1 } } }; let m : Nat := 0; let sector : Nat := 0; let stall : Nat := 0; let at_ : Nat := 10 ^ 12; (s.mse[m]? = some e) ∧ (s.ldg.changes = []) ∧ (e.hazard? sector = some h) ∧ (h.lock = some (stall, at_)) ∧ (s.clk.elapsed < at_ + s.cfg.engine.tLock * 1000) ∧ (e.spine.acks = []) := by decide +kernel

/-- Witness: MseTimeouts, clause 5. -/
theorem wit_MseTimeouts_5 : let h : Hazard := { Hazard.fresh 0 with lock := some (0, 5) }; let e : Mse := { msePlain with hazards := [h] }; let s : State := svcMse e; let m : Nat := 0; let sector : Nat := 0; let stall : Nat := 0; let at_ : Nat := 5; (s.mse[m]? = some e) ∧ (s.ldg.changes = []) ∧ (e.hazard? sector = some h) ∧ (h.lock = some (stall, at_)) ∧ (at_ + s.cfg.engine.tLock * 1000 ≤ s.clk.elapsed) ∧ (h.queue = []) ∧ (h.outBuf = none) ∧ (h.fillBuf = none) ∧ (e.sectorBusy sector = false) := by decide +kernel

/-- Witness: MseTimeouts, clause 6. -/
theorem wit_MseTimeouts_6 : let e : Mse := msePlain; let s : State := svcMse e; let m : Nat := 0; let lane : Nat := 3; let pass : Bool := true; (s.mse[m]? = some e) ∧ (s.ldg.changes = []) ∧ (e.testing.contains lane = false) ∧ (e.spine.acks = []) := by decide +kernel

/-- Witness: MseTimeouts, clause 7. -/
theorem wit_MseTimeouts_7 : let e : Mse := { msePlain with testing := [3] }; let s : State := svcMse e; let m : Nat := 0; let lane : Nat := 3; let pass : Bool := false; (s.mse[m]? = some e) ∧ (s.ldg.changes = []) ∧ (e.testing.contains lane = true) ∧ (e.ops.find? (fun o => o.attempt = 2 ∧ o.lane = lane ∧ o.laneTest.isNone) = none) := by decide +kernel

/-- Witness: MseTimeouts, clause 8. -/
theorem wit_MseTimeouts_8 : let o : MemOp := { newOp .hostRead 0 3 0 false [read00] with attempt := 2, check := 3, second := some false }; let e : Mse := { msePlain with testing := [3], ops := [o] }; let s : State := svcMse e; let m : Nat := 0; let lane : Nat := 3; let second : Bool := false; let r : HostReq := read00; (s.mse[m]? = some e) ∧ (s.ldg.changes = []) ∧ (e.testing.contains lane = true) ∧ (e.ops.find? (fun o => o.attempt = 2 ∧ o.lane = lane ∧ o.laneTest.isNone) = some o) ∧ (o.second = some second) ∧ (o.role = .hostRead) ∧ (o.reqs = [r]) ∧ (r.write = false) ∧ (e.hazard? o.sector = none) ∧ (e.listed o.sector = false) ∧ ((s.stall? r.stall).any (·.integLose) = false) := by decide +kernel

/-- Witness: TileMessages, clause 1. -/
theorem wit_TileMessages_1 : let w : TileSweep := ⟨⟨false, 0⟩, 0, 1, false⟩; let q : List SpineMsg := [.squash 5]; let e : Mse := { msePlain with spine := { Spine.atReset with queue := [.adopt w 0, .squash 5] }, held := [(read00, .fill 0)] }; let s : State := svcMse e; let m : Nat := 0; let stall : Nat := 0; (s.mse[m]? = some e) ∧ (s.inUnitReset (unitMse m) = false) ∧ (e.spine.queue = .adopt w stall :: q) ∧ (s.ldg.changes = []) := by decide +kernel

/-- Witness: TileMessages, clause 2. -/
theorem wit_TileMessages_2 : let q : List SpineMsg := [.squash 5]; let e : Mse := { msePlain with spine := { Spine.atReset with queue := [.retire 5 1, .squash 5] } }; let s : State := svcMse e; let m : Nat := 0; let stall : Nat := 5; let gen : Nat := 1; (s.mse[m]? = some e) ∧ (s.inUnitReset (unitMse m) = false) ∧ (e.spine.queue = .retire stall gen :: q) ∧ (s.ldg.changes = []) := by decide +kernel

/-- Witness: TileMessages, clause 3. -/
theorem wit_TileMessages_3 : let a : SpineMsg × List (Bool × Nat) := (.retire 5 1, []); let e : Mse := { msePlain with spine := { Spine.atReset with acks := [a] } }; let s : State := svcMse e; let m : Nat := 0; (s.mse[m]? = some e) ∧ (e.spine.acks = [a]) ∧ (a.1.isFence = true) ∧ (a.2.all (fun w => e.requests.any fun r => decide (r.write = w.1 ∧ r.id = w.2)) = true) ∧ (s.ldg.changes = []) := by decide +kernel

/-- Witness: TileMessages, clause 4. -/
theorem wit_TileMessages_4 : let q : List SpineMsg := []; let e : Mse := { msePlain with spine := { Spine.atReset with queue := [.squash 0] }, held := [(read00, .fill 0)] }; let s : State := svcMse e; let m : Nat := 0; let stall : Nat := 0; (s.mse[m]? = some e) ∧ (e.spine.queue = .squash stall :: q) ∧ (e.hazards = []) ∧ (s.ldg.changes = []) := by decide +kernel

/-- Witness: TileMessages, clause 5. -/
theorem wit_TileMessages_5 : let r : RegionId := ⟨false, 0⟩; let q : List SpineMsg := []; let e : Mse := { msePlain with spine := { Spine.atReset with queue := [.invalidate r] } }; let s : State := svcMse e; let m : Nat := 0; (s.mse[m]? = some e) ∧ (s.inUnitReset (unitMse m) = false) ∧ (e.spine.queue = .invalidate r :: q) ∧ (s.ldg.changes = []) := by decide +kernel

/-- Witness: TileMessages, clause 6. -/
theorem wit_TileMessages_6 : let q : List SpineMsg := []; let e : Mse := { msePlain with spine := { Spine.atReset with queue := [.refusal 5 true] } }; let s : State := svcMse e; let m : Nat := 0; let stall : Nat := 5; let on : Bool := true; (m < 0x40) ∧ (s.mse[m]? = some e) ∧ (s.inUnitReset m = false) ∧ (e.spine.queue = .refusal stall on :: q) ∧ (s.ldg.changes = []) := by decide +kernel

/-- Witness: TileMessages, clause 7. -/
theorem wit_TileMessages_7 : let q : List SpineMsg := []; let l : Lse := { Lse.atReset with spine := { Spine.atReset with queue := [.refusal 5 true] } }; let s : State := { svc with lse := [l] }; let i : Nat := 0; let stall : Nat := 5; let on : Bool := true; (i < 0x40) ∧ (s.lse[i]? = some l) ∧ (l.spine.queue = .refusal stall on :: q) := by decide +kernel

/-- Witness: TileMessages, clause 8. -/
theorem wit_TileMessages_8 : let q : List SpineMsg := []; let h : Hse := { Hse.atReset with spine := { Spine.atReset with queue := [.refusal 5 false], refused := [5] } }; let s : State := { svc with hse := [h] }; let i : Nat := 0; let stall : Nat := 5; let on : Bool := false; (s.hse[i]? = some h) ∧ (h.spine.queue = .refusal stall on :: q) := by decide +kernel

/-- Witness: TileMessages, clause 9. -/
theorem wit_TileMessages_9 : let e : Mse := msePlain; let s : State := svcMse e; let m : Nat := 0; let index : Nat := 0; let pool : Bool := false; (s.mse[m]? = some e) ∧ (s.ldg.changes = []) ∧ (e.spine.acks = []) ∧ (e.held.any (fun p => p.2 = .ledger ∧ s.regionOf (sectorAddr p.1.sector) = some ⟨pool, index⟩) = false) := by decide +kernel

/-- Witness: TileMessages, clause 10. -/
theorem wit_TileMessages_10 : let e : Mse := { Mse.atReset with held := [(read00, .ledger)] }; let s : State := svcMse e; let m : Nat := 0; let index : Nat := 0; let pool : Bool := false; (s.mse[m]? = some e) ∧ (s.ldg.changes = []) ∧ (e.held.any (fun p => p.2 = .ledger ∧ s.regionOf (sectorAddr p.1.sector) = some ⟨pool, index⟩) = true) := by decide +kernel

/-- Witness: TileMessages, clause 11. -/
theorem wit_TileMessages_11 : let s : State := svc; let line : Nat := 3; let data : Bytes := []; (s.ldg.poolReads.contains line = false) := by decide +kernel

/-- Witness: TileMessages, clause 12. -/
theorem wit_TileMessages_12 : let s : State := { svc with ldg := { svc.ldg with poolReads := [3] } }; let line : Nat := 3; let c := gcmSeal (s.storeKey 4) (storeNonce s.ldg.storeId 0) (leBytes 4 3) (zeros 112); let data : Bytes := c.1 ++ c.2; (s.ldg.poolReads.contains line = true) ∧ (s.mse.all (fun e => e.held.isEmpty && e.hazards.isEmpty) = true) ∧ ((gcmOpen (s.storeKey 4) (storeNonce s.ldg.storeId ((assocGet line s.ldg.versions).getD 0)) (leBytes 4 line) (data.take 112)
      (slice data 112 16)).isSome = true) := by decide +kernel

/-- Witness: TileMessages, clause 13. -/
theorem wit_TileMessages_13 : let e : Mse := Mse.atReset; let s : State := { svc with epo := { svc.epo with epoch := 9, unacked := [3, 4] } }; let m : Nat := 3; (s.mse[m]? = some e) ∧ (s.epo.unacked.contains m = true) ∧ (s.ldg.changes = []) ∧ (e.spine.acks = []) := by decide +kernel

/-- Witness: SweeperSteps, clause 1. -/
theorem wit_SweeperSteps_1 : let o : SweepOrder := ⟨.zero, ⟨false, 0⟩, 5, 0, 0, false⟩; let s : State := { svc with swp := { svc.swp with queue := [o] }, ldg := { svc.ldg with flight := some ⟨1, 1, []⟩ } }; let k : Nat := 0; (firstFree s.swp.slots 0 16 = some k) ∧ (s.nextOrder = some o) ∧ (s.ald.full = true) ∧ (s.swp.paused = false) ∧ (s.rst.coreReset = none) ∧ (s.alr.quiet = false) ∧ (s.adoptPending o = false) ∧ (s.ldg.flight.isSome = true) := by decide +kernel

/-- Witness: SweeperSteps, clause 2. -/
theorem wit_SweeperSteps_2 : let s : State := { svc with swp := { svc.swp with paused := true } }; (s.ald.full = false ∨ s.swp.paused = true ∨ s.rst.coreReset.isSome = true ∨ s.alr.quiet = true) := by decide +kernel

theorem stride_done (w : SweepSlot) (h : w.done = List.range 512) : w.strideDone = true := by simp [SweepSlot.strideDone, h]

/-- Witness: SweeperSteps, clause 3. -/
theorem wit_SweeperSteps_3 : let w : SweepSlot := ⟨⟨.key, ⟨false, 0⟩, 5, 0, 1, false⟩, 63, List.range 512, 0, false, 4⟩; let s : State := { svc with swp := { svc.swp with slots := [(2, w)] }, ldg := { svc.ldg with flight := some ⟨1, 1, []⟩ } }; let k : Nat := 2; (assocGet k s.swp.slots = some w) ∧ (w.waiting = false) ∧ (w.strideDone = true) ∧ ((w.order.kind = .zero → w.stride < 63)) ∧ (s.ldg.flight.isSome = true) := by
  intro w s k
  exact ⟨by decide +kernel, rfl, stride_done w (by decide +kernel), by decide +kernel, by decide +kernel⟩

/-- Witness: SweeperSteps, clause 4. -/
theorem wit_SweeperSteps_4 : let w : SweepSlot := ⟨⟨.key, ⟨false, 0⟩, 5, 0, 1, false⟩, 63, [], 0, false, 4⟩; let s : State := { svc with swp := { svc.swp with slots := [(2, w)] } }; let k : Nat := 2; (assocGet k s.swp.slots = some w) ∧ (w.strideDone = false) := by decide +kernel

/-- Witness: SweeperSteps, clause 5. -/
theorem wit_SweeperSteps_5 : let w : SweepSlot := ⟨⟨.zero, ⟨false, 0⟩, 5, 0, 0, false⟩, 63, List.range 512, 0, false, 4⟩; let s : State := { svc with swp := { svc.swp with slots := [(2, w)] }, ldg := { svc.ldg with flight := some ⟨1, 1, []⟩, localEntries := [(0, ⟨5, 0, .zeroing, 3, true⟩)] } }; let k : Nat := 2; let e : LdgEntry := ⟨5, 0, .sealed, 3, false⟩; (assocGet k s.swp.slots = some w) ∧ (w.order.kind = .zero) ∧ (63 ≤ w.stride) ∧ (w.strideDone = true) ∧ (s.ldg.flight.isSome = true) ∧ (s.stallState w.order.stall ≠ .frozen) ∧ (e = { s.entry w.order.region with state := .sealed, sweep := false }) := by
  intro w s k e
  exact ⟨by decide +kernel, rfl, Nat.le_refl 63, stride_done w (by decide +kernel), by decide +kernel, by decide +kernel, by decide +kernel⟩

/-- Witness: SweeperSteps, clause 6. -/
theorem wit_SweeperSteps_6 : let k : KeySweep := ⟨5, 0, 1, false, false⟩; let s : State := { svc with swp := { svc.swp with sweeps := [k] } }; let stall : Nat := 5; (s.swp.sweeps.find? (fun k => k.stall = stall) = some k) ∧ (k.retiring = false) ∧ (s.swp.queue.any (fun o => decide (o.stall = stall ∧ (o.kind = .key ∨ o.kind = .band)) && !o.bootOld) = false) ∧ (s.swp.slots.any (fun p => decide (p.2.order.stall = stall ∧ (p.2.order.kind = .key ∨ p.2.order.kind = .band)) && !p.2.order.bootOld) = false) := by decide +kernel

/-- Witness: SweeperSteps, clause 7. -/
theorem wit_SweeperSteps_7 : let k : KeySweep := ⟨5, 0, 1, true, false⟩; let h : Nat := 0x510000; let d : StallData := { StallData.fresh with keys := [keyE 0x510000, { keyE 0x510000 with gen := 1 }] }; let s : State := { svc with swp := { svc.swp with sweeps := [k] }, stl := { svc.stl with data := [(5, d)] }, sbx := { svc.sbx with slots := [(0, KeySlot.fresh h 0 0 [1])] } }; let stall : Nat := 5; (s.swp.sweeps.find? (fun k => k.stall = stall) = some k) ∧ (k.retiring = true) ∧ (s.spineHolds (.retire stall k.old) = false) ∧ (s.regionHandle stall = some h) ∧ (s.stallData? stall = some d) := by decide +kernel

/-- Witness: SweeperSteps, clause 8. -/
theorem wit_SweeperSteps_8 : let s : State := { svcKey bootHandle with ald := { svc.ald with harbourReseal := true } }; (s.ald.harbourReseal = true) ∧ (s.ldg.localEntries.any (fun p => decide (p.2.state = .boot)) = false) ∧ (s.swp.queue.any (·.bootOld) = false) ∧ (s.swp.slots.any (fun p => p.2.order.bootOld) = false) := by decide +kernel

/-- Witness: SweeperSteps, clause 9. -/
theorem wit_SweeperSteps_9 : let s : State := { svc with swp := { svc.swp with yield := some (10 ^ 12, 10 ^ 12 + 1) }, cfg := { svc.cfg with engine := { svc.cfg.engine with yieldMax := 10 } } }; let first : Nat := 10 ^ 12; let till : Nat := 10 ^ 12 + 1; (s.swp.yield = some (first, till)) ∧ (s.clk.elapsed < min till (first + s.cfg.engine.yieldMax * 1000000)) := by decide +kernel

/-- Witness: SweeperSteps, clause 10. -/
theorem wit_SweeperSteps_10 : let s : State := { svc with swp := { svc.swp with yield := some (5, 10 ^ 12 + 1) } }; let first : Nat := 5; let till : Nat := 10 ^ 12 + 1; (s.swp.yield = some (first, till)) ∧ (min till (first + s.cfg.engine.yieldMax * 1000000) ≤ s.clk.elapsed) := by decide +kernel

/-- Witness: LedgerStore, clause 1. -/
theorem wit_LedgerStore_1 : let r : DeltaRecord := ⟨7, 9, [.epoch 4 5]⟩; let s : State := { svc with ldg := { svc.ldg with flight := some r } }; (s.ldg.flight = some r) ∧ (s.alr.quiet = false) ∧ (r.items.any (fun i => match i with | .base _ => true | _ => false) = false) ∧ (s.ldg.items = []) ∧ (s.ldg.sinceBase + 1 < 131072) := by decide +kernel

/-- Witness: LedgerStore, clause 2. -/
theorem wit_LedgerStore_2 : let s : State := { svc with alr := { svc.alr with quiet := true }, ldg := { svc.ldg with flight := some ⟨7, 9, [.epoch 4 5]⟩ } }; (s.alr.quiet = true) := by decide +kernel

/-- Witness: LedgerStore, clause 3. -/
theorem wit_LedgerStore_3 : let r : DeltaRecord := ⟨7, 9, [.base (zeros 48)]⟩; let s : State := { svc with ldg := { svc.ldg with flight := some r, baseBusy := true, restoring := true } }; let sha : Bytes := zeros 48; (s.ldg.flight = some r) ∧ (s.alr.quiet = false) ∧ (r.items = [.base sha]) ∧ (s.ldg.items = []) := by decide +kernel

/-- Witness: LedgerStore, clause 4. -/
theorem wit_LedgerStore_4 : let e : LdgEntry := ⟨5, 0, .sealed, 3, false⟩; let s : State := { svc with ldg := { svc.ldg with store := { svc.ldg.store with localEntries := [(17, e)] }, flight := some ⟨1, 1, []⟩ } }; let index : Nat := 17; let x : Stall := stallOf .keyed; (assocGet index s.ldg.store.localEntries = some e) ∧ (e.owner ≠ 0) ∧ (s.stall? e.owner = some x) ∧ (x.state ≠ .lost) ∧ (x.state ≠ .removing) := by decide +kernel

/-- Witness: LedgerStore, clause 5. -/
theorem wit_LedgerStore_5 : let s : State := svc; let row : Nat := 3; let pass : Bool := true; (s.ldg.rowTests.contains row = false) := by decide +kernel

/-- Witness: LedgerStore, clause 6. -/
theorem wit_LedgerStore_6 : let s : State := { svc with ldg := { svc.ldg with rowTests := [3] } }; let row : Nat := 3; (s.ldg.rowTests.contains row = true) := by decide +kernel

/-- Witness: LedgerStore, clause 7. -/
theorem wit_LedgerStore_7 : let s : State := { svc with ldg := { svc.ldg with rowTests := [3] } }; let row : Nat := 3; (s.ldg.rowTests.contains row = true) ∧ (s.cht.rows.length < 64) := by decide +kernel

/-- Witness: LedgerStore, clause 8. -/
theorem wit_LedgerStore_8 : let s : State := { svc with ldg := { svc.ldg with rowTests := [3] }, cht := { svc.cht with rows := List.range 64 } }; let row : Nat := 3; (s.ldg.rowTests.contains row = true) ∧ (64 ≤ s.cht.rows.length) := by decide +kernel

/-- Witness: LinkTransmission, clause 1. -/
theorem wit_LinkTransmission_1 : let e : Lse := lseUp; let s : State := svcLse e; let l : Nat := 0; let kind : Nat := 0; let stall : Nat := 5; let dst : Nat := 2; let tc : Nat := 1; let addr : Nat := 64; let id : Nat := 9; let nbytes : Nat := 4; let k : Nat := 4; let data : Bytes := []; let w : Window := { reqStall := 5, dst := 2, tstall := 6, base := 0, size := 10, rights := 15 }; let u : UnitSpec := { kind := 0, sub := 0, tstall := 6, id := 9, nbytes := 4, addr := 64, tc := 1, data := [], stall := some 5, outId := some 9 }; (s.lse[l]? = some e) ∧ (s.lseReady l e true nbytes = true) ∧ (kind < 4) ∧ (tc < 4) ∧ (e.out.any (fun x => x.id = id) = false) ∧ (e.usable = true) ∧ (s.ald.full = true) ∧ (dst = e.peerChip) ∧ (linkSizeOk kind addr nbytes = true) ∧ (addr < 2 ^ 44) ∧ (e.spine.refused.contains stall = false) ∧ (s.refusesStall stall = false) ∧ (s.windowFor stall dst kind addr nbytes = some (k, w)) ∧ (u = ⟨kind, 0, w.tstall, id, nbytes, addr, tc, if kind = 0 then [] else (padTo nbytes data).take nbytes, some stall, some id⟩) ∧ (e.carries u) := by decide +kernel

/-- Witness: LinkTransmission, clause 2. -/
theorem wit_LinkTransmission_2 : let e : Lse := lseUp; let s : State := svcLse e; let l : Nat := 0; let kind : Nat := 1; let stall : Nat := 5; let dst : Nat := 2; let tc : Nat := 1; let addr : Nat := 64; let id : Nat := 9; let nbytes : Nat := 65; let data : Bytes := []; (s.lse[l]? = some e) ∧ (s.lseReady l e true nbytes = true) ∧ (kind < 4) ∧ (tc < 4) ∧ (e.out.any (fun x => x.id = id) = true ∨ e.usable = false ∨ s.ald.full = false ∨ dst ≠ e.peerChip ∨
      linkSizeOk kind addr nbytes = false ∨ 2 ^ 44 ≤ addr ∨ e.spine.refused.contains stall = true ∨ s.refusesStall stall = true ∨
      s.windowFor stall dst kind addr nbytes = none) := by decide +kernel

/-- Witness: LinkTransmission, clause 3. -/
theorem wit_LinkTransmission_3 : let e : Lse := lseUp; let s : State := { svcLse e with alr := { svc.alr with quiet := true } }; let l : Nat := 0; let kind : Nat := 0; let stall : Nat := 5; let dst : Nat := 2; let tc : Nat := 1; let addr : Nat := 64; let id : Nat := 9; let nbytes : Nat := 4; let data : Bytes := []; (s.lse[l]? = some e) ∧ (s.quietOpen = true) := by decide +kernel

/-- Witness: LinkTransmission, clause 4. -/
theorem wit_LinkTransmission_4 : let r : InReq := ⟨9, 0, 4, 1⟩; let e : Lse := { lseUp with inbound := [r] }; let s : State := svcLse e; let l : Nat := 0; let kind : Nat := 4; let id : Nat := 9; let st : Nat := 0; let data : Bytes := [1, 2, 3, 4]; let u : UnitSpec := { kind := 4, sub := 0, tstall := 0, id := 9, nbytes := 4, addr := 0, tc := 1, data := [1, 2, 3, 4], stall := none, outId := none }; (s.lse[l]? = some e) ∧ (s.lseReady l e false data.length = true) ∧ (e.inbound.find? (fun r => r.id = id ∧ respKind r.kind = kind) = some r) ∧ (u = ⟨kind, st % 4, 0, id, if kind < 6 then r.nbytes else 0, 0, r.tc,
      if kind < 6 ∧ st % 4 = 0 then (padTo r.nbytes data).take r.nbytes else [], none, none⟩) ∧ (e.carries u) := by decide +kernel

/-- Witness: LinkTransmission, clause 5. -/
theorem wit_LinkTransmission_5 : let e : Lse := lseUp; let s : State := svcLse e; let l : Nat := 0; let kind : Nat := 4; let id : Nat := 9; let st : Nat := 0; let data : Bytes := [1, 2, 3, 4]; (s.lse[l]? = some e) ∧ (s.lseReady l e false data.length = true) ∧ (e.inbound.find? (fun r => r.id = id ∧ respKind r.kind = kind) = none) := by decide +kernel

/-- Witness: LinkTransmission, clause 6. -/
theorem wit_LinkTransmission_6 : let u : TxUnit := ⟨[1, 2], some 5, some 9, false⟩; let rest : List TxUnit := []; let e : Lse := { lseUp with txBuf := [u], out := [{ out0 with sentAt := none }] }; let s : State := svcLse e; let l : Nat := 0; (s.lse[l]? = some e) ∧ (s.alr.quiet = false) ∧ (s.rst.dataClosed = false) ∧ (e.halts = false) ∧ (s.inUnitReset (unitLse l) = false) ∧ (e.txBuf = u :: rest) ∧ (e.tx.kgen < 255) ∧ (e.rx.kgen < 255) := by decide +kernel

/-- Witness: LinkTransmission, clause 7. -/
theorem wit_LinkTransmission_7 : let o : OutReq := { out0 with sentAt := some (10 ^ 12 - 99999) }; let e : Lse := { lseUp with out := [o] }; let s : State := svcLse e; let l : Nat := 0; let id : Nat := 9; let at_ : Nat := 10 ^ 12 - 99999; (s.lse[l]? = some e) ∧ (e.out.find? (fun o => o.id = id) = some o) ∧ (o.sentAt = some at_) ∧ (s.clk.elapsed < at_ + s.cfg.engine.tDead * 1000) := by decide +kernel

/-- Witness: LinkTransmission, clause 8. -/
theorem wit_LinkTransmission_8 : let o : OutReq := { out0 with sentAt := some (10 ^ 12 - 100000) }; let e : Lse := { lseUp with out := [o] }; let s : State := svcLse e; let l : Nat := 0; let id : Nat := 9; let at_ : Nat := 10 ^ 12 - 100000; (s.lse[l]? = some e) ∧ (e.out.find? (fun o => o.id = id) = some o) ∧ (o.sentAt = some at_) ∧ (at_ + s.cfg.engine.tDead * 1000 ≤ s.clk.elapsed) ∧ (e.revokes = []) := by decide +kernel

/-- Witness: LinkReceive, clause 1. -/
theorem wit_LinkReceive_1 : let e : Lse := lseUp; let s : State := svcLse e; let l : Nat := 0; let unit : Bytes := [1]; (s.lse[l]? = some e) ∧ (s.serving) ∧ (s.ald.noAlmanac = false) ∧ (e.down = false) ∧ (s.inUnitReset (unitLse l) = false) ∧ (e.rxBytes + unit.length ≤ 32768) := by decide +kernel

/-- Witness: LinkReceive, clause 2. -/
theorem wit_LinkReceive_2 : let e : Lse := { lseUp with failures := [10 ^ 12 - 5, 10 ^ 12 - 1000000] }; let s : State := svcLse e; let l : Nat := 0; let unit : Bytes := zeros 48; (s.lse[l]? = some e) ∧ (s.serving) ∧ (s.ald.noAlmanac = false) ∧ (e.down = false) ∧ (s.inUnitReset (unitLse l) = false) ∧ (e.rxBytes + unit.length ≤ 32768) ∧ (leField unit 6 1 ≠ 1) ∧ ((e.failures.filter fun t => s.clk.elapsed < t + 1000000).length + 1 < s.cfg.engine.integLimit) := by decide +kernel

/-- Witness: LinkReceive, clause 3. -/
theorem wit_LinkReceive_3 : let e : Lse := lseUp; let s : State := svcLse e; let l : Nat := 0; let tc : Nat := 0; let unit : Bytes := unit0; let pt : Bytes := store0.inner ++ store0.data; let u : RxUnit := rxUnit 2 0 pt; (s.lse[l]? = some e) ∧ (s.serving) ∧ (s.ald.noAlmanac = false) ∧ (e.down = false) ∧ (s.inUnitReset (unitLse l) = false) ∧ (e.rxBytes + unit.length ≤ 32768) ∧ (48 ≤ unit.length) ∧ (unit.length ≤ 4144) ∧ (leField unit 6 1 = 1) ∧ (leField unit 7 1 = 0) ∧ (leField unit 0 2 = e.peerChip) ∧ (leField unit 2 2 = s.dom.chip) ∧ (leField unit 4 1 % 64 = e.peerPort) ∧ (tc = leField unit 4 1 / 64) ∧ (e.keyed = true) ∧ (e.rxNext = none) ∧ (e.resync = false) ∧ (leField unit 5 1 = e.rx.kgen) ∧ (e.tx.kgen < 255) ∧ (e.rx.kgen < 255) ∧ (gcmOpen e.rx.key (linkNonce (leField unit 0 2) (leField unit 4 1 % 64) tc e.rx.kgen (leField unit 8 8)) (unit.take 16)
      (slice unit 16 (unit.length - 32)) (unit.drop (unit.length - 16)) = some pt) ∧ (u = rxUnit (leField unit 0 2) tc pt) ∧ (u.formed = true) ∧ (u.kind ≠ 7) ∧ (u.kind ≠ 3) ∧ (leField unit 8 8 = e.rx.seq.getD tc 0) ∧ ((e.rx.count tc (leField unit 8 8 + 1) u.payload.length).worn = false) := by decide +kernel

/-- Witness: LinkReceive, clause 4. -/
theorem wit_LinkReceive_4 : let e : Lse := { lseUp with rx := { lseUp.rx with seq := [1, 0, 0, 0] } }; let s : State := svcLse e; let l : Nat := 0; let tc : Nat := 0; let unit : Bytes := unit0; let pt : Bytes := store0.inner ++ store0.data; (s.lse[l]? = some e) ∧ (s.serving) ∧ (s.ald.noAlmanac = false) ∧ (e.down = false) ∧ (s.inUnitReset (unitLse l) = false) ∧ (e.rxBytes + unit.length ≤ 32768) ∧ (48 ≤ unit.length) ∧ (unit.length ≤ 4144) ∧ (leField unit 6 1 = 1) ∧ (leField unit 7 1 = 0) ∧ (leField unit 0 2 = e.peerChip) ∧ (leField unit 2 2 = s.dom.chip) ∧ (leField unit 4 1 % 64 = e.peerPort) ∧ (tc = leField unit 4 1 / 64) ∧ (e.keyed = true) ∧ (e.rxNext = none) ∧ (e.resync = false) ∧ (leField unit 5 1 = e.rx.kgen) ∧ (e.tx.kgen < 255) ∧ (e.rx.kgen < 255) ∧ (gcmOpen e.rx.key (linkNonce (leField unit 0 2) (leField unit 4 1 % 64) tc e.rx.kgen (leField unit 8 8)) (unit.take 16)
      (slice unit 16 (unit.length - 32)) (unit.drop (unit.length - 16)) = some pt) ∧ ((rxUnit (leField unit 0 2) tc pt).formed = true) ∧ ((rxUnit (leField unit 0 2) tc pt).kind ≠ 7) ∧ (leField unit 8 8 < e.rx.seq.getD tc 0) ∧ ((e.failures.filter fun t => s.clk.elapsed < t + 1000000).length + 1 < s.cfg.engine.integLimit) := by decide +kernel

/-- Witness: LinkReceive, clause 5. -/
theorem wit_LinkReceive_5 : let u : RxUnit := rxUnit 2 0 (store0.inner ++ store0.data); let e : Lse := { lseUp with rxBuf := [u] }; let s : State := svcLse e; let l : Nat := 0; (s.lse[l]? = some e) ∧ (e.firstHost = some u) ∧ (u.kind < 4) ∧ (e.inbound.length < 1024) ∧ (s.alr.quiet = false) := by decide +kernel

/-- Witness: LinkReceive, clause 6. -/
theorem wit_LinkReceive_6 : let u : RxUnit := { rx7 0 [1, 2, 3, 4] with kind := 4, id := 9 }; let o : OutReq := out0; let e : Lse := { lseUp with rxBuf := [u], out := [o] }; let s : State := svcLse e; let l : Nat := 0; let st : PortStatus := .ok; (s.lse[l]? = some e) ∧ (e.firstHost = some u) ∧ (4 ≤ u.kind) ∧ (s.alr.quiet = false) ∧ (e.out.find? (fun o => o.id = u.id ∧ respKind o.kind = u.kind) = some o) ∧ (e.revokes = []) ∧ (st = portStatus u.sub) := by decide +kernel

/-- Witness: LinkReceive, clause 7. -/
theorem wit_LinkReceive_7 : let e : Lse := { lseUp with wantTx := true }; let s : State := svcLse e; let l : Nat := 0; let g : Nat := 1; (s.lse[l]? = some e) ∧ (e.secret ≠ []) ∧ (e.wantTx = true) ∧ (e.resyncDue = false) ∧ (e.rxNext = none) ∧ (g = (if e.tx.worn then e.tx.kgen + 1 else max (e.tx.kgen + 1) e.rx.kgen)) := by decide +kernel

/-- Witness: LinkReceive, clause 8. -/
theorem wit_LinkReceive_8 : let u : RxUnit := rx7 5 []; let e : Lse := { lseUp with rxBuf := [u], rx := { lseUp.rx with kgen := 1 } }; let s : State := svcLse e; let l : Nat := 0; (s.lse[l]? = some e) ∧ (e.control [5] = some u) := by decide +kernel

/-- Witness: Windows, clause 1. -/
theorem wit_Windows_1 : let e : Lse := lseUp; let s : State := { svcLse e with ldg := { svc.ldg with localEntries := [(0, entryOf 5 .sealed)] } }; let c : Call := call5 0x0501; let reqChip : Nat := 2; let reqStall : Nat := 7; let rights : Nat := 1; let base : Nat := 0; let size : Nat := 1; let l : Nat := 0; let u : UnitSpec := ctrlUnit 1 (leBytes 2 7 ++ leBytes 2 5 ++ leBytes 1 1 ++ zeros 3 ++ leBytes 4 0 ++ leBytes 4 1); (s.admits c 0x0501) ∧ (reqStall < 4096) ∧ (rights < 16) ∧ (0 < size) ∧ (size ≤ 2 ^ 20) ∧ (s.ownsSealed c.stall (base * 4096) ((base + size) * 4096) = true) ∧ (s.lse.zipIdx.find? (fun p => p.1.peerChip = reqChip ∧ p.1.usable) = some (e, l)) ∧ (u = ctrlUnit 1 (leBytes 2 reqStall ++ leBytes 2 c.stall ++ leBytes 1 rights ++ zeros 3 ++ leBytes 4 base ++ leBytes 4 size)) ∧ (e.carries u) := by decide +kernel

/-- Witness: Windows, clause 2. -/
theorem wit_Windows_2 : let e := lseUp; let s : State := svcLse e; let c : Call := call5 0x0501; let reqChip : Nat := 2; let reqStall : Nat := 7; let rights : Nat := 1; let base : Nat := 0; let size : Nat := 1; (s.admits c 0x0501) ∧ (reqStall < 4096) ∧ (rights < 16) ∧ (0 < size) ∧ (size ≤ 2 ^ 20) := by decide +kernel

/-- Witness: Windows, clause 3. -/
theorem wit_Windows_3 : let u : RxUnit := rx7 1 (leBytes 2 7 ++ leBytes 2 5 ++ leBytes 1 1 ++ zeros 3 ++ leBytes 4 0 ++ leBytes 4 1); let e : Lse := { lseUp with rxBuf := [u] }; let s : State := svcLse e; let l : Nat := 0; let k : Nat := 0; (s.lse[l]? = some e) ∧ (e.control [1] = some u) ∧ (s.freeWindow = some k) ∧ (e.carries (ctrlUnit 2 (leBytes 2 k))) := by decide +kernel

/-- A Remote Window Table whose 1,024 entries are all taken. -/
def fullWindows : List (Nat × Window) :=
  (List.range 1024).map fun k => (k, { reqStall := 5, dst := 2, tstall := 6, base := 0, size := 10, rights := 15 })

theorem fullWindows_full : firstFree fullWindows 0 1024 = none :=
  firstFree_none 1024 0 fun j _ h => assocGet_map (fun _ => _) j _ (List.mem_range.mpr (by omega))

/-- A state with that table and an LSE 0. -/
def svcWinFull (e : Lse) : State := { svcLse e with rwt := fullWindows }

/-- Witness: Windows, clause 4. -/
theorem wit_Windows_4 : let u : RxUnit := rx7 1 (leBytes 2 7 ++ leBytes 2 5 ++ leBytes 1 1 ++ zeros 3 ++ leBytes 4 0 ++ leBytes 4 1); let e : Lse := { lseUp with rxBuf := [u] }; let s : State := svcWinFull e; let l : Nat := 0; (s.lse[l]? = some e) ∧ (e.control [1] = some u) ∧ (s.freeWindow = none) ∧ (e.carries (ctrlUnit 2 (leBytes 2 0xFFFF))) := by
  intro u e s l
  exact ⟨by decide +kernel, by decide +kernel, (by
    have e : s.rwt = fullWindows := by decide +kernel
    show firstFree s.rwt 0 1024 = none
    rw [e]
    exact fullWindows_full), by decide +kernel⟩

/-- Witness: Windows, clause 5. -/
theorem wit_Windows_5 : let u : RxUnit := rx7 2 (leBytes 2 7); let e : Lse := { lseUp with rxBuf := [u] }; let g : Granted := grant0; let s : State := { svcLse e with granted := [g] }; let c : Call := call5 0x0501; let l : Nat := 0; (s.lse[l]? = some e) ∧ (s.alr.quiet = false) ∧ (e.control [2] = some u) ∧ (s.granted.find? (fun g => g.lse = l ∧ g.index.isNone) = some g) ∧ (g.call = some c) ∧ (leField u.payload 0 2 ≠ 0xFFFF) := by decide +kernel

/-- Witness: Windows, clause 6. -/
theorem wit_Windows_6 : let e : Lse := lseUp; let g : Granted := { grant0 with index := some 7, call := none }; let s : State := { svcLse e with granted := [g] }; let c : Call := call5 0x0502; let reqChip : Nat := 2; let index : Nat := 7; (s.admits c 0x0502) ∧ (s.granted.find? (fun g => g.reqChip = reqChip ∧ g.index = some index ∧ g.stall = c.stall ∧ g.revoking.isNone) = some g) ∧ (s.lse[g.lse]? = some e) ∧ (e.usable = true) ∧ (e.carries (ctrlUnit 3 (leBytes 2 index))) := by decide +kernel

/-- Witness: Windows, clause 7. -/
theorem wit_Windows_7 : let e := lseUp; let s : State := svcLse e; let c : Call := call5 0x0502; let reqChip : Nat := 2; let index : Nat := 7; (s.admits c 0x0502) ∧ (s.granted.find? (fun g => g.reqChip = reqChip ∧ g.index = some index ∧ g.stall = c.stall ∧ g.revoking.isNone) = none) := by decide +kernel

/-- Witness: Windows, clause 8. -/
theorem wit_Windows_8 : let u : RxUnit := rx7 3 (leBytes 2 4); let e : Lse := { lseUp with rxBuf := [u] }; let s : State := svcLse e; let l : Nat := 0; let k : Nat := 4; let w : Window := { reqStall := 5, dst := 2, tstall := 6, base := 0, size := 10, rights := 15 }; (s.lse[l]? = some e) ∧ (e.control [3] = some u) ∧ (k = leField u.payload 0 2) ∧ (assocGet k s.rwt = some w) ∧ (w.dst = e.peerChip) ∧ (e.revokes = []) ∧ (e.out.any (fun o => decide (o.window = k)) = false) ∧ (e.carries (ctrlUnit 4 (leBytes 2 k))) := by decide +kernel

/-- Witness: Windows, clause 9. -/
theorem wit_Windows_9 : let u : RxUnit := rx7 4 (leBytes 2 7); let e : Lse := { lseUp with rxBuf := [u] }; let g : Granted := { grant0 with index := some 7, revoking := some 5 }; let s : State := { svcLse e with granted := [g] }; let c : Call := call5 0x0501; let l : Nat := 0; (s.lse[l]? = some e) ∧ (s.alr.quiet = false) ∧ (e.control [4] = some u) ∧ (s.granted.find? (fun g => g.lse = l ∧ g.revoking.isSome ∧ g.index = some (leField u.payload 0 2)) = some g) ∧ (g.call = some c) := by decide +kernel

/-- Witness: Windows, clause 10. -/
theorem wit_Windows_10 : let e : Lse := lseUp; let s : State := { svcLse e with granted := [{ grant0 with index := some 7, revoking := some (10 ^ 12) }] }; let l : Nat := 0; (s.lse[l]? = some e) ∧ (s.granted.any (fun g => decide (g.lse = l) && (g.revoking.map fun r => s.expired r (4 * s.cfg.engine.tDead * 1000)).getD false) = false) := by decide +kernel

/-- Witness: Windows, clause 11. -/
theorem wit_Windows_11 : let e : Lse := { lseUp with out := [out0] }; let s : State := { svcLse e with granted := [{ grant0 with index := some 7, revoking := some 5 }] }; let l : Nat := 0; (s.lse[l]? = some e) ∧ (e.down = false) ∧ (s.granted.any (fun g => decide (g.lse = l) && (g.revoking.map fun r => s.expired r (4 * s.cfg.engine.tDead * 1000)).getD false) = true) := by decide +kernel

/-- Witness: Windows, clause 12. -/
theorem wit_Windows_12 : let e : Lse := { lseUp with out := [out0] }; let s : State := svcLse e; let c : Call := call00 0x0503; let l : Nat := 0; (s.admits c 0x0503) ∧ (s.lse[l]? = some e) ∧ (s.granted.any (fun g => decide (g.lse = l)) = false) ∧ (s.dom.peers.any (fun p => p.lse = l) = false) ∧ (s.dom.exchanges = []) := by decide +kernel

/-- Witness: HostStreamsAndCrosscheck, clause 1. -/
theorem wit_HostStreamsAndCrosscheck_1 : let e : Hse := hseUp; let s : State := { svc with hse := [e] }; let h : Nat := 0; let kind : Nat := 1; let data : Bytes := [1, 2]; let secured : Bytes := [3, 4, 5]; let x : IdeKey := { stream := 0, dirTx := true, keySet := 0, key := [1], iv := [], blocks := 0, wearRaised := false }; (s.hse[h]? = some e) ∧ (s.dataOpen = true) ∧ (s.inUnitReset (unitHse h) = false) ∧ (e.halts = false) ∧ (e.stream (tlpStream kind) = 1) ∧ (e.active (tlpStream kind) true = some x) ∧ (x.blocks + tlpBlocks data.length < 3 * 2 ^ 42) := by decide +kernel

/-- Witness: HostStreamsAndCrosscheck, clause 2. -/
theorem wit_HostStreamsAndCrosscheck_2 : let e : Hse := Hse.atReset; let s : State := { svc with hse := [e] }; let h : Nat := 0; let kind : Nat := 1; let data : Bytes := [1, 2]; let secured : Bytes := []; (s.hse[h]? = some e) ∧ (s.dataOpen = true) ∧ (s.inUnitReset (unitHse h) = false) ∧ (e.halts = false) ∧ (e.stream (tlpStream kind) ≠ 1) := by decide +kernel

/-- Witness: HostStreamsAndCrosscheck, clause 3. -/
theorem wit_HostStreamsAndCrosscheck_3 : let e : Hse := Hse.atReset; let s : State := { svc with hse := [e], alr := { svc.alr with quiet := true } }; let h : Nat := 0; let kind : Nat := 1; let data : Bytes := [1, 2]; let secured : Bytes := []; (s.hse[h]? = some e) ∧ (s.quietOpen = true) := by decide +kernel

/-- Witness: HostStreamsAndCrosscheck, clause 4. -/
theorem wit_HostStreamsAndCrosscheck_4 : let e : Hse := hseUp; let s : State := { svc with hse := [e] }; let h : Nat := 0; let kind : Nat := 0; let data : Bytes := [1, 2]; let x : IdeKey := { stream := 0, dirTx := false, keySet := 0, key := [2], iv := [], blocks := 0, wearRaised := false }; (s.hse[h]? = some e) ∧ (s.serving) ∧ (s.ald.noAlmanac = false) ∧ (s.inUnitReset (unitHse h) = false) ∧ (e.stream (tlpStream kind) = 1) ∧ (e.active (tlpStream kind) false = some x) ∧ (x.blocks + tlpBlocks data.length < 3 * 2 ^ 42) := by decide +kernel

/-- Witness: HostStreamsAndCrosscheck, clause 5. -/
theorem wit_HostStreamsAndCrosscheck_5 : let e : Hse := hseUp; let s : State := { svc with hse := [e] }; let h : Nat := 0; let kind : Nat := 1; let data : Bytes := [1, 2]; (s.hse[h]? = some e) ∧ (s.serving) ∧ (s.ald.noAlmanac = false) ∧ (s.inUnitReset (unitHse h) = false) ∧ (kind ≠ 2) ∧ (e.state = 1) := by decide +kernel

/-- Witness: HostStreamsAndCrosscheck, clause 6. -/
theorem wit_HostStreamsAndCrosscheck_6 : let e : Hse := hseUp; let s : State := { svc with hse := [e] }; let h : Nat := 0; let kind : Nat := 0; let data : Bytes := [1, 2]; let ok : Bool := true; (s.hse[h]? = some e) ∧ (s.serving) ∧ (s.ald.noAlmanac = false) ∧ (s.inUnitReset (unitHse h) = false) ∧ (e.stream (tlpStream kind) = 1 ∨ kind ≠ 0) := by decide +kernel

/-- Witness: HostStreamsAndCrosscheck, clause 7. -/
theorem wit_HostStreamsAndCrosscheck_7 : let s : State := { svc with ldg := { svc.ldg with localEntries := [(0, entryOf 5 .sealed)] } }; let c : Call := call5 0x0504; let winA : Nat := 0; let winB : Nat := 4096; let tiles : Nat := 1; let mode : Nat := 1; let k : Nat := 3; let rate : Nat := 0; let action : Nat := 1; let n : Nat := 0; (s.admits c 0x0504) ∧ (0 < tiles) ∧ (tiles ≤ 4096) ∧ (mode ≤ 1) ∧ (rate ≤ 15) ∧ (action ≤ 1) ∧ (firstFree s.xck.bindings 0 8 = some n) ∧ (winA % 4096 = 0) ∧ (winB % 4096 = 0) ∧ (windowsApart winA winB tiles = true) ∧ (s.ownsRange c.stall winA (winA + tiles * 4096) = true) ∧ (s.ownsRange c.stall winB (winB + tiles * 4096) = true) ∧ (s.sbx.entropyOk = true) := by decide +kernel

/-- Witness: HostStreamsAndCrosscheck, clause 8. -/
theorem wit_HostStreamsAndCrosscheck_8 : let s : State := svc; let c : Call := call5 0x0504; let winA : Nat := 0; let winB : Nat := 4096; let tiles : Nat := 1; let mode : Nat := 1; let k : Nat := 3; let rate : Nat := 0; let action : Nat := 1; (s.admits c 0x0504) ∧ (0 < tiles) ∧ (tiles ≤ 4096) ∧ (mode ≤ 1) ∧ (rate ≤ 15) ∧ (action ≤ 1) := by decide +kernel

/-- Witness: HostStreamsAndCrosscheck, clause 9. -/
theorem wit_HostStreamsAndCrosscheck_9 : let b : XckBinding := bind0; let s : State := { svc with xck := { svc.xck with bindings := [(3, b)] } }; let c : Call := call5 0x0505; let n : Nat := 3; (s.admits c 0x0505) ∧ (assocGet n s.xck.bindings = some b) ∧ (b.stall = c.stall) := by decide +kernel

/-- Witness: HostStreamsAndCrosscheck, clause 10. -/
theorem wit_HostStreamsAndCrosscheck_10 : let b : XckBinding := { bind0 with waiting := [] }; let s : State := { svc with xck := { svc.xck with bindings := [(3, b)] } }; let n : Nat := 3; (assocGet n s.xck.bindings = some b) ∧ (b.waiting.any (fun w => s.expired w.since (s.cfg.engine.tXck * 1000)) = false) := by decide +kernel

/-- Witness: HostStreamsAndCrosscheck, clause 11. -/
theorem wit_HostStreamsAndCrosscheck_11 : let b : XckBinding := bind0; let s : State := { svc with xck := { svc.xck with bindings := [(3, b)] } }; let n : Nat := 3; let w : XckTile := { sideB := false, offset := 0, n := 1, src := 2, nbytes := 128, since := 5, data := [] }; (assocGet n s.xck.bindings = some b) ∧ (b.waiting.find? (fun w => s.expired w.since (s.cfg.engine.tXck * 1000)) = some w) ∧ (b.raised = true) := by decide +kernel

/-- Witness: HybridMessages, clause 1. -/
theorem wit_HybridMessages_1 : let s : State := svc; let c : Call := call00 0x0609; let inp : Nat := 0; let flags : Nat := 0; let id : Nat := 5; let out_ : Nat := 64; let chip : Nat := 2; let inBuf : BufRead := .failed; let o : HybOps := ops0; let cert : Option PeerCert := none; let bs : List BufRead := []; let x : Stall := stallOf .keyed; let h1 : Bytes := leBytes 1 4 ++ (leBytes 2 5 ++ (padTo 16 x.inst).take 16) ++ s.drawn 32 ++ s.tookDraw.drawn 97; let outMax : Nat := h1.length; (s.admits c 0x0609) ∧ (flags < 2) ∧ (id < 4096) ∧ (s.ald.restored = true) ∧ (s.stall? id = some x) ∧ (s.sbx.entropyOk = true) ∧ (s.dom.exchanges = []) ∧ (h1 = leBytes 1 4 ++ (leBytes 2 id ++ (padTo 16 x.inst).take 16) ++ s.drawn 32 ++ s.tookDraw.drawn 97) ∧ (h1.length ≤ outMax) := by
  intro s c inp flags id out_ chip inBuf o cert bs x h1 outMax
  exact ⟨by decide +kernel, by decide +kernel, by decide +kernel, by decide +kernel, by decide +kernel, by decide +kernel, by decide +kernel, rfl, Nat.le_refl _⟩

/-- Witness: HybridMessages, clause 2. -/
theorem wit_HybridMessages_2 : let s : State := svcAdm []; let c : Call := call00 0x0609; let inp : Nat := 0; let inLen : Nat := 148; let id : Nat := 5; let out_ : Nat := 64; let outMax : Nat := 4096; let chip : Nat := 2; let b : Bytes := leBytes 1 2 ++ leBytes 2 5 ++ List.replicate 16 7 ++ zeros 129; let o : HybOps := ops0; let cert : Option PeerCert := none; let bs : List BufRead := []; (s.admits c 0x0609) ∧ (id < 4096) ∧ (s.ald.restored = true) ∧ (s.resident id = true) ∧ (s.sbx.entropyOk = true) ∧ (inLen ≠ 0) ∧ (s.hybFind 2 id chip = none) ∧ (hybH1Ok b = true) ∧ (leField b 0 1 = 2) ∧ (s.hybWilling 2 id chip b = true) ∧ (s.sbx.poolLevel ≠ 0) ∧ ((s.hybH2 o).1.length ≤ outMax) := by decide +kernel

/-- Witness: HybridMessages, clause 3. -/
theorem wit_HybridMessages_3 : let e : HybExchange := hyb5; let s : State := svcAdm [e]; let c : Call := call00 0x0609; let inp : Nat := 0; let inLen : Nat := 1568; let id : Nat := 5; let out_ : Nat := 64; let outMax : Nat := 48; let chip : Nat := 2; let h3 : Bytes := zeros 1568; let o : HybOps := ops0; let cert : Option PeerCert := none; let bs : List BufRead := []; let x : Stall := { stallOf .admitted with measLocked := true, keyed := false }; let d : StallData := StallData.fresh; let y : HybExchange := { e with h3 := h3, standby := false }; let th : Bytes := sha384 (e.h1 ++ e.h2 ++ h3); (s.admits c 0x0609) ∧ (id < 4096) ∧ (id ≠ 0) ∧ (s.ald.restored = true) ∧ (s.resident id = true) ∧ (inLen ≠ 0) ∧ (s.hybFind 2 id chip = some e) ∧ (e.initiator = false) ∧ (1568 ≤ h3.length) ∧ (o.keyOk = true) ∧ (o.sigOk = true) ∧ (s.hybWilling 2 id e.chip e.h1 = true) ∧ (s.stall? id = some x) ∧ (s.stallData? id = some d) ∧ (48 ≤ outMax) ∧ (y = { e with h3 := h3, standby := false }) ∧ (th = sha384 (e.h1 ++ e.h2 ++ h3)) := by decide +kernel

/-- Witness: HybridMessages, clause 4. -/
theorem wit_HybridMessages_4 : let e : HybExchange := hyb5; let s : State := svcAdm [e]; let c : Call := call00 0x0609; let inp : Nat := 0; let inLen : Nat := 1568; let id : Nat := 5; let out_ : Nat := 64; let outMax : Nat := 48; let chip : Nat := 2; let h3 : Bytes := zeros 1567; let o : HybOps := ops0; let cert : Option PeerCert := none; let bs : List BufRead := []; let ok : Bool := true; (s.admits c 0x0609) ∧ (id < 4096) ∧ (s.ald.restored = true) ∧ (s.resident id = true) ∧ (inLen ≠ 0) ∧ (s.hybFind 2 id chip = some e) ∧ (e.initiator = false) ∧ (h3.length < 1568 ∨ o.keyOk = false) := by decide +kernel

/-- Witness: DomainFormation, clause 1. -/
theorem wit_DomainFormation_1 : let s : State := svcDom lseUp; let c : Call := call00 0x060A; let src : Nat := 0; let len : Nat := 0; let m : BufRead := .failed; let ok1 : Bool := true; let ok2 : Bool := true; (s.admits c 0x060A) ∧ (s.dom.joined = true) := by decide +kernel

/-- Witness: DomainFormation, clause 2. -/
theorem wit_DomainFormation_2 : let s : State := svc; let c : Call := call00 0x060A; let src : Nat := 0; let len : Nat := 0; let b : Bytes := []; let st : Nat := stEvidence; let ok1 : Bool := true; let ok2 : Bool := true; (s.admits c 0x060A) ∧ (s.dom.joined = false) ∧ (s.memberStatus b ok1 ok2 = some st) := by decide +kernel

/-- Witness: DomainFormation, clause 3. -/
theorem wit_DomainFormation_3 : let s : State := { svc with att := { svc.att with mFw := zeros 48 } }; let c : Call := call00 0x060A; let src : Nat := 0; let len : Nat := 7904; let b : Bytes := member0; let ok1 : Bool := true; let ok2 : Bool := true; (s.admits c 0x060A) ∧ (s.dom.joined = false) ∧ (s.memberStatus b ok1 ok2 = none) := by decide +kernel

/-- Witness: DomainFormation, clause 4. -/
theorem wit_DomainFormation_4 : let b : Bytes := member0; let s : State := { svc with att := { svc.att with mFw := zeros 48 }, dom := { svc.dom with joined := true, timeParent := 0, chip := 4, domainId := zeros 16, gm := true, peers := [], fwOk := [zeros 48], anchorTime := 1000, seq := 8, authority := memberAuthority member0 } }; let c : Call := call00 0x060B; let src : Nat := 0; let len : Nat := 7904; let ok1 : Bool := true; let ok2 : Bool := true; (s.admits c 0x060B) ∧ (s.dom.joined = true) ∧ (s.memberStatus b ok1 ok2 = none) ∧ (s.memberReplaces b = true) ∧ (s.granted = []) := by decide +kernel

/-- Witness: DomainFormation, clause 5. -/
theorem wit_DomainFormation_5 : let b : Bytes := member0; let s : State := svc; let c : Call := call00 0x060B; let src : Nat := 0; let len : Nat := 7904; let ok1 : Bool := true; let ok2 : Bool := true; (s.admits c 0x060B) ∧ (s.dom.joined = false ∨ (s.memberStatus b ok1 ok2 = none ∧ s.memberReplaces b = false)) := by decide +kernel

/-- Witness: DomainFormation, clause 6. -/
theorem wit_DomainFormation_6 : let h1 : Bytes := leBytes 1 1 ++ leBytes 2 4 ++ leBytes 1 0 ++ zeros 129; let e : Lse := { lseUp with rxBuf := frags 8 h1 }; let s : State := svcDom e; let l : Nat := 0; let o : HybOps := ops0; let p : Peer := peer0; (s.lse[l]? = some e) ∧ (s.alr.quiet = false) ∧ (s.rst.coreReset = none) ∧ (s.sbx.poolLevel ≠ 0) ∧ (s.sbx.entropyOk = true) ∧ ((s.takeMessage l 8).1 = some h1) ∧ ((s.takeMessage l 8).2.1 = false) ∧ (s.joining l = false) ∧ (s.dom.peers.find? (fun p => p.lse = l) = some p) ∧ (p.chip ≤ s.dom.chip) ∧ (hybH1Ok h1 = true) ∧ (leField h1 0 1 = 1) ∧ (leField h1 1 2 = s.dom.chip) ∧ (leField h1 3 1 = l) := by decide +kernel

/-- Witness: DomainFormation, clause 7. -/
theorem wit_DomainFormation_7 : let b : Bytes := zeros 100; let e : Lse := { lseUp with rxBuf := frags 12 b }; let x : HybExchange := join0; let s : State := { svcDom e with dom := { (svcDom e).dom with exchanges := [x] } }; let l : Nat := 0; let p : Peer := peer0; let k : PeerCert := ⟨zeros 48, true, zeros 48, [], 2, 3, false⟩; (s.lse[l]? = some e) ∧ (s.alr.quiet = false) ∧ (s.rst.coreReset = none) ∧ ((s.takeMessage l 12).1 = some b) ∧ ((s.takeMessage l 12).2.1 = false) ∧ (s.joinOf l = some x) ∧ (s.dom.peers.find? (fun p => p.lse = l) = some p) := by decide +kernel

/-- Witness: DomainFormation, clause 8. -/
theorem wit_DomainFormation_8 : let h2 : Bytes := zeros 1697; let e : Lse := { lseUp with rxBuf := frags 9 h2 }; let x : HybExchange := { join0 with initiator := true, chainOk := true }; let s : State := { svcDom e with dom := { (svcDom e).dom with exchanges := [x] } }; let l : Nat := 0; let o : HybOps := ops0; (s.lse[l]? = some e) ∧ (s.alr.quiet = false) ∧ (s.rst.coreReset = none) ∧ ((s.takeMessage l 9).1 = some h2) ∧ ((s.takeMessage l 9).2.1 = false) ∧ (s.joinOf l = some x) ∧ (x.initiator = true) ∧ (x.h2 = []) ∧ (1697 ≤ h2.length) ∧ (x.chainOk = true) ∧ (o.sigOk = true) := by decide +kernel

/-- Witness: DomainFormation, clause 9. -/
theorem wit_DomainFormation_9 : let h3 : Bytes := zeros 1568; let e : Lse := { lseUp with rxBuf := frags 10 h3 }; let x : HybExchange := { join0 with chainOk := true }; let s : State := { svcDom e with dom := { (svcDom e).dom with exchanges := [x] } }; let l : Nat := 0; let o : HybOps := ops0; let p : Peer := peer0; let th : Bytes := sha384 (x.h1 ++ x.h2 ++ h3); (s.lse[l]? = some e) ∧ (s.alr.quiet = false) ∧ (s.rst.coreReset = none) ∧ ((s.takeMessage l 10).1 = some h3) ∧ ((s.takeMessage l 10).2.1 = false) ∧ (s.joinOf l = some x) ∧ (x.initiator = false) ∧ (x.purpose = 1) ∧ (1568 ≤ h3.length) ∧ (x.chainOk = true) ∧ (o.sigOk = true) ∧ (o.keyOk = true) ∧ (s.dom.peers.find? (fun p => p.lse = l) = some p) ∧ (th = sha384 (x.h1 ++ x.h2 ++ h3)) := by decide +kernel

/-- Witness: DomainFormation, clause 10. -/
theorem wit_DomainFormation_10 : let x : HybExchange := { join0 with initiator := true, chainOk := true, h3 := [1], kEst := [3] }; let h4 : Bytes := hmac384 x.kEst (x.th ++ [1]); let e : Lse := { lseUp with rxBuf := frags 11 h4 }; let s : State := { svcDom e with dom := { (svcDom e).dom with exchanges := [x] } }; let l : Nat := 0; let p : Peer := peer0; (s.lse[l]? = some e) ∧ (s.alr.quiet = false) ∧ (s.rst.coreReset = none) ∧ ((s.takeMessage l 11).1 = some h4) ∧ ((s.takeMessage l 11).2.1 = false) ∧ (s.joinOf l = some x) ∧ (x.initiator = true) ∧ (x.purpose = 1) ∧ (x.h3 ≠ []) ∧ (h4 = hmac384 x.kEst (x.th ++ [1])) ∧ (s.dom.peers.find? (fun p => p.lse = l) = some p) := by decide +kernel

/-- Witness: DomainFormation, clause 11. -/
theorem wit_DomainFormation_11 : let s : State := { svc with dom := { svc.dom with exchanges := [join0] } }; (s.dom.exchanges.any (fun x => !x.initiator && x.h3.isEmpty && s.expired x.since 10000000) = false) := by decide +kernel

/-- Witness: DomainFormation, clause 12. -/
theorem wit_DomainFormation_12 : let x : HybExchange := { join0 with since := 10 ^ 12 - 10000000 }; let s : State := { svc with dom := { svc.dom with exchanges := [x] } }; let l : Nat := 0; (s.dom.exchanges.find? (fun x => !x.initiator && x.h3.isEmpty && s.expired x.since 10000000) = some x) ∧ (x.lse = some l) := by decide +kernel

/-- Witness: DomainTime, clause 1. -/
theorem wit_DomainTime_1 : let e : Lse := lseUp; let s : State := svcDom e; let t1 : Nat := 77; (s.dom.joined = true) ∧ (s.dom.gm = false) ∧ (((s.dom.probeAt.map fun a => s.expired a 1000000).getD true) = true) ∧ (s.lse[s.dom.timeParent]? = some e) ∧ (e.usable = true) ∧ (s.alr.quiet = false) ∧ (e.carries (ctrlUnit 13 [])) := by decide +kernel

/-- Witness: DomainTime, clause 2. -/
theorem wit_DomainTime_2 : let s : State := { svc with dom := { svc.dom with gm := true } }; let t1 : Nat := 77; let a : Nat := 0; (s.dom.gm = true ∨ (s.dom.probeAt = some a ∧ s.clk.elapsed < a + 1000000)) := by decide +kernel

/-- Witness: DomainTime, clause 3. -/
theorem wit_DomainTime_3 : let u : RxUnit := rx7 13 []; let e : Lse := { lseUp with rxBuf := [u] }; let s : State := svcDom e; let l : Nat := 0; let t2 : Nat := 88; let t3 : Nat := 99; (s.lse[l]? = some e) ∧ (s.alr.quiet = false) ∧ (e.rxBuf.find? (fun u => u.kind = 7 ∧ u.sub = 13) = some u) ∧ (s.clk.anchored = true) ∧ (e.carries (ctrlUnit 14 (leBytes 8 t2 ++ leBytes 8 ((assocGet l s.dom.replies).getD 0)))) := by decide +kernel

/-- Witness: DomainTime, clause 4. -/
theorem wit_DomainTime_4 : let u : RxUnit := rx7 14 (zeros 16); let e : Lse := { lseUp with rxBuf := [u] }; let s : State := { svcDom e with dom := { (svcDom e).dom with probe := some 5 } }; let l : Nat := 0; let t4 : Nat := 99; (s.lse[l]? = some e) ∧ (s.alr.quiet = false) ∧ (e.rxBuf.find? (fun u => u.kind = 7 ∧ u.sub = 14) = some u) ∧ (l = s.dom.timeParent) ∧ (s.dom.gm = false) ∧ (u.payload.length = 16) ∧ (s.dom.prev = none) := by decide +kernel

/-- Witness: DomainTime, clause 5. -/
theorem wit_DomainTime_5 : let u : RxUnit := rx7 14 (zeros 8 ++ leBytes 8 2000000); let e : Lse := { lseUp with rxBuf := [u] }; let s : State := { svcDom e with dom := { (svcDom e).dom with probe := some 5, prev := some (1, 3000000, 5000000) }, clk := { svc.clk with anchored := false } }; let l : Nat := 0; let t4 : Nat := 99; let a1 : Nat := 1; let a2 : Nat := 3000000; let a4 : Nat := 5000000; let off : Int := -1; (s.lse[l]? = some e) ∧ (s.alr.quiet = false) ∧ (e.rxBuf.find? (fun u => u.kind = 7 ∧ u.sub = 14) = some u) ∧ (l = s.dom.timeParent) ∧ (s.dom.gm = false) ∧ (u.payload.length = 16) ∧ (s.dom.prev = some (a1, a2, a4)) ∧ (off = (((a2 : Int) - a1) - ((a4 : Int) - leField u.payload 8 8)) / 2) ∧ (s.clk.anchored = false) := by decide +kernel

/-- Witness: DomainTime, clause 6. -/
theorem wit_DomainTime_6 : let u : RxUnit := rx7 14 (zeros 8 ++ leBytes 8 2000000); let e : Lse := { lseUp with rxBuf := [u] }; let s : State := { svcDom e with dom := { (svcDom e).dom with probe := some 5, prev := some (1, 9000000, 5000000) } }; let l : Nat := 0; let t4 : Nat := 99; let a1 : Nat := 1; let a2 : Nat := 9000000; let a4 : Nat := 5000000; let off : Int := 2999999; (s.lse[l]? = some e) ∧ (s.alr.quiet = false) ∧ (e.rxBuf.find? (fun u => u.kind = 7 ∧ u.sub = 14) = some u) ∧ (l = s.dom.timeParent) ∧ (s.dom.gm = false) ∧ (u.payload.length = 16) ∧ (s.dom.prev = some (a1, a2, a4)) ∧ (off = (((a2 : Int) - a1) - ((a4 : Int) - leField u.payload 8 8)) / 2) ∧ (s.clk.anchored = true) := by decide +kernel

/-- Witness: DomainTime, clause 7. -/
theorem wit_DomainTime_7 : let s : State := { svc with dom := { svc.dom with lastOffset := some (10 ^ 12 - 99999999) } }; let a : Nat := 10 ^ 12 - 99999999; (s.dom.lastOffset = some a) ∧ (s.clk.elapsed < a + 100000000) := by decide +kernel

/-- Witness: DomainTime, clause 8. -/
theorem wit_DomainTime_8 : let s : State := { svc with dom := { svc.dom with lastOffset := some (10 ^ 12 - 100000000) } }; let a : Nat := 10 ^ 12 - 100000000; (s.dom.lastOffset = some a) ∧ (a + 100000000 ≤ s.clk.elapsed) ∧ (s.dom.unlockRaised = false) := by decide +kernel

/-- Witness: MarkCommands, clause 1. -/
theorem wit_MarkCommands_1 : let s : State := svcMark mark0 lseUp; let c : Call := call5 0x0701; let spill : Nat := 256; let mode : Nat := 0; let ndest : Nat := 1; let srcChip : Nat := 0; let srcMark : Nat := 0; let k : Nat := 0; let dests : List (Nat × Nat) := [(2, 9)]; (s.admits c 0x0701) ∧ (spill % 256 = 0) ∧ (spill < 2 ^ 56) ∧ (mode ≤ 1) ∧ (ndest ≤ 12) ∧ (s.ownsSealed c.stall spill (spill + 256) = true) ∧ (firstFree s.mrk.dir 0 65535 = some k) ∧ (s.mrk.res.length < 64) := by decide +kernel

/-- Witness: MarkCommands, clause 2. -/
theorem wit_MarkCommands_2 : let s : State := svc; let c : Call := call5 0x0701; let spill : Nat := 256; let mode : Nat := 0; let ndest : Nat := 1; let srcChip : Nat := 0; let srcMark : Nat := 0; let dests : List (Nat × Nat) := [(2, 9)]; (s.admits c 0x0701) ∧ (spill % 256 = 0) ∧ (spill < 2 ^ 56) ∧ (mode ≤ 1) ∧ (ndest ≤ 12) := by decide +kernel

/-- Witness: MarkCommands, clause 3. -/
theorem wit_MarkCommands_3 : let m : Mark := mark0; let s : State := svcMark m lseUp; let c : Call := call5 0x0703; let k : Nat := 7; let op : Nat := 1; let v : Nat := 2 ^ 64 - 4; let new : Nat := 2 ^ 64 - 1; (s.admits c 0x0703) ∧ (op ≤ 1) ∧ (s.markOwner k = some c.stall) ∧ (s.mark? k = some m) ∧ (m.mirror = false) ∧ (m.poison = none) ∧ (m.dests = []) ∧ (s.mrk.waits = []) ∧ (new = (if op = 1 then m.value + v else v)) ∧ (new < 2 ^ 64) ∧ ((op = 0 → m.value < v)) := by decide +kernel

/-- Witness: MarkCommands, clause 4. -/
theorem wit_MarkCommands_4 : let m : Mark := mark0; let s : State := svcMark m lseUp; let c : Call := call5 0x0703; let k : Nat := 7; let v : Nat := 3; (s.admits c 0x0703) ∧ (s.markOwner k = some c.stall) ∧ (s.mark? k = some m) ∧ (m.mirror = false) ∧ (m.poison = none) ∧ (v ≤ m.value) := by decide +kernel

/-- Witness: MarkCommands, clause 5. -/
theorem wit_MarkCommands_5 : let m : Mark := mark0; let s : State := svcMark m lseUp; let c : Call := call5 0x0703; let k : Nat := 7; let v : Nat := 2 ^ 64 - 3; (s.admits c 0x0703) ∧ (s.markOwner k = some c.stall) ∧ (s.mark? k = some m) ∧ (m.mirror = false) ∧ (m.poison = none) ∧ (2 ^ 64 ≤ m.value + v) ∧ (s.mrk.waits = []) ∧ (s.hlm.buffer = []) ∧ (s.hlm.tickQ = []) := by decide +kernel

/-- Witness: MarkCommands, clause 6. -/
theorem wit_MarkCommands_6 : let m : Mark := { mark0 with poison := some 2 }; let s : State := svcMark m lseUp; let c : Call := call5 0x0703; let k : Nat := 7; let op : Nat := 0; let v : Nat := 9; (s.admits c 0x0703) ∧ (op ≤ 1) ∧ (s.markOwner k = some c.stall) ∧ (s.mark? k = some m) ∧ (m.mirror = true ∨ m.poison.isSome = true) := by decide +kernel

/-- Witness: MarkCommands, clause 7. -/
theorem wit_MarkCommands_7 : let m : Mark := mark0; let s : State := svcMark m lseUp; let c : Call := call5 0x0704; let k : Nat := 7; let timeout : Nat := 0; let v : Nat := 3; (s.admits c 0x0704) ∧ (s.markOwner k = some c.stall) ∧ (s.mark? k = some m) ∧ (m.poison = none) ∧ (v ≤ m.complete) := by decide +kernel

/-- Witness: MarkCommands, clause 8. -/
theorem wit_MarkCommands_8 : let m : Mark := mark0; let s : State := svcMark m lseUp; let c : Call := call5 0x0704; let k : Nat := 7; let timeout : Nat := 10; let v : Nat := 4; (s.admits c 0x0704) ∧ (s.markOwner k = some c.stall) ∧ (s.mark? k = some m) ∧ (m.poison = none) ∧ (m.complete < v) ∧ (s.mrk.waits.any (fun w => w.call = c) = false) := by decide +kernel

/-- Witness: MarkCommands, clause 9. -/
theorem wit_MarkCommands_9 : let w := ⟨call5 0x0704, 7, 9, some (10 ^ 12 + 1)⟩; let s : State := { svcMark mark0 lseUp with mrk := { (svcMark mark0 lseUp).mrk with waits := [w] } }; (s.mrk.waits.any (fun w => (w.deadline.map fun d => decide (d ≤ s.clk.elapsed)).getD false) = false) := by decide +kernel

/-- Witness: MarkCommands, clause 10. -/
theorem wit_MarkCommands_10 : let w : MarkWait := ⟨call5 0x0704, 7, 9, some (10 ^ 12)⟩; let s : State := { svcMark mark0 lseUp with mrk := { (svcMark mark0 lseUp).mrk with waits := [w] } }; (s.mrk.waits.find? (fun w => (w.deadline.map fun d => decide (d ≤ s.clk.elapsed)).getD false) = some w) ∧ (s.alr.quiet = false) := by decide +kernel

/-- Witness: MarkCommands, clause 11. -/
theorem wit_MarkCommands_11 : let s : State := svcMark mark0 lseUp; let c : Call := call5 0x0702; let k : Nat := 7; (s.admits c 0x0702) ∧ (s.markOwner k = some c.stall) ∧ (s.mrk.waits = []) ∧ (s.hlm.buffer = []) ∧ (s.hlm.tickQ = []) := by decide +kernel

/-- Witness: MarkCommands, clause 12. -/
theorem wit_MarkCommands_12 : let s : State := svcMark mark0 lseUp; let c : Call := call5 0x0702; let k : Nat := 8; (s.admits c 0x0702) ∧ (s.markOwner k ≠ some c.stall) := by decide +kernel

/-- Witness: MarkCommands, clause 13. -/
theorem wit_MarkCommands_13 : let s : State := svc; let c : Call := call00 0x0705; let chip : Nat := 2; let primary : Nat := 15; let alternate : Nat := 0xFF; let flags : Nat := 0; (s.admits c 0x0705) ∧ (chip < 2 ^ 15) ∧ (primary < s.build.lseCount) ∧ (alternate = 0xFF ∨ alternate < s.build.lseCount) ∧ (flags ≤ 1) := by decide +kernel

/-- Witness: MarkCommands, clause 14. -/
theorem wit_MarkCommands_14 : let d : MarkDir := { owner := 5, version := 1, addr := 0, spilledAt := none }; let s : State := { svcMark mark0 lseUp with mrk := { (svcMark mark0 lseUp).mrk with res := [], fills := [7] } }; let k : Nat := 7; let b : Bytes := mark0.bytes 7 5 1; (s.mrk.fills.contains k = true) ∧ (s.alr.quiet = false) ∧ (assocGet k s.mrk.dir = some d) ∧ (s.mrk.res.length < 64) ∧ (s.mrk.sigs.any (fun p => p.1 = k) = false) ∧ (markRecordOk k d b = true) := by decide +kernel

/-- Witness: MarkCommands, clause 15. -/
theorem wit_MarkCommands_15 : let d : MarkDir := { owner := 5, version := 1, addr := 0, spilledAt := none }; let s : State := { svcMark mark0 lseUp with mrk := { (svcMark mark0 lseUp).mrk with res := [], fills := [7] } }; let k : Nat := 7; let r : BufRead := .ok (mark0.bytes 7 5 2); (s.mrk.fills.contains k = true) ∧ (s.alr.quiet = false) ∧ (assocGet k s.mrk.dir = some d) ∧ (s.mrk.res.length < 64) ∧ (s.mrk.sigs.any (fun p => p.1 = k) = false) ∧ ((match r with | .ok b => markRecordOk k d b | .failed => false) = false) := by decide +kernel

/-- Witness: MarkUnits, clause 1. -/
theorem wit_MarkUnits_1 : let m : Mark := { mark0 with mirror := true, srcChip := 2, srcMark := 9 }; let u : RxUnit := rx7 6 (markUnit 4 7 2 9 1 0 0 8); let e : Lse := { lseUp with rxBuf := [u] }; let s : State := svcMark m e; let l : Nat := 0; let k : Nat := 7; let origin : Nat := 2; let om : Nat := 9; let seq : Nat := 1; let v : Nat := 8; let d : MarkDir := { owner := 5, version := 1, addr := 0, spilledAt := none }; let a : Bytes := markUnit 2 9 4 7 1 0 0 8; (s.lse[l]? = some e) ∧ (s.alr.quiet = false) ∧ (e.control [6] = some u) ∧ (leField u.payload 0 2 = s.dom.chip) ∧ (k = leField u.payload 2 2) ∧ (origin = leField u.payload 4 2) ∧ (om = leField u.payload 6 2) ∧ (seq = leField u.payload 8 4) ∧ (v = leField u.payload 16 8) ∧ ((leField u.payload 13 1).testBit 0 = false) ∧ (assocGet k s.mrk.dir = some d) ∧ (s.resident d.owner = true) ∧ (s.mark? k = some m) ∧ (m.mirror = true) ∧ (m.srcChip = origin) ∧ (m.srcMark = om) ∧ (m.lastSeq < seq) ∧ (m.value < v) ∧ (s.mrk.waits = []) ∧ (s.markRoute origin = some l) ∧ (a = markUnit origin om s.dom.chip k seq 0 (bit m.poison.isSome) v) ∧ (e.carries (ctrlUnit 7 a)) := by decide +kernel

/-- Witness: MarkUnits, clause 2. -/
theorem wit_MarkUnits_2 : let u : RxUnit := rx7 6 (markUnit 5 7 2 9 1 2 0 8); let e : Lse := { lseUp with rxBuf := [u] }; let s : State := svcMark mark0 e; let l : Nat := 0; (s.lse[l]? = some e) ∧ (s.alr.quiet = false) ∧ (e.control [6] = some u) ∧ (leField u.payload 0 2 ≠ s.dom.chip) ∧ (s.cfg.engine.maxHops ≤ leField u.payload 12 1) := by decide +kernel

/-- Witness: MarkUnits, clause 3. -/
theorem wit_MarkUnits_3 : let m : Mark := { mark0 with sent := 5, value := 5, dests := [dest0] }; let u : RxUnit := rx7 7 (markUnit 4 7 2 9 4 0 0 4); let e : Lse := { lseUp with rxBuf := [u] }; let s : State := svcMark m e; let l : Nat := 0; let k : Nat := 7; let v : Nat := 4; let i : Nat := 0; let d : MarkDir := { owner := 5, version := 1, addr := 0, spilledAt := none }; let x : MarkDest := dest0; (s.lse[l]? = some e) ∧ (s.alr.quiet = false) ∧ (e.control [7] = some u) ∧ (leField u.payload 0 2 = s.dom.chip) ∧ (k = leField u.payload 2 2) ∧ (v = leField u.payload 16 8) ∧ ((leField u.payload 13 1).testBit 0 = false) ∧ (assocGet k s.mrk.dir = some d) ∧ (s.resident d.owner = true) ∧ (s.mark? k = some m) ∧ (m.mirror = false) ∧ (m.poison = none) ∧ (m.dests.zipIdx.find? (fun d => d.1.chip = leField u.payload 4 2 ∧ d.1.mark = leField u.payload 6 2) = some (x, i)) ∧ (x.acked < v) ∧ (s.mrk.waits = []) := by decide +kernel

/-- Witness: MarkUnits, clause 4. -/
theorem wit_MarkUnits_4 : let d : MarkDest := { dest0 with timer := some (10 ^ 12 - 99999) }; let m : Mark := { mark0 with sent := 5, value := 5, dests := [d] }; let s : State := svcMark m lseUp; let k : Nat := 7; let i : Nat := 0; let since : Nat := 10 ^ 12 - 99999; (s.mark? k = some m) ∧ (m.dests[i]? = some d) ∧ (d.timer = some since) ∧ (s.clk.elapsed < since + s.cfg.engine.tMark * 1000) := by decide +kernel

/-- Witness: MarkUnits, clause 5. -/
theorem wit_MarkUnits_5 : let d : MarkDest := dest0; let m : Mark := { mark0 with sent := 5, value := 5, dests := [d] }; let e : Lse := lseUp; let s : State := svcMark m e; let k : Nat := 7; let i : Nat := 0; let since : Nat := 5; let l : Nat := 0; let a : Bytes := markUnit 2 9 4 7 4 0 0 5; (s.mark? k = some m) ∧ (m.dests[i]? = some d) ∧ (d.timer = some since) ∧ (since + s.cfg.engine.tMark * 1000 ≤ s.clk.elapsed) ∧ (s.alr.quiet = false) ∧ (d.resends < s.cfg.engine.markRetry) ∧ (d.chip ≠ s.dom.chip) ∧ (s.markRoute d.chip = some l) ∧ (s.lse[l]? = some e) ∧ (a = markUnit d.chip d.mark s.dom.chip k d.seq 0 0 m.sent) ∧ (e.carries (ctrlUnit 6 a)) := by decide +kernel

/-- Witness: MarkUnits, clause 6. -/
theorem wit_MarkUnits_6 : let d : MarkDest := { dest0 with resends := 3 }; let m : Mark := { mark0 with sent := 5, value := 5, dests := [d] }; let s : State := svcMark m lseUp; let k : Nat := 7; let i : Nat := 0; let since : Nat := 5; (s.mark? k = some m) ∧ (m.dests[i]? = some d) ∧ (d.timer = some since) ∧ (since + s.cfg.engine.tMark * 1000 ≤ s.clk.elapsed) ∧ (s.alr.quiet = false) ∧ (s.cfg.engine.markRetry ≤ d.resends) ∧ (m.poison = none) := by decide +kernel

/-- Witness: BoothLockAndOps, clause 1. -/
theorem wit_BoothLockAndOps_1 : let s : State := { svcReg with stl := { svcReg.stl with fnMap := [(0, (3, 5))] } }; let fn : Nat := 3; let st : Nat := 0; (s.grants fn true 0x0E0000) ∧ (s.bth.holder = none) ∧ (s.handoffWaits = false) ∧ (s.fnStall? fn = some st) ∧ (st = 0 ∨ (s.stallState st = .keyed ∧ s.ald.full = true)) ∧ (s.inUnitReset unitBooth = false) := by decide +kernel

/-- Witness: BoothLockAndOps, clause 2. -/
theorem wit_BoothLockAndOps_2 : let s : State := svcBth 0x00520001; let fn : Nat := 3; (s.grants fn true 0x0E0000) ∧ (s.bth.holder.isSome = true ∨ s.handoffWaits = true ∨ (s.fnStall? fn).all (fun st => decide (st ≠ 0 ∧ s.stallState st ≠ .keyed)) = true) := by decide +kernel

/-- Witness: BoothLockAndOps, clause 3. -/
theorem wit_BoothLockAndOps_3 : let s : State := { svcReg with bth := { svc.bth with holder := some (3, 0) } }; let fn : Nat := 3; let st : Nat := 0; (s.grants fn true 0x0E0000) ∧ (s.bth.holder = some (fn, st)) ∧ (s.bth.tollgate = false) ∧ (s.bth.running = none) ∧ (s.bth.queue = []) := by decide +kernel

/-- Witness: BoothLockAndOps, clause 4. -/
theorem wit_BoothLockAndOps_4 : let s : State := { svcReg with bth := { svc.bth with holder := some (3, 0), running := some op5 } }; let fn : Nat := 3; let st : Nat := 0; (s.grants fn true 0x0E0000) ∧ (s.bth.holder = some (fn, st)) ∧ (s.bth.tollgate = false) ∧ (s.bth.running.isSome = true) := by decide +kernel

/-- Witness: BoothLockAndOps, clause 5. -/
theorem wit_BoothLockAndOps_5 : let s : State := svcBth 0x00520001; let fn : Nat := 3; (s.grants fn true 0x0E0000) ∧ (s.bth.holder.all (fun h => decide (h.1 ≠ fn)) = true) := by decide +kernel

/-- Witness: BoothLockAndOps, clause 6. -/
theorem wit_BoothLockAndOps_6 : let s : State := svc; (s.bth.holder = none ∨ s.bth.running.isSome = true ∨ s.bth.queue ≠ [] ∨
    s.clk.elapsed < s.bth.leaseAt + s.cfg.engine.tBlease * 100000) := by decide +kernel

/-- Witness: BoothLockAndOps, clause 7. -/
theorem wit_BoothLockAndOps_7 : let s : State := svcBth 0x00520001; let fn : Nat := 1; let st : Nat := 5; (s.bth.holder = some (fn, st)) ∧ (s.bth.tollgate = false) ∧ (s.bth.running = none) ∧ (s.bth.queue = []) ∧ (s.bth.leaseAt + s.cfg.engine.tBlease * 100000 ≤ s.clk.elapsed) := by decide +kernel

/-- Witness: BoothLockAndOps, clause 8. -/
theorem wit_BoothLockAndOps_8 : let s : State := svc; let c : Call := call5 0x0801; let mode : Nat := 0; let dir : Nat := 0; let flags : Nat := 0; let tail : Nat := 0; let handle : Nat := 0x00520001; let src : Nat := 0; let dst : Nat := 64; let len : Nat := 16; let aadLen : Nat := 0; let aadTail : Nat := 0; let aad : Nat := 0; let du : Nat := 0; let tag : Nat := 128; let iv : Bytes := zeros 16; (s.admits c 0x0801) ∧ (s.inUnitReset unitBooth = false) ∧ (s.bth.queue = []) ∧ (s.bth.running = none) ∧ (s.bth.holder = none) := by decide +kernel

/-- Witness: BoothLockAndOps, clause 9. -/
theorem wit_BoothLockAndOps_9 : let s : State := svcBth 0x00520001; let c : Call := call00 0x0801; let mode : Nat := 0; let dir : Nat := 0; let flags : Nat := 0; let tail : Nat := 0; let handle : Nat := 0x00520001; let src : Nat := 0; let dst : Nat := 64; let len : Nat := 16; let aadLen : Nat := 0; let aadTail : Nat := 0; let aad : Nat := 0; let du : Nat := 0; let tag : Nat := 128; let iv : Bytes := zeros 16; let h : Nat × Nat := (1, 5); (s.admits c 0x0801) ∧ (s.inUnitReset unitBooth = false) ∧ (s.bth.queue.any (fun o => decide (o.call = c)) = false) ∧ (s.bth.running.any (fun o => decide (o.call = c)) = false) ∧ (s.bth.holder = some h) ∧ (h.1 ≠ c.fn ∨ 8 ≤ s.bth.queue.length) := by decide +kernel

/-- Witness: BoothLockAndOps, clause 10. -/
theorem wit_BoothLockAndOps_10 : let s : State := svcBth 0x00520001; let c : Call := call5 0x0801; let mode : Nat := 0; let dir : Nat := 0; let flags : Nat := 8; let tail : Nat := 0; let handle : Nat := 0x00520001; let src : Nat := 0; let dst : Nat := 8; let len : Nat := 16; let aadLen : Nat := 0; let aadTail : Nat := 0; let aad : Nat := 0; let du : Nat := 0; let tag : Nat := 128; let st : Nat := stBthParam; let stall : Nat := 5; let iv : Bytes := zeros 16; let o : BoothOp := { call := call5 0x0801, mode := 0, decrypt := false, flags := 8, tail := 0, handle := 0x00520001, src := 0, dst := 8, len := 16, aadLen := 0, aadTail := 0, aad := 0, iv := zeros 16, hwNonce := false, du := 0, tag := 128, header := none }; (s.admits c 0x0801) ∧ (s.inUnitReset unitBooth = false) ∧ (s.bth.queue = []) ∧ (s.bth.running = none) ∧ (s.bth.holder = some (c.fn, stall)) ∧ (s.bth.tollgate = false) ∧ (dir < 2) ∧ (o = boothOpOf c mode dir flags tail handle src dst len aadLen aadTail aad iv du tag) ∧ (s.boothCheck o = some st) := by decide +kernel

/-- Witness: BoothLockAndOps, clause 11. -/
theorem wit_BoothLockAndOps_11 : let s : State := svcBth 0x00520001; let c : Call := call5 0x0801; let mode : Nat := 0; let dir : Nat := 0; let flags : Nat := 0; let tail : Nat := 0; let handle : Nat := 0x00520001; let src : Nat := 0; let dst : Nat := 64; let len : Nat := 16; let aadLen : Nat := 0; let aadTail : Nat := 0; let aad : Nat := 0; let du : Nat := 0; let tag : Nat := 128; let stall : Nat := 5; let n : Nat := 0; let iv : Bytes := zeros 16; let o : BoothOp := { call := call5 0x0801, mode := 0, decrypt := false, flags := 0, tail := 0, handle := 0x00520001, src := 0, dst := 64, len := 16, aadLen := 0, aadTail := 0, aad := 0, iv := zeros 16, hwNonce := false, du := 0, tag := 128, header := none }; let e : KeyEntry := { keyE 0x00520001 with usage := 15 }; let k : KeySlot := KeySlot.fresh 0x00520001 0 0 (zeros 32); (s.admits c 0x0801) ∧ (s.inUnitReset unitBooth = false) ∧ (s.bth.queue = []) ∧ (s.bth.running = none) ∧ (s.bth.holder = some (c.fn, stall)) ∧ (s.bth.tollgate = false) ∧ (dir < 2) ∧ (s.sbx.zeroNet = false) ∧ (o = boothOpOf c mode dir flags tail handle src dst len aadLen aadTail aad iv du tag) ∧ (s.boothCheck o = none) ∧ (s.liveEntry? handle = some e) ∧ (s.sbx.slotOf handle e.gen = some (n, k)) ∧ (s.hwNonce o = false) := by decide +kernel

/-- Witness: BoothLockAndOps, clause 12. -/
theorem wit_BoothLockAndOps_12 : let s : State := svcBth 0x00520001; let c : Call := call5 0x0801; let mode : Nat := 0; let dir : Nat := 0; let flags : Nat := 2; let tail : Nat := 0; let handle : Nat := 0x00520001; let src : Nat := 0; let dst : Nat := 64; let len : Nat := 16; let aadLen : Nat := 0; let aadTail : Nat := 0; let aad : Nat := 0; let du : Nat := 0; let tag : Nat := 128; let stall : Nat := 5; let n : Nat := 0; let iv : Bytes := zeros 16; let o : BoothOp := { call := call5 0x0801, mode := 0, decrypt := false, flags := 2, tail := 0, handle := 0x00520001, src := 0, dst := 64, len := 16, aadLen := 0, aadTail := 0, aad := 0, iv := zeros 16, hwNonce := false, du := 0, tag := 128, header := none }; let e : KeyEntry := { keyE 0x00520001 with usage := 15 }; let k : KeySlot := KeySlot.fresh 0x00520001 0 0 (zeros 32); (s.admits c 0x0801) ∧ (s.inUnitReset unitBooth = false) ∧ (s.bth.queue = []) ∧ (s.bth.running = none) ∧ (s.bth.holder = some (c.fn, stall)) ∧ (s.bth.tollgate = false) ∧ (dir < 2) ∧ (s.sbx.zeroNet = false) ∧ (s.sbx.entropyOk = true) ∧ (o = boothOpOf c mode dir flags tail handle src dst len aadLen aadTail aad iv du tag) ∧ (s.boothCheck o = none) ∧ (s.liveEntry? handle = some e) ∧ (s.sbx.slotOf handle e.gen = some (n, k)) ∧ (s.hwNonce o = true) := by decide +kernel

/-- Witness: BoothLockAndOps, clause 13. -/
theorem wit_BoothLockAndOps_13 : let s : State := svcRun { opRun 0 0 false with call := call5 0x0100 }; let c : Call := call5 0x0801; let mode : Nat := 0; let dir : Nat := 0; let flags : Nat := 0; let tail : Nat := 0; let handle : Nat := 0x00520001; let src : Nat := 0; let dst : Nat := 64; let len : Nat := 16; let aadLen : Nat := 0; let aadTail : Nat := 0; let aad : Nat := 0; let du : Nat := 0; let tag : Nat := 128; let stall : Nat := 5; let iv : Bytes := zeros 16; let o : BoothOp := { call := call5 0x0801, mode := 0, decrypt := false, flags := 0, tail := 0, handle := 0x00520001, src := 0, dst := 64, len := 16, aadLen := 0, aadTail := 0, aad := 0, iv := zeros 16, hwNonce := false, du := 0, tag := 128, header := none }; (s.admits c 0x0801) ∧ (s.inUnitReset unitBooth = false) ∧ (s.bth.queue.any (fun o => decide (o.call = c)) = false) ∧ (s.bth.running.any (fun o => decide (o.call ≠ c)) = true) ∧ (s.bth.holder = some (c.fn, stall)) ∧ (s.bth.queue.length < 8) ∧ (s.bth.tollgate = false) ∧ (dir < 2) ∧ (o = boothOpOf c mode dir flags tail handle src dst len aadLen aadTail aad iv du tag) ∧ (s.boothCheck o = none) := by decide +kernel

/-- Witness: BoothOpEnds, clause 1. -/
theorem wit_BoothOpEnds_1 : let s : State := svc; let io : BoothIo := bio0; (s.bth.running = none) := by decide +kernel

/-- Witness: BoothOpEnds, clause 2. -/
theorem wit_BoothOpEnds_2 : let o : BoothOp := opRun 0 8 false; let s : State := svcRun o; let io : BoothIo := bio0; let data : Bytes := zeros 16; let ct : Bytes := o.output (s.boothKey o) data; let tag : Bytes := o.tagOf (s.boothKey o) [] data; (s.boothRuns o) ∧ (o.mode = 0) ∧ (o.decrypt = false) ∧ (o.aadLen = 0) ∧ (io.src = .ok data) ∧ (data.length = o.len) ∧ (io.failedAt = none) ∧ (ct = o.output (s.boothKey o) data) ∧ (tag = o.tagOf (s.boothKey o) [] data) := by decide +kernel

/-- Witness: BoothOpEnds, clause 3. -/
theorem wit_BoothOpEnds_3 : let o : BoothOp := opRun 2 0 false; let s : State := svcRun o; let io : BoothIo := bio0; let data : Bytes := zeros 16; let out : Bytes := o.output (s.boothKey o) data; (s.boothRuns o) ∧ (o.mode = 1 ∨ o.mode = 2) ∧ (io.src = .ok data) ∧ (data.length = o.len) ∧ (io.failedAt = none) ∧ (out = o.output (s.boothKey o) data) := by decide +kernel

/-- Witness: BoothOpEnds, clause 4. -/
theorem wit_BoothOpEnds_4 : let o : BoothOp := opRun 3 0 false; let s : State := svcRun o; let io : BoothIo := bio0; let data : Bytes := zeros 16; let tag : Bytes := boothCmac (s.boothKey o) data (o.flags.testBit 2); (s.boothRuns o) ∧ (o.mode = 3) ∧ (o.decrypt = false) ∧ (io.src = .ok data) ∧ (data.length = o.len) ∧ (io.failedAt = none) ∧ (tag = boothCmac (s.boothKey o) data (o.flags.testBit 2)) := by decide +kernel

/-- Witness: BoothOpEnds, clause 5. -/
theorem wit_BoothOpEnds_5 : let o : BoothOp := opRun 0 0 true; let s : State := svcRun o; let io : BoothIo := bio0; let data : Bytes := zeros 16; let want : Bytes := zeros 16; let pass : Bool := decide (o.tagOf (s.boothKey o) [] data = want); let out : Bytes := if pass then o.output (s.boothKey o) data else zeros o.len; (s.boothRuns o) ∧ (o.mode = 0) ∧ (o.decrypt = true) ∧ (o.aadLen = 0) ∧ (o.flags.testBit 0 = false) ∧ (io.src = .ok data) ∧ (data.length = o.len) ∧ (io.tag = .ok want) ∧ (io.failedAt = none) ∧ (pass = decide (o.tagOf (s.boothKey o) [] data = want)) ∧ (out = (if pass then o.output (s.boothKey o) data else zeros o.len)) := by decide +kernel

/-- Witness: BoothOpEnds, clause 6. -/
theorem wit_BoothOpEnds_6 : let o : BoothOp := opRun 0 1 true; let s : State := svcRun o; let io : BoothIo := bio0; let data : Bytes := zeros 16; let want : Bytes := zeros 16; let out : Bytes := o.output (s.boothKey o) data; (s.boothRuns o) ∧ (o.mode = 0) ∧ (o.decrypt = true) ∧ (o.aadLen = 0) ∧ (o.flags.testBit 0 = true) ∧ (io.src = .ok data) ∧ (data.length = o.len) ∧ (io.tag = .ok want) ∧ (io.failedAt = none) ∧ (o.tagOf (s.boothKey o) [] data ≠ want) ∧ (out = o.output (s.boothKey o) data) := by decide +kernel

/-- Witness: BoothOpEnds, clause 7. -/
theorem wit_BoothOpEnds_7 : let o : BoothOp := opRun 0 0 true; let s : State := svcRun o; let io : BoothIo := { bio0 with src := .failed }; (s.boothRuns o) ∧ (o.holds = true) ∧ (io.src = .failed) := by decide +kernel

/-- Witness: BoothOpEnds, clause 8. -/
theorem wit_BoothOpEnds_8 : let o : BoothOp := opRun 0 0 false; let s : State := svcRun o; let io : BoothIo := { bio0 with failedAt := some 4 }; let data : Bytes := zeros 16; let n : Nat := 4; let out : Bytes := (o.output (s.boothKey o) data).take n; (s.boothRuns o) ∧ (o.mode = 0) ∧ (o.decrypt = false) ∧ (o.aadLen = 0) ∧ (io.src = .ok data) ∧ (data.length = o.len) ∧ (io.failedAt = some n) ∧ (n < o.len) ∧ (out = (o.output (s.boothKey o) data).take n) := by decide +kernel

/-- Witness: TollPolicyAndBudget, clause 1. -/
theorem wit_TollPolicyAndBudget_1 : let p : Bytes := polImg (rule0 2 4 0); let d : StallData := { data0 with policyDigest := sha384 p }; let x : Stall := stallOf .keyed; let s : State := { svcToll [] none with stl := { svc.stl with data := [(0, StallData.fresh), (5, d)] } }; let c : Call := call5 0x0901; let addr : Nat := 0; (s.admits c 0x0901) ∧ (s.stall? c.stall = some x) ∧ (s.stallData? c.stall = some d) ∧ (addr % 16 = 0) ∧ (s.rangeAll addr policySize (fun e => decide (e.state = .sealed ∧ e.owner = c.stall)) = true) ∧ (sha384 p = d.policyDigest) ∧ (policyFault p d.owners = none) := by decide +kernel

/-- Witness: TollPolicyAndBudget, clause 2. -/
theorem wit_TollPolicyAndBudget_2 : let x : Stall := stallOf .keyed; let d : StallData := data0; let s : State := svcToll [] none; let c : Call := call5 0x0901; let addr : Nat := 0; let image : BufRead := .failed; (s.admits c 0x0901) ∧ (s.stall? c.stall = some x) ∧ (s.stallData? c.stall = some d) ∧ (addr % 16 = 0) ∧ (s.rangeAll addr policySize (fun e => decide (e.state = .sealed ∧ e.owner = c.stall)) = true) ∧ ((match image with | .ok p => decide (sha384 p ≠ d.policyDigest) | .failed => true) = true) := by decide +kernel

/-- Witness: TollPolicyAndBudget, clause 3. -/
theorem wit_TollPolicyAndBudget_3 : let p : Bytes := [0x59]; let d : StallData := { data0 with policyDigest := sha384 p }; let x : Stall := stallOf .keyed; let s : State := { svcToll [] none with stl := { svc.stl with data := [(0, StallData.fresh), (5, d)] } }; let c : Call := call5 0x0901; let addr : Nat := 0; let off : Nat := 0; (s.admits c 0x0901) ∧ (s.stall? c.stall = some x) ∧ (s.stallData? c.stall = some d) ∧ (addr % 16 = 0) ∧ (s.rangeAll addr policySize (fun e => decide (e.state = .sealed ∧ e.owner = c.stall)) = true) ∧ (sha384 p = d.policyDigest) ∧ (policyFault p d.owners = some off) := by decide +kernel

/-- Witness: TollPolicyAndBudget, clause 4. -/
theorem wit_TollPolicyAndBudget_4 : let x : Stall := stallOf .keyed; let d : StallData := data0; let s : State := svcToll [] none; let c : Call := call5 0x0901; let addr : Nat := 8; let image : BufRead := .failed; (s.admits c 0x0901) ∧ (s.stall? c.stall = some x) ∧ (s.stallData? c.stall = some d) ∧ (addr % 16 ≠ 0) := by decide +kernel

/-- Witness: TollPolicyAndBudget, clause 5. -/
theorem wit_TollPolicyAndBudget_5 : let x : Stall := { stallOf .keyed with measLocked := true }; let d : StallData := data0; let s : State := { svcToll [] none with stl := { svc.stl with table := [(0, stallOf .keyed), (5, x)], data := [(0, StallData.fresh), (5, d)] } }; let c : Call := call5 0x0903; let owner : Nat := 0; let dst : Nat := 64; let nonce : Bytes := zeros 32; let sigs : Bytes := zeros 4728; let o : OwnerEntry := { index := 0, valid := true, keyDigest := zeros 48, kEst := zeros 48 }; let b : Bytes := s.budgetBody c.stall x d owner o nonce ++ (padTo 4728 sigs).take 4728; let room : Nat := b.length; (s.admits c 0x0903) ∧ (s.stall? c.stall = some x) ∧ (s.stallData? c.stall = some d) ∧ (d.owners[owner]? = some o) ∧ (x.measLocked = true) ∧ (b = s.budgetBody c.stall x d owner o nonce ++ (padTo 4728 sigs).take 4728) ∧ (b.length ≤ room) := by
  intro x d s c owner dst nonce sigs o b room
  exact ⟨by decide +kernel, by decide +kernel, by decide +kernel, by decide +kernel, by decide +kernel, rfl, Nat.le_refl _⟩

/-- Witness: TollPolicyAndBudget, clause 6. -/
theorem wit_TollPolicyAndBudget_6 : let x : Stall := { stallOf .keyed with measLocked := true }; let d : StallData := data0; let s : State := { svcToll [] none with stl := { svc.stl with table := [(0, stallOf .keyed), (5, x)], data := [(0, StallData.fresh), (5, d)] } }; let c : Call := call5 0x0903; let owner : Nat := 0; let dst : Nat := 64; let nonce : Bytes := zeros 32; let sigs : Bytes := zeros 4728; let o : OwnerEntry := { index := 0, valid := true, keyDigest := zeros 48, kEst := zeros 48 }; let b : Bytes := s.budgetBody c.stall x d owner o nonce ++ (padTo 4728 sigs).take 4728; let room : Nat := 0; let ok : Bool := true; (s.admits c 0x0903) ∧ (s.stall? c.stall = some x) ∧ (s.stallData? c.stall = some d) ∧ (d.owners[owner]? = some o) ∧ (x.measLocked = true) ∧ (b = s.budgetBody c.stall x d owner o nonce ++ (padTo 4728 sigs).take 4728) ∧ (room < b.length) := by
  intro x d s c owner dst nonce sigs o b room ok
  exact ⟨by decide +kernel, by decide +kernel, by decide +kernel, by decide +kernel, by decide +kernel, rfl, List.length_pos_iff.2 (by simp [b, State.budgetBody, leBytes])⟩

/-- Witness: TollPolicyAndBudget, clause 7. -/
theorem wit_TollPolicyAndBudget_7 : let x : Stall := stallOf .keyed; let d : StallData := data0; let s : State := svcToll [] none; let c : Call := call5 0x0903; let owner : Nat := 3; let dst : Nat := 64; let room : Nat := 0; let nonce : Bytes := []; let sigs : Bytes := []; let ok : Bool := true; (s.admits c 0x0903) ∧ (s.stall? c.stall = some x) ∧ (s.stallData? c.stall = some d) ∧ (d.owners[owner]? = none) := by decide +kernel

/-- Witness: TollExports, clause 1. -/
theorem wit_TollExports_1 : let s : State := svcToll [] (some { exp0 4 [] [] with call := call5 0x0100 }); let r : Export := { exp0 4 [] [] with call := call5 0x0100 }; let c : Call := call5 0x0902; let rule : Nat := 0; let owner : Nat := 0; let outFmt : Nat := 2; let cls : Nat := 0; let handle : Nat := 0x00530004; let src : Nat := 0; let len : Nat := 32; let stage : Nat := 64; let dst : Nat := 128; let hdr : Nat := 192; let tag : Nat := 256; let policy : BufRead := .failed; let b : BufRead := .failed; (s.admits c 0x0902) ∧ (s.tol.running = some r) ∧ (r.call ≠ c) ∧ (s.tol.queue.any (fun x => decide (x.call = c)) = false) ∧ (s.tol.queue.length < 32) := by decide +kernel

/-- Witness: TollExports, clause 2. -/
theorem wit_TollExports_2 : let s : State := svcBth 0x00530004; let c : Call := call5 0x0902; let rule : Nat := 0; let owner : Nat := 0; let outFmt : Nat := 2; let cls : Nat := 0; let handle : Nat := 0x00530004; let src : Nat := 0; let len : Nat := 32; let stage : Nat := 64; let dst : Nat := 128; let hdr : Nat := 192; let tag : Nat := 256; let policy : BufRead := .failed; let b : BufRead := .failed; (s.admits c 0x0902) ∧ (s.tol.running = none) ∧ (s.inUnitReset unitTollgate = false) ∧ (s.tol.queue = []) ∧ (assocGet c.stall s.tol.policies = none) := by decide +kernel

/-- Witness: TollExports, clause 3. -/
theorem wit_TollExports_3 : let p : Bytes := polImg (rule0 1 10 255); let s : State := svcToll p none; let e : Export := { exp0 1 [] [] with outFmt := 1, nonce := [] }; let st : Nat := stTolRule; let c : Call := call5 0x0902; let rule : Nat := 0; let owner : Nat := 0; let outFmt : Nat := 1; let cls : Nat := 0; let handle : Nat := 0x00530004; let src : Nat := 0; let len : Nat := 32; let stage : Nat := 64; let dst : Nat := 128; let hdr : Nat := 192; let tag : Nat := 256; let addr : Nat := 0; let x : Stall := stallOf .keyed; let d : StallData := data0; let policy : BufRead := .failed; let b : BufRead := .failed; (s.admits c 0x0902) ∧ (s.tol.running = none) ∧ (s.inUnitReset unitTollgate = false) ∧ (s.tol.queue = []) ∧ (s.stall? c.stall = some x) ∧ (s.stallData? c.stall = some d) ∧ (assocGet c.stall s.tol.policies = some (addr, x.tag)) ∧ (s.policyOf c.stall x.tag = some p) ∧ (e = exportOf c rule owner outFmt cls handle src len stage dst hdr tag) ∧ (s.exportCheck e p = .inl st) := by decide +kernel

/-- Witness: TollExports, clause 4. -/
theorem wit_TollExports_4 : let p : Bytes := polImg (rule0 1 10 255); let s : State := svcToll p none; let e : Export := { exp0 1 [] [] with nonce := [] }; let e' : Export := { exp0 1 (polRule (polImg (rule0 1 10 255)) 0) [] with nonce := [] }; let c : Call := call5 0x0902; let rule : Nat := 0; let owner : Nat := 0; let outFmt : Nat := 2; let cls : Nat := 0; let handle : Nat := 0x00530004; let src : Nat := 0; let len : Nat := 32; let stage : Nat := 64; let dst : Nat := 128; let hdr : Nat := 192; let tag : Nat := 256; let addr : Nat := 0; let x : Stall := stallOf .keyed; let d : StallData := data0; let policy : BufRead := .failed; let b : BufRead := .failed; (s.admits c 0x0902) ∧ (s.tol.running = none) ∧ (s.inUnitReset unitTollgate = false) ∧ (s.tol.queue = []) ∧ (s.stall? c.stall = some x) ∧ (s.stallData? c.stall = some d) ∧ (assocGet c.stall s.tol.policies = some (addr, x.tag)) ∧ (s.policyOf c.stall x.tag = some p) ∧ (e = exportOf c rule owner outFmt cls handle src len stage dst hdr tag) ∧ (s.exportCheck e p = .inr e') ∧ (e'.gradient = false) ∧ (s.sbx.entropyOk = true) := by decide +kernel

/-- Witness: TollExports, clause 5. -/
theorem wit_TollExports_5 : let p : Bytes := polImg (rule0 2 4 0); let s : State := svcToll p none; let e : Export := { exp0 1 [] [] with outFmt := 1, nonce := [] }; let e' : Export := { exp0 1 (polRule (polImg (rule0 2 4 0)) 0) (polClass (polImg (rule0 2 4 0)) 0) with outFmt := 1, nonce := [] }; let b : Bytes := zeros 32; let xs : List Nat := elements e'.inBf16 b; let c : Call := call5 0x0902; let rule : Nat := 0; let owner : Nat := 0; let outFmt : Nat := 1; let cls : Nat := 0; let handle : Nat := 0x00530004; let src : Nat := 0; let len : Nat := 32; let stage : Nat := 64; let dst : Nat := 128; let hdr : Nat := 192; let tag : Nat := 256; let addr : Nat := 0; let x : Stall := stallOf .keyed; let d : StallData := data0; let policy : BufRead := .failed; (s.admits c 0x0902) ∧ (s.tol.running = none) ∧ (s.inUnitReset unitTollgate = false) ∧ (s.tol.queue = []) ∧ (s.stall? c.stall = some x) ∧ (s.stallData? c.stall = some d) ∧ (assocGet c.stall s.tol.policies = some (addr, x.tag)) ∧ (s.policyOf c.stall x.tag = some p) ∧ (e = exportOf c rule owner outFmt cls handle src len stage dst hdr tag) ∧ (s.exportCheck e p = .inr e') ∧ (e'.gradient = true) ∧ (e'.clip ≠ fpInf) ∧ (s.sbx.entropyOk = true) ∧ (b.length = len) ∧ (xs = elements e'.inBf16 b) ∧ (xs.any fpSpecial = false) := by decide +kernel

/-- Witness: TollExports, clause 6. -/
theorem wit_TollExports_6 : let p : Bytes := polImg (rule0 2 4 0); let s : State := svcToll p none; let e : Export := { exp0 1 [] [] with outFmt := 1, nonce := [] }; let e' : Export := { exp0 1 (polRule (polImg (rule0 2 4 0)) 0) (polClass (polImg (rule0 2 4 0)) 0) with outFmt := 1, nonce := [] }; let b : Bytes := [0, 0, 0x80, 0x7F] ++ zeros 28; let xs : List Nat := elements e'.inBf16 b; let c : Call := call5 0x0902; let rule : Nat := 0; let owner : Nat := 0; let outFmt : Nat := 1; let cls : Nat := 0; let handle : Nat := 0x00530004; let src : Nat := 0; let len : Nat := 32; let stage : Nat := 64; let dst : Nat := 128; let hdr : Nat := 192; let tag : Nat := 256; let addr : Nat := 0; let x : Stall := stallOf .keyed; let d : StallData := data0; let policy : BufRead := .failed; (s.admits c 0x0902) ∧ (s.tol.running = none) ∧ (s.inUnitReset unitTollgate = false) ∧ (s.tol.queue = []) ∧ (s.stall? c.stall = some x) ∧ (s.stallData? c.stall = some d) ∧ (assocGet c.stall s.tol.policies = some (addr, x.tag)) ∧ (s.policyOf c.stall x.tag = some p) ∧ (e = exportOf c rule owner outFmt cls handle src len stage dst hdr tag) ∧ (s.exportCheck e p = .inr e') ∧ (e'.gradient = true) ∧ (e'.clip ≠ fpInf) ∧ (s.sbx.entropyOk = true) ∧ (b.length = len) ∧ (xs = elements e'.inBf16 b) ∧ (xs.any fpSpecial = true) := by decide +kernel

/-- Witness: TollExports, clause 7. -/
theorem wit_TollExports_7 : let p : Bytes := polImg (rule0 2 4 0); let e : Export := exp0 3 (rule0 2 4 0) (polClass (polImg (rule0 2 4 0)) 0); let s : State := svcToll p (some e); let d : StallData := data0; let x : Stall := stallOf .keyed; let pays : Bool := true; let c : Nat := 0; (s.tol.running = some e) ∧ (e.phase = 3) ∧ (s.alr.quiet = false) ∧ (s.rst.coreReset = none) ∧ (e.seq = 0) ∧ (s.stall? e.call.stall = some x) ∧ (s.stallData? e.call.stall = some d) ∧ ((s.tol.cache.find? fun x => x.1 = e.call.stall) = some (e.call.stall, x.tag, p)) ∧ (pays = (e.gradient && polBudget p e.owner)) ∧ (c = leField e.ruleBytes 10 1) ∧ (e.owner < 8) ∧ (c < 8) := by decide +kernel

/-- Witness: TollExports, clause 8. -/
theorem wit_TollExports_8 : let e : Export := { exp0 3 (rule0 1 10 255) [] with seq := 4 }; let s : State := svcToll [] (some e); (s.tol.running = some e) ∧ (e.phase = 3) ∧ (s.alr.quiet = false) ∧ (s.rst.coreReset = none) ∧ (e.seq ≠ 0) := by decide +kernel

/-- Witness: TollExports, clause 9. -/
theorem wit_TollExports_9 : let e : Export := exp0 4 (rule0 1 10 255) []; let s : State := svcToll [] (some e); let b : Bytes := zeros 32; let h : Bytes := s.exportHeader e; let stalls : Nat := 0; (s.tol.running = some e) ∧ (e.phase = 4) ∧ (s.alr.quiet = false) ∧ (e.gradient = false) ∧ (b.length = e.len) ∧ (s.bth.holder.isSome = true) ∧ (h = s.exportHeader e) := by decide +kernel

/-- Witness: TollExports, clause 10. -/
theorem wit_TollExports_10 : let e : Export := exp0 4 (rule0 2 4 0) (polClass (polImg (rule0 2 4 0)) 0); let s : State := svcToll [] (some e); let b : Bytes := zeros 32; let stalls : Nat := 0; let xs : List Nat := elements e.inBf16 b; let out : Bytes := mainPass e.outBf16 e.clip e.norm e.grid s.fresh 0 xs; (s.tol.running = some e) ∧ (e.phase = 4) ∧ (s.alr.quiet = false) ∧ (s.sbx.entropyOk = true) ∧ (e.gradient = true) ∧ (b.length = e.len) ∧ (s.bth.holder.isSome = true) ∧ (xs = elements e.inBf16 b) ∧ (xs.any fpSpecial = false) ∧ (out = mainPass e.outBf16 e.clip e.norm e.grid s.fresh 0 xs) := by
  intro e s b stalls xs out
  exact ⟨by decide +kernel, by decide +kernel, by decide +kernel, by decide +kernel, by decide +kernel, by decide +kernel, by decide +kernel, by decide +kernel, by decide +kernel, rfl⟩

/-- Witness: TollExports, clause 11. -/
theorem wit_TollExports_11 : let e : Export := exp0 4 (rule0 1 10 255) []; let s : State := svcToll [] (some e); let stageAt : Option Nat := none; let hdrOk : Bool := true; let stalls : Nat := 0; (s.tol.running = some e) ∧ (e.phase = 4) ∧ (s.alr.quiet = false) ∧ (s.sbx.entropyOk = true) := by decide +kernel

/-- Witness: TollExports, clause 12. -/
theorem wit_TollExports_12 : let e : Export := { exp0 5 (rule0 1 10 255) [] with header := zeros 64 }; let s : State := { svcToll [] (some e) with bth := svc.bth, sbx := { svc.sbx with slots := [(0, KeySlot.fresh 0x00530004 0 0 (zeros 32))] } }; let k : KeyEntry := { keyE 0x00530004 with usage := 15 }; let src : BufRead := .failed; let stageAt : Option Nat := none; let hdrOk : Bool := true; let stalls : Nat := 0; (s.tol.running = some e) ∧ (e.phase = 5) ∧ (s.alr.quiet = false) ∧ (s.bth.tollgate = false) ∧ (s.bth.holder = none) ∧ (s.bth.running = none) ∧ (s.inUnitReset unitBooth = false) ∧ (s.sbx.zeroNet = false) ∧ (s.boothCheck e.op = none) ∧ (s.liveEntry? e.handle = some k) ∧ ((s.sbx.slotOf e.handle k.gen).isSome = true) := by decide +kernel

/-- Witness: TollExports, clause 13. -/
theorem wit_TollExports_13 : let e : Export := { exp0 5 (rule0 1 10 255) [] with header := zeros 64 }; let o : BoothOp := e.op; let s : State := { svcToll [] (some e) with bth := { svc.bth with holder := some (0, 5), tollgate := true, running := some o } }; let io : BoothIo := { bio0 with src := .ok (zeros 32) }; let data : Bytes := zeros 32; let ct : Bytes := o.output (s.boothKey o) data; let tag : Bytes := o.tagOf (s.boothKey o) (o.header.getD []) data; (s.handsOff o e) ∧ (o.mode = 0) ∧ (o.decrypt = false) ∧ (io.src = .ok data) ∧ (data.length = o.len) ∧ (io.failedAt = none) ∧ (ct = o.output (s.boothKey o) data) ∧ (tag = o.tagOf (s.boothKey o) (o.header.getD []) data) ∧ (e.nonce.length = 12) := by decide +kernel

/-- Witness: BeaconAndCounterBanks, clause 1. -/
theorem wit_BeaconAndCounterBanks_1 : let s : State := svcReg; let fn : Nat := 3; (s.grants fn true 0x0D0014) ∧ (s.obs.held = false) := by decide +kernel

/-- Witness: BeaconAndCounterBanks, clause 2. -/
theorem wit_BeaconAndCounterBanks_2 : let s : State := { svcReg with obs := { svc.obs with held := true } }; let fn : Nat := 3; (s.grants fn true 0x0D0014) ∧ (s.obs.held = true) := by decide +kernel

/-- Witness: BeaconAndCounterBanks, clause 3. -/
theorem wit_BeaconAndCounterBanks_3 : let s : State := { svcReg with obs := { svc.obs with held := true } }; let fn : Nat := 3; (s.grants fn true 0x0D0014) := by decide +kernel

/-- Witness: BeaconAndCounterBanks, clause 4. -/
theorem wit_BeaconAndCounterBanks_4 : let s : State := { svc with mon := { svc.mon with stop := some 5 } }; (s.mon.stop.isSome = true) := by decide +kernel

/-- Witness: BeaconAndCounterBanks, clause 5. -/
theorem wit_BeaconAndCounterBanks_5 : let s : State := { svc with obs := { svc.obs with freezeDue := some 3 } }; let src : Nat := 3; let k : Nat := 83; let stale : Bool := false; (s.mon.stop = none) ∧ (s.obs.freezeDue = some src) ∧ (stale = s.obs.rings.any (fun p => p.2.frozen)) ∧ (k < 84) := by decide +kernel

/-- Witness: BeaconAndCounterBanks, clause 6. -/
theorem wit_BeaconAndCounterBanks_6 : let s : State := svc; let c : Call := call00 0x0C02; let at_ : Nat := 0; (s.admits c 0x0C02) ∧ (s.obs.armCall.contains c = false) ∧ (s.obs.held = false) ∧ (s.obs.armed = false) := by decide +kernel

/-- Witness: BeaconAndCounterBanks, clause 7. -/
theorem wit_BeaconAndCounterBanks_7 : let s : State := { svc with obs := { svc.obs with held := true } }; let c : Call := call00 0x0C02; let at_ : Nat := 0; (s.admits c 0x0C02) ∧ (s.obs.armCall.contains c = false) ∧ (s.obs.held = true ∨ s.obs.armed = true) := by decide +kernel

/-- Witness: BeaconAndCounterBanks, clause 8. -/
theorem wit_BeaconAndCounterBanks_8 : let s : State := { svc with obs := { svc.obs with armed := true, armTime := 10 ^ 12, armCall := [call00 0x0C02] } }; let c : Call := call00 0x0C02; (s.mon.stop = none) ∧ (s.obs.freezeDue = none) ∧ (s.obs.armed = true) ∧ (s.obs.armTime ≠ 0) ∧ (s.obs.armTime ≤ s.clk.domain) ∧ (s.obs.armCall = [c]) ∧ (s.obs.held = false) ∧ (s.alr.quiet = false) := by decide +kernel

/-- Witness: BeaconAndCounterBanks, clause 9. -/
theorem wit_BeaconAndCounterBanks_9 : let s : State := { svcReg with obs := { svc.obs with counters := [(3800, 4)], invalid := [3801] } }; let fn : Nat := 3; let bank : Nat := 14; let n : Nat := 3800; (s.grants fn true 0x0D0010) ∧ (bank < 16) ∧ (s.obs.bankFault.getLsbD bank = false) ∧ (n ≠ 12) ∧ (n ≠ 13) := by decide +kernel

/-- Witness: BeaconAndCounterBanks, clause 10. -/
theorem wit_BeaconAndCounterBanks_10 : let s : State := { svcReg with obs := { svc.obs with counters := [(3800, 4)], bankFault := 0x4000 } }; let fn : Nat := 3; let bank : Nat := 14; let n : Nat := 3800; (s.grants fn true 0x0D0010) ∧ (bank < 16) ∧ (s.obs.bankFault.getLsbD bank = true) ∧ (n ≠ 12) ∧ (n ≠ 13) := by decide +kernel

/-- Witness: BeaconAndCounterBanks, clause 11. -/
theorem wit_BeaconAndCounterBanks_11 : let s : State := { svc with obs := { svc.obs with testing := 0x8000 } }; let counter : Nat := 4095; let b : Nat := 15; let n : Nat := 3840; let fault : Bool := true; (counter < 4096) ∧ (b = counter / 256) ∧ (s.obs.bankFault.getLsbD b = false) ∧ (n ≠ ctrRcu 6) ∧ (n / 256 = b) := by decide +kernel

/-- Witness: BeaconAndCounterBanks, clause 12. -/
theorem wit_BeaconAndCounterBanks_12 : let s : State := { svc with obs := { svc.obs with bankFault := 0x8000 } }; let counter : Nat := 4095; let fault : Bool := false; (s.obs.bankFault.getLsbD (counter % 4096 / 256) = true) := by decide +kernel

/-- Witness: BeaconAndCounterBanks, clause 13. -/
theorem wit_BeaconAndCounterBanks_13 : let s : State := { svcReg with obs := { svc.obs with track := [(62, 5), (1, 6)], counters := [(3311, 4)] } }; let fn : Nat := 3; let k : Nat := 62; let stall : Nat := 4095; let n : Nat := 15; (s.grants fn true (0x0D0100 + 4 * k)) ∧ (1 ≤ k) ∧ (k ≤ 62) ∧ (1 ≤ stall) ∧ (stall < 4096) ∧ (s.obs.track.any (fun p => decide (p.1 ≠ k ∧ p.2 = stall)) = false) ∧ (s.obs.bankFault.getLsbD ((2304 + 16 * k) / 256) = false) ∧ (n < 16) := by decide +kernel

/-- Witness: BeaconAndCounterBanks, clause 14. -/
theorem wit_BeaconAndCounterBanks_14 : let s : State := { svcReg with obs := { svc.obs with track := [(1, 6)] } }; let fn : Nat := 3; let k : Nat := 62; let stall : Nat := 6; let n : Nat := 0; (s.grants fn true (0x0D0100 + 4 * k)) ∧ (1 ≤ k) ∧ (k ≤ 62) ∧ (stall < 4096) ∧ (n ≠ 12) ∧ (n ≠ 13) ∧ (stall = 0 ∨ s.obs.track.any (fun p => decide (p.1 ≠ k ∧ p.2 = stall)) = true) := by decide +kernel

/-- Witness: DoldrumsAndHangDump, clause 1. -/
theorem wit_DoldrumsAndHangDump_1 : let s : State := { svc with mrk := { svc.mrk with waits := [{ call := call5 0x0704, index := 1, value := 1, deadline := none }] } }; (s.alr.quiet = false) ∧ (s.alr.doldrums = false) ∧ (s.mon.stop = none) ∧ (s.rst.coreReset = none) ∧ (s.rst.phase = .service) ∧ (s.waitCount ≠ 0) ∧ (s.alr.progressAt + s.cfg.engine.tDoldrums * 1000000 ≤ s.clk.elapsed) := by decide +kernel

/-- Witness: DoldrumsAndHangDump, clause 2. -/
theorem wit_DoldrumsAndHangDump_2 : let s : State := svc; (s.waitCount = 0 ∨ s.clk.elapsed < s.alr.progressAt + s.cfg.engine.tDoldrums * 1000000 ∨ s.alr.doldrums = true) := by decide +kernel

/-- Witness: DoldrumsAndHangDump, clause 3. -/
theorem wit_DoldrumsAndHangDump_3 : let s : State := { svc with alr := { svc.alr with doldrums := true, progressed := true } }; (s.alr.doldrums = true) ∧ (s.alr.progressed = true) := by decide +kernel

/-- Witness: DoldrumsAndHangDump, clause 4. -/
theorem wit_DoldrumsAndHangDump_4 : let s : State := { svc with alr := { svc.alr with doldrums := true } }; (s.alr.progressed = false) := by decide +kernel

/-- Witness: DoldrumsAndHangDump, clause 5. -/
theorem wit_DoldrumsAndHangDump_5 : let s : State := svc; let c : Call := call00 0x0C01; let stall : Nat := 5; let dst : Nat := 0; let outp : Nat := 0; let room : Nat := 0; let work : Bytes := []; let a : Bool := true; let b : Bool := true; (s.admits c 0x0C01) ∧ (s.alr.dumpOpen = false) := by decide +kernel

/-- Witness: DoldrumsAndHangDump, clause 6. -/
theorem wit_DoldrumsAndHangDump_6 : let s : State := { svc with alr := { svc.alr with dumpOpen := true } }; let c : Call := call00 0x0C01; let dst : Nat := 0; let outp : Nat := 0; let room : Nat := 0; let work : Bytes := []; let m : Bytes := s.dumpMeta; let b : Bool := true; (s.admits c 0x0C01) ∧ (s.alr.dumpOpen = true) ∧ (m = s.dumpMeta) := by
  intro s c dst outp room work m b
  exact ⟨by decide +kernel, by decide +kernel, rfl⟩

/-- Witness: DoldrumsAndHangDump, clause 7. -/
theorem wit_DoldrumsAndHangDump_7 : let s : State := { svc with alr := { svc.alr with dumpOpen := true } }; let c : Call := call00 0x0C01; let dst : Nat := 0; let outp : Nat := 0; let room : Nat := 0; let work : Bytes := []; let b : Bool := true; (s.admits c 0x0C01) ∧ (s.alr.dumpOpen = true) := by decide +kernel

/-- Witness: DoldrumsAndHangDump, clause 8. -/
theorem wit_DoldrumsAndHangDump_8 : let k : KeyEntry := { keyE 0x00550001 with keyLen := 32 }; let d : StallData := { StallData.fresh with keys := [k] }; let s : State := { svcKey 0x00550001 with alr := { svc.alr with dumpOpen := true } }; let c : Call := call00 0x0C01; let id : Nat := 5; let dst : Nat := 0; let outp : Nat := 0; let work : Bytes := []; let x : Stall := stallOf .keyed; let m : Bytes := s.dumpMeta; let n : Nat := ceilDiv (sectionBytes (s.dumpSections id x d work)).length 16 + 1; let b : Bytes := s.stallDump id x d k (s.tookDraw.drawn 12) (s.dumpSections id x d work); let room : Nat := b.length; (s.admits c 0x0C01) ∧ (s.alr.dumpOpen = true) ∧ (id < 4096) ∧ (s.ald.restored = true) ∧ (s.stall? id = some x) ∧ (s.stallData? id = some d) ∧ (s.resident id = true) ∧ (d.dumpKey = some k) ∧ (s.sbx.entropyOk = true) ∧ (s.sbx.entropyWaits = []) ∧ (s.obs.waits = []) ∧ (m = s.dumpMeta) ∧ (n = ceilDiv (sectionBytes (s.dumpSections id x d work)).length 16 + 1) ∧ (b = s.stallDump id x d k (s.tookDraw.drawn 12) (s.dumpSections id x d work)) ∧ (b.length ≤ room) := by
  intro k d s c id dst outp work x m n b room
  exact ⟨by decide +kernel, by decide +kernel, by decide +kernel, by decide +kernel, by decide +kernel, by decide +kernel, by decide +kernel, by decide +kernel, by decide +kernel, by decide +kernel, by decide +kernel, rfl, rfl, rfl, Nat.le_refl _⟩

/-- Witness: DoldrumsAndHangDump, clause 9. -/
theorem wit_DoldrumsAndHangDump_9 : let s : State := { svc with alr := { svc.alr with dumpOpen := true } }; let c : Call := call00 0x0C01; let id : Nat := 5; let dst : Nat := 0; let outp : Nat := 0; let room : Nat := 0; let work : Bytes := []; let m : Bytes := s.dumpMeta; let ok : Bool := true; let x : Stall := stallOf .keyed; let d : StallData := StallData.fresh; (s.admits c 0x0C01) ∧ (s.alr.dumpOpen = true) ∧ (id < 4096) ∧ (s.ald.restored = true) ∧ (s.stall? id = some x) ∧ (s.stallData? id = some d) ∧ (s.resident id = true) ∧ (d.dumpKey = none) ∧ (m = s.dumpMeta) := by
  intro s c id dst outp room work m ok x d
  exact ⟨by decide +kernel, by decide +kernel, by decide +kernel, by decide +kernel, by decide +kernel, by decide +kernel, by decide +kernel, by decide +kernel, rfl⟩

/-- Witness: RegisterAccesses, clause 1. -/
theorem wit_RegisterAccesses_1 : let s : State := State.reset; let fn : Nat := 0; let addr : Nat := 0; let data : Nat := 0; (s.rst.phase = .inReset) := by decide +kernel

/-- Witness: RegisterAccesses, clause 2. -/
theorem wit_RegisterAccesses_2 : let s : State := svcReg; let fn : Nat := 3; let addr : Nat := 0xFF0000; let data : Nat := 1; (s.rst.phase ≠ .inReset) ∧ (s.readReg fn (regAddr addr) = none) := by decide +kernel

/-- Witness: RegisterAccesses, clause 3. -/
theorem wit_RegisterAccesses_3 : let s : State := svcReg; let fn : Nat := 4; let addr : Nat := 0x000024; (s.rst.phase ≠ .inReset) ∧ ((s.readReg fn (regAddr addr)).isSome = true) ∧ (s.dead = false) ∧ (s.mayAccess fn false (regAddr addr) = false) := by decide +kernel

/-- Witness: RegisterAccesses, clause 4. -/
theorem wit_RegisterAccesses_4 : let s : State := svcReg; let fn : Nat := 4; let addr : Nat := 0x000027; let data : Nat := 1; (s.rst.phase ≠ .inReset) ∧ ((s.readReg fn (regAddr addr)).isSome = true) ∧ (s.dead = false) ∧ (s.mayAccess fn true (regAddr addr) = false) := by decide +kernel

/-- Witness: RegisterAccesses, clause 5. -/
theorem wit_RegisterAccesses_5 : let s : State := svcReg; let fn : Nat := 3; let addr : Nat := 0x000027; let v : Nat := 0; (s.grants fn false (regAddr addr)) ∧ (s.readReg fn (regAddr addr) = some v) ∧ (s.pairValue (regAddr addr) = none) ∧ (regAddr addr ≠ 0x020014) ∧ (helmOwned (regAddr addr) = false) := by decide +kernel

/-- Witness: RegisterAccesses, clause 6. -/
theorem wit_RegisterAccesses_6 : let s : State := { svcReg with clk := { svc.clk with tickCount := 2 ^ 32 + 7 } }; let fn : Nat := 3; let addr : Nat := 0x000010; let v : Nat := 2 ^ 32 + 7; (s.grants fn false (regAddr addr)) ∧ (s.pairValue (regAddr addr) = some v) ∧ (s.build.window (regAddr addr / 2 ^ 16) = true) ∧ (regAddr addr ≠ 0x060030) ∧ (v < 2 ^ 64) := by decide +kernel

/-- Witness: RegisterAccesses, clause 7. -/
theorem wit_RegisterAccesses_7 : let s : State := svcReg; let fn : Nat := 3; let data : Nat := 0xFFFFFFF5; (s.grants fn true 0x000024) := by decide +kernel

/-- Witness: RegisterAccesses, clause 8. -/
theorem wit_RegisterAccesses_8 : let s : State := { svcReg with hlm := { svc.hlm with irqComp := true, irqUrgent := true } }; let fn : Nat := 3; let data : Nat := 0xFFFFFFF8; (s.grants fn true 0x000020) ∧ (data < 2 ^ 32) := by decide +kernel

/-- Witness: RegisterAccesses, clause 9. -/
theorem wit_RegisterAccesses_9 : let s : State := svcReg; let fn : Nat := 3; let data : Nat := 4095; (s.grants fn true 0x080008) ∧ (data < 2 ^ 32) := by decide +kernel

/-- Witness: RegisterAccesses, clause 10. -/
theorem wit_RegisterAccesses_10 : let s : State := { svcReg with ald := { svc.ald with setSel := 0x3FF01 } }; let fn : Nat := 3; let data : Nat := 7; let kind : Nat := 1; let serial : Nat := 0; let word : Nat := 1023; (s.grants fn true 0x020014) ∧ (kind = s.ald.setSel.toNat % 4) ∧ (serial = s.ald.setSel.toNat / 4 % 64) ∧ (word = s.ald.setSel.toNat / 256) ∧ (kind < 3) ∧ (data < 2 ^ 32) := by decide +kernel

/-- Witness: RegisterAccesses, clause 11. -/
theorem wit_RegisterAccesses_11 : let s : State := { svcReg with ald := { svc.ald with setSel := 0x00100 } }; let fn : Nat := 3; let data : Nat := 7; let v : Nat := 0; (s.grants fn false 0x020014) ∧ (s.readReg fn 0x020014 = some v) := by decide +kernel

/-- Witness: HelmRegistersAndTap, clause 1. -/
theorem wit_HelmRegistersAndTap_1 : let s : State := svcReg; let fn : Nat := 3; let log2 : Nat := 17; let on : Bool := true; (s.grants fn true 0x0B0018) ∧ (s.hlm.evq.on = false) ∧ (log2 < 32) := by decide +kernel

/-- Witness: HelmRegistersAndTap, clause 2. -/
theorem wit_HelmRegistersAndTap_2 : let s : State := { svcReg with hlm := { svc.hlm with evq := evqOn } }; let fn : Nat := 3; let log2 : Nat := 7; let on : Bool := false; (s.grants fn true 0x0B0018) ∧ (s.hlm.evq.on = true) := by decide +kernel

/-- Witness: HelmRegistersAndTap, clause 3. -/
theorem wit_HelmRegistersAndTap_3 : let s : State := svcReg; let fn : Nat := 3; let tail : Nat := 65535; (s.grants fn true 0x0B0020) ∧ (tail < 65536) := by decide +kernel

/-- Witness: HelmRegistersAndTap, clause 4. -/
theorem wit_HelmRegistersAndTap_4 : let s : State := { svcReg with alr := { svc.alr with integrity := true } }; let fn : Nat := 3; (s.grants fn true 0x0C0000) := by decide +kernel

/-- Witness: HelmRegistersAndTap, clause 5. -/
theorem wit_HelmRegistersAndTap_5 : let s : State := { svcReg with hlm := { svc.hlm with dwBuf := [0x02000100, 0] ++ List.replicate 62 0 } }; let fn : Nat := 3; let n : Nat := 2; let st : Nat := stIssuer; let d : Nat := 0; let b : Bytes := padTo 48 (s.hlm.windowBytes.take (32 * n)); let c : Call := callOf b fn 0 0 true; (s.serving) ∧ (s.grants fn true 0x0B0100) ∧ (s.rst.coreReset = none) ∧ (s.hlm.dwBusy = false) ∧ (n = leField s.hlm.windowBytes 3 1) ∧ (1 ≤ n) ∧ (n ≤ 8) ∧ (b = padTo 48 (s.hlm.windowBytes.take (32 * n))) ∧ (c = callOf b fn 0 0 true) ∧ (s.packetStatus b c = some (st, d)) := by decide +kernel

/-- Witness: HelmRegistersAndTap, clause 6. -/
theorem wit_HelmRegistersAndTap_6 : let s : State := { svcReg with hlm := { svc.hlm with dwBuf := [0x02000A03, 0, 0, 0, 0xFFFFFFFF] ++ List.replicate 59 0 } }; let fn : Nat := 3; let n : Nat := 2; let b : Bytes := padTo 48 (s.hlm.windowBytes.take (32 * n)); let c : Call := callOf b fn 0 0 true; (s.serving) ∧ (s.grants fn true 0x0B0100) ∧ (s.rst.coreReset = none) ∧ (s.hlm.dwBusy = false) ∧ (n = leField s.hlm.windowBytes 3 1) ∧ (1 ≤ n) ∧ (n ≤ 8) ∧ (b = padTo 48 (s.hlm.windowBytes.take (32 * n))) ∧ (c = callOf b fn 0 0 true) ∧ (s.packetStatus b c = none) := by decide +kernel

/-- Witness: HelmRegistersAndTap, clause 7. -/
theorem wit_HelmRegistersAndTap_7 : let s : State := { svcReg with hlm := { svc.hlm with dwBusy := true } }; let fn : Nat := 3; (s.grants fn true 0x0B0100) ∧ (s.rst.coreReset = none) ∧ (s.hlm.dwBusy = true ∨ s.alr.quiet = true) := by decide +kernel

/-- Witness: HelmRegistersAndTap, clause 8. -/
theorem wit_HelmRegistersAndTap_8 : let s : State := svc; let ir : Nat := 0x30; (s.tapOpen ir = true) ∧ (ir = 0x20 ∨ ir = 0x21 ∨ ir = 0x30) := by decide +kernel

/-- Witness: HelmRegistersAndTap, clause 9. -/
theorem wit_HelmRegistersAndTap_9 : let s : State := { svc with lcu := { svc.lcu with state := lcDeployed } }; let ir : Nat := 0x20; let word : Nat := 1; let addr : Nat := 0; let data : Nat := 0; let write : Bool := true; (s.rst.phase = .inReset ∨ (s.lcu.state ≠ lcBlank ∧ s.lcu.state ≠ lcTestOpen ∧
      s.lcu.state ≠ lcAnalysis)) ∧ (ir = 0x20 ∨ ir = 0x21 ∨ ir = 0x30) := by decide +kernel

/-- Witness: HelmRegistersAndTap, clause 10. -/
theorem wit_HelmRegistersAndTap_10 : let s : State := { svc with lcu := { svc.lcu with state := lcAnalysis } }; let word : Nat := 0x32; (s.tapOpen 0x22 = true) ∧ (word < 256) ∧ (s.lcu.state ≠ lcAnalysis ∨ ¬ ((0x10 ≤ word ∧ word ≤ 0x31) ∨ (0xE0 ≤ word ∧ word ≤ 0xEF))) ∧ (s.lcu.job = none) ∧ (s.lcu.tapRead = none) := by decide +kernel

/-- Witness: HelmRegistersAndTap, clause 11. -/
theorem wit_HelmRegistersAndTap_11 : let s : State := { svc with lcu := { svc.lcu with state := lcAnalysis } }; let word : Nat := 0xEF; (s.lcu.state = lcAnalysis) ∧ ((0x10 ≤ word ∧ word ≤ 0x31) ∨ (0xE0 ≤ word ∧ word ≤ 0xEF)) := by decide +kernel

/-- Witness: HelmRegistersAndTap, clause 12. -/
theorem wit_HelmRegistersAndTap_12 : let s : State := svc; let addr : Nat := 0x000027; let data : Nat := 0; let v : Nat := 0; (s.tapOpen 0x31 = true) ∧ (s.dead = false) ∧ (s.readReg 0 (regAddr addr) = some v) ∧ (s.pairValue (regAddr addr) = none) ∧ (regAddr addr ≠ 0x020014) ∧ (helmOwned (regAddr addr) = false) := by decide +kernel

/-- Witness: HelmRegistersAndTap, clause 13. -/
theorem wit_HelmRegistersAndTap_13 : let s : State := svc; let data : Nat := 0xFF; (s.tapOpen 0x31 = true) ∧ (s.dead = false) := by decide +kernel

/-- Witness: StepRunsTheFrontCommand, clause 1. -/
theorem wit_StepRunsTheFrontCommand_1 : let s : State := { svc with pending := [.hintBoothClassEnd, .hintBoothClassEnd] }; let c : Instr := .hintBoothClassEnd; let rest : List Instr := [.hintBoothClassEnd]; (s.pending = c :: rest) := by decide +kernel

/-- Witness: StepRunsTheFrontCommand, clause 2. -/
theorem wit_StepRunsTheFrontCommand_2 : let s : State := svc; (s.pending = []) := by decide +kernel

/-- Witness: EveryStepKeepsTheEngines, clause 1. -/
theorem wit_EveryStepKeepsTheEngines_1 : let s : State := { svc with pending := [.hintBoothClassEnd] }; let t : State := svc; (s.enginesMatch) ∧ (step s = .next t) := by
  intro s t
  exact ⟨by decide +kernel, rfl⟩

/-- Witness: EveryCommandRuns, clause 1. -/
theorem wit_EveryCommandRuns_1 : let s : State := svc; let c : Instr := .epochApply 23; (s.hasEngine c = true) := by decide +kernel

/-- Witness: EveryCommandRuns, clause 2. -/
theorem wit_EveryCommandRuns_2 : let s : State := svc; let c : Instr := .epochApply 24; let e : Nat × Nat := (0, 24); (s.hasEngine c = false) ∧ (c.engine = some e) := by decide +kernel

/-- Witness: WhatNoCommandUndoes, clause 1. -/
theorem wit_WhatNoCommandUndoes_1 : let s : State := { svc with lcu := { svc.lcu with fuses := [(3, 4)] }, pending := [.hintBoothClassEnd] }; let t : State := { svc with lcu := { svc.lcu with fuses := [(3, 4)] } }; let c : Instr := .hintBoothClassEnd; let rest : List Instr := []; let w : Nat := 3; let b : Nat := 2; (s.pending = c :: rest) ∧ (step s = .next t) ∧ ((s.lcu.fuse w).testBit b = true) := by
  intro s t c rest w b
  exact ⟨by decide +kernel, rfl, by decide +kernel⟩

/-- Witness: WhatNoCommandUndoes, clause 2. -/
theorem wit_WhatNoCommandUndoes_2 : let s : State := { svc with alr := { svc.alr with quiet := true }, pending := [.hintBoothClassEnd] }; let t : State := { svc with alr := { svc.alr with quiet := true } }; let c : Instr := .hintBoothClassEnd; let rest : List Instr := []; (s.pending = c :: rest) ∧ (step s = .next t) ∧ (c.isReset = false) ∧ (s.alr.quiet = true) := by
  intro s t c rest
  exact ⟨by decide +kernel, rfl, by decide +kernel, by decide +kernel⟩

/-- Witness: WhatNoCommandUndoes, clause 3. -/
theorem wit_WhatNoCommandUndoes_3 : let s : State := { State.reset with pending := [.hintBoothClassEnd] }; let t : State := State.reset; let c : Instr := .hintBoothClassEnd; let rest : List Instr := []; (s.pending = c :: rest) ∧ (step s = .next t) ∧ (c.isReset = false) ∧ (s.rst.phase = .inReset) := by
  intro s t c rest
  exact ⟨by decide +kernel, rfl, by decide +kernel, by decide +kernel⟩

/-- Witness: WhatNoCommandUndoes, clause 4. -/
theorem wit_WhatNoCommandUndoes_4 : let s : State := { svc with pending := [.hintBoothClassEnd] }; let t : State := svc; let c : Instr := .hintBoothClassEnd; let rest : List Instr := []; (s.pending = c :: rest) ∧ (step s = .next t) ∧ (c.isReset = false) := by
  intro s t c rest
  exact ⟨by decide +kernel, rfl, by decide +kernel⟩

end Sys2Proof.Tests
end

/-!
Every command keeps the engines, and only a missing engine faults (O58, O59).

What a command does to the state is a chain of the model's operations, and each of those keeps what Steady states (the lemmas
`…_steady` of Laws/). A lemma `exec…_runs` follows the branches of its command, one `.ite` for each check in order and one bullet for each
case of a match, and names in every branch the operations that led there. `exec_answers` is the table of them, from which both statements
follow; the resets, which make the engines anew, come last.
-/

namespace Sys2Proof.Machine

/-! ### Steady states -/

/-- What `Steady` compares: the build, the queue, elapsed time, the number of engines, the fuse bits, the quiet state and the phase. -/
def State.kept (s : State) : Build × List Instr × Nat × (Nat × Nat × Nat) × (Nat → Nat) × Bool × Phase :=
  (s.build, s.pending, s.clk.elapsed, (s.mse.length, s.lse.length, s.hse.length), s.lcu.fuse, s.alr.quiet, s.rst.phase)

/-- A state that keeps all of it is as steady as the state it comes from. -/
theorem Steady.update {s t u : State} (h : Steady s t) (hk : u.kept = t.kept) : Steady s u := by
  simp only [State.kept, Prod.mk.injEq] at hk
  obtain ⟨build, pending, elapsed, ⟨mse, lse, hse⟩, fuses, quiet, phase⟩ := hk
  exact h.trans ⟨build, pending, elapsed, mse, lse, hse, fun _ _ k => fuses ▸ k, fun k => quiet ▸ k, fun k => phase ▸ k⟩

theorem Steady.begin {s : State} : Steady s s.begin := State.begin_steady .refl

/-- A state that was not in P or S when the command began may change its phase. -/
theorem Steady.with_rst {s t : State} (h : Steady s t) (hp : s.rst.phase ≠ .inReset) (r : Rst) : Steady s { t with rst := r } :=
  ⟨h.build, h.pending, h.elapsed, h.mse, h.lse, h.hse, h.fuses, h.quiet, fun k => absurd k hp⟩

theorem Steady.foldlFst {s : State} {α β : Type} {f : State × β → α → State × β} {l : List α} {p : State × β}
    (h : Steady s p.1) (hf : ∀ q a, Steady s q.1 → Steady s (f q a).1) : Steady s (l.foldl f p).1 := by
  induction l generalizing p with
  | nil => exact h
  | cons a l ih => exact ih (hf p a h)

/-! ### What a command can answer -/

/-- The number of engines of a kind: 0 MSE, 1 LSE, 2 HSE (R9). -/
def State.engines (s : State) (unit : Nat) : Nat :=
  if unit = 0 then s.mse.length else if unit = 1 then s.lse.length else s.hse.length

/-- The outcome is a next state that keeps what every command but a reset and its release keeps. -/
def Runs (s : State) (o : Host.Outcome State Fault Refusal) : Prop := ∃ t, o = .next t ∧ Steady s t

/-- The outcome of a command of engine `i` of a kind: it runs where the engine exists, and faults where it does not (R6, R47). -/
structure RunsOn (unit i : Nat) (s : State) (o : Host.Outcome State Fault Refusal) : Prop where
  runs : i < s.engines unit → Runs s o
  faults : ¬ i < s.engines unit → o = .fault (.noSuchPort unit i)

theorem Runs.done {s t : State} (h : Steady s t) : Runs s (Machine.done t) := ⟨t, rfl, h⟩

theorem Runs.ite {s : State} {c : Prop} [Decidable c] {a b : Host.Outcome State Fault Refusal} (ha : Runs s a) (hb : Runs s b) :
    Runs s (if c then a else b) := by
  split <;> assumption

theorem Runs.command {s : State} {c : Call} {op : Nat} {body : State → State} (h : ∀ t, Steady s t → Steady s (body t)) :
    Runs s (Machine.done (s.command c op body)) := .done (State.command_steady c op body h .refl)

/-- A command that is the write of a register. -/
theorem Runs.regWrite {s : State} (fn : Option Nat) (a data : Nat) : Runs s (Machine.done (s.begin.regWrite fn a data)) :=
  .done (State.regWrite_steady _ _ _ .begin)

/-- The engine is looked up in its list: no entry faults, an entry runs. -/
theorem RunsOn.lookup {α : Type} {unit i : Nat} {s : State} {o : Host.Outcome State Fault Refusal} (l : List α)
    (hl : l.length = s.engines unit) (hnone : l[i]? = none → o = .fault (.noSuchPort unit i))
    (hsome : ∀ a, l[i]? = some a → Runs s o) : RunsOn unit i s o :=
  ⟨fun h => hsome _ (List.getElem?_eq_getElem (hl ▸ h)), fun h => hnone (List.getElem?_eq_none (by omega))⟩

theorem RunsOn.ite {unit i : Nat} {s : State} {c : Prop} [Decidable c] {a b : Host.Outcome State Fault Refusal}
    (ha : RunsOn unit i s a) (hb : RunsOn unit i s b) : RunsOn unit i s (if c then a else b) := by
  split <;> assumption

theorem RunsOn.onMse {i : Nat} {s : State} {f : Mse → State → State} (h : ∀ e t, Steady s t → Steady s (f e t)) :
    RunsOn 0 i s (Machine.onMse i s f) := by
  refine .lookup s.mse rfl (fun hn => ?_) fun e he => ?_
  · simp [Machine.onMse, hn]
  · simpa [Machine.onMse, he] using Runs.done (State.endMse_steady i (h e _ .begin))

/-- A request of the host side is offered to its MSE. -/
theorem RunsOn.acceptHost {i : Nat} {s : State} (r : HostReq) :
    RunsOn 0 i s (Machine.onMse i s fun e t => t.acceptHost i r e) :=
  .onMse fun _ _ ht => State.acceptHost_steady _ _ _ ht

theorem RunsOn.onLse {i : Nat} {s : State} {f : Lse → State → State} (h : ∀ e t, Steady s t → Steady s (f e t)) :
    RunsOn 1 i s (Machine.onLse i s f) := by
  refine .lookup s.lse rfl (fun hn => ?_) fun e he => ?_
  · simp [Machine.onLse, hn]
  · simpa [Machine.onLse, he] using Runs.done (h e _ .begin)

theorem RunsOn.onHse {i : Nat} {s : State} {f : Hse → State → State} (h : ∀ e t, Steady s t → Steady s (f e t)) :
    RunsOn 2 i s (Machine.onHse i s f) := by
  refine .lookup s.hse rfl (fun hn => ?_) fun e he => ?_
  · simp [Machine.onHse, hn]
  · simpa [Machine.onHse, he] using Runs.done (h e _ .begin)

theorem RunsOn.onControl {l sub : Nat} {s : State} {act : RxUnit → State → State} (h : ∀ u t, Steady s t → Steady s (act u t)) :
    RunsOn 1 l s (Machine.onControl l sub s act) := by
  refine .lookup s.lse rfl (fun hn => ?_) fun e he => ?_
  · simp [Machine.onControl, hn]
  · simp only [Machine.onControl, he]
    refine .ite (.done .begin) ?_
    split
    · exact .done .begin
    · exact .done (h _ _ (State.modLse_steady _ _ .begin))

theorem RunsOn.onMessage {l sub : Nat} {s : State} {act : Bytes → State → State} (h : ∀ b t, Steady s t → Steady s (act b t)) :
    RunsOn 1 l s (Machine.onMessage l sub s act) := by
  have hp : Steady s (s.begin.takeMessage l sub).2.2 := State.takeMessage_steady l sub .begin
  refine .lookup s.lse rfl (fun hn => ?_) fun e he => ?_
  · simp [Machine.onMessage, hn]
  · simp only [Machine.onMessage, he]
    refine .ite (.done .begin) (.ite (.done (State.joinHybFail_steady _ _ hp)) ?_)
    split
    · exact .done hp
    · exact .done (h _ _ hp)

/-! ### The commands of Machine/Mse.lean -/

theorem execMseMemRequestSend_runs (m lane : Nat) (write sweep : Bool) (s : State) :
    RunsOn 0 m s (execMseMemRequestSend m lane write sweep s) := by
  unfold execMseMemRequestSend
  refine .onMse fun _ _ ht => .ite ht ?_
  refine .ite ?_ ?_
  · extract_lets +onlyGivenNames u
    have hu : Steady s u := .ite ht (State.sweepNext_steady _ _ _ ht)
    split
    · exact State.present_steady _ _ hu
    · exact hu
  · split
    · exact State.present_steady _ _ ht
    · exact ht

theorem execMseReadBeat_runs (m id : Nat) (data : Bytes) (sb : Nat) (err : Bool) (s : State) :
    RunsOn 0 m s (execMseReadBeat m id data sb err s) := by
  unfold execMseReadBeat
  refine .onMse fun _ _ ht => .ite (State.bump_steady _ _ (State.modMse_steady _ _ ht)) ?_
  split
  · exact ht
  · extract_lets +onlyGivenNames u
    have hu : Steady s u := State.bump_steady _ _ ht
    exact .ite (State.tagBeat_steady _ _ _ _ hu) (.ite (State.takeVerdict_steady _ _ _ _ _ hu) (State.takeVerdict_steady _ _ _ _ _ hu))

theorem execMseLaneTestDone_runs (m lane : Nat) (pass : Bool) (s : State) : RunsOn 0 m s (execMseLaneTestDone m lane pass s) := by
  unfold execMseLaneTestDone
  refine .onMse fun _ _ ht => .ite ht ?_
  extract_lets +onlyGivenNames _ u
  have hu : Steady s u := State.modMse_steady _ _ ht
  split
  · exact hu
  · exact State.soundingStep_steady _ _ _ hu

theorem execMseWriteAck_runs (m id : Nat) (err : Bool) (s : State) : RunsOn 0 m s (execMseWriteAck m id err s) := by
  unfold execMseWriteAck
  refine .onMse fun _ _ ht => ?_
  split
  · exact State.advance_steady _ _ (State.bump_steady _ _ (State.modMse_steady _ _ ht))
  · split
    · exact ht
    · exact .ite (State.ackWrite_steady _ _ _ (ht.with_fresh _)) (State.ackWrite_steady _ _ _ ht)

theorem execMseReadTimeout_runs (m id : Nat) (s : State) : RunsOn 0 m s (execMseReadTimeout m id s) := by
  unfold execMseReadTimeout
  refine .onMse fun _ _ ht => ?_
  split
  · exact ht
  · extract_lets +onlyGivenNames u
    have hu : Steady s u := State.modMse_steady _ _ ht
    exact .ite (State.tagBeat_steady _ _ _ _ hu) (State.failRead_steady _ _ _ hu)

theorem execMseWriteTimeout_runs (m id : Nat) (s : State) : RunsOn 0 m s (execMseWriteTimeout m id s) := by
  unfold execMseWriteTimeout
  refine .onMse fun _ _ ht => ?_
  split
  · exact ht
  · extract_lets +onlyGivenNames _ _ _ _ u
    have hu : Steady s u := State.integrityAll_steady _ _
      (State.listSector_steady _ _ _ (State.mseAlarm_steady _ _ _ _ (State.modMse_steady _ _ ht)))
    exact State.advance_steady _ _ (.ite (State.sweepDone_steady _ hu) hu)

theorem execMseLockTimeout_runs (m sector : Nat) (s : State) : RunsOn 0 m s (execMseLockTimeout m sector s) := by
  unfold execMseLockTimeout
  refine .onMse fun _ _ ht => ?_
  split
  · exact ht
  · exact .ite ht (State.advance_steady _ _ (State.event_steady _ _ _ _ _ (State.modMse_steady _ _ ht)))

theorem execTagLineWriteFlush_runs (m line : Nat) (s : State) : RunsOn 0 m s (execTagLineWriteFlush m line s) := by
  unfold execTagLineWriteFlush
  refine .onMse fun _ _ ht => ?_
  split
  · exact .ite ht (State.modMse_steady _ _ ht)
  · exact ht

theorem execKeyGenFence_runs (m : Nat) (s : State) : RunsOn 0 m s (execKeyGenFence m s) := by
  unfold execKeyGenFence
  refine .onMse fun _ _ ht => .ite ht ?_
  split
  · exact State.modMse_steady _ _ ht
  · exact State.modMse_steady _ _ ht
  · exact State.modMse_steady _ _ ht
  · exact ht

theorem execKeyGenFenceAck_runs (m : Nat) (s : State) : RunsOn 0 m s (execKeyGenFenceAck m s) :=
  .onMse fun _ _ ht => State.modMse_steady _ _ ht

theorem execMseSquashOrder_runs (m : Nat) (s : State) : RunsOn 0 m s (execMseSquashOrder m s) := by
  unfold execMseSquashOrder
  refine .onMse fun _ _ ht => ?_
  split
  · exact State.modMse_steady _ _ (State.squashStall_steady _ _ ht)
  · exact ht

theorem execLedgerInvalidate_runs (m : Nat) (s : State) : RunsOn 0 m s (execLedgerInvalidate m s) := by
  unfold execLedgerInvalidate
  refine .onMse fun _ _ ht => .ite ht ?_
  split
  · exact State.modMse_steady _ _ ht
  · exact ht

/-- The tile is numbered as the control spine numbers it: the MSEs from 0, the LSEs from 0x40, the HSEs from 0x80. -/
theorem execRefusalMapUpdate_runs (tile : Nat) (s : State) :
    let e := if tile < 0x40 then (0, tile) else if tile < 0x80 then (1, tile - 0x40) else (2, tile - 0x80)
    RunsOn e.1 e.2 s (execRefusalMapUpdate tile s) := by
  unfold execRefusalMapUpdate
  by_cases hm : tile < 0x40
  · simp only [hm, if_true]
    exact .onMse fun _ _ ht => .ite ht (State.modMse_steady _ _ ht)
  by_cases hl : tile < 0x80
  · simp only [hm, hl, if_true, if_false]
    exact .onLse (f := fun _ t => t.modLse (tile - 0x40) fun l => { l with spine := l.spine.applyRefusal })
      fun _ _ ht => State.modLse_steady _ _ ht
  · simp only [hm, hl, if_false]
    exact .onHse (f := fun _ t => t.modHse (tile - 0x80) fun h => { h with spine := h.spine.applyRefusal })
      fun _ _ ht => State.modHse_steady _ _ ht

theorem execLedgerCacheFill_runs (m : Nat) (pool : Bool) (index : Nat) (s : State) : RunsOn 0 m s (execLedgerCacheFill m pool index s) :=
  .onMse fun _ _ ht => .ite ht (State.rerun_steady _ (State.bump_steady _ _ (State.modMse_steady _ _ ht)))

/-! ### The commands of Machine/Links.lean -/

theorem execLseTxRequest_runs (l kind stall dst tc addr id nbytes : Nat) (data : Bytes) (s : State) :
    RunsOn 1 l s (execLseTxRequest l kind stall dst tc addr id nbytes data s) := by
  unfold execLseTxRequest
  refine .onLse fun _ _ ht => .ite (State.bumpStall_steady _ _ _ (State.emit_steady _ ht))
    (.ite ht (.ite (State.lseRefuse_steady _ _ _ ht) (.ite (State.lseRefuse_steady _ _ _ ht) (.ite (State.lseRefuse_steady _ _ _ ht)
      (.ite (State.lseRefuse_steady _ _ _ ht) (.ite (State.lseRefuse_steady _ _ _ ht) ?_))))))
  split
  · extract_lets +onlyGivenNames u
    have hu : Steady s u := State.lseRefuse_steady _ _ _ ht
    exact .ite hu (State.event_steady _ _ _ _ _ (State.modLse_steady _ _ hu))
  · exact State.sendUnit_steady _ _ (State.modLse_steady _ _ ht)

theorem execLseHostResponse_runs (l kind id st : Nat) (data : Bytes) (s : State) :
    RunsOn 1 l s (execLseHostResponse l kind id st data s) := by
  unfold execLseHostResponse
  refine .onLse fun _ _ ht => .ite ht ?_
  split
  · exact State.modLse_steady _ _ ht
  · exact State.sendUnit_steady _ _ (State.modLse_steady _ _ ht)

theorem execLseUnitSent_runs (l : Nat) (s : State) : RunsOn 1 l s (execLseUnitSent l s) := by
  unfold execLseUnitSent
  refine .onLse fun _ _ ht => .ite ht ?_
  split
  · exact ht
  · extract_lets +onlyGivenNames _ v
    have hv : Steady s v := State.bump_steady _ _ (State.bump_steady _ _ (State.modLse_steady _ _ (State.emit_steady _ ht)))
    refine State.renewLink_steady _ ?_
    split
    · exact State.bumpStall_steady _ _ _ hv
    · exact hv

theorem execLseDeadTarget_runs (l id : Nat) (s : State) : RunsOn 1 l s (execLseDeadTarget l id s) := by
  unfold execLseDeadTarget
  refine .onLse fun _ _ ht => ?_
  split
  · exact ht
  · split
    · exact ht
    · refine .ite ht ?_
      extract_lets +onlyGivenNames _ u
      have hu : Steady s u := State.bumpStall_steady _ _ _ (State.bumpStall_steady _ _ _ (State.bump_steady _ _ (State.modLse_steady _ _
        (State.emit_steady _ ht))))
      exact State.ackRevokes_steady _ (.ite hu (State.event_steady _ _ _ _ _ hu))

theorem execLseRxUnit_runs (l : Nat) (unit : Bytes) (err : Bool) (s : State) : RunsOn 1 l s (execLseRxUnit l unit err s) :=
  .onLse fun _ _ ht => .ite ht (.ite ht (.ite ht (.ite (State.lseLost_steady _ _ ht) (.ite (State.lseFail_steady _ _ ht)
    (.ite (.ite (State.lseFail_steady _ _ ht) (.ite (State.lseAccept_steady _ _ _ ht) (State.lseFail_steady _ _ ht)))
      (State.renewLink_steady _ (State.lseSealed_steady _ _ _ ht)))))))

theorem execLseRxRequest_runs (l : Nat) (s : State) : RunsOn 1 l s (execLseRxRequest l s) := by
  unfold execLseRxRequest
  refine .onLse fun _ _ ht => ?_
  split
  · exact ht
  · exact .ite ht (State.emit_steady _ (State.modLse_steady _ _ (State.dropRx_steady _ _ ht)))

theorem execLseRxResponse_runs (l : Nat) (s : State) : RunsOn 1 l s (execLseRxResponse l s) := by
  unfold execLseRxResponse
  refine .onLse fun _ _ ht => ?_
  split
  · exact ht
  · refine .ite ht ?_
    extract_lets +onlyGivenNames v
    have hv : Steady s v := State.dropRx_steady _ _ ht
    split
    · exact State.modLse_steady _ _ hv
    · exact State.ackRevokes_steady _ (State.emit_steady _ (State.modLse_steady _ _ hv))

theorem execLinkKeyDerived_runs (l : Nat) (tx : Bool) (s : State) : RunsOn 1 l s (execLinkKeyDerived l tx s) := by
  unfold execLinkKeyDerived
  refine .onLse fun _ _ ht => .ite ht (.ite (State.startJoin_steady _ (State.modLse_steady _ _ ht))
    (.ite ?_ (.ite ht (State.syncLink_steady _ (State.modLse_steady _ _ (State.bump_steady _ _ ht))))))
  extract_lets +onlyGivenNames _ _ u
  have hu : Steady s u := State.modLse_steady _ _ (State.bump_steady _ _ ht)
  exact .ite hu (State.sendUnit_steady _ _ (State.syncLink_steady _ (State.modLse_steady _ _ hu)))

theorem execResyncReceive_runs (l : Nat) (s : State) : RunsOn 1 l s (execResyncReceive l s) := by
  unfold execResyncReceive
  refine .onLse fun _ _ ht => ?_
  split
  · exact ht
  · exact State.modLse_steady _ _ (State.dropRx_steady _ _ ht)

theorem execGrantReceive_runs (l : Nat) (s : State) : RunsOn 1 l s (execGrantReceive l s) := by
  unfold execGrantReceive
  refine .onLse fun _ _ ht => ?_
  split
  · exact ht
  · extract_lets +onlyGivenNames _ v
    have hv : Steady s v := State.dropRx_steady _ _ ht
    split
    · exact State.sendUnit_steady _ _ hv
    · exact State.sendUnit_steady _ _ (hv.with_rwt _)

theorem execGrantAckReceive_runs (l : Nat) (s : State) : RunsOn 1 l s (execGrantAckReceive l s) := by
  unfold execGrantAckReceive
  refine .onLse fun _ _ ht => ?_
  split
  · exact ht
  · extract_lets +onlyGivenNames v
    have hv : Steady s v := State.dropRx_steady _ _ ht
    extract_lets +onlyGivenNames k
    split
    · exact hv
    · refine .ite ?_ ?_
      · extract_lets +onlyGivenNames w
        have hw : Steady s w := hv.with_granted _
        split
        · exact State.finish_steady _ _ hw
        · exact hw
      · extract_lets +onlyGivenNames _ w
        have hw : Steady s w := hv.with_granted _
        split
        · exact State.finishOk_steady _ _ hw
        · exact hw

theorem execRevokeReceive_runs (l : Nat) (s : State) : RunsOn 1 l s (execRevokeReceive l s) := by
  unfold execRevokeReceive
  refine .onLse fun _ _ ht => ?_
  split
  · exact ht
  · exact State.ackRevokes_steady _ (State.modLse_steady _ _ ((State.dropRx_steady _ _ ht).with_rwt _))

theorem execRevokeAckReceive_runs (l : Nat) (s : State) : RunsOn 1 l s (execRevokeAckReceive l s) := by
  unfold execRevokeAckReceive
  refine .onLse fun _ _ ht => ?_
  split
  · exact ht
  · extract_lets +onlyGivenNames v
    have hv : Steady s v := State.dropRx_steady _ _ ht
    split
    · exact hv
    · extract_lets +onlyGivenNames w
      have hw : Steady s w := hv.with_granted _
      split
      · exact State.finish_steady _ _ hw
      · exact hw

theorem execRevokeTimeout_runs (l : Nat) (s : State) : RunsOn 1 l s (execRevokeTimeout l s) :=
  .onLse fun _ _ ht => .ite (State.lseDown_steady _ _ ht) ht

theorem execWindowGrant_runs (c : Call) (reqChip reqStall rights base size : Nat) (s : State) :
    Runs s (execWindowGrant c reqChip reqStall rights base size s) := by
  unfold execWindowGrant
  refine .command fun _ ht => .ite (State.badArg_steady _ _ ht)
    (.ite (State.badArg_steady _ _ ht) (.ite (State.badArg_steady _ _ ht) (.ite (State.finish_steady _ _ ht) ?_)))
  split
  · exact State.finish_steady _ _ ht
  · exact State.sendUnit_steady _ _ (ht.with_granted _)

theorem execWindowRevoke_runs (c : Call) (reqChip index : Nat) (s : State) : Runs s (execWindowRevoke c reqChip index s) := by
  unfold execWindowRevoke
  refine .command fun _ ht => ?_
  split
  · exact State.badArg_steady _ _ ht
  · exact .ite (State.startRevoke_steady _ _ ht) (State.finish_steady _ _ (ht.with_granted _))

theorem execLinkReset_runs (c : Call) (lse : Nat) (s : State) : Runs s (execLinkReset c lse s) := by
  unfold execLinkReset
  refine .command fun _ ht => ?_
  split
  · exact State.finish_steady _ _ ht
  · exact State.finish_steady _ _ (State.startJoin_steady _
      (State.syncLink_steady _ (State.modLse_steady _ _ ((State.dropGrants_steady _ (State.poisonLse_steady _ ht)).update rfl))))

theorem execHseTxTlp_runs (h kind : Nat) (data secured : Bytes) (s : State) : RunsOn 2 h s (execHseTxTlp h kind data secured s) :=
  .onHse fun _ _ ht => .ite (State.emit_steady _ ht)
    (.ite ht (.ite (State.meter_steady _ _ _
      (State.bump_steady _ _ (State.bump_steady _ _ (State.emit_steady _ (State.ideCount_steady _ _ _ _ ht)))))
        (.ite (State.bump_steady _ _ (State.bump_steady _ _ (State.emit_steady _ ht))) (State.hseDrop_steady _ ht))))

theorem execHseRxTlp_runs (h kind : Nat) (inStream macOk err : Bool) (data : Bytes) (s : State) :
    RunsOn 2 h s (execHseRxTlp h kind inStream macOk err data s) :=
  .onHse fun _ _ ht => .ite ht (.ite ht (.ite
    (.ite (State.hseDrop_steady _ ht) (.ite (State.meter_steady _ _ _ (State.bump_steady _ _ (State.bump_steady _ _
      (State.emit_steady _ (State.ideCount_steady _ _ _ _ ht)))))
        (State.event_steady _ _ _ _ _ (State.alarmIntegrity_steady _ _ _ _ _ (State.bump_steady _ _ (State.modHse_steady _ _ ht))))))
          (.ite (State.bump_steady _ _ (State.bump_steady _ _ (State.emit_steady _ ht))) (State.hseDrop_steady _ ht))))

theorem execXckBind_runs (c : Call) (winA winB tiles mode k rate action : Nat) (s : State) :
    Runs s (execXckBind c winA winB tiles mode k rate action s) := by
  unfold execXckBind
  refine .command fun _ ht => .ite (State.badArg_steady _ _ ht)
    (.ite (State.badArg_steady _ _ ht) (.ite (State.badArg_steady _ _ ht) (.ite (State.badArg_steady _ _ ht) ?_)))
  split
  · exact State.finish_steady _ _ ht
  · exact .ite (State.finish_steady _ _ ht)
      (State.withEntropy_steady _ _ (fun _ hu => State.finishOk_steady _ _ ((State.tookDraw_steady hu).with_xck _)) ht)

theorem execXckUnbind_runs (c : Call) (binding : Nat) (s : State) : Runs s (execXckUnbind c binding s) := by
  unfold execXckUnbind
  refine .command fun _ ht => ?_
  split
  · exact State.badArg_steady _ _ ht
  · exact .ite (State.badArg_steady _ _ ht) (State.finish_steady _ _ (ht.with_xck _))

theorem execXckUnpairedTimeout_runs (binding : Nat) (s : State) : Runs s (execXckUnpairedTimeout binding s) := by
  unfold execXckUnpairedTimeout
  have ht : Steady s s.begin := .begin
  refine .done ?_
  split
  · exact ht
  · split
    · exact ht
    · extract_lets +onlyGivenNames u
      have hu : Steady s u := State.bump_steady _ _ (State.modXck_steady _ _ ht)
      exact .ite hu (State.event_steady _ _ _ _ _ hu)

/-! ### The commands of Machine/Marks.lean -/

theorem execMarkFillDone_runs (mark : Nat) (rec_ : BufRead) (s : State) : Runs s (execMarkFillDone mark rec_ s) := by
  unfold execMarkFillDone
  have ht : Steady s s.begin := .begin
  refine .ite (.done ht) ?_
  split
  next t _ hplace =>
    have hm : Steady s t := State.markPlace_steady ht t hplace
    extract_lets +onlyGivenNames _ _ _ _ u
    have hu : Steady s u := State.bump_steady _ _ (State.progress_steady (hm.with_mrk _))
    exact .done (Steady.foldl (.with_mrk (.ite hu (State.poisonMark_steady _ _ hu)) _) (fun _ _ hu' => State.signalMark_steady _ _ _ hu'))
  · exact .done ht

theorem execMarkSignalReceive_runs (l : Nat) (s : State) : RunsOn 1 l s (execMarkSignalReceive l s) := by
  unfold execMarkSignalReceive
  refine .onLse fun _ _ ht => ?_
  split
  · exact ht
  · refine .ite ht (.ite (State.forwardMark_steady _ (State.dropRx_steady _ _ ht)) ?_)
    split
    next w hw => exact State.markAtHand_steady ht w hw
    · exact State.sendMark_steady _ _ _ (State.mirrorSignal_steady _ _ _ _ _ _ (State.dropRx_steady _ _ ht))

theorem execMarkAckReceive_runs (l : Nat) (s : State) : RunsOn 1 l s (execMarkAckReceive l s) := by
  unfold execMarkAckReceive
  refine .onLse fun _ _ ht => ?_
  split
  · exact ht
  · refine .ite ht (.ite (State.forwardMark_steady _ (State.dropRx_steady _ _ ht)) ?_)
    split
    next w hw => exact State.markAtHand_steady ht w hw
    · exact State.homeAck_steady _ _ _ _ _ (State.dropRx_steady _ _ ht)

theorem execMarkResendTimeout_runs (mark dest : Nat) (s : State) : Runs s (execMarkResendTimeout mark dest s) := by
  unfold execMarkResendTimeout
  have ht : Steady s s.begin := .begin
  extract_lets +onlyGivenNames t
  split
  · exact .done ht
  · split
    · exact .done ht
    · split
      · exact .done ht
      · exact .ite (.done ht) (.ite (.done
          (State.sendDest_steady _ _ (State.bump_steady _ _
            ((State.setMark_steady _ _ (.ite (State.waitBegin_steady _ _ _ _ ht) ht)).with_mrk _))))
              (.done (State.poisonMark_steady _ _
                (State.poisonDests_steady _ _ _ (State.setMark_steady _ _ (State.waitEnd_steady _ _ _ _ ht))))))

theorem execMarkCreate_runs (c : Call) (spill mode ndest srcChip srcMark : Nat) (dests : List (Nat × Nat)) (s : State) :
    Runs s (execMarkCreate c spill mode ndest srcChip srcMark dests s) := by
  unfold execMarkCreate
  refine .command fun _ ht => .ite (State.badArg_steady _ _ ht)
    (.ite (State.badArg_steady _ _ ht) (.ite (State.badArg_steady _ _ ht) (.ite (State.finish_steady _ _ ht) ?_)))
  split
  · exact State.finish_steady _ _ ht
  · split
    · exact ht
    next u hu => exact State.finishOk_steady _ _ ((State.markPlace_steady ht u hu).with_mrk _)

theorem execMarkDestroy_runs (c : Call) (index : Nat) (s : State) : Runs s (execMarkDestroy c index s) :=
  .command fun _ ht => .ite (State.badArg_steady _ _ ht) (State.finish_steady _ _ (State.freeMark_steady _ ht))

theorem execMarkSignal_runs (c : Call) (index op value : Nat) (s : State) : Runs s (execMarkSignal c index op value s) :=
  .command fun _ ht => .ite (State.badArg_steady _ _ ht)
    (State.onMark_steady _ _ _ (fun _ _ ht' => State.finish_steady _ _ (State.signalMark_steady _ _ _ ht')) ht)

theorem execMarkWait_runs (c : Call) (index timeout value : Nat) (s : State) : Runs s (execMarkWait c index timeout value s) :=
  .command fun _ ht => State.onMark_steady _ _ _ (fun _ _ ht' => .ite (State.finish_steady _ _ ht') (.ite (State.finishOk_steady _ _ ht')
    (.ite ht' (State.waitBegin_steady _ _ _ _ (ht'.with_mrk _))))) ht

theorem execMarkWaitTimeout_runs (s : State) : Runs s (execMarkWaitTimeout s) := by
  unfold execMarkWaitTimeout
  have ht : Steady s s.begin := .begin
  extract_lets +onlyGivenNames t
  split
  · exact .done ht
  · exact .done (State.finish_steady _ _ (State.waitEnd_steady _ _ _ _ (ht.with_mrk _)))

theorem execMarkRoute_runs (c : Call) (chip primary alternate flags : Nat) (s : State) :
    Runs s (execMarkRoute c chip primary alternate flags s) :=
  .command fun _ ht => .ite (State.badArg_steady _ _ ht) (.ite (State.badArg_steady _ _ ht) (.ite (State.badArg_steady _ _ ht) (.ite
    (State.badArg_steady _ _ ht) (State.finish_steady _ _ (ht.with_mrk _)))))

/-! ### The commands of Machine/Regions.lean -/

theorem execRegionBind_runs (c : Call) (region count mode : Nat) (s : State) : Runs s (execRegionBind c region count mode s) := by
  unfold execRegionBind
  refine .command fun _ ht => .ite (State.badArg_steady _ _ ht) (.ite (State.badArg_steady _ _ ht) ?_)
  split
  · exact State.finish_steady _ _ ht
  · exact .ite ((Steady.foldl ht (fun _ _ ht' => State.bindZero_steady _ _ _ ht')).with_ldg _) (State.queueItems_steady _ (ht.with_ldg _))

theorem execRegionRetire_runs (c : Call) (region count owner : Nat) (s : State) : Runs s (execRegionRetire c region count owner s) :=
  .command fun _ ht => .ite (State.badArg_steady _ _ ht)
    (.ite (State.badArg_steady _ _ ht) (.ite (State.finish_steady _ _ ht)
      (State.settle_steady (Steady.foldl (ht.with_ldg _) (fun _ _ ht' => State.retireRegion_steady _ ht')))))

/-! ### The commands of Machine/Strongbox.lean -/

theorem execKeyslotMaskRefresh_runs (bad : List Nat) (s : State) : Runs s (execKeyslotMaskRefresh bad s) := by
  unfold execKeyslotMaskRefresh
  have ht : Steady s s.begin := .begin
  exact .ite (.done ht) (.done (Steady.foldl (ht.with_sbx _) (fun _ _ hu => State.slotMismatch_steady _ hu)))

theorem execKeyslotBankSoundingDone_runs (bank : Nat) (pass : Bool) (s : State) : Runs s (execKeyslotBankSoundingDone bank pass s) := by
  unfold execKeyslotBankSoundingDone
  have ht : Steady s s.begin := .begin
  refine .ite (.done ht) ?_
  extract_lets +onlyGivenNames _ t'
  have ht' : Steady s t' := ht.with_sbx _
  exact .ite (.done (State.sounding_steady _ _ _ (ht'.with_cht _))) (.done (State.sounding_steady _ _ _ (ht'.update rfl)))

theorem execKeyCacheFill_runs (tile handle gen : Nat) (bad : Bool) (s : State) : Runs s (execKeyCacheFill tile handle gen bad s) := by
  unfold execKeyCacheFill
  have ht : Steady s s.begin := .begin
  refine .ite (.done ht) ?_
  split
  · exact .done (State.wantKey_steady _ _ _ ht)
  · refine .ite (.done ht) ?_
    refine .ite ?_ ?_
    · extract_lets +onlyGivenNames u
      have hu : Steady s u := State.slotMismatch_steady _ ht
      exact .done (.ite (State.wantKey_steady _ _ _ hu) hu)
    · extract_lets +onlyGivenNames u
      have hu : Steady s u := State.fillTileKey_steady _ _ _ _ (ht.with_sbx _)
      exact .done (.ite (State.endMse_steady _ (State.advanceAll_steady _ (State.rerun_steady _ (State.retryBeats_steady _ hu)))) hu)

theorem execKeyUnwrapDone_runs (handle gen : Nat) (blob : BufRead) (s : State) : Runs s (execKeyUnwrapDone handle gen blob s) := by
  unfold execKeyUnwrapDone
  have ht : Steady s s.begin := .begin
  extract_lets +onlyGivenNames t
  split
  · exact .done ht
  · refine .ite (.done ht) ?_
    extract_lets +onlyGivenNames _ _ key
    split
    · extract_lets +onlyGivenNames _ slot
      split
      · exact .done ht
      next w hw =>
        exact .done (State.kickBooth_steady _ (State.bump_steady _ _
          (State.unwrapServed_steady _ _ (State.placeKey_steady (ht.with_sbx _) w hw))))
    · exact .done (State.kickBooth_steady _ (State.unwrapFailed_steady _ (ht.with_sbx _)))

theorem execKeyUseReport_runs (tile handle gen : Nat) (blobOk : Bool) (s : State) :
    Runs s (execKeyUseReport tile handle gen blobOk s) := by
  unfold execKeyUseReport
  have ht : Steady s s.begin := .begin
  extract_lets +onlyGivenNames t
  split
  · exact .done ht
  · exact .ite (.done ht) (.done (State.regionWear_steady _ _ _ (State.creditUses_steady _ _ _ (ht.with_sbx _))))

theorem execKeyInvalidationApply_runs (tile handle gen : Nat) (s : State) : Runs s (execKeyInvalidationApply tile handle gen s) := by
  unfold execKeyInvalidationApply
  have ht : Steady s s.begin := .begin
  refine .ite (.done ht) ?_
  extract_lets +onlyGivenNames t'
  have ht' : Steady s t' := by
    unfold t'
    split
    · exact ht
    · exact State.dropTileKey_steady _ ht
  exact .done (State.settleDestroys_steady (ht'.with_sbx _))

theorem execZeroizeVerifyDone_runs (nonzero : Nat) (s : State) : Runs s (execZeroizeVerifyDone nonzero s) := by
  unfold execZeroizeVerifyDone
  have ht : Steady s s.begin := .begin
  refine .ite (.done ht) ?_
  extract_lets +onlyGivenNames _ u
  have hu : Steady s u := ht.with_sbx _
  exact .ite (.done (hu.with_sbx _)) (.done (State.alarmTamper_steady _ _ _ (hu.with_sbx _)))

theorem execEntropyFail_runs (s : State) : Runs s (execEntropyFail s) := .done (State.event_steady _ _ _ _ _ (Steady.begin.with_sbx _))

theorem execEntropyRecover_runs (s : State) : Runs s (execEntropyRecover s) := .done (State.kickBooth_steady _ (Steady.begin.with_sbx _))

theorem execEntropyWaitTimeout_runs (s : State) : Runs s (execEntropyWaitTimeout s) := by
  unfold execEntropyWaitTimeout
  have ht : Steady s s.begin := .begin
  extract_lets +onlyGivenNames t
  split
  · exact .done ht
  · exact .ite (.done ht) (.done (State.kickBooth_steady _
      (State.finish_steady _ _ (State.dropWaiting_steady _ (State.waitEnd_steady _ _ _ _ (ht.with_sbx _))))))

theorem execKeyPairGenerated_runs (s : State) : Runs s (execKeyPairGenerated s) := by
  unfold execKeyPairGenerated
  have ht : Steady s s.begin := .begin
  exact .ite (.done (State.bump_steady _ _ (ht.with_sbx _))) (.done ht)

theorem execKeyGenerate_runs (c : Call) (type flags usage keyLen ownerIdx blobAddr : Nat) (blobOk : Bool) (s : State) :
    Runs s (execKeyGenerate c type flags usage keyLen ownerIdx blobAddr blobOk s) := by
  unfold execKeyGenerate
  refine .command fun _ ht => ?_
  split
  · refine .ite (State.finish_steady _ _ ht) ?_
    split
    · exact State.badArg_steady _ _ ht
    · exact .ite (State.finish_steady _ _ ht) (.ite (State.finish_steady _ _ ht) (.ite (State.withEntropy_steady _ _
        (fun _ ht' => State.createKey_steady _ _ _ _ _ _ _ _ _ (State.setStall_steady _ _ (State.tookDraw_steady ht'))) ht)
          (State.createKey_steady _ _ _ _ _ _ _ _ _ (State.setStall_steady _ _ (State.bump_steady _ _ ht)))))
  · exact State.finish_steady _ _ ht

theorem execKeyLoad_runs (c : Call) (handle flags : Nat) (s : State) : Runs s (execKeyLoad c handle flags s) := by
  unfold execKeyLoad
  refine .command fun _ ht => ?_
  split
  · exact State.finish_steady _ _ ht
  · refine .ite (State.badArg_steady _ _ ht) (.ite (State.finish_steady _ _ ht) ?_)
    split
    · exact State.finish_steady _ _ (ht.with_sbx _)
    · extract_lets +onlyGivenNames _ _ t'
      have ht' : Steady s t' := by
        unfold t'
        split
        · exact ht.with_sbx _
        · exact ht
      exact ht'.with_sbx _

theorem execKeyUnpin_runs (c : Call) (handle : Nat) (s : State) : Runs s (execKeyUnpin c handle s) := by
  unfold execKeyUnpin
  refine .command fun _ ht => ?_
  split
  · exact State.finish_steady _ _ ht
  · exact State.finish_steady _ _ (State.modStallData_steady _ _ (ht.with_sbx _))

theorem execKeyRotate_runs (c : Call) (handle blobAddr : Nat) (blobOk : Bool) (s : State) :
    Runs s (execKeyRotate c handle blobAddr blobOk s) := by
  unfold execKeyRotate
  refine .command fun _ ht => ?_
  split
  · exact .ite (State.badArg_steady _ _ ht) (.ite (State.finish_steady _ _ ht) (.ite (State.finish_steady _ _ ht) (.ite
      (State.finish_steady _ _ ht) (.ite (State.finish_steady _ _ ht)
        (.ite (State.withEntropy_steady _ _ (fun _ ht' => .ite (State.finishOk_steady _ _ (State.rotateRegion_steady _ _ ht'))
          (State.finish_steady _ _ (State.tookDraw_steady ht'))) ht)
            (.ite (State.withEntropy_steady _ _ (fun _ ht' => State.createKey_steady _ _ _ _ _ _ _ _ _ (State.tookDraw_steady ht')) ht)
              (State.createKey_steady _ _ _ _ _ _ _ _ _ (State.bump_steady _ _ ht))))))))
  · exact State.finish_steady _ _ ht

theorem execKeyDestroy_runs (c : Call) (handle : Nat) (s : State) : Runs s (execKeyDestroy c handle s) := by
  unfold execKeyDestroy
  refine .command fun _ ht => ?_
  split
  · exact State.finish_steady _ _ ht
  · exact .ite (State.finish_steady _ _ ht) (State.settleDestroys_steady (State.destroyKey_steady _ _ _ ht))

theorem execKeyAttest_runs (c : Call) (handle out_ outMax : Nat) (certs : Bytes) (ok : Bool) (s : State) :
    Runs s (execKeyAttest c handle out_ outMax certs ok s) := by
  unfold execKeyAttest
  refine .command fun _ ht => ?_
  split
  · exact State.finish_steady _ _ ht
  · exact .ite (State.finish_steady _ _ ht) (State.withEntropy_steady _ _ (fun _ ht' => State.output_steady _ _ _ _ _ _
      (fun _ ht'' => State.finishOk_steady _ _ ht'') (State.bump_steady _ _ (State.tookDraw_steady ht'))) ht)

/-! ### The commands of Machine/Stalls.lean -/

theorem execStallFillStart_runs (s : State) : Runs s (execStallFillStart s) := by
  unfold execStallFillStart
  have ht : Steady s s.begin := .begin
  refine .done ?_
  split
  · exact ht
  · refine .ite ht ?_
    split
    · exact (State.emit_steady _ ht).with_stl _
    · split
      · exact ht
      · exact (State.emit_steady _ (State.spill_steady _ _ ht)).with_stl _

theorem execStallFillDone_runs (stall : Nat) (rec_ : BufRead) (s : State) : Runs s (execStallFillDone stall rec_ s) := by
  unfold execStallFillDone
  have ht : Steady s s.begin := .begin
  extract_lets +onlyGivenNames t
  split
  · exact .done ht
  · split
    · exact .done ht
    · refine .ite (.done ht) ?_
      extract_lets +onlyGivenNames _ _ u
      have hu : Steady s u := State.ringRecord_steady _ _ _ _ _ (ht.with_stl _)
      exact .ite (.done (State.rerunAll_steady (State.bump_steady _ _ (State.progress_steady (State.useStall_steady _ (hu.with_stl _))))))
        (.done (State.refuseFill_steady _ (State.loseStall_steady _ _ hu)))

theorem execStallAdmit_runs (c : Call) (stall fill integ opts nowner account : Nat) (program tenantKey policy : Bytes) (owners : Nat)
  (ownersBuf : BufRead) (s : State) :
    Runs s (execStallAdmit c stall fill integ opts nowner account program tenantKey policy owners ownersBuf s) := by
  unfold execStallAdmit
  refine .command fun _ ht => ?_
  split
  · exact State.finish_steady _ _ ht
  · refine State.input_steady _ _ _ (fun _ _ ht' => ?_) (.ite ht (State.emit_steady _ ht))
    split
    · exact State.badArg_steady _ _ ht'
    · exact .ite (State.finish_steady _ _ ht') (.ite (State.finish_steady _ _ ht') (.ite (State.finish_steady _ _ ht')
        (.ite (State.deferAdmission_steady _ ht') (State.withEntropy_steady _ _ (fun _ ht'' => State.finishAnchored_steady _ _ _ _ _
          (State.admitStall_steady _ _ _ _ _ _ _ _ _ (ht''.with_stl _))) ht'))))

theorem execStallRemove_runs (c : Call) (stall : Nat) (s : State) : Runs s (execStallRemove c stall s) :=
  .ite (.done .begin) (.command fun _ ht => .ite (State.finish_steady _ _ ht)
    (.ite (State.finish_steady _ _ ht) (State.beginRemoval_steady _ _ ht)))

theorem execRemovalStepDone_runs (stall : Nat) (s : State) : Runs s (execRemovalStepDone stall s) := by
  unfold execRemovalStepDone
  have ht : Steady s s.begin := .begin
  refine .done ?_
  split
  · exact ht
  · exact .ite (State.removalStep_steady _ ht) ht

theorem execRemovalDrainTimeout_runs (stall : Nat) (s : State) : Runs s (execRemovalDrainTimeout stall s) := by
  unfold execRemovalDrainTimeout
  have ht : Steady s s.begin := .begin
  refine .done ?_
  split
  · exact ht
  · exact .ite (State.removalStep_steady _ ht) ht

theorem execStallFreeze_runs (c : Call) (stall flist : Nat) (ok : Bool) (s : State) : Runs s (execStallFreeze c stall flist ok s) := by
  unfold execStallFreeze
  split
  · exact .done (State.freezeStep_steady _ _ .begin)
  · refine .command fun _ ht => ?_
    split
    · exact State.finish_steady _ _ ht
    · exact .ite (State.finish_steady _ _ ht)
        (State.freezeStep_steady _ _ ((State.sendRefusal_steady _ (State.modStall_steady _ _ ht)).with_stl _))

theorem execFreezeDrainTimeout_runs (stall : Nat) (s : State) : Runs s (execFreezeDrainTimeout stall s) := by
  unfold execFreezeDrainTimeout
  have ht : Steady s s.begin := .begin
  refine .done ?_
  split
  · exact ht
  · exact .ite ht (State.squashWork_steady _ (ht.with_stl _))

theorem execStallThaw_runs (c : Call) (stall : Nat) (s : State) : Runs s (execStallThaw c stall s) := by
  unfold execStallThaw
  refine .command fun _ ht => ?_
  split
  · exact State.finish_steady _ _ ht
  · exact .ite (State.finish_steady _ _ ht) (.ite (State.finish_steady _ _ ht) (.ite (State.finish_steady _ _ ht) (.ite
      (State.finish_steady _ _ ht) (State.finishAnchored_steady _ _ _ _ _
        (State.writeRecord_steady _ (State.queueItems_steady _ ((Steady.foldl (State.sendRefusal_steady _ (State.setStall_steady _ _ ht))
          (fun _ _ hu => State.queueItems_steady _ (State.changeEntry_steady _ _ _ hu))).with_ldg _)))))))

theorem execFnMap_runs (c : Call) (fn stall : Nat) (s : State) : Runs s (execFnMap c fn stall s) := by
  unfold execFnMap
  refine .command fun _ ht => .ite (State.badArg_steady _ _ ht) (.ite (State.finish_steady _ _ ht) ?_)
  split
  · exact State.finish_steady _ _ ht
  · exact State.finish_steady _ _ (ht.with_stl _)

theorem execFnUnmap_runs (c : Call) (fn : Nat) (s : State) : Runs s (execFnUnmap c fn s) :=
  .command fun _ ht => State.finish_steady _ _ (ht.with_stl _)

theorem execStallStatus_runs (c : Call) (stall : Nat) (s : State) : Runs s (execStallStatus c stall s) :=
  .command fun _ ht => .ite (State.badArg_steady _ _ ht) (State.finishOk_steady _ _ ht)

/-! ### The commands of Machine/Migration.lean -/

theorem execMigSessionExpiry_runs (s : State) : Runs s (execMigSessionExpiry s) := by
  unfold execMigSessionExpiry
  have ht : Steady s s.begin := .begin
  refine .done ?_
  split
  · exact ht
  · exact ht.with_stl _

theorem execMigrateSave_runs (c : Call) (stall session flist out_ outMax : Nat) (list : BufRead) (blobs : List BufRead) (ok : Bool)
  (s : State) : Runs s (execMigrateSave c stall session flist out_ outMax list blobs ok s) := by
  unfold execMigrateSave
  refine .command fun _ ht => ?_
  split
  · refine .ite (State.finish_steady _ _ ht) (.ite (State.finish_steady _ _ ht) (.ite (State.finish_steady _ _ ht) ?_))
    split
    · exact State.finish_steady _ _ ht
    · refine State.input_steady _ _ _ (fun _ _ ht' => .ite (State.finish_steady _ _ ht') ?_) (State.emit_steady _ ht)
      split
      · exact State.finish_steady _ _ ht'
      · refine State.output_steady _ _ _ _ _ _ (fun _ ht'' => ?_) ht'
        split
        · exact State.settle_steady (State.finishAnchored_steady _ _ _ _ _
            (State.writeRecord_steady _ (Steady.foldl (State.modStall_steady _ _ (ht''.with_stl _))
              (fun _ _ hu => State.retireRegion_steady _ hu))))
        · exact State.finishAnchored_steady _ _ _ _ _
            (State.writeRecord_steady _ (State.modStall_steady _ _ (State.writeStandby_steady _ ht'')))
  · exact State.finish_steady _ _ ht

theorem execMigrateRestore_runs (c : Call) (session rec_ blobRegion counter : Nat) (record : BufRead) (s : State) :
    Runs s (execMigrateRestore c session rec_ blobRegion counter record s) := by
  unfold execMigrateRestore
  refine .command fun _ ht => State.input_steady _ _ _ (fun b t ht' => ?_) (State.emit_steady _ ht)
  split
  · exact State.finish_steady _ _ ht'
  · refine .ite (State.finish_steady _ _ ht') (.ite (State.finish_steady _ _ ht') ?_)
    split
    · exact State.finish_steady _ _ ht'
    · next pt _ =>
      refine .ite (State.finish_steady _ _ ht') (.ite (State.finish_steady _ _ ht') (.ite (State.finish_steady _ _ ht')
        (.ite (State.finish_steady _ _ ht') ?_)))
      extract_lets +onlyGivenNames _ _ _ _ _ _ _ r w _ v
      have hr : Steady s r.1 := by
        refine .foldlFst (State.bindZero_steady _ _ _ (.foldl
          (State.styAdmit_steady _ (State.setStallData_steady _ _ (State.setStall_steady _ _ ht')))
            fun _ _ hu => State.restoreKey_steady _ _ _ _ _ hu)) fun p i hp => ?_
        have hi := State.restoreRegion_steady (leField b 6 2) (sub24 t.epo.epoch (leField pt 0x28 3)) i hp
        split
        · next he => rwa [he] at hi
        · next he => rwa [he] at hi
      have hw : Steady s w := State.sendRefusal_steady _ (.ite (State.issueLeaf_steady _ hr) hr)
      have hv : Steady s v := by
        unfold v
        split
        · exact hw.with_stl _
        · exact State.writeStandby_steady _ hw
      exact State.finishAnchored_steady _ _ _ _ _ (State.writeRecord_steady _ hv)

/-! ### The commands of Machine/Attest.lean -/

theorem execMeasureExtend_runs (c : Call) (reg kind owner : Nat) (digest : Bytes) (s : State) :
    Runs s (execMeasureExtend c reg kind owner digest s) := by
  unfold execMeasureExtend
  refine .command fun _ ht => ?_
  split
  · exact .ite (State.badArg_steady _ _ ht)
      (.ite (State.badArg_steady _ _ ht) (.ite (State.finish_steady _ _ ht)
        (State.finishOk_steady _ _ (State.setStallData_steady _ _ (State.setStall_steady _ _ ht)))))
  · exact State.finish_steady _ _ ht

theorem execMeasureLock_runs (c : Call) (s : State) : Runs s (execMeasureLock c s) := by
  unfold execMeasureLock
  refine .command fun _ ht => ?_
  split
  · exact State.finish_steady _ _ ht
  · exact .ite (State.finish_steady _ _ ht) (State.withEntropy_steady _ _ (fun _ ht' => State.finish_steady _ _ (State.issueLeaf_steady _
      (State.setStall_steady _ _ ht'))) ht)

theorem execX2Enable_runs (c : Call) (s : State) : Runs s (execX2Enable c s) := by
  unfold execX2Enable
  refine .command fun _ ht => ?_
  split
  · exact State.finish_steady _ _ ht
  · exact .ite (State.finish_steady _ _ ht) (State.finish_steady _ _ (State.setStall_steady _ _ ht))

theorem execX2Report_runs (c : Call) (nonce : Bytes) (out_ outMax : Nat) (sigs : Bytes) (ok : Bool) (s : State) :
    Runs s (execX2Report c nonce out_ outMax sigs ok s) := by
  unfold execX2Report
  refine .command fun _ ht => ?_
  split
  · exact .ite (State.finish_steady _ _ ht) (.ite (State.finish_steady _ _ ht) (State.output_steady _ _ _ _ _ _ (fun _ ht' =>
      State.finishOk_steady _ _ (State.bump_steady _ _ ht')) ht))
  · exact State.finish_steady _ _ ht

theorem execStallEvidence_runs (c : Call) (stall out_ outMax : Nat) (certs : Bytes) (ok : Bool) (s : State) :
    Runs s (execStallEvidence c stall out_ outMax certs ok s) := by
  unfold execStallEvidence
  refine .command fun _ ht => ?_
  split
  · exact State.finish_steady _ _ ht
  · exact .ite (State.finish_steady _ _ ht) (.ite (State.wantStall_steady _ ht) (.ite (State.finish_steady _ _ ht)
      (State.output_steady _ _ _ _ _ _ (fun _ ht' => State.finishOk_steady _ _ ht') ht)))

theorem execIdentityCsr_runs (c : Call) (out_ outMax : Nat) (csrs : Bytes) (ok : Bool) (s : State) :
    Runs s (execIdentityCsr c out_ outMax csrs ok s) :=
  .command fun _ ht => .ite (State.finish_steady _ _ ht) (State.output_steady _ _ _ _ _ _ (fun _ ht' => State.finishOk_steady _ _
    (State.bump_steady _ _ ht')) ht)

theorem execIdentityStore_runs (c : Call) (src len : Nat) (certs : BufRead) (s : State) : Runs s (execIdentityStore c src len certs s) :=
  .command fun _ ht => .ite (State.finish_steady _ _ ht) (.ite (State.badArg_steady _ _ ht) (State.input_steady _ _ _ (fun _ _ ht' =>
    State.finish_steady _ _ ((State.emit_steady _ (State.emits_steady _ (State.tookDraw_steady ht'))).with_nvm _))
      (State.emit_steady _ ht)))

theorem execSpdmMsg_runs (c : Call) (req reqLen hse rsp rspMax : Nat) (reqBuf : BufRead) (resp : Bytes) (action : SpdmAction) (ok : Bool)
  (s : State) : Runs s (execSpdmMsg c req reqLen hse rsp rspMax reqBuf resp action ok s) :=
  .command fun _ ht => .ite (State.badArg_steady _ _ ht) (State.input_steady _ _ _ (fun _ _ ht' => State.output_steady _ _ _ _ _ _
    (fun _ ht'' => State.finishOk_steady _ _ (State.bump_steady _ _ (State.spdm_steady _ _ ht''))) ht') (State.emit_steady _ ht))

/-! ### The commands of Machine/Hybrid.lean -/

theorem execHybMsg_runs (c : Call) (inp inLen purpose flags targetStall out_ outMax targetChip : Nat) (inBuf : BufRead) (o : HybOps)
  (cert : Option PeerCert) (blobs : List BufRead) (ok : Bool) (s : State) :
    Runs s (execHybMsg c inp inLen purpose flags targetStall out_ outMax targetChip inBuf o cert blobs ok s) := by
  unfold execHybMsg
  refine .command fun _ ht => .ite (State.badArg_steady _ _ ht)
    (.ite (State.badArg_steady _ _ ht) (.ite (State.badArg_steady _ _ ht)
      (.ite (State.finish_steady _ _ ht) (.ite (State.badArg_steady _ _ ht)
        (.ite (State.wantStall_steady _ ht) (.ite (.ite (State.badArg_steady _ _ ht) (.ite (State.badArg_steady _ _ ht)
          (.ite (State.badArg_steady _ _ ht) (State.withEntropy_steady _ _ (fun _ ht' => State.hybStart_steady _ _ _ _ _ _ _ ht') ht))))
            (State.input_steady _ _ _ (fun _ _ ht' => ?_) (State.emit_steady _ ht))))))))
  split
  · exact State.withEntropy_steady _ _ (fun _ ht'' => State.hybAnswer_steady _ _ _ _ _ _ _ _ _ ht'') ht'
  · exact .ite (State.hybFinish_steady _ _ _ _ _ _ _ _ _ _ ht')
      (.ite (State.hybAccept_steady _ _ _ _ _ _ _ _ _ ht') (State.hybConfirm_steady _ _ _ ht'))

theorem execJoinH1Receive_runs (l : Nat) (o : HybOps) (s : State) : RunsOn 1 l s (execJoinH1Receive l o s) := by
  unfold execJoinH1Receive
  refine .ite (.onLse (f := fun _ t => t) fun _ _ ht => ht) (.onMessage fun _ _ ht => ?_)
  extract_lets +onlyGivenNames t'
  have ht' : Steady s t' := .ite (State.joinHybFail_steady _ _ ht) ht
  split
  · exact ht'
  · exact .ite (State.joinHybFail_steady _ _ ht') (.ite (State.joinHybFail_steady _ _ ht') (.ite (State.joinFail_steady _ _ ht')
      (State.sendMessage_steady _ _ _ (State.sendMessage_steady _ _ _ ((State.hybH2_steady _ ht').with_dom _)))))

theorem execJoinChainReceive_runs (l : Nat) (cert : Option PeerCert) (s : State) : RunsOn 1 l s (execJoinChainReceive l cert s) := by
  unfold execJoinChainReceive
  refine .onMessage fun _ _ ht => ?_
  split
  · split
    · exact State.joinFail_steady _ _ ht
    · split
      · exact State.joinFail_steady _ _ ht
      · exact State.setJoin_steady _ _ ht
  · exact ht

theorem execJoinH2Receive_runs (l : Nat) (o : HybOps) (s : State) : RunsOn 1 l s (execJoinH2Receive l o s) := by
  unfold execJoinH2Receive
  refine .onMessage fun _ _ ht => ?_
  split
  · exact ht
  · exact .ite (State.joinHybFail_steady _ _ ht) (.ite (State.joinFail_steady _ _ ht) (.ite (State.joinHybFail_steady _ _ ht)
      (State.sendMessage_steady _ _ _ (State.sendMessage_steady _ _ _ (State.bump_steady _ _ (State.setJoin_steady _ _ ht))))))

theorem execJoinH3Receive_runs (l : Nat) (o : HybOps) (s : State) : RunsOn 1 l s (execJoinH3Receive l o s) := by
  unfold execJoinH3Receive
  refine .onMessage fun _ _ ht => ?_
  split
  · exact ht
  · exact .ite (State.joinHybFail_steady _ _ ht) (.ite (State.joinFail_steady _ _ ht) (.ite (State.joinHybFail_steady _ _ ht)
      (State.hybDone_steady _ _ _ _ (State.sendMessage_steady _ _ _ (State.setJoin_steady _ _ ht)))))

theorem execJoinH4Receive_runs (l : Nat) (s : State) : RunsOn 1 l s (execJoinH4Receive l s) := by
  unfold execJoinH4Receive
  refine .onMessage fun _ _ ht => ?_
  split
  · exact ht
  · exact .ite (State.joinHybFail_steady _ _ ht) (.ite (State.joinHybFail_steady _ _ ht) (State.hybDone_steady _ _ _ _ ht))

theorem execHybridExchangeTimeout_runs (s : State) : Runs s (execHybridExchangeTimeout s) := by
  unfold execHybridExchangeTimeout
  have ht : Steady s s.begin := .begin
  extract_lets +onlyGivenNames t
  split
  · exact .done ht
  · split
    · exact .done (State.joinHybFail_steady _ _ ht)
    · exact .done (State.hybFail_steady _ ht)

/-! ### The commands of Machine/Domain.lean -/

theorem execDomainJoin_runs (c : Call) (src len : Nat) (member : BufRead) (sigsOk idOk : Bool) (s : State) :
    Runs s (execDomainJoin c src len member sigsOk idOk s) := by
  unfold execDomainJoin
  refine .command fun _ ht => .ite (State.finish_steady _ _ ht) (State.input_steady _ _ _ (fun _ _ ht' => ?_) (State.emit_steady _ ht))
  split
  · exact State.finish_steady _ _ ht'
  · exact State.finish_steady _ _ (Steady.foldl (State.issueAlias_steady (State.keepMember_steady _ ht'))
      (fun _ _ hu => State.startJoin_steady _ hu))

theorem execDomainSubstitute_runs (c : Call) (src len : Nat) (member : BufRead) (sigsOk idOk : Bool) (s : State) :
    Runs s (execDomainSubstitute c src len member sigsOk idOk s) := by
  unfold execDomainSubstitute
  refine .command fun _ ht => State.input_steady _ _ _ (fun _ _ ht' => .ite (State.finish_steady _ _ ht') ?_) (State.emit_steady _ ht)
  split
  · exact State.finish_steady _ _ ht'
  · exact .ite (State.finish_steady _ _ ht') (State.finish_steady _ _ (Steady.foldl (ht'.with_dom _) (fun _ _ hu =>
      State.substitutePeer_steady _ hu)))

theorem execTimeProbeSend_runs (t1 : Nat) (s : State) : Runs s (execTimeProbeSend t1 s) := by
  unfold execTimeProbeSend
  have ht : Steady s s.begin := .begin
  exact .ite (.done ht) (.done (State.sendUnit_steady _ _ (ht.with_dom _)))

theorem execTimeProbeReceive_runs (l t2 t3 : Nat) (s : State) : RunsOn 1 l s (execTimeProbeReceive l t2 t3 s) :=
  .onControl fun _ _ ht => .ite ht (State.sendUnit_steady _ _ (ht.with_dom _))

theorem execTimeReplyReceive_runs (l t4 : Nat) (s : State) : RunsOn 1 l s (execTimeReplyReceive l t4 s) := by
  unfold execTimeReplyReceive
  refine .onControl fun _ _ ht => .ite ht ?_
  extract_lets +onlyGivenNames _ _ _ v
  have hv : Steady s v := ht.with_dom _
  split
  · exact hv
  · exact State.timeMeasured_steady _ hv

theorem execTimeUnlockTimeout_runs (s : State) : Runs s (execTimeUnlockTimeout s) := by
  unfold execTimeUnlockTimeout
  have ht : Steady s s.begin := .begin
  extract_lets +onlyGivenNames t
  split
  · exact .done ht
  · exact .ite (.done ht) (.done (State.event_steady _ _ _ _ _ (ht.with_dom _)))

/-! ### The commands of Machine/Booth.lean -/

theorem execBoothOp_runs (c : Call) (mode dir flags tail handle src dst len aadLen aadTail aad : Nat) (iv : Bytes) (du tag : Nat)
  (s : State) : Runs s (execBoothOp c mode dir flags tail handle src dst len aadLen aadTail aad iv du tag s) := by
  unfold execBoothOp
  refine .command fun _ ht => .ite (State.kickBooth_steady _ ht) (.ite ht ?_)
  split
  · exact State.finish_steady _ _ ht
  · refine .ite (State.finish_steady _ _ ht) (.ite (State.finish_steady _ _ ht) (.ite (State.badArg_steady _ _ ht) ?_))
    extract_lets +onlyGivenNames o
    split
    · exact State.refuseBooth_steady _ _ ht
    · exact State.kickBooth_steady _ (ht.with_bth _)

theorem execBoothOpComplete_runs (io : BoothIo) (s : State) : Runs s (execBoothOpComplete io s) := by
  unfold execBoothOpComplete
  have ht : Steady s s.begin := .begin
  extract_lets +onlyGivenNames t
  split
  · exact .done ht
  · refine .ite (.done ht) ?_
    extract_lets +onlyGivenNames _ u
    have hu : Steady s u := State.complete_steady _ (State.endBooth_steady _ _ ht)
    exact .done (State.kickBooth_steady _ (State.settleDestroys_steady (.ite (State.unlockBooth_steady hu) hu)))

theorem execBoothLeaseExpiry_runs (s : State) : Runs s (execBoothLeaseExpiry s) := by
  unfold execBoothLeaseExpiry
  have ht : Steady s s.begin := .begin
  extract_lets +onlyGivenNames t
  split
  · exact .done ht
  · exact .ite (.done ht) (.done (State.unlockBooth_steady (State.bump_steady _ _ (State.event_steady _ _ _ _ _ ht))))

/-! ### The commands of Machine/Observe.lean -/

theorem execBeaconFreeze_runs (s : State) : Runs s (execBeaconFreeze s) := by
  unfold execBeaconFreeze
  have ht : Steady s s.begin := .begin
  refine .done (.ite ht ?_)
  split
  · exact State.freeze_steady _ _ ht
  · exact .ite (State.fireArmed_steady _ ht) ht

theorem execBeaconSet_runs (c : Call) (at_ : Nat) (s : State) : Runs s (execBeaconSet c at_ s) :=
  .ite (.done .begin) (.command fun _ ht => .ite (State.finish_steady _ _ ht) (ht.with_obs _))

theorem execCounterBankSoundingDone_runs (counter : Nat) (fault : Bool) (s : State) :
    Runs s (execCounterBankSoundingDone counter fault s) := by
  unfold execCounterBankSoundingDone
  have ht : Steady s s.begin := .begin
  refine .done (.ite ht ?_)
  extract_lets +onlyGivenNames _ _ u
  have hu : Steady s u := State.sounding_steady _ _ _ (ht.with_obs _)
  exact .ite (State.event_steady _ _ _ _ _ hu) hu

theorem execDoldrumsDeclare_runs (s : State) : Runs s (execDoldrumsDeclare s) := by
  unfold execDoldrumsDeclare
  have ht : Steady s s.begin := .begin
  exact .done (.ite ht ((State.event_steady _ _ _ _ _ ht).update rfl))

theorem execDoldrumsEnd_runs (s : State) : Runs s (execDoldrumsEnd s) := by
  unfold execDoldrumsEnd
  have ht : Steady s s.begin := .begin
  exact .done (.ite (State.event_steady _ _ _ _ _ (ht.update rfl)) ht)

/-! ### The commands of Machine/Clocks.lean -/

theorem execCrossingSoundingDone_runs (crossing : Nat) (fault : Bool) (s : State) :
    Runs s (execCrossingSoundingDone crossing fault s) := by
  unfold execCrossingSoundingDone
  have ht : Steady s s.begin := .begin
  refine .done (.ite ht ?_)
  extract_lets +onlyGivenNames _ _ u
  have hu : Steady s u := State.sounding_steady _ _ _ (ht.update rfl)
  exact .ite hu (.ite (State.alarmClock_steady _ _ _ hu) (State.alarmIntegrity_steady _ _ _ _ _ hu))

theorem execRuntDetected_runs (s : State) : Runs s (execRuntDetected s) := by
  unfold execRuntDetected
  extract_lets +onlyGivenNames _ u
  have hu : Steady s u := State.countRunt_steady .begin
  extract_lets +onlyGivenNames u'
  have hu' : Steady s u' := by
    unfold u'
    split
    · exact State.alarmTamper_steady _ _ _ hu
    · exact hu
  exact .done (State.alarmClock_steady _ _ _ hu')

theorem execPclkStopDeclared_runs (stretch : Bool) (s : State) : Runs s (execPclkStopDeclared stretch s) := by
  unfold execPclkStopDeclared
  have ht : Steady s s.begin := .begin
  refine .done (.ite ht ?_)
  extract_lets +onlyGivenNames _ _ t'
  have ht' : Steady s t' := ht.update rfl
  exact .ite ht' (State.gapOpen_steady _ ht')

theorem State.gapClose_alr (s : State) : s.gapClose.alr = s.alr := by
  unfold State.gapClose
  split <;> rfl

theorem execPclkStopEnd_runs (s : State) : Runs s (execPclkStopEnd s) := by
  unfold execPclkStopEnd
  have ht : Steady s s.begin := .begin
  refine .done ?_
  split
  · exact ht
  · exact (State.gapClose_steady ht).upd rfl rfl rfl rfl rfl rfl (fun _ _ k => k) (fun k => by rwa [State.gapClose_alr] at k) id

theorem execPclkStopTimeout_runs (s : State) : Runs s (execPclkStopTimeout s) := by
  unfold execPclkStopTimeout
  have ht : Steady s s.begin := .begin
  refine .done ?_
  split
  · exact ht
  · exact .ite ht (State.alarmClock_steady _ _ _ (ht.update rfl))

theorem execPclkFreqWindow_runs (mhz : Nat) (stretch : Bool) (s : State) : Runs s (execPclkFreqWindow mhz stretch s) := by
  unfold execPclkFreqWindow
  extract_lets +onlyGivenNames _ _ _ t
  have ht : Steady s t := Steady.begin.update rfl
  exact .done (.ite ht (.ite (State.alarmClock_steady _ _ _ ht) (.ite (State.event_steady _ _ _ _ _ ht) ht)))

theorem execFreqChangeRequest_runs (s : State) : Runs s (execFreqChangeRequest s) := by
  unfold execFreqChangeRequest
  extract_lets +onlyGivenNames _ _ t
  have ht : Steady s t := Steady.begin.with_pins _
  exact .done (.ite ht (.ite (ht.with_mon _) (State.bump_steady _ _ (ht.with_mon _))))

theorem execFreqChangeDone_runs (s : State) : Runs s (execFreqChangeDone s) := by
  unfold execFreqChangeDone
  have ht : Steady s s.begin := .begin
  refine .done (.ite ht ?_)
  extract_lets +onlyGivenNames _ t'
  have ht' : Steady s t' := ht.with_pins _
  exact .ite (ht'.with_mon _) ht'

theorem execFreqChangeTimeout_runs (s : State) : Runs s (execFreqChangeTimeout s) := by
  unfold execFreqChangeTimeout
  have ht : Steady s s.begin := .begin
  exact .done (.ite ht (State.alarmClock_steady _ _ _ (ht.with_mon _)))

theorem execClockGoodLost_runs (s : State) : Runs s (execClockGoodLost s) := by
  unfold execClockGoodLost
  have ht : Steady s s.begin := .begin
  refine .done (.ite ht ?_)
  extract_lets +onlyGivenNames _ t'
  have ht' : Steady s t' := ht.with_pins _
  exact .ite ht' (State.alarmClock_steady _ _ _ ht')

theorem execFreqAckReturnTimeout_runs (ret : Bool) (s : State) : Runs s (execFreqAckReturnTimeout ret s) := by
  unfold execFreqAckReturnTimeout
  extract_lets +onlyGivenNames _ _ t
  have ht : Steady s t := Steady.begin.with_pins _
  refine .done ?_
  split
  · exact ht
  · refine .ite ht ?_
    extract_lets +onlyGivenNames _ u
    have hu : Steady s u := ht.with_mon _
    exact .ite hu (State.startCrossing_steady _ hu)

theorem execTamperPairTrip_runs (tamper tamperB : Nat) (s : State) : Runs s (execTamperPairTrip tamper tamperB s) :=
  .done (State.sampleTamper_steady _ _ .begin)

theorem execCoolantLoss_runs (s : State) : Runs s (execCoolantLoss s) := .done (State.sampleCoolant_steady _ .begin)

theorem execSafeStopDrainDone_runs (s : State) : Runs s (execSafeStopDrainDone s) := by
  unfold execSafeStopDrainDone
  have ht : Steady s s.begin := .begin
  exact .done (.ite (ht.update rfl) ht)

theorem execRailSampleCapture_runs (val ch par : Nat) (s : State) : Runs s (execRailSampleCapture val ch par s) := by
  unfold execRailSampleCapture
  extract_lets +onlyGivenNames _ _ t
  have ht : Steady s t := Steady.begin.with_pins _
  exact .done (.ite (State.stySample_steady _ _ ht) (State.startCrossing_steady _ (State.styDiscard_steady _ ht)))

theorem execTempSampleCapture_runs (val par : Nat) (s : State) : Runs s (execTempSampleCapture val par s) := by
  unfold execTempSampleCapture
  extract_lets +onlyGivenNames _ _ t
  have ht : Steady s t := Steady.begin.with_pins _
  exact .done (.ite (ht.with_mon _) (State.startCrossing_steady _ ht))

theorem execRailChannelGap_runs (ch : Nat) (s : State) : Runs s (execRailChannelGap ch s) := by
  unfold execRailChannelGap
  have ht : Steady s s.begin := .begin
  exact .done (.ite (State.stySuspect_steady _ _ (State.styAccount_steady _ _ ht)) ht)

/-! ### The commands of Machine/Commands.lean -/

theorem execNop_runs (c : Call) (s : State) : Runs s (execNop c s) := .command fun _ ht => State.finish_steady _ _ ht

theorem execHint_runs (c : Call) (durationUs targets : Nat) (s : State) : Runs s (execHint c durationUs targets s) :=
  .command fun _ ht => State.finish_steady _ _ (State.hint_steady _ _ ht)

theorem execHintBoothClassEnd_runs (s : State) : Runs s (execHintBoothClassEnd s) := by
  unfold execHintBoothClassEnd
  have ht : Steady s s.begin := .begin
  exact .done (.ite (ht.with_hlm _) ht)

theorem execCommandPacket_runs (fn qid : Nat) (framed : Bool) (bytes : Bytes) (s : State) :
    Runs s (execCommandPacket fn qid framed bytes s) := by
  unfold execCommandPacket
  have ht : Steady s s.begin := .begin
  refine .done (.ite ht (.ite (ht.update rfl) ?_))
  extract_lets +onlyGivenNames u
  have hu : Steady s u := State.bump_steady _ _ (State.bump_steady _ _ ht)
  refine .ite (State.rejectPacket_steady _ _ _ _ hu) ?_
  split
  · exact State.rejectPacket_steady _ _ _ _ hu
  · exact State.placePacket_steady _ _ hu

theorem execCommandStart_runs (s : State) : Runs s (execCommandStart s) := by
  unfold execCommandStart
  have ht : Steady s s.begin := .begin
  refine .done (.ite ht ?_)
  extract_lets +onlyGivenNames t'
  have ht' : Steady s t' := State.decodeBuffer_steady ht
  extract_lets +onlyGivenNames heads
  split
  · exact State.finish_steady _ _ (ht'.with_hlm _)
  · split
    · exact State.startCommand_steady _ ht'
    · exact Steady.foldl ht' (fun _ _ hs => State.noteWait_steady _ hs)

theorem execCompletionWrite_runs (s : State) : Runs s (execCompletionWrite s) := by
  unfold execCompletionWrite
  have ht : Steady s s.begin := .begin
  refine .done ?_
  split
  · exact ht
  · refine .ite ht ?_
    extract_lets +onlyGivenNames _ _ u
    have hu : Steady s u := (State.endOverrun_steady ht).with_hlm _
    exact State.afterRecord_steady _ (.ite hu (State.bump_steady _ _ (State.emit_steady _ hu)))

theorem execCwOverrun_runs (s : State) : Runs s (execCwOverrun s) := by
  unfold execCwOverrun
  have ht : Steady s s.begin := .begin
  exact .done (.ite ht (State.waitBegin_steady _ _ _ _ (ht.with_hlm _)))

theorem execEventRingWrite_runs (s : State) : Runs s (execEventRingWrite s) := by
  unfold execEventRingWrite
  have ht : Steady s s.begin := .begin
  refine .done ?_
  split
  · exact ht
  · exact .ite ht (State.ringPut_steady _ (ht.with_hlm _))

theorem execAlarmLogCopy_runs (s : State) : Runs s (execAlarmLogCopy s) := by
  unfold execAlarmLogCopy
  have ht : Steady s s.begin := .begin
  refine .done ?_
  split
  · exact ht
  · exact .ite ht ((State.journal_steady _ (State.ringPut_steady _ ht)).update rfl)

/-! ### The commands of Machine/Ledger.lean -/

theorem execEpochApply_runs (m : Nat) (s : State) : RunsOn 0 m s (execEpochApply m s) :=
  .onMse fun _ _ ht => .ite ht ((State.modMse_steady _ _ ht).with_epo _)

theorem execPoolLedgerLineFill_runs (line : Nat) (data : Bytes) (s : State) : Runs s (execPoolLedgerLineFill line data s) := by
  unfold execPoolLedgerLineFill
  have ht : Steady s s.begin := .begin
  refine .ite (.done ht) ?_
  extract_lets +onlyGivenNames _ _ _ u
  have hu : Steady s u := ht.with_ldg _
  exact .done (State.rerunAll_steady (.ite hu (Steady.foldl hu (fun _ _ hw => State.dedRegion_steady _ hw))))

theorem execSweepSlotStart_runs (s : State) : Runs s (execSweepSlotStart s) := by
  unfold execSweepSlotStart
  have ht : Steady s s.begin := .begin
  refine .done ?_
  split
  · exact .ite ht (State.queueItems_steady _ (ht.with_swp _))
  · exact ht

theorem execStrideCheckpoint_runs (slot : Nat) (s : State) : Runs s (execStrideCheckpoint slot s) := by
  unfold execStrideCheckpoint
  have ht : Steady s s.begin := .begin
  refine .done ?_
  split
  · exact ht
  · exact .ite ht (State.queueItems_steady _ (ht.with_swp _))

theorem execSweepRetire_runs (stall : Nat) (s : State) : Runs s (execSweepRetire stall s) := by
  unfold execSweepRetire
  have ht : Steady s s.begin := .begin
  refine .done ?_
  split
  · exact ht
  · exact .ite ht ((State.spineMses_steady _ ht).with_swp _)

theorem execSweepDone_runs (stall : Nat) (s : State) : Runs s (execSweepDone stall s) := by
  unfold execSweepDone
  have ht : Steady s s.begin := .begin
  refine .done ?_
  split
  · exact ht
  · refine .ite ht ?_
    split
    · exact ht.with_swp _
    · exact State.bump_steady _ _ (State.event_steady _ _ _ _ _
        ((State.modStallData_steady _ _ (State.eraseKey_steady _ _ ht)).with_swp _))

theorem execZeroFillDone_runs (slot : Nat) (s : State) : Runs s (execZeroFillDone slot s) := by
  unfold execZeroFillDone
  have ht : Steady s s.begin := .begin
  refine .done ?_
  split
  · exact ht
  · exact .ite ht (State.queueItems_steady _ (ht.update rfl))

theorem execHarbourResealDone_runs (s : State) : Runs s (execHarbourResealDone s) := by
  unfold execHarbourResealDone
  have ht : Steady s s.begin := .begin
  exact .done (.ite ht ((State.eraseKey_steady _ _ ht).with_ald _))

theorem execSweeperYieldEnd_runs (s : State) : Runs s (execSweeperYieldEnd s) := by
  unfold execSweeperYieldEnd
  have ht : Steady s s.begin := .begin
  refine .done ?_
  split
  · exact ht
  · exact .ite ht (ht.with_swp _)

theorem execDeltaRecordAck_runs (s : State) : Runs s (execDeltaRecordAck s) := by
  unfold execDeltaRecordAck
  have ht : Steady s s.begin := .begin
  refine .done ?_
  split
  · exact ht
  · refine .ite ht ?_
    extract_lets +onlyGivenNames _ _ u
    have hu : Steady s u := (State.anchorRecord_steady _ ht).with_ldg _
    exact State.flushStore_steady (.ite (State.beginBase_steady hu) hu)

theorem execBaseMarkerAck_runs (s : State) : Runs s (execBaseMarkerAck s) := by
  unfold execBaseMarkerAck
  have ht : Steady s s.begin := .begin
  refine .done ?_
  split
  · exact ht
  · refine .ite ht ?_
    split
    · exact State.flushStore_steady (State.bump_steady _ _ ((State.anchorRecord_steady _ (ht.with_ldg _)).update rfl))
    · exact ht

theorem execLedgerDed_runs (pool : Bool) (index : Nat) (s : State) : Runs s (execLedgerDed pool index s) := by
  unfold execLedgerDed
  extract_lets +onlyGivenNames t
  have ht : Steady s t := State.dedRegion_steady _ .begin
  exact .done (.ite ht (ht.with_ldg _))

theorem execLedgerRowSoundingDone_runs (row : Nat) (pass : Bool) (s : State) : Runs s (execLedgerRowSoundingDone row pass s) := by
  unfold execLedgerRowSoundingDone
  have ht : Steady s s.begin := .begin
  refine .ite (.done ht) ?_
  extract_lets +onlyGivenNames _ t'
  have ht' : Steady s t' := ht.with_ldg _
  refine .ite (.done (State.sounding_steady _ _ _ ht')) ?_
  extract_lets +onlyGivenNames t''
  have ht'' : Steady s t'' := State.sounding_steady _ _ _ ht'
  exact .ite (.done (State.event_steady _ _ _ _ _ (ht''.update rfl)))
    (.done (Steady.foldl (ht''.with_ldg _) (fun _ _ hu => State.dedRegion_steady _ hu)))

/-! ### The commands of Machine/Tollgate.lean -/

theorem execTollPolicyLoad_runs (c : Call) (addr : Nat) (image : BufRead) (s : State) : Runs s (execTollPolicyLoad c addr image s) := by
  unfold execTollPolicyLoad
  refine .command fun _ ht => ?_
  split
  · refine .ite (State.badArg_steady _ _ ht) (.ite (State.policyError_steady _ _ ht) ?_)
    extract_lets +onlyGivenNames t'
    have ht' : Steady s t' := State.emit_steady _ ht
    split
    · exact State.policyError_steady _ _ ht'
    · refine .ite (State.policyError_steady _ _ ht') ?_
      split
      · exact State.policyError_steady _ _ ht'
      · exact State.finish_steady _ _ (ht'.with_tol _)
  · exact State.finish_steady _ _ ht

theorem execTollExport_runs (c : Call) (rule owner outFmt cls handle src len stage dst hdr tag : Nat) (policy srcBuf : BufRead)
  (s : State) : Runs s (execTollExport c rule owner outFmt cls handle src len stage dst hdr tag policy srcBuf s) := by
  unfold execTollExport
  refine .command fun _ ht => ?_
  extract_lets +onlyGivenNames e
  split
  · exact .ite (.ite (State.runExport_steady _ _ _ ht) ht) (.ite ht (ht.with_tol _))
  · refine .ite ht ?_
    split
    · exact State.runExport_steady _ _ _ (State.setExport_steady _ ht)
    · exact .ite (State.runExport_steady _ _ _ (State.setExport_steady _ (ht.with_tol _))) (.ite ht (ht.with_tol _))

theorem execTollCommit_runs (s : State) : Runs s (execTollCommit s) := by
  unfold execTollCommit
  have ht : Steady s s.begin := .begin
  extract_lets +onlyGivenNames t
  split
  · exact .done ht
  · refine .ite (.done ht) ?_
    extract_lets +onlyGivenNames _ _ _ _ u
    have hu : Steady s u := by
      unfold u
      refine .ite ht ?_
      split
      · exact ht
      · exact State.setExport_steady _ (State.writeRecord_steady _ (State.setStallData_steady _ _ ht))
    refine .ite (.done hu) ?_
    split
    · exact .done hu
    · exact .done (State.progress_steady (State.meter_steady _ _ _ (State.bump_steady _ _ (hu.with_tol _))))

theorem State.mainStage_steady {s0 s : State} (e : Export) (src : BufRead) (stageAt : Option Nat) (hdrOk : Bool) (stalls : Nat)
    (hst : Steady s0 s) : Steady s0 (s.mainStage e src stageAt hdrOk stalls) := by
  unfold State.mainStage
  extract_lets +onlyGivenNames t
  have ht : Steady s0 t := State.emit_steady _ hst
  split
  · exact State.failExport_steady _ _ ht
  · split
    · exact State.failExport_steady _ _ ht
    · extract_lets +onlyGivenNames _ _ _ _ v
      have hv : Steady s0 v := State.bump_steady _ _ (State.bump_steady _ _ (State.bump_steady _ _ (State.bump_steady _ _ (ht.update rfl))))
      split
      · exact State.failExport_steady _ _ (State.writeRange_steady _ _ _ hv)
      · exact .ite (State.failExport_steady _ _ (State.writeRange_steady _ _ _ (State.writeRange_steady _ _ _ hv)))
          (State.takeLock_steady _ (State.setExport_steady _ (State.writeRange_steady _ _ _ (State.writeRange_steady _ _ _ hv))))

theorem execTollHandoff_runs (src : BufRead) (stageAt : Option Nat) (hdrOk : Bool) (stalls : Nat) (s : State) :
    Runs s (execTollHandoff src stageAt hdrOk stalls s) := by
  unfold execTollHandoff
  have ht : Steady s s.begin := .begin
  extract_lets +onlyGivenNames t
  split
  · exact .done ht
  · exact .ite (.done ht) (.ite (.done (State.takeLock_steady _ ht))
      (.ite (.done ht) (.ite (.done (State.withEntropy_steady _ _
        (fun _ ht' => State.mainStage_steady _ _ _ _ _ ht') ht))
          (.done (State.mainStage_steady _ _ _ _ _ ht)))))

theorem execTollExportComplete_runs (io : BoothIo) (s : State) : Runs s (execTollExportComplete io s) := by
  unfold execTollExportComplete
  have ht : Steady s s.begin := .begin
  extract_lets +onlyGivenNames t
  split
  · exact .ite (.done ht) (.done (State.settleDestroys_steady (State.complete_steady _ ((State.endBooth_steady _ _ ht).update rfl))))
  · exact .done ht

theorem execTollBudget_runs (c : Call) (owner : Nat) (nonce : Bytes) (out_ outMax : Nat) (sigs : Bytes) (ok : Bool) (s : State) :
    Runs s (execTollBudget c owner nonce out_ outMax sigs ok s) := by
  unfold execTollBudget
  refine .command fun _ ht => ?_
  split
  · split
    · exact State.finish_steady _ _ ht
    · exact .ite (State.finish_steady _ _ ht) (State.output_steady _ _ _ _ _ _ (fun _ ht' => State.finishOk_steady _ _
        (State.bump_steady _ _ ht')) ht)
  · exact State.finish_steady _ _ ht

/-! ### The commands of Machine/Fuse.lean -/

theorem assocGet_assocSet {β : Type} (j k : Nat) (v : β) (l : List (Nat × β)) :
    assocGet j (assocSet k v l) = if k = j then some v else assocGet j l := by
  induction l with
  | nil => rfl
  | cons p l ih =>
    obtain ⟨i, w⟩ := p
    simp only [assocSet]
    split
    · rfl
    · split
      · next hk => simp only [assocGet, hk]; split <;> rfl
      · next hk =>
        simp only [assocGet, ih]
        split
        · next hi => rw [if_neg (hi ▸ hk)]
        · rfl

/-- The macro programs 0-to-1 transitions only (R82): no bit that reads 1 is lost. -/
theorem Lcu.testBit_fuse_programBit (w b : Nat) (l : Lcu) {v i : Nat} (h : (l.fuse v).testBit i = true) :
    ((l.programBit w b).fuse v).testBit i = true := by
  simp only [Lcu.programBit, Lcu.fuse, assocGet_assocSet]
  split
  · next hw => subst hw; simpa [Lcu.fuse] using Or.inl h
  · exact h

theorem execFusePgmDone_runs (s : State) : Runs s (execFusePgmDone s) := by
  unfold execFusePgmDone
  have ht : Steady s s.begin := .begin
  refine .done ?_
  split
  · exact ht
  · split
    · exact ht
    next w b _ _ =>
      exact .ite ht ((State.emit_steady (.fuseRd w) ht).upd rfl rfl rfl rfl rfl rfl (fun _ _ k => Lcu.testBit_fuse_programBit w b _ k) id id)

theorem execFusePgmErr_runs (s : State) : Runs s (execFusePgmErr s) := by
  unfold execFusePgmErr
  have ht : Steady s s.begin := .begin
  exact .done (.ite (State.pgmError_steady ht) ht)

theorem execFuseReadReturn_runs (data : Nat) (s : State) : Runs s (execFuseReadReturn data s) := by
  unfold execFuseReadReturn
  have ht : Steady s s.begin := .begin
  refine .done ?_
  split
  · split
    · exact .ite (State.runFuses_steady (ht.update rfl)) (State.pgmError_steady ht)
    · exact ht
  · split
    · exact (State.emit_steady (.tap (leBytes 4 data)) ht).update rfl
    · exact ht

theorem execFusePortTimeout_runs (s : State) : Runs s (execFusePortTimeout s) := by
  unfold execFusePortTimeout
  have ht : Steady s s.begin := .begin
  refine .done ?_
  split
  · split
    · exact .ite (State.dropJob_steady (State.alarmTamper_steady _ _ _ ht)) ht
    · exact ht
  · split
    · exact State.alarmTamper_steady _ _ _ (ht.update rfl)
    · exact ht

theorem execNvmEraseDone_runs (s : State) : Runs s (execNvmEraseDone s) := by
  unfold execNvmEraseDone
  have ht : Steady s s.begin := .begin
  refine .done ?_
  split
  · split
    · extract_lets +onlyGivenNames u
      have hu : Steady s u := State.modTransition_steady _ (ht.with_nvm _)
      split
      · exact State.runFuses_steady (State.lifecycleJob_steady _ hu)
      · exact State.emit_steady _ hu
    · exact State.journalErased_steady ht
  · exact State.journalErased_steady ht

theorem execLcTransitionResume_runs (s : State) : Runs s (execLcTransitionResume s) := by
  unfold execLcTransitionResume
  have ht : Steady s s.begin := .begin
  refine .done ?_
  split
  · exact .ite (State.runFuses_steady (State.beginWipe_steady _ ht)) ht
  · exact ht

theorem execLcTransition_runs (c : Call) (target : Nat) (auth : Bytes) (sig : BufRead) (sigOk identityOk : Bool) (s : State) :
    Runs s (execLcTransition c target auth sig sigOk identityOk s) := by
  unfold execLcTransition
  refine .ite (.done .begin) (.command fun _ ht => ?_)
  extract_lets +onlyGivenNames _ _ t'
  have ht' : Steady s t' := ht.update rfl
  refine .ite (State.finishDetail_steady _ _ _ (State.lcRefused_steady _ _ ht'))
    (.ite (State.finishDetail_steady _ _ _ (State.lcRefused_steady _ _ ht'))
      (.ite (State.badArg_steady _ _ (State.newNonce_steady ht')) ?_))
  extract_lets +onlyGivenNames _ t''
  have ht'' : Steady s t'' := .ite (State.emit_steady _ ht') ht'
  refine .ite (State.finish_steady _ _ (State.newNonce_steady ht'')) ?_
  split
  · exact State.finishDetail_steady _ _ _ (State.lcRefused_steady _ _ ht'')
  · exact State.beginTransition_steady _ _ _ _ ht''

theorem execLcReq_runs (target : Nat) (auth : Bytes) (coincident : Bool) (s : State) : Runs s (execLcReq target auth coincident s) := by
  unfold execLcReq
  have ht : Steady s s.begin := .begin
  refine .done (.ite (ht.update rfl) ?_)
  extract_lets +onlyGivenNames _ t'
  have ht' : Steady s t' := ht.update rfl
  refine .ite (State.lcRefused_steady _ _ ht') ?_
  split
  · exact State.lcRefused_steady _ _ ht'
  · exact .ite (State.beginTransition_steady _ _ _ _ ht') (State.newNonce_steady ht')

theorem execDrkGenerate_runs (c : Call) (s : State) : Runs s (execDrkGenerate c s) :=
  .ite (.done .begin) (.command fun _ ht => .ite (State.finishDetail_steady _ _ _ ht)
    (State.withEntropy_steady _ _ (fun _ ht' => State.runFuses_steady
      (State.queueJob_steady _ _ (State.tookDraw_steady (State.tookDraw_steady ht')))) ht))

theorem execSvnAdvance_runs (c : Call) (s : State) : Runs s (execSvnAdvance c s) :=
  .ite (.done .begin) (.command fun _ ht => .ite (State.finish_steady _ _ ht) (State.runFuses_steady (State.queueJob_steady _ _ ht)))

/-! ### The commands of Machine/Loader.lean -/

theorem execSettingsSave_runs (c : Call) (s : State) : Runs s (execSettingsSave c s) :=
  .command fun _ ht => State.finish_steady _ _ ((State.writeSettings_steady _ (State.tookDraw_steady ht)).with_ald _)

theorem execSettingsRepairWrite_runs (s : State) : Runs s (execSettingsRepairWrite s) := by
  unfold execSettingsRepairWrite
  have ht : Steady s s.begin := .begin
  exact .done (.ite ht ((State.writeSettings_steady _ ht).with_ald _))

theorem State.phase_of_loadable {s : State} (h : s.loadable = true) : s.rst.phase = .loading := by
  simp only [State.loadable, Bool.and_eq_true, decide_eq_true_eq] at h
  exact h.1.1.1

theorem execAlmanacLoad_runs (sigA sigB : ImageSigs) (nvmOk sdr : Bool) (sigs : Bytes) (s : State) :
    Runs s (execAlmanacLoad sigA sigB nvmOk sdr sigs s) := by
  unfold execAlmanacLoad
  have ht : Steady s s.begin := .begin
  refine .done ?_
  split
  · exact ht
  next hl =>
    have hp : s.rst.phase ≠ .inReset := by
      have hl : s.begin.loadable = true := by simpa using hl
      rw [← State.begin_rst, State.phase_of_loadable hl]
      decide
    extract_lets +onlyGivenNames r
    split
    · exact ht.upd rfl rfl rfl rfl rfl rfl (fun _ _ k => k) id (fun k => absurd k hp)
    · refine .ite ht ?_
      extract_lets +onlyGivenNames _ _ _ u
      have hu : Steady s u := State.runFuses_steady (State.sealEvaluate_steady _ (State.openPartitions_steady (State.openSettings_steady
        ((State.applyImage_steady _ _ ht).with_ald _))))
      exact .ite (State.enterQuiet_steady (hu.with_rst hp _)) (State.enterHarbour_steady hp hu)

theorem execTrainingDone_runs (c : Call) (flags : Nat) (rootOk : Bool) (bad : List Nat) (s : State) :
    Runs s (execTrainingDone c flags rootOk bad s) := by
  unfold execTrainingDone
  refine .command fun _ ht => ?_
  extract_lets +onlyGivenNames _ _ u
  have hu : Steady s u := ht.with_ald _
  exact .ite (State.finish_steady _ _ hu) (.ite (State.finish_steady _ _ (State.restore_steady _ _ hu)) (.ite hu
    (State.finish_steady _ _ (State.formatStore_steady hu))))

theorem execAlmanacUpdate_runs (c : Call) (phase inline_ offset len src : Nat) (data : Bytes) (buf : BufRead) (sigs : ImageSigs)
  (s : State) : Runs s (execAlmanacUpdate c phase inline_ offset len src data buf sigs s) := by
  unfold execAlmanacUpdate
  refine .command fun _ ht => ?_
  extract_lets +onlyGivenNames _ first
  split
  · exact State.finish_steady _ _ ((State.setIdleSlot_steady _ _ (State.emits_steady _ ht)).with_ald _)
  · split
    · exact State.badArg_steady _ _ ht
    · exact .ite (State.badArg_steady _ _ ht)
        (.ite (State.badArg_steady _ _ ht)
          (.ite (State.finish_steady _ _ ((State.setIdleSlot_steady _ _ (State.emit_steady _ ht)).with_ald _))
            (.ite (State.finish_steady _ _ ht)
              (State.input_steady _ _ _ (fun _ _ ht' => State.finish_steady _ _
                ((State.setIdleSlot_steady _ _ (State.emit_steady _ ht')).with_ald _)) (State.emit_steady _ ht)))))
  · split
    · exact State.badArg_steady _ _ ht
    · refine .ite (State.finishDetail_steady _ _ _ ht) ?_
      split
      · exact State.finish_steady _ _ ht
      · exact State.finishDetail_steady _ _ _ ht

theorem execPatchStage_runs (c : Call) (src len : Nat) (buf : BufRead) (sigOk : Bool) (s : State) :
    Runs s (execPatchStage c src len buf sigOk s) := by
  unfold execPatchStage
  refine .command fun _ ht => .ite (State.finish_steady _ _ ht)
    (.ite (State.finishDetail_steady _ _ _ ht) (State.input_steady _ _ _ (fun _ _ ht' => ?_) (State.emit_steady _ ht)))
  split
  · exact State.finishDetail_steady _ _ _ ht'
  · exact State.finishOk_steady _ _ (ht'.with_hlm _)

theorem execMeterRead_runs (c : Call) (stall out_ outMax : Nat) (sig : Bytes) (ok : Bool) (s : State) :
    Runs s (execMeterRead c stall out_ outMax sig ok s) := by
  unfold execMeterRead
  refine .command fun _ ht => ?_
  split
  · exact State.finishDetail_steady _ _ _ ht
  · refine .ite (State.complete_steady _ ht) (.ite (.ite ht (ht.with_sty _)) (.ite ht (State.output_steady _ _ _ _ _ _ (fun _ ht' => ?_)
      (ht.with_sty _))))
    extract_lets +onlyGivenNames _ t''
    have ht'' : Steady s t'' := .ite ht' (ht'.with_sty _)
    exact State.finishOk_steady _ _ (.ite ht'' (State.firstReading_steady ht''))

/-! ### The commands of Machine/Tick.lean -/

theorem execTickBoundary_runs (s : State) : Runs s (execTickBoundary s) := by
  unfold execTickBoundary
  extract_lets +onlyGivenNames _ _ t
  have ht : Steady s t := Steady.begin.with_pins _
  refine .done (.ite ht ?_)
  split
  · exact State.event_steady _ _ _ _ _ (ht.update rfl)
  · exact State.acceptTick_steady ht

theorem execTickLate_runs (s : State) : Runs s (execTickLate s) := by
  unfold execTickLate
  have ht : Steady s s.begin := .begin
  exact .done (.ite ht (State.event_steady _ _ _ _ _ (ht.update rfl)))

theorem execTickBudgetExpiry_runs (s : State) : Runs s (execTickBudgetExpiry s) := by
  unfold execTickBudgetExpiry
  have ht : Steady s s.begin := .begin
  refine .done ?_
  split
  · exact ht
  · refine .ite ht ?_
    extract_lets +onlyGivenNames _ t'
    have ht' : Steady s t' := ht.update rfl
    exact .ite ht' (State.bump_steady _ _
      (State.event_steady _ _ _ _ _ ((Steady.foldl ht' (fun _ _ ht'' => State.countDefer_steady _ ht'')).update rfl)))

/-! ### The commands of Machine/Reset.lean -/

theorem execHelmWatchdogExpiry_runs (s : State) : Runs s (execHelmWatchdogExpiry s) := by
  unfold execHelmWatchdogExpiry
  have ht : Steady s s.begin := .begin
  refine .done (.ite ht ?_)
  extract_lets +onlyGivenNames _ _ u
  have hu : Steady s u := ht.update rfl
  exact .ite (State.alarmSafestop_steady _ _ _ hu) (State.beginCore_steady _ hu)

theorem execPatchCommit_runs (c : Call) (s : State) : Runs s (execPatchCommit c s) :=
  .ite (.done .begin) (.command fun _ ht => State.beginCore_steady _ (ht.update rfl))

theorem execCoreResetEnd_runs (s : State) : Runs s (execCoreResetEnd s) := by
  unfold execCoreResetEnd
  have ht : Steady s s.begin := .begin
  refine .done ?_
  split
  · exact ht
  · extract_lets +onlyGivenNames _ _ _ _ u
    have hu : Steady s u := State.applyPatches_steady (ht.update rfl)
    refine .ite hu ?_
    extract_lets +onlyGivenNames _ u'
    have hu' : Steady s u' := State.measure_steady hu
    exact State.runTicks_steady _ (State.finishPatch_steady (.ite hu' (State.issueAlias_steady (State.event_steady _ _ _ _ _ hu'))))

theorem execUnitResetIdle_runs (unit : Nat) (s : State) : Runs s (execUnitResetIdle unit s) := by
  unfold execUnitResetIdle
  have ht : Steady s s.begin := .begin
  exact .done (.ite ht (State.modUnitReset_steady _ _ (State.clearUnit_steady _ ht)))

theorem execUnitResetForce_runs (unit : Nat) (written : Bytes) (s : State) : Runs s (execUnitResetForce unit written s) := by
  unfold execUnitResetForce
  have ht : Steady s s.begin := .begin
  refine .done ?_
  split
  · exact ht
  · exact .ite ht (State.modUnitReset_steady _ _
      ((State.clearUnit_steady _ (State.endWaits_steady _ (State.squashUnit_steady _ _ ht))).update rfl))

theorem execUnitResetRelease_runs (unit : Nat) (s : State) : Runs s (execUnitResetRelease unit s) := by
  unfold execUnitResetRelease
  have ht : Steady s s.begin := .begin
  refine .done ?_
  split
  · exact ht
  · exact State.resumeUnit_steady _ (State.bump_steady _ _ (State.event_steady _ _ _ _ _ (ht.update rfl)))

theorem execPartitionAnnounce_runs (unit level phase : Nat) (s : State) : Runs s (execPartitionAnnounce unit level phase s) := by
  unfold execPartitionAnnounce
  have ht : Steady s s.begin := .begin
  refine .done (.ite ht (.ite (State.partRelease_steady _ (ht.update rfl)) ?_))
  extract_lets +onlyGivenNames _ u
  have hu : Steady s u := ht.update rfl
  exact State.emit_steady _ (.ite (State.openPorts_steady hu) hu)

theorem execPartitionDrainDone_runs (unit : Nat) (s : State) : Runs s (execPartitionDrainDone unit s) := by
  unfold execPartitionDrainDone
  have ht : Steady s s.begin := .begin
  refine .done ?_
  split
  · exact ht
  · exact .ite ht (State.partAnswer_steady _ ht)

theorem execPartitionDrainTimeout_runs (unit : Nat) (written : Bytes) (s : State) :
    Runs s (execPartitionDrainTimeout unit written s) := by
  unfold execPartitionDrainTimeout
  have ht : Steady s s.begin := .begin
  refine .done ?_
  split
  · exact ht
  · exact .ite ht (State.partAnswer_steady _ (.ite (State.squashPorts_steady _ ht) (.ite (State.forceBooth_steady _ ht) ht)))

/-! ### The commands of Machine/Dump.lean -/

theorem execHangDump_runs (c : Call) (stall meta_ outp outMax : Nat) (work : Bytes) (metaOk stallOk : Bool) (s : State) :
    Runs s (execHangDump c stall meta_ outp outMax work metaOk stallOk s) := by
  unfold execHangDump
  refine .command fun _ ht => .ite (State.finish_steady _ _ ht)
    (.ite (State.badArg_steady _ _ ht) (.ite (State.finish_steady _ _ ht) (.ite (State.wantStall_steady _ ht) ?_)))
  extract_lets +onlyGivenNames body
  have hbody : ∀ u, Steady s u → Steady s (body u) := fun u hu =>
    have hv : Steady s (u.emit (.memWrite 0 meta_ u.dumpMeta)) := State.emit_steady _ hu
    .ite (State.finish_steady _ _ hv) (.ite (State.dumpStall_steady _ _ _ _ _ _ _ hv) (State.finishDump_steady _ _ _ _ _ hv))
  exact .ite (State.withEntropy_steady _ _ hbody ht) (hbody _ ht)

/-! ### The commands of Machine/Regs.lean -/

theorem execCapturePairRead_runs (fn addr : Nat) (s : State) : Runs s (execCapturePairRead fn addr s) :=
  .done (State.regRead_steady _ _ .begin)

theorem execSettingsDataAccess_runs (fn : Nat) (write : Bool) (data : Nat) (s : State) :
    Runs s (execSettingsDataAccess fn write data s) := .done (.ite (State.regWrite_steady _ _ _ .begin) (State.regRead_steady _ _ .begin))

theorem execTapDebugEnter_runs (ir : Nat) (s : State) : Runs s (execTapDebugEnter ir s) := by
  unfold execTapDebugEnter
  extract_lets +onlyGivenNames _ _ u
  have hu : Steady s u := Steady.begin.update rfl
  exact .done (.ite ((State.alarmIntegrity_steady _ _ _ _ _ hu).update rfl) hu)

theorem execTapFuseRead_runs (word : Nat) (s : State) : Runs s (execTapFuseRead word s) := by
  unfold execTapFuseRead
  have ht : Steady s s.begin := .begin
  extract_lets +onlyGivenNames _ _ _ _ u
  have hu : Steady s u := ht.update rfl
  exact .done (.ite hu (.ite ht (State.emit_steady _ (hu.update rfl))))

theorem execTapRegAccess_runs (write : Bool) (addr data : Nat) (s : State) : Runs s (execTapRegAccess write addr data s) := by
  unfold execTapRegAccess
  extract_lets +onlyGivenNames _ _ u
  have hu : Steady s u := Steady.begin.update rfl
  exact .done (.ite hu (.ite (State.regWrite_steady _ _ _ hu) (State.regRead_steady _ _ hu)))

/-! ### The table -/

/-- What the outcome of a command that names the engine `e`, or none, can be. -/
def Answers (s : State) (e : Option (Nat × Nat)) (o : Host.Outcome State Fault Refusal) : Prop :=
  match e with
  | none => Runs s o
  | some e => RunsOn e.1 e.2 s o

/-- Every command but a reset and its release answers a next state that keeps what every step keeps, or names an engine that does not exist
and faults. -/
theorem exec_answers (c : Instr) (s : State) (hr : c.isReset = false) : Answers s c.engine (exec c s) := by
  cases c with
  | powerOnReset => exact absurd hr (by decide)
  | systemReset => exact absurd hr (by decide)
  | resetRelease => exact absurd hr (by simp [Instr.isReset])
  | lcTransitionResume => exact execLcTransitionResume_runs s
  | almanacLoad sigA sigB nvmOk sdr sigs => exact execAlmanacLoad_runs sigA sigB nvmOk sdr sigs s
  | helmWatchdogExpiry => exact execHelmWatchdogExpiry_runs s
  | coreResetEnd => exact execCoreResetEnd_runs s
  | coreResetRequest => exact Runs.regWrite _ _ _
  | sysReqWrite => exact Runs.regWrite _ _ _
  | unitResetGo => exact Runs.regWrite _ _ _
  | unitResetIdle unit => exact execUnitResetIdle_runs unit s
  | unitResetForce unit written => exact execUnitResetForce_runs unit written s
  | unitResetRelease unit => exact execUnitResetRelease_runs unit s
  | runtDetected => exact execRuntDetected_runs s
  | pclkStopDeclared stretch => exact execPclkStopDeclared_runs stretch s
  | pclkStopEnd => exact execPclkStopEnd_runs s
  | pclkStopTimeout => exact execPclkStopTimeout_runs s
  | pclkFreqWindow mhz stretch => exact execPclkFreqWindow_runs mhz stretch s
  | freqChangeRequest => exact execFreqChangeRequest_runs s
  | freqChangeDone => exact execFreqChangeDone_runs s
  | freqChangeTimeout => exact execFreqChangeTimeout_runs s
  | clockGoodLost => exact execClockGoodLost_runs s
  | freqAckReturnTimeout ret => exact execFreqAckReturnTimeout_runs ret s
  | tickBoundary => exact execTickBoundary_runs s
  | tickLate => exact execTickLate_runs s
  | tickBudgetExpiry => exact execTickBudgetExpiry_runs s
  | epochApply m => exact execEpochApply_runs m s
  | tamperPairTrip tamper tamperB => exact execTamperPairTrip_runs tamper tamperB s
  | coolantLoss => exact execCoolantLoss_runs s
  | safeStopDrainDone => exact execSafeStopDrainDone_runs s
  | zeroizeVerifyDone nonzero => exact execZeroizeVerifyDone_runs nonzero s
  | fusePortTimeout => exact execFusePortTimeout_runs s
  | fusePgmDone => exact execFusePgmDone_runs s
  | fusePgmErr => exact execFusePgmErr_runs s
  | railSampleCapture val ch par => exact execRailSampleCapture_runs val ch par s
  | tempSampleCapture val par => exact execTempSampleCapture_runs val par s
  | railChannelGap ch => exact execRailChannelGap_runs ch s
  | crossingSoundingDone crossing fault => exact execCrossingSoundingDone_runs crossing fault s
  | partitionAnnounce unit level phase => exact execPartitionAnnounce_runs unit level phase s
  | partitionDrainDone unit => exact execPartitionDrainDone_runs unit s
  | partitionDrainTimeout unit written => exact execPartitionDrainTimeout_runs unit written s
  | mseReadRequest => exact RunsOn.acceptHost _
  | mseLockRead => exact RunsOn.acceptHost _
  | mseWriteRequest => exact RunsOn.acceptHost _
  | msePartialWrite => exact RunsOn.acceptHost _
  | mseUnlockWrite => exact RunsOn.acceptHost _
  | mseMemRequestSend m lane write sweep => exact execMseMemRequestSend_runs m lane write sweep s
  | mseReadBeat m id data sb err => exact execMseReadBeat_runs m id data sb err s
  | mseLaneTestDone m lane pass => exact execMseLaneTestDone_runs m lane pass s
  | mseWriteAck m id err => exact execMseWriteAck_runs m id err s
  | mseReadTimeout m id => exact execMseReadTimeout_runs m id s
  | mseWriteTimeout m id => exact execMseWriteTimeout_runs m id s
  | mseLockTimeout m sector => exact execMseLockTimeout_runs m sector s
  | tagLineWriteFlush m line => exact execTagLineWriteFlush_runs m line s
  | keyGenFence m => exact execKeyGenFence_runs m s
  | keyGenFenceAck m => exact execKeyGenFenceAck_runs m s
  | mseSquashOrder m => exact execMseSquashOrder_runs m s
  | ledgerInvalidate m => exact execLedgerInvalidate_runs m s
  | refusalMapUpdate tile => exact execRefusalMapUpdate_runs tile s
  | ledgerCacheFill m pool index => exact execLedgerCacheFill_runs m pool index s
  | keyCacheFill tile handle gen bad => exact execKeyCacheFill_runs tile handle gen bad s
  | keyUnwrapDone handle gen blob => exact execKeyUnwrapDone_runs handle gen blob s
  | poolLedgerLineFill line data => exact execPoolLedgerLineFill_runs line data s
  | sweepSlotStart => exact execSweepSlotStart_runs s
  | strideCheckpoint slot => exact execStrideCheckpoint_runs slot s
  | sweepRetire stall => exact execSweepRetire_runs stall s
  | sweepDone stall => exact execSweepDone_runs stall s
  | zeroFillDone slot => exact execZeroFillDone_runs slot s
  | harbourResealDone => exact execHarbourResealDone_runs s
  | sweeperYieldEnd => exact execSweeperYieldEnd_runs s
  | deltaRecordAck => exact execDeltaRecordAck_runs s
  | baseMarkerAck => exact execBaseMarkerAck_runs s
  | ledgerDed pool index => exact execLedgerDed_runs pool index s
  | ledgerRowSoundingDone row pass => exact execLedgerRowSoundingDone_runs row pass s
  | keyslotMaskRefresh bad => exact execKeyslotMaskRefresh_runs bad s
  | keyslotBankSoundingDone bank pass => exact execKeyslotBankSoundingDone_runs bank pass s
  | entropyFail => exact execEntropyFail_runs s
  | entropyRecover => exact execEntropyRecover_runs s
  | entropyWaitTimeout => exact execEntropyWaitTimeout_runs s
  | keyPairGenerated => exact execKeyPairGenerated_runs s
  | keyUseReport tile handle gen blobOk => exact execKeyUseReport_runs tile handle gen blobOk s
  | lseTxRequest l kind stall dst tc addr id nbytes data => exact execLseTxRequest_runs l kind stall dst tc addr id nbytes data s
  | lseHostResponse l kind id st data => exact execLseHostResponse_runs l kind id st data s
  | lseRxUnit l unit err => exact execLseRxUnit_runs l unit err s
  | lseRxRequest l => exact execLseRxRequest_runs l s
  | lseRxResponse l => exact execLseRxResponse_runs l s
  | lseDeadTarget l id => exact execLseDeadTarget_runs l id s
  | linkKeyDerived l tx => exact execLinkKeyDerived_runs l tx s
  | resyncReceive l => exact execResyncReceive_runs l s
  | grantReceive l => exact execGrantReceive_runs l s
  | grantAckReceive l => exact execGrantAckReceive_runs l s
  | revokeReceive l => exact execRevokeReceive_runs l s
  | revokeAckReceive l => exact execRevokeAckReceive_runs l s
  | revokeTimeout l => exact execRevokeTimeout_runs l s
  | joinH1Receive l o => exact execJoinH1Receive_runs l o s
  | joinChainReceive l cert => exact execJoinChainReceive_runs l cert s
  | joinH2Receive l o => exact execJoinH2Receive_runs l o s
  | joinH3Receive l o => exact execJoinH3Receive_runs l o s
  | joinH4Receive l => exact execJoinH4Receive_runs l s
  | hybridExchangeTimeout => exact execHybridExchangeTimeout_runs s
  | timeProbeSend t1 => exact execTimeProbeSend_runs t1 s
  | timeProbeReceive l t2 t3 => exact execTimeProbeReceive_runs l t2 t3 s
  | timeReplyReceive l t4 => exact execTimeReplyReceive_runs l t4 s
  | timeUnlockTimeout => exact execTimeUnlockTimeout_runs s
  | hseTxTlp h kind data secured => exact execHseTxTlp_runs h kind data secured s
  | hseRxTlp h kind inStream macOk err data => exact execHseRxTlp_runs h kind inStream macOk err data s
  | xckUnpairedTimeout binding => exact execXckUnpairedTimeout_runs binding s
  | markSignalReceive l => exact execMarkSignalReceive_runs l s
  | markAckReceive l => exact execMarkAckReceive_runs l s
  | markResendTimeout mark dest => exact execMarkResendTimeout_runs mark dest s
  | markFillDone mark rec_ => exact execMarkFillDone_runs mark rec_ s
  | stallFillStart => exact execStallFillStart_runs s
  | stallFillDone stall rec_ => exact execStallFillDone_runs stall rec_ s
  | removalStepDone stall => exact execRemovalStepDone_runs stall s
  | removalDrainTimeout stall => exact execRemovalDrainTimeout_runs stall s
  | freezeDrainTimeout stall => exact execFreezeDrainTimeout_runs stall s
  | migSessionExpiry => exact execMigSessionExpiry_runs s
  | boothClaim => exact Runs.regWrite _ _ _
  | boothRelease => exact Runs.regWrite _ _ _
  | boothLeaseExpiry => exact execBoothLeaseExpiry_runs s
  | boothOpComplete io => exact execBoothOpComplete_runs io s
  | tollCommit => exact execTollCommit_runs s
  | tollHandoff src stageAt hdrOk stalls => exact execTollHandoff_runs src stageAt hdrOk stalls s
  | tollExportComplete io => exact execTollExportComplete_runs io s
  | hintBoothClassEnd => exact execHintBoothClassEnd_runs s
  | commandPacket fn qid framed bytes => exact execCommandPacket_runs fn qid framed bytes s
  | commandStart => exact execCommandStart_runs s
  | completionWrite => exact execCompletionWrite_runs s
  | cwOverrun => exact execCwOverrun_runs s
  | eventRingWrite => exact execEventRingWrite_runs s
  | alarmLogCopy => exact execAlarmLogCopy_runs s
  | settingsRepairWrite => exact execSettingsRepairWrite_runs s
  | doldrumsDeclare => exact execDoldrumsDeclare_runs s
  | doldrumsEnd => exact execDoldrumsEnd_runs s
  | counterBankSoundingDone counter fault => exact execCounterBankSoundingDone_runs counter fault s
  | beaconFreeze => exact execBeaconFreeze_runs s
  | beaconNow => exact Runs.regWrite _ _ _
  | beaconRelease => exact Runs.regWrite _ _ _
  | counterBankClear => exact Runs.regWrite _ _ _
  | obsTrackWrite => exact Runs.regWrite _ _ _
  | evqCfgWrite => exact Runs.regWrite _ _ _
  | evqTailWrite => exact Runs.regWrite _ _ _
  | settingsDataAccess fn write data => exact execSettingsDataAccess_runs fn write data s
  | capturePairRead fn addr => exact execCapturePairRead_runs fn addr s
  | integrityAlarmClear => exact Runs.regWrite _ _ _
  | registerWrite => exact Runs.regWrite _ _ _
  | dwGo => exact Runs.regWrite _ _ _
  | lcReq target auth coincident => exact execLcReq_runs target auth coincident s
  | tapDebugEnter ir => exact execTapDebugEnter_runs ir s
  | tapFuseRead word => exact execTapFuseRead_runs word s
  | tapRegAccess write addr data => exact execTapRegAccess_runs write addr data s
  | nop c => exact execNop_runs c s
  | hint c durationUs targets => exact execHint_runs c durationUs targets s
  | patchStage c src len buf sigOk => exact execPatchStage_runs c src len buf sigOk s
  | patchCommit c => exact execPatchCommit_runs c s
  | keyGenerate c type flags usage keyLen ownerIdx blobAddr blobOk =>
    exact execKeyGenerate_runs c type flags usage keyLen ownerIdx blobAddr blobOk s
  | keyLoad c handle flags => exact execKeyLoad_runs c handle flags s
  | keyUnpin c handle => exact execKeyUnpin_runs c handle s
  | keyRotate c handle blobAddr blobOk => exact execKeyRotate_runs c handle blobAddr blobOk s
  | keyDestroy c handle => exact execKeyDestroy_runs c handle s
  | keyAttest c handle out_ outMax certs ok => exact execKeyAttest_runs c handle out_ outMax certs ok s
  | drkGenerate c => exact execDrkGenerate_runs c s
  | regionBind c region count mode => exact execRegionBind_runs c region count mode s
  | regionRetire c region count owner => exact execRegionRetire_runs c region count owner s
  | stallAdmit c stall fill integ opts nowner account program tenantKey policy owners ownersBuf =>
    exact execStallAdmit_runs c stall fill integ opts nowner account program tenantKey policy owners ownersBuf s
  | stallRemove c stall => exact execStallRemove_runs c stall s
  | stallFreeze c stall flist ok => exact execStallFreeze_runs c stall flist ok s
  | stallThaw c stall => exact execStallThaw_runs c stall s
  | migrateSave c stall session flist out_ outMax list blobs ok =>
    exact execMigrateSave_runs c stall session flist out_ outMax list blobs ok s
  | migrateRestore c session rec_ blobRegion counter record => exact execMigrateRestore_runs c session rec_ blobRegion counter record s
  | fnMap c fn stall => exact execFnMap_runs c fn stall s
  | fnUnmap c fn => exact execFnUnmap_runs c fn s
  | stallStatus c stall => exact execStallStatus_runs c stall s
  | windowGrant c reqChip reqStall rights base size => exact execWindowGrant_runs c reqChip reqStall rights base size s
  | windowRevoke c reqChip index => exact execWindowRevoke_runs c reqChip index s
  | linkReset c lse => exact execLinkReset_runs c lse s
  | xckBind c winA winB tiles mode k rate action => exact execXckBind_runs c winA winB tiles mode k rate action s
  | xckUnbind c binding => exact execXckUnbind_runs c binding s
  | measureExtend c reg kind owner digest => exact execMeasureExtend_runs c reg kind owner digest s
  | measureLock c => exact execMeasureLock_runs c s
  | x2Enable c => exact execX2Enable_runs c s
  | x2Report c nonce out_ outMax sigs ok => exact execX2Report_runs c nonce out_ outMax sigs ok s
  | stallEvidence c stall out_ outMax certs ok => exact execStallEvidence_runs c stall out_ outMax certs ok s
  | identityCsr c out_ outMax csrs ok => exact execIdentityCsr_runs c out_ outMax csrs ok s
  | identityStore c src len certs => exact execIdentityStore_runs c src len certs s
  | spdmMsg c req reqLen hse rsp rspMax reqBuf resp action ok =>
    exact execSpdmMsg_runs c req reqLen hse rsp rspMax reqBuf resp action ok s
  | hybMsg c inp inLen purpose flags targetStall out_ outMax targetChip inBuf o cert blobs ok =>
    exact execHybMsg_runs c inp inLen purpose flags targetStall out_ outMax targetChip inBuf o cert blobs ok s
  | domainJoin c src len member sigsOk idOk => exact execDomainJoin_runs c src len member sigsOk idOk s
  | domainSubstitute c src len member sigsOk idOk => exact execDomainSubstitute_runs c src len member sigsOk idOk s
  | markCreate c spill mode ndest srcChip srcMark dests => exact execMarkCreate_runs c spill mode ndest srcChip srcMark dests s
  | markDestroy c index => exact execMarkDestroy_runs c index s
  | markSignal c index op value => exact execMarkSignal_runs c index op value s
  | markWait c index timeout value => exact execMarkWait_runs c index timeout value s
  | markWaitTimeout => exact execMarkWaitTimeout_runs s
  | markRoute c chip primary alternate flags => exact execMarkRoute_runs c chip primary alternate flags s
  | boothOp c mode dir flags tail handle src dst len aadLen aadTail aad iv du tag =>
    exact execBoothOp_runs c mode dir flags tail handle src dst len aadLen aadTail aad iv du tag s
  | tollPolicyLoad c addr image => exact execTollPolicyLoad_runs c addr image s
  | tollExport c rule owner outFmt cls handle src len stage dst hdr tag policy srcBuf =>
    exact execTollExport_runs c rule owner outFmt cls handle src len stage dst hdr tag policy srcBuf s
  | tollBudget c owner nonce out_ outMax sigs ok => exact execTollBudget_runs c owner nonce out_ outMax sigs ok s
  | almanacUpdate c phase inline_ offset len src data buf sigs =>
    exact execAlmanacUpdate_runs c phase inline_ offset len src data buf sigs s
  | svnAdvance c => exact execSvnAdvance_runs c s
  | settingsSave c => exact execSettingsSave_runs c s
  | trainingDone c flags rootOk bad => exact execTrainingDone_runs c flags rootOk bad s
  | lcTransition c target auth sig sigOk identityOk => exact execLcTransition_runs c target auth sig sigOk identityOk s
  | hangDump c stall meta_ outp outMax work metaOk stallOk => exact execHangDump_runs c stall meta_ outp outMax work metaOk stallOk s
  | beaconSet c at_ => exact execBeaconSet_runs c at_ s
  | meterRead c stall out_ outMax sig ok => exact execMeterRead_runs c stall out_ outMax sig ok s
  | fuseReadReturn data => exact execFuseReadReturn_runs data s
  | nvmEraseDone => exact execNvmEraseDone_runs s
  | keyInvalidationApply tile handle gen => exact execKeyInvalidationApply_runs tile handle gen s
  | lseUnitSent l => exact execLseUnitSent_runs l s

/-! ### The resets -/

/-- From `s` to `t` the build and the queue are the same, and engines that were there as the build counts them still are (R9, R47). -/
structure KeepsEngines (s t : State) : Prop where
  build : t.build = s.build
  pending : t.pending = s.pending
  engines : s.enginesMatch → t.enginesMatch

theorem Steady.keepsEngines {s t : State} (h : Steady s t) : KeepsEngines s t :=
  ⟨h.build, h.pending, fun ⟨hm, hl, hh⟩ => ⟨by rw [h.mse, h.build, hm], by rw [h.lse, h.build, hl], by rw [h.hse, h.build, hh]⟩⟩

theorem KeepsEngines.trans {s t u : State} (h : KeepsEngines s t) (k : KeepsEngines t u) : KeepsEngines s u :=
  ⟨k.build.trans h.build, k.pending.trans h.pending, fun m => k.engines (h.engines m)⟩

theorem KeepsEngines.ite {s a b : State} {c : Prop} [Decidable c] (ha : KeepsEngines s a) (hb : KeepsEngines s b) :
    KeepsEngines s (if c then a else b) := by
  split <;> assumption

/-- P makes the engines anew, as many as the build counts (R118, R121). -/
theorem State.assertP_keepsEngines (s : State) : KeepsEngines s s.assertP :=
  ⟨rfl, rfl, fun _ => ⟨List.length_replicate, List.length_replicate, List.length_replicate⟩⟩

/-- S makes the engines anew, as many as the build counts (R118, R121). -/
theorem State.assertS_keepsEngines (s : State) : KeepsEngines s s.assertS :=
  ⟨rfl, rfl, fun _ => ⟨List.length_replicate, List.length_replicate, List.length_replicate⟩⟩

theorem State.startUp_steady {s0 s : State} (hst : Steady s0 s) : Steady s0 s.startUp := by
  unfold State.startUp
  split
  · exact hst.update rfl
  · next code _ =>
    have ht : Steady s0 { s with lcu := { s.lcu with state := code } } := hst.update rfl
    exact .ite (State.enterDead_steady ht)
      (State.runFuses_steady (State.loadFuses_steady (.ite (State.eraseUser_steady ht) ht)))

/-- The release leaves P and S for the load; from there on it is as steady as any command (R122). -/
theorem State.release_keepsEngines (coolantOk : Bool) (tamper tamperB : Nat) (fuseFail : Option Nat) (trims : Trims) (s : State) :
    KeepsEngines s (s.release coolantOk tamper tamperB fuseFail trims) := by
  unfold State.release
  extract_lets +onlyGivenNames _ _ _ u t
  have hu : KeepsEngines s u := ⟨rfl, rfl, id⟩
  have ht : Steady u t := State.sampleCoolant_steady _ (State.sampleTamper_steady _ _ (State.newNonce_steady .refl))
  refine hu.trans (Steady.keepsEngines ?_)
  split
  · exact State.alarmTamper_steady _ _ _ (ht.update rfl)
  · exact State.startUp_steady ht

/-- A reset and its release answer a next state too, which keeps the engines. -/
theorem exec_reset {c : Instr} (hr : c.isReset = true) (s : State) : ∃ t, exec c s = .next t ∧ KeepsEngines s t := by
  have hb : KeepsEngines s s.begin := Steady.begin.keepsEngines
  cases c with
  | powerOnReset => exact ⟨_, rfl, hb.trans (State.assertP_keepsEngines _)⟩
  | systemReset => exact ⟨_, rfl, .ite (Steady.begin.with_pins _).keepsEngines (hb.trans (State.assertS_keepsEngines _))⟩
  | resetRelease clkcGood coolantOk tamper tamperB fuseFail trims =>
    exact ⟨_, rfl, .ite hb (.ite (Steady.keepsEngines ((Steady.begin.with_pins _).update rfl))
      ((Steady.begin.with_pins _).keepsEngines.trans (State.release_keepsEngines ..)))⟩
  | _ => exact absurd hr (by simp [Instr.isReset])

/-- No reset names an engine. -/
theorem Instr.engine_of_isReset {c : Instr} (hr : c.isReset = true) : c.engine = none := by
  cases c with
  | powerOnReset | systemReset | resetRelease => rfl
  | _ => exact absurd hr (by simp [Instr.isReset])

/-! ### What exec and step answer -/

theorem State.hasEngine_iff {s : State} {c : Instr} : s.hasEngine c = true ↔ ∀ e, c.engine = some e → e.2 < s.engines e.1 := by
  cases he : c.engine <;> simp [State.hasEngine, State.engines, he]

theorem Answers.runs {s : State} {e : Option (Nat × Nat)} {o : Host.Outcome State Fault Refusal} (h : Answers s e o)
    (he : ∀ x, e = some x → x.2 < s.engines x.1) : Runs s o := by
  cases e with
  | none => exact h
  | some x => exact RunsOn.runs h (he x rfl)

/-- A next state that a command other than a reset or its release answers keeps what every step keeps. -/
theorem exec_steady {c : Instr} {s t : State} (hr : c.isReset = false) (h : exec c s = .next t) : Steady s t := by
  have ha := exec_answers c s hr
  by_cases he : ∀ x, c.engine = some x → x.2 < s.engines x.1
  · obtain ⟨u, hu, hst⟩ := ha.runs he
    cases hu.symm.trans h
    exact hst
  · push Not at he
    obtain ⟨x, hx, hlt⟩ := he
    rw [hx] at ha
    cases (RunsOn.faults ha (not_lt.mpr hlt)).symm.trans h

theorem exec_keepsEngines {c : Instr} {s t : State} (h : exec c s = .next t) : KeepsEngines s t := by
  cases hr : c.isReset with
  | false => exact (exec_steady hr h).keepsEngines
  | true =>
    obtain ⟨u, hu, hk⟩ := exec_reset hr s
    cases hu.symm.trans h
    exact hk

/-- An rclk edge changes clocks and counts only (R98, R571). -/
theorem State.rclkEdge_keepsEngines (s : State) : KeepsEngines s s.rclkEdge :=
  KeepsEngines.trans (t := s.begin.clocksEdge) ⟨rfl, rfl, id⟩
    (Steady.foldl .refl fun _ _ ht => State.meter_steady _ _ _ ht).keepsEngines

/-- Settles O58: the next state keeps the engines whatever ran, and the queue it starts from lacks the command alone. -/
theorem everyStepKeepsTheEngines : Obligations.EveryStepKeepsTheEngines := by
  intro s t hs h
  unfold step at h
  split at h
  · next hp =>
    cases h
    obtain ⟨hb, hq, he⟩ := s.rclkEdge_keepsEngines
    exact ⟨he hs, hb, by rw [hq, hp]; rfl⟩
  · next c rest hp =>
    obtain ⟨hb, hq, he⟩ := exec_keepsEngines h
    exact ⟨he hs, hb, by rw [hq, hp]; rfl⟩

/-- Settles O59: a command runs where its engine exists, and the lookup of an engine that does not is the one way to a fault. -/
theorem everyCommandRuns : Obligations.EveryCommandRuns := by
  refine ⟨fun s c h => ?_, fun s c e h he => ?_⟩
  · cases hr : c.isReset with
    | true =>
      obtain ⟨t, ht, -⟩ := exec_reset hr s
      exact ⟨t, ht⟩
    | false =>
      obtain ⟨t, ht, -⟩ := (exec_answers c s hr).runs (State.hasEngine_iff.mp h)
      exact ⟨t, ht⟩
  · have hr : c.isReset = false := by
      by_contra hr
      simp [Instr.engine_of_isReset (by simpa using hr)] at he
    have ha := exec_answers c s hr
    rw [he] at ha
    refine RunsOn.faults ha fun hlt => ?_
    have : s.hasEngine c = true := State.hasEngine_iff.mpr fun x hx => by cases he.symm.trans hx; exact hlt
    simp [h] at this

end Sys2Proof.Machine

/-!
The state after reset satisfies the invariant (O57).
-/

namespace Sys2Proof.Machine

/-- P makes as many engines as the build counts, whatever the build (R47, R121). -/
theorem State.powerOn_enginesMatch (b : Build) (pins : Pins) (fuses : List (Nat × Nat)) (nvm : Nvm) (fresh : Nat) :
    (State.powerOn b pins fuses nvm fresh).enginesMatch :=
  ⟨List.length_replicate, List.length_replicate, List.length_replicate⟩

/-- Settles O57: the engines are those of any power-on, and every other part is at its value after P. -/
theorem resetSatisfiesInvariant : Obligations.ResetSatisfiesInvariant :=
  ⟨State.powerOn_enginesMatch .., rfl, rfl, rfl, rfl, rfl, rfl, rfl, rfl⟩

end Sys2Proof.Machine

/-!
Tile key caches (O11).

First what each operation on keys does in the one case a clause of the statement is about: uses credited to a resident key, a copy made
with room in the cache, a key put in a free slot. Then one lemma for each way a command of the statement goes, and the clauses.
-/

namespace Sys2Proof.Machine

/-! ### Operations on keys -/

/-- The uses of a resident key are credited to its slot (R196). -/
theorem State.creditUses_resident {h g : Nat} (n : Nat) {s : State}
    (hs : s.sbx.slots.any (fun p => p.2.handle = h ∧ p.2.gen = g) = true) :
    s.creditUses h g n = { s with sbx := { s.sbx with
      slots := s.sbx.slots.map fun p => (p.1, if p.2.handle = h ∧ p.2.gen = g then { p.2 with count := p.2.count + n } else p.2) } } :=
  if_pos hs

/-- A tile that drops its copy of a resident key credits what it had not reported to the slot (R196). -/
theorem State.dropTileKey_resident {k : TileKey} {s : State}
    (hs : s.sbx.slots.any (fun p => p.2.handle = k.handle ∧ p.2.gen = k.gen) = true) :
    s.dropTileKey k = { s with sbx := { s.sbx with
      tiles := s.sbx.tiles.eraseP (· = k)
      slots := s.sbx.slots.map fun p =>
        (p.1, if p.2.handle = k.handle ∧ p.2.gen = k.gen then { p.2 with count := p.2.count + k.unreported } else p.2) } } :=
  State.creditUses_resident k.unreported hs

/-- A tile with room takes the copy without losing another (R41, R191). -/
theorem State.fillTileKey_room {tile : Nat} (h g : Nat) (material : Bytes) {s : State}
    (hroom : (s.sbx.tiles.filter fun x => x.tile = tile).length < s.tileKeyPlaces tile) :
    s.fillTileKey tile h g material = { s with
      sbx := { s.sbx with tiles := s.sbx.tiles ++ [({ tile, handle := h, gen := g, unreported := 0, age := 0, material } : TileKey)] }
      obs := s.obs.bump (ctrSbx 4) 1 } := by
  unfold State.fillTileKey
  simp only [if_pos hroom]
  rfl

/-- A free slot takes the key and becomes the newest (R190). -/
theorem State.placeKey_free {n : Nat} (k : KeySlot) {s : State} (hn : s.sbx.freeSlot = some n) :
    s.placeKey k = some { s with sbx := ({ s.sbx with slots := assocSet n k s.sbx.slots } : Sbx).touch n } := by
  simp [State.placeKey, hn]

/-- Without an entry in the key table there is no wear to check: a key of the block (R196, R197). -/
theorem State.regionWear_noEntry {h g : Nat} (blobOk : Bool) {s : State} (he : s.keyEntry? h g = none) : s.regionWear h g blobOk = s := by
  simp [State.regionWear, he]

/-- With no destruction waiting, none takes a step. -/
theorem State.settleDestroys_none {s : State} (h : s.sbx.destroys = []) : s.settleDestroys = s := by
  have hs : ({ s with sbx := { s.sbx with destroys := [] } } : State) = s := by rw [← h]
  simpa [State.settleDestroys, h] using hs

/-- A completion record raises no event. -/
theorem State.complete_fifo (r : Completion) (s : State) : (s.complete r).hlm.fifo = s.hlm.fifo := by
  unfold State.complete
  dsimp only
  split
  · split <;> rfl
  · split <;> rfl

/-- A Booth that runs an operation starts no other (R441). -/
theorem State.kickBooth_running (n : Nat) {s : State} (h : s.bth.running.isSome = true) : s.kickBooth n = s := by
  cases n <;> simp [State.kickBooth, h]

/-- The end of a command changes nothing in the Strongbox. -/
theorem State.finish_sbx (c : Call) (st : Nat) (s : State) : (s.finish c st).sbx = s.sbx := by
  rw [State.finish_frame]

/-! ### Unwraps -/

/-- Unwraps end outside C and the quiet state, with the zeroize net not asserted (R194, R89). -/
theorem State.unwraps_end {s : State} (hquiet : s.alr.quiet = false) (hcore : s.rst.coreReset = none) (hnet : s.sbx.zeroNet = false) :
    ¬ (s.sbx.zeroNet = true ∨ s.rst.coreReset.isSome = true ∨ s.alr.quiet = true) := by
  simp [hnet, hcore, hquiet]

/-- The oldest unwrap is one of the two that run at once (R194). -/
theorem find?_unwrap_head {l us : List Unwrap} {u : Unwrap} (hu : l = u :: us) :
    ((l.take 2).find? fun v => v.handle = u.handle ∧ v.gen = u.gen) = some u := by
  simp [hu]

/-- The blob of the oldest unwrap does not open: the unwrap is gone and what waited for it fails (R194). -/
theorem execKeyUnwrapDone_refused {s : State} {u : Unwrap} {us : List Unwrap} {blob : BufRead}
    (hrun : ¬ (s.sbx.zeroNet = true ∨ s.rst.coreReset.isSome = true ∨ s.alr.quiet = true)) (hu : s.sbx.unwraps = u :: us)
    (hblob : ∀ b, blob = .ok b → s.openBlob u.handle u.gen b = none) :
    execKeyUnwrapDone u.handle u.gen blob s =
      done ((({ s.begin with sbx := { s.sbx with unwraps := us } } : State).unwrapFailed u).kickBooth 8) := by
  have hfind := find?_unwrap_head hu
  have hrest : s.sbx.unwraps.erase u = us := by simp [hu]
  cases blob with
  | failed => simp only [execKeyUnwrapDone, State.begin_sbx, State.begin_rst, State.begin_alr, hfind, if_neg hrun, hrest]
  | ok b =>
    have hopen : s.begin.openBlob u.handle u.gen b = none := hblob b rfl
    simp only [execKeyUnwrapDone, State.begin_sbx, State.begin_rst, State.begin_alr, hfind, if_neg hrun, hopen, hrest]

/-- The blob of the oldest unwrap opens: its key goes into the free slot with its use counts, and what waited for it goes on
(R194, R195). -/
theorem execKeyUnwrapDone_opened {s : State} {u : Unwrap} {us : List Unwrap} {b key : Bytes} {e : KeyEntry} {n : Nat}
    (hrun : ¬ (s.sbx.zeroNet = true ∨ s.rst.coreReset.isSome = true ∨ s.alr.quiet = true)) (hu : s.sbx.unwraps = u :: us)
    (hkey : s.openBlob u.handle u.gen b = some key) (he : s.keyEntry? u.handle u.gen = some e) (hn : s.sbx.freeSlot = some n) :
    execKeyUnwrapDone u.handle u.gen (.ok b) s =
      done (((({ s.begin with sbx := Sbx.touch n { s.sbx with
        unwraps := us
        slots := assocSet n { KeySlot.fresh u.handle u.gen e.usage key with count := e.use, ops := e.ops } s.sbx.slots } } :
          State).unwrapServed u key).bump (ctrSbx 0) 1).kickBooth 8) := by
  have hfind := find?_unwrap_head hu
  have hrest : s.sbx.unwraps.erase u = us := by simp [hu]
  have hopen : s.begin.openBlob u.handle u.gen b = some key := hkey
  have hentry : s.begin.keyEntry? u.handle u.gen = some e := he
  simp only [execKeyUnwrapDone, State.begin_sbx, State.begin_rst, State.begin_alr, hfind, if_neg hrun, hopen, hentry, hrest]
  split
  · next hnone => cases hnone.symm.trans (State.placeKey_free _ hn)
  · next w hw =>
    cases hw.symm.trans (State.placeKey_free _ hn)
    rfl

/-- A command that waited alone for a key that is refused ends with ST_KEY_STALE (R194). -/
theorem State.unwrapFailed_command (h g : Nat) (started pin : Bool) (c : Call) (s : State) :
    s.unwrapFailed { handle := h, gen := g, started, waiters := [.command c pin] } =
      ((({ s with sbx := { s.sbx with staleCount := satAdd 65535 s.sbx.staleCount 1 } } : State).event evKeyStale unitStrongbox
        (some (handleOwner h)) h 0).bump (ctrSbx 1) 1).finish c stKeyStale := rfl

/-- A command that waited alone for a key, without a pin, ends with ST_OK (R195). -/
theorem State.unwrapServed_command (h g : Nat) (started : Bool) (c : Call) (material : Bytes) (s : State) :
    s.unwrapServed { handle := h, gen := g, started, waiters := [.command c false] } material = s.finish c stOk := rfl

/-! ### Reports, invalidations and fills -/

/-- A tile with fewer than 4,096 unreported uses of the key makes no report (R196). -/
theorem execKeyUseReport_few {s : State} {tile h g : Nat} (ok : Bool)
    (hfew : ∀ k ∈ s.sbx.tiles, k.tile = tile ∧ k.handle = h ∧ k.gen = g → k.unreported < 4096) :
    execKeyUseReport tile h g ok s = done s.begin := by
  unfold execKeyUseReport
  dsimp only
  split
  · rfl
  · next k hk =>
    exact if_pos (hfew k (List.mem_of_find?_eq_some hk) (by simpa using List.find?_some hk))

/-- A tile with 4,096 unreported uses or more reports them, and has none unreported (R196). -/
theorem execKeyUseReport_many {s : State} {tile h g : Nat} (ok : Bool) {k : TileKey}
    (hk : s.sbx.tiles.find? (fun k => k.tile = tile ∧ k.handle = h ∧ k.gen = g) = some k) (hmany : 4096 ≤ k.unreported) {t : State}
    (ht : ({ s.begin with sbx := { s.sbx with tiles := s.sbx.tiles.map fun x => if x = k then { k with unreported := 0 } else x } } :
      State).creditUses h g k.unreported = t) :
    execKeyUseReport tile h g ok s = done (t.regionWear h g ok) := by
  subst ht
  simp only [execKeyUseReport, State.begin_sbx, hk, if_neg (Nat.not_lt.mpr hmany)]

/-- An invalidated copy goes, and the tile acknowledges (R203). -/
theorem execKeyInvalidationApply_copy {s : State} {tile h g : Nat} {k : TileKey}
    (hi : s.sbx.invals.contains { tile, handle := h, gen := g } = true)
    (hk : s.sbx.tiles.find? (fun k => k.tile = tile ∧ k.handle = h ∧ k.gen = g) = some k) {t : State} (ht : s.begin.dropTileKey k = t) :
    execKeyInvalidationApply tile h g s =
      done ({ t with sbx := { t.sbx with invals := t.sbx.invals.erase { tile, handle := h, gen := g } } } : State).settleDestroys := by
  simp only [execKeyInvalidationApply, State.begin_sbx, hi, not_true, if_false, hk, ht]

/-- A link, host or Booth tile with room gets its copy, and the slot becomes the newest (R191). -/
theorem execKeyCacheFill_resident {s : State} {tile h g n : Nat} {k : KeySlot} (htile : 0x40 ≤ tile) (hmiss : s.tileKey? tile h g = none)
    (hnet : s.sbx.zeroNet = false) (hslot : s.sbx.slotOf h g = some (n, k)) (htest : s.sbx.testing.contains (n / 16) = false) :
    execKeyCacheFill tile h g false s =
      done (({ s.begin with sbx := s.sbx.touch n } : State).fillTileKey tile h g k.material) := by
  have hmiss' : s.begin.tileKey? tile h g = none := hmiss
  have htest' : n / 16 ∉ s.sbx.testing := by simpa using htest
  simp [execKeyCacheFill, hmiss', hnet, hslot, htest', Nat.not_lt.mpr htile]

/-! ### The statement -/

/-- Settles O11: each clause is its command's lemma, with the operations on keys in the clause's one case. -/
theorem tileKeyCaches : Obligations.TileKeyCaches := by
  refine ⟨?fill, ?stale, ?served, ?few, ?credit, ?invalidate⟩
  case fill =>
    intro s tile h g n k htile hmiss hnet hslot htest hroom
    exact (execKeyCacheFill_resident htile hmiss hnet hslot htest).trans (congrArg done (State.fillTileKey_room h g k.material hroom))
  case stale =>
    rintro s h g c pin started blob us ⟨-, -, hquiet⟩ hcore hnet hu hblob hbooth
    have hblob' : ∀ b, blob = .ok b → s.openBlob h g b = none := by rintro b rfl; exact hblob
    refine ⟨_, execKeyUnwrapDone_refused (State.unwraps_end hquiet hcore hnet) hu hblob', ?_⟩
    rw [State.unwrapFailed_command, State.kickBooth_running 8 (by rw [State.finish_frame]; exact hbooth)]
    refine ⟨State.finish_sbx .., State.finish_recorded c stKeyStale hquiet, State.complete_fifo _ _, ?_⟩
    rw [State.finish_frame]; rfl
  case served =>
    rintro s h g n c started b key e us ⟨-, -, hquiet⟩ hcore hnet hu hkey he hn hbooth
    refine ⟨_, execKeyUnwrapDone_opened (State.unwraps_end hquiet hcore hnet) hu hkey he hn, ?_⟩
    rw [State.unwrapServed_command, State.kickBooth_running 8 (by rw [State.finish_frame]; exact hbooth)]
    refine ⟨State.finish_sbx .., State.finish_recorded c stOk hquiet, ?_⟩
    rw [State.finish_frame]; rfl
  case few =>
    intro s tile h g ok hall
    exact execKeyUseReport_few ok fun k hk => of_decide_eq_true (List.all_eq_true.mp hall k hk)
  case credit =>
    intro s tile h g ok k hk hmany hslot he
    have hcredit := State.creditUses_resident k.unreported
      (s := { s.begin with sbx := { s.sbx with tiles := s.sbx.tiles.map fun x => if x = k then { k with unreported := 0 } else x } }) hslot
    exact (execKeyUseReport_many ok hk hmany hcredit).trans (congrArg done (State.regionWear_noEntry ok he))
  case invalidate =>
    intro s tile h g k hi hd hk hslot
    have hdrop := State.dropTileKey_resident (s := s.begin) hslot
    exact (execKeyInvalidationApply_copy hi hk hdrop).trans (congrArg done (State.settleDestroys_none hd))

end Sys2Proof.Machine

/-!
What no command undoes (O60).

A command that is no reset is steady, which says it all (`exec_steady`). A reset makes the rest of the state anew and carries the fuse
words over, and the start-up after it is steady from the state that leaves P or S.
-/

namespace Sys2Proof.Machine

/-- From `s` to `t` no fuse bit is lost (R82). -/
def KeepsFuses (s t : State) : Prop := ∀ w b, (s.lcu.fuse w).testBit b = true → (t.lcu.fuse w).testBit b = true

theorem KeepsFuses.trans {s t u : State} (h : KeepsFuses s t) (k : KeepsFuses t u) : KeepsFuses s u := fun w b e => k w b (h w b e)

theorem KeepsFuses.ite {s a b : State} {c : Prop} [Decidable c] (ha : KeepsFuses s a) (hb : KeepsFuses s b) :
    KeepsFuses s (if c then a else b) := by
  split <;> assumption

/-- A state with the same fuse words has lost no bit. -/
theorem KeepsFuses.of_eq {s t : State} (h : t.lcu.fuses = s.lcu.fuses) : KeepsFuses s t := fun w b e => by
  simpa only [Lcu.fuse, h] using e

/-- The fuse words are no part of what P or S clears (R82, R121). -/
theorem State.assertP_fuses (s : State) : s.assertP.lcu.fuses = s.lcu.fuses := rfl

theorem State.assertS_fuses (s : State) : s.assertS.lcu.fuses = s.lcu.fuses := rfl

/-- The load that follows a release programs fuses at most (R122, R125). -/
theorem State.release_keepsFuses (coolantOk : Bool) (tamper tamperB : Nat) (fuseFail : Option Nat) (trims : Trims) (s : State) :
    KeepsFuses s (s.release coolantOk tamper tamperB fuseFail trims) := by
  unfold State.release
  extract_lets +onlyGivenNames _ _ _ u t
  have hu : KeepsFuses s u := .of_eq rfl
  have ht : Steady u t := State.sampleCoolant_steady _ (State.sampleTamper_steady _ _ (State.newNonce_steady .refl))
  refine hu.trans (Steady.fuses ?_)
  split
  · exact State.alarmTamper_steady _ _ _ (ht.update rfl)
  · exact State.startUp_steady ht

theorem exec_reset_keepsFuses {c : Instr} (hr : c.isReset = true) {s t : State} (h : exec c s = .next t) : KeepsFuses s t := by
  have hb : KeepsFuses s s.begin := Steady.begin.fuses
  cases c with
  | powerOnReset => cases h; exact hb.trans (.of_eq (State.assertP_fuses _))
  | systemReset => cases h; exact .ite hb (hb.trans (.of_eq (State.assertS_fuses _)))
  | resetRelease clkcGood coolantOk tamper tamperB fuseFail trims =>
    cases h
    exact .ite hb (.ite hb (.trans (Steady.begin.with_pins _).fuses (State.release_keepsFuses coolantOk tamper tamperB fuseFail trims _)))
  | _ => exact absurd hr (by simp [Instr.isReset])

theorem exec_keepsFuses {c : Instr} {s t : State} (h : exec c s = .next t) : KeepsFuses s t := by
  cases hr : c.isReset with
  | false => exact (exec_steady hr h).fuses
  | true => exact exec_reset_keepsFuses hr h

theorem step_eq_exec {s : State} {c : Instr} {rest : List Instr} (h : s.pending = c :: rest) : step s = exec c { s with pending := rest } := by
  simp [step, h]

/-- Settles O60: the fuse bits by `exec_keepsFuses`, the rest by what steady states keep. -/
theorem whatNoCommandUndoes : Obligations.WhatNoCommandUndoes := by
  refine ⟨?fuses, ?quiet, ?inReset, ?elapsed⟩
  case fuses =>
    intro s t c rest w b hp h
    exact exec_keepsFuses ((step_eq_exec hp).symm.trans h) w b
  case quiet =>
    intro s t c rest hp h hr
    exact (exec_steady hr ((step_eq_exec hp).symm.trans h)).quiet
  case inReset =>
    intro s t c rest hp h hr
    exact (exec_steady hr ((step_eq_exec hp).symm.trans h)).inReset
  case elapsed =>
    intro s t c rest hp h hr
    exact (exec_steady hr ((step_eq_exec hp).symm.trans h)).elapsed

end Sys2Proof.Machine

/-!
Records on the completion port (O8).

First what each operation on the port, the ring and the Journal does in the one case a clause is about, and that what the Journal writes
depends on the Journal and the Stalls alone; then the commands, from these.
-/

namespace Sys2Proof.Machine

/-! ### The port and the ring -/

theorem State.endOverrun_none {s : State} (h : s.hlm.cwEventDue = false) : s.endOverrun = s := by
  simp [State.endOverrun, h]

/-- A record that signals no Mark raises reg_irq[0] where it asks for it (R482). -/
theorem State.afterRecord_noMark {s : State} {c : Call} (h : c.sigMark = 0xFFFF) :
    s.afterRecord c = { s with hlm := { s.hlm with irqComp := c.irq || s.hlm.irqComp } } := by
  cases hi : c.irq <;> simp [State.afterRecord, h, hi]

/-- A ring that takes the record has it at HEAD (R488). -/
theorem State.ringPut_open (b : Bytes) {s : State} (ho : s.hlm.evq.open_ = true) (hl : s.hlm.evq.lostPending = 0) :
    s.ringPut b = s.putRecord b := by
  simp [State.ringPut, ho, hl]

theorem State.putRecord_eq (b : Bytes) (s : State) :
    s.putRecord b = { s with
      out := s.out ++ [.cw (s.hlm.evq.baseLo.toNat * 32 + s.hlm.evq.baseHi.toNat * 2 ^ 32 + 32 * s.hlm.evq.head) 0 b]
      hlm := { s.hlm with evq := { s.hlm.evq with head := (s.hlm.evq.head + 1) % s.hlm.evq.size } }
      obs := (s.obs.bump 8 1).bump 11 1 } := rfl

/-- A ring that is off or full counts the record lost (R488). -/
theorem State.ringPut_closed (b : Bytes) {s : State} (ho : s.hlm.evq.open_ = false) :
    s.ringPut b = { s with
      hlm := { s.hlm with evq := { s.hlm.evq with
        lost := satAdd (2 ^ 32 - 1) s.hlm.evq.lost 1, lostPending := s.hlm.evq.lostPending + 1 } }
      obs := s.obs.bump 9 1 } := by
  simp [State.ringPut, ho, State.bump]

/-! ### The alarm log -/

/-- The entry taken is the first one not yet copied (R525). -/
theorem find?_notCopied {e : AlarmEntry} {l k : List AlarmEntry} (hl : ∀ x ∈ l, x.copied = true) (he : e.copied = false) :
    (l ++ e :: k).find? (fun x => !x.copied) = some e := by
  induction l with
  | nil => simp [he]
  | cons a l ih =>
    simp only [List.forall_mem_cons] at hl
    simp [hl.1, ih hl.2]

theorem markCopied_append {e : AlarmEntry} {l k : List AlarmEntry} (hl : ∀ x ∈ l, x.copied = true) (he : e.copied = false) :
    markCopied (l ++ e :: k) = l ++ { e with copied := true } :: k := by
  induction l with
  | nil => simp [markCopied, he]
  | cons a l ih =>
    simp only [List.forall_mem_cons] at hl
    simp [markCopied, hl.1, ih hl.2]

/-! ### The Journal -/

/-- From `s` to `t` only the NVM, the outputs and the draws taken differ. -/
def OnlyJournal (s t : State) : Prop := t = { s with nvm := t.nvm, out := t.out, fresh := t.fresh }

theorem OnlyJournal.trans {s t u : State} (h : OnlyJournal s t) (k : OnlyJournal t u) : OnlyJournal s u := by
  unfold OnlyJournal at *
  rw [k, h]

theorem State.journalPut_only {b : JournalBody} {s t : State} (h : s.journalPut b = some t) : OnlyJournal s t := by
  unfold State.journalPut at h
  split at h
  · cases h
  · split at h
    · cases h
    · cases h; rfl

/-- A Journal write that finds no room in the open sector leaves the state. -/
theorem State.journalPut_getD_only (b : JournalBody) (s : State) : OnlyJournal s ((s.journalPut b).getD s) := by
  cases h : s.journalPut b with
  | none => rfl
  | some t => exact State.journalPut_only h

theorem State.journalCopies_only (l : List JournalBody) (s : State) : OnlyJournal s (l.foldl (fun t b => (t.journalPut b).getD t) s) := by
  induction l generalizing s with
  | nil => rfl
  | cons b l ih => exact (s.journalPut_getD_only b).trans (ih _)

/-- The next sector with its header written and no record in it. -/
def State.journalHead (s : State) : State :=
  { s.tookDraw.emit (.nvmWrite (journalOffset s.nvm.nextSector.1 0)
      (s.journalBytes 0 s.nvm.nextSeq (padTo 80 (leBytes 8 s.nvm.nextSector.2)) (s.drawn 12))) with
    nvm := { s.nvm with journal := s.nvm.journal ++
      [{ index := s.nvm.nextSector.1, seq := s.nvm.nextSector.2, headSeq := s.nvm.nextSeq, records := [] }] } }

/-- Opening a sector copies the live records of the one it will displace. -/
theorem State.journalOpen_eq (s : State) :
    s.journalOpen = match s.journalHead.nvm.journal.find? fun x => x.index = (s.nvm.nextSector.1 + 1) % 512 with
      | none => s.journalHead
      | some x => (s.journalHead.liveRecords x).foldl (fun t b => (t.journalPut b).getD t) s.journalHead := rfl

/-- A record that waits for a sector. -/
def State.journalWait (b : JournalBody) (s : State) : State := { s with nvm := { s.nvm with journalQueue := s.nvm.journalQueue ++ [b] } }

/-- The next sector is used: its erase is ordered. -/
def State.journalErase (s : State) : State :=
  { s.emit (.nvmErase ((0x00A00000 + s.nvm.nextSector.1 * 4096) / 4096)) with
    nvm := { s.nvm with journalErase := some s.nvm.nextSector.1 } }

/-- A record waits for an erase, goes into the open sector, waits for the erase it orders, or goes into a sector it opens. -/
theorem State.journal_eq (b : JournalBody) (s : State) :
    s.journal b =
      if s.nvm.journalErase.isSome then s.journalWait b
      else match s.journalPut b with
        | some t => t
        | none =>
          if (s.nvm.journal.any fun x => decide (x.index = s.nvm.nextSector.1)) || s.nvm.journalStale.contains s.nvm.nextSector.1 then
            s.journalErase.journalWait b
          else (s.journalOpen.journalPut b).getD (s.journalOpen.journalWait b) := rfl

theorem State.journalOpen_only (s : State) : OnlyJournal s s.journalOpen := by
  have hh : OnlyJournal s s.journalHead := rfl
  rw [State.journalOpen_eq]
  split
  · exact hh
  · exact hh.trans (State.journalCopies_only _ _)

theorem State.journalWait_only (b : JournalBody) (s : State) : OnlyJournal s (s.journalWait b) := rfl

theorem State.journal_only (b : JournalBody) (s : State) : OnlyJournal s (s.journal b) := by
  rw [State.journal_eq]
  split
  · exact s.journalWait_only b
  · split
    · next h => exact State.journalPut_only h
    · split
      · exact OnlyJournal.trans (t := s.journalErase) rfl (State.journalWait_only b _)
      · refine s.journalOpen_only.trans ?_
        cases h : s.journalOpen.journalPut b with
        | none => exact State.journalWait_only b _
        | some u => exact State.journalPut_only h

/-- The same Journal and the same Stalls: what decides what the Journal takes. -/
structure SameJournal (s t : State) : Prop where
  nvm : t.nvm = s.nvm
  stl : t.stl = s.stl

theorem State.journalPut_same (b : JournalBody) {s t : State} (h : SameJournal s t) :
    Option.Rel SameJournal (s.journalPut b) (t.journalPut b) := by
  unfold State.journalPut
  rw [h.nvm]
  split
  · exact .none
  · split
    · exact .none
    · exact .some ⟨rfl, h.stl⟩

theorem State.journalPut_getD_same (b : JournalBody) {s t s' t' : State} (h : SameJournal s t) (h' : SameJournal s' t') :
    SameJournal ((s.journalPut b).getD s') ((t.journalPut b).getD t') := by
  have hr := State.journalPut_same b h
  cases hs : s.journalPut b <;> cases ht : t.journalPut b <;> rw [hs, ht] at hr <;> cases hr <;> assumption

theorem State.journalCopies_same (l : List JournalBody) {s t : State} (h : SameJournal s t) :
    SameJournal (l.foldl (fun t b => (t.journalPut b).getD t) s) (l.foldl (fun t b => (t.journalPut b).getD t) t) := by
  induction l generalizing s t with
  | nil => exact h
  | cons b l ih => exact ih (State.journalPut_getD_same b h h)

theorem State.journalHead_same {s t : State} (h : SameJournal s t) : SameJournal s.journalHead t.journalHead :=
  ⟨by simp only [State.journalHead, h.nvm], h.stl⟩

theorem State.journalWait_same (b : JournalBody) {s t : State} (h : SameJournal s t) : SameJournal (s.journalWait b) (t.journalWait b) :=
  ⟨by simp only [State.journalWait, h.nvm], h.stl⟩

theorem State.journalErase_same {s t : State} (h : SameJournal s t) : SameJournal s.journalErase t.journalErase :=
  ⟨by simp only [State.journalErase, h.nvm], h.stl⟩

theorem State.liveRecords_same {s t : State} (h : SameJournal s t) : t.liveRecords = s.liveRecords := by
  funext x
  simp only [State.liveRecords, h.nvm, h.stl]

theorem State.journalOpen_same {s t : State} (h : SameJournal s t) : SameJournal s.journalOpen t.journalOpen := by
  have hh := State.journalHead_same h
  rw [State.journalOpen_eq, State.journalOpen_eq, hh.nvm, h.nvm, State.liveRecords_same hh]
  split
  · exact hh
  · exact State.journalCopies_same _ hh

/-- What becomes of the Journal depends on the Journal and the Stalls alone. -/
theorem State.journal_same (b : JournalBody) {s t : State} (h : SameJournal s t) : SameJournal (s.journal b) (t.journal b) := by
  have hr := State.journalPut_same b h
  rw [State.journal_eq, State.journal_eq, h.nvm]
  split
  · exact State.journalWait_same b h
  · cases hs : s.journalPut b <;> cases ht : t.journalPut b <;> rw [hs, ht] at hr <;> cases hr
    · dsimp only
      split
      · exact State.journalWait_same b (State.journalErase_same h)
      · exact State.journalPut_getD_same b (State.journalOpen_same h) (State.journalWait_same b (State.journalOpen_same h))
    · assumption

/-! ### The commands -/

/-- Outside an overrun the oldest record leaves, and is written where it names an address (R482). -/
theorem execCompletionWrite_oldest {s : State} {r : Completion} {rest : List Completion} (hq : s.hlm.cwq = r :: rest)
    (ho : s.cwOpen = true) (hd : s.hlm.cwEventDue = false) (hm : r.call.sigMark = 0xFFFF) :
    execCompletionWrite s = done
      { s with
        out := if r.call.comp = 0 then [] else [.cw r.call.comp r.call.stall r.bytes]
        hlm := { s.hlm with cwq := rest, irqComp := r.call.irq || s.hlm.irqComp }
        obs := if r.call.comp = 0 then s.obs else s.obs.bump 11 1 } := by
  have ho' : s.begin.cwOpen = true := ho
  simp only [execCompletionWrite, State.begin_hlm, hq, ho', not_true, if_false, State.endOverrun_none (s := s.begin) hd,
    State.afterRecord_noMark hm]
  split <;> rfl

/-- An overrun declared while a record waits (R76). -/
theorem execCwOverrun_waiting {s : State} {r : Completion} {rest : List Completion} (hq : s.hlm.cwq = r :: rest)
    (ho : s.cwOpen = true) (hd : s.hlm.cwEventDue = false) :
    execCwOverrun s = done (({ s.begin with
      hlm := { s.hlm with cwOverrun := true, cwEventDue := true, irqUrgent := true } } : State).waitBegin 79 16 none s.hlm.cwq.length) := by
  have ho' : s.begin.cwOpen = true := ho
  simp [execCwOverrun, hq, ho', hd]

/-- Outside an overrun the oldest event goes to the ring (R488). -/
theorem execEventRingWrite_oldest {s : State} {e : Event} {rest : List Event} (hf : s.hlm.fifo = e :: rest)
    (ho : s.cwOpen = true) (hd : s.hlm.cwEventDue = false) :
    execEventRingWrite s = done (({ s.begin with hlm := { s.hlm with fifo := rest } } : State).ringPut e.bytes) := by
  have ho' : s.begin.cwOpen = true := ho
  simp [execEventRingWrite, hf, ho', hd]

/-- A ring that takes the event has it at HEAD; the event leaves the FIFO (R488). -/
theorem execEventRingWrite_written {s : State} {e : Event} {rest : List Event} (hf : s.hlm.fifo = e :: rest)
    (ho : s.cwOpen = true) (hd : s.hlm.cwEventDue = false) (hopen : s.hlm.evq.open_ = true) (hl : s.hlm.evq.lostPending = 0) :
    execEventRingWrite s = done { s with
      out := [.cw (s.hlm.evq.baseLo.toNat * 32 + s.hlm.evq.baseHi.toNat * 2 ^ 32 + 32 * s.hlm.evq.head) 0 e.bytes]
      hlm := { s.hlm with fifo := rest, evq := { s.hlm.evq with head := (s.hlm.evq.head + 1) % s.hlm.evq.size } }
      obs := (s.obs.bump 8 1).bump 11 1 } := by
  have hput := State.ringPut_open e.bytes (s := { s.begin with hlm := { s.hlm with fifo := rest } }) hopen hl
  rw [execEventRingWrite_oldest hf ho hd, hput, State.putRecord_eq]
  rfl

/-- A ring that is off or full loses the event (R488). -/
theorem execEventRingWrite_lost {s : State} {e : Event} {rest : List Event} (hf : s.hlm.fifo = e :: rest)
    (ho : s.cwOpen = true) (hd : s.hlm.cwEventDue = false) (hclosed : s.hlm.evq.open_ = false) :
    execEventRingWrite s = done { s with
      out := []
      hlm := { s.hlm with fifo := rest, evq := { s.hlm.evq with
        lost := satAdd (2 ^ 32 - 1) s.hlm.evq.lost 1, lostPending := s.hlm.evq.lostPending + 1 } }
      obs := s.obs.bump 9 1 } := by
  have hput := State.ringPut_closed e.bytes (s := { s.begin with hlm := { s.hlm with fifo := rest } }) hclosed
  rw [execEventRingWrite_oldest hf ho hd, hput]
  rfl

/-- With room in the Journal the first entry not yet copied goes to the ring and to the Journal (R525). -/
theorem execAlarmLogCopy_first {s : State} {e : AlarmEntry} (hf : s.alr.log.find? (fun x => !x.copied) = some e)
    (ho : s.cwOpen = true) (hd : s.hlm.cwEventDue = false) (ha : s.ald.noAlmanac = false) (hr : s.journalRoom = true)
    {u : State} (hu : (s.begin.ringPut e.bytes).journal (.alarm e.bytes) = u) :
    execAlarmLogCopy s = done { u with alr := { u.alr with log := markCopied u.alr.log }, hlm := { u.hlm with irqAlarm := true } } := by
  have ho' : s.begin.cwOpen = true := ho
  have hr' : s.begin.journalRoom = true := hr
  simp [execAlarmLogCopy, hf, ho', hd, ha, hr', hu]

/-- With room in the ring too, the entry is written at HEAD, and what the Journal takes is the same as if nothing had been written. -/
theorem execAlarmLogCopy_written {s : State} {e : AlarmEntry} (hf : s.alr.log.find? (fun x => !x.copied) = some e)
    (ho : s.cwOpen = true) (hd : s.hlm.cwEventDue = false) (ha : s.ald.noAlmanac = false) (hr : s.journalRoom = true)
    (hopen : s.hlm.evq.open_ = true) (hl : s.hlm.evq.lostPending = 0) :
    ∃ u, SameJournal (s.journal (.alarm e.bytes)) u ∧ OnlyJournal (s.begin.putRecord e.bytes) u ∧
      execAlarmLogCopy s = done { u with alr := { u.alr with log := markCopied u.alr.log }, hlm := { u.hlm with irqAlarm := true } } := by
  have hput : s.begin.ringPut e.bytes = s.begin.putRecord e.bytes := State.ringPut_open e.bytes (s := s.begin) hopen hl
  have hsame : SameJournal s (s.begin.putRecord e.bytes) := by rw [State.putRecord_eq]; exact ⟨rfl, rfl⟩
  have hu := congrArg (State.journal (.alarm e.bytes)) hput
  have hexec := execAlarmLogCopy_first hf ho hd ha hr hu
  have hj := State.journal_same (.alarm e.bytes) hsame
  have ho := State.journal_only (.alarm e.bytes) (s.begin.putRecord e.bytes)
  exact ⟨_, hj, ho, hexec⟩

/-! ### Records -/

theorem State.complete_stream {r : Completion} {s : State} (h : s.alr.quiet = false) (hw : r.call.window = false) :
    s.complete r =
      (({ s with hlm := { s.hlm.drop r.call with cwq := s.hlm.cwq ++ [r] } }.progress).bump 5 1).bumpStall r.call.stall 15 1 := by
  simp [State.complete, h, hw, Hlm.drop]

theorem State.complete_window {r : Completion} {s : State} (h : s.alr.quiet = false) (hw : r.call.window = true) :
    s.complete r = (({ s with hlm := { s.hlm.drop r.call with
      dwBusy := false, dwDone := true, dwStatus := r.status, dwBuf := r.words ++ s.hlm.dwBuf.drop 8 } } : State).progress).bump 5 1 := by
  simp [State.complete, h, hw, Hlm.drop]

/-- In the quiet state the direct window shows no end of a command (R89). -/
theorem State.complete_quiet_dwDone {r : Completion} {s : State} (h : s.alr.quiet = true) :
    (s.complete r).hlm.dwDone = s.hlm.dwDone := by
  cases hw : r.call.window <;> simp [State.complete, h, hw, Hlm.drop]

/-! ### The statement -/

/-- Settles O8: each clause is its command's lemma with the operation on the port, the ring or the Journal in the clause's one case. -/
theorem recordsOnTheCompletionPort : Obligations.RecordsOnTheCompletionPort := by
  refine ⟨?written, ?unwritten, ?overrun, ?ring, ?lost, ?copy, ?stream, ?window, ?quiet, fun _ _ => rfl⟩
  case written =>
    intro s r rest hq ho hd hm hc
    exact (execCompletionWrite_oldest hq ho hd hm).trans (by simp only [if_neg hc]; rfl)
  case unwritten =>
    intro s r rest hq ho hd hm hc
    exact (execCompletionWrite_oldest hq ho hd hm).trans (by simp only [if_pos hc]; rfl)
  case overrun =>
    intro s r rest hq ho hd
    exact execCwOverrun_waiting hq ho hd
  case ring =>
    intro s e rest hf ho hd hopen hl
    exact execEventRingWrite_written hf ho hd hopen hl
  case lost =>
    intro s e rest hf ho hd hclosed
    exact execEventRingWrite_lost hf ho hd hclosed
  case copy =>
    intro s e l k hlog hl he ho hd ha hr hopen hlost
    have hfind : s.alr.log.find? (fun x => !x.copied) = some e := by rw [hlog, find?_notCopied hl he]
    obtain ⟨u, hj, hu, hexec⟩ := execAlarmLogCopy_written hfind ho hd ha hr hopen hlost
    rw [State.putRecord_eq] at hu
    have halr : u.alr = s.alr := (congrArg State.alr hu :)
    refine ⟨_, hexec, ?_, ?_, hj.nvm, (congrArg State.stl hu :), (congrArg State.sbx hu :), (congrArg State.ldg hu :),
      (congrArg State.rst hu :)⟩
    · simp only [halr, hlog, markCopied_append hl he]
    · rw [hu]; rfl
  case stream =>
    intro s r h hw
    exact State.complete_stream h hw
  case window =>
    intro s r h hw
    exact State.complete_window h hw
  case quiet =>
    intro s r h
    exact ⟨State.complete_quiet r h, State.complete_quiet_dwDone h⟩

end Sys2Proof.Machine

/-!
The fuse port (O22), refuted.

The fourth clause says that a second error ends with rst_req set. Under a lifecycle transition that a start resumes it does not: the
attempt ends, and with it the start-up, which lowers rst_req again (R510, State.enterDead).
-/

namespace Sys2Proof.Machine

/-- A start that resumes a transition of PROVISION, its JOURNAL bit failed once and being programmed again. -/
def failingResume : State :=
  let j : FuseJob := { goal := .lifecycle, bits := [(1, 1)], stage := 1, retried := true, since := 0 }
  let x : Transition :=
    { target := lcProvision, source := lcTestLocked, phase := 1, viaTap := false, call := none, resumed := true, since := 0, sectors := 0
      erases := [], auth := [] }
  { State.reset with
    rst := { State.reset.rst with phase := .loading }
    lcu := { State.reset.lcu with job := some j, transition := some x } }

/-- FUSE_PGM_ERR raises the tamper-class alarm there and leaves rst_req low. -/
theorem execFusePgmErr_failingResume :
    ∃ t, exec .fusePgmErr failingResume = .next t ∧ t.alr.tamper = true ∧ t.lcu.xfail = true ∧ t.rst.rstReq = false :=
  ⟨_, rfl, rfl, rfl, rfl⟩

/-- Refutes O22: after a second FUSE_PGM_ERR under a resumed lifecycle transition rst_req is 0. -/
theorem not_fusePortAnswers : ¬ Obligations.FusePortAnswers := by
  rintro ⟨-, -, -, hfail, -⟩
  obtain ⟨u, hu, -, -, hlow⟩ := execFusePgmErr_failingResume
  obtain ⟨t, ht, -, -, hreq, -⟩ := hfail failingResume .fusePgmErr _ 1 1 [] rfl rfl (.inl ⟨rfl, rfl, .inl rfl⟩)
  cases ht.symm.trans hu
  simp [hlow] at hreq

end Sys2Proof.Machine

/-!
Coolant and tamper (O30).

What Safe Stop keeps and what the tamper-class alarm clears and keeps is said once. A trip of several pairs raises one alarm for each, so
its clause is an induction over them.
-/

namespace Sys2Proof.Machine

/-! ### The alarm log -/

/-- An alarm that is no integrity alarm joins a log with room (R524). -/
theorem Alr.logEntry_room {a : Alr} {n : AlarmEntry} (now : Nat) (hn : n.code ≠ alIntegrity) (hroom : a.log.length < 64) :
    a.logEntry n now = { a with log := a.log ++ [n] } := by
  unfold Alr.logEntry
  split
  · next e _ =>
    have hr : e.repeats n now = false := by simp [AlarmEntry.repeats, hn]
    simp [hr, hroom]
  · next h => rw [List.getLast?_eq_none_iff.mp h]; rfl

theorem State.logAlarm_room {code : Nat} (unit : Nat) (stall : Option Nat) (cause word : Nat) {s : State} (hc : code ≠ alIntegrity)
    (hroom : s.alr.log.length < 64) :
    (s.logAlarm code unit stall cause word).alr = { s.alr with log := s.alr.log ++
      [{ code, unit, stall, time := s.clk.domain, unanchored := s.unanchored, cause, word, count := 1, firstAt := s.clk.elapsed
         copied := false }] } :=
  Alr.logEntry_room _ hc hroom

/-- The log is all that an entry changes. -/
theorem Alr.logEntry_frame (a : Alr) (n : AlarmEntry) (now : Nat) :
    a.logEntry n now = { a with log := (a.logEntry n now).log, logOverflow := (a.logEntry n now).logOverflow } := by
  unfold Alr.logEntry
  repeat' split
  all_goals rfl

/-! ### Safe Stop -/

/-- What Safe Stop keeps: the configuration, time, the non-volatile memory, the Strongbox, the epoch, the Ledger, the Stalls, the keys of
links and host streams, and what the alarm unit knows (R520, R529, R530). -/
structure KeepsKeys (s t : State) : Prop where
  cfg : t.cfg = s.cfg
  pins : t.pins = s.pins
  clk : t.clk = s.clk
  nvm : t.nvm = s.nvm
  sbx : t.sbx = s.sbx
  epo : t.epo = s.epo
  ldg : t.ldg = s.ldg
  table : t.stl.table = s.stl.table
  seed : t.sty.seed = s.sty.seed
  hse : t.hse = s.hse
  links : t.lse.map (fun l => (l.tx, l.rx, l.secret)) = s.lse.map fun l => (l.tx, l.rx, l.secret)
  tamper : t.alr.tamper = s.alr.tamper
  seen : t.alr.seen = s.alr.seen
  log : t.alr.log = s.alr.log
  irqAlarm : t.hlm.irqAlarm = s.hlm.irqAlarm
  rstBusy : t.rst.rstBusy = s.rst.rstBusy

theorem State.enterQuiet_keepsKeys (s : State) : KeepsKeys s s.enterQuiet := by
  unfold State.enterQuiet
  split
  · constructor <;> rfl
  · constructor
    case links => exact List.map_map
    all_goals rfl

theorem State.enterQuiet_quiet (s : State) : s.enterQuiet.alr.quiet = true := by
  unfold State.enterQuiet
  split
  · assumption
  · rfl

theorem State.enterSafeStop_keepsKeys (s : State) : KeepsKeys s s.enterSafeStop := by
  unfold State.enterSafeStop
  cases s.rst.rstBusy
  · exact { s.enterQuiet_keepsKeys with }
  · constructor <;> rfl

theorem State.enterSafeStop_safeStop (s : State) : s.enterSafeStop.alr.safeStop = true := rfl

theorem State.enterSafeStop_rstReq (s : State) : s.enterSafeStop.rst.rstReq = true := rfl

/-- Out of the load, Safe Stop is the quiet state (R531). -/
theorem State.enterSafeStop_quiet {s : State} (h : s.rst.rstBusy = false) : s.enterSafeStop.alr.quiet = true := by
  unfold State.enterSafeStop
  rw [h]
  exact s.enterQuiet_quiet

/-! ### The tamper-class alarm (R203, R521) -/

/-- Every key is gone and the anchor with it, in Safe Stop. -/
structure Tampered (s : State) : Prop where
  tamper : s.alr.tamper = true
  safeStop : s.alr.safeStop = true
  rstReq : s.rst.rstReq = true
  slots : s.sbx.slots = []
  tiles : s.sbx.tiles = []
  root : s.sbx.root = []
  zeroNet : s.sbx.zeroNet = true
  verifying : s.sbx.verifying = true
  links : s.lse.all (fun l => l.tx.key.isEmpty && l.rx.key.isEmpty && l.secret.isEmpty) = true
  hse : s.hse.all (fun h => h.keys.isEmpty) = true
  seed : s.sty.seed = []
  anchor : s.ldg.anchor.valid = false
  cleared : s.ldg.anchor.clearedByTamper = true
  quiet : s.rst.rstBusy = false → s.alr.quiet = true

/-- What the alarm keeps. -/
structure KeepsPins (s t : State) : Prop where
  pins : t.pins = s.pins
  epo : t.epo = s.epo
  clk : t.clk = s.clk
  nvm : t.nvm = s.nvm
  cfg : t.cfg = s.cfg
  rstBusy : t.rst.rstBusy = s.rst.rstBusy

theorem KeepsPins.trans {s t u : State} (h : KeepsPins s t) (k : KeepsPins t u) : KeepsPins s u :=
  ⟨k.pins.trans h.pins, k.epo.trans h.epo, k.clk.trans h.clk, k.nvm.trans h.nvm, k.cfg.trans h.cfg, k.rstBusy.trans h.rstBusy⟩

/-- The state in which the alarm enters Safe Stop: the entry logged, the keys and the anchor cleared. -/
def State.zeroized (unit cause word : Nat) (s : State) : State :=
  let t := ((s.logAlarm alTamper unit none cause word).zeroize).clearAnchorTamper
  { t with alr := { t.alr with tamper := true } }.bump (ctrRcu 4) 1

theorem State.alarmTamper_eq (unit cause word : Nat) (s : State) : s.alarmTamper unit cause word = (s.zeroized unit cause word).enterSafeStop := rfl

theorem State.zeroized_seen (unit cause word : Nat) (s : State) : (s.zeroized unit cause word).alr.seen = s.alr.seen := by
  show (s.alr.logEntry _ _).seen = _
  rw [Alr.logEntry_frame]

/-- A link has no key and no secret after the zeroize net (R203). -/
theorem State.zeroized_links (unit cause word : Nat) (s : State) :
    ∀ l ∈ (s.zeroized unit cause word).lse.map (fun l => (l.tx, l.rx, l.secret)), l.1.key = [] ∧ l.2.1.key = [] ∧ l.2.2 = [] := by
  intro x hx
  obtain ⟨l, hl, rfl⟩ := List.mem_map.mp hx
  obtain ⟨k, -, rfl⟩ := List.mem_map.mp (hl : l ∈ s.lse.map _)
  exact ⟨rfl, rfl, rfl⟩

theorem State.zeroized_hse (unit cause word : Nat) (s : State) : ∀ h ∈ (s.zeroized unit cause word).hse, h.keys = [] := by
  intro x hx
  obtain ⟨k, -, rfl⟩ := List.mem_map.mp (hx : x ∈ s.hse.map _)
  rfl

theorem State.alarmTamper_tampered (unit cause word : Nat) (s : State) : Tampered (s.alarmTamper unit cause word) := by
  have hk := (s.zeroized unit cause word).enterSafeStop_keepsKeys
  have hlinks := s.zeroized_links unit cause word
  rw [← hk.links] at hlinks
  rw [State.alarmTamper_eq]
  exact
    { tamper := hk.tamper
      safeStop := State.enterSafeStop_safeStop _
      rstReq := State.enterSafeStop_rstReq _
      slots := congrArg Sbx.slots hk.sbx
      tiles := congrArg Sbx.tiles hk.sbx
      root := congrArg Sbx.root hk.sbx
      zeroNet := congrArg Sbx.zeroNet hk.sbx
      verifying := congrArg Sbx.verifying hk.sbx
      links := by
        refine List.all_eq_true.mpr fun l hl => ?_
        obtain ⟨htx, hrx, hsecret⟩ : l.tx.key = [] ∧ l.rx.key = [] ∧ l.secret = [] := hlinks _ (List.mem_map_of_mem hl)
        simp [htx, hrx, hsecret]
      hse := by
        rw [hk.hse]
        exact List.all_eq_true.mpr fun h hh => by simp [s.zeroized_hse unit cause word h hh]
      seed := hk.seed
      anchor := congrArg (·.anchor.valid) hk.ldg
      cleared := congrArg (·.anchor.clearedByTamper) hk.ldg
      quiet := fun h => State.enterSafeStop_quiet (hk.rstBusy ▸ h) }

theorem State.alarmTamper_keepsPins (unit cause word : Nat) (s : State) : KeepsPins s (s.alarmTamper unit cause word) := by
  have hk := (s.zeroized unit cause word).enterSafeStop_keepsKeys
  rw [State.alarmTamper_eq]
  exact ⟨hk.pins, hk.epo, hk.clk, hk.nvm, hk.cfg, hk.rstBusy⟩

theorem State.alarmTamper_seen (unit cause word : Nat) (s : State) : (s.alarmTamper unit cause word).alr.seen = s.alr.seen :=
  (State.enterSafeStop_keepsKeys _).seen.trans (s.zeroized_seen unit cause word)

/-! ### The tamper pairs (R85) -/

/-- The alarm of pair `i`. -/
def State.pairAlarm (p : Pins) (t : State) (i : Nat) : State :=
  ({ t with alr := { t.alr with seen := setBit t.alr.seen i } }).alarmTamper unitAlarm 1 (p.pairWord i)

theorem State.pairAlarm_tampered (p : Pins) (s : State) (i : Nat) : Tampered (s.pairAlarm p i) := State.alarmTamper_tampered ..

theorem State.pairAlarm_keepsPins (p : Pins) (s : State) (i : Nat) : KeepsPins s (s.pairAlarm p i) :=
  KeepsPins.trans (t := { s with alr := { s.alr with seen := setBit s.alr.seen i } }) ⟨rfl, rfl, rfl, rfl, rfl, rfl⟩
    (State.alarmTamper_keepsPins ..)

theorem State.pairAlarm_seen (p : Pins) (s : State) (i : Nat) : (s.pairAlarm p i).alr.seen = setBit s.alr.seen i := State.alarmTamper_seen ..

/-- After the alarms of one pair or more the block is as after one. -/
theorem State.pairAlarms_tampered (p : Pins) (s : State) {l : List Nat} (hl : l ≠ []) : Tampered (l.foldl (State.pairAlarm p) s) := by
  rw [← List.dropLast_concat_getLast hl, List.foldl_concat]
  exact State.pairAlarm_tampered ..

theorem State.pairAlarms_keepsPins (p : Pins) (s : State) (l : List Nat) : KeepsPins s (l.foldl (State.pairAlarm p) s) := by
  induction l generalizing s with
  | nil => exact ⟨rfl, rfl, rfl, rfl, rfl, rfl⟩
  | cons i l ih => exact (s.pairAlarm_keepsPins p i).trans (ih _)

theorem State.pairAlarms_seen (p : Pins) (s : State) (l : List Nat) : (l.foldl (State.pairAlarm p) s).alr.seen = l.foldl setBit s.alr.seen := by
  induction l generalizing s with
  | nil => rfl
  | cons i l ih => rw [List.foldl_cons, ih, State.pairAlarm_seen, List.foldl_cons]

theorem getLsbD_setBit {w : Nat} (v : BitVec w) (i j : Nat) : (setBit v i).getLsbD j = (v.getLsbD j || decide (j < w ∧ i = j)) := by
  rw [setBit, BitVec.getLsbD_or, BitVec.getLsbD_ofNat, Nat.testBit_two_pow, Bool.decide_and]

/-- SEEN has every bit that was set on the way. -/
theorem getLsbD_setBits {w : Nat} (v : BitVec w) (l : List Nat) {j : Nat} (hj : j < w) (h : v.getLsbD j = true ∨ j ∈ l) :
    (l.foldl setBit v).getLsbD j = true := by
  induction l generalizing v with
  | nil => simpa using h
  | cons i l ih =>
    refine ih _ ?_
    rw [getLsbD_setBit, Bool.or_eq_true, decide_eq_true_eq]
    rcases h with h | h
    · exact .inl (.inl h)
    · rcases List.mem_cons.mp h with rfl | h
      · exact .inl (.inr ⟨hj, rfl⟩)
      · exact .inr h

/-- The enabled pairs that come newly into the alarm condition are alarmed one after the other. -/
theorem State.sampleTamper_eq (tp tpB : Nat) (s : State) {p : Pins}
    (hp : p = { s.pins with tamper := BitVec.ofNat 8 tp, tamperB := BitVec.ofNat 8 tpB }) :
    s.sampleTamper tp tpB =
      ((List.range 8).filter fun i => s.cfg.tamperEnable.getLsbD i && p.pairBad i && !s.pins.pairBad i).foldl
        (State.pairAlarm p) { s with pins := p } := by
  subst hp; rfl

/-! ### Coolant (R86) -/

/-- The state in which a loss of coolant enters Safe Stop. -/
def State.coolantLost (s : State) : State :=
  ({ s.begin with pins := { s.pins with coolantOk := false } } : State).logAlarm alSafestop unitAlarm none 1 0

theorem execCoolantLoss_first {s : State} (hc : s.pins.coolantOk = true) : execCoolantLoss s = done s.coolantLost.enterSafeStop := by
  simp [execCoolantLoss, State.sampleCoolant, hc, State.alarmSafestop, State.coolantLost]

theorem execCoolantLoss_again {s : State} (hc : s.pins.coolantOk = false) : execCoolantLoss s = done s.begin := by
  have hp : ({ s.pins with coolantOk := false } : Pins) = s.pins := by rw [← hc]
  simp only [execCoolantLoss, State.sampleCoolant, State.begin_pins, hc, hp]
  rfl

/-! ### The statement -/

/-- Settles O30: the alarms by what they clear and keep, and where no pair trips nothing but the levels changes. -/
theorem coolantAndTamper : Obligations.CoolantAndTamper := by
  refine ⟨?lost, fun s hc => execCoolantLoss_again hc, ?trip, ?calm⟩
  case lost =>
    intro s hc hb hroom
    have hk := s.coolantLost.enterSafeStop_keepsKeys
    have hlog := State.logAlarm_room unitAlarm none 1 0 (s := { s.begin with pins := { s.pins with coolantOk := false } })
      (code := alSafestop) (by decide) hroom
    refine ⟨_, execCoolantLoss_first hc, (congrArg Pins.coolantOk hk.pins :), State.enterSafeStop_safeStop _, State.enterSafeStop_quiet hb,
      State.enterSafeStop_rstReq _, ?_, hk.irqAlarm, ?_, hk.sbx, hk.ldg, hk.epo, hk.table, hk.nvm, hk.cfg⟩
    · rw [hk.log, State.coolantLost, hlog, List.getLast?_concat]; rfl
    · rw [hk.tamper, State.coolantLost, hlog]; rfl
  case trip =>
    intro s tp tpB p bad hp hbad hne
    have hexec : exec (.tamperPairTrip tp tpB) s = .next (bad.foldl (State.pairAlarm p) { s.begin with pins := p }) := by
      rw [hbad]; exact congrArg done (s.begin.sampleTamper_eq tp tpB hp)
    have ht := State.pairAlarms_tampered p { s.begin with pins := p } hne
    have hk := State.pairAlarms_keepsPins p { s.begin with pins := p } bad
    refine ⟨_, hexec, hk.pins, ht.tamper, ht.safeStop, ht.rstReq, ?_, ht.slots, ht.tiles, ht.root, ht.zeroNet, ht.verifying, ht.links,
      ht.hse, ht.seed, ht.anchor, ht.cleared, hk.epo, hk.clk, hk.nvm, hk.cfg, fun hb => ht.quiet (hk.rstBusy.trans hb)⟩
    refine List.all_eq_true.mpr fun i hi => ?_
    have hlt : i < 8 := by rw [hbad] at hi; exact List.mem_range.mp (List.mem_of_mem_filter hi)
    rw [State.pairAlarms_seen]
    exact getLsbD_setBits _ _ hlt (.inr hi)
  case calm =>
    intro s tp tpB p hp hbad
    have hs := s.begin.sampleTamper_eq tp tpB hp
    rw [State.begin_cfg, State.begin_pins, hbad] at hs
    exact congrArg done hs

end Sys2Proof.Machine

/-!
Partition resets (O32).

What closing and opening the data ports does is said once: every port is gone over in turn, which for the list of them is a map, and
nothing else of the block but its counters and outputs is touched.
-/

namespace Sys2Proof.Machine

/-! ### Going over every engine -/

/-- An update of every index in turn is an update of every element. -/
theorem foldl_range_listSet {α : Type} (f : α → α) (l : List α) : (List.range l.length).foldl (fun l i => listSet l i f) l = l.map f := by
  induction l with
  | nil => rfl
  | cons x xs ih =>
    rw [List.length_cons, List.range_succ_eq_map, List.foldl_cons, List.foldl_map, List.map_cons]
    have hcons : ∀ ys i, listSet (f x :: ys) (i + 1) f = f x :: listSet ys i f := fun _ _ => rfl
    exact (List.foldl_hom (f x :: ·) hcons).trans (congrArg _ ih)

theorem listSet_listSet {α : Type} (f g : α → α) (l : List α) (i : Nat) : listSet (listSet l i f) i g = listSet l i (g ∘ f) := by
  induction l generalizing i with
  | nil => rfl
  | cons x xs ih => cases i <;> simp [listSet, ih]

theorem listSet_of_getElem?_none {α : Type} (f : α → α) {l : List α} {i : Nat} (h : l[i]? = none) : listSet l i f = l := by
  induction l generalizing i with
  | nil => rfl
  | cons x xs ih => cases i <;> simp_all [listSet]

/-! ### Closing the ports (R133, R135) -/

/-- From `s` to `t` only the engines of memory and links, the outputs and the counters differ. -/
def OnlyPorts (s t : State) : Prop := t = { s with mse := t.mse, lse := t.lse, out := t.out, obs := t.obs }

theorem OnlyPorts.trans {s t u : State} (h : OnlyPorts s t) (k : OnlyPorts t u) : OnlyPorts s u := by
  unfold OnlyPorts at *
  rw [k, h]

theorem OnlyPorts.foldl {α : Type} {f : State → α → State} (h : ∀ t a, OnlyPorts t (f t a)) (l : List α) (s : State) :
    OnlyPorts s (l.foldl f s) := by
  induction l generalizing s with
  | nil => rfl
  | cons a l ih => exact (h s a).trans (ih _)

/-- A POISON answer leaves as an output and is counted. -/
theorem State.answer_poison_frame (i : Nat) (data : Bytes) (r : HostReq) (s : State) :
    s.answer i .poison data r = { s with out := (s.answer i .poison data r).out, obs := (s.answer i .poison data r).obs } := by
  unfold State.answer
  cases r.write <;> rfl

theorem State.answerAll_poison_frame (i : Nat) (data : Bytes) (rs : List HostReq) (s : State) :
    s.answerAll i .poison data rs =
      { s with out := (s.answerAll i .poison data rs).out, obs := (s.answerAll i .poison data rs).obs } := by
  unfold State.answerAll
  induction rs generalizing s with
  | nil => rfl
  | cons r rs ih => rw [List.foldl_cons, ih, State.answer_poison_frame]

theorem State.endWaits_frame (ring : Nat) (s : State) : s.endWaits ring = { s with obs := (s.endWaits ring).obs } := by
  unfold State.endWaits
  generalize s.obs.waits.filter _ = l
  induction l generalizing s with
  | nil => rfl
  | cons w l ih => rw [List.foldl_cons, ih, State.waitEnd_frame]

/-- One MSE squashed, with its waits ended. -/
def State.closeMse (s : State) (i : Nat) : State := ((s.squashMse i).1).endWaits i

theorem State.closeMse_mse (s : State) (i : Nat) : (s.closeMse i).mse = listSet s.mse i Mse.squash := by
  unfold State.closeMse State.squashMse
  rw [State.endWaits_frame]
  split
  · next h => exact (listSet_of_getElem?_none _ h).symm
  · rw [State.answerAll_poison_frame]; rfl

theorem State.closeMse_only (s : State) (i : Nat) : OnlyPorts s (s.closeMse i) := by
  unfold State.closeMse State.squashMse
  rw [State.endWaits_frame]
  split
  · rfl
  · rw [State.answerAll_poison_frame]; rfl

theorem State.poisonLse_lse (i : Nat) (s : State) : (s.poisonLse i).lse = listSet s.lse i fun l => { l with out := [] } := by
  unfold State.poisonLse
  split
  · next h => exact (listSet_of_getElem?_none _ h).symm
  · exact (List.foldlRecOn (motive := fun t : State => t.lse = _) _ _ rfl fun _ ht _ _ => ht)

theorem State.poisonLse_only (i : Nat) (s : State) : OnlyPorts s (s.poisonLse i) := by
  unfold State.poisonLse
  split
  · rfl
  · next l _ =>
    refine .trans (t := (s.emits (l.out.map (poisonOut i l.peerChip))).modLse i fun l => { l with out := [] }) rfl ?_
    exact .foldl (f := fun (t : State) (o : OutReq) => t.bumpStall o.stall 6 1) (fun _ _ => rfl) _ _

/-- One LSE with its requests answered and its buffer emptied. -/
def State.closeLse (s : State) (i : Nat) : State := (s.poisonLse i).modLse i fun l => { l with txBuf := [] }

theorem State.closeLse_lse (s : State) (i : Nat) : (s.closeLse i).lse = listSet s.lse i fun l => { l with out := [], txBuf := [] } := by
  rw [State.closeLse, State.modLse_lse, State.poisonLse_lse, listSet_listSet]
  rfl

theorem State.closeLse_mse (s : State) (i : Nat) : (s.closeLse i).mse = s.mse := by
  rw [State.closeLse, State.modLse_mse]
  unfold State.poisonLse
  split
  · rfl
  · exact (List.foldlRecOn (motive := fun t : State => t.mse = _) _ _ rfl fun _ ht _ _ => ht)

theorem State.closeLse_only (s : State) (i : Nat) : OnlyPorts s (s.closeLse i) := (s.poisonLse_only i).trans rfl

theorem State.closeMses_mse (s : State) : ((List.range s.mse.length).foldl State.closeMse s).mse = s.mse.map Mse.squash := by
  rw [← foldl_range_listSet]
  exact (List.foldl_hom State.mse fun t i => (t.closeMse_mse i).symm).symm

theorem State.closeLses_lse (s : State) :
    ((List.range s.lse.length).foldl State.closeLse s).lse = s.lse.map fun l => { l with out := [], txBuf := [] } := by
  rw [← foldl_range_listSet]
  exact (List.foldl_hom State.lse fun t i => (t.closeLse_lse i).symm).symm

/-- Every MSE, then every LSE. -/
def State.closePorts (s : State) : State :=
  let t := (List.range s.mse.length).foldl State.closeMse s
  (List.range t.lse.length).foldl State.closeLse t

theorem State.closePorts_only (s : State) : OnlyPorts s s.closePorts :=
  (OnlyPorts.foldl State.closeMse_only _ s).trans (.foldl State.closeLse_only _ _)

theorem State.closePorts_mse (s : State) : s.closePorts.mse = s.mse.map Mse.squash := by
  rw [← s.closeMses_mse, State.closePorts]
  exact (List.foldlRecOn (motive := fun t : State => t.mse = _) _ _ rfl fun t ht i _ => (t.closeLse_mse i).trans ht)

theorem State.closePorts_lse (s : State) : s.closePorts.lse.all (fun l => l.txBuf.isEmpty) = true := by
  rw [State.closePorts, State.closeLses_lse, List.all_map]
  exact List.all_eq_true.mpr fun _ _ => rfl

/-! ### The Booth and the Tollgate (R133) -/

/-- From `s` to `t` only the Strongbox, records, progress and counters differ. -/
def OnlyEnds (s t : State) : Prop := t = { s with sbx := t.sbx, hlm := t.hlm, alr := t.alr, obs := t.obs }

theorem OnlyEnds.trans {s t u : State} (h : OnlyEnds s t) (k : OnlyEnds t u) : OnlyEnds s u := by
  unfold OnlyEnds at *
  rw [k, h]

theorem OnlyEnds.foldl {α : Type} {f : State → α → State} (h : ∀ t a, OnlyEnds t (f t a)) (l : List α) (s : State) :
    OnlyEnds s (l.foldl f s) := by
  induction l generalizing s with
  | nil => rfl
  | cons a l ih => exact (h s a).trans (ih _)

theorem State.complete_ends (r : Completion) (s : State) : OnlyEnds s (s.complete r) := by
  rw [State.complete_frame]; rfl

theorem State.eraseKey_ends (h g : Nat) (s : State) : OnlyEnds s (s.eraseKey h g) := rfl

/-- Keys whose destruction waited are erased and their commands end: the Strongbox and records (R203). -/
theorem State.settleDestroys_ends (s : State) : OnlyEnds s s.settleDestroys := by
  unfold State.settleDestroys
  extract_lets +onlyGivenNames _ freed t ds ended
  have ht : OnlyEnds s t := .foldl (fun t d => .foldl (fun t (k : KeyEntry) => t.eraseKey_ends d.handle k.gen) _ t) freed s
  refine (ht.trans (u := { t with sbx := { t.sbx with destroys := ds.filter fun d => !ended d } }) rfl).trans (.foldl (fun t d => ?_) _ _)
  split
  · exact State.complete_ends _ t
  · rfl

/-- With no operation at the Booth, what is forced is its lock alone. -/
theorem State.forceBooth_idle (written : Bytes) {s : State} (hr : s.bth.running = none) (hq : s.bth.queue = []) :
    (s.forceBooth written).1 =
      ({ s with bth := { s.bth with queue := [], holder := none, tollgate := false, releaseDue := false } } : State).settleDestroys := by
  simp [State.forceBooth, State.unlockBooth, hr, hq]

theorem State.squashTollgate_idle {s : State} (h : s.tol.running = none) : s.squashTollgate.1 = s := by
  cases hb : s.bth.tollgate <;> simp [State.squashTollgate, h, hb]

/-- With the Booth and the Tollgate idle, closing the ports is all that is left but the end of the Booth's lock. -/
theorem State.squashPorts_idle (written : Bytes) {s : State} (hr : s.bth.running = none) (hq : s.bth.queue = []) (ht : s.tol.running = none) :
    ∃ b, OnlyEnds { s.closePorts with bth := b } (s.squashPorts written) := by
  have hp : OnlyPorts s s.closePorts := s.closePorts_only
  have hb : s.closePorts.bth = s.bth := (congrArg State.bth hp :)
  have htol : s.closePorts.tol.running = none := by rw [← ht]; exact (congrArg (·.tol.running) hp :)
  have hs : s.squashPorts written = (s.closePorts.squashTollgate.1.forceBooth written).1 := rfl
  rw [hs, State.squashTollgate_idle htol, State.forceBooth_idle written (hb ▸ hr) (hb ▸ hq)]
  exact ⟨_, State.settleDestroys_ends _⟩

/-! ### Opening the ports (R136) -/

/-- From `s` to `t` only links, host streams and the Strongbox differ. -/
def OnlyStreams (s t : State) : Prop := t = { s with lse := t.lse, hse := t.hse, sbx := t.sbx }

theorem OnlyStreams.trans {s t u : State} (h : OnlyStreams s t) (k : OnlyStreams t u) : OnlyStreams s u := by
  unfold OnlyStreams at *
  rw [k, h]

theorem OnlyStreams.foldl {α : Type} {f : State → α → State} (h : ∀ t a, OnlyStreams t (f t a)) (l : List α) (s : State) :
    OnlyStreams s (l.foldl f s) := by
  induction l generalizing s with
  | nil => rfl
  | cons a l ih => exact (h s a).trans (ih _)

/-- An HSE without its keys and streams. -/
def Hse.cleared (h : Hse) : Hse :=
  { h with state := 0, cacheState := 0, streamId := 0, linkStream := false, keySet := 0, cacheSet := 0, keys := [] }

theorem State.clearHse_hse (i : Nat) (s : State) : (s.clearHse i).hse = listSet s.hse i Hse.cleared := rfl

/-- No host stream has a key once every HSE has been cleared. -/
theorem State.clearHses_keys (s : State) :
    ((List.range s.hse.length).foldl (fun t i => t.clearHse i) s).hse.all (fun h => h.keys.isEmpty) = true := by
  have hfold := List.foldl_hom State.hse (g₁ := fun t i => t.clearHse i) (g₂ := fun l i => listSet l i Hse.cleared)
    (l := List.range s.hse.length) (init := s) fun t i => (t.clearHse_hse i).symm
  rw [← hfold, foldl_range_listSet, List.all_map]
  exact List.all_eq_true.mpr fun _ _ => rfl

theorem State.openPorts_keys (s : State) : s.openPorts.hse.all (fun h => h.keys.isEmpty) = true := State.clearHses_keys _

theorem State.openPorts_only (s : State) :
    OnlyStreams { s with rst := { s.rst with dataClosed := false }, swp := { s.swp with paused := false } } s.openPorts :=
  (OnlyStreams.foldl (f := fun t i => t.startResync i) (fun _ _ => rfl) _ _).trans
    (.foldl (f := fun t i => t.clearHse i) (fun _ _ => rfl) _ _)

/-! ### The commands -/

theorem State.partRelease_free {k : Nat} {s : State} (h : ((s.cfg.part? k).any fun p => s.partHolds p) = false) : s.partRelease k = s := by
  simp [State.partRelease, h]

/-- Announcements are taken in service, with none of the partition unfinished. -/
theorem State.takesRuns {s : State} {unit : Nat} (hb : s.rst.rstBusy = false) (hp : s.rst.phase = .service)
    (hrun : ((s.partRun? unit).any fun r => !r.answered) = false) :
    ¬ (s.rst.rstBusy = true ∨ s.rst.phase ≠ .service ∨ ((s.partRun? unit).any fun r => !r.answered) = true) := by
  simp [hb, hp, hrun]

theorem execPartitionAnnounce_drain {s : State} {unit : Nat} (level : Nat) (hb : s.rst.rstBusy = false) (hp : s.rst.phase = .service)
    (hrun : ((s.partRun? unit).any fun r => !r.answered) = false) :
    execPartitionAnnounce unit level 0 s = done (({ s.begin with
      rst := { s.rst with parts := s.rst.parts.filter (fun r => r.index ≠ unit) ++
        [{ index := unit, level, since := s.clk.elapsed, answered := false }] } } : State).partRelease unit) :=
  congrArg done ((if_neg (State.takesRuns hb hp hrun)).trans (if_pos rfl))

/-- The announcements of other partitions are left. -/
def State.dropRun (unit : Nat) (s : State) : State :=
  { s with rst := { s.rst with parts := s.rst.parts.filter fun r => r.index ≠ unit } }

theorem execPartitionAnnounce_admit {s : State} {unit : Nat} (level : Nat) (hb : s.rst.rstBusy = false) (hp : s.rst.phase = .service)
    (hrun : ((s.partRun? unit).any fun r => !r.answered) = false) :
    execPartitionAnnounce unit level 1 s = done ((if level = 3 ∧ s.rst.dataClosed = true ∧
      ¬ (s.rst.parts.filter fun r => r.index ≠ unit).any (fun r => decide (r.level = 3 ∧ r.answered)) = true
      then (s.begin.dropRun unit).openPorts else s.begin.dropRun unit).emit (.partDone unit)) :=
  congrArg done ((if_neg (State.takesRuns hb hp hrun)).trans (if_neg (by decide)))

theorem execPartitionDrainDone_drained {s : State} {unit : Nat} {r : PartRun} (hr : s.partRun? unit = some r) (ha : r.answered = false)
    (hc : s.rst.coreReset = none) (hbusy : ((s.cfg.part? unit).any fun p => s.partBusy p || s.partHolds p) = false)
    (hdata : ¬ (r.level = 3 ∧ s.dataBusy = true)) : execPartitionDrainDone unit s = done (s.begin.partAnswer r) := by
  have hr' : s.begin.partRun? unit = some r := hr
  have hbusy' : ((s.cfg.part? unit).any fun p => s.begin.partBusy p || s.begin.partHolds p) = false := hbusy
  have hdata' : ¬ (r.level = 3 ∧ s.begin.dataBusy = true) := hdata
  simp [execPartitionDrainDone, hr', ha, hc, hbusy', hdata']

theorem execPartitionDrainTimeout_due {s : State} {unit : Nat} (written : Bytes) {r : PartRun} (hr : s.partRun? unit = some r)
    (ha : r.answered = false) (hdue : r.since + s.cfg.clk.tPart * 1000 ≤ s.clk.elapsed) :
    execPartitionDrainTimeout unit written s = done ((if r.level = 3 then s.begin.squashPorts written
      else if (s.cfg.part? unit).any fun p => s.begin.partHolds p then (s.begin.forceBooth written).1 else s.begin).partAnswer r) := by
  have hr' : s.begin.partRun? unit = some r := hr
  have hdue' : s.begin.expired r.since (s.cfg.clk.tPart * 1000) = true := decide_eq_true hdue
  simp only [execPartitionDrainTimeout, hr', ha, State.begin_cfg, hdue']
  rfl

theorem State.partAnswer_low {r : PartRun} (s : State) (h : r.level ≠ 3) : s.partAnswer r = { s with
    out := s.out ++ [.partDone r.index]
    rst := { s.rst with parts := s.rst.parts.map fun x => if x = r then { r with answered := true } else x } } := by
  simp [State.partAnswer, h, State.emit]

theorem State.partAnswer_data {r : PartRun} (s : State) (h : r.level = 3) : s.partAnswer r = { s with
    out := s.out ++ [.partDone r.index]
    rst := { s.rst with parts := s.rst.parts.map (fun x => if x = r then { r with answered := true } else x), dataClosed := true }
    swp := { s.swp with paused := true } } := by
  simp [State.partAnswer, h, State.emit]

/-! ### The statement -/

/-- Settles O32: each clause is its command's lemma, with the ports closed or opened at level 3. -/
theorem partitionResets : Obligations.PartitionResets := by
  refine ⟨?drain, ?readmit, ?reopen, ?doneData, ?doneLow, ?lateLow, ?lateData⟩
  case drain =>
    intro s unit level hb hp hrun hfree
    exact (execPartitionAnnounce_drain level hb hp hrun).trans (congrArg done (State.partRelease_free hfree))
  case readmit =>
    intro s unit level hb hp hrun hl
    exact (execPartitionAnnounce_admit level hb hp hrun).trans (by rw [if_neg fun h => hl h.1]; rfl)
  case reopen =>
    intro s unit hb hp hrun hclosed hothers
    have hnone : (s.rst.parts.filter fun r => r.index ≠ unit).any (fun r => decide (r.level = 3 ∧ r.answered)) = false := by
      simp only [List.any_filter, List.any_eq_false, List.all_eq_true, decide_eq_true_eq] at hothers ⊢
      intro r hr
      have := hothers r hr
      simp; tauto
    have hexec := execPartitionAnnounce_admit 3 hb hp hrun
    rw [if_pos ⟨rfl, hclosed, by rw [hnone]; exact Bool.false_ne_true⟩] at hexec
    have hk := (s.begin.dropRun unit).openPorts_only
    refine ⟨_, hexec, (congrArg (·.rst.dataClosed) hk :), (congrArg (·.swp.paused) hk :), ?_, State.openPorts_keys _,
      (congrArg State.mse hk :), (congrArg State.stl hk :), (congrArg State.ldg hk :)⟩
    rw [hk]; rfl
  case doneData =>
    intro s unit r hr ha hc hbusy hl hdata
    exact (execPartitionDrainDone_drained hr ha hc hbusy (by simp [hdata])).trans (congrArg done (State.partAnswer_data _ hl))
  case doneLow =>
    intro s unit r hr ha hc hbusy hl
    exact (execPartitionDrainDone_drained hr ha hc hbusy (by simp [hl])).trans (congrArg done (State.partAnswer_low _ hl))
  case lateLow =>
    intro s unit written r hr ha hdue hl hfree
    have hfree' : ((s.cfg.part? unit).any fun p => s.begin.partHolds p) = false := hfree
    exact (execPartitionDrainTimeout_due written hr ha hdue).trans
      (by rw [if_neg hl, hfree', if_neg Bool.false_ne_true, State.partAnswer_low _ hl]; rfl)
  case lateData =>
    intro s unit written r hr ha hdue hl hrun hqueue htoll
    have hexec := execPartitionDrainTimeout_due written hr ha hdue
    rw [if_pos hl, State.partAnswer_data _ hl] at hexec
    obtain ⟨b, hends⟩ := s.begin.squashPorts_idle written hrun hqueue htoll
    have hports : OnlyPorts s.begin s.begin.closePorts := s.begin.closePorts_only
    have hmse := s.begin.closePorts_mse
    refine ⟨_, hexec, rfl, rfl, ?_, List.getLast?_concat, ?_, ?_, ?_, ?_⟩
    · rw [hends, hports]; rfl
    · rw [hends]; simp [hmse, Mse.squash]
    · rw [hends]; exact s.begin.closePorts_lse
    · rw [hends, hports]; rfl
    · rw [hends, hports]; rfl

end Sys2Proof.Machine

/-!
The memory side of an MSE (O34).

A command of an MSE changes that MSE, and beside it outputs, counters and bytes metered alone; what becomes of the MSE is followed step by
step (`MseTo`), and the end of the command touches acknowledgements of the spine only, where no entry change waits.
-/

namespace Sys2Proof.Machine

/-! ### One engine of a list -/

theorem getElem?_listSet_self {α : Type} (f : α → α) {l : List α} {i : Nat} {a : α} (h : l[i]? = some a) : (listSet l i f)[i]? = some (f a) := by
  induction l generalizing i with
  | nil => cases h
  | cons x xs ih =>
    cases i with
    | zero => cases h; rfl
    | succ i => exact ih h

theorem getElem?_listSet_ne {α : Type} (f : α → α) (l : List α) {i j : Nat} (h : j ≠ i) : (listSet l i f)[j]? = l[j]? := by
  induction l generalizing i j with
  | nil => rfl
  | cons x xs ih =>
    cases i with
    | zero => cases j with
      | zero => exact absurd rfl h
      | succ j => rfl
    | succ i => cases j with
      | zero => rfl
      | succ j => exact ih fun e => h (congrArg _ e)

/-- An update depends on the element that is there. -/
theorem listSet_congr {α : Type} {f g : α → α} {l : List α} {i : Nat} {a : α} (h : l[i]? = some a) (hfg : f a = g a) :
    listSet l i f = listSet l i g := by
  induction l generalizing i with
  | nil => rfl
  | cons x xs ih =>
    cases i with
    | zero => cases h; simp [listSet, hfg]
    | succ i => simp [listSet, ih h]

theorem listSet_id {α : Type} (l : List α) (i : Nat) : listSet l i id = l := by
  induction l generalizing i with
  | nil => rfl
  | cons x xs ih => cases i <;> simp [listSet, ih]

/-! ### What a command makes of its MSE -/

/-- Where no entry change waits, nothing is settled (R283). -/
theorem State.settle_none {s : State} (h : s.ldg.changes = []) : s.settle = s := by
  have hs : ({ s with ldg := { s.ldg with changes := [] } } : State) = s := by rw [← h]
  simpa [State.settle, h] using hs

/-- From `s` to `t` MSE `m` has become `e`, and beside it only outputs, counters and bytes metered differ. -/
def MseTo (m : Nat) (s t : State) (e : Mse) : Prop :=
  t = { s with mse := listSet s.mse m fun _ => e, out := t.out, obs := t.obs, sty := t.sty }

/-- From `s` to `t` only outputs, counters and bytes metered differ. -/
def OnlyOutputs (s t : State) : Prop := t = { s with out := t.out, obs := t.obs, sty := t.sty }

theorem OnlyOutputs.trans {s t u : State} (h : OnlyOutputs s t) (k : OnlyOutputs t u) : OnlyOutputs s u := by
  unfold OnlyOutputs at *
  rw [k, h]

theorem MseTo.then {m : Nat} {s t u : State} {e : Mse} (h : MseTo m s t e) (k : OnlyOutputs t u) : MseTo m s u e := by
  unfold MseTo OnlyOutputs at *
  rw [k, h]

theorem MseTo.modMse {m : Nat} {s t : State} {e : Mse} (h : MseTo m s t e) (f : Mse → Mse) : MseTo m s (t.modMse m f) (f e) := by
  have hmse : (t.modMse m f).mse = listSet s.mse m fun _ => f e := by
    rw [State.modMse_mse, h]; exact listSet_listSet _ _ _ _
  unfold MseTo
  rw [← hmse, h]
  rfl

/-- Beside the MSE nothing that the statements speak of differs. -/
theorem MseTo.onlyMse {m : Nat} {s t : State} {e : Mse} (h : MseTo m s t e) : s.onlyMse m t := by
  have hmse : t.mse = listSet s.mse m fun _ => e := (congrArg State.mse h :)
  refine ⟨by rw [hmse, length_listSet], fun i _ hne => by rw [hmse, getElem?_listSet_ne _ _ hne], ?_⟩
  rw [h]
  exact ⟨rfl, rfl, rfl, rfl, rfl, rfl, rfl, rfl, rfl, rfl⟩

theorem MseTo.from {m : Nat} {s t u : State} {e : Mse} (h : MseTo m t u e) (k : OnlyOutputs s t) : MseTo m s u e := by
  unfold MseTo OnlyOutputs at *
  rw [h, k]

section
variable {m : Nat} {s : State} {e : Mse} (hs : s.mse[m]? = some e)
include hs

theorem MseTo.refl : MseTo m s s e := by
  have hid : listSet s.mse m (fun _ => e) = s.mse := (listSet_congr (f := fun _ => e) (g := id) hs rfl).trans (listSet_id _ _)
  unfold MseTo
  rw [hid]

theorem MseTo.getElem {t : State} {e' : Mse} (h : MseTo m s t e') : t.mse[m]? = some e' := by
  rw [h]; exact getElem?_listSet_self _ hs

/-- What onMse answers: the command's effect on the MSE, with the acknowledgements the MSE still waits for (R251). -/
theorem MseTo.onMse {f : Mse → State → State} {t : State} {e' : Mse} (hf : f e s.begin = t) (ht : MseTo m s.begin t e')
    (hc : s.ldg.changes = []) :
    ∃ u acks, Machine.onMse m s f = .next u ∧ u.out = t.out ∧
      u.mse[m]? = some { e' with spine := { e'.spine with acks } } ∧ s.onlyMse m u := by
  have hmse : (t.pollAcks m).mse[m]? = some _ := getElem?_listSet_self _ (ht.getElem hs)
  have hend : t.endMse m = t.pollAcks m := State.settle_none (by rw [ht]; exact hc)
  refine ⟨t.pollAcks m, _, ?_, rfl, hmse, ?_⟩
  · simp only [Machine.onMse, hs, hf, hend]; rfl
  · exact (ht.modMse _ : MseTo m s.begin (t.pollAcks m) _).onlyMse

/-- The same, of what the statements call the MSE's work. -/
theorem MseTo.answers {f : Mse → State → State} {t : State} {e' : Mse} {os : List Out} {w} (hf : f e s.begin = t) (ht : MseTo m s.begin t e')
    (ho : t.out = os) (hw : e'.work = w) (hc : s.ldg.changes = []) :
    ∃ u, Machine.onMse m s f = .next u ∧ u.out = os ∧ (u.mse[m]?).map (·.work) = some w ∧ s.onlyMse m u := by
  obtain ⟨u, acks, hu, hout, hmse, honly⟩ := ht.onMse hs hf hc
  exact ⟨u, hu, hout.trans ho, by rw [hmse, ← hw]; rfl, honly⟩

end

/-! ### Outputs and counters -/

theorem State.bump_outputs (n k : Nat) (s : State) : OnlyOutputs s (s.bump n k) := rfl

/-- The transfer of an OK answer. -/
def answerOk (i : Nat) (data : Bytes) (r : HostReq) : Out := if r.write then .hb i r.lane r.id .ok else .hd i r.lane r.id .ok data

theorem map_answerOk_reads (i : Nat) (data : Bytes) {rs : List HostReq} (h : rs.all (fun r => !r.write) = true) :
    rs.map (answerOk i data) = rs.map fun r => .hd i r.lane r.id .ok data :=
  List.map_congr_left fun r hr => by
    have hw : r.write = false := by simpa using List.all_eq_true.mp h r hr
    simp [answerOk, hw]

theorem map_answerOk_writes (i : Nat) (data : Bytes) {rs : List HostReq} (h : rs.all (·.write) = true) :
    rs.map (answerOk i data) = rs.map fun r => .hb i r.lane r.id .ok :=
  List.map_congr_left fun r hr => by simp [answerOk, List.all_eq_true.mp h r hr]

theorem State.meterAnswer_outputs (st : PortStatus) (r : HostReq) (s : State) :
    OnlyOutputs s (s.meterAnswer st r) ∧ (s.meterAnswer st r).out = s.out := by
  unfold State.meterAnswer
  split
  · rw [State.meter_frame]; exact ⟨rfl, rfl⟩
  · exact ⟨rfl, rfl⟩

theorem State.answer_ok_eq (i : Nat) (data : Bytes) (r : HostReq) (s : State) :
    s.answer i .ok data r = ((s.emit (answerOk i data r)).bump (ctrMse i (if r.write then 3 else 2)) 1).meterAnswer .ok r := by
  unfold State.answer answerOk
  cases r.write <;> rfl

theorem State.answer_ok_outputs (i : Nat) (data : Bytes) (r : HostReq) (s : State) : OnlyOutputs s (s.answer i .ok data r) := by
  rw [State.answer_ok_eq]
  exact OnlyOutputs.trans (t := (s.emit (answerOk i data r)).bump (ctrMse i (if r.write then 3 else 2)) 1) rfl
    (State.meterAnswer_outputs ..).1

theorem State.answer_ok_out (i : Nat) (data : Bytes) (r : HostReq) (s : State) :
    (s.answer i .ok data r).out = s.out ++ [answerOk i data r] := by
  rw [State.answer_ok_eq, (State.meterAnswer_outputs ..).2]
  rfl

theorem State.answerAll_ok_outputs (i : Nat) (data : Bytes) (rs : List HostReq) (s : State) : OnlyOutputs s (s.answerAll i .ok data rs) := by
  unfold State.answerAll
  induction rs generalizing s with
  | nil => rfl
  | cons r rs ih => exact (s.answer_ok_outputs i data r).trans (ih _)

theorem State.answerAll_ok_out (i : Nat) (data : Bytes) (rs : List HostReq) (s : State) :
    (s.answerAll i .ok data rs).out = s.out ++ rs.map (answerOk i data) := by
  unfold State.answerAll
  induction rs generalizing s with
  | nil => simp
  | cons r rs ih => rw [List.foldl_cons, ih, State.answer_ok_out, List.append_assoc]; rfl

/-! ### Steps of the memory side -/

/-- A sector without an entry has nothing to go on with. -/
theorem State.advance_noHazard {m sector : Nat} {s : State} {e : Mse} (hs : s.mse[m]? = some e) (h : e.hazard? sector = none) :
    s.advance m sector = s := by
  simp [State.advance, hs, h]

/-- No entry is at a sector without one. -/
theorem Mse.map_hazards_noHazard {e : Mse} {sector : Nat} (f : Hazard → Hazard) (h : e.hazard? sector = none) :
    (e.hazards.map fun x => if x.sector = sector then f x else x) = e.hazards := by
  refine (List.map_congr_left fun x hx => ?_).trans (List.map_id _)
  have hne := List.find?_eq_none.mp h x hx
  exact if_neg fun he => hne (decide_eq_true he)

/-- The MSE with the request presented (R253, R261). -/
def Mse.presented (weights : List Nat) (now : Nat) (o : MemOp) (e : Mse) : Mse :=
  { e with
    nextId := (e.freeId + 1) % 1024
    rr := (e.rr + 1) % (weights.foldl (· + ·) 0 + 1)
    ops := e.ops.eraseP (· = o) ++ [{ o with id := some e.freeId, since := now }] }

/-- The transfer that a presented request is. -/
def MemOp.transfer (m id : Nat) (o : MemOp) : Out :=
  if o.write then .mw m o.lane o.sector id o.co o.data o.sb else .mr m o.lane o.sector id o.co

theorem State.present_to {m : Nat} {s : State} {e : Mse} (hs : s.mse[m]? = some e) (o : MemOp) :
    MseTo m s (s.present m o) (e.presented s.cfg.engine.weights s.clk.elapsed o) ∧ (s.present m o).out = s.out ++ [o.transfer m e.freeId] := by
  unfold State.present
  split
  · next h => cases hs.symm.trans h
  · next x h =>
    cases hs.symm.trans h
    extract_lets +onlyGivenNames id waited t u v
    have ht : MseTo m s t (e.presented s.cfg.engine.weights s.clk.elapsed o) := (MseTo.refl hs).modMse _
    have hu : u = t.emit (o.transfer m e.freeId) := by
      simp only [u, MemOp.transfer]
      split <;> rfl
    have hv : OnlyOutputs t v ∧ v.out = t.out ++ [o.transfer m e.freeId] := by
      simp only [v, hu]
      rw [State.ringRecord_frame]
      exact ⟨rfl, rfl⟩
    clear_value v
    split <;> exact ⟨ht.then (hv.1.trans rfl), hv.2⟩

/-- A verified beat of a host read answers what waits for it (R219). -/
theorem State.deliver_to {m : Nat} {s : State} {e : Mse} (hs : s.mse[m]? = some e) {o : MemOp} (ct : Bytes) (sb : Nat) (pt : Bytes)
    (hrole : o.role = .hostRead) (hz : e.hazard? o.sector = none) :
    MseTo m s (s.deliver m o ct sb pt) (e.dropOp o) ∧ (s.deliver m o ct sb pt).out = s.out ++ o.reqs.map (answerOk m pt) := by
  let u := s.modMse m fun m => { m.dropOp o with hazards := m.hazards.map fun h => if h.sector = o.sector then { h with plain := some pt } else h }
  have hu : MseTo m s u (e.dropOp o) := by
    have h := (MseTo.refl hs).modMse fun m =>
      { m.dropOp o with hazards := m.hazards.map fun h => if h.sector = o.sector then { h with plain := some pt } else h }
    simp only [Mse.map_hazards_noHazard _ hz] at h
    exact h
  have ht : MseTo m s (u.answerAll m .ok pt o.reqs) (e.dropOp o) := hu.then (State.answerAll_ok_outputs ..)
  have heq : s.deliver m o ct sb pt = u.answerAll m .ok pt o.reqs := by
    rw [State.deliver, hrole]
    exact State.advance_noHazard (ht.getElem hs) hz
  rw [heq, State.answerAll_ok_out]
  exact ⟨ht, rfl⟩

/-- A first read that fails a check is queued first again (R219). -/
theorem State.failRead_first {m : Nat} {s : State} {e : Mse} (hs : s.mse[m]? = some e) {o : MemOp} (check : Nat) (ha : o.attempt = 0) :
    MseTo m s (s.failRead m o check) (e.requeueFirst o
      { o with id := none, attempt := 1, check, beat := false, data := [], since := s.clk.elapsed }) ∧ (s.failRead m o check).out = s.out := by
  rw [State.failRead, ha]
  exact ⟨((MseTo.refl hs).modMse _).then (State.bump_outputs ..), rfl⟩

/-- A re-read that fails starts the Sounding of its lane (R236, R238). -/
theorem State.failRead_second {m : Nat} {s : State} {e : Mse} (hs : s.mse[m]? = some e) {o : MemOp} (check : Nat) (ha : o.attempt = 1) :
    MseTo m s (s.failRead m o check) { e.requeueFirst o
      { o with id := none, attempt := 2, beat := false, data := [], since := s.clk.elapsed } with
        testing := e.testing ++ s.cht.lanesOf m (s.cht.physLane m o.lane) } ∧ (s.failRead m o check).out = s.out := by
  rw [State.failRead, ha]
  exact ⟨(((MseTo.refl hs).modMse _).modMse _).then (State.bump_outputs ..), rfl⟩

/-- A verified beat of the first read of a host read is delivered; a second MAC verification that was needed is counted (R219). -/
theorem State.takeVerdict_pass {m : Nat} {s : State} {e : Mse} (hs : s.mse[m]? = some e) {o : MemOp} (ct : Bytes) (sb : Nat) (pt : Bytes)
    (second : Bool) (ha : o.attempt = 0) (hrole : o.role = .hostRead) (hz : e.hazard? o.sector = none) :
    MseTo m s (s.takeVerdict m o ct sb (.pass pt second)) (e.dropOp o) ∧
      (s.takeVerdict m o ct sb (.pass pt second)).out = s.out ++ o.reqs.map (answerOk m pt) := by
  simp only [State.takeVerdict, ha]
  cases second
  · exact State.deliver_to hs ct sb pt hrole hz
  · obtain ⟨ht, hout⟩ := State.deliver_to (s := s.bump (ctrMse m 20) 1) hs ct sb pt hrole hz
    exact ⟨ht.from (State.bump_outputs ..), hout⟩

/-- A host read that fails a check is no sweep that reseals: the read fails (R219). -/
theorem State.takeVerdict_fail {m : Nat} {s : State} {o : MemOp} (ct : Bytes) (sb check : Nat) (hrole : o.role = .hostRead) :
    s.takeVerdict m o ct sb (.fail check) = s.failRead m o check := by
  simp [State.takeVerdict, hrole]

/-- An OK acknowledgement of a host write in sideband mode answers it (R239, R261). -/
theorem State.ackWrite_to {m : Nat} {s : State} {e : Mse} (hs : s.mse[m]? = some e) {o : MemOp} (hrole : o.role = .hostWrite)
    (hco : s.carveOut (sectorAddr o.sector) = false) (hz : e.hazard? o.sector = none) :
    MseTo m s (s.ackWrite m o .ok) { e.dropOp o with err := { e.err with bad := e.err.bad.filter fun b => b.sector ≠ o.sector } } ∧
      (s.ackWrite m o .ok).out = s.out ++ o.reqs.map (answerOk m []) := by
  let u := ((s.modMse m (Mse.dropOp o)).bump (ctrMse m 7) 1).unlistSector m o.sector
  have hu : MseTo m s u { e.dropOp o with err := { e.err with bad := e.err.bad.filter fun b => b.sector ≠ o.sector } } :=
    (((MseTo.refl hs).modMse _).then (State.bump_outputs ..)).modMse _
  have ht := hu.then (State.answerAll_ok_outputs m [] o.reqs u)
  have heq : s.ackWrite m o .ok = u.answerAll m .ok [] o.reqs := by
    have hco' : u.carveOut (sectorAddr o.sector) = false := hco
    have hdata : u.dataAcked m o.sector .ok o.reqs = u.answerAll m .ok [] o.reqs := by simp [State.dataAcked, hco']
    have hack : s.ackWrite m o .ok = (u.dataAcked m o.sector .ok o.reqs).advance m o.sector := by rw [State.ackWrite, hrole]; rfl
    rw [hack, hdata]
    exact State.advance_noHazard (ht.getElem hs) hz
  rw [heq, State.answerAll_ok_out]
  exact ⟨ht, rfl⟩

/-! ### The commands -/

section
variable {m : Nat} {s : State} {e : Mse} (hs : s.mse[m]? = some e) (hc : s.ldg.changes = [])
include hs hc

/-- The class whose turn it is presents its request (R253). -/
theorem execMseMemRequestSend_presents {lane : Nat} {write : Bool} {o : MemOp} (hq : s.alr.quiet = false) (hid : e.idsUsed.length < 1024)
    (ho : e.choose s.cfg.engine.weights lane write = some o) :
    ∃ t, execMseMemRequestSend m lane write false s = .next t ∧ t.out = [o.transfer m e.freeId] ∧
      (t.mse[m]?).map (·.work) = some (e.presented s.cfg.engine.weights s.clk.elapsed o).work ∧ s.onlyMse m t := by
  obtain ⟨ht, hout⟩ := State.present_to (s := s.begin) hs o
  unfold execMseMemRequestSend
  refine MseTo.answers hs ?_ ht hout rfl hc
  simp [hq, Nat.not_le.mpr hid, ho]

/-- In a slot of the Sweeper its queued request leaves (R253, R298). -/
theorem execMseMemRequestSend_presentsSweep {lane : Nat} {write : Bool} {o : MemOp} (hq : s.alr.quiet = false) (hid : e.idsUsed.length < 1024)
    (ho : e.chooseSweep lane write = some o) :
    ∃ t, execMseMemRequestSend m lane write true s = .next t ∧ t.out = [o.transfer m e.freeId] ∧
      (t.mse[m]?).map (·.work) = some (e.presented s.cfg.engine.weights s.clk.elapsed o).work ∧ s.onlyMse m t := by
  obtain ⟨ht, hout⟩ := State.present_to (s := s.begin) hs o
  unfold execMseMemRequestSend
  refine MseTo.answers hs ?_ ht hout rfl hc
  simp [hq, Nat.not_le.mpr hid, ho, hs]

/-- A beat that answers a reserved ID frees it (R261, R262). -/
theorem execMseReadBeat_late {id : Nat} (data : Bytes) (sb : Nat) (err : Bool)
    (hr : e.reserved.any (fun r => r.id = id ∧ ¬ r.write) = true) :
    ∃ t, execMseReadBeat m id data sb err s = .next t ∧ t.out = [] ∧
      (t.mse[m]?).map (·.work) = some (e.ops, e.hazards, e.held, e.reserved.filter fun r => ¬ (r.id = id ∧ ¬ r.write)) ∧ s.onlyMse m t := by
  have ht : MseTo m s.begin _ _ := ((MseTo.refl (s := s.begin) hs).modMse fun e =>
    { e with reserved := e.reserved.filter fun r => ¬ (r.id = id ∧ ¬ r.write) }).then (State.bump_outputs (ctrMse m 6) 1 _)
  unfold execMseReadBeat
  exact MseTo.answers hs (if_pos hr) ht rfl rfl hc

/-- A beat of a host read is judged by its error flag or its checks, and the verdict is taken (R219). -/
theorem execMseReadBeat_verdict {id : Nat} {data : Bytes} {sb : Nat} {err : Bool} {o : MemOp} {v : BeatVerdict} {e' : Mse} {os : List Out}
    (hr : e.reserved.any (fun r => r.id = id ∧ ¬ r.write) = false) (ho : e.ops.find? (fun o => o.id = some id ∧ ¬ o.write) = some o)
    (hrole : o.role = .hostRead) (hv : v = if err then .fail 4 else s.verifyBeat m e o data sb)
    (ht : MseTo m s.begin ((s.begin.bump (ctrMse m 6) 1).takeVerdict m o data sb v) e')
    (hout : ((s.begin.bump (ctrMse m 6) 1).takeVerdict m o data sb v).out = os) :
    ∃ u acks, execMseReadBeat m id data sb err s = .next u ∧ u.out = os ∧
      u.mse[m]? = some { e' with spine := { e'.spine with acks } } ∧ s.onlyMse m u := by
  subst hv hout
  unfold execMseReadBeat
  refine MseTo.onMse hs ?_ ht hc
  simp only [hr, ho, hrole]
  cases err <;> rfl

/-- An acknowledgement of a reserved ID frees it (R261, R262). -/
theorem execMseWriteAck_late {id : Nat} {r : Reserved} (hr : e.reserved.find? (fun r => r.id = id ∧ r.write) = some r)
    (hz : e.hazard? r.sector = none) :
    ∃ t, execMseWriteAck m id false s = .next t ∧ t.out = [] ∧
      (t.mse[m]?).map (·.work) = some (e.ops, e.hazards, e.held, e.reserved.filter (· ≠ r)) ∧ s.onlyMse m t := by
  have ht : MseTo m s.begin _ _ := ((MseTo.refl (s := s.begin) hs).modMse fun e => { e with reserved := e.reserved.filter (· ≠ r) }).then
    (State.bump_outputs (ctrMse m 7) 1 _)
  unfold execMseWriteAck
  refine MseTo.answers hs ?_ ht rfl rfl hc
  simp only [hr]
  exact State.advance_noHazard (ht.getElem hs) hz

/-- The acknowledgement of a write goes to it (R239). -/
theorem execMseWriteAck_ok {id : Nat} {o : MemOp} {e' : Mse} (hr : e.reserved.find? (fun r => r.id = id ∧ r.write) = none)
    (ho : e.ops.find? (fun o => o.id = some id ∧ o.write) = some o) (ht : MseTo m s.begin (s.begin.ackWrite m o .ok) e') :
    ∃ u acks, execMseWriteAck m id false s = .next u ∧ u.out = (s.begin.ackWrite m o .ok).out ∧
      u.mse[m]? = some { e' with spine := { e'.spine with acks } } ∧ s.onlyMse m u := by
  unfold execMseWriteAck
  refine MseTo.onMse hs ?_ ht hc
  simp only [hr, ho]
  rfl

/-- A line with sealed sectors that wait for it is queued as one write (R267). -/
theorem execTagLineWriteFlush_pending {line : Nat} {p : TagPending} {x : Nat × List Nat} (hp : e.tagPending.find? (fun p => p.line = line) = some p)
    (hx : e.tags.find? (fun x => x.1 = line) = some x) (hidle : e.ops.any (fun o => o.co && o.write && decide (o.sector = line)) = false)
    (hw : p.waits.any (fun w => w.stage = .pending) = true) :
    ∃ t, execTagLineWriteFlush m line s = .next t ∧ t.out = [] ∧
      (t.mse[m]?).map (·.work) = some (e.ops ++ [{ newOp .tagWrite line 0 0 true [] with co := true, data := tagBytes x.2, since := s.clk.elapsed }],
        e.hazards, e.held, e.reserved) ∧ s.onlyMse m t := by
  have ht := (MseTo.refl (s := s.begin) hs).modMse (fun e => { e with tagPending := e.tagPending.map fun (q : TagPending) =>
      if q.line = line then { q with waits := q.waits.map fun (w : TagWait) => if w.stage = TagStage.pending then { w with stage := .inFlight } else w } else q }.queueOp
    { newOp .tagWrite line 0 0 true [] with co := true, data := tagBytes x.2, since := s.clk.elapsed })
  unfold execTagLineWriteFlush
  refine MseTo.answers hs ?_ ht rfl rfl hc
  simp only [hp, hx, hidle, hw]
  rfl

end

/-! ### The statement -/

/-- Settles O34: what each command makes of its MSE, step by step, and the outputs of those steps. -/
theorem mseMemorySide : Obligations.MseMemorySide := by
  refine ⟨?send, ?sweep, ?pass, ?reread, ?sounding, ?ack, ?lateAck, ?lateBeat, ?flush⟩
  case send =>
    intro s m lane write e o hs hq hid ho hc
    exact execMseMemRequestSend_presents hs hc hq hid ho
  case sweep =>
    intro s m lane write e o hs hq hid ho hc
    exact execMseMemRequestSend_presentsSweep hs hc hq hid ho
  case pass =>
    intro s m id sb data pt second e o hs hr ho hrole ha hv hz hreads hc
    obtain ⟨ht, hout⟩ := State.takeVerdict_pass (s := s.begin.bump (ctrMse m 6) 1) hs data sb pt second ha hrole hz
    obtain ⟨u, acks, hu, hos, hmse, honly⟩ := execMseReadBeat_verdict (err := false) hs hc hr ho hrole hv.symm (ht.from (State.bump_outputs ..)) hout
    refine ⟨u, hu, ?_, by rw [hmse]; rfl, honly⟩
    rw [hos, map_answerOk_reads _ _ hreads]
    rfl
  case reread =>
    intro s m id sb check data err e o hs hr ho hrole ha hv hc
    have hverdict : BeatVerdict.fail check = if err then .fail 4 else s.verifyBeat m e o data sb := by
      rcases hv with ⟨rfl, rfl⟩ | ⟨rfl, hv⟩
      · rfl
      · exact hv.symm
    obtain ⟨ht, hout⟩ := State.failRead_first (s := s.begin.bump (ctrMse m 6) 1) hs check ha
    rw [← State.takeVerdict_fail data sb check hrole] at ht hout
    obtain ⟨u, acks, hu, hos, hmse, honly⟩ := execMseReadBeat_verdict hs hc hr ho hrole hverdict (ht.from (State.bump_outputs ..)) hout
    exact ⟨u, hu, hos, by rw [hmse]; rfl, honly⟩
  case sounding =>
    intro s m id sb data e o hs hr ho hrole ha hc
    obtain ⟨ht, hout⟩ := State.failRead_second (s := s.begin.bump (ctrMse m 6) 1) hs 4 ha
    rw [← State.takeVerdict_fail data sb 4 hrole] at ht hout
    obtain ⟨u, acks, hu, hos, hmse, honly⟩ :=
      execMseReadBeat_verdict (err := true) hs hc hr ho hrole rfl (ht.from (State.bump_outputs ..)) hout
    exact ⟨u, hu, hos, by rw [hmse]; rfl, honly⟩
  case ack =>
    intro s m id e o hs hr ho hrole hco hz hwrites hc
    obtain ⟨ht, hout⟩ := State.ackWrite_to (s := s.begin) hs hrole hco hz
    obtain ⟨u, acks, hu, hos, hmse, honly⟩ := execMseWriteAck_ok hs hc hr ho ht
    refine ⟨u, hu, ?_, by rw [hmse]; rfl, by rw [hmse]; rfl, honly⟩
    rw [hos, hout, map_answerOk_writes _ _ hwrites]
    rfl
  case lateAck =>
    intro s m id e r hs hr hz hc
    exact execMseWriteAck_late hs hc hr hz
  case lateBeat =>
    intro s m id sb data err e hs hr hc
    exact execMseReadBeat_late hs hc data sb err hr
  case flush =>
    intro s m line e p x hs hp hx hidle hw hc
    exact execTagLineWriteFlush_pending hs hc hp hx hidle hw

end Sys2Proof.Machine

/-!
Host streams and Crosscheck (O42).

An HSE that is not in unit reset takes a TLP by the state of its stream: `execHseTxTlp` and `execHseRxTlp` are followed in each of its
cases. The Crosscheck commands are their admitted bodies.
-/

namespace Sys2Proof.Machine

/-! ### Host streams -/

/-- A TLP under a key below 75% of its limit is counted, and nothing else is to be said of the key (R344). -/
theorem State.ideCount_unworn {h k n : Nat} {tx : Bool} {s : State} {e : Hse} {x : IdeKey} (hs : s.hse[h]? = some e)
    (hx : e.active k tx = some x) (hn : x.blocks + n < 3 * 2 ^ 42) :
    s.ideCount h k tx n = s.modHse h fun e => { e with keys := e.keys.map fun y => if y = x then { x with blocks := x.blocks + n } else y } := by
  have hw : decide (3 * 2 ^ 42 ≤ x.blocks + n) = false := decide_eq_false (Nat.not_le.mpr hn)
  simp only [State.ideCount, hs, Option.bind_some, hx, hw, Bool.false_and, Bool.or_false, Bool.false_eq_true, if_false]

/-- What a command of an HSE answers where it finds its HSE. -/
theorem onHse_some {h : Nat} {s : State} {e : Hse} (hs : s.hse[h]? = some e) (f : Hse → State → State) : onHse h s f = done (f e s.begin) := by
  simp [onHse, hs]

theorem State.emit_outputs (o : Out) (s : State) : OnlyOutputs s (s.emit o) := rfl

theorem State.meter_outputs (cls stall n : Nat) (s : State) : OnlyOutputs s (s.meter cls stall n) := by
  rw [State.meter_frame]; rfl

/-- A transfer is counted, with its bytes, and metered. -/
theorem State.transfer_outputs (o : Out) (i j k n : Nat) (s : State) :
    OnlyOutputs s ((((s.emit o).bump i 1).bump j k).meter 2 0 n) ∧ ((((s.emit o).bump i 1).bump j k).meter 2 0 n).out = s.out ++ [o] := by
  refine ⟨(s.emit_outputs o).trans (.trans (State.bump_outputs i 1 _) (.trans (State.bump_outputs j k _) (State.meter_outputs ..))), ?_⟩
  rw [State.meter_frame]; rfl

/-- An update of one HSE with its outputs leaves the rest. -/
theorem OnlyOutputs.modHse {h : Nat} {f : Hse → Hse} {s t : State} (k : OnlyOutputs (s.begin.modHse h f) t) :
    t.hse = listSet s.hse h f ∧ t = { s with out := t.out, hse := t.hse, obs := t.obs, sty := t.sty } := by
  have hhse : t.hse = listSet s.hse h f := (congrArg State.hse k :)
  exact ⟨hhse, by rw [hhse]; exact k⟩

theorem State.emit_bump_bump (o : Out) (i j k : Nat) (s : State) :
    ((s.emit o).bump i 1).bump j k = { s with out := s.out ++ [o], obs := (s.obs.bump i 1).bump j k } := rfl

theorem State.modHse_bump (h n : Nat) (f : Hse → Hse) (s : State) :
    (s.modHse h f).bump n 1 = { s with hse := listSet s.hse h f, obs := s.obs.bump n 1 } := rfl

/-- An integrity alarm charged to no Stall is logged and raised (R521, R527). -/
theorem State.alarmIntegrity_uncharged (unit : Nat) (stall : Option Nat) (cause word : Nat) (s : State) :
    s.alarmIntegrity unit stall none cause word = { s with
      alr := { (s.logAlarm alIntegrity unit stall cause word).alr with integrity := true }
      hlm := { s.hlm with irqAlarm := true }
      obs := s.obs.bump 10 1 } := rfl

/-- The data ports are closed in the quiet state (R89). -/
theorem State.quietOpen_of_dataOpen {s : State} (h : s.dataOpen = true) : s.quietOpen = false := by
  simp only [State.dataOpen, Bool.and_eq_true, Bool.not_eq_true'] at h
  simp [State.quietOpen, h.1.2]

section
variable {h kind : Nat} {data : Bytes} {s : State} {e : Hse} (hs : s.hse[h]? = some e)
include hs

section
variable (ho : s.dataOpen = true) (hr : s.inUnitReset (unitHse h) = false) (hh : e.halts = false)
include ho hr hh

/-- An HSE that takes TLPs of the host sends each by the state of its stream (R344). -/
theorem execHseTxTlp_taken (secured : Bytes) :
    execHseTxTlp h kind data secured s = done (
      if e.stream (tlpStream kind) = 1 then
        ((((s.begin.ideCount h (tlpStream kind) true (tlpBlocks data.length)).emit (.tl h true secured)).bump (ctrHse h 0) 1).bump
          (ctrHse h 1) secured.length).meter 2 0 data.length
      else if kind = 0 then ((s.begin.emit (.tl h false data)).bump (ctrHse h 0) 1).bump (ctrHse h 1) data.length
      else s.begin.hseDrop h) := by
  have hq : s.begin.quietOpen = false := State.quietOpen_of_dataOpen ho
  have hopen : s.begin.dataOpen = true := ho
  have hur : s.begin.inUnitReset (unitHse h) = false := hr
  rw [execHseTxTlp, onHse_some hs]
  simp [hq, hopen, hur, hh]

theorem execHseTxTlp_secure {x : IdeKey} (secured : Bytes) (hst : e.stream (tlpStream kind) = 1) (hx : e.active (tlpStream kind) true = some x)
    (hn : x.blocks + tlpBlocks data.length < 3 * 2 ^ 42) :
    ∃ t, execHseTxTlp h kind data secured s = .next t ∧ t.out = [.tl h true secured] ∧
      t.hse = listSet s.hse h (fun e => { e with keys := e.keys.map fun y => if y = x then { x with blocks := x.blocks + tlpBlocks data.length } else y }) ∧
      t = { s with out := t.out, hse := t.hse, obs := t.obs, sty := t.sty } := by
  refine ⟨_, execHseTxTlp_taken hs ho hr hh secured, ?_⟩
  rw [if_pos hst, State.ideCount_unworn (s := s.begin) hs hx hn]
  obtain ⟨hk, hout⟩ := State.transfer_outputs (.tl h true secured) (ctrHse h 0) (ctrHse h 1) secured.length data.length _
  exact ⟨hout, hk.modHse⟩

theorem execHseTxTlp_insecure (secured : Bytes) (hst : e.stream (tlpStream kind) ≠ 1) :
    ∃ t, execHseTxTlp h kind data secured s = .next t ∧ t.out = (if kind = 0 then [.tl h false data] else []) ∧
      t.hse = (if kind = 0 then s.hse else listSet s.hse h fun e => { e with dropped := satAdd 65535 e.dropped 1 }) ∧
      t = { s with out := t.out, hse := t.hse, obs := t.obs } := by
  refine ⟨_, execHseTxTlp_taken hs ho hr hh secured, ?_⟩
  rw [if_neg hst, State.emit_bump_bump, State.hseDrop, State.modHse_bump]
  split <;> exact ⟨rfl, rfl, rfl⟩

end

theorem execHseTxTlp_quiet (secured : Bytes) (hq : s.quietOpen = true) :
    execHseTxTlp h kind data secured s = done (s.begin.emit (.rt h (onesData data.length))) := by
  have hq' : s.begin.quietOpen = true := hq
  rw [execHseTxTlp, onHse_some hs]
  simp [hq']

section
variable (hsrv : s.serving) (ha : s.ald.noAlmanac = false) (hr : s.inUnitReset (unitHse h) = false)
include hsrv ha hr

/-- An HSE in service takes a received TLP by the state of its stream, the stream the TLP is in and its MAC (R344, R345). -/
theorem execHseRxTlp_taken (inStream macOk : Bool) :
    execHseRxTlp h kind inStream macOk false data s = done (
      if e.stream (tlpStream kind) = 1 then
        if ¬ inStream then s.begin.hseDrop h
        else if macOk then
          ((((s.begin.ideCount h (tlpStream kind) false (tlpBlocks data.length)).emit (.rt h data)).bump (ctrHse h 2) 1).bump
            (ctrHse h 3) data.length).meter 2 0 data.length
        else
          ((((s.begin.modHse h fun x =>
            if tlpStream kind = 1 then { x with cacheState := 2, macFail := satAdd 65535 x.macFail 1 }
            else { x with state := 2, macFail := satAdd 65535 x.macFail 1 }).bump (ctrHse h 4) 1).alarmIntegrity
              (unitHse h) none none 2 (1 + 16 + 32 * h)).event evHseInsecure (unitHse h) none h 0)
      else if kind = 0 ∧ ¬ inStream then ((s.begin.emit (.rt h data)).bump (ctrHse h 2) 1).bump (ctrHse h 3) data.length
      else s.begin.hseDrop h) := by
  obtain ⟨hp, hb, hq⟩ := hsrv
  have hur : s.begin.inUnitReset (unitHse h) = false := hr
  rw [execHseRxTlp, onHse_some hs]
  simp [hp, hb, hq, ha, hur]

theorem execHseRxTlp_released {x : IdeKey} (hst : e.stream (tlpStream kind) = 1) (hx : e.active (tlpStream kind) false = some x)
    (hn : x.blocks + tlpBlocks data.length < 3 * 2 ^ 42) :
    ∃ t, execHseRxTlp h kind true true false data s = .next t ∧ t.out = [.rt h data] ∧
      t.hse = listSet s.hse h (fun e => { e with keys := e.keys.map fun y => if y = x then { x with blocks := x.blocks + tlpBlocks data.length } else y }) ∧
      t = { s with out := t.out, hse := t.hse, obs := t.obs, sty := t.sty } := by
  refine ⟨_, execHseRxTlp_taken hs hsrv ha hr true true, ?_⟩
  rw [if_pos hst, if_neg (not_not_intro rfl), if_pos rfl, State.ideCount_unworn (s := s.begin) hs hx hn]
  obtain ⟨hk, hout⟩ := State.transfer_outputs (.rt h data) (ctrHse h 2) (ctrHse h 3) data.length data.length _
  exact ⟨hout, hk.modHse⟩

/-- A TLP of the secure stream whose MAC fails (R345). -/
theorem execHseRxTlp_failed (hk : kind ≠ 2) (hst : e.state = 1) :
    ∃ t, execHseRxTlp h kind true false false data s = .next t ∧ t.out = [] ∧
      t.hse = listSet s.hse h (fun e => { e with state := 2, macFail := satAdd 65535 e.macFail 1 }) ∧ t.alr.integrity = true ∧
      t.hlm.irqAlarm = true ∧ t.hlm.fifo = (s.event evHseInsecure (unitHse h) none h 0).hlm.fifo ∧
      t = { s with out := [], hse := t.hse, obs := t.obs, alr := t.alr, hlm := t.hlm } := by
  have hstream : tlpStream kind = 0 := if_neg hk
  refine ⟨_, execHseRxTlp_taken hs hsrv ha hr true false, ?_⟩
  rw [hstream, if_pos (by exact hst), if_neg (not_not_intro rfl), if_neg Bool.false_ne_true, State.modHse_bump, State.alarmIntegrity_uncharged]
  exact ⟨rfl, rfl, rfl, rfl, rfl, rfl⟩

theorem execHseRxTlp_outside (macOk : Bool) (ho : e.stream (tlpStream kind) = 1 ∨ kind ≠ 0) :
    execHseRxTlp h kind false macOk false data s = done (s.begin.hseDrop h) := by
  rw [execHseRxTlp_taken hs hsrv ha hr]
  by_cases hst : e.stream (tlpStream kind) = 1
  · rw [if_pos hst, if_pos Bool.false_ne_true]
  · rw [if_neg hst, if_neg fun hk => ho.elim hst fun hne => hne hk.1]

end

end

/-! ### Crosscheck -/

theorem assocDel_assocSet {β : Type} (k : Nat) (v : β) (l : List (Nat × β)) : assocDel k (assocSet k v l) = assocDel k l := by
  induction l with
  | nil => simp [assocSet, assocDel]
  | cons p l ih =>
    obtain ⟨j, w⟩ := p
    unfold assocSet
    split
    · simp [assocDel]
    · split
      · next h => subst h; simp [assocDel]
      · simp only [assocDel] at ih ⊢
        rw [List.filter_cons, List.filter_cons, ih]

/-- The binding that XCK_BIND makes (R337). -/
def XckBinding.fresh (c : Call) (winA winB tiles mode k rate action : Nat) (kx : Bytes) : XckBinding :=
  { stall := c.stall, winA, winB, tiles, tolerance := mode = 1, k, rate, action := action = 1, kx,
    arrivals := [], waiting := [], compared := 0, mismatch := 0, unsampled := 0, unpaired := 0, raised := false }

/-- The binding joins the table under the next draw, and the command ends with its number. -/
def State.bindXck (c : Call) (winA winB tiles mode k rate action n : Nat) (s : State) : State :=
  let b := XckBinding.fresh c winA winB tiles mode k rate action (s.drawn 32)
  ({ s.tookDraw with xck := { s.xck with bindings := assocSet n b s.xck.bindings } }).finishOk c (leBytes 1 n)

section
variable {s : State} {c : Call} {winA winB tiles mode k rate action : Nat} (hc : s.admits c 0x0504) (ht : 0 < tiles) (ht' : tiles ≤ 4096)
  (hm : mode ≤ 1) (hr : rate ≤ 15) (ha : action ≤ 1)
include hc ht ht' hm hr ha

/-- With good arguments XCK_BIND takes the lowest free binding for windows that are the issuer's (R337). -/
theorem execXckBind_checked :
    execXckBind c winA winB tiles mode k rate action s = done (match firstFree s.xck.bindings 0 8 with
      | none => s.begin.finish c stXckFull
      | some n =>
        if winA % 4096 ≠ 0 ∨ winB % 4096 ≠ 0 ∨ ¬ windowsApart winA winB tiles ∨ ¬ s.ownsRange c.stall winA (winA + tiles * 4096) ∨
            ¬ s.ownsRange c.stall winB (winB + tiles * 4096) then s.begin.finish c stRegionState
        else s.begin.withEntropy c fun u => u.bindXck c winA winB tiles mode k rate action n) := by
  rw [execXckBind, State.command_run hc, if_neg (by omega), if_neg (by omega), if_neg (by omega), if_neg (by omega)]
  rfl

theorem execXckBind_full (hn : firstFree s.xck.bindings 0 8 = none) :
    execXckBind c winA winB tiles mode k rate action s = done (s.begin.finish c stXckFull) := by
  rw [execXckBind_checked hc ht ht' hm hr ha, hn]

theorem execXckBind_foreign (hn : (firstFree s.xck.bindings 0 8).isSome = true)
    (ho : s.ownsRange c.stall winA (winA + tiles * 4096) = false) :
    execXckBind c winA winB tiles mode k rate action s = done (s.begin.finish c stRegionState) := by
  obtain ⟨n, hn⟩ := Option.isSome_iff_exists.mp hn
  rw [execXckBind_checked hc ht ht' hm hr ha, hn]
  exact congrArg done (if_pos (by simp [ho]))

end

/-- The state in which a command that waited for entropy goes on. -/
def State.entropyCame (c : Call) (o : Obs) (s : State) : State :=
  { s with sbx := { s.sbx with entropyWaits := s.sbx.entropyWaits.filter fun w => w.call ≠ c }, obs := o }

/-- With entropy at hand a command goes on, with a wait for it over (R480). -/
theorem State.withEntropy_ready (c : Call) (body : State → State) {s : State} (h : s.sbx.entropyOk = true) :
    ∃ o, s.withEntropy c body = body (s.entropyCame c o) := by
  refine ⟨((s.entropyCame c s.obs).waitEnd 80 17 (some c.stall) 0).obs, (if_pos h).trans (congrArg body ?_)⟩
  exact State.waitEnd_frame ..

/-- XCK_BIND of windows that are the issuer's binds them under the next draw (R337). -/
theorem execXckBind_bound {s : State} {c : Call} {winA winB tiles mode k rate action n : Nat} (hc : s.admits c 0x0504) (ht : 0 < tiles)
    (ht' : tiles ≤ 4096) (hm : mode ≤ 1) (hr : rate ≤ 15) (ha : action ≤ 1) (hn : firstFree s.xck.bindings 0 8 = some n)
    (hwA : winA % 4096 = 0) (hwB : winB % 4096 = 0) (hap : windowsApart winA winB tiles = true)
    (hoA : s.ownsRange c.stall winA (winA + tiles * 4096) = true) (hoB : s.ownsRange c.stall winB (winB + tiles * 4096) = true)
    (he : s.sbx.entropyOk = true) :
    ∃ o, execXckBind c winA winB tiles mode k rate action s =
      done ((s.begin.entropyCame c o).bindXck c winA winB tiles mode k rate action n) := by
  obtain ⟨o, ho⟩ := State.withEntropy_ready (s := s.begin) c (State.bindXck c winA winB tiles mode k rate action n) he
  refine ⟨o, ?_⟩
  rw [execXckBind_checked hc ht ht' hm hr ha, hn]
  refine congrArg done ((if_neg ?_).trans ho)
  simp [hwA, hwB, hap, hoA, hoB]

theorem State.bindXck_frame (c : Call) (winA winB tiles mode k rate action n : Nat) (s : State) {t : State}
    (ht : s.bindXck c winA winB tiles mode k rate action n = t) :
    t = { s with
      xck := { s.xck with bindings := assocSet n (.fresh c winA winB tiles mode k rate action (s.drawn 32)) s.xck.bindings }
      fresh := s.fresh + 1, hlm := t.hlm, alr := t.alr, obs := t.obs } := by
  subst ht
  exact State.finishOk_frame ..

theorem State.bindXck_recorded (c : Call) (winA winB tiles mode k rate action n : Nat) {s : State} (hq : s.alr.quiet = false) :
    s.recorded (s.bindXck c winA winB tiles mode k rate action n) { c.record stOk with result := leBytes 1 n } :=
  State.finishOk_recorded c (leBytes 1 n)
    (s := { s.tookDraw with xck := { s.xck with bindings := assocSet n (.fresh c winA winB tiles mode k rate action (s.drawn 32)) s.xck.bindings } }) hq

theorem execXckUnbind_own {s : State} {c : Call} {n : Nat} {b : XckBinding} (hc : s.admits c 0x0505) (hb : assocGet n s.xck.bindings = some b)
    (hown : b.stall = c.stall) :
    execXckUnbind c n s = done (({ s.begin with xck := { s.xck with bindings := assocDel n s.xck.bindings } } : State).finish c stOk) := by
  rw [execXckUnbind, State.command_run hc]
  simp [hb, hown]

/-- The tile that has waited too long, if there is one, is dropped and counted (R341). -/
theorem execXckUnpairedTimeout_eq {s : State} {n : Nat} {b : XckBinding} (hb : assocGet n s.xck.bindings = some b) (hraised : b.raised = true)
    {w : XckTile} (hw : b.waiting.find? (fun w => s.expired w.since (s.cfg.engine.tXck * 1000)) = some w) :
    execXckUnpairedTimeout n s = done ((s.begin.modXck n fun x => { x with
      waiting := x.waiting.erase w, unpaired := satAdd 65535 x.unpaired 1, raised := true }).bump (ctrXck 4) 1) := by
  have hb' : assocGet n s.begin.xck.bindings = some b := hb
  have hw' : b.waiting.find? (fun w => s.begin.expired w.since (s.begin.cfg.engine.tXck * 1000)) = some w := hw
  simp only [execXckUnpairedTimeout, hb', hw', hraised, if_true]

theorem execXckUnpairedTimeout_none {s : State} {n : Nat} {b : XckBinding} (hb : assocGet n s.xck.bindings = some b)
    (hw : b.waiting.any (fun w => s.expired w.since (s.cfg.engine.tXck * 1000)) = false) : execXckUnpairedTimeout n s = done s.begin := by
  have hb' : assocGet n s.begin.xck.bindings = some b := hb
  have hw' : b.waiting.find? (fun w => s.begin.expired w.since (s.begin.cfg.engine.tXck * 1000)) = none :=
    List.find?_eq_none.mpr fun w h => List.any_eq_false.mp hw w h
  simp only [execXckUnpairedTimeout, hb', hw']

/-! ### The statement -/

/-- Settles O42: each clause is its command's lemma in the clause's one case. -/
theorem hostStreamsAndCrosscheck : Obligations.HostStreamsAndCrosscheck := by
  refine ⟨?txSecure, ?txInsecure, ?txQuiet, ?rxReleased, ?rxFailed, ?rxOutside, ?bind, ?bindRefused, ?unbind, ?noneLate, ?late⟩
  case txSecure =>
    intro s h kind data secured e x hs ho hr hh hst hx hn
    exact execHseTxTlp_secure hs ho hr hh secured hst hx hn
  case txInsecure =>
    intro s h kind data secured e hs ho hr hh hst
    exact execHseTxTlp_insecure hs ho hr hh secured hst
  case txQuiet =>
    intro s h kind data secured e hs hq
    exact execHseTxTlp_quiet hs secured hq
  case rxReleased =>
    intro s h kind data e x hs hsrv ha hr hst hx hn
    exact execHseRxTlp_released hs hsrv ha hr hst hx hn
  case rxFailed =>
    intro s h kind data e hs hsrv ha hr hk hst
    exact execHseRxTlp_failed hs hsrv ha hr hk hst
  case rxOutside =>
    intro s h kind data ok e hs hsrv ha hr ho
    exact ⟨_, execHseRxTlp_outside hs hsrv ha hr ok ho, rfl, rfl, rfl⟩
  case bind =>
    intro s c winA winB tiles mode k rate action n hc ht ht' hm hr ha hn hwA hwB hap hoA hoB he
    obtain ⟨o, hexec⟩ := execXckBind_bound (k := k) hc ht ht' hm hr ha hn hwA hwB hap hoA hoB he
    have hrec := State.bindXck_recorded c winA winB tiles mode k rate action n (s := s.begin.entropyCame c o) hc.1.2.2
    generalize htt : (s.begin.entropyCame c o).bindXck c winA winB tiles mode k rate action n = t at hexec hrec
    have hk := State.bindXck_frame _ _ _ _ _ _ _ _ _ _ htt
    have hxck : t.xck.bindings = assocSet n (.fresh c winA winB tiles mode k rate action (s.drawn 32)) s.xck.bindings := (congrArg (·.xck.bindings) hk :)
    refine ⟨t, hexec, ?_, ?_, ?_, (congrArg State.fresh hk :), hrec, (congrArg State.ldg hk :), (congrArg State.stl hk :),
      (congrArg (·.sbx.slots) hk :), (congrArg State.lse hk :)⟩
    · rw [hxck, assocGet_assocSet, if_pos rfl]; rfl
    · rw [hxck, assocGet_assocSet, if_pos rfl]; rfl
    · rw [hxck, assocDel_assocSet]
  case bindRefused =>
    intro s c winA winB tiles mode k rate action hc ht ht' hm hr ha
    exact ⟨fun hn => execXckBind_full hc ht ht' hm hr ha hn, fun hn ho => execXckBind_foreign hc ht ht' hm hr ha hn ho⟩
  case unbind =>
    intro s c n b hc hb hown
    have hrec := State.finish_recorded (s := { s.begin with xck := { s.xck with bindings := assocDel n s.xck.bindings } }) c stOk hc.1.2.2
    refine ⟨_, execXckUnbind_own hc hb hown, ?_, hrec, ?_⟩
    · rw [State.finish_frame]
    · rw [State.finish_frame]; rfl
  case noneLate =>
    intro s n b hb hw
    exact execXckUnpairedTimeout_none hb hw
  case late =>
    intro s n b w hb hw hraised
    exact ⟨_, execXckUnpairedTimeout_eq hb hraised hw, rfl, rfl⟩

end Sys2Proof.Machine

/-!
The register port (O54; spec/21_register_map.md R588 to R594, R599, spec/03_ports.md R77): what becomes of an access, what its answer
leaves unchanged, and the capture pairs.
-/

namespace Sys2Proof.Machine

/-! ### What becomes of an access -/

@[simp] theorem State.begin_regVerdict (s : State) (fn : Option Nat) (write : Bool) (a : Nat) :
    s.begin.regVerdict fn write a = s.regVerdict fn write a := rfl

theorem State.regVerdict_inReset {s : State} (fn : Option Nat) (write : Bool) (a : Nat) (h : s.rst.phase = .inReset) :
    s.regVerdict fn write a = .waits := if_pos h

theorem State.regVerdict_noRegister {s : State} {fn a : Nat} (write : Bool) (hp : s.rst.phase ≠ .inReset) (hr : s.readReg fn a = none) :
    s.regVerdict (some fn) write a = .nothing := by
  simp [State.regVerdict, hp, hr]

theorem State.regVerdict_denied {s : State} {fn a : Nat} {write : Bool} (hp : s.rst.phase ≠ .inReset) (hr : (s.readReg fn a).isSome = true)
    (hd : s.dead = false) (ha : s.mayAccess fn write a = false) : s.regVerdict (some fn) write a = .denied := by
  have hn : ¬ s.readReg fn a = none := Option.isSome_iff_ne_none.mp hr
  simp [State.regVerdict, hp, hn, hd, ha]

theorem State.dead_service {s : State} (h : s.rst.phase = .service) : s.dead = false := by simp [State.dead, h]

/-- REG_AUTH decides in service, outside the load and with an Almanac (R592). -/
theorem State.grants_mayAccess {s : State} {fn a : Nat} {write : Bool} (h : s.grants fn write a) : s.mayAccess fn write a = true := by
  obtain ⟨-, hb, hn, ha⟩ := h
  simp [State.mayAccess, hb, hn, ha]

theorem State.regVerdict_served {s : State} {fn a : Nat} {write : Bool} (hg : s.grants fn write a) (hr : (s.readReg fn a).isSome = true)
    (ho : helmOwned a = false) : s.regVerdict (some fn) write a = .served := by
  have hp : s.rst.phase = .service := hg.1
  have hn : ¬ s.readReg fn a = none := Option.isSome_iff_ne_none.mp hr
  simp [State.regVerdict, hp, hn, State.dead_service hp, State.grants_mayAccess hg, ho]

/-! ### The answer -/

/-- An answer at the port is one output and its counts. -/
theorem State.regAnswer_function (s : State) (fn : Nat) (denied : Bool) (v : Nat) :
    s.regAnswer (some fn) denied v =
      { s with out := s.out ++ [.reg denied (BitVec.ofNat 32 v)], obs := (s.obs.bump 12 1).bump 13 (bit denied) } := rfl

theorem State.regWrite_served {s : State} {fn a : Nat} (data : Nat) (h : s.regVerdict (some fn) true a = .served) :
    s.regWrite (some fn) a data = (s.writeReg (some fn) a (BitVec.ofNat 32 data)).regAnswer (some fn) false 0 := by
  rw [State.regWrite, h]

/-- No line of the Ledger is waited for: the read is answered at once. -/
theorem State.regRead_served {s : State} {fn a v : Nat} (h : s.regVerdict (some fn) false a = .served) (hv : s.readReg fn a = some v)
    (hl : a ≠ 0x060030) : s.regRead (some fn) a =
      (if a = 0x020014 then (s.capturing a).nextSetWord else s.capturing a).regAnswer (some fn) false v := by
  simp [State.regRead, h, State.serveRead, hl, hv]

/-! ### Capture pairs -/

/-- The addresses of the _LO registers (R117, R591). -/
def loAddresses : List Nat :=
  [0x000010, 0x010008, 0x010010, 0x060010, 0x060030, 0x060040, 0x0D0004, 0x0D0018, 0x0D0020, 0x0D0070, 0x110010]

theorem State.pairValue_mem {s : State} {a : Nat} (h : (s.pairValue a).isSome = true) : a ∈ loAddresses := by
  unfold State.pairValue at h
  split at h
  case h_12 => simp at h
  all_goals simp [loAddresses]

/-- A _HI register stands in the window of its _LO register. -/
theorem loAddresses_window : ∀ a ∈ loAddresses, (a + 4) / 2 ^ 16 = a / 2 ^ 16 := by decide

/-- A _HI register is no _LO register. -/
theorem loAddresses_apart : ∀ a ∈ loAddresses, a + 4 ∉ loAddresses := by decide

theorem loAddresses_plain : ∀ a ∈ loAddresses, helmOwned a = false ∧ a ≠ 0x020014 := by decide

theorem State.pairValue_hi {s : State} {a : Nat} (h : a ∈ loAddresses) : s.pairValue (a + 4) = none := by
  by_contra hn
  exact loAddresses_apart a h (State.pairValue_mem (Option.isSome_iff_ne_none.mpr hn))

/-- Only XS_STY_ENERGY can be missing from a build. -/
theorem State.pairValue_isSome_congr {s t : State} (h : t.build = s.build) (a : Nat) :
    (t.pairValue a).isSome = (s.pairValue a).isSome := by
  unfold State.pairValue
  split
  case h_11 => rw [h]; split <;> simp only [Option.isSome_some, Option.isSome_none]
  all_goals simp only [Option.isSome_some, Option.isSome_none]

theorem State.readReg_lo {s : State} {a v : Nat} (fn : Nat) (hw : s.build.window (a / 2 ^ 16) = true) (hv : s.pairValue a = some v) :
    s.readReg fn a = some (v % 2 ^ 32) := by
  simp only [State.readReg, hw, hv, not_true_eq_false, if_false]

/-- A _HI register reads the captured word. -/
theorem State.readReg_hi {s : State} {a v : Nat} (fn : Nat) (hw : s.build.window (a / 2 ^ 16) = true) (hv : s.pairValue a = some v) :
    s.readReg fn (a + 4) = some (s.cap.word a).toNat := by
  have hm : a ∈ loAddresses := State.pairValue_mem (Option.isSome_of_eq_some hv)
  unfold State.readReg
  rw [loAddresses_window a hm, hw, State.pairValue_hi hm, Nat.add_sub_cancel, hv]
  rfl

@[simp] theorem Captures.word_take (a : Nat) (w : Word) (c : Captures) : (c.take a w).word a = w := by
  unfold Captures.take
  split
  case h_11 => unfold Captures.word; split <;> simp_all
  all_goals rfl

theorem State.capturing_none {s : State} {a : Nat} (h : s.pairValue a = none) : s.capturing a = s := by simp [State.capturing, h]

theorem State.capturing_some {s : State} {a v : Nat} (h : s.pairValue a = some v) :
    s.capturing a = { s with cap := s.cap.take a (BitVec.ofNat 32 (hiWord v)) } := by simp [State.capturing, h]

/-! ### Writes -/

theorem fieldOf_ofNat {n : Nat} (data : Nat) (h : n ≤ 32) : fieldOf (BitVec.ofNat 32 data) 0 n = BitVec.ofNat n data := by
  simp [fieldOf, BitVec.setWidth_ofNat_of_le h]

theorem getLsbD_ofNat_word {data i : Nat} (h : i < 32) : (BitVec.ofNat 32 data).getLsbD i = data.testBit i := by
  rw [BitVec.getLsbD_ofNat, decide_eq_true h, Bool.true_and]

/-! ### The commands -/

theorem execCapturePairRead_unanswered {s : State} {fn addr : Nat} (h : s.regVerdict (some fn) false (regAddr addr) = .waits) :
    execCapturePairRead fn addr s = .next s.begin := by
  rw [execCapturePairRead, State.regRead, State.begin_regVerdict, h]; rfl

theorem execRegisterWrite_unanswered {s : State} {fn addr : Nat} (data : Nat) (h : s.regVerdict (some fn) true (regAddr addr) = .waits) :
    execRegisterWrite fn addr data s = .next s.begin := by
  rw [execRegisterWrite, State.regWrite, State.begin_regVerdict, h]; rfl

theorem execCapturePairRead_noRegister {s : State} {fn addr : Nat} (h : s.regVerdict (some fn) false (regAddr addr) = .nothing) :
    execCapturePairRead fn addr s = .next { s with out := [.reg false 0], obs := (s.obs.bump 12 1).bump 13 0 } := by
  rw [execCapturePairRead, State.regRead, State.begin_regVerdict, h]; rfl

theorem execRegisterWrite_noRegister {s : State} {fn addr : Nat} (data : Nat) (h : s.regVerdict (some fn) true (regAddr addr) = .nothing) :
    execRegisterWrite fn addr data s = .next { s with out := [.reg false 0], obs := (s.obs.bump 12 1).bump 13 0 } := by
  rw [execRegisterWrite, State.regWrite, State.begin_regVerdict, h]; rfl

theorem execCapturePairRead_denied {s : State} {fn addr : Nat} (h : s.regVerdict (some fn) false (regAddr addr) = .denied) :
    execCapturePairRead fn addr s = .next { s with out := [.reg true 0], obs := (s.obs.bump 12 1).bump 13 1 } := by
  rw [execCapturePairRead, State.regRead, State.begin_regVerdict, h]; rfl

theorem execRegisterWrite_denied {s : State} {fn addr : Nat} (data : Nat) (h : s.regVerdict (some fn) true (regAddr addr) = .denied) :
    execRegisterWrite fn addr data s = .next { s with out := [.reg true 0], obs := (s.obs.bump 12 1).bump 13 1 } := by
  rw [execRegisterWrite, State.regWrite, State.begin_regVerdict, h]; rfl

/-- A granted read answers the register; XS_ALD_SETDATA advances its selector, a _LO register captures. -/
theorem State.begin_regRead_granted {s : State} {fn a v : Nat} (hg : s.grants fn false a) (hv : s.readReg fn a = some v)
    (ho : helmOwned a = false) (hl : a ≠ 0x060030) : s.begin.regRead (some fn) a =
      (if a = 0x020014 then (s.begin.capturing a).nextSetWord else s.begin.capturing a).regAnswer (some fn) false v :=
  State.regRead_served (State.regVerdict_served hg (Option.isSome_of_eq_some hv) ho) hv hl

/-- A granted write is carried out and answered with data 0. -/
theorem State.begin_regWrite_granted {s : State} {fn a v : Nat} (data : Nat) (hg : s.grants fn true a) (hv : s.readReg fn a = some v)
    (ho : helmOwned a = false) : s.begin.regWrite (some fn) a data =
      (s.begin.writeReg (some fn) a (BitVec.ofNat 32 data)).regAnswer (some fn) false 0 :=
  State.regWrite_served data (State.regVerdict_served hg (Option.isSome_of_eq_some hv) ho)

theorem execCapturePairRead_plain {s : State} {fn addr v : Nat} (hg : s.grants fn false (regAddr addr))
    (hv : s.readReg fn (regAddr addr) = some v) (hp : s.pairValue (regAddr addr) = none) (hs : regAddr addr ≠ 0x020014)
    (ho : helmOwned (regAddr addr) = false) : execCapturePairRead fn addr s =
      .next { s with out := [.reg false (BitVec.ofNat 32 v)], obs := (s.obs.bump 12 1).bump 13 0 } := by
  have hl : regAddr addr ≠ 0x060030 := fun h => by rw [h] at hp; cases hp
  rw [execCapturePairRead, State.begin_regRead_granted hg hv ho hl, if_neg hs, State.capturing_none (s := s.begin) hp]
  rfl

theorem execCapturePairRead_lo {s : State} {fn addr v : Nat} (hg : s.grants fn false (regAddr addr))
    (hw : s.build.window (regAddr addr / 2 ^ 16) = true) (hv : s.pairValue (regAddr addr) = some v) (hl : regAddr addr ≠ 0x060030) :
    execCapturePairRead fn addr s = .next { s with
      out := [.reg false (BitVec.ofNat 32 (v % 2 ^ 32))]
      cap := s.cap.take (regAddr addr) (BitVec.ofNat 32 (hiWord v))
      obs := (s.obs.bump 12 1).bump 13 0 } := by
  obtain ⟨ho, hs⟩ := loAddresses_plain _ (State.pairValue_mem (Option.isSome_of_eq_some hv))
  rw [execCapturePairRead, State.begin_regRead_granted hg (State.readReg_lo fn hw hv) ho hl, if_neg hs,
    State.capturing_some (s := s.begin) hv]
  rfl

/-- The selector of Settings words with WORD one on. -/
def nextSetSel (v : BitVec 18) : BitVec 18 := BitVec.ofNat 18 (v.toNat % 256 + (v.toNat / 256 + 1) % 1024 * 256)

theorem nextSetSel_toNat (v : BitVec 18) : (nextSetSel v).toNat = v.toNat % 256 + (v.toNat / 256 + 1) % 1024 * 256 := by
  rw [nextSetSel, BitVec.toNat_ofNat]
  omega

theorem State.nextSetWord_eq (s : State) : s.nextSetWord = { s with ald := { s.ald with setSel := nextSetSel s.ald.setSel } } := rfl

theorem execSettingsDataAccess_read {s : State} {fn v : Nat} (data : Nat) (hg : s.grants fn false 0x020014)
    (hv : s.readReg fn 0x020014 = some v) : execSettingsDataAccess fn false data s = .next { s with
      out := [.reg false (BitVec.ofNat 32 v)]
      ald := { s.ald with setSel := nextSetSel s.ald.setSel }
      obs := (s.obs.bump 12 1).bump 13 0 } := by
  have hp : s.begin.capturing 0x020014 = s.begin := State.capturing_none rfl
  rw [execSettingsDataAccess, if_neg Bool.false_ne_true, State.begin_regRead_granted hg hv rfl (by decide), if_pos rfl, hp,
    State.nextSetWord_eq, State.regAnswer_function]
  rfl

/-- The Settings words staged once a word is staged at the selector. -/
def Ald.stagedWith (a : Ald) (w : Word) : List (Nat × Nat × Nat × Word) :=
  a.staged.filter (fun x => !decide (x.1 = a.setSel.toNat % 4 ∧ x.2.1 = a.setSel.toNat / 4 % 64 ∧ x.2.2.1 = a.setSel.toNat / 256)) ++
    [(a.setSel.toNat % 4, a.setSel.toNat / 4 % 64, a.setSel.toNat / 256, w)]

theorem State.stageWord_eq {s : State} (w : Word) (h : s.ald.setSel.toNat % 4 ≠ 3) :
    s.stageWord w = { s with ald := { s.ald with staged := s.ald.stagedWith w } } := by
  rw [State.stageWord, if_neg h]; rfl

theorem State.writeReg_setData (s : State) (fn : Option Nat) (w : Word) : s.writeReg fn 0x020014 w = (s.stageWord w).nextSetWord := rfl

theorem State.writeReg_irqEnable (s : State) (fn : Option Nat) (w : Word) :
    s.writeReg fn 0x000024 w = { s with hlm := { s.hlm with irqEnable := fieldOf w 0 4 } } := rfl

theorem State.writeReg_irqStatus (s : State) (fn : Option Nat) (w : Word) : s.writeReg fn 0x000020 w = { s with
    hlm := { s.hlm with
      irqComp := s.hlm.irqComp && !w.getLsbD 0
      irqAlarm := s.hlm.irqAlarm && !w.getLsbD 2
      irqUrgent := s.hlm.irqUrgent && !w.getLsbD 3 } } := rfl

theorem State.writeReg_stlSel (s : State) (fn : Option Nat) (w : Word) :
    s.writeReg fn 0x080008 w = { s with stl := { s.stl with sel := fieldOf w 0 12 } } := rfl

theorem execSettingsDataAccess_write {s : State} {fn : Nat} (data : Nat) (hg : s.grants fn true 0x020014)
    (hk : s.ald.setSel.toNat % 4 ≠ 3) : execSettingsDataAccess fn true data s = .next { s with
      out := [.reg false 0]
      ald := { s.ald with staged := s.ald.stagedWith (BitVec.ofNat 32 data), setSel := nextSetSel s.ald.setSel }
      obs := (s.obs.bump 12 1).bump 13 0 } := by
  have hv : s.readReg fn 0x020014 = some s.setWord := rfl
  rw [execSettingsDataAccess, if_pos rfl, State.begin_regWrite_granted data hg hv rfl, State.writeReg_setData,
    State.stageWord_eq (s := s.begin) _ hk, State.nextSetWord_eq, State.regAnswer_function]
  rfl

/-- A granted write of a register that Helm does not own. -/
theorem execRegisterWrite_granted {s : State} {fn addr v : Nat} (data : Nat) (hg : s.grants fn true (regAddr addr))
    (hv : s.readReg fn (regAddr addr) = some v) (ho : helmOwned (regAddr addr) = false) : execRegisterWrite fn addr data s =
      .next ((s.begin.writeReg (some fn) (regAddr addr) (BitVec.ofNat 32 data)).regAnswer (some fn) false 0) := by
  rw [execRegisterWrite, State.begin_regWrite_granted data hg hv ho, done]

theorem execRegisterWrite_irqEnable {s : State} {fn : Nat} (data : Nat) (hg : s.grants fn true 0x000024) :
    execRegisterWrite fn 0x000024 data s = .next { s with
      out := [.reg false 0]
      hlm := { s.hlm with irqEnable := BitVec.ofNat 4 data }
      obs := (s.obs.bump 12 1).bump 13 0 } := by
  have ha : regAddr 0x000024 = 0x000024 := rfl
  have hv : s.readReg fn (regAddr 0x000024) = some s.hlm.irqEnable.toNat := rfl
  rw [execRegisterWrite_granted data hg hv rfl, ha, State.writeReg_irqEnable, fieldOf_ofNat data (by decide), State.regAnswer_function]
  rfl

theorem execRegisterWrite_irqStatus {s : State} {fn : Nat} (data : Nat) (hg : s.grants fn true 0x000020) :
    execRegisterWrite fn 0x000020 data s = .next { s with
      out := [.reg false 0]
      hlm := { s.hlm with
        irqComp := s.hlm.irqComp && !data.testBit 0
        irqAlarm := s.hlm.irqAlarm && !data.testBit 2
        irqUrgent := s.hlm.irqUrgent && !data.testBit 3 }
      obs := (s.obs.bump 12 1).bump 13 0 } := by
  have ha : regAddr 0x000020 = 0x000020 := rfl
  have hv : s.readReg fn (regAddr 0x000020) = some (pack [(4, s.irqPending), gap 4, (4, s.irqLines)]) := rfl
  rw [execRegisterWrite_granted data hg hv rfl, ha, State.writeReg_irqStatus, getLsbD_ofNat_word (by decide),
    getLsbD_ofNat_word (by decide), getLsbD_ofNat_word (by decide), State.regAnswer_function]
  rfl

theorem execRegisterWrite_stlSel {s : State} {fn : Nat} (data : Nat) (hg : s.grants fn true 0x080008) :
    execRegisterWrite fn 0x080008 data s = .next { s with
      out := [.reg false 0]
      stl := { s.stl with sel := BitVec.ofNat 12 data }
      obs := (s.obs.bump 12 1).bump 13 0 } := by
  have ha : regAddr 0x080008 = 0x080008 := rfl
  have hv : s.readReg fn (regAddr 0x080008) = some s.stl.sel.toNat := rfl
  rw [execRegisterWrite_granted data hg hv rfl, ha, State.writeReg_stlSel, fieldOf_ofNat data (by decide), State.regAnswer_function]
  rfl

/-! ### The statement -/

/-- Settles O54: each clause is its access's lemma, granted or not as the verdict says. -/
theorem registerAccesses : Obligations.RegisterAccesses := by
  refine ⟨?inReset, ?noRegister, ?readDenied, ?writeDenied, ?plain, ?lo, ?irqEnable, ?irqStatus, ?selector, ?stage, ?readSetting⟩
  case inReset =>
    intro s fn addr data hp
    exact ⟨execCapturePairRead_unanswered (State.regVerdict_inReset _ _ _ hp),
      execRegisterWrite_unanswered data (State.regVerdict_inReset _ _ _ hp)⟩
  case noRegister =>
    intro s fn addr data hp hr
    exact ⟨_, execRegisterWrite_noRegister data (State.regVerdict_noRegister true hp hr),
      execCapturePairRead_noRegister (State.regVerdict_noRegister false hp hr), rfl⟩
  case readDenied =>
    intro s fn addr hp hr hd ha
    exact ⟨_, execCapturePairRead_denied (State.regVerdict_denied hp hr hd ha), rfl⟩
  case writeDenied =>
    intro s fn addr data hp hr hd ha
    exact ⟨_, execRegisterWrite_denied data (State.regVerdict_denied hp hr hd ha), rfl⟩
  case plain =>
    intro s fn addr v hg hv hp hs ho
    exact ⟨_, execCapturePairRead_plain hg hv hp hs ho, rfl⟩
  case lo =>
    intro s fn addr v hg hv hw hl hlt
    have hhi : hiWord v = v / 2 ^ 32 := by unfold hiWord; omega
    have hlow : BitVec.ofNat 32 (v % 2 ^ 32) = BitVec.ofNat 32 v := by
      apply BitVec.eq_of_toNat_eq; simp
    have hexec := execCapturePairRead_lo hg hw hv hl
    rw [hhi, hlow] at hexec
    refine ⟨_, hexec, rfl, ?_, rfl⟩
    generalize ht : ({ s with
      out := [.reg false (BitVec.ofNat 32 v)]
      cap := s.cap.take (regAddr addr) (BitVec.ofNat 32 (v / 2 ^ 32))
      obs := (s.obs.bump 12 1).bump 13 0 } : State) = t
    have hb : t.build = s.build := by rw [← ht]
    have hcap : t.cap = s.cap.take (regAddr addr) (BitVec.ofNat 32 (v / 2 ^ 32)) := by rw [← ht]
    obtain ⟨u, hu⟩ : ∃ u, t.pairValue (regAddr addr) = some u :=
      Option.isSome_iff_exists.mp ((State.pairValue_isSome_congr hb _).trans (Option.isSome_of_eq_some hv))
    rw [State.readReg_hi fn (by rw [hb]; exact hw) hu, hcap, Captures.word_take, BitVec.toNat_ofNat, Nat.mod_eq_of_lt (by omega)]
  case irqEnable =>
    intro s fn data hg
    exact ⟨_, execRegisterWrite_irqEnable data hg, rfl, rfl⟩
  case irqStatus =>
    intro s fn data hg _
    exact ⟨_, execRegisterWrite_irqStatus data hg, rfl, rfl⟩
  case selector =>
    intro s fn data hg _
    exact ⟨_, execRegisterWrite_stlSel data hg, rfl, rfl⟩
  case stage =>
    intro s fn data kind serial word hg hk hs hw hlt _
    subst hk hs hw
    exact ⟨_, execSettingsDataAccess_write data hg (by omega), rfl, nextSetSel_toNat _, rfl⟩
  case readSetting =>
    intro s fn data v hg hv
    exact ⟨_, execSettingsDataAccess_read data hg hv, rfl, nextSetSel_toNat _, rfl⟩

end Sys2Proof.Machine

/-!
Units over a link, and domain time (O45).

What a unit that is sent changes is said once, for every unit: beside the LSE itself, the slots its keys are held in, what leaves such a
slot, counters, bytes metered and an event. Where the LSE carries the unit, that LSE is `Lse.sent`.
-/

namespace Sys2Proof.Machine

/-! ### The slots of a link's keys -/

/-- From `s` to `t` only key slots, the uses saved when a key leaves its slot, and counters differ. -/
def OnlySlots (s t : State) : Prop := t = { s with sbx := t.sbx, stl := { s.stl with data := t.stl.data }, obs := t.obs }

theorem OnlySlots.trans {s t u : State} (h : OnlySlots s t) (k : OnlySlots t u) : OnlySlots s u := by
  unfold OnlySlots at *
  rw [k, h]

theorem State.modStallData_slots (id : Nat) (f : StallData → StallData) (s : State) : OnlySlots s (s.modStallData id f) := by
  unfold State.modStallData
  split <;> rfl

theorem State.evict_slots (n : Nat) (s : State) : OnlySlots s (s.evict n) := by
  unfold State.evict
  split
  · rfl
  · exact (s.modStallData_slots _ _).trans rfl

theorem State.placeKey_slots {k : KeySlot} {s t : State} (h : s.placeKey k = some t) : OnlySlots s t := by
  unfold State.placeKey at h
  split at h
  · cases h; rfl
  · obtain ⟨n, -, rfl⟩ := Option.map_eq_some_iff.mp h
    exact (s.evict_slots n).trans rfl

/-- A key that finds no slot leaves the state. -/
theorem State.placeKey_getD_slots (k : KeySlot) (s : State) : OnlySlots s ((s.placeKey k).getD s) := by
  cases h : s.placeKey k with
  | none => rfl
  | some t => exact State.placeKey_slots h

theorem State.pinLink_slots (h : Nat) (want : Option (Nat × Bytes)) (s : State) : OnlySlots s (s.pinLink h want) := by
  unfold State.pinLink
  dsimp only
  split
  · rfl
  · split
    · rfl
    next p w _ _ =>
      exact OnlySlots.trans (t := { s with sbx := { s.sbx with slots := s.sbx.slots.filter fun q => !decide (q.2.handle = h) } }) rfl
        (State.placeKey_getD_slots _ _)
  · rfl
  · exact State.placeKey_getD_slots _ _

theorem State.syncLink_slots (i : Nat) (s : State) : OnlySlots s (s.syncLink i) := by
  unfold State.syncLink
  split
  · rfl
  · exact (((State.pinLink_slots ..).trans (State.pinLink_slots ..)).trans (State.pinLink_slots ..)).trans (State.pinLink_slots ..)

/-! ### A unit sent (R321, R324, R328) -/

/-- From `s` to `t` only LSEs, key slots, the uses saved from them, counters, bytes metered, and Helm's events differ. -/
def OnlySent (s t : State) : Prop :=
  t = { s with lse := t.lse, sbx := t.sbx, stl := { s.stl with data := t.stl.data }, obs := t.obs, sty := t.sty, hlm := t.hlm }

theorem OnlySent.trans {s t u : State} (h : OnlySent s t) (k : OnlySent t u) : OnlySent s u := by
  unfold OnlySent at *
  rw [k, h]

theorem OnlySlots.sent {s t : State} (h : OnlySlots s t) : OnlySent s t := by
  unfold OnlySlots at h
  unfold OnlySent
  rw [h]

theorem OnlySent.ite {s t u : State} {c : Prop} [Decidable c] (ht : OnlySent s t) (hu : OnlySent s u) : OnlySent s (if c then t else u) := by
  split <;> assumption

theorem State.meter_sent (cls stall n : Nat) (s : State) : OnlySent s (s.meter cls stall n) := by
  unfold State.meter
  split <;> rfl

theorem State.sendUnit_sent (i : Nat) (u : UnitSpec) (s : State) : OnlySent s (s.sendUnit i u) := by
  unfold State.sendUnit
  split
  · rfl
  next l _ =>
    extract_lets _ _ _ _ _ _ _ sent counted metered control
    refine .ite rfl ?_
    have hsent : OnlySent s sent := OnlySent.trans (t := s.modLse i _) rfl (State.syncLink_slots _ _).sent
    have hcounted : OnlySent s counted := .ite (hsent.trans rfl) hsent
    have hmetered : OnlySent s metered := by
      unfold metered
      split
      · exact hcounted.trans (State.meter_sent ..)
      · exact hcounted
    have hcontrol : OnlySent s control := .ite (hmetered.trans rfl) hmetered
    exact .ite (hcontrol.trans rfl) hcontrol

theorem State.syncLink_lse (i : Nat) (s : State) : (s.syncLink i).lse = s.lse := (congrArg State.lse (s.syncLink_slots i) :)

theorem State.meter_lse (cls stall n : Nat) (s : State) : (s.meter cls stall n).lse = s.lse := by rw [State.meter_frame]

/-- An LSE that carries the unit has it in its transmit buffer, sealed. -/
theorem State.sendUnit_carried {i : Nat} {u : UnitSpec} {s : State} {e : Lse} (hl : s.lse[i]? = some e) (hc : e.carries u) :
    (s.sendUnit i u).lse[i]? = some (e.sent s.dom.chip i u) := by
  obtain ⟨hkeyed, hnext, hworn⟩ := hc
  have hlse : (s.sendUnit i u).lse = listSet s.lse i fun l => { l with
      tx := e.tx.count u.tc (e.tx.seq.getD u.tc 0 + 1) u.data.length, txNext := none, wantTx := l.wantTx
      txBuf := l.txBuf ++ [{ bytes := e.sealed s.dom.chip i u, stall := u.stall, outId := u.outId, ctrl := decide (u.kind = 7) }] } := by
    unfold State.sendUnit
    simp only [hl, hkeyed, hnext, hworn, Option.getD_none, not_true_eq_false, if_false, Bool.false_and, Bool.false_eq_true, Option.isSome_none,
      Bool.or_false]
    cases u.stall <;> split <;>
      simp only [State.bump_lse, State.meter_lse, State.syncLink_lse, State.modLse_lse] <;> rfl
  rw [hlse, getElem?_listSet_self _ hl, ← hnext]
  rfl

/-- What a unit that is sent leaves of the block's time, domain, memory and Stalls. -/
theorem OnlySent.keeps {s t : State} (h : OnlySent s t) :
    t.dom = s.dom ∧ t.out = s.out ∧ t.clk = s.clk ∧ t.ldg = s.ldg ∧ t.mse = s.mse ∧ t.stl.table = s.stl.table := by
  rw [h]
  exact ⟨rfl, rfl, rfl, rfl, rfl, rfl⟩

/-! ### Control units -/

/-- The state in which a control unit has left the receive buffer of its LSE. -/
def State.takeControl (l : Nat) (u : RxUnit) (s : State) : State := s.begin.modLse l fun x => { x with rxBuf := x.rxBuf.eraseP (· = u) }

/-- Outside the quiet state the first control unit of the subtype is taken. -/
theorem onControl_taken {l sub : Nat} {s : State} {e : Lse} {u : RxUnit} (act : RxUnit → State → State) (hl : s.lse[l]? = some e)
    (hq : s.alr.quiet = false) (hu : e.rxBuf.find? (fun u => u.kind = 7 ∧ u.sub = sub) = some u) :
    onControl l sub s act = done (act u (s.takeControl l u)) := by
  simp only [onControl, State.takeControl, hl, State.begin_alr, hq, hu, Bool.false_eq_true, if_false]

theorem State.takeControl_lse {l : Nat} {u : RxUnit} {s : State} {e : Lse} (hl : s.lse[l]? = some e) :
    (s.takeControl l u).lse[l]? = some { e with rxBuf := e.rxBuf.eraseP (· = u) } :=
  getElem?_listSet_self (l := s.lse) _ hl

/-! ### Probes and replies (R376) -/

/-- A probe that is due leaves, with its stamp kept. -/
theorem execTimeProbeSend_due {s : State} {e : Lse} (t1 : Nat) (hj : s.dom.joined = true) (hg : s.dom.gm = false)
    (hdue : ((s.dom.probeAt.map fun a => s.expired a 1000000).getD true) = true) (hl : s.lse[s.dom.timeParent]? = some e)
    (hu : e.usable = true) (hq : s.alr.quiet = false) :
    execTimeProbeSend t1 s = done (({ s.begin with dom := { s.dom with probeAt := some s.clk.elapsed, probe := some t1 } } : State).sendUnit
      s.dom.timeParent (ctrlUnit 13 [])) := by
  have hdue' : ((s.dom.probeAt.map fun a => s.begin.expired a 1000000).getD true) = true := hdue
  simp [execTimeProbeSend, hj, hg, hdue', hl, hu, hq]

/-- The grandmaster sends no probe, and another chip none within a millisecond of its last. -/
theorem execTimeProbeSend_idle {s : State} {a : Nat} (t1 : Nat)
    (h : s.dom.gm = true ∨ (s.dom.probeAt = some a ∧ s.clk.elapsed < a + 1000000)) : execTimeProbeSend t1 s = done s.begin := by
  rcases h with hg | ⟨ha, hlt⟩
  · simp [execTimeProbeSend, hg]
  · have hdue : s.begin.expired a 1000000 = false := decide_eq_false (Nat.not_le.mpr hlt)
    simp [execTimeProbeSend, ha, hdue]

/-- The state in which an anchored chip sends its reply: the probe taken and the stamp of this reply kept for the next. -/
def State.replying (l t3 : Nat) (u : RxUnit) (s : State) : State :=
  { s.takeControl l u with dom := { s.dom with replies := assocSet l t3 s.dom.replies } }

theorem execTimeProbeReceive_anchored {s : State} {l : Nat} {e : Lse} {u : RxUnit} (t2 t3 : Nat) (hl : s.lse[l]? = some e)
    (hq : s.alr.quiet = false) (hu : e.rxBuf.find? (fun u => u.kind = 7 ∧ u.sub = 13) = some u) (ha : s.clk.anchored = true) :
    execTimeProbeReceive l t2 t3 s =
      done ((s.replying l t3 u).sendUnit l (ctrlUnit 14 (leBytes 8 t2 ++ leBytes 8 ((assocGet l s.dom.replies).getD 0)))) := by
  rw [execTimeProbeReceive, onControl_taken _ hl hq hu]
  exact congrArg done (if_neg (not_not_intro ha))

/-- The state in which a reply has brought its stamps, which complete the probe and are kept for the next reply. -/
def State.stamped (l t4 : Nat) (u : RxUnit) (s : State) : State :=
  { s.takeControl l u with dom := { s.dom with probe := none, prev := s.dom.probe.map fun t1 => (t1, leField u.payload 0 8, t4) } }

section
variable {s : State} {l t4 : Nat} {e : Lse} {u : RxUnit} (hl : s.lse[l]? = some e) (hq : s.alr.quiet = false)
  (hu : e.rxBuf.find? (fun u => u.kind = 7 ∧ u.sub = 14) = some u) (hp : l = s.dom.timeParent) (hg : s.dom.gm = false)
  (hn : u.payload.length = 16)
include hl hq hu hp hg hn

/-- A reply from the time parent is measured where the stamps of the probe before are held. -/
theorem execTimeReplyReceive_taken :
    execTimeReplyReceive l t4 s = done (match s.dom.prev with
      | none => s.stamped l t4 u
      | some (a1, a2, a4) => (s.stamped l t4 u).timeMeasured (timeOffset a1 a2 (leField u.payload 8 8) a4)) := by
  have hno : ¬ (l ≠ s.dom.timeParent ∨ s.dom.gm = true ∨ u.payload.length ≠ 16) := by simp [hp, hg, hn]
  rw [execTimeReplyReceive, onControl_taken _ hl hq hu]
  exact congrArg done (if_neg hno)

theorem execTimeReplyReceive_first (hprev : s.dom.prev = none) : execTimeReplyReceive l t4 s = done (s.stamped l t4 u) := by
  rw [execTimeReplyReceive_taken hl hq hu hp hg hn, hprev]

theorem execTimeReplyReceive_measured {a1 a2 a4 : Nat} (hprev : s.dom.prev = some (a1, a2, a4)) :
    execTimeReplyReceive l t4 s = done ((s.stamped l t4 u).timeMeasured (timeOffset a1 a2 (leField u.payload 8 8) a4)) := by
  rw [execTimeReplyReceive_taken hl hq hu hp hg hn, hprev]

end

/-! ### A measured offset (R99, R100) -/

/-- The offset is kept with the time of its measurement; beside the domain only the clocks and Helm's events differ. -/
theorem State.timeMeasured_eq (off : Int) (s : State) :
    s.timeMeasured off = { s with
      dom := { s.dom with offset := off, lastOffset := some s.clk.elapsed, unlockRaised := false }
      clk := (s.timeMeasured off).clk, hlm := (s.timeMeasured off).hlm } := by
  unfold State.timeMeasured
  dsimp only
  split
  · rfl
  · split <;> rfl

/-- The first offset anchors domain time with a step. -/
theorem State.timeMeasured_step {s : State} (off : Int) (h : s.clk.anchored = false) :
    (s.timeMeasured off).clk = { s.clk with domain := ((s.clk.domain : Int) + off / 1000).toNat, anchored := true, slew := 0 } ∧
      (s.timeMeasured off).hlm = s.hlm := by
  unfold State.timeMeasured
  dsimp only
  rw [if_pos (by simp [h])]
  exact ⟨rfl, rfl⟩

/-- A later offset is slewed away, and moves TIME_UNLOCK. -/
theorem State.timeMeasured_slew {s : State} (off : Int) (h : s.clk.anchored = true) :
    (s.timeMeasured off).clk = { s.clk with
      slew := off / 1000, timeUnlock := (s.clk.timeUnlock || decide (1000000 < off.natAbs)) && !decide (off.natAbs < 100000) } := by
  unfold State.timeMeasured
  dsimp only
  rw [if_neg (by simp [h])]
  split <;> rfl

/-- A reply that is measured leaves all but the domain, the LSEs, the clocks and Helm's events. -/
theorem State.stamped_timeMeasured {off : Int} {l t4 : Nat} {u : RxUnit} {s t : State} (ht : (s.stamped l t4 u).timeMeasured off = t) :
    t.dom.offset = off ∧ t.dom.lastOffset = some s.clk.elapsed ∧
      t = { s with out := [], dom := t.dom, lse := t.lse, clk := t.clk, hlm := t.hlm } := by
  have heq := State.timeMeasured_eq off (s.stamped l t4 u)
  rw [ht] at heq
  rw [heq]
  exact ⟨rfl, rfl, rfl⟩

/-! ### A lost time parent (R377) -/

theorem execTimeUnlockTimeout_fresh {s : State} {a : Nat} (h : s.dom.lastOffset = some a) (hlt : s.clk.elapsed < a + 100000000) :
    execTimeUnlockTimeout s = done s.begin := by
  have hexp : s.begin.expired a 100000000 = false := decide_eq_false (Nat.not_le.mpr hlt)
  simp [execTimeUnlockTimeout, h, hexp]

theorem execTimeUnlockTimeout_stale {s : State} {a : Nat} (h : s.dom.lastOffset = some a) (hle : a + 100000000 ≤ s.clk.elapsed)
    (hr : s.dom.unlockRaised = false) :
    execTimeUnlockTimeout s = done (({ s.begin with dom := { s.dom with unlockRaised := true } } : State).event evTimeUnlock unitHelm none
      (s.dom.offset % 2 ^ 64).toNat 0) := by
  have hexp : s.begin.expired a 100000000 = true := decide_eq_true hle
  simp [execTimeUnlockTimeout, h, hexp, hr]

/-! ### The statement -/

/-- Settles O45: each clause is its command's lemma; a unit that is sent leaves the rest as `OnlySent.keeps` says. -/
theorem domainTime : Obligations.DomainTime := by
  refine ⟨?probe, fun s t1 a h => execTimeProbeSend_idle t1 h, ?reply, ?first, ?step, ?slew,
    fun s a h hlt => execTimeUnlockTimeout_fresh h hlt, ?stale⟩
  case probe =>
    intro s t1 e hj hg hdue hl hu hq hc
    obtain ⟨hdom, hout, hclk, hldg, hmse, htable⟩ := (State.sendUnit_sent s.dom.timeParent (ctrlUnit 13 [])
      { s.begin with dom := { s.dom with probeAt := some s.clk.elapsed, probe := some t1 } }).keeps
    exact ⟨_, execTimeProbeSend_due t1 hj hg hdue hl hu hq, hdom, State.sendUnit_carried hl hc, hout, hclk, hldg, hmse, htable⟩
  case reply =>
    intro s l t2 t3 e u hl hq hu ha hc
    obtain ⟨hdom, hout, hclk, hldg, hmse, htable⟩ := (State.sendUnit_sent l
      (ctrlUnit 14 (leBytes 8 t2 ++ leBytes 8 ((assocGet l s.dom.replies).getD 0))) (s.replying l t3 u)).keeps
    have htaken : (s.replying l t3 u).lse[l]? = some { e with rxBuf := e.rxBuf.eraseP (· = u) } := State.takeControl_lse hl
    exact ⟨_, execTimeProbeReceive_anchored t2 t3 hl hq hu ha, hdom, State.sendUnit_carried htaken hc, hout, hclk, hldg, hmse, htable⟩
  case first =>
    intro s l t4 e u hl hq hu hp hg hn hprev
    exact ⟨_, execTimeReplyReceive_first hl hq hu hp hg hn hprev, rfl, rfl⟩
  case step =>
    intro s l t4 a1 a2 a4 e u off hl hq hu hp hg hn hprev hoff ha
    have hexec := execTimeReplyReceive_measured (t4 := t4) hl hq hu hp hg hn hprev
    obtain ⟨hclk, hhlm⟩ := State.timeMeasured_step (s := s.stamped l t4 u) off ha
    rw [timeOffset, ← hoff] at hexec
    generalize ht : (s.stamped l t4 u).timeMeasured off = t at hexec hclk hhlm
    obtain ⟨hoffset, hlast, hframe⟩ := State.stamped_timeMeasured ht
    rw [hhlm] at hframe
    exact ⟨t, hexec, hoffset, hlast, hclk, hframe⟩
  case slew =>
    intro s l t4 a1 a2 a4 e u off hl hq hu hp hg hn hprev hoff ha
    have hexec := execTimeReplyReceive_measured (t4 := t4) hl hq hu hp hg hn hprev
    have hclk := State.timeMeasured_slew (s := s.stamped l t4 u) off ha
    rw [timeOffset, ← hoff] at hexec
    generalize ht : (s.stamped l t4 u).timeMeasured off = t at hexec hclk
    obtain ⟨hoffset, hlast, hframe⟩ := State.stamped_timeMeasured ht
    exact ⟨t, hexec, hoffset, hlast, (congrArg Clk.slew hclk :), (congrArg Clk.domain hclk :), (congrArg Clk.elapsed hclk :),
      (congrArg Clk.anchored hclk).trans ha, (congrArg Clk.timeUnlock hclk :), hframe⟩
  case stale =>
    intro s a h hle hr
    exact ⟨_, execTimeUnlockTimeout_stale h hle hr, rfl, rfl, rfl⟩

end Sys2Proof.Machine

/-!
Ticks (O5).

An accepted boundary sets off most of Helm's work: Marks released, sweeps ordered, keys rotated, joins started, commands begun. None of it
moves a clock, which is said here once for each operation; what a boundary makes of the clocks then follows from the few that do.
-/

namespace Sys2Proof.Machine

/-! ### Operations that leave the clocks (R98, R102, R103) -/

theorem State.foldl_clk {α : Type} {f : State → α → State} (hf : ∀ t a, (f t a).clk = t.clk) (l : List α) (s : State) :
    (l.foldl f s).clk = s.clk := by
  induction l generalizing s with
  | nil => rfl
  | cons a l ih => rw [List.foldl_cons, ih, hf]

theorem State.ite_clk {c : Prop} [Decidable c] {s t u : State} (ht : t.clk = s.clk) (hu : u.clk = s.clk) :
    (if c then t else u).clk = s.clk := by
  split <;> assumption

@[simp] theorem State.waitEnd_clk (ring kind : Nat) (waiter : Option Nat) (object : Nat) (s : State) :
    (s.waitEnd ring kind waiter object).clk = s.clk := by
  rw [State.waitEnd_frame]

@[simp] theorem State.finish_clk (c : Call) (st : Nat) (s : State) : (s.finish c st).clk = s.clk := by rw [State.finish_frame]

@[simp] theorem State.finishOk_clk (c : Call) (b : Bytes) (s : State) : (s.finishOk c b).clk = s.clk := by rw [State.finishOk_frame]

@[simp] theorem State.sendUnit_clk (i : Nat) (u : UnitSpec) (s : State) : (s.sendUnit i u).clk = s.clk :=
  (congrArg State.clk (s.sendUnit_sent i u) :)

/-! #### The Beacon and the Steelyard -/

@[simp] theorem State.fireArmed_clk (src : Nat) (s : State) : (s.fireArmed src).clk = s.clk :=
  ite_clk (foldl_clk (fun _ _ => finish_clk ..) _ _) (foldl_clk (fun _ _ => finishOk_clk ..) _ _)

@[simp] theorem State.stySuspect_clk (cause mask : Nat) (s : State) : (s.stySuspect cause mask).clk = s.clk := ite_clk rfl rfl

@[simp] theorem State.styAccount_clk (ch power : Nat) (s : State) : (s.styAccount ch power).clk = s.clk := rfl

@[simp] theorem State.styHold_clk (s : State) : s.styHold.clk = s.clk := foldl_clk (fun _ _ => ite_clk (State.styAccount_clk ..) rfl) _ _

@[simp] theorem State.apportion_clk (s : State) : s.apportion.clk = s.clk := by
  unfold State.apportion
  extract_lets held suspect
  have hsuspect : suspect.clk = s.clk := ite_clk s.styHold_clk ((State.stySuspect_clk ..).trans s.styHold_clk)
  exact ite_clk hsuspect hsuspect

@[simp] theorem State.styLatch_clk (s : State) : s.styLatch.clk = s.clk := ite_clk rfl s.apportion_clk

/-! #### Marks -/

@[simp] theorem State.endMarkWaits_clk (k : Nat) (s : State) : (s.endMarkWaits k).clk = s.clk :=
  (foldl_clk (fun _ _ => finish_clk ..) _ _).trans (foldl_clk (fun _ _ => (finish_clk ..).trans (waitEnd_clk ..)) _ _)

@[simp] theorem State.markChanged_clk (k : Nat) (s : State) : (s.markChanged k).clk = s.clk := by
  unfold State.markChanged
  split
  · rfl
  · exact foldl_clk (fun _ _ => (finishOk_clk ..).trans (waitEnd_clk ..)) _ _

@[simp] theorem State.poisonMark_clk (k cause : Nat) (s : State) : (s.poisonMark k cause).clk = s.clk := by
  unfold State.poisonMark
  split
  · rfl
  · exact ite_clk rfl (State.endMarkWaits_clk ..)

@[simp] theorem State.mirrorSignal_clk (k origin originMark seq : Nat) (poison : Bool) (value : Nat) (s : State) :
    (s.mirrorSignal k origin originMark seq poison value).1.clk = s.clk := by
  unfold State.mirrorSignal
  repeat' split
  · rfl
  · rfl
  · exact State.poisonMark_clk ..
  · rfl
  · exact State.markChanged_clk ..
  · rfl

@[simp] theorem State.homeAck_clk (k origin originMark : Nat) (poison : Bool) (value : Nat) (s : State) :
    (s.homeAck k origin originMark poison value).clk = s.clk := by
  unfold State.homeAck
  split
  · rfl
  · split
    · rfl
    · exact ite_clk rfl ((State.markChanged_clk ..).trans (ite_clk (c := _ < _) (waitEnd_clk ..) rfl))

@[simp] theorem State.sendMark_clk (sub chip : Nat) (bytes : Bytes) (s : State) : (s.sendMark sub chip bytes).clk = s.clk := by
  unfold State.sendMark
  split
  · exact sendUnit_clk ..
  · rfl

@[simp] theorem State.sendDest_clk (k i : Nat) (s : State) : (s.sendDest k i).clk = s.clk := by
  unfold State.sendDest
  repeat' split
  · rfl
  · rfl
  next hm => exact (State.homeAck_clk ..).trans ((congrArg (·.1.clk) hm).symm.trans (State.mirrorSignal_clk ..))
  · exact State.sendMark_clk ..

@[simp] theorem State.releaseMarks_clk (s : State) : s.releaseMarks.clk = s.clk := by
  refine foldl_clk (fun t p => foldl_clk (fun t d => ?_) _ _) _ _
  split
  · rfl
  · exact State.sendDest_clk ..

/-! #### Regions and their keys -/

@[simp] theorem State.setEntry_clk (r : RegionId) (e : LdgEntry) (s : State) : (s.setEntry r e).clk = s.clk := ite_clk rfl rfl

@[simp] theorem State.writeEntry_clk (r : RegionId) (e : LdgEntry) (s : State) : (s.writeEntry r e).clk = s.clk :=
  ite_clk (s.setEntry_clk r e) (s.setEntry_clk r e)

@[simp] theorem State.queueItems_clk (is : List DeltaItem) (s : State) : (s.queueItems is).clk = s.clk := ite_clk rfl (ite_clk rfl rfl)

@[simp] theorem State.orderRegion_clk (kind : SweepKind) (stall old new : Nat) (bootOld : Bool) (r : RegionId) (s : State) :
    (s.orderRegion kind stall old new bootOld r).clk = s.clk :=
  (State.queueItems_clk ..).trans (State.writeEntry_clk ..)

@[simp] theorem State.orderFloor_clk (r : RegionId) (s : State) : (s.orderFloor r).clk = s.clk :=
  (State.queueItems_clk ..).trans (State.writeEntry_clk ..)

@[simp] theorem State.orderKeySweep_clk (stall old new : Nat) (s : State) : (s.orderKeySweep stall old new).clk = s.clk :=
  foldl_clk (fun _ _ => State.orderRegion_clk ..) _ _

@[simp] theorem State.rotateRegion_clk (stall : Nat) (e : KeyEntry) (s : State) : (s.rotateRegion stall e).clk = s.clk := by
  unfold State.rotateRegion
  split
  · exact (State.orderKeySweep_clk ..).trans (congrArg State.clk (State.placeKey_getD_slots _ _) :)
  · rfl

@[simp] theorem State.regionWear_clk (h g : Nat) (blobOk : Bool) (s : State) : (s.regionWear h g blobOk).clk = s.clk := by
  unfold State.regionWear
  split
  · rfl
  · exact ite_clk (ite_clk rfl rfl) (ite_clk rfl (State.rotateRegion_clk ..))

/-! #### Helm's work for a boundary (R104) -/

@[simp] theorem State.orderHarbour_clk (s : State) : s.orderHarbour.clk = s.clk := foldl_clk (fun _ _ => State.orderRegion_clk ..) _ _

@[simp] theorem State.issueLeaf_clk (id : Nat) (s : State) : (s.issueLeaf id).clk = s.clk := rfl

@[simp] theorem State.issueAlias_clk (s : State) : s.issueAlias.clk = s.clk := foldl_clk (fun _ _ => State.issueLeaf_clk ..) _ _

@[simp] theorem State.sendRefusal_clk (id : Nat) (s : State) : (s.sendRefusal id).clk = s.clk := rfl

@[simp] theorem State.enterFull_clk (time : Nat) (s : State) : (s.enterFull time).clk = s.clk :=
  ite_clk rfl (((State.issueAlias_clk _).trans (State.orderHarbour_clk _)).trans
    ((State.releaseMarks_clk _).trans (foldl_clk (fun _ _ => State.sendRefusal_clk ..) _ _)))

@[simp] theorem State.holdEpoch_clk (s : State) : s.holdEpoch.clk = s.clk := by
  unfold State.holdEpoch
  extract_lets _ _ localHeld poolHeld
  have hlocal : localHeld.clk = s.clk := ite_clk rfl rfl
  have hpool : poolHeld.clk = s.clk := ite_clk hlocal hlocal
  exact ite_clk hpool hpool

@[simp] theorem State.advanceEpoch_clk (time left : Nat) (s : State) : (s.advanceEpoch time left).clk = s.clk := by
  unfold State.advanceEpoch
  extract_lets _ _ _ localFree poolFree
  have hlocal : localFree.clk = s.clk := ite_clk (waitEnd_clk ..) rfl
  have hpool : poolFree.clk = s.clk := ite_clk ((waitEnd_clk ..).trans hlocal) hlocal
  exact (foldl_clk (fun _ _ => State.regionWear_clk ..) _ _).trans ((State.queueItems_clk ..).trans hpool)

@[simp] theorem State.stepEpoch_clk (time left : Nat) (s : State) : (s.stepEpoch time left).clk = s.clk :=
  ite_clk rfl (ite_clk rfl (ite_clk s.holdEpoch_clk (s.advanceEpoch_clk time left)))

@[simp] theorem State.orderFloors_clk (s : State) : s.orderFloors.clk = s.clk :=
  ite_clk rfl (foldl_clk (fun _ _ => ite_clk rfl (State.orderFloor_clk ..)) _ _)

@[simp] theorem State.refreshReplays_clk (s : State) : s.refreshReplays.clk = s.clk := by
  refine foldl_clk (fun t i => ?_) _ _
  unfold State.refreshReplay
  split
  · rfl
  · exact ite_clk rfl rfl

@[simp] theorem State.startJoin_clk (i : Nat) (s : State) : (s.startJoin i).clk = s.clk := by
  unfold State.startJoin
  split
  · rfl
  · exact ite_clk rfl (foldl_clk (fun _ _ => sendUnit_clk ..) _ _)

@[simp] theorem State.startJoins_clk (s : State) : s.startJoins.clk = s.clk := by
  refine foldl_clk (fun t x => ?_) _ _
  split
  · exact State.startJoin_clk ..
  · rfl

@[simp] theorem State.wantMark_clk (k : Nat) (s : State) : (s.wantMark k).clk = s.clk := by
  unfold State.wantMark
  split
  · rfl
  · exact ite_clk rfl rfl

/-- A deferral is counted, and its wait recorded (R477, R562). -/
theorem State.countDefer_frame (q : Queued) (s : State) : s.countDefer q = { s with
    hlm := { s.hlm with deferred := satAdd 65535 s.hlm.deferred 1 }, obs := (s.countDefer q).obs } := by
  unfold State.countDefer State.deferWait
  dsimp only
  split
  · rfl
  · split <;> rfl

@[simp] theorem State.countDefer_clk (q : Queued) (s : State) : (s.countDefer q).clk = s.clk := by rw [State.countDefer_frame]

@[simp] theorem State.sortTick_clk (l kept started : List Queued) (s : State) : (State.sortTick l kept started s).2.2.clk = s.clk := by
  induction l generalizing kept started s with
  | nil => rfl
  | cons q l ih =>
    unfold State.sortTick
    split
    · rw [ih, finish_clk]
    · split
      · rw [ih, State.countDefer_clk]
        exact ite_clk (State.wantMark_clk ..) rfl
      · rw [ih, waitEnd_clk]

@[simp] theorem State.runTick_clk (s : State) : s.runTick.clk = s.clk := State.sortTick_clk ..

/-- Helm's work for a boundary notes when it began, and moves no other clock. -/
theorem State.tickHelm_clk (time left : Nat) (s : State) :
    (s.tickHelm time left).clk = { s.clk with tickWork := some s.clk.elapsed } := by
  have h : ((s.enterFull time).stepEpoch time left).orderFloors.refreshReplays.startJoins.runTick.clk = s.clk := by
    rw [State.runTick_clk, State.startJoins_clk, State.refreshReplays_clk, State.orderFloors_clk, State.stepEpoch_clk, State.enterFull_clk]
  exact (congrArg (fun c : Clk => { c with tickWork := some c.elapsed }) h :)

/-- A boundary that waits may set TICK_OVERRUN for the one it displaces, and moves no other clock (R106). -/
theorem State.queueTick_clk (time : Nat) (s : State) :
    (s.queueTick time).clk = { s.clk with tickOverrun := (s.queueTick time).clk.tickOverrun } := by
  unfold State.queueTick
  dsimp only
  repeat' split
  · rfl
  · rw [State.holdEpoch_clk]; rfl
  · rfl
  · rfl

/-- An accepted boundary is counted and timed; beside that it marks late boundaries over, and Helm's work begun or the oldest waiting
boundary lost (R102, R103, R106). -/
theorem State.acceptTick_clk (s : State) : ∃ work overrun, s.acceptTick.clk = { s.clk with
    tickCount := s.clk.tickCount + 1, tickTime := s.clk.domain - 30, lastTick := some s.clk.elapsed, lateRaised := false
    tickWork := work, tickOverrun := overrun } := by
  unfold State.acceptTick
  extract_lets time fired _ counted cleared _ full
  have hfired : fired.clk = s.clk := ite_clk (s.fireArmed_clk 2) rfl
  have hcounted : counted.clk = { s.clk with
      tickCount := s.clk.tickCount + 1, tickTime := s.clk.domain - 30, lastTick := some s.clk.elapsed, lateRaised := false } :=
    (congrArg (fun c : Clk =>
      { c with tickCount := c.tickCount + 1, tickTime := s.clk.domain - 30, lastTick := some c.elapsed, lateRaised := false }) hfired :)
  have hcleared : cleared.clk = counted.clk := State.styLatch_clk (counted.bump 1 1)
  have hfull : full.clk = cleared.clk := ite_clk rfl rfl
  split
  · exact ⟨_, _, hcleared.trans hcounted⟩
  · split
    · rw [State.queueTick_clk, hfull, hcleared, hcounted]
      exact ⟨_, _, rfl⟩
    · rw [State.tickHelm_clk, hfull, hcleared, hcounted]
      exact ⟨_, _, rfl⟩

/-! ### The commands (R102, R103, R105) -/

/-- The state in which a change of level of tick has been seen. -/
def State.tickSeen (s : State) : State := { s.begin with pins := { s.pins with tick := !s.pins.tick } }

/-- A boundary that comes too soon is counted and reported, and its crossing is sounded (R103, R535). -/
def State.shortTick (l : Nat) (s : State) : State :=
  ({ s with
    clk := { s.clk with tickShort := true, shortCount := s.clk.shortCount + 1 }
    alr := { s.alr with crossings := if s.alr.crossings.contains 2 then s.alr.crossings else s.alr.crossings ++ [2] } } : State).event
    evTickShort unitRcu none (s.clk.elapsed - l) 0

theorem State.shortTick_crossing (l : Nat) (s : State) : 2 ∈ (s.shortTick l).alr.crossings := by
  show 2 ∈ if s.alr.crossings.contains 2 then s.alr.crossings else s.alr.crossings ++ [2]
  split
  next h => exact List.contains_iff_mem.mp h
  next => exact List.mem_concat_self

/-- Outside P and S a change of level of tick is a boundary: too soon after the last accepted one, or accepted. -/
theorem execTickBoundary_eq (s : State) : execTickBoundary s = done (if s.rst.phase = .inReset then s.tickSeen else
    match s.clk.lastTick.filter fun l => decide (s.clk.elapsed < l + 50000) with
    | some l => s.tickSeen.shortTick l
    | none => s.tickSeen.acceptTick) := rfl

theorem execTickBoundary_short {s : State} {l : Nat} (hp : s.rst.phase ≠ .inReset) (hl : s.clk.lastTick = some l)
    (hlt : s.clk.elapsed < l + 50000) : execTickBoundary s = done (s.tickSeen.shortTick l) := by
  have hshort : s.clk.lastTick.filter (fun l => decide (s.clk.elapsed < l + 50000)) = some l := by simp [hl, Option.filter, hlt]
  rw [execTickBoundary_eq, if_neg hp, hshort]

theorem execTickBoundary_accepted {s : State} (hp : s.rst.phase ≠ .inReset)
    (hl : s.clk.lastTick.all (fun l => l + 50000 ≤ s.clk.elapsed) = true) : execTickBoundary s = done s.tickSeen.acceptTick := by
  have hnone : s.clk.lastTick.filter (fun l => decide (s.clk.elapsed < l + 50000)) = none := by
    cases h : s.clk.lastTick with
    | none => rfl
    | some l =>
      have hle : l + 50000 ≤ s.clk.elapsed := by simpa [h] using hl
      simp [Option.filter, Nat.not_lt.mpr hle]
  rw [execTickBoundary_eq, if_neg hp, hnone]

theorem execTickBoundary_inReset {s : State} (hp : s.rst.phase = .inReset) : execTickBoundary s = done s.tickSeen := by
  rw [execTickBoundary_eq, if_pos hp]

theorem execTickLate_first {s : State} (hp : s.rst.phase ≠ .inReset) (hr : s.clk.lateRaised = false)
    (hle : s.clk.lastTick.getD s.clk.releasedAt + 100000000000 ≤ s.clk.elapsed) :
    execTickLate s = done (({ s.begin with clk := { s.clk with tickLate := true, lateRaised := true } } : State).event
      evTickLate unitRcu none 0 0) := by
  have hexp : s.begin.expired (s.clk.lastTick.getD s.clk.releasedAt) 100000000000 = true := decide_eq_true hle
  simp [execTickLate, hp, hr, hexp]

theorem execTickLate_again {s : State} (hr : s.clk.lateRaised = true) : execTickLate s = done s.begin := by
  simp [execTickLate, hr]

/-- The state in which the budget of a boundary is over. -/
def State.budgetOver (s : State) : State := { s.begin with clk := { s.clk with tickWork := none } }

/-- The command as it goes back to the tick queue. -/
def Queued.returned (q : Queued) : Queued := { q with call := { q.call with deferred := true, ticked := false }, waited := q.waited + 1 }

/-- The state in which the commands not begun are back at the head of the tick queue, `t` having counted them (R105). -/
def State.overran (late : List Queued) (t : State) : State :=
  ({ t with
    hlm := { t.hlm with running := t.hlm.running.filter fun q => !late.contains q, tickQ := late.map Queued.returned ++ t.hlm.tickQ }
    clk := { t.clk with tickOverrun := true } } : State).event evTickOverrun unitRcu none late.length 0

/-- The commands of the boundary that have not begun when its budget ends go back to the tick queue. -/
theorem execTickBudgetExpiry_over {s : State} {since : Nat} {late : List Queued} (hw : s.clk.tickWork = some since)
    (hle : since + 20000 ≤ s.clk.elapsed) (hlate : (s.hlm.running.filter fun q => q.call.ticked && !s.begun q.call) = late) :
    execTickBudgetExpiry s = done (if late.isEmpty then s.budgetOver else
      ((late.foldl (fun t q => t.countDefer q) s.budgetOver).overran late).bump (ctrHlm 2) 1) := by
  subst hlate
  have hexp : s.begin.expired since 20000 = true := decide_eq_true hle
  simp only [execTickBudgetExpiry, State.begin_clk, hw, hexp, not_true_eq_false, if_false]
  rfl

/-! ### The statement -/

/-- Settles O5: a boundary by what it does to the clocks, the budget's end by the commands that are late. -/
theorem ticksAndTheirCommands : Obligations.TicksAndTheirCommands := by
  refine ⟨?short, ?accepted, fun s hp => execTickBoundary_inReset hp, fun s hp hr hle => execTickLate_first hp hr hle,
    fun s hr => execTickLate_again hr, ?inTime, ?late⟩
  case short =>
    intro s l hp hl hlt
    exact ⟨_, execTickBoundary_short hp hl hlt, rfl, rfl, rfl, State.shortTick_crossing l _⟩
  case accepted =>
    intro s hp hl
    obtain ⟨work, overrun, hclk⟩ := s.tickSeen.acceptTick_clk
    exact ⟨_, execTickBoundary_accepted hp hl, (congrArg Clk.tickCount hclk :), (congrArg Clk.tickTime hclk :), (congrArg Clk.lastTick hclk :),
      (congrArg Clk.elapsed hclk :), (congrArg Clk.shortCount hclk :)⟩
  case inTime =>
    intro s since hw hle hlate
    exact execTickBudgetExpiry_over hw hle hlate
  case late =>
    intro s since q hw hle hrun hticked hbegun
    have hlate : (s.hlm.running.filter fun q => q.call.ticked && !s.begun q.call) = [q] := by simp [hrun, hticked, hbegun]
    have hexec := execTickBudgetExpiry_over hw hle hlate
    rw [List.foldl_cons, List.foldl_nil, State.countDefer_frame] at hexec
    refine ⟨_, hexec, ?_, rfl, rfl, rfl, rfl⟩
    show (s.hlm.running.filter fun r => !([q].contains r)) = []
    simp [hrun]

end Sys2Proof.Machine

/-!
The clocks and their alarms (O1, O2, O3, O56).

What a clock-integrity alarm does and keeps is said once (`ClockAlarmed`); each command is then its alarm, or its one change of the state.
One rclk edge comes last.
-/

namespace Sys2Proof.Machine

/-! ### The clock-integrity alarm (R521, R522) -/

/-- The alarm is logged with its cause and raised, in Safe Stop; keys, inputs and clocks are kept. -/
structure ClockAlarmed (unit cause word : Nat) (s t : State) : Prop where
  clock : t.alr.clock = true
  safeStop : t.alr.safeStop = true
  rstReq : t.rst.rstReq = true
  log : t.alr.log = (s.alr.logEntry
    { code := alClock, unit, stall := none, time := s.clk.domain, unanchored := !s.clk.anchored, cause, word, count := 1
      firstAt := s.clk.elapsed, copied := false } s.clk.elapsed).log
  tamper : t.alr.tamper = s.alr.tamper
  mon : t.mon = s.mon
  sbx : t.sbx = s.sbx
  ldg : t.ldg = s.ldg
  pins : t.pins = s.pins
  clk : t.clk = s.clk

/-- The state in which the alarm enters Safe Stop: logged and raised. -/
def State.clockLogged (unit cause word : Nat) (s : State) : State :=
  let t := s.logAlarm alClock unit none cause word
  { t with alr := { t.alr with clock := true } }.bump (ctrRcu 5) 1

theorem State.enterQuiet_clock (s : State) : s.enterQuiet.alr.clock = s.alr.clock ∧ s.enterQuiet.mon = s.mon := by
  unfold State.enterQuiet
  split <;> exact ⟨rfl, rfl⟩

/-- Safe Stop keeps tray_al_clock and what the monitors know. -/
theorem State.enterSafeStop_clock (s : State) : s.enterSafeStop.alr.clock = s.alr.clock ∧ s.enterSafeStop.mon = s.mon := by
  unfold State.enterSafeStop
  cases s.rst.rstBusy
  · exact s.enterQuiet_clock
  · exact ⟨rfl, rfl⟩

theorem State.alarmClock_alarmed (unit cause word : Nat) (s : State) : ClockAlarmed unit cause word s (s.alarmClock unit cause word) := by
  have hk := (s.clockLogged unit cause word).enterSafeStop_keepsKeys
  obtain ⟨hclock, hmon⟩ := (s.clockLogged unit cause word).enterSafeStop_clock
  have htamper : (s.clockLogged unit cause word).alr.tamper = s.alr.tamper := by
    show (s.alr.logEntry _ _).tamper = _
    rw [Alr.logEntry_frame]
  exact
    { clock := hclock
      safeStop := State.enterSafeStop_safeStop _
      rstReq := State.enterSafeStop_rstReq _
      log := hk.log
      tamper := hk.tamper.trans htamper
      mon := hmon
      sbx := hk.sbx
      ldg := hk.ldg
      pins := hk.pins
      clk := hk.clk }

/-! ### Frequency changes (R108) -/

theorem execFreqChangeRequest_first {s : State} (hp : s.rst.phase ≠ .inReset) (hf : s.mon.freqChg = false) :
    execFreqChangeRequest s = done { s with
      out := []
      pins := { s.pins with freqReq := !s.pins.freqReq }
      mon := { s.mon with
        freqChg := true, freqSince := s.clk.elapsed, freqStart := s.clk.domain, freqAck := !s.mon.freqAck, freqAlarm := false
        ackDeadline := some (s.clk.elapsed + 1000) }
      obs := s.obs.bump (ctrRcu 1) 1 } := by
  simp only [execFreqChangeRequest, State.begin_rst, hp, if_false, State.begin_mon, hf, Bool.false_eq_true]
  rfl

theorem execFreqChangeRequest_during {s : State} (hp : s.rst.phase ≠ .inReset) (hf : s.mon.freqChg = true) :
    execFreqChangeRequest s = done { s with
      out := []
      pins := { s.pins with freqReq := !s.pins.freqReq }
      mon := { s.mon with freqIgnored := s.mon.freqIgnored + 1 } } := by
  simp only [execFreqChangeRequest, State.begin_rst, hp, if_false, State.begin_mon, hf, if_true]
  rfl

theorem execFreqChangeDone_rise {s : State} (hg : s.pins.clkcGood = false) (hf : s.mon.freqChg = true) :
    execFreqChangeDone s = done { s with
      out := []
      pins := { s.pins with clkcGood := true }
      mon := { s.mon with freqChg := false, freqLog := [(s.mon.freqStart, s.clk.domain)] } } := by
  simp only [execFreqChangeDone, State.begin_pins, hg, Bool.false_eq_true, if_false, State.begin_mon, hf, if_true]
  rfl

theorem execFreqChangeTimeout_late {s : State} (hg : s.pins.clkcGood = false) (hf : s.mon.freqChg = true) (ha : s.mon.freqAlarm = false)
    (hp : s.rst.phase ≠ .inReset) (hle : s.mon.freqSince + s.cfg.clk.tFreq * 1000 ≤ s.clk.elapsed) :
    execFreqChangeTimeout s = done (({ s.begin with mon := { s.mon with freqAlarm := true } } : State).alarmClock unitRcu 2 0) := by
  have hexp : s.begin.expired s.mon.freqSince (s.cfg.clk.tFreq * 1000) = true := decide_eq_true hle
  simp [execFreqChangeTimeout, hg, hf, ha, hp, hexp]

theorem execClockGoodLost_alarm {s : State} (hg : s.pins.clkcGood = true) (hp : s.rst.phase ≠ .inReset) (hf : s.mon.freqChg = false) :
    execClockGoodLost s = done (({ s.begin with pins := { s.pins with clkcGood := false } } : State).alarmClock unitRcu 3 0) := by
  simp [execClockGoodLost, hg, hp, hf]

/-! ### Stops of pclk (R112, R113, R564) -/

theorem State.gapOpen_room {g : GapEntry} {s : State} (h : s.obs.gaps.length < 64) :
    s.gapOpen g = { s with obs := { s.obs with gaps := s.obs.gaps ++ [g] } } :=
  if_pos h

/-- A gap log entry once its stop is over. -/
def GapEntry.ended (now : Nat) (g : GapEntry) : GapEntry := if g.ongoing then { g with stop := now, ongoing := false } else g

/-- The one entry that is ongoing, the newest, receives its end. -/
theorem State.gapClose_newest {gs : List GapEntry} {g : GapEntry} {s : State} (h : s.obs.gaps = gs ++ [g])
    (hgs : ∀ e ∈ gs, e.ongoing = false) (hg : g.ongoing = true) :
    s.gapClose = { s with obs := { s.obs with
      gaps := gs ++ [{ g with stop := s.clk.domain, ongoing := false }], gapTotal := s.obs.gapTotal + (s.clk.domain - g.start) } } := by
  have hnone : gs.find? (·.ongoing) = none := List.find?_eq_none.mpr fun e he => by simp [hgs e he]
  have hfind : s.obs.gaps.find? (·.ongoing) = some g := by simp [h, List.find?_append, hnone, hg]
  have hold : gs.map (GapEntry.ended s.clk.domain) = gs :=
    (List.map_congr_left fun e he => if_neg (by simp [hgs e he])).trans (List.map_id gs)
  have hgaps : s.obs.gaps.map (GapEntry.ended s.clk.domain) = gs ++ [{ g with stop := s.clk.domain, ongoing := false }] := by
    rw [h, List.map_append, hold, List.map_singleton, GapEntry.ended, if_pos hg]
  rw [← hgaps]
  unfold State.gapClose
  rw [hfind]
  rfl

theorem execPclkStopDeclared_first {s : State} (stretch : Bool) (hstop : s.mon.stop = none) (hp : s.rst.phase ≠ .inReset)
    (hroom : s.obs.gaps.length < 64) :
    execPclkStopDeclared stretch s = done { s with
      out := []
      pins := { s.pins with clkcStretch := stretch }
      mon := { s.mon with stop := some (s.clk.elapsed - 40), stopAlarm := false }
      obs := { s.obs with gaps := s.obs.gaps ++
        [{ start := s.clk.domain - 40, stop := 0, cause := s.stopCause stretch, ongoing := true, unanchored := !s.clk.anchored
           alarm := false }] } } := by
  simp only [execPclkStopDeclared, State.begin_mon, hstop, Option.isSome_none, Bool.false_eq_true, if_false, State.begin_rst, hp]
  exact congrArg done (State.gapOpen_room hroom)

theorem execPclkStopEnd_newest {s : State} {since : Nat} {gs : List GapEntry} {g : GapEntry} (hstop : s.mon.stop = some since)
    (h : s.obs.gaps = gs ++ [g]) (hgs : ∀ e ∈ gs, e.ongoing = false) (hg : g.ongoing = true) :
    execPclkStopEnd s = done { s with
      out := []
      mon := { s.mon with stop := none, stopAlarm := false }
      alr := { s.alr with progressAt := s.alr.progressAt + (s.clk.elapsed - since) }
      obs := { s.obs with
        gaps := gs ++ [{ g with stop := s.clk.domain, ongoing := false }]
        gapTotal := s.obs.gapTotal + (s.clk.domain - g.start) } } := by
  have hclose := State.gapClose_newest (s := s.begin) h hgs hg
  simp only [execPclkStopEnd, State.begin_mon, hstop, hclose]
  rfl

/-- The gap log entry of the stop shows that it raised the alarm. -/
def GapEntry.alarmed (g : GapEntry) : GapEntry := if g.ongoing then { g with alarm := true } else g

theorem execPclkStopTimeout_late {s : State} {since : Nat} (hstop : s.mon.stop = some since) (ha : s.mon.stopAlarm = false)
    (hg : s.pins.clkcGood = true) (hf : s.mon.freqChg = false) (hp : s.rst.phase ≠ .inReset)
    (hle : since + s.cfg.clk.tStop * 1000 ≤ s.clk.elapsed) :
    execPclkStopTimeout s = done (({ s.begin with
      mon := { s.mon with stopAlarm := true }, obs := { s.obs with gaps := s.obs.gaps.map GapEntry.alarmed } } : State).alarmClock unitRcu 5
        (min (2 ^ 32 - 1) ((s.clk.elapsed - since) / 1000))) := by
  have hexp : s.begin.expired since (s.cfg.clk.tStop * 1000) = true := decide_eq_true hle
  simp only [execPclkStopTimeout, State.begin_mon, hstop, ha, State.begin_pins, hg, hf, State.begin_rst, hp, State.begin_cfg, hexp,
    Bool.false_eq_true, not_true_eq_false, or_self, if_false]
  rfl

/-- With clkc_good at 0, or during a frequency change, a stop raises no alarm. -/
theorem execPclkStopTimeout_excused {s : State} (h : s.pins.clkcGood = false ∨ s.mon.freqChg = true) :
    execPclkStopTimeout s = done s.begin := by
  unfold execPclkStopTimeout
  dsimp only
  split
  · rfl
  · rw [if_pos (by rcases h with hg | hf <;> simp [*])]

/-! ### The frequency window (R109) -/

/-- The state in which PCLK_FREQ shows the measured frequency. -/
def State.freqMeasured (mhz : Nat) (s : State) : State := { s.begin with clk := { s.clk with pclkFreq := min 255 (mhz / 10) } }

theorem execPclkFreqWindow_eq (mhz : Nat) (stretch : Bool) (s : State) : execPclkFreqWindow mhz stretch s =
    done (if s.rst.phase = Phase.inReset then s.freqMeasured mhz
      else if 2121 < mhz then (s.freqMeasured mhz).alarmClock unitRcu 4 (min 255 (mhz / 10))
      else if mhz < 990 ∧ ¬ stretch ∧ ¬ s.freqChgWindow then (s.freqMeasured mhz).event evPclkSlow unitRcu none (min 255 (mhz / 10)) 0
      else s.freqMeasured mhz) := rfl

theorem execPclkFreqWindow_fast {mhz : Nat} {s : State} (stretch : Bool) (hp : s.rst.phase ≠ .inReset) (h : 2121 < mhz) :
    execPclkFreqWindow mhz stretch s = done ((s.freqMeasured mhz).alarmClock unitRcu 4 (min 255 (mhz / 10))) := by
  rw [execPclkFreqWindow_eq, if_neg hp, if_pos h]

theorem execPclkFreqWindow_slow {mhz : Nat} {s : State} (hp : s.rst.phase ≠ .inReset) (h : mhz < 990) (hw : s.freqChgWindow = false) :
    execPclkFreqWindow mhz false s = done ((s.freqMeasured mhz).event evPclkSlow unitRcu none (min 255 (mhz / 10)) 0) := by
  rw [execPclkFreqWindow_eq, if_neg hp, if_neg (by omega), if_pos ⟨h, Bool.false_ne_true, by simp [hw]⟩]

theorem execPclkFreqWindow_within {mhz : Nat} (stretch : Bool) (s : State) (h : 990 ≤ mhz) (h' : mhz ≤ 2121) :
    execPclkFreqWindow mhz stretch s = done (s.freqMeasured mhz) := by
  have hslow : ¬ (mhz < 990 ∧ ¬ stretch ∧ ¬ s.freqChgWindow) := fun hs => absurd hs.1 (Nat.not_lt.mpr h)
  rw [execPclkFreqWindow_eq, if_neg (Nat.not_lt.mpr h'), if_neg hslow, ite_self]

/-! ### Runts (R110, R111) -/

theorem execRuntDetected_single {s : State} (h : runtSpan s.clk.elapsed s.mon.runts = none) :
    execRuntDetected s = done (s.begin.countRunt.alarmClock unitRcu 1 s.begin.countRunt.mon.runtTotal) := by
  simp [execRuntDetected, h]

/-- The third runt within 1 ms is tamper. -/
theorem execRuntDetected_third {s : State} {ns : Nat} (h : runtSpan s.clk.elapsed s.mon.runts = some ns) :
    execRuntDetected s = done ((s.begin.countRunt.alarmTamper unitRcu 2 ns).alarmClock unitRcu 1
      (s.begin.countRunt.alarmTamper unitRcu 2 ns).mon.runtTotal) := by
  simp [execRuntDetected, h]

/-! ### The statements -/

/-- Settles O1: each clause is its command's lemma, the timeout by what the alarm does. -/
theorem frequencyChangesAndStops : Obligations.FrequencyChangesAndStops := by
  refine ⟨fun s hp hf => execFreqChangeRequest_first hp hf, fun s hp hf => execFreqChangeRequest_during hp hf,
    fun s hg hf => execFreqChangeDone_rise hg hf, ?timeout, fun s stretch hstop hp hroom => execPclkStopDeclared_first stretch hstop hp hroom,
    fun s since gs g hstop h hgs hg => execPclkStopEnd_newest hstop h hgs hg⟩
  intro s hg hf ha hp hle
  have hal := State.alarmClock_alarmed unitRcu 2 0 { s.begin with mon := { s.mon with freqAlarm := true } }
  exact ⟨_, execFreqChangeTimeout_late hg hf ha hp hle, hal.mon, hal.clock, hal.safeStop, hal.rstReq, hal.log, hal.sbx, hal.ldg, hal.pins,
    hal.clk⟩

/-- Settles O2: each monitor by what its alarm does, the third runt by what the tamper-class alarm before it clears. -/
theorem clockMonitorsRaiseAlarms : Obligations.ClockMonitorsRaiseAlarms := by
  refine ⟨?goodLost, ?runt, ?thirdRunt, ?fast, fun s mhz hp h hw => execPclkFreqWindow_slow hp h hw,
    fun s mhz stretch h h' => execPclkFreqWindow_within stretch s h h'⟩
  case goodLost =>
    intro s hg hp hf
    have hal := State.alarmClock_alarmed unitRcu 3 0 { s.begin with pins := { s.pins with clkcGood := false } }
    exact ⟨_, execClockGoodLost_alarm hg hp hf, hal.pins, hal.clock, hal.safeStop, hal.rstReq, hal.sbx, hal.ldg, hal.mon, hal.clk⟩
  case runt =>
    intro s h
    have hal := State.alarmClock_alarmed unitRcu 1 s.begin.countRunt.mon.runtTotal s.begin.countRunt
    exact ⟨_, execRuntDetected_single h, hal.mon, hal.clock, hal.safeStop, hal.tamper, hal.sbx, hal.ldg, hal.clk⟩
  case thirdRunt =>
    intro s a b rest hruns hle
    have hspan : runtSpan s.clk.elapsed s.mon.runts = some (s.clk.elapsed - b) := by rw [hruns]; exact if_pos hle
    have ht := State.alarmTamper_tampered unitRcu 2 (s.clk.elapsed - b) s.begin.countRunt
    have hal := State.alarmClock_alarmed unitRcu 1 (s.begin.countRunt.alarmTamper unitRcu 2 (s.clk.elapsed - b)).mon.runtTotal
      (s.begin.countRunt.alarmTamper unitRcu 2 (s.clk.elapsed - b))
    exact ⟨_, execRuntDetected_third hspan, hal.clock, hal.tamper.trans ht.tamper, by rw [hal.sbx, ht.slots], by rw [hal.ldg, ht.anchor],
      by rw [hal.ldg, ht.cleared]⟩
  case fast =>
    intro s mhz stretch hp h
    have hal := State.alarmClock_alarmed unitRcu 4 (min 255 (mhz / 10)) (s.freqMeasured mhz)
    exact ⟨_, execPclkFreqWindow_fast stretch hp h, hal.clk, hal.clock, hal.safeStop, hal.sbx, hal.ldg, hal.mon⟩

/-- Settles O3: a stop of T_STOP by what the alarm does, an excused one by `execPclkStopTimeout_excused`. -/
theorem longStopRaisesClockAlarm : Obligations.LongStopRaisesClockAlarm := by
  refine ⟨?late, fun s h => execPclkStopTimeout_excused h⟩
  intro s since hstop ha hg hf hp hle
  have hal := State.alarmClock_alarmed unitRcu 5 (min (2 ^ 32 - 1) ((s.clk.elapsed - since) / 1000)) { s.begin with
    mon := { s.mon with stopAlarm := true }, obs := { s.obs with gaps := s.obs.gaps.map GapEntry.alarmed } }
  exact ⟨_, execPclkStopTimeout_late hstop ha hg hf hp hle, hal.clock, hal.safeStop, hal.rstReq, hal.mon, hal.log⟩

/-! ### One rclk edge (R98, R99, R571) -/

theorem State.meterResidency_frame (l : List Nat) (s : State) :
    l.foldl (fun t id => t.meter 5 id 1) s = { s with sty := (l.foldl (fun t id => t.meter 5 id 1) s).sty } := by
  induction l generalizing s with
  | nil => rfl
  | cons id l ih => rw [List.foldl_cons, ih, State.meter_frame]

/-- An edge moves elapsed and domain time and what is left to slew, and no other clock. -/
theorem State.clocksEdge_frame (s : State) : s.clocksEdge = { s with clk := { s.clk with
    elapsed := s.clocksEdge.clk.elapsed, domain := s.clocksEdge.clk.domain, slew := s.clocksEdge.clk.slew
    slewGap := s.clocksEdge.clk.slewGap } } := by
  by_cases hpor : s.pins.porN = true <;> by_cases hreset : s.rst.phase = .inReset <;>
    simp [State.clocksEdge, Clk.domainEdge, hpor, hreset]

theorem State.clocksEdge_elapsed (s : State) :
    s.clocksEdge.clk.elapsed = if s.pins.porN then s.clk.elapsed + 10 else s.clk.elapsed := by
  by_cases hpor : s.pins.porN = true <;> by_cases hreset : s.rst.phase = .inReset <;>
    simp [State.clocksEdge, Clk.domainEdge, hpor, hreset]

/-- In P and S domain time stands (R99). -/
theorem State.clocksEdge_domain_inReset {s : State} (h : s.rst.phase = .inReset) : s.clocksEdge.clk.domain = s.clk.domain := by
  unfold State.clocksEdge
  cases s.pins.porN <;> simp [h]

/-- Settles O56: a command at the front by `step_eq_exec`; on an empty queue the residency counts are all that is added to the clocks. -/
theorem stepRunsTheFrontCommand : Obligations.StepRunsTheFrontCommand := by
  refine ⟨fun s c rest h => step_eq_exec h, fun s h => ?_⟩
  have hstep : step s = .next s.rclkEdge := by unfold step; rw [h]
  have hedge : s.rclkEdge = { s.begin.clocksEdge with sty := s.rclkEdge.sty } := State.meterResidency_frame s.residents s.begin.clocksEdge
  have hclk : s.rclkEdge.clk = s.begin.clocksEdge.clk := (congrArg State.clk hedge :)
  refine ⟨s.rclkEdge, hstep, hclk ▸ s.begin.clocksEdge_elapsed, fun hp => hclk ▸ State.clocksEdge_domain_inReset (s := s.begin) hp, ?_⟩
  rw [hclk]
  exact hedge.trans (congrArg (fun t : State => { t with sty := s.rclkEdge.sty }) s.begin.clocksEdge_frame)

end Sys2Proof.Machine

/-!
DRK_GENERATE, SVN_ADVANCE, PATCH_STAGE and PATCH_COMMIT (O23).

What an idle fuse port makes of a job that joins it, and what the start of a core reset leaves, are said once: the start-up, the load and
the other sources of a core reset use both.
-/

namespace Sys2Proof.Machine

/-! ### The fuse port (R82) -/

/-- A unit with nothing at the fuse port. -/
theorem Lcu.idle_eq {l : Lcu} (hj : l.job = none) (hjs : l.jobs = []) : ({ l with job := none, jobs := [] } : Lcu) = l := by
  rw [← hj, ← hjs]

theorem State.fuseRun_idle (n : Nat) {s : State} (hj : s.lcu.job = none) (hjs : s.lcu.jobs = []) : State.fuseRun n s = s := by
  cases n with
  | zero => rfl
  | succ n => rw [State.fuseRun, hj, hjs]

theorem State.coreDue_none {s : State} (hc : s.rst.coreDeferred = none) : s.coreDue = s := by rw [State.coreDue, hc]

theorem State.coreDue_programming {s : State} (hj : s.lcu.job.isSome = true) : s.coreDue = s := by
  unfold State.coreDue
  split
  · rfl
  · rw [if_pos (by simp [State.coreWaits, hj])]

theorem State.runFuses_idle {s : State} (hj : s.lcu.job = none) (hjs : s.lcu.jobs = []) (hc : s.rst.coreDeferred = none) :
    s.runFuses = s := by
  rw [State.runFuses, State.fuseRun_idle 16 hj hjs, State.coreDue_none hc]

/-- A free port takes up the next job. -/
theorem State.fuseRun_take (n : Nat) {s : State} {j : FuseJob} {js : List FuseJob} (hj : s.lcu.job = none) (hjs : s.lcu.jobs = j :: js) :
    State.fuseRun (n + 1) s = State.fuseRun n { s with lcu := { s.lcu with job := some j, jobs := js } } := by
  rw [State.fuseRun, hj, hjs]

/-- A job taken up programs its first bit that still reads 0. -/
theorem State.fuseRun_programs (n : Nat) {s : State} {j : FuseJob} {w b : Nat} {rest : List (Nat × Nat)} (hj : s.lcu.job = some j)
    (hstage : j.stage = 0) (hbits : s.lcu.missing j.bits = (w, b) :: rest) : State.fuseRun (n + 1) s = { s with
      out := s.out ++ [.fusePgm w b]
      lcu := { s.lcu with job := some { j with bits := (w, b) :: rest, stage := 1, since := s.clk.elapsed } } } := by
  rw [State.fuseRun, hj]
  dsimp only
  rw [if_neg (not_not.mpr hstage), hbits]
  rfl

/-- A job taken up without a bit to program is done. -/
theorem State.fuseRun_done (n : Nat) {s : State} {j : FuseJob} (hj : s.lcu.job = some j) (hstage : j.stage = 0)
    (hbits : s.lcu.missing j.bits = []) :
    State.fuseRun (n + 1) s = State.fuseRun n (({ s with lcu := { s.lcu with job := none } } : State).jobDone j.goal) := by
  rw [State.fuseRun, hj]
  dsimp only
  rw [if_neg (not_not.mpr hstage), hbits]

section
variable {s : State} {j : FuseJob} (hj : s.lcu.job = none) (hjs : s.lcu.jobs = [j]) (hstage : j.stage = 0)
include hj hjs hstage

theorem State.runFuses_programs {w b : Nat} {rest : List (Nat × Nat)} (hbits : s.lcu.missing j.bits = (w, b) :: rest) :
    s.runFuses = { s with
      out := s.out ++ [.fusePgm w b]
      lcu := { s.lcu with job := some { j with bits := (w, b) :: rest, stage := 1, since := s.clk.elapsed }, jobs := [] } } := by
  have hrun := (State.fuseRun_take 15 hj hjs).trans (State.fuseRun_programs 14 rfl hstage hbits)
  exact (congrArg State.coreDue hrun).trans (State.coreDue_programming rfl)

theorem State.runFuses_done (hbits : s.lcu.missing j.bits = []) :
    s.runFuses = (State.fuseRun 14 (({ s with lcu := { s.lcu with job := none, jobs := [] } } : State).jobDone j.goal)).coreDue :=
  congrArg State.coreDue ((State.fuseRun_take 15 hj hjs).trans (State.fuseRun_done 14 rfl hstage hbits))

end

/-- Programming that joins an idle port begins at once. -/
theorem State.queueJob_programs {s : State} {goal : FuseGoal} {bits rest : List (Nat × Nat)} {w b : Nat} (hj : s.lcu.job = none)
    (hjs : s.lcu.jobs = []) (hbits : s.lcu.missing bits = (w, b) :: rest) : (s.queueJob goal bits).runFuses = { s with
      out := s.out ++ [.fusePgm w b]
      lcu := { s.lcu with job := some { goal, bits := (w, b) :: rest, stage := 1, retried := false, since := s.clk.elapsed } } } := by
  have hq : (s.queueJob goal bits).lcu.jobs = [{ goal, bits, stage := 0, retried := false, since := s.clk.elapsed }] :=
    congrArg (· ++ _) hjs
  rw [State.runFuses_programs (s := s.queueJob goal bits) hj hq rfl hbits, ← hjs]
  rfl

/-! ### Random bits (R199) -/

/-- A command that waited for random bits waits no more. -/
def State.entropyServed (c : Call) (s : State) : State :=
  ({ s with sbx := { s.sbx with entropyWaits := s.sbx.entropyWaits.filter fun w => w.call ≠ c } }).waitEnd 80 17 (some c.stall) 0

theorem State.withEntropy_served (c : Call) (body : State → State) {s : State} (h : s.sbx.entropyOk = true) :
    s.withEntropy c body = body (s.entropyServed c) := if_pos h

theorem State.entropyServed_frame (c : Call) (s : State) :
    s.entropyServed c = { s with sbx := (s.entropyServed c).sbx, obs := (s.entropyServed c).obs } := by
  unfold State.entropyServed
  rw [State.waitEnd_frame]

/-! ### DRK_GENERATE and SVN_ADVANCE (R165, R181) -/

/-- No command's programming stands at an idle port. -/
theorem Lcu.noJob_for {l : Lcu} (c : Call) (hj : l.job = none) (hjs : l.jobs = []) :
    ¬ ((l.job.any fun j => decide (j.call? = some c)) || l.jobs.any fun j => decide (j.call? = some c)) = true := by
  simp [hj, hjs]

/-- The bits of the two shares, of their check word and of the COMPLETE bit of a bank. -/
def drkBits (bank : Nat) (a b : Bytes) : List (Nat × Nat) :=
  bytesBits (bankWord bank) a ++ bytesBits (bankWord bank + 8) b ++ bytesBits (bankWord bank + 16) (drkCheck (xorBytes a b)) ++ [(0x3E, bank)]

/-- The COMPLETE bit of a bank that is not complete is still to be programmed. -/
theorem Lcu.missing_drkBits_ne_nil {l : Lcu} {bank : Nat} (a b : Bytes) (h : l.bankComplete bank = false) :
    l.missing (drkBits bank a b) ≠ [] := by
  have hbit : (l.fuse 0x3E).testBit bank = false := h
  have hmem : (0x3E, bank) ∈ l.missing (drkBits bank a b) := List.mem_filter.mpr ⟨by simp [drkBits], by simp [hbit]⟩
  exact List.ne_nil_of_mem hmem

theorem execDrkGenerate_refused {s : State} {c : Call} (ha : s.admits c 0x0207) (hj : s.lcu.job = none) (hjs : s.lcu.jobs = [])
    (h : s.lcu.state ≠ lcProvision ∨ s.lcu.bankEmpty 1 = false ∨ s.lcu.bankComplete 1 = true) :
    execDrkGenerate c s = done (s.begin.finishDetail c stLifecycle 1) := by
  rw [execDrkGenerate, if_neg (Lcu.noJob_for c hj hjs), State.command_run ha]
  exact congrArg done (if_pos (by simpa using h))

theorem execDrkGenerate_draws {s : State} {c : Call} (ha : s.admits c 0x0207) (hj : s.lcu.job = none) (hjs : s.lcu.jobs = [])
    (hstate : s.lcu.state = lcProvision) (hempty : s.lcu.bankEmpty 1 = true) (hcomplete : s.lcu.bankComplete 1 = false)
    (he : s.sbx.entropyOk = true) {bank : Nat} (hbank : bank = if s.lcu.bankEmpty 0 then 0 else 1) : execDrkGenerate c s =
      done ((((s.begin.entropyServed c).tookDraw.tookDraw).queueJob (.drk bank c)
        (drkBits bank (s.drawn 32) (s.tookDraw.drawn 32))).runFuses) := by
  have hok : ¬ (s.begin.lcu.state ≠ lcProvision ∨ ¬ s.begin.lcu.bankEmpty 1 = true ∨ s.begin.lcu.bankComplete 1 = true) := by
    simp [hstate, hempty, hcomplete]
  rw [execDrkGenerate, if_neg (Lcu.noJob_for c hj hjs), State.command_run ha, if_neg hok, hbank,
    State.withEntropy_served (s := s.begin) c _ he, State.entropyServed_frame]
  rfl

/-- The bits that bring a counter up are bits that read 0. -/
theorem Lcu.missing_svnBits (l : Lcu) (w svn : Nat) : l.missing (l.svnBits w svn) = l.svnBits w svn :=
  List.filter_eq_self.mpr fun _ hp => (List.mem_filter.mp (List.mem_of_mem_take hp)).2

/-- The bits that the two counters lack. -/
def State.svnLacking (s : State) : List (Nat × Nat) := s.lcu.svnBits 4 s.cfg.almSvn ++ s.lcu.svnBits 6 s.cfg.patchSvn

theorem Lcu.missing_append (l : Lcu) (a b : List (Nat × Nat)) : l.missing (a ++ b) = l.missing a ++ l.missing b := List.filter_append ..

theorem State.missing_svnLacking (s : State) : s.lcu.missing s.svnLacking = s.svnLacking := by
  rw [State.svnLacking, Lcu.missing_append, Lcu.missing_svnBits, Lcu.missing_svnBits]

theorem execSvnAdvance_eq {s : State} {c : Call} (ha : s.admits c 0x0A02) (hj : s.lcu.job = none) (hjs : s.lcu.jobs = []) :
    execSvnAdvance c s = done (if ¬ s.ald.full = true then s.begin.finish c stHarbour else (s.begin.queueJob (.svn c) s.svnLacking).runFuses) := by
  rw [execSvnAdvance, if_neg (Lcu.noJob_for c hj hjs), State.command_run ha]
  rfl

/-- Where no bit is lacking the command completes at once. -/
theorem State.queueSvn_done {s : State} {c : Call} (hj : s.lcu.job = none) (hjs : s.lcu.jobs = []) (hc : s.rst.coreDeferred = none) :
    (s.queueJob (.svn c) []).runFuses = s.finish c stOk := by
  have hq : (s.queueJob (.svn c) []).lcu.jobs = [{ goal := .svn c, bits := [], stage := 0, retried := false, since := s.clk.elapsed }] :=
    congrArg (· ++ _) hjs
  have hl : ({ (s.queueJob (.svn c) []).lcu with job := none, jobs := [] } : Lcu) = s.lcu := Lcu.idle_eq hj hjs
  rw [State.runFuses_done (s := s.queueJob (.svn c) []) hj hq rfl rfl, hl]
  have hf : ({ s.queueJob (.svn c) [] with lcu := s.lcu } : State).jobDone (.svn c) = s.finish c stOk := rfl
  rw [hf, State.fuseRun_idle, State.coreDue_none] <;> rw [State.finish_frame] <;> assumption

/-! ### Patches (R486) -/

/-- Of Helm a record changes the list of running commands, the completion port and the direct window alone. -/
theorem State.complete_hlm (r : Completion) (s : State) : (s.complete r).hlm = { s.hlm with
    running := (s.complete r).hlm.running, cwq := (s.complete r).hlm.cwq, dwBusy := (s.complete r).hlm.dwBusy
    dwDone := (s.complete r).hlm.dwDone, dwStatus := (s.complete r).hlm.dwStatus, dwBuf := (s.complete r).hlm.dwBuf } := by
  unfold State.complete
  dsimp only
  split
  · split <;> rfl
  · split <;> rfl

theorem State.complete_staged (r : Completion) (s : State) : (s.complete r).hlm.staged = s.hlm.staged :=
  (congrArg Hlm.staged (s.complete_hlm r) :)

/-- The state in which a patch has been read. -/
def State.patchRead (src len : Nat) (s : State) : State := { s with out := [.memRead 0 src len] }

/-- The patch stands among the staged ones. -/
def State.patchStaged (b : Bytes) (s : State) : State := { s with hlm := { s.hlm with staged := s.hlm.staged ++ [patchOf b] } }

section
variable {s : State} {c : Call} {len : Nat} (src : Nat) {b : Bytes} {sigOk : Bool} (ha : s.admits c 0x0102)
  (hroom : s.hlm.staged.length < 8) (hlen : len ≤ 131072)
include ha hroom hlen

theorem execPatchStage_reads : execPatchStage c src len (.ok b) sigOk s = done (match s.patchRefusal b sigOk with
    | some d => (s.patchRead src len).finishDetail c stPatch d
    | none => ((s.patchRead src len).patchStaged b).finishOk c (leBytes 1 (s.hlm.staged.length + 1))) := by
  rw [execPatchStage, State.command_run ha, if_neg (Nat.not_le.mpr hroom : ¬ 8 ≤ s.begin.hlm.staged.length),
    if_neg (Nat.not_lt.mpr hlen)]
  rfl

theorem execPatchStage_accepted (h : s.patchRefusal b sigOk = none) : execPatchStage c src len (.ok b) sigOk s =
    done (((s.patchRead src len).patchStaged b).finishOk c (leBytes 1 (s.hlm.staged.length + 1))) := by
  rw [execPatchStage_reads src ha hroom hlen, h]

theorem execPatchStage_refused {d : Nat} (h : s.patchRefusal b sigOk = some d) : execPatchStage c src len (.ok b) sigOk s =
    done ((s.patchRead src len).finishDetail c stPatch d) := by
  rw [execPatchStage_reads src ha hroom hlen, h]

end

theorem execPatchStage_full {s : State} {c : Call} {src len : Nat} {buf : BufRead} {sigOk : Bool} (ha : s.admits c 0x0102)
    (h : 8 ≤ s.hlm.staged.length ∨ 131072 < len) : execPatchStage c src len buf sigOk s =
      done (if 8 ≤ s.hlm.staged.length then s.begin.finish c stPatchFull else s.begin.finishDetail c stPatch 1) := by
  rw [execPatchStage, State.command_run ha]
  by_cases hfull : 8 ≤ s.hlm.staged.length
  · rw [if_pos (show 8 ≤ s.begin.hlm.staged.length from hfull), if_pos hfull]
  · rw [if_neg (show ¬ 8 ≤ s.begin.hlm.staged.length from hfull), if_neg hfull, if_pos (h.resolve_left hfull)]

/-! ### A core reset starts (R121, R127 to R129) -/

theorem State.endEntropyWaits_frame (l : List EntropyWait) (s : State) :
    l.foldl (fun (t : State) w => t.waitEnd 80 17 (some w.call.stall) 0) s =
      { s with obs := (l.foldl (fun (t : State) w => t.waitEnd 80 17 (some w.call.stall) 0) s).obs } := by
  induction l generalizing s with
  | nil => rfl
  | cons w l ih => rw [List.foldl_cons, ih, State.waitEnd_frame]

/-- The reset control once a core reset with a cause has started. -/
def Rst.inCore (cause now : Nat) (r : Rst) : Rst :=
  { r with coreReset := some now, coreDeferred := none, cause := setBit r.cause cause, coreCount := satAdd 255 r.coreCount 1 }

/-- From `s` to `t` a core reset has started (R121, R127, R128): the reset control and the clocks show it, what stood in Helm's working RAM is
gone, and the keys, the Stalls, the Ledger, the engines and the alarms are as before. -/
structure CoreStarted (cause : Nat) (s t : State) : Prop where
  rst : t.rst = s.rst.inCore cause s.clk.elapsed
  clk : t.clk = { s.clk with tickWork := none }
  waits : t.mrk.waits = []
  sessions : t.att.sessions = []
  parts : t.dom.parts = []
  cwq : t.hlm.cwq = s.hlm.cwq
  fifo : t.hlm.fifo = s.hlm.fifo
  dwDone : t.hlm.dwDone = false
  staged : t.hlm.staged = s.hlm.staged
  applied : t.hlm.applied = s.hlm.applied
  slots : t.sbx.slots = s.sbx.slots
  tiles : t.sbx.tiles = s.sbx.tiles
  stl : t.stl = s.stl
  ldg : t.ldg = s.ldg
  epo : t.epo = s.epo
  mse : t.mse = s.mse
  lse : t.lse = s.lse
  hse : t.hse = s.hse
  alr : t.alr = s.alr
  nvm : t.nvm = s.nvm
  lcu : t.lcu = s.lcu
  out : t.out = s.out

/-- Nothing is given up where nothing is being exported. -/
theorem State.dropExport_none {s : State} (h : s.tol.running = none) : s.dropExport = s := by rw [State.dropExport, h]

theorem State.startCore_started (cause : Nat) {s : State} (h : s.tol.running = none) : CoreStarted cause s (s.startCore cause) := by
  unfold State.startCore
  rw [State.dropExport_none h]
  dsimp only
  rw [State.endEntropyWaits_frame]
  constructor <;> rfl

/-- A source of C starts it in service, where no fuse is programmed and no transition runs (R119, R137). -/
theorem State.beginCore_serving (cause : Nat) {s : State} (hs : s.serving) (hj : s.lcu.job = none) (hjs : s.lcu.jobs = [])
    (ht : s.lcu.transition = none) : s.beginCore cause = s.startCore cause := by
  obtain ⟨hp, hb, hq⟩ := hs
  have hw : s.coreWaits = false := by simp [State.coreWaits, hj, hjs, ht]
  rw [State.beginCore, if_neg (by simp [hp, hb, hq]), hw, if_neg Bool.false_ne_true]

theorem execPatchCommit_starts {s : State} {c : Call} (ha : s.admits c 0x0103) (hc : s.rst.patchCall ≠ some c) (hj : s.lcu.job = none)
    (hjs : s.lcu.jobs = []) (ht : s.lcu.transition = none) : execPatchCommit c s =
      done (({ s.begin with rst := { s.rst with patchCall := some c } } : State).startCore causeCorePatch) := by
  have hs : ({ s.begin with rst := { s.rst with patchCall := some c } } : State).serving := ha.1
  rw [execPatchCommit, if_neg hc, State.command_run ha]
  exact congrArg done (State.beginCore_serving _ hs hj hjs ht)

/-! ### The statement -/

/-- Settles O23: each clause is its command's lemma, with the fuse port idle before it and the core reset started by the last. -/
theorem provisionAndPatch : Obligations.ProvisionAndPatch := by
  refine ⟨?generate, fun s c ha hj hjs h => execDrkGenerate_refused ha hj hjs h, ?harbour, ?enough, ?lacking,
    fun s c src len buf sigOk ha h => execPatchStage_full ha h, ?staged, ?refused, ?commit⟩
  case generate =>
    intro s c bank ha hstate hempty hcomplete he hj hjs hbank hopen
    have hexec := execDrkGenerate_draws ha hj hjs hstate hempty hcomplete he hbank
    have hlcu : (s.begin.entropyServed c).tookDraw.tookDraw.lcu = s.lcu := by rw [State.entropyServed_frame]; rfl
    cases hbits : s.lcu.missing (drkBits bank (s.drawn 32) (s.tookDraw.drawn 32)) with
    | nil => exact absurd hbits (Lcu.missing_drkBits_ne_nil _ _ hopen)
    | cons p rest =>
      have hrun := State.queueJob_programs (s := (s.begin.entropyServed c).tookDraw.tookDraw) (goal := .drk bank c)
        (hlcu ▸ hj) (hlcu ▸ hjs) (hlcu ▸ hbits)
      rw [hrun, State.entropyServed_frame] at hexec
      refine ⟨_, hexec, ⟨?_, ?_⟩, rfl, rfl⟩
      · exact congrArg (fun l => ({ s.lcu with
          job := some { goal := .drk bank c, bits := l, stage := 1, retried := false, since := s.clk.elapsed } } : Lcu)) hbits.symm
      · exact congrArg (fun l : List (Nat × Nat) => (l.head?.map fun p => Out.fusePgm p.1 p.2).toList) hbits.symm
  case harbour =>
    intro s c ha hj hjs hfull
    exact (execSvnAdvance_eq ha hj hjs).trans (by rw [if_pos (by simp [hfull])]; rfl)
  case enough =>
    intro s c ha hj hjs hc hfull hbits
    have hl : s.svnLacking = [] := hbits
    exact (execSvnAdvance_eq ha hj hjs).trans
      (by rw [if_neg (by simp [hfull]), hl, State.queueSvn_done (s := s.begin) hj hjs hc]; rfl)
  case lacking =>
    intro s c w b more ha hj hjs hfull hbits
    have hl : s.svnLacking = (w, b) :: more := hbits
    exact (execSvnAdvance_eq ha hj hjs).trans (by
      rw [if_neg (by simp [hfull]), State.queueJob_programs (s := s.begin) hj hjs (s.missing_svnLacking.trans hl)]; rfl)
  case staged =>
    intro s c src len b sigOk ha hroom hlen hok
    refine ⟨_, execPatchStage_accepted src ha hroom hlen hok, ?_, State.finishOk_recorded _ _ ha.1.2.2, State.complete_staged _ _, ?_⟩ <;>
      rw [State.finishOk_frame] <;> rfl
  case refused =>
    intro s c src len d b sigOk ha hroom hlen hno
    refine ⟨_, execPatchStage_refused src ha hroom hlen hno, ?_, State.finishDetail_recorded _ _ _ ha.1.2.2,
      State.complete_staged _ _, ?_⟩ <;>
      rw [State.finishDetail_frame] <;> rfl
  case commit =>
    intro s c ha hc hj hjs ht htol
    have hk := State.startCore_started causeCorePatch (s := { s.begin with rst := { s.rst with patchCall := some c } }) htol
    exact ⟨_, execPatchCommit_starts ha hc hj hjs ht, hk.rst, hk.waits, hk.cwq, hk.dwDone, hk.staged, hk.applied, hk.sessions, hk.parts,
      hk.slots, hk.stl, hk.ldg, hk.epo, hk.mse, hk.lse, hk.hse, hk.nvm, hk.lcu, hk.clk⟩

end Sys2Proof.Machine

/-!
Core reset and Safe Stop (O29).

Both sources of a core reset start the same one, whose effects `CoreStarted` names. Its end measures the firmware anew, which touches
measurements and the event alone, before the record of a waiting PATCH_COMMIT is written.
-/

namespace Sys2Proof.Machine

/-! ### The watchdog (R118, R119) -/

/-- The expiries of the last 10 s. -/
def State.recentWdog (s : State) : List Nat := s.rst.wdogTimes.filter fun (w : Nat) => decide (s.clk.elapsed ≤ w + 10 ^ 10)

/-- An expiry is noted. -/
def State.wdogNoted (s : State) : State :=
  { s.begin with rst := { s.rst with wdogTimes := (s.clk.elapsed :: s.recentWdog).take 3 } }

theorem execHelmWatchdogExpiry_serving {s : State} (hs : s.serving) : execHelmWatchdogExpiry s =
    done (if 3 ≤ ((s.clk.elapsed :: s.recentWdog).take 3).length
      then s.wdogNoted.alarmSafestop unitRcu 2 ((s.clk.elapsed :: s.recentWdog).take 3).length
      else s.wdogNoted.beginCore causeCoreWdog) := by
  obtain ⟨hp, hb, hq⟩ := hs
  exact congrArg done (if_neg (by simp [hp, hb, hq]))

theorem execHelmWatchdogExpiry_few {s : State} (hs : s.serving) (h : s.recentWdog.length < 2) :
    execHelmWatchdogExpiry s = done (s.wdogNoted.beginCore causeCoreWdog) := by
  rw [execHelmWatchdogExpiry_serving hs, if_neg (by rw [List.length_take, List.length_cons]; omega)]

theorem execHelmWatchdogExpiry_third {s : State} (hs : s.serving) (h : 2 ≤ s.recentWdog.length) :
    execHelmWatchdogExpiry s = done (s.wdogNoted.alarmSafestop unitRcu 2 3) := by
  have hlen : ((s.clk.elapsed :: s.recentWdog).take 3).length = 3 := by rw [List.length_take, List.length_cons]; omega
  rw [execHelmWatchdogExpiry_serving hs, hlen, if_pos (le_refl 3)]

/-! ### Safe Stop and the quiet state -/

/-- Of the reset control Safe Stop sets rst_req alone (R520). -/
theorem State.enterSafeStop_rst (s : State) : s.enterSafeStop.rst = { s.rst with rstReq := true } := by
  unfold State.enterSafeStop State.enterQuiet
  cases s.rst.rstBusy <;> cases s.alr.quiet <;> rfl

/-- What the quiet state ends: the commands that run, the records that wait, and the work of every MSE (R89, R530). -/
structure Quieted (s t : State) : Prop where
  quiet : t.alr.quiet = true
  safeStop : t.alr.safeStop = s.alr.safeStop
  running : t.hlm.running = []
  cwq : t.hlm.cwq = []
  mse : t.mse = s.mse.map Mse.squash

theorem State.enterQuiet_quieted {s : State} (h : s.alr.quiet = false) : Quieted s s.enterQuiet := by
  rw [State.enterQuiet, h, if_neg Bool.false_ne_true]
  constructor <;> rfl

/-- An MSE whose work is squashed holds no request and has no hazard entry. -/
theorem squashed_empty (l : List Mse) : (l.map Mse.squash).all (fun m => m.held.isEmpty && m.hazards.isEmpty) = true := by
  rw [List.all_map]
  exact List.all_eq_true.mpr fun _ _ => rfl

/-! ### XS_RCU_RESET (R142) -/

theorem execCoreResetRequest_granted {s : State} {fn : Nat} (hg : s.grants fn true 0x010024) :
    execCoreResetRequest fn s = done ((s.begin.beginCore causeCoreCmd).regAnswer (some fn) false 0) := by
  have hv : s.readReg fn 0x010024 = some 0 := rfl
  rw [execCoreResetRequest, State.begin_regWrite_granted 1 hg hv rfl]
  rfl

theorem execSysReqWrite_granted {s : State} {fn : Nat} (hg : s.grants fn true 0x010024) : execSysReqWrite fn s =
    done (({ s.begin.enterQuiet with rst := { s.rst with rstReq := true } } : State).regAnswer (some fn) false 0) := by
  have hv : s.readReg fn 0x010024 = some 0 := rfl
  rw [execSysReqWrite, State.begin_regWrite_granted 2 hg hv rfl]
  rfl

/-! ### Firmware measured anew (R127, R357, R359) -/

/-- From `s` to `t` only certificates were issued. -/
def OnlyIssued (s t : State) : Prop :=
  t = { s with att := { s.att with aliases := t.att.aliases, leafs := t.att.leafs }, obs := t.obs, fresh := t.fresh }

theorem OnlyIssued.trans {s t u : State} (h : OnlyIssued s t) (k : OnlyIssued t u) : OnlyIssued s u := by
  unfold OnlyIssued at *
  rw [k, h]

theorem State.issueAlias_only (s : State) : OnlyIssued s s.issueAlias := by
  have hfold : ∀ (l : List (Nat × Stall)) (t : State), OnlyIssued t (l.foldl (fun t p => t.issueLeaf p.1) t) := by
    intro l
    induction l with
    | nil => exact fun _ => rfl
    | cons p l ih => exact fun t => OnlyIssued.trans (t := t.issueLeaf p.1) rfl (ih _)
  exact OnlyIssued.trans (t := ({ s.tookDraw with att := { s.att with aliases := s.att.aliases + 1 } } : State).bump (ctrSbx 7) 1) rfl
    (hfold _ _)

/-- The firmware measured anew; EV_EVIDENCE_CHANGED and new certificates where the measurement changed with an Almanac in force. -/
def State.measureAnew (s : State) : State :=
  if s.measureFirmware s.almDigest = s.att.mFw ∨ s.ald.noAlmanac = true then s.measure
  else (s.measure.event evEvidenceChanged unitHelm none s.hlm.applied.length 0).issueAlias

/-- From `s` to `t` only measurements, certificates and events differ. -/
def OnlyMeasured (s t : State) : Prop :=
  t = { s with att := t.att, obs := t.obs, fresh := t.fresh, hlm := { s.hlm with fifo := t.hlm.fifo, irqUrgent := t.hlm.irqUrgent } }

theorem OnlyMeasured.trans {s t u : State} (h : OnlyMeasured s t) (k : OnlyMeasured t u) : OnlyMeasured s u := by
  unfold OnlyMeasured at *
  rw [k, h]

theorem OnlyIssued.measured {s t : State} (h : OnlyIssued s t) : OnlyMeasured s t := by
  unfold OnlyMeasured
  rw [h]

/-- From `s` to `t` the firmware has been measured. -/
structure Measured (s t : State) : Prop where
  only : OnlyMeasured s t
  mFw : t.att.mFw = s.measureFirmware s.almDigest
  fifo : t.hlm.fifo = if s.measureFirmware s.almDigest = s.att.mFw ∨ s.ald.noAlmanac = true then s.hlm.fifo
    else (s.event evEvidenceChanged unitHelm none s.hlm.applied.length 0).hlm.fifo

theorem State.measure_only (s : State) : OnlyMeasured s s.measure := rfl

theorem State.event_only (code unit : Nat) (stall : Option Nat) (arg0 arg1 : Nat) (s : State) :
    OnlyMeasured s (s.event code unit stall arg0 arg1) := rfl

theorem State.measureAnew_measured (s : State) : Measured s s.measureAnew := by
  unfold State.measureAnew
  by_cases h : s.measureFirmware s.almDigest = s.att.mFw ∨ s.ald.noAlmanac = true
  · rw [if_pos h]
    exact ⟨s.measure_only, rfl, (if_pos h).symm⟩
  · rw [if_neg h]
    have hk := State.issueAlias_only (s.measure.event evEvidenceChanged unitHelm none s.hlm.applied.length 0)
    exact ⟨(s.measure_only.trans (State.event_only ..)).trans hk.measured, congrArg (·.att.mFw) hk,
      (congrArg (·.hlm.fifo) hk).trans (if_neg h).symm⟩

/-! ### The end of a core reset (R106, R127, R129) -/

/-- The patches that may be applied: those not below the fused SVN. -/
def State.applicable (s : State) : List Patch := s.hlm.staged.filter fun p => s.lcu.svn 6 ≤ p.svn

/-- The core reset that began at `since` is over, with its patches applied. -/
def State.coreEnded (since : Nat) (s : State) : State :=
  { s.begin with
    rst := { s.rst with coreReset := none, queuedTicks := [], discarded := 0 }
    alr := { s.alr with progressAt := s.alr.progressAt + (s.clk.elapsed - since) }
    hlm := { s.hlm with applied := s.applicable } }

theorem execCoreResetEnd_eq {s : State} {since : Nat} (hc : s.rst.coreReset = some since) (hq : s.alr.quiet = false)
    (hticks : s.rst.queuedTicks = []) : execCoreResetEnd s = done (s.coreEnded since).measureAnew.finishPatch := by
  unfold execCoreResetEnd
  simp only [State.begin_rst, hc, hticks]
  exact congrArg done (if_neg (by simp [State.applyPatches, hq]))

theorem State.finishPatch_none {s : State} (h : s.rst.patchCall = none) : s.finishPatch = s := by rw [State.finishPatch, h]

theorem State.finishPatch_some {s : State} {c : Call} (h : s.rst.patchCall = some c) : s.finishPatch =
    ({ s with rst := { s.rst with patchCall := none } } : State).finishOk c (leBytes 1 s.hlm.applied.length) := by
  rw [State.finishPatch, h]

theorem State.complete_applied (r : Completion) (s : State) : (s.complete r).hlm.applied = s.hlm.applied :=
  (congrArg Hlm.applied (s.complete_hlm r) :)

/-- What a record adds is seen from every state with the same completion port. -/
theorem State.recorded_of_port {s u t : State} {r : Completion} (hcwq : u.hlm.cwq = s.hlm.cwq) (hbuf : u.hlm.dwBuf = s.hlm.dwBuf)
    (h : u.recorded t r) : s.recorded t r := by
  unfold State.recorded at *
  rwa [hcwq, hbuf] at h

/-! ### SAFE_STOP_DRAIN_DONE (R530) -/

theorem execSafeStopDrainDone_drained {s : State} (hs : s.alr.safeStop = true) (hq : s.alr.quiet = true)
    (hm : s.mse.all (fun m => m.ops.isEmpty) = true) :
    execSafeStopDrainDone s = done { s.begin with alr := { s.alr with ssIdle := true } } :=
  congrArg done (if_pos ⟨hs, hq, hm⟩)

/-! ### The statement -/

/-- Settles O29: each clause is its command's lemma, with what the start and the end of a core reset do. -/
theorem coreResetAndSafeStop : Obligations.CoreResetAndSafeStop := by
  refine ⟨?few, ?third, ?request, ?sysReq, ?ended, ?patched, fun s hs hq hm => execSafeStopDrainDone_drained hs hq hm⟩
  case few =>
    intro s hs _ hfew hj hjs ht htol
    have hexec := execHelmWatchdogExpiry_few hs hfew
    rw [State.beginCore_serving (s := s.wdogNoted) causeCoreWdog hs hj hjs ht] at hexec
    have hk := State.startCore_started causeCoreWdog (s := s.wdogNoted) htol
    have htimes : (s.clk.elapsed :: s.recentWdog).take 3 = s.clk.elapsed :: s.recentWdog :=
      List.take_of_length_le (Nat.succ_le_of_lt (Nat.lt_succ_of_lt hfew))
    refine ⟨_, hexec, hk.rst.trans ?_, hk.waits, hk.sessions, hk.cwq, hk.fifo, hk.slots, hk.tiles, hk.stl, hk.ldg, hk.epo, hk.mse, hk.lse,
      hk.hse, hk.alr, hk.nvm⟩
    rw [State.wdogNoted, htimes]
    rfl
  case third =>
    intro s hs hthird
    have hk := State.enterSafeStop_keepsKeys (s.wdogNoted.logAlarm alSafestop unitRcu none 2 3)
    exact ⟨_, execHelmWatchdogExpiry_third hs hthird, State.enterSafeStop_safeStop _, State.enterSafeStop_quiet hs.2.1,
      State.enterSafeStop_rstReq _, (congrArg Rst.coreReset (State.enterSafeStop_rst _) :), hk.sbx, hk.ldg, hk.epo, hk.table⟩
  case request =>
    intro s fn hs hg _ hj hjs ht htol
    have hexec := execCoreResetRequest_granted hg
    rw [State.beginCore_serving (s := s.begin) causeCoreCmd hs hj hjs ht, State.regAnswer_function] at hexec
    have hk := State.startCore_started causeCoreCmd (s := s.begin) htol
    exact ⟨_, hexec, congrArg (· ++ _) hk.out, hk.rst, hk.waits, hk.sessions, hk.cwq, hk.slots, hk.stl, hk.ldg, hk.epo, hk.mse, hk.alr,
      hk.nvm⟩
  case sysReq =>
    intro s fn hs hg
    have hexec := execSysReqWrite_granted hg
    rw [State.regAnswer_function] at hexec
    have hq := State.enterQuiet_quieted (s := s.begin) hs.2.2
    have hk := s.begin.enterQuiet_keepsKeys
    exact ⟨_, hexec, rfl, hq.quiet, hq.safeStop, hq.running, hq.cwq, hq.mse ▸ squashed_empty s.mse, List.getLast?_concat, hk.sbx, hk.ldg,
      hk.epo, hk.table⟩
  case ended =>
    intro s since ps m hc hq hticks hpatch hps hm
    have hexec := execCoreResetEnd_eq hc hq hticks
    have hk := (s.coreEnded since).measureAnew_measured
    rw [State.finishPatch_none ((congrArg (·.rst.patchCall) hk.only :).trans hpatch)] at hexec
    subst hps hm
    exact ⟨_, hexec, (congrArg State.rst hk.only :), (congrArg (·.hlm.applied) hk.only :), hk.mFw, hk.fifo,
      (congrArg (·.hlm.cwq) hk.only :), (congrArg (·.hlm.buffer) hk.only :), (congrArg State.sbx hk.only :),
      (congrArg State.stl hk.only :), (congrArg State.ldg hk.only :), (congrArg State.epo hk.only :), (congrArg State.mse hk.only :)⟩
  case patched =>
    intro s since c hc hq hticks hpatch
    have hexec := execCoreResetEnd_eq hc hq hticks
    have hk := (s.coreEnded since).measureAnew_measured
    have happ : (s.coreEnded since).measureAnew.hlm.applied = s.applicable := (congrArg (·.hlm.applied) hk.only :)
    rw [State.finishPatch_some ((congrArg (·.rst.patchCall) hk.only :).trans hpatch), happ] at hexec
    generalize hu : (s.coreEnded since).measureAnew = u at hexec hk happ
    have hf := State.finishOk_frame c (leBytes 1 s.applicable.length) { u with rst := { u.rst with patchCall := none } }
    refine ⟨_, hexec, (congrArg State.rst hf :).trans ?_, (State.complete_applied _ _).trans happ, ?_,
      (congrArg State.sbx hf :).trans (congrArg State.sbx hk.only :), (congrArg State.stl hf :).trans (congrArg State.stl hk.only :),
      (congrArg State.ldg hf :).trans (congrArg State.ldg hk.only :), (congrArg State.epo hf :).trans (congrArg State.epo hk.only :),
      (congrArg State.mse hf :).trans (congrArg State.mse hk.only :)⟩
    · exact (congrArg (fun t : State => { t.rst with patchCall := none }) hk.only :)
    · have hquiet : u.alr.quiet = false := (congrArg (·.alr.quiet) hk.only :).trans hq
      have hrec := State.finishOk_recorded (s := { u with rst := { u.rst with patchCall := none } }) c (leBytes 1 s.applicable.length) hquiet
      exact State.recorded_of_port (congrArg (·.hlm.cwq) hk.only :) (congrArg (·.hlm.dwBuf) hk.only :) hrec

end Sys2Proof.Machine

/-!
P, S and the release (O28).

After P and S every part is at its value after power-on but for what the statement names. The release samples its inputs, decodes the
fuses and loads what they give; the Steelyard's seed is the only thing the start-up may have to program, and it touches nothing else.
-/

namespace Sys2Proof.Machine

/-! ### P (R118, R121) -/

theorem State.endsLoad_iff (s : State) : s.endsLoad = true ↔ s.rst.phase = .loading ∧ s.rst.rstBusy = true := by
  rw [State.endsLoad, Bool.and_eq_true, decide_eq_true_eq]

theorem State.assertP_rst (s : State) :
    s.assertP.rst = { Rst.atReset with cause := if s.rst.phase = .loading ∧ s.rst.rstBusy = true then 0x21 else 1 } := by
  have hbit : setBit Rst.atReset.cause causeLoadRestart = 0x21 := by decide
  simp only [← s.endsLoad_iff]
  unfold State.assertP
  cases s.endsLoad
  · rfl
  · exact congrArg (fun c => { Rst.atReset with cause := c }) hbit

/-- No link and no host stream has a key after power-on. -/
theorem State.powerOn_keyless (b : Build) (pins : Pins) (fuses : List (Nat × Nat)) (nvm : Nvm) (fresh : Nat) :
    (State.powerOn b pins fuses nvm fresh).lse.all (fun l => l.tx.key.isEmpty && l.secret.isEmpty) = true ∧
      (State.powerOn b pins fuses nvm fresh).hse.all (fun h => h.keys.isEmpty) = true := by
  constructor <;> refine List.all_eq_true.mpr fun x hx => ?_ <;> rw [List.eq_of_mem_replicate hx] <;> rfl

/-! ### S (R118, R121, R141) -/

/-- S is asserted outside P, where rst_sys_n was not 0 in a reset already. -/
theorem execSystemReset_asserts {s : State} (hp : s.pins.porN = true) (h : s.rst.phase ≠ .inReset ∨ s.pins.sysN = true) :
    execSystemReset s = done s.begin.assertS :=
  congrArg done (if_neg (by rcases h with h | h <;> simp [hp, h]))

theorem getLsbD_setBit_ne {w : Nat} (v : BitVec w) {i j : Nat} (h : i ≠ j) : (setBit v i).getLsbD j = v.getLsbD j := by
  simp [getLsbD_setBit, h]

theorem State.causeAtS_sys (s : State) : s.causeAtS.getLsbD causeSys = true := by
  unfold State.causeAtS
  dsimp only
  split <;> split <;> split <;> simp [getLsbD_setBit, causeSys]

theorem State.causeAtS_sysAfterTamper (s : State) :
    s.causeAtS.getLsbD causeSysAfterTamper = (s.alr.tamper || s.rst.cause.getLsbD causeSysAfterTamper) := by
  have hself (c : BitVec 11) : (setBit c causeSysAfterTamper).getLsbD causeSysAfterTamper = true := by
    simp [getLsbD_setBit, causeSysAfterTamper]
  unfold State.causeAtS
  cases s.alr.tamper <;> cases s.alr.safeStop <;> cases s.endsLoad <;>
    simp (disch := decide) only [Bool.false_eq_true, if_true, if_false, getLsbD_setBit_ne, hself, Bool.true_or, Bool.false_or]

/-! ### The release (R122, R123) -/

/-- The reset inputs are back at 1, with clkc_good at 1. -/
def State.released (s : State) : State := { s.begin with pins := { s.pins with porN := true, sysN := true, clkcGood := true } }

theorem execResetRelease_early {s : State} {good : Bool} (cool : Bool) (tp tpB : Nat) (ff : Option Nat) (tr : Trims)
    (hp : s.rst.phase = .inReset) (h : good = false ∨ s.mon.stop.isSome = true) : execResetRelease good cool tp tpB ff tr s =
      done { s.begin with
        pins := { s.pins with porN := true, sysN := true, clkcGood := good }
        rst := { s.rst with cause := setBit s.rst.cause causeEarlyRelease } } := by
  refine congrArg done ((if_neg (not_not.mpr hp)).trans (if_pos ?_))
  rcases h with h | h <;> simp [h]

theorem execResetRelease_good {s : State} (cool : Bool) (tp tpB : Nat) (ff : Option Nat) (tr : Trims) (hp : s.rst.phase = .inReset)
    (h : s.mon.stop = none) : execResetRelease true cool tp tpB ff tr s = done (s.released.release cool tp tpB ff tr) :=
  congrArg done ((if_neg (not_not.mpr hp)).trans (if_neg (by simp [h])))

/-- No pair is in the alarm condition at its quiet levels (R85). -/
theorem pairBad_quiet (p : Pins) : ∀ i < 8, ({ p with tamper := 0, tamperB := 0xFF } : Pins).pairBad i = false := by
  have hall : ∀ i < 8, ((0 : BitVec 8).getLsbD i == (0xFF : BitVec 8).getLsbD i || (0 : BitVec 8).getLsbD i) = false := by decide
  exact hall

theorem State.sampleTamper_quiet (s : State) :
    s.sampleTamper 0 0xFF = { s with pins := { s.pins with tamper := 0, tamperB := 0xFF } } := by
  rw [s.sampleTamper_eq 0 0xFF rfl, List.filter_eq_nil_iff.mpr]
  · rfl
  · intro i hi
    have hq := pairBad_quiet s.pins i (List.mem_range.mp hi)
    simp only [Bool.and_eq_true, not_and, Bool.not_eq_true]
    intro ⟨_, hbad⟩
    exact absurd (hbad.symm.trans hq) (by decide)

/-- Coolant flows. -/
def State.cooled (s : State) : State := { s with pins := { s.pins with coolantOk := true } }

theorem State.sampleCoolant_good (s : State) : s.sampleCoolant true = s.cooled :=
  if_neg (by simp)

/-- Start-up begins: the load's phase, the trims, a fresh NONCE, the inputs quiet. -/
def State.starting (tr : Trims) (s : State) : State :=
  { s with
    rst := { s.rst with phase := .loading }
    clk := { s.clk with releasedAt := s.clk.elapsed }
    lcu := { s.lcu with trims := tr, nonce := s.drawn 32 }
    pins := { s.pins with tamper := 0, tamperB := 0xFF }
    fresh := s.fresh + 1 }

theorem State.release_quiet (tr : Trims) (s : State) :
    s.release true 0 0xFF none tr = ((s.starting tr).cooled).startUp := by
  unfold State.release
  simp only [State.sampleTamper_quiet, State.sampleCoolant_good]
  rfl

theorem State.release_fuseFail (cool : Bool) (w : Nat) (tr : Trims) (s : State) : s.release cool 0 0xFF (some w) tr =
    ({ (s.starting tr).sampleCoolant cool with
      rst := { ((s.starting tr).sampleCoolant cool).rst with noLoad := true }
      lcu := { ((s.starting tr).sampleCoolant cool).lcu with state := lcInvalid } } : State).alarmTamper unitLifecycle 3 w := by
  unfold State.release
  simp only [State.sampleTamper_quiet]
  rfl

/-! ### The Steelyard's programming (R578, R580) -/

/-- From `s` to `t` only what stands at the fuse port, the Steelyard, outputs and draws differ. -/
def OnlyFusePort (s t : State) : Prop :=
  t = { s with out := t.out, sty := t.sty, fresh := t.fresh, lcu := { s.lcu with job := t.lcu.job, jobs := t.lcu.jobs } }

theorem OnlyFusePort.trans {s t u : State} (h : OnlyFusePort s t) (k : OnlyFusePort t u) : OnlyFusePort s u := by
  unfold OnlyFusePort at *
  rw [k, h]

/-- The fuse port is idle, or has one job of the Steelyard to take up. -/
def Lcu.steelyardOnly (l : Lcu) : Prop :=
  l.job = none ∧ (l.jobs = [] ∨ ∃ j, l.jobs = [j] ∧ j.stage = 0 ∧ (j.goal = .styseed ∨ j.goal = .sealBreak))

theorem State.useSeed_frame (s : State) : s.useSeed = { s with sty := s.useSeed.sty } := by
  unfold State.useSeed
  dsimp only
  split <;> rfl

/-- Programming of the Steelyard touches the port and the Steelyard alone. -/
theorem State.runFuses_steelyard {s : State} (h : s.lcu.steelyardOnly) (hc : s.rst.coreDeferred = none) : OnlyFusePort s s.runFuses := by
  obtain ⟨hj, hjs | ⟨j, hjs, hstage, hgoal⟩⟩ := h
  · rw [State.runFuses_idle hj hjs hc]
    rfl
  · cases hbits : s.lcu.missing j.bits with
    | cons p rest =>
      rw [State.runFuses_programs hj hjs hstage hbits]
      rfl
    | nil =>
      rw [State.runFuses_done hj hjs hstage hbits]
      rcases hgoal with hgoal | hgoal <;> rw [hgoal, State.jobDone]
      · rw [State.useSeed_frame, State.fuseRun_idle 14 rfl rfl, State.coreDue_none]
        · rfl
        · exact hc
      · rw [State.fuseRun_idle 14 rfl rfl, State.coreDue_none]
        · rfl
        · exact hc

/-! ### What the fuses give (R125, R166, R179) -/

/-- The trims' repairs are in force. -/
def State.charted (s : State) : State :=
  { s with cht := { s.cht with
    spareLanes := s.lcu.trims.lanes.map fun (p : Nat × Nat) => (p.1, p.2, false), ksBank := s.lcu.trims.bank, ksField := false
    rows := s.lcu.trims.rows } }

/-- The root register holds the DRK of a bank, or the test DRK. -/
def State.rooted (bank : Option Nat) (s : State) : State :=
  { s with sbx := { s.sbx with
    root := (bank.map s.lcu.bankKey).getD (zeros 32), drkOk := true, drkTest := bank.isNone, drkBank := bank.getD 0 } }

/-- The Steelyard's seed is taken from the fuses, drawn and programmed, or the one for tests (R578). -/
def State.loadSeed (s : State) : State :=
  if ¬ s.build.sty ∨ s.sbx.zeroNet then s
  else if s.lcu.state = lcProvision then
    if (List.range 17).all fun k => decide (s.lcu.fuse (0xE0 + k) = 0) then
      s.tookDraw.tookDraw.useTestSeed.queueJob .styseed (bytesBits 0xE0 (s.drawn 32) ++ bytesBits 0xE8 (s.tookDraw.drawn 32) ++
        bytesBits 0xF0 (seedCheck (xorBytes (s.drawn 32) (s.tookDraw.drawn 32))))
    else s.useSeed
  else if s.lcu.state = lcDeployed then s.useSeed
  else s.useTestSeed

theorem State.loadFuses_eq {s : State} (hf : s.lcu.trims.failed = none) : s.loadFuses = s.charted.loadDrk.loadSeed := by
  rw [State.loadFuses, hf]
  rfl

/-- A good DRK: the bank the state selects has the check word of its key. -/
structure GoodDrk (bank : Option Nat) (s : State) : Prop where
  zeroNet : s.sbx.zeroNet = false
  selected : s.lcu.bank? = bank
  check : (bank.all fun b => decide (drkCheck (s.lcu.bankKey b) = s.lcu.wordBytes (bankWord b + 16) 1)) = true

theorem State.loadDrk_good {bank : Option Nat} {s : State} (h : GoodDrk bank s) : s.loadDrk = s.rooted bank := by
  obtain ⟨hz, hb, hcheck⟩ := h
  rw [State.loadDrk, hz, if_neg Bool.false_ne_true, hb]
  cases bank with
  | none => rfl
  | some b =>
    rw [Option.all_some, decide_eq_true_iff] at hcheck
    exact if_pos hcheck

theorem State.queueJob_only (goal : FuseGoal) (bits : List (Nat × Nat)) (s : State) : OnlyFusePort s (s.queueJob goal bits) := rfl

theorem State.queueJob_steelyard {s : State} {goal : FuseGoal} {bits : List (Nat × Nat)} (hj : s.lcu.job = none) (hjs : s.lcu.jobs = [])
    (hg : goal = .styseed ∨ goal = .sealBreak) : (s.queueJob goal bits).lcu.steelyardOnly :=
  ⟨hj, .inr ⟨{ goal, bits, stage := 0, retried := false, since := s.clk.elapsed }, congrArg (· ++ _) hjs, rfl, hg⟩⟩

/-- The Steelyard's seed leaves an idle port idle, or with the one job that programs it. -/
theorem State.loadSeed_only {s : State} (hj : s.lcu.job = none) (hjs : s.lcu.jobs = []) :
    OnlyFusePort s s.loadSeed ∧ s.loadSeed.lcu.steelyardOnly := by
  have hidle : s.lcu.steelyardOnly := ⟨hj, .inl hjs⟩
  have hused : OnlyFusePort s s.useSeed ∧ s.useSeed.lcu.steelyardOnly := by
    rw [State.useSeed_frame]
    exact ⟨rfl, hidle⟩
  unfold State.loadSeed
  split
  · exact ⟨rfl, hidle⟩
  · split
    · split
      · have hq := State.queueJob_only .styseed (bytesBits 0xE0 (s.drawn 32) ++ bytesBits 0xE8 (s.tookDraw.drawn 32) ++
          bytesBits 0xF0 (seedCheck (xorBytes (s.drawn 32) (s.tookDraw.drawn 32)))) s.tookDraw.tookDraw.useTestSeed
        exact ⟨OnlyFusePort.trans (t := s.tookDraw.tookDraw.useTestSeed) rfl hq, State.queueJob_steelyard hj hjs (.inl rfl)⟩
      · exact hused
    · split
      · exact hused
      · exact ⟨rfl, hidle⟩

/-- The lifecycle state decoded. -/
def State.decoded (code : Nat) (s : State) : State := { s with lcu := { s.lcu with state := code } }

theorem State.startUp_dead {s : State} {code : Nat} (hd : s.lcu.decode = .state code) (h : code = lcScrap ∨ code = lcInvalid) :
    s.startUp = (s.decoded code).enterDead := by
  rw [State.startUp, hd]
  exact if_pos h

/-- Start-up goes on in a state but ANALYSIS that is not dead. -/
theorem State.startUp_alive {s : State} {code : Nat} {bank : Option Nat} (hd : s.lcu.decode = .state code) (hs : code ≠ lcScrap)
    (hi : code ≠ lcInvalid) (ha : code ≠ lcAnalysis) (hf : s.lcu.trims.failed = none) (hj : s.lcu.job = none) (hjs : s.lcu.jobs = [])
    (hc : s.rst.coreDeferred = none) (h : GoodDrk bank (s.decoded code)) :
    OnlyFusePort ((s.decoded code).charted.rooted bank) s.startUp := by
  have hup : s.startUp = (s.decoded code).loadFuses.runFuses := by
    rw [State.startUp, hd]
    exact (if_neg (not_or.mpr ⟨hs, hi⟩)).trans (by rw [if_neg ha]; rfl)
  have hdrk : GoodDrk bank (s.decoded code).charted := ⟨h.zeroNet, h.selected, h.check⟩
  obtain ⟨hload, hjobs⟩ := State.loadSeed_only (s := (s.decoded code).charted.rooted bank) hj hjs
  rw [hup, State.loadFuses_eq (s := s.decoded code) hf, State.loadDrk_good hdrk]
  exact hload.trans (State.runFuses_steelyard hjobs ((congrArg (·.rst.coreDeferred) hload :).trans hc))

/-! ### A fuse word that does not return (R82) -/

/-- A coolant alarm at the release sets rst_req alone in the reset control. -/
theorem State.sampleCoolant_rst (ok : Bool) (s : State) :
    (s.sampleCoolant ok).rst = { s.rst with rstReq := (s.sampleCoolant ok).rst.rstReq } := by
  unfold State.sampleCoolant
  dsimp only
  split
  · exact State.enterSafeStop_rst _
  · rfl

theorem State.alarmTamper_rst (unit cause word : Nat) (s : State) : (s.alarmTamper unit cause word).rst = { s.rst with rstReq := true } :=
  State.enterSafeStop_rst _

/-- An alarm leaves the lifecycle state. -/
theorem State.alarmTamper_lcState (unit cause word : Nat) (s : State) : (s.alarmTamper unit cause word).lcu.state = s.lcu.state := by
  rw [State.alarmTamper_eq]
  unfold State.enterSafeStop State.enterQuiet
  dsimp only
  split
  · rfl
  · split <;> rfl

/-! ### The statement -/

/-- Settles O28: P and S by the values they leave, the release by what the fuses give. -/
theorem resetsAndRelease : Obligations.ResetsAndRelease := by
  refine ⟨?p, ?s, fun s good cool tp tpB ff tr hp h => execResetRelease_early cool tp tpB ff tr hp h, ?dead, ?alive, ?fail⟩
  case p =>
    intro s
    have hr := s.begin.assertP_rst
    obtain ⟨hl, hh⟩ := State.powerOn_keyless s.build { s.pins.sampleAnew with porN := false } s.lcu.fuses s.nvm.atReset s.fresh
    exact ⟨_, rfl, congrArg Rst.phase hr, congrArg Rst.rstBusy hr, congrArg Rst.rstReq hr, congrArg Rst.level hr, congrArg Rst.cause hr,
      congrArg Rst.sysCount hr, rfl, rfl, rfl, rfl, rfl, hl, hh, rfl, rfl, rfl, rfl, rfl, rfl, rfl, rfl, rfl, rfl, rfl, rfl, rfl, rfl⟩
  case s =>
    intro s hp h
    obtain ⟨hl, hh⟩ := State.powerOn_keyless s.build { s.pins.sampleAnew with sysN := false } s.lcu.fuses s.nvm.atReset s.fresh
    exact ⟨_, execSystemReset_asserts hp h, rfl, rfl, rfl, rfl, rfl, rfl, s.begin.causeAtS_sys, s.begin.causeAtS_sysAfterTamper, rfl, rfl,
      rfl, rfl, rfl, hl, hh, rfl, rfl, rfl, rfl, rfl, rfl, rfl, rfl, rfl, rfl, rfl, rfl, rfl, rfl, rfl⟩
  case dead =>
    intro s code tr hp hstop hd h
    have hexec := execResetRelease_good true 0 0xFF none tr hp hstop
    rw [State.release_quiet, State.startUp_dead (s := (s.released.starting tr).cooled) hd h] at hexec
    exact ⟨_, hexec, rfl, rfl, rfl, rfl, rfl, rfl, rfl⟩
  case alive =>
    intro s code bank tr hp hstop hd hs hi ha hf hz hj hjs hc hb hcheck
    have hexec := execResetRelease_good true 0 0xFF none tr hp hstop
    rw [State.release_quiet] at hexec
    have hk := State.startUp_alive (s := (s.released.starting tr).cooled) hd hs hi ha hf hj hjs hc ⟨hz, hb, hcheck⟩
    exact ⟨_, hexec, (congrArg State.rst hk :), congrArg (·.lcu.state) hk, congrArg (·.lcu.nonce) hk, congrArg (·.lcu.trims) hk,
      (congrArg State.clk hk :), congrArg (·.pins.porN) hk, congrArg (·.pins.sysN) hk, congrArg (·.sbx.root) hk, congrArg (·.sbx.drkOk) hk,
      congrArg (·.sbx.drkTest) hk, congrArg (·.cht.rows) hk, congrArg (·.cht.ksBank) hk, (congrArg State.alr hk :), (congrArg State.ldg hk :),
      (congrArg State.nvm hk :), (congrArg State.epo hk :), (congrArg State.stl hk :), (congrArg State.mse hk :)⟩
  case fail =>
    intro s cool w tr hp hstop hb _
    have hexec := execResetRelease_good cool 0 0xFF (some w) tr hp hstop
    rw [State.release_fuseFail] at hexec
    set u := (s.released.starting tr).sampleCoolant cool with hu
    have hur : u.rst = { s.rst with phase := .loading, rstReq := u.rst.rstReq } := State.sampleCoolant_rst ..
    set v : State := { u with rst := { u.rst with noLoad := true }, lcu := { u.lcu with state := lcInvalid } } with hv
    have hvr : v.rst = { s.rst with phase := .loading, rstReq := u.rst.rstReq, noLoad := true } :=
      congrArg (fun r : Rst => { r with noLoad := true }) hur
    have ht := v.alarmTamper_tampered unitLifecycle 3 w
    have hr := (v.alarmTamper_rst unitLifecycle 3 w).trans (congrArg (fun r : Rst => { r with rstReq := true }) hvr)
    exact ⟨_, hexec, congrArg Rst.phase hr, congrArg Rst.noLoad hr, (congrArg Rst.rstBusy hr).trans hb, ht.rstReq,
      v.alarmTamper_lcState unitLifecycle 3 w, ht.tamper, ht.safeStop, ht.zeroNet, ht.root, ht.anchor⟩

end Sys2Proof.Machine

/-!
The Almanac load and ALMANAC_UPDATE (O25).

Between the image applied and Harbour mode the load opens the Settings and the NVM partitions, evaluates the Steelyard's seal and
programs what that queued. `OnlyOpened` names all that these four can change.
-/

namespace Sys2Proof.Machine

/-! ### Settings, partitions and seal (R149, R171, R580) -/

/-- From `s` to `t` only Settings, partitions and the Steelyard were opened, with their events and what stands at the fuse port. -/
def OnlyOpened (s t : State) : Prop :=
  t = { s with
    ald := { s.ald with settingsOk := t.ald.settingsOk, setCopyB := t.ald.setCopyB }
    hlm := { s.hlm with fifo := t.hlm.fifo, irqUrgent := t.hlm.irqUrgent }
    lcu := { s.lcu with job := t.lcu.job, jobs := t.lcu.jobs }
    cht := t.cht, nvm := t.nvm, sty := t.sty, out := t.out, fresh := t.fresh }

theorem OnlyOpened.trans {s t u : State} (h : OnlyOpened s t) (k : OnlyOpened t u) : OnlyOpened s u := by
  unfold OnlyOpened at *
  rw [k, h]

theorem OnlyFusePort.opened {s t : State} (h : OnlyFusePort s t) : OnlyOpened s t := by
  unfold OnlyOpened
  rw [h]

theorem State.openSettings_opened (s : State) : OnlyOpened s s.openSettings ∧ s.openSettings.lcu = s.lcu := by
  unfold State.openSettings
  dsimp only
  split
  · exact ⟨rfl, rfl⟩
  · split <;> exact ⟨rfl, rfl⟩

/-- From `s` to `t` the partitions and the Steelyard were opened, with at most one job of the Steelyard at the fuse port. -/
def SealOpened (s t : State) : Prop := OnlyOpened s t ∧ t.lcu.steelyardOnly

theorem SealOpened.ite {s t u : State} {p : Prop} [Decidable p] (ht : SealOpened s t) (hu : SealOpened s u) :
    SealOpened s (if p then t else u) := by
  split
  · exact ht
  · exact hu

theorem State.countBreak_opened {s t : State} (n why : Nat) (h : OnlyOpened s t) (hj : t.lcu.job = none) (hjs : t.lcu.jobs = []) :
    SealOpened s (t.countBreak n why) :=
  ⟨h.trans rfl, State.queueJob_steelyard hj hjs (.inr rfl)⟩

/-- The seal evaluated queues at most the fuse bit of one break. -/
theorem State.sealEvaluate_opened {s : State} (sigs : Bytes) (hj : s.lcu.job = none) (hjs : s.lcu.jobs = []) :
    SealOpened s (s.sealEvaluate sigs) := by
  have hidle : s.lcu.steelyardOnly := ⟨hj, .inl hjs⟩
  unfold State.sealEvaluate
  refine .ite ⟨rfl, hidle⟩ ?_
  extract_lets _ d
  have hd : OnlyOpened s d := rfl
  have hdj : d.lcu.job = none := hj
  have hdjs : d.lcu.jobs = [] := hjs
  have hdi : d.lcu.steelyardOnly := ⟨hdj, .inl hdjs⟩
  clear_value d
  refine .ite ⟨hd, hdi⟩ (.ite ⟨hd.trans rfl, hdi⟩ (.ite ?movedOn (.ite ⟨hd.trans rfl, hdi⟩ (.ite ⟨hd.trans rfl, hdi⟩ ?broken))))
  case movedOn => exact State.countBreak_opened _ _ (hd.trans rfl) hdj hdjs
  case broken => exact State.countBreak_opened _ _ (hd.trans rfl) hdj hdjs

/-- Settings and partitions opened, the seal evaluated and what it queued at the port. -/
def State.opened (sigs : Bytes) (s : State) : State := (s.openSettings.openPartitions.sealEvaluate sigs).runFuses

theorem State.opened_only {s : State} (sigs : Bytes) (hj : s.lcu.job = none) (hjs : s.lcu.jobs = []) (hc : s.rst.coreDeferred = none) :
    OnlyOpened s (s.opened sigs) := by
  obtain ⟨hset, hlcu⟩ := s.openSettings_opened
  have hparts : OnlyOpened s s.openSettings.openPartitions := hset.trans rfl
  obtain ⟨hseal, hjobs⟩ := State.sealEvaluate_opened (s := s.openSettings.openPartitions) sigs
    ((congrArg Lcu.job hlcu).trans hj) ((congrArg Lcu.jobs hlcu).trans hjs)
  have hdue : (s.openSettings.openPartitions.sealEvaluate sigs).rst.coreDeferred = none :=
    (congrArg (·.rst.coreDeferred) (hparts.trans hseal) :).trans hc
  exact (hparts.trans hseal).trans (State.runFuses_steelyard hjobs hdue).opened

/-! ### Harbour mode (R125, R172, R406) -/

/-- Harbour mode was entered from `s`. -/
structure HarbourEntered (s t : State) : Prop where
  cfg : t.cfg = s.cfg
  ald : t.ald = s.ald
  rst : t.rst = { s.rst with phase := .service, rstBusy := false }
  stall0 : t.stall? 0 = some (s.stall0 (zeros 16))
  slots : t.sbx.slots = s.blockSlots
  cwq : t.hlm.cwq = s.hlm.cwq
  epo : t.epo = s.epo
  mse : t.mse = s.mse
  lse : t.lse = s.lse
  hse : t.hse = s.hse
  clk : t.clk = s.clk

/-- Harbour mode but for its firmware measurement. -/
def State.harboured (s : State) : State :=
  { s.tookDraw with
    sbx := { s.sbx with slots := s.blockSlots }
    ldg := { s.ldg with localEntries := s.withHarbour s.ldg.localEntries }
    stl := { s.stl with table := assocSet 0 (s.stall0 (zeros 16)) s.stl.table, data := assocSet 0 StallData.fresh s.stl.data }
    rst := { s.rst with phase := .service, rstBusy := false }
    alr := { s.alr with progressAt := s.clk.elapsed, progressTime := s.clk.domain } }

theorem State.enterHarbour_entered (s : State) : HarbourEntered s s.enterHarbour := by
  have hk : OnlyMeasured s.harboured s.enterHarbour := s.harboured.measure_only.trans (State.issueAlias_only _).measured
  exact {
    cfg := (congrArg State.cfg hk :)
    ald := (congrArg State.ald hk :)
    rst := (congrArg State.rst hk :)
    stall0 := (congrArg (·.stall? 0) hk :).trans ((assocGet_assocSet 0 0 _ s.stl.table).trans (if_pos rfl))
    slots := (congrArg (·.sbx.slots) hk :)
    cwq := (congrArg (·.hlm.cwq) hk :)
    epo := (congrArg State.epo hk :)
    mse := (congrArg State.mse hk :)
    lse := (congrArg State.lse hk :)
    hse := (congrArg State.hse hk :)
    clk := (congrArg State.clk hk :) }

/-! ### ALMANAC_LOAD (R163, R174) -/

/-- The image in force before its Settings are opened. -/
def State.loadedImage (c : Cfg) (slotB fallback sdr : Bool) (cause : Nat) (s : State) : State :=
  let u := s.begin.applyImage c slotB
  { u with ald := { u.ald with fallback, rejectCause := cause, sdrOnly := sdr, integratorChecked := !s.integratorOpen } }

theorem State.begin_imageCfg (b : Bytes) (l : List (Nat × Bytes)) (s : State) : s.begin.imageCfg b l = s.imageCfg b l := by
  unfold State.imageCfg
  rfl

theorem State.begin_patchesOk (s : State) (ps : List Bytes) (vs : List Bool) : s.begin.patchesOk ps vs = s.patchesOk ps vs := by
  induction ps generalizing vs with
  | nil => rfl
  | cons p ps ih =>
    rw [State.patchesOk, State.patchesOk, ih]
    rfl

theorem State.begin_fullChecks (b : Bytes) (v : ImageSigs) (s : State) : s.begin.fullChecks b v = s.fullChecks b v := by
  simp only [State.fullChecks, State.begin_imageCfg, State.begin_patchesOk]
  rfl

theorem State.begin_tryImages (s : State) (l : List (Bool × Bytes × ImageSigs)) (fb : Bool) (cause : Nat) :
    s.begin.tryImages l fb cause = s.tryImages l fb cause := by
  induction l generalizing fb cause with
  | nil => rfl
  | cons p l ih =>
    simp only [State.tryImages, State.begin_fullChecks, ih]

theorem State.begin_pickImage (s : State) (sigA sigB : ImageSigs) (nvmOk : Bool) :
    s.begin.pickImage sigA sigB nvmOk = s.pickImage sigA sigB nvmOk :=
  s.begin_tryImages ..

section
variable {s : State} {sigA sigB : ImageSigs} {nvmOk : Bool} (sdr : Bool) (sigs : Bytes)

theorem execAlmanacLoad_elsewhere (h : s.loadable = false) : execAlmanacLoad sigA sigB nvmOk sdr sigs s = .next s.begin :=
  congrArg Host.Outcome.next (if_pos (by rw [show s.begin.loadable = s.loadable from rfl, h]; rfl))

theorem execAlmanacLoad_noImage (h : s.loadable = true) (hr : (s.pickImage sigA sigB nvmOk).image = none) :
    execAlmanacLoad sigA sigB nvmOk sdr sigs s = .next { s.begin with
      ald := { s.ald with
        noAlmanac := true, fallback := (s.pickImage sigA sigB nvmOk).fallback, rejectCause := (s.pickImage sigA sigB nvmOk).cause, sdrOnly := sdr }
      rst := { s.rst with phase := .service, rstBusy := false } } := by
  have hl : ¬ (!s.begin.loadable) = true := by rw [show s.begin.loadable = s.loadable from rfl, h]; exact Bool.false_ne_true
  rw [execAlmanacLoad, if_neg hl, State.begin_pickImage]
  dsimp only
  rw [hr]
  rfl

theorem execAlmanacLoad_picked {c : Cfg} {slotB : Bool} (h : s.loadable = true) (hr : (s.pickImage sigA sigB nvmOk).image = some (c, slotB)) :
    execAlmanacLoad sigA sigB nvmOk sdr sigs s = .next (if ¬ s.sbx.entropyOk then s.begin
      else
        let r := s.pickImage sigA sigB nvmOk
        let u := (s.loadedImage c slotB r.fallback sdr r.cause).opened sigs
        if u.alr.safeStop then ({ u with rst := { u.rst with phase := .service, rstBusy := false } }).enterQuiet else u.enterHarbour) := by
  have hl : ¬ (!s.begin.loadable) = true := by rw [show s.begin.loadable = s.loadable from rfl, h]; exact Bool.false_ne_true
  rw [execAlmanacLoad, if_neg hl, State.begin_pickImage]
  dsimp only
  rw [hr]
  rfl

/-- An image taken with random bits leaves the Safe Stop as it is and enters Harbour mode. -/
theorem execAlmanacLoad_enters {c : Cfg} {slotB : Bool} (h : s.loadable = true) (hr : (s.pickImage sigA sigB nvmOk).image = some (c, slotB))
    (he : s.sbx.entropyOk = true) (hsafe : s.alr.safeStop = false) (hj : s.lcu.job = none) (hjs : s.lcu.jobs = [])
    (hc : s.rst.coreDeferred = none) :
    ∃ u, execAlmanacLoad sigA sigB nvmOk sdr sigs s = .next u.enterHarbour ∧
      OnlyOpened (s.loadedImage c slotB (s.pickImage sigA sigB nvmOk).fallback sdr (s.pickImage sigA sigB nvmOk).cause) u := by
  have hk := State.opened_only (s := s.loadedImage c slotB (s.pickImage sigA sigB nvmOk).fallback sdr
    (s.pickImage sigA sigB nvmOk).cause) sigs hj hjs hc
  refine ⟨_, (execAlmanacLoad_picked sdr sigs h hr).trans (congrArg Host.Outcome.next ?_), hk⟩
  rw [if_neg (not_not.mpr he)]
  have hsafe' := (congrArg (·.alr.safeStop) hk :).trans hsafe
  exact if_neg (by rw [hsafe']; exact Bool.false_ne_true)

end

/-! ### ALMANAC_UPDATE (R164) -/

/-- From `s` to `t` a slot of the Almanac changed and a command completed. -/
def OnlyUpdated (s t : State) : Prop := t = { s with out := t.out, hlm := t.hlm, obs := t.obs, alr := t.alr, nvm := t.nvm, ald := t.ald }

theorem OnlyUpdated.trans {s t u : State} (h : OnlyUpdated s t) (k : OnlyUpdated t u) : OnlyUpdated s u := by
  unfold OnlyUpdated at *
  rw [k, h]

theorem OnlyUpdated.of_completed {s t : State} {h : Hlm} {a : Alr} {o : Obs} (hk : t = { s with hlm := h, alr := a, obs := o }) :
    OnlyUpdated s t := by
  subst hk
  rfl

/-- What completing after an update leaves and records. -/
structure UpdateCompleted (s u t : State) (r : Completion) : Prop where
  out : t.out = u.out
  nvm : t.nvm = u.nvm
  ald : t.ald = u.ald
  recorded : s.recorded t r
  only : OnlyUpdated s t

theorem State.finish_updated {s u : State} (c : Call) (st : Nat) (hk : OnlyUpdated s u) (hh : u.hlm = s.hlm) (hq : u.alr.quiet = false) :
    UpdateCompleted s u (u.finish c st) (c.record st) where
  out := (congrArg State.out (State.finish_frame c st u) :)
  nvm := (congrArg State.nvm (State.finish_frame c st u) :)
  ald := (congrArg State.ald (State.finish_frame c st u) :)
  recorded := State.recorded_of_port (congrArg Hlm.cwq hh) (congrArg Hlm.dwBuf hh) (State.finish_recorded c st hq)
  only := hk.trans (.of_completed (State.finish_frame c st u))

/-- The idle slot erased. -/
def State.slotErased (toB : Bool) (s : State) : State :=
  { s with
    out := (sectors (if toB then 0x400 else 0) (if toB then 0x7FF else 0x3FF)).map Out.nvmErase
    nvm := if toB then { s.nvm with slotB := [] } else { s.nvm with slotA := [] }
    ald := { s.ald with updErased := some toB, updWritten := [] } }

/-- Bytes written to the slot erased. -/
def State.slotWritten (toB : Bool) (offset : Nat) (data : Bytes) (s : State) : State :=
  { s with
    out := [.nvmWrite ((if toB then 0x400000 else 0) + offset) data]
    nvm := if toB then { s.nvm with slotB := writeAt s.nvm.slotB offset data } else { s.nvm with slotA := writeAt s.nvm.slotA offset data }
    ald := { s.ald with updWritten := s.ald.updWritten ++ [(offset, data.length)] } }

theorem take_padTo_length (data : Bytes) : (padTo data.length data).take data.length = data := by
  rw [padTo, Nat.sub_self]
  exact List.take_left

theorem sectors_slot (toB : Bool) : sectors (if toB then 0x400 else 0) ((if toB then 0x400 else 0) + 0x3FF) =
    sectors (if toB then 0x400 else 0) (if toB then 0x7FF else 0x3FF) :=
  congrArg (sectors _) (by cases toB <;> rfl)

section
variable {s : State} {c : Call} (ha : s.admits c 0x0A01)
include ha

theorem execAlmanacUpdate_erase (a b d e : Nat) (data : Bytes) (buf : BufRead) (sigs : ImageSigs) :
    execAlmanacUpdate c 0 a b d e data buf sigs s = .next ((s.slotErased s.idleSlotB).finish c stOk) := by
  refine congrArg Host.Outcome.next ((State.command_run ha).trans ?_)
  refine congrArg (State.finish c stOk) (a₂ := s.slotErased s.idleSlotB) ?_
  have hi : s.begin.idleSlotB = s.idleSlotB := rfl
  dsimp only
  rw [hi, sectors_slot]
  rfl

theorem execAlmanacUpdate_write {offset : Nat} {data : Bytes} (src : Nat) (buf : BufRead) (sigs : ImageSigs) {toB : Bool}
    (h : s.ald.updErased = some toB) (hlen : data.length ≤ 128) (hoff : offset + data.length ≤ 0x400000)
    (hclash : s.ald.updWritten.any (fun w => decide (offset < w.1 + w.2 ∧ w.1 < offset + data.length)) = false) :
    execAlmanacUpdate c 1 1 offset data.length src data buf sigs s = .next ((s.slotWritten toB offset data).finish c stOk) := by
  refine congrArg Host.Outcome.next ((State.command_run ha).trans ?_)
  have h' : s.begin.ald.updErased = some toB := h
  have hc : ¬ (0x400000 < offset + data.length ∨
      (s.begin.ald.updWritten.any fun w => decide (offset < w.1 + w.2 ∧ w.1 < offset + data.length)) = true) :=
    not_or.mpr ⟨Nat.not_lt.mpr hoff, by rw [Bool.not_eq_true]; exact hclash⟩
  have hl : ¬ decide (128 < data.length) = true := by simpa using hlen
  dsimp only
  rw [h']
  dsimp only
  rw [if_pos rfl, if_neg hl, if_neg hc, if_pos rfl, take_padTo_length, State.slotWritten]
  cases toB <;> rfl

theorem execAlmanacUpdate_verify (inline_ offset len src : Nat) (data : Bytes) (buf : BufRead) (sigs : ImageSigs) {toB : Bool} {b : Bytes}
    (h : s.ald.updErased = some toB) (hb : b = if toB then s.nvm.slotB else s.nvm.slotA) :
    execAlmanacUpdate c 2 inline_ offset len src data buf sigs s = .next
      (if s.candidacy b ≠ 0 then s.begin.finishDetail c stAlmanac (s.candidacy b)
       else match s.fullChecks b sigs with
         | .ok _ => s.begin.finish c stOk
         | .error e => s.begin.finishDetail c stAlmanac e) := by
  refine congrArg Host.Outcome.next ((State.command_run ha).trans ?_)
  have h' : s.begin.ald.updErased = some toB := h
  have hb' : (if toB then s.begin.nvm.slotB else s.begin.nvm.slotA) = b := hb.symm
  have hcand : s.begin.candidacy b = s.candidacy b := rfl
  dsimp only
  rw [h']
  dsimp only
  rw [hb', hcand, State.begin_fullChecks]
  cases s.fullChecks b sigs <;> rfl

/-- PHASE 1 and 2 before PHASE 0. -/
theorem execAlmanacUpdate_unerased (phase inline_ offset len src : Nat) (data : Bytes) (buf : BufRead) (sigs : ImageSigs) (hp : 1 ≤ phase)
    (h : s.ald.updErased = none) :
    execAlmanacUpdate c phase inline_ offset len src data buf sigs s = .next (s.begin.finishDetail c stParam 0x30) := by
  have h' : s.begin.ald.updErased = none := h
  rw [execAlmanacUpdate, State.command_run ha]
  match phase with
  | 0 => exact absurd hp (Nat.not_succ_le_zero 0)
  | 1 => rw [h']; rfl
  | n + 2 => rw [h']; rfl

end

/-! ### The statement -/

/-- Settles O25: the load by the image picked, ALMANAC_UPDATE by its phase. -/
theorem almanacLoadAndUpdate : Obligations.AlmanacLoadAndUpdate := by
  refine ⟨fun s sigA sigB nvmOk sdr sigs h hr => execAlmanacLoad_noImage sdr sigs h hr, ?noEntropy, ?harbour,
    fun s sigA sigB nvmOk sdr sigs h => execAlmanacLoad_elsewhere sdr sigs h, ?erase, ?write,
    fun s c phase inline_ offset len src data buf sigs ha hp h => execAlmanacUpdate_unerased ha phase inline_ offset len src data buf sigs hp h,
    ?verify⟩
  case noEntropy =>
    intro s sigA sigB nvmOk sdr sigs h hr he
    obtain ⟨⟨c, slotB⟩, hr⟩ := Option.isSome_iff_exists.mp hr
    exact (execAlmanacLoad_picked sdr sigs h hr).trans (congrArg Host.Outcome.next (if_pos (by rw [he]; exact Bool.false_ne_true)))
  case harbour =>
    intro s sigA sigB nvmOk sdr slotB sigs r c h hr hi he hsafe hj hjs hc
    subst hr
    obtain ⟨u, hexec, hk⟩ := execAlmanacLoad_enters sdr sigs h hi he hsafe hj hjs hc
    obtain ⟨hcfg, hald, hrst, hstall, hslots, hcwq, hepo, hmse, hlse, hhse, hclk⟩ := u.enterHarbour_entered
    exact ⟨_, hexec, hcfg.trans (congrArg State.cfg hk :), (congrArg Ald.done hald).trans (congrArg (·.ald.done) hk :),
      (congrArg Ald.slotB hald).trans (congrArg (·.ald.slotB) hk :), (congrArg Ald.fallback hald).trans (congrArg (·.ald.fallback) hk :),
      (congrArg Ald.sdrOnly hald).trans (congrArg (·.ald.sdrOnly) hk :), (congrArg Ald.full hald).trans (congrArg (·.ald.full) hk :),
      (congrArg Ald.integratorChecked hald).trans (congrArg (·.ald.integratorChecked) hk :),
      hrst.trans (congrArg (fun v : State => { v.rst with phase := .service, rstBusy := false }) hk :),
      congrArg (Option.map (·.state)) hstall, congrArg (fun l => (assocGet 0 l).map fun k => (k.handle, k.pinned, k.cls)) hslots,
      hcwq.trans (congrArg (·.hlm.cwq) hk :), hepo.trans (congrArg State.epo hk :), hmse.trans (congrArg State.mse hk :),
      hlse.trans (congrArg State.lse hk :), hhse.trans (congrArg State.hse hk :), hclk.trans (congrArg State.clk hk :)⟩
  case erase =>
    intro s c a b d e data buf sigs ha
    obtain ⟨hout, hnvm, hald, hrec, hk⟩ := State.finish_updated (u := s.slotErased s.idleSlotB) c stOk rfl rfl ha.1.2.2
    exact ⟨_, execAlmanacUpdate_erase ha a b d e data buf sigs, hout, hnvm, hald, hrec, hk⟩
  case write =>
    intro s c offset len src data buf sigs toB ha h hlen hoff hclash hdata
    subst hdata
    obtain ⟨hout, hnvm, hald, hrec, hk⟩ := State.finish_updated (u := s.slotWritten toB offset data) c stOk rfl rfl ha.1.2.2
    exact ⟨_, execAlmanacUpdate_write ha src buf sigs h hlen hoff hclash, hout, hnvm, hald, hrec, hk⟩
  case verify =>
    intro s c inline_ offset len src b data buf sigs toB ha h hb
    exact execAlmanacUpdate_verify ha inline_ offset len src data buf sigs h hb

end Sys2Proof.Machine

/-!
TRAINING_DONE (O26), refuted.

The second clause says that the Stalls restored stand in the order of their records. The restore ends by giving Stall 0 its settings from
the image, and a table is set by its rising order: where Stall 0's record stands after a higher one, Stall 0 enters a second time.
-/

namespace Sys2Proof.Machine

/-! ### The restored table -/

theorem State.restoredStall_fst (s : State) (bad : List Nat) (p : Nat × Stall × StallData) : (s.restoredStall bad p).1 = p.1 := by
  unfold State.restoredStall
  dsimp only
  split <;> rfl

/-- Stall 0's settings enter before the first of two Stalls whose record stands before its own. -/
theorem State.restoreStalls_unsorted {s : State} {id : Nat} {x y : Stall} {d e : StallData} (bad : List Nat) (hid : id ≠ 0)
    (hrec : s.stl.records = [(id, x, d), (0, y, e)]) (hx : x.state ≠ .free) (hy : y.state ≠ .free) :
    (s.restoreStalls bad).stl.table.map (·.1) = [0, id, 0] := by
  have hrs : (s.stl.records.filter fun p => p.2.1.state ≠ .free) = [(id, x, d), (0, y, e)] := by simp [hrec, hx, hy]
  have hp := s.restoredStall_fst bad (id, x, d)
  have hq := s.restoredStall_fst bad (0, y, e)
  unfold State.restoreStalls
  simp only [hrs, List.map_cons, List.map_nil]
  generalize s.restoredStall bad (id, x, d) = p at hp ⊢
  generalize s.restoredStall bad (0, y, e) = q at hq ⊢
  obtain ⟨i, u⟩ := p
  obtain ⟨j, v⟩ := q
  obtain rfl : i = id := hp
  obtain rfl : j = 0 := hq
  simp [State.modStall, State.stall?, State.setStall, assocGet, assocSet, hid, Nat.pos_of_ne_zero hid]

theorem State.restoreStalls_nvm (bad : List Nat) (s : State) : (s.restoreStalls bad).nvm = s.nvm :=
  (congrArg State.nvm (State.modStall_frame 0 _ _) :)

theorem State.resumeRemovals_none {s : State} (h : s.nvm.removals = []) : s.resumeRemovals = s := by
  rw [State.resumeRemovals, h]
  rfl

/-- The Ledger of the store image at the anchor's epoch, before the Stalls return. -/
def State.imaged (s : State) : State :=
  { s.restoreEpoch with ldg := { s.ldg with
    storeOk := true, versions := s.ldg.store.versions, poolEntries := s.ldg.store.poolEntries
    localEntries := s.withHarbour (s.outsideHarbour s.ldg.store.localEntries) } }

/-- Without a removal to resume, a restore whose chain reaches the root leaves the table that its Stalls make. -/
theorem State.restore_table {s : State} (bad : List Nat) (hroot : s.ldg.storeRoot = s.sbx.root) (hrem : s.nvm.removals = []) :
    (s.restore true bad).stl.table = (s.imaged.restoreStalls bad).stl.table := by
  have hnone : ((s.imaged.restoreStalls bad).restoreSweeps).setRefusals.nvm.removals = [] :=
    (congrArg Nvm.removals (State.restoreStalls_nvm bad s.imaged)).trans hrem
  have hk : (s.restore true bad).stl.table = ((s.imaged.restoreStalls bad).restoreSweeps).setRefusals.resumeRemovals.stl.table :=
    congrArg (·.stl.table) (if_pos ⟨rfl, hroot⟩ : s.restore true bad = _)
  rw [hk, State.resumeRemovals_none hnone]
  rfl

/-- The flags of a training taken over. -/
def State.trained (flags : Nat) (s : State) : State :=
  { s.begin with ald := { s.ald with
    memTrained := s.ald.memTrained || flags.testBit 0, linksTrained := s.ald.linksTrained || flags.testBit 1 } }

theorem execTrainingDone_restores {s : State} {c : Call} {flags : Nat} (rootOk : Bool) (bad : List Nat) (ha : s.admits c 0x0A04)
    (hf : flags.testBit 0 = true) (hr : s.ald.restored = false) (hg : s.ldg.restoring = false) (hv : s.ldg.anchor.valid = true) :
    execTrainingDone c flags rootOk bad s = .next (((s.trained flags).restore rootOk bad).finish c stOk) := by
  have hfirst : ¬¬ (flags.testBit 0 && !s.begin.ald.restored && !s.begin.ldg.restoring) = true := by
    rw [hf, show s.begin.ald.restored = false from hr, show s.begin.ldg.restoring = false from hg]
    decide
  exact congrArg Host.Outcome.next ((State.command_run ha).trans ((if_neg hfirst).trans (if_pos hv)))

/-! ### The statement -/

/-- A Stall that is KEYED or FROZEN, nothing else of it set. -/
def plainStall (st : StallState) : Stall :=
  { state := st, inst := zeros 16, version := 1, measLocked := false, x2 := false, rebase := false, saved := false, imported := false
    logOverflow := false, lostCause := 0, nextSerial := 0, extendSeq := 0, fillFault := false, integLose := false, keyed := true
    boothStream := false, bindNoinit := false, eSrc := 0, bias := 0, admitTime := 0, saveSeq := 0 }

/-- A system in service with a valid anchor, whose records name Stall 7 before Stall 0. -/
def unsortedRecords : State :=
  { State.reset with
    rst := { State.reset.rst with phase := .service, rstBusy := false }
    ldg := { State.reset.ldg with anchor := { State.reset.ldg.anchor with valid := true } }
    stl := { State.reset.stl with records := [(7, plainStall .frozen, StallData.fresh), (0, plainStall .keyed, StallData.fresh)] } }

/-- TRAINING_DONE of Stall 0. -/
def trainingCall : Call :=
  { fn := 0, qid := 0, stall := 0, opcode := 0x0A04, tag := 0, comp := 0, tick := false, fence := false, irq := false, sigMark := 0xFFFF
    sigValue := 0, waitMark := 0xFFFF, waitValue := 0, window := false, deferred := false, ticked := false }

theorem unsortedRecords_admits : unsortedRecords.admits trainingCall 0x0A04 := by decide

/-- TRAINING_DONE there leaves Stall 0 in the table twice. -/
theorem execTrainingDone_unsortedRecords :
    ∃ t, exec (.trainingDone trainingCall 1 true []) unsortedRecords = .next t ∧ t.stl.table.map (·.1) = [0, 7, 0] := by
  refine ⟨_, execTrainingDone_restores true [] unsortedRecords_admits rfl rfl rfl rfl, ?_⟩
  rw [State.finish_frame]
  have htable := State.restore_table (s := unsortedRecords.trained 1) [] rfl rfl
  exact (congrArg (List.map (·.1)) htable).trans (State.restoreStalls_unsorted [] (by decide) rfl (by decide) (by decide))

/-- Refutes O26: where the records name Stall 7 before Stall 0, Stall 0 enters the table a second time, before Stall 7. -/
theorem not_trainingDone : ¬ Obligations.TrainingDone := by
  rintro ⟨-, hrestore, -⟩
  obtain ⟨u, hu, hkeys⟩ := execTrainingDone_unsortedRecords
  obtain ⟨t, ht, -, -, -, -, -, -, -, -, -, htable, -⟩ :=
    hrestore unsortedRecords trainingCall 1 [] unsortedRecords_admits rfl rfl rfl rfl rfl rfl
  cases ht.symm.trans hu
  rw [hkeys] at htable
  exact absurd htable (by decide)

end Sys2Proof.Machine

/-!
Unit resets (O31), refuted.

The third clause says that UNIT_RESET_IDLE sends nothing. The Sweeper's reset drops the memory-side requests the Sweeper has queued, and
what waited behind them goes on at once: a host read that waits in the hazard entry of a sector with its plaintext is answered.
-/

namespace Sys2Proof.Machine

/-- A host read of sector 64. -/
def waitingRead : HostReq :=
  { write := false, lane := 1, sector := 64, stall := 0, id := 9, cls := 0, lock := false, unlock := false, be := 0, data := [], since := 0 }

/-- An MSE with the Sweeper's write of sector 64 queued and a host read that waits behind it. -/
def sweptMse : Mse :=
  { Mse.atReset with
    ops := [newOp .sweepWrite 64 0 0 true []]
    hazards := [{ Hazard.fresh 64 with plain := some (zeros 128), queue := [waitingRead], sweeper := true }] }

/-- A system whose Sweeper drains for its reset, its slots given back. -/
def sweeperDraining : State :=
  { State.reset with
    rst := { State.reset.rst with
      phase := .service, rstBusy := false, unitResets := [{ code := unitSweeper, since := 0, held := false, forced := false, squashed := 0 }] }
    mse := [sweptMse] }

/-- UNIT_RESET_IDLE of the Sweeper there answers the read. -/
theorem execUnitResetIdle_sweeperDraining :
    ∃ t, exec (.unitResetIdle unitSweeper) sweeperDraining = .next t ∧ t.out = [.hd 0 1 9 .ok (zeros 128)] :=
  ⟨_, rfl, rfl⟩

/-- Refutes O31: the reset of an idle Sweeper lets a host read that waited behind the Sweeper's write be answered. -/
theorem not_unitResets : ¬ Obligations.UnitResets := by
  rintro ⟨-, -, hidle, -⟩
  obtain ⟨u, hu, hout⟩ := execUnitResetIdle_sweeperDraining
  obtain ⟨t, ht, -, -, hnone, -⟩ := hidle sweeperDraining unitSweeper rfl rfl
  cases ht.symm.trans hu
  exact List.cons_ne_nil _ _ (hout.symm.trans hnone)

end Sys2Proof.Machine

/-!
SETTINGS_SAVE, SETTINGS_REPAIR_WRITE and METER_READ (O27).

`SettingsWritten` says what a Settings copy written anew leaves; what the two commands that write one have in common follows from it. The
delivery of a reading turns on its length: with the Steelyard's signatures it is the 7,648 bytes whose room METER_READ asks for.
-/

namespace Sys2Proof.Machine

/-! ### A Settings copy written anew (R170, R171) -/

/-- The copy that replaces the one with the lower SEQ. -/
def State.nextCopy (rs : List SettingsRec) (s : State) : SettingsCopy :=
  { seq := max (s.copySeq s.nvm.settingsA) (s.copySeq s.nvm.settingsB) + 1, root := s.sbx.root, records := rs }

/-- Copy B is the one with the lower SEQ. -/
def State.writesB (s : State) : Bool := decide (s.copySeq s.nvm.settingsB < s.copySeq s.nvm.settingsA)

/-- From `s` to `t` the records `rs` were written over the copy with the lower SEQ, which is current. -/
structure SettingsWritten (rs : List SettingsRec) (s t : State) : Prop where
  ok : t.ald.settingsOk = true
  copyB : t.ald.setCopyB = s.writesB
  nvm : t.nvm = if s.writesB then { s.nvm with settingsB := some (s.nextCopy rs) } else { s.nvm with settingsA := some (s.nextCopy rs) }
  sbx : t.sbx = s.sbx

section
variable {rs : List SettingsRec} {s t : State} (h : SettingsWritten rs s t)
include h

/-- The current copy is the one written. -/
theorem SettingsWritten.current :
    (if t.ald.setCopyB then t.nvm.settingsB else t.nvm.settingsA) = some (s.nextCopy rs) := by
  rw [h.copyB, h.nvm]
  cases s.writesB <;> rfl

theorem SettingsWritten.settings : t.settings = rs := by
  rw [State.settings, if_neg (not_not.mpr h.ok), h.current]
  rfl

/-- The copy written opens under the DRK it was written under. -/
theorem SettingsWritten.seq : (if t.ald.setCopyB then t.copySeq t.nvm.settingsB else t.copySeq t.nvm.settingsA) =
    max (s.copySeq s.nvm.settingsA) (s.copySeq s.nvm.settingsB) + 1 := by
  rw [← apply_ite t.copySeq, h.current, State.copySeq, h.sbx, Option.filter_some_pos (by simp [State.nextCopy])]
  rfl

theorem SettingsWritten.other :
    if t.ald.setCopyB then t.nvm = { s.nvm with settingsB := t.nvm.settingsB } else t.nvm = { s.nvm with settingsA := t.nvm.settingsA } := by
  rw [h.copyB, h.nvm]
  cases s.writesB <;> rfl

/-- The same copy for two states that agree on NVM, Strongbox and the Settings in effect. -/
theorem SettingsWritten.same {u v : State} (hnvm : u.nvm = s.nvm) (hsbx : u.sbx = s.sbx) (hok : v.ald.settingsOk = t.ald.settingsOk)
    (hcopyB : v.ald.setCopyB = t.ald.setCopyB) (hnvm' : v.nvm = t.nvm) (hsbx' : v.sbx = t.sbx) : SettingsWritten rs u v := by
  have hseq : u.copySeq = s.copySeq := funext fun c => by rw [State.copySeq, State.copySeq, hsbx]
  have hB : u.writesB = s.writesB := by rw [State.writesB, State.writesB, hseq, hnvm]
  have hcopy : u.nextCopy rs = s.nextCopy rs := by rw [State.nextCopy, State.nextCopy, hseq, hnvm, hsbx]
  exact ⟨hok.trans h.ok, hcopyB.trans (h.copyB.trans hB.symm), by rw [hnvm', h.nvm, hB, hcopy, hnvm], hsbx'.trans (h.sbx.trans hsbx.symm)⟩

/-- The end of the command leaves the copy. -/
theorem SettingsWritten.finish (c : Call) (st : Nat) : SettingsWritten rs s (t.finish c st) := by
  have hk := State.finish_frame c st t
  exact h.same rfl rfl (congrArg (·.ald.settingsOk) hk) (congrArg (·.ald.setCopyB) hk) (congrArg State.nvm hk :) (congrArg State.sbx hk :)

end

theorem State.writeSettings_written (rs : List SettingsRec) (s : State) : SettingsWritten rs s (s.writeSettings rs) :=
  ⟨rfl, rfl, rfl, rfl⟩

/-- From `s` to `t` only a Settings copy was written. -/
def OnlySettings (s t : State) : Prop := t = { s with out := t.out, nvm := t.nvm, ald := t.ald, fresh := t.fresh }

theorem OnlySettings.trans {s t u : State} (h : OnlySettings s t) (k : OnlySettings t u) : OnlySettings s u := by
  unfold OnlySettings at *
  rw [k, h]

/-- A command that wrote a copy and ended. -/
theorem OnlySettings.finish {s t : State} (h : OnlySettings s t) (c : Call) (st : Nat) :
    t.finish c st = { s with
      out := (t.finish c st).out, hlm := (t.finish c st).hlm, obs := (t.finish c st).obs, alr := (t.finish c st).alr
      nvm := (t.finish c st).nvm, ald := (t.finish c st).ald, fresh := (t.finish c st).fresh } := by
  have hk := State.finish_frame c st t
  generalize t.finish c st = u at *
  unfold OnlySettings at h
  rw [hk, h]

theorem State.writeSettings_only (rs : List SettingsRec) (s : State) : OnlySettings s (s.writeSettings rs) := by
  unfold OnlySettings State.writeSettings
  dsimp only [State.emit, State.emits, State.tookDraw]

/-- The Settings with what is staged in the place of its entities' records. -/
def State.stagedSettings (s : State) : List SettingsRec :=
  s.ald.stagedKeys.foldl (fun l (k : Nat × Nat) => putSettings { kind := k.1, index := k.2, data := s.stagedData k.1 k.2 } l) s.settings

/-- What is staged written, and nothing staged. -/
def State.stagedSaved (s : State) : State :=
  let u := s.begin.tookDraw.writeSettings s.stagedSettings
  { u with ald := { u.ald with staged := [] } }

theorem State.stagedSaved_written (s : State) : SettingsWritten s.stagedSettings s s.stagedSaved :=
  (s.begin.tookDraw.writeSettings_written s.stagedSettings).same rfl rfl rfl rfl rfl rfl

theorem State.stagedSaved_only (s : State) : OnlySettings s s.stagedSaved :=
  OnlySettings.trans (t := s.begin.tookDraw) rfl ((State.writeSettings_only _ _).trans rfl)

theorem execSettingsSave_admitted {s : State} {c : Call} (ha : s.admits c 0x0A03) :
    execSettingsSave c s = .next (s.stagedSaved.finish c stOk) :=
  congrArg Host.Outcome.next (State.command_run ha)

/-- The Settings with the Chart's field repairs as their KIND 3 record. -/
def State.repairSettings (s : State) : List SettingsRec := putSettings { kind := 3, index := 0, data := s.repairBytes } s.settings

/-- The field repairs written, and no write due. -/
def State.repairsSaved (s : State) : State :=
  let u := s.begin.writeSettings s.repairSettings
  { u with ald := { u.ald with repairDue := none } }

theorem State.repairsSaved_written (s : State) : SettingsWritten s.repairSettings s s.repairsSaved :=
  (s.begin.writeSettings_written s.repairSettings).same rfl rfl rfl rfl rfl rfl

theorem State.repairsSaved_only (s : State) : OnlySettings s s.repairsSaved :=
  OnlySettings.trans (t := s.begin) rfl ((State.writeSettings_only _ _).trans rfl)

theorem execSettingsRepairWrite_due {s : State} {since : Nat} (hdue : s.ald.repairDue = some since) (hs : s.serving)
    (hcore : s.rst.coreReset = none) : execSettingsRepairWrite s = .next s.repairsSaved := by
  obtain ⟨hphase, -, hquiet⟩ := hs
  exact congrArg Host.Outcome.next (if_neg (by simp [hdue, hquiet, hcore, hphase]))

/-! ### The length of a reading (R581) -/

theorem length_zeros (n : Nat) : (zeros n).length = n := List.length_replicate

theorem length_leBytes (n x : Nat) : (leBytes n x).length = n := by
  induction n generalizing x with
  | zero => rfl
  | succ n ih => exact congrArg Nat.succ (ih _)

theorem length_take_padTo (n : Nat) (b : Bytes) : ((padTo n b).take n).length = n := by
  rw [List.length_take, padTo, List.length_append, length_zeros]
  omega

/-- The rounds keep the eight words of the state. -/
theorem length_shaRounds (kws : List (Nat × Nat)) (st : List Nat) (h : st.length = 8) : (shaRounds kws st).length = 8 := by
  induction kws generalizing st with
  | nil => exact h
  | cons kw kws ih =>
    match st, h with
    | [_, _, _, _, _, _, _, _], _ => exact ih _ rfl

theorem length_shaBlock {hv : List Nat} (block : Bytes) (h : hv.length = 8) : (shaBlock hv block).length = 8 := by
  rw [shaBlock, List.length_zipWith, length_shaRounds _ hv h, h]
  rfl

theorem length_sha384 (msg : Bytes) : (sha384 msg).length = 48 := by
  have hstate : ((chunks 128 (shaPad msg)).foldl shaBlock shaInit).length = 8 :=
    List.foldlRecOn (motive := fun hv : List Nat => hv.length = 8) _ _ rfl fun _ h b _ => length_shaBlock b h
  simp [sha384, beBytes, length_leBytes, hstate, List.length_flatMap]

theorem Sty.length_keyBlock (y : Sty) : y.keyBlock.length = 2696 := by
  simp only [Sty.keyBlock, List.length_append, length_take_padTo, length_zeros]

/-- A reading without its signatures. -/
theorem State.length_readingBytes (r : Reading) (final : Bool) (s : State) : (s.readingBytes r final).length = 2920 := by
  have haccs : ((List.range 7).flatMap fun k => leBytes 8 (r.accs.getD k 0)).length = 56 := by
    simp [List.length_flatMap, length_leBytes]
  simp only [State.readingBytes, List.length_append, haccs, length_leBytes, length_take_padTo, length_zeros, length_sha384,
    Sty.length_keyBlock]

/-! ### METER_READ (R581, R582) -/

/-- Out of DEPLOYED, or with FIRST_READING programmed, a reading programs no fuse (R577). -/
theorem State.firstReading_idle {s : State} (h : s.lcu.state ≠ lcDeployed ∨ (s.lcu.fuse 0xF2).testBit 0 = true) : s.firstReading = s :=
  if_neg fun ⟨hd, hn⟩ => h.elim (· hd) hn

theorem State.begin_meterReading (s : State) (stall : Nat) : s.begin.meterReading stall = s.meterReading stall := rfl

/-- The call out of the signer's queue. -/
def State.dequeued (c : Call) (s : State) : State := { s with out := [], sty := { s.sty with queue := s.sty.queue.erase c } }

/-- The end of METER_READ once a reading has left: one that is signed is counted, and may program FIRST_READING. -/
def State.readingSent (c : Call) (s : State) : State :=
  let t : State := if s.sty.keyFailed then s else { s with sty := { s.sty with readings := satAdd 65535 s.sty.readings 1 } }
  (if t.sty.keyFailed then t else t.firstReading).finishOk c (leBytes 4 7648)

theorem State.readingSent_signed {s : State} (c : Call) (hkey : s.sty.keyFailed = false)
    (hfirst : s.lcu.state ≠ lcDeployed ∨ (s.lcu.fuse 0xF2).testBit 0 = true) :
    s.readingSent c = ({ s with sty := { s.sty with readings := satAdd 65535 s.sty.readings 1 } } : State).finishOk c (leBytes 4 7648) := by
  have hsigned : ¬ s.sty.keyFailed = true := by rw [hkey]; exact Bool.false_ne_true
  rw [State.readingSent, if_neg hsigned]
  exact congrArg (State.finishOk c _) ((if_neg hsigned).trans (State.firstReading_idle hfirst))

/-- A signed reading delivered and counted. -/
def State.delivered (c : Call) (addr : Nat) (b : Bytes) (s : State) : State :=
  { s with
    out := [.memWrite c.stall addr b]
    sty := { s.sty with queue := s.sty.queue.erase c, readings := satAdd 65535 s.sty.readings 1 } }

section
variable {s : State} {c : Call} {stall : Nat} (out_ : Nat) {outMax : Nat} (sig : Bytes) (ok : Bool) (ha : s.admits c 0x0C03)
include ha

theorem execMeterRead_none (h : s.meterReading stall = none) :
    execMeterRead c stall out_ outMax sig ok s = .next (s.begin.finishDetail c stParam 0x30) := by
  rw [execMeterRead, State.command_run ha, State.begin_meterReading, h]
  rfl

theorem execMeterRead_short (h : (s.meterReading stall).isSome = true) (hroom : outMax < 7648) :
    execMeterRead c stall out_ outMax sig ok s = .next (s.begin.complete { c.record stShort with result := leBytes 4 7648 }) := by
  obtain ⟨⟨r, final⟩, hr⟩ := Option.isSome_iff_exists.mp h
  rw [execMeterRead, State.command_run ha, State.begin_meterReading, hr]
  exact congrArg Host.Outcome.next (if_pos hroom)

theorem execMeterRead_queues (h : (s.meterReading stall).isSome = true) (hroom : 7648 ≤ outMax) (hq : s.sty.queue.contains c = false)
    (hlen : s.sty.queue.length < 16) (hu : s.inUnitReset unitSteelyard = false) :
    execMeterRead c stall out_ outMax sig ok s = .next { s with out := [], sty := { s.sty with queue := s.sty.queue ++ [c] } } := by
  obtain ⟨⟨r, final⟩, hr⟩ := Option.isSome_iff_exists.mp h
  have hfree : ¬ (16 ≤ s.sty.queue.length ∨ s.inUnitReset unitSteelyard = true) :=
    not_or.mpr ⟨Nat.not_le.mpr hlen, by rw [hu]; exact Bool.false_ne_true⟩
  have hnew : (!s.sty.queue.contains c) = true := by rw [hq]; rfl
  rw [execMeterRead, State.command_run ha, State.begin_meterReading, hr]
  exact congrArg Host.Outcome.next ((if_neg (Nat.not_lt.mpr hroom)).trans ((if_pos hnew).trans (if_neg hfree)))

/-- A queued call outside U takes its reading, with zeros for the signatures where the signing key failed. -/
theorem execMeterRead_takes {r : Reading} {final : Bool} (h : s.meterReading stall = some (r, final)) (hroom : 7648 ≤ outMax)
    (hq : s.sty.queue.contains c = true) (hu : s.styHeld = false) :
    execMeterRead c stall out_ outMax sig ok s = .next ((s.dequeued c).output c out_ outMax
      (s.readingBytes r final ++ if s.sty.keyFailed then zeros 4728 else (padTo 4728 sig).take 4728) ok (State.readingSent c)) := by
  have hqueued : ¬ (!s.sty.queue.contains c) = true := by rw [hq]; exact Bool.false_ne_true
  have hrun : ¬ s.styHeld = true := by rw [hu]; exact Bool.false_ne_true
  rw [execMeterRead, State.command_run ha, State.begin_meterReading, h]
  exact congrArg Host.Outcome.next ((if_neg (Nat.not_lt.mpr hroom)).trans ((if_neg hqueued).trans (if_neg hrun)))

/-- With its signatures the reading is the 7,648 bytes that fit. -/
theorem execMeterRead_delivers {r : Reading} {final : Bool} (h : s.meterReading stall = some (r, final)) (hroom : 7648 ≤ outMax)
    (hq : s.sty.queue.contains c = true) (hu : s.styHeld = false) (hkey : s.sty.keyFailed = false)
    (hfirst : s.lcu.state ≠ lcDeployed ∨ (s.lcu.fuse 0xF2).testBit 0 = true) (hsig : sig.length = 4728) :
    execMeterRead c stall out_ outMax sig true s =
      .next ((s.delivered c out_ (s.readingBytes r final ++ sig)).finishOk c (leBytes 4 7648)) := by
  have hsg : (if s.sty.keyFailed then zeros 4728 else (padTo 4728 sig).take 4728) = sig := by
    rw [hkey, if_neg Bool.false_ne_true, ← hsig, take_padTo_length]
  have hfits : (s.readingBytes r final ++ sig).length ≤ outMax := by
    rw [List.length_append, State.length_readingBytes, hsig]
    exact hroom
  rw [execMeterRead_takes out_ sig true ha h hroom hq hu, hsg, State.output_fits _ _ _ _ _ hfits]
  exact congrArg Host.Outcome.next (State.readingSent_signed c hkey hfirst)

end

/-! ### The statement -/

/-- Settles O27: the two writes by what a copy written leaves, METER_READ by its reading, the room and the queue. -/
theorem settingsAndMeter : Obligations.SettingsAndMeter := by
  refine ⟨?save, ?repair, fun s c stall out_ outMax sig ok ha h hroom hq hlen hu => execMeterRead_queues out_ sig ok ha h hroom hq hlen hu,
    ?deliver, fun s c stall out_ outMax sig ok ha h => execMeterRead_none out_ sig ok ha h,
    fun s c stall out_ outMax sig ok ha h hroom => execMeterRead_short out_ sig ok ha h hroom⟩
  case save =>
    intro s c ha
    have hw := s.stagedSaved_written.finish c stOk
    have hf := s.stagedSaved_only
    have hk := hf.finish c stOk
    have hquiet : s.stagedSaved.alr.quiet = false := (congrArg (·.alr.quiet) hf).trans ha.1.2.2
    exact ⟨_, execSettingsSave_admitted ha, hw.settings, congrArg (·.ald.staged) (State.finish_frame c stOk s.stagedSaved), hw.ok, hw.copyB,
      hw.other, hw.seq, State.recorded_of_port (congrArg (·.hlm.cwq) hf) (congrArg (·.hlm.dwBuf) hf) (State.finish_recorded c stOk hquiet),
      (congrArg State.cht hk :), (congrArg State.cfg hk :), (congrArg State.lcu hk :), hw.sbx, (congrArg State.stl hk :)⟩
  case repair =>
    intro s since hdue hs hcore
    exact ⟨_, execSettingsRepairWrite_due hdue hs hcore, s.repairsSaved_written.settings, rfl, rfl,
      (congrArg State.cht s.repairsSaved_only :), s.repairsSaved_only⟩
  case deliver =>
    intro s c stall out_ outMax sig r final ha h hroom hq hu hkey hfirst hsig
    have hk := State.finishOk_frame c (leBytes 4 7648) (s.delivered c out_ (s.readingBytes r final ++ sig))
    refine ⟨_, execMeterRead_delivers out_ sig ha h hroom hq hu hkey hfirst hsig, (congrArg State.out hk :), (congrArg State.sty hk :),
      State.recorded_of_port rfl rfl
        (State.finishOk_recorded c (leBytes 4 7648) (s := s.delivered c out_ (s.readingBytes r final ++ sig)) ha.1.2.2), ?_⟩
    rw [hk]
    rfl

end Sys2Proof.Machine

/-!
The Sweeper's steps (O37).

With a store record in flight what a step makes ready for the store waits behind the items there; every other effect is the step's own.
-/

namespace Sys2Proof.Machine

/-! ### Items behind a record in flight (R302, R303) -/

theorem State.queueItems_inFlight (is : List DeltaItem) {s : State} (h : s.ldg.flight.isSome = true) :
    s.queueItems is = { s with ldg := { s.ldg with items := s.ldg.items ++ is } } :=
  if_pos (.inr (.inl h))

/-! ### SWEEP_SLOT_START (R291, R294, R297) -/

/-- The slot of an order just taken. -/
def State.openedSlot (o : SweepOrder) (s : State) : SweepSlot :=
  { order := o, stride := 0, done := [], bandHi := 0, waiting := false, eS := s.ackedEpoch }

/-- No slot is taken in Harbour mode, while paused, in core reset or in the quiet state. -/
abbrev State.sweepHeld (s : State) : Prop :=
  s.ald.full = false ∨ s.swp.paused = true ∨ s.rst.coreReset.isSome = true ∨ s.alr.quiet = true

theorem execSweepSlotStart_held {s : State} (h : s.sweepHeld) : execSweepSlotStart s = .next s.begin := by
  unfold execSweepSlotStart
  dsimp only
  split
  · refine congrArg Host.Outcome.next (if_pos ?_)
    rcases h with h | h | h | h <;> simp [h]
  · rfl

theorem execSweepSlotStart_takes {s : State} {k : Nat} {o : SweepOrder} (hk : firstFree s.swp.slots 0 16 = some k)
    (ho : s.nextOrder = some o) (hheld : ¬ s.sweepHeld) (hadopt : s.adoptPending o = false) (hf : s.ldg.flight.isSome = true) :
    execSweepSlotStart s = .next { s with
      out := []
      swp := { s.swp with slots := assocSet k (s.openedSlot o) s.swp.slots, queue := s.swp.queue.eraseP (· = o) }
      ldg := { s.ldg with items := s.ldg.items ++ [.stride k 0 (s.openedSlot o)] } } := by
  have hk' : firstFree s.begin.swp.slots 0 16 = some k := hk
  have ho' : s.begin.nextOrder = some o := ho
  have hadopt' : s.begin.adoptPending o = false := hadopt
  have hgo : ¬ (!s.ald.full || s.swp.paused || s.rst.coreReset.isSome || s.alr.quiet || s.begin.adoptPending o) = true := by
    simpa [hadopt', State.sweepHeld, or_assoc] using hheld
  unfold execSweepSlotStart
  simp only [hk', ho']
  exact congrArg Host.Outcome.next ((if_neg hgo).trans (State.queueItems_inFlight _ hf))

/-! ### Strides and fills (R285, R294) -/

section
variable {s : State} {k : Nat} {w : SweepSlot} (hw : assocGet k s.swp.slots = some w)
include hw

theorem execStrideCheckpoint_open (h : w.strideDone = false) : execStrideCheckpoint k s = .next s.begin := by
  unfold execStrideCheckpoint
  simp only [State.begin_swp, hw]
  exact congrArg Host.Outcome.next (if_pos (by simp [h]))

theorem execStrideCheckpoint_done (hwait : w.waiting = false) (h : w.strideDone = true) (hlast : w.order.kind = .zero → w.stride < 63)
    (hf : s.ldg.flight.isSome = true) :
    execStrideCheckpoint k s = .next { s with
      out := []
      swp := { s.swp with slots := assocSet k { w with waiting := true } s.swp.slots }
      ldg := { s.ldg with items := s.ldg.items ++ [.stride k (w.stride + 1) { w with stride := w.stride + 1, done := [] }] } } := by
  have hgo : ¬ (w.waiting || !w.strideDone || (decide (w.order.kind = .zero) && decide (63 ≤ w.stride))) = true := by
    simpa [hwait, h] using hlast
  unfold execStrideCheckpoint
  simp only [State.begin_swp, hw]
  exact congrArg Host.Outcome.next ((if_neg hgo).trans (State.queueItems_inFlight _ hf))

theorem execZeroFillDone_sealed {e : LdgEntry} (hkind : w.order.kind = .zero) (hlast : 63 ≤ w.stride) (h : w.strideDone = true)
    (hf : s.ldg.flight.isSome = true) (hfrozen : s.stallState w.order.stall ≠ .frozen)
    (he : e = { s.entry w.order.region with state := .sealed, sweep := false }) :
    execZeroFillDone k s = .next { s with
      out := []
      swp := { s.swp with slots := assocDel k s.swp.slots }
      ldg := { s.ldg with
        grants := s.ldg.grants ++ [(w.order.region, e)]
        waits := s.ldg.waits.map (AnchorWait.settle w.order.region (.entry w.order.region e))
        items := s.ldg.items ++ [.entry w.order.region e, .stride k 64 { w with stride := 64, done := [] }] } } := by
  have hgo : ¬ (w.order.kind ≠ .zero ∨ w.stride < 63 ∨ ¬ w.strideDone = true) := by simpa [hkind, h] using hlast
  have hstate : ¬ s.begin.stallState w.order.stall = .frozen := hfrozen
  subst he
  unfold execZeroFillDone
  simp only [State.begin_swp, hw, if_neg hgo, if_neg hstate]
  exact congrArg Host.Outcome.next (State.queueItems_inFlight _ hf)

end

/-! ### The end of a key sweep (R297) -/

/-- A generation of a Stall's key without slots, tile copies and key table entry. -/
def State.generationErased (stall h g : Nat) (s : State) : State :=
  (s.eraseKey h g).modStallData stall fun d => { d with keys := d.keys.filter fun e => ¬ (e.handle = h ∧ e.gen = g) }

theorem State.generationErased_only (stall h g : Nat) (s : State) : OnlySlots s (s.generationErased stall h g) :=
  OnlySlots.trans (t := s.eraseKey h g) rfl (State.modStallData_slots ..)

theorem State.generationErased_slots (stall h g : Nat) (s : State) :
    (s.generationErased stall h g).sbx.slots = s.sbx.slots.filter fun p => ¬ (p.2.handle = h ∧ p.2.gen = g) :=
  congrArg (·.sbx.slots) (State.modStallData_frame ..)

theorem State.generationErased_data {s : State} {stall : Nat} {d : StallData} (h g : Nat) (hd : s.stallData? stall = some d) :
    (s.generationErased stall h g).stallData? stall =
      some { d with keys := d.keys.filter fun e => ¬ (e.handle = h ∧ e.gen = g) } := by
  have hd' : (s.eraseKey h g).stallData? stall = some d := hd
  rw [State.generationErased, State.modStallData, hd']
  exact (assocGet_assocSet stall stall _ s.stl.data).trans (if_pos rfl)

/-- A key sweep out of the list. -/
def State.sweepOver (k : KeySweep) (s : State) : State := { s with swp := { s.swp with sweeps := s.swp.sweeps.filter (· ≠ k) } }

/-- An order of a Stall's key sweep. -/
def SweepOrder.sweeps (stall : Nat) (o : SweepOrder) : Bool := decide (o.stall = stall ∧ (o.kind = .key ∨ o.kind = .band)) && !o.bootOld

section
variable {s : State} {stall : Nat} {k : KeySweep} (hk : s.swp.sweeps.find? (fun k => k.stall = stall) = some k)
include hk

theorem execSweepRetire_swept (hr : k.retiring = false) (hq : s.swp.queue.any (SweepOrder.sweeps stall) = false)
    (hs : s.swp.slots.any (fun p => p.2.order.sweeps stall) = false) :
    execSweepRetire stall s = .next { s with
      out := []
      mse := s.mse.map fun e => { e with spine := e.spine.send (.retire stall k.old) }
      swp := { s.swp with sweeps := s.swp.sweeps.map fun x => if x = k then { k with retiring := true } else x } } := by
  have hidle : ¬ (k.retiring || s.swp.queue.any (SweepOrder.sweeps stall) || s.swp.slots.any (fun p => p.2.order.sweeps stall)) = true := by
    simp only [hr, hq, hs, Bool.or_false, Bool.false_eq_true, not_false_eq_true]
  unfold execSweepRetire
  simp only [State.begin_swp, hk]
  exact congrArg Host.Outcome.next (if_neg hidle)

/-- After every acknowledgement the old generation of the region key is erased and the sweep is over. -/
theorem execSweepDone_acknowledged {h : Nat} (hr : k.retiring = true) (hack : s.spineHolds (.retire stall k.old) = false)
    (hh : s.regionHandle stall = some h) :
    execSweepDone stall s = .next ((((s.begin.generationErased stall h k.old).sweepOver k).event evSweepDone unitLedger (some stall) 0
      k.old).bump (ctrLdg 12) 1) := by
  have hgo : ¬ (!k.retiring || s.begin.spineHolds (.retire stall k.old)) = true := by
    rw [hr, show s.begin.spineHolds (.retire stall k.old) = false from hack]
    exact Bool.false_ne_true
  have hh' : s.begin.regionHandle stall = some h := hh
  unfold execSweepDone
  dsimp only
  rw [State.begin_swp, hk]
  dsimp only
  rw [if_neg hgo, hh']
  rfl

end

/-! ### The boot key and yields (R173, R293) -/

theorem execHarbourResealDone_resealed {s : State} (hdue : s.ald.harbourReseal = true)
    (hboot : s.ldg.localEntries.any (fun p => decide (p.2.state = .boot)) = false) (hq : s.swp.queue.any (·.bootOld) = false)
    (hs : s.swp.slots.any (fun p => p.2.order.bootOld) = false) :
    execHarbourResealDone s = .next { s.begin.eraseKey bootHandle 0 with ald := { s.ald with harbourReseal := false } } := by
  have hgo : ¬ (!s.ald.harbourReseal || (s.ldg.localEntries.any (fun p => decide (p.2.state = .boot)) || s.swp.queue.any (·.bootOld) ||
      s.swp.slots.any fun p => p.2.order.bootOld)) = true := by
    rw [hdue, hboot, hq, hs]
    exact Bool.false_ne_true
  exact congrArg Host.Outcome.next (if_neg hgo)

theorem execSweeperYieldEnd_yielding {s : State} {first till : Nat} (hy : s.swp.yield = some (first, till)) :
    execSweeperYieldEnd s = .next (
      if s.clk.elapsed < min till (first + s.cfg.engine.yieldMax * 1000000) then s.begin
      else { s with
        out := []
        swp := { s.swp with
          yield := none
          yieldBlocked := if first + s.cfg.engine.yieldMax * 1000000 ≤ till then 2 else s.swp.yieldBlocked } }) := by
  unfold execSweeperYieldEnd
  dsimp only
  rw [State.begin_swp, hy]
  rfl

/-! ### The statement -/

/-- Settles O37: each clause is its command's lemma, SWEEP_DONE by what the erased generation leaves. -/
theorem sweeperSteps : Obligations.SweeperSteps := by
  refine ⟨?start, fun s h => execSweepSlotStart_held h, fun s k w hw hwait h hlast hf => execStrideCheckpoint_done hw hwait h hlast hf,
    fun s k w hw h => execStrideCheckpoint_open hw h,
    fun s k w e hw hkind hlast h hf hfrozen he => execZeroFillDone_sealed hw hkind hlast h hf hfrozen he,
    fun s stall k hk hr hq hs => execSweepRetire_swept hk hr hq hs, ?done, ?reseal, ?yielding, ?yielded⟩
  case start =>
    intro s k o hk ho hfull hpaused hcore hquiet hadopt hf
    have hheld : ¬ s.sweepHeld := by simp [State.sweepHeld, hfull, hpaused, hcore, hquiet]
    exact ⟨_, execSweepSlotStart_takes hk ho hheld hadopt hf, (assocGet_assocSet k k _ s.swp.slots).trans (if_pos rfl), rfl⟩
  case done =>
    intro s stall h k d hk hr hack hh hd
    have hexec := execSweepDone_acknowledged hk hr hack hh
    have hkept : OnlySlots s.begin (s.begin.generationErased stall h k.old) := State.generationErased_only ..
    have hslots := s.begin.generationErased_slots stall h k.old
    have hdata := State.generationErased_data (s := s.begin) h k.old hd
    generalize s.begin.generationErased stall h k.old = u at *
    exact ⟨_, hexec, (congrArg (fun u : State => { u.swp with sweeps := u.swp.sweeps.filter (· ≠ k) }) hkept :), hslots, hdata,
      (congrArg (fun u : State => (u.event evSweepDone unitLedger (some stall) 0 k.old).hlm) hkept :), (congrArg (·.stl.table) hkept :),
      (congrArg State.ldg hkept :), (congrArg State.mse hkept :), (congrArg State.epo hkept :), (congrArg State.rst hkept :)⟩
  case reseal =>
    intro s hdue hboot hq hs
    exact ⟨_, execHarbourResealDone_resealed hdue hboot hq hs, rfl, rfl, rfl⟩
  case yielding =>
    intro s first till hy hbefore
    rw [show exec .sweeperYieldEnd s = execSweeperYieldEnd s from rfl, execSweeperYieldEnd_yielding hy, if_pos hbefore]
  case yielded =>
    intro s first till hy hdue
    rw [show exec .sweeperYieldEnd s = execSweeperYieldEnd s from rfl, execSweeperYieldEnd_yielding hy, if_neg (Nat.not_lt.mpr hdue)]

end Sys2Proof.Machine

/-!
Keys made and rotated (O9).

KEY_GENERATE and KEY_ROTATE end in one operation, `State.createKey`. What it leaves where the blob's write is answered OK and a slot is
usable is said once (`NewKey.Made`); a lemma for each command gives the checks it passes on its way there.
-/

namespace Sys2Proof.Machine

/-! ### Tables -/

theorem assocSet_assocSet {β : Type} (k : Nat) (v w : β) (l : List (Nat × β)) : assocSet k v (assocSet k w l) = assocSet k v l := by
  induction l with
  | nil => simp [assocSet]
  | cons p l ih =>
    obtain ⟨j, x⟩ := p
    simp only [assocSet]
    split
    · simp [assocSet]
    · next hlt =>
      split
      · simp [assocSet]
      · next hne => simp [assocSet, hlt, hne, ih]

theorem assocGet_mapSnd {β γ : Type} (f : Nat × β → γ) (k : Nat) (l : List (Nat × β)) :
    assocGet k (l.map fun p => (p.1, f p)) = (assocGet k l).map fun v => f (k, v) := by
  induction l with
  | nil => rfl
  | cons p l ih =>
    obtain ⟨j, v⟩ := p
    by_cases h : j = k
    · simp [assocGet, h]
    · simp [assocGet, h, ih]

theorem State.modStallData_some {id : Nat} {d : StallData} (f : StallData → StallData) {s : State} (hd : s.stallData? id = some d) :
    s.modStallData id f = s.setStallData id (f d) := by
  simp [State.modStallData, hd]

theorem State.stallData?_setStallData (id : Nat) (d : StallData) (s : State) : (s.setStallData id d).stallData? id = some d :=
  (assocGet_assocSet id id d s.stl.data).trans (if_pos rfl)

/-- Of two changes of the same Stall's tables the last one counts. -/
theorem State.modStallData_setStallData (id : Nat) (d : StallData) (f : StallData → StallData) (s : State) :
    (s.setStallData id d).modStallData id f = s.setStallData id (f d) := by
  rw [State.modStallData_some f (s.stallData?_setStallData id d)]
  exact congrArg (fun l => ({ s with stl := { s.stl with data := l } } : State)) (assocSet_assocSet id (f d) d s.stl.data)

/-- A key put in a slot is there, and is the newest (R190). -/
theorem Sbx.assocGet_touch_assocSet (n : Nat) (k : KeySlot) (b : Sbx) :
    assocGet n (({ b with slots := assocSet n k b.slots } : Sbx).touch n).slots = some { k with age := 0 } := by
  simp [Sbx.touch, assocGet_mapSnd, assocGet_assocSet]

/-! ### Handles (R185) and drawn types (R186) -/

theorem handleType_makeHandle (owner serial : Nat) {type : Nat} (h : type < 16) : handleType (makeHandle owner type serial) = type := by
  unfold handleType makeHandle
  omega

/-- The drawn types are among the seven of R186. -/
theorem keyDrawn_range {type : Nat} (h : keyDrawn type = true) : type ≠ 0 ∧ type ≤ 7 := by
  rcases of_decide_eq_true h with rfl | rfl | rfl | rfl <;> decide

/-! ### What making a key leaves (R192, R193, R397) -/

/-- A key about to be made: the command, the key's table entry without its blob's tag, the Stall's record and tables, the key itself,
whether its slot is pinned, and the generation it replaces. -/
structure NewKey where
  c : Call
  e : KeyEntry
  st : Stall
  d : StallData
  key : Bytes
  pin : Bool
  old : Option Nat

namespace NewKey

/-- The key's blob (R192). -/
def blob (k : NewKey) : Bytes :=
  blobBytes k.d.wrapKey
    { handle := k.e.handle, usage := k.e.usage, gen := k.e.gen, keyLen := k.e.keyLen
      attr := bit (keyDrawn (handleType k.e.handle)) + 2 * bit k.e.migratable, inst := k.st.inst } k.key

/-- The slot that takes the key, pinned as asked. -/
def slot (k : NewKey) : KeySlot :=
  { KeySlot.fresh k.e.handle k.e.gen k.e.usage k.key with pinned := k.pin, cls := if k.pin then .stall else .unpinned }

/-- The Stall's tables without the generation the key replaces. -/
def kept (k : NewKey) : StallData :=
  match k.old with
  | none => k.d
  | some g => { k.d with keys := k.d.keys.filter fun x => ¬ (x.handle = k.e.handle ∧ x.gen = g) }

/-- The Stall's tables with the key in them and one more wrap counted. -/
def tables (k : NewKey) : StallData :=
  { (k.kept.putKey { k.e with blobTag := blobTag k.blob }) with wrapCount := k.d.wrapCount + 1 }

/-- The state without the copies of the generation the key replaces. -/
def erased (k : NewKey) (s : State) : State :=
  match k.old with
  | none => s
  | some g => s.eraseKey k.e.handle g

theorem erased_frame (k : NewKey) (s : State) : k.erased s = { s with sbx := (k.erased s).sbx } := by
  unfold erased
  split <;> rfl

/-- The key is made, where the write of its blob is answered OK. -/
def make (k : NewKey) (result : Bytes) (s : State) : State := s.createKey k.c k.e k.st k.d k.key k.pin k.old true result

/-- The state with the key's blob and entry, before it has a slot. -/
def entered (k : NewKey) (s : State) : State := ((k.erased s).emit (.memWrite k.c.stall k.e.blobAddr k.blob)).setStallData k.c.stall k.tables

/-- The state with the key's blob, entry and slot. -/
def stored (k : NewKey) (n : Nat) (s : State) : State :=
  { k.entered s with sbx := ({ (k.entered s).sbx with slots := assocSet n k.slot (k.entered s).sbx.slots } : Sbx).touch n }

/-- What a key leaves that slot `n` took: its blob, its entry, its slot and the record with `result`. -/
structure Made (k : NewKey) (result : Bytes) (n : Nat) (s t : State) : Prop where
  out : t.out = s.out ++ [.memWrite k.c.stall k.e.blobAddr k.blob]
  data : t.stallData? k.c.stall = some k.tables
  slot : assocGet n t.sbx.slots = some k.slot
  recorded : s.recorded t { k.c.record stOk with result }
  table : t.stl.table = s.stl.table
  only : t = { s with out := t.out, hlm := t.hlm, obs := t.obs, alr := t.alr, sbx := t.sbx, stl := t.stl }

/-- The key is entered, gets a slot where there is one, and the command ends with ST_OK. -/
theorem make_entered (k : NewKey) (result : Bytes) (s : State) :
    k.make result s = (((k.entered s).placeKey k.slot).getD (k.entered s)).finishOk k.c result := by
  obtain ⟨c, e, st, d, key, pin, old⟩ := k
  cases old with
  | none =>
    simp only [make, State.createKey, not_true, if_false, State.modStallData_setStallData]
    rfl
  | some g =>
    have hcomm (x : StallData) (t : State) : (t.setStallData c.stall x).eraseKey e.handle g = (t.eraseKey e.handle g).setStallData c.stall x := rfl
    simp only [make, State.createKey, not_true, if_false, hcomm, State.modStallData_setStallData]
    rfl

theorem make_stored (k : NewKey) (result : Bytes) {n : Nat} {s : State} (hn : (k.erased s).sbx.freeSlot = some n) :
    k.make result s = (k.stored n s).finishOk k.c result := by
  have hplaced : (k.entered s).placeKey k.slot = some (k.stored n s) := State.placeKey_free k.slot hn
  rw [make_entered, hplaced]
  rfl

theorem stored_frame (k : NewKey) (n : Nat) (s : State) :
    k.stored n s = { s with
      out := s.out ++ [.memWrite k.c.stall k.e.blobAddr k.blob], sbx := (k.stored n s).sbx
      stl := { s.stl with data := assocSet k.c.stall k.tables s.stl.data } } := by
  unfold stored entered
  rw [erased_frame]
  rfl

theorem make_made (k : NewKey) (result : Bytes) {n : Nat} {s : State} (hq : s.alr.quiet = false)
    (hn : (k.erased s).sbx.freeSlot = some n) : k.Made result n s (k.make result s) := by
  rw [make_stored k result hn]
  have hstored := k.stored_frame n s
  have hrec := State.finishOk_recorded k.c result (s := k.stored n s) ((congrArg (·.alr.quiet) hstored).trans hq)
  have hk := State.finishOk_frame k.c result (k.stored n s)
  exact
    { out := (congrArg State.out hk :).trans (congrArg State.out hstored :)
      data := (congrArg (·.stallData? k.c.stall) hk :).trans (State.stallData?_setStallData ..)
      slot := (congrArg (fun t : State => assocGet n t.sbx.slots) hk :).trans (Sbx.assocGet_touch_assocSet ..)
      recorded := State.recorded_of_port (congrArg (·.hlm.cwq) hstored) (congrArg (·.hlm.dwBuf) hstored) hrec
      table := (congrArg (·.stl.table) hk :).trans (congrArg (·.stl.table) hstored :)
      only := by rw [hk, hstored] }

/-- KEY_GENERATE's key of a drawn type. -/
def generated (c : Call) (type flags usage keyLen addr : Nat) (st : Stall) (d : StallData) (s : State) : NewKey where
  c; st; d
  e := { handle := makeHandle c.stall type st.nextSerial, gen := 0, pinned := flags.testBit 0, migratable := flags.testBit 1, usage, keyLen
         use := 0, ops := 0, blobAddr := addr, blobTag := [], eC := s.epo.epoch, ownerIdx := 0, destroyed := false }
  key := s.drawn keyLen
  pin := flags.testBit 0
  old := none

/-- The blob of a drawn key says that it is drawn (R192). -/
theorem generated_blob (c : Call) {type : Nat} (flags usage keyLen addr : Nat) (st : Stall) (d : StallData) (s : State)
    (h : keyDrawn type = true) :
    (generated c type flags usage keyLen addr st d s).blob = blobBytes d.wrapKey
      { handle := makeHandle c.stall type st.nextSerial, usage, gen := 0, keyLen, attr := 1 + 2 * bit (flags.testBit 1), inst := st.inst }
      (s.drawn keyLen) := by
  have htype : handleType (makeHandle c.stall type st.nextSerial) = type :=
    handleType_makeHandle _ _ (Nat.lt_of_le_of_lt (keyDrawn_range h).2 (by decide))
  simp [blob, generated, htype, h, bit]

/-- KEY_ROTATE's next generation of a drawn key. -/
def rotated (c : Call) (addr : Nat) (st : Stall) (d : StallData) (e : KeyEntry) (s : State) : NewKey where
  c; st; d
  e := { e with gen := e.gen + 1, use := 0, ops := 0, pinned := false, blobAddr := addr, eC := s.epo.epoch }
  key := s.drawn e.keyLen
  pin := false
  old := some e.gen

end NewKey

/-! ### The commands -/

/-- The Stall's record after one more serial is given out (R185). -/
def State.serialGiven (c : Call) (st : Stall) (s : State) : State := s.setStall c.stall { st with nextSerial := st.nextSerial + 1 }

/-- KEY_GENERATE of a drawn type that passes every check makes its key of the next draw (R186, R206). -/
theorem execKeyGenerate_drawn {s : State} {c : Call} {type flags usage keyLen addr : Nat} {st : Stall} {d : StallData}
    (ha : s.admits c 0x0201) (hst : s.stall? c.stall = some st) (hd : s.stallData? c.stall = some d) (hdrawn : keyDrawn type = true)
    (hargs : keyGenBad d type flags usage keyLen 0 addr = none) (hkeys : d.keys.length < 256) (hserial : st.nextSerial ≤ 65535)
    (hwraps : d.wrapCount < 2 ^ 32) (hpin : flags.testBit 0 = false ∨ s.mayPin c.stall = true) (he : s.sbx.entropyOk = true) :
    ∃ o, execKeyGenerate c type flags usage keyLen 0 addr true s = done
      ((NewKey.generated c type flags usage keyLen addr st d s).make (leBytes 4 (makeHandle c.stall type st.nextSerial))
        ((s.begin.entropyCame c o).tookDraw.serialGiven c st)) := by
  obtain ⟨o, ho⟩ := State.withEntropy_ready (s := s.begin) c (fun t => (NewKey.generated c type flags usage keyLen addr st d t).make
    (leBytes 4 (makeHandle c.stall type st.nextSerial)) (t.tookDraw.serialGiven c st)) he
  refine ⟨o, ?_⟩
  have hst' : s.begin.stall? c.stall = some st := hst
  have hd' : s.begin.stallData? c.stall = some d := hd
  have htype : ¬ (type = 0 ∨ 7 < type) := by have := keyDrawn_range hdrawn; omega
  have hroom : ¬ (256 ≤ d.keys.length ∨ 65535 < st.nextSerial ∨ (flags.testBit 0 = true ∧ ¬ s.begin.mayPin c.stall = true)) := by
    have hpin' : s.begin.mayPin c.stall = s.mayPin c.stall := rfl
    rcases hpin with hp | hp <;> simp [hpin', hp] <;> omega
  rw [execKeyGenerate, State.command_run ha]
  simp only [hst', hd', if_neg htype, hargs, if_neg hroom, if_neg (Nat.not_le.mpr hwraps), if_pos hdrawn]
  exact congrArg done ho

/-- KEY_ROTATE of a BOOTH key that passes every check makes its next generation of the next draw (R197, R206). -/
theorem execKeyRotate_booth {s : State} {c : Call} {h addr : Nat} {st : Stall} {d : StallData} {e : KeyEntry}
    (ha : s.admits c 0x0204) (hkey : s.namedKey c h = some e) (hst : s.stall? c.stall = some st) (hd : s.stallData? c.stall = some d)
    (htype : handleType h = keyBooth) (halign : addr % 128 = 0) (haddr : addr < 2 ^ 56) (hgen : e.gen < 255) (hwraps : d.wrapCount < 2 ^ 32)
    (hseal : s.regionHandle c.stall ≠ some h) (he : s.sbx.entropyOk = true) :
    ∃ o, execKeyRotate c h addr true s = done
      ((NewKey.rotated c addr st d e s).make (leBytes 1 (e.gen + 1)) (s.begin.entropyCame c o).tookDraw) := by
  obtain ⟨o, ho⟩ := State.withEntropy_ready (s := s.begin) c
    (fun t => ({ NewKey.rotated c addr st d e s with key := t.drawn e.keyLen } : NewKey).make (leBytes 1 (e.gen + 1)) t.tookDraw) he
  refine ⟨o, ?_⟩
  have hkey' : s.begin.namedKey c h = some e := hkey
  have hst' : s.begin.stall? c.stall = some st := hst
  have hd' : s.begin.stallData? c.stall = some d := hd
  have hseal' : ¬ s.begin.regionHandle c.stall = some h := hseal
  have hregion : keyBooth ≠ keyRegion := by decide
  have hdrawn : keyDrawn keyBooth = true := by decide
  rw [execKeyRotate, State.command_run ha]
  simp only [hkey', hst', hd', htype, hregion, hdrawn, hseal', halign, Nat.not_le.mpr haddr, Nat.not_le.mpr hgen, Nat.not_le.mpr hwraps,
    false_and, and_false, or_false, if_false, if_true, ne_eq, not_true, decide_false, Bool.false_eq_true]
  exact congrArg done ho

/-! ### The statement -/

/-- Settles O9: what a key just made leaves, after the checks of each command. -/
theorem keyGenerateAndRotate : Obligations.KeyGenerateAndRotate := by
  refine ⟨?generate, ?rotate⟩
  case generate =>
    intro s c type flags usage keyLen addr n st d ha hst hd hdrawn hargs hkeys hserial hwraps hpin he hn
    obtain ⟨o, hexec⟩ := execKeyGenerate_drawn ha hst hd hdrawn hargs hkeys hserial hwraps hpin he
    have hquiet : s.alr.quiet = false := ha.1.2.2
    have hblob := NewKey.generated_blob c flags usage keyLen addr st d s hdrawn
    obtain ⟨out, data, slot, recorded, table, only⟩ := (NewKey.generated c type flags usage keyLen addr st d s).make_made
      (leBytes 4 (makeHandle c.stall type st.nextSerial)) (s := (s.begin.entropyCame c o).tookDraw.serialGiven c st) hquiet hn
    generalize NewKey.make .. = t at *
    rw [hblob] at out
    rw [NewKey.tables, hblob] at data
    have hstall : t.stall? c.stall = some { st with nextSerial := st.nextSerial + 1 } :=
      (congrArg (assocGet c.stall) table).trans ((assocGet_assocSet _ _ _ s.stl.table).trans (if_pos rfl))
    have hfresh : t.fresh = s.fresh + 1 := (congrArg State.fresh only :)
    exact ⟨t, hexec, ⟨out, hstall, data, congrArg (Option.map _) slot, hfresh, recorded⟩, only.trans (by rw [hfresh]; rfl)⟩
  case rotate =>
    intro s c h addr n st d e ha hkey hst hd htype halign haddr hgen hwraps hseal he hn
    obtain ⟨o, hexec⟩ := execKeyRotate_booth ha hkey hst hd htype halign haddr hgen hwraps hseal he
    have hquiet : s.alr.quiet = false := ha.1.2.2
    obtain ⟨out, data, slot, recorded, -, only⟩ := (NewKey.rotated c addr st d e s).make_made (leBytes 1 (e.gen + 1))
      (s := (s.begin.entropyCame c o).tookDraw) hquiet hn
    generalize NewKey.make .. = t at *
    have hfresh : t.fresh = s.fresh + 1 := (congrArg State.fresh only :)
    exact ⟨t, hexec, ⟨out, data, congrArg (Option.map _) slot, hfresh, recorded⟩, only.trans (by rw [hfresh]; rfl)⟩

end Sys2Proof.Machine

/-!
Key commands on a handle the issuer owns (O10).

Each command's lemma is its body on the live entry of the handle. KEY_DESTROY erases generation by generation; with no copy of the key in a
tile, that leaves the slots and unwraps of every other key (`State.eraseKeys_noCopy`), and the destruction is over at once.
-/

namespace Sys2Proof.Machine

/-! ### KEY_LOAD (R195) -/

theorem execKeyLoad_resident {s : State} {c : Call} {h flags n : Nat} {e : KeyEntry} {k : KeySlot} (ha : s.admits c 0x0202)
    (hkey : s.namedKey c h = some e) (hslot : s.sbx.slotOf h e.gen = some (n, k)) (hflags : flags < 2)
    (hpin : flags = 0 ∨ k.pinned = true ∨ s.mayPin c.stall = true) :
    execKeyLoad c h flags s = done (({ s.begin with sbx := Sbx.touch n { s.sbx with
      slots := assocSet n (if flags = 1 then { k with pinned := true, cls := .stall } else k) s.sbx.slots } } : State).finish c stOk) := by
  have hkey' : s.begin.namedKey c h = some e := hkey
  have hpin' : s.begin.mayPin c.stall = s.mayPin c.stall := rfl
  rw [execKeyLoad, State.command_run ha]
  simp only [hkey', State.begin_sbx, hslot, if_neg (Nat.not_le.mpr hflags), Option.map_some, Option.getD_some, hpin']
  obtain rfl | rfl : flags = 0 ∨ flags = 1 := by omega
  · rfl
  · have hok : ¬ (Nat.testBit 1 0 = true ∧ ¬ k.pinned = true ∧ ¬ s.mayPin c.stall = true) :=
      fun ⟨_, hunpinned, hfull⟩ => (hpin.resolve_left Nat.one_ne_zero).elim hunpinned hfull
    rw [if_neg hok]
    rfl

/-- An unwrap of the key, if it is one, with one more that waits for it. -/
def Unwrap.joinedBy (h g : Nat) (w : KeyWaiter) (u : Unwrap) : Unwrap :=
  if u.handle = h ∧ u.gen = g ∧ ¬ u.waiters.contains w then { u with waiters := u.waiters ++ [w] } else u

/-- Only the unwrap just added is one of the key. -/
theorem map_joinedBy_new {h g : Nat} (w : KeyWaiter) (started : Bool) {l : List Unwrap} (hother : ∀ u ∈ l, ¬ (u.handle = h ∧ u.gen = g)) :
    (l ++ [({ handle := h, gen := g, started, waiters := [] } : Unwrap)]).map (Unwrap.joinedBy h g w) =
      l ++ [{ handle := h, gen := g, started, waiters := [w] }] := by
  have hl : l.map (Unwrap.joinedBy h g w) = l :=
    (List.map_congr_left fun u hu => if_neg fun ⟨hh, hg, _⟩ => hother u hu ⟨hh, hg⟩).trans (List.map_id l)
  rw [List.map_append, hl]
  simp [Unwrap.joinedBy]

theorem execKeyLoad_missing {s : State} {c : Call} {h flags : Nat} {e : KeyEntry} (ha : s.admits c 0x0202)
    (hkey : s.namedKey c h = some e) (hslot : s.sbx.slotOf h e.gen = none) (hflags : flags < 2)
    (hpin : flags = 0 ∨ s.mayPin c.stall = true) (hnone : s.sbx.unwraps.any (fun u => decide (u.handle = h ∧ u.gen = e.gen)) = false)
    (hcore : s.rst.coreReset = none) :
    execKeyLoad c h flags s = done { s.begin with sbx := { s.sbx with unwraps := s.sbx.unwraps ++
      [({ handle := h, gen := e.gen, started := true, waiters := [.command c (flags.testBit 0)] } : Unwrap)] } } := by
  have hkey' : s.begin.namedKey c h = some e := hkey
  have hpin' : s.begin.mayPin c.stall = s.mayPin c.stall := rfl
  have hother : ∀ u ∈ s.sbx.unwraps, ¬ (u.handle = h ∧ u.gen = e.gen) := by simpa using hnone
  have hok : ¬ (flags.testBit 0 = true ∧ ¬ false = true ∧ ¬ s.mayPin c.stall = true) :=
    fun ⟨hbit, _, hfull⟩ => hfull (hpin.resolve_left fun h0 => by simp [h0] at hbit)
  have hfind : s.sbx.unwraps.find? (fun u => decide (u.handle = h ∧ u.gen = e.gen)) = none :=
    List.find?_eq_none.mpr fun u hu => by simpa using hother u hu
  rw [execKeyLoad, State.command_run ha]
  simp only [hkey', State.begin_sbx, State.begin_rst, hslot, if_neg (Nat.not_le.mpr hflags), Option.map_none, Option.getD_none, hpin',
    if_neg hok, hfind, hcore]
  exact congrArg (fun us => done ({ s.begin with sbx := { s.sbx with unwraps := us } } : State))
    (map_joinedBy_new (.command c (flags.testBit 0)) true hother)

/-! ### KEY_UNPIN (R206) -/

theorem execKeyUnpin_owned {s : State} {c : Call} {h : Nat} {e : KeyEntry} {d : StallData} (ha : s.admits c 0x0203)
    (hkey : s.namedKey c h = some e) (hd : s.stallData? c.stall = some d) :
    execKeyUnpin c h s = done ((({ s.begin with sbx := { s.sbx with slots := s.sbx.slots.map fun p =>
      if p.2.handle = h ∧ p.2.cls = .stall then (p.1, { p.2 with pinned := false, cls := .unpinned }) else p } } : State).setStallData c.stall
        { d with keys := d.keys.map fun k => if k.handle = h then { k with pinned := false } else k }).finish c stOk) := by
  have hkey' : s.begin.namedKey c h = some e := hkey
  rw [execKeyUnpin, State.command_run ha]
  simp only [hkey', State.begin_sbx]
  exact congrArg (fun t : State => done (t.finish c stOk)) (State.modStallData_some _ hd)

/-! ### KEY_DESTROY (R203, R205) -/

/-- With no copy of the key in a tile, there is nothing to invalidate. -/
theorem State.eraseKey_noCopy {h : Nat} (g : Nat) {s : State} (hno : s.sbx.tiles.any (fun k => decide (k.handle = h)) = false) :
    s.eraseKey h g = { s with sbx := { s.sbx with
      slots := s.sbx.slots.filter fun p => ¬ (p.2.handle = h ∧ p.2.gen = g)
      unwraps := s.sbx.unwraps.filter fun u => ¬ (u.handle = h ∧ u.gen = g) } } := by
  have hmine : s.sbx.tiles.filter (fun t => decide (t.handle = h ∧ t.gen = g)) = [] :=
    List.filter_eq_nil_iff.mpr fun t ht hh => List.any_eq_false.mp hno t ht (decide_eq_true (of_decide_eq_true hh).1)
  unfold State.eraseKey
  dsimp only
  rw [hmine, List.map_nil, List.append_nil]

/-- The generations of a handle erased one after another: their slots and unwraps go, and that is all. -/
theorem State.eraseKeys_noCopy {h : Nat} (l : List KeyEntry) {s : State} (hno : s.sbx.tiles.any (fun k => decide (k.handle = h)) = false) :
    l.foldl (fun t k => t.eraseKey h k.gen) s = { s with sbx := { s.sbx with
      slots := s.sbx.slots.filter fun p => ¬ (p.2.handle = h ∧ l.any (fun k => k.gen = p.2.gen) = true)
      unwraps := s.sbx.unwraps.filter fun u => ¬ (u.handle = h ∧ l.any (fun k => k.gen = u.gen) = true) } } := by
  induction l generalizing s with
  | nil => simp
  | cons k l ih =>
    have hstep (h' g : Nat) : ¬ (h' = h ∧ (k :: l).any (fun k => k.gen = g) = true) ↔
        ¬ (h' = h ∧ l.any (fun k => k.gen = g) = true) ∧ ¬ (h' = h ∧ g = k.gen) := by
      simp only [List.any_cons, Bool.or_eq_true, decide_eq_true_eq]
      tauto
    rw [List.foldl_cons, State.eraseKey_noCopy k.gen hno]
    refine (ih ?_).trans ?_
    · exact hno
    simp only [List.filter_filter, hstep, Bool.decide_and]

/-- A handle's entries marked as destroyed (R203). -/
def StallData.destroyed (h : Nat) (d : StallData) : StallData :=
  { d with keys := d.keys.map fun k => if k.handle = h then { k with destroyed := true } else k }

/-- Slots and unwraps without the generations of a handle that the key table has. -/
def Sbx.erased (h : Nat) (d : StallData) (b : Sbx) : Sbx :=
  { b with
    slots := b.slots.filter fun p => ¬ (p.2.handle = h ∧ (d.keys.any fun k => k.handle = h ∧ k.gen = p.2.gen) = true)
    unwraps := b.unwraps.filter fun u => ¬ (u.handle = h ∧ (d.keys.any fun k => k.handle = h ∧ k.gen = u.gen) = true) }

/-- The state of a key without a trace, with the destructions `ds` not yet over. -/
def State.keyDestroyed (stall h : Nat) (d : StallData) (ds : List KeyDestroy) (s : State) : State :=
  { s.setStallData stall (d.destroyed h) with sbx := { s.sbx.erased h d with destroys := ds } }

/-- With no operation in the Booth and no copy in a tile, every trace of the key goes at once (R203, R205). -/
theorem State.destroyKey_idle {s : State} {stall h : Nat} {d : StallData} (call : Option Call) (hd : s.stallData? stall = some d)
    (hrun : s.bth.running = none) (hno : s.sbx.tiles.any (fun k => decide (k.handle = h)) = false) :
    s.destroyKey stall h call = s.keyDestroyed stall h d (s.sbx.destroys ++ [{ handle := h, call, held := false }]) := by
  have hmark : s.modStallData stall (fun d => { d with keys := d.keys.map fun k => if k.handle = h then { k with destroyed := true } else k }) =
      s.setStallData stall (d.destroyed h) := State.modStallData_some _ hd
  have herase := State.eraseKeys_noCopy (d.keys.filter fun k => k.handle = h) (s := s.setStallData stall (d.destroyed h)) hno
  simp only [List.any_filter, ← Bool.decide_and] at herase
  unfold State.destroyKey
  simp only [hd, hrun, hmark, herase, Option.map_some, Option.map_none, Option.getD_some, Option.getD_none, Bool.false_eq_true, if_false]
  rfl

/-- A destruction with no copy of its key in a tile and none on its way out is over (R203). -/
theorem State.settleDestroys_ended {s : State} {h : Nat} {c : Call} (hd : s.sbx.destroys = [{ handle := h, call := some c, held := false }])
    (hinv : s.sbx.invals.any (fun v => decide (v.handle = h)) = false) :
    s.settleDestroys = ({ s with sbx := { s.sbx with destroys := [] } } : State).finish c stOk := by
  simp [State.settleDestroys, hd, hinv]

theorem execKeyDestroy_noCopy {s : State} {c : Call} {h : Nat} {e : KeyEntry} {d : StallData} (ha : s.admits c 0x0205)
    (hkey : s.namedKey c h = some e) (hd : s.stallData? c.stall = some d) (hregion : s.regionKeyUsed c.stall h = false)
    (hrun : s.bth.running = none) (hnone : s.sbx.destroys = []) (hno : s.sbx.tiles.any (fun k => decide (k.handle = h)) = false)
    (hinv : s.sbx.invals.any (fun k => decide (k.handle = h)) = false) :
    execKeyDestroy c h s = done ((s.begin.keyDestroyed c.stall h d []).finish c stOk) := by
  have hkey' : s.begin.namedKey c h = some e := hkey
  have hregion' : s.begin.regionKeyUsed c.stall h = false := hregion
  have hdestroy := State.destroyKey_idle (s := s.begin) (some c) hd hrun hno
  have hsettle := State.settleDestroys_ended (c := c) (h := h)
    (s := s.begin.keyDestroyed c.stall h d (s.sbx.destroys ++ [{ handle := h, call := some c, held := false }]))
    (congrArg (fun ds : List KeyDestroy => ds ++ [{ handle := h, call := some c, held := false }]) hnone) hinv
  rw [execKeyDestroy, State.command_run ha]
  simp only [hkey', hregion', Bool.false_eq_true, and_false, if_false, hdestroy]
  exact congrArg done hsettle

/-! ### KEY_ATTEST (R201) -/

/-- The certificates are written and their serial numbers drawn; the command waits for entropy no more. -/
def State.attested (c : Call) (out_ : Nat) (certs : Bytes) (o : Obs) (s : State) : State :=
  { s with
    out := [.memWrite c.stall out_ certs], fresh := s.fresh + 1, obs := o
    sbx := { s.sbx with entropyWaits := s.sbx.entropyWaits.filter fun w => w.call ≠ c } }

theorem execKeyAttest_fits {s : State} {c : Call} {h out_ outMax : Nat} {certs : Bytes} {e : KeyEntry} (ha : s.admits c 0x0206)
    (hkey : s.namedKey c h = some e) (htype : handleType h = keyPairKem ∨ handleType h = keyPairSign) (he : s.sbx.entropyOk = true)
    (hroom : certs.length ≤ outMax) :
    ∃ o, execKeyAttest c h out_ outMax certs true s = done ((s.attested c out_ certs o).finishOk c (leBytes 4 certs.length)) := by
  obtain ⟨o, ho⟩ := State.withEntropy_ready (s := s.begin) c
    (fun t => ((t.tookDraw.bump (ctrSbx 7) 1).emit (.memWrite c.stall out_ certs)).finishOk c (leBytes 4 certs.length)) he
  refine ⟨o.bump (ctrSbx 7) 1, ?_⟩
  have hkey' : s.begin.namedKey c h = some e := hkey
  have htype' : ¬ (handleType h ≠ keyPairKem ∧ handleType h ≠ keyPairSign) := by tauto
  rw [execKeyAttest, State.command_run ha]
  simp only [hkey', if_neg htype', State.output_fits c out_ outMax certs _ hroom]
  exact congrArg done ho

/-! ### The statement -/

/-- Settles O10: each clause is its command's lemma in the clause's one case. -/
theorem keyCommandsOnOwnedHandles : Obligations.KeyCommandsOnOwnedHandles := by
  refine ⟨fun s c h flags n e k ha hkey hslot hflags hpin => execKeyLoad_resident ha hkey hslot hflags hpin,
    fun s c h flags e ha hkey hslot hflags hpin hnone hcore => execKeyLoad_missing ha hkey hslot hflags hpin hnone hcore,
    fun s c h e d ha hkey hd => execKeyUnpin_owned ha hkey hd, ?destroy, ?attest, ?unknown⟩
  case destroy =>
    intro s c h e d ha hkey hd hregion hrun hnone hno hinv
    have hquiet : s.alr.quiet = false := ha.1.2.2
    have hk := State.finish_frame c stOk (s.begin.keyDestroyed c.stall h d [])
    have hrec := State.finish_recorded (s := s.begin.keyDestroyed c.stall h d []) c stOk hquiet
    refine ⟨_, execKeyDestroy_noCopy ha hkey hd hregion hrun hnone hno hinv, ?_⟩
    generalize State.finish .. = t at *
    exact ⟨(congrArg (·.stallData? c.stall) hk :).trans (State.stallData?_setStallData ..), (congrArg (·.sbx.slots) hk :),
      (congrArg (·.sbx.destroys) hk :), hrec, by rw [hk]; rfl⟩
  case attest =>
    intro s c h out_ outMax certs e ha hkey htype he hroom
    have hquiet : s.alr.quiet = false := ha.1.2.2
    obtain ⟨o, hexec⟩ := execKeyAttest_fits (out_ := out_) ha hkey htype he hroom
    have hk := State.finishOk_frame c (leBytes 4 certs.length) (s.attested c out_ certs o)
    have hrec := State.finishOk_recorded (s := s.attested c out_ certs o) c (leBytes 4 certs.length) hquiet
    refine ⟨_, hexec, ?_⟩
    generalize State.finishOk .. = t at *
    exact ⟨(congrArg State.out hk :), (congrArg State.fresh hk :), hrec, (congrArg State.sbx hk :), by rw [hk]; rfl⟩
  case unknown =>
    intro s c h a b certs ok hkey
    have hkey' : s.begin.namedKey c h = none := hkey
    refine ⟨?load, ?unpin, ?rotate, ?destroy, ?attest⟩
    all_goals
      intro ha
      refine (congrArg done (State.command_run ha)).trans ?_
      simp only [hkey']
      rfl

end Sys2Proof.Machine

/-!
Entropy, link key pairs, slot check codes and the verification of an erase (O12).

Each command's lemma is its body in one of its cases. A slot whose check code does not match has a lemma of its own
(`State.slotMismatch_stall`); what its alarm changes is the alarm log and its flag, never a tamper flag.
-/

namespace Sys2Proof.Machine

/-! ### Random bits and key pairs (R199, R200) -/

theorem execEntropyRecover_running {s : State} (hrun : s.bth.running.isSome = true) :
    execEntropyRecover s = done { s.begin with sbx := { s.sbx with entropyOk := true } } :=
  congrArg done (State.kickBooth_running 8 hrun)

/-- A command that the Tollgate does not run waits in the Booth's queue alone. -/
theorem State.dropWaiting_elsewhere {c : Call} {s : State} (htol : s.tol.running = none) :
    s.dropWaiting c = { s with bth := { s.bth with queue := s.bth.queue.filter fun o => o.call ≠ c } } :=
  if_neg (by simp [htol])

/-- The command `c` waits for random bits no more, nor in the Booth's queue. -/
def State.waitOver (c : Call) (ws : List EntropyWait) (o : Obs) (s : State) : State :=
  { s with
    sbx := { s.sbx with entropyWaits := ws }, obs := o
    bth := { s.bth with queue := s.bth.queue.filter fun q => q.call ≠ c } }

theorem State.dropWaiting_waitOver (c : Call) (ws : List EntropyWait) {s : State} (htol : s.tol.running = none) :
    ∃ o, (({ s with sbx := { s.sbx with entropyWaits := ws } } : State).waitEnd 80 17 (some c.stall) 0).dropWaiting c = s.waitOver c ws o := by
  rw [State.waitEnd_frame, State.dropWaiting_elsewhere (by exact htol)]
  exact ⟨_, rfl⟩

section
variable {s : State} {w : EntropyWait} {ws : List EntropyWait} (hw : s.sbx.entropyWaits = w :: ws)
include hw

theorem execEntropyWaitTimeout_early (hearly : s.clk.elapsed < w.since + 1000000) : execEntropyWaitTimeout s = done s.begin := by
  have hexp : s.begin.expired w.since 1000000 = false := decide_eq_false (Nat.not_le.mpr hearly)
  unfold execEntropyWaitTimeout
  simp only [State.begin_sbx, hw, hexp, Bool.false_eq_true, not_false_eq_true, or_true, if_true]

/-- The oldest wait is over: its command leaves the Booth's queue and ends with ST_NO_ENTROPY (R199). -/
theorem execEntropyWaitTimeout_late (hfail : s.sbx.entropyOk = false) (hlate : w.since + 1000000 ≤ s.clk.elapsed)
    (hrun : s.bth.running.isSome = true) (htol : s.tol.running = none) :
    ∃ o, execEntropyWaitTimeout s = done ((s.begin.waitOver w.call ws o).finish w.call stNoEntropy) := by
  have hgo : ¬ (s.sbx.entropyOk = true ∨ ¬ s.begin.expired w.since 1000000 = true) := by
    have hexp : s.begin.expired w.since 1000000 = true := decide_eq_true hlate
    simp [hfail, hexp]
  obtain ⟨o, hover⟩ := State.dropWaiting_waitOver w.call ws (s := s.begin) htol
  refine ⟨o, ?_⟩
  unfold execEntropyWaitTimeout
  simp only [State.begin_sbx, hw]
  have hrun' : ((s.begin.waitOver w.call ws o).finish w.call stNoEntropy).bth.running.isSome = true := by rw [State.finish_frame]; exact hrun
  refine (if_neg hgo).trans (congrArg done ?_)
  exact (congrArg (fun t : State => (t.finish w.call stNoEntropy).kickBooth 8) hover).trans (State.kickBooth_running 8 hrun')

end

theorem execKeyPairGenerated_room {s : State} (hok : s.sbx.entropyOk = true) (hroom : s.sbx.poolLevel < 32) (hnet : s.sbx.zeroNet = false) :
    execKeyPairGenerated s =
      done ({ s.begin with sbx := { s.sbx with poolLevel := s.sbx.poolLevel + 1 } }.bump (ctrSbx 5) 1) :=
  if_pos ⟨hok, hroom, by simp [hnet]⟩

theorem execKeyPairGenerated_held {s : State} (h : s.sbx.entropyOk = false ∨ 32 ≤ s.sbx.poolLevel) : execKeyPairGenerated s = done s.begin := by
  refine if_neg fun ⟨hok, hroom, _⟩ => ?_
  rcases h with h | h
  · exact Bool.false_ne_true (h.symm.trans hok)
  · exact absurd hroom (Nat.not_lt.mpr h)

/-! ### The verify pass (R204) -/

theorem execZeroizeVerifyDone_idle (n : Nat) {s : State} (hv : s.sbx.verifying = false) : execZeroizeVerifyDone n s = done s.begin :=
  if_pos (by simp [hv])

theorem execZeroizeVerifyDone_zero {s : State} (hv : s.sbx.verifying = true) :
    execZeroizeVerifyDone 0 s = done { s.begin with sbx := { s.sbx with verifying := false, zeroized := true } } :=
  if_neg (by simp [hv])

theorem execZeroizeVerifyDone_nonzero {s : State} {n : Nat} (hv : s.sbx.verifying = true) (hn : 0 < n) :
    execZeroizeVerifyDone n s = done (({ s.begin with sbx := { s.sbx with verifying := false, zeroizeFail := true } } : State).alarmTamper
      unitStrongbox 6 (min n (2 ^ 32 - 1))) :=
  (if_neg (by simp [hv])).trans (if_neg (Nat.ne_of_gt hn))

/-- The alarm keeps ZEROIZE_FAIL. -/
theorem State.alarmTamper_zeroizeFail (unit cause word : Nat) (s : State) :
    (s.alarmTamper unit cause word).sbx.zeroizeFail = s.sbx.zeroizeFail :=
  (congrArg Sbx.zeroizeFail (State.enterSafeStop_keepsKeys (s.zeroized unit cause word)).sbx :)

/-! ### Slot check codes (R188, R533) -/

theorem execKeyslotMaskRefresh_eq (bad : List Nat) {s : State} (hnet : s.sbx.zeroNet = false) :
    execKeyslotMaskRefresh bad s = done (bad.foldl (fun u n => u.slotMismatch n)
      ({ s.begin with sbx := { s.sbx with refreshes := s.sbx.refreshes + 1 } } : State)) :=
  if_neg (by simp [hnet])

/-- A slot of a Stall's key whose check code does not match: emptied with its uses in the key table, its bank under its Sounding (R533). -/
def State.slotLost (n : Nat) (k : KeySlot) (d : StallData) (s : State) : State :=
  { s.setStallData (handleOwner k.handle) { d with keys := d.keys.map fun e =>
      if e.handle = k.handle ∧ e.gen = k.gen then { e with use := k.count, ops := k.ops } else e } with
    sbx := { s.sbx with slots := assocDel n s.sbx.slots, testing := s.sbx.testing ++ [n / 16] }
    cht := { s.cht with ksBank := some (n / 16), ksField := false } }

theorem State.slotMismatch_stall {s : State} {n : Nat} {k : KeySlot} {d : StallData} (hk : assocGet n s.sbx.slots = some k)
    (htype : handleType k.handle < 9) (howner : handleOwner k.handle ≠ 0) (hd : s.stallData? (handleOwner k.handle) = some d)
    (htest : s.sbx.testing.contains (n / 16) = false) (hspare : s.cht.ksBank = none) :
    s.slotMismatch n = (s.slotLost n k d).alarmIntegrity unitStrongbox (some (handleOwner k.handle)) none 6 n := by
  have huse : s.saveUse k = _ := State.modStallData_some _ hd
  have h9 : handleType k.handle ≠ 9 := by omega
  have h10 : handleType k.handle ≠ 10 := by omega
  have h11 : handleType k.handle ≠ 11 := by omega
  have h12 : handleType k.handle ≠ 12 := by omega
  unfold State.slotMismatch
  simp only [hk, huse, howner, h9, h10, h11, h12, or_self, if_false, State.setStallData_sbx, State.setStallData_cht, htest, hspare]
  rfl

/-- The alarm leaves the tamper flag and Safe Stop as they were (R521). -/
theorem State.alarmIntegrity_flags (unit : Nat) (stall : Option Nat) (cause word : Nat) {s t : State}
    (ht : s.alarmIntegrity unit stall none cause word = t) :
    t.alr.integrity = true ∧ t.alr.tamper = s.alr.tamper ∧ t.alr.safeStop = s.alr.safeStop ∧
      t = { s with alr := t.alr, hlm := t.hlm, obs := t.obs } := by
  have hlog : (s.logAlarm alIntegrity unit stall cause word).alr = _ := Alr.logEntry_frame ..
  subst ht
  rw [State.alarmIntegrity_uncharged, hlog]
  exact ⟨rfl, rfl, rfl, rfl⟩

theorem execKeyslotBankSoundingDone_pass {s : State} {b : Nat} (hb : s.sbx.testing.contains b = true) :
    execKeyslotBankSoundingDone b true s = done (({ s.begin with
      sbx := { s.sbx with testing := s.sbx.testing.filter (· ≠ b) }, cht := { s.cht with ksBank := none } } : State).sounding unitStrongbox 2 2) :=
  if_neg (not_not_intro hb)

theorem execKeyslotBankSoundingDone_fault {s : State} {b : Nat} (hb : s.sbx.testing.contains b = true) :
    execKeyslotBankSoundingDone b false s = done (({ s.begin with
      sbx := { s.sbx with testing := s.sbx.testing.filter (· ≠ b) }
      cht := { s.cht with ksField := true }
      ald := { s.ald with repairDue := s.ald.repairDue.orElse fun _ => some s.clk.elapsed } } : State).sounding unitStrongbox 2 1) :=
  if_neg (not_not_intro hb)

/-! ### The statement -/

/-- Settles O12: each clause is its command's lemma in the clause's one case. -/
theorem entropyPairsSlotsAndZeroize : Obligations.EntropyPairsSlotsAndZeroize := by
  refine ⟨fun s => rfl, fun s => execEntropyRecover_running, ?late, fun s w ws hw => execEntropyWaitTimeout_early hw,
    fun s => execKeyPairGenerated_room, fun s => execKeyPairGenerated_held, fun s => execZeroizeVerifyDone_zero, ?nonzero,
    fun s n => execZeroizeVerifyDone_idle n, fun s => execKeyslotMaskRefresh_eq [], ?mismatch, fun s b => execKeyslotBankSoundingDone_pass,
    fun s b => execKeyslotBankSoundingDone_fault⟩
  case late =>
    intro s w ws hquiet hw hfail hlate hrun htol
    obtain ⟨o, hexec⟩ := execEntropyWaitTimeout_late hw hfail hlate hrun htol
    refine ⟨_, hexec, State.finish_sbx .., State.finish_recorded w.call stNoEntropy hquiet, ?_⟩
    rw [State.finish_frame]
    exact ⟨rfl, rfl⟩
  case nonzero =>
    intro s n hv hn
    have ht := State.alarmTamper_tampered unitStrongbox 6 (min n (2 ^ 32 - 1))
      { s.begin with sbx := { s.sbx with verifying := false, zeroizeFail := true } }
    exact ⟨_, execZeroizeVerifyDone_nonzero hv hn, State.alarmTamper_zeroizeFail .., ht.tamper, ht.safeStop, ht.rstReq, ht.slots, ht.tiles,
      ht.root, ht.zeroNet, ht.anchor⟩
  case mismatch =>
    intro s n k d hnet hk htype howner hd htest hspare
    have hlost := State.slotMismatch_stall (s := { s.begin with sbx := { s.sbx with refreshes := s.sbx.refreshes + 1 } }) hk htype howner hd
      htest hspare
    refine ⟨_, (execKeyslotMaskRefresh_eq [n] hnet).trans (congrArg done hlost), ?_⟩
    generalize ht : State.alarmIntegrity .. = t
    obtain ⟨hintegrity, htamper, hsafe, hkeep⟩ := State.alarmIntegrity_flags _ _ _ _ ht
    exact ⟨(congrArg State.sbx hkeep :), (congrArg State.cht hkeep :),
      (congrArg (·.stallData? (handleOwner k.handle)) hkeep :).trans (State.stallData?_setStallData ..), hintegrity, htamper, hsafe,
      by rw [hkeep]; rfl⟩

end Sys2Proof.Machine

/-!
The control spine and caches of the tiles (O36).

A message of the spine is one update of its MSE; the command's end then drops what the acknowledgements wait for no more (`Mse.polled`). A
cache fill lets held requests meet the checks again, whatever becomes of them: that none of the checks' outcomes touches the entry caches,
the epoch, the Sweeper or a reset is said once for each operation on a request (`State.beside`).
-/

namespace Sys2Proof.Machine

/-! ### What serving requests never changes -/

/-- What no request that an MSE serves, holds or answers changes: the entry caches of the tiles, the epoch, the Sweeper, the resets, the
Ledger's entries and their changes, and the records that wait for cmd_cw. -/
structure Beside where
  caches : List (List (RegionId × LdgEntry))
  epo : Epoch
  swp : Swp
  rst : Rst
  entries : List (Nat × LdgEntry)
  changes : List Change
  cwq : List Completion

def State.beside (s : State) : Beside where
  caches := s.mse.map (·.ledger)
  epo := s.epo
  swp := s.swp
  rst := s.rst
  entries := s.ldg.localEntries
  changes := s.ldg.changes
  cwq := s.hlm.cwq

theorem map_listSet_of_eq {α β : Type} {g : α → β} {f : α → α} (h : ∀ a, g (f a) = g a) (l : List α) (i : Nat) :
    (listSet l i f).map g = l.map g := by
  induction l generalizing i with
  | nil => rfl
  | cons x xs ih => cases i <;> simp [listSet, h, ih]

theorem State.modMse_beside {i : Nat} {f : Mse → Mse} {s : State} (h : ∀ e, (f e).ledger = e.ledger := by intro; rfl) :
    (s.modMse i f).beside = s.beside := by
  rw [State.beside, State.modMse_mse, map_listSet_of_eq h]
  rfl

theorem State.foldl_beside {α : Type} {f : State → α → State} (hf : ∀ t a, (f t a).beside = t.beside) (l : List α) (s : State) :
    (l.foldl f s).beside = s.beside := by
  induction l generalizing s with
  | nil => rfl
  | cons a l ih => rw [List.foldl_cons, ih, hf]

theorem State.ite_beside {c : Prop} [Decidable c] {s t u : State} (ht : t.beside = s.beside) (hu : u.beside = s.beside) :
    (if c then t else u).beside = s.beside := by
  split <;> assumption

@[simp] theorem State.bump_beside (n k : Nat) (s : State) : (s.bump n k).beside = s.beside := rfl

@[simp] theorem State.ringRecord_beside (ring kind dur : Nat) (waiter : Option Nat) (object : Nat) (s : State) :
    (s.ringRecord ring kind dur waiter object).beside = s.beside := by
  rw [State.ringRecord_frame]
  rfl

/-! #### Answers -/

@[simp] theorem State.meterAnswer_beside (st : PortStatus) (r : HostReq) (s : State) : (s.meterAnswer st r).beside = s.beside := by
  rw [(State.meterAnswer_outputs st r s).1]
  rfl

@[simp] theorem State.answer_beside (i : Nat) (st : PortStatus) (data : Bytes) (r : HostReq) (s : State) :
    (s.answer i st data r).beside = s.beside := by
  unfold State.answer
  extract_lets t
  have ht : t.beside = s.beside := State.ite_beside rfl rfl
  cases st
  case integrity | poison => exact ht
  all_goals exact (State.meterAnswer_beside ..).trans ht

@[simp] theorem State.answerAll_beside (i : Nat) (st : PortStatus) (data : Bytes) (rs : List HostReq) (s : State) :
    (s.answerAll i st data rs).beside = s.beside :=
  State.foldl_beside (fun _ _ => State.answer_beside ..) rs s

@[simp] theorem State.modErr_beside (i : Nat) (f : MseErr → MseErr) (s : State) : (s.modErr i f).beside = s.beside :=
  State.modMse_beside

@[simp] theorem State.refuse_beside (i : Nat) (r : HostReq) (s : State) : (s.refuse i r).beside = s.beside := by
  rw [State.refuse, State.answer_beside, State.modErr_beside]

@[simp] theorem State.integrityAll_beside (i : Nat) (rs : List HostReq) (s : State) : (s.integrityAll i rs).beside = s.beside := by
  rw [State.integrityAll, State.answerAll_beside, State.modErr_beside]

@[simp] theorem State.misroute_beside (i : Nat) (r : HostReq) (s : State) : (s.misroute i r).beside = s.beside := by
  unfold State.misroute
  extract_lets raised t
  have ht : t.beside = s.beside := (State.answer_beside ..).trans (State.modErr_beside ..)
  exact State.ite_beside ht ht

/-! #### Requests of the memory side -/

@[simp] theorem State.queueOp_beside (i : Nat) (o : MemOp) (s : State) : (s.modMse i (Mse.queueOp o)).beside = s.beside :=
  State.modMse_beside

@[simp] theorem State.setHazard_beside (i : Nat) (h : Hazard) (s : State) : (s.modMse i (Mse.setHazard h)).beside = s.beside :=
  State.modMse_beside

@[simp] theorem State.countUse_beside (tile : Nat) (k : SectorKey) (s : State) : (s.countUse tile k).beside = s.beside := by
  unfold State.countUse
  split <;> rfl

theorem State.sealAndQueue_beside {i : Nat} {key : SectorKey} {pt : Bytes} {o : MemOp} {s t : State}
    (h : s.sealAndQueue i key pt o = some t) : t.beside = s.beside := by
  unfold State.sealAndQueue at h
  split at h
  · dsimp only at h
    split at h
    · split at h
      · cases h
        exact (State.modMse_beside ..).trans (State.countUse_beside ..)
      · cases h
    · cases h
      exact (State.queueOp_beside ..).trans (State.countUse_beside ..)
  · cases h

@[simp] theorem Mse.wantTag_ledger (line lane cls : Nat) (m : Mse) : (m.wantTag line lane cls).ledger = m.ledger := by
  unfold Mse.wantTag
  split <;> rfl

@[simp] theorem State.wantTag_beside (i line lane cls : Nat) (s : State) :
    (s.modMse i fun m => m.wantTag line lane cls).beside = s.beside :=
  State.modMse_beside fun _ => Mse.wantTag_ledger ..

@[simp] theorem State.queueRead_beside (i : Nat) (o : MemOp) (s : State) : (s.queueRead i o).beside = s.beside := by
  unfold State.queueRead
  extract_lets o t line
  have ht : t.beside = s.beside := State.queueOp_beside ..
  refine State.ite_beside ?_ ht
  split
  · exact State.ite_beside ht ((State.wantTag_beside ..).trans ht)
  · exact ht

/-! #### Hazard entries -/

@[simp] theorem State.withHazard_beside (i sector : Nat) (s : State) : (s.withHazard i sector).beside = s.beside := by
  unfold State.withHazard
  split
  · rfl
  · exact State.ite_beside rfl (State.modMse_beside)

@[simp] theorem State.answerMerged_beside (i : Nat) (base : Bytes) (b : MergeBuf) (s : State) :
    (s.answerMerged i base b).beside = s.beside :=
  State.foldl_beside (fun _ _ => State.answer_beside ..) _ s

@[simp] theorem State.issueBuf_beside (i : Nat) (h : Hazard) (b : MergeBuf) (base : Bytes) (s : State) :
    (s.issueBuf i h b base).beside = s.beside := by
  unfold State.issueBuf
  extract_lets pt
  split
  · rfl
  · split
    · rfl
    · next t ht => rw [State.answerMerged_beside, State.setHazard_beside, State.sealAndQueue_beside ht]

@[simp] theorem State.hazardStep_beside (i sector : Nat) (s : State) : (s.hazardStep i sector).beside = s.beside := by
  unfold State.hazardStep
  split
  · rfl
  · split
    · rfl
    · refine State.ite_beside rfl ?_
      repeat' split
      all_goals simp

@[simp] theorem State.freeHazard_beside (i sector : Nat) (s : State) : (s.freeHazard i sector).beside = s.beside := by
  unfold State.freeHazard
  split
  · rfl
  · split
    · rfl
    · exact State.ite_beside State.modMse_beside rfl

@[simp] theorem State.hazardWaited_beside (i : Nat) (rs : List HostReq) (s : State) : (s.hazardWaited i rs).beside = s.beside :=
  State.foldl_beside (fun _ _ => State.ringRecord_beside ..) rs s

@[simp] theorem State.hazardRun_beside (n i sector : Nat) (s : State) : (s.hazardRun n i sector).beside = s.beside := by
  induction n generalizing s with
  | zero => exact State.freeHazard_beside ..
  | succ n ih =>
    rw [State.hazardRun, ih, State.hazardWaited_beside, State.hazardStep_beside]
    exact State.modMse_beside

@[simp] theorem State.advance_beside (i sector : Nat) (s : State) : (s.advance i sector).beside = s.beside := by
  unfold State.advance
  split
  · rfl
  · split
    · rfl
    · exact State.hazardRun_beside ..

@[simp] theorem State.joinHazard_beside (i : Nat) (r : HostReq) (h : Hazard) (s : State) : (s.joinHazard i r h).beside = s.beside := by
  unfold State.joinHazard
  extract_lets put b t
  have ht : t.beside = s.beside := State.ite_beside rfl rfl
  have hput : ∀ h, (put h).beside = s.beside := fun _ => State.setHazard_beside ..
  refine State.ite_beside (hput _) (State.ite_beside (hput _) (State.ite_beside ((State.setHazard_beside ..).trans ht) ?_))
  split
  · exact hput _
  · exact hput _
  · exact State.answer_beside ..
  · exact State.ite_beside State.modMse_beside (hput _)

/-- A request that passed every check, passed through or joined to an entry (R244). -/
@[simp] theorem State.place_beside (i : Nat) (r : HostReq) (s : State) : (s.place i r).beside = s.beside := by
  unfold State.place
  split
  · rfl
  · extract_lets partial_ t
    have ht : t.beside = s.beside := State.withHazard_beside ..
    refine State.ite_beside (State.ite_beside ?_ (State.queueRead_beside ..)) ?_
    · split
      · rfl
      · cases hsealed : s.sealAndQueue i _ r.data _ with
        | none => rfl
        | some u => exact State.sealAndQueue_beside hsealed
    · split
      · exact ht
      · rw [State.advance_beside, State.joinHazard_beside, ht]

/-! #### Requests held -/

@[simp] theorem State.wantStall_beside (id : Nat) (s : State) : (s.wantStall id).beside = s.beside := State.ite_beside rfl rfl

@[simp] theorem State.wantKey_beside (tile h g : Nat) (s : State) : (s.wantKey tile h g).beside = s.beside :=
  State.ite_beside rfl (State.ite_beside rfl rfl)

@[simp] theorem State.hold_beside (i : Nat) (r : HostReq) (c : HoldCause) (again : Bool) (s : State) :
    (s.hold i r c again).beside = s.beside := by
  unfold State.hold
  extract_lets t k
  have ht : t.beside = s.beside := State.modMse_beside
  cases c with
  | ledger => exact ht
  | key h g => exact (State.wantKey_beside ..).trans ht
  | poolLine l => exact State.ite_beside ht ht
  | fill id => exact (State.wantStall_beside ..).trans ht
  | tagLine l => exact (State.wantTag_beside ..).trans ht

/-- A request that meets the checks, whatever they make of it (R263). -/
@[simp] theorem State.enterMse_beside (i : Nat) (again : Bool) (r : HostReq) (s : State) : (s.enterMse i again r).beside = s.beside := by
  unfold State.enterMse
  split
  · rfl
  · split
    · exact State.modMse_beside
    · cases State.check .. with
      | pass => exact State.ite_beside (State.integrityAll_beside ..) (State.place_beside ..)
      | misroute => exact State.misroute_beside ..
      | refuse => exact State.ite_beside ((State.refuse_beside ..).trans (State.wantStall_beside ..)) (State.refuse_beside ..)
      | refuseOwner => exact (State.bump_beside ..).trans (State.refuse_beside ..)
      | retired | writeTimeout => exact State.integrityAll_beside ..
      | listed => exact State.answer_beside ..
      | nothing => exact State.answer_beside ..
      | hold c => exact State.hold_beside ..

@[simp] theorem State.holdEnded_beside (i : Nat) (r : HostReq) (c : HoldCause) (s : State) : (s.holdEnded i r c).beside = s.beside := by
  unfold State.holdEnded
  split
  · rfl
  · exact State.ite_beside rfl (State.ringRecord_beside ..)

/-- Held requests that meet the checks again change none of it (R49). -/
theorem State.rerun_beside (i : Nat) (s : State) : (s.rerun i).beside = s.beside := by
  unfold State.rerun
  split
  · rfl
  · exact (State.foldl_beside (fun _ _ => (State.holdEnded_beside ..).trans (State.enterMse_beside ..)) _ _).trans
      State.modMse_beside

/-! ### The end of a command of an MSE (R251) -/

/-- A request that an acknowledgement waits for, by its channel and its ID, has not been answered. -/
def Mse.outstanding (e : Mse) (w : Bool × Nat) : Bool := e.requests.any fun r => decide (r.write = w.1 ∧ r.id = w.2)

/-- An MSE with the acknowledgements that it still owes: a request answered is waited for no more, and a message other than a fence that
waits for none is acknowledged. -/
def Mse.polled (e : Mse) : Mse :=
  { e with spine := { e.spine with
    acks := (e.spine.acks.map fun a => (a.1, a.2.filter e.outstanding)).filter fun a => a.1.isFence || !a.2.isEmpty } }

theorem State.pollAcks_eq (m : Nat) (s : State) : s.pollAcks m = s.modMse m Mse.polled := rfl

theorem Mse.polled_noAcks {e : Mse} (h : e.spine.acks = []) : e.polled = e := by
  have hs : { e.spine with acks := [] } = e.spine := by rw [← h]
  simp [Mse.polled, h, hs]

/-- What an acknowledgement that begins now waits for is outstanding. -/
theorem Mse.earlier_outstanding (e : Mse) (p : HostReq → Bool) : (e.earlier p).all e.outstanding = true := by
  simp only [Mse.earlier, List.all_map, List.all_eq_true, List.mem_filter]
  rintro r ⟨hr, -⟩
  exact List.any_eq_true.mpr ⟨r, hr, by simp⟩

section
variable {e : Mse} {a : SpineMsg × List (Bool × Nat)} (hf : a.1.isFence = true) (hw : a.2.all e.outstanding = true)

include hw in
theorem Mse.filter_outstanding : (a.1, a.2.filter e.outstanding) = a := by
  rw [List.filter_eq_self.mpr (List.all_eq_true.mp hw)]

include hf hw

/-- A fence whose requests are all outstanding goes on waiting for the same ones. -/
theorem Mse.mem_polled_acks (ha : a ∈ e.spine.acks) : a ∈ e.polled.spine.acks :=
  List.mem_filter.mpr ⟨List.mem_map.mpr ⟨a, ha, Mse.filter_outstanding hw⟩, by rw [hf]; rfl⟩

theorem Mse.polled_fence (ha : e.spine.acks = [a]) : e.polled.spine.acks = [a] := by
  rw [Mse.polled, ha, List.map_singleton, Mse.filter_outstanding hw]
  simp [hf]

end

theorem Spine.take_cons {p : Spine} {a : SpineMsg} {q : List SpineMsg} (w : List (Bool × Nat)) (h : p.queue = a :: q) :
    p.take w = { p with queue := q, acks := p.acks ++ [(a, w)] } := by
  simp [Spine.take, h]

theorem Spine.contains_setRefused (stall : Nat) (on : Bool) (p : Spine) : (p.setRefused stall on).refused.contains stall = on := by
  cases on
  · simp [Spine.setRefused]
  · by_cases h : stall ∈ p.refused <;> simp [Spine.setRefused, h]

section
variable {m : Nat} {s : State} {e : Mse} (hs : s.mse[m]? = some e)
include hs

theorem State.modMse_id {f : Mse → Mse} (hf : f e = e) : s.modMse m f = s := by
  rw [State.modMse, listSet_congr (g := id) hs hf, listSet_id]

theorem State.pollAcks_noAcks (ha : e.spine.acks = []) : s.pollAcks m = s :=
  (State.pollAcks_eq m s).trans (State.modMse_id hs (Mse.polled_noAcks ha))

/-- What a command of an MSE answers where no entry change waits (R283). -/
theorem onMse_polled {f : Mse → State → State} {t : State} (hf : f e s.begin = t) (hc : t.ldg.changes = []) :
    onMse m s f = .next (t.pollAcks m) := by
  have hend : t.endMse m = t.pollAcks m := State.settle_none hc
  simp only [onMse, hs, hf, hend]
  rfl

/-- The same, of a command that changes its MSE alone. -/
theorem MseTo.polled {f : Mse → State → State} {t : State} {e' : Mse} {os : List Out} (hf : f e s.begin = t) (ht : MseTo m s.begin t e')
    (ho : t.out = os) (hc : s.ldg.changes = []) :
    ∃ u, Machine.onMse m s f = .next u ∧ u.out = os ∧ u.mse[m]? = some e'.polled ∧ s.onlyMse m u := by
  have hchanges : t.ldg.changes = [] := by rw [ht]; exact hc
  exact ⟨t.pollAcks m, onMse_polled hs hf hchanges, ho, getElem?_listSet_self _ (ht.getElem hs),
    (ht.modMse Mse.polled : MseTo m s.begin (t.pollAcks m) _).onlyMse⟩

/-- A command whose effect is one update of its MSE. -/
theorem onMse_modMse {f : Mse → State → State} {g : Mse → Mse} (hf : f e s.begin = s.begin.modMse m g) (hc : s.ldg.changes = []) :
    ∃ u, onMse m s f = .next u ∧ u.out = [] ∧ u.mse[m]? = some (g e).polled ∧ s.onlyMse m u :=
  MseTo.polled hs hf ((MseTo.refl (s := s.begin) hs).modMse g) rfl hc

end

/-! ### Fences and invalidations (R251, R283) -/

/-- The sweep state that an ADOPT fence brings, in place of any that the tile has of the region. -/
def Mse.adopt (w : TileSweep) (stall : Nat) (e : Mse) : Mse :=
  { e with
    sweeps := (e.sweeps.filter fun x => x.region ≠ w.region) ++ [w]
    spine := e.spine.take (e.earlier fun r => r.stall = stall) }

/-- A generation made unusable by a RETIRE fence. -/
def Mse.retire (stall gen : Nat) (e : Mse) : Mse :=
  { e with
    retired := e.retired ++ [(stall, gen)]
    spine := e.spine.take (e.earlier fun r => r.stall = stall) }

/-- The first fence that waits for nothing acknowledged. -/
def Mse.ackFence (e : Mse) : Mse :=
  { e with spine := { e.spine with acks := e.spine.acks.eraseP fun a => a.1.isFence && a.2.isEmpty } }

/-- A region's entry dropped from the entry cache; `mine` are the requests that the acknowledgement waits for. -/
def Mse.invalidate (r : RegionId) (mine : HostReq → Bool) (e : Mse) : Mse :=
  { e with
    ledger := e.ledger.filter fun p => p.1 ≠ r
    spine := e.spine.take (e.earlier mine) }

theorem State.begin_noUnitReset {s : State} {code : Nat} (h : s.inUnitReset code = false) : ¬ s.begin.inUnitReset code = true :=
  ne_true_of_eq_false h

/-- A fence whose requests are all still out is acknowledged where there are none, and else waits on. -/
theorem Mse.ackFence_polled_acks {e : Mse} {a : SpineMsg × List (Bool × Nat)} (ha : e.spine.acks = [a]) (hf : a.1.isFence = true)
    (hw : a.2.all e.outstanding = true) : e.ackFence.polled.spine.acks = if a.2.isEmpty then [] else [a] := by
  cases he : a.2.isEmpty with
  | true =>
    have hacks : e.ackFence.spine.acks = [] := by simp [Mse.ackFence, ha, hf, he]
    rw [Mse.polled_noAcks hacks, hacks]
    rfl
  | false =>
    have hacks : e.ackFence.spine.acks = [a] := by simp [Mse.ackFence, ha, hf, he]
    exact Mse.polled_fence hf hw hacks

section
variable {m : Nat} {s : State} {e : Mse} {q : List SpineMsg} (hs : s.mse[m]? = some e) (hc : s.ldg.changes = [])
include hs hc

theorem execKeyGenFence_adopt {w : TileSweep} {stall : Nat} (hr : s.inUnitReset (unitMse m) = false)
    (hq : e.spine.queue = .adopt w stall :: q) :
    ∃ t, execKeyGenFence m s = .next t ∧ t.out = [] ∧ t.mse[m]? = some (e.adopt w stall).polled ∧ s.onlyMse m t := by
  refine onMse_modMse (g := Mse.adopt w stall) hs ?_ hc
  rw [if_neg (State.begin_noUnitReset hr), hq]
  rfl

theorem execKeyGenFence_retire {stall gen : Nat} (hr : s.inUnitReset (unitMse m) = false) (hq : e.spine.queue = .retire stall gen :: q) :
    ∃ t, execKeyGenFence m s = .next t ∧ t.out = [] ∧ t.mse[m]? = some (e.retire stall gen).polled ∧ s.onlyMse m t := by
  refine onMse_modMse (g := Mse.retire stall gen) hs ?_ hc
  rw [if_neg (State.begin_noUnitReset hr), hq]
  rfl

theorem execKeyGenFenceAck_eq :
    ∃ t, execKeyGenFenceAck m s = .next t ∧ t.out = [] ∧ t.mse[m]? = some e.ackFence.polled ∧ s.onlyMse m t :=
  onMse_modMse (f := fun _ t => t.modMse m Mse.ackFence) hs rfl hc

theorem execLedgerInvalidate_applied {r : RegionId} (hr : s.inUnitReset (unitMse m) = false) (hq : e.spine.queue = .invalidate r :: q) :
    ∃ t, execLedgerInvalidate m s = .next t ∧ t.out = [] ∧
      t.mse[m]? = some (e.invalidate r fun q => s.regionOf (sectorAddr q.sector) = some r).polled ∧ s.onlyMse m t := by
  refine onMse_modMse (g := Mse.invalidate r fun q => s.regionOf (sectorAddr q.sector) = some r) hs ?_ hc
  rw [if_neg (State.begin_noUnitReset hr), hq]
  rfl

theorem execRefusalMapUpdate_mse (hm : m < 0x40) (hr : s.inUnitReset m = false) :
    ∃ t, execRefusalMapUpdate m s = .next t ∧ t.out = [] ∧ t.mse[m]? = some e.applyRefusal.polled ∧ s.onlyMse m t := by
  rw [execRefusalMapUpdate, if_pos hm]
  exact onMse_modMse (f := fun _ t => if t.inUnitReset m then t else t.modMse m Mse.applyRefusal) hs
    (if_neg (State.begin_noUnitReset hr)) hc

end

/-! ### Refusal maps (R394) -/

theorem Mse.applyRefusal_taken {e : Mse} {stall : Nat} {on : Bool} {q : List SpineMsg} (hq : e.spine.queue = .refusal stall on :: q) :
    e.applyRefusal = { e with spine := (e.spine.take (if on then e.earlier fun r => r.stall = stall else [])).setRefused stall on } := by
  rw [Mse.applyRefusal, hq]
  rfl

theorem Spine.applyRefusal_taken {p : Spine} {stall : Nat} {on : Bool} {q : List SpineMsg} (hq : p.queue = .refusal stall on :: q) :
    p.applyRefusal = { p.setRefused stall on with queue := q } := by
  rw [Spine.applyRefusal, hq]
  rfl

theorem execRefusalMapUpdate_lse {s : State} {i : Nat} {l : Lse} (hi : i < 0x40) (hl : s.lse[i]? = some l) :
    execRefusalMapUpdate (0x40 + i) s =
      .next { s with out := [], lse := listSet s.lse i fun l => { l with spine := l.spine.applyRefusal } } := by
  rw [execRefusalMapUpdate, if_neg (by omega), if_pos (by omega), Nat.add_sub_cancel_left, hl]
  rfl

theorem execRefusalMapUpdate_hse {s : State} {i : Nat} {h : Hse} (hh : s.hse[i]? = some h) :
    execRefusalMapUpdate (0x80 + i) s =
      .next { s with out := [], hse := listSet s.hse i fun h => { h with spine := h.spine.applyRefusal } } := by
  rw [execRefusalMapUpdate, if_neg (by omega), if_neg (by omega), Nat.add_sub_cancel_left, hh]
  rfl

/-! ### Squashes (R252) -/

theorem State.answer_poison_out (i : Nat) (data : Bytes) (r : HostReq) (s : State) :
    (s.answer i .poison data r).out = s.out ++ [answerBad i .poison r] := by
  unfold State.answer answerBad
  cases r.write <;> rfl

theorem State.answerAll_poison_out (i : Nat) (data : Bytes) (rs : List HostReq) (s : State) :
    (s.answerAll i .poison data rs).out = s.out ++ rs.map (answerBad i .poison) := by
  unfold State.answerAll
  induction rs generalizing s with
  | nil => simp
  | cons r rs ih => rw [List.foldl_cons, ih, State.answer_poison_out, List.append_assoc]; rfl

/-- An MSE with no hazard entry, without the requests of a Stall: its queued memory-side requests end, those that are out serve the Stall
no more (R252). -/
def Mse.withoutStall (stall : Nat) (m : Mse) : Mse :=
  { m with
    held := m.held.filter fun p => !decide (p.1.stall = stall)
    ops := (m.ops.filter fun o => o.id.isSome || !o.reqs.any fun r => r.stall = stall).map fun o =>
      { o with reqs := o.reqs.filter fun r => !decide (r.stall = stall) }
    tagPending := m.tagPending.map fun p => { p with waits := p.waits.map fun w =>
      { w with reqs := w.reqs.filter fun r => !decide (r.stall = stall) } } }

theorem Mse.withoutStall_requests {e : Mse} (hz : e.hazards = []) (stall : Nat) :
    ∀ r ∈ (e.withoutStall stall).requests, r.stall ≠ stall := by
  have hmine : ∀ (l : List HostReq), ∀ r ∈ l.filter (fun r => !decide (r.stall = stall)), r.stall ≠ stall := by simp
  intro r hr
  simp only [Mse.requests, Mse.withoutStall, hz, List.flatMap_nil, List.append_nil, List.mem_append, List.mem_map, List.mem_flatMap] at hr
  rcases hr with (⟨p, hp, rfl⟩ | ⟨_, ⟨o, -, rfl⟩, hr⟩) | ⟨_, ⟨p, -, rfl⟩, w, hw, hr⟩
  · simpa using (List.mem_filter.mp hp).2
  · exact hmine _ r hr
  · obtain ⟨w, -, rfl⟩ := List.mem_map.mp hw
    exact hmine _ r hr

theorem State.advanceAll_noHazards {m : Nat} {s : State} (hz : ∀ e, s.mse[m]? = some e → e.hazards = []) : s.advanceAll m = s := by
  unfold State.advanceAll
  split
  · rfl
  · next e h => rw [hz e h]; rfl

theorem State.squashStall_to {m : Nat} {s : State} {e : Mse} (hs : s.mse[m]? = some e) (hz : e.hazards = []) (stall : Nat) :
    MseTo m s (s.squashStall m stall) (e.withoutStall stall) ∧
      (s.squashStall m stall).out = s.out ++ (e.requests.filter fun r => r.stall = stall).map (answerBad m .poison) := by
  unfold State.squashStall
  split
  · next h => cases hs.symm.trans h
  · next x h =>
    cases hs.symm.trans h
    extract_lets mine touches t
    have ht : MseTo m s t (e.withoutStall stall) := by
      have hsquashed := (MseTo.refl hs).modMse (Mse.withoutStall stall)
      have heq : t = s.modMse m (Mse.withoutStall stall) := by
        refine congrArg (fun l => ({ s with mse := l } : State)) (listSet_congr hs ?_)
        simp [Mse.withoutStall, hz, mine]
      rwa [heq]
    have hanswered := ht.then (u := t.answerAll m .poison [] (e.requests.filter mine)) (by rw [State.answerAll_poison_frame]; rfl)
    rw [State.advanceAll_noHazards fun x hx => by cases (hanswered.getElem hs).symm.trans hx; exact hz]
    exact ⟨hanswered, State.answerAll_poison_out ..⟩

/-- A squash order taken from the queue, and the refusal map that refuses the Stall. -/
def Mse.takeSquash (stall : Nat) (e : Mse) : Mse :=
  { e with spine := { e.spine.take [] with
      refused := if e.spine.refused.contains stall then e.spine.refused else e.spine.refused ++ [stall] } }

theorem Mse.takeSquash_refused (stall : Nat) (e : Mse) : (e.takeSquash stall).spine.refused.contains stall = true := by
  by_cases h : stall ∈ e.spine.refused <;> simp [Mse.takeSquash, h]

theorem execMseSquashOrder_applied {m stall : Nat} {s : State} {e : Mse} {q : List SpineMsg} (hs : s.mse[m]? = some e)
    (hc : s.ldg.changes = []) (hz : e.hazards = []) (hq : e.spine.queue = .squash stall :: q) :
    ∃ t, execMseSquashOrder m s = .next t ∧ t.out = (e.requests.filter fun r => r.stall = stall).map (answerBad m .poison) ∧
      t.mse[m]? = some ((e.withoutStall stall).takeSquash stall).polled ∧ s.onlyMse m t := by
  obtain ⟨ht, hout⟩ := State.squashStall_to (s := s.begin) hs hz stall
  refine MseTo.polled hs ?_ (ht.modMse (Mse.takeSquash stall)) hout hc
  rw [hq]
  rfl

/-! ### Cache fills (R49, R289) -/

/-- An entry in the entry cache as the newest of its 1,024 (R41). -/
def Mse.cacheEntry (r : RegionId) (x : LdgEntry) (e : Mse) : Mse :=
  { e with ledger := ((r, x) :: e.ledger.filter fun p => p.1 ≠ r).take 1024 }

theorem execLedgerCacheFill_idle {m index : Nat} {pool : Bool} {s : State} {e : Mse} (hs : s.mse[m]? = some e) (hc : s.ldg.changes = [])
    (ha : e.spine.acks = [])
    (hw : e.held.any (fun p => p.2 = .ledger ∧ s.regionOf (sectorAddr p.1.sector) = some ⟨pool, index⟩) = false) :
    execLedgerCacheFill m pool index s = .next s.begin := by
  refine (onMse_polled (t := s.begin) hs (if_pos (ne_true_of_eq_false hw)) hc).trans ?_
  rw [State.pollAcks_noAcks (s := s.begin) hs ha]

theorem execLedgerCacheFill_filled {m index : Nat} {pool : Bool} {s : State} {e : Mse} (hs : s.mse[m]? = some e) (hc : s.ldg.changes = [])
    (hw : e.held.any (fun p => p.2 = .ledger ∧ s.regionOf (sectorAddr p.1.sector) = some ⟨pool, index⟩) = true) :
    ∃ t, execLedgerCacheFill m pool index s = .next t ∧
      t.beside = (s.modMse m (Mse.cacheEntry ⟨pool, index⟩ (s.entry ⟨pool, index⟩))).beside := by
  let u := (s.begin.modMse m (Mse.cacheEntry ⟨pool, index⟩ (s.entry ⟨pool, index⟩))).bump (ctrLdg 0) 1
  have hu : (u.rerun m).beside = u.beside := State.rerun_beside ..
  have hchanges : (u.rerun m).ldg.changes = [] := (congrArg Beside.changes hu).trans hc
  exact ⟨_, onMse_polled hs (if_neg (not_not_intro hw)) hchanges, (State.modMse_beside ..).trans hu⟩

/-- Where no MSE holds a request or has a hazard entry, none meets the checks again. -/
theorem State.rerunAll_idle {s : State} (h : s.mse.all (fun e => e.held.isEmpty && e.hazards.isEmpty) = true) : s.rerunAll = s := by
  have hidle : ∀ i, (s.rerun i).advanceAll i = s := by
    intro i
    have hempty : ∀ e, s.mse[i]? = some e → e.held = [] ∧ e.hazards = [] := fun e he => by
      simpa using List.all_eq_true.mp h e (List.mem_of_getElem? he)
    have hrerun : s.rerun i = s := by
      unfold State.rerun
      split
      · rfl
      · next e he =>
        obtain ⟨hheld, -⟩ := hempty e he
        rw [hheld]
        exact State.modMse_id he (by rw [← hheld])
    rw [hrerun, State.advanceAll_noHazards fun e he => (hempty e he).2]
  unfold State.rerunAll
  induction List.range s.mse.length with
  | nil => rfl
  | cons i l ih => rw [List.foldl_cons, hidle, ih]

theorem execPoolLedgerLineFill_notAsked {s : State} {line : Nat} (data : Bytes) (h : s.ldg.poolReads.contains line = false) :
    execPoolLedgerLineFill line data s = .next s.begin :=
  if_pos (ne_true_of_eq_false h)

theorem execPoolLedgerLineFill_authentic {s : State} {line : Nat} {data : Bytes} (h : s.ldg.poolReads.contains line = true)
    (hidle : s.mse.all (fun e => e.held.isEmpty && e.hazards.isEmpty) = true)
    (hok : (gcmOpen (s.storeKey 4) (storeNonce s.ldg.storeId ((assocGet line s.ldg.versions).getD 0)) (leBytes 4 line) (data.take 112)
      (slice data 112 16)).isSome = true) :
    execPoolLedgerLineFill line data s = .next { s with
      out := []
      ldg := { s.ldg with
        poolReads := s.ldg.poolReads.filter (· ≠ line)
        poolCache := (line :: s.ldg.poolCache).take 1024 } } := by
  refine (if_neg (not_not_intro h)).trans (congrArg done ?_)
  exact (congrArg State.rerunAll (if_pos hok)).trans (State.rerunAll_idle hidle)

/-! ### Epochs (R225) -/

theorem execEpochApply_sent {m : Nat} {s : State} {e : Mse} (hs : s.mse[m]? = some e) (hu : s.epo.unacked.contains m = true)
    (hc : s.ldg.changes = []) (ha : e.spine.acks = []) :
    execEpochApply m s = .next { s with
      out := []
      mse := listSet s.mse m fun e => { e with epoch := s.epo.epoch }
      epo := { s.epo with unacked := s.epo.unacked.filter (· ≠ m) } } := by
  let t : State := { s.begin.modMse m (fun e => { e with epoch := s.epo.epoch }) with
    epo := { s.epo with unacked := s.epo.unacked.filter (· ≠ m) } }
  have ht : t.mse[m]? = some { e with epoch := s.epo.epoch } := getElem?_listSet_self _ hs
  refine (onMse_polled (t := t) hs (if_neg (not_not_intro hu)) hc).trans ?_
  rw [State.pollAcks_noAcks ht ha]
  rfl

/-! ### The statement -/

/-- Settles O36: each clause is its command's lemma, with what that lemma's MSE holds. -/
theorem tileMessages : Obligations.TileMessages := by
  refine ⟨?adopt, ?retire, ?ack, ?squash, ?invalidate, ?refusalMse, ?refusalLse, ?refusalHse, ?noneHeld, ?filled, ?notAsked, ?line, ?epoch⟩
  case adopt =>
    intro s m stall e w q hs hr hq hc
    obtain ⟨t, hexec, hout, hmse, honly⟩ := execKeyGenFence_adopt hs hc hr hq
    have hack : (SpineMsg.adopt w stall, e.earlier fun r => r.stall = stall) ∈ (e.adopt w stall).polled.spine.acks :=
      Mse.mem_polled_acks (e := e.adopt w stall) rfl (e.earlier_outstanding _) (by simp [Mse.adopt, Spine.take_cons _ hq])
    refine ⟨t, hexec, hout, by rw [hmse]; rfl, ?_, ?_, honly⟩
    · rw [hmse]; simp [Mse.polled, Mse.adopt, Spine.take_cons _ hq]
    · rw [hmse]; simpa using hack
  case retire =>
    intro s m stall gen e q hs hr hq hc
    obtain ⟨t, hexec, hout, hmse, honly⟩ := execKeyGenFence_retire hs hc hr hq
    exact ⟨t, hexec, hout, by rw [hmse]; rfl, by rw [hmse]; simp [Mse.polled, Mse.retire, Spine.take_cons _ hq], honly⟩
  case ack =>
    intro s m e a hs ha hf hw hc
    obtain ⟨t, hexec, hout, hmse, honly⟩ := execKeyGenFenceAck_eq hs hc
    exact ⟨t, hexec, hout, by rw [hmse]; rfl, by rw [hmse, ← Mse.ackFence_polled_acks ha hf hw]; rfl, honly⟩
  case squash =>
    intro s m stall e q hs hq hz hc
    obtain ⟨t, hexec, hout, hmse, honly⟩ := execMseSquashOrder_applied hs hc hz hq
    refine ⟨t, hexec, hout, ?_, ?_, ?_, honly⟩
    · rw [hmse]
      exact List.all_eq_true.mpr fun r hr => decide_eq_true (Mse.withoutStall_requests hz stall r hr)
    · rw [hmse]; simp [Mse.polled, Mse.takeSquash, Mse.withoutStall, Spine.take_cons _ hq]
    · rw [hmse]
      exact Mse.takeSquash_refused ..
  case invalidate =>
    intro s m e r q hs hr hq hc
    obtain ⟨t, hexec, hout, hmse, honly⟩ := execLedgerInvalidate_applied hs hc hr hq
    exact ⟨t, hexec, hout, by rw [hmse]; rfl, by rw [hmse]; simp [Mse.polled, Mse.invalidate, Spine.take_cons _ hq], honly⟩
  case refusalMse =>
    intro s m stall on e q hm hs hr hq hc
    obtain ⟨t, hexec, hout, hmse, honly⟩ := execRefusalMapUpdate_mse hs hc hm hr
    rw [Mse.applyRefusal_taken hq] at hmse
    refine ⟨t, hexec, hout, by rw [hmse]; rfl, ?_, honly⟩
    rw [hmse, Spine.take_cons _ hq]
    exact congrArg some (Prod.ext (Spine.contains_setRefused ..) rfl)
  case refusalLse =>
    intro s i stall on l q hi hl hq
    refine ⟨_, execRefusalMapUpdate_lse hi hl, rfl, ?_, rfl, length_listSet ..⟩
    rw [getElem?_listSet_self _ hl, Spine.applyRefusal_taken hq]
    exact congrArg some (Prod.ext (Spine.contains_setRefused ..) rfl)
  case refusalHse =>
    intro s i stall on h q hh hq
    refine ⟨_, execRefusalMapUpdate_hse hh, rfl, ?_, rfl, length_listSet ..⟩
    rw [getElem?_listSet_self _ hh, Spine.applyRefusal_taken hq]
    exact congrArg some (Prod.ext (Spine.contains_setRefused ..) rfl)
  case noneHeld =>
    intro s m index pool e hs hc ha hw
    exact execLedgerCacheFill_idle hs hc ha hw
  case filled =>
    intro s m index pool e hs hc hw
    obtain ⟨t, hexec, hbeside⟩ := execLedgerCacheFill_filled hs hc hw
    have hcaches : t.mse.map (·.ledger) = _ := congrArg Beside.caches hbeside
    refine ⟨t, hexec, ?_, congrArg Beside.epo hbeside, congrArg Beside.swp hbeside, congrArg Beside.rst hbeside,
      congrArg Beside.entries hbeside, congrArg Beside.cwq hbeside⟩
    rw [← List.getElem?_map, hcaches, State.beside, List.getElem?_map, State.modMse_mse, getElem?_listSet_self _ hs]
    rfl
  case notAsked =>
    intro s line data h
    exact execPoolLedgerLineFill_notAsked data h
  case line =>
    intro s line data h hidle hok
    exact execPoolLedgerLineFill_authentic h hidle hok
  case epoch =>
    intro s m e hs hu hc ha
    exact execEpochApply_sent hs hu hc ha

end Sys2Proof.Machine

/-!
The timeouts and lane tests of an MSE (O35).

Beside the MSE, an operation on a request may also raise alarms and events and count a use of a key at a tile: `Aside` says that no more than
this differs, and `MseServed` follows the MSE as `MseTo` does. A hazard entry is advanced round by round: `hazardStep` has one equation for
each of its cases, and a round that changes nothing is the last.
-/

namespace Sys2Proof.Machine

/-! ### What serving a request touches beside the MSE -/

/-- From `s` to `t` only outputs, counters, bytes metered, alarms, events and the uses of keys at the tiles differ. -/
def Aside (s t : State) : Prop :=
  t = { s with
    out := t.out, obs := t.obs, sty := t.sty, alr := t.alr, listedCount := t.listedCount
    sbx := { s.sbx with tiles := t.sbx.tiles }
    hlm := { s.hlm with fifo := t.hlm.fifo, irqUrgent := t.hlm.irqUrgent, irqAlarm := t.hlm.irqAlarm } }

theorem Aside.trans {s t u : State} (h : Aside s t) (k : Aside t u) : Aside s u := by
  unfold Aside at *
  rw [k, h]

theorem OnlyOutputs.aside {s t : State} (h : OnlyOutputs s t) : Aside s t := by
  unfold Aside OnlyOutputs at *
  rw [h]

/-- From `s` to `t` MSE `m` has become `e`, and beside it only what `Aside` names differs. -/
def MseServed (m : Nat) (s t : State) (e : Mse) : Prop := Aside { s with mse := listSet s.mse m fun _ => e } t

theorem MseTo.served {m : Nat} {s t : State} {e : Mse} (h : MseTo m s t e) : MseServed m s t e := OnlyOutputs.aside h

theorem MseServed.then {m : Nat} {s t u : State} {e : Mse} (h : MseServed m s t e) (k : Aside t u) : MseServed m s u e := Aside.trans h k

theorem MseServed.from {m : Nat} {s t u : State} {e : Mse} (h : MseServed m t u e) (k : Aside s t) : MseServed m s u e := by
  unfold MseServed Aside at *
  rw [h, k]

theorem MseServed.mse {m : Nat} {s t : State} {e : Mse} (h : MseServed m s t e) : t.mse = listSet s.mse m fun _ => e :=
  (congrArg State.mse h :)

theorem MseServed.modMse {m : Nat} {s t : State} {e : Mse} (h : MseServed m s t e) (f : Mse → Mse) : MseServed m s (t.modMse m f) (f e) := by
  have hmse : (t.modMse m f).mse = listSet s.mse m fun _ => f e := by
    rw [State.modMse_mse, h.mse]; exact listSet_listSet _ _ _ _
  unfold MseServed Aside
  rw [← hmse, h]
  rfl

theorem MseServed.onlyMse {m : Nat} {s t : State} {e : Mse} (h : MseServed m s t e) : s.onlyMse m t := by
  refine ⟨by rw [h.mse, length_listSet], fun i _ hne => by rw [h.mse, getElem?_listSet_ne _ _ hne], ?_⟩
  rw [h]
  exact ⟨rfl, rfl, rfl, rfl, rfl, rfl, rfl, rfl, rfl, rfl⟩

section
variable {m : Nat} {s : State} {e : Mse} (hs : s.mse[m]? = some e)
include hs

theorem MseServed.refl : MseServed m s s e := (MseTo.refl hs).served

theorem MseServed.getElem {t : State} {e' : Mse} (h : MseServed m s t e') : t.mse[m]? = some e' := by
  rw [h.mse]; exact getElem?_listSet_self _ hs

/-- Where a command that serves requests of its MSE ends, only the acknowledgements of the spine are still to be polled (R251, R283). -/
theorem MseServed.ends {t : State} {e' : Mse} (h : MseServed m s.begin t e') (hc : s.ldg.changes = []) :
    t.ldg.changes = [] ∧ (t.pollAcks m).mse[m]? = some e'.polled ∧ s.onlyMse m (t.pollAcks m) := by
  refine ⟨by rw [h]; exact hc, getElem?_listSet_self _ (h.getElem hs), ?_⟩
  exact (h.modMse Mse.polled : MseServed m s.begin (t.pollAcks m) _).onlyMse

end

/-- A command whose condition is not met leaves the state, with no output (log 1). -/
theorem onMse_idle {m : Nat} {s : State} {e : Mse} {f : Mse → State → State} (hs : s.mse[m]? = some e) (hc : s.ldg.changes = [])
    (ha : e.spine.acks = []) (hf : f e s.begin = s.begin) : onMse m s f = .next s.begin := by
  rw [onMse_polled hs hf hc, State.pollAcks_noAcks (s := s.begin) hs ha]

/-! ### Answers other than OK -/

theorem State.answer_outputs (i : Nat) (st : PortStatus) (data : Bytes) (r : HostReq) (s : State) : OnlyOutputs s (s.answer i st data r) := by
  unfold State.answer
  extract_lets t
  have ht : OnlyOutputs s t := by
    simp only [t]
    split <;> rfl
  cases st
  case integrity | poison => exact ht.trans (State.bump_outputs ..)
  all_goals exact ht.trans (State.meterAnswer_outputs ..).1

theorem State.answer_bad_out {st : PortStatus} (hst : st ≠ .ok) (i : Nat) (data : Bytes) (r : HostReq) (s : State) :
    (s.answer i st data r).out = s.out ++ [answerBad i st r] := by
  unfold State.answer answerBad
  cases st
  case ok => exact absurd rfl hst
  case refused => rw [(State.meterAnswer_outputs ..).2]; cases r.write <;> rfl
  all_goals cases r.write <;> rfl

/-- An MSE with one more request in INTEGRITY_COUNT (R274). -/
def Mse.countIntegrity (e : Mse) : Mse := { e with err := { e.err with integrity := satAdd 65535 e.err.integrity 1 } }

theorem State.integrityAll_one (m : Nat) (r : HostReq) (s : State) :
    s.integrityAll m [r] = (s.modMse m Mse.countIntegrity).answer m .integrity [] r := rfl

theorem MseServed.integrityAll {m : Nat} {s t : State} {e : Mse} (h : MseServed m s t e) (r : HostReq) :
    MseServed m s (t.integrityAll m [r]) e.countIntegrity := by
  rw [State.integrityAll_one]
  exact (h.modMse Mse.countIntegrity).then (State.answer_outputs ..).aside

theorem State.integrityAll_alarms (m : Nat) (r : HostReq) (s : State) :
    (s.integrityAll m [r]).out = s.out ++ [answerBad m .integrity r] ∧ (s.integrityAll m [r]).alr = s.alr ∧
      (s.integrityAll m [r]).hlm = s.hlm := by
  rw [State.integrityAll_one]
  have h := (s.modMse m Mse.countIntegrity).answer_outputs m .integrity [] r
  exact ⟨State.answer_bad_out (by decide) .., (congrArg State.alr h :), (congrArg State.hlm h :)⟩

/-! ### Alarms of an MSE (R255, R262) -/

/-- An alarm charged to a Stall that does not lose its state by policy changes no Stall (R409). -/
theorem State.alarmIntegrity_kept {s : State} {stall : Option Nat} (unit : Nat) (who : Option Nat) (cause word : Nat)
    (h : ∀ id, stall = some id → (s.stall? id).any (·.integLose) = false) :
    s.alarmIntegrity unit who stall cause word = s.alarmIntegrity unit who none cause word := by
  cases stall with
  | none => rfl
  | some id =>
    have hid := h id rfl
    simp only [State.alarmIntegrity, State.integPolicy]
    split
    · rfl
    · next x hx =>
      have hx' : s.stall? id = some x := hx
      rw [hx', Option.any_some] at hid
      rw [hid]
      rfl

/-- XS_MSE_SOUND with a cause word in it (R275). -/
def Mse.sounded (word : Nat) (e : Mse) : Mse := { e with err := { e.err with sound := word, soundValid := true } }

section
variable {m word : Nat} {s t : State} {e : Mse} {who charged : Option Nat}
  (hkept : ∀ id, charged = some id → (t.stall? id).any (·.integLose) = false)
include hkept

theorem State.mseAlarm_kept :
    t.mseAlarm m word who charged = (t.modMse m (Mse.sounded word)).alarmIntegrity (unitMse m) who none 1 word :=
  State.alarmIntegrity_kept _ _ _ _ hkept

theorem MseServed.mseAlarm (h : MseServed m s t e) : MseServed m s (t.mseAlarm m word who charged) (e.sounded word) := by
  rw [State.mseAlarm_kept hkept, State.alarmIntegrity_uncharged]
  exact (h.modMse (Mse.sounded word)).then rfl

theorem State.mseAlarm_raised :
    (t.mseAlarm m word who charged).out = t.out ∧ (t.mseAlarm m word who charged).alr.integrity = true ∧
      (t.mseAlarm m word who charged).hlm.irqAlarm = true := by
  rw [State.mseAlarm_kept hkept]
  exact ⟨rfl, rfl, rfl⟩

end

/-! ### The bad-sector list (R259, R260) -/

/-- The MSE with a sector in its bad-sector list: a full list loses its oldest entry. -/
def Mse.listing (sector : Nat) (part : Bool) (e : Mse) : Mse :=
  if e.listed sector then e
  else if e.err.bad.length < 4096 then { e with err := { e.err with bad := e.err.bad ++ [⟨sector, part⟩] } }
  else { e with err := { e.err with bad := e.err.bad.tail ++ [⟨sector, part⟩], badOverflow := true } }

theorem Mse.listing_listed (sector : Nat) (part : Bool) (e : Mse) : (e.listing sector part).listed sector = true := by
  unfold Mse.listing
  split
  · assumption
  · split <;> simp [Mse.listed]

theorem Mse.listing_frame (sector : Nat) (part : Bool) (e : Mse) :
    e.listing sector part = { e with err := { e.err with
      bad := (e.listing sector part).err.bad, badOverflow := (e.listing sector part).err.badOverflow } } := by
  unfold Mse.listing
  split
  · rfl
  · split <;> rfl

theorem State.listSector_eq {m sector : Nat} {part : Bool} {s : State} {e : Mse} (hs : s.mse[m]? = some e) :
    s.listSector m sector part = s.modMse m (Mse.listing sector part) ∨
      ∃ old, s.listSector m sector part = (s.modMse m (Mse.listing sector part)).event evBadlistFull (unitMse m) none m old := by
  have hmod : ∀ f : Mse → Mse, f e = e.listing sector part → s.modMse m f = s.modMse m (Mse.listing sector part) := fun f hf => by
    unfold State.modMse; rw [listSet_congr hs hf]
  simp only [State.listSector, hs]
  split
  · next h => exact .inl (State.modMse_id hs (f := Mse.listing sector part) (if_pos h)).symm
  · next h =>
    split
    · next hroom => exact .inl (hmod _ (by simp [Mse.listing, h, hroom]))
    · next hfull => exact .inr ⟨_, congrArg (State.event _ _ _ _ _) (hmod _ (by simp [Mse.listing, h, hfull]))⟩

theorem MseServed.listSector {m sector : Nat} {part : Bool} {s t : State} {e : Mse} (hs : s.mse[m]? = some e) {e' : Mse}
    (h : MseServed m s t e') : MseServed m s (t.listSector m sector part) (e'.listing sector part) := by
  rcases State.listSector_eq (part := part) (sector := sector) (h.getElem hs) with heq | ⟨old, heq⟩
  · rw [heq]; exact h.modMse _
  · rw [heq]; exact (h.modMse _).then rfl

theorem State.listSector_alarms {m sector : Nat} {part : Bool} {s : State} {e : Mse} (hs : s.mse[m]? = some e) :
    (s.listSector m sector part).out = s.out ∧ (s.listSector m sector part).alr = s.alr ∧
      (s.listSector m sector part).hlm.irqAlarm = s.hlm.irqAlarm := by
  rcases State.listSector_eq (part := part) (sector := sector) hs with heq | ⟨old, heq⟩ <;> rw [heq] <;> exact ⟨rfl, rfl, rfl⟩

theorem Mse.dropSweeper_noHazard {e : Mse} {sector : Nat} (h : e.hazard? sector = none) : e.dropSweeper sector = e := by
  unfold Mse.dropSweeper
  rw [Mse.map_hazards_noHazard (fun h => { h with sweeper := false }) h]


/-! ### Hazard entries (R244 to R250) -/

/-- The entry `h` is the only one of its sector. -/
def Mse.entryIs (e : Mse) (h : Hazard) : Prop := e.hazard? h.sector = some h ∧ ∀ x ∈ e.hazards, x.sector = h.sector → x = h

theorem Mse.hazard?_sector {e : Mse} {sector : Nat} {h : Hazard} (hz : e.hazard? sector = some h) : h.sector = sector := by
  simpa using List.find?_some hz

/-- An entry replaced is the only one of its sector. -/
theorem Mse.setHazard_entryIs {e : Mse} {h h' : Hazard} (hz : e.hazard? h'.sector = some h) : (e.setHazard h').entryIs h' := by
  constructor
  · have hsector : ((fun x : Hazard => decide (x.sector = h'.sector)) ∘ fun x => if x.sector = h'.sector then h' else x) =
        fun x => decide (x.sector = h'.sector) := by
      funext x
      by_cases hx : x.sector = h'.sector <;> simp [hx]
    have hfind : e.hazards.find? (fun x => decide (x.sector = h'.sector)) = some h := hz
    simp only [Mse.hazard?, Mse.setHazard, List.find?_map, hsector, hfind, Option.map_some, Mse.hazard?_sector hz, if_true]
  · intro x hx hsec
    obtain ⟨y, -, rfl⟩ := List.mem_map.mp hx
    by_cases hy : y.sector = h'.sector
    · exact if_pos hy
    · exact absurd ((if_neg hy : (if y.sector = h'.sector then h' else y) = y) ▸ hsec) hy

theorem Mse.setHazard_setHazard (e : Mse) {h h' : Hazard} (hsec : h.sector = h'.sector) : (e.setHazard h).setHazard h' = e.setHazard h' := by
  unfold Mse.setHazard
  simp only [List.map_map]
  congr 1
  refine List.map_congr_left fun x _ => ?_
  by_cases hx : x.sector = h'.sector <;> simp [hsec, hx]

theorem Mse.setHazard_filter (e : Mse) {h : Hazard} {sector : Nat} (hsec : h.sector = sector) :
    ((e.setHazard h).hazards.filter fun x => x.sector ≠ sector) = e.hazards.filter fun x => x.sector ≠ sector := by
  have hkeep : ∀ l : List Hazard, ((l.map fun x => if x.sector = h.sector then h else x).filter fun x => x.sector ≠ sector) =
      l.filter fun x => x.sector ≠ sector := fun l => by
    induction l with
    | nil => rfl
    | cons x l ih => by_cases hx : x.sector = sector <;> simp_all
  exact hkeep e.hazards

/-- Requests join a filling buffer only, and only where one waits (R247). -/
theorem Hazard.fillFromQueue_of_noFill (n : Nat) {h : Hazard} (hf : h.fillBuf = none) : h.fillFromQueue n = h := by
  cases n with
  | zero => rfl
  | succ n => simp [Hazard.fillFromQueue, hf]

theorem Hazard.fillFromQueue_of_noQueue (n : Nat) {h : Hazard} (hq : h.queue = []) : h.fillFromQueue n = h := by
  cases n with
  | zero => rfl
  | succ n => simp [Hazard.fillFromQueue, hq]

/-- A read in sideband mode is queued alone (R242, R267). -/
theorem State.queueRead_sideband (m : Nat) {o : MemOp} {s : State} (hco : s.carveOut (sectorAddr o.sector) = false) :
    s.queueRead m o = s.modMse m (Mse.queueOp { o with since := s.clk.elapsed }) := by
  simp [State.queueRead, hco]

/-- A sector with a queued request of its own is busy (R65). -/
theorem Mse.queueOp_busy (e : Mse) {o : MemOp} (hco : o.co = false) : (e.queueOp o).sectorBusy o.sector = true := by
  simp [Mse.sectorBusy, Mse.queueOp, hco]

/-! #### One step of an entry -/

section
variable {m sector : Nat} {s : State} {e : Mse} {h : Hazard} (hs : s.mse[m]? = some e) (hz : e.hazard? sector = some h)
include hs hz

/-- An entry waits while its sector has a memory-side request. -/
theorem State.hazardStep_busy (hb : e.sectorBusy sector = true) : s.hazardStep m sector = s := by
  simp [State.hazardStep, hs, hz, hb]

section
variable (hb : e.sectorBusy sector = false)
include hb

/-- The filling buffer becomes outstanding. -/
theorem State.hazardStep_fill {b : MergeBuf} (ho : h.outBuf = none) (hf : h.fillBuf = some b) :
    s.hazardStep m sector = s.modMse m (Mse.setHazard { h with outBuf := some b, fillBuf := none }) := by
  simp [State.hazardStep, hs, hz, hb, ho, hf]

/-- An outstanding buffer with bytes missing reads the sector (R247 step 3). -/
theorem State.hazardStep_read {b : MergeBuf} (ho : h.outBuf = some b) (hbe : b.be ≠ beAll) (hp : h.plain = none) :
    s.hazardStep m sector = s.queueRead m (newOp .entryRead sector b.lane b.cls false []) := by
  simp [State.hazardStep, hs, hz, hb, ho, hbe, hp]

/-- An outstanding buffer over plaintext at hand is issued (R247 step 4). -/
theorem State.hazardStep_issue {b : MergeBuf} {p : Bytes} (ho : h.outBuf = some b) (hp : h.plain = some p) :
    s.hazardStep m sector = s.issueBuf m h b (if b.be = beAll then zeros 128 else p) := by
  by_cases hbe : b.be = beAll <;> simp [State.hazardStep, hs, hz, hb, ho, hp, hbe]

/-- A lock read at the head of the queue reads the sector (R249). -/
theorem State.hazardStep_lockRead {r : HostReq} {rest : List HostReq} (ho : h.outBuf = none) (hf : h.fillBuf = none) (hl : h.lock = none)
    (hp : h.plain = none) (hq : h.queue = r :: rest) (hw : r.write = false) (hlock : r.lock = true) :
    s.hazardStep m sector = s.queueRead m (newOp .entryRead sector r.lane r.cls false []) := by
  simp [State.hazardStep, hs, hz, hb, ho, hf, hl, hp, hq, hw, hlock]

/-- An entry that nothing waits for has no step to take. -/
theorem State.hazardStep_empty (ho : h.outBuf = none) (hf : h.fillBuf = none) (hq : h.queue = []) : s.hazardStep m sector = s := by
  simp [State.hazardStep, hs, hz, hb, ho, hf, hq]

/-- An entry that nothing waits for is freed (R244). -/
theorem State.freeHazard_empty (hl : h.lock = none) (ho : h.outBuf = none) (hf : h.fillBuf = none) (hq : h.queue = []) :
    s.freeHazard m sector = s.modMse m fun m => { m with hazards := m.hazards.filter fun x => x.sector ≠ sector } := by
  simp [State.freeHazard, hs, hz, hb, hl, ho, hf, hq]

end

/-- An entry stays while its sector has a memory-side request (R244). -/
theorem State.freeHazard_busy (hb : e.sectorBusy sector = true) : s.freeHazard m sector = s := by
  simp [State.freeHazard, hs, hz, hb]

theorem State.advance_eq : s.advance m sector = s.hazardRun (h.queue.length + 6) m sector := by
  simp [State.advance, hs, hz]

end

/-! #### The rounds of an entry -/

section
variable {m : Nat} {s : State} {e : Mse} {h : Hazard} (hs : s.mse[m]? = some e) (he : e.entryIs h)
include hs he

/-- A round in which no request joins or leaves the queue is one step. -/
theorem State.hazardRun_round {n : Nat} {t : State} {e' : Mse} {h' : Hazard} (hfill : h.fillFromQueue 64 = h)
    (hstep : s.hazardStep m h.sector = t) (ht : t.mse[m]? = some e') (hz' : e'.hazard? h.sector = some h') (hq : h'.queue = h.queue) :
    s.hazardRun (n + 1) m h.sector = t.hazardRun n m h.sector := by
  have hjoin : s.modMse m (fun m => { m with hazards := m.hazards.map fun x =>
      if x.sector = h.sector then x.fillFromQueue 64 else x }) = s := by
    refine State.modMse_id hs ?_
    have hmap : (e.hazards.map fun x => if x.sector = h.sector then x.fillFromQueue 64 else x) = e.hazards := by
      refine (List.map_congr_left fun x hx => ?_).trans (List.map_id _)
      split
      · next hsec => rw [he.2 x hx hsec]; exact hfill
      · rfl
    rw [hmap]
  simp only [State.hazardRun, hjoin, hstep, hs, ht, Option.bind_some, he.1, hz', Option.map_some, Option.getD_some, hq, Nat.sub_self,
    List.take_zero]
  rfl

/-- An entry without a step to take goes on to its end. -/
theorem State.hazardRun_still (n : Nat) (hfill : h.fillFromQueue 64 = h) (hstep : s.hazardStep m h.sector = s) :
    s.hazardRun n m h.sector = s.freeHazard m h.sector := by
  induction n with
  | zero => rfl
  | succ n ih => rw [State.hazardRun_round hs he hfill hstep hs he.1 rfl, ih]

theorem State.hazardRun_busy (n : Nat) (hfill : h.fillFromQueue 64 = h) (hb : e.sectorBusy h.sector = true) :
    s.hazardRun n m h.sector = s := by
  rw [State.hazardRun_still hs he n hfill (State.hazardStep_busy hs he.1 hb), State.freeHazard_busy hs he.1 hb]

/-- An entry that nothing waits for is advanced to its end (R244). -/
theorem State.advance_freed (hb : e.sectorBusy h.sector = false) (hl : h.lock = none) (ho : h.outBuf = none) (hf : h.fillBuf = none)
    (hq : h.queue = []) :
    s.advance m h.sector = s.modMse m fun m => { m with hazards := m.hazards.filter fun x => x.sector ≠ h.sector } := by
  rw [State.advance_eq hs he.1, State.hazardRun_still hs he _ (Hazard.fillFromQueue_of_noFill _ hf)
    (State.hazardStep_empty hs he.1 hb ho hf hq), State.freeHazard_empty hs he.1 hb hl ho hf hq]

end

/-! ### Failures (R255, R256, R258, R262) -/

theorem MseServed.trans {m : Nat} {s t u : State} {e e' : Mse} (h : MseServed m s t e) (k : MseServed m t u e') : MseServed m s u e' := by
  have hmse : (listSet t.mse m fun _ => e') = listSet s.mse m fun _ => e' := by rw [h.mse]; exact listSet_listSet _ _ _ _
  unfold MseServed at k
  rw [hmse] at k
  unfold MseServed Aside at *
  rw [k, h]

/-- XS_MSE_SOUND takes a cause word with the integrity alarm, and the sector is listed where `list` says so. -/
def State.condemn (m word : Nat) (who charged : Option Nat) (list : Bool) (sector : Nat) (s : State) : State :=
  if list then (s.mseAlarm m word who charged).listSector m sector false else s.mseAlarm m word who charged

/-- What that makes of the MSE. -/
def Mse.condemned (word : Nat) (list : Bool) (sector : Nat) (e : Mse) : Mse :=
  if list then (e.sounded word).listing sector false else e.sounded word

theorem Mse.condemned_frame (word : Nat) (list : Bool) (sector : Nat) (e : Mse) :
    e.condemned word list sector = { e with err := (e.condemned word list sector).err } := by
  cases list
  · rfl
  · unfold Mse.condemned
    rw [if_pos rfl, Mse.listing_frame]
    rfl

/-- The cause word stands in XS_MSE_SOUND, and the sector is listed where it is to be. -/
theorem Mse.condemned_err {list : Bool} (word : Nat) {sector : Nat} {e : Mse} (hl : list = false → e.listed sector = false) :
    (e.condemned word list sector).err.sound = word ∧ (e.condemned word list sector).err.soundValid = true ∧
      (e.condemned word list sector).listed sector = list := by
  cases list
  · exact ⟨rfl, rfl, hl rfl⟩
  · have hframe := Mse.listing_frame sector false (e.sounded word)
    exact ⟨congrArg (·.err.sound) hframe, congrArg (·.err.soundValid) hframe, Mse.listing_listed ..⟩

/-- A Sounding with both results in classifies (R255). -/
theorem State.soundingStep_both {m : Nat} {o o' : MemOp} {lane second : Bool} {s : State} (hl : o'.laneTest = some lane)
    (hr : o'.second = some second) : s.soundingStep m o o' = (s.modMse m (Mse.swapOp o o')).classify m o' lane second := by
  simp [State.soundingStep, hl, hr]

section
variable {m : Nat} {s : State} {e : Mse} (hs : s.mse[m]? = some e)
include hs

theorem State.condemn_to (word : Nat) (who : Option Nat) {charged : Option Nat} (list : Bool) (sector : Nat)
    (hkept : ∀ id, charged = some id → (s.stall? id).any (·.integLose) = false) :
    MseServed m s (s.condemn m word who charged list sector) (e.condemned word list sector) ∧
      (s.condemn m word who charged list sector).out = s.out ∧ (s.condemn m word who charged list sector).alr.integrity = true ∧
      (s.condemn m word who charged list sector).hlm.irqAlarm = true := by
  have halarm : MseServed m s (s.mseAlarm m word who charged) (e.sounded word) := (MseServed.refl hs).mseAlarm hkept
  have hraised := State.mseAlarm_raised (m := m) (word := word) (who := who) hkept
  cases list
  · exact ⟨halarm, hraised⟩
  · obtain ⟨hout, halr, hirq⟩ := State.listSector_alarms (part := false) (sector := sector) (halarm.getElem hs)
    obtain ⟨hout', hintegrity, hirq'⟩ := hraised
    exact ⟨halarm.listSector hs, hout.trans hout', (congrArg Alr.integrity halr).trans hintegrity, hirq.trans hirq'⟩

/-- A host read that fails is answered INTEGRITY and is over (R258). -/
theorem State.failServed_host {o : MemOp} {r : HostReq} (hrole : o.role = .hostRead) (hreqs : o.reqs = [r])
    (hz : e.hazard? o.sector = none) :
    MseServed m s (s.failServed m o) (e.dropOp o).countIntegrity ∧ (s.failServed m o).out = s.out ++ [answerBad m .integrity r] ∧
      (s.failServed m o).alr = s.alr := by
  have hdrop : MseServed m s (s.modMse m (Mse.dropOp o)) (e.dropOp o) := (MseServed.refl hs).modMse _
  have ht : MseServed m s ((s.modMse m (Mse.dropOp o)).integrityAll m [r]) (e.dropOp o).countIntegrity := hdrop.integrityAll r
  have hmod : s.modMse m (fun m => (m.dropOp o).dropSweeper o.sector) = s.modMse m (Mse.dropOp o) := by
    unfold State.modMse
    rw [listSet_congr hs (Mse.dropSweeper_noHazard (e := e.dropOp o) hz)]
  have heq : s.failServed m o = (s.modMse m (Mse.dropOp o)).integrityAll m [r] := by
    simp only [State.failServed, hs, hrole, Mse.served, hreqs, hmod, reduceCtorEq, if_false]
    exact State.advance_noHazard (ht.getElem hs) hz
  obtain ⟨hout, halr, -⟩ := State.integrityAll_alarms m r (s.modMse m (Mse.dropOp o))
  rw [heq]
  exact ⟨ht, hout, halr⟩

/-- A Sounding of a lane that passes classifies a host read TRANSIENT or INTEGRITY (R255, R256). -/
theorem State.classify_host {o : MemOp} {r : HostReq} {second : Bool} (hrole : o.role = .hostRead) (hreqs : o.reqs = [r])
    (hz : e.hazard? o.sector = none) (hkept : (s.stall? r.stall).any (·.integLose) = false) :
    MseServed m s (s.classify m o true second)
        (((e.condemned (causeWord o.check (if second then 2 else 3) (s.cht.physLane m o.lane) false m) (!second) o.sector).dropOp
          o).countIntegrity) ∧
      (s.classify m o true second).out = s.out ++ [answerBad m .integrity r] ∧ (s.classify m o true second).alr.integrity = true := by
  let word := causeWord o.check (if second then 2 else 3) (s.cht.physLane m o.lane) false m
  let u := s.sounding (unitMse m) 0 (if second then 2 else 3)
  let v := u.condemn m word (some r.stall) (if second then none else some r.stall) (!second) o.sector
  have hu : u.mse[m]? = some e := hs
  have heq : s.classify m o true second = v.failServed m o := by
    simp only [State.classify, hs, State.concerned, Mse.served, hrole, hreqs, v, u, word, State.condemn]
    cases second <;> rfl
  have hcharged : ∀ id, (if second then none else some r.stall) = some id → (u.stall? id).any (·.integLose) = false := by
    cases second
    · rintro _ ⟨⟩; exact hkept
    · rintro _ ⟨⟩
  obtain ⟨hv, hout, hintegrity, -⟩ := State.condemn_to hu word (some r.stall) (!second) o.sector hcharged
  have hz' : (e.condemned word (!second) o.sector).hazard? o.sector = none := by rw [Mse.condemned_frame]; exact hz
  obtain ⟨ht, hout', halr⟩ := State.failServed_host (hv.getElem hu) hrole hreqs hz'
  rw [heq]
  have hsounded : Aside s u := rfl
  exact ⟨(hv.trans ht).from hsounded, hout'.trans (congrArg (· ++ _) hout), (congrArg Alr.integrity halr).trans hintegrity⟩

end

/-! ### The commands (R238, R250, R255, R261, R262) -/

/-- An MSE in which the ID of a lost read of a sector stays reserved (R261). -/
def Mse.reserveRead (id sector : Nat) (e : Mse) : Mse := { e with reserved := e.reserved ++ [{ id, sector, write := false }] }

/-- An MSE whose write `o` is lost: its ID stays reserved (R262). -/
def Mse.loseWrite (id : Nat) (o : MemOp) (e : Mse) : Mse :=
  { e.dropOp o with reserved := e.reserved ++ [{ id, sector := o.sector, write := true }] }

/-- An MSE after the known-answer test of a lane (R238). -/
def Mse.tested (group : List Nat) (lane : Nat) (pass : Bool) (e : Mse) : Mse :=
  { e with
    testing := e.testing.filter fun l => ¬ group.contains l
    err := { e.err with katFail := if pass then e.err.katFail else setBit e.err.katFail lane } }

section
variable {m : Nat} {s : State} {e : Mse} (hs : s.mse[m]? = some e) (hc : s.ldg.changes = [])
include hs hc

/-- Before T_MEM a read is waited for (R261). -/
theorem execMseReadTimeout_early {id : Nat} (ha : e.spine.acks = [])
    (ho : e.ops.find? (fun o => decide (o.id = some id) && !o.write && s.expired o.since s.tMemNs) = none) :
    execMseReadTimeout m id s = .next s.begin := by
  have ho' : e.ops.find? (fun o => decide (o.id = some id) && !o.write && s.begin.expired o.since s.begin.tMemNs) = none := ho
  refine onMse_idle hs hc ha ?_
  simp only [ho']

/-- The first read of a host read that is lost is queued again, and its ID stays reserved (R254, R261). -/
theorem execMseReadTimeout_first {id : Nat} {o : MemOp}
    (ho : e.ops.find? (fun o => decide (o.id = some id) && !o.write && s.expired o.since s.tMemNs) = some o) (hrole : o.role = .hostRead)
    (ha : o.attempt = 0) :
    ∃ t, execMseReadTimeout m id s = .next t ∧ t.out = [] ∧
      (t.mse[m]?).map (·.work) = some ({ o with id := none, attempt := 1, check := 5, beat := false, data := [], since := s.clk.elapsed } ::
        e.ops.eraseP (· = o), e.hazards, e.held, e.reserved ++ [⟨id, o.sector, false⟩]) ∧ s.onlyMse m t := by
  let u := s.begin.modMse m (Mse.reserveRead id o.sector)
  have hu : MseServed m s.begin u (e.reserveRead id o.sector) := (MseServed.refl (s := s.begin) hs).modMse _
  obtain ⟨ht, hout⟩ := State.failRead_first (s := u) (hu.getElem hs) 5 ha
  have ho' : e.ops.find? (fun o => decide (o.id = some id) && !o.write && s.begin.expired o.since s.begin.tMemNs) = some o := ho
  unfold execMseReadTimeout
  obtain ⟨hchanges, hmse, honly⟩ := (hu.trans ht.served).ends hs hc
  refine ⟨_, onMse_polled hs ?_ hchanges, hout, by rw [hmse]; rfl, honly⟩
  simp only [ho', hrole]
  rfl

/-- A host write that is lost is answered INTEGRITY, with the alarm, and its sector is listed (R262). -/
theorem execMseWriteTimeout_lost {id : Nat} {o : MemOp} {r : HostReq}
    (ho : e.ops.find? (fun o => decide (o.id = some id) && o.write && s.expired o.since s.tMemNs) = some o) (hrole : o.role = .hostWrite)
    (hreqs : o.reqs = [r]) (hz : e.hazard? o.sector = none) (hkept : (s.stall? r.stall).any (·.integLose) = false) :
    ∃ t, execMseWriteTimeout m id s = .next t ∧ t.out = [answerBad m .integrity r] ∧
      t.mse[m]? = some ((e.loseWrite id o).condemned (causeWord 6 0 (s.cht.physLane m (5 + o.lane)) false m) true o.sector).countIntegrity.polled ∧
      t.alr.integrity = true ∧ t.hlm.irqAlarm = true ∧ s.onlyMse m t := by
  let word := causeWord 6 0 (s.cht.physLane m (5 + o.lane)) false m
  let u := s.begin.modMse m (Mse.loseWrite id o)
  let v := u.condemn m word (some r.stall) (some r.stall) true o.sector
  have hu : MseServed m s.begin u (e.loseWrite id o) := (MseServed.refl (s := s.begin) hs).modMse _
  obtain ⟨hv, hout, hintegrity, hirq⟩ := State.condemn_to (hu.getElem hs) word (some r.stall) (charged := some r.stall) true o.sector
    (by rintro _ ⟨⟩; exact hkept)
  have ht : MseServed m s.begin (v.integrityAll m [r]) ((e.loseWrite id o).condemned word true o.sector).countIntegrity :=
    (hu.trans hv).integrityAll r
  have hz' : (((e.loseWrite id o).condemned word true o.sector).countIntegrity).hazard? o.sector = none := by
    rw [Mse.condemned_frame]; exact hz
  obtain ⟨hout', halr, hhlm⟩ := State.integrityAll_alarms m r v
  have ho' : e.ops.find? (fun o => decide (o.id = some id) && o.write && s.begin.expired o.since s.begin.tMemNs) = some o := ho
  unfold execMseWriteTimeout
  have hlose : s.begin.modMse m (fun e => { (e.dropOp o).dropSweeper o.sector with
      reserved := e.reserved ++ [{ id, sector := o.sector, write := true }]
      hazards := (e.dropSweeper o.sector).hazards.map fun h =>
        if h.sector = o.sector ∧ o.role = .entryWrite then { h with outBuf := none } else h
      tagPending := if o.role = .tagWrite then e.tagPending.filter fun p => p.line ≠ o.sector else e.tagPending }) = u := by
    refine congrArg (fun l => ({ s.begin with mse := l } : State)) (listSet_congr hs ?_)
    simp only [Mse.dropSweeper_noHazard hz, hrole, reduceCtorEq, and_false, if_false, List.map_id']
    rfl
  obtain ⟨hchanges, hmse, honly⟩ := ht.ends hs hc
  refine ⟨_, onMse_polled hs ?_ hchanges, hout'.trans (congrArg (· ++ _) hout), hmse, (congrArg Alr.integrity halr).trans hintegrity,
    (congrArg Hlm.irqAlarm hhlm).trans hirq, honly⟩
  refine Eq.trans ?_ (State.advance_noHazard (ht.getElem hs) hz')
  simp only [hrole] at hlose
  simp only [ho', hrole, hreqs, hlose]
  rfl

/-- Before T_LOCK a lock stays (R250). -/
theorem execMseLockTimeout_early {sector stall at_ : Nat} {h : Hazard} (hz : e.hazard? sector = some h) (hl : h.lock = some (stall, at_))
    (ht : s.clk.elapsed < at_ + s.cfg.engine.tLock * 1000) (ha : e.spine.acks = []) :
    execMseLockTimeout m sector s = .next s.begin := by
  have hexp : s.begin.expired at_ (s.begin.cfg.engine.tLock * 1000) = false := decide_eq_false (Nat.not_le.mpr ht)
  refine onMse_idle hs hc ha ?_
  simp only [hz, Option.bind_some, hl, Option.map_some, hexp]
  rfl

/-- A lock that nothing waits for is given up at T_LOCK, and its entry is freed (R244, R250). -/
theorem execMseLockTimeout_idle {stall at_ : Nat} {h : Hazard} (hz : e.hazard? h.sector = some h) (hl : h.lock = some (stall, at_))
    (ht : at_ + s.cfg.engine.tLock * 1000 ≤ s.clk.elapsed) (hq : h.queue = []) (ho : h.outBuf = none) (hf : h.fillBuf = none)
    (hb : e.sectorBusy h.sector = false) :
    ∃ t, execMseLockTimeout m h.sector s = .next t ∧ t.out = [] ∧
      (t.mse[m]?).map (·.work) = some (e.ops, e.hazards.filter (fun x => x.sector ≠ h.sector), e.held, e.reserved) ∧
      t.hlm = (s.event evLockTimeout (unitMse m) (some stall) (sectorAddr h.sector) m).hlm ∧ s.onlyMse m t := by
  let h' : Hazard := { h with lock := none }
  let u := (s.begin.modMse m (Mse.setHazard h')).event evLockTimeout (unitMse m) (some stall) (sectorAddr h.sector) m
  have hu : MseServed m s.begin u (e.setHazard h') := ((MseServed.refl (s := s.begin) hs).modMse _).then rfl
  have hadvance : u.advance m h.sector = _ :=
    State.advance_freed (h := h') (hu.getElem hs) (Mse.setHazard_entryIs hz) hb rfl ho hf hq
  have hexp : s.begin.expired at_ (s.begin.cfg.engine.tLock * 1000) = true := decide_eq_true ht
  unfold execMseLockTimeout
  obtain ⟨hchanges, hmse, honly⟩ := (hu.modMse fun m => { m with hazards := m.hazards.filter fun x => x.sector ≠ h.sector }).ends hs hc
  rw [← hadvance] at hchanges hmse honly
  refine ⟨_, onMse_polled hs ?_ hchanges, ?_, ?_, ?_, honly⟩
  · simp only [hz, Option.bind_some, hl, Option.map_some, hexp]
    rfl
  · rw [hadvance]; rfl
  · rw [hmse, ← e.setHazard_filter (h := h') rfl]; rfl
  · rw [hadvance]; rfl

/-- A lane that is not under test ends no test (R238). -/
theorem execMseLaneTestDone_idle {lane : Nat} (ha : e.spine.acks = []) (pass : Bool) (hl : e.testing.contains lane = false) :
    execMseLaneTestDone m lane pass s = .next s.begin :=
  onMse_idle hs hc ha (if_pos (ne_true_of_eq_false hl))

/-- A test without a Sounding that waits for it ends (R238). -/
theorem execMseLaneTestDone_alone {lane : Nat} (pass : Bool) (hl : e.testing.contains lane = true)
    (ho : e.ops.find? (fun o => o.attempt = 2 ∧ o.lane = lane ∧ o.laneTest.isNone) = none) :
    ∃ t, execMseLaneTestDone m lane pass s = .next t ∧ t.out = [] ∧
      t.mse[m]? = some (e.tested (s.cht.lanesOf m (s.cht.physLane m lane)) lane pass).polled ∧ s.onlyMse m t := by
  unfold execMseLaneTestDone
  refine onMse_modMse (g := Mse.tested (s.cht.lanesOf m (s.cht.physLane m lane)) lane pass) hs ?_ hc
  simp only [hl, ho]
  rfl

/-- A test that ends a Sounding of a host read whose second re-read is in: the lane passes (R255). -/
theorem execMseLaneTestDone_sounded {lane : Nat} {second : Bool} {o : MemOp} {r : HostReq} (hl : e.testing.contains lane = true)
    (ho : e.ops.find? (fun o => o.attempt = 2 ∧ o.lane = lane ∧ o.laneTest.isNone) = some o) (hsecond : o.second = some second)
    (hrole : o.role = .hostRead) (hreqs : o.reqs = [r]) (hz : e.hazard? o.sector = none) (hlisted : e.listed o.sector = false)
    (hkept : (s.stall? r.stall).any (·.integLose) = false) :
    ∃ t, execMseLaneTestDone m lane true s = .next t ∧ t.out = [answerBad m .integrity r] ∧
      (t.mse[m]?).map (fun x => (x.err.sound, x.err.soundValid, x.listed o.sector)) =
        some (causeWord o.check (if second then 2 else 3) (s.cht.physLane m lane) false m, true, !second) ∧
      t.alr.integrity = true ∧ s.onlyMse m t := by
  have hlane : o.lane = lane := by
    have hp := List.find?_some ho
    simp only [decide_eq_true_eq] at hp
    exact hp.2.1
  let o' : MemOp := { o with laneTest := some true }
  let group := s.cht.lanesOf m (s.cht.physLane m lane)
  let e₁ := (e.tested group lane true).swapOp o o'
  let u := (s.begin.modMse m (Mse.tested group lane true)).modMse m (Mse.swapOp o o')
  have hu : MseServed m s.begin u e₁ := ((MseServed.refl (s := s.begin) hs).modMse _).modMse _
  obtain ⟨ht, hout, hintegrity⟩ := State.classify_host (s := u) (o := o') (second := second) (hu.getElem hs) hrole hreqs hz hkept
  have hstep : (s.begin.modMse m (Mse.tested group lane true)).soundingStep m o o' = u.classify m o' true second :=
    State.soundingStep_both rfl hsecond
  unfold execMseLaneTestDone
  obtain ⟨hchanges, hmse, honly⟩ := (hu.trans ht).ends hs hc
  obtain ⟨hsound, hvalid, hlist⟩ := Mse.condemned_err (list := !second) (sector := o.sector)
    (causeWord o.check (if second then 2 else 3) (s.cht.physLane m lane) false m) (e := e₁) fun _ => hlisted
  refine ⟨_, onMse_polled hs ?_ hchanges, hout, ?_, hintegrity, honly⟩
  · simp only [hl, ho]
    exact hstep
  · rw [hmse]
    subst hlane
    exact congrArg some (Prod.ext hsound (Prod.ext hvalid hlist))

end

/-! ### The statement -/

/-- Settles O35: each clause is its command's lemma, with what that lemma's MSE holds. -/
theorem mseTimeouts : Obligations.MseTimeouts := by
  refine ⟨?readEarly, ?read, ?write, ?lockEarly, ?lock, ?noTest, ?test, ?sounding⟩
  case readEarly =>
    intro s m id e hs ha hc ho
    exact execMseReadTimeout_early hs hc ha ho
  case read =>
    intro s m id e o hs hc ho hrole hattempt
    exact execMseReadTimeout_first hs hc ho hrole hattempt
  case write =>
    intro s m id e o r hs hc ho hrole hreqs hw hz hkept
    obtain ⟨t, hexec, hout, hmse, hintegrity, hirq, honly⟩ := execMseWriteTimeout_lost hs hc ho hrole hreqs hz hkept
    obtain ⟨hsound, hvalid, hlisted⟩ := Mse.condemned_err (list := true) (sector := o.sector) (e := e.loseWrite id o)
      (causeWord 6 0 (s.cht.physLane m (5 + o.lane)) false m) (fun h => nomatch h)
    refine ⟨t, hexec, by simpa [answerBad, hw] using hout, ?_, ?_, hintegrity, hirq, honly⟩
    · rw [hmse, Mse.condemned_frame]; rfl
    · rw [hmse]; exact congrArg some (Prod.ext hsound (Prod.ext hvalid hlisted))
  case lockEarly =>
    intro s m sector stall at_ e h hs hc hz hl ht ha
    exact execMseLockTimeout_early hs hc hz hl ht ha
  case lock =>
    intro s m sector stall at_ e h hs hc hz hl ht hq ho hf hb
    obtain rfl := Mse.hazard?_sector hz
    obtain ⟨t, hexec, hout, hwork, hhlm, honly⟩ := execMseLockTimeout_idle hs hc hz hl ht hq ho hf hb
    exact ⟨t, hexec, hout, hwork, by rw [hhlm, State.event_fifo, List.map_append]; rfl, honly⟩
  case noTest =>
    intro s m lane pass e hs hc hl ha
    exact execMseLaneTestDone_idle hs hc ha pass hl
  case test =>
    intro s m lane pass e hs hc hl ho
    obtain ⟨t, hexec, hout, hmse, honly⟩ := execMseLaneTestDone_alone hs hc pass hl ho
    exact ⟨t, hexec, hout, by rw [hmse]; rfl, by rw [hmse]; rfl, honly⟩
  case sounding =>
    intro s m lane second e o r hs hc hl ho hsecond hrole hreqs hw hz hlisted hkept
    obtain ⟨t, hexec, hout, herr, hintegrity, honly⟩ :=
      execMseLaneTestDone_sounded hs hc hl ho hsecond hrole hreqs hz hlisted hkept
    exact ⟨t, hexec, by simpa [answerBad, hw] using hout, herr, hintegrity, honly⟩

end Sys2Proof.Machine

/-!
The host side of an MSE (O33).

A request that a ready lane offers is counted and meets the checks. One that passes them is placed (`State.place_…`): it passes through, or its
entry is advanced until its sector has a memory-side request. Each of the other outcomes is one answer, or a request held.
-/

namespace Sys2Proof.Machine

/-! ### Merged bytes (R247) -/

theorem getD_mergeBytes (be : Nat) (old new : Bytes) {b : Nat} (hb : b < 128) :
    (mergeBytes be old new).getD b 0 = if be.testBit b then new.getD b 0 else old.getD b 0 := by
  simp [mergeBytes, List.getD_eq_getElem?_getD, hb]

/-- Bytes merged into a buffer and then over the sector are merged over the sector. -/
theorem mergeBytes_mergeBytes (be : Nat) (old base new : Bytes) : mergeBytes be old (mergeBytes be base new) = mergeBytes be old new := by
  refine List.map_congr_left fun b hb => ?_
  rw [getD_mergeBytes _ _ _ (List.mem_range.mp hb)]
  split <;> rfl

/-- With all bytes enabled nothing of the sector stays. -/
theorem mergeBytes_beAll (old old' new : Bytes) : mergeBytes beAll old new = mergeBytes beAll old' new := by
  refine List.map_congr_left fun b hb => ?_
  have hbit : beAll.testBit b = true := (Nat.testBit_two_pow_sub_one 128 b).trans (decide_eq_true (List.mem_range.mp hb))
  rw [if_pos hbit, if_pos hbit]

theorem MergeBuf.fresh_merge_be (r : HostReq) : (MergeBuf.fresh.merge r).be = r.be := Nat.zero_or r.be

/-- A buffer of one write issued over the plaintext at hand seals the merge of that write. -/
theorem mergeBytes_fresh (r : HostReq) (p : Bytes) :
    mergeBytes (MergeBuf.fresh.merge r).be (if (MergeBuf.fresh.merge r).be = beAll then zeros 128 else p) (MergeBuf.fresh.merge r).data =
      mergeBytes r.be p r.data := by
  rw [MergeBuf.fresh_merge_be]
  refine (mergeBytes_mergeBytes ..).trans ?_
  split
  · next h => rw [h]; exact mergeBytes_beAll ..
  · rfl

section
variable {r : HostReq} (hw : r.write = true)
include hw

theorem MergeBuf.fresh_merge_lane : (MergeBuf.fresh.merge r).lane = r.lane := by
  simp [MergeBuf.lane, MergeBuf.merge, MergeBuf.fresh, hw]

theorem MergeBuf.fresh_merge_cls : (MergeBuf.fresh.merge r).cls = r.cls := by
  simp [MergeBuf.cls, MergeBuf.merge, MergeBuf.fresh, hw]

theorem MergeBuf.fresh_merge_writes : (MergeBuf.fresh.merge r).list.all (·.write) = true := by
  simp [MergeBuf.merge, MergeBuf.fresh, hw]

end

/-! ### Writes sealed and issued (R239, R247) -/

theorem State.countUse_aside (tile : Nat) (k : SectorKey) (s : State) : Aside s (s.countUse tile k) := by
  unfold State.countUse
  split <;> rfl

theorem State.countUse_out (tile : Nat) (k : SectorKey) (s : State) : (s.countUse tile k).out = s.out := by
  unfold State.countUse
  split <;> rfl

/-- The write of a sector sealed under a key, as it is queued (R239). -/
def MemOp.sealed (k : SectorKey) (mat : Bytes) (epoch now : Nat) (pt : Bytes) (o : MemOp) : MemOp :=
  { o with since := now, data := (sealWith k mat o.sector epoch pt).1, sb := (sealWith k mat o.sector epoch pt).2 }

section
variable {m : Nat} {s : State} {e : Mse} (hs : s.mse[m]? = some e) {k : SectorKey} {mat : Bytes}
  (hmat : s.keyMaterial? (unitMse m) k = some mat)
include hs hmat

theorem State.sealAndQueue_sideband {o : MemOp} (pt : Bytes) (hco : s.carveOut (sectorAddr o.sector) = false) :
    s.sealAndQueue m k pt o = some ((s.countUse (unitMse m) k).modMse m (Mse.queueOp (o.sealed k mat e.epoch s.clk.elapsed pt))) := by
  simp only [State.sealAndQueue, hs, hmat, hco]
  rfl

/-- An outstanding buffer of writes is issued: its write is queued and the entry holds the merge (R247). -/
theorem State.issueBuf_writes {h : Hazard} {b : MergeBuf} (base : Bytes) (hk : s.writeKey? m h.sector = some k)
    (hco : s.carveOut (sectorAddr h.sector) = false) (hb : b.list.all (·.write) = true) :
    s.issueBuf m h b base = ((s.countUse (unitMse m) k).modMse m (Mse.queueOp
        ((newOp .entryWrite h.sector b.lane b.cls true []).sealed k mat e.epoch s.clk.elapsed (mergeBytes b.be base b.data)))).modMse m
      (Mse.setHazard { h with plain := some (mergeBytes b.be base b.data), outBuf := some b }) := by
  have hwrites : b.list.filter (·.write) = b.list := List.filter_eq_self.mpr (List.all_eq_true.mp hb)
  have hreads : b.list.filter (fun r => !r.write) = [] := by
    rw [List.filter_eq_nil_iff]
    intro r hr
    simp [List.all_eq_true.mp hb r hr]
  have hseal := State.sealAndQueue_sideband hs hmat (o := newOp .entryWrite h.sector b.lane b.cls true []) (mergeBytes b.be base b.data) hco
  simp only [State.issueBuf, hk, hseal, State.answerMerged, hreads, hwrites, List.foldl_nil]

end

/-! ### Entries advanced (R243 to R250) -/

section
variable {m : Nat} {s : State} {e : Mse} {h : Hazard} (hs : s.mse[m]? = some e) (he : e.entryIs h)
  (hb : e.sectorBusy h.sector = false) (hco : s.carveOut (sectorAddr h.sector) = false)
include hs he hb hco

/-- A filling buffer with bytes missing becomes outstanding, and the sector is read (R247). -/
theorem State.advance_fill {b : MergeBuf} (ho : h.outBuf = none) (hf : h.fillBuf = some b) (hq : h.queue = [])
    (hbe : b.be ≠ beAll) (hp : h.plain = none) :
    s.advance m h.sector = (s.modMse m (Mse.setHazard { h with outBuf := some b, fillBuf := none })).modMse m
      (Mse.queueOp { newOp .entryRead h.sector b.lane b.cls false [] with since := s.clk.elapsed }) := by
  let h' : Hazard := { h with outBuf := some b, fillBuf := none }
  let o : MemOp := { newOp .entryRead h.sector b.lane b.cls false [] with since := s.clk.elapsed }
  let t := s.modMse m (Mse.setHazard h')
  have he' : (e.setHazard h').entryIs h' := Mse.setHazard_entryIs he.1
  have ht : t.mse[m]? = some (e.setHazard h') := getElem?_listSet_self _ hs
  have hu : (t.modMse m (Mse.queueOp o)).mse[m]? = some ((e.setHazard h').queueOp o) := getElem?_listSet_self _ ht
  have hread : t.hazardStep m h'.sector = t.modMse m (Mse.queueOp o) :=
    (State.hazardStep_read ht he'.1 hb rfl hbe hp).trans (State.queueRead_sideband m hco)
  rw [State.advance_eq hs he.1,
    State.hazardRun_round hs he (Hazard.fillFromQueue_of_noQueue 64 hq) (State.hazardStep_fill hs he.1 hb ho hf) ht he'.1 rfl]
  refine (State.hazardRun_round ht he' (Hazard.fillFromQueue_of_noFill 64 rfl) hread hu he'.1 rfl).trans ?_
  exact State.hazardRun_busy (h := h') hu he' _ (Hazard.fillFromQueue_of_noFill 64 rfl) (Mse.queueOp_busy _ (o := o) rfl)

/-- A lock read at the head of the queue has its sector read (R249). -/
theorem State.advance_lockRead {r : HostReq} {rest : List HostReq} (ho : h.outBuf = none) (hf : h.fillBuf = none) (hl : h.lock = none)
    (hp : h.plain = none) (hq : h.queue = r :: rest) (hw : r.write = false) (hlock : r.lock = true) :
    s.advance m h.sector = s.modMse m (Mse.queueOp { newOp .entryRead h.sector r.lane r.cls false [] with since := s.clk.elapsed }) := by
  let o : MemOp := { newOp .entryRead h.sector r.lane r.cls false [] with since := s.clk.elapsed }
  have hfill := Hazard.fillFromQueue_of_noFill 64 hf
  have hu : (s.modMse m (Mse.queueOp o)).mse[m]? = some (e.queueOp o) := getElem?_listSet_self _ hs
  have hread : s.hazardStep m h.sector = s.modMse m (Mse.queueOp o) :=
    (State.hazardStep_lockRead hs he.1 hb ho hf hl hp hq hw hlock).trans (State.queueRead_sideband m hco)
  rw [State.advance_eq hs he.1, State.hazardRun_round hs he hfill hread hu he.1 rfl]
  exact State.hazardRun_busy hu he _ hfill (Mse.queueOp_busy e (o := o) rfl)

/-- An outstanding buffer of writes over plaintext at hand is issued (R247). -/
theorem State.advance_issue {b : MergeBuf} {p mat : Bytes} {k : SectorKey} (ho : h.outBuf = some b) (hf : h.fillBuf = none)
    (hp : h.plain = some p) (hwrites : b.list.all (·.write) = true) (hk : s.writeKey? m h.sector = some k)
    (hmat : s.keyMaterial? (unitMse m) k = some mat) :
    s.advance m h.sector = s.issueBuf m h b (if b.be = beAll then zeros 128 else p) := by
  let pt := mergeBytes b.be (if b.be = beAll then zeros 128 else p) b.data
  let o := (newOp .entryWrite h.sector b.lane b.cls true []).sealed k mat e.epoch s.clk.elapsed pt
  let h' : Hazard := { h with plain := some pt, outBuf := some b }
  have hissue := State.issueBuf_writes hs hmat (if b.be = beAll then zeros 128 else p) hk hco hwrites
  have hcount : (s.countUse (unitMse m) k).mse = s.mse := (congrArg State.mse (State.countUse_aside ..) :)
  have hu : (s.issueBuf m h b (if b.be = beAll then zeros 128 else p)).mse[m]? = some ((e.queueOp o).setHazard h') := by
    rw [hissue]
    exact getElem?_listSet_self _ (getElem?_listSet_self _ (hcount ▸ hs))
  have he' : ((e.queueOp o).setHazard h').entryIs h' := Mse.setHazard_entryIs (e := e.queueOp o) he.1
  rw [State.advance_eq hs he.1, State.hazardRun_round hs he (Hazard.fillFromQueue_of_noFill 64 hf)
    (State.hazardStep_issue hs he.1 hb ho hp) hu he'.1 rfl]
  exact State.hazardRun_busy (h := h') hu he' _ (Hazard.fillFromQueue_of_noFill 64 hf) (Mse.queueOp_busy e (o := o) rfl)

end

/-! ### Requests placed (R242 to R250) -/

/-- An MSE with one more entry (R244). -/
def Mse.withEntry (h : Hazard) (e : Mse) : Mse := { e with hazards := e.hazards ++ [h] }

section
variable {e : Mse} {h : Hazard} (hz : e.hazard? h.sector = none)
include hz

theorem Mse.withEntry_entryIs : (e.withEntry h).entryIs h := by
  have hnone : ∀ x ∈ e.hazards, x.sector ≠ h.sector := by simpa [Mse.hazard?] using hz
  constructor
  · have hfind : e.hazards.find? (fun x => decide (x.sector = h.sector)) = none := hz
    simp [Mse.hazard?, Mse.withEntry, List.find?_append, hfind]
  · intro x hx hsec
    rcases List.mem_append.mp hx with hx | hx
    · exact absurd hsec (hnone x hx)
    · exact List.mem_singleton.mp hx

theorem Mse.withEntry_setHazard {h' : Hazard} (hsec : h.sector = h'.sector) : (e.withEntry h).setHazard h' = e.withEntry h' := by
  rw [hsec] at hz
  have hkeep := Mse.map_hazards_noHazard (fun _ => h') hz
  simp [Mse.setHazard, Mse.withEntry, hkeep, hsec]

end

theorem MseServed.carveOut {m : Nat} {s t : State} {e : Mse} (h : MseServed m s t e) (addr : Nat) : t.carveOut addr = s.carveOut addr := by
  rw [h]; rfl

theorem MseServed.clk {m : Nat} {s t : State} {e : Mse} (h : MseServed m s t e) : t.clk = s.clk := (congrArg State.clk h :)

section
variable {m : Nat} {s : State} {e : Mse} {r : HostReq} (hs : s.mse[m]? = some e)
include hs

theorem State.writeKey?_setHazard (h : Hazard) (sector : Nat) : (s.modMse m (Mse.setHazard h)).writeKey? m sector = s.writeKey? m sector := by
  have hs' : (s.modMse m (Mse.setHazard h)).mse[m]? = some (e.setHazard h) := getElem?_listSet_self _ hs
  simp only [State.writeKey?, hs, hs']
  rfl

/-- A request joins the entry of its sector, which is then advanced. -/
theorem State.place_entry {h : Hazard} (hz : e.hazard? r.sector = some h) :
    s.place m r = (s.joinHazard m r h).advance m r.sector := by
  simp [State.place, hs, hz, State.withHazard]

/-- A partial write or a lock read of a sector without entry joins one of its own, which is then advanced (R244). -/
theorem State.place_new {h : Hazard} (hz : e.hazard? r.sector = none) (hneeds : r.write = true ∧ r.be ≠ beAll ∨ r.lock = true)
    (hsec : r.sector = h.sector) (hjoin : ∀ t : State, t.joinHazard m r (Hazard.fresh r.sector) = t.modMse m (Mse.setHazard h)) :
    ∃ t, s.place m r = t.advance m h.sector ∧ MseServed m s t (e.withEntry h) ∧ (e.withEntry h).entryIs h ∧ t.out = s.out := by
  let t := (s.modMse m (Mse.withEntry (Hazard.fresh r.sector))).bump (ctrMse m 16) 1
  have ht : MseServed m s t (e.withEntry (Hazard.fresh r.sector)) := ((MseServed.refl hs).modMse _).then (State.bump_outputs ..).aside
  have hwith : s.withHazard m r.sector = t := by
    simp only [State.withHazard, hs, hz]
    rfl
  have hz' : (e.withEntry (Hazard.fresh r.sector)).hazard? r.sector = some (Hazard.fresh r.sector) :=
    (Mse.withEntry_entryIs (h := Hazard.fresh r.sector) hz).1
  have hthrough : (!(r.write && decide (r.be ≠ beAll)) && !r.lock) = false := by
    rcases hneeds with ⟨hw, hbe⟩ | hl
    · simp [hw, hbe]
    · simp [hl]
  refine ⟨t.modMse m (Mse.setHazard h), ?_, ?_, Mse.withEntry_entryIs (hsec ▸ hz), rfl⟩
  · simp only [State.place, hs, hwith, ht.getElem hs, Option.bind_some, hz', hjoin, ← hsec, Bool.and_assoc, hthrough, Bool.and_false,
      Bool.false_eq_true, if_false]
  · rw [← Mse.withEntry_setHazard (e := e) (h := Hazard.fresh r.sector) hz hsec]
    exact ht.modMse _

variable (hco : s.carveOut (sectorAddr r.sector) = false)
include hco

section
variable (hz : e.hazard? r.sector = none) (hb : e.sectorBusy r.sector = false)
include hz hb

/-- A read of a sector at rest passes through (R242). -/
theorem State.place_read (hw : r.write = false) (hl : r.lock = false) :
    MseServed m s (s.place m r) (e.queueOp { newOp .hostRead r.sector r.lane r.cls false [r] with since := s.clk.elapsed }) ∧
      (s.place m r).out = s.out := by
  have hplace : s.place m r = s.queueRead m (newOp .hostRead r.sector r.lane r.cls false [r]) := by
    simp [State.place, hs, hz, hb, hw, hl]
  rw [hplace, State.queueRead_sideband m (o := newOp .hostRead r.sector r.lane r.cls false [r]) hco]
  exact ⟨(MseServed.refl hs).modMse _, rfl⟩

/-- A full write of a sector at rest is sealed and passes through (R239). -/
theorem State.place_write {k : SectorKey} {mat : Bytes} (hw : r.write = true) (hl : r.lock = false) (hbe : r.be = beAll)
    (hk : s.writeKey? m r.sector = some k) (hmat : s.keyMaterial? (unitMse m) k = some mat) :
    MseServed m s (s.place m r)
        (e.queueOp ((newOp .hostWrite r.sector r.lane r.cls true [r]).sealed k mat e.epoch s.clk.elapsed r.data)) ∧
      (s.place m r).out = s.out := by
  let o := (newOp .hostWrite r.sector r.lane r.cls true [r]).sealed k mat e.epoch s.clk.elapsed r.data
  have hseal := State.sealAndQueue_sideband hs hmat (o := newOp .hostWrite r.sector r.lane r.cls true [r]) r.data hco
  have hplace : s.place m r = (s.countUse (unitMse m) k).modMse m (Mse.queueOp o) := by
    simp [State.place, hs, hz, hb, hw, hl, hbe, hk, hseal, o]
  rw [hplace]
  exact ⟨((MseServed.refl hs).then (State.countUse_aside ..)).modMse _, State.countUse_out ..⟩

/-- A partial write fills a new entry's buffer, which becomes outstanding with the read it needs (R247). -/
theorem State.place_partial (hw : r.write = true) (hl : r.lock = false) (hu : r.unlock = false) (hbe : r.be ≠ beAll) :
    MseServed m s (s.place m r) (Mse.queueOp { newOp .entryRead r.sector r.lane r.cls false [] with since := s.clk.elapsed }
        (e.withEntry { Hazard.fresh r.sector with outBuf := some (MergeBuf.fresh.merge r) })) ∧
      (s.place m r).out = s.out := by
  let b := MergeBuf.fresh.merge r
  let h : Hazard := { Hazard.fresh r.sector with fillBuf := some b }
  have hbe' : b.be ≠ beAll := by rw [MergeBuf.fresh_merge_be]; exact hbe
  obtain ⟨t, hplace, ht, he, hout⟩ := State.place_new (h := h) hs hz (.inl ⟨hw, hbe⟩) rfl fun t => by
    simp [State.joinHazard, hu, hl, hw, Hazard.fresh, h, b]
  rw [hplace, State.advance_fill (ht.getElem hs) he hb ((ht.carveOut _).trans hco) rfl rfl rfl hbe' rfl, MergeBuf.fresh_merge_lane hw,
    MergeBuf.fresh_merge_cls hw, ht.clk,
    ← Mse.withEntry_setHazard (h := h) (h' := { Hazard.fresh r.sector with outBuf := some (MergeBuf.fresh.merge r) }) hz rfl]
  exact ⟨(ht.modMse _).modMse _, hout⟩

/-- A lock read waits in a new entry's queue for the read it needs (R249). -/
theorem State.place_lockRead (hw : r.write = false) (hl : r.lock = true) (hu : r.unlock = false) :
    MseServed m s (s.place m r) (Mse.queueOp { newOp .entryRead r.sector r.lane r.cls false [] with since := s.clk.elapsed }
        (e.withEntry { Hazard.fresh r.sector with queue := [r] })) ∧
      (s.place m r).out = s.out := by
  let h : Hazard := { Hazard.fresh r.sector with queue := [r] }
  obtain ⟨t, hplace, ht, he, hout⟩ := State.place_new (h := h) hs hz (.inr hl) rfl fun t => by
    simp [State.joinHazard, hu, hl, Hazard.fresh, h]
  rw [hplace, State.advance_lockRead (ht.getElem hs) he hb ((ht.carveOut _).trans hco) rfl rfl rfl rfl rfl hw hl, ht.clk]
  exact ⟨ht.modMse _, hout⟩

end

/-- An unlock write over plaintext at hand releases the lock, and its merge is issued (R249). -/
theorem State.place_unlock {h : Hazard} {k : SectorKey} {p mat : Bytes} (hz : e.hazard? r.sector = some h)
    (hb : e.sectorBusy r.sector = false) (hw : r.write = true) (hu : r.unlock = true) (hp : h.plain = some p) (hf : h.fillBuf = none)
    (hk : s.writeKey? m r.sector = some k) (hmat : s.keyMaterial? (unitMse m) k = some mat) :
    MseServed m s (s.place m r) ((e.queueOp ((newOp .entryWrite r.sector r.lane r.cls true []).sealed k mat e.epoch s.clk.elapsed
        (mergeBytes r.be p r.data))).setHazard
          { h with lock := none, plain := some (mergeBytes r.be p r.data), outBuf := some (MergeBuf.fresh.merge r) }) ∧
      (s.place m r).out = s.out := by
  obtain hsec := Mse.hazard?_sector hz
  let b := MergeBuf.fresh.merge r
  let o := (newOp .entryWrite r.sector r.lane r.cls true []).sealed k mat e.epoch s.clk.elapsed (mergeBytes r.be p r.data)
  let h₁ : Hazard := { h with lock := none, outBuf := some b }
  let h₂ : Hazard := { h with lock := none, plain := some (mergeBytes r.be p r.data), outBuf := some b }
  let t := s.modMse m (Mse.setHazard h₁)
  have ht : MseServed m s t (e.setHazard h₁) := (MseServed.refl hs).modMse _
  have hjoin : s.joinHazard m r h = t := by simp [State.joinHazard, hu, t, h₁, b]
  have hz₁ : e.hazard? h₁.sector = some h := by rw [← hsec] at hz; exact hz
  have hk₁ : t.writeKey? m h₁.sector = some k := (State.writeKey?_setHazard hs h₁ _).trans (by rw [← hk, ← hsec])
  have hco₁ : t.carveOut (sectorAddr h₁.sector) = false := by rw [← hsec] at hco; exact hco
  have hb₁ : (e.setHazard h₁).sectorBusy h₁.sector = false := by rw [← hsec] at hb; exact hb
  have hwrites : b.list.all (·.write) = true := MergeBuf.fresh_merge_writes hw
  have hadvance := State.advance_issue (ht.getElem hs) (Mse.setHazard_entryIs hz₁) hb₁ hco₁ rfl hf hp hwrites hk₁ hmat
  have hissue := State.issueBuf_writes (ht.getElem hs) hmat (if b.be = beAll then zeros 128 else p) hk₁ hco₁ hwrites
  have heq : s.place m r = _ :=
    (State.place_entry hs hz).trans ((congrArg (State.advance m r.sector) hjoin).trans ((hsec ▸ hadvance).trans hissue))
  have hop : newOp .entryWrite h₁.sector r.lane r.cls true [] = newOp .entryWrite r.sector r.lane r.cls true [] := by rw [← hsec]
  rw [heq, mergeBytes_fresh, MergeBuf.fresh_merge_lane hw, MergeBuf.fresh_merge_cls hw, hop, State.modMse_out, State.modMse_out,
    State.countUse_out]
  refine ⟨?_, rfl⟩
  rw [← Mse.setHazard_setHazard (e.queueOp o) (h := h₁) (h' := h₂) rfl]
  exact ((ht.then (State.countUse_aside ..)).modMse _).modMse _

end

/-! ### The checks' outcomes (R263) -/

/-- The directions that a request needs have healthy lanes (R237). -/
def Chart.serves (c : Chart) (m : Nat) (r : HostReq) : Prop :=
  (r.write = true → c.dirLost m 5 = false) ∧ (r.write = false ∨ r.be ≠ beAll → c.dirLost m 0 = false)

section
variable {m : Nat} {s : State} {e : Mse} {r : HostReq} (hs : s.mse[m]? = some e) (hheld : e.held = []) (again : Bool)
include hs hheld

theorem State.enterMse_pass (hcheck : s.check m e r = .pass) (hlanes : s.cht.serves m r) : s.enterMse m again r = s.place m r := by
  obtain ⟨hwrite, hread⟩ := hlanes
  have hok : (s.cht.dirLost m 5 && r.write || s.cht.dirLost m 0 && (!r.write || decide (r.be ≠ beAll))) = false := by
    cases hw : r.write
    · simp [hread (.inl hw)]
    · by_cases hbe : r.be = beAll
      · simp [hwrite hw, hbe]
      · simp [hwrite hw, hread (.inr hbe)]
  simp only [State.enterMse, hs, hheld, List.find?_nil, hcheck, hok]
  rfl

theorem State.enterMse_refuse (hcheck : s.check m e r = .refuse) (hres : s.resident r.stall = true) :
    s.enterMse m again r = s.refuse m r := by
  simp [State.enterMse, hs, hheld, hcheck, hres]

theorem State.enterMse_listed (hcheck : s.check m e r = .listed) :
    s.enterMse m again r = ({ s with listedCount := satAdd 255 s.listedCount 1 } : State).answer m .integrity [] r := by
  simp [State.enterMse, hs, hheld, hcheck]

theorem State.enterMse_hold {c : HoldCause} (hcheck : s.check m e r = .hold c) : s.enterMse m again r = s.hold m r c again := by
  simp [State.enterMse, hs, hheld, hcheck]

end

/-- An MSE with one more request in REFUSED_COUNT (R274). -/
def Mse.countRefused (e : Mse) : Mse := { e with err := { e.err with refused := satAdd 65535 e.err.refused 1 } }

section
variable {m : Nat} {s : State} {e : Mse} {r : HostReq} (hs : s.mse[m]? = some e)
include hs

theorem State.refuse_to : MseTo m s (s.refuse m r) e.countRefused ∧ (s.refuse m r).out = s.out ++ [answerBad m .refused r] :=
  ⟨((MseTo.refl hs).modMse Mse.countRefused).then (State.answer_outputs m .refused [] r (s.modMse m Mse.countRefused)),
    State.answer_bad_out (by decide) m [] r (s.modMse m Mse.countRefused)⟩

/-- An MSE that holds one more request (R49). -/
def Mse.holding (r : HostReq) (c : HoldCause) (e : Mse) : Mse := { e with held := e.held ++ [(r, c)] }

/-- A request held waits behind those held already, and what it waits for is asked for beside the MSE's entries and the Stalls (R49). -/
theorem State.hold_waits (c : HoldCause) (again : Bool) :
    ((s.hold m r c again).mse[m]?).map (fun x => (x.held, x.hazards, x.reserved)) = some (e.held ++ [(r, c)], e.hazards, e.reserved) ∧
      (s.hold m r c again).out = s.out ∧ (s.hold m r c again).stl.table = s.stl.table := by
  let t := s.modMse m (Mse.holding r c)
  have ht : t.mse[m]? = some (e.holding r c) := getElem?_listSet_self _ hs
  cases c with
  | ledger => exact ⟨congrArg (Option.map _) ht, rfl, rfl⟩
  | key h g =>
    have hwant : t.wantKey (unitMse m) h g = { t with sbx := (t.wantKey (unitMse m) h g).sbx } := by
      unfold State.wantKey
      split
      · rfl
      · split <;> rfl
    have heq : s.hold m r (.key h g) again = (t.wantKey (unitMse m) h g).bump (ctrMse m 15) (if again then 0 else 1) := rfl
    rw [heq, hwant]
    exact ⟨congrArg (Option.map _) ht, rfl, rfl⟩
  | poolLine l =>
    unfold State.hold
    dsimp only
    split <;> exact ⟨congrArg (Option.map _) ht, rfl, rfl⟩
  | fill id =>
    have heq : s.hold m r (.fill id) again = t.wantStall id := rfl
    rw [heq]
    unfold State.wantStall
    split <;> exact ⟨congrArg (Option.map _) ht, rfl, rfl⟩
  | tagLine l =>
    have hwant : ∀ e : Mse, e.wantTag l r.lane r.cls = { e with ops := (e.wantTag l r.lane r.cls).ops } := fun e => by
      unfold Mse.wantTag
      split <;> rfl
    have hmse : (s.hold m r (.tagLine l) again).mse[m]? = some ((e.holding r (.tagLine l)).wantTag l r.lane r.cls) := getElem?_listSet_self _ ht
    rw [hmse, hwant]
    exact ⟨rfl, rfl, rfl⟩

end

/-! ### Requests offered (R61, R89, R263) -/

/-- A request taken is counted, for its MSE and for its Stall (R553, R555). -/
def State.taken (m : Nat) (r : HostReq) (s : State) : State :=
  (s.bump (ctrMse m (if r.write then 1 else 0)) 1).bumpStall r.stall (if r.write then 1 else 0) 1

theorem State.taken_outputs (m : Nat) (r : HostReq) (s : State) : OnlyOutputs s (s.taken m r) := rfl

/-- A request offered at MSE `m`. -/
def hostRequest (m : Nat) (r : HostReq) (s : State) : Host.Outcome State Fault Refusal := onMse m s fun e t => t.acceptHost m r e

theorem execMseReadRequest_eq {s : State} {r : HostReq} (m : Nat) (hw : r.write = false) (hl : r.lock = false) (hu : r.unlock = false)
    (hbe : r.be = 0) (hd : r.data = []) (ht : r.since = s.clk.elapsed) :
    execMseReadRequest m r.lane r.sector r.stall r.id r.cls s = hostRequest m r s := by
  cases r
  cases hw; cases hl; cases hu; cases hbe; cases hd; cases ht
  rfl

theorem execMseLockRead_eq {s : State} {r : HostReq} (m : Nat) (hw : r.write = false) (hl : r.lock = true) (hu : r.unlock = false)
    (hbe : r.be = 0) (hd : r.data = []) (ht : r.since = s.clk.elapsed) :
    execMseLockRead m r.lane r.sector r.stall r.id r.cls s = hostRequest m r s := by
  cases r
  cases hw; cases hl; cases hu; cases hbe; cases hd; cases ht
  rfl

theorem execMseUnlockWrite_eq {s : State} {r : HostReq} (m : Nat) (hw : r.write = true) (hl : r.lock = false) (hu : r.unlock = true)
    (ht : r.since = s.clk.elapsed) :
    execMseUnlockWrite m r.lane r.sector r.stall r.id r.cls r.be r.data s = hostRequest m r s := by
  cases r
  cases hw; cases hl; cases hu; cases ht
  rfl

theorem execMsePartialWrite_eq {s : State} {r : HostReq} (m : Nat) (hw : r.write = true) (hl : r.lock = false) (hu : r.unlock = false)
    (ht : r.since = s.clk.elapsed) :
    execMsePartialWrite m r.lane r.sector r.stall r.id r.cls r.be r.data s = hostRequest m r s := by
  cases r
  cases hw; cases hl; cases hu; cases ht
  rfl

theorem execMseWriteRequest_eq {s : State} {r : HostReq} (m : Nat) (hw : r.write = true) (hl : r.lock = false) (hu : r.unlock = false)
    (hbe : r.be = beAll) (ht : r.since = s.clk.elapsed) :
    execMseWriteRequest m r.lane r.sector r.stall r.id r.cls r.data s = hostRequest m r s := by
  rw [← execMsePartialWrite_eq m hw hl hu ht, hbe]
  rfl

theorem State.quietOpen_of_mseReady {m : Nat} {s : State} {e : Mse} {r : HostReq} (h : s.mseReady m e r = true) : s.quietOpen = false := by
  simp only [State.mseReady, Bool.and_eq_true] at h
  exact State.quietOpen_of_dataOpen (by simp [h])

section
variable {m : Nat} {s : State} {e : Mse} {r : HostReq}

theorem State.acceptHost_notReady (hq : s.quietOpen = false) (hready : s.mseReady m e r = false) : s.acceptHost m r e = s := by
  simp [State.acceptHost, hq, hready]

theorem State.acceptHost_quiet (hq : s.quietOpen = true) :
    s.acceptHost m r e = (s.bump (ctrMse m (if r.write then 1 else 0)) 1).answer m .poison [] r := if_pos hq

variable (hready : s.mseReady m e r = true)
include hready

theorem State.acceptHost_outstanding (hid : e.requests.any (fun q => q.write = r.write ∧ q.id = r.id) = true) :
    s.acceptHost m r e = (s.taken m r).refuse m r := by
  simp only [State.acceptHost, State.quietOpen_of_mseReady hready, hready, hid]
  rfl

theorem State.acceptHost_fresh (hid : e.requests.any (fun q => q.write = r.write ∧ q.id = r.id) = false) :
    s.acceptHost m r e = (s.taken m r).enterMse m false r := by
  simp only [State.acceptHost, State.quietOpen_of_mseReady hready, hready, hid]
  rfl

end

section
variable {m : Nat} {s : State} {e : Mse} {r : HostReq} (hs : s.mse[m]? = some e) (hc : s.ldg.changes = [])
include hs hc

/-- In the quiet state a request is answered POISON (R89). -/
theorem hostRequest_quiet (ha : e.spine.acks = []) (hq : s.quietOpen = true) :
    ∃ t, hostRequest m r s = .next t ∧ t.out = [answerBad m .poison r] ∧ t.mse = s.mse ∧ s.onlyMse m t := by
  let t := (s.begin.bump (ctrMse m (if r.write then 1 else 0)) 1).answer m .poison [] r
  have ho : OnlyOutputs s.begin t := (State.bump_outputs ..).trans (State.answer_outputs ..)
  have ht : MseServed m s.begin t e := (MseServed.refl (s := s.begin) hs).then ho.aside
  have hmse : t.mse = s.mse := (congrArg State.mse ho :)
  obtain ⟨hchanges, -, honly⟩ := ht.ends hs hc
  have hpoll : t.pollAcks m = t := State.pollAcks_noAcks (ht.getElem hs) ha
  refine ⟨_, onMse_polled hs (State.acceptHost_quiet hq) hchanges, ?_, ?_, honly⟩
  · rw [hpoll]; exact State.answer_bad_out (by decide) ..
  · rw [hpoll]; exact hmse

/-- Where the lane is not ready the request stays where it is (R58). -/
theorem hostRequest_notReady (ha : e.spine.acks = []) (hq : s.quietOpen = false) (hready : s.mseReady m e r = false) :
    hostRequest m r s = .next s.begin :=
  onMse_idle hs hc ha (State.acceptHost_notReady (s := s.begin) hq hready)

/-- A request taken that is served within the MSE. -/
theorem hostRequest_served {t : State} {e' : Mse} (hf : s.begin.acceptHost m r e = t) (ht : MseServed m (s.begin.taken m r) t e') :
    ∃ u, hostRequest m r s = .next u ∧ u.out = t.out ∧ u.mse[m]? = some e'.polled ∧ s.onlyMse m u := by
  obtain ⟨hchanges, hmse, honly⟩ := (ht.from (State.taken_outputs m r s.begin).aside).ends hs hc
  exact ⟨_, onMse_polled hs hf hchanges, rfl, hmse, honly⟩

variable (hready : s.mseReady m e r = true)
include hready

/-- An ID that is still outstanding is refused (R61). -/
theorem hostRequest_outstanding (hid : e.requests.any (fun q => q.write = r.write ∧ q.id = r.id) = true) :
    ∃ u, hostRequest m r s = .next u ∧ u.out = [answerBad m .refused r] ∧ u.mse[m]? = some e.countRefused.polled ∧ s.onlyMse m u := by
  obtain ⟨ht, hout⟩ := State.refuse_to (s := s.begin.taken m r) (r := r) hs
  obtain ⟨u, hexec, hos, hmse, honly⟩ := hostRequest_served hs hc (State.acceptHost_outstanding (s := s.begin) hready hid) ht.served
  exact ⟨u, hexec, hos.trans hout, hmse, honly⟩

variable (hid : e.requests.any (fun q => q.write = r.write ∧ q.id = r.id) = false) (hheld : e.held = [])
include hid hheld

/-- A request that passes the checks, on healthy lanes, is placed. -/
theorem hostRequest_placed {e' : Mse} (hcheck : s.check m e r = .pass) (hlanes : s.cht.serves m r)
    (ht : MseServed m (s.begin.taken m r) ((s.begin.taken m r).place m r) e' ∧
      ((s.begin.taken m r).place m r).out = (s.begin.taken m r).out) (hkeep : e'.held = e.held) :
    ∃ u, hostRequest m r s = .next u ∧ (u.mse[m]?).map (·.work) = some (e'.ops, e'.hazards, [], e'.reserved) ∧ u.out = [] ∧
      s.onlyMse m u := by
  obtain ⟨ht, hout⟩ := ht
  have hcheck' : (s.begin.taken m r).check m e r = .pass := hcheck
  have hplace := State.enterMse_pass (s := s.begin.taken m r) hs hheld false hcheck' hlanes
  obtain ⟨u, hexec, hos, hmse, honly⟩ :=
    hostRequest_served hs hc ((State.acceptHost_fresh (s := s.begin) hready hid).trans hplace) ht
  exact ⟨u, hexec, by rw [hmse, ← hkeep.trans hheld]; rfl, hos.trans hout, honly⟩

/-- A request of a resident Stall that fails a check is refused (R263). -/
theorem hostRequest_refused (hcheck : s.check m e r = .refuse) (hres : s.resident r.stall = true) :
    ∃ u, hostRequest m r s = .next u ∧ u.out = [answerBad m .refused r] ∧ u.mse[m]? = some e.countRefused.polled ∧ s.onlyMse m u := by
  obtain ⟨ht, hout⟩ := State.refuse_to (s := s.begin.taken m r) (r := r) hs
  have hrefuse := State.enterMse_refuse (s := s.begin.taken m r) hs hheld false hcheck hres
  obtain ⟨u, hexec, hos, hmse, honly⟩ :=
    hostRequest_served hs hc ((State.acceptHost_fresh (s := s.begin) hready hid).trans hrefuse) ht.served
  exact ⟨u, hexec, hos.trans hout, hmse, honly⟩

/-- A request of a listed sector is answered INTEGRITY (R259). -/
theorem hostRequest_listed (hcheck : s.check m e r = .listed) :
    ∃ u, hostRequest m r s = .next u ∧ u.out = [answerBad m .integrity r] ∧ u.mse[m]? = some e.polled ∧ s.onlyMse m u := by
  let t := s.begin.taken m r
  let v : State := { t with listedCount := satAdd 255 t.listedCount 1 }
  have hv : MseServed m t v e := (MseServed.refl (s := t) hs).then rfl
  have ht : MseServed m t (v.answer m .integrity [] r) e := hv.then (State.answer_outputs ..).aside
  have hlisted := State.enterMse_listed (s := t) hs hheld false hcheck
  obtain ⟨u, hexec, hos, hmse, honly⟩ :=
    hostRequest_served hs hc ((State.acceptHost_fresh (s := s.begin) hready hid).trans hlisted) ht
  exact ⟨u, hexec, hos.trans (State.answer_bad_out (by decide) ..), hmse, honly⟩

/-- A request that needs something first is held (R49, R191, R264, R267, R401). -/
theorem hostRequest_held {c : HoldCause} (hcheck : s.check m e r = .hold c) :
    ∃ u, hostRequest m r s = .next u ∧ u.out = [] ∧
      (u.mse[m]?).map (fun x => (x.held, x.hazards, x.reserved)) = some ([(r, c)], e.hazards, e.reserved) ∧
      u.stl.table = s.stl.table ∧ u.epo = s.epo ∧ u.rst = s.rst ∧ u.hlm.cwq = s.hlm.cwq := by
  let t := (s.begin.taken m r).hold m r c false
  obtain ⟨hwork, hout, htable⟩ := State.hold_waits (s := s.begin.taken m r) (r := r) hs c false
  have hbeside : t.beside = s.beside := State.hold_beside ..
  have hhold := State.enterMse_hold (s := s.begin.taken m r) hs hheld false hcheck
  have hpolled : ((t.pollAcks m).mse[m]?).map (fun x => (x.held, x.hazards, x.reserved)) =
      (t.mse[m]?).map fun x => (x.held, x.hazards, x.reserved) := by
    obtain ⟨x, hx, -⟩ := Option.map_eq_some_iff.mp hwork
    have hpoll : (t.pollAcks m).mse[m]? = some x.polled := getElem?_listSet_self _ hx
    rw [hpoll, hx]
    rfl
  refine ⟨_, onMse_polled hs ((State.acceptHost_fresh (s := s.begin) hready hid).trans hhold)
    ((congrArg Beside.changes hbeside).trans hc), hout, ?_, htable, congrArg Beside.epo hbeside, congrArg Beside.rst hbeside,
    congrArg Beside.cwq hbeside⟩
  rw [hpolled, hwork, hheld]
  rfl

end

/-! ### The statement -/

/-- Settles O33: a request that passes is placed, and each other outcome of the checks is its lemma. -/
theorem mseHostPort : Obligations.MseHostPort := by
  refine ⟨?read, ?write, ?partialWrite, ?lockRead, ?unlock, ?quiet, ?notReady, ?refused, ?listed, ?held⟩
  case read =>
    intro s m e r hs hw hl hu hbe hd ht hready hid hheld hcheck hdir hco hc hz hb
    have hexec : exec (.mseReadRequest m r.lane r.sector r.stall r.id r.cls) s = _ := execMseReadRequest_eq m hw hl hu hbe hd ht
    rw [hexec]
    exact hostRequest_placed hs hc hready hid hheld hcheck ⟨fun h => absurd (hw.symm.trans h) (by decide), fun _ => hdir⟩
      (State.place_read (s := s.begin.taken m r) hs hco hz hb hw hl) rfl
  case write =>
    intro s m e r k mat hs hw hl hu hbe ht hready hid hheld hcheck hdir hco hc hz hb hk hmat
    have hexec : exec (.mseWriteRequest m r.lane r.sector r.stall r.id r.cls r.data) s = _ := execMseWriteRequest_eq m hw hl hu hbe ht
    rw [hexec]
    exact hostRequest_placed hs hc hready hid hheld hcheck ⟨fun _ => hdir, fun h => absurd h (by simp [hw, hbe])⟩
      (State.place_write (s := s.begin.taken m r) hs hco hz hb hw hl hbe hk hmat) rfl
  case partialWrite =>
    intro s m e r hs hw hl hu hbe ht hready hid hheld hcheck hdir hdir' hco hc hz hb
    have hexec : exec (.msePartialWrite m r.lane r.sector r.stall r.id r.cls r.be r.data) s = _ := execMsePartialWrite_eq m hw hl hu ht
    rw [hexec]
    exact hostRequest_placed hs hc hready hid hheld hcheck ⟨fun _ => hdir', fun _ => hdir⟩
      (State.place_partial (s := s.begin.taken m r) hs hco hz hb hw hl hu hbe) rfl
  case lockRead =>
    intro s m e r hs hw hl hu hbe hd ht hready hid hheld hcheck hdir hco hc hz hb
    have hexec : exec (.mseLockRead m r.lane r.sector r.stall r.id r.cls) s = _ := execMseLockRead_eq m hw hl hu hbe hd ht
    rw [hexec]
    exact hostRequest_placed hs hc hready hid hheld hcheck ⟨fun h => absurd (hw.symm.trans h) (by decide), fun _ => hdir⟩
      (State.place_lockRead (s := s.begin.taken m r) hs hco hz hb hw hl hu) rfl
  case unlock =>
    intro s m at_ e r h p mat k hs hw hl hu ht hready hid hheld hcheck hdir hdir' hco hc hz hlock hp ho hf hq hb hk hmat
    have hexec : exec (.mseUnlockWrite m r.lane r.sector r.stall r.id r.cls r.be r.data) s = _ := execMseUnlockWrite_eq m hw hl hu ht
    rw [hexec]
    exact hostRequest_placed hs hc hready hid hheld hcheck ⟨fun _ => hdir', fun _ => hdir⟩
      (State.place_unlock (s := s.begin.taken m r) hs hco hz hb hw hu hp hf hk hmat) rfl
  case quiet =>
    intro s m lane sector stall id cls e hs hq ha hc
    exact hostRequest_quiet hs hc ha hq
  case notReady =>
    intro s m e r hs hw hl hu hbe hd ht hq hready ha hc
    exact (execMseReadRequest_eq m hw hl hu hbe hd ht).trans (hostRequest_notReady hs hc ha hq hready)
  case refused =>
    intro s m e r hs hw hl hu hbe hd ht hready hc hwhy
    have hexec : exec (.mseReadRequest m r.lane r.sector r.stall r.id r.cls) s = _ := execMseReadRequest_eq m hw hl hu hbe hd ht
    have hrefused : ∃ u, hostRequest m r s = .next u ∧ u.out = [answerBad m .refused r] ∧ u.mse[m]? = some e.countRefused.polled ∧
        s.onlyMse m u := by
      cases hid : e.requests.any (fun q => q.write = r.write ∧ q.id = r.id) with
      | true => exact hostRequest_outstanding hs hc hready hid
      | false =>
        obtain ⟨hheld, hcheck, hres⟩ := hwhy.resolve_left (ne_of_eq_of_ne hid (by decide))
        exact hostRequest_refused hs hc hready hid hheld hcheck hres
    obtain ⟨u, hu', hout, hmse, honly⟩ := hrefused
    rw [hexec]
    exact ⟨u, hu', by simpa [answerBad, hw] using hout, by rw [hmse]; rfl, by rw [hmse]; rfl, honly⟩
  case listed =>
    intro s m e r hs hw hl hu hbe hd ht hready hc hid hheld hcheck
    have hexec : exec (.mseReadRequest m r.lane r.sector r.stall r.id r.cls) s = _ := execMseReadRequest_eq m hw hl hu hbe hd ht
    obtain ⟨u, hu', hout, hmse, honly⟩ := hostRequest_listed hs hc hready hid hheld hcheck
    rw [hexec]
    exact ⟨u, hu', by simpa [answerBad, hw] using hout, by rw [hmse]; rfl, honly⟩
  case held =>
    intro s m e r c hs hw hl hu hbe hd ht hready hc hid hheld hcheck
    have hexec : exec (.mseReadRequest m r.lane r.sector r.stall r.id r.cls) s = _ := execMseReadRequest_eq m hw hl hu hbe hd ht
    rw [hexec]
    exact hostRequest_held hs hc hready hid hheld hcheck

end Sys2Proof.Machine

/-!
Regions bound and retired (O18).

A change of a local entry (R283 steps 1 and 2) is one update of the table and one message to every MSE. REGION_BIND and REGION_RETIRE each
end in such a change, in a queued item, or in a status; with a store record in flight, or with the message still held by an MSE, what
follows the change waits.
-/

namespace Sys2Proof.Machine

/-! ### Changes of a local entry (R283) -/

/-- An entry that is not FREE is found where it was put. -/
theorem assocGet_putEntry {e : LdgEntry} (he : e.state ≠ .free) (i j : Nat) (l : List (Nat × LdgEntry)) :
    assocGet j (putEntry i e l) = if i = j then some e else assocGet j l := by
  have hne : e ≠ LdgEntry.freeEntry := fun h => he (h ▸ rfl)
  rw [putEntry, if_neg hne, assocGet_assocSet]

section
variable {r : RegionId} (hr : r.pool = false)
include hr

/-- A local region is served by every MSE, so every MSE is told of its entry's change. -/
theorem State.changeEntry_local (e : LdgEntry) (goal : Option ChangeGoal) (s : State) :
    s.changeEntry r e goal = { s with
      mse := s.mse.map fun m => { m with spine := m.spine.send (.invalidate r) }
      ldg := { s.ldg with
        localEntries := putEntry r.index e s.ldg.localEntries
        changes := s.ldg.changes ++ goal.toList.map fun g => { region := r, goal := g } } } := by
  have hall : s.mse.mapIdx (fun _ m => { m with spine := m.spine.send (.invalidate r) }) =
      s.mse.map fun m => { m with spine := m.spine.send (.invalidate r) } := List.ext_getElem (by simp) (by simp)
  simp [State.changeEntry, State.writeEntry, State.setEntry, hr, hall]

/-- A local region's entry is what the Ledger's table of local entries holds. -/
theorem State.entry_local (s : State) : s.entry r = (assocGet r.index s.ldg.localEntries).getD LdgEntry.freeEntry := by
  simp [State.entry, hr]

/-- The entry is as the change wrote it. -/
theorem State.entry_of_putEntry {e : LdgEntry} (he : e.state ≠ .free) {s t : State}
    (ht : t.ldg.localEntries = putEntry r.index e s.ldg.localEntries) : t.entry r = e := by
  rw [State.entry_local hr, ht, assocGet_putEntry he, if_pos rfl, Option.getD_some]

/-- With an MSE to tell, the change has not been acknowledged by every MSE when it is made. -/
theorem State.changeEntry_unacknowledged (e : LdgEntry) (goal : Option ChangeGoal) {s : State} (hm : s.mse ≠ []) :
    (s.changeEntry r e goal).spineHolds (.invalidate r) = true := by
  obtain ⟨m, ms, hms⟩ := List.exists_cons_of_ne_nil hm
  simp [State.changeEntry_local hr, State.spineHolds, hms, Spine.holds, Spine.send]

end

/-- While some tile still holds the message of every entry change that waits, nothing is settled (R283). -/
theorem State.settle_waiting {s : State} (h : ∀ c ∈ s.ldg.changes, s.spineHolds (.invalidate c.region) = true) : s.settle = s := by
  have hready : s.ldg.changes.filter (fun c => !s.spineHolds (.invalidate c.region)) = [] :=
    List.filter_eq_nil_iff.mpr fun c hc => by simp [h c hc]
  have hkeep : s.ldg.changes.filter (fun c => !!s.spineHolds (.invalidate c.region)) = s.ldg.changes :=
    List.filter_eq_self.mpr fun c hc => by simp [h c hc]
  unfold State.settle
  dsimp only
  rw [hready, hkeep]
  rfl

/-! ### REGION_BIND (R284, R285) -/

section
variable {s : State} {c : Call} {region count mode : Nat} (ha : s.admits c 0x0301)
include ha

theorem execRegionBind_badCount (hc : count = 0 ∨ 1024 < count) : execRegionBind c region count mode s = done (s.begin.badArg c 4) := by
  rw [execRegionBind, State.command_run ha, if_pos hc]

section
variable (hlo : 1 ≤ count) (hhi : count ≤ 1024)
include hlo hhi

theorem execRegionBind_badMode (hm : 2 < mode) : execRegionBind c region count mode s = done (s.begin.badArg c 6) := by
  rw [execRegionBind, State.command_run ha, if_neg (by omega), if_pos hm]

theorem execRegionBind_refused {st : Nat} (hm : mode ≤ 2) (hst : s.bindStatus c region count mode = some st) :
    execRegionBind c region count mode s = done (s.begin.finish c st) := by
  have hst' : s.begin.bindStatus c region count mode = some st := hst
  rw [execRegionBind, State.command_run ha, if_neg (by omega), if_neg (by omega), hst']

/-- Mode ZERO: every region is ZEROING with its fill ordered, and the command waits for them (R285). -/
theorem execRegionBind_zero (hst : s.bindStatus c region count 0 = none) {rs : List RegionId} {t : State}
    (hrs : (s.namedRegions region count).filterMap id = rs) (ht : rs.foldl (fun t r => t.bindZero c.stall (s.bindGen c.stall) r) s.begin = t) :
    execRegionBind c region count 0 s = done { t with ldg := { t.ldg with
      waits := t.ldg.waits ++ [{ call := c, status := stOk, result := [], regions := rs, items := [] }] } } := by
  have hst' : s.begin.bindStatus c region count 0 = none := hst
  subst hrs ht
  rw [execRegionBind, State.command_run ha, if_neg (by omega), if_neg (by omega), hst']
  rfl

/-- Modes NOINIT and PLAIN: the grants and the command wait for their items (R283, R285). -/
theorem execRegionBind_granted (hm : mode = 1 ∨ mode = 2) (hst : s.bindStatus c region count mode = none)
    (hf : s.ldg.flight.isSome = true) {rs : List RegionId} {e : LdgEntry} (hrs : (s.namedRegions region count).filterMap id = rs)
    (he : e = { owner := c.stall, gen := if mode = 2 then 0 else s.bindGen c.stall, state := if mode = 2 then .plain else .sealed
                floor := s.epo.epoch, sweep := false }) :
    execRegionBind c region count mode s = done { s with
      out := []
      ldg := { s.ldg with
        grants := s.ldg.grants ++ rs.map fun r => (r, e)
        items := s.ldg.items ++ rs.map fun r => DeltaItem.entry r e
        waits := s.ldg.waits ++
          [{ call := c, status := stOk, result := [], regions := [], items := rs.map fun r => DeltaItem.entry r e }] } } := by
  have hst' : s.begin.bindStatus c region count mode = none := hst
  subst hrs he
  rw [execRegionBind, State.command_run ha, if_neg (by omega), if_neg (by omega), hst']
  exact congrArg done ((if_neg (by omega)).trans (State.queueItems_inFlight _ hf))

end
end

/-- One local region bound in mode ZERO, with a record in flight: its item waits behind that record (R285, R302). -/
theorem State.bindZero_local {r : RegionId} (hr : r.pool = false) (stall gen : Nat) {s : State} (hf : s.ldg.flight.isSome = true)
    {e : LdgEntry} (he : e = { owner := stall, gen, state := .zeroing, floor := s.epo.epoch, sweep := true }) :
    s.bindZero stall gen r = { s with
      mse := s.mse.map fun m => { m with spine := m.spine.send (.invalidate r) }
      ldg := { s.ldg with localEntries := putEntry r.index e s.ldg.localEntries, items := s.ldg.items ++ [.entry r e] }
      swp := { s.swp with
        queue := s.swp.queue ++ [{ kind := .zero, region := r, stall, old := gen, new := gen, bootOld := false }] } } := by
  subst he
  rw [State.bindZero, State.changeEntry_local hr, State.queueItems_inFlight _ (by exact hf)]
  simp

/-! ### REGION_RETIRE (R286) -/

section
variable {s : State} {c : Call} {region count : Nat} (ha : s.admits c 0x0302) (hlo : 1 ≤ count) (hhi : count ≤ 1024)
include ha hlo hhi

theorem execRegionRetire_refused (hbad : (s.namedRegions region count).any (s.retireBad c c.stall) = true) :
    execRegionRetire c region count 0 s = done (s.begin.finish c stRegionState) := by
  have hbad' : (s.begin.namedRegions region count).any (s.begin.retireBad c c.stall) = true := hbad
  rw [execRegionRetire, State.command_run ha]
  simp only [if_true, if_neg (show ¬ (count = 0 ∨ 1024 < count) by omega), if_neg (show ¬ 4096 ≤ 0 by omega), hbad']

/-- The issuer's regions leave it, and the command waits for them (R286). -/
theorem execRegionRetire_retires (hok : (s.namedRegions region count).any (s.retireBad c c.stall) = false) {rs : List RegionId} {t : State}
    (hrs : (s.namedRegions region count).filterMap id = rs)
    (ht : rs.foldl (fun t r => t.retireRegion r) { s with
      out := []
      ldg := { s.ldg with
        waits := s.ldg.waits ++ [{ call := c, status := stOk, result := [], regions := rs, items := [] }] } } = t) :
    execRegionRetire c region count 0 s = done t.settle := by
  have hok' : (s.begin.namedRegions region count).any (s.begin.retireBad c c.stall) = false := hok
  subst hrs ht
  rw [execRegionRetire, State.command_run ha]
  simp only [if_true, if_neg (show ¬ (count = 0 ∨ 1024 < count) by omega), if_neg (show ¬ 4096 ≤ 0 by omega), hok', Bool.false_eq_true,
    if_false]
  rfl

end

/-- A region without sweep state in the tiles loses its orders and is RETIRING (R286). -/
theorem State.retireRegion_unswept (r : RegionId) {s : State} (hs : (s.mse.all fun m => m.sweeps.isEmpty) = true) :
    s.retireRegion r = ({ s with swp := { s.swp with
      queue := s.swp.queue.filter fun o => o.region ≠ r
      slots := s.swp.slots.filter fun p => p.2.order.region ≠ r } } : State).changeEntry r
        { s.entry r with state := .retiring, sweep := false } (some .retire) := by
  have hnone : ¬ (s.mse.any fun m => m.sweeps.any fun t => decide (t.region = r)) = true := by
    simp only [List.all_eq_true, List.isEmpty_iff] at hs
    simp +contextual [hs]
  rw [State.retireRegion]
  simp only [if_neg hnone]

/-- A region retired waits, RETIRING, for the MSEs that are to drop its entry (R283, R286). -/
theorem State.retireRegion_waits {r : RegionId} (hr : r.pool = false) {s : State} (hs : (s.mse.all fun m => m.sweeps.isEmpty) = true)
    (hm : s.mse ≠ []) (hc : s.ldg.changes = []) :
    (s.retireRegion r).settle = { s with
      mse := s.mse.map fun m => { m with spine := m.spine.send (.invalidate r) }
      ldg := { s.ldg with
        localEntries := putEntry r.index { s.entry r with state := .retiring, sweep := false } s.ldg.localEntries
        changes := [{ region := r, goal := .retire }] }
      swp := { s.swp with
        queue := s.swp.queue.filter fun o => o.region ≠ r
        slots := s.swp.slots.filter fun p => p.2.order.region ≠ r } } := by
  rw [State.retireRegion_unswept r hs, State.settle_waiting]
  · simp [State.changeEntry_local hr, hc]
  · intro x hx
    have hxr : x = { region := r, goal := .retire } := by simpa [State.changeEntry_local hr, hc] using hx
    rw [hxr]
    exact State.changeEntry_unacknowledged hr _ _ hm

/-! ### The statement -/

/-- Settles O18: each clause is its command's lemma, with what the change of one local entry leaves. -/
theorem regionBindAndRetire : Obligations.RegionBindAndRetire := by
  refine ⟨?zero, ?granted, ?refused, ?retired, fun s c region count ha hlo hhi hbad => execRegionRetire_refused ha hlo hhi hbad⟩
  case zero =>
    intro s c region r ha hst hnamed hr hf
    have hrs : (s.namedRegions region 1).filterMap id = [r] := by rw [hnamed]; rfl
    exact ⟨_, execRegionBind_zero ha le_rfl (by decide) hst hrs (State.bindZero_local (s := s.begin) hr _ _ hf rfl),
      State.entry_of_putEntry (s := s) hr (by simp) rfl, rfl, rfl, rfl, rfl⟩
  case granted =>
    intro s c region count mode ha hlo hhi hm hst hf
    exact ⟨_, execRegionBind_granted ha hlo hhi hm hst hf rfl rfl, rfl, rfl⟩
  case refused =>
    intro s c region count mode ha
    exact ⟨fun hc => execRegionBind_badCount ha hc, fun hlo hhi hm => execRegionBind_badMode ha hlo hhi hm,
      fun st hst hlo hhi hm => execRegionBind_refused ha hlo hhi hm (Option.mem_toList.mp hst)⟩
  case retired =>
    intro s c region r ha hnamed hr hok hm hch hsw
    have hrs : (s.namedRegions region 1).filterMap id = [r] := by rw [hnamed]; rfl
    have hok' : (s.namedRegions region 1).any (s.retireBad c c.stall) = false := by simp [hnamed, hok]
    refine ⟨_, (execRegionRetire_retires ha le_rfl (by decide) hok' hrs rfl).trans (congrArg done (State.retireRegion_waits hr hsw hm hch)),
      State.entry_of_putEntry (s := s) hr (by simp) rfl, rfl, rfl, rfl, rfl, rfl, rfl⟩

end Sys2Proof.Machine

/-!
The Ledger store (O38).

What an anchored record makes of its items is said once as a frame (`OnlyAnchored`): entries, sweeps and Stalls change, the epoch, the
resets, the keys and what the store is doing do not. A double-bit error is one change of a local entry, one Stall lost and one alarm.
-/

namespace Sys2Proof.Machine

/-! ### What an anchored record's items change (R283, R294, R302) -/

/-- From `s` to `t` only entries and what waits for them, sweeps, Stalls, tiles, records, alarms, events, counters and outputs differ. -/
def OnlyAnchored (s t : State) : Prop :=
  t = { s with
    ldg := { s.ldg with
      localEntries := t.ldg.localEntries, poolEntries := t.ldg.poolEntries, versions := t.ldg.versions, counter := t.ldg.counter
      changes := t.ldg.changes, grants := t.ldg.grants, waits := t.ldg.waits, store := t.ldg.store }
    swp := t.swp, stl := t.stl, mse := t.mse, hlm := t.hlm, alr := t.alr, obs := t.obs, out := t.out }

theorem OnlyAnchored.trans {s t u : State} (h : OnlyAnchored s t) (k : OnlyAnchored t u) : OnlyAnchored s u := by
  unfold OnlyAnchored at *
  rw [k, h]

theorem OnlyAnchored.foldl {α : Type} {f : State → α → State} (h : ∀ t a, OnlyAnchored t (f t a)) (l : List α) (s : State) :
    OnlyAnchored s (l.foldl f s) := by
  induction l generalizing s with
  | nil => rfl
  | cons a l ih => exact (h s a).trans (ih _)

/-- A write of a pool entry takes a counter and a version; a write of a local one the entry alone (R288, R289). -/
theorem State.changeEntry_anchored (r : RegionId) (e : LdgEntry) (goal : Option ChangeGoal) (s : State) :
    OnlyAnchored s (s.changeEntry r e goal) := by
  have hwrite : OnlyAnchored s (s.writeEntry r e) := by
    have hset : OnlyAnchored s (s.setEntry r e) := by unfold State.setEntry; split <;> rfl
    unfold State.writeEntry
    dsimp only
    split
    · exact hset.trans rfl
    · exact hset
  exact hwrite.trans rfl

theorem State.finishRegion_anchored (slot : Nat) (w : SweepSlot) (s : State) : OnlyAnchored s (s.finishRegion slot w) := by
  have hslot : OnlyAnchored s { s with swp := { s.swp with slots := assocDel slot s.swp.slots } } := rfl
  unfold State.finishRegion
  extract_lets +onlyGivenNames r e _ t keyed u more
  split
  case h_1 => exact hslot
  case h_2 =>
    have hu : OnlyAnchored s u := (hslot.trans (State.changeEntry_anchored ..)).trans rfl
    split
    · split
      · exact hu.trans rfl
      · exact hu
    · exact hu
  case h_3 => exact (hslot.trans (State.changeEntry_anchored ..)).trans rfl

theorem State.anchoredItem_anchored (i : DeltaItem) (s : State) : OnlyAnchored s (s.anchoredItem i) := by
  cases i with
  | stride k n w =>
    unfold State.anchoredItem
    dsimp only
    split
    · rfl
    · split
      · rfl
      · split
        · exact State.finishRegion_anchored ..
        · rfl
  | entry r e =>
    unfold State.anchoredItem
    dsimp only
    split
    · exact OnlyAnchored.trans (t := { s with ldg := { s.ldg with grants := s.ldg.grants.erase (r, e) } }) rfl
        (State.changeEntry_anchored ..)
    · rfl
  | epoch | digest | base => rfl

/-- Records written one after another leave the rest of the state as it was. -/
theorem State.completeAll_frame {α : Type} (f : α → Completion) (l : List α) (s : State) :
    l.foldl (fun t a => t.complete (f a)) s = { s with
      hlm := (l.foldl (fun t a => t.complete (f a)) s).hlm
      alr := (l.foldl (fun t a => t.complete (f a)) s).alr
      obs := (l.foldl (fun t a => t.complete (f a)) s).obs } := by
  induction l generalizing s with
  | nil => rfl
  | cons a l ih => rw [List.foldl_cons, ih, State.complete_frame]

/-- Commands whose last item is anchored end, and nothing else happens. -/
theorem State.completeWaits_frame (s : State) :
    s.completeWaits = { s with
      ldg := { s.ldg with waits := s.completeWaits.ldg.waits }
      hlm := s.completeWaits.hlm, alr := s.completeWaits.alr, obs := s.completeWaits.obs } := by
  unfold State.completeWaits
  dsimp only
  rw [State.completeAll_frame]

/-- The anchor after a record (R302): valid, with the current epoch, the record's SEQ and the root that takes in its bytes. -/
def State.anchorAfter (r : DeltaRecord) (s : State) : Anchor where
  valid := true
  clearedByTamper := s.ldg.anchor.clearedByTamper
  epoch := s.epo.epoch
  root := sha384 (s.ldg.anchor.root ++ s.recordBytes r)
  seq := r.seq

/-- What a record leaves before its items take effect: the anchor moved, its items in the store and waited for no more (R302). -/
def State.recordTaken (r : DeltaRecord) (s : State) : State :=
  ({ s with ldg := { s.ldg with
    flight := none
    anchor := s.anchorAfter r
    store := r.items.foldl (fun m i => m.apply i) s.ldg.store
    waits := s.ldg.waits.map fun w => { w with items := w.items.filter fun i => ¬ r.items.contains i } } } : State).bump (ctrLdg 5) 1

theorem State.anchorRecord_eq (r : DeltaRecord) (s : State) :
    s.anchorRecord r = (r.items.foldl (fun t i => t.anchoredItem i) (s.recordTaken r)).completeWaits := rfl

theorem State.anchorRecord_anchored (r : DeltaRecord) (s : State) :
    OnlyAnchored { s with ldg := { s.ldg with flight := none, anchor := s.anchorAfter r } } (s.anchorRecord r) := by
  have htaken : OnlyAnchored { s with ldg := { s.ldg with flight := none, anchor := s.anchorAfter r } } (s.recordTaken r) := rfl
  have hitems := OnlyAnchored.foldl (fun t i => State.anchoredItem_anchored i t) r.items (s.recordTaken r)
  have hwaits (t : State) : OnlyAnchored t t.completeWaits := by rw [State.completeWaits_frame]; rfl
  exact (htaken.trans hitems).trans (hwaits _)

/-- A base marker as a record's one item has nothing to apply (R303). -/
theorem State.anchorRecord_base {r : DeltaRecord} {sha : Bytes} (hr : r.items = [.base sha]) (s : State) :
    s.anchorRecord r = (s.recordTaken r).completeWaits := by
  rw [State.anchorRecord_eq, hr]
  rfl

theorem State.recordTaken_base {r : DeltaRecord} {sha : Bytes} (hr : r.items = [.base sha]) (s : State) :
    (s.recordTaken r).ldg.store = s.ldg.store := by
  simp [State.recordTaken, hr, StoreImage.apply]

/-! ### Records and base markers (R302, R303) -/

/-- The item is a base marker. -/
def DeltaItem.isBase : DeltaItem → Bool
  | .base _ => true
  | _ => false

/-- The base that was being written is what the store holds, and its digest the root (R303). -/
def State.onBase (sha : Bytes) (s : State) : State :=
  { s with ldg := { s.ldg with anchor := { s.ldg.anchor with root := sha }, store := s.ldg.baseImage.getD s.ldg.store } }

/-- With nothing ready for the store, no record is written. -/
theorem State.flushStore_empty {s : State} (h : s.ldg.items = []) : s.flushStore = s :=
  if_pos (.inr (.inr (by rw [h]; rfl)))

/-- In the quiet state the anchor stays where it is (R530). -/
theorem execDeltaRecordAck_quiet {s : State} (hq : s.alr.quiet = true) : execDeltaRecordAck s = done s.begin := by
  unfold execDeltaRecordAck
  dsimp only
  split
  · rfl
  · exact congrArg done (if_pos (by simp [hq]))

section
variable {s : State} {r : DeltaRecord} (hf : s.ldg.flight = some r) (hq : s.alr.quiet = false) (hi : s.ldg.items = [])
include hf hq hi

/-- A record without base marker is anchored; below 131,072 records no base is begun, and nothing waits for the next record. -/
theorem execDeltaRecordAck_anchors {t : State} (hb : r.items.any DeltaItem.isBase = false) (hn : s.ldg.sinceBase + 1 < 131072)
    (ht : s.begin.anchorRecord r = t) :
    execDeltaRecordAck s = done { t with ldg := { t.ldg with sinceBase := t.ldg.sinceBase + 1 } } := by
  have hkeep := State.anchorRecord_anchored r s.begin
  rw [ht] at hkeep
  have hsince : t.ldg.sinceBase = s.ldg.sinceBase := (congrArg (·.ldg.sinceBase) hkeep :)
  have hitems : t.ldg.items = [] := (congrArg (·.ldg.items) hkeep :).trans hi
  have hgo : ¬ (s.alr.quiet || r.items.any DeltaItem.isBase) = true := by simp [hq, hb]
  have hfew : ¬ (131072 ≤ t.ldg.sinceBase + 1 ∧ ¬ t.ldg.baseBusy = true) := by omega
  unfold execDeltaRecordAck
  dsimp only
  rw [State.begin_ldg, hf]
  refine congrArg done ((if_neg hgo).trans ?_)
  rw [ht]
  exact (congrArg State.flushStore (if_neg hfew)).trans (State.flushStore_empty hitems)

/-- A base marker makes the base the newest one: the root restarts from its digest, and the counts of records with it (R303). -/
theorem execBaseMarkerAck_base {sha : Bytes} {t : State} (hr : r.items = [.base sha]) (ht : (s.begin.onBase sha).anchorRecord r = t) :
    execBaseMarkerAck s = done (({ t with
      ldg := { t.ldg with sinceBase := 0, baseSlotB := !t.ldg.baseSlotB, baseBusy := false, baseImage := none, restoring := false }
      ald := { t.ald with restored := t.ald.restored || t.ldg.restoring } } : State).bump (ctrLdg 6) 1) := by
  subst ht
  have hkeep := State.anchorRecord_anchored r (s.begin.onBase sha)
  have hitems : ((s.begin.onBase sha).anchorRecord r).ldg.items = [] := (congrArg (·.ldg.items) hkeep :).trans hi
  have hgo : ¬ s.alr.quiet = true := by simp [hq]
  unfold execBaseMarkerAck
  dsimp only
  split
  · next hnone => cases hnone.symm.trans hf
  · next r' hr' =>
    cases hr'.symm.trans hf
    refine congrArg done ((if_neg hgo).trans ?_)
    rw [hr]
    exact State.flushStore_empty hitems

end

/-! ### A Stall lost (R332, R407, R408) -/

/-- From `s` to `t` only Stalls, windows, tiles, work in progress, records, alarms and counters differ. -/
def OnlyLost (s t : State) : Prop :=
  t = { s with
    stl := t.stl, rwt := t.rwt, mse := t.mse, lse := t.lse, hse := t.hse, hlm := t.hlm, alr := t.alr, obs := t.obs, mrk := t.mrk
    bth := t.bth, tol := t.tol, sbx := { s.sbx with entropyWaits := t.sbx.entropyWaits } }

theorem OnlyLost.trans {s t u : State} (h : OnlyLost s t) (k : OnlyLost t u) : OnlyLost s u := by
  unfold OnlyLost at *
  rw [k, h]

/-- Commands that end with their Stall leave records, and neither a Stall nor a tile changes (R407). -/
theorem State.failCommands_keeps (id : Nat) (s : State) :
    OnlyLost s (s.failCommands id) ∧ (s.failCommands id).stl = s.stl ∧ (s.failCommands id).mse = s.mse := by
  have hends (qs : List Queued) (t : State) : qs.foldl (fun t q => t.finish q.call stStallLost) t = _ :=
    State.completeAll_frame (fun q : Queued => q.call.record stStallLost) qs t
  unfold State.failCommands
  dsimp only
  rw [hends]
  exact ⟨rfl, rfl, rfl⟩

/-- A Stall of the table that is neither LOST nor REMOVING becomes LOST, and every MSE is told (R394, R408). -/
theorem State.loseStall_listed {id : Nat} (cause : Nat) {x : Stall} {s t : State} (hx : s.stall? id = some x) (hl : x.state ≠ .lost)
    (hr : x.state ≠ .removing) (ht : s.loseStall id cause = t) :
    t.stall? id = some { x with state := .lost, lostCause := cause } ∧
      ∃ b, t.mse = s.mse.map fun m => { m with spine := m.spine.send (.refusal id b) } := by
  have hgo : ¬ (x.state = .lost ∨ x.state = .removing) := by simp [hl, hr]
  simp only [State.loseStall, hx, if_neg hgo] at ht
  generalize hu : State.sendRefusal .. = u at ht
  obtain ⟨-, hstl, hmse⟩ := State.failCommands_keeps id u
  subst ht hu
  exact ⟨(congrArg (fun l : Stl => assocGet id l.table) hstl).trans ((assocGet_assocSet ..).trans (if_pos rfl)), _, hmse⟩

theorem State.loseStall_lost (id cause : Nat) (s : State) : OnlyLost s (s.loseStall id cause) := by
  unfold State.loseStall
  split
  · rfl
  · split
    · rfl
    · refine OnlyLost.trans ?_ (State.failCommands_keeps ..).1
      rfl

/-! ### A double-bit error (R306) -/

/-- The entry as the store holds it, FREE where it lists none. -/
def State.stored (r : RegionId) (s : State) : LdgEntry :=
  (assocGet r.index (if r.pool then s.ldg.store.poolEntries else s.ldg.store.localEntries)).getD LdgEntry.freeEntry

/-- The quarantine of a region: its entry changed, the error counted, its orders dropped. -/
def State.quarantined (r : RegionId) (s : State) : State :=
  let t := s.changeEntry r { s.stored r with state := .quarantined, sweep := false } (some .anchor)
  { t with
    ldg := { t.ldg with dedCount := satAdd 65535 t.ldg.dedCount 1 }
    swp := { t.swp with queue := t.swp.queue.filter fun o => o.region ≠ r } }

/-- A double-bit error is the quarantine, the loss of an owner other than Stall 0, and an alarm charged to no Stall. -/
theorem State.dedRegion_eq (r : RegionId) (s : State) :
    s.dedRegion r = ((if (s.stored r).owner = 0 then s.quarantined r
      else (s.quarantined r).loseStall (s.stored r).owner 2).bump (ctrLdg 2) 1).alarmIntegrity unitLedger
        (if (s.stored r).owner = 0 then none else some (s.stored r).owner) none 3 (r.index % 2 ^ 20 + bit r.pool * 2 ^ 20) := rfl

/-- What follows the quarantine: the owner lost and the alarm. -/
theorem State.dedRegion_lost (r : RegionId) (s : State) : OnlyLost (s.quarantined r) (s.dedRegion r) := by
  have halarm (unit : Nat) (who : Option Nat) (cause word : Nat) (t : State) :
      OnlyLost t ((t.bump (ctrLdg 2) 1).alarmIntegrity unit who none cause word) := by rw [State.alarmIntegrity_uncharged]; rfl
  rw [State.dedRegion_eq]
  split
  · exact halarm ..
  · exact (State.loseStall_lost ..).trans (halarm ..)

theorem State.dedRegion_ldg (r : RegionId) (s : State) : (s.dedRegion r).ldg = (s.quarantined r).ldg :=
  (congrArg State.ldg (s.dedRegion_lost r) :)

/-- The quarantine itself is an entry change and a count. -/
theorem State.quarantined_anchored (r : RegionId) (s : State) :
    OnlyAnchored { s with ldg := { s.ldg with dedCount := satAdd 65535 s.ldg.dedCount 1 } } (s.quarantined r) := by
  have hchange := s.changeEntry_anchored r { s.stored r with state := .quarantined, sweep := false } (some .anchor)
  unfold State.quarantined
  dsimp only
  rw [hchange]
  rfl

/-- The error is counted; the epoch, the resets, the keys in slots and the anchor stay. -/
theorem State.dedRegion_keeps (r : RegionId) (s : State) :
    (s.dedRegion r).ldg.dedCount = satAdd 65535 s.ldg.dedCount 1 ∧ (s.dedRegion r).epo = s.epo ∧ (s.dedRegion r).rst = s.rst ∧
      (s.dedRegion r).sbx.slots = s.sbx.slots ∧ (s.dedRegion r).ldg.anchor = s.ldg.anchor := by
  have hlost := s.dedRegion_lost r
  have hquar := s.quarantined_anchored r
  exact ⟨(congrArg (·.ldg.dedCount) hlost :).trans (congrArg (·.ldg.dedCount) hquar :),
    (congrArg State.epo hlost :).trans (congrArg State.epo hquar :), (congrArg State.rst hlost :).trans (congrArg State.rst hquar :),
    (congrArg (·.sbx.slots) hlost :).trans (congrArg (·.sbx.slots) hquar :),
    (congrArg (·.ldg.anchor) hlost :).trans (congrArg (·.ldg.anchor) hquar :)⟩

theorem State.dedRegion_cht (r : RegionId) (s : State) : (s.dedRegion r).cht = s.cht :=
  (congrArg State.cht (s.dedRegion_lost r) :).trans (congrArg State.cht (s.quarantined_anchored r) :)

/-- A local region is QUARANTINED with the owner the store records, and no other local entry changes. -/
theorem State.dedRegion_local (i j : Nat) (s : State) :
    (s.dedRegion ⟨false, i⟩).entry ⟨false, j⟩ =
      if i = j then { s.stored ⟨false, i⟩ with state := .quarantined, sweep := false } else s.entry ⟨false, j⟩ := by
  rw [State.entry_local rfl, State.entry_local rfl, State.dedRegion_ldg, State.quarantined, State.changeEntry_local rfl]
  dsimp only
  rw [assocGet_putEntry (by simp)]
  split <;> rfl

/-- Regions quarantined one after another: each of them is QUARANTINED at the end, and so is one that was before. -/
theorem State.dedRegions_quarantined {j : Nat} (is : List Nat) (s : State) (h : j ∈ is ∨ (s.entry ⟨false, j⟩).state = .quarantined) :
    ((is.foldl (fun u i => u.dedRegion ⟨false, i⟩) s).entry ⟨false, j⟩).state = .quarantined := by
  induction is generalizing s with
  | nil => simpa using h
  | cons i is ih =>
    refine ih _ ?_
    rw [State.dedRegion_local]
    by_cases hij : i = j
    · exact .inr (by rw [if_pos hij])
    · rw [if_neg hij]
      exact h.imp_left fun hj => (List.mem_cons.mp hj).resolve_left fun hji => hij hji.symm

/-- No quarantine touches the row repairs. -/
theorem State.dedRegions_keeps (is : List Nat) (s : State) :
    (is.foldl (fun u i => u.dedRegion ⟨false, i⟩) s).ldg.rowsExhausted = s.ldg.rowsExhausted ∧
      (is.foldl (fun u i => u.dedRegion ⟨false, i⟩) s).cht = s.cht := by
  induction is generalizing s with
  | nil => exact ⟨rfl, rfl⟩
  | cons i is ih =>
    obtain ⟨hrows, hcht⟩ := ih (s.dedRegion ⟨false, i⟩)
    exact ⟨hrows.trans (congrArg (·.rowsExhausted) (State.dedRegion_ldg ..)), hcht.trans (State.dedRegion_cht ..)⟩

/-- The owner in the store, a Stall not yet LOST, is LOST with cause LEDGER, and every MSE holds the message that drops the region's
entry (R283, R306, R408). -/
theorem State.dedRegion_owner {i : Nat} {e : LdgEntry} {x : Stall} {s : State} (he : s.stored ⟨false, i⟩ = e) (ho : e.owner ≠ 0)
    (hx : s.stall? e.owner = some x) (hl : x.state ≠ .lost) (hr : x.state ≠ .removing) {t : State} (ht : s.dedRegion ⟨false, i⟩ = t) :
    t.stall? e.owner = some { x with state := .lost, lostCause := 2 } ∧
      t.mse.all (fun m => m.spine.queue.contains (.invalidate ⟨false, i⟩)) = true ∧ t.alr.integrity = true ∧ t.hlm.irqAlarm = true := by
  have hchange := State.changeEntry_local (r := ⟨false, i⟩) rfl { s.stored ⟨false, i⟩ with state := .quarantined, sweep := false }
    (some .anchor) s
  have hmse : (s.quarantined ⟨false, i⟩).mse = s.mse.map fun m => { m with spine := m.spine.send (.invalidate ⟨false, i⟩) } :=
    (congrArg State.mse hchange :)
  have hx' : (s.quarantined ⟨false, i⟩).stall? e.owner = some x := (congrArg (·.stall? e.owner) hchange :).trans hx
  obtain ⟨hstall, b, htold⟩ := State.loseStall_listed 2 hx' hl hr rfl
  rw [State.dedRegion_eq, he, if_neg ho, if_neg ho, State.alarmIntegrity_uncharged] at ht
  subst ht
  refine ⟨hstall, ?_, rfl, rfl⟩
  refine (congrArg (fun l : List Mse => l.all fun m => m.spine.queue.contains (.invalidate ⟨false, i⟩)) htold).trans ?_
  simp [hmse, Spine.send]

/-! ### LEDGER_DED and the Sounding of a row (R306, R307) -/

/-- The Sounding of a row is owed once it is in the list of rows under test. -/
def State.rowOwed (row : Nat) (s : State) : State :=
  if s.ldg.rowTests.contains row then s else { s with ldg := { s.ldg with rowTests := s.ldg.rowTests ++ [row] } }

theorem execLedgerDed_local (index : Nat) (s : State) :
    execLedgerDed false index s = done ((s.begin.dedRegion ⟨false, index⟩).rowOwed (index / 8)) := by
  simp [execLedgerDed, State.rowOwed]

theorem State.rowOwed_frame (row : Nat) (s : State) :
    s.rowOwed row = { s with ldg := { s.ldg with rowTests := (s.rowOwed row).ldg.rowTests } } := by
  unfold State.rowOwed
  split <;> rfl

theorem State.rowOwed_owes (row : Nat) (s : State) : (s.rowOwed row).ldg.rowTests.contains row = true := by
  unfold State.rowOwed
  split
  · assumption
  · simp

theorem execLedgerRowSoundingDone_idle {s : State} {row : Nat} (pass : Bool) (h : s.ldg.rowTests.contains row = false) :
    execLedgerRowSoundingDone row pass s = done s.begin :=
  if_pos (by rw [State.begin_ldg, h]; exact Bool.false_ne_true)

/-- A row whose test is over. -/
def State.rowTested (row : Nat) (s : State) : State :=
  { s.begin with ldg := { s.ldg with rowTests := s.ldg.rowTests.filter (· ≠ row) } }

/-- What the Sounding of a row leaves, by its class: its count and its event (R532, R542). -/
theorem State.rowTested_sounding (row cls : Nat) (s : State) :
    (s.rowTested row).sounding unitLedger 1 cls = { s with
      out := []
      ldg := { s.ldg with rowTests := s.ldg.rowTests.filter (· ≠ row) }
      hlm := (s.event evSounding unitLedger none 1 cls).hlm
      alr := { s.alr with soundRow := satAdd 63 s.alr.soundRow 1 }
      obs := s.obs.bump (ctrRcu 6) 1 } := rfl

section
variable {s : State} {row : Nat} (h : s.ldg.rowTests.contains row = true)
include h

theorem execLedgerRowSoundingDone_pass :
    execLedgerRowSoundingDone row true s = done ((s.rowTested row).sounding unitLedger 1 2) :=
  if_neg (not_not_intro h)

theorem execLedgerRowSoundingDone_spare (hn : s.cht.rows.length < 64) :
    execLedgerRowSoundingDone row false s = done (({ (s.rowTested row).sounding unitLedger 1 1 with
      cht := { s.cht with rows := s.cht.rows ++ [row] }
      ald := { s.ald with repairDue := s.ald.repairDue.orElse fun _ => some s.clk.elapsed } } : State).event evLdgRowRepair unitLedger none
        row 1) :=
  (if_neg (not_not_intro h)).trans (if_pos hn)

/-- With every spare in use the row's eight regions are quarantined. -/
theorem execLedgerRowSoundingDone_exhausted (hn : 64 ≤ s.cht.rows.length) {t : State}
    (ht : (s.rowTested row).sounding unitLedger 1 1 = t) :
    execLedgerRowSoundingDone row false s = done (((List.range 8).map fun j => 8 * row + j).foldl
      (fun u i => u.dedRegion ⟨false, i⟩) { t with ldg := { t.ldg with rowsExhausted := true } }) := by
  subst ht
  exact (if_neg (not_not_intro h)).trans (if_neg (Nat.not_lt.mpr hn))

end

/-! ### The statement -/

/-- Settles O38: a record by what its items change, an error by its quarantine and the Stall it loses, a row by what its test leaves. -/
theorem ledgerStore : Obligations.LedgerStore := by
  refine ⟨?record, fun s hq => execDeltaRecordAck_quiet hq, ?base, ?ded, fun s row pass h => execLedgerRowSoundingDone_idle pass h, ?pass,
    ?spare, ?exhausted⟩
  case record =>
    intro s r hf hq hb hi hn
    have hexec := execDeltaRecordAck_anchors hf hq hi hb hn rfl
    have hkeep := State.anchorRecord_anchored r s.begin
    generalize s.begin.anchorRecord r = u at *
    exact ⟨_, hexec, (congrArg (·.ldg.anchor) hkeep :), (congrArg (·.ldg.flight) hkeep :),
      congrArg (· + 1) (congrArg (·.ldg.sinceBase) hkeep :), (congrArg State.epo hkeep :), (congrArg State.rst hkeep :),
      (congrArg (·.sbx.slots) hkeep :)⟩
  case base =>
    intro s r sha hf hq hr hi
    have hexec := execBaseMarkerAck_base hf hq hi hr rfl
    have hkeep : (s.begin.onBase sha).anchorRecord r = _ := (State.anchorRecord_base hr _).trans (State.completeWaits_frame _)
    have hstore := State.recordTaken_base hr (s.begin.onBase sha)
    exact ⟨_, hexec, (congrArg (·.ldg.anchor) hkeep :), (congrArg (·.ldg.flight) hkeep :), rfl, (congrArg (!·.ldg.baseSlotB) hkeep :), rfl,
      rfl, (congrArg (fun t : State => t.ald.restored || t.ldg.restoring) hkeep :), (congrArg (·.ldg.store) hkeep :).trans hstore,
      (congrArg State.epo hkeep :), (congrArg State.sbx hkeep :), (congrArg State.mse hkeep :)⟩
  case ded =>
    intro s index e x he ho hx hl hr
    have hstored : s.begin.stored ⟨false, index⟩ = e := by simp [State.stored, he]
    have hentry := State.dedRegion_local index index s.begin
    rw [if_pos rfl, hstored] at hentry
    obtain ⟨hstall, hmse, hintegrity, hirq⟩ := State.dedRegion_owner hstored ho hx hl hr rfl
    have hexec : exec (.ledgerDed false index) s = _ := execLedgerDed_local index s
    have hkept := State.dedRegion_keeps ⟨false, index⟩ s.begin
    generalize s.begin.dedRegion ⟨false, index⟩ = t at *
    have hrow := State.rowOwed_frame (index / 8) t
    have howed := State.rowOwed_owes (index / 8) t
    exact ⟨_, hexec.trans (congrArg done hrow), hentry, hmse, hstall, hintegrity, hirq, howed, hkept⟩
  case pass =>
    intro s row h
    exact ⟨_, execLedgerRowSoundingDone_pass h, rfl, rfl, rfl, rfl⟩
  case spare =>
    intro s row h hn
    have hexec : exec (.ledgerRowSoundingDone row false) s = _ := execLedgerRowSoundingDone_spare h hn
    rw [State.rowTested_sounding] at hexec
    exact ⟨_, hexec, rfl, rfl, rfl, rfl⟩
  case exhausted =>
    intro s row h hn
    refine ⟨_, execLedgerRowSoundingDone_exhausted h hn rfl, (State.dedRegions_keeps ..).1, (State.dedRegions_keeps ..).2, ?_⟩
    refine List.all_eq_true.mpr fun j hj => decide_eq_true (State.dedRegions_quarantined _ _ (.inl ?_))
    exact List.mem_map_of_mem hj

end Sys2Proof.Machine

/-!
Transmission over a link (O39).

What a command of an LSE leaves of the block (`State.onlyLse`) is composed step by step; a unit that the LSE carries is sealed into its
transmit buffer, and a link whose keys are below generation 255 is not renewed.
-/

namespace Sys2Proof.Machine

/-! ### What a link's commands leave -/

theorem State.onlyLse_trans {l : Nat} {s t u : State} (h : s.onlyLse l t) (k : t.onlyLse l u) : s.onlyLse l u := by
  obtain ⟨hlen, hne, hmse, hhse, hldg, hepo, hstl, hrst, hdom, htiles⟩ := h
  obtain ⟨klen, kne, kmse, khse, kldg, kepo, kstl, krst, kdom, ktiles⟩ := k
  exact ⟨klen.trans hlen, fun i hi hil => (kne i (hlen ▸ hi) hil).trans (hne i hi hil), kmse.trans hmse, khse.trans hhse, kldg.trans hldg,
    kepo.trans hepo, kstl.trans (by rw [hstl]), krst.trans hrst, kdom.trans hdom, ktiles.trans htiles⟩

theorem State.onlyLse_refl (l : Nat) (s : State) : s.onlyLse l s := ⟨rfl, fun _ _ _ => rfl, rfl, rfl, rfl, rfl, rfl, rfl, rfl, rfl⟩

theorem State.modLse_onlyLse (l : Nat) (f : Lse → Lse) (s : State) : s.onlyLse l (s.modLse l f) :=
  ⟨length_listSet .., fun _ _ hi => getElem?_listSet_ne _ _ hi, rfl, rfl, rfl, rfl, rfl, rfl, rfl, rfl⟩

/-- Two updates of an LSE are one. -/
theorem State.modLse_modLse (l : Nat) (f g : Lse → Lse) (s : State) : (s.modLse l f).modLse l g = s.modLse l (g ∘ f) :=
  congrArg (fun x => { s with lse := x }) (listSet_listSet f g s.lse l)

theorem State.modLse_lse_self {l : Nat} {s : State} {e : Lse} (f : Lse → Lse) (hl : s.lse[l]? = some e) :
    (s.modLse l f).lse[l]? = some (f e) :=
  getElem?_listSet_self f hl

/-- What a command of an LSE answers where it finds its LSE. -/
theorem onLse_some {l : Nat} {s : State} {e : Lse} (hl : s.lse[l]? = some e) (f : Lse → State → State) : onLse l s f = done (f e s.begin) := by
  simp [onLse, hl]

/-! ### Key slots leave the tiles' copies -/

theorem State.evict_tiles (n : Nat) (s : State) : (s.evict n).sbx.tiles = s.sbx.tiles := by
  unfold State.evict
  split
  · rfl
  · exact congrArg (·.sbx.tiles) (State.modStallData_frame _ _ s)

theorem State.placeKey_getD_tiles (k : KeySlot) (s : State) : ((s.placeKey k).getD s).sbx.tiles = s.sbx.tiles := by
  unfold State.placeKey
  split
  · rfl
  · cases s.sbx.victim with
    | none => rfl
    | some n => exact s.evict_tiles n

theorem State.pinLink_tiles (h : Nat) (want : Option (Nat × Bytes)) (s : State) : (s.pinLink h want).sbx.tiles = s.sbx.tiles := by
  unfold State.pinLink
  dsimp only
  split
  · rfl
  · split
    · rfl
    · exact State.placeKey_getD_tiles ..
  · rfl
  · exact State.placeKey_getD_tiles ..

theorem State.syncLink_tiles (i : Nat) (s : State) : (s.syncLink i).sbx.tiles = s.sbx.tiles := by
  unfold State.syncLink
  split
  · rfl
  · simp only [State.pinLink_tiles]

theorem State.syncLink_onlyLse (l i : Nat) (s : State) : s.onlyLse l (s.syncLink i) := by
  have htiles := s.syncLink_tiles i
  have hslots := s.syncLink_slots i
  generalize s.syncLink i = t at htiles hslots
  unfold OnlySlots at hslots
  rw [hslots]
  exact ⟨rfl, fun _ _ _ => rfl, rfl, rfl, rfl, rfl, rfl, rfl, rfl, htiles⟩

/-! ### Units -/

theorem State.meter_onlyLse (l cls stall n : Nat) (s : State) : s.onlyLse l (s.meter cls stall n) := by
  rw [State.meter_frame]
  exact s.onlyLse_refl l

theorem State.sendUnit_onlyLse (l : Nat) (u : UnitSpec) (s : State) : s.onlyLse l (s.sendUnit l u) := by
  unfold State.sendUnit
  split
  · exact s.onlyLse_refl l
  · extract_lets _ _ _ _ _ _ _ sent counted metered control
    split
    · exact s.modLse_onlyLse l _
    have hsent : s.onlyLse l sent := State.onlyLse_trans (s.modLse_onlyLse l _) (State.syncLink_onlyLse ..)
    have hcounted : s.onlyLse l counted := by
      unfold counted
      split <;> exact hsent
    have hmetered : s.onlyLse l metered := by
      unfold metered
      split
      · exact State.onlyLse_trans hcounted (State.meter_onlyLse ..)
      · exact hcounted
    have hcontrol : s.onlyLse l control := by
      unfold control
      split <;> exact hmetered
    split <;> exact hcontrol

/-- An LSE that carries a unit takes it into its transmit buffer; windows, grants and outputs stay. -/
theorem State.sendUnit_sealed {l : Nat} {u : UnitSpec} {s t : State} {e : Lse} (hk : s.onlyLse l t) (hl : t.lse[l]? = some e)
    (hc : e.carries u) :
    (t.sendUnit l u).out = t.out ∧ (t.sendUnit l u).granted = t.granted ∧ (t.sendUnit l u).lse[l]? = some (e.sent t.dom.chip l u) ∧
      (t.sendUnit l u).rwt = t.rwt ∧ s.onlyLse l (t.sendUnit l u) := by
  have hs := t.sendUnit_sent l u
  exact ⟨(congrArg State.out hs :), (congrArg State.granted hs :), State.sendUnit_carried hl hc, (congrArg State.rwt hs :),
    State.onlyLse_trans hk (t.sendUnit_onlyLse l u)⟩

/-- An LSE changed that carries a unit then, and the unit sent. -/
theorem State.modLse_sendUnit {l : Nat} {f : Lse → Lse} {u : UnitSpec} {s : State} {e : Lse} (hl : s.lse[l]? = some e)
    (hc : (f e).carries u) :
    ((s.begin.modLse l f).sendUnit l u).out = [] ∧ ((s.begin.modLse l f).sendUnit l u).lse[l]? = some ((f e).sent s.dom.chip l u) ∧
      ((s.begin.modLse l f).sendUnit l u).rwt = s.rwt ∧ s.onlyLse l ((s.begin.modLse l f).sendUnit l u) := by
  obtain ⟨hout, -, hlse, hrwt, honly⟩ := State.sendUnit_sealed (t := s.begin.modLse l f) (s.modLse_onlyLse l f)
    (State.modLse_lse_self (s := s.begin) f hl) hc
  exact ⟨hout, hlse, hrwt, honly⟩

/-- Below generation 255 a link keeps its establishment (R325). -/
theorem State.renewLink_early {l : Nat} {s : State} {e : Lse} (hl : s.lse[l]? = some e) (htx : e.tx.kgen < 255) (hrx : e.rx.kgen < 255) :
    s.renewLink l = s := by
  simp [State.renewLink, hl, htx.ne, hrx.ne]

/-- With no revocation owed, none is acknowledged. -/
theorem State.ackRevokes_none {l : Nat} {s : State} {e : Lse} (hl : s.lse[l]? = some e) (hr : e.revokes = []) : s.ackRevokes l = s := by
  have hlse : (listSet s.lse l fun x => { x with revokes := x.revokes.filter fun w => e.out.any fun o => decide (o.window = w) }) = s.lse :=
    (listSet_congr hl (by rw [hr, List.filter_nil, ← hr]; rfl)).trans (listSet_id s.lse l)
  simp [State.ackRevokes, hl, hr, State.modLse, hlse]

/-! ### Requests of the host side (R328) -/

/-- The LSE with one request more refused. -/
def Lse.refuses (e : Lse) : Lse := { e with refusedCount := satAdd 65535 e.refusedCount 1 }

theorem State.lseRefuse_eq (l : Nat) (e : Lse) (o : OutReq) (s : State) :
    ∃ obs, s.lseRefuse l e o = { s with out := s.out ++ [answerOut l e.peerChip .refused o], lse := listSet s.lse l Lse.refuses, obs := obs } :=
  ⟨_, rfl⟩

/-- A request fails a check of R328 that comes before the window. -/
abbrev State.linkRefuses (s : State) (e : Lse) (kind stall dst addr id nbytes : Nat) : Prop :=
  e.out.any (fun x => x.id = id) = true ∨ (e.usable = false ∨ s.ald.full = false) ∨ dst ≠ e.peerChip ∨
    (linkSizeOk kind addr nbytes = false ∨ 2 ^ 44 ≤ addr) ∨ e.spine.refused.contains stall = true ∨ s.refusesStall stall = true

theorem State.quietOpen_of_lseReady {s : State} {l n : Nat} {e : Lse} {request : Bool} (h : s.lseReady l e request n = true) :
    s.quietOpen = false := by
  simp only [State.lseReady, Bool.and_eq_true] at h
  exact State.quietOpen_of_dataOpen h.1.1.1.1

section
variable {s : State} {l kind stall dst tc addr id nbytes : Nat} {e : Lse} (data : Bytes) (hl : s.lse[l]? = some e)
include hl

theorem execLseTxRequest_quiet (hq : s.quietOpen = true) :
    execLseTxRequest l kind stall dst tc addr id nbytes data s = done ((s.begin.emit
      (answerOut l e.peerChip .poison { id, kind, stall, nbytes, window := 0, tc, sentAt := none })).bumpStall stall 6 1) := by
  rw [execLseTxRequest, onLse_some hl]
  exact congrArg done (if_pos hq)

section
variable (hready : s.lseReady l e true nbytes = true) (hkind : kind < 4) (htc : tc < 4)
include hready hkind htc

/-- A request taken whole is refused where a check fails, before the window or at it, and sealed otherwise. -/
theorem execLseTxRequest_taken {o : OutReq} (ho : o = { id, kind, stall, nbytes, window := 0, tc, sentAt := none }) :
    execLseTxRequest l kind stall dst tc addr id nbytes data s = done (
      if s.linkRefuses e kind stall dst addr id nbytes then s.begin.lseRefuse l e o
      else match s.windowFor stall dst kind addr nbytes with
        | none => if e.windowRaised then s.begin.lseRefuse l e o
          else ((s.begin.lseRefuse l e o).modLse l fun x => { x with windowRaised := true }).event evLseWindow (unitLse l) (some stall) l
            (satAdd 65535 e.refusedCount 1)
        | some (k, w) => (s.begin.modLse l fun x => { x with out := x.out ++ [{ o with window := k }] }).sendUnit l
            { kind, sub := 0, tstall := w.tstall, id, nbytes, addr, tc, data := if kind = 0 then [] else (padTo nbytes data).take nbytes
              stall := some stall, outId := some id }) := by
  have hq : s.begin.quietOpen = false := State.quietOpen_of_lseReady hready
  have hready' : s.begin.lseReady l e true nbytes = true := hready
  have hkind' : ¬ 4 ≤ kind := by omega
  have htc' : ¬ 4 ≤ tc := by omega
  subst ho
  rw [execLseTxRequest, onLse_some hl]
  simp only [hq, hready', hkind', htc', Bool.false_eq_true, not_true_eq_false, or_self, if_false, State.linkRefuses, ite_or,
    Bool.not_eq_true]
  rfl

theorem execLseTxRequest_sealed {k : Nat} {w : Window} {u : UnitSpec} (hok : ¬ s.linkRefuses e kind stall dst addr id nbytes)
    (hw : s.windowFor stall dst kind addr nbytes = some (k, w))
    (hu : u = ⟨kind, 0, w.tstall, id, nbytes, addr, tc, if kind = 0 then [] else (padTo nbytes data).take nbytes, some stall, some id⟩) :
    execLseTxRequest l kind stall dst tc addr id nbytes data s = done ((s.begin.modLse l fun x => { x with
      out := x.out ++ [{ id, kind, stall, nbytes, window := k, tc, sentAt := none }] }).sendUnit l u) := by
  rw [execLseTxRequest_taken data hl hready hkind htc rfl, if_neg hok, hw, hu]

/-- Where a check fails, the request is answered REFUSED and counted; EV_LSE_WINDOW may be raised beside. -/
theorem execLseTxRequest_refused {o : OutReq} (ho : o = { id, kind, stall, nbytes, window := 0, tc, sentAt := none })
    (hno : s.linkRefuses e kind stall dst addr id nbytes ∨ s.windowFor stall dst kind addr nbytes = none) :
    ∃ t, execLseTxRequest l kind stall dst tc addr id nbytes data s = .next t ∧ t.out = [answerOut l e.peerChip .refused o] ∧
      (∃ raised, t.lse[l]? = some { e with refusedCount := satAdd 65535 e.refusedCount 1, windowRaised := raised }) ∧
      t.rwt = s.rwt ∧ s.onlyLse l t := by
  refine ⟨_, execLseTxRequest_taken data hl hready hkind htc ho, ?_⟩
  obtain ⟨obs, hrefuse⟩ := s.begin.lseRefuse_eq l e o
  have hl' : (s.begin.lseRefuse l e o).lse[l]? = some (Lse.refuses e) := by
    rw [hrefuse]
    exact getElem?_listSet_self Lse.refuses hl
  have honly : s.onlyLse l (s.begin.lseRefuse l e o) := by
    rw [hrefuse]
    exact s.modLse_onlyLse l _
  have hrwt : (s.begin.lseRefuse l e o).rwt = s.rwt := by rw [hrefuse]; rfl
  have hout : (s.begin.lseRefuse l e o).out = [answerOut l e.peerChip .refused o] := by rw [hrefuse]; rfl
  generalize s.begin.lseRefuse l e o = t at hl' honly hrwt hout
  split
  · exact ⟨hout, ⟨_, hl'⟩, hrwt, honly⟩
  next hok =>
    rw [hno.resolve_left hok]
    dsimp only
    split
    · exact ⟨hout, ⟨_, hl'⟩, hrwt, honly⟩
    · exact ⟨hout, ⟨true, State.modLse_lse_self _ hl'⟩, hrwt, State.onlyLse_trans honly (State.modLse_onlyLse ..)⟩

end
end

/-! ### Responses of the host side (R329) -/

section
variable {s : State} {l kind id st : Nat} {data : Bytes} {e : Lse} (hl : s.lse[l]? = some e)
  (hready : s.lseReady l e false data.length = true)
include hl hready

theorem execLseHostResponse_matched {r : InReq} {u : UnitSpec} (hr : e.inbound.find? (fun r => r.id = id ∧ respKind r.kind = kind) = some r)
    (hu : u = ⟨kind, st % 4, 0, id, if kind < 6 then r.nbytes else 0, 0, r.tc,
      if kind < 6 ∧ st % 4 = 0 then (padTo r.nbytes data).take r.nbytes else [], none, none⟩) :
    execLseHostResponse l kind id st data s =
      done ((s.begin.modLse l fun x => { x with inbound := x.inbound.eraseP (· = r) }).sendUnit l u) := by
  have hq : s.begin.quietOpen = false := State.quietOpen_of_lseReady hready
  have hready' : s.begin.lseReady l e false data.length = true := hready
  rw [execLseHostResponse, onLse_some hl]
  simp only [hq, hready', hr, hu, Bool.false_eq_true, not_true_eq_false, or_self, if_false]

theorem execLseHostResponse_orphan (hr : e.inbound.find? (fun r => r.id = id ∧ respKind r.kind = kind) = none) :
    execLseHostResponse l kind id st data s = done (s.begin.modLse l fun x => { x with orphanCount := satAdd 255 x.orphanCount 1 }) := by
  have hq : s.begin.quietOpen = false := State.quietOpen_of_lseReady hready
  have hready' : s.begin.lseReady l e false data.length = true := hready
  rw [execLseHostResponse, onLse_some hl]
  simp only [hq, hready', hr, Bool.false_eq_true, not_true_eq_false, or_self, if_false]

end

/-! ### Units leave (R70, R330) -/

/-- The request whose unit leaves now starts its T_DEAD. -/
def OutReq.leaves (id : Option Nat) (now : Nat) (o : OutReq) : OutReq :=
  if some o.id = id ∧ o.sentAt.isNone then { o with sentAt := some now } else o

/-- The LSE whose first unit has left. -/
def Lse.unitLeft (now : Nat) (u : TxUnit) (rest : List TxUnit) (e : Lse) : Lse :=
  { e with txBuf := rest, out := e.out.map (OutReq.leaves u.outId now) }

/-- The first unit of the transmit buffer leaves; where it is a request's, the Stall is charged. -/
def State.unitLeft (l : Nat) (u : TxUnit) (rest : List TxUnit) (s : State) : State :=
  let v := (((s.emit (.lt l u.bytes)).modLse l (Lse.unitLeft s.clk.elapsed u rest)).bump (ctrLse l 0) 1).bump (ctrLse l 1) u.bytes.length
  match u.stall with
  | some st => v.bumpStall st 7 1
  | none => v

theorem State.unitLeft_eq (l : Nat) (u : TxUnit) (rest : List TxUnit) (s : State) :
    ∃ obs, s.unitLeft l u rest =
      { s with out := s.out ++ [.lt l u.bytes], lse := listSet s.lse l (Lse.unitLeft s.clk.elapsed u rest), obs := obs } := by
  unfold State.unitLeft
  cases u.stall <;> exact ⟨_, by simp only [State.bumpStall, State.bump, State.modLse, State.emit]; rfl⟩

theorem execLseUnitSent_leaves {s : State} {l : Nat} {e : Lse} {u : TxUnit} {rest : List TxUnit} (hl : s.lse[l]? = some e)
    (hq : s.alr.quiet = false) (hclosed : s.rst.dataClosed = false) (hh : e.halts = false) (hr : s.inUnitReset (unitLse l) = false)
    (hb : e.txBuf = u :: rest) (htx : e.tx.kgen < 255) (hrx : e.rx.kgen < 255) :
    execLseUnitSent l s = done (s.begin.unitLeft l u rest) := by
  have hr' : s.begin.inUnitReset (unitLse l) = false := hr
  have hleft : (s.begin.unitLeft l u rest).lse[l]? = some (e.unitLeft s.clk.elapsed u rest) := by
    obtain ⟨obs, hleft⟩ := s.begin.unitLeft_eq l u rest
    rw [hleft]
    exact getElem?_listSet_self _ hl
  have hkept := State.renewLink_early hleft htx hrx
  rw [execLseUnitSent, onLse_some hl]
  simp only [State.begin_alr, State.begin_rst, hq, hclosed, hh, hr', hb, Bool.false_eq_true, false_and, or_self, if_false]
  exact congrArg done hkept

/-! ### Dead targets (R330) -/

/-- The LSE with the request over for want of a response. -/
def Lse.deadTarget (o : OutReq) (e : Lse) : Lse :=
  { e with out := e.out.eraseP (· = o), deadCount := satAdd 255 e.deadCount 1, deadRaised := true }

/-- The request answered POISON and counted; EV_LSE_DEAD is raised once in a tick. -/
def State.deadTarget (l : Nat) (e : Lse) (o : OutReq) (s : State) : State :=
  let u := ((((s.emit (poisonOut l e.peerChip o)).modLse l (Lse.deadTarget o)).bump (ctrLse l 9) 1).bumpStall o.stall 10 1).bumpStall o.stall 6 1
  if e.deadRaised then u else u.event evLseDead (unitLse l) none l e.peerChip

theorem State.deadTarget_eq (l : Nat) (e : Lse) (o : OutReq) (s : State) :
    ∃ obs hlm, s.deadTarget l e o =
      { s with out := s.out ++ [poisonOut l e.peerChip o], lse := listSet s.lse l (Lse.deadTarget o), obs := obs, hlm := hlm } := by
  unfold State.deadTarget
  dsimp only
  split <;> exact ⟨_, _, by simp only [State.event, State.bumpStall, State.bump, State.modLse, State.emit]; rfl⟩

section
variable {s : State} {l id at_ : Nat} {e : Lse} {o : OutReq} (hl : s.lse[l]? = some e) (ho : e.out.find? (fun o => o.id = id) = some o)
  (hat : o.sentAt = some at_)
include hl ho hat

theorem execLseDeadTarget_early (hlt : s.clk.elapsed < at_ + s.cfg.engine.tDead * 1000) : execLseDeadTarget l id s = done s.begin := by
  have hexp : s.begin.expired at_ (s.cfg.engine.tDead * 1000) = false := decide_eq_false (Nat.not_le.mpr hlt)
  rw [execLseDeadTarget, onLse_some hl]
  simp [ho, hat, hexp]

theorem execLseDeadTarget_dead (hle : at_ + s.cfg.engine.tDead * 1000 ≤ s.clk.elapsed) (hr : e.revokes = []) :
    execLseDeadTarget l id s = done (s.begin.deadTarget l e o) := by
  have hexp : s.begin.expired at_ (s.cfg.engine.tDead * 1000) = true := decide_eq_true hle
  have hlse : (s.begin.deadTarget l e o).lse[l]? = some (e.deadTarget o) := by
    obtain ⟨obs, hlm, hdead⟩ := s.begin.deadTarget_eq l e o
    rw [hdead]
    exact getElem?_listSet_self _ hl
  have hacked := State.ackRevokes_none hlse hr
  rw [execLseDeadTarget, onLse_some hl]
  simp only [ho, hat, State.begin_cfg, hexp, not_true_eq_false, if_false]
  exact congrArg done hacked

end

/-! ### The statement -/

/-- Settles O39: each clause is its command's lemma; a sealed unit leaves the rest as `State.sendUnit_sealed` says. -/
theorem linkTransmission : Obligations.LinkTransmission := by
  refine ⟨?sealed, ?refused, ?quiet, ?response, ?orphan, ?sent, fun s l id at_ e o hl ho hat hlt => execLseDeadTarget_early hl ho hat hlt,
    ?dead⟩
  case sealed =>
    intro s l kind stall dst tc addr id nbytes k data e w u hl hready hkind htc hid husable hfull hdst hsize haddr hrefused hstall hw hu hc
    have hok : ¬ s.linkRefuses e kind stall dst addr id nbytes := by
      simp only [State.linkRefuses, hid, husable, hfull, hdst, hsize, hrefused, hstall, Nat.not_le.mpr haddr, Bool.false_eq_true,
        Bool.true_eq_false, ne_eq, not_true_eq_false, or_self, not_false_eq_true]
    exact ⟨_, execLseTxRequest_sealed data hl hready hkind htc hok hw hu, State.modLse_sendUnit hl hc⟩
  case refused =>
    intro s l kind stall dst tc addr id nbytes data e hl hready hkind htc hno
    obtain ⟨t, hexec, hout, ⟨raised, hlse⟩, hrwt, honly⟩ := execLseTxRequest_refused (dst := dst) (addr := addr) (id := id) (stall := stall)
      data hl hready hkind htc rfl (by simp only [State.linkRefuses]; tauto)
    exact ⟨t, hexec, hout, congrArg (Option.map _) hlse, hrwt, honly⟩
  case quiet =>
    intro s l kind stall dst tc addr id nbytes data e hl hq
    exact ⟨_, execLseTxRequest_quiet data hl hq, rfl, rfl⟩
  case response =>
    intro s l kind id st data e r u hl hready hr hu hc
    exact ⟨_, execLseHostResponse_matched hl hready hr hu, State.modLse_sendUnit hl hc⟩
  case orphan =>
    intro s l kind id st data e hl hready hr
    exact execLseHostResponse_orphan hl hready hr
  case sent =>
    intro s l e u rest hl hq hclosed hh hr hb htx hrx
    refine ⟨_, execLseUnitSent_leaves hl hq hclosed hh hr hb htx hrx, ?_⟩
    obtain ⟨obs, hleft⟩ := s.begin.unitLeft_eq l u rest
    rw [hleft]
    exact ⟨rfl, getElem?_listSet_self (Lse.unitLeft s.clk.elapsed u rest) hl, rfl, rfl, s.modLse_onlyLse l _⟩
  case dead =>
    intro s l id at_ e o hl ho hat hle hr
    refine ⟨_, execLseDeadTarget_dead hl ho hat hle hr, ?_⟩
    obtain ⟨obs, hlm, hdead⟩ := s.begin.deadTarget_eq l e o
    rw [hdead]
    exact ⟨rfl, getElem?_listSet_self (Lse.deadTarget o) hl, rfl, rfl, s.modLse_onlyLse l _⟩

end Sys2Proof.Machine

/-!
Reception over a link (O40).

A unit is lost, fails or is accepted; what each leaves of the block is said once, and LSE_RX_UNIT is taken through its checks in the order
of R334 to one of them.
-/

namespace Sys2Proof.Machine

/-! ### Lost units and failures (R334, R335) -/

/-- An update of an LSE depends on the LSE that is there. -/
theorem State.modLse_congr {l : Nat} {f g : Lse → Lse} {s : State} {e : Lse} (hl : s.lse[l]? = some e) (hfg : f e = g e) :
    s.modLse l f = s.modLse l g :=
  congrArg (fun x => { s with lse := x }) (listSet_congr hl hfg)

/-- The LSE with an integrity failure now, beside those within the last millisecond. -/
def Lse.fails (now : Nat) (e : Lse) : Lse :=
  { e with integCount := satAdd 65535 e.integCount 1, failures := (e.failures.filter fun t => now < t + 1000000) ++ [now] }

/-- Below INTEG_LIMIT within a millisecond an integrity failure is counted and alarmed, and the link stays up. -/
theorem State.lseFail_few {l : Nat} (check : Nat) {s : State} {e : Lse} (hl : s.lse[l]? = some e)
    (hfew : (e.failures.filter fun t => s.clk.elapsed < t + 1000000).length + 1 < s.cfg.engine.integLimit) :
    ∃ alr obs hlm, s.lseFail l check = { s with lse := listSet s.lse l (Lse.fails s.clk.elapsed), alr := alr, obs := obs, hlm := hlm } ∧
      alr.integrity = true ∧ hlm.irqAlarm = true := by
  have hmod : (s.modLse l fun x => { x with
      integCount := satAdd 65535 x.integCount 1
      failures := (e.failures.filter fun t => s.clk.elapsed < t + 1000000) ++ [s.clk.elapsed] }) = s.modLse l (Lse.fails s.clk.elapsed) :=
    State.modLse_congr hl rfl
  have hfew' : ¬ s.cfg.engine.integLimit ≤ (e.failures.filter fun t => s.clk.elapsed < t + 1000000).length + 1 := Nat.not_le.mpr hfew
  unfold State.lseFail
  simp only [hl, Option.map_some, Option.getD_some, hmod, State.alarmIntegrity_uncharged, State.bump_cfg, State.modLse_cfg, hfew', if_false]
  exact ⟨_, _, _, rfl, rfl, rfl⟩

/-! ### Accepted units (R334) -/

theorem State.lseAccept_eq (l bytes : Nat) {u : RxUnit} (s : State) (hk : u.kind ≠ 3) :
    ∃ obs sty, s.lseAccept l bytes u =
      { s with lse := listSet s.lse l fun x => { x with rxBuf := x.rxBuf ++ [u] }, obs := obs, sty := sty } := by
  unfold State.lseAccept
  simp only [hk, if_false]
  rw [State.meter_frame]
  split <;> exact ⟨_, _, by simp only [State.bumpStall, State.bump, State.modLse]; rfl⟩

/-- The LSE whose receive key has counted a unit. -/
def Lse.counts (d : LinkDir) (e : Lse) : Lse := { e with rx := d }

section
variable {l tc seq : Nat} {u : RxUnit} {d : LinkDir} {s : State} {e : Lse} (bytes : Nat) (hl : s.lse[l]? = some e) (hresync : e.resync = false)
  (hseq : seq = e.rx.seq.getD tc 0) (hd : d = e.rx.count tc (seq + 1) u.payload.length) (hworn : d.worn = false)
include hl hresync hseq hd hworn

/-- A unit with the expected SEQ counts against the receive key and joins the receive buffer. -/
theorem State.lseSequence_expected :
    s.lseSequence l bytes tc seq e.rx false u = ((s.modLse l (Lse.counts d)).syncLink l).lseAccept l bytes u := by
  have hmod : (s.modLse l fun x => { x with rx := d, rxNext := x.rxNext, resync := false, wantRx := x.wantRx }) = s.modLse l (Lse.counts d) :=
    State.modLse_congr hl (congrArg (fun r => { e with rx := d, resync := r }) hresync.symm)
  unfold State.lseSequence
  simp only [← hseq, Nat.lt_irrefl, if_false, ← hd, hworn, Bool.false_and, Bool.or_false, Bool.false_eq_true, hmod]

theorem State.lseSequence_accepted (hkind : u.kind ≠ 3) {t : State} (ht : s.lseSequence l bytes tc seq e.rx false u = t) :
    t.out = s.out ∧ t.lse[l]? = some { e with rx := d, rxBuf := e.rxBuf ++ [u] } ∧ t.rwt = s.rwt ∧ s.onlyLse l t := by
  rw [State.lseSequence_expected bytes hl hresync hseq hd hworn] at ht
  have hslots := (s.modLse l (Lse.counts d)).syncLink_slots l
  have honly := State.onlyLse_trans (s.modLse_onlyLse l (Lse.counts d)) (State.syncLink_onlyLse l l _)
  generalize (s.modLse l (Lse.counts d)).syncLink l = v at ht hslots honly
  have hlse : v.lse[l]? = some (e.counts d) := by
    rw [show v.lse = listSet s.lse l (Lse.counts d) from (congrArg State.lse hslots :)]
    exact getElem?_listSet_self _ hl
  obtain ⟨obs, sty, haccept⟩ := v.lseAccept_eq l bytes hkind
  rw [← ht, haccept]
  exact ⟨(congrArg State.out hslots :), getElem?_listSet_self _ hlse, (congrArg State.rwt hslots :),
    State.onlyLse_trans honly (v.modLse_onlyLse l _)⟩

end

/-! ### LSE_RX_UNIT (R334) -/

section
variable {s : State} {l : Nat} {unit : Bytes} {e : Lse} (hl : s.lse[l]? = some e)

section
variable (hs : s.serving) (ha : s.ald.noAlmanac = false) (hd : e.down = false) (hr : s.inUnitReset (unitLse l) = false)
  (hroom : e.rxBytes + unit.length ≤ 32768)
include hl hs ha hd hr hroom

/-- A unit that an LSE in service has room for is lost with an error; without one its form, and whether it is CLEAR, say which checks
follow. -/
theorem execLseRxUnit_taken (err : Bool) :
    execLseRxUnit l unit err s = done (
      if err then s.begin.lseLost l 1
      else if leField unit 6 1 ≠ 1 ∨ 2 ≤ leField unit 7 1 ∨ unit.length < 32 ∨ 4144 < unit.length ∨
          (leField unit 7 1 = 0 ∧ unit.length < 48) then s.begin.lseFail l 6
      else if leField unit 7 1 = 1 then
        if e.keyed then s.begin.lseFail l 5
        else
          let u := rxUnit (leField unit 0 2) (leField unit 4 1 / 64) (unit.drop 16)
          if u.kind = 7 ∧ 8 ≤ u.sub ∧ u.sub ≤ 12 ∧ u.payload.length ≤ 64 then s.begin.lseAccept l unit.length u else s.begin.lseFail l 6
      else (s.begin.lseSealed l e unit).renewLink l) := by
  obtain ⟨hp, hb, hq⟩ := hs
  have hr' : s.begin.inUnitReset (unitLse l) = false := hr
  rw [execLseRxUnit, onLse_some hl]
  simp only [State.begin_rst, State.begin_ald, State.begin_alr, hp, hb, ha, hq, hd, hr', Nat.not_lt.mpr hroom, ne_eq, not_true_eq_false,
    Bool.false_eq_true, or_self, if_false]

theorem execLseRxUnit_error : execLseRxUnit l unit true s = done (s.begin.lseLost l 1) :=
  (execLseRxUnit_taken hl hs ha hd hr hroom true).trans rfl

theorem execLseRxUnit_badVersion (hv : leField unit 6 1 ≠ 1) : execLseRxUnit l unit false s = done (s.begin.lseFail l 6) :=
  (execLseRxUnit_taken hl hs ha hd hr hroom false).trans (congrArg done (if_pos (Or.inl hv)))

section
variable {tc : Nat} {pt : Bytes} (hlo : 48 ≤ unit.length) (hhi : unit.length ≤ 4144) (hv : leField unit 6 1 = 1) (hclear : leField unit 7 1 = 0)
  (hsrc : leField unit 0 2 = e.peerChip) (hdst : leField unit 2 2 = s.dom.chip) (hport : leField unit 4 1 % 64 = e.peerPort)
  (htc : tc = leField unit 4 1 / 64) (hkeyed : e.keyed = true) (hnext : e.rxNext = none) (hresync : e.resync = false)
  (hgen : leField unit 5 1 = e.rx.kgen)
  (hopen : gcmOpen e.rx.key (linkNonce (leField unit 0 2) (leField unit 4 1 % 64) tc e.rx.kgen (leField unit 8 8)) (unit.take 16)
    (slice unit 16 (unit.length - 32)) (unit.drop (unit.length - 16)) = some pt)
  (hformed : (rxUnit (leField unit 0 2) tc pt).formed = true) (hkind : (rxUnit (leField unit 0 2) tc pt).kind ≠ 7)
include hlo hhi hv hclear hsrc hdst hport htc hkeyed hnext hresync hgen hopen hformed hkind

/-- A unit from the peer under the current receive key that verifies and keeps the rules comes to its SEQ. -/
theorem execLseRxUnit_verified :
    execLseRxUnit l unit false s = done ((s.begin.lseSequence l unit.length tc (leField unit 8 8) e.rx false
      (rxUnit (leField unit 0 2) tc pt)).renewLink l) := by
  subst htc
  have hcurrent : s.begin.lseSealed l e unit = s.begin.lseOpen l e unit e.rx false := by
    simp [State.lseSealed, hsrc, hdst, hport, hkeyed, hnext, hresync, hgen]
  have hverified : s.begin.lseOpen l e unit e.rx false =
      s.begin.lseSequence l unit.length (leField unit 4 1 / 64) (leField unit 8 8) e.rx false
        (rxUnit (leField unit 0 2) (leField unit 4 1 / 64) pt) := by
    rw [State.lseOpen]
    simp only [hopen, hformed, hkind, not_true_eq_false, false_and, if_false]
  rw [execLseRxUnit_taken hl hs ha hd hr hroom, if_neg Bool.false_ne_true, if_neg (by omega), if_neg (by omega), hcurrent, hverified]

end
end
end

/-! ### The host side of received units (R329) -/

theorem execLseRxRequest_presents {s : State} {l : Nat} {e : Lse} {u : RxUnit} (hl : s.lse[l]? = some e) (hu : e.firstHost = some u)
    (hkind : u.kind < 4) (hroom : e.inbound.length < 1024) (hq : s.alr.quiet = false) :
    execLseRxRequest l s = done { s with
      out := [.hr l u.kind u.src u.tc u.addr u.id .ok u.tstall u.payload]
      lse := listSet s.lse l fun x => { x with
        rxBuf := x.rxBuf.eraseP (· = u)
        inbound := x.inbound ++ [{ id := u.id, kind := u.kind, nbytes := u.nbytes, tc := u.tc }] } } := by
  rw [execLseRxRequest, onLse_some hl]
  simp only [hu, Nat.not_le.mpr hkind, Nat.not_le.mpr hroom, State.begin_alr, hq, Bool.false_eq_true, or_self, if_false, State.dropRx,
    State.modLse_modLse]
  rfl

/-- The LSE with a response taken for its outbound request. -/
def Lse.answered (u : RxUnit) (o : OutReq) (e : Lse) : Lse := { e with rxBuf := e.rxBuf.eraseP (· = u), out := e.out.eraseP (· = o) }

theorem execLseRxResponse_answers {s : State} {l : Nat} {e : Lse} {u : RxUnit} {o : OutReq} (hl : s.lse[l]? = some e)
    (hu : e.firstHost = some u) (hkind : 4 ≤ u.kind) (hq : s.alr.quiet = false)
    (ho : e.out.find? (fun o => o.id = u.id ∧ respKind o.kind = u.kind) = some o) (hr : e.revokes = []) :
    execLseRxResponse l s = done ((s.begin.modLse l (Lse.answered u o)).emit (.hr l u.kind u.src u.tc 0 u.id (portStatus u.sub) 0
      (if portStatus u.sub = .ok then u.payload else onesData (badBytes o.kind o.nbytes)))) := by
  have hacked := State.ackRevokes_none (s := (s.begin.modLse l (Lse.answered u o)).emit (.hr l u.kind u.src u.tc 0 u.id (portStatus u.sub) 0
    (if portStatus u.sub = .ok then u.payload else onesData (badBytes o.kind o.nbytes)))) (State.modLse_lse_self (s := s.begin) _ hl) hr
  rw [execLseRxResponse, onLse_some hl]
  simp only [hu, Nat.not_lt.mpr hkind, State.begin_alr, hq, Bool.false_eq_true, or_self, if_false, ho, State.dropRx, State.modLse_modLse]
  exact congrArg done hacked

/-! ### Keys (R324, R326) -/

theorem execLinkKeyDerived_transmit {s : State} {l g : Nat} {e : Lse} (hl : s.lse[l]? = some e) (hsecret : e.secret ≠ [])
    (hwant : e.wantTx = true) (hresync : e.resyncDue = false) (hnext : e.rxNext = none)
    (hg : g = if e.tx.worn then e.tx.kgen + 1 else max (e.tx.kgen + 1) e.rx.kgen) :
    execLinkKeyDerived l true s = done (((s.begin.bump (ctrSbx 2) 1).modLse l fun x => { x with
      txNext := some (LinkDir.start g (linkKey e.secret s.dom.chip e.peerChip l e.peerPort g e.estId)), wantTx := false }).syncLink l) := by
  rw [execLinkKeyDerived, onLse_some hl]
  simp [hsecret, hwant, hresync, hnext, ← hg]

theorem execResyncReceive_taken {s : State} {l : Nat} {e : Lse} {u : RxUnit} (hl : s.lse[l]? = some e) (hu : e.control [5] = some u) :
    execResyncReceive l s = done { s with
      out := []
      lse := listSet s.lse l fun x => { x with
        rxBuf := x.rxBuf.eraseP (· = u)
        wantTx := x.wantTx || (x.txNext.isNone && decide (x.tx.kgen < x.rx.kgen)) } } := by
  rw [execResyncReceive, onLse_some hl]
  simp only [hu, State.dropRx, State.modLse_modLse]
  rfl

/-! ### The statement -/

/-- Settles O40: a unit is followed through its checks to what becomes of it; the other clauses are their commands' lemmas. -/
theorem linkReceive : Obligations.LinkReceive := by
  refine ⟨?lost, ?failed, ?accepted, ?replayed, ?request, ?response, ?derived, ?resync⟩
  case lost =>
    intro s l unit e hl hs ha hd hr hroom
    exact ⟨_, execLseRxUnit_error hl hs ha hd hr hroom, rfl, State.modLse_lse_self (s := s.begin) _ hl, rfl, rfl, s.modLse_onlyLse l _⟩
  case failed =>
    intro s l unit e hl hs ha hd hr hroom hv hfew
    obtain ⟨alr, obs, hlm, hfail, hintegrity, hirq⟩ := State.lseFail_few (s := s.begin) 6 hl hfew
    have hexec := execLseRxUnit_badVersion hl hs ha hd hr hroom hv
    rw [hfail] at hexec
    exact ⟨_, hexec, rfl, hintegrity, hirq, getElem?_listSet_self _ hl, rfl, rfl, s.modLse_onlyLse l _⟩
  case accepted =>
    intro s l tc unit pt e u hl hs ha hd hr hroom hlo hhi hv hclear hsrc hdst hport htc hkeyed hnext hresync hgen htx hrx hopen hu hformed
      hkind7 hkind3 hseq hworn
    subst hu
    have hexec := execLseRxUnit_verified hl hs ha hd hr hroom hlo hhi hv hclear hsrc hdst hport htc hkeyed hnext hresync hgen hopen hformed
      hkind7
    obtain ⟨hout, hlse, hrwt, honly⟩ := State.lseSequence_accepted (s := s.begin) unit.length hl hresync hseq rfl hworn hkind3 rfl
    rw [State.renewLink_early hlse htx hrx] at hexec
    exact ⟨_, hexec, hout, hlse, hrwt, honly⟩
  case replayed =>
    intro s l tc unit pt e hl hs ha hd hr hroom hlo hhi hv hclear hsrc hdst hport htc hkeyed hnext hresync hgen htx hrx hopen hformed
      hkind7 hseq hfew
    obtain ⟨alr, obs, hlm, hfail, hintegrity, -⟩ := State.lseFail_few (s := s.begin) 2 hl hfew
    have hexec := execLseRxUnit_verified hl hs ha hd hr hroom hlo hhi hv hclear hsrc hdst hport htc hkeyed hnext hresync hgen hopen hformed
      hkind7
    rw [State.lseSequence, if_pos hseq, hfail, State.renewLink_early (e := e.fails s.clk.elapsed) (getElem?_listSet_self _ hl) htx hrx] at hexec
    exact ⟨_, hexec, rfl, hintegrity, getElem?_listSet_self _ hl, rfl, rfl, s.modLse_onlyLse l _⟩
  case request =>
    intro s l e u hl hu hkind hroom hq
    exact execLseRxRequest_presents hl hu hkind hroom hq
  case response =>
    intro s l e u o st hl hu hkind hq ho hr hst
    subst hst
    exact ⟨_, execLseRxResponse_answers hl hu hkind hq ho hr, rfl, State.modLse_lse_self (s := s.begin) _ hl, rfl, rfl, s.modLse_onlyLse l _⟩
  case derived =>
    intro s l g e hl hsecret hwant hresync hnext hg
    refine ⟨_, execLinkKeyDerived_transmit hl hsecret hwant hresync hnext hg, ?_, ?_, ?_, ?_⟩
    · exact (congrArg State.out (State.syncLink_slots l _) :)
    · rw [State.syncLink_lse]
      exact State.modLse_lse_self (s := s.begin) _ hl
    · exact (congrArg State.rwt (State.syncLink_slots l _) :)
    · exact State.onlyLse_trans (s.modLse_onlyLse l _) (State.syncLink_onlyLse l l _)
  case resync =>
    intro s l e u hl hu
    exact execResyncReceive_taken hl hu

end Sys2Proof.Machine

/-!
Windows between chips (O41).

Each command that seals a control unit is the state it leaves before the unit, and the unit (`State.sendUnit_sealed`); each that ends a
waiting command is the state before its record, which touches records, progress and counters alone.
-/

namespace Sys2Proof.Machine

/-! ### Records -/

/-- From `s` to `t` only records and events, alarms and progress, and counters differ. -/
def OnlyRecords (s t : State) : Prop := t = { s with hlm := t.hlm, alr := t.alr, obs := t.obs }

theorem OnlyRecords.trans {s t u : State} (h : OnlyRecords s t) (k : OnlyRecords t u) : OnlyRecords s u := by
  unfold OnlyRecords at *
  rw [k, h]

theorem OnlyRecords.onlyLse {l : Nat} {s t u : State} (h : OnlyRecords t u) (k : s.onlyLse l t) : s.onlyLse l u := by
  unfold OnlyRecords at h
  rw [h]
  exact k

theorem State.complete_records (r : Completion) (s : State) : OnlyRecords s (s.complete r) := s.complete_frame r

/-- A command's record is issued, and links, windows, grants and outputs stay. -/
theorem State.complete_keeps {l : Nat} {r : Completion} {s t : State} {e : Lse} (hk : s.onlyLse l t) (hl : t.lse[l]? = some e)
    (hh : t.hlm = s.hlm) (hq : t.alr.quiet = false) :
    (t.complete r).out = t.out ∧ (t.complete r).granted = t.granted ∧ s.recorded (t.complete r) r ∧ (t.complete r).lse[l]? = some e ∧
      (t.complete r).rwt = t.rwt ∧ s.onlyLse l (t.complete r) := by
  have hrec := State.complete_recorded r hq
  have hr := t.complete_records r
  have honly := hr.onlyLse hk
  generalize t.complete r = u at hrec hr honly
  have hlse : u.lse = t.lse := (congrArg State.lse hr :)
  rw [State.recorded, hh] at hrec
  exact ⟨(congrArg State.out hr :), (congrArg State.granted hr :), hrec, hlse ▸ hl, (congrArg State.rwt hr :), honly⟩

/-! ### A unit sealed leaves records -/

theorem State.syncLink_hlm (i : Nat) (s : State) : (s.syncLink i).hlm = s.hlm := (congrArg State.hlm (s.syncLink_slots i) :)

theorem State.meter_hlm (cls stall n : Nat) (s : State) : (s.meter cls stall n).hlm = s.hlm := by rw [State.meter_frame]

/-- Below 75% of its limit a transmit key raises no event. -/
theorem State.sendUnit_hlm {l : Nat} {u : UnitSpec} {s : State} {e : Lse} (hl : s.lse[l]? = some e) (hc : e.carries u) :
    (s.sendUnit l u).hlm = s.hlm := by
  obtain ⟨hkeyed, hnext, hworn⟩ := hc
  unfold State.sendUnit
  simp only [hl, hkeyed, hnext, hworn, Option.getD_none, not_true_eq_false, if_false, Bool.false_and, Bool.false_eq_true, Option.isSome_none]
  cases u.stall <;> split <;> simp only [State.bump_hlm, State.meter_hlm, State.syncLink_hlm, State.modLse_hlm]

/-! ### WINDOW_GRANT (R332) -/

/-- The grant that WINDOW_GRANT notes until the peer answers. -/
def Granted.asked (c : Call) (l reqChip reqStall rights base size : Nat) : Granted :=
  { lse := l, reqChip, index := none, stall := c.stall, reqStall, base, size, rights, call := some c, revoking := none }

/-- GRANT (R321). -/
def grantUnit (c : Call) (reqStall rights base size : Nat) : UnitSpec :=
  ctrlUnit 1 (leBytes 2 reqStall ++ leBytes 2 c.stall ++ leBytes 1 rights ++ zeros 3 ++ leBytes 4 base ++ leBytes 4 size)

/-- The state with a grant noted. -/
def State.noteGrant (g : Granted) (s : State) : State := { s with granted := s.granted ++ [g] }

section
variable {s : State} {c : Call} {reqChip reqStall rights base size : Nat} (hc : s.admits c 0x0501) (hstall : reqStall < 4096)
  (hrights : rights < 16) (hlo : 0 < size) (hhi : size ≤ 2 ^ 20)
include hc hstall hrights hlo hhi

/-- With good arguments WINDOW_GRANT asks whether the granules are the issuer's, then for a usable LSE to the chip. -/
theorem execWindowGrant_checked :
    execWindowGrant c reqChip reqStall rights base size s = done (
      if ¬ s.ownsSealed c.stall (base * 4096) ((base + size) * 4096) then s.begin.finish c stRegionState
      else match (s.lse.zipIdx).find? fun p => p.1.peerChip = reqChip ∧ p.1.usable with
        | none => s.begin.finish c stLinkDown
        | some (_, l) =>
          (s.begin.noteGrant (.asked c l reqChip reqStall rights base size)).sendUnit l (grantUnit c reqStall rights base size)) := by
  rw [execWindowGrant, State.command_run hc, if_neg (Nat.not_le.mpr hstall), if_neg (Nat.not_le.mpr hrights), if_neg (by omega)]
  rfl

theorem execWindowGrant_foreign (ho : s.ownsSealed c.stall (base * 4096) ((base + size) * 4096) = false) :
    execWindowGrant c reqChip reqStall rights base size s = done (s.begin.finish c stRegionState) := by
  rw [execWindowGrant_checked hc hstall hrights hlo hhi, if_pos (by simp [ho])]

section
variable (ho : s.ownsSealed c.stall (base * 4096) ((base + size) * 4096) = true)
include ho

theorem execWindowGrant_linkDown (hno : s.lse.any (fun x => x.peerChip = reqChip ∧ x.usable) = false) :
    execWindowGrant c reqChip reqStall rights base size s = done (s.begin.finish c stLinkDown) := by
  have hnone : (s.lse.zipIdx).find? (fun p => p.1.peerChip = reqChip ∧ p.1.usable) = none :=
    List.find?_eq_none.mpr fun p hp => List.any_eq_false.mp hno p.1 (List.fst_mem_of_mem_zipIdx hp)
  rw [execWindowGrant_checked hc hstall hrights hlo hhi, if_neg (not_not_intro ho), hnone]

theorem execWindowGrant_grants {l : Nat} {e : Lse}
    (hl : (s.lse.zipIdx).find? (fun p => p.1.peerChip = reqChip ∧ p.1.usable) = some (e, l)) :
    execWindowGrant c reqChip reqStall rights base size s = done ((s.begin.noteGrant (.asked c l reqChip reqStall rights base size)).sendUnit l
      (grantUnit c reqStall rights base size)) := by
  rw [execWindowGrant_checked hc hstall hrights hlo hhi, if_neg (not_not_intro ho), hl]

end
end

/-! ### Control units of windows (R332, R333) -/

/-- A REVOKE_ACK owed for an entry without outbound requests is sent at once. -/
theorem State.ackRevokes_owed {l k : Nat} {s : State} {e : Lse} (hl : s.lse[l]? = some e) (hr : e.revokes = [])
    (hout : e.out.any (fun o => decide (o.window = k)) = false) :
    (s.modLse l fun x => { x with revokes := x.revokes ++ [k] }).ackRevokes l = s.sendUnit l (ctrlUnit 4 (leBytes 2 k)) := by
  have hl' : (s.modLse l fun x => { x with revokes := x.revokes ++ [k] }).lse[l]? = some { e with revokes := [k] } := by
    rw [State.modLse_lse_self _ hl, hr]
    rfl
  have hkept : (e.revokes ++ [k]).filter (fun w => !!e.out.any fun o => decide (o.window = w)) = e.revokes := by
    simp [hr, hout]
  have hback : ((s.modLse l fun x => { x with revokes := x.revokes ++ [k] }).modLse l fun x => { x with
      revokes := x.revokes.filter fun w => !!e.out.any fun o => decide (o.window = w) }) = s := by
    rw [State.modLse_modLse, State.modLse_congr (g := id) hl]
    · exact congrArg (fun x => { s with lse := x }) (listSet_id s.lse l)
    · exact congrArg (fun r => { e with revokes := r }) hkept
  unfold State.ackRevokes
  simp only [hl', List.filter_cons, hout, Bool.not_false, if_true, List.filter_nil, List.foldl_cons, List.foldl_nil, hback]

/-- The entry that a GRANT of the peer makes. -/
def RxUnit.window (u : RxUnit) (peer : Nat) : Window :=
  { reqStall := leField u.payload 0 2 % 4096, dst := peer, tstall := leField u.payload 2 2 % 4096
    base := leField u.payload 8 4, size := leField u.payload 12 4, rights := leField u.payload 4 1 % 16 }

/-- The LSE with a received unit taken. -/
def Lse.takes (u : RxUnit) (e : Lse) : Lse := { e with rxBuf := e.rxBuf.eraseP (· = u) }

section
variable {s : State} {l : Nat} {e : Lse} {u : RxUnit} (hl : s.lse[l]? = some e)
include hl

theorem execGrantReceive_enters {k : Nat} (hu : e.control [1] = some u) (hk : s.freeWindow = some k) :
    execGrantReceive l s = done (({ s.begin.modLse l (Lse.takes u) with rwt := assocSet k (u.window e.peerChip) s.rwt } : State).sendUnit l
      (ctrlUnit 2 (leBytes 2 k))) := by
  have hk' : (s.begin.dropRx l u).freeWindow = some k := hk
  rw [execGrantReceive, onLse_some hl]
  simp only [hu, hk']
  rfl

theorem execGrantReceive_full (hu : e.control [1] = some u) (hk : s.freeWindow = none) :
    execGrantReceive l s = done ((s.begin.modLse l (Lse.takes u)).sendUnit l (ctrlUnit 2 (leBytes 2 0xFFFF))) := by
  have hk' : (s.begin.dropRx l u).freeWindow = none := hk
  rw [execGrantReceive, onLse_some hl]
  simp only [hu, hk']
  rfl

theorem execGrantAckReceive_completes {g : Granted} {c : Call} (hu : e.control [2] = some u)
    (hg : s.granted.find? (fun g => g.lse = l ∧ g.index.isNone) = some g) (hcall : g.call = some c) (hk : leField u.payload 0 2 ≠ 0xFFFF) :
    execGrantAckReceive l s = done (({ s.begin.modLse l (Lse.takes u) with
      granted := s.granted.map fun x => if x = g then { g with index := some (leField u.payload 0 2), call := none } else x } : State).finishOk c
        (leBytes 2 (leField u.payload 0 2))) := by
  have hg' : (s.begin.dropRx l u).granted.find? (fun g => g.lse = l ∧ g.index.isNone) = some g := hg
  rw [execGrantAckReceive, onLse_some hl]
  simp only [hu, hg', hk, hcall, if_false]
  rfl

/-- The LSE owes no REVOKE_ACK of a window without outbound requests: REVOKE clears the entry and is acknowledged at once. -/
theorem execRevokeReceive_clears {w : Window} (hu : e.control [3] = some u) (hw : assocGet (leField u.payload 0 2) s.rwt = some w)
    (hdst : w.dst = e.peerChip) (hr : e.revokes = []) (hout : e.out.any (fun o => decide (o.window = leField u.payload 0 2)) = false) :
    execRevokeReceive l s = done (({ s.begin.modLse l (Lse.takes u) with rwt := assocDel (leField u.payload 0 2) s.rwt } : State).sendUnit l
      (ctrlUnit 4 (leBytes 2 (leField u.payload 0 2)))) := by
  have hmine : ((assocGet (leField u.payload 0 2) (s.begin.dropRx l u).rwt).map fun w => decide (w.dst = e.peerChip)).getD false = true := by
    rw [show (s.begin.dropRx l u).rwt = s.rwt from rfl, hw]
    exact decide_eq_true hdst
  have hacked := State.ackRevokes_owed (s := { s.begin.modLse l (Lse.takes u) with rwt := assocDel (leField u.payload 0 2) s.rwt })
    (State.modLse_lse_self (s := s.begin) _ hl) hr hout
  rw [execRevokeReceive, onLse_some hl]
  simp only [hu, hmine, if_true]
  exact congrArg done hacked

theorem execRevokeAckReceive_ends {g : Granted} {c : Call} (hu : e.control [4] = some u)
    (hg : s.granted.find? (fun g => g.lse = l ∧ g.revoking.isSome ∧ g.index = some (leField u.payload 0 2)) = some g) (hcall : g.call = some c) :
    execRevokeAckReceive l s =
      done (({ s.begin.modLse l (Lse.takes u) with granted := s.granted.erase g } : State).finish c stOk) := by
  have hg' : (s.begin.dropRx l u).granted.find? (fun g => g.lse = l ∧ g.revoking.isSome ∧ g.index = some (leField u.payload 0 2)) = some g := hg
  rw [execRevokeAckReceive, onLse_some hl]
  simp only [hu, hg', hcall]
  rfl

end

/-! ### WINDOW_REVOKE (R333) -/

theorem execWindowRevoke_starts {s : State} {c : Call} {reqChip index : Nat} {g : Granted} {e : Lse} (hc : s.admits c 0x0502)
    (hg : s.granted.find? (fun g => g.reqChip = reqChip ∧ g.index = some index ∧ g.stall = c.stall ∧ g.revoking.isNone) = some g)
    (hl : s.lse[g.lse]? = some e) (hu : e.usable = true) :
    execWindowRevoke c reqChip index s = done (({ s.begin with
      granted := s.granted.map fun x => if x = g then { g with revoking := some s.clk.elapsed, call := some c } else x } : State).sendUnit g.lse
        (ctrlUnit 3 (leBytes 2 index))) := by
  have hindex : g.index = some index := by
    have hfound := List.find?_some hg
    simp only [decide_eq_true_eq] at hfound
    exact hfound.2.1
  rw [execWindowRevoke, State.command_run hc]
  simp only [State.begin_granted, hg, State.begin_lse, hl, Option.map_some, Option.getD_some, hu, if_true, State.startRevoke, hindex]
  rfl

theorem execWindowRevoke_unknown {s : State} {c : Call} {reqChip index : Nat} (hc : s.admits c 0x0502)
    (hg : s.granted.find? (fun g => g.reqChip = reqChip ∧ g.index = some index ∧ g.stall = c.stall ∧ g.revoking.isNone) = none) :
    execWindowRevoke c reqChip index s = done (s.begin.finishDetail c stParam 0x32) := by
  rw [execWindowRevoke, State.command_run hc]
  simp only [State.begin_granted, hg]
  rfl

/-! ### A link that goes DOWN (R333, R336) -/

theorem State.bumpStalls_eq (os : List OutReq) (s : State) :
    ∃ obs, os.foldl (fun t o => t.bumpStall o.stall 6 1) s = { s with obs := obs } := by
  induction os generalizing s with
  | nil => exact ⟨_, rfl⟩
  | cons o os ih =>
    obtain ⟨obs, h⟩ := ih (s.bumpStall o.stall 6 1)
    exact ⟨obs, h⟩

theorem State.poisonLse_eq {l : Nat} {s : State} {e : Lse} (hl : s.lse[l]? = some e) :
    ∃ obs, s.poisonLse l = { s with
      out := s.out ++ e.out.map (poisonOut l e.peerChip), lse := listSet s.lse l fun x => { x with out := [] }, obs := obs } := by
  obtain ⟨obs, h⟩ := State.bumpStalls_eq e.out ((s.emits (e.out.map (poisonOut l e.peerChip))).modLse l fun x => { x with out := [] })
  refine ⟨obs, ?_⟩
  unfold State.poisonLse
  simp only [hl]
  exact h

/-- A grant that waits for an answer over the LSE, or a revocation. -/
def Granted.waits (l : Nat) (g : Granted) : Bool := decide (g.lse = l) && (g.index.isNone || g.revoking.isSome)

theorem State.dropGrants_records (l : Nat) (s : State) :
    OnlyRecords { s with granted := s.granted.filter fun g => !g.waits l } (s.dropGrants l) := by
  unfold State.dropGrants
  refine List.foldlRecOn (motive := OnlyRecords _) _ _ rfl fun t ht g _ => ?_
  split
  · exact ht.trans (State.complete_records _ _)
  · exact ht

theorem State.dropGrants_none {l : Nat} {s : State} (h : s.granted.any (fun g => decide (g.lse = l)) = false) : s.dropGrants l = s := by
  have hno : ∀ g ∈ s.granted, ¬ g.waits l = true := fun g hg hw => List.any_eq_false.mp h g hg (Bool.and_eq_true_iff.mp hw).1
  have hmine : s.granted.filter (Granted.waits l) = [] := List.filter_eq_nil_iff.mpr hno
  have hkept : s.granted.filter (fun g => !g.waits l) = s.granted := List.filter_eq_self.mpr fun g hg => by simpa using hno g hg
  have hs : s.dropGrants l = (s.granted.filter (Granted.waits l)).foldl _ { s with granted := s.granted.filter fun g => !g.waits l } := rfl
  rw [hs, hmine, hkept]
  rfl

/-- The LSE in DOWN. -/
def Lse.falls (e : Lse) : Lse := { e with down := true, out := [], txBuf := [], revokes := [] }

theorem State.lseDown_records {l : Nat} (cause : Nat) {s : State} {e : Lse} (hl : s.lse[l]? = some e) (hd : e.down = false) :
    OnlyRecords { s with
      out := s.out ++ e.out.map (poisonOut l e.peerChip), lse := listSet s.lse l Lse.falls
      granted := s.granted.filter fun g => !g.waits l } (s.lseDown l cause) := by
  obtain ⟨obs, hpoison⟩ := State.poisonLse_eq hl
  have hfalls : (s.poisonLse l).modLse l (fun x => { x with down := true, txBuf := [], revokes := [] }) = { s with
      out := s.out ++ e.out.map (poisonOut l e.peerChip), lse := listSet s.lse l Lse.falls, obs := obs } := by
    rw [hpoison, State.modLse]
    simp only [listSet_listSet]
    rfl
  unfold State.lseDown
  simp only [hl, hd, Bool.false_eq_true, if_false, hfalls]
  have hdrop := State.dropGrants_records l
    { s with out := s.out ++ e.out.map (poisonOut l e.peerChip), lse := listSet s.lse l Lse.falls, obs := obs }
  exact OnlyRecords.trans hdrop rfl

section
variable {s : State} {l : Nat} {e : Lse} (hl : s.lse[l]? = some e)
include hl

theorem execRevokeTimeout_early (h : s.granted.any (fun g => decide (g.lse = l) &&
    (g.revoking.map fun r => s.expired r (4 * s.cfg.engine.tDead * 1000)).getD false) = false) :
    execRevokeTimeout l s = done s.begin := by
  rw [execRevokeTimeout, onLse_some hl]
  exact congrArg done (if_neg (by rw [Bool.not_eq_true]; exact h))

theorem execRevokeTimeout_late (h : s.granted.any (fun g => decide (g.lse = l) &&
    (g.revoking.map fun r => s.expired r (4 * s.cfg.engine.tDead * 1000)).getD false) = true) :
    execRevokeTimeout l s = done (s.begin.lseDown l 2) := by
  rw [execRevokeTimeout, onLse_some hl]
  exact congrArg done (if_pos h)

end

/-! ### LINK_RESET (R336) -/

/-- The LSE after its reset: no requests, no keys, not DOWN. -/
def Lse.reset (e : Lse) : Lse := { ({ e with out := [] } : Lse).unkey with down := false }

/-- The state with an LSE reset: its requests answered POISON, its peer's windows cleared. -/
def State.linkCleared (l : Nat) (e : Lse) (obs : Obs) (s : State) : State :=
  { s with
    out := e.out.map (poisonOut l e.peerChip), lse := listSet s.lse l Lse.reset, rwt := s.rwt.filter fun p => p.2.dst ≠ e.peerChip, obs := obs }

/-- Without a peer over the LSE no join exchange starts. -/
theorem State.startJoin_noPeer {l : Nat} {s : State} (h : s.dom.peers.any (fun p => p.lse = l) = false) : s.startJoin l = s := by
  have hnone : s.dom.peers.find? (fun p => p.lse = l) = none := List.find?_eq_none.mpr (List.any_eq_false.mp h)
  simp only [State.startJoin, hnone]

theorem State.syncLink_dom (i : Nat) (s : State) : (s.syncLink i).dom = s.dom := (congrArg State.dom (s.syncLink_slots i) :)

theorem execLinkReset_ungranted {s : State} {c : Call} {l : Nat} {e : Lse} (hc : s.admits c 0x0503) (hl : s.lse[l]? = some e)
    (hg : s.granted.any (fun g => decide (g.lse = l)) = false) (hp : s.dom.peers.any (fun p => p.lse = l) = false)
    (hx : s.dom.exchanges = []) :
    ∃ obs, execLinkReset c l s = done (((s.linkCleared l e obs).syncLink l).finish c stOk) := by
  obtain ⟨obs, hpoison⟩ := State.poisonLse_eq (s := s.begin) hl
  refine ⟨obs, ?_⟩
  have hgranted : s.granted.filter (fun g => g.lse ≠ l) = s.granted :=
    List.filter_eq_self.mpr fun g hgm => by simpa using List.any_eq_false.mp hg g hgm
  have hdom : { s.dom with exchanges := s.dom.exchanges.filter fun x => x.lse ≠ some l } = s.dom := by
    rw [hx, List.filter_nil, ← hx]
  rw [execLinkReset, State.command_run hc]
  simp only [State.begin_lse, hl]
  rw [hpoison, State.dropGrants_none (by exact hg)]
  simp only [State.modLse, State.begin_lse, State.begin_granted, State.begin_dom, hgranted, hdom, listSet_listSet]
  rw [State.startJoin_noPeer (by rw [State.syncLink_dom]; exact hp)]
  rfl

/-! ### The statement -/

/-- Settles O41: each clause is its command's lemma; what its unit or its record leaves is `State.sendUnit_sealed` or
`State.complete_keeps`. -/
theorem windows : Obligations.Windows := by
  refine ⟨?grant, ?grantRefused, ?entered, ?full, ?granted, ?revoke, fun s c reqChip index hc hg => execWindowRevoke_unknown hc hg, ?cleared,
    ?revoked, fun s l e hl h => execRevokeTimeout_early hl h, ?late, ?reset⟩
  case grant =>
    intro s c reqChip reqStall rights base size l e u hc hstall hrights hlo hhi ho hfind hu hcar
    subst hu
    have hl : s.lse[l]? = some e := List.mem_zipIdx_iff_getElem?.mp (List.mem_of_find?_eq_some hfind)
    have hhlm := State.sendUnit_hlm (s := s.begin.noteGrant (.asked c l reqChip reqStall rights base size)) hl hcar
    obtain ⟨hout, hgranted, hlse, hrwt, honly⟩ :=
      State.sendUnit_sealed (t := s.begin.noteGrant (.asked c l reqChip reqStall rights base size)) (s.onlyLse_refl l) hl hcar
    exact ⟨_, execWindowGrant_grants hc hstall hrights hlo hhi ho hfind, hout, hgranted, hlse, hrwt, congrArg Hlm.cwq hhlm, honly⟩
  case grantRefused =>
    intro s c reqChip reqStall rights base size hc hstall hrights hlo hhi
    exact ⟨fun ho => execWindowGrant_foreign hc hstall hrights hlo hhi ho,
      fun ho hno => execWindowGrant_linkDown hc hstall hrights hlo hhi ho hno⟩
  case entered =>
    intro s l k e u hl hu hk hcar
    obtain ⟨hout, -, hlse, hrwt, honly⟩ := State.sendUnit_sealed (s := s)
      (t := { s.begin.modLse l (Lse.takes u) with rwt := assocSet k (u.window e.peerChip) s.rwt }) (s.modLse_onlyLse l _)
      (State.modLse_lse_self (s := s.begin) _ hl) hcar
    refine ⟨_, execGrantReceive_enters hl hu hk, hout, ?_, ?_, hlse, honly⟩
    · rw [hrwt]
      exact (assocGet_assocSet k k _ s.rwt).trans (if_pos rfl)
    · rw [hrwt]
      exact assocDel_assocSet k _ s.rwt
  case full =>
    intro s l e u hl hu hk hcar
    obtain ⟨hout, hlse, hrwt, honly⟩ := State.modLse_sendUnit (f := Lse.takes u) hl hcar
    exact ⟨_, execGrantReceive_full hl hu hk, hout, hrwt, hlse, honly⟩
  case granted =>
    intro s l e u g c hl hq hu hg hcall hk
    exact ⟨_, execGrantAckReceive_completes hl hu hg hcall hk,
      State.complete_keeps (s.modLse_onlyLse l _) (State.modLse_lse_self (s := s.begin) _ hl) rfl hq⟩
  case revoke =>
    intro s c reqChip index g e hc hg hl hu hcar
    exact ⟨_, execWindowRevoke_starts hc hg hl hu, State.sendUnit_sealed (s.onlyLse_refl g.lse) hl hcar⟩
  case cleared =>
    intro s l k e u w hl hu hk hw hdst hr hout hcar
    subst hk
    obtain ⟨hout', -, hlse, hrwt, honly⟩ := State.sendUnit_sealed (s := s)
      (t := { s.begin.modLse l (Lse.takes u) with rwt := assocDel (leField u.payload 0 2) s.rwt }) (s.modLse_onlyLse l _)
      (State.modLse_lse_self (s := s.begin) _ hl) hcar
    exact ⟨_, execRevokeReceive_clears hl hu hw hdst hr hout, hout', hrwt, hlse, honly⟩
  case revoked =>
    intro s l e u g c hl hq hu hg hcall
    exact ⟨_, execRevokeAckReceive_ends hl hu hg hcall,
      State.complete_keeps (s.modLse_onlyLse l _) (State.modLse_lse_self (s := s.begin) _ hl) rfl hq⟩
  case late =>
    intro s l e hl hd h
    have hdown := State.lseDown_records (s := s.begin) 2 hl hd
    have hlse : (s.begin.lseDown l 2).lse = listSet s.lse l Lse.falls := (congrArg State.lse hdown :)
    refine ⟨_, execRevokeTimeout_late hl h, (congrArg State.out hdown :), ?_, (congrArg State.granted hdown :), (congrArg State.rwt hdown :),
      hdown.onlyLse (s.modLse_onlyLse l _)⟩
    rw [hlse]
    exact getElem?_listSet_self _ hl
  case reset =>
    intro s c l e hc hl hg hp hx
    obtain ⟨obs, hexec⟩ := execLinkReset_ungranted hc hl hg hp hx
    have hslots := (s.linkCleared l e obs).syncLink_slots l
    have honly := State.onlyLse_trans (s.modLse_onlyLse l Lse.reset) ((s.linkCleared l e obs).syncLink_onlyLse l l)
    generalize (s.linkCleared l e obs).syncLink l = t at hexec hslots honly
    have hlse : t.lse[l]? = some e.reset := by
      rw [show t.lse = listSet s.lse l Lse.reset from (congrArg State.lse hslots :)]
      exact getElem?_listSet_self _ hl
    have hq : t.alr.quiet = false := (congrArg (·.alr.quiet) hslots).trans hc.1.2.2
    obtain ⟨hout, hgranted, hrec, hlse', hrwt, honly'⟩ :=
      State.complete_keeps (r := c.record stOk) honly hlse (congrArg State.hlm hslots :) hq
    exact ⟨_, hexec, hout.trans (congrArg State.out hslots :), hlse', hrwt.trans (congrArg State.rwt hslots :),
      hgranted.trans (congrArg State.granted hslots :), hrec, honly'⟩

end Sys2Proof.Machine

/-!
The function map and the status words (O17).

Each command is one equation for each of its ends; the obligation reads them off.
-/

namespace Sys2Proof.Machine

/-! ### FN_MAP (R403) -/

/-- The state of a Stall that may be given a function. -/
def StallState.mappable (x : StallState) : Prop := x = .admitted ∨ x = .keyed ∨ x = .frozen

theorem StallState.mappable_iff (x : StallState) : x.mappable ↔ ¬ (x = .free ∨ x = .lost ∨ x = .removing) := by
  cases x <;> simp [StallState.mappable]

section
variable {s : State} {c : Call} {fn id : Nat} (hc : s.admits c 0x0407) (hid : id < 4096)
include hc hid

theorem execFnMap_policy
    (h : s.stallState id = .free ∨ s.stallState id = .lost ∨ s.stallState id = .removing ∨ (s.fnStall? fn).isSome = true) :
    execFnMap c fn id s = done (s.begin.finish c stPolicy) := by
  rw [execFnMap, State.command_run hc]
  simp only [if_neg (Nat.not_le.mpr hid)]
  exact congrArg done (if_pos h)

theorem execFnMap_eq (hm : (s.stallState id).mappable) (hf : s.fnStall? fn = none) :
    execFnMap c fn id s = done (match firstFree s.stl.fnMap 0 1024 with
      | none => s.begin.finish c stFnFull
      | some k => ({ s.begin with stl := { s.stl with fnMap := assocSet k (fn, id) s.stl.fnMap } } : State).finish c stOk) := by
  have hno : ¬ (s.stallState id = .free ∨ s.stallState id = .lost ∨ s.stallState id = .removing ∨ (s.fnStall? fn).isSome = true) := by
    have := (StallState.mappable_iff _).mp hm
    simp_all
  rw [execFnMap, State.command_run hc]
  simp only [if_neg (Nat.not_le.mpr hid)]
  exact congrArg done (if_neg hno)

end

/-! ### FN_UNMAP and STALL_STATUS (R403, R423) -/

theorem execFnUnmap_unmaps {s : State} {c : Call} {fn : Nat} (hc : s.admits c 0x0408) :
    execFnUnmap c fn s =
      done (({ s.begin with stl := { s.stl with fnMap := s.stl.fnMap.filter fun p => p.2.1 ≠ fn } } : State).finish c stOk) := by
  rw [execFnUnmap, State.command_run hc]
  rfl

theorem execStallStatus_words {s : State} {c : Call} {id : Nat} (hc : s.admits c 0x0409) (hid : id < 4096) :
    execStallStatus c id s =
      done (s.begin.finishOk c (leBytes 4 (s.stallInfo id) ++ leBytes 4 (s.stallReplay id) ++ leBytes 4 (s.stallAge id))) := by
  rw [execStallStatus, State.command_run hc]
  exact congrArg done (if_neg (Nat.not_le.mpr hid))

/-! ### The statement -/

/-- Settles O17: the ends of FN_MAP by the state of the Stall and the room in the map; the other two commands have one end each. -/
theorem functionMapAndStatus : Obligations.FunctionMapAndStatus := by
  refine ⟨?mapped, fun s c fn id hc hid h => execFnMap_policy hc hid h, ?full, fun s c fn hc => execFnUnmap_unmaps hc,
    fun s c id hc hid => execStallStatus_words hc hid⟩
  case mapped =>
    intro s c fn id k hc hid hm hf hk
    have hexec := execFnMap_eq hc hid hm hf
    rw [hk] at hexec
    exact hexec
  case full =>
    intro s c fn id hc hid hm hf hk
    have hexec := execFnMap_eq hc hid hm hf
    rw [hk] at hexec
    exact hexec

end Sys2Proof.Machine

/-!
Measurements and the X2 report (O20).

Each command has one equation for each of its ends. A digest of 48 bytes is what the command extends by, and a buffer with room is written at
once (`State.output_fits`).
-/

namespace Sys2Proof.Machine

/-! ### What a record changes, and a wait for entropy that ends -/

/-- A record is issued, and nothing but records, progress and counters changes. -/
theorem State.complete_issues (r : Completion) {s : State} (hq : s.alr.quiet = false) :
    ∃ hlm alr obs, s.complete r = { s with hlm, alr, obs } ∧ s.recorded { s with hlm, alr, obs } r :=
  ⟨_, _, _, s.complete_frame r, s.complete_frame r ▸ State.complete_recorded r hq⟩

theorem State.entropyServed_waits (c : Call) (s : State) : ∃ sbx obs, s.entropyServed c = { s with sbx, obs } :=
  ⟨_, _, s.entropyServed_frame c⟩

/-! ### MEASURE_EXTEND (R358) -/

theorem take_padTo_of_length {n : Nat} {b : Bytes} (h : b.length = n) : (padTo n b).take n = b := by
  rw [← h]
  exact take_padTo_length b

/-- The record of a Stall after one more extend. -/
def Stall.extended (d : StallData) (x : Stall) : Stall :=
  { x with extendSeq := x.extendSeq + 1, logOverflow := x.logOverflow || decide (64 ≤ d.log.length) }

/-- The tables of a Stall after an extend of a register, the entry logged while the log has room. -/
def StallData.extendedBy (reg : Nat) (digest : Bytes) (e : LogEntry) (d : StallData) : StallData :=
  { d with
    mrs := assocSet reg (sha384 (d.mr reg ++ digest)) d.mrs
    log := if 64 ≤ d.log.length then d.log else d.log ++ [e] }

section
variable {s : State} {c : Call} {reg kind owner : Nat} {digest : Bytes} {x : Stall} {d : StallData} (hc : s.admits c 0x0601)
  (hx : s.stall? c.stall = some x) (hd : s.stallData? c.stall = some d) (hreg : reg < 32) (hlo : 1 ≤ kind) (hhi : kind ≤ 4)
include hc hx hd hreg hlo hhi

/-- With a register and a kind in range MEASURE_EXTEND asks on which side of the lock the register is. -/
theorem execMeasureExtend_checked :
    execMeasureExtend c reg kind owner digest s = done (
      if x.measLocked = decide (reg < 16) then s.begin.finish c stMeasLocked
      else ((s.begin.setStall c.stall (x.extended d)).setStallData c.stall (d.extendedBy reg ((padTo 48 digest).take 48)
        { seq := x.extendSeq + 1, reg, kind, owner, digest := (padTo 48 digest).take 48, time := s.clk.domain
          unanchored := s.unanchored })).finishOk c (leBytes 4 (x.extendSeq + 1))) := by
  have hx' : s.begin.stall? c.stall = some x := hx
  have hd' : s.begin.stallData? c.stall = some d := hd
  rw [execMeasureExtend, State.command_run hc]
  simp only [hx', hd', if_neg (Nat.not_le.mpr hreg), if_neg (show ¬ (kind = 0 ∨ 4 < kind) by omega), decide_eq_true_eq]
  rfl

theorem execMeasureExtend_locked (hl : x.measLocked = decide (reg < 16)) :
    execMeasureExtend c reg kind owner digest s = done (s.begin.finish c stMeasLocked) := by
  rw [execMeasureExtend_checked hc hx hd hreg hlo hhi, if_pos hl]

theorem execMeasureExtend_extends (hdig : digest.length = 48) (hl : x.measLocked = decide (16 ≤ reg)) :
    execMeasureExtend c reg kind owner digest s =
      done (((s.begin.setStall c.stall (x.extended d)).setStallData c.stall (d.extendedBy reg digest
        { seq := x.extendSeq + 1, reg, kind, owner, digest, time := s.clk.domain, unanchored := s.unanchored })).finishOk c
          (leBytes 4 (x.extendSeq + 1))) := by
  have hside : ¬ x.measLocked = decide (reg < 16) := by
    rw [hl, decide_eq_decide]
    omega
  rw [execMeasureExtend_checked hc hx hd hreg hlo hhi, if_neg hside, take_padTo_of_length hdig]

end

/-! ### MEASURE_LOCK (R358, R359) -/

theorem execMeasureLock_again {s : State} {c : Call} {x : Stall} (hc : s.admits c 0x0602) (hx : s.stall? c.stall = some x)
    (hl : x.measLocked = true) : execMeasureLock c s = done (s.begin.finish c stMeasLocked) := by
  have hx' : s.begin.stall? c.stall = some x := hx
  rw [execMeasureLock, State.command_run hc]
  simp only [hx', hl, if_true]

theorem execMeasureLock_first {s : State} {c : Call} {x : Stall} (hc : s.admits c 0x0602) (hx : s.stall? c.stall = some x)
    (hl : x.measLocked = false) (he : s.sbx.entropyOk = true) :
    execMeasureLock c s =
      done ((((s.begin.entropyServed c).setStall c.stall { x with measLocked := true }).issueLeaf c.stall).finish c stOk) := by
  have hx' : s.begin.stall? c.stall = some x := hx
  rw [execMeasureLock, State.command_run hc]
  simp only [hx', hl, Bool.false_eq_true, if_false]
  exact congrArg done (State.withEntropy_served c _ he)

/-! ### X2_ENABLE and X2_REPORT (R365, R366) -/

section
variable {s : State} {c : Call} {x : Stall} (hc : s.admits c 0x0603) (hx : s.stall? c.stall = some x)
include hc hx

theorem execX2Enable_eq :
    execX2Enable c s = done (if x.measLocked then s.begin.finish c stX2Late
      else (s.begin.setStall c.stall { x with x2 := true }).finish c stOk) := by
  have hx' : s.begin.stall? c.stall = some x := hx
  rw [execX2Enable, State.command_run hc]
  simp only [hx']

theorem execX2Enable_early (hl : x.measLocked = false) :
    execX2Enable c s = done ((s.begin.setStall c.stall { x with x2 := true }).finish c stOk) := by
  rw [execX2Enable_eq hc hx, hl, if_neg Bool.false_ne_true]

theorem execX2Enable_late (hl : x.measLocked = true) : execX2Enable c s = done (s.begin.finish c stX2Late) := by
  rw [execX2Enable_eq hc hx, if_pos hl]

end

section
variable {s : State} {c : Call} {nonce sigs : Bytes} {addr room : Nat} {ok : Bool} {x : Stall} {d : StallData} (hc : s.admits c 0x0604)
  (hx : s.stall? c.stall = some x) (hd : s.stallData? c.stall = some d)
include hc hx hd

theorem execX2Report_eq :
    execX2Report c nonce addr room sigs ok s = done (
      if ¬ x.x2 then s.begin.finish c stX2Off
      else if ¬ x.measLocked then s.begin.finish c stEvidence
      else s.begin.output c addr room (s.x2Body c.stall x d nonce ++ (padTo 4728 sigs).take 4728) ok fun t =>
        (t.bump (ctrSbx 7) 1).finishOk c (leBytes 4 (s.x2Body c.stall x d nonce ++ (padTo 4728 sigs).take 4728).length)) := by
  have hx' : s.begin.stall? c.stall = some x := hx
  have hd' : s.begin.stallData? c.stall = some d := hd
  rw [execX2Report, State.command_run hc]
  simp only [hx', hd']
  rfl

theorem execX2Report_off (h2 : x.x2 = false) : execX2Report c nonce addr room sigs ok s = done (s.begin.finish c stX2Off) := by
  rw [execX2Report_eq hc hx hd, if_pos (by simp [h2])]

theorem execX2Report_unlocked (h2 : x.x2 = true) (hl : x.measLocked = false) :
    execX2Report c nonce addr room sigs ok s = done (s.begin.finish c stEvidence) := by
  rw [execX2Report_eq hc hx hd, if_neg (not_not_intro h2), if_pos (by simp [hl])]

theorem execX2Report_writes (h2 : x.x2 = true) (hl : x.measLocked = true)
    (hroom : (s.x2Body c.stall x d nonce ++ (padTo 4728 sigs).take 4728).length ≤ room) :
    execX2Report c nonce addr room sigs true s =
      done (((s.begin.emit (.memWrite c.stall addr (s.x2Body c.stall x d nonce ++ (padTo 4728 sigs).take 4728))).bump (ctrSbx 7) 1).finishOk c
        (leBytes 4 (s.x2Body c.stall x d nonce ++ (padTo 4728 sigs).take 4728).length)) := by
  rw [execX2Report_eq hc hx hd, if_neg (not_not_intro h2), if_neg (not_not_intro hl), State.output_fits c addr room _ _ hroom]

end

/-- Settles O20: each clause is its command's lemma. -/
theorem measurements : Obligations.Measurements := by
  refine ⟨?extended, fun s c reg kind owner digest x d hc hx hd hreg hlo hhi hl => execMeasureExtend_locked hc hx hd hreg hlo hhi hl, ?locks,
    fun s c x hc hx hl => execMeasureLock_again hc hx hl, fun s c x hc hx hl => execX2Enable_early hc hx hl,
    fun s c x hc hx hl => execX2Enable_late hc hx hl,
    fun s c nonce sigs addr room x d hc hx hd h2 hl hroom => execX2Report_writes hc hx hd h2 hl hroom,
    fun s c nonce sigs addr room ok x d hc hx hd =>
      ⟨fun h2 => execX2Report_off hc hx hd h2, fun h2 hl => execX2Report_unlocked hc hx hd h2 hl⟩⟩
  case extended =>
    intro s c reg kind owner digest x d hc hx hd hreg hlo hhi hdig hl
    exact execMeasureExtend_extends hc hx hd hreg hlo hhi hdig hl
  case locks =>
    intro s c x hc hx hl he
    obtain ⟨sbx, obs, hserved⟩ := s.begin.entropyServed_waits c
    have hexec := execMeasureLock_first hc hx hl he
    rw [hserved] at hexec
    obtain ⟨hlm, alr, obs', hdone, hrec⟩ := State.complete_issues (c.record stOk) (s := (({ s.begin with sbx, obs } : State).setStall c.stall
      { x with measLocked := true }).issueLeaf c.stall) hc.1.2.2
    exact ⟨_, hexec.trans (congrArg done hdone), rfl, rfl, rfl, hrec, rfl⟩

end Sys2Proof.Machine

/-!
Evidence, the identity record and SPDM (O21).

The three commands that write a buffer do so at once where it has room (`State.output_fits`); IDENTITY_STORE ends in a record, which touches
records, progress and counters alone.
-/

namespace Sys2Proof.Machine

theorem State.input_ok (c : Call) (b : Bytes) (body : Bytes → State → State) (s : State) : s.input c (.ok b) body = body b s := rfl

/-! ### STALL_EVIDENCE (R363) -/

theorem State.stall?_of_state {s : State} {id : Nat} {st : StallState} (h : s.stallState id = st) (hst : st ≠ .free) :
    ∃ x, s.stall? id = some x ∧ x.state = st := by
  unfold State.stallState at h
  cases hx : s.stall? id with
  | none => simp [hx] at h; exact absurd h.symm hst
  | some x => exact ⟨x, rfl, by simpa [hx] using h⟩

section
variable {s : State} {c : Call} {id addr room : Nat} {certs : Bytes} {ok : Bool} (hc : s.admits c 0x0605)
include hc

theorem execStallEvidence_absent (h : s.stall? id = none) :
    execStallEvidence c id addr room certs ok s = done (s.begin.finish c stEvidence) := by
  have h' : s.begin.stall? id = none := h
  rw [execStallEvidence, State.command_run hc]
  simp only [h']

theorem execStallEvidence_gone (h : s.stallState id = .lost ∨ s.stallState id = .removing) :
    execStallEvidence c id addr room certs ok s = done (s.begin.finish c stStallLost) := by
  obtain ⟨x, hx, hgone⟩ : ∃ x, s.begin.stall? id = some x ∧ (x.state = .lost ∨ x.state = .removing) := by
    rcases h with h | h
    · obtain ⟨x, hx, hst⟩ := State.stall?_of_state h (by decide)
      exact ⟨x, hx, .inl hst⟩
    · obtain ⟨x, hx, hst⟩ := State.stall?_of_state h (by decide)
      exact ⟨x, hx, .inr hst⟩
  rw [execStallEvidence, State.command_run hc]
  simp only [hx, if_pos hgone]

theorem execStallEvidence_writes {x : Stall} (hx : s.stall? id = some x) (hlost : x.state ≠ .lost) (hrem : x.state ≠ .removing)
    (hres : s.resident id = true) (hev : s.evidence x = true) (hroom : certs.length ≤ room) :
    execStallEvidence c id addr room certs true s =
      done ((s.begin.emit (.memWrite c.stall addr certs)).finishOk c (leBytes 4 certs.length)) := by
  have hx' : s.begin.stall? id = some x := hx
  have hres' : s.begin.resident id = true := hres
  have hev' : s.begin.evidence x = true := hev
  rw [execStallEvidence, State.command_run hc]
  simp only [hx', hlost, hrem, or_self, if_false, hres', hev', not_true_eq_false, State.output_fits c addr room certs _ hroom]

end

/-! ### IDENTITY_CSR and IDENTITY_STORE (R361) -/

section
variable {s : State} {c : Call} {addr n : Nat} {b : Bytes}

theorem execIdentityCsr_elsewhere {ok : Bool} (hc : s.admits c 0x0606) (h : s.lcu.state ≠ lcProvision) :
    execIdentityCsr c addr n b ok s = done (s.begin.finish c stLifecycle) := by
  rw [execIdentityCsr, State.command_run hc]
  exact congrArg done (if_pos h)

theorem execIdentityCsr_writes (hc : s.admits c 0x0606) (h : s.lcu.state = lcProvision) (hroom : b.length ≤ n) :
    execIdentityCsr c addr n b true s =
      done (((s.begin.emit (.memWrite c.stall addr b)).bump (ctrSbx 7) 1).finishOk c (leBytes 4 b.length)) := by
  rw [execIdentityCsr, State.command_run hc]
  exact congrArg done ((if_neg (not_not_intro h)).trans (State.output_fits c addr n b _ hroom))

theorem execIdentityStore_elsewhere {r : BufRead} (hc : s.admits c 0x0607) (h : s.lcu.state ≠ lcProvision) :
    execIdentityStore c addr n r s = done (s.begin.finish c stLifecycle) := by
  rw [execIdentityStore, State.command_run hc]
  exact congrArg done (if_pos h)

/-- In PROVISION the certificates become the identity record, sealed under a nonce drawn for it. -/
theorem execIdentityStore_stores (hc : s.admits c 0x0607) (h : s.lcu.state = lcProvision) (hlo : 1 ≤ n) (hhi : n ≤ 32768) :
    ∃ out, execIdentityStore c addr n (.ok b) s = done (({ s with
      out := out, fresh := s.fresh + 1, nvm := { s.nvm with identity := some (b.take n) } } : State).finish c stOk) := by
  rw [execIdentityStore, State.command_run hc]
  simp only [State.begin_lcu, if_neg (not_not_intro h), if_neg (show ¬ (n = 0 ∨ 32768 < n) by omega), State.input_ok, State.emit,
    State.emits, State.tookDraw]
  exact ⟨_, rfl⟩

end

/-! ### SPDM_MSG (R367, R369) -/

theorem execSpdmMsg_answers {s : State} {c : Call} {req n hse rsp room : Nat} {q resp : Bytes} {action : SpdmAction} (hc : s.admits c 0x0608)
    (hh : hse = 0xFF ∨ hse < s.build.hseCount) (hroom : resp.length ≤ room) :
    execSpdmMsg c req n hse rsp room (.ok q) resp action true s =
      done (((({ s with out := [.memRead c.stall req n, .memWrite c.stall rsp resp] } : State).spdm hse action).bump (ctrHlm 5) 1).finishOk c
        (leBytes 4 resp.length)) := by
  rw [execSpdmMsg, State.command_run hc]
  have hin : ¬ (hse ≠ 0xFF ∧ s.build.hseCount ≤ hse) := by omega
  simp only [State.begin_build, if_neg hin, State.input_ok, State.output_fits c rsp room resp _ hroom]
  rfl

theorem State.spdm_openSession {s : State} {hse k : Nat} (hfew : s.att.sessions.length < 8) (hnew : s.att.sessions.contains k = false)
    (hh : s.hse.length ≤ hse) :
    s.spdm hse (.openSession k) = { s with att := { s.att with sessions := s.att.sessions ++ [k] } } := by
  unfold State.spdm
  simp only [hnew, Nat.not_le.mpr hfew, or_self, Bool.false_eq_true, if_false, if_pos hh]

/-! ### The statement -/

/-- Settles O21: each clause is its command's lemma. -/
theorem evidenceAndIdentity : Obligations.EvidenceAndIdentity := by
  refine ⟨fun s c id addr room certs x hc hx hlost hrem hres hev hroom => execStallEvidence_writes hc hx hlost hrem hres hev hroom,
    fun s c id addr room certs ok hc => ⟨execStallEvidence_absent hc, execStallEvidence_gone hc⟩,
    fun s c addr room csrs hc h hroom => execIdentityCsr_writes hc h hroom, ?stored,
    fun s c a b x y ok h => ⟨fun hc => execIdentityCsr_elsewhere hc h, fun hc => execIdentityStore_elsewhere hc h⟩,
    fun s c req n hse rsp room q resp hc hh hroom => execSpdmMsg_answers hc hh hroom, ?opened⟩
  case stored =>
    intro s c src len b hc h hlo hhi
    obtain ⟨out, hexec⟩ := execIdentityStore_stores (addr := src) (b := b) hc h hlo hhi
    obtain ⟨hlm, alr, obs, hdone, hrec⟩ := State.complete_issues (c.record stOk) (s := { s with
      out, fresh := s.fresh + 1, nvm := { s.nvm with identity := some (b.take len) } }) hc.1.2.2
    exact ⟨_, hexec.trans (congrArg done hdone), rfl, rfl, hrec, rfl⟩
  case opened =>
    intro s c req n rsp room k q resp hc hroom hfew hnew hh
    have hexec := execSpdmMsg_answers (req := req) (n := n) (rsp := rsp) (q := q) (action := .openSession k) hc (.inl rfl) hroom
    rw [State.spdm_openSession (s := { s with out := [.memRead c.stall req n, .memWrite c.stall rsp resp] }) hfew hnew hh] at hexec
    exact hexec

end Sys2Proof.Machine

/-!
Soundings of crossings and samples of the sensors (O4).

Safe Stop leaves the list of crossings being sounded, so an alarm of a crossing keeps what the Sounding took from it. A sample is read as the
value, the channel and the parity that its pins can carry.
-/

namespace Sys2Proof.Machine

/-! ### FREQ_ACK_RETURN_TIMEOUT (R535) -/

theorem State.startCrossing_new {k : Nat} {s : State} (h : s.alr.crossings.contains k = false) :
    s.startCrossing k = { s with alr := { s.alr with crossings := s.alr.crossings ++ [k] } } := by
  rw [State.startCrossing, h, if_neg Bool.false_ne_true]

theorem State.startCrossing_runs (k : Nat) (s : State) : ∃ alr, s.startCrossing k = { s with alr } ∧ k ∈ alr.crossings := by
  by_cases h : s.alr.crossings.contains k = true
  · exact ⟨s.alr, by rw [State.startCrossing, if_pos h], by simpa using h⟩
  · exact ⟨_, State.startCrossing_new (Bool.not_eq_true _ ▸ h), by simp⟩

theorem execFreqAckReturnTimeout_due {s : State} {d : Nat} (ret : Bool) (hd : s.mon.ackDeadline = some d) (hdue : d ≤ s.clk.elapsed) :
    execFreqAckReturnTimeout ret s = done (
      let u : State := { s with out := [], pins := { s.pins with freqAckRet := ret }, mon := { s.mon with ackDeadline := none } }
      if ret = s.mon.freqAck then u else u.startCrossing 1) := by
  rw [execFreqAckReturnTimeout]
  simp only [State.begin_mon, hd]
  exact congrArg done (if_neg (Nat.not_lt.mpr hdue))

/-! ### CROSSING_SOUNDING_DONE (R535) -/

theorem State.enterSafeStop_crossings (s : State) : s.enterSafeStop.alr.crossings = s.alr.crossings := by
  unfold State.enterSafeStop
  cases s.rst.rstBusy
  · show (State.enterQuiet _).alr.crossings = _
    unfold State.enterQuiet
    split <;> rfl
  · rfl

theorem State.alarmClock_crossings (unit cause word : Nat) (s : State) : (s.alarmClock unit cause word).alr.crossings = s.alr.crossings := by
  refine (State.enterSafeStop_crossings (s.clockLogged unit cause word)).trans ?_
  show (s.alr.logEntry _ _).crossings = _
  rw [Alr.logEntry_frame]

/-- The state with a crossing's Sounding over and reported (R532, R542). -/
def State.crossingSounded (k cls : Nat) (s : State) : State :=
  ({ s with out := [], alr := { s.alr with crossings := s.alr.crossings.erase k } } : State).sounding unitRcu 4 cls

section
variable {s : State} {k : Nat} (hk : s.alr.crossings.contains k = true)
include hk

theorem execCrossingSoundingDone_transient : execCrossingSoundingDone k false s = done (s.crossingSounded k 2) := by
  rw [execCrossingSoundingDone]
  exact congrArg done (if_neg (not_not_intro hk))

theorem execCrossingSoundingDone_clock (hc : k ≤ 2) :
    execCrossingSoundingDone k true s = done ((s.crossingSounded k 1).alarmClock unitRcu 6 k) := by
  rw [execCrossingSoundingDone]
  exact congrArg done ((if_neg (not_not_intro hk)).trans (if_pos hc))

theorem execCrossingSoundingDone_sensor (hc : 2 < k) :
    execCrossingSoundingDone k true s = done ((s.crossingSounded k 1).alarmIntegrity unitRcu none none 7 k) := by
  rw [execCrossingSoundingDone]
  exact congrArg done ((if_neg (not_not_intro hk)).trans (if_neg (Nat.not_le.mpr hc)))

end

/-! ### TEMP_SAMPLE_CAPTURE and RAIL_SAMPLE_CAPTURE (R95, R535, R572) -/

theorem execTempSampleCapture_eq {s : State} {val par : Nat} (hv : val < 4096) :
    execTempSampleCapture val par s = done (
      let t : State := { s with out := [], pins := { s.pins with tempFlag := !s.pins.tempFlag } }
      if (popcount 12 val + par) % 2 = 0 then { t with mon := { t.mon with temp := BitVec.ofNat 12 val } } else t.startCrossing 4) := by
  rw [execTempSampleCapture]
  simp only [Nat.mod_eq_of_lt hv]
  rfl

/-- The state in which a rail sample arrives: its flag has toggled. -/
def State.railSeen (s : State) : State := { s with out := [], pins := { s.pins with railFlag := !s.pins.railFlag } }

theorem execRailSampleCapture_eq {s : State} {val ch par : Nat} (hv : val < 2 ^ 32) (hc : ch < 16) :
    execRailSampleCapture val ch par s = done (
      if (popcount 32 val + popcount 4 ch + par) % 2 = 0 then s.railSeen.stySample ch val
      else (s.railSeen.styDiscard ch).startCrossing 3) := by
  rw [execRailSampleCapture]
  simp only [Nat.mod_eq_of_lt hv, Nat.mod_eq_of_lt hc]
  rfl

section
variable {s : State} {ch : Nat} (hb : s.build.sty = true)
include hb

theorem State.stySuspect_first {cause mask : Nat} (h : s.sty.suspectCause = 0) :
    s.stySuspect cause mask = { s with sty := { s.sty with suspectCause := cause, suspectMask := s.sty.suspectMask ||| mask } } := by
  rw [State.stySuspect, if_neg (not_not_intro hb), if_pos h]

/-- Outside a gap a good sample accounts the channel's interval at the sample's own power. -/
theorem State.stySample_good {val : Nat} (he : s.styEnabled ch = true) (hg : s.styGap ch = false) :
    ∃ chans, s.stySample ch val = { s with sty := { s.sty with
      chans
      energy := s.sty.energy + s.cfg.sty.calibrate ch val *
        ((s.clk.elapsed - (s.sty.chans.getD ch StyChan.fresh).upTo.getD s.clk.elapsed) / 10) } } := by
  have hno : ¬ (¬ s.build.sty = true ∨ ¬ s.styEnabled ch = true) := by simp [hb, he]
  have hin : ¬ (s.styGap ch = true ∧ (s.sty.chans.getD ch StyChan.fresh).sampled.isSome = true) := by simp [hg]
  rw [State.stySample, if_neg hno]
  simp only [if_neg hin]
  exact ⟨_, rfl⟩

theorem State.styDiscard_first (he : s.styEnabled ch = true) (h : s.sty.suspectCause = 0) :
    ∃ sty, s.styDiscard ch = { s with sty } ∧ sty.suspectCause = 2 ∧ sty.suspectMask = s.sty.suspectMask ||| 2 ^ ch := by
  have hno : ¬ (¬ s.build.sty = true ∨ ¬ s.styEnabled ch = true) := by simp [hb, he]
  rw [State.styDiscard, if_neg hno, State.stySuspect_first (s := s.styAccount ch _) hb h]
  exact ⟨_, rfl, rfl, rfl⟩

theorem execRailChannelGap_suspect (hg : s.styGap ch = true) (h : s.sty.suspectCause = 0) :
    ∃ chans, execRailChannelGap ch s = done { s with
      out := []
      sty := { s.sty with
        chans, suspectCause := 1, suspectMask := s.sty.suspectMask ||| 2 ^ ch
        energy := s.sty.energy + (s.sty.chans.getD ch StyChan.fresh).power *
          ((s.clk.elapsed - (s.sty.chans.getD ch StyChan.fresh).upTo.getD s.clk.elapsed) / 10) } } := by
  have hin : s.begin.build.sty = true ∧ s.begin.styGap ch = true := ⟨hb, hg⟩
  have hexec : execRailChannelGap ch s =
      done ((s.begin.styAccount ch (s.sty.chans.getD ch StyChan.fresh).power).stySuspect 1 (2 ^ ch)) := congrArg done (if_pos hin)
  rw [hexec, State.stySuspect_first (s := s.begin.styAccount ch _) hb h]
  exact ⟨_, rfl⟩

end

/-! ### The statement -/

/-- Settles O4: the command of each sensor or crossing, and what the alarm or the account it leads to leaves. -/
theorem crossingsAndSensors : Obligations.CrossingsAndSensors := by
  refine ⟨?same, ?differs, ?transient, ?clock, ?sensor, ?temp, ?tempOdd, ?rail, ?railOdd, ?gap⟩
  case same =>
    intro s d ret hd hdue h
    exact (execFreqAckReturnTimeout_due ret hd hdue).trans (congrArg done (if_pos h))
  case differs =>
    intro s d ret hd hdue h hnew
    exact (execFreqAckReturnTimeout_due ret hd hdue).trans (congrArg done ((if_neg h).trans (State.startCrossing_new hnew)))
  case transient =>
    intro s k hk
    exact ⟨_, execCrossingSoundingDone_transient hk, rfl, rfl, rfl, rfl⟩
  case clock =>
    intro s k hk hc
    have ha := State.alarmClock_alarmed unitRcu 6 k (s.crossingSounded k 1)
    exact ⟨_, execCrossingSoundingDone_clock hk hc, ha.clock, ha.safeStop, State.alarmClock_crossings .., ha.sbx, ha.ldg⟩
  case sensor =>
    intro s k hk hc
    have hexec := execCrossingSoundingDone_sensor hk hc
    rw [State.alarmIntegrity_uncharged, State.logAlarm, Alr.logEntry_frame] at hexec
    exact ⟨_, hexec, rfl, rfl, rfl, rfl, rfl, rfl, rfl, rfl⟩
  case temp =>
    intro s val par hv h
    exact (execTempSampleCapture_eq hv).trans (congrArg done (if_pos h))
  case tempOdd =>
    intro s val par hv h
    obtain ⟨alr, hstart, hmem⟩ := State.startCrossing_runs 4 { s with out := [], pins := { s.pins with tempFlag := !s.pins.tempFlag } }
    exact ⟨_, (execTempSampleCapture_eq hv).trans (congrArg done ((if_neg (by omega)).trans hstart)), hmem, rfl⟩
  case rail =>
    intro s val ch par hv hch h hb he hg
    obtain ⟨chans, hsample⟩ := State.stySample_good (s := s.railSeen) (val := val) hb he hg
    exact ⟨_, (execRailSampleCapture_eq hv hch).trans (congrArg done ((if_pos h).trans hsample)), rfl, rfl, rfl⟩
  case railOdd =>
    intro s val ch par hv hch h hb he hc
    obtain ⟨sty, hdiscard, hcause, hmask⟩ := State.styDiscard_first (s := s.railSeen) hb he hc
    obtain ⟨alr, hstart, hmem⟩ := State.startCrossing_runs 3 { s.railSeen with sty }
    have hexec := (execRailSampleCapture_eq (s := s) (par := par) hv hch).trans (congrArg done (if_neg (by omega)))
    rw [hdiscard, hstart] at hexec
    exact ⟨_, hexec, hcause, hmask, hmem, rfl⟩
  case gap =>
    intro s ch hb hg hc
    obtain ⟨chans, hexec⟩ := execRailChannelGap_suspect hb hg hc
    exact ⟨_, hexec, rfl, rfl, rfl, rfl⟩

end Sys2Proof.Machine

/-!
The command path: packets, immediate commands, NOP and HINT (O6, O7).

A packet is counted, framed, resolved to a Stall and placed; what a HINT announces touches the yield and the Booth's class alone
(`State.hint_eq`), and a record of a stream touches records, progress and counters alone.
-/

namespace Sys2Proof.Machine

/-! ### Records of a stream -/

/-- Outside the quiet state a command of a stream puts one record behind those waiting and leaves the running commands. -/
theorem State.complete_queues {r : Completion} {s : State} (hq : s.alr.quiet = false) (hw : r.call.window = false) :
    ∃ alr obs, s.complete r = { s with hlm := { s.hlm.drop r.call with cwq := s.hlm.cwq ++ [r] }, alr, obs } :=
  ⟨_, _, State.complete_stream hq hw⟩

/-! ### HINT (R293, R483) -/

/-- The Sweeper's yield after a HINT until a time. -/
def Swp.hinted (now till targets : Nat) (w : Swp) : Option (Nat × Nat) :=
  if targets % 2 = 0 then w.yield
  else match w.yield with
    | some (first, old) => some (first, max old till)
    | none => if w.yieldBlocked = 0 then some (now, till) else none

/-- The end of the Booth's class change after a HINT until a time. -/
def Hlm.hinted (till targets : Nat) (h : Hlm) : Option Nat :=
  if (targets / 2) % 2 = 0 then h.boothClassUntil else some (max (h.boothClassUntil.getD 0) till)

/-- What a HINT makes of the Sweeper's yield: the first half of `State.hint`. -/
def State.hintYield (us targets : Nat) (s : State) : State :=
  if ¬ targets.testBit 0 then s
  else match s.swp.yield with
    | some (first, old) => { s with swp := { s.swp with yield := some (first, max old (s.clk.elapsed + us * 1000)) } }
    | none => if s.swp.yieldBlocked ≠ 0 then s
      else { s with swp := { s.swp with yield := some (s.clk.elapsed, s.clk.elapsed + us * 1000) } }

theorem State.hintYield_eq (us targets : Nat) (s : State) :
    s.hintYield us targets =
      { s with swp := { s.swp with yield := s.swp.hinted s.clk.elapsed (s.clk.elapsed + us * 1000) targets } } := by
  unfold State.hintYield Swp.hinted
  by_cases hs : targets % 2 = 0
  · rw [if_pos (by simp [Nat.testBit_zero, hs]), if_pos hs]
  · rw [if_neg (by simpa [Nat.testBit_zero] using hs), if_neg hs]
    cases hy : s.swp.yield with
    | some p => rfl
    | none =>
      by_cases hz : s.swp.yieldBlocked = 0
      · simp only [hz, ne_eq, not_true_eq_false, if_false, if_true]
      · simp only [hz, ne_eq, not_false_eq_true, if_true, if_false]
        rw [← hy]

theorem State.hint_halves (us targets : Nat) (s : State) :
    s.hint us targets = if targets.testBit 1 then { s.hintYield us targets with
        hlm := { (s.hintYield us targets).hlm with boothClassUntil := some (max ((s.hintYield us targets).hlm.boothClassUntil.getD 0)
          (s.clk.elapsed + us * 1000)) } }
      else s.hintYield us targets := rfl

theorem State.hint_eq (us targets : Nat) (s : State) :
    s.hint us targets = { s with
      swp := { s.swp with yield := s.swp.hinted s.clk.elapsed (s.clk.elapsed + us * 1000) targets }
      hlm := { s.hlm with boothClassUntil := s.hlm.hinted (s.clk.elapsed + us * 1000) targets } } := by
  rw [State.hint_halves, State.hintYield_eq, Hlm.hinted]
  by_cases hb : targets / 2 % 2 = 0
  · rw [if_neg (by simp [Nat.testBit_succ, Nat.testBit_zero, hb]), if_pos hb]
  · rw [if_pos (by simpa [Nat.testBit_succ, Nat.testBit_zero] using hb), if_neg hb]

/-! ### COMMAND_PACKET (R474 to R477) -/

/-- The state in which a packet that Helm takes is looked at: counted. -/
def State.packetSeen (s : State) : State := (s.begin.bump 4 1).bump (ctrHlm 0) 1

/-- A packet rejected is counted and reported by EV_CMD_REJECTED (R474). -/
theorem State.packetSeen_rejected (b : Bytes) (fn qid st : Nat) (s : State) :
    s.packetSeen.rejectPacket b fn qid st = { s with
      out := []
      hlm := { s.hlm with
        rejected := satAdd 65535 s.hlm.rejected 1
        irqUrgent := s.hlm.irqUrgent || urgentEvents.contains evCmdRejected
        fifo := s.hlm.fifo ++ [{ code := evCmdRejected, unit := unitHelm, stall := none, time := s.clk.domain, unanchored := !s.clk.anchored
                                 arg0 := leField b 0 2 + qid * 2 ^ 16 + fn * 2 ^ 24, arg1 := st }] }
      obs := ((s.obs.bump 4 1).bump (ctrHlm 0) 1).bump 6 1 } := by
  unfold State.rejectPacket State.packetSeen
  rfl

theorem leField_drop (b : Bytes) (k off n : Nat) : leField (b.drop k) off n = leField b (k + off) n := by
  rw [leField, leField, slice, slice, List.drop_drop]

section
variable {s : State} {fn qid : Nat} {b : Bytes} (hr : s.cmdReady = true) (hq : s.alr.quiet = false) (ha : s.streamAbsorbed qid = false)
include hr hq ha

theorem execCommandPacket_taken (framed : Bool) :
    execCommandPacket fn qid framed b s = done (
      if ¬ framed ∨ leField b 3 1 = 0 ∨ 8 < leField b 3 1 ∨ b.length ≠ 32 * leField b 3 1 then s.packetSeen.rejectPacket b fn qid stMalformed
      else match s.fnStall? fn with
        | none => s.packetSeen.rejectPacket b fn qid stFnUnmapped
        | some stall => s.packetSeen.placePacket b (callOf b fn qid stall false)) := by
  have hready : ¬ (¬ s.begin.cmdReady = true ∨ s.begin.alr.quiet = true) := by
    rintro (h | h)
    · exact h hr
    · exact Bool.false_ne_true (hq.symm.trans h)
  have habs : ¬ s.begin.streamAbsorbed qid = true := fun h => Bool.false_ne_true (ha.symm.trans h)
  exact congrArg done ((if_neg hready).trans (if_neg habs))

theorem execCommandPacket_malformed {framed : Bool}
    (h : framed = false ∨ leField b 3 1 = 0 ∨ 8 < leField b 3 1 ∨ b.length ≠ 32 * leField b 3 1) :
    execCommandPacket fn qid framed b s = done (s.packetSeen.rejectPacket b fn qid stMalformed) := by
  rw [execCommandPacket_taken hr hq ha, if_pos (by simpa using h)]

section
variable (hpos : leField b 3 1 ≠ 0) (hmax : leField b 3 1 ≤ 8) (hlen : b.length = 32 * leField b 3 1)
include hpos hmax hlen

theorem execCommandPacket_framed :
    execCommandPacket fn qid true b s = done (match s.fnStall? fn with
      | none => s.packetSeen.rejectPacket b fn qid stFnUnmapped
      | some stall => s.packetSeen.placePacket b (callOf b fn qid stall false)) := by
  rw [execCommandPacket_taken hr hq ha, if_neg (by simp [hpos, hmax, hlen])]

theorem execCommandPacket_unmapped (hf : s.fnStall? fn = none) :
    execCommandPacket fn qid true b s = done (s.packetSeen.rejectPacket b fn qid stFnUnmapped) := by
  rw [execCommandPacket_framed hr hq ha hpos hmax hlen, hf]

theorem execCommandPacket_placed {stall : Nat} (hf : s.fnStall? fn = some stall) :
    execCommandPacket fn qid true b s = done (s.packetSeen.placePacket b (callOf b fn qid stall false)) := by
  rw [execCommandPacket_framed hr hq ha hpos hmax hlen, hf]

end
end

/-- Counting a packet changes nothing that the checks of R475 look at. -/
theorem State.packetSeen_status (b : Bytes) (c : Call) (s : State) : s.packetSeen.packetStatus b c = s.packetStatus b c := rfl

theorem State.placePacket_refused {b : Bytes} {c : Call} {s : State} {st d : Nat} (h : s.packetStatus b c = some (st, d)) :
    s.placePacket b c = s.finishDetail c st d := by
  simp only [State.placePacket, h]

theorem State.placePacket_waits {b : Bytes} {c : Call} {s : State} (h : s.packetStatus b c = none) (hop : c.opcode ≠ 0x0101) :
    s.placePacket b c = (({ s with hlm := { s.hlm with
      buffer := s.hlm.buffer ++ [{ call := c, args := packetArgs b, order := s.hlm.accepted, waited := 0 }]
      accepted := s.hlm.accepted + 1 } } : State)).decodeBuffer := by
  simp only [State.placePacket, h, if_neg hop]

theorem State.placePacket_hint {b : Bytes} {c : Call} {s : State} {i : CmdInfo} (h : s.packetStatus b c = none) (hop : c.opcode = 0x0101)
    (hi : cmdInfo? 0x0101 = some i) (hg : s.gate c i = .run) :
    s.placePacket b c = (s.hint (leField b 0x30 4) (leField b 0x34 1)).finish c stOk := by
  rw [State.placePacket, h]
  dsimp only
  rw [if_pos hop, hi, Option.map_some, hg]
  dsimp only
  rw [arg, arg, packetArgs, leField_drop, leField_drop]

/-- Settles O6: a packet taken is rejected, or placed; a record of a HINT or of a packet that fails a check joins the queue. -/
theorem commandPacketIsCheckedAndPlaced : Obligations.CommandPacketIsCheckedAndPlaced := by
  refine ⟨?malformed, ?unmapped, ?refused, ?placed, ?hint⟩
  case malformed =>
    intro s fn qid framed b hr hq ha h
    exact ⟨_, (execCommandPacket_malformed hr hq ha h).trans (congrArg done (State.packetSeen_rejected ..)), rfl, rfl⟩
  case unmapped =>
    intro s fn qid b hr hq ha hpos hmax hlen hf
    have hexec := execCommandPacket_unmapped hr hq ha hpos hmax hlen hf
    rw [State.packetSeen_rejected] at hexec
    exact ⟨_, hexec, rfl, rfl⟩
  case refused =>
    intro s fn qid stall st d b hr hq ha hpos hmax hlen hf hst
    have hexec := execCommandPacket_placed hr hq ha hpos hmax hlen hf
    obtain ⟨alr, obs, hdone⟩ := State.complete_queues (s := s.packetSeen)
      (r := { (callOf b fn qid stall false).record st with detail := d }) hq rfl
    rw [State.placePacket_refused ((State.packetSeen_status ..).trans hst), State.finishDetail, hdone] at hexec
    exact ⟨_, hexec, rfl, rfl, rfl, rfl, rfl⟩
  case placed =>
    intro s fn qid stall b hr hq ha hpos hmax hlen hf hst hop
    have hexec := execCommandPacket_placed hr hq ha hpos hmax hlen hf
    rw [State.placePacket_waits ((State.packetSeen_status ..).trans hst) hop] at hexec
    exact ⟨_, hexec, rfl, rfl⟩
  case hint =>
    intro s fn qid stall b i hr hq ha hpos hmax hlen hf hst hop hi hg
    have hexec := execCommandPacket_placed hr hq ha hpos hmax hlen hf
    rw [State.placePacket_hint ((State.packetSeen_status ..).trans hst) hop hi hg, State.hint_eq] at hexec
    obtain ⟨alr, obs, hdone⟩ := State.complete_queues (r := (callOf b fn qid stall false).record stOk)
      (s := { s.packetSeen with
        swp := { s.swp with yield := s.swp.hinted s.clk.elapsed (s.clk.elapsed + leField b 0x30 4 * 1000) (leField b 0x34 1) }
        hlm := { s.hlm with boothClassUntil := s.hlm.hinted (s.clk.elapsed + leField b 0x30 4 * 1000) (leField b 0x34 1) } }) hq rfl
    rw [State.hint_eq]
    exact ⟨_, hexec.trans (congrArg done hdone), rfl, rfl, rfl, rfl, rfl, rfl⟩

/-! ### COMMAND_START (R478) -/

section
variable {s : State} (hs : s.serving) (hc : s.rst.coreReset = none)
include hs hc

theorem execCommandStart_serving :
    execCommandStart s = done (
      let t := s.begin.decodeBuffer
      let heads := t.hlm.buffer.filter t.atHead
      match heads.find? fun q => t.waitBroken q.call with
      | some q => ({ t with hlm := { t.hlm with buffer := t.hlm.buffer.erase q } } : State).finish q.call stMarkPoisoned
      | none =>
        match heads.find? fun q => !t.waitUnmet q.call && !t.fenceUnmet q with
        | some q => t.startCommand q
        | none => heads.foldl State.noteWait t) := by
  have hno : ¬ (s.begin.alr.quiet = true ∨ s.begin.rst.phase ≠ .service ∨ s.begin.rst.coreReset.isSome = true) := by
    simp [hs.1, hs.2.2, hc]
  exact congrArg done (if_neg hno)

theorem execCommandStart_broken {q : Queued}
    (hq : (s.decodeBuffer.hlm.buffer.filter s.decodeBuffer.atHead).find? (fun q => s.waitBroken q.call) = some q) :
    execCommandStart s = done (({ s.begin with hlm := { s.decodeBuffer.hlm with
      buffer := s.decodeBuffer.hlm.buffer.erase q } } : State).finish q.call stMarkPoisoned) := by
  have hq' : (s.begin.decodeBuffer.hlm.buffer.filter s.begin.decodeBuffer.atHead).find?
      (fun q => s.begin.decodeBuffer.waitBroken q.call) = some q := hq
  rw [execCommandStart_serving hs hc]
  simp only [hq']
  rfl

theorem execCommandStart_starts {q : Queued}
    (hnone : (s.decodeBuffer.hlm.buffer.filter s.decodeBuffer.atHead).find? (fun q => s.waitBroken q.call) = none)
    (hq : (s.decodeBuffer.hlm.buffer.filter s.decodeBuffer.atHead).find?
      (fun q => !s.waitUnmet q.call && !s.decodeBuffer.fenceUnmet q) = some q) :
    execCommandStart s = done (s.begin.decodeBuffer.startCommand q) := by
  have hnone' : (s.begin.decodeBuffer.hlm.buffer.filter s.begin.decodeBuffer.atHead).find?
      (fun q => s.begin.decodeBuffer.waitBroken q.call) = none := hnone
  have hq' : (s.begin.decodeBuffer.hlm.buffer.filter s.begin.decodeBuffer.atHead).find?
      (fun q => !s.begin.decodeBuffer.waitUnmet q.call && !s.begin.decodeBuffer.fenceUnmet q) = some q := hq
  rw [execCommandStart_serving hs hc]
  simp only [hnone', hq']

end

/-- A command that starts leaves the buffer and runs; of its waits only the records change. -/
theorem State.startCommand_runs (q : Queued) (s : State) :
    ∃ obs, s.startCommand q = { s with obs, hlm := { s.hlm with buffer := s.hlm.buffer.erase q, running := s.hlm.running ++ [q] } } := by
  rw [State.startCommand, State.waitEnd_frame, State.waitEnd_frame]
  exact ⟨_, rfl⟩

/-! ### NOP, HINT and the end of the Booth's class (R478, R483) -/

theorem execNop_ends {s : State} {c : Call} (hc : s.admits c 0x0100) : execNop c s = done (s.begin.finish c stOk) := by
  rw [execNop, State.command_run hc]

theorem execHint_acts {s : State} {c : Call} (us targets : Nat) (hc : s.admits c 0x0101) :
    execHint c us targets s = done ((s.begin.hint us targets).finish c stOk) := by
  rw [execHint, State.command_run hc]

theorem execHintBoothClassEnd_due {s : State} {e : Nat} (he : s.hlm.boothClassUntil = some e) (hdue : e ≤ s.clk.elapsed) :
    execHintBoothClassEnd s = done { s with out := [], hlm := { s.hlm with boothClassUntil := none } } := by
  rw [execHintBoothClassEnd]
  simp only [State.begin_hlm, he, Option.any_some, State.begin_clk, hdue, decide_true, if_true]
  rfl

theorem execHintBoothClassEnd_early {s : State} (h : s.hlm.boothClassUntil.all (fun e => s.clk.elapsed < e) = true) :
    execHintBoothClassEnd s = done s.begin := by
  refine congrArg done (if_neg fun hany => ?_)
  have hany' : s.hlm.boothClassUntil.any (fun e => decide (e ≤ s.clk.elapsed)) = true := hany
  cases he : s.hlm.boothClassUntil with
  | none => simp [he] at hany'
  | some e =>
    simp only [he, Option.any_some, Option.all_some, decide_eq_true_eq] at hany' h
    omega

/-- Settles O7: the start of the first command that may start, and the ends of NOP and HINT. -/
theorem commandStartNopAndHint : Obligations.CommandStartNopAndHint := by
  refine ⟨?broken, ?starts, fun s c hc => execNop_ends hc, ?hint, fun s e he hdue => execHintBoothClassEnd_due he hdue,
    fun s h => execHintBoothClassEnd_early h⟩
  case broken =>
    intro s q hs hc hq hw
    have hexec := execCommandStart_broken hs hc hq
    obtain ⟨alr, obs, hdone⟩ := State.complete_queues (r := q.call.record stMarkPoisoned)
      (s := { s.begin with hlm := { s.decodeBuffer.hlm with buffer := s.decodeBuffer.hlm.buffer.erase q } }) hs.2.2 hw
    exact ⟨_, hexec.trans (congrArg done hdone), rfl, rfl, rfl, rfl⟩
  case starts =>
    intro s q hs hc hnone hq
    obtain ⟨obs, hstart⟩ := s.begin.decodeBuffer.startCommand_runs q
    exact ⟨_, (execCommandStart_starts hs hc hnone hq).trans (congrArg done hstart), rfl, rfl⟩
  case hint =>
    intro s c us targets hc
    refine (execHint_acts us targets hc).trans ?_
    rw [State.hint_eq]
    rfl

end Sys2Proof.Machine

/-!
Freeze and thaw (O16), with what the Stall manager's commands share.

A record written is one update of the Stall's tables and its digest items queued (`State.writeRecord_eq`); items queued for the store touch
outputs and the store's queue alone (`OnlyQueued`); a command that waits for items touches waits and records alone (`OnlyAwaited`); a squash of
a Stall's work leaves the Ledger, the epoch and the Strongbox (`OnlySquashed`).
-/

namespace Sys2Proof.Machine

/-! ### Items queued for the store (R302) -/

/-- From `s` to `t` only outputs and the queue of the store differ. -/
def OnlyQueued (s t : State) : Prop :=
  t = { s with
    out := t.out
    ldg := { s.ldg with
      items := t.ldg.items, flight := t.ldg.flight, counter := t.ldg.counter, logPos := t.ldg.logPos, logWait := t.ldg.logWait } }

theorem State.queueItems_only (is : List DeltaItem) (s : State) : OnlyQueued s (s.queueItems is) := by
  unfold State.queueItems State.flushStore
  split
  · rfl
  · split
    · rfl
    · dsimp only
      rfl

/-- An item that stands in the queue is pending. -/
theorem State.itemPending_of_mem {i : DeltaItem} {s : State} (h : i ∈ s.ldg.items) : s.itemPending i = true := by
  simp [State.itemPending, h]

/-! ### Commands that wait for items (R283, R302) -/

/-- From `s` to `t` only waits, records, progress and counters differ. -/
def OnlyAwaited (s t : State) : Prop :=
  t = { s with ldg := { s.ldg with waits := t.ldg.waits }, hlm := t.hlm, alr := t.alr, obs := t.obs }

theorem State.finishAnchored_only (c : Call) (st : Nat) (b : Bytes) (rs : List RegionId) (is : List DeltaItem) (s : State) :
    OnlyAwaited s (s.finishAnchored c st b rs is) := by
  unfold State.finishAnchored
  dsimp only
  split
  · rw [State.complete_frame]
    rfl
  · rfl

/-- With one of its items pending a command waits. -/
theorem State.finishAnchored_waits {c : Call} {st : Nat} {b : Bytes} {rs : List RegionId} {is : List DeltaItem} {s : State}
    (h : ∃ i ∈ is, s.itemPending i = true) :
    s.finishAnchored c st b rs is = { s with ldg := { s.ldg with
      waits := s.ldg.waits ++ [{ call := c, status := st, result := b, regions := rs, items := is.filter s.itemPending }] } } := by
  obtain ⟨i, hi, hp⟩ := h
  have hne : ¬ ((is.filter s.itemPending).isEmpty = true ∧ rs.isEmpty = true) := by
    rintro ⟨he, -⟩
    rw [List.isEmpty_iff, List.filter_eq_nil_iff] at he
    exact he i hi hp
  unfold State.finishAnchored
  exact if_neg hne

/-! ### Records of Stalls (R396 to R398) -/

/-- The tables with a Stall's record written: VERSION up, the record's digest noted. -/
def Stl.recorded (id : Nat) (x : Stall) (d : StallData) (sha : Bytes) (l : Stl) : Stl :=
  let x' : Stall := { x with version := x.version + 1 }
  let d' : StallData := { d with recordDigest := sha }
  { l with table := assocSet id x' l.table, data := assocSet id d' l.data, records := assocSet id (x', d') l.records }

section
variable {id : Nat} {x : Stall} {d : StallData} {s : State} (hx : s.stall? id = some x) (hd : s.stallData? id = some d)
include hx hd

theorem State.writeRecord_eq :
    ∃ img, s.writeRecord id = ({ s with
      out := s.out ++ [.memWrite 0 (s.recordAddr id) img], fresh := s.fresh + 1, stl := s.stl.recorded id x d (sha384 img) } : State).queueItems
        (digestItems id (sha384 img)) := by
  unfold State.writeRecord
  simp only [hx, hd]
  generalize s.recordImage _ _ _ _ _ = img
  refine ⟨img, ?_⟩
  generalize sha384 img = sha
  simp only [State.setStallData, State.setStall, State.emit, State.tookDraw, Stl.recorded]

/-- A record written touches the Stall's tables, outputs, the draw of its nonce and the store's queue. -/
theorem State.writeRecord_tables :
    ∃ sha out fresh, OnlyQueued { s with out, fresh, stl := s.stl.recorded id x d sha } (s.writeRecord id) := by
  obtain ⟨img, h⟩ := State.writeRecord_eq hx hd
  rw [h]
  exact ⟨_, _, _, State.queueItems_only ..⟩

/-- While a record of the store is in flight the digest items join the queue. -/
theorem State.writeRecord_inFlight (hf : s.ldg.flight.isSome = true) :
    ∃ sha out fresh, s.writeRecord id = { s with
      out, fresh, stl := s.stl.recorded id x d sha, ldg := { s.ldg with items := s.ldg.items ++ digestItems id sha } } := by
  obtain ⟨img, h⟩ := State.writeRecord_eq hx hd
  refine ⟨sha384 img, _, _, h.trans (State.queueItems_inFlight _ ?_)⟩
  exact hf

end

theorem Stl.recorded_stall (id : Nat) (x : Stall) (d : StallData) (sha : Bytes) (l : Stl) :
    assocGet id (l.recorded id x d sha).table = some { x with version := x.version + 1 } :=
  (assocGet_assocSet ..).trans (if_pos rfl)

theorem Stl.recorded_data (id : Nat) (x : Stall) (d : StallData) (sha : Bytes) (l : Stl) :
    assocGet id (l.recorded id x d sha).data = some { d with recordDigest := sha } :=
  (assocGet_assocSet ..).trans (if_pos rfl)

theorem digestItems_ne_nil (id : Nat) (sha : Bytes) : ∃ i, i ∈ digestItems id sha :=
  ⟨_, List.mem_map_of_mem (List.mem_range.mpr (by decide : 0 < 6))⟩

/-! ### The squash of a Stall's work (R413 step 3, R415) -/

/-- From `s` to `t` only tiles, the Booth, the Tollgate, tables of Stalls, records, progress, counters and outputs differ. -/
def OnlySquashed (s t : State) : Prop :=
  t = { s with
    lse := t.lse, bth := t.bth, tol := t.tol, stl := { s.stl with data := t.stl.data }, hlm := t.hlm, alr := t.alr, obs := t.obs, out := t.out }

theorem OnlySquashed.trans {s t u : State} (h : OnlySquashed s t) (k : OnlySquashed t u) : OnlySquashed s u := by
  unfold OnlySquashed at *
  rw [k, h]

theorem State.poisonStall_squashed (id : Nat) (s : State) : OnlySquashed s (s.poisonStall id) := by
  unfold State.poisonStall
  refine List.foldlRecOn (motive := OnlySquashed s) _ _ rfl fun t ht i _ => ht.trans ?_
  dsimp only
  split <;> rfl

theorem State.complete_squashed (r : Completion) (s : State) : OnlySquashed s (s.complete r) := by
  rw [State.complete_frame]
  rfl

theorem State.squashBooth_squashed (st : Nat) (s : State) : OnlySquashed s (s.squashBooth st) := by
  unfold State.squashBooth
  split
  · rfl
  · dsimp only
    split <;>
    · refine OnlySquashed.trans ?_ (State.complete_squashed ..)
      rfl

theorem State.squashToll_squashed (st : Nat) (s : State) : OnlySquashed s (s.squashToll st) := by
  unfold State.squashToll
  split
  · rfl
  · split
    · rfl
    · dsimp only
      refine OnlySquashed.trans ?_ (State.complete_squashed ..)
      split
      · unfold State.modStallData
        split <;> rfl
      · rfl

/-- Every MSE is sent the squash, and beside the work squashed nothing changes. -/
theorem State.squashWork_squashed (id : Nat) (s : State) : OnlySquashed (s.spineMses (.squash id)) (s.squashWork id) := by
  have hpoison := (s.spineMses (.squash id)).poisonStall_squashed id
  unfold State.squashWork
  extract_lets t u
  have hu : OnlySquashed (s.spineMses (.squash id)) u := by
    unfold u
    split
    · exact hpoison.trans (State.squashBooth_squashed ..)
    · exact hpoison
  split
  · exact hu.trans (State.squashToll_squashed ..)
  · exact hu

theorem State.spineMses_told (m : SpineMsg) (s : State) : (s.spineMses m).mse.all (fun e => e.spine.queue.contains m) = true := by
  simp [State.spineMses, Spine.send]

/-! ### STALL_FREEZE (R415) -/

theorem find?_of_any_false {α : Type} {p : α → Bool} {l : List α} (h : l.any p = false) : l.find? p = none :=
  List.find?_eq_none.mpr (List.any_eq_false.mp h)

/-- A refusal just sent is held by the first MSE. -/
theorem State.sendRefusal_held {id : Nat} {s : State} (hm : s.mse ≠ []) : (s.sendRefusal id).spineHolds (.refusal id (s.refusesStall id)) = true := by
  obtain ⟨m, ms, hms⟩ := List.exists_cons_of_ne_nil hm
  simp [State.sendRefusal, State.spineAll, State.spineMses, State.spineHolds, hms, Spine.holds, Spine.send]

theorem State.stall?_setStall (id : Nat) (x : Stall) (s : State) : (s.setStall id x).stall? id = some x :=
  (assocGet_assocSet ..).trans (if_pos rfl)

theorem State.setStall_refuses {id : Nat} {x : Stall} {s : State} (h : x.state = .frozen) : (s.setStall id x).refusesStall id = true := by
  simp [State.refusesStall, State.stallState, State.stall?_setStall, h]

/-- The state in which a freeze waits for the drain: the Stall FROZEN, every tile told, the freeze noted. -/
def State.freezing (f : Freeze) (x : Stall) (s : State) : State :=
  { s with
    out := []
    stl := { s.stl with table := assocSet f.stall { x with state := .frozen } s.stl.table, freezes := s.stl.freezes ++ [f] }
    mse := s.mse.map fun m => { m with spine := m.spine.send (.refusal f.stall true) }
    lse := s.lse.map fun l => { l with spine := l.spine.send (.refusal f.stall true) }
    hse := s.hse.map fun h => { h with spine := h.spine.send (.refusal f.stall true) } }

section
variable {s : State} {c : Call} {id flist : Nat} {ok : Bool} (hc : s.admits c 0x0403)
  (hnone : s.stl.freezes.any (fun f => decide (f.call = c)) = false)
include hc hnone

theorem execStallFreeze_first :
    execStallFreeze c id flist ok s = done (match keyedStatus (s.stallState id) with
      | some st => s.begin.finish c st
      | none =>
        if ¬ s.plainRange flist (8 * (s.freezeRegions id).length + 1) then s.begin.finish c stRegionState
        else
          let f : Freeze := { stall := id, since := s.clk.elapsed, list := flist, squashed := false, call := c }
          let u := (s.begin.modStall id fun x => { x with state := .frozen }).sendRefusal id
          ({ u with stl := { u.stl with freezes := u.stl.freezes ++ [f] } } : State).freezeStep f ok) := by
  rw [execStallFreeze, find?_of_any_false hnone, State.command_run hc]
  rfl

theorem execStallFreeze_unkeyed {st : Nat} (h : keyedStatus (s.stallState id) = some st) :
    execStallFreeze c id flist ok s = done (s.begin.finish c st) := by
  rw [execStallFreeze_first hc hnone, h]

theorem execStallFreeze_starts {x : Stall} (hx : s.stall? id = some x) (hk : x.state = .keyed)
    (hr : s.plainRange flist (8 * (s.freezeRegions id).length + 1) = true) (hm : s.mse ≠ []) :
    execStallFreeze c id flist ok s =
      done (s.freezing { stall := id, since := s.clk.elapsed, list := flist, squashed := false, call := c } x) := by
  have hkeyed : keyedStatus (s.stallState id) = none := by simp [State.stallState, hx, hk, keyedStatus]
  have hx' : s.begin.stall? id = some x := hx
  have hmod : s.begin.modStall id (fun x => { x with state := .frozen }) = s.begin.setStall id { x with state := .frozen } := by
    simp only [State.modStall, hx']
  have hrefuses : (s.begin.setStall id { x with state := .frozen }).refusesStall id = true := State.setStall_refuses rfl
  have hheld := State.sendRefusal_held (id := id) (s := s.begin.setStall id { x with state := .frozen }) hm
  rw [execStallFreeze_first hc hnone, hkeyed]
  simp only [hr, not_true_eq_false, if_false, hmod]
  unfold State.sendRefusal at hheld ⊢
  rw [hrefuses] at hheld ⊢
  refine congrArg done ((if_pos (.inl hheld)).trans ?_)
  simp only [State.freezing, State.spineAll, State.spineMses, State.setStall, State.begin]

end

/-- The tables of a Stall whose freeze lists no region. -/
def StallData.frozenAt (epoch : Nat) (d : StallData) : StallData := { d with freezeList := sha384 [], freezeEpoch := epoch }

/-- From `s` to `t` only outputs, draws, the store's queue, waits, records, progress and counters differ. -/
def OnlyStored (s t : State) : Prop :=
  t = { s with
    out := t.out, fresh := t.fresh, hlm := t.hlm, alr := t.alr, obs := t.obs
    ldg := { s.ldg with
      items := t.ldg.items, flight := t.ldg.flight, counter := t.ldg.counter, logPos := t.ldg.logPos, logWait := t.ldg.logWait
      waits := t.ldg.waits } }

theorem OnlyStored.trans {s t u : State} (h : OnlyStored s t) (k : OnlyStored t u) : OnlyStored s u := by
  unfold OnlyStored at *
  rw [k, h]

theorem OnlyQueued.stored {s t : State} (h : OnlyQueued s t) : OnlyStored s t := by
  unfold OnlyQueued at h
  rw [h]
  rfl

theorem OnlyAwaited.stored {s t : State} (h : OnlyAwaited s t) : OnlyStored s t := by
  unfold OnlyAwaited at h
  rw [h]
  rfl

/-- A Stall's record written, and the command that waits for it: beside the Stall's tables only the store's work and records change. -/
theorem State.writeRecord_stored {id : Nat} {x : Stall} {d : StallData} {s : State} (hx : s.stall? id = some x)
    (hd : s.stallData? id = some d) : ∃ sha, OnlyStored { s with stl := s.stl.recorded id x d sha } (s.writeRecord id) := by
  obtain ⟨sha, out, fresh, h⟩ := State.writeRecord_tables hx hd
  exact ⟨sha, OnlyStored.trans (t := { s with out, fresh, stl := s.stl.recorded id x d sha }) rfl h.stored⟩

/-- The end of a freeze that lists no region: its list and its record are written, and the command waits for the record. -/
theorem State.endFreeze_noRegions {f : Freeze} {d : StallData} {x : Stall} {s : State} (hr : s.freezeRegions f.stall = [])
    (hd : s.stallData? f.stall = some d) (hx : s.stall? f.stall = some x) (hs : s.ldg.changes = []) :
    ∃ sha, OnlyStored { s with stl := Stl.recorded f.stall x (d.frozenAt s.epo.epoch) sha { s.stl with
      freezes := s.stl.freezes.erase f, data := assocSet f.stall (d.frozenAt s.epo.epoch) s.stl.data } } (s.endFreeze f true) := by
  have hd' : State.stallData? { s with stl := { s.stl with freezes := s.stl.freezes.erase f } } f.stall = some d := hd
  unfold State.endFreeze
  simp only [hr, List.flatMap_nil, List.foldl_nil, List.filter_nil, State.modStallData, hd', if_true]
  generalize hu : State.emit _ _ = u
  have hux : u.stall? f.stall = some x := by subst hu; exact hx
  have hud : u.stallData? f.stall = some (d.frozenAt s.epo.epoch) := by
    subst hu
    exact (assocGet_assocSet ..).trans (if_pos rfl)
  obtain ⟨sha, hw⟩ := State.writeRecord_stored hux hud
  generalize hv : (u.writeRecord f.stall).bump (ctrStl 5) 1 = v
  have hv' : OnlyStored { u with stl := u.stl.recorded f.stall x (d.frozenAt s.epo.epoch) sha } v := by
    subst hv
    exact hw.trans rfl
  have hall := hv'.trans (v.finishAnchored_only f.call stOk (leBytes 4 ([] : List RegionId).length) [] (v.recordItems f.stall)).stored
  have hchanges := (congrArg (·.ldg.changes) hall :)
  subst hu
  rw [State.settle_none (hchanges.trans hs)]
  exact ⟨sha, OnlyStored.trans (by rfl) hall⟩

section
variable {s : State} {c : Call} {id flist : Nat} {f : Freeze} (hf : s.stl.freezes.find? (fun f => f.call = c) = some f)
include hf

/-- Once every tile has acknowledged and the Stall's work has ended, the freeze is over. -/
theorem execStallFreeze_ends (hq : s.alr.quiet = false) (hr : s.spineHolds (.refusal f.stall true) = false)
    (hsq : s.spineHolds (.squash f.stall) = false) (hw : s.stallWork f.stall = false) :
    execStallFreeze c id flist true s = done (s.begin.endFreeze f true) := by
  have hgo : ¬ (s.begin.spineHolds (.refusal f.stall true) = true ∨ s.begin.spineHolds (.squash f.stall) = true ∨
      s.begin.stallWork f.stall = true ∨ s.begin.alr.quiet = true) := by
    have hr' : s.begin.spineHolds (.refusal f.stall true) = false := hr
    have hsq' : s.begin.spineHolds (.squash f.stall) = false := hsq
    have hw' : s.begin.stallWork f.stall = false := hw
    simp [hr', hsq', hw', hq]
  rw [execStallFreeze, hf]
  exact congrArg done (if_neg hgo)

end

/-! ### FREEZE_DRAIN_TIMEOUT (R415) -/

section
variable {s : State} {id : Nat} {f : Freeze} (hf : s.stl.freezes.find? (fun f => f.stall = id) = some f)
include hf

theorem execFreezeDrainTimeout_eq :
    execFreezeDrainTimeout id s = done (if f.squashed ∨ ¬ s.expired f.since s.drainNs then s.begin
      else ({ s.begin with stl := { s.stl with
        freezes := s.stl.freezes.map fun x => if x = f then { f with squashed := true } else x } } : State).squashWork id) := by
  have hf' : s.begin.stl.freezes.find? (fun f => f.stall = id) = some f := hf
  unfold execFreezeDrainTimeout
  simp only [hf']
  rfl

theorem execFreezeDrainTimeout_early (h : f.squashed = true ∨ s.clk.elapsed < f.since + s.drainNs) :
    execFreezeDrainTimeout id s = done s.begin := by
  rw [execFreezeDrainTimeout_eq hf, if_pos]
  rcases h with h | h
  · exact .inl h
  · exact .inr (by simpa [State.expired] using h)

theorem execFreezeDrainTimeout_due (hs : f.squashed = false) (h : f.since + s.drainNs ≤ s.clk.elapsed) :
    execFreezeDrainTimeout id s = done (({ s.begin with stl := { s.stl with
      freezes := s.stl.freezes.map fun x => if x = f then { f with squashed := true } else x } } : State).squashWork id) := by
  rw [execFreezeDrainTimeout_eq hf, if_neg (by simp [hs, State.expired, h])]

end

/-! ### STALL_THAW (R415) -/

/-- The grants of regions that a thaw returns to SEALED. -/
def State.thawGrants (s : State) (rs : List RegionId) : List (RegionId × LdgEntry) :=
  rs.map fun r => (r, { s.entry r with state := .sealed })

/-- The Stall KEYED, every tile told, and the grants of its frozen regions queued behind the record in flight. -/
def State.thawing (id : Nat) (x : Stall) (rs : List RegionId) (s : State) : State :=
  let m := SpineMsg.refusal id ((s.setStall id { x with state := .keyed }).refusesStall id)
  { s with
    out := []
    stl := { s.stl with table := assocSet id { x with state := .keyed } s.stl.table }
    mse := s.mse.map fun e => { e with spine := e.spine.send m }
    lse := s.lse.map fun e => { e with spine := e.spine.send m }
    hse := s.hse.map fun e => { e with spine := e.spine.send m }
    ldg := { s.ldg with
      grants := s.ldg.grants ++ s.thawGrants rs, items := s.ldg.items ++ (s.thawGrants rs).map fun g => DeltaItem.entry g.1 g.2 } }

theorem State.thawing_stall (id : Nat) (x : Stall) (rs : List RegionId) (s : State) :
    (s.thawing id x rs).stall? id = some { x with state := .keyed } := (assocGet_assocSet ..).trans (if_pos rfl)

section
variable {s : State} {c : Call} {id : Nat} {x : Stall} (hc : s.admits c 0x0404) (hx : s.stall? id = some x)
include hc hx

theorem execStallThaw_status {st : Nat}
    (h : (if x.state ≠ .frozen then some (if x.state = .lost ∨ x.state = .removing then stStallLost else stStallFrozen)
      else if x.saved then some stStallMigrated else if x.rebase then some stMigRebasing else none) = some st) :
    execStallThaw c id s = done (s.begin.finish c st) := by
  have hx' : s.begin.stall? id = some x := hx
  rw [execStallThaw, State.command_run hc]
  simp only [hx']
  split at h
  next hn => rw [if_pos hn]; cases h; rfl
  next hn =>
    rw [if_neg hn]
    split at h
    next hs => rw [if_pos hs]; cases h; rfl
    next hs =>
      rw [if_neg hs]
      split at h
      next hr => rw [if_pos hr]; cases h; rfl
      next => cases h

theorem execStallThaw_thaws {rs : List RegionId} (hfrozen : x.state = .frozen) (hsaved : x.saved = false) (hrebase : x.rebase = false)
    (hfr : s.stl.freezes = []) (hf : s.ldg.flight.isSome = true) (hrs : s.regionsWhere (fun e => e.owner = id ∧ e.state = .frozen) = rs)
    (hz : rs.all (fun r => !s.zeroFilling r) = true) :
    execStallThaw c id s = done (
      let u := (s.thawing id x rs).writeRecord id
      u.finishAnchored c stOk [] [] (((s.thawGrants rs).map fun g => DeltaItem.entry g.1 g.2) ++ u.recordItems id)) := by
  have hx' : s.begin.stall? id = some x := hx
  have hrs' : s.begin.regionsWhere (fun e => decide (e.owner = id ∧ e.state = .frozen)) = rs := hrs
  have hno : ∀ r ∈ rs, s.zeroFilling r = false := fun r hr => by simpa using List.all_eq_true.mp hz r hr
  have hfills : rs.filter ((s.begin.setStall id { x with state := .keyed }).sendRefusal id).zeroFilling = [] :=
    List.filter_eq_nil_iff.mpr fun r hr => Bool.eq_false_iff.mp (hno r hr)
  have hlive : rs.filter (fun r => ¬ s.begin.zeroFilling r) = rs :=
    List.filter_eq_self.mpr fun r hr => by
      have : s.begin.zeroFilling r = false := hno r hr
      simp [this]
  rw [execStallThaw, State.command_run hc]
  simp only [hx']
  rw [if_neg (not_not_intro hfrozen), if_neg (by simp [hsaved]), if_neg (by simp [hrebase]), if_neg (by simp [hfr]), hrs', hfills, hlive,
    List.foldl_nil, State.queueItems_inFlight _ (by exact hf)]
  refine congrArg (fun u : State => done ((u.writeRecord id).finishAnchored c stOk [] [] (_ ++ (u.writeRecord id).recordItems id))) ?_
  simp only [State.thawing, State.sendRefusal, State.spineAll, State.spineMses, State.setStall, State.begin]
  rfl

end

/-! ### The statement -/

/-- Settles O16: each clause is its command's lemma; what a record, a wait or a squash leaves is said by their frames. -/
theorem stallFreezeAndThaw : Obligations.StallFreezeAndThaw := by
  refine ⟨?starts, ?ends, fun s c id flist st ok hc hnone h => execStallFreeze_unkeyed hc hnone h,
    fun s id f hf h => execFreezeDrainTimeout_early hf h, ?squashes, ?thaws, ?refused⟩
  case starts =>
    intro s c id flist ok x hc hnone hx hk hr hm
    exact ⟨_, execStallFreeze_starts hc hnone hx hk hr hm, (assocGet_assocSet ..).trans (if_pos rfl), rfl, rfl, rfl, rfl, rfl⟩
  case ends =>
    intro s c id flist f d x hs hf hid hr hsq hw hreg hd hx hch
    subst hid
    obtain ⟨sha, h⟩ := State.endFreeze_noRegions (s := s.begin) hreg hd hx hch
    have hexec := execStallFreeze_ends (id := f.stall) (flist := flist) hf hs.2.2 hr hsq hw
    generalize s.begin.endFreeze f true = t at h hexec
    have hstl : t.stl = Stl.recorded f.stall x (d.frozenAt s.epo.epoch) sha { s.stl with
        freezes := s.stl.freezes.erase f, data := assocSet f.stall (d.frozenAt s.epo.epoch) s.stl.data } := (congrArg State.stl h :)
    refine ⟨t, hexec, (congrArg Stl.freezes hstl :), ?_, ?_, (congrArg State.epo h :), (congrArg (·.sbx.slots) h :),
      (congrArg (·.ldg.localEntries) h :), (congrArg State.mse h :)⟩
    · rw [State.stallData?, hstl, Stl.recorded_data, Option.map_some, StallData.frozenAt]
    · rw [State.stall?, hstl, Stl.recorded_stall]
  case squashes =>
    intro s id f hf hs h
    have hexec := execFreezeDrainTimeout_due hf hs h
    have hsq := State.squashWork_squashed id { s.begin with stl := { s.stl with
      freezes := s.stl.freezes.map fun x => if x = f then { f with squashed := true } else x } }
    generalize State.squashWork id _ = t at hexec hsq
    refine ⟨t, hexec, (congrArg (·.stl.freezes) hsq :), ?_, (congrArg State.ldg hsq :), (congrArg State.epo hsq :), (congrArg State.sbx hsq :)⟩
    rw [show t.mse = _ from (congrArg State.mse hsq :)]
    exact State.spineMses_told ..
  case thaws =>
    intro s c id x hc hx hfrozen hsaved hrebase hfr hd hf hz
    obtain ⟨d, hd⟩ := Option.isSome_iff_exists.mp hd
    have hexec := execStallThaw_thaws hc hx hfrozen hsaved hrebase hfr hf rfl hz
    generalize (s.regionsWhere fun e => e.owner = id ∧ e.state = .frozen) = rs at hexec ⊢
    obtain ⟨sha, out, fresh, hw⟩ := State.writeRecord_inFlight (s.thawing_stall id x rs) (show State.stallData? (s.thawing id x rs) id = some d from hd) hf
    have hdata : State.stallData? ((s.thawing id x rs).writeRecord id) id = some { d with recordDigest := sha } := by
      rw [hw]
      exact Stl.recorded_data ..
    have hpending : ∃ i ∈ ((s.thawGrants rs).map fun g => DeltaItem.entry g.1 g.2) ++ ((s.thawing id x rs).writeRecord id).recordItems id,
        ((s.thawing id x rs).writeRecord id).itemPending i = true := by
      obtain ⟨i, hi⟩ := digestItems_ne_nil id sha
      refine ⟨i, List.mem_append_right _ ?_, State.itemPending_of_mem ?_⟩
      · simpa only [State.recordItems, hdata] using hi
      · rw [hw]
        exact List.mem_append_right _ hi
    rw [State.finishAnchored_waits hpending] at hexec
    generalize (s.thawing id x rs).writeRecord id = u at hexec hw
    subst hw
    exact ⟨_, hexec, Stl.recorded_stall .., rfl, List.map_append, rfl, rfl, rfl⟩
  case refused =>
    intro s c id x hc hx
    refine ⟨fun h => execStallThaw_status hc hx ?_, fun hf hs => execStallThaw_status hc hx ?_,
      fun hf hs hr => execStallThaw_status hc hx ?_⟩
    · rcases h with h | h <;> simp [h]
    · simp [hf, hs]
    · simp [hf, hs, hr]

end Sys2Proof.Machine

/-!
The removal of a Stall (O15).

Step 1 is one state (`State.removing`), the end of the Stall's commands (`State.failCommands_ends`), and its windows and bindings dropped;
without grants, freezes and Marks of the Stall nothing else happens. A later step begins where the step before has ended and is journalled.
-/

namespace Sys2Proof.Machine

/-! ### The commands of a Stall end (R407) -/

/-- Commands that end with their Stall leave Helm's lists, waits, the Booth's and the Tollgate's queues and records, and nothing else. -/
theorem State.failCommands_ends (id : Nat) (s : State) :
    ∃ hlm alr obs waits bth tol entropyWaits, s.failCommands id = { s with
      hlm, alr, obs, bth, tol, mrk := { s.mrk with waits }, sbx := { s.sbx with entropyWaits } } := by
  have hends (qs : List Queued) (t : State) : qs.foldl (fun t q => t.finish q.call stStallLost) t = _ :=
    State.completeAll_frame (fun q : Queued => q.call.record stStallLost) qs t
  unfold State.failCommands
  dsimp only
  rw [hends]
  exact ⟨_, _, _, _, _, _, _, rfl⟩

/-! ### STALL_REMOVE and step 1 (R412, R413) -/

/-- The state in which the Stall's commands end: REMOVING, every tile told, the removal at step 1, its function-map entries gone. -/
def State.removing (id : Nat) (x : Stall) (call : Option Call) (s : State) : State :=
  let m := SpineMsg.refusal id ((s.setStall id { x with state := .removing }).refusesStall id)
  { s with
    stl := { s.stl with
      table := assocSet id { x with state := .removing } s.stl.table
      removals := s.stl.removals ++ [{ stall := id, inst := x.inst, step := 1, since := s.clk.elapsed, regions := [], call }]
      fnMap := s.stl.fnMap.filter fun p => p.2.2 ≠ id }
    mse := s.mse.map fun e => { e with spine := e.spine.send m }
    lse := s.lse.map fun e => { e with spine := e.spine.send m }
    hse := s.hse.map fun e => { e with spine := e.spine.send m } }

theorem State.destroyMarks_none {id : Nat} {s : State} (h : s.mrk.dir.any (fun p => p.2.owner = id) = false) : s.destroyMarks id = s := by
  have hnone : s.mrk.dir.filter (fun p => p.2.owner = id) = [] := List.filter_eq_nil_iff.mpr (List.any_eq_false.mp h)
  unfold State.destroyMarks
  rw [hnone]
  rfl

/-- Without grants, freezes and Marks, step 1 of a removal ends the Stall's commands and drops its windows and bindings. -/
theorem State.beginRemoval_alone {id : Nat} {x : Stall} {call : Option Call} {s : State} (hx : s.stall? id = some x)
    (hg : s.granted.any (fun g => g.stall = id) = false) (hm : s.mrk.dir.any (fun p => p.2.owner = id) = false) (hf : s.stl.freezes = []) :
    ∃ hlm alr obs waits bth tol entropyWaits xck, s.beginRemoval id call = { s.removing id x call with
      hlm, alr, obs, bth, tol, xck, mrk := { s.mrk with waits }, sbx := { s.sbx with entropyWaits }
      rwt := s.rwt.filter fun p => p.2.reqStall ≠ id } := by
  have hgrants : s.granted.filter (fun g => g.stall = id ∧ g.revoking.isNone) = [] :=
    List.filter_eq_nil_iff.mpr fun g hgm h => List.any_eq_false.mp hg g hgm (by simpa using (of_decide_eq_true h).1)
  obtain ⟨hlm, alr, obs, waits, bth, tol, ew, hends⟩ := (s.removing id x call).failCommands_ends id
  refine ⟨hlm, alr, obs, waits, bth, tol, ew, { s.xck with bindings := s.xck.bindings.filter fun p => p.2.stall ≠ id }, ?_⟩
  unfold State.beginRemoval
  simp only [hx]
  generalize hu : State.sendRefusal id _ = u
  have hu' : u = s.removing id x call := by
    rw [← hu]
    simp only [State.removing, State.sendRefusal, State.spineAll, State.spineMses, State.setStall]
    rfl
  rw [hu', hends]
  have hmarks : State.destroyMarks id _ = _ := State.destroyMarks_none (id := id) (s := { s.removing id x call with
      hlm, alr, obs, bth, tol, mrk := { s.mrk with waits }, sbx := { s.sbx with entropyWaits := ew }
      rwt := s.rwt.filter fun p => p.2.reqStall ≠ id
      xck := { s.xck with bindings := s.xck.bindings.filter fun p => p.2.stall ≠ id } }) hm
  simp only [State.removing, hf, List.filter_nil, List.foldl_nil, hgrants] at hmarks ⊢
  exact hmarks

section
variable {s : State} {c : Call} {id : Nat} (hc : s.admits c 0x0402) (hnew : s.stl.removals.any (fun r => decide (r.call = some c)) = false)
include hc hnew

theorem execStallRemove_first :
    execStallRemove c id s = done (
      if id = 0 ∨ s.stallState id = .free then s.begin.finish c stPolicy
      else if s.stallState id = .removing then s.begin.finish c stStallBusy
      else s.begin.beginRemoval id (some c)) := by
  rw [execStallRemove, if_neg (by simp [hnew]), State.command_run hc]
  rfl

theorem execStallRemove_policy (h : id = 0 ∨ s.stallState id = .free) : execStallRemove c id s = done (s.begin.finish c stPolicy) := by
  rw [execStallRemove_first hc hnew, if_pos h]

theorem execStallRemove_busy (hid : id ≠ 0) (h : s.stallState id = .removing) :
    execStallRemove c id s = done (s.begin.finish c stStallBusy) := by
  rw [execStallRemove_first hc hnew, if_neg (by simp [hid, h]), if_pos h]

theorem execStallRemove_begins {x : Stall} (hid : id ≠ 0) (hx : s.stall? id = some x) (hfree : x.state ≠ .free) (hrem : x.state ≠ .removing) :
    execStallRemove c id s = done (s.begin.beginRemoval id (some c)) := by
  have hst : s.stallState id = x.state := by simp [State.stallState, hx]
  rw [execStallRemove_first hc hnew, hst, if_neg (by simp [hid, hfree]), if_neg hrem]

end

/-! ### Later steps (R149, R413) -/

section
variable {s : State} {id : Nat} {r : Removal} (hr : s.stl.removals.find? (fun r => r.stall = id) = some r)
include hr

theorem execRemovalStepDone_eq :
    execRemovalStepDone id s = done (if s.removalEnded r then s.begin.removalStep id else s.begin) := by
  have hr' : s.begin.stl.removals.find? (fun r => r.stall = id) = some r := hr
  unfold execRemovalStepDone
  simp only [hr']
  rfl

theorem execRemovalDrainTimeout_eq :
    execRemovalDrainTimeout id s = done (if r.step = 2 ∧ s.expired r.since s.drainNs then s.begin.removalStep id else s.begin) := by
  have hr' : s.begin.stl.removals.find? (fun r => r.stall = id) = some r := hr
  unfold execRemovalDrainTimeout
  simp only [hr']
  rfl

/-- A step that is journalled gives way to the next one; the sixth ends the removal. -/
theorem State.removalStep_journalled (hq : s.alr.quiet = false) (hc : s.rst.coreReset = none)
    (hj : s.journalled id r.inst r.step = true) (hw : s.nvm.journalQueue.contains (.removal id r.inst r.step) = false) :
    s.removalStep id = if 6 ≤ r.step then s.endRemoval r else s.startRemovalStep r := by
  have hgo : ¬ (s.rst.coreReset.isSome = true ∨ s.alr.quiet = true ∨ s.nvm.journalQueue.contains (.removal id r.inst r.step) = true) := by
    rw [hq, hc, hw]
    simp
  unfold State.removalStep
  simp only [hr]
  rw [if_neg hgo, if_pos hj, if_neg (not_not_intro hj)]

end

theorem State.startRemovalStep_first {r : Removal} {s : State} (h : r.step = 1) :
    s.startRemovalStep r = s.setRemoval r { r with step := 2, since := s.clk.elapsed } := by
  simp only [State.startRemovalStep, h]

theorem State.startRemovalStep_squash {r : Removal} {s : State} (h : r.step = 2) :
    s.startRemovalStep r = (s.setRemoval r { r with step := 3, since := s.clk.elapsed }).squashWork r.stall := by
  simp only [State.startRemovalStep, h]

/-- The end of a removal: the Stall FREE, every tile told, the command's record issued. -/
theorem State.endRemoval_ends {r : Removal} {c : Call} {s : State} (hr : r.call = some c) (hq : s.alr.quiet = false) :
    ∃ hlm alr obs mse lse hse, s.endRemoval r = { s with
        hlm, alr, obs, mse, lse, hse
        stl := { s.stl with
          removals := s.stl.removals.erase r, table := assocDel r.stall s.stl.table, data := assocDel r.stall s.stl.data } } ∧
      s.recorded { s with hlm } (c.record stOk) := by
  unfold State.endRemoval
  simp only [hr, State.finish]
  generalize hu : State.sendRefusal _ _ = u
  have hq' : u.alr.quiet = false := by rw [← hu]; exact hq
  obtain ⟨hlm, alr, obs, h, hrec⟩ := State.complete_issues (c.record stOk) hq'
  rw [h]
  subst hu
  simp only [State.sendRefusal, State.spineAll, State.spineMses, State.bump]
  exact ⟨hlm, alr, obs, _, _, _, rfl, hrec⟩

/-! ### The statement -/

/-- Settles O15: each clause is its command's lemma, for the step that the removal stands at. -/
theorem stallRemoval : Obligations.StallRemoval := by
  refine ⟨?begins, fun s c id hc hnew h => execStallRemove_policy hc hnew h, fun s c id hc hnew hid h => execStallRemove_busy hc hnew hid h,
    ?waits, ?second, ?freed, ?early, ?squash⟩
  case begins =>
    intro s c id x hc hr hid hx hfree hrem hg hm hf
    have hexec := execStallRemove_begins hc (by simp [hr]) hid hx hfree hrem
    obtain ⟨hlm, alr, obs, waits, bth, tol, ew, xck, h⟩ := State.beginRemoval_alone (s := s.begin) (call := some c) hx hg hm hf
    rw [h] at hexec
    refine ⟨_, hexec, (assocGet_assocSet ..).trans (if_pos rfl), ?_, rfl, rfl, rfl, rfl, rfl, rfl, rfl⟩
    show s.stl.removals ++ _ = _
    rw [hr]
    rfl
  case waits =>
    intro s id r hr h
    rw [show exec (.removalStepDone id) s = _ from execRemovalStepDone_eq hr, if_neg (by simp [h])]
    rfl
  case second =>
    intro s id r hr hend hq hc hj hw h1
    rw [show exec (.removalStepDone id) s = _ from execRemovalStepDone_eq hr, if_pos hend,
      State.removalStep_journalled (s := s.begin) hr hq hc hj hw, if_neg (by omega), State.startRemovalStep_first h1]
    rfl
  case freed =>
    intro s id r c hr hend hq hc hj hw h6 hcall
    have hid : r.stall = id := by simpa using List.find?_some hr
    have hexec := execRemovalStepDone_eq hr
    rw [if_pos hend, State.removalStep_journalled (s := s.begin) hr hq hc hj hw, if_pos (Nat.le_of_eq h6.symm)] at hexec
    obtain ⟨hlm, alr, obs, mse, lse, hse, h, hrec⟩ := State.endRemoval_ends (s := s.begin) hcall hq
    rw [h, hid] at hexec
    exact ⟨_, hexec, rfl, rfl, rfl, hrec, rfl, rfl, rfl⟩
  case early =>
    intro s id r hr h
    rw [show exec (.removalDrainTimeout id) s = _ from execRemovalDrainTimeout_eq hr, if_neg (by simp [State.expired, h])]
    rfl
  case squash =>
    intro s id r hr h2 hdue hq hc hj hw
    obtain rfl : r.stall = id := by simpa using List.find?_some hr
    have hexec := execRemovalDrainTimeout_eq hr
    rw [if_pos ⟨h2, by simpa [State.expired] using hdue⟩,
      State.removalStep_journalled (s := s.begin) hr hq hc (by rw [h2]; exact hj) (by rw [h2]; exact hw), if_neg (by omega),
      State.startRemovalStep_squash h2] at hexec
    have hsq := State.squashWork_squashed r.stall (s.begin.setRemoval r { r with step := 3, since := s.begin.clk.elapsed })
    generalize State.squashWork r.stall _ = t at hexec hsq
    refine ⟨t, hexec, (congrArg (·.stl.removals) hsq :), ?_, (congrArg (·.ldg.localEntries) hsq :), (congrArg State.epo hsq :),
      (congrArg (·.sbx.slots) hsq :)⟩
    rw [show t.mse = _ from (congrArg State.mse hsq :)]
    exact State.spineMses_told ..

end Sys2Proof.Machine

/-!
Admission (O13): the record and tables of a Stall just admitted are one update (`State.admitted`); its record is written behind them, every
digest item of that write is pending (`State.writeRecord_pending`), and so the command waits.
-/

namespace Sys2Proof.Machine

/-! ### Items just queued are pending (R302) -/

theorem nextItems_prefix (l : List DeltaItem) : ∃ n, nextItems l = l.take n := by
  rcases l with _ | ⟨i, l⟩
  · exact ⟨0, rfl⟩
  · cases i with
    | base h => exact ⟨1, rfl⟩
    | _ => exact ⟨8, rfl⟩

/-- An item queued stands in the queue or in the record that left. -/
theorem State.queueItems_pending {is : List DeltaItem} {i : DeltaItem} (hi : i ∈ is) (s : State) : (s.queueItems is).itemPending i = true := by
  have hmem : i ∈ s.ldg.items ++ is := List.mem_append_right _ hi
  unfold State.queueItems State.flushStore
  split
  · exact State.itemPending_of_mem hmem
  · split
    · exact State.itemPending_of_mem hmem
    · obtain ⟨n, hn⟩ := nextItems_prefix (s.ldg.items ++ is)
      rw [← List.take_append_drop n (s.ldg.items ++ is), List.mem_append] at hmem
      have hlen : List.drop (List.take n (s.ldg.items ++ is)).length (s.ldg.items ++ is) = List.drop n (s.ldg.items ++ is) := by
        rw [List.length_take]
        rcases Nat.le_total n (s.ldg.items ++ is).length with h | h
        · rw [Nat.min_eq_left h]
        · rw [Nat.min_eq_right h, List.drop_length, List.drop_eq_nil_of_le h]
      simp only [hn, hlen, State.itemPending, Option.map_some, Option.getD_some, Bool.or_eq_true, List.contains_iff_mem]
      exact hmem.symm

/-- Every digest item of a record just written is pending. -/
theorem State.writeRecord_pending {id : Nat} {x : Stall} {d : StallData} {s : State} (hx : s.stall? id = some x)
    (hd : s.stallData? id = some d) : ∃ i ∈ (s.writeRecord id).recordItems id, (s.writeRecord id).itemPending i = true := by
  obtain ⟨img, h⟩ := State.writeRecord_eq hx hd
  generalize sha384 img = sha at h
  generalize hu : State.mk .. = u at h
  have hud : u.stallData? id = some { d with recordDigest := sha } := by
    subst hu
    exact Stl.recorded_data ..
  have hdata : (s.writeRecord id).stallData? id = some { d with recordDigest := sha } := by
    rw [h]
    exact (congrArg (fun t : State => assocGet id t.stl.data) (u.queueItems_only _) :).trans hud
  obtain ⟨i, hi⟩ := digestItems_ne_nil id sha
  refine ⟨i, ?_, ?_⟩
  · simpa only [State.recordItems, hdata] using hi
  · rw [h]
    exact State.queueItems_pending hi u

/-! ### The Stall admitted (R406) -/

/-- The record of a Stall just admitted. -/
def State.newStall (fill integ opts : Nat) (s : State) : Stall :=
  { state := .admitted, inst := s.drawn 16, version := 0, measLocked := false, x2 := false, rebase := false, saved := false
    imported := false, logOverflow := false, lostCause := 0, nextSerial := 0, extendSeq := 1, fillFault := decide (fill = 1)
    integLose := decide (integ = 1), keyed := false, boothStream := opts.testBit 0, bindNoinit := opts.testBit 1, eSrc := 0, bias := 0
    admitTime := s.clk.domain, saveSeq := 0 }

/-- Its tables: MR0 extended by PROGRAM, the extend logged. -/
def State.newData (account : Nat) (program tenantKey policy : Bytes) (owners : List OwnerEntry) (s : State) : StallData :=
  { StallData.fresh.extend 0 program with
    tenantKey, policyDigest := policy, account, owners, lastUse := s.clk.elapsed
    log := [{ seq := 1, reg := 0, kind := 1, owner := 0xFF, digest := program, time := s.clk.domain, unanchored := s.unanchored }] }

/-- MR0 of a Stall just admitted is 48 zero bytes extended by PROGRAM. -/
theorem State.newData_mrs (account : Nat) (program tenantKey policy : Bytes) (owners : List OwnerEntry) (s : State) :
    (s.newData account program tenantKey policy owners).mrs = [(0, sha384 (zeros 48 ++ program))] := by
  have hzeros : (padTo 48 ([] : Bytes)).take 48 = zeros 48 := by decide
  simp only [State.newData, StallData.extend, StallData.fresh, assocGet, Option.getD_none, hzeros]
  rfl

/-- The lowest free slot, none reserved by a fill. -/
theorem find?_free_slot {β : Type} {l : List (Nat × β)} : ∀ (n b k : Nat), firstFree l (b + 1) n = some k →
    ∃ j, k = j + 1 ∧ (List.range' b n).find? (fun j => (assocGet (j + 1) l).isNone) = some j
  | 0, b, k, h => by cases h
  | n + 1, b, k, h => by
    rw [firstFree] at h
    rw [List.range'_succ, List.find?_cons]
    split at h
    next hn => exact ⟨b, (Option.some.inj h).symm, by simp [hn]⟩
    next v hv => simpa [hv] using find?_free_slot n (b + 1) k h

/-- The state with the Stall admitted and placed, before its record is written. -/
def State.admitted (id k fill integ opts account : Nat) (program tenantKey policy : Bytes) (owners : List OwnerEntry) (s : State) : State :=
  { s with
    fresh := s.fresh + 1
    stl := { s.stl with
      table := assocSet id (s.newStall fill integ opts) s.stl.table
      data := assocSet id (s.newData account program tenantKey policy owners) s.stl.data
      slots := assocSet k id s.stl.slots }
    sty := { s.sty with
      accs := assocDel id s.sty.accs
      counts := assocDel id s.sty.counts
      suspects := s.sty.suspects.filter fun i => i ≠ id
      finals := s.sty.finals.filter fun r => r.stall ≠ id } }

theorem State.admitStall_eq {id k fill integ opts account : Nat} {program tenantKey policy : Bytes} {owners : List OwnerEntry} {s : State}
    (hk : s.freeStallSlot = some k) (hf : s.stl.fills = []) :
    s.admitStall id fill integ opts account program tenantKey policy owners =
      (((s.admitted id k fill integ opts account program tenantKey policy owners).writeRecord id).sendRefusal id).bump (ctrStl 3) 1 := by
  obtain ⟨j, rfl, hfind⟩ := find?_free_slot 47 0 k hk
  have hslot : (List.range 47).find? (fun k => (assocGet (k + 1) s.stl.slots).isNone &&
      !(s.stl.fills.any fun f => decide (f.slot = some (k + 1)))) = some j := by
    simpa only [hf, List.any_nil, Bool.not_false, Bool.and_true, List.range_eq_range'] using hfind
  unfold State.admitStall
  simp only [State.setStall, State.setStallData, State.tookDraw, State.styAdmit, hslot, State.admitted, State.newStall, State.newData]

/-- The tiles are told, and a counter runs; nothing else changes. -/
theorem State.sendRefusal_bump (id n k : Nat) (s : State) :
    ∃ mse lse hse obs, (s.sendRefusal id).bump n k = { s with mse, lse, hse, obs } := by
  simp only [State.sendRefusal, State.spineAll, State.spineMses, State.bump]
  exact ⟨_, _, _, _, rfl⟩

section
variable {id k fill integ opts account : Nat} {program tenantKey policy : Bytes} {owners : List OwnerEntry} {s : State}

theorem State.admitted_stall : (s.admitted id k fill integ opts account program tenantKey policy owners).stall? id =
    some (s.newStall fill integ opts) := (assocGet_assocSet ..).trans (if_pos rfl)

theorem State.admitted_data : (s.admitted id k fill integ opts account program tenantKey policy owners).stallData? id =
    some (s.newData account program tenantKey policy owners) := (assocGet_assocSet ..).trans (if_pos rfl)

/-- The command of an admission waits for the record just written; the tiles are told, and beside that only the store has work. -/
theorem State.admitStall_waits (c : Call) (hk : s.freeStallSlot = some k) (hf : s.stl.fills = []) :
    ∃ u sha out fresh mse lse hse obs w,
      OnlyQueued { s.admitted id k fill integ opts account program tenantKey policy owners with
        out, fresh
        stl := (s.admitted id k fill integ opts account program tenantKey policy owners).stl.recorded id (s.newStall fill integ opts)
          (s.newData account program tenantKey policy owners) sha } u ∧
      (let v := s.admitStall id fill integ opts account program tenantKey policy owners
       v.finishAnchored c stOk [] [] (v.recordItems id)) =
        { u with mse, lse, hse, obs, ldg := { u.ldg with waits := u.ldg.waits ++ [w] } } ∧ w.call = c ∧ w.status = stOk := by
  have hx : (s.admitted id k fill integ opts account program tenantKey policy owners).stall? id = _ := State.admitted_stall
  have hd : (s.admitted id k fill integ opts account program tenantKey policy owners).stallData? id = _ := State.admitted_data
  have hp := State.writeRecord_pending hx hd
  obtain ⟨sha, out, fresh, hw⟩ := State.writeRecord_tables hx hd
  rw [State.admitStall_eq hk hf]
  dsimp only
  generalize State.writeRecord id _ = u at hp hw ⊢
  obtain ⟨mse, lse, hse, obs, hu⟩ := u.sendRefusal_bump id (ctrStl 3) 1
  rw [hu, State.finishAnchored_waits (by exact hp)]
  exact ⟨u, sha, out, fresh, mse, lse, hse, obs, _, hw, rfl, rfl, rfl⟩

end

theorem State.entropyServed_eq (c : Call) (s : State) :
    ∃ ws obs, s.entropyServed c = { s with sbx := { s.sbx with entropyWaits := ws }, obs } := by
  unfold State.entropyServed
  rw [State.waitEnd_frame]
  exact ⟨_, _, rfl⟩

/-! ### STALL_ADMIT (R404, R405) -/

section
variable {s : State} {c : Call} {id fill integ opts account owners : Nat} {program tenantKey policy : Bytes} {buf : BufRead}
  (hc : s.admits c 0x0401)
include hc

theorem execStallAdmit_noPolicy (hp : s.cfg.policy = none) :
    execStallAdmit c id fill integ opts 0 account program tenantKey policy owners buf s = done (s.begin.finish c stPolicy) := by
  have hp' : s.begin.cfg.policy = none := hp
  rw [execStallAdmit, State.command_run hc]
  simp only [hp']

/-- Without owners: the checks of R404 in their order, then the admission. -/
theorem execStallAdmit_checks {p : StallPolicy} (hp : s.cfg.policy = some p) :
    execStallAdmit c id fill integ opts 0 account program tenantKey policy owners buf s = done (
      if ¬ s.begin.recordAreaBound p then s.begin.finish c stRegionState
      else if ¬ s.begin.idFree id then s.begin.finish c stStallBusy
      else if ¬ s.begin.selectionsOk p fill integ opts policy then s.begin.finish c stPolicy
      else if s.begin.stl.credit < 10 ^ 9 then s.begin.deferAdmission c
      else s.begin.withEntropy c fun t =>
        let u := ({ t with stl := { t.stl with credit := t.stl.credit - 10 ^ 9 } } : State).admitStall id fill integ opts account program
          tenantKey policy []
        u.finishAnchored c stOk [] [] (u.recordItems id)) := by
  have hp' : s.begin.cfg.policy = some p := hp
  rw [execStallAdmit, State.command_run hc]
  simp only [hp', if_true, State.input_ok]
  rfl

theorem execStallAdmit_unbound {p : StallPolicy} (hp : s.cfg.policy = some p) (ha : s.recordAreaBound p = false) :
    execStallAdmit c id fill integ opts 0 account program tenantKey policy owners buf s = done (s.begin.finish c stRegionState) := by
  have ha' : s.begin.recordAreaBound p = false := ha
  rw [execStallAdmit_checks hc hp, if_pos (by simp [ha'])]

variable {p : StallPolicy} (hp : s.cfg.policy = some p) (ha : s.recordAreaBound p = true)
include hp ha

theorem execStallAdmit_busy (hi : s.idFree id = false) :
    execStallAdmit c id fill integ opts 0 account program tenantKey policy owners buf s = done (s.begin.finish c stStallBusy) := by
  have ha' : s.begin.recordAreaBound p = true := ha
  have hi' : s.begin.idFree id = false := hi
  rw [execStallAdmit_checks hc hp, if_neg (by simp [ha']), if_pos (by simp [hi'])]

theorem execStallAdmit_notPermitted (hi : s.idFree id = true) (hs : s.selectionsOk p fill integ opts policy = false) :
    execStallAdmit c id fill integ opts 0 account program tenantKey policy owners buf s = done (s.begin.finish c stPolicy) := by
  have ha' : s.begin.recordAreaBound p = true := ha
  have hi' : s.begin.idFree id = true := hi
  have hs' : s.begin.selectionsOk p fill integ opts policy = false := hs
  rw [execStallAdmit_checks hc hp, if_neg (by simp [ha']), if_neg (by simp [hi']), if_pos (by simp [hs'])]

theorem execStallAdmit_admits (hi : s.idFree id = true) (hs : s.selectionsOk p fill integ opts policy = true)
    (hcr : 1000000000 ≤ s.stl.credit) (he : s.sbx.entropyOk = true) :
    execStallAdmit c id fill integ opts 0 account program tenantKey policy owners buf s = done (
      let t := s.begin.entropyServed c
      let u := ({ t with stl := { t.stl with credit := t.stl.credit - 10 ^ 9 } } : State).admitStall id fill integ opts account program
          tenantKey policy []
      u.finishAnchored c stOk [] [] (u.recordItems id)) := by
  have ha' : s.begin.recordAreaBound p = true := ha
  have hi' : s.begin.idFree id = true := hi
  have hs' : s.begin.selectionsOk p fill integ opts policy = true := hs
  have hcr' : ¬ s.begin.stl.credit < 10 ^ 9 := Nat.not_lt.mpr hcr
  rw [execStallAdmit_checks hc hp, if_neg (by simp [ha']), if_neg (by simp [hi']), if_neg (by simp [hs']), if_neg hcr',
    State.withEntropy_served (s := s.begin) c _ he]

end

/-- Settles O13: an admission by what `State.admitStall_waits` says of the state it leaves, each failing check by its own lemma. -/
theorem stallAdmit : Obligations.StallAdmit := by
  refine ⟨?admits, fun s c id fill integ opts account owners program tenantKey policy buf hc =>
    ⟨fun hp => execStallAdmit_noPolicy hc hp, fun p hp => execStallAdmit_unbound hc (Option.mem_toList.mp hp),
      fun p hp => execStallAdmit_busy hc (Option.mem_toList.mp hp), fun p hp => execStallAdmit_notPermitted hc (Option.mem_toList.mp hp)⟩⟩
  intro s c id fill integ opts account owners k program tenantKey policy buf p hc hp ha hi hs hcr he _ _ _ _ hk hf _
  have hexec := execStallAdmit_admits (account := account) (owners := owners) (program := program) (tenantKey := tenantKey) (buf := buf)
    hc hp ha hi hs hcr he
  obtain ⟨ws, obs, hserved⟩ := s.begin.entropyServed_eq c
  rw [hserved] at hexec
  dsimp only at hexec
  obtain ⟨credit, hcredit⟩ : ∃ n, s.stl.credit - 10 ^ 9 = n := ⟨_, rfl⟩
  simp only [State.begin, hcredit] at hexec
  obtain ⟨u, sha, out, fresh, mse, lse, hse, obs', w, hu, hdone, hcall, hstatus⟩ := State.admitStall_waits (id := id) (k := k) (fill := fill)
    (integ := integ) (opts := opts) (account := account) (program := program) (tenantKey := tenantKey) (policy := policy) (owners := [])
    (s := { s with
      out := [], sbx := { s.sbx with entropyWaits := ws }, obs, stl := { s.stl with credit } }) c hk hf
  have hstl := (congrArg State.stl hu :)
  have hdata := (congrArg (fun l : Stl => assocGet id l.data) hstl :).trans (Stl.recorded_data ..)
  refine ⟨_, hexec.trans (congrArg done hdone), ?_, ?_, ?_, ?_, (congrArg (·.stl.slots) hu :), ?_,
    (congrArg (·.sbx.slots) hu :), (congrArg State.epo hu :), (congrArg State.rst hu :), (congrArg State.alr hu :)⟩
  · exact (congrArg (Option.map _) ((congrArg (fun l : Stl => assocGet id l.table) hstl :).trans (Stl.recorded_stall ..))).trans rfl
  · refine (congrArg (Option.map _) hdata).trans ?_
    simp only [Option.map_some, State.newData_mrs]
    rfl
  · exact (congrArg (Option.map _) hdata).trans rfl
  · have hnew : u.stl.credit = credit := (congrArg (·.stl.credit) hu :)
    simp only [hnew, ← hcredit]
    norm_num
  · have hwaits : u.ldg.waits = s.ldg.waits := (congrArg (·.ldg.waits) hu :)
    simp only [hwaits, List.map_append, List.map_singleton, hcall, hstatus]

end Sys2Proof.Machine

/-!
Fills of Stalls (O14).

A fill that fails loses its Stall and lets every MSE's held requests meet the checks again. That serving requests only adds outputs and fills
without a slot, and touches no other MSE, is said once for each operation on a request (`Served`); the answers of the requests refused and the
records of the commands ended are then still there when the last MSE is done.
-/

namespace Sys2Proof.Machine

/-! ### What serving requests keeps -/

/-- From `s` to `t` requests of MSEs below `n` were served: outputs and fills without a slot are added, later MSEs, the rest of the Stall
manager and the direct window stay. -/
structure Served (n : Nat) (s t : State) : Prop where
  out : s.out <+: t.out
  mse : ∀ j, n ≤ j → t.mse[j]? = s.mse[j]?
  stl : ∃ fs, t.stl = { s.stl with fills := s.stl.fills ++ fs } ∧ ∀ f ∈ fs, f.slot = none
  window : t.hlm.dwDone = s.hlm.dwDone ∧ t.hlm.dwStatus = s.hlm.dwStatus

theorem Served.of_same {n : Nat} {s t : State} (hout : s.out <+: t.out) (hmse : t.mse = s.mse) (hstl : t.stl = s.stl) (hhlm : t.hlm = s.hlm) :
    Served n s t :=
  ⟨hout, fun _ _ => by rw [hmse], ⟨[], by rw [hstl, List.append_nil], nofun⟩, by rw [hhlm], by rw [hhlm]⟩

theorem Served.refl (n : Nat) (s : State) : Served n s s := .of_same List.prefix_rfl rfl rfl rfl

theorem Served.trans {n : Nat} {s t u : State} (h : Served n s t) (k : Served n t u) : Served n s u := by
  obtain ⟨fs, hfs, hnone⟩ := h.stl
  obtain ⟨gs, hgs, hnone'⟩ := k.stl
  refine ⟨h.out.trans k.out, fun j hj => (k.mse j hj).trans (h.mse j hj), ⟨fs ++ gs, ?_, ?_⟩,
    k.window.1.trans h.window.1, k.window.2.trans h.window.2⟩
  · rw [hgs, hfs, List.append_assoc]
  · intro f hf
    exact (List.mem_append.mp hf).elim (hnone f) (hnone' f)

theorem Served.mono {n k : Nat} {s t : State} (h : Served n s t) (hnk : n ≤ k) : Served k s t :=
  ⟨h.out, fun j hj => h.mse j (hnk.trans hj), h.stl, h.window⟩

theorem Served.foldl {α : Type} {n : Nat} {f : State → α → State} (hf : ∀ t a, Served n t (f t a)) (l : List α) (s : State) :
    Served n s (l.foldl f s) :=
  List.foldlRecOn (motive := Served n s) l f (.refl ..) fun t ht a _ => ht.trans (hf t a)

theorem Served.ite {n : Nat} {c : Prop} [Decidable c] {s t u : State} (ht : Served n s t) (hu : Served n s u) :
    Served n s (if c then t else u) := by
  split <;> assumption

section
variable (i : Nat)

theorem State.modMse_served (f : Mse → Mse) (s : State) : Served (i + 1) s (s.modMse i f) :=
  ⟨List.prefix_rfl, fun _ hj => getElem?_listSet_ne _ _ (by omega), ⟨[], by rw [List.append_nil]; rfl, nofun⟩, rfl, rfl⟩

theorem State.bump_served (n k : Nat) (s : State) : Served i s (s.bump n k) := .of_same List.prefix_rfl rfl rfl rfl

theorem State.ringRecord_served (ring kind dur : Nat) (waiter : Option Nat) (object : Nat) (s : State) :
    Served i s (s.ringRecord ring kind dur waiter object) := by
  rw [State.ringRecord_frame]
  exact .of_same List.prefix_rfl rfl rfl rfl

/-! #### Answers -/

theorem State.answer_served (st : PortStatus) (data : Bytes) (r : HostReq) (s : State) : Served (i + 1) s (s.answer i st data r) := by
  have h := State.answer_outputs i st data r s
  refine .of_same ?_ (congrArg State.mse h :) (congrArg State.stl h :) (congrArg State.hlm h :)
  unfold State.answer
  extract_lets t
  have ht : s.out <+: t.out := by
    unfold t
    split <;> exact List.prefix_append ..
  cases st
  case integrity | poison => exact ht
  all_goals
    show s.out <+: (t.meterAnswer _ r).out
    rw [(State.meterAnswer_outputs ..).2]
    exact ht

theorem State.answerAll_served (st : PortStatus) (data : Bytes) (rs : List HostReq) (s : State) :
    Served (i + 1) s (s.answerAll i st data rs) := .foldl (fun _ _ => State.answer_served ..) rs s

theorem State.refuse_served (r : HostReq) (s : State) : Served (i + 1) s (s.refuse i r) :=
  (State.modMse_served ..).trans (State.answer_served ..)

theorem State.integrityAll_served (rs : List HostReq) (s : State) : Served (i + 1) s (s.integrityAll i rs) :=
  (State.modMse_served ..).trans (State.answerAll_served ..)

theorem State.misroute_served (r : HostReq) (s : State) : Served (i + 1) s (s.misroute i r) := by
  unfold State.misroute
  extract_lets raised t
  have ht : Served (i + 1) s t := (State.modMse_served ..).trans (State.answer_served ..)
  exact .ite ht (ht.trans ⟨List.prefix_rfl, fun _ _ => rfl, ⟨[], by rw [List.append_nil]; rfl, nofun⟩, rfl, rfl⟩)

/-! #### Requests of the memory side -/

theorem State.countUse_served (tile : Nat) (k : SectorKey) (s : State) : Served i s (s.countUse tile k) := by
  unfold State.countUse
  split <;> exact .of_same List.prefix_rfl rfl rfl rfl

theorem State.sealAndQueue_served {i : Nat} {key : SectorKey} {pt : Bytes} {o : MemOp} {s t : State} (h : s.sealAndQueue i key pt o = some t) :
    Served (i + 1) s t := by
  unfold State.sealAndQueue at h
  split at h
  · dsimp only at h
    split at h
    · split at h
      · cases h
        exact (State.countUse_served ..).trans (State.modMse_served ..)
      · cases h
    · cases h
      exact (State.countUse_served ..).trans (State.modMse_served ..)
  · cases h

theorem State.queueRead_served (o : MemOp) (s : State) : Served (i + 1) s (s.queueRead i o) := by
  unfold State.queueRead
  extract_lets o t line
  have ht : Served (i + 1) s t := State.modMse_served ..
  refine .ite ?_ ht
  split
  · exact .ite (ht.trans (State.bump_served ..)) ((ht.trans (State.modMse_served ..)).trans (State.bump_served ..))
  · exact ht

/-! #### Hazard entries -/

theorem State.withHazard_served (sector : Nat) (s : State) : Served (i + 1) s (s.withHazard i sector) := by
  unfold State.withHazard
  split
  · exact .refl ..
  · exact .ite (.refl ..) ((State.modMse_served ..).trans (State.bump_served ..))

theorem State.issueBuf_served (h : Hazard) (b : MergeBuf) (base : Bytes) (s : State) : Served (i + 1) s (s.issueBuf i h b base) := by
  unfold State.issueBuf
  extract_lets pt
  split
  · exact .refl ..
  · split
    · exact .refl ..
    · next t ht =>
      exact ((State.sealAndQueue_served ht).trans (State.modMse_served ..)).trans (.foldl (fun _ _ => State.answer_served ..) ..)

theorem State.hazardStep_served (sector : Nat) (s : State) : Served (i + 1) s (s.hazardStep i sector) := by
  have hset (h : Hazard) : Served (i + 1) s (s.modMse i (Mse.setHazard h)) := State.modMse_served ..
  unfold State.hazardStep
  split
  · exact .refl ..
  · split
    · exact .refl ..
    · refine .ite (.refl ..) ?_
      split
      · refine .ite (State.issueBuf_served ..) ?_
        split
        · exact State.issueBuf_served ..
        · exact State.queueRead_served ..
      · exact hset _
      · refine .ite (.refl ..) ?_
        split
        · exact .refl ..
        · refine .ite (hset _) ?_
          split
          · exact .ite (((hset _).trans (State.answer_served ..)).trans (State.bump_served ..)) ((hset _).trans (State.answer_served ..))
          · exact .ite (State.queueRead_served ..) ((hset _).trans (State.queueRead_served ..))

theorem State.freeHazard_served (sector : Nat) (s : State) : Served (i + 1) s (s.freeHazard i sector) := by
  unfold State.freeHazard
  split
  · exact .refl ..
  · split
    · exact .refl ..
    · exact .ite (State.modMse_served ..) (.refl ..)

theorem State.hazardRun_served (n sector : Nat) (s : State) : Served (i + 1) s (s.hazardRun n i sector) := by
  induction n generalizing s with
  | zero => exact State.freeHazard_served ..
  | succ n ih =>
    rw [State.hazardRun]
    exact (((State.modMse_served ..).trans (State.hazardStep_served ..)).trans (.foldl (fun _ _ => State.ringRecord_served ..) ..)).trans
      (ih _)

theorem State.advance_served (sector : Nat) (s : State) : Served (i + 1) s (s.advance i sector) := by
  unfold State.advance
  split
  · exact .refl ..
  · split
    · exact .refl ..
    · exact State.hazardRun_served ..

theorem State.joinHazard_served (r : HostReq) (h : Hazard) (s : State) : Served (i + 1) s (s.joinHazard i r h) := by
  unfold State.joinHazard
  extract_lets put b t
  have ht : Served (i + 1) s t := .ite (State.bump_served ..) (.refl ..)
  have hput : ∀ h, Served (i + 1) s (put h) := fun _ => State.modMse_served ..
  refine .ite (hput _) (.ite (hput _) (.ite (ht.trans (State.modMse_served ..)) ?_))
  split
  · exact hput _
  · exact hput _
  · exact State.answer_served ..
  · exact .ite (State.modMse_served ..) (hput _)

theorem State.place_served (r : HostReq) (s : State) : Served (i + 1) s (s.place i r) := by
  unfold State.place
  split
  · exact .refl ..
  · extract_lets partial_ t
    have ht : Served (i + 1) s t := State.withHazard_served ..
    refine .ite (.ite ?_ (State.queueRead_served ..)) ?_
    · split
      · exact .refl ..
      · cases hsealed : s.sealAndQueue i _ r.data _ with
        | none => exact .refl ..
        | some u => exact State.sealAndQueue_served hsealed
    · split
      · exact ht
      · exact (ht.trans (State.joinHazard_served ..)).trans (State.advance_served ..)

/-! #### Requests held -/

theorem State.wantStall_served (id : Nat) (s : State) : Served i s (s.wantStall id) := by
  refine .ite (.refl ..) ⟨List.prefix_rfl, fun _ _ => rfl, ⟨_, rfl, fun f hf => ?_⟩, rfl, rfl⟩
  rw [List.mem_singleton.mp hf]

theorem State.wantKey_served (tile h g : Nat) (s : State) : Served i s (s.wantKey tile h g) :=
  .ite (.refl ..) (.ite (.of_same List.prefix_rfl rfl rfl rfl) (.of_same List.prefix_rfl rfl rfl rfl))

theorem State.hold_served (r : HostReq) (c : HoldCause) (again : Bool) (s : State) : Served (i + 1) s (s.hold i r c again) := by
  unfold State.hold
  extract_lets t k
  have ht : Served (i + 1) s t := State.modMse_served ..
  cases c with
  | ledger => exact ht.trans (State.bump_served ..)
  | key h g => exact (ht.trans (State.wantKey_served ..)).trans (State.bump_served ..)
  | poolLine l => exact .ite ht (ht.trans (.of_same List.prefix_rfl rfl rfl rfl))
  | fill id => exact ht.trans (State.wantStall_served ..)
  | tagLine l => exact (ht.trans (State.modMse_served ..)).trans (State.bump_served ..)

/-- A request that meets the checks, whatever they make of it (R263). -/
theorem State.enterMse_served (again : Bool) (r : HostReq) (s : State) : Served (i + 1) s (s.enterMse i again r) := by
  unfold State.enterMse
  split
  · exact .refl ..
  · split
    · exact State.modMse_served ..
    · cases State.check .. with
      | pass => exact .ite (State.integrityAll_served ..) (State.place_served ..)
      | misroute => exact State.misroute_served ..
      | refuse => exact .ite ((State.wantStall_served ..).trans (State.refuse_served ..)) (State.refuse_served ..)
      | refuseOwner => exact (State.refuse_served ..).trans (State.bump_served ..)
      | retired | writeTimeout => exact State.integrityAll_served ..
      | listed =>
        exact Served.trans (t := { s with listedCount := satAdd 255 s.listedCount 1 }) (.of_same List.prefix_rfl rfl rfl rfl)
          (State.answer_served ..)
      | nothing => exact (State.answer_served ..).trans (.of_same List.prefix_rfl rfl rfl rfl)
      | hold c => exact State.hold_served ..

theorem State.holdEnded_served (r : HostReq) (c : HoldCause) (s : State) : Served (i + 1) s (s.holdEnded i r c) := by
  unfold State.holdEnded
  split
  · exact .refl ..
  · exact .ite (.refl ..) (State.ringRecord_served ..)

/-- Held requests that meet the checks again (R49). -/
theorem State.rerun_served (s : State) : Served (i + 1) s (s.rerun i) := by
  unfold State.rerun
  split
  · exact .refl ..
  · exact (State.modMse_served ..).trans (.foldl (fun _ _ => (State.enterMse_served ..).trans (State.holdEnded_served ..)) ..)

end

/-! ### Requests that waited for a fill are refused (R402) -/

/-- The requests of one MSE that wait for the fill are refused, and what else it holds meets the checks again. -/
def State.refuseFillAt (id i : Nat) (s : State) : State :=
  match s.mse[i]? with
  | none => s
  | some m =>
    let waits (p : HostReq × HoldCause) : Bool := decide (p.2 = .fill id)
    let u := s.modMse i fun m => { m with held := m.held.filter fun p => !waits p }
    ((m.held.filter waits).foldl (fun u p => u.refuse i p.1) u).rerun i

theorem State.refuseFill_eq (id : Nat) (s : State) :
    s.refuseFill id = (List.range s.mse.length).foldl (fun t i => t.refuseFillAt id i) s := by
  unfold State.refuseFill
  rfl

theorem State.refuseFillAt_served (id i : Nat) (s : State) : Served (i + 1) s (s.refuseFillAt id i) := by
  unfold State.refuseFillAt
  split
  · exact .refl ..
  · exact ((State.modMse_served ..).trans (.foldl (fun _ _ => State.refuse_served ..) ..)).trans (State.rerun_served ..)

theorem State.refuseFillAt_beside (id i : Nat) (s : State) : (s.refuseFillAt id i).beside = s.beside := by
  unfold State.refuseFillAt
  split
  · rfl
  · exact (State.rerun_beside ..).trans ((State.foldl_beside (fun _ _ => State.refuse_beside ..) ..).trans State.modMse_beside)

theorem State.refuse_out (i : Nat) (r : HostReq) (s : State) : (s.refuse i r).out = s.out ++ [answerBad i .refused r] :=
  State.answer_bad_out (by decide) ..

/-- Requests refused one after another: the answer to each of them is among the outputs. -/
theorem State.refuseAll_answers {i : Nat} {p : HostReq × HoldCause} {ps : List (HostReq × HoldCause)} (hp : p ∈ ps) (s : State) :
    answerBad i .refused p.1 ∈ (ps.foldl (fun u p => u.refuse i p.1) s).out := by
  induction ps generalizing s with
  | nil => cases hp
  | cons q qs ih =>
    rcases List.mem_cons.mp hp with rfl | hp
    · have hkeep : Served (i + 1) (s.refuse i p.1) (qs.foldl (fun u p => u.refuse i p.1) (s.refuse i p.1)) :=
        .foldl (fun _ _ => State.refuse_served ..) ..
      refine hkeep.out.subset ?_
      rw [State.refuse_out]
      exact List.mem_append_right _ (List.mem_singleton_self _)
    · exact ih hp _

theorem State.refuseFillAt_answers {id i : Nat} {m : Mse} {p : HostReq × HoldCause} {s : State} (hm : s.mse[i]? = some m) (hp : p ∈ m.held)
    (hfill : p.2 = .fill id) : answerBad i .refused p.1 ∈ (s.refuseFillAt id i).out := by
  unfold State.refuseFillAt
  simp only [hm]
  exact (State.rerun_served ..).out.subset (State.refuseAll_answers (List.mem_filter.mpr ⟨hp, by simp [hfill]⟩) _)

/-- One MSE after another: what the first `n` held for the fill is answered REFUSED, and the others still hold what they held. -/
theorem State.refuseFill_range (id n : Nat) (s : State) :
    Served n s ((List.range n).foldl (fun t i => t.refuseFillAt id i) s) ∧
      ∀ i < n, ∀ m, s.mse[i]? = some m → ∀ p ∈ m.held, p.2 = .fill id →
        answerBad i .refused p.1 ∈ ((List.range n).foldl (fun t i => t.refuseFillAt id i) s).out := by
  induction n with
  | zero => exact ⟨.refl .., nofun⟩
  | succ n ih =>
    obtain ⟨hserved, hans⟩ := ih
    rw [List.range_succ, List.foldl_append, List.foldl_cons, List.foldl_nil]
    generalize List.foldl _ _ (List.range n) = t at hserved hans ⊢
    have hlast := t.refuseFillAt_served id n
    refine ⟨(hserved.mono (Nat.le_succ n)).trans hlast, fun i hi m hm p hp hfill => ?_⟩
    rcases Nat.lt_succ_iff_lt_or_eq.mp hi with h | rfl
    · exact hlast.out.subset (hans i h m hm p hp hfill)
    · exact State.refuseFillAt_answers ((hserved.mse i le_rfl).trans hm) hp hfill

theorem State.refuseFill_served (id : Nat) (s : State) :
    Served s.mse.length s (s.refuseFill id) ∧ (s.refuseFill id).beside = s.beside ∧
      ∀ i m, s.mse[i]? = some m → ∀ p ∈ m.held, p.2 = .fill id → answerBad i .refused p.1 ∈ (s.refuseFill id).out := by
  obtain ⟨hserved, hans⟩ := State.refuseFill_range id s.mse.length s
  rw [State.refuseFill_eq]
  exact ⟨hserved, State.foldl_beside (fun _ _ => State.refuseFillAt_beside ..) _ s,
    fun i m hm => hans i (List.getElem?_eq_some_iff.mp hm).1 m hm⟩

/-! ### The commands of a lost Stall (R407) -/

/-- Helm shows the end of a command with a status: the direct window, or a record on its way. -/
def Hlm.ended (st : Nat) (h : Hlm) (c : Call) : Bool :=
  if c.window then h.dwDone && decide (h.dwStatus = st) else h.cwq.contains (c.record st)

theorem State.finish_ended {s : State} (hq : s.alr.quiet = false) (c : Call) (st : Nat) :
    (s.finish c st).alr.quiet = false ∧ (s.finish c st).hlm.ended st c = true ∧
      ∀ d, s.hlm.ended st d = true → (s.finish c st).hlm.ended st d = true := by
  cases hw : c.window with
  | false =>
    have hdone : s.finish c st = _ := State.complete_stream (r := c.record st) hq hw
    rw [hdone]
    refine ⟨hq, by simp [Hlm.ended, hw], fun d hd => ?_⟩
    unfold Hlm.ended at hd ⊢
    split
    · simp_all [Hlm.drop]
    · simp_all
  | true =>
    have hdone : s.finish c st = _ := State.complete_window (r := c.record st) hq hw
    rw [hdone]
    refine ⟨hq, by simp [Hlm.ended, hw, Call.record], fun d hd => ?_⟩
    unfold Hlm.ended at hd ⊢
    split
    · simp [Call.record]
    · next h => simpa [h, Hlm.drop] using hd

/-- Commands that end alike, one after another: each of them is shown as ended. -/
theorem State.finishAll_ended {st : Nat} {q : Queued} {qs : List Queued} {s : State} (hq : s.alr.quiet = false)
    (h : q ∈ qs ∨ s.hlm.ended st q.call = true) : (qs.foldl (fun t q => t.finish q.call st) s).hlm.ended st q.call = true := by
  induction qs generalizing s with
  | nil => simpa using h
  | cons p ps ih =>
    obtain ⟨hquiet, hp, hkeep⟩ := State.finish_ended hq p.call st
    refine ih hquiet ?_
    rcases h with h | h
    · rcases List.mem_cons.mp h with rfl | h
      · exact .inr hp
      · exact .inl h
    · exact .inr (hkeep _ h)

theorem State.failCommands_ended {id : Nat} {q : Queued} {s : State} (hquiet : s.alr.quiet = false) (hq : q ∈ s.hlm.running)
    (hid : q.call.stall = id) (hc : s.committed q.call = false) : (s.failCommands id).hlm.ended stStallLost q.call = true := by
  unfold State.failCommands
  refine State.finishAll_ended (by exact hquiet) (.inl ?_)
  exact List.mem_append_left _ (List.mem_append_left _ (List.mem_filter.mpr ⟨hq, by simp [hid, hc]⟩))

/-- The state in which the commands of a Stall just lost end: LOST with its cause, every tile told, its windows cleared. -/
def State.losing (id cause : Nat) (x : Stall) (s : State) : State :=
  let m := SpineMsg.refusal id ((s.setStall id { x with state := .lost, lostCause := cause }).refusesStall id)
  { s with
    rwt := s.rwt.filter fun p => p.2.reqStall ≠ id
    stl := { s.stl with table := assocSet id { x with state := .lost, lostCause := cause } s.stl.table }
    obs := s.obs.bump (ctrStl 6) 1
    mse := s.mse.map fun e => { e with spine := e.spine.send m }
    lse := s.lse.map fun e => { e with spine := e.spine.send m }
    hse := s.hse.map fun e => { e with spine := e.spine.send m } }

/-- The message leaves what an MSE holds. -/
theorem State.losing_holds {i : Nat} {m : Mse} {s : State} (id cause : Nat) (x : Stall) (hm : s.mse[i]? = some m) :
    ∃ m', (s.losing id cause x).mse[i]? = some m' ∧ m'.held = m.held := by
  refine ⟨_, (List.getElem?_map ..).trans (congrArg (Option.map _) hm), rfl⟩

theorem State.loseStall_eq {id : Nat} (cause : Nat) {x : Stall} {s : State} (hx : s.stall? id = some x) (hl : x.state ≠ .lost)
    (hr : x.state ≠ .removing) : s.loseStall id cause = (s.losing id cause x).failCommands id := by
  have hgo : ¬ (x.state = .lost ∨ x.state = .removing) := by simp [hl, hr]
  simp only [State.loseStall, hx, if_neg hgo]
  refine congrArg (State.failCommands id) ?_
  simp only [State.losing, State.sendRefusal, State.spineAll, State.spineMses, State.setStall, State.bump]
  rfl

/-! ### STALL_FILL_START (R400, R401) -/

theorem execStallFillStart_starts {s : State} {f : Fill} {k : Nat} (hq : s.alr.quiet = false)
    (hf : s.stl.fills.find? (fun f => f.slot.isNone) = some f) (hn : (s.stl.fills.filterMap (·.slot)).length < 4)
    (hk : (List.range 47).find? (fun k => (assocGet (k + 1) s.stl.slots).isNone ∧
      ¬ (s.stl.fills.filterMap (·.slot)).contains (k + 1)) = some k) :
    execStallFillStart s = done { s with
      out := [.memRead 0 (s.recordAddr f.stall) 16384]
      stl := { s.stl with fills := s.stl.fills.map fun x => if x = f then { f with slot := some (k + 1), victim := 0xFFF } else x } } := by
  have hf' : s.begin.stl.fills.find? (fun f => f.slot.isNone) = some f := hf
  have hgo : ¬ (4 ≤ (s.begin.stl.fills.filterMap (·.slot)).length ∨ s.begin.alr.quiet = true) := by
    rintro (h | h)
    · exact absurd hn (Nat.not_lt.mpr h)
    · exact absurd h (by simp [hq])
  have hk' : (List.range 47).find? (fun k => decide ((assocGet (k + 1) s.begin.stl.slots).isNone = true ∧
      ¬ (s.begin.stl.fills.filterMap (·.slot)).contains (k + 1) = true)) = some k := hk
  unfold execStallFillStart
  simp only [hf', if_neg hgo, hk']
  rfl

/-! ### STALL_FILL_DONE (R398, R401, R402) -/

/-- The fill over: it is gone, and its time is in the ring. -/
def State.fillOver (id : Nat) (f : Fill) (s : State) : State :=
  ({ s with stl := { s.stl with fills := s.stl.fills.filter fun x => x ≠ f } } : State).ringRecord 82 6 (s.clk.elapsed - f.since) (some id) f.victim

theorem State.fillOver_ring (id : Nat) (f : Fill) (s : State) :
    ∃ obs, s.fillOver id f = { s with obs, stl := { s.stl with fills := s.stl.fills.filter fun x => x ≠ f } } :=
  ⟨_, State.ringRecord_frame ..⟩

theorem State.useStall_data (id : Nat) (s : State) : ∃ data, s.useStall id = { s with stl := { s.stl with data } } := by
  unfold State.useStall State.modStallData
  split
  · exact ⟨_, rfl⟩
  · split
    · exact ⟨_, rfl⟩
    · exact ⟨_, rfl⟩

/-- The record was read, and it is the one last anchored (R398). -/
def State.goodRead (s : State) (id : Nat) : BufRead → Bool
  | .ok b => s.recordGood id b
  | .failed => false

section
variable {s : State} {id k : Nat} {f : Fill} (hq : s.alr.quiet = false) (hf : s.stl.fills.find? (fun f => f.stall = id) = some f)
  (hk : f.slot = some k) (hp : s.recordPending id = false)
include hq hf hk hp

theorem execStallFillDone_checks (r : BufRead) :
    execStallFillDone id r s = (
      if s.goodRead id r then
        let u := s.begin.fillOver id f
        let v : State := { u with stl := { u.stl with slots := assocSet k id u.stl.slots } }
        done (((v.useStall id).progress).bump (ctrStl 0) 1).rerunAll
      else done (((s.begin.fillOver id f).loseStall id 1).refuseFill id)) := by
  have hf' : s.begin.stl.fills.find? (fun f => f.stall = id) = some f := hf
  have hgo : ¬ (s.begin.recordPending id = true ∨ s.begin.alr.quiet = true) := by
    have hp' : s.begin.recordPending id = false := hp
    simp [hp', hq]
  unfold execStallFillDone
  simp only [hf', hk, if_neg hgo]
  rfl

theorem execStallFillDone_bad {r : BufRead} (hbad : s.goodRead id r = false) :
    execStallFillDone id r s = done (((s.begin.fillOver id f).loseStall id 1).refuseFill id) := by
  rw [execStallFillDone_checks hq hf hk hp, if_neg (by simp [hbad])]

theorem execStallFillDone_good {b : Bytes} (hgood : s.recordGood id b = true) :
    execStallFillDone id (.ok b) s = (
        let u := s.begin.fillOver id f
        let v : State := { u with stl := { u.stl with slots := assocSet k id u.stl.slots } }
        done (((v.useStall id).progress).bump (ctrStl 0) 1).rerunAll) := by
  rw [execStallFillDone_checks hq hf hk hp]
  exact if_pos hgood

end

/-! ### The statement -/

/-- Settles O14: a start is one state; a failed fill loses the Stall, and what its requests and commands were told stays (`Served`). -/
theorem stallFills : Obligations.StallFills := by
  refine ⟨fun s f k hq hf hn hk => execStallFillStart_starts hq hf hn hk, ?fails, ?fills⟩
  case fails =>
    intro s id k f x r hq hf hk hp hx hl hr hbad
    have hexec := execStallFillDone_bad hq hf hk hp hbad
    obtain ⟨obs, hover⟩ := s.begin.fillOver_ring id f
    rw [hover, State.loseStall_eq 1 (by exact hx) hl hr] at hexec
    generalize hu : State.losing id 1 x _ = u at hexec
    have hended := fun q (hq' : q ∈ s.hlm.running) hid (hc : s.committed q.call = false) =>
      State.failCommands_ended (s := u) (id := id) (q := q) (by subst hu; exact hq) (by subst hu; exact hq') hid (by subst hu; exact hc)
    obtain ⟨hlm, alr, obs', waits, bth, tol, ew, hfail⟩ := u.failCommands_ends id
    obtain ⟨hserved, hbeside, hans⟩ := (u.failCommands id).refuseFill_served id
    generalize State.refuseFill id _ = t at hserved hbeside hans hexec
    rw [hfail] at hserved hbeside hans hended
    obtain ⟨fs, hstl, hslots⟩ := hserved.stl
    subst hu
    refine ⟨t, hexec, ?_, ?_, (congrArg Stl.slots hstl :), (congrArg Beside.epo hbeside :), ?_, ?_⟩
    · exact (congrArg (fun l : Stl => assocGet id l.table) hstl).trans ((assocGet_assocSet ..).trans (if_pos rfl))
    · rw [hstl, Bool.eq_false_iff, ne_eq, List.contains_iff_mem, List.mem_append, not_or]
      refine ⟨fun h => ?_, fun h => ?_⟩
      · simpa using (List.mem_filter.mp h).2
      · exact absurd (hslots f h) (by simp [hk])
    · simp only [List.all_eq_true, Bool.or_eq_true, Bool.not_eq_true', decide_eq_false_iff_not, List.contains_iff_mem]
      rintro ⟨m, i⟩ hm p hp'
      refine Decidable.or_iff_not_imp_left.mpr fun hfill => ?_
      obtain ⟨m', hm', hheld⟩ := State.losing_holds (s := { s.begin with
        obs, stl := { s.begin.stl with fills := s.begin.stl.fills.filter fun x => x ≠ f } }) id 1 x (List.mem_zipIdx_iff_getElem?.mp hm)
      exact hans i m' hm' p (hheld ▸ hp') (Decidable.not_not.mp hfill)
    · simp only [List.all_eq_true, Bool.or_eq_true, decide_eq_true_eq]
      intro q hq'
      by_cases hid : q.call.stall = id
      · cases hc : s.committed q.call with
        | true => exact .inl (.inr rfl)
        | false =>
          have hcwq : t.hlm.cwq = hlm.cwq := (congrArg Beside.cwq hbeside :)
          obtain ⟨hdone, hstatus⟩ := hserved.window
          rw [hcwq, hdone, hstatus]
          exact .inr (hended q hq' hid hc)
      · exact .inl (.inl hid)
  case fills =>
    intro s id k f b hq hf hk hp hgood hm
    have hexec := execStallFillDone_good hq hf hk hp hgood
    obtain ⟨obs, hover⟩ := s.begin.fillOver_ring id f
    rw [hover] at hexec
    obtain ⟨data, huse⟩ := State.useStall_data id { s.begin with
      obs, stl := { s.begin.stl with fills := s.begin.stl.fills.filter fun x => x ≠ f, slots := assocSet k id s.begin.stl.slots } }
    have hrun : State.rerunAll _ = _ := State.rerunAll_idle (s := ((({ s.begin with
      obs, stl := { s.begin.stl with fills := s.begin.stl.fills.filter fun x => x ≠ f, slots := assocSet k id s.begin.stl.slots, data } } : State).progress).bump
        (ctrStl 0) 1)) hm
    dsimp only at hexec
    rw [huse, hrun] at hexec
    exact ⟨_, hexec, rfl, rfl, rfl, rfl, rfl, rfl⟩

end Sys2Proof.Machine

/-!
Migration of Stalls (O19).

A MOVE session's save changes the Stall's record and drops the session (`State.saved`); a restore of a record without regions and keys creates the
Stall, binds the blob region ZERO and drops the session (`State.restored`). Both write the Stall's record behind the record in flight, and wait.
-/

namespace Sys2Proof.Machine

/-! ### Records behind the record in flight -/

/-- With a record of the store in flight, a command that waits for a Stall's record is noted, and nothing ends. -/
theorem State.recordWaits {id : Nat} {x : Stall} {d : StallData} {s : State} (hx : s.stall? id = some x) (hd : s.stallData? id = some d)
    (hf : s.ldg.flight.isSome = true) (c : Call) (st : Nat) (b : Bytes) (is : List DeltaItem) :
    ∃ sha img fresh items waits, (let v := s.writeRecord id; v.finishAnchored c st b [] (v.recordItems id ++ is)) = { s with
      out := s.out ++ [.memWrite 0 (s.recordAddr id) img], fresh, stl := s.stl.recorded id x d sha, ldg := { s.ldg with items, waits } } := by
  obtain ⟨i, hi, hp⟩ := State.writeRecord_pending hx hd
  have hwaits := State.finishAnchored_waits (c := c) (st := st) (b := b) (rs := []) (is := (s.writeRecord id).recordItems id ++ is)
    ⟨i, List.mem_append_left _ hi, hp⟩
  obtain ⟨img, hw⟩ := State.writeRecord_eq hx hd
  dsimp only
  rw [hwaits, hw, State.queueItems_inFlight _ (by exact hf)]
  exact ⟨_, _, _, _, _, rfl⟩

/-! ### MIG_SESSION_EXPIRY (R416) -/

theorem execMigSessionExpiry_eq (s : State) :
    execMigSessionExpiry s = done (match s.stl.sessions.find? fun x =>
        decide (x.since + ((s.cfg.policy.map (·.tMigSess)).getD 60) * 10 ^ 9 ≤ s.clk.elapsed) with
      | none => s.begin
      | some x => { s.begin with stl := { s.stl with sessions := s.stl.sessions.erase x } }) := by
  unfold execMigSessionExpiry
  rfl

theorem execMigSessionExpiry_expires {s : State} {x : MigSession}
    (h : s.stl.sessions.find? (fun x => decide (x.since + ((s.cfg.policy.map (·.tMigSess)).getD 60) * 10 ^ 9 ≤ s.clk.elapsed)) = some x) :
    execMigSessionExpiry s = done { s with out := [], stl := { s.stl with sessions := s.stl.sessions.erase x } } := by
  rw [execMigSessionExpiry_eq, h]
  rfl

theorem execMigSessionExpiry_none {s : State}
    (h : s.stl.sessions.find? (fun x => decide (x.since + ((s.cfg.policy.map (·.tMigSess)).getD 60) * 10 ^ 9 ≤ s.clk.elapsed)) = none) :
    execMigSessionExpiry s = done s.begin := by
  rw [execMigSessionExpiry_eq, h]

/-! ### MIGRATE_SAVE (R417, R418) -/

section
variable {s : State} {c : Call} {id session flist out_ outMax : Nat} {list : BufRead} {bs : List BufRead} {ok : Bool} {x : Stall}
  {d : StallData} (hc : s.admits c 0x0405) (hx : s.stall? id = some x) (hd : s.stallData? id = some d)
include hc hx hd

theorem execMigrateSave_notFrozen (h : x.state ≠ .frozen) :
    execMigrateSave c id session flist out_ outMax list bs ok s = done (s.begin.finish c stStallFrozen) := by
  have hx' : s.begin.stall? id = some x := hx
  have hd' : s.begin.stallData? id = some d := hd
  rw [execMigrateSave, State.command_run hc]
  simp only [hx', hd', if_pos h]

variable (hfrozen : x.state = .frozen)
include hfrozen

theorem execMigrateSave_saved (h : x.saved = true) :
    execMigrateSave c id session flist out_ outMax list bs ok s = done (s.begin.finish c stStallMigrated) := by
  have hx' : s.begin.stall? id = some x := hx
  have hd' : s.begin.stallData? id = some d := hd
  rw [execMigrateSave, State.command_run hc]
  simp only [hx', hd', if_neg (not_not_intro hfrozen), if_pos h]

variable (hsaved : x.saved = false)
include hsaved

theorem execMigrateSave_stale (h : d.freezeEpoch ≠ s.epo.epoch) :
    execMigrateSave c id session flist out_ outMax list bs ok s = done (s.begin.finish c stMigStale) := by
  have hx' : s.begin.stall? id = some x := hx
  have hd' : s.begin.stallData? id = some d := hd
  have h' : d.freezeEpoch ≠ s.begin.epo.epoch := h
  rw [execMigrateSave, State.command_run hc]
  simp only [hx', hd', if_neg (not_not_intro hfrozen), if_neg (Bool.eq_false_iff.mp hsaved), if_pos h']

variable (hepoch : d.freezeEpoch = s.epo.epoch)
include hepoch

theorem execMigrateSave_noSession (h : s.session true session (some (id, x.inst)) = none) :
    execMigrateSave c id session flist out_ outMax list bs ok s = done (s.begin.finish c stNoSession) := by
  have hx' : s.begin.stall? id = some x := hx
  have hd' : s.begin.stallData? id = some d := hd
  have he' : ¬ d.freezeEpoch ≠ s.begin.epo.epoch := not_not_intro hepoch
  have h' : s.begin.session true session (some (id, x.inst)) = none := h
  rw [execMigrateSave, State.command_run hc]
  simp only [hx', hd', if_neg (not_not_intro hfrozen), if_neg (Bool.eq_false_iff.mp hsaved), if_neg he', h']

/-- The state in which the record of a saved Stall is written: the migration record is out, the Stall saved, the session gone. -/
def State.saved (c : Call) (id flist out_ : Nat) (x : Stall) (m : MigSession) (mig : Bytes) (s : State) : State :=
  { s with
    out := [.memRead 0 flist 0, .memWrite c.stall out_ mig]
    stl := { s.stl with
      table := assocSet id { x with saved := true, saveSeq := x.saveSeq + 1 } s.stl.table
      sessions := s.stl.sessions.erase m } }

theorem execMigrateSave_saves {b : Bytes} {m : MigSession} {ks : List (KeyEntry × Bytes)}
    (hs : s.session true session (some (id, x.inst)) = some (.move m)) (hsha : sha384 b = d.freezeList) (hks : s.migKeys d [] = some ks)
    (hlen : (s.migRecord id (.move m) x d (chunks 8 b) ks).length ≤ outMax) (hr : s.freezeRegions id = []) :
    ∃ result, execMigrateSave c id session flist out_ outMax (.ok b) [] true s = done (
      let v := (s.saved c id flist out_ x m (s.migRecord id (.move m) x d (chunks 8 b) ks)).writeRecord id
      (v.finishAnchored c stOk result [] (v.recordItems id)).settle) := by
  have hx' : s.begin.stall? id = some x := hx
  have hd' : s.begin.stallData? id = some d := hd
  have he' : ¬ d.freezeEpoch ≠ s.begin.epo.epoch := not_not_intro hepoch
  have hs' : s.begin.session true session (some (id, x.inst)) = some (.move m) := hs
  have hks' : (s.begin.emit (.memRead 0 flist 0)).migKeys d [] = some ks := hks
  have hr' : s.begin.freezeRegions id = [] := hr
  generalize hmig : s.migRecord id (.move m) x d (chunks 8 b) ks = mig at hlen
  have hmig' : (s.begin.emit (.memRead 0 flist 0)).migRecord id (.move m) x d (chunks 8 b) ks = mig := hmig
  refine ⟨leBytes 4 (migLength (chunks 8 b).length ks.length), ?_⟩
  rw [execMigrateSave, State.command_run hc]
  simp only [hx', hd', if_neg (not_not_intro hfrozen), if_neg (Bool.eq_false_iff.mp hsaved), if_neg he', hs', State.input_ok, hr',
    List.length_nil, Nat.mul_zero, if_neg (not_not_intro hsha), hks', hmig', State.output_fits _ _ _ _ _ hlen]
  generalize hu : State.modStall id _ _ = u
  have hu' : u = s.saved c id flist out_ x m mig := by
    subst hu
    unfold State.modStall
    have hux : State.stall? { ((s.begin.emit (.memRead 0 flist 0)).emit (.memWrite c.stall out_ mig)) with
      stl := { s.stl with sessions := s.stl.sessions.erase m } } id = some x := hx
    simp only [State.emit, State.begin] at hux ⊢
    simp only [hux]
    rfl
  have hru : u.freezeRegions id = [] := by rw [hu']; exact hr
  rw [hru, hu']
  rfl

end

/-! ### MIGRATE_RESTORE (R419) -/

/-- The state in which the record of a restored Stall is written: the Stall as its core says, its blob region ZEROING, the session gone. -/
def State.restored (id rec_ blob gen : Nat) (x : Stall) (d : StallData) (m : MigSession) (on : Bool) (s : State) : State :=
  let r : RegionId := { pool := false, index := blob }
  let e : LdgEntry := { owner := id, gen, state := .zeroing, floor := s.epo.epoch, sweep := true }
  { s with
    out := [.memRead 0 rec_ 0]
    stl := { s.stl with
      table := assocSet id x s.stl.table, data := assocSet id d s.stl.data, sessions := s.stl.sessions.erase m }
    sty := { s.sty with
      accs := assocDel id s.sty.accs
      counts := assocDel id s.sty.counts
      suspects := s.sty.suspects.filter fun i => i ≠ id
      finals := s.sty.finals.filter fun r => r.stall ≠ id }
    mse := (s.mse.map fun e => { e with spine := e.spine.send (.invalidate r) }).map fun e => { e with spine := e.spine.send (.refusal id on) }
    lse := s.lse.map fun e => { e with spine := e.spine.send (.refusal id on) }
    hse := s.hse.map fun e => { e with spine := e.spine.send (.refusal id on) }
    ldg := { s.ldg with localEntries := putEntry blob e s.ldg.localEntries, items := s.ldg.items ++ [.entry r e] }
    swp := { s.swp with queue := s.swp.queue ++ [{ kind := .zero, region := r, stall := id, old := gen, new := gen, bootOld := false }] } }

theorem execMigrateRestore_restores {s : State} {c : Call} {session rec_ blobRegion counter : Nat} {b pt : Bytes} {m : MigSession}
    (hc : s.admits c 0x0406) (hs : s.session false session none = some (.move m)) (hth : slice b 0x20 32 = (padTo 32 m.th).take 32)
    (hformed : migFormed b = true) (hmode : leField b 8 1 = 1)
    (hopen : gcmOpen (m.kEst.take 32) (zeros 12) (b.take 64) ((b.drop 64).take (b.length - 80)) (b.drop (b.length - 16)) = some pt)
    (hchip : leField b 0x12 2 = s.dom.chip) (hid : leField b 6 2 ≠ 0) (hid' : leField b 6 2 < 4096) (hfree : s.idFree (leField b 6 2) = true)
    (hreg : s.regionOf (regionBytes * blobRegion) = some { pool := false, index := blobRegion })
    (hbind : s.bindable { pool := false, index := blobRegion } = true) (hn : leField b 0x14 4 = 0) (hk : leField b 0x18 2 = 0)
    (hl : (leField pt 0x11 1).testBit 0 = false) (hf : s.ldg.flight.isSome = true) :
    ∃ gen root on result is, execMigrateRestore c session rec_ blobRegion counter (.ok b) s = done (
      let v := (s.restored (leField b 6 2) rec_ blobRegion gen (coreStall pt (sub24 s.epo.epoch (leField pt 0x28 3)))
        { coreData pt with stallRoot := root } m on).writeRecord (leField b 6 2)
      v.finishAnchored c stOk result [] (v.recordItems (leField b 6 2) ++ is)) := by
  have hs' : (s.begin.emit (.memRead 0 rec_ 0)).session false session none = some (.move m) := hs
  have hform : ¬ (¬ migFormed b = true ∨ leField b 8 1 ≠ 1) := by simp [hformed, hmode]
  have hchip' : ¬ leField b 0x12 2 ≠ (s.begin.emit (.memRead 0 rec_ 0)).dom.chip := not_not_intro hchip
  have hbusy : ¬ (leField b 6 2 = 0 ∨ 4096 ≤ leField b 6 2 ∨ ¬ (s.begin.emit (.memRead 0 rec_ 0)).idFree (leField b 6 2) = true) := by
    have hfree' : (s.begin.emit (.memRead 0 rec_ 0)).idFree (leField b 6 2) = true := hfree
    simp [hfree', hid, hid']
  have hblob : ¬ ((s.begin.emit (.memRead 0 rec_ 0)).regionOf (regionBytes * blobRegion) ≠ some { pool := false, index := blobRegion } ∨
      ¬ (s.begin.emit (.memRead 0 rec_ 0)).bindable { pool := false, index := blobRegion } = true) := by
    have hreg' : (s.begin.emit (.memRead 0 rec_ 0)).regionOf (regionBytes * blobRegion) = some { pool := false, index := blobRegion } := hreg
    have hbind' : (s.begin.emit (.memRead 0 rec_ 0)).bindable { pool := false, index := blobRegion } = true := hbind
    simp [hreg', hbind']
  have hlock : ∀ bias, ¬ (coreStall pt bias).measLocked = true := fun _ => Bool.eq_false_iff.mp hl
  rw [execMigrateRestore, State.command_run hc]
  simp only [State.input_ok, hs', Session.th, Session.kEst, Session.nonce, Bool.false_eq_true, if_false, if_neg (not_not_intro hth), if_neg hform,
    hopen, if_neg hchip', if_neg hbusy, if_neg hblob, hn, hk, List.range_zero, List.map_nil, List.foldl_nil, List.any_nil, List.dedup_nil,
    if_neg (hlock _)]
  generalize hu : State.styAdmit (leField b 6 2) _ = u
  have huf : u.ldg.flight.isSome = true := by subst hu; exact hf
  generalize u.bindGen (leField b 6 2) = gen
  rw [State.bindZero_local rfl _ gen huf rfl]
  generalize hv : State.sendRefusal (leField b 6 2) _ = v
  have hv' : ∃ root on, ({ v with stl := { v.stl with sessions := v.stl.sessions.erase m } } : State) =
      s.restored (leField b 6 2) rec_ blobRegion gen (coreStall pt (sub24 s.epo.epoch (leField pt 0x28 3)))
        { coreData pt with stallRoot := root } m on := by
    subst hv hu
    simp only [State.sendRefusal]
    generalize State.refusesStall _ _ = on
    generalize State.stallRootKey _ _ _ _ _ = root
    refine ⟨root, on, ?_⟩
    simp only [State.restored, State.styAdmit, State.setStall, State.setStallData, State.emit, State.begin, State.spineAll, State.spineMses]
    rfl
  obtain ⟨root, on, hv'⟩ := hv'
  rw [hv']
  exact ⟨gen, root, on, _, _, rfl⟩

/-! ### The statement -/

/-- Settles O19: saves and restores are the states `State.saved` and `State.restored` with the Stall's record written; the rest are checks. -/
theorem migration : Obligations.Migration := by
  refine ⟨?saves, fun s c id session flist out_ outMax list bs ok x d hc hx hd => ⟨fun h => execMigrateSave_notFrozen hc hx hd h,
      fun hf h => execMigrateSave_saved hc hx hd hf h, fun hf hs h => execMigrateSave_stale hc hx hd hf hs h,
      fun hf hs he h => execMigrateSave_noSession hc hx hd hf hs he h⟩,
    ?restores, fun s x h => execMigSessionExpiry_expires (by norm_num; exact h), fun s h => execMigSessionExpiry_none (find?_of_any_false ?_)⟩
  case saves =>
    intro s c id session flist out_ outMax b x d m ks hc hx hd hfrozen hsaved hepoch hs hsha hks hlen hr hf hch
    obtain ⟨result, hexec⟩ := execMigrateSave_saves (flist := flist) (out_ := out_) hc hx hd hfrozen hsaved hepoch hs hsha hks hlen hr
    generalize s.migRecord id (.move m) x d (chunks 8 b) ks = mig at hexec hlen ⊢
    obtain ⟨sha, img, fresh, items, waits, hw⟩ := State.recordWaits (s := s.saved c id flist out_ x m mig) (id := id) (d := d)
      ((assocGet_assocSet ..).trans (if_pos rfl)) hd hf c stOk result []
    dsimp only at hw hexec
    rw [List.append_nil] at hw
    rw [hw, State.settle_none (by exact hch)] at hexec
    exact ⟨_, hexec, rfl, Stl.recorded_stall .., rfl, rfl, rfl, rfl, rfl⟩
  case restores =>
    intro s c session rec_ blobRegion counter b pt m hc hs hth hformed hmode hopen hchip hid hid' hfree hreg hbind hn hk hl hf
    obtain ⟨gen, root, on, result, is, hexec⟩ := execMigrateRestore_restores hc hs hth hformed hmode hopen hchip hid hid' hfree hreg hbind
      hn hk hl hf
    obtain ⟨sha, img, fresh, items, waits, hw⟩ := State.recordWaits (s := s.restored (leField b 6 2) rec_ blobRegion gen
      (coreStall pt (sub24 s.epo.epoch (leField pt 0x28 3))) { coreData pt with stallRoot := root } m on)
      ((assocGet_assocSet ..).trans (if_pos rfl)) ((assocGet_assocSet ..).trans (if_pos rfl)) hf c stOk result is
    dsimp only at hw hexec
    rw [hw] at hexec
    have hentry : State.entry _ { pool := false, index := blobRegion } = _ := State.entry_of_putEntry rfl (by simp) (s := s) (e := {
      owner := leField b 6 2, gen, state := .zeroing, floor := s.epo.epoch, sweep := true }) (t := { s.restored (leField b 6 2) rec_
        blobRegion gen (coreStall pt (sub24 s.epo.epoch (leField pt 0x28 3))) { coreData pt with stallRoot := root } m on with out := [] }) rfl
    refine ⟨_, hexec, Stl.recorded_stall .., ?_, congrArg LdgEntry.state hentry, congrArg LdgEntry.owner hentry, rfl, rfl, rfl, rfl⟩
    exact (congrArg (Option.map _) (Stl.recorded_data ..)).trans rfl
  case _ =>
    simpa [List.all_eq_true, List.any_eq_false] using h

end Sys2Proof.Machine

/-!
The commands on Marks (O46).

A signal has one lemma for each of its ends (`State.signalMark_…`), a command on a Mark of its issuer runs on the resident Mark
(`State.onMark_run`), and a Mark poisoned or freed ends the waits on it (`State.endMarkWaits_ends`), of which there are none where no command
waits.
-/

namespace Sys2Proof.Machine

/-! ### Resident Marks -/

theorem State.mark?_setMark (k : Nat) (m : Mark) (s : State) : (s.setMark k m).mark? k = some m :=
  (assocGet_assocSet ..).trans (if_pos rfl)

theorem State.setMark_setMark (k : Nat) (m n : Mark) (s : State) : (s.setMark k m).setMark k n = s.setMark k n := by
  simp only [State.setMark, assocSet_assocSet]

/-- A resident Mark used now. -/
def State.useMark (k : Nat) (m : Mark) (s : State) : State := s.setMark k { m with lastUse := s.clk.elapsed }

/-- A command of a Mark's owner runs on the resident Mark. -/
theorem State.onMark_run {c : Call} {k : Nat} {m : Mark} {s : State} (ho : s.markOwner k = some c.stall) (hm : s.mark? k = some m)
    (body : Mark → State → State) : s.onMark c k body = body m (s.useMark k m) := by
  unfold State.onMark State.useMark
  rw [if_neg (not_not_intro ho), hm]

/-! ### The end of waits on a Mark (R379, R380) -/

/-- The waits on a Mark end; beside waits, signals held for a fill and records nothing changes. -/
theorem State.endMarkWaits_ends (k : Nat) (s : State) : OnlyRecords { s with
    mrk := { s.mrk with waits := s.mrk.waits.filter fun w => w.index ≠ k, sigs := s.mrk.sigs.filter fun p => p.1 ≠ k } }
    (s.endMarkWaits k) := by
  unfold State.endMarkWaits
  extract_lets mrk ws held qs hlm t u
  have ht : OnlyRecords { s with
      mrk := { s.mrk with waits := s.mrk.waits.filter fun w => w.index ≠ k, sigs := s.mrk.sigs.filter fun p => p.1 ≠ k } } t := rfl
  have hu : OnlyRecords t u := List.foldlRecOn (motive := OnlyRecords t) ws _ rfl fun v hv w _ => hv.trans (by
    refine OnlyRecords.trans ?_ (State.complete_records ..)
    rw [State.waitEnd_frame]
    rfl)
  exact (ht.trans hu).trans (List.foldlRecOn (motive := OnlyRecords u) qs _ rfl fun v hv q _ => hv.trans (State.complete_records ..))

section
variable {s : State} (hw : s.mrk.waits = []) (hb : s.hlm.buffer = []) (ht : s.hlm.tickQ = [])
include hw hb ht

/-- With no command that waits, only the signals held for a fill go. -/
theorem State.endMarkWaits_none (k : Nat) :
    s.endMarkWaits k = { s with mrk := { s.mrk with sigs := s.mrk.sigs.filter fun p => p.1 ≠ k } } := by
  have hmrk : { s.mrk with waits := [] } = s.mrk := by rw [← hw]
  have hhlm : { s.hlm with buffer := [], tickQ := [] } = s.hlm := by
    generalize s.hlm = h at hb ht
    cases h
    subst hb ht
    rfl
  unfold State.endMarkWaits
  simp only [hw, hb, ht, List.filter_nil, List.append_nil, List.foldl_nil]
  rw [hhlm]

end

/-- A Mark that is not poisoned is poisoned: its timers stop, EV_MARK_POISON is raised, the waits on it end. -/
theorem State.poisonMark_poisons {k : Nat} (cause : Nat) {m : Mark} {s : State} (hm : s.mark? k = some m) (hp : m.poison = none) :
    s.poisonMark k cause = (((s.setMark k { m with poison := some cause, dests := m.dests.map fun d => { d with timer := none } }).event
      evMarkPoison unitMarks (s.markOwner k) k cause).bump (ctrMrk 8) 1).endMarkWaits k := by
  unfold State.poisonMark
  rw [hm]
  exact if_neg (by simp [hp])

/-- A Mark's value changed with no command waiting on any Mark. -/
theorem State.markChanged_none (k : Nat) {s : State} (hw : s.mrk.waits = []) : ∃ alr, s.markChanged k = { s with alr } ∧ alr.quiet = s.alr.quiet := by
  have hmrk : { s.mrk with waits := [] } = s.mrk := by rw [← hw]
  unfold State.markChanged
  split
  · exact ⟨_, rfl, rfl⟩
  · simp only [hw, List.filter_nil, List.foldl_nil, hmrk]
    exact ⟨_, rfl, rfl⟩

/-! ### MARK_SIGNAL (R380) -/

section
variable {k : Nat} {add : Bool} {v : Nat} {m : Mark} {s : State} (hm : s.mark? k = some m)
include hm

theorem State.signalMark_refused (h : m.mirror = true ∨ m.poison.isSome = true) :
    s.signalMark k add v = (s, if m.mirror then stMarkMode else stMarkPoisoned) := by
  unfold State.signalMark
  rw [hm]
  cases hmir : m.mirror with
  | true => simp [hmir]
  | false => simp [hmir, h.resolve_left (by simp [hmir])]

variable (hmir : m.mirror = false) (hp : m.poison = none)
include hmir hp

theorem State.signalMark_stale (hv : v ≤ m.value) : s.signalMark k false v =
    (({ (s.setMark k { m with stale := m.stale + 1, lastUse := s.clk.elapsed }) with
      mrk := { (s.setMark k { m with stale := m.stale + 1, lastUse := s.clk.elapsed }).mrk with
        stale := satAdd 65535 s.mrk.stale 1 } } : State).bump (ctrMrk 4) 1, stMarkStale) := by
  unfold State.signalMark
  simp only [hm]
  rw [if_neg (Bool.eq_false_iff.mp hmir), if_neg (by simp [hp]), if_pos ⟨Bool.false_ne_true, hv⟩]
  rfl

theorem State.signalMark_wraps (hv : 2 ^ 64 ≤ m.value + v) : s.signalMark k true v = (s.poisonMark k 1, stMarkWrap) := by
  unfold State.signalMark
  have hwrap : 2 ^ 64 - 1 < m.value + v := by omega
  simp only [hm, hmir, hp, Bool.false_eq_true, if_false, Option.isSome_none, not_true_eq_false, false_and, true_and, if_pos hwrap]

theorem State.signalMark_takes {new : Nat} (hd : m.dests = []) (hw : s.mrk.waits = []) (hnew : new = if add then m.value + v else v)
    (hlt : new < 2 ^ 64) (hup : add = false → m.value < v) :
    ∃ alr obs, s.signalMark k add v =
      ({ s.setMark k { m with value := new, sent := new, changed := s.clk.domain, lastUse := s.clk.elapsed } with alr, obs }, stOk) ∧
        alr.quiet = s.alr.quiet := by
  have hstale : ¬ (¬ add = true ∧ v ≤ m.value) := fun ⟨ha, hv⟩ => by
    have := hup (Bool.eq_false_iff.mpr ha)
    omega
  have hwrap : ¬ (add = true ∧ 2 ^ 64 - 1 < m.value + v) := fun ⟨ha, hv⟩ => by
    rw [if_pos ha] at hnew
    omega
  have hdests (n : Mark) (h : n.dests = []) : { n with dests := [] } = n := by rw [← h]
  unfold State.signalMark
  simp only [hm]
  rw [if_neg (Bool.eq_false_iff.mp hmir), if_neg (by simp [hp]), if_neg hstale, if_neg hwrap, ← hnew]
  generalize ht : State.bump _ _ _ = t
  have htm : t.mark? k = some { m with value := new, changed := s.clk.domain, lastUse := s.clk.elapsed } := by
    subst ht
    exact State.mark?_setMark ..
  have hsend : t.sendValue k = t.setMark k { m with value := new, sent := new, changed := s.clk.domain, lastUse := s.clk.elapsed } := by
    unfold State.sendValue
    simp only [htm, hd, List.map_nil, List.zipIdx_nil, List.filter_nil, List.foldl_nil]
  rw [hsend]
  obtain ⟨alr, hchanged, hquiet⟩ := State.markChanged_none k (s := t.setMark k
    { m with value := new, sent := new, changed := s.clk.domain, lastUse := s.clk.elapsed }) (by subst ht; exact hw)
  rw [hchanged]
  subst ht
  refine ⟨alr, s.obs.bump (ctrMrk 0) 1, ?_, hquiet⟩
  simp only [State.setMark, State.bump, assocSet_assocSet]

end

theorem execMarkSignal_run {s : State} {c : Call} {k op v : Nat} {m : Mark} (hc : s.admits c 0x0703) (hop : op ≤ 1)
    (ho : s.markOwner k = some c.stall) (hm : s.mark? k = some m) :
    execMarkSignal c k op v s = done ((((s.begin.useMark k m).signalMark k (decide (op = 1)) v).1).finish c
      ((s.begin.useMark k m).signalMark k (decide (op = 1)) v).2) := by
  rw [execMarkSignal, State.command_run hc, if_neg (Nat.not_lt.mpr hop), State.onMark_run (s := s.begin) ho hm]

/-! ### MARK_CREATE, MARK_DESTROY and MARK_ROUTE (R379, R381) -/

/-- The Mark a MARK_CREATE makes. -/
def State.newMark (mode ndest srcChip srcMark : Nat) (dests : List (Nat × Nat)) (s : State) : Mark :=
  { mirror := decide (mode = 1), value := 0, sent := 0
    dests := if mode = 1 then [] else (dests.take ndest).map fun p =>
      { chip := p.1, mark := p.2, acked := 0, seq := 0, timer := none, resends := 0, unreachable := false }
    srcChip := if mode = 1 then srcChip else 0, srcMark := if mode = 1 then srcMark else 0, lastSeq := 0, poison := none
    stale := 0, changed := s.clk.domain, lastUse := s.clk.elapsed }

section
variable {s : State} {c : Call} {spill mode ndest srcChip srcMark : Nat} {dests : List (Nat × Nat)} (hc : s.admits c 0x0701)
  (halign : spill % 256 = 0) (hspill : spill < 2 ^ 56) (hmode : mode ≤ 1) (hn : ndest ≤ 12)
include hc halign hspill hmode hn

theorem execMarkCreate_checks :
    execMarkCreate c spill mode ndest srcChip srcMark dests s = done (
      if ¬ s.ownsSealed c.stall spill (spill + 256) then s.begin.finish c stRegionState
      else match firstFree s.mrk.dir 0 65535 with
        | none => s.begin.finish c stMarkFull
        | some k => match s.begin.markPlace with
          | none => s.begin
          | some t => ({ t with mrk := { t.mrk with
              res := assocSet k (t.newMark mode ndest srcChip srcMark dests) t.mrk.res
              dir := assocSet k { owner := c.stall, version := 0, addr := spill, spilledAt := none } t.mrk.dir } } : State).finishOk c
                (leBytes 2 k)) := by
  have hgo : ¬ (spill % 256 ≠ 0 ∨ 2 ^ 56 ≤ spill) := fun h => h.elim (· halign) (Nat.not_le.mpr hspill)
  rw [execMarkCreate, State.command_run hc, if_neg hgo, if_neg (Nat.not_lt.mpr hmode), if_neg (Nat.not_lt.mpr hn)]
  rfl

theorem execMarkCreate_creates {k : Nat} (ho : s.ownsSealed c.stall spill (spill + 256) = true)
    (hk : firstFree s.mrk.dir 0 65535 = some k) (hroom : s.mrk.res.length < 64) :
    execMarkCreate c spill mode ndest srcChip srcMark dests s = done (({ s.begin with mrk := { s.mrk with
      res := assocSet k (s.newMark mode ndest srcChip srcMark dests) s.mrk.res
      dir := assocSet k { owner := c.stall, version := 0, addr := spill, spilledAt := none } s.mrk.dir } } : State).finishOk c
        (leBytes 2 k)) := by
  have hplace : s.begin.markPlace = some s.begin := if_pos hroom
  rw [execMarkCreate_checks hc halign hspill hmode hn, if_neg (by simp [ho]), hk]
  simp only [hplace]
  rfl

theorem execMarkCreate_foreign (ho : s.ownsSealed c.stall spill (spill + 256) = false) :
    execMarkCreate c spill mode ndest srcChip srcMark dests s = done (s.begin.finish c stRegionState) := by
  rw [execMarkCreate_checks hc halign hspill hmode hn, if_pos (by simp [ho])]

theorem execMarkCreate_full (ho : s.ownsSealed c.stall spill (spill + 256) = true) (hk : firstFree s.mrk.dir 0 65535 = none) :
    execMarkCreate c spill mode ndest srcChip srcMark dests s = done (s.begin.finish c stMarkFull) := by
  rw [execMarkCreate_checks hc halign hspill hmode hn, if_neg (by simp [ho]), hk]

end

/-- With no command that waits, a Mark freed is gone, and the signals and the fill that waited for it. -/
theorem execMarkDestroy_frees {s : State} {c : Call} {k : Nat} (hc : s.admits c 0x0702) (ho : s.markOwner k = some c.stall)
    (hw : s.mrk.waits = []) (hb : s.hlm.buffer = []) (ht : s.hlm.tickQ = []) :
    ∃ sigs fills, execMarkDestroy c k s = done (({ s.begin with mrk := { s.mrk with
      sigs, fills, dir := assocDel k s.mrk.dir, res := assocDel k s.mrk.res } } : State).finish c stOk) := by
  have ho' : s.begin.markOwner k = some c.stall := ho
  rw [execMarkDestroy, State.command_run hc, if_neg (not_not_intro ho')]
  unfold State.freeMark
  rw [State.endMarkWaits_none (s := s.begin) hw hb ht]
  exact ⟨_, _, rfl⟩

theorem execMarkDestroy_foreign {s : State} {c : Call} {k : Nat} (hc : s.admits c 0x0702) (ho : s.markOwner k ≠ some c.stall) :
    execMarkDestroy c k s = done (s.begin.finishDetail c stParam 0x30) := by
  have ho' : s.begin.markOwner k ≠ some c.stall := ho
  rw [execMarkDestroy, State.command_run hc, if_pos ho']
  rfl

theorem execMarkRoute_sets {s : State} {c : Call} {chip primary alternate flags : Nat} (hc : s.admits c 0x0705) (hchip : chip < 2 ^ 15)
    (hp : primary < s.build.lseCount) (ha : alternate = 0xFF ∨ alternate < s.build.lseCount) (hf : flags ≤ 1) :
    execMarkRoute c chip primary alternate flags s = done (({ s.begin with mrk := { s.mrk with
      routes := if flags = 1 then assocDel chip s.mrk.routes else
        assocSet chip { primary, alternate := if alternate = 0xFF then none else some alternate } s.mrk.routes } } : State).finish c stOk) := by
  have ha' : ¬ (alternate ≠ 0xFF ∧ s.begin.build.lseCount ≤ alternate) := fun ⟨h, hle⟩ => ha.elim h (Nat.not_lt.mpr hle)
  have hp' : ¬ s.begin.build.lseCount ≤ primary := Nat.not_le.mpr hp
  rw [execMarkRoute, State.command_run hc, if_neg (Nat.not_le.mpr hchip), if_neg hp', if_neg ha',
    if_neg (Nat.not_lt.mpr hf)]
  rfl

/-! ### MARK_WAIT (R486) -/

theorem execMarkWait_run {s : State} {c : Call} {k timeout v : Nat} {m : Mark} (hc : s.admits c 0x0704) (ho : s.markOwner k = some c.stall)
    (hm : s.mark? k = some m) (hp : m.poison = none) :
    execMarkWait c k timeout v s = done (
      if v ≤ m.complete then (s.begin.useMark k m).finishOk c (leBytes 8 m.complete)
      else if s.mrk.waits.any (fun w => w.call = c) then s.begin.useMark k m
      else ({ s.begin.useMark k m with mrk := { (s.begin.useMark k m).mrk with waits := s.mrk.waits ++
        [{ call := c, index := k, value := v, deadline := if timeout = 0 then none else some (s.clk.elapsed + timeout * 1000) }] } } : State).waitBegin
          79 1 (some c.stall) k) := by
  rw [execMarkWait, State.command_run hc, State.onMark_run (s := s.begin) ho hm, if_neg (by simp [hp])]
  rfl

theorem execMarkWaitTimeout_none {s : State}
    (h : s.mrk.waits.find? (fun w => (w.deadline.map fun d => decide (d ≤ s.clk.elapsed)).getD false) = none) :
    execMarkWaitTimeout s = done s.begin := by
  have h' : s.begin.mrk.waits.find? (fun w => (w.deadline.map fun d => decide (d ≤ s.begin.clk.elapsed)).getD false) = none := h
  unfold execMarkWaitTimeout
  simp only [h']

theorem execMarkWaitTimeout_ends {s : State} {w : MarkWait}
    (h : s.mrk.waits.find? (fun w => (w.deadline.map fun d => decide (d ≤ s.clk.elapsed)).getD false) = some w) :
    execMarkWaitTimeout s = done ((({ s.begin with mrk := { s.mrk with waits := s.mrk.waits.erase w } } : State).waitEnd 79 1
      (some w.call.stall) w.index).finish w.call stMarkTimeout) := by
  have h' : s.begin.mrk.waits.find? (fun w => (w.deadline.map fun d => decide (d ≤ s.begin.clk.elapsed)).getD false) = some w := h
  unfold execMarkWaitTimeout
  simp only [h']
  rfl

/-! ### MARK_FILL_DONE (R386) -/

/-- The Mark that takes the place of a record that cannot be used, until it is poisoned. -/
def emptyMark (now : Nat) : Mark :=
  { mirror := false, value := 0, sent := 0, dests := [], srcChip := 0, srcMark := 0, lastSeq := 0, poison := none, stale := 0
    changed := 0, lastUse := now }

/-- The Mark just filled. -/
def State.fillMark (k : Nat) (m : Mark) (s : State) : State :=
  (({ s with mrk := { s.mrk with fills := s.mrk.fills.filter (· ≠ k), res := assocSet k m s.mrk.res } } : State).progress).bump (ctrMrk 7) 1

section
variable {s : State} {k : Nat} {d : MarkDir} (hf : s.mrk.fills.contains k = true) (hq : s.alr.quiet = false)
  (hd : assocGet k s.mrk.dir = some d) (hroom : s.mrk.res.length < 64)
include hf hq hd hroom

theorem execMarkFillDone_good {b : Bytes} (hsigs : s.mrk.sigs.any (fun p => p.1 = k) = false) (hok : markRecordOk k d b = true) :
    execMarkFillDone k (.ok b) s = done (let u := s.begin.fillMark k (markOf b s.clk.elapsed)
      { u with mrk := { u.mrk with sigs := u.mrk.sigs.filter fun p => p.1 ≠ k } }) := by
  have hplace : s.begin.markPlace = some s.begin := if_pos hroom
  have hgo : ¬ (¬ s.begin.mrk.fills.contains k = true ∨ s.begin.alr.quiet = true) := fun h =>
    h.elim (fun h => h hf) (fun h => absurd h (by simp [hq]))
  have hd' : assocGet k s.begin.mrk.dir = some d := hd
  have hnone : s.mrk.sigs.filter (fun p => p.1 = k) = [] := List.filter_eq_nil_iff.mpr (List.any_eq_false.mp hsigs)
  unfold execMarkFillDone
  simp only [if_neg hgo, hd', hplace, if_pos hok, Option.isSome_some, if_true]
  exact congrArg done (congrArg (fun l => List.foldl _ _ l) hnone)

theorem execMarkFillDone_bad {r : BufRead} (hbad : ∀ b, r = .ok b → markRecordOk k d b = false) :
    execMarkFillDone k r s = done (let u := (s.begin.fillMark k (emptyMark s.clk.elapsed)).poisonMark k 3
      (u.mrk.sigs.filter fun p => p.1 = k).foldl (fun u p => (u.signalMark k false p.2).1)
        { u with mrk := { u.mrk with sigs := u.mrk.sigs.filter fun p => p.1 ≠ k } }) := by
  have hplace : s.begin.markPlace = some s.begin := if_pos hroom
  have hgo : ¬ (¬ s.begin.mrk.fills.contains k = true ∨ s.begin.alr.quiet = true) := fun h =>
    h.elim (fun h => h hf) (fun h => absurd h (by simp [hq]))
  have hd' : assocGet k s.begin.mrk.dir = some d := hd
  unfold execMarkFillDone
  cases r with
  | failed =>
    simp only [if_neg hgo, hd', hplace]
    rfl
  | ok b =>
    simp only [if_neg hgo, hd', hplace, if_neg (Bool.eq_false_iff.mp (hbad b rfl))]
    rfl

end

/-! ### The statement -/

/-- Settles O46: each clause is its command's lemma, with the Mark as `State.setMark` leaves it and the command's record. -/
theorem markCommands : Obligations.MarkCommands := by
  refine ⟨?creates, fun s c spill mode ndest srcChip srcMark dests hc ha hs hm hn => ⟨fun h => execMarkCreate_foreign hc ha hs hm hn h,
      fun h hk => execMarkCreate_full hc ha hs hm hn h hk⟩, ?takes, ?stale, ?wraps, ?refused, ?reached, ?waits,
    fun s h => execMarkWaitTimeout_none (find?_of_any_false h), ?timeout, ?destroys, fun s c k hc ho => execMarkDestroy_foreign hc ho,
    ?routes, ?fills, ?poisons⟩
  case creates =>
    intro s c spill mode ndest srcChip srcMark k dests hc ha hs hm hn ho hk hroom
    have hexec := execMarkCreate_creates (srcChip := srcChip) (srcMark := srcMark) (dests := dests) hc ha hs hm hn ho hk hroom
    obtain ⟨hlm, alr, obs, hdone, hrec⟩ := State.complete_issues { c.record stOk with result := leBytes 2 k }
      (s := { s.begin with mrk := { s.mrk with
        res := assocSet k (s.newMark mode ndest srcChip srcMark dests) s.mrk.res
        dir := assocSet k { owner := c.stall, version := 0, addr := spill, spilledAt := none } s.mrk.dir } }) hc.1.2.2
    have hmark : assocGet k (assocSet k (s.newMark mode ndest srcChip srcMark dests) s.mrk.res) = some _ :=
      (assocGet_assocSet ..).trans (if_pos rfl)
    refine ⟨_, hexec.trans (congrArg done hdone), (assocGet_assocSet ..).trans (if_pos rfl), congrArg (Option.map _) hmark,
      (congrArg (Option.map _) hmark).trans ?_, (congrArg (Option.map _) hmark).trans ?_, assocDel_assocSet .., assocDel_assocSet .., hrec, rfl⟩
    · by_cases h : mode = 1 <;> simp [State.newMark, h, Function.comp_def]
    · by_cases h : mode = 1 <;> simp [State.newMark, h]
  case takes =>
    intro s c k op v new m hc hop ho hm hmir hp hd hw hnew hlt hup
    have hop' : (new = if decide (op = 1) then m.value + v else v) := by simpa using hnew
    obtain ⟨alr, obs, hsig, hquiet⟩ := State.signalMark_takes (s := s.begin.useMark k m) (m := { m with lastUse := s.clk.elapsed }) (v := v)
      (State.mark?_setMark ..) hmir hp hd hw hop' hlt (fun h => hup (by have := of_decide_eq_false h; omega))
    have hexec := execMarkSignal_run (v := v) hc hop ho hm
    rw [hsig] at hexec
    obtain ⟨hlm, alr', obs', hdone, hrec⟩ := State.complete_issues (c.record stOk) (s := { (s.begin.useMark k m).setMark k
      { m with value := new, sent := new, changed := s.clk.domain, lastUse := s.clk.elapsed } with alr, obs }) (hquiet.trans hc.1.2.2)
    refine ⟨_, hexec.trans (congrArg done hdone), ?_, hrec, rfl⟩
    rw [← assocSet_assocSet]
    rfl
  case stale =>
    intro s c k v m hc ho hm hmir hp hv
    have hexec := execMarkSignal_run (v := v) hc (by decide : 0 ≤ 1) ho hm
    have hsig := State.signalMark_stale (s := s.begin.useMark k m) (m := { m with lastUse := s.clk.elapsed }) (v := v)
      (State.mark?_setMark ..) hmir hp hv
    rw [show decide (0 = 1) = false from rfl, hsig] at hexec
    dsimp only at hexec
    generalize hu : State.bump _ _ _ = u at hexec
    obtain ⟨hlm, alr, obs, hdone, hrec⟩ := State.complete_issues (c.record stMarkStale) (s := u) (by subst hu; exact hc.1.2.2)
    refine ⟨_, hexec.trans (congrArg done hdone), ?_, ?_⟩
    · subst hu
      simp only [State.useMark, State.setMark_setMark]
      rfl
    · subst hu
      exact hrec
  case wraps =>
    intro s c k v m hc ho hm hmir hp hv hw hb ht
    have hexec := execMarkSignal_run (v := v) hc (by decide : 1 ≤ 1) ho hm
    rw [show decide (1 = 1) = true from rfl, State.signalMark_wraps (s := s.begin.useMark k m) (m := { m with lastUse := s.clk.elapsed })
      (State.mark?_setMark ..) hmir hp hv, State.poisonMark_poisons 1 (s := s.begin.useMark k m) (State.mark?_setMark ..) hp] at hexec
    have howner : (s.begin.useMark k m).markOwner k = some c.stall := ho
    rw [howner] at hexec
    dsimp only at hexec
    generalize hu : State.bump _ _ _ = u at hexec
    rw [State.endMarkWaits_none (s := u) (by subst hu; exact hw) (by subst hu; exact hb) (by subst hu; exact ht)] at hexec
    obtain ⟨hlm, alr, obs, hdone, hrec⟩ := State.complete_issues (c.record stMarkWrap)
      (s := { u with mrk := { u.mrk with sigs := u.mrk.sigs.filter fun p => p.1 ≠ k } }) (by subst hu; exact hc.1.2.2)
    have hfifo := State.complete_fifo (c.record stMarkWrap) { u with mrk := { u.mrk with sigs := u.mrk.sigs.filter fun p => p.1 ≠ k } }
    rw [hdone] at hfifo
    subst hu
    exact ⟨_, hexec.trans (congrArg done hdone), congrArg (Option.map _) (State.mark?_setMark ..), State.recorded_of_port rfl rfl hrec, hfifo⟩
  case refused =>
    intro s c k op v m hc hop ho hm h
    have hexec := execMarkSignal_run (v := v) hc hop ho hm
    rw [State.signalMark_refused (s := s.begin.useMark k m) (m := { m with lastUse := s.clk.elapsed }) (State.mark?_setMark ..) h] at hexec
    obtain ⟨hlm, alr, obs, hdone, hrec⟩ := State.complete_issues (c.record (if m.mirror then stMarkMode else stMarkPoisoned))
      (s := s.begin.useMark k m) hc.1.2.2
    exact ⟨_, hexec.trans (congrArg done hdone), hrec, State.mark?_setMark ..⟩
  case reached =>
    intro s c k timeout v m hc ho hm hp hv
    have hexec := execMarkWait_run (timeout := timeout) (v := v) hc ho hm hp
    rw [if_pos hv] at hexec
    obtain ⟨hlm, alr, obs, hdone, hrec⟩ := State.complete_issues { c.record stOk with result := leBytes 8 m.complete }
      (s := s.begin.useMark k m) hc.1.2.2
    exact ⟨_, hexec.trans (congrArg done hdone), hrec, rfl, State.mark?_setMark ..⟩
  case waits =>
    intro s c k timeout v m hc ho hm hp hv hnew
    have hexec := execMarkWait_run (timeout := timeout) (v := v) hc ho hm hp
    rw [if_neg (Nat.not_le.mpr hv), if_neg (by simp [hnew])] at hexec
    exact ⟨_, hexec, rfl, rfl, rfl⟩
  case timeout =>
    intro s w h hq
    have hexec := execMarkWaitTimeout_ends h
    rw [State.waitEnd_frame] at hexec
    generalize State.obs (State.waitEnd ..) = obs at hexec
    obtain ⟨hlm, alr, obs', hdone, hrec⟩ := State.complete_issues (w.call.record stMarkTimeout)
      (s := { s.begin with mrk := { s.mrk with waits := s.mrk.waits.erase w }, obs }) hq
    exact ⟨_, hexec.trans (congrArg done hdone), rfl, hrec, rfl⟩
  case destroys =>
    intro s c k hc ho hw hb ht
    obtain ⟨sigs, fills, hexec⟩ := execMarkDestroy_frees hc ho hw hb ht
    obtain ⟨hlm, alr, obs, hdone, hrec⟩ := State.complete_issues (c.record stOk) (s := { s.begin with mrk := { s.mrk with
      sigs, fills, dir := assocDel k s.mrk.dir, res := assocDel k s.mrk.res } }) hc.1.2.2
    exact ⟨_, hexec.trans (congrArg done hdone), rfl, rfl, hrec, rfl⟩
  case routes =>
    intro s c chip primary alternate flags hc hchip hp ha hf
    have hexec := execMarkRoute_sets hc hchip hp ha hf
    obtain ⟨hlm, alr, obs, hdone, hrec⟩ := State.complete_issues (c.record stOk) (s := { s.begin with mrk := { s.mrk with
      routes := if flags = 1 then assocDel chip s.mrk.routes else
        assocSet chip { primary, alternate := if alternate = 0xFF then none else some alternate } s.mrk.routes } }) hc.1.2.2
    exact ⟨_, hexec.trans (congrArg done hdone), rfl, hrec, rfl⟩
  case fills =>
    intro s k d b hf hq hd hroom hsigs hok
    exact ⟨_, execMarkFillDone_good hf hq hd hroom hsigs hok, rfl, rfl, rfl, rfl⟩
  case poisons =>
    intro s k d r hf hq hd hroom hsigs hbad
    have hexec := execMarkFillDone_bad (r := r) hf hq hd hroom (by rintro b rfl; exact hbad)
    have hmark : (s.begin.fillMark k (emptyMark s.clk.elapsed)).mark? k = some (emptyMark s.clk.elapsed) :=
      (assocGet_assocSet ..).trans (if_pos rfl)
    rw [State.poisonMark_poisons 3 hmark rfl] at hexec
    generalize hu : State.bump _ _ _ = u at hexec
    have hends := u.endMarkWaits_ends k
    generalize u.endMarkWaits k = t at hexec hends
    have hnone : t.mrk.sigs.filter (fun p => p.1 = k) = [] := by
      rw [show t.mrk.sigs = _ from (congrArg (·.mrk.sigs) hends :)]
      simp [List.filter_filter]
    dsimp only at hexec
    rw [hnone] at hexec
    have hres : t.mrk.res = u.mrk.res := (congrArg (·.mrk.res) hends :)
    refine ⟨_, hexec, (congrArg (·.mrk.fills) hends :).trans ?_, (congrArg (·.mrk.dir) hends :).trans ?_, ?_, ?_⟩
    · subst hu; rfl
    · subst hu; rfl
    · refine (congrArg (Option.map _) (congrArg (assocGet k) hres)).trans ?_
      subst hu
      exact congrArg (Option.map _) (State.mark?_setMark ..)
    · refine (congrArg (assocDel k) hres).trans ?_
      subst hu
      exact (assocDel_assocSet ..).trans (assocDel_assocSet ..)

end Sys2Proof.Machine

/-!
Marks between chips (O47).

A unit dropped from the receive buffer leaves the routes (`State.markRoute_dropRx`), and a unit sent is what `State.sendUnit_sealed` says; with no
command that waits on a Mark, a value taken or acknowledged is the Mark replaced (`State.mirrorSignal_takes`, `State.homeAck_raises`).
-/

namespace Sys2Proof.Machine

/-! ### Received units (R381, R382) -/

theorem State.markAtHand_none {k : Nat} {d : MarkDir} {m : Mark} {s : State} (hd : assocGet k s.mrk.dir = some d)
    (hr : s.resident d.owner = true) (hm : s.mark? k = some m) : s.markAtHand k = none := by
  unfold State.markAtHand
  simp only [hd, hr, hm, not_true_eq_false, if_false, Option.isNone_some, Bool.false_eq_true]

/-- The routes of Marks do not look at receive buffers. -/
theorem State.markRoute_dropRx (l : Nat) (u : RxUnit) (chip : Nat) (s : State) : (s.dropRx l u).markRoute chip = s.markRoute chip := by
  have hup (i : Nat) : ((s.dropRx l u).lse[i]?).map Lse.usable = (s.lse[i]?).map Lse.usable := by
    rw [← List.getElem?_map, ← List.getElem?_map]
    exact congrArg (·[i]?) (map_listSet_of_eq (f := fun l : Lse => { l with rxBuf := l.rxBuf.eraseP (· = u) }) (fun _ => rfl) s.lse l)
  unfold State.markRoute
  simp only [hup]
  rfl

/-- A signal of its source with a new SEQ and a higher value: the mirror takes both. -/
theorem State.mirrorSignal_takes {k origin om seq v : Nat} {m : Mark} {s : State} (hm : s.mark? k = some m) (hmir : m.mirror = true)
    (ho : m.srcChip = origin) (hom : m.srcMark = om) (hseq : m.lastSeq < seq) (hv : m.value < v) (hw : s.mrk.waits = []) :
    ∃ alr, s.mirrorSignal k origin om seq false v =
      ({ s.setMark k { m with value := v, lastSeq := seq, changed := s.clk.domain, lastUse := s.clk.elapsed } with alr }, v, m.poison.isSome) := by
  have hsrc : ¬ (¬ m.mirror = true ∨ m.srcChip ≠ origin ∨ m.srcMark ≠ om) := by simp [hmir, ho, hom]
  obtain ⟨alr, hchanged, -⟩ := State.markChanged_none k (s := s.setMark k
    { m with value := v, lastSeq := seq, changed := s.clk.domain, lastUse := s.clk.elapsed }) hw
  refine ⟨alr, ?_⟩
  unfold State.mirrorSignal
  simp only [hm]
  rw [if_neg hsrc, if_neg Bool.false_ne_true, if_neg (Nat.not_le.mpr hseq), if_pos hv, hchanged]

/-- An acknowledgement above ACKED raises it and restarts the destination's resends. -/
theorem State.homeAck_raises {k i origin om v : Nat} {m : Mark} {x : MarkDest} {s : State} (hm : s.mark? k = some m) (hmir : m.mirror = false)
    (hp : m.poison = none) (hx : m.dests.zipIdx.find? (fun d => d.1.chip = origin ∧ d.1.mark = om) = some (x, i)) (hv : x.acked < v)
    (hw : s.mrk.waits = []) :
    ∃ alr obs, s.homeAck k origin om false v = { s.setMark k { m with dests := listSet m.dests i fun _ =>
      { x with acked := v, resends := 0, timer := if v < m.sent then some s.clk.elapsed else none } } with alr, obs } := by
  have hgo : ¬ (false = true ∨ m.mirror = true ∨ m.poison.isSome = true ∨ v ≤ x.acked) := by simp [hmir, hp, hv]
  unfold State.homeAck
  simp only [hm, hx]
  rw [if_neg hgo]
  generalize hu : (if 0 < x.resends then _ else _ : State) = u
  have hu' : ∃ obs, u = { s with obs } := by
    subst hu
    split
    · rw [State.waitEnd_frame]; exact ⟨_, rfl⟩
    · exact ⟨_, rfl⟩
  obtain ⟨obs, rfl⟩ := hu'
  obtain ⟨alr, hchanged, -⟩ := State.markChanged_none k (s := State.setMark k { m with dests := listSet m.dests i fun _ =>
      { x with acked := v, resends := 0, timer := if v < m.sent then some s.clk.elapsed else none } } { s with obs }) hw
  exact ⟨alr, obs, hchanged⟩

/-! ### Resends (R383) -/

/-- The current value of a Mark goes to another chip over its route. -/
theorem State.sendDest_sends {k i l : Nat} {m : Mark} {d : MarkDest} {s : State} (hm : s.mark? k = some m) (hd : m.dests[i]? = some d)
    (hc : d.chip ≠ s.dom.chip) (hr : s.markRoute d.chip = some l) :
    s.sendDest k i = s.sendUnit l (ctrlUnit 6 (markUnit d.chip d.mark s.dom.chip k d.seq 0 0 m.sent)) := by
  unfold State.sendDest
  simp only [hm, hd]
  rw [if_neg hc, State.sendMark, hr]

/-- From `s` to `t` only LSEs, key slots, the uses saved from them, counters, bytes metered, Helm's events and the units dropped differ. -/
def OnlySignalled (s t : State) : Prop :=
  t = { s with
    lse := t.lse, sbx := t.sbx, stl := { s.stl with data := t.stl.data }, obs := t.obs, sty := t.sty, hlm := t.hlm
    mrk := { s.mrk with drop := t.mrk.drop } }

theorem OnlySignalled.trans {s t u : State} (h : OnlySignalled s t) (k : OnlySignalled t u) : OnlySignalled s u := by
  unfold OnlySignalled at *
  rw [k, h]

theorem State.sendMark_signalled (sub chip : Nat) (b : Bytes) (s : State) : OnlySignalled s (s.sendMark sub chip b) := by
  unfold State.sendMark
  split
  · have h := s.sendUnit_sent ‹_› (ctrlUnit sub b)
    unfold OnlySent at h
    rw [h]
    rfl
  · rfl

theorem State.poisonDests_signalled (k : Nat) (m : Mark) (but : Option Nat) (s : State) : OnlySignalled s (s.poisonDests k m but) := by
  unfold State.poisonDests
  exact List.foldlRecOn (motive := OnlySignalled s) _ _ rfl fun t ht d _ => ht.trans (State.sendMark_signalled ..)

section
variable {s : State} {k i since : Nat} {m : Mark} {d : MarkDest} (hm : s.mark? k = some m) (hd : m.dests[i]? = some d)
  (ht : d.timer = some since)
include hm hd ht

theorem execMarkResendTimeout_early (h : s.clk.elapsed < since + s.cfg.engine.tMark * 1000) :
    execMarkResendTimeout k i s = done s.begin := by
  have hm' : s.begin.mark? k = some m := hm
  have hlate : ¬ s.begin.expired since (s.begin.cfg.engine.tMark * 1000) = true ∨ s.begin.alr.quiet = true :=
    .inl fun hlate => absurd (of_decide_eq_true hlate) (Nat.not_le.mpr h)
  unfold execMarkResendTimeout
  simp only [hm', hd, ht, if_pos hlate]

variable (h : since + s.cfg.engine.tMark * 1000 ≤ s.clk.elapsed) (hq : s.alr.quiet = false)
include h hq

/-- With resends left the timer restarts, and the current value is sent again. -/
theorem execMarkResendTimeout_resends (hr : d.resends < s.cfg.engine.markRetry) :
    ∃ obs, execMarkResendTimeout k i s = done (({ s.begin with
      obs
      mrk := { s.mrk with
        res := assocSet k { m with dests := listSet m.dests i fun _ => { d with resends := d.resends + 1, timer := some s.clk.elapsed } } s.mrk.res
        resend := satAdd 65535 s.mrk.resend 1 } } : State).sendDest k i) := by
  have hm' : s.begin.mark? k = some m := hm
  have hgo : ¬ (¬ s.begin.expired since (s.begin.cfg.engine.tMark * 1000) = true ∨ s.begin.alr.quiet = true) := fun hno =>
    hno.elim (fun hno => hno (decide_eq_true h)) fun hno => Bool.false_ne_true (hq.symm.trans hno)
  have hr' : d.resends < s.begin.cfg.engine.markRetry := hr
  unfold execMarkResendTimeout
  simp only [hm', hd, ht, if_neg hgo, if_pos hr']
  generalize hu : (if d.resends = 0 then _ else _ : State) = u
  have hu' : ∃ obs, u = { s.begin with obs } := by
    subst hu
    split <;> exact ⟨_, rfl⟩
  obtain ⟨obs, rfl⟩ := hu'
  exact ⟨_, rfl⟩

/-- With none left the destination is UNREACHABLE, the others are told, and the Mark is poisoned with cause LOST. -/
theorem execMarkResendTimeout_gives (hr : s.cfg.engine.markRetry ≤ d.resends) :
    ∃ obs, execMarkResendTimeout k i s = done ((State.poisonDests k m (some i) (({ s.begin with obs } : State).setMark k
      { m with dests := listSet m.dests i fun x => { x with unreachable := true, timer := none } })).poisonMark k 2) := by
  have hm' : s.begin.mark? k = some m := hm
  have hgo : ¬ (¬ s.begin.expired since (s.begin.cfg.engine.tMark * 1000) = true ∨ s.begin.alr.quiet = true) := fun hno =>
    hno.elim (fun hno => hno (decide_eq_true h)) fun hno => Bool.false_ne_true (hq.symm.trans hno)
  have hr' : ¬ d.resends < s.begin.cfg.engine.markRetry := Nat.not_lt.mpr hr
  unfold execMarkResendTimeout
  simp only [hm', hd, ht, if_neg hgo, if_neg hr']
  rw [State.waitEnd_frame]
  exact ⟨_, rfl⟩

end

/-- A Mark that is not poisoned is poisoned with a cause: its value stays, and so do the directory, Stalls' records and the MSEs. -/
theorem State.poisonMark_keeps {k : Nat} (cause : Nat) {m : Mark} {s : State} (hm : s.mark? k = some m) (hp : m.poison = none) :
    (s.poisonMark k cause).mark? k = some { m with poison := some cause, dests := m.dests.map fun d => { d with timer := none } } ∧
      (s.poisonMark k cause).mrk.dir = s.mrk.dir ∧ (s.poisonMark k cause).stl = s.stl ∧ (s.poisonMark k cause).ldg = s.ldg ∧
      (s.poisonMark k cause).mse = s.mse := by
  rw [State.poisonMark_poisons cause hm hp]
  generalize hu : State.bump _ _ _ = u
  have hends := u.endMarkWaits_ends k
  generalize u.endMarkWaits k = t at hends
  subst hu
  exact ⟨(congrArg (fun t : State => assocGet k t.mrk.res) hends :).trans (State.mark?_setMark ..), (congrArg (·.mrk.dir) hends :),
    (congrArg State.stl hends :), (congrArg State.ldg hends :), (congrArg State.mse hends :)⟩

/-! ### The statement -/

/-- Settles O47: received units and resends as their lemmas say, the units sealed by `State.sendUnit_sealed`. -/
theorem markUnits : Obligations.MarkUnits := by
  refine ⟨?takes, ?drops, ?acked, fun s k i since m d hm hd ht h => execMarkResendTimeout_early hm hd ht h, ?resends, ?lost⟩
  case takes =>
    intro s l k origin om seq v e u d m a hl hq hu hchip hk ho hom hseq hv hpoison hd hr hm hmir hsrc hsrcm hlast hval hw hroute ha hc
    subst hk ho hom hseq hv
    have hnone : s.begin.markAtHand _ = none := State.markAtHand_none (s := s.begin) hd hr hm
    obtain ⟨alr, hsig⟩ := State.mirrorSignal_takes (s := s.begin.dropRx l u) hm hmir hsrc hsrcm hlast hval hw
    have hroute' := (State.markRoute_dropRx l u _ s.begin).trans hroute
    generalize ht : ({ (s.begin.dropRx l u).setMark _ _ with alr } : State) = t at hsig
    have honly : s.onlyLse l t := by
      subst ht
      exact s.modLse_onlyLse l _
    have hlse : t.lse[l]? = some { e with rxBuf := e.rxBuf.eraseP (· = u) } := by
      subst ht
      exact State.modLse_lse_self (s := s.begin) _ hl
    have hsent := t.sendUnit_sent l (ctrlUnit 7 a)
    obtain ⟨hout, -, hsealed, -, honly'⟩ := State.sendUnit_sealed (u := ctrlUnit 7 a) honly hlse hc
    have hexec : execMarkSignalReceive l s = done (t.sendUnit l (ctrlUnit 7 a)) := by
      have hgo : ¬ s.begin.alr.quiet = true := Bool.eq_false_iff.mp hq
      have hhere : ¬ leField u.payload 0 2 ≠ s.begin.dom.chip := not_not_intro hchip
      rw [execMarkSignalReceive, onLse_some hl]
      simp only [hu, if_neg hgo, if_neg hhere, hnone, hpoison, hsig]
      have hroute'' : t.markRoute (leField u.payload 4 2) = some l := by subst ht; exact hroute'
      rw [State.sendMark, hroute'', ha]
      rfl
    refine ⟨_, hexec, ?_, ?_, hout.trans ?_, ?_, honly'⟩
    · refine (congrArg (fun t : State => assocGet _ t.mrk.res) hsent :).trans ?_
      subst ht
      exact State.mark?_setMark ..
    · subst ht; exact hsealed
    · subst ht; rfl
    · refine (congrArg (·.mrk.dir) hsent :).trans ?_
      subst ht
      rfl
  case drops =>
    intro s l e u hl hq hu hchip hmax
    have hgo : ¬ s.begin.alr.quiet = true := Bool.eq_false_iff.mp hq
    have hfar : leField u.payload 0 2 ≠ s.begin.dom.chip := hchip
    have hdrop : (s.begin.dropRx l u).forwardMark u = _ := if_pos (Nat.lt_succ_of_le hmax)
    show execMarkSignalReceive l s = _
    rw [execMarkSignalReceive, onLse_some hl]
    simp only [hu, if_neg hgo, if_pos hfar, hdrop]
    rfl
  case acked =>
    intro s l k v i e u d m x hl hq hu hchip hk hv hpoison hd hr hm hmir hp hx hlt hw
    subst hk hv
    have hnone : s.begin.markAtHand _ = none := State.markAtHand_none (s := s.begin) hd hr hm
    obtain ⟨alr, obs, hack⟩ := State.homeAck_raises (s := s.begin.dropRx l u) hm hmir hp hx hlt hw
    have hexec : execMarkAckReceive l s = done ((s.begin.dropRx l u).homeAck (leField u.payload 2 2) (leField u.payload 4 2)
        (leField u.payload 6 2) false (leField u.payload 16 8)) := by
      have hgo : ¬ s.begin.alr.quiet = true := Bool.eq_false_iff.mp hq
      have hhere : ¬ leField u.payload 0 2 ≠ s.begin.dom.chip := not_not_intro hchip
      rw [execMarkAckReceive, onLse_some hl]
      simp only [hu, if_neg hgo, if_neg hhere, hnone, hpoison]
    rw [hack] at hexec
    exact ⟨_, hexec, State.mark?_setMark .., State.modLse_lse_self (s := s.begin) _ hl, rfl, rfl, s.modLse_onlyLse l _⟩
  case resends =>
    intro s k i since l m d e a hm hd ht h hq hr hchip hroute hl ha hc
    obtain ⟨obs, hexec⟩ := execMarkResendTimeout_resends hm hd ht h hq hr
    generalize hu : State.mk .. = u at hexec
    have hmark : u.mark? k = some { m with dests := listSet m.dests i fun _ =>
        { d with resends := d.resends + 1, timer := some s.clk.elapsed } } := by
      subst hu
      exact State.mark?_setMark ..
    rw [State.sendDest_sends hmark (getElem?_listSet_self _ hd) (by subst hu; exact hchip) (by subst hu; exact hroute)] at hexec
    have hchip' : u.dom.chip = s.dom.chip := by subst hu; rfl
    dsimp only at hexec
    rw [hchip', ← ha] at hexec
    have honly : s.onlyLse l u := by subst hu; exact s.onlyLse_refl l
    have hsent := u.sendUnit_sent l (ctrlUnit 6 a)
    obtain ⟨hout, -, hsealed, -, honly'⟩ := State.sendUnit_sealed (u := ctrlUnit 6 a) honly (by subst hu; exact hl) hc
    refine ⟨_, hexec, ?_, hchip' ▸ hsealed, (congrArg (·.mrk.resend) hsent :).trans ?_, hout.trans ?_, honly'⟩
    · exact (congrArg (fun t : State => assocGet k t.mrk.res) hsent :).trans hmark
    · subst hu; rfl
    · subst hu; rfl
  case lost =>
    intro s k i since m d hm hd ht h hq hr hp
    obtain ⟨obs, hexec⟩ := execMarkResendTimeout_gives hm hd ht h hq hr
    generalize hu : ({ s.begin with obs } : State).setMark k _ = u at hexec
    have hpoisoned := u.poisonDests_signalled k m (some i)
    generalize u.poisonDests k m (some i) = t at hexec hpoisoned
    have hmark : t.mark? k = some { m with dests := listSet m.dests i fun x => { x with unreachable := true, timer := none } } := by
      refine (congrArg (fun t : State => assocGet k t.mrk.res) hpoisoned :).trans ?_
      subst hu
      exact State.mark?_setMark ..
    obtain ⟨hmark', hdir, hstl, hldg, hmse⟩ := State.poisonMark_keeps 2 hmark hp
    subst hu
    refine ⟨_, hexec, ?_, hdir.trans (congrArg (·.mrk.dir) hpoisoned :), (congrArg Stl.table hstl).trans (congrArg (·.stl.table) hpoisoned :),
      hldg.trans (congrArg State.ldg hpoisoned :), hmse.trans (congrArg State.mse hpoisoned :)⟩
    rw [hmark']
    simp [getElem?_listSet_self _ hd]

end Sys2Proof.Machine

/-!
HYB_MSG (O43).

The checks before a message are passed once for an initiator and once for a responder (`execHybMsg_initiates`, `execHybMsg_answers`); each message
then has one lemma. A tenant exchange that completes is the Stall's record and tables replaced and the record written (`State.hybTenant_keys`).
-/

namespace Sys2Proof.Machine

/-! ### What a record of the store adds to the outputs -/

theorem State.queueItems_out (is : List DeltaItem) (s : State) : s.out <+: (s.queueItems is).out := by
  unfold State.queueItems State.flushStore
  split
  · exact List.prefix_rfl
  · split
    · exact List.prefix_rfl
    · exact List.prefix_append ..

theorem State.writeRecord_out {id : Nat} {x : Stall} {d : StallData} {s : State} (hx : s.stall? id = some x)
    (hd : s.stallData? id = some d) : s.out <+: (s.writeRecord id).out := by
  obtain ⟨img, h⟩ := State.writeRecord_eq hx hd
  rw [h]
  refine List.IsPrefix.trans ?_ (State.queueItems_out ..)
  exact List.prefix_append ..

theorem length_hmac384 (k m : Bytes) : (hmac384 k m).length = 48 := length_sha384 _

/-! ### The checks of HYB_MSG (R370) -/

section
variable {s : State} {c : Call} {inp inLen purpose flags id out_ outMax chip : Nat} {buf : BufRead} {o : HybOps} {cert : Option PeerCert}
  {bs : List BufRead} {ok : Bool} (hc : s.admits c 0x0609)

section
variable (hp : purpose = 2 ∨ purpose = 4) (hf : flags < 2) (hf' : flags = 1 → purpose = 4) (hid : id < 4096) (hr : s.ald.restored = true)
  (hres : purpose = 2 → s.resident id = true)
include hc hp hf hf' hid hr hres

/-- A message of a tenant or migration exchange meets none of the checks on the arguments. -/
theorem execHybMsg_checks : execHybMsg c inp inLen purpose flags id out_ outMax chip buf o cert bs ok s = done (
    if inLen = 0 then
      if purpose = 2 ∨ purpose = 3 then s.begin.badArg c 8
      else if purpose = 4 ∧ (s.stall? id).isNone then s.begin.badArg c 14
      else if purpose = 1 ∧ chip < s.dom.chip then s.begin.badArg c 8
      else s.begin.withEntropy c fun t => t.hybStart c purpose id chip out_ outMax ok
    else (s.begin.emit (.memRead c.stall inp inLen)).input c buf fun b t =>
      match t.hybFind purpose id chip with
      | none => t.withEntropy c fun t => t.hybAnswer c purpose id chip out_ outMax b o ok
      | some x =>
        if ¬ x.initiator then t.hybFinish c x (decide (flags = 1)) out_ outMax b o cert bs ok
        else if x.h3 = [] then t.hybAccept c x (decide (flags = 1)) out_ outMax b o cert ok
        else t.hybConfirm c x b) := by
  have h1 : ¬ (purpose = 0 ∨ 4 < purpose) := by omega
  have h2 : ¬ (2 ≤ flags ∨ (flags = 1 ∧ purpose ≠ 4)) := by omega
  have h3 : ¬ (purpose ≠ 1 ∧ 4096 ≤ id) := by omega
  have h4 : ¬ (purpose ≠ 1 ∧ ¬ s.begin.ald.restored = true) := fun h => h.2 hr
  have h5 : ¬ (purpose = 1 ∧ ¬ (s.begin.dom.peers.any fun p => decide (p.chip = chip)) = true) := by omega
  have h6 : ¬ ((purpose = 2 ∨ purpose = 3) ∧ (s.begin.stall? id).isSome = true ∧ ¬ s.begin.resident id = true) := by
    rintro ⟨hp', -, hno⟩
    exact hno (hres (by omega))
  rw [execHybMsg, State.command_run hc, if_neg h1, if_neg h2, if_neg h3, if_neg h4, if_neg h5, if_neg h6]
  rfl

end

/-- A migration exchange that this block starts. -/
theorem execHybMsg_initiates {x : Stall} (hc : s.admits c 0x0609) (hf : flags < 2) (hid : id < 4096) (hr : s.ald.restored = true)
    (hx : s.stall? id = some x) (he : s.sbx.entropyOk = true) :
    execHybMsg c inp 0 4 flags id out_ outMax chip buf o cert bs ok s =
      done ((s.begin.entropyServed c).hybStart c 4 id chip out_ outMax ok) := by
  rw [execHybMsg_checks hc (.inr rfl) hf (fun _ => rfl) hid hr (by omega), if_pos rfl, if_neg (by omega), if_neg (by simp [hx]),
    if_neg (by omega), State.withEntropy_served (s := s.begin) c _ he]

variable (hid : id < 4096) (hr : s.ald.restored = true) (hres : s.resident id = true) (hlen : inLen ≠ 0)
include hc hid hr hres hlen

/-- A message of a tenant exchange. -/
theorem execHybMsg_answers {b : Bytes} : execHybMsg c inp inLen 2 0 id out_ outMax chip (.ok b) o cert bs ok s = done (
    let t := s.begin.emit (.memRead c.stall inp inLen)
    match s.hybFind 2 id chip with
    | none => t.withEntropy c fun t => t.hybAnswer c 2 id chip out_ outMax b o ok
    | some x =>
      if ¬ x.initiator then t.hybFinish c x false out_ outMax b o cert bs ok
      else if x.h3 = [] then t.hybAccept c x false out_ outMax b o cert ok
      else t.hybConfirm c x b) := by
  rw [execHybMsg_checks hc (.inl rfl) (by omega) (by omega) hid hr (fun _ => hres), if_neg hlen, State.input_ok]
  rfl

end

/-! ### H1 and H2 (R370) -/

/-- The exchange a migration starts with H1. -/
def State.migExchange (id chip : Nat) (x : Stall) (h1 : Bytes) (s : State) : HybExchange :=
  { HybExchange.start true 4 none h1 s.clk.elapsed with
    stall := id, inst := x.inst, chip, port := ((s.dom.peers.find? fun p => p.chip = chip).map (·.port)).getD 0 }

theorem State.hybStart_sends {c : Call} {id chip out_ outMax : Nat} {x : Stall} {h1 : Bytes} {s : State} (hx : s.stall? id = some x)
    (hh1 : h1 = leBytes 1 4 ++ (leBytes 2 id ++ (padTo 16 x.inst).take 16) ++ s.drawn 32 ++ s.tookDraw.drawn 97) (hlen : h1.length ≤ outMax)
    (hnone : s.dom.exchanges = []) :
    s.hybStart c 4 id chip out_ outMax true = ({ s with
      out := s.out ++ [.memWrite c.stall out_ h1], fresh := s.fresh + 2
      dom := { s.dom with exchanges := [s.migExchange id chip x h1] } } : State).finishOk c (leBytes 4 h1.length) := by
  unfold State.hybStart
  simp only [hx, Option.map_some, Option.getD_some, show ¬ (4 = 1) by decide, if_false, ← hh1]
  rw [State.output_fits _ _ _ _ _ hlen]
  generalize h1.length = n
  simp only [State.emit, State.tookDraw, hnone, List.filter_nil, List.nil_append]
  rfl

/-- The exchange a tenant's H1 opens at its responder. -/
def State.tenantExchange (id chip : Nat) (h1 h2 : Bytes) (s : State) : HybExchange :=
  { HybExchange.start false 2 none h1 s.clk.elapsed with stall := id, chip, inst := slice h1 3 16, owner := 0, h2 }

/-- H2 is made of the next two draws. -/
theorem State.hybH2_message (o : HybOps) {s t : State} (h : t.fresh = s.fresh) : (t.hybH2 o).1 = (s.hybH2 o).1 := by
  simp only [State.hybH2, State.drawn, State.tookDraw, h]

theorem State.hybAnswer_sends {c : Call} {id chip out_ outMax : Nat} {b h2 : Bytes} {o : HybOps} {s : State} (hok : hybH1Ok b = true)
    (hp : leField b 0 1 = 2) (hw : s.hybWilling 2 id chip b = true) (hpool : s.sbx.poolLevel ≠ 0) (hh2 : (s.hybH2 o).1 = h2)
    (hlen : h2.length ≤ outMax) :
    ∃ obs, s.hybAnswer c 2 id chip out_ outMax b o true = ({ s with
      out := s.out ++ [.memWrite c.stall out_ h2], fresh := s.fresh + 2, obs
      sbx := { s.sbx with poolLevel := s.sbx.poolLevel - 1 }
      dom := { s.dom with exchanges := s.dom.exchanges ++ [s.tenantExchange id chip b h2] } } : State).finishOk c
        (leBytes 4 h2.length) := by
  have hgo : ¬ (¬ hybH1Ok b = true ∨ leField b 0 1 ≠ 2 ∨ ¬ s.hybWilling 2 id chip b = true) := by simp [hok, hp, hw]
  unfold State.hybAnswer
  dsimp only
  rw [if_neg hgo, if_neg hpool, hh2, State.output_fits _ _ _ _ _ hlen]
  refine ⟨(s.obs.bump (ctrSbx 6) 1).bump (ctrSbx 7) 1, ?_⟩
  generalize h2.length = n
  simp only [State.hybH2, State.emit, State.tookDraw, State.bump]
  rfl

/-! ### H3 of a tenant (R371, R406) -/

/-- A tenant exchange of a Stall other than 0 completed: K_EST, TH and the root key stored, KEYED, the record written. -/
theorem State.hybTenant_keys {y : HybExchange} {kEst th : Bytes} {bs : List BufRead} {x : Stall} {d : StallData} {s : State}
    (hid : y.stall ≠ 0) (hx : s.stall? y.stall = some x) (hd : s.stallData? y.stall = some d) (ha : x.state = .admitted) :
    ∃ root, s.hybTenant y kEst th bs = State.writeRecord y.stall { s with stl := { s.stl with
      table := assocSet y.stall { x with state := .keyed, keyed := true } s.stl.table
      data := assocSet y.stall { d with stallRoot := root, kEst, th } s.stl.data } } := by
  refine ⟨s.stallRootKey y.stall x.inst kEst th, ?_⟩
  unfold State.hybTenant
  simp only [hx, hd, if_neg hid, if_pos ha]
  rfl

theorem State.hybWilling_admitted {id chip : Nat} {h1 : Bytes} {x : Stall} {d : StallData} {s : State} (hid : id ≠ 0)
    (hx : s.stall? id = some x) (hd : s.stallData? id = some d) (h : s.hybWilling 2 id chip h1 = true) : x.state = .admitted := by
  unfold State.hybWilling at h
  simp only [hx, hd, if_true, Bool.and_eq_true, Bool.or_eq_true, decide_eq_true_eq, hid, or_false] at h
  exact h.2

theorem State.hybFind_tenant {id chip : Nat} {e : HybExchange} {s : State} (h : s.hybFind 2 id chip = some e) :
    e.lse = none ∧ e.purpose = 2 ∧ e.stall = id := by
  unfold State.hybFind at h
  simpa using List.find?_some h

/-- The state in which a tenant's H3 takes effect: H4 is out, the exchange over. -/
def State.tenantDone (c : Call) (e y : HybExchange) (out_ : Nat) (h4 : Bytes) (s : State) : State :=
  { s with
    out := s.out ++ [.memWrite c.stall out_ h4], obs := s.obs.bump (ctrHlm 6) 1
    dom := { s.dom with exchanges := (s.dom.exchanges.map fun z => if z = e then y else z).erase y } }

theorem State.hybFinish_tenant {c : Call} {out_ outMax : Nat} {h3 : Bytes} {o : HybOps} {cert : Option PeerCert} {bs : List BufRead}
    {e : HybExchange} {s : State} (hp : e.purpose = 2) (hlen : 1568 ≤ h3.length) (hk : o.keyOk = true) (hsig : o.sigOk = true)
    (hw : s.hybWilling 2 e.stall e.chip e.h1 = true) (hmax : 48 ≤ outMax) :
    s.hybFinish c e false out_ outMax h3 o cert bs true = (
      let y : HybExchange := { e with h3, standby := false }
      let u := (s.tenantDone c e y out_ (hybProof (y.secret o) y.th)).hybTenant y (y.secret o) y.th bs
      u.finishAnchored c stOk (leBytes 4 (hybProof (y.secret o) y.th).length ++ y.th.take 8) [] (u.recordItems e.stall)) := by
  have hgo : ¬ (h3.length < hybH3Size ∨ ¬ o.keyOk = true ∨ (s.hybSigned e = true ∧ ¬ o.sigOk = true) ∨ s.credentialBad e cert = true ∨
      (e.purpose ≤ 3 ∧ ¬ s.hybWilling e.purpose e.stall e.chip e.h1 = true)) := by
    have hlen' : ¬ h3.length < hybH3Size := Nat.not_lt.mpr hlen
    have hcred : s.credentialBad e cert = false := by simp [State.credentialBad, hp]
    simp [hlen', hk, hsig, hcred, hp, hw]
  have hmove : ¬ (e.purpose = 4 ∧ ¬ false = true ∧ 8 ≤ s.stl.sessions.length) := by simp [hp]
  unfold State.hybFinish
  rw [if_neg hgo, if_neg hmove]
  dsimp only
  generalize hy : HybExchange.mk .. = y
  have hyp : y.purpose = 2 := by subst hy; exact hp
  have hfits : (hybProof (y.secret o) y.th).length ≤ outMax := (length_hmac384 ..).trans_le hmax
  rw [State.output_fits _ _ _ _ _ hfits, if_pos (.inl hp)]
  generalize hybProof (y.secret o) y.th = h4
  unfold State.hybDone
  simp only [hyp]
  rfl

/-- An H3 that is too short or does not decapsulate. -/
theorem State.hybFinish_refuses {c : Call} {out_ outMax : Nat} {h3 : Bytes} {o : HybOps} {cert : Option PeerCert} {bs : List BufRead} {ok : Bool}
    {standby : Bool} {e : HybExchange} {s : State} (hbad : h3.length < 1568 ∨ o.keyOk = false) :
    s.hybFinish c e standby out_ outMax h3 o cert bs ok = s.hybRefuse c e :=
  if_pos (hbad.imp_right fun h => .inl (by simp [h]))

/-- A message that ends its exchange. -/
theorem State.hybRefuse_ends (c : Call) {e : HybExchange} {s : State} (hp : e.purpose = 2) :
    s.hybRefuse c e = ({ s.event evHybFail unitHelm (some e.stall) 2 (e.lse.getD 0xFF) with
      fresh := s.fresh + 1, dom := { s.dom with exchanges := s.dom.exchanges.erase e } } : State).finish c (s.free % 65536) := by
  unfold State.hybRefuse State.hybFail
  rw [hp]
  rfl

/-! ### The statement -/

/-- Settles O43: each message by its lemma; what is written and waits is said by the frames of a record and of a wait. -/
theorem hybridMessages : Obligations.HybridMessages := by
  refine ⟨?starts, ?answers, ?keys, ?refused⟩
  case starts =>
    intro s c inp flags id out_ outMax chip buf o cert bs x h1 hc hf hid hr hx he hnone hh1 hlen
    have hexec := execHybMsg_initiates (inp := inp) (out_ := out_) (outMax := outMax) (chip := chip) (buf := buf) (o := o) (cert := cert)
      (bs := bs) (ok := true) hc hf hid hr hx he
    obtain ⟨ws, obs, hserved⟩ := s.begin.entropyServed_eq c
    rw [hserved, State.hybStart_sends (s := { s.begin with sbx := { s.begin.sbx with entropyWaits := ws }, obs }) hx hh1 hlen hnone] at hexec
    obtain ⟨hlm, alr, obs', hdone, hrec⟩ := State.complete_issues { c.record stOk with result := leBytes 4 h1.length } (s := { s.begin with
      sbx := { s.sbx with entropyWaits := ws }, obs, out := [.memWrite c.stall out_ h1], fresh := s.fresh + 2
      dom := { s.dom with exchanges := [s.migExchange id chip x h1] } }) hc.1.2.2
    exact ⟨_, hexec.trans (congrArg done hdone), rfl, rfl, rfl, hrec, rfl, rfl, rfl⟩
  case answers =>
    intro s c inp inLen id out_ outMax chip b o cert bs hc hid hr hres he hlen hnone hok hp hw hpool hfits
    have hexec := execHybMsg_answers (inp := inp) (out_ := out_) (outMax := outMax) (chip := chip) (b := b) (o := o) (cert := cert)
      (bs := bs) (ok := true) hc hid hr hres hlen
    simp only [hnone] at hexec
    generalize hh2 : (s.hybH2 o).1 = h2 at hfits ⊢
    generalize ht : s.begin.emit (.memRead c.stall inp inLen) = t at hexec
    rw [State.withEntropy_served _ _ (by subst ht; exact he)] at hexec
    obtain ⟨ws, obs, hserved⟩ := t.entropyServed_eq c
    rw [hserved] at hexec
    generalize hu : State.mk .. = u at hexec
    have hfresh : u.fresh = s.fresh := by subst hu ht; rfl
    obtain ⟨obs', hsent⟩ := State.hybAnswer_sends (c := c) (out_ := out_) (id := id) (chip := chip) (s := u) hok hp
      (by subst hu ht; exact hw) (by subst hu ht; exact hpool) ((State.hybH2_message o hfresh).trans hh2) hfits
    rw [hsent] at hexec
    generalize hv : State.mk .. = v at hexec
    obtain ⟨hlm, alr, obs'', hdone, hrec⟩ := State.complete_issues { c.record stOk with result := leBytes 4 h2.length } (s := v)
      (by subst hv hu ht; exact hc.1.2.2)
    subst hv hu ht
    exact ⟨_, hexec.trans (congrArg done hdone), rfl, List.map_append, rfl, hrec, rfl, rfl, rfl⟩
  case keys =>
    intro s c inp inLen id out_ outMax chip h3 th o cert bs e y x d hc hid hid0 hr hres hlen hfind hinit hlen3 hk hsig hw hx hd hmax hy hth
    obtain ⟨-, hp, rfl⟩ := State.hybFind_tenant hfind
    have hexec := execHybMsg_answers (inp := inp) (out_ := out_) (outMax := outMax) (chip := chip) (b := h3) (o := o) (cert := cert)
      (bs := bs) (ok := true) hc hid hr hres hlen
    have ha := State.hybWilling_admitted hid0 hx hd hw
    simp only [hfind] at hexec
    rw [if_pos (by simp [hinit])] at hexec
    generalize ht : s.begin.emit (.memRead c.stall inp inLen) = t at hexec
    rw [State.hybFinish_tenant hp hlen3 hk hsig (by subst ht; exact hw) hmax] at hexec
    rw [← hy] at hexec
    dsimp only at hexec
    have hyth : y.th = th := by rw [hth, hy]; rfl
    have hysec : y.secret o = hmac384 th (o.z ++ o.k) := by rw [HybExchange.secret, hyth]
    have hystall : y.stall = e.stall := by rw [hy]
    rw [hysec, hyth] at hexec
    generalize hkEst : hmac384 th (o.z ++ o.k) = kEst at hexec ⊢
    rw [show hybProof kEst th = hmac384 kEst (th ++ [1]) from rfl] at hexec
    generalize hmac384 kEst (th ++ [1]) = h4 at hexec ⊢
    generalize hv : t.tenantDone c e y out_ h4 = v at hexec
    have hvx : v.stall? y.stall = some x := by subst hv ht; rw [hystall]; exact hx
    have hvd : v.stallData? y.stall = some d := by subst hv ht; rw [hystall]; exact hd
    obtain ⟨root, htenant⟩ := State.hybTenant_keys (kEst := kEst) (th := th) (bs := bs) (hystall ▸ hid0) hvx hvd ha
    rw [htenant, hystall] at hexec
    generalize hu : State.mk .. = u at hexec
    have hux : u.stall? e.stall = some { x with state := .keyed, keyed := true } := by
      subst hu
      exact (assocGet_assocSet ..).trans (if_pos rfl)
    have hud : u.stallData? e.stall = some { d with stallRoot := root, kEst, th } := by
      subst hu
      exact (assocGet_assocSet ..).trans (if_pos rfl)
    have hout := State.writeRecord_out hux hud
    rw [State.finishAnchored_waits (State.writeRecord_pending hux hud)] at hexec
    obtain ⟨sha, out, fresh, hw⟩ := State.writeRecord_tables hux hud
    generalize State.writeRecord e.stall u = r at hexec hout hw
    have hstl := (congrArg State.stl hw :)
    refine ⟨_, hexec, ?_, ?_, ?_, (congrArg (·.dom.exchanges) hw :).trans ?_, ?_, (congrArg (·.sbx.slots) hw :).trans ?_,
      (congrArg State.epo hw :).trans ?_, (congrArg State.mse hw :).trans ?_⟩
    · obtain ⟨rest, hrest⟩ := hout
      subst hu hv ht
      exact (congrArg (List.take 2) hrest).symm
    · exact (congrArg (fun l : Stl => assocGet e.stall l.table) hstl).trans (Stl.recorded_stall ..)
    · exact congrArg (Option.map _) ((congrArg (fun l : Stl => assocGet e.stall l.data) hstl).trans (Stl.recorded_data ..))
    · subst hu hv ht; rfl
    · have hwaits : r.ldg.waits = u.ldg.waits := (congrArg (·.ldg.waits) hw :)
      simp only [hwaits, List.map_append, List.map_singleton]
      subst hu hv ht
      rfl
    all_goals subst hu hv ht; rfl
  case refused =>
    intro s c inp inLen id out_ outMax chip h3 o cert bs ok e hc hid hr hres hlen hfind hinit hbad
    obtain ⟨-, hp, rfl⟩ := State.hybFind_tenant hfind
    have hexec := execHybMsg_answers (inp := inp) (out_ := out_) (outMax := outMax) (chip := chip) (b := h3) (o := o) (cert := cert)
      (bs := bs) (ok := ok) hc hid hr hres hlen
    simp only [hfind] at hexec
    rw [if_pos (by simp [hinit]), State.hybFinish_refuses hbad, State.hybRefuse_ends c hp] at hexec
    generalize hu : State.mk .. = u at hexec
    have hfree : (s.begin.emit (.memRead c.stall inp inLen)).free = s.free := rfl
    rw [hfree] at hexec
    generalize s.free % 65536 = st at hexec ⊢
    obtain ⟨hlm, alr, obs, hdone, hrec⟩ := State.complete_issues (c.record st) (s := u) (by subst hu; exact hc.1.2.2)
    have hfifo := State.complete_fifo (c.record st) u
    rw [hdone] at hfifo
    subst hu
    exact ⟨_, hexec.trans (congrArg done hdone), rfl, rfl, State.recorded_of_port rfl rfl hrec, rfl, hfifo, rfl, rfl, rfl⟩

end Sys2Proof.Machine


/-!
Joining a domain (O44).

Every clause ends in messages sent over links. What a unit changes is said once for all units (`Sent`): the exchanges, the establishment of
each LSE, the pool and the completion port stay. A clause then only says what holds before its messages leave.
-/

namespace Sys2Proof.Machine

/-! ### The pool of key pairs stays while link keys move (R189, R200) -/

theorem State.evict_pool (n : Nat) (s : State) : (s.evict n).sbx.poolLevel = s.sbx.poolLevel := by
  unfold State.evict
  split
  · rfl
  · have hsbx : ∀ (id : Nat) (f : StallData → StallData), (s.modStallData id f).sbx = s.sbx := fun id f =>
      (congrArg State.sbx (s.modStallData_frame id f) :)
    change (s.saveUse _).sbx.poolLevel = _
    rw [State.saveUse, hsbx]

theorem State.placeKey_pool {k : KeySlot} {s t : State} (h : s.placeKey k = some t) : t.sbx.poolLevel = s.sbx.poolLevel := by
  unfold State.placeKey at h
  split at h
  · cases h; rfl
  · obtain ⟨n, -, rfl⟩ := Option.map_eq_some_iff.mp h
    exact s.evict_pool n

theorem State.placeKey_getD_pool (k : KeySlot) (s : State) : ((s.placeKey k).getD s).sbx.poolLevel = s.sbx.poolLevel := by
  cases h : s.placeKey k with
  | none => rfl
  | some t => exact State.placeKey_pool h

theorem State.pinLink_pool (h : Nat) (want : Option (Nat × Bytes)) (s : State) : (s.pinLink h want).sbx.poolLevel = s.sbx.poolLevel := by
  unfold State.pinLink
  dsimp only
  split
  · rfl
  · split
    · rfl
    · exact State.placeKey_getD_pool _ _
  · rfl
  · exact State.placeKey_getD_pool _ _

theorem State.syncLink_pool (i : Nat) (s : State) : (s.syncLink i).sbx.poolLevel = s.sbx.poolLevel := by
  unfold State.syncLink
  split
  · rfl
  · simp only [State.pinLink_pool]

/-! ### What a message sent over a link keeps -/

/-- How a link is established: whether, under which secret, and with which peer. -/
def Lse.ends (e : Lse) : Bool × Bytes × Bytes × Nat × Nat := (e.established, e.secret, e.estId, e.peerChip, e.peerPort)

/-- From `s` to `t` units were sent: beside `OnlySent`, the establishment of every LSE, the pool and the completion port stay. -/
structure Sent (s t : State) : Prop where
  only : OnlySent s t
  ends : t.lse.map Lse.ends = s.lse.map Lse.ends
  pool : t.sbx.poolLevel = s.sbx.poolLevel
  cwq : t.hlm.cwq = s.hlm.cwq
  buf : t.hlm.dwBuf = s.hlm.dwBuf

theorem Sent.refl (s : State) : Sent s s := ⟨rfl, rfl, rfl, rfl, rfl⟩

theorem Sent.trans {s t u : State} (h : Sent s t) (k : Sent t u) : Sent s u :=
  ⟨h.only.trans k.only, k.ends.trans h.ends, k.pool.trans h.pool, k.cwq.trans h.cwq, k.buf.trans h.buf⟩

theorem Sent.ite {s t u : State} {c : Prop} [Decidable c] (ht : Sent s t) (hu : Sent s u) : Sent s (if c then t else u) := by
  split <;> assumption

/-- An LSE changed in what does not establish it. -/
theorem State.modLse_keeps {f : Lse → Lse} (hf : ∀ e, (f e).ends = e.ends) (i : Nat) (s : State) : Sent s (s.modLse i f) :=
  ⟨rfl, map_listSet_of_eq hf s.lse i, rfl, rfl, rfl⟩

theorem State.syncLink_keeps (i : Nat) (s : State) : Sent s (s.syncLink i) := by
  have h := s.syncLink_slots i
  exact ⟨h.sent, congrArg _ (congrArg State.lse h :), s.syncLink_pool i, (congrArg (·.hlm.cwq) h :), (congrArg (·.hlm.dwBuf) h :)⟩

theorem State.meter_keeps (cls stall n : Nat) (s : State) : Sent s (s.meter cls stall n) := by
  have h := s.meter_frame cls stall n
  exact ⟨s.meter_sent cls stall n, congrArg _ (congrArg State.lse h :), (congrArg (·.sbx.poolLevel) h :), (congrArg (·.hlm.cwq) h :),
    (congrArg (·.hlm.dwBuf) h :)⟩

theorem State.bump_keeps (c n : Nat) (s : State) : Sent s (s.bump c n) := ⟨rfl, rfl, rfl, rfl, rfl⟩

theorem State.event_keeps (code unit : Nat) (stall : Option Nat) (a b : Nat) (s : State) : Sent s (s.event code unit stall a b) :=
  ⟨rfl, rfl, rfl, rfl, rfl⟩

theorem State.sendUnit_keeps (i : Nat) (u : UnitSpec) (s : State) : Sent s (s.sendUnit i u) := by
  unfold State.sendUnit
  split
  · exact .refl s
  · extract_lets _ _ _ _ _ _ _ sent counted metered control
    refine .ite (s.modLse_keeps (by intro; rfl) i) ?_
    have hsent : Sent s sent := Sent.trans (t := s.modLse i _) (s.modLse_keeps (by intro; rfl) i) (State.syncLink_keeps ..)
    have hcounted : Sent s counted := .ite (hsent.trans (State.bump_keeps ..)) hsent
    have hmetered : Sent s metered := by
      unfold metered
      split
      · exact hcounted.trans (State.meter_keeps ..)
      · exact hcounted
    have hcontrol : Sent s control := .ite (hmetered.trans (State.bump_keeps ..)) hmetered
    exact .ite (hcontrol.trans (State.event_keeps ..)) hcontrol

/-- A unit sent, sealed or in clear, is one more in the transmit buffer. -/
theorem State.sendUnit_txBuf {i : Nat} {u : UnitSpec} {s : State} {e : Lse} (hl : s.lse[i]? = some e) :
    ((s.sendUnit i u).lse[i]?).map (·.txBuf.length) = some (e.txBuf.length + 1) := by
  have hone : ∀ (f : Lse → Lse), (f e).txBuf.length = e.txBuf.length + 1 →
      ((listSet s.lse i f)[i]?).map (·.txBuf.length) = some (e.txBuf.length + 1) := fun f hf => by
    rw [getElem?_listSet_self f hl, Option.map_some, hf]
  unfold State.sendUnit
  simp only [hl]
  split
  · exact hone _ List.length_append
  · have hite : ∀ (c : Prop) [Decidable c] (t v : State), (if c then t else v).lse = if c then t.lse else v.lse := fun c _ t v =>
      apply_ite State.lse c t v
    cases u.stall <;>
      simp only [hite, State.event_lse, State.bump_lse, State.meter_lse, State.syncLink_lse, State.modLse_lse, ite_self] <;>
      exact hone _ List.length_append

theorem State.sendMessage_keeps (i sub : Nat) (msg : Bytes) (s : State) : Sent s (s.sendMessage i sub msg) :=
  List.foldlRecOn (motive := Sent s) _ _ (.refl s) fun t ht _ _ => ht.trans (t.sendUnit_keeps i _)

theorem State.sendUnits_txBuf {i : Nat} {s : State} {e : Lse} (us : List UnitSpec) (hl : s.lse[i]? = some e) :
    ((us.foldl (fun t u => t.sendUnit i u) s).lse[i]?).map (·.txBuf.length) = some (e.txBuf.length + us.length) := by
  induction us generalizing s e with
  | nil => simp [hl]
  | cons u us ih =>
    obtain ⟨e', hl', htx⟩ := Option.map_eq_some_iff.mp (State.sendUnit_txBuf (u := u) hl)
    rw [List.foldl_cons, ih hl', htx, List.length_cons]
    exact congrArg some (by omega)

/-- A message adds its fragments to the transmit buffer. -/
theorem State.sendMessage_txBuf {i sub n : Nat} {msg : Bytes} {s : State} (hl : (s.lse[i]?).map (·.txBuf.length) = some n) :
    ((s.sendMessage i sub msg).lse[i]?).map (·.txBuf.length) = some (n + (fragments sub msg).length) := by
  obtain ⟨e, he, rfl⟩ := Option.map_eq_some_iff.mp hl
  exact State.sendUnits_txBuf _ he

/-- The establishment of one LSE, through messages sent. -/
theorem Sent.ends_at {s t : State} (h : Sent s t) (i : Nat) : (t.lse[i]?).map Lse.ends = (s.lse[i]?).map Lse.ends := by
  rw [← List.getElem?_map, ← List.getElem?_map, h.ends]

/-! ### A message taken whole (R374) -/

/-- The state in which a message has left LSE `l`: `f` takes its fragments from the receive buffer. -/
def State.messageTaken (l : Nat) (f : Lse → Lse) (parts : List Assembly) (s : State) : State :=
  { s.begin.modLse l f with dom := { s.dom with parts } }

section
variable (l : Nat) (f : Lse → Lse) (parts : List Assembly) (s : State)

@[simp] theorem State.messageTaken_out : (s.messageTaken l f parts).out = [] := rfl
@[simp] theorem State.messageTaken_ldg : (s.messageTaken l f parts).ldg = s.ldg := rfl
@[simp] theorem State.messageTaken_mse : (s.messageTaken l f parts).mse = s.mse := rfl
@[simp] theorem State.messageTaken_sbx : (s.messageTaken l f parts).sbx = s.sbx := rfl
@[simp] theorem State.messageTaken_dom : (s.messageTaken l f parts).dom = { s.dom with parts } := rfl

end

section
variable (x y : HybExchange) (s : State)

@[simp] theorem State.setJoin_out : (s.setJoin x y).out = s.out := rfl
@[simp] theorem State.setJoin_ldg : (s.setJoin x y).ldg = s.ldg := rfl
@[simp] theorem State.setJoin_mse : (s.setJoin x y).mse = s.mse := rfl
@[simp] theorem State.setJoin_sbx : (s.setJoin x y).sbx = s.sbx := rfl
@[simp] theorem State.setJoin_dom : (s.setJoin x y).dom =
    { s.dom with exchanges := s.dom.exchanges.map fun z => if z = x then y else z } := rfl

end

/-- Taking fragments changes the receive buffer of the LSE and the messages under way. -/
theorem State.takeMessage_takes (l sub : Nat) (s : State) : ∃ f parts,
    (s.begin.takeMessage l sub).2.2 = s.messageTaken l f parts ∧ ∀ e : Lse, f e = { e with rxBuf := (f e).rxBuf } := by
  have htaken : ∀ (us : List RxUnit) (s : State), ∃ f, us.foldl (fun t u => t.modLse l fun x => { x with rxBuf := x.rxBuf.eraseP (· = u) }) s =
      s.modLse l f ∧ ∀ e : Lse, f e = { e with rxBuf := (f e).rxBuf } := fun us => by
    induction us with
    | nil => exact fun s => ⟨id, (congrArg (fun x => { s with lse := x }) (listSet_id s.lse l)).symm, fun _ => rfl⟩
    | cons u us ih =>
      intro s
      obtain ⟨f, heq, hf⟩ := ih (s.modLse l fun x => { x with rxBuf := x.rxBuf.eraseP (· = u) })
      refine ⟨_, heq.trans (State.modLse_modLse ..), fun e => ?_⟩
      rw [Function.comp_apply, hf]
  unfold State.takeMessage
  obtain ⟨f, ht, hf⟩ := htaken ((((s.begin.lse[l]?).map (·.rxBuf)).getD []).filter fun u => u.kind = 7 ∧ u.sub = sub) s.begin
  simp only [ht]
  split
  · exact ⟨f, _, rfl, hf⟩
  · split
    · exact ⟨f, _, rfl, hf⟩
    · split
      · exact ⟨f, s.dom.parts, rfl, hf⟩
      · exact ⟨f, _, rfl, hf⟩

theorem State.begin_takeMessage_one (l sub : Nat) (s : State) : (s.begin.takeMessage l sub).1 = (s.takeMessage l sub).1 := by
  unfold State.takeMessage
  dsimp only [State.begin_lse, State.begin_dom]
  split
  · rfl
  · split
    · rfl
    · split <;> rfl

theorem State.begin_takeMessage_two (l sub : Nat) (s : State) : (s.begin.takeMessage l sub).2.1 = (s.takeMessage l sub).2.1 := by
  unfold State.takeMessage
  dsimp only [State.begin_lse, State.begin_dom]
  split
  · rfl
  · split
    · rfl
    · split <;> rfl

/-- A whole message is acted on in the state that has taken it. -/
theorem onMessage_whole {l sub : Nat} {s : State} {e : Lse} {b : Bytes} (hl : s.lse[l]? = some e)
    (hq : s.alr.quiet = false) (hr : s.rst.coreReset = none) (hb : (s.takeMessage l sub).1 = some b)
    (hok : (s.takeMessage l sub).2.1 = false) : ∃ f parts,
      (∀ act : Bytes → State → State, onMessage l sub s act = done (act b (s.messageTaken l f parts))) ∧
      ∀ e : Lse, f e = { e with rxBuf := (f e).rxBuf } := by
  obtain ⟨f, parts, ht, hf⟩ := s.takeMessage_takes l sub
  refine ⟨f, parts, fun act => ?_, hf⟩
  rw [onMessage, hl]
  simp only [State.begin_takeMessage_one, State.begin_takeMessage_two, State.begin_alr, State.begin_rst, hq, hr, hb, hok, ht,
    Option.isSome_none, Bool.false_eq_true, or_self, if_false]

theorem State.messageTaken_txBuf {l : Nat} {f : Lse → Lse} {s : State} {e : Lse} (parts : List Assembly) (hl : s.lse[l]? = some e)
    (hf : ∀ e : Lse, f e = { e with rxBuf := (f e).rxBuf }) :
    ((s.messageTaken l f parts).lse[l]?).map (·.txBuf.length) = some e.txBuf.length := by
  rw [show (s.messageTaken l f parts).lse[l]? = some (f e) from getElem?_listSet_self (l := s.lse) f hl, Option.map_some, hf]

/-! ### The secret of a link (R322, R375) -/

/-- A secret installed establishes the link with the peer under it. -/
theorem State.installSecret_ends {i : Nat} {p : Peer} {secret estId : Bytes} {s : State} {e : Lse} (hl : s.lse[i]? = some e) :
    OnlySent s (s.installSecret i p secret estId) ∧
      ((s.installSecret i p secret estId).lse[i]?).map Lse.ends = some (true, secret, estId, p.chip, p.port) := by
  unfold State.installSecret
  extract_lets had tx rx t
  have ht : OnlySent s t := OnlySent.trans (t := s.modLse i _) rfl (State.syncLink_slots ..).sent
  have hends : (t.lse[i]?).map Lse.ends = some (true, secret, estId, p.chip, p.port) := by
    rw [show t.lse = _ from State.syncLink_lse .., State.modLse_lse, getElem?_listSet_self _ hl]
    rfl
  have hsent : Sent t (if had then t else t.sendUnit i (ctrlUnit 5 [])) := .ite (.refl t) (t.sendUnit_keeps i _)
  exact ⟨ht.trans hsent.only, (hsent.ends_at i).trans hends⟩

/-- A join exchange done is over, and its link is established under K_EST. -/
theorem State.hybDone_link {l : Nat} {x : HybExchange} {p : Peer} {kEst th : Bytes} {bs : List BufRead} {s : State}
    (hl : (s.lse[l]?).isSome = true) (hp : x.purpose = 1) (hx : x.lse = some l)
    (hpeer : s.dom.peers.find? (fun p => p.lse = l) = some p) :
    ((s.hybDone x kEst th bs).lse[l]?).map Lse.ends = some (true, kEst, th.take 8, p.chip, p.port) ∧
      (s.hybDone x kEst th bs).dom = { s.dom with exchanges := s.dom.exchanges.erase x } ∧ (s.hybDone x kEst th bs).out = s.out ∧
      (s.hybDone x kEst th bs).ldg = s.ldg ∧ (s.hybDone x kEst th bs).mse = s.mse := by
  obtain ⟨e, he⟩ := Option.isSome_iff_exists.mp hl
  have hlse : p.lse = l := by simpa using List.find?_some hpeer
  have hdone : s.hybDone x kEst th bs =
      (({ s with dom := { s.dom with exchanges := s.dom.exchanges.erase x } } : State).bump (ctrHlm 6) 1).installSecret l p kEst (th.take 8) := by
    unfold State.hybDone
    simp only [hp, hx, State.bump_dom, hpeer, hlse]
  rw [hdone]
  obtain ⟨honly, hends⟩ := State.installSecret_ends (p := p) (secret := kEst) (estId := th.take 8)
    (s := ({ s with dom := { s.dom with exchanges := s.dom.exchanges.erase x } } : State).bump (ctrHlm 6) 1) he
  obtain ⟨hdom, hout, -, hldg, hmse, -⟩ := honly.keeps
  exact ⟨hends, hdom, hout, hldg, hmse⟩

/-! ### The messages of the join exchange (R374, R375) -/

theorem State.joinOf_lse {l : Nat} {x : HybExchange} {s : State} (h : s.joinOf l = some x) : x.lse = some l := by
  have := List.find?_some h
  simp only [decide_eq_true_eq] at this
  exact this.1

/-- The state in which a responder of LSE `l` keeps its exchange, before CHAIN and H2 leave. -/
def State.answering (l : Nat) (x : HybExchange) (s : State) : State :=
  { s with
    fresh := s.fresh + 1 + 1, sbx := { s.sbx with poolLevel := s.sbx.poolLevel - 1 }, obs := (s.obs.bump (ctrSbx 6) 1).bump (ctrSbx 7) 1
    dom := { s.dom with exchanges := (s.dom.exchanges.filter fun x => x.lse ≠ some l) ++ [x] } }

theorem State.hybH2_drawn (o : HybOps) (s : State) : (s.hybH2 o).2 = { s with
    fresh := s.fresh + 1 + 1, sbx := { s.sbx with poolLevel := s.sbx.poolLevel - 1 }
    obs := (s.obs.bump (ctrSbx 6) 1).bump (ctrSbx 7) 1 } := rfl

section
variable {s : State} {l : Nat} {e : Lse} (hl : s.lse[l]? = some e) (hq : s.alr.quiet = false) (hr : s.rst.coreReset = none)
include hl hq hr

theorem execJoinH1Receive_answers {o : HybOps} {p : Peer} {h1 : Bytes} (hpool : s.sbx.poolLevel ≠ 0) (hent : s.sbx.entropyOk = true)
    (hb : (s.takeMessage l 8).1 = some h1) (hok : (s.takeMessage l 8).2.1 = false) (hj : s.joining l = false)
    (hpeer : s.dom.peers.find? (fun p => p.lse = l) = some p) (hchip : p.chip ≤ s.dom.chip) (hh1 : hybH1Ok h1 = true)
    (hpurpose : leField h1 0 1 = 1) (htarget : leField h1 1 2 = s.dom.chip) (hport : leField h1 3 1 = l) : ∃ f parts,
    execJoinH1Receive l o s = done ((((s.messageTaken l f parts).answering l { HybExchange.start false 1 (some l) h1 s.clk.elapsed with
      chip := p.chip, port := p.port, h2 := (s.hybH2 o).1 }).sendMessage l 12 o.chain).sendMessage l 9 (s.hybH2 o).1) ∧
      ∀ e : Lse, f e = { e with rxBuf := (f e).rxBuf } := by
  obtain ⟨f, parts, hmsg, hf⟩ := onMessage_whole hl hq hr hb hok
  refine ⟨f, parts, ?_, hf⟩
  have hj' : (s.messageTaken l f parts).joining l = false := hj
  have hpeer' : (s.messageTaken l f parts).dom.peers.find? (fun p => p.lse = l) = some p := hpeer
  have hh2 : ((s.messageTaken l f parts).hybH2 o).1 = (s.hybH2 o).1 := State.hybH2_message o rfl
  rw [execJoinH1Receive, if_neg (by simp [hpool, hent]), hmsg]
  simp only [hj', hpeer', hh2, Bool.false_eq_true, if_false]
  have hchip' : ¬ (s.messageTaken l f parts).dom.chip < p.chip := Nat.not_lt.mpr hchip
  have htarget' : ¬ (leField h1 1 2 ≠ (s.messageTaken l f parts).dom.chip ∨ leField h1 3 1 ≠ l) :=
    not_or.mpr ⟨not_not_intro htarget, not_not_intro hport⟩
  rw [if_neg hchip', if_neg (by simp [hh1, hpurpose]), if_neg htarget', State.hybH2_drawn]
  rfl

section
variable {x : HybExchange}

/-- CHAIN shown: its cause is recorded, or the exchange notes that the certificates are good. -/
theorem execJoinChainReceive_shown {p : Peer} {k : PeerCert} {b : Bytes} (hb : (s.takeMessage l 12).1 = some b)
    (hok : (s.takeMessage l 12).2.1 = false) (hx : s.joinOf l = some x) (hpeer : s.dom.peers.find? (fun p => p.lse = l) = some p) :
    ∃ f parts, execJoinChainReceive l (some k) s = done (match s.dom.certCause p k with
      | some cause => (s.messageTaken l f parts).joinFail l cause
      | none => (s.messageTaken l f parts).setJoin x { x with chainOk := true }) := by
  obtain ⟨f, parts, hmsg, -⟩ := onMessage_whole hl hq hr hb hok
  refine ⟨f, parts, ?_⟩
  have hx' : (s.messageTaken l f parts).joinOf l = some x := hx
  have hpeer' : (s.messageTaken l f parts).dom.peers.find? (fun p => p.lse = l) = some p := hpeer
  rw [execJoinChainReceive, hmsg]
  simp only [hx', hpeer']
  rfl

theorem execJoinH2Receive_accepts {o : HybOps} {h2 h3 : Bytes} {y : HybExchange} (hb : (s.takeMessage l 9).1 = some h2)
    (hok : (s.takeMessage l 9).2.1 = false) (hx : s.joinOf l = some x) (hi : x.initiator = true) (hfirst : x.h2 = [])
    (hlen : 1697 ≤ h2.length) (hchain : x.chainOk = true) (hsig : o.sigOk = true) (hh3 : h3 = (padTo 1568 o.ct).take 1568 ++ o.sig)
    (hy : y = { x with h2, h3, kEst := hmac384 (sha384 (x.h1 ++ h2 ++ h3)) (o.z ++ o.k) }) : ∃ f parts,
    execJoinH2Receive l o s = done (((((s.messageTaken l f parts).setJoin x y).bump (ctrSbx 7) 1).sendMessage l 12 o.chain).sendMessage l 10
      h3) ∧ ∀ e : Lse, f e = { e with rxBuf := (f e).rxBuf } := by
  obtain ⟨f, parts, hmsg, hf⟩ := onMessage_whole hl hq hr hb hok
  refine ⟨f, parts, ?_, hf⟩
  have hx' : (s.messageTaken l f parts).joinOf l = some x := hx
  subst hh3 hy
  rw [execJoinH2Receive, hmsg]
  simp only [hx']
  rw [if_neg (by simp [hi, hfirst, hybH2Size, hlen]), if_neg (by simp [hchain]), if_neg (by simp [hsig])]
  rfl

theorem execJoinH3Receive_accepts {o : HybOps} {h3 : Bytes} (hb : (s.takeMessage l 10).1 = some h3)
    (hok : (s.takeMessage l 10).2.1 = false) (hx : s.joinOf l = some x) (hi : x.initiator = false) (hlen : 1568 ≤ h3.length)
    (hchain : x.chainOk = true) (hsig : o.sigOk = true) (hkey : o.keyOk = true) : ∃ f parts,
    execJoinH3Receive l o s = done ((((s.messageTaken l f parts).setJoin x { x with h3 }).sendMessage l 11
      (hybProof (HybExchange.secret { x with h3 } o) (HybExchange.th { x with h3 }))).hybDone { x with h3 }
        (HybExchange.secret { x with h3 } o) (HybExchange.th { x with h3 }) []) := by
  obtain ⟨f, parts, hmsg, -⟩ := onMessage_whole hl hq hr hb hok
  refine ⟨f, parts, ?_⟩
  have hx' : (s.messageTaken l f parts).joinOf l = some x := hx
  rw [execJoinH3Receive, hmsg]
  simp only [hx']
  rw [if_neg (by simp [hi, hybH3Size, hlen]), if_neg (by simp [hchain]), if_neg (by simp [hsig, hkey])]

theorem execJoinH4Receive_confirms {h4 : Bytes} (hb : (s.takeMessage l 11).1 = some h4) (hok : (s.takeMessage l 11).2.1 = false)
    (hx : s.joinOf l = some x) (hi : x.initiator = true) (hh3 : x.h3 ≠ []) (hh4 : h4 = hmac384 x.kEst (x.th ++ [1])) : ∃ f parts,
    execJoinH4Receive l s = done ((s.messageTaken l f parts).hybDone x x.kEst x.th []) := by
  obtain ⟨f, parts, hmsg, -⟩ := onMessage_whole hl hq hr hb hok
  refine ⟨f, parts, ?_⟩
  have hx' : (s.messageTaken l f parts).joinOf l = some x := hx
  have hh4' : ¬ h4 ≠ hybProof x.kEst x.th := not_not_intro hh4
  rw [execJoinH4Receive, hmsg]
  simp only [hx']
  rw [if_neg (by simp [hi, hh3]), if_neg hh4']

end

end

/-! ### Links established anew (R373, R378) -/

/-- The LSE has no link secret. -/
def State.keyless (i : Nat) (s : State) : Bool := (s.lse[i]?).all fun e => e.secret.isEmpty

/-- From `s` to `t` links were dropped or join exchanges begun: no LSE has gained a secret, and the completion port stays. -/
structure Renewed (s t : State) : Prop where
  frame : t = { s with
    lse := t.lse, sbx := t.sbx, stl := { s.stl with data := t.stl.data }, obs := t.obs, sty := t.sty, hlm := t.hlm, fresh := t.fresh
    out := t.out, rwt := t.rwt, cht := t.cht, dom := { s.dom with exchanges := t.dom.exchanges }
    att := { s.att with aliases := t.att.aliases, leafs := t.att.leafs } }
  keyless : ∀ i, s.keyless i = true → t.keyless i = true
  cwq : t.hlm.cwq = s.hlm.cwq
  buf : t.hlm.dwBuf = s.hlm.dwBuf

theorem Renewed.refl (s : State) : Renewed s s := ⟨rfl, fun _ h => h, rfl, rfl⟩

theorem Renewed.trans {s t u : State} (h : Renewed s t) (k : Renewed t u) : Renewed s u := by
  refine ⟨?_, fun i hi => k.keyless i (h.keyless i hi), k.cwq.trans h.cwq, k.buf.trans h.buf⟩
  have hu := k.frame
  rw [h.frame] at hu
  exact hu

theorem Sent.renewed {s t : State} (h : Sent s t) : Renewed s t := by
  refine ⟨?_, fun i hi => ?_, h.cwq, h.buf⟩
  · have ht := h.only
    unfold OnlySent at ht
    rw [ht]
  · have hall : ∀ v : State, v.keyless i = ((v.lse[i]?).map Lse.ends).all fun q => q.2.1.isEmpty := fun v => by
      unfold State.keyless
      cases v.lse[i]? <;> rfl
    rw [hall, h.ends_at, ← hall]
    exact hi

/-- The join exchange that starts on an LSE sends its H1. -/
theorem State.startJoin_renews (i : Nat) (s : State) : Renewed s (s.startJoin i) := by
  unfold State.startJoin
  split
  · exact .refl s
  · split
    · exact .refl s
    · refine Renewed.trans ?_ (State.sendMessage_keeps ..).renewed
      exact ⟨rfl, fun _ h => h, rfl, rfl⟩

theorem State.startJoins_renew (ps : List Peer) (s : State) : Renewed s (ps.foldl (fun u p => u.startJoin p.lse) s) :=
  List.foldlRecOn (motive := Renewed s) _ _ (.refl s) fun u hu p _ => hu.trans (u.startJoin_renews p.lse)

theorem State.issueAlias_renews (s : State) : Renewed s s.issueAlias := by
  have h := s.issueAlias_only
  unfold OnlyIssued at h
  rw [h]
  exact ⟨rfl, fun _ hi => hi, rfl, rfl⟩

/-- The state with the LSE of a substituted peer without keys, before its join exchange starts. -/
def State.peerDropped (p : Peer) (obs : Obs) (out : List Out) (s : State) : State :=
  { s with
    out, obs, rwt := s.rwt.filter fun w => w.2.dst ≠ p.chip, cht := { s.cht with chipIds := assocSet p.chip p.identity s.cht.chipIds }
    dom := { s.dom with exchanges := s.dom.exchanges.filter fun x => x.lse ≠ some p.lse }
    lse := listSet s.lse p.lse fun e => { e with out := [] }.unkey }

theorem State.keyless_listSet {i j : Nat} {f : Lse → Lse} {l : List Lse} (hf : ∀ e, (f e).secret = [])
    (h : i = j ∨ ((l[j]?).all fun e => e.secret.isEmpty) = true) : (((listSet l i f)[j]?).all fun e => e.secret.isEmpty) = true := by
  by_cases hij : j = i
  · subst hij
    cases hl : l[j]? with
    | none => rw [listSet_of_getElem?_none f hl, hl]; rfl
    | some e => rw [getElem?_listSet_self f hl, Option.all_some, hf]; rfl
  · rw [getElem?_listSet_ne f l hij]
    exact h.resolve_left (Ne.symm hij)

/-- Without a window granted, a peer substituted leaves its LSE without keys. -/
theorem State.substitutePeer_renews (p : Peer) {s : State} (hg : s.granted = []) :
    Renewed s (s.substitutePeer p) ∧ (s.substitutePeer p).keyless p.lse = true := by
  obtain ⟨obs, out, hdropped⟩ : ∃ obs out, s.substitutePeer p = ((s.peerDropped p obs out).syncLink p.lse).startJoin p.lse := by
    have hany : s.granted.any (fun g => decide (g.lse = p.lse)) = false := by rw [hg]; rfl
    unfold State.substitutePeer
    cases hl : s.lse[p.lse]? with
    | none =>
      have hpoison : s.poisonLse p.lse = s := by simp only [State.poisonLse, hl]
      refine ⟨s.obs, s.out, ?_⟩
      rw [hpoison, State.dropGrants_none hany]
      simp only [State.modLse, State.peerDropped, listSet_of_getElem?_none _ hl]
    | some e =>
      obtain ⟨obs, hpoison⟩ := State.poisonLse_eq hl
      refine ⟨obs, s.out ++ e.out.map (poisonOut p.lse e.peerChip), ?_⟩
      rw [hpoison, State.dropGrants_none (by exact hany)]
      simp only [State.modLse, State.peerDropped, listSet_listSet]
      rfl
  have hrest := (State.syncLink_keeps p.lse (s.peerDropped p obs out)).renewed.trans (State.startJoin_renews p.lse _)
  have hunkeyed : ∀ j, p.lse = j ∨ s.keyless j = true → (s.peerDropped p obs out).keyless j = true := fun j hj =>
    State.keyless_listSet (fun _ => rfl) hj
  have hbefore : Renewed s (s.peerDropped p obs out) := ⟨rfl, fun j hj => hunkeyed j (.inr hj), rfl, rfl⟩
  rw [hdropped]
  exact ⟨hbefore.trans hrest, hrest.keyless _ (hunkeyed _ (.inl rfl))⟩

/-- Every peer substituted leaves its LSE without keys, to the end of the substitution. -/
theorem State.substitutePeers_renew (ps : List Peer) {s : State} (hg : s.granted = []) :
    Renewed s (ps.foldl (fun u p => u.substitutePeer p) s) ∧
      ∀ p ∈ ps, (ps.foldl (fun u p => u.substitutePeer p) s).keyless p.lse = true := by
  induction ps generalizing s with
  | nil => exact ⟨.refl s, fun _ h => nomatch h⟩
  | cons p ps ih =>
    obtain ⟨hone, hp⟩ := s.substitutePeer_renews p hg
    obtain ⟨hrest, hps⟩ := ih (s := s.substitutePeer p) ((congrArg State.granted hone.frame).trans hg)
    refine ⟨hone.trans hrest, fun q hq => ?_⟩
    rcases List.mem_cons.mp hq with rfl | hq
    · exact hrest.keyless _ hp
    · exact hps q hq

/-! ### The commands -/

section
variable {s : State} {c : Call} {src len : Nat} {b : Bytes} {ok1 ok2 : Bool}

theorem execDomainJoin_joined {m : BufRead} (hc : s.admits c 0x060A) (hj : s.dom.joined = true) :
    execDomainJoin c src len m ok1 ok2 s = done (s.begin.finish c stDomainJoined) := by
  rw [execDomainJoin, State.command_run hc, State.begin_dom, if_pos hj]

theorem execDomainJoin_checked (hc : s.admits c 0x060A) (hj : s.dom.joined = false) :
    execDomainJoin c src len (.ok b) ok1 ok2 s = done (match s.memberStatus b ok1 ok2 with
      | some st => (s.begin.emit (.memRead c.stall src len)).finish c st
      | none =>
        let u := ((s.begin.emit (.memRead c.stall src len)).keepMember b).issueAlias
        (u.dom.peers.foldl (fun u p => u.startJoin p.lse) u).finish c stOk) := by
  rw [execDomainJoin, State.command_run hc, State.begin_dom, if_neg (by simp [hj]), State.input_ok]
  rfl

theorem execDomainSubstitute_checked (hc : s.admits c 0x060B) :
    execDomainSubstitute c src len (.ok b) ok1 ok2 s = done (
      let t := s.begin.emit (.memRead c.stall src len)
      if ¬ s.dom.joined then t.finish c stDomainParam
      else match s.memberStatus b ok1 ok2 with
        | some st => t.finish c st
        | none => if ¬ s.memberReplaces b then t.finish c stDomainParam
          else (((memberPeers b).filter fun p => !s.dom.peers.contains p).foldl (fun (u : State) p => u.substitutePeer p)
            { t with dom := { t.dom with seq := leField b 0x18 4, peers := memberPeers b } }).finish c stOk) := by
  rw [execDomainSubstitute, State.command_run hc, State.input_ok]
  rfl

end

/-- What a membership kept gives the block; a chip without its time takes the membership's where it is the grandmaster. -/
theorem State.keepMember_keeps (b : Bytes) (s : State) : ∃ dom cht clk, s.keepMember b = { s with dom, cht, clk } ∧ dom.joined = true ∧
    dom.chip = leField b 6 2 ∧ dom.domainId = slice b 8 16 ∧ dom.seq = leField b 0x18 4 ∧ dom.gm = (leField b 0x1C 1).testBit 0 ∧
    dom.peers = memberPeers b ∧ dom.fwOk = memberFw b ∧
    (clk.anchored = true ∨ (s.clk.anchored = false ∧ (leField b 0x1C 1).testBit 0 = false)) := by
  unfold State.keepMember
  dsimp only
  split
  · exact ⟨_, _, _, rfl, rfl, rfl, rfl, rfl, rfl, rfl, rfl, .inl rfl⟩
  next h =>
    refine ⟨_, _, s.clk, rfl, rfl, rfl, rfl, rfl, rfl, rfl, rfl, ?_⟩
    by_cases ha : s.clk.anchored = true
    · exact .inl ha
    · have hgm : ¬ (leField b 0x1C 1).testBit 0 = true := fun hgm => h ⟨.inl hgm, ha⟩
      exact .inr ⟨by simpa using ha, by simpa using hgm⟩

/-! ### HYBRID_EXCHANGE_TIMEOUT (R370) -/

theorem execHybridExchangeTimeout_none {s : State}
    (h : s.dom.exchanges.any (fun x => !x.initiator && x.h3.isEmpty && s.expired x.since 10000000) = false) :
    execHybridExchangeTimeout s = done s.begin := by
  have hnone : s.begin.dom.exchanges.find? (fun x => !x.initiator && x.h3.isEmpty && s.begin.expired x.since 10000000) = none :=
    List.find?_eq_none.mpr (List.any_eq_false.mp h)
  rw [execHybridExchangeTimeout]
  simp only [hnone]

theorem execHybridExchangeTimeout_link {s : State} {x : HybExchange} {l : Nat}
    (h : s.dom.exchanges.find? (fun x => !x.initiator && x.h3.isEmpty && s.expired x.since 10000000) = some x) (hl : x.lse = some l) :
    execHybridExchangeTimeout s = done (s.begin.joinHybFail l 5) := by
  have hsome : s.begin.dom.exchanges.find? (fun x => !x.initiator && x.h3.isEmpty && s.begin.expired x.since 10000000) = some x := h
  rw [execHybridExchangeTimeout]
  simp only [hsome, hl]

/-! ### The statement -/

/-- Settles O44: what a clause's messages keep is `Sent`, what dropping and establishing links keeps is `Renewed`. -/
theorem domainFormation : Obligations.DomainFormation := by
  refine ⟨?joined, ?bad, ?kept, ?replaced, ?held, ?h1, ?chain, ?h2, ?h3, ?h4, fun s h => execHybridExchangeTimeout_none h, ?timeout⟩
  case joined => exact fun s c src len m ok1 ok2 hc hj => execDomainJoin_joined hc hj
  case bad =>
    intro s c src len st b ok1 ok2 hc hj hst
    have hexec := execDomainJoin_checked (src := src) (len := len) (b := b) (ok1 := ok1) (ok2 := ok2) hc hj
    rw [hst] at hexec
    obtain ⟨hlm, alr, obs, hdone, hrec⟩ := State.complete_issues (c.record st) (s := s.begin.emit (.memRead c.stall src len)) hc.1.2.2
    exact ⟨_, hexec.trans (congrArg done hdone), rfl, State.recorded_of_port rfl rfl hrec, rfl, rfl, rfl, rfl⟩
  case kept =>
    intro s c src len b ok1 ok2 hc hj hst
    have hexec := execDomainJoin_checked (src := src) (len := len) (b := b) (ok1 := ok1) (ok2 := ok2) hc hj
    rw [hst] at hexec
    obtain ⟨dom, cht, clk, hkeep, hjoined, hchip, hid, hseq, hgm, hpeers, hfw, hanchor⟩ :=
      (s.begin.emit (.memRead c.stall src len)).keepMember_keeps b
    have hrenew := (State.issueAlias_renews ((s.begin.emit (.memRead c.stall src len)).keepMember b)).trans
      (State.startJoins_renew ((s.begin.emit (.memRead c.stall src len)).keepMember b).issueAlias.dom.peers _)
    simp only at hexec
    generalize List.foldl _ _ _ = v at hexec hrenew
    rw [hkeep] at hrenew
    have hv := hrenew.frame
    obtain ⟨hlm, alr, obs, hdone, hrec⟩ := State.complete_issues (c.record stOk) (s := v) ((congrArg (·.alr.quiet) hv).trans hc.1.2.2)
    refine ⟨_, hexec.trans (congrArg done hdone), (congrArg (·.dom.joined) hv).trans hjoined, (congrArg (·.dom.chip) hv).trans hchip,
      (congrArg (·.dom.domainId) hv).trans hid, (congrArg (·.dom.seq) hv).trans hseq, (congrArg (·.dom.gm) hv).trans hgm,
      (congrArg (·.dom.peers) hv).trans hpeers, (congrArg (·.dom.fwOk) hv).trans hfw,
      State.recorded_of_port hrenew.cwq hrenew.buf hrec, ?_, (congrArg (·.ldg.localEntries) hv).trans rfl,
      (congrArg (·.stl.table) hv).trans rfl, (congrArg State.mse hv).trans rfl⟩
    exact (congrArg (fun k : Clk => k.anchored = true ∨ (s.clk.anchored = false ∧ (leField b 0x1C 1).testBit 0 = false))
      (congrArg State.clk hv)).mpr hanchor
  case replaced =>
    intro s c src len b ok1 ok2 hc hj hst hrep hg
    have hexec := execDomainSubstitute_checked (src := src) (len := len) (b := b) (ok1 := ok1) (ok2 := ok2) hc
    rw [hst] at hexec
    simp only [hj, hrep, not_true_eq_false, if_false] at hexec
    obtain ⟨hrenew, hkeyless⟩ := State.substitutePeers_renew ((memberPeers b).filter fun p => !s.dom.peers.contains p)
      (s := { s.begin.emit (.memRead c.stall src len) with dom := { s.dom with seq := leField b 0x18 4, peers := memberPeers b } }) hg
    generalize hv' : List.foldl _ _ _ = v at hexec
    replace hrenew := hv' ▸ hrenew
    replace hkeyless := hv' ▸ hkeyless
    have hv := hrenew.frame
    obtain ⟨hlm, alr, obs, hdone, hrec⟩ := State.complete_issues (c.record stOk) (s := v) ((congrArg (·.alr.quiet) hv).trans hc.1.2.2)
    exact ⟨_, hexec.trans (congrArg done hdone), (congrArg (·.dom.seq) hv).trans rfl, (congrArg (·.dom.peers) hv).trans rfl,
      State.recorded_of_port hrenew.cwq hrenew.buf hrec, (congrArg (·.dom.chip) hv).trans rfl, (congrArg (·.dom.domainId) hv).trans rfl,
      List.all_eq_true.mpr hkeyless, (congrArg State.ldg hv).trans rfl, (congrArg (·.stl.table) hv).trans rfl,
      (congrArg State.mse hv).trans rfl, (congrArg State.clk hv).trans rfl⟩
  case held =>
    intro s c src len b ok1 ok2 hc h
    have hexec := execDomainSubstitute_checked (src := src) (len := len) (b := b) (ok1 := ok1) (ok2 := ok2) hc
    have hexec' : execDomainSubstitute c src len (.ok b) ok1 ok2 s =
        done ((s.begin.emit (.memRead c.stall src len)).finish c stDomainParam) := by
      rcases h with hj | ⟨hst, hrep⟩
      · rw [hexec]
        simp only [hj, Bool.false_eq_true, not_false_eq_true, if_true]
      · rw [hexec, hst]
        simp only [hrep, Bool.false_eq_true, not_false_eq_true, if_true, ite_self]
    obtain ⟨hlm, alr, obs, hdone, hrec⟩ := State.complete_issues (c.record stDomainParam) (s := s.begin.emit (.memRead c.stall src len))
      hc.1.2.2
    exact ⟨_, hexec'.trans (congrArg done hdone), State.recorded_of_port rfl rfl hrec, rfl, rfl, rfl⟩
  case h1 =>
    intro s l o e p h1 hl hq hr hpool hent hb hok hj hpeer hchip hh1 hpurpose htarget hport
    obtain ⟨f, parts, hexec, hf⟩ := execJoinH1Receive_answers hl hq hr hpool hent hb hok hj hpeer hchip hh1 hpurpose htarget hport
    have hlen := State.messageTaken_txBuf parts hl hf
    generalize hx : HybExchange.mk .. = x at hexec
    generalize hu : (s.messageTaken l f parts).answering l x = u at hexec
    have hulen : (u.lse[l]?).map (·.txBuf.length) = some e.txBuf.length := hu ▸ hlen
    have hsent := (u.sendMessage_keeps l 12 o.chain).trans (State.sendMessage_keeps l 9 (s.hybH2 o).1 _)
    obtain ⟨hdom, hout, -, hldg, hmse, -⟩ := hsent.only.keeps
    refine ⟨_, hexec, ?_, State.sendMessage_txBuf (State.sendMessage_txBuf hulen), hsent.pool.trans ?_,
      (congrArg Dom.joinErr hdom).trans ?_, hout.trans ?_, hldg.trans ?_, hmse.trans ?_⟩
    · rw [hdom]
      subst hu hx
      simp [State.answering, List.filter_append, HybExchange.start]
    all_goals subst hu; rfl
  case chain =>
    intro s l e x p k b hl hq hr hb hok hx hpeer
    obtain ⟨f, parts, hexec⟩ := execJoinChainReceive_shown (k := k) hl hq hr hb hok hx hpeer
    cases hcause : s.dom.certCause p k with
    | none =>
      rw [hcause] at hexec
      exact ⟨_, hexec, fun _ => by simp, fun _ => by simp, fun h => absurd h (by simp), by simp, by simp, by simp, by simp⟩
    | some cause =>
      rw [hcause] at hexec
      exact ⟨_, hexec, fun h => absurd h (by simp), fun h => absurd h (by simp), fun _ => rfl, by simp [State.joinFail],
        by simp [State.joinFail], by simp [State.joinFail], by simp [State.joinFail]⟩
  case h2 =>
    intro s l o e x h2 hl hq hr hb hok hx hi hfirst hlen hchain hsig
    obtain ⟨f, parts, hexec, hf⟩ := execJoinH2Receive_accepts hl hq hr hb hok hx hi hfirst hlen hchain hsig rfl rfl
    have htx := State.messageTaken_txBuf parts hl hf
    generalize (padTo 1568 o.ct).take 1568 ++ o.sig = h3 at hexec ⊢
    generalize hmac384 _ _ = k at hexec ⊢
    generalize hu : ((s.messageTaken l f parts).setJoin x _).bump (ctrSbx 7) 1 = u at hexec
    have hutx : (u.lse[l]?).map (·.txBuf.length) = some e.txBuf.length := hu ▸ htx
    have hsent := (u.sendMessage_keeps l 12 o.chain).trans (State.sendMessage_keeps l 10 h3 _)
    obtain ⟨hdom, hout, -, hldg, hmse, -⟩ := hsent.only.keeps
    refine ⟨_, hexec, (congrArg Dom.exchanges hdom).trans ?_, State.sendMessage_txBuf (State.sendMessage_txBuf hutx), hout.trans ?_,
      hldg.trans ?_, hmse.trans ?_⟩
    all_goals subst hu; simp
  case h3 =>
    intro s l o e x p h3 th hl hq hr hb hok hx hi hpurpose hlen hchain hsig hkey hpeer hth
    obtain ⟨f, parts, hexec⟩ := execJoinH3Receive_accepts hl hq hr hb hok hx hi hlen hchain hsig hkey
    have hxl := State.joinOf_lse hx
    subst hth
    generalize hu : (s.messageTaken l f parts).setJoin x { x with h3 } = u at hexec
    generalize hybProof _ _ = proof at hexec
    have hsent := u.sendMessage_keeps l 11 proof
    obtain ⟨hdom, hout, -, hldg, hmse, -⟩ := hsent.only.keeps
    have hlse : ((u.sendMessage l 11 proof).lse[l]?).isSome = true := by
      have hul : u.lse[l]? = some (f e) := by subst hu; exact getElem?_listSet_self (l := s.lse) f hl
      have hsome := congrArg Option.isSome (hsent.ends_at l)
      rwa [Option.isSome_map, Option.isSome_map, hul] at hsome
    have hpeer' : (u.sendMessage l 11 proof).dom.peers.find? (fun p => p.lse = l) = some p := by
      rw [hdom]
      subst hu
      exact hpeer
    obtain ⟨hends, hdone, hout', hldg', hmse'⟩ := State.hybDone_link (x := { x with h3 })
      (kEst := HybExchange.secret { x with h3 } o) (th := HybExchange.th { x with h3 }) (bs := [])
      hlse hpurpose hxl hpeer'
    refine ⟨_, hexec, hends, (congrArg Dom.exchanges hdone).trans ?_, (hout'.trans hout).trans ?_, (hldg'.trans hldg).trans ?_,
      (hmse'.trans hmse).trans ?_⟩
    · rw [hdom]
      subst hu
      simp
    all_goals subst hu; simp
  case h4 =>
    intro s l e x p h4 hl hq hr hb hok hx hi hpurpose hh3 hh4 hpeer
    obtain ⟨f, parts, hexec⟩ := execJoinH4Receive_confirms hl hq hr hb hok hx hi hh3 hh4
    have hlse : ((s.messageTaken l f parts).lse[l]?).isSome = true :=
      Option.isSome_of_eq_some (getElem?_listSet_self (l := s.lse) f hl)
    obtain ⟨hends, hdone, hout, hldg, hmse⟩ := State.hybDone_link (s := s.messageTaken l f parts) (kEst := x.kEst) (th := x.th) (bs := [])
      hlse hpurpose (State.joinOf_lse hx) hpeer
    exact ⟨_, hexec, hends, (congrArg Dom.exchanges hdone :), hout, hldg, hmse⟩
  case timeout =>
    intro s x l hx hl
    exact ⟨_, execHybridExchangeTimeout_link hx hl, rfl, rfl, rfl, rfl⟩

end Sys2Proof.Machine


/-!
The Booth lock and BOOTH_OP (O48).

The lock's rows are one access to XS_BTH_LOCK each. A BOOTH_OP that passes its checks runs when the Booth is free (`kickBooth`), after the
operations queued before it otherwise.
-/

namespace Sys2Proof.Machine

/-! ### XS_BTH_LOCK (R431, R432, R443) -/

theorem execBoothClaim_granted {s : State} {fn : Nat} (hg : s.grants fn true 0x0E0000) :
    execBoothClaim fn s = done ((s.begin.claimBooth fn).regAnswer (some fn) false 0) := by
  obtain ⟨v, hv⟩ : ∃ v, s.readReg fn 0x0E0000 = some v := ⟨_, rfl⟩
  rw [execBoothClaim, State.begin_regWrite_granted 1 hg hv rfl]
  rfl

theorem execBoothRelease_granted {s : State} {fn : Nat} (hg : s.grants fn true 0x0E0000) :
    execBoothRelease fn s = done ((s.begin.releaseLock fn).regAnswer (some fn) false 0) := by
  obtain ⟨v, hv⟩ : ∃ v, s.readReg fn 0x0E0000 = some v := ⟨_, rfl⟩
  rw [execBoothRelease, State.begin_regWrite_granted 2 hg hv rfl]
  rfl

/-- An access that changes the Booth alone is answered with 0. -/
theorem State.regAnswer_booth {s t : State} (fn : Nat) {bth : Bth} {obs : Obs} (h : t = { s with out := [], bth := bth, obs := obs }) :
    ∃ obs', t.regAnswer (some fn) false 0 = { s with out := [.reg false 0], bth := bth, obs := obs' } := by
  subst h
  exact ⟨_, rfl⟩

/-- A claim that fails is counted. -/
theorem State.claimBooth_refused {fn : Nat} {s : State} (h : s.bth.holder.isSome = true ∨ s.handoffWaits = true ∨
    (s.fnStall? fn).all (fun st => decide (st ≠ 0 ∧ s.stallState st ≠ .keyed)) = true) : s.claimBooth fn = s.bump (ctrBooth 9) 1 := by
  unfold State.claimBooth
  split
  · rfl
  next st hst =>
    rw [hst, Option.all_some, decide_eq_true_eq] at h
    exact if_pos (by tauto)

theorem State.claimBooth_free {fn st : Nat} {s : State} (hh : s.bth.holder = none) (hw : s.handoffWaits = false)
    (hst : s.fnStall? fn = some st) (hk : st = 0 ∨ (s.stallState st = .keyed ∧ s.ald.full = true)) (hu : s.inUnitReset unitBooth = false) :
    s.claimBooth fn = ({ s with bth := { s.bth with
      holder := some (fn, st), tollgate := false, leaseAt := s.clk.elapsed, releaseDue := false } } : State).bump (ctrBooth 8) 1 := by
  have hmay : ¬ (st ≠ 0 ∧ (s.stallState st ≠ .keyed ∨ ¬ s.ald.full = true)) := by tauto
  unfold State.claimBooth
  rw [hst]
  exact if_neg (by simp only [hh, hw, hu, hmay, Option.isSome_none, Bool.false_eq_true, or_self, not_false_eq_true])

/-- The Booth with the lock free. -/
def Bth.unlocked (b : Bth) : Bth := { b with holder := none, tollgate := false, releaseDue := false }

/-- With nothing queued, the lock is freed and nothing else ends. -/
theorem State.unlockBooth_idle {s : State} (h : s.bth.queue = []) : s.unlockBooth = { s with bth := s.bth.unlocked } := by
  simp only [State.unlockBooth, h, List.foldl_nil, Bth.unlocked]

theorem State.releaseLock_other {fn : Nat} {s : State} (h : s.bth.holder.all (fun h => decide (h.1 ≠ fn)) = true) :
    s.releaseLock fn = s := by
  unfold State.releaseLock
  split
  next x hx =>
    rw [hx, Option.all_some, decide_eq_true_eq] at h
    exact if_neg fun hc => h hc.1
  · rfl

theorem State.settleLock_busy {s : State} (h : s.bth.running.isSome = true) : s.settleLock = s := by
  unfold State.settleLock
  split
  · rfl
  · exact if_pos (.inl h)

theorem State.settleLock_due {h : Nat × Nat} {s : State} (hh : s.bth.holder = some h) (ht : s.bth.tollgate = false)
    (hr : s.bth.running = none) (hq : s.bth.queue = []) (hd : s.bth.releaseDue = true) :
    s.settleLock = { s with bth := s.bth.unlocked } := by
  unfold State.settleLock
  rw [hh]
  simp only [hr, ht, hd, hq, Option.isSome_none, Bool.false_eq_true, or_self, if_false, List.isEmpty_nil, and_self, or_true, if_true]
  exact State.unlockBooth_idle hq

theorem State.releaseLock_holder {fn st : Nat} {s : State} (hh : s.bth.holder = some (fn, st)) (ht : s.bth.tollgate = false) :
    s.releaseLock fn = ({ s with bth := { s.bth with releaseDue := true } } : State).settleLock := by
  unfold State.releaseLock
  rw [hh]
  exact if_pos ⟨rfl, by simp [ht]⟩

/-- The holder's release waits for the operation that runs. -/
theorem State.releaseLock_waits {fn st : Nat} {s : State} (hh : s.bth.holder = some (fn, st)) (ht : s.bth.tollgate = false)
    (hr : s.bth.running.isSome = true) : s.releaseLock fn = { s with bth := { s.bth with releaseDue := true } } :=
  (State.releaseLock_holder hh ht).trans (State.settleLock_busy hr)

/-- The holder's release frees the lock of an idle Booth. -/
theorem State.releaseLock_idle {fn st : Nat} {s : State} (hh : s.bth.holder = some (fn, st)) (ht : s.bth.tollgate = false)
    (hr : s.bth.running = none) (hq : s.bth.queue = []) : s.releaseLock fn = { s with bth := s.bth.unlocked } :=
  (State.releaseLock_holder hh ht).trans (State.settleLock_due hh ht hr hq rfl)

/-! ### BOOTH_LEASE_EXPIRY (R432, R446) -/

theorem execBoothLeaseExpiry_holds {s : State} (h : s.bth.holder = none ∨ s.bth.running.isSome = true ∨ s.bth.queue ≠ [] ∨
    s.clk.elapsed < s.bth.leaseAt + s.cfg.engine.tBlease * 100000) : execBoothLeaseExpiry s = done s.begin := by
  unfold execBoothLeaseExpiry
  cases hh : s.bth.holder with
  | none => simp only [State.begin_bth, hh]
  | some x =>
    simp only [State.begin_bth, hh]
    refine if_pos ?_
    rcases h with h | h | h | h
    · rw [hh] at h; cases h
    · exact .inr (.inl h)
    · exact .inr (.inr (.inl (by simpa using h)))
    · exact .inr (.inr (.inr fun he => Nat.not_le.mpr h (of_decide_eq_true he)))

theorem execBoothLeaseExpiry_expires {s : State} {fn st : Nat} (hh : s.bth.holder = some (fn, st)) (ht : s.bth.tollgate = false)
    (hr : s.bth.running = none) (hq : s.bth.queue = []) (he : s.bth.leaseAt + s.cfg.engine.tBlease * 100000 ≤ s.clk.elapsed) :
    execBoothLeaseExpiry s = done ((s.begin.event evBthLease unitBooth (some st) fn 0).bump (ctrBooth 10) 1).unlockBooth := by
  have hexp : s.begin.expired s.begin.bth.leaseAt (s.begin.cfg.engine.tBlease * 100000) = true := decide_eq_true he
  unfold execBoothLeaseExpiry
  simp only [hexp]
  simp only [State.begin_bth, hh, ht, hr, hq, Option.isSome_none, Bool.false_eq_true, List.isEmpty_nil, not_true_eq_false, or_self, if_false]

/-- The state with an operation queued behind those that wait. -/
def State.boothQueued (o : BoothOp) (s : State) : State := { s with bth := { s.bth with queue := s.bth.queue ++ [o] } }

/-! ### BOOTH_OP: who may issue it, and its checks (R433, R442) -/

section
variable {s : State} {c : Call} {mode dir flags tail handle src dst len aadLen aadTail aad du tag : Nat} {iv : Bytes} (hc : s.admits c 0x0801)
  (hu : s.inUnitReset unitBooth = false) (hqueue : s.bth.queue.any (fun o => decide (o.call = c)) = false)
  (hrun : s.bth.running.any (fun o => decide (o.call = c)) = false)
include hc hu hqueue hrun

/-- A command that the Booth has not taken is judged by the lock. -/
theorem execBoothOp_judged : execBoothOp c mode dir flags tail handle src dst len aadLen aadTail aad iv du tag s =
    done (match s.bth.holder with
      | none => s.begin.finish c stBoothNolock
      | some h =>
        if h.1 ≠ c.fn ∨ s.bth.tollgate then s.begin.finish c stBoothBusy
        else if 8 ≤ s.bth.queue.length then s.begin.finish c stBoothBusy
        else if dir ≥ 2 then s.begin.badArg c 1
        else match s.boothCheck (boothOpOf c mode dir flags tail handle src dst len aadLen aadTail aad iv du tag) with
          | some st => s.begin.refuseBooth (boothOpOf c mode dir flags tail handle src dst len aadLen aadTail aad iv du tag) st
          | none =>
            (s.begin.boothQueued (boothOpOf c mode dir flags tail handle src dst len aadLen aadTail aad iv du tag)).kickBooth 8) := by
  have hrun' : (s.bth.running.map fun o => decide (o.call = c)).getD false = false := by
    revert hrun
    cases s.bth.running <;> exact id
  have hu' : ¬ s.begin.inUnitReset unitBooth = true := by rw [show s.begin.inUnitReset unitBooth = false from hu]; exact Bool.false_ne_true
  rw [execBoothOp, State.command_run hc, if_neg (by rw [State.begin_bth, hqueue, hrun']; simp), if_neg hu']
  rfl

theorem execBoothOp_busy {h : Nat × Nat} (hh : s.bth.holder = some h) (hb : h.1 ≠ c.fn ∨ 8 ≤ s.bth.queue.length) :
    execBoothOp c mode dir flags tail handle src dst len aadLen aadTail aad iv du tag s = done (s.begin.finish c stBoothBusy) := by
  rw [execBoothOp_judged hc hu hqueue hrun, hh]
  refine congrArg done ?_
  by_cases hheld : h.1 ≠ c.fn ∨ s.bth.tollgate = true
  · exact if_pos hheld
  · exact (if_neg hheld).trans (if_pos (hb.resolve_left fun hfn => hheld (.inl hfn)))

theorem execBoothOp_checked {o : BoothOp} {stall : Nat} (hh : s.bth.holder = some (c.fn, stall)) (hlen : s.bth.queue.length < 8)
    (ht : s.bth.tollgate = false) (hdir : dir < 2)
    (ho : o = boothOpOf c mode dir flags tail handle src dst len aadLen aadTail aad iv du tag) :
    execBoothOp c mode dir flags tail handle src dst len aadLen aadTail aad iv du tag s =
    done (match s.boothCheck o with
      | some st => s.begin.refuseBooth o st
      | none => (s.begin.boothQueued o).kickBooth 8) := by
  subst ho
  rw [execBoothOp_judged hc hu hqueue hrun, hh]
  refine congrArg done ?_
  exact (if_neg (by simp [ht])).trans ((if_neg (Nat.not_le.mpr hlen)).trans (if_neg (Nat.not_le.mpr hdir)))

end

/-! ### A refusal (R442) -/

/-- What a status raises is an event or nothing. -/
theorem State.boothRaise_events (o : BoothOp) (st : Nat) (s : State) : ∃ fifo urgent, s.boothRaise o st =
    { s with hlm := { s.hlm with fifo := fifo, irqUrgent := urgent } } := by
  unfold State.boothRaise
  split
  · exact ⟨_, _, rfl⟩
  · split
    · dsimp only
      split
      · exact ⟨_, _, rfl⟩
      · exact ⟨s.hlm.fifo, s.hlm.irqUrgent, rfl⟩
    · exact ⟨s.hlm.fifo, s.hlm.irqUrgent, rfl⟩

/-- An operation refused by an idle Booth is recorded; the lock stays unless RELEASE is set. -/
theorem State.refuseBooth_idle {o : BoothOp} (st : Nat) {s : State} (hq : s.alr.quiet = false) (hqueue : s.bth.queue = [])
    (hh : o.header = none) : ∃ hlm alr obs, s.refuseBooth o st = { s with hlm, alr, obs, bth :=
      if o.release then { s.bth.unlocked with leaseAt := s.clk.elapsed } else { s.bth with leaseAt := s.clk.elapsed } } ∧
      s.recorded { s with hlm } (o.call.record st) := by
  have herase : s.bth.queue.erase o = s.bth.queue := by rw [hqueue]; rfl
  obtain ⟨fifo, urgent, hraise⟩ := ({ s with bth := { s.bth with leaseAt := s.clk.elapsed } } : State).boothRaise_events o st
  unfold State.refuseBooth
  rw [herase]
  simp only [hraise, hh, Option.isNone_none, and_true]
  obtain ⟨hlm, alr, obs, hdone, hrec⟩ := State.complete_issues (o.call.record st) (s := { s with
    bth := { s.bth with leaseAt := s.clk.elapsed }, hlm := { s.hlm with fifo := fifo, irqUrgent := urgent } }) hq
  refine ⟨hlm, alr, obs, ?_, State.recorded_of_port rfl rfl hrec⟩
  rw [State.finish, hdone]
  by_cases hr : o.release = true
  · rw [if_pos hr, if_pos hr]
    exact State.unlockBooth_idle hqueue
  · rw [if_neg hr, if_neg hr]

/-! ### The start of an operation (R441) -/

/-- What counting uses changes beside the slots is an event or nothing. -/
theorem State.countBooth_counts (h g n : Nat) (s : State) : ∃ fifo urgent, s.countBooth h g n = { s with
    hlm := { s.hlm with fifo := fifo, irqUrgent := urgent }
    sbx := { s.sbx with slots := s.sbx.slots.map fun p =>
      if p.2.handle = h ∧ p.2.gen = g then (p.1, { p.2 with count := (s.keyCount h g).1 + n, ops := (s.keyCount h g).2 + 1 }) else p } } := by
  unfold State.countBooth
  dsimp only
  split
  · exact ⟨_, _, rfl⟩
  · exact ⟨s.hlm.fifo, s.hlm.irqUrgent, rfl⟩

/-- A slot as an operation of `n` blocks that starts leaves it: its uses counted, the slots of the handle busy. -/
def slotStarted (h g n : Nat) (c : Nat × Nat) (p : Nat × KeySlot) : Nat × KeySlot :=
  let q := if p.2.handle = h ∧ p.2.gen = g then (p.1, { p.2 with count := c.1 + n, ops := c.2 + 1 }) else p
  if q.2.handle = h then (q.1, { q.2 with busy := true }) else q

theorem slotStarted_key (h g n : Nat) (c : Nat × Nat) (p : Nat × KeySlot) :
    (slotStarted h g n c p).2.handle = p.2.handle ∧ (slotStarted h g n c p).2.gen = p.2.gen := by
  unfold slotStarted
  dsimp only
  split <;> split <;> exact ⟨rfl, rfl⟩

/-- The slot of a key is found where it was, as the operation leaves it. -/
theorem slotOf_started {b : Sbx} {h g m n : Nat} {k : KeySlot} (c : Nat × Nat) (hk : b.slotOf h g = some (m, k)) :
    ({ b with slots := b.slots.map (slotStarted h g n c) } : Sbx).slotOf h g =
      some (m, { k with count := c.1 + n, ops := c.2 + 1, busy := true }) := by
  have hkey : k.handle = h ∧ k.gen = g := by simpa using List.find?_some hk
  have hsame : (fun p : Nat × KeySlot => decide (p.2.handle = h ∧ p.2.gen = g)) ∘ slotStarted h g n c =
      fun p => decide (p.2.handle = h ∧ p.2.gen = g) := by
    funext p
    rw [Function.comp_apply, (slotStarted_key h g n c p).1, (slotStarted_key h g n c p).2]
  unfold Sbx.slotOf at *
  rw [List.find?_map, hsame, hk]
  simp [slotStarted, hkey]

/-- The operation with the IV it runs under: a hardware nonce is drawn. -/
def State.ivDrawn (o : BoothOp) (s : State) : BoothOp :=
  if s.hwNonce o && !o.hwNonce then { o with iv := s.drawn 12 ++ zeros 4, hwNonce := true } else o

/-- Its uses counted and its slot busy, nothing of the Booth itself changes any more. -/
theorem State.countBooth_starts (o : BoothOp) (g : Nat) (v : State) : ∃ alr fifo urgent sty,
    (((v.countBooth o.handle g o.blocks).keyBusy o.handle true).meter 3 o.call.stall o.len).progress = { v with
      alr, sty, hlm := { v.hlm with fifo := fifo, irqUrgent := urgent }
      sbx := { v.sbx with slots := v.sbx.slots.map (slotStarted o.handle g o.blocks (v.keyCount o.handle g)) } } := by
  obtain ⟨fifo, urgent, hcount⟩ := v.countBooth_counts o.handle g o.blocks
  rw [hcount, State.progress, State.meter_frame, State.keyBusy]
  simp only [List.map_map]
  exact ⟨_, _, _, _, rfl⟩

/-- An operation that starts. -/
theorem State.startBooth_starts (o : BoothOp) (g : Nat) (s : State) : ∃ alr obs fifo urgent sty, s.startBooth o g = { s with
    alr, obs, sty, hlm := { s.hlm with fifo := fifo, irqUrgent := urgent }
    fresh := if s.hwNonce o && !o.hwNonce then s.fresh + 1 else s.fresh
    bth := { s.bth with running := some (s.ivDrawn o), queue := s.bth.queue.erase o, opsCount := satAdd 65535 s.bth.opsCount 1 }
    sbx := { s.sbx with slots := s.sbx.slots.map (slotStarted o.handle g o.blocks (s.keyCount o.handle g)) } } := by
  unfold State.startBooth State.ivDrawn
  cases s.hwNonce o && !o.hwNonce
  all_goals
    simp only [Bool.false_eq_true, if_false, if_true, State.tookDraw, State.bump]
    generalize Obs.bump _ _ _ = obs
    generalize hv : State.mk .. = v
    obtain ⟨alr, fifo, urgent, sty, h⟩ := v.countBooth_starts o g
    rw [h]
    subst hv
    exact ⟨alr, obs, fifo, urgent, sty, rfl⟩

theorem State.unitHeld_of_inUnitReset {s : State} {u : Nat} (h : s.inUnitReset u = false) : s.unitHeld u = false :=
  List.any_eq_false.mpr fun r hr hheld => List.any_eq_false.mp h r hr (Bool.and_eq_true_iff.mp hheld).1

/-- The one operation queued at a free Booth runs once its key is resident and its IV supplied. -/
theorem State.kickBooth_runs {o : BoothOp} {e : KeyEntry} {m n : Nat} {k : KeySlot} {s : State} (hqueue : s.bth.queue = [o])
    (hrun : s.bth.running = none) (hnet : s.sbx.zeroNet = false) (hquiet : s.alr.quiet = false) (hu : s.inUnitReset unitBooth = false)
    (hok : s.boothCheck o = none) (he : s.liveEntry? o.handle = some e) (hk : s.sbx.slotOf o.handle e.gen = some (n, k))
    (hiv : (s.hwNonce o && !o.hwNonce) = false ∨ s.sbx.entropyOk = true) : ∃ alr obs fifo urgent sty waits, s.kickBooth (m + 1) = { s with
      alr, obs, sty, hlm := { s.hlm with fifo := fifo, irqUrgent := urgent }
      fresh := if s.hwNonce o && !o.hwNonce then s.fresh + 1 else s.fresh
      bth := { s.bth with running := some (s.ivDrawn o), queue := [], opsCount := satAdd 65535 s.bth.opsCount 1 }
      sbx := { s.sbx with entropyWaits := waits, slots := s.sbx.slots.map (slotStarted o.handle e.gen o.blocks (k.count, k.ops)) } } := by
  have hkick : s.kickBooth (m + 1) = ((s.endEntropyWait o.call).waitEnd 80 17 (some o.call.stall) 0).startBooth o e.gen := by
    rw [State.kickBooth, if_neg (by simp [hrun, hnet, hquiet, State.unitHeld_of_inUnitReset hu]), hqueue]
    simp only [hok, he, hk, Option.map_some, Option.getD_some, Option.isNone_some, Bool.false_eq_true, if_false]
    rw [if_neg]
    rintro ⟨hw, hdrawn, hent⟩
    exact hent (hiv.resolve_left (by simp [hw, hdrawn]))
  have hwaited : ∃ waits obs, (s.endEntropyWait o.call).waitEnd 80 17 (some o.call.stall) 0 =
      { s with sbx := { s.sbx with entropyWaits := waits }, obs := obs } := ⟨_, _, State.waitEnd_frame ..⟩
  obtain ⟨waits, obs, hwaited⟩ := hwaited
  have hcount : ({ s with sbx := { s.sbx with entropyWaits := waits }, obs := obs } : State).keyCount o.handle e.gen = (k.count, k.ops) := by
    have hk' : ({ s with sbx := { s.sbx with entropyWaits := waits }, obs := obs } : State).sbx.slotOf o.handle e.gen = some (n, k) := hk
    rw [State.keyCount, hk']
  obtain ⟨alr, obs', fifo, urgent, sty, hstart⟩ :=
    ({ s with sbx := { s.sbx with entropyWaits := waits }, obs := obs } : State).startBooth_starts o e.gen
  rw [hcount] at hstart
  refine ⟨alr, obs', fifo, urgent, sty, waits, ?_⟩
  rw [hkick, hwaited, hstart]
  simp only [hqueue, List.erase_cons_head]
  rfl

/-- A BOOTH_OP that passes its checks runs in a free Booth. -/
theorem execBoothOp_starts {s : State} {c : Call} {mode dir flags tail handle src dst len aadLen aadTail aad du tag stall n : Nat} {iv : Bytes}
    {o : BoothOp} {e : KeyEntry} {k : KeySlot} (hc : s.admits c 0x0801) (hu : s.inUnitReset unitBooth = false) (hqueue : s.bth.queue = [])
    (hrun : s.bth.running = none) (hh : s.bth.holder = some (c.fn, stall)) (ht : s.bth.tollgate = false) (hdir : dir < 2)
    (hnet : s.sbx.zeroNet = false) (ho : o = boothOpOf c mode dir flags tail handle src dst len aadLen aadTail aad iv du tag)
    (hok : s.boothCheck o = none) (he : s.liveEntry? handle = some e) (hk : s.sbx.slotOf handle e.gen = some (n, k))
    (hiv : s.hwNonce o = false ∨ s.sbx.entropyOk = true) : ∃ alr obs fifo urgent sty waits,
    execBoothOp c mode dir flags tail handle src dst len aadLen aadTail aad iv du tag s = done { s with
      out := [], alr, obs, sty, hlm := { s.hlm with fifo := fifo, irqUrgent := urgent }
      fresh := if s.hwNonce o then s.fresh + 1 else s.fresh
      bth := { s.bth with running := some (s.ivDrawn o), queue := [], opsCount := satAdd 65535 s.bth.opsCount 1 }
      sbx := { s.sbx with entropyWaits := waits, slots := s.sbx.slots.map (slotStarted handle e.gen o.blocks (k.count, k.ops)) } } := by
  have hexec := execBoothOp_checked hc hu (by rw [hqueue]; rfl) (by rw [hrun]; rfl) hh (by rw [hqueue]; decide) ht hdir ho
  have hhandle : o.handle = handle := by rw [ho]; rfl
  have hplain : o.hwNonce = false := by rw [ho]; rfl
  subst hhandle
  rw [hok] at hexec
  have hnonce : ((s.begin.boothQueued o).hwNonce o && !o.hwNonce) = s.hwNonce o := by rw [hplain]; exact Bool.and_true _
  obtain ⟨alr, obs, fifo, urgent, sty, waits, hkick⟩ := State.kickBooth_runs (m := 7) (s := s.begin.boothQueued o)
    (show s.bth.queue ++ [o] = [o] by rw [hqueue]; rfl) hrun hnet hc.1.2.2 hu hok he hk (hiv.imp_left hnonce.trans)
  rw [hnonce] at hkick
  exact ⟨alr, obs, fifo, urgent, sty, waits, hexec.trans (congrArg done hkick)⟩

/-- While another operation runs, nothing starts. -/
theorem State.kickBooth_busy {m : Nat} {s : State} (h : s.bth.running.isSome = true) : s.kickBooth m = s := by
  cases m with
  | zero => rfl
  | succ m => exact if_pos (.inl h)

/-! ### The statement -/

/-- Settles O48: the lock's clauses are what one access does, those of BOOTH_OP what the judged command does. -/
theorem boothLockAndOps : Obligations.BoothLockAndOps := by
  refine ⟨?claimed, ?unclaimed, ?released, ?waits, ?foreign, fun s h => execBoothLeaseExpiry_holds h, ?lapsed, ?nolock, ?busy, ?refused, ?runs,
    ?nonce, ?queued⟩
  case claimed =>
    intro s fn st hg hh hw hst hk hu
    obtain ⟨obs, hanswer⟩ := State.regAnswer_booth (s := s) fn (State.claimBooth_free (s := s.begin) hh hw hst hk hu)
    exact ⟨_, (execBoothClaim_granted hg).trans (congrArg done hanswer), rfl, rfl⟩
  case unclaimed =>
    intro s fn hg h
    obtain ⟨obs, hanswer⟩ := State.regAnswer_booth (s := s) fn (State.claimBooth_refused (s := s.begin) h)
    exact ⟨_, (execBoothClaim_granted hg).trans (congrArg done hanswer), rfl⟩
  case released =>
    intro s fn st hg hh ht hr hq
    obtain ⟨obs, hanswer⟩ := State.regAnswer_booth (s := s) fn (State.releaseLock_idle (s := s.begin) hh ht hr hq)
    exact ⟨_, (execBoothRelease_granted hg).trans (congrArg done hanswer), rfl, rfl⟩
  case waits =>
    intro s fn st hg hh ht hr
    obtain ⟨obs, hanswer⟩ := State.regAnswer_booth (s := s) fn (State.releaseLock_waits (s := s.begin) hh ht hr)
    exact ⟨_, (execBoothRelease_granted hg).trans (congrArg done hanswer), rfl, rfl⟩
  case foreign =>
    intro s fn hg h
    obtain ⟨obs, hanswer⟩ := State.regAnswer_booth (s := s) fn (State.releaseLock_other (s := s.begin) h)
    exact ⟨_, (execBoothRelease_granted hg).trans (congrArg done hanswer), rfl⟩
  case lapsed =>
    intro s fn st hh ht hr hq he
    have hexec := execBoothLeaseExpiry_expires hh ht hr hq he
    rw [State.unlockBooth_idle (s := (s.begin.event evBthLease unitBooth (some st) fn 0).bump (ctrBooth 10) 1) hq] at hexec
    exact ⟨_, hexec, rfl, rfl, rfl, rfl⟩
  case nolock =>
    intro s c mode dir flags tail handle src dst len aadLen aadTail aad du tag iv hc hu hq hr hh
    exact (execBoothOp_judged hc hu (by rw [hq]; rfl) (by rw [hr]; rfl)).trans (by rw [hh]; rfl)
  case busy =>
    intro s c mode dir flags tail handle src dst len aadLen aadTail aad du tag iv h hc hu hq hr hh hb
    exact execBoothOp_busy hc hu hq hr hh hb
  case refused =>
    intro s c mode dir flags tail handle src dst len aadLen aadTail aad du tag st stall iv o hc hu hq hr hh ht hdir ho hst
    have hexec := execBoothOp_checked hc hu (by rw [hq]; rfl) (by rw [hr]; rfl) hh (by rw [hq]; decide) ht hdir ho
    rw [hst] at hexec
    have hcall : o.call = c := by rw [ho]; rfl
    obtain ⟨hlm, alr, obs, hdone, hrec⟩ := State.refuseBooth_idle (o := o) st (s := s.begin) hc.1.2.2 hq (by rw [ho]; rfl)
    rw [hcall] at hrec
    exact ⟨_, hexec.trans (congrArg done hdone), State.recorded_of_port rfl rfl hrec, rfl, rfl⟩
  case runs =>
    intro s c mode dir flags tail handle src dst len aadLen aadTail aad du tag stall n iv o e k hc hu hq hr hh ht hdir hnet ho hok he hk hiv
    obtain ⟨alr, obs, fifo, urgent, sty, waits, hexec⟩ := execBoothOp_starts hc hu hq hr hh ht hdir hnet ho hok he hk (.inl hiv)
    have hdrawn : s.ivDrawn o = o := if_neg (by simp [hiv])
    rw [hdrawn, hiv] at hexec
    exact ⟨_, hexec, by simp only [hq], slotOf_started _ hk, rfl, rfl, rfl, rfl, rfl, rfl, rfl, rfl⟩
  case nonce =>
    intro s c mode dir flags tail handle src dst len aadLen aadTail aad du tag stall n iv o e k hc hu hq hr hh ht hdir hnet hent ho hok he hk
      hiv
    obtain ⟨alr, obs, fifo, urgent, sty, waits, hexec⟩ := execBoothOp_starts hc hu hq hr hh ht hdir hnet ho hok he hk (.inr hent)
    have hdrawn : s.ivDrawn o = { o with iv := s.drawn 12 ++ zeros 4, hwNonce := true } := if_pos (by rw [hiv, ho]; rfl)
    rw [hdrawn, hiv] at hexec
    exact ⟨_, hexec, by simp only [hq], rfl, rfl, rfl, rfl, rfl, rfl, rfl⟩
  case queued =>
    intro s c mode dir flags tail handle src dst len aadLen aadTail aad du tag stall iv o hc hu hq hr hh hlen ht hdir ho hok
    obtain ⟨x, hx⟩ : ∃ x, s.bth.running = some x := by
      cases hrun : s.bth.running with
      | none => rw [hrun] at hr; cases hr
      | some x => exact ⟨x, rfl⟩
    have hother : s.bth.running.any (fun o => decide (o.call = c)) = false := by
      rw [hx] at hr ⊢
      simpa using hr
    have hexec := execBoothOp_checked hc hu hq hother hh hlen ht hdir ho
    rw [hok, State.kickBooth_busy (s := s.begin.boothQueued o) (Option.isSome_of_eq_some hx)] at hexec
    exact hexec

end Sys2Proof.Machine


/-!
The end of a Booth operation (O49).

Every clause is one lemma about BOOTH_OP_COMPLETE, for the outcome that the operation makes of its input, with that outcome worked out.
-/

namespace Sys2Proof.Machine

/-! ### Writes on the internal path (R438) -/

/-- The writes of a range. -/
def State.rangeWrites (stall addr : Nat) (data : Bytes) (s : State) : List Out :=
  let first := regionBytes - addr % regionBytes
  let cut := (data.take first, addr) :: (chunks regionBytes (data.drop first)).zipIdx.map fun p => (p.1, addr + first + regionBytes * p.2)
  (cut.filter fun p => !p.1.isEmpty).map fun p => .memWrite (s.accessStall stall p.2) p.2 p.1

/-- A range written is writes that leave, and nothing else. -/
theorem State.writeRange_eq (stall addr : Nat) (data : Bytes) (s : State) :
    s.writeRange stall addr data = s.emits (s.rangeWrites stall addr data) := by
  have hfold : ∀ (f : Bytes × Nat → Out) (l : List (Bytes × Nat)) (t : State),
      l.foldl (fun t p => if p.1.isEmpty then t else t.emit (f p)) t = t.emits ((l.filter fun p => !p.1.isEmpty).map f) := by
    intro f l
    induction l with
    | nil => exact fun t => by simp [State.emits]
    | cons p l ih =>
      intro t
      rw [List.foldl_cons, ih]
      cases hp : p.1.isEmpty <;> simp [hp, State.emits, State.emit]
  exact hfold _ _ s

theorem State.writeRange_frame (stall addr : Nat) (data : Bytes) (s : State) :
    s.writeRange stall addr data = { s with out := (s.writeRange stall addr data).out } := by
  rw [State.writeRange_eq]
  rfl

theorem State.writeRange_nil (stall addr : Nat) (s : State) : s.writeRange stall addr [] = s := by
  simp [State.writeRange, chunks, chunksFuel]

/-- What an outcome writes: its data to DST, then its tag to TAG. -/
def State.boothWrites (o : BoothOp) (e : BoothEnd) (s : State) : State :=
  match e.tag with
  | some b => (s.writeRange o.call.stall o.dst e.dst).writeRange o.call.stall o.tag b
  | none => s.writeRange o.call.stall o.dst e.dst

theorem State.boothWrites_frame (o : BoothOp) (e : BoothEnd) (s : State) :
    s.boothWrites o e = { s with out := (s.boothWrites o e).out } := by
  unfold State.boothWrites
  split
  · rw [State.writeRange_frame, State.writeRange_frame]
  · exact State.writeRange_frame ..

/-! ### BOOTH_OP_COMPLETE (R432, R441) -/

/-- The Booth once its operation has ended, `fail` a failed tag. -/
def Bth.ended (now fail : Nat) (b : Bth) : Bth :=
  { b with running := none, leaseAt := now, tagFails := satAdd 65535 b.tagFails fail }

theorem Bth.ended_running (c : Bool) (now fail : Nat) (b : Bth) :
    (if c then (b.ended now fail).unlocked else b.ended now fail).running = none := by
  cases c <;> rfl

theorem Bth.ended_tagFails (c : Bool) (now fail : Nat) (b : Bth) :
    (if c then (b.ended now fail).unlocked else b.ended now fail).tagFails = satAdd 65535 b.tagFails fail := by
  cases c <;> rfl

/-- A slot no longer busy for the handle. -/
def slotIdle (h : Nat) (p : Nat × KeySlot) : Nat × KeySlot := if p.2.handle = h then (p.1, { p.2 with busy := false }) else p

/-- The state in which an operation has ended, before its record. -/
def State.boothEnded (o : BoothOp) (e : BoothEnd) (obs : Obs) (s : State) : State :=
  { s with
    out := (s.boothWrites o e).out, obs, bth := s.bth.ended s.clk.elapsed (bit (decide (e.status = stBthTag)))
    sbx := { s.sbx with slots := s.sbx.slots.map (slotIdle o.handle) } }

theorem State.endBooth_ends (o : BoothOp) (e : BoothEnd) (s : State) : ∃ obs, s.endBooth o e = s.boothEnded o e obs := by
  have hwrites := s.boothWrites_frame o e
  unfold State.endBooth
  change ∃ obs, State.keyBusy o.handle false (State.bumpStall o.call.stall 14 o.len ((({ s.boothWrites o e with
    bth := (s.boothWrites o e).bth.ended (s.boothWrites o e).clk.elapsed (bit (decide (e.status = stBthTag))) } : State).bump (ctrBooth 1) o.len |>.bump (ctrBooth 2) e.dst.length).bump (ctrBooth 4) _)) = s.boothEnded o e obs
  unfold State.boothEnded
  generalize (s.boothWrites o e).out = out at hwrites ⊢
  rw [hwrites]
  simp only [State.keyBusy, State.bump, State.bumpStall, Bth.ended]
  generalize Obs.bump _ _ _ = obs
  exact ⟨_, rfl⟩

/-- With nothing queued and nothing due, an idle Booth stays as it is. -/
theorem State.kickBooth_idle (m : Nat) {s : State} (hqueue : s.bth.queue = []) (hdue : s.bth.releaseDue = false)
    (hheld : s.bth.holder.all (fun h => decide (s.stallState h.2 ≠ .lost ∧ s.stallState h.2 ≠ .removing)) = true) : s.kickBooth m = s := by
  cases m with
  | zero => rfl
  | succ m =>
    have hsettled : s.settleLock = s := by
      unfold State.settleLock
      split
      · rfl
      next h hh =>
        rw [hh, Option.all_some, decide_eq_true_eq] at hheld
        dsimp only
        split
        · rfl
        · exact if_neg (by simp [hheld, hdue])
    rw [State.kickBooth, hqueue, hsettled, ite_self]

/-- BOOTH_OP_COMPLETE writes what the operation makes of its input, records it, and frees the Booth; with RELEASE the lock too. -/
theorem execBoothOpComplete_ends {s : State} {io : BoothIo} {o : BoothOp} {e : BoothEnd} (hr : s.boothRuns o)
    (he : (o.result (s.boothKey o) io).written io = e) : ∃ hlm alr obs,
    execBoothOpComplete io s = done { s with
      out := (s.begin.boothWrites o e).out, hlm, alr, obs, sbx := { s.sbx with slots := s.sbx.slots.map (slotIdle o.handle) }
      bth := if o.release then (s.bth.ended s.clk.elapsed (bit (decide (e.status = stBthTag)))).unlocked
        else s.bth.ended s.clk.elapsed (bit (decide (e.status = stBthTag))) } ∧
      s.recorded { s with hlm } (o.record e.status e.dst.length e.tagOk e.dnt) := by
  obtain ⟨hrun, hheader, hquiet, hqueue, hdue, hheld, hdestroys⟩ := hr
  obtain ⟨obs, hend⟩ := s.begin.endBooth_ends o e
  obtain ⟨hlm, alr, obs', hdone, hrec⟩ := State.complete_issues (o.record e.status e.dst.length e.tagOk e.dnt) (s := s.begin.boothEnded o e obs)
    hquiet
  refine ⟨hlm, alr, obs', ?_, State.recorded_of_port rfl rfl hrec⟩
  have he' : (o.result (s.begin.boothKey o) io).written io = e := he
  unfold execBoothOpComplete
  simp only [State.begin_bth, hrun, he', hend, hdone]
  rw [if_neg (by simp [hheader, hquiet])]
  refine congrArg done ?_
  by_cases hrel : o.release = true
  · rw [if_pos hrel, if_pos hrel, State.unlockBooth_idle (by exact hqueue), State.settleDestroys_none (by exact hdestroys),
      State.kickBooth_idle]
    · rfl
    · exact hqueue
    · rfl
    · rfl
  · rw [if_neg hrel, if_neg hrel, State.settleDestroys_none (by exact hdestroys), State.kickBooth_idle]
    · rfl
    · exact hqueue
    · exact hdue
    · exact hheld

/-! ### What an operation makes of its input (R436, R437, R440) -/

section
variable {o : BoothOp} {io : BoothIo} {data : Bytes} (key : Bytes) (hh : o.header = none) (ha : o.mode ≠ 0 ∨ o.aadLen = 0)
  (hs : io.src = .ok data) (hl : data.length = o.len)
include hh ha hs hl

theorem BoothOp.result_ciphers (hm : o.mode = 1 ∨ o.mode = 2) :
    o.result key io = { status := stOk, dst := o.output key data, tag := none, tagOk := false, dnt := false } := by
  have haad : ¬ (o.mode = 0 ∧ o.aadLen ≠ 0) := by tauto
  unfold BoothOp.result
  simp only [hs, hh, take_padTo_of_length hl, if_neg haad, if_pos hm]

theorem BoothOp.result_generates (hm : o.mode = 0 ∨ o.mode = 3) (hd : o.decrypt = false) : o.result key io =
    { status := stOk, dst := o.output key data, tag := some (o.tagOf key [] data), tagOk := false, dnt := false } := by
  have haad : ¬ (o.mode = 0 ∧ o.aadLen ≠ 0) := by tauto
  have hm' : ¬ (o.mode = 1 ∨ o.mode = 2) := by omega
  unfold BoothOp.result
  simp only [hs, hh, take_padTo_of_length hl, if_neg haad, if_neg hm', hd, Bool.false_eq_true, not_false_eq_true, if_true]

theorem BoothOp.result_verifies {want : Bytes} (hm : o.mode = 0) (hd : o.decrypt = true) (ht : io.tag = .ok want) : o.result key io =
    if o.tagOf key [] data = want then { status := stOk, dst := o.output key data, tag := none, tagOk := true, dnt := false }
    else if o.holds then { status := stBthTag, dst := zeros o.len, tag := none, tagOk := false, dnt := false }
    else { status := stBthTag, dst := o.output key data, tag := none, tagOk := false, dnt := true } := by
  have haad : ¬ (o.mode = 0 ∧ o.aadLen ≠ 0) := by tauto
  have hm' : ¬ (o.mode = 1 ∨ o.mode = 2) := by omega
  unfold BoothOp.result
  simp only [hs, hh, take_padTo_of_length hl, if_neg haad, if_neg hm', hd, not_true_eq_false, if_false, ht, if_pos hm]

end

theorem BoothEnd.written_all {e : BoothEnd} {io : BoothIo} (h : io.failedAt = none) : e.written io = e := by rw [BoothEnd.written, h]

/-- GCM in hold mode. -/
theorem BoothOp.holds_gcm {o : BoothOp} (hm : o.mode = 0) (hd : o.decrypt = true) : o.holds = !o.flags.testBit 0 := by
  simp [BoothOp.holds, BoothOp.verifies, BoothOp.stream, hm, hd]

/-! ### The statement -/

/-- Settles O49: each clause is the end of an operation with the outcome its input gives. -/
theorem boothOpEnds : Obligations.BoothOpEnds := by
  refine ⟨?idle, ?encrypt, ?cipher, ?cmac, ?hold, ?stream, ?failed, ?torn⟩
  case idle =>
    intro s io h
    show execBoothOpComplete io s = done s.begin
    unfold execBoothOpComplete
    simp only [State.begin_bth, h]
  case encrypt =>
    intro s io o data ct tag hr hm hd ha hs hl hf hct htag
    have he := (BoothEnd.written_all (e := o.result (s.boothKey o) io) hf).trans
      (BoothOp.result_generates (s.boothKey o) hr.2.1 (.inr ha) hs hl (.inl hm) hd)
    rw [← hct, ← htag] at he
    obtain ⟨hlm, alr, obs, hexec, hrec⟩ := execBoothOpComplete_ends hr he
    refine ⟨_, hexec, rfl, State.recorded_of_port rfl rfl hrec, ?_, rfl, rfl, rfl, rfl, rfl, rfl⟩
    cases o.release <;> rfl
  case cipher =>
    intro s io o data out hr hm hs hl hf hout
    have he := (BoothEnd.written_all (e := o.result (s.boothKey o) io) hf).trans
      (BoothOp.result_ciphers (s.boothKey o) hr.2.1 (.inl (by omega)) hs hl hm)
    rw [← hout] at he
    obtain ⟨hlm, alr, obs, hexec, hrec⟩ := execBoothOpComplete_ends hr he
    exact ⟨_, hexec, rfl, State.recorded_of_port rfl rfl hrec, Bth.ended_running .., rfl, rfl, rfl⟩
  case cmac =>
    intro s io o data tag hr hm hd hs hl hf htag
    have he := (BoothEnd.written_all (e := o.result (s.boothKey o) io) hf).trans
      (BoothOp.result_generates (s.boothKey o) hr.2.1 (.inl (by omega)) hs hl (.inr hm) hd)
    have hnone : o.output (s.boothKey o) data = [] := by simp [BoothOp.output, hm]
    have hcmac : o.tagOf (s.boothKey o) [] data = tag := by rw [htag, BoothOp.tagOf, if_pos hm]
    rw [hnone, hcmac] at he
    obtain ⟨hlm, alr, obs, hexec, hrec⟩ := execBoothOpComplete_ends hr he
    refine ⟨_, hexec, ?_, State.recorded_of_port rfl rfl hrec, Bth.ended_running .., rfl, rfl, rfl⟩
    show ((s.begin.writeRange o.call.stall o.dst []).writeRange o.call.stall o.tag tag).out = _
    rw [State.writeRange_nil]
  case hold =>
    intro s io o data want out pass hr hm hd ha hstream hs hl ht hf hpass hout
    have he := (BoothEnd.written_all (e := o.result (s.boothKey o) io) hf).trans
      (BoothOp.result_verifies (s.boothKey o) hr.2.1 (.inr ha) hs hl hm hd ht)
    have hholds : o.holds = true := by rw [BoothOp.holds_gcm hm hd, hstream]; rfl
    rw [hholds] at he
    by_cases htag : o.tagOf (s.boothKey o) [] data = want
    · rw [decide_eq_true htag] at hpass
      subst hpass
      rw [if_pos htag, ← hout.trans (if_pos rfl)] at he
      obtain ⟨hlm, alr, obs, hexec, hrec⟩ := execBoothOpComplete_ends hr he
      exact ⟨_, hexec, rfl, State.recorded_of_port rfl rfl hrec, Bth.ended_running .., Bth.ended_tagFails .., rfl, rfl, rfl⟩
    · rw [decide_eq_false htag] at hpass
      subst hpass
      rw [if_neg htag, if_pos rfl, ← hout.trans (if_neg Bool.false_ne_true)] at he
      obtain ⟨hlm, alr, obs, hexec, hrec⟩ := execBoothOpComplete_ends hr he
      exact ⟨_, hexec, rfl, State.recorded_of_port rfl rfl hrec, Bth.ended_running .., Bth.ended_tagFails .., rfl, rfl, rfl⟩
  case stream =>
    intro s io o data want out hr hm hd ha hstream hs hl ht hf htag hout
    have he := (BoothEnd.written_all (e := o.result (s.boothKey o) io) hf).trans
      (BoothOp.result_verifies (s.boothKey o) hr.2.1 (.inr ha) hs hl hm hd ht)
    have hholds : ¬ o.holds = true := by rw [BoothOp.holds_gcm hm hd, hstream]; exact Bool.false_ne_true
    rw [if_neg htag, if_neg hholds, ← hout] at he
    obtain ⟨hlm, alr, obs, hexec, hrec⟩ := execBoothOpComplete_ends hr he
    exact ⟨_, hexec, rfl, State.recorded_of_port rfl rfl hrec, Bth.ended_running .., Bth.ended_tagFails .., rfl, rfl, rfl⟩
  case failed =>
    intro s io o hr hholds hs
    have he : (o.result (s.boothKey o) io).written io = { status := stBthMemory, dst := [], tag := none, tagOk := false, dnt := false } := by
      unfold BoothOp.result BoothOp.readFailed
      simp only [hs, hholds, if_true]
      unfold BoothEnd.written
      split
      · rfl
      · exact if_pos ⟨rfl, rfl⟩
    obtain ⟨hlm, alr, obs, hexec, hrec⟩ := execBoothOpComplete_ends hr he
    exact ⟨_, hexec, congrArg State.out (State.writeRange_nil ..), State.recorded_of_port rfl rfl hrec, Bth.ended_running .., rfl, rfl, rfl⟩
  case torn =>
    intro s io o data out n hr hm hd ha hs hl hf hn hout
    have he : (o.result (s.boothKey o) io).written io =
        { status := stBthMemory, dst := out, tag := none, tagOk := false, dnt := true } := by
      rw [BoothOp.result_generates (s.boothKey o) hr.2.1 (.inr ha) hs hl (.inl hm) hd, hout]
      unfold BoothEnd.written
      simp only [hf]
      exact if_neg (by simp)
    obtain ⟨hlm, alr, obs, hexec, hrec⟩ := execBoothOpComplete_ends hr he
    exact ⟨_, hexec, rfl, State.recorded_of_port rfl rfl hrec, Bth.ended_running .., rfl, rfl, rfl⟩

end Sys2Proof.Machine


/-!
TOLL_POLICY_LOAD and TOLL_BUDGET (O50).
-/

namespace Sys2Proof.Machine

/-! ### TOLL_POLICY_LOAD (R453) -/

/-- The image is that of the Stall record's digest. -/
def BufRead.isImage (digest : Bytes) (image : BufRead) : Bool :=
  match image with
  | .ok p => decide (sha384 p = digest)
  | .failed => false

section
variable {s : State} {c : Call} {addr : Nat} {x : Stall} {d : StallData} (hc : s.admits c 0x0901) (hx : s.stall? c.stall = some x)
  (hd : s.stallData? c.stall = some d)
include hc hx hd

theorem execTollPolicyLoad_misaligned {image : BufRead} (ha : addr % 16 ≠ 0) :
    execTollPolicyLoad c addr image s = done (s.begin.finishDetail c stParam 0x30) := by
  have hx' : s.begin.stall? c.stall = some x := hx
  have hd' : s.begin.stallData? c.stall = some d := hd
  rw [execTollPolicyLoad, State.command_run hc]
  simp only [hx', hd', if_pos ha]
  rfl

section
variable (ha : addr % 16 = 0) (hr : s.rangeAll addr policySize (fun e => decide (e.state = .sealed ∧ e.owner = c.stall)) = true)
include ha hr

/-- An image that is not the Stall's has no field at fault. -/
theorem execTollPolicyLoad_unreadable {image : BufRead} (hi : image.isImage d.policyDigest = false) :
    execTollPolicyLoad c addr image s = done ((s.begin.emit (.memRead c.stall addr policySize)).policyError c 0xFFF) := by
  have hx' : s.begin.stall? c.stall = some x := hx
  have hd' : s.begin.stallData? c.stall = some d := hd
  have hr' : s.begin.rangeAll addr policySize (fun e => decide (e.state = .sealed ∧ e.owner = c.stall)) = true := hr
  rw [execTollPolicyLoad, State.command_run hc]
  simp only [hx', hd', hr']
  rw [if_neg (not_not_intro ha), if_neg (not_not_intro trivial)]
  cases image with
  | failed => rfl
  | ok p => exact congrArg done (if_pos (of_decide_eq_false hi))

theorem execTollPolicyLoad_read {p : Bytes} (hp : sha384 p = d.policyDigest) : execTollPolicyLoad c addr (.ok p) s =
    done (match policyFault p d.owners with
      | some off => (s.begin.emit (.memRead c.stall addr policySize)).policyError c off
      | none => ({ s.begin.emit (.memRead c.stall addr policySize) with
          tol := ({ s.tol with policies := assocSet c.stall (addr, x.tag) s.tol.policies } : Tol).remember c.stall x.tag p } : State).finish c
            stOk) := by
  have hx' : s.begin.stall? c.stall = some x := hx
  have hd' : s.begin.stallData? c.stall = some d := hd
  have hr' : s.begin.rangeAll addr policySize (fun e => decide (e.state = .sealed ∧ e.owner = c.stall)) = true := hr
  rw [execTollPolicyLoad, State.command_run hc]
  simp only [hx', hd', hr']
  rw [if_neg (not_not_intro ha), if_neg (not_not_intro trivial), if_neg (not_not_intro hp)]
  rfl

end
end

/-- A load that fails is recorded, with the offset in XS_TOL_POLERR. -/
theorem State.policyError_records {c : Call} (off : Nat) {s : State} (hq : s.alr.quiet = false) : ∃ hlm alr obs,
    s.policyError c off = { s with hlm, alr, obs, tol := { s.tol with polOffset := off, polStall := c.stall, polValid := true } } ∧
      s.recorded { s with hlm } (c.record stTolPolicy) := by
  obtain ⟨hlm, alr, obs, hdone, hrec⟩ := State.complete_issues (c.record stTolPolicy)
    (s := { s with tol := { s.tol with polOffset := off, polStall := c.stall, polValid := true } }) hq
  exact ⟨hlm, alr, obs, hdone, State.recorded_of_port rfl rfl hrec⟩

/-! ### TOLL_BUDGET (R465) -/

section
variable {s : State} {c : Call} {owner dst room : Nat} {nonce sigs : Bytes} {ok : Bool} {x : Stall} {d : StallData} (hc : s.admits c 0x0903)
  (hx : s.stall? c.stall = some x) (hd : s.stallData? c.stall = some d)
include hc hx hd

theorem execTollBudget_unknown (ho : d.owners[owner]? = none) :
    execTollBudget c owner nonce dst room sigs ok s = done (s.begin.finish c stTolOwner) := by
  have hx' : s.begin.stall? c.stall = some x := hx
  have hd' : s.begin.stallData? c.stall = some d := hd
  rw [execTollBudget, State.command_run hc]
  simp only [hx', hd', ho]

theorem execTollBudget_states {o : OwnerEntry} {b : Bytes} (ho : d.owners[owner]? = some o) (hl : x.measLocked = true)
    (hb : b = s.budgetBody c.stall x d owner o nonce ++ (padTo 4728 sigs).take 4728) : execTollBudget c owner nonce dst room sigs ok s =
    done (s.begin.output c dst room b ok fun t => (t.bump (ctrSbx 7) 1).finishOk c (leBytes 4 b.length)) := by
  have hx' : s.begin.stall? c.stall = some x := hx
  have hd' : s.begin.stallData? c.stall = some d := hd
  have hb' : s.begin.budgetBody c.stall x d owner o nonce ++ (padTo 4728 sigs).take 4728 = b := hb.symm
  rw [execTollBudget, State.command_run hc]
  simp only [hx', hd', ho, hl, not_true_eq_false, if_false, hb']

end

/-! ### The statement -/

/-- Settles O50: each clause is its command's lemma, with the record that ends it. -/
theorem tollPolicyAndBudget : Obligations.TollPolicyAndBudget := by
  refine ⟨?kept, ?unreadable, ?fault, fun s c addr image x d hc hx hd ha => execTollPolicyLoad_misaligned hc hx hd ha, ?stated, ?short,
    fun s c owner dst room nonce sigs ok x d hc hx hd ho => execTollBudget_unknown hc hx hd ho⟩
  case kept =>
    intro s c addr p x d hc hx hd ha hr hp hf
    have hexec := execTollPolicyLoad_read hc hx hd ha hr hp
    rw [hf] at hexec
    obtain ⟨hlm, alr, obs, hdone, hrec⟩ := State.complete_issues (c.record stOk) (s := { s.begin.emit (.memRead c.stall addr policySize) with
      tol := ({ s.tol with policies := assocSet c.stall (addr, x.tag) s.tol.policies } : Tol).remember c.stall x.tag p }) hc.1.2.2
    exact ⟨_, hexec.trans (congrArg done hdone), State.recorded_of_port rfl rfl hrec, rfl, rfl, rfl⟩
  case unreadable =>
    intro s c addr image x d hc hx hd ha hr hi
    have hi' : image.isImage d.policyDigest = false := by
      cases image with
      | failed => rfl
      | ok p => exact decide_eq_false (of_decide_eq_true hi)
    obtain ⟨hlm, alr, obs, hdone, hrec⟩ := State.policyError_records (c := c) 0xFFF (s := s.begin.emit (.memRead c.stall addr policySize))
      hc.1.2.2
    exact ⟨_, (execTollPolicyLoad_unreadable hc hx hd ha hr hi').trans (congrArg done hdone), State.recorded_of_port rfl rfl hrec, rfl, rfl⟩
  case fault =>
    intro s c addr off p x d hc hx hd ha hr hp hf
    have hexec := execTollPolicyLoad_read hc hx hd ha hr hp
    rw [hf] at hexec
    obtain ⟨hlm, alr, obs, hdone, hrec⟩ := State.policyError_records (c := c) off (s := s.begin.emit (.memRead c.stall addr policySize))
      hc.1.2.2
    exact ⟨_, hexec.trans (congrArg done hdone), State.recorded_of_port rfl rfl hrec, rfl, rfl⟩
  case stated =>
    intro s c owner dst room nonce sigs b x d o hc hx hd ho hl hb hroom
    have hexec := execTollBudget_states (dst := dst) (room := room) (ok := true) hc hx hd ho hl hb
    rw [State.output_fits _ _ _ _ _ hroom] at hexec
    generalize b.length = n at hexec ⊢
    obtain ⟨hlm, alr, obs, hdone, hrec⟩ := State.complete_issues { c.record stOk with result := leBytes 4 n }
      (s := (s.begin.emit (.memWrite c.stall dst b)).bump (ctrSbx 7) 1) hc.1.2.2
    exact ⟨_, hexec.trans (congrArg done hdone), rfl, State.recorded_of_port rfl rfl hrec, rfl⟩
  case short =>
    intro s c owner dst room nonce sigs b ok x d o hc hx hd ho hl hb hroom
    have hexec := execTollBudget_states (dst := dst) (room := room) (ok := ok) hc hx hd ho hl hb
    exact hexec.trans (congrArg done (State.output_short _ _ _ _ _ _ hroom))

end Sys2Proof.Machine


/-!
TOLL_EXPORT and the course of an export (O51).

Of each step of an export (check, norm pass, commit, main pass, handoff, end) the state it leaves is written out once; a clause is the
composition of those it goes through.
-/

namespace Sys2Proof.Machine

/-! ### Refusals and failures (R455, R466) -/

/-- The Tollgate with its export refused. -/
def Tol.refuses (st : Nat) (t : Tol) : Tol :=
  { t with
    running := none, hold := [], refused := satAdd 65535 t.refused 1
    nonfinite := satAdd 65535 t.nonfinite (bit (decide (st = stTolNonfinite))) }

theorem State.refuseExport_records (e : Export) (st : Nat) {s : State} (hq : s.alr.quiet = false) : ∃ hlm alr obs,
    s.refuseExport e st = { s with hlm, alr, obs, tol := s.tol.refuses st } ∧ s.recorded { s with hlm } (e.call.record st) := by
  obtain ⟨hlm, alr, obs, hdone, hrec⟩ := State.complete_issues (e.call.record st) (s := ({ s with tol := s.tol.refuses st } : State).bump
    (ctrToll 1) 1) hq
  exact ⟨hlm, alr, obs, hdone, State.recorded_of_port rfl rfl hrec⟩

/-- The Tollgate with its export failed past its commit point. -/
def Tol.fails (st : Nat) (t : Tol) : Tol :=
  { t with running := none, hold := [], nonfinite := satAdd 65535 t.nonfinite (bit (decide (st = stTolNonfinite))) }

theorem State.failExport_records (e : Export) (st : Nat) {s : State} (hq : s.alr.quiet = false) : ∃ hlm alr obs,
    s.failExport e st = { s with hlm, alr, obs, tol := s.tol.fails st } ∧ s.recorded { s with hlm } (e.call.record st) := by
  obtain ⟨hlm, alr, obs, hdone, hrec⟩ := State.complete_issues (e.call.record st) (s := { s with tol := s.tol.fails st }) hq
  exact ⟨hlm, alr, obs, hdone, State.recorded_of_port rfl rfl hrec⟩

/-! ### TOLL_EXPORT taken (R454 to R456) -/

section
variable {s : State} {c : Call} {rule owner outFmt cls handle src len stage dst hdr tag : Nat} (policy b : BufRead) (hc : s.admits c 0x0902)
include hc

theorem execTollExport_queues {r : Export} (hr : s.tol.running = some r) (hrc : r.call ≠ c)
    (hq : s.tol.queue.any (fun x => decide (x.call = c)) = false) (hlen : s.tol.queue.length < 32) :
    execTollExport c rule owner outFmt cls handle src len stage dst hdr tag policy b s = done { s.begin with tol := { s.tol with
      queue := s.tol.queue ++ [exportOf c rule owner outFmt cls handle src len stage dst hdr tag] } } := by
  rw [execTollExport, State.command_run hc]
  simp only [State.begin_tol, hr]
  rw [if_neg hrc, if_neg (by simp only [hq, Bool.false_eq_true, false_or]; omega)]

theorem execTollExport_begins {e : Export} (hr : s.tol.running = none) (hu : s.inUnitReset unitTollgate = false) (hq : s.tol.queue = [])
    (he : e = exportOf c rule owner outFmt cls handle src len stage dst hdr tag) :
    execTollExport c rule owner outFmt cls handle src len stage dst hdr tag policy b s =
      done ((s.begin.setExport e).runExport e policy b) := by
  have hu' : ¬ s.begin.inUnitReset unitTollgate = true := by rw [show s.begin.inUnitReset unitTollgate = false from hu]; exact Bool.false_ne_true
  subst he
  rw [execTollExport, State.command_run hc]
  simp only [State.begin_tol, hr, hq]
  rw [if_neg hu']

end

theorem State.runExport_noPolicy {e : Export} {s : State} (policy src : BufRead) (h : assocGet e.call.stall s.tol.policies = none) :
    s.runExport e policy src = s.refuseExport e stTolNopolicy := by
  unfold State.runExport
  rw [h]
  cases s.stall? e.call.stall <;> cases s.stallData? e.call.stall <;> rfl

/-- The state in which the checks of an export find its policy first in the cache. -/
def State.policyUsed (stall : Nat) (tag p : Bytes) (s : State) : State := { s with tol := s.tol.remember stall tag p }

theorem State.runExport_cached {e : Export} {s : State} {x : Stall} {d : StallData} {addr : Nat} {p : Bytes} (policy src : BufRead)
    (hx : s.stall? e.call.stall = some x) (hd : s.stallData? e.call.stall = some d)
    (hp : assocGet e.call.stall s.tol.policies = some (addr, x.tag)) (hcache : s.policyOf e.call.stall x.tag = some p) :
    s.runExport e policy src = match s.exportCheck e p with
      | .inl st => (s.policyUsed e.call.stall x.tag p).refuseExport e st
      | .inr e' => (s.policyUsed e.call.stall x.tag p).normPass e' src := by
  unfold State.runExport
  rw [hx, hd, hp]
  simp only [hcache, Option.isSome_some, if_true]
  rw [if_neg (not_not_intro rfl)]
  rfl

theorem ite_inl_eq_inr {α β : Type} {c : Prop} [Decidable c] {a : α} {b : β} {x : α ⊕ β} :
    (if c then Sum.inl a else x) = Sum.inr b ↔ ¬ c ∧ x = Sum.inr b := by
  split <;> simp_all

/-- An export that passes has its rule and class, and is otherwise the one asked for. -/
theorem State.exportCheck_passes {e e' : Export} {s : State} {p : Bytes} (h : s.exportCheck e p = .inr e') :
    ∃ r k, e' = { e with ruleBytes := r, classBytes := k } := by
  unfold State.exportCheck at h
  split at h
  · dsimp only at h
    generalize ite (leField (polRule p e.rule) 8 1 = 2) _ _ = k at h
    obtain ⟨-, h⟩ := ite_inl_eq_inr.mp h
    split at h
    · cases h
    · obtain ⟨-, h⟩ := ite_inl_eq_inr.mp h
      split at h
      · cases h
      · simp only [ite_inl_eq_inr, Sum.inr.injEq] at h
        obtain ⟨-, -, -, -, -, rfl⟩ := h
        exact ⟨_, k, rfl⟩
  · cases h

/-! ### The norm pass (R456 steps 2 to 4, R458) -/

/-- The Tollgate with an export that has its nonce and holds SRC and STAGE. -/
def Tol.exporting (e : Export) (t : Tol) : Tol :=
  { t with running := some e, hold := [(e.call.stall, e.src, e.len), (e.call.stall, e.stage, e.outLen)] }

section
variable {e : Export} {s : State} (hent : s.sbx.entropyOk = true)
include hent

/-- Without a finite CLIP nothing is read before the commit. -/
theorem State.normPass_unclipped (src : BufRead) (hg : (e.gradient && decide (e.clip ≠ fpInf)) = false) : ∃ sbx obs,
    s.normPass e src = { s with
      sbx, obs, fresh := s.fresh + 1, tol := s.tol.exporting { e with nonce := s.drawn 12, phase := 3 } } := by
  obtain ⟨ws, obs, hserved⟩ := s.entropyServed_eq e.call
  unfold State.normPass
  rw [State.withEntropy_served _ _ hent, hserved]
  have hg' : ¬ ((Export.gradient { e with nonce := s.drawn 12, phase := 2 } &&
    decide (Export.clip { e with nonce := s.drawn 12, phase := 2 } ≠ fpInf)) = true) := by
    rw [Bool.not_eq_true]
    exact hg
  exact ⟨_, _, if_pos hg'⟩

/-- Under a finite CLIP SRC is read: its sum of squares is kept, or a NaN or an infinity ends the export. -/
theorem State.normPass_clipped {b : Bytes} (hg : e.gradient = true) (hclip : e.clip ≠ fpInf) (hb : b.length = e.len) : ∃ sbx obs,
    s.normPass e (.ok b) =
      if (elements e.inBf16 b).any fpSpecial then ({ s with
        sbx, obs, fresh := s.fresh + 1, out := s.out ++ [.memRead e.call.stall e.src e.len]
        tol := s.tol.exporting { e with nonce := s.drawn 12, phase := 2 } } : State).refuseExport
          { e with nonce := s.drawn 12, phase := 2 } stTolNonfinite
      else { s with
        sbx, obs, fresh := s.fresh + 1, out := s.out ++ [.memRead e.call.stall e.src e.len]
        tol := s.tol.exporting { e with nonce := s.drawn 12, phase := 3, norm := normSum (elements e.inBf16 b) } } := by
  obtain ⟨ws, obs, hserved⟩ := s.entropyServed_eq e.call
  unfold State.normPass
  rw [State.withEntropy_served _ _ hent, hserved]
  have hg' : ¬ ¬ ((Export.gradient { e with nonce := s.drawn 12, phase := 2 } &&
    decide (Export.clip { e with nonce := s.drawn 12, phase := 2 } ≠ fpInf)) = true) := by
    rw [not_not, Bool.and_eq_true]
    exact ⟨hg, decide_eq_true hclip⟩
  have hread : (padTo e.len b).take e.len = b := take_padTo_of_length hb
  refine ⟨{ s.sbx with entropyWaits := ws }, obs.bump (ctrBooth 7) 1, ?_⟩
  refine (if_neg hg').trans ?_
  dsimp only
  rw [hread]
  rfl

end

/-! ### TOLL_COMMIT (R456 step 5, R463, R464) -/

/-- An owner's block with one export more, charged to class `c` where it pays. -/
def BudgetEntry.raised (pays : Bool) (c : Nat) (b : BudgetEntry) : BudgetEntry :=
  { seq := b.seq + 1, charged := if pays then (List.range 8).map fun i => b.n i + bit (decide (i = c)) else b.charged }

theorem BudgetEntry.raised_n (pays : Bool) {c : Nat} (b : BudgetEntry) (hc : c < 8) : (b.raised pays c).n c = b.n c + bit pays := by
  cases pays <;> simp [BudgetEntry.raised, BudgetEntry.n, bit, hc]

theorem StallData.budgetOf_setBudget {j : Nat} (b : BudgetEntry) (d : StallData) (hj : j < 8) : (d.setBudget j b).budgetOf j = b := by
  simp [StallData.setBudget, StallData.budgetOf, hj]

section
variable {s : State} {e : Export} (hr : s.tol.running = some e) (hp : e.phase = 3) (hq : s.alr.quiet = false) (hreset : s.rst.coreReset = none)
include hr hp hq hreset

/-- The charge is written into the Stall record, which is then awaited. -/
theorem execTollCommit_charges {d : StallData} {x : Stall} {p : Bytes} {pays : Bool} {c : Nat} (hseq : e.seq = 0)
    (hx : s.stall? e.call.stall = some x) (hd : s.stallData? e.call.stall = some d)
    (hcache : (s.tol.cache.find? fun x => x.1 = e.call.stall) = some (e.call.stall, x.tag, p))
    (hpays : pays = (e.gradient && polBudget p e.owner)) (hc : c = leField e.ruleBytes 10 1) : execTollCommit s =
    done (((s.begin.setStallData e.call.stall (d.setBudget e.owner ((d.budgetOf e.owner).raised pays c))).writeRecord e.call.stall).setExport
      { e with seq := (d.budgetOf e.owner).seq + 1, before := d.budgetOf e.owner }) := by
  have hd' : s.begin.stallData? e.call.stall = some d := hd
  have hnew : (s.begin.setStallData e.call.stall (d.setBudget e.owner ((d.budgetOf e.owner).raised pays c))).stallData? e.call.stall =
      some (d.setBudget e.owner ((d.budgetOf e.owner).raised pays c)) := (assocGet_assocSet ..).trans (if_pos rfl)
  have hpending : (((s.begin.setStallData e.call.stall (d.setBudget e.owner ((d.budgetOf e.owner).raised pays c))).writeRecord
      e.call.stall).setExport { e with seq := (d.budgetOf e.owner).seq + 1, before := d.budgetOf e.owner }).recordPending e.call.stall = true :=
    List.any_eq_true.mpr (State.writeRecord_pending (by exact hx) hnew)
  subst hpays hc
  unfold execTollCommit
  simp only [State.begin_tol, hr, State.begin_alr, State.begin_rst, hq, hreset, hp, hseq, hd', hcache, Option.map_some, Option.getD_some]
  rw [if_neg (by simp), if_neg (not_not_intro rfl)]
  exact if_pos hpending

/-- Once the record is anchored the export is past its commit point. -/
theorem execTollCommit_commits (hseq : e.seq ≠ 0) : ∃ obs sty alr, execTollCommit s = done { s with
    out := [], obs, sty, alr
    tol := if s.recordPending e.call.stall then s.tol
      else { s.tol with running := some { e with phase := 4 }, exports := satAdd 65535 s.tol.exports 1 } } := by
  unfold execTollCommit
  simp only [State.begin_tol, hr, State.begin_alr, State.begin_rst, hq, hreset, hp]
  rw [if_neg (by simp), if_pos hseq]
  by_cases hpending : s.recordPending e.call.stall = true
  · have hpending' : s.begin.recordPending e.call.stall = true := hpending
    refine ⟨s.obs, s.sty, s.alr, ?_⟩
    rw [if_pos hpending, if_pos hpending']
    rfl
  · have hpending' : ¬ s.begin.recordPending e.call.stall = true := hpending
    rw [if_neg hpending, if_neg hpending']
    simp only [State.begin_tol, hr]
    rw [State.meter_frame]
    exact ⟨_, _, _, rfl⟩

end

/-! ### TOLL_HANDOFF (R434, R456 steps 6 to 8, R462) -/

/-- What leaves in a main pass: the read of SRC, then `out` to STAGE and the header to HDR. -/
def State.passWrites (e : Export) (out : Bytes) (s : State) : List Out :=
  s.out ++ [.memRead e.call.stall e.src e.len] ++ s.rangeWrites e.call.stall e.stage out ++
    s.rangeWrites e.call.stall e.hdr (s.exportHeader e)

theorem State.passWrites_out (e : Export) (out : Bytes) (s : State) : s.passWrites e out =
    (((s.emit (.memRead e.call.stall e.src e.len)).writeRange e.call.stall e.stage out).writeRange e.call.stall e.hdr
      (s.exportHeader e)).out := by
  rw [State.writeRange_eq, State.writeRange_eq]
  rfl

/-- STAGE and the header written, an export waits while the lock is held. -/
theorem State.handoff_waits {e : Export} {v : State} (a h : Bytes) (stage hdr : Nat) (st : Nat) (hh : v.bth.holder.isSome = true) :
    (((v.writeRange st stage a).writeRange st hdr h).setExport e).takeLock e = { v with
      out := v.out ++ v.rangeWrites st stage a ++ v.rangeWrites st hdr h, tol := { v.tol with running := some e } } := by
  rw [State.writeRange_eq, State.writeRange_eq]
  exact if_pos (.inl hh)

/-- The main pass done while the Booth lock is held: the export waits for it. -/
theorem State.mainStage_waits {e : Export} {b out : Bytes} {s : State} (stalls : Nat) (hb : b.length = e.len)
    (hout : s.mainOutput e b = some out) (hh : s.bth.holder.isSome = true) : ∃ obs stalled n, s.mainStage e (.ok b) none true stalls = { s with
      out := s.passWrites e out, obs, fresh := s.fresh + n
      tol := { s.tol with samplerStall := stalled, running := some { e with header := s.exportHeader e, phase := 5 } } } ∧
      (e.gradient = false → n = 0) := by
  have hread : (padTo e.len b).take e.len = b := take_padTo_of_length hb
  have hout' : (s.emit (.memRead e.call.stall e.src e.len)).mainOutput e b = some out := hout
  unfold State.mainStage
  simp only [hread, hout', State.bump, not_true_eq_false, if_false]
  generalize hn : (if e.gradient = true then out.length / (if e.outBf16 = true then 2 else 4) else 0) = n
  generalize Obs.bump _ _ _ = obs
  generalize hv : State.mk .. = v
  have hheld : v.bth.holder.isSome = true := by subst hv; exact hh
  have hheader : v.exportHeader e = s.exportHeader e := by subst hv; rfl
  rw [hheader, State.handoff_waits out _ _ _ _ hheld]
  subst hv
  exact ⟨obs, _, n, rfl, fun hg => by rw [← hn, if_neg (by simp [hg])]⟩

/-- A read of SRC that fails ends the export. -/
theorem State.mainStage_failed (e : Export) (stageAt : Option Nat) (hdrOk : Bool) (stalls : Nat) {s : State} (hq : s.alr.quiet = false) :
    ∃ hlm alr obs, s.mainStage e .failed stageAt hdrOk stalls = { s with
      hlm, alr, obs, out := s.out ++ [.memRead e.call.stall e.src e.len], tol := s.tol.fails stTolMemory } ∧
      s.recorded { s with hlm } (e.call.record stTolMemory) := by
  obtain ⟨hlm, alr, obs, hdone, hrec⟩ := State.failExport_records e stTolMemory (s := s.emit (.memRead e.call.stall e.src e.len)) hq
  exact ⟨hlm, alr, obs, hdone, State.recorded_of_port rfl rfl hrec⟩

section
variable {s : State} {e : Export} (src : BufRead) (stageAt : Option Nat) (hdrOk : Bool) (stalls : Nat) (hr : s.tol.running = some e)
  (hq : s.alr.quiet = false)
include hr hq

/-- An export past its commit point goes through the main pass. -/
theorem execTollHandoff_passes (hp : e.phase = 4) (hent : e.gradient = false ∨ s.sbx.entropyOk = true) : ∃ sbx obs,
    execTollHandoff src stageAt hdrOk stalls s = done (({ s.begin with sbx, obs } : State).mainStage e src stageAt hdrOk stalls) := by
  have hstage : ¬ (e.phase = 5 ∧ ¬ s.begin.bth.tollgate = true) := fun h => by omega
  unfold execTollHandoff
  simp only [State.begin_tol, hr, State.begin_alr, hq, Bool.false_eq_true, if_false]
  rw [if_neg hstage, if_neg (not_not_intro hp)]
  by_cases hg : e.gradient = true
  · obtain ⟨ws, obs, hserved⟩ := s.begin.entropyServed_eq e.call
    rw [if_pos hg, State.withEntropy_served _ _ (by exact hent.resolve_left (by simp [hg])), hserved]
    exact ⟨_, _, rfl⟩
  · rw [if_neg hg]
    exact ⟨s.sbx, s.obs, rfl⟩

/-- An export that waits takes the free lock, and its operation runs. -/
theorem execTollHandoff_takes {k : KeyEntry} (hp : e.phase = 5) (ht : s.bth.tollgate = false) (hh : s.bth.holder = none)
    (hrun : s.bth.running = none) (hu : s.inUnitReset unitBooth = false) (hnet : s.sbx.zeroNet = false) (hok : s.boothCheck e.op = none)
    (hk : s.liveEntry? e.handle = some k) (hslot : (s.sbx.slotOf e.handle k.gen).isSome = true) : ∃ alr obs fifo urgent sty sbx,
    execTollHandoff src stageAt hdrOk stalls s = done { s with
      out := [], alr, obs, sty, sbx, hlm := { s.hlm with fifo := fifo, irqUrgent := urgent }
      bth := { s.bth with
        holder := some (0, e.call.stall), tollgate := true, queue := [], running := some e.op
        opsCount := satAdd 65535 s.bth.opsCount 1 } } := by
  obtain ⟨⟨n, q⟩, hn⟩ := Option.isSome_iff_exists.mp hslot
  have hu' : s.begin.inUnitReset unitBooth = false := hu
  have hplain : ∀ v : State, (v.hwNonce e.op && !e.op.hwNonce) = false := fun v => Bool.and_false _
  obtain ⟨alr, obs, fifo, urgent, sty, waits, hkick⟩ := State.kickBooth_runs (m := 0) (o := e.op) (e := k) (n := n) (k := q)
    (s := { s.begin with bth := { s.bth with holder := some (0, e.call.stall), tollgate := true, queue := [e.op] } }) rfl hrun hnet hq hu hok hk
    hn (.inl (hplain _))
  have hdrawn : ∀ v : State, v.ivDrawn e.op = e.op := fun v => if_neg (by rw [hplain v]; exact Bool.false_ne_true)
  rw [hdrawn, hplain] at hkick
  refine ⟨alr, obs, fifo, urgent, sty, _, Eq.trans ?_ (congrArg done hkick)⟩
  unfold execTollHandoff
  simp only [State.begin_tol, hr, State.begin_alr, hq, Bool.false_eq_true, if_false, State.begin_bth, ht, hp]
  rw [if_pos (by simp)]
  unfold State.takeLock
  simp only [State.begin_bth, hh, hrun, hu', Option.isSome_none, Bool.false_eq_true, or_self, if_false]
  rfl

end

/-! ### TOLL_EXPORT_COMPLETE (R456 step 9) -/

/-- What the handoff's operation makes of STAGE, with the header as its AAD. -/
theorem BoothOp.result_sealed {o : BoothOp} {io : BoothIo} {data : Bytes} (key : Bytes) (hh : o.header.isSome = true) (hm : o.mode = 0)
    (hd : o.decrypt = false) (hs : io.src = .ok data) (hl : data.length = o.len) : o.result key io =
    { status := stOk, dst := o.output key data, tag := some (o.tagOf key (o.header.getD []) data), tagOk := false, dnt := false } := by
  obtain ⟨h, hh⟩ := Option.isSome_iff_exists.mp hh
  have hm' : ¬ (o.mode = 1 ∨ o.mode = 2) := by omega
  unfold BoothOp.result
  simp only [hs, hh, take_padTo_of_length hl, if_neg hm', hd, Bool.false_eq_true, not_false_eq_true, if_true, Option.getD_some]

theorem execTollExportComplete_ends {s : State} {io : BoothIo} {o : BoothOp} {e : Export} {r : BoothEnd} (h : s.handsOff o e)
    (hr : (o.result (s.boothKey o) io).written io = r) : ∃ hlm alr obs sbx, execTollExportComplete io s = done { s with
      out := (s.begin.boothWrites o r).out, hlm, alr, obs, sbx, tol := { s.tol with running := none, hold := [] }
      bth := (s.bth.ended s.clk.elapsed (bit (decide (r.status = stBthTag)))).unlocked } ∧
      s.recorded { s with hlm }
        { e.call.record r.status with doNotTrust := r.dnt, result := (padTo 12 e.nonce).take 12 ++ leBytes 8 e.seq } := by
  obtain ⟨hrun, hexport, hheader, hquiet, hdestroys⟩ := h
  obtain ⟨obs, hend⟩ := s.begin.endBooth_ends o r
  have hr' : (o.result (s.begin.boothKey o) io).written io = r := hr
  obtain ⟨hlm, alr, obs', hdone, hrec⟩ := State.complete_issues
    { e.call.record r.status with doNotTrust := r.dnt, result := (padTo 12 e.nonce).take 12 ++ leBytes 8 e.seq }
    (s := { s.begin.boothEnded o r obs with
      tol := { s.tol with running := none, hold := [] }, bth := (s.begin.boothEnded o r obs).bth.unlocked }) hquiet
  refine ⟨hlm, alr, obs', { s.sbx with slots := s.sbx.slots.map (slotIdle o.handle) }, ?_, State.recorded_of_port rfl rfl hrec⟩
  unfold execTollExportComplete
  simp only [State.begin_bth, hrun, State.begin_tol, hexport, State.begin_alr, hquiet, hr', hend]
  rw [if_neg (by simp [Option.isNone_eq_false_iff.mpr hheader])]
  refine congrArg done (Eq.trans (congrArg State.settleDestroys hdone) ?_)
  rw [State.settleDestroys_none (by exact hdestroys)]
  rfl

/-! ### The statement -/

section
variable {s : State} {c : Call} {rule owner outFmt cls handle src len stage dst hdr tag addr : Nat} {policy b : BufRead} {x : Stall}
  {d : StallData} {p : Bytes} {e : Export} (hc : s.admits c 0x0902) (hr : s.tol.running = none) (hu : s.inUnitReset unitTollgate = false)
  (hq : s.tol.queue = []) (hx : s.stall? c.stall = some x) (hd : s.stallData? c.stall = some d)
  (hp : assocGet c.stall s.tol.policies = some (addr, x.tag)) (hcache : s.policyOf c.stall x.tag = some p)
  (he : e = exportOf c rule owner outFmt cls handle src len stage dst hdr tag)
include hc hr hu hq hx hd hp hcache he

/-- An export under a cached policy is checked. -/
theorem execTollExport_checked : ∃ tol, execTollExport c rule owner outFmt cls handle src len stage dst hdr tag policy b s =
    done (match s.exportCheck e p with
      | .inl st => ({ s.begin with tol } : State).refuseExport e st
      | .inr e' => ({ s.begin with tol } : State).normPass e' b) ∧ tol.refused = s.tol.refused := by
  have hcall : e.call.stall = c.stall := by rw [he]; rfl
  rw [← hcall] at hx hd hp hcache
  have hexec := execTollExport_begins policy b hc hr hu hq he
  rw [State.runExport_cached (s := s.begin.setExport e) policy b hx hd hp hcache] at hexec
  exact ⟨_, hexec, rfl⟩

/-- One that passes is the export asked for, under its rule. -/
theorem execTollExport_passes {e' : Export} (hok : s.exportCheck e p = .inr e') : ∃ tol,
    execTollExport c rule owner outFmt cls handle src len stage dst hdr tag policy b s =
      done (({ s.begin with tol } : State).normPass e' b) ∧ e'.call = c ∧ e'.src = src ∧ e'.len = len ∧ e'.stage = stage := by
  obtain ⟨tol, hexec, -⟩ := execTollExport_checked (policy := policy) (b := b) hc hr hu hq hx hd hp hcache he
  obtain ⟨r, k, he'⟩ := State.exportCheck_passes hok
  rw [hok] at hexec
  subst he he'
  exact ⟨tol, hexec, rfl, rfl, rfl, rfl⟩

end

/-- Settles O51: each clause composes the steps its export goes through. -/
theorem tollExports : Obligations.TollExports := by
  refine ⟨?queued, ?noPolicy, ?refused, ?weight, ?gradient, ?special, ?charged, ?committed, ?copied, ?noised, ?unread, ?locked, ?ended⟩
  case queued =>
    intro s c rule owner outFmt cls handle src len stage dst hdr tag policy b r hc hr hrc hq hlen
    exact ⟨_, execTollExport_queues policy b hc hr hrc hq hlen, List.map_append, rfl⟩
  case noPolicy =>
    intro s c rule owner outFmt cls handle src len stage dst hdr tag policy b hc hr hu hq hp
    have hexec := execTollExport_begins policy b hc hr hu hq (rfl : exportOf c rule owner outFmt cls handle src len stage dst hdr tag = _)
    rw [State.runExport_noPolicy (s := s.begin.setExport _) policy b (by exact hp)] at hexec
    obtain ⟨hlm, alr, obs, hdone, hrec⟩ := State.refuseExport_records (exportOf c rule owner outFmt cls handle src len stage dst hdr tag)
      stTolNopolicy (s := s.begin.setExport (exportOf c rule owner outFmt cls handle src len stage dst hdr tag)) hc.1.2.2
    exact ⟨_, hexec.trans (congrArg done hdone), State.recorded_of_port rfl rfl hrec, rfl, rfl, rfl, rfl⟩
  case refused =>
    intro s c rule owner outFmt cls handle src len stage dst hdr tag addr st policy b x d p e hc hr hu hq hx hd hp hcache he hst
    obtain ⟨tol, hexec, hrefused⟩ := execTollExport_checked (policy := policy) (b := b) hc hr hu hq hx hd hp hcache he
    rw [hst] at hexec
    obtain ⟨hlm, alr, obs, hdone, hrec⟩ := State.refuseExport_records e st (s := { s.begin with tol }) hc.1.2.2
    have hcall : e.call = c := by rw [he]; rfl
    rw [hcall] at hrec
    exact ⟨_, hexec.trans (congrArg done hdone), State.recorded_of_port rfl rfl hrec, rfl, rfl,
      congrArg (satAdd 65535 · 1) hrefused, rfl⟩
  case weight =>
    intro s c rule owner outFmt cls handle src len stage dst hdr tag addr policy b x d p e e' hc hr hu hq hx hd hp hcache he hok hg hent
    obtain ⟨tol, hexec, hcall, hsrc, hlen, hstage⟩ := execTollExport_passes (policy := policy) (b := b) hc hr hu hq hx hd hp hcache he hok
    obtain ⟨sbx, obs, hnorm⟩ := State.normPass_unclipped (e := e') (s := { s.begin with tol }) hent b (by rw [hg]; rfl)
    subst hcall hsrc hlen hstage
    exact ⟨_, hexec.trans (congrArg done hnorm), rfl, rfl, rfl, rfl, rfl, rfl, rfl, rfl, rfl⟩
  case gradient =>
    intro s c rule owner outFmt cls handle src len stage dst hdr tag addr policy x d p b e e' xs hc hr hu hq hx hd hp hcache he hok hg hclip hent
      hb hxs hfinite
    obtain ⟨tol, hexec, hcall, hsrc, hlen, hstage⟩ := execTollExport_passes (policy := policy) (b := .ok b) hc hr hu hq hx hd hp hcache he hok
    subst hcall hsrc hlen hstage
    obtain ⟨sbx, obs, hnorm⟩ := State.normPass_clipped (e := e') (s := { s.begin with tol }) hent hg hclip hb
    rw [← hxs, if_neg (by rw [hfinite]; exact Bool.false_ne_true)] at hnorm
    exact ⟨_, hexec.trans (congrArg done hnorm), rfl, rfl, rfl, rfl, rfl, rfl, rfl⟩
  case special =>
    intro s c rule owner outFmt cls handle src len stage dst hdr tag addr policy x d p b e e' xs hc hr hu hq hx hd hp hcache he hok hg hclip hent
      hb hxs hspecial
    obtain ⟨tol, hexec, hcall, hsrc, hlen, hstage⟩ := execTollExport_passes (policy := policy) (b := .ok b) hc hr hu hq hx hd hp hcache he hok
    subst hcall hsrc hlen hstage
    obtain ⟨sbx, obs, hnorm⟩ := State.normPass_clipped (e := e') (s := { s.begin with tol }) hent hg hclip hb
    rw [← hxs, if_pos hspecial] at hnorm
    generalize hw : State.mk .. = w at hexec hnorm
    generalize hv : State.mk .. = v at hnorm
    have hquiet : v.alr.quiet = false := by subst hv hw; exact hc.1.2.2
    obtain ⟨hlm, alr, obs', hdone, hrec⟩ := State.refuseExport_records { e' with nonce := w.drawn 12, phase := 2 } stTolNonfinite hquiet
    refine ⟨_, hexec.trans (congrArg done (hnorm.trans hdone)), ?_⟩
    subst hv hw
    exact ⟨rfl, rfl, State.recorded_of_port rfl rfl hrec, rfl, rfl, rfl⟩
  case charged =>
    intro s e d x p pays c hr hp hq hreset hseq hx hd hcache hpays hc howner hclass
    have hexec := execTollCommit_charges hr hp hq hreset hseq hx hd hcache hpays hc
    generalize hu : s.begin.setStallData _ _ = u at hexec
    have hux : u.stall? e.call.stall = some x := by subst hu; exact hx
    have hud : u.stallData? e.call.stall = some (d.setBudget e.owner ((d.budgetOf e.owner).raised pays c)) := by
      subst hu
      exact (assocGet_assocSet ..).trans (if_pos rfl)
    have hpending : (u.writeRecord e.call.stall).recordPending e.call.stall = true := List.any_eq_true.mpr (State.writeRecord_pending hux hud)
    obtain ⟨sha, out, fresh, hw⟩ := State.writeRecord_tables hux hud
    generalize u.writeRecord e.call.stall = w at hexec hpending hw
    have hdata : w.stallData? e.call.stall = some { d.setBudget e.owner ((d.budgetOf e.owner).raised pays c) with recordDigest := sha } :=
      (congrArg (fun l : Stl => assocGet e.call.stall l.data) (congrArg State.stl hw)).trans (Stl.recorded_data ..)
    have hbudget : StallData.budgetOf { d.setBudget e.owner ((d.budgetOf e.owner).raised pays c) with recordDigest := sha } e.owner =
        (d.budgetOf e.owner).raised pays c := StallData.budgetOf_setBudget _ d howner
    refine ⟨_, hexec, ?_, ?_, ?_, (congrArg State.hlm hw).trans ?_, (congrArg State.bth hw).trans ?_, (congrArg State.mse hw).trans ?_⟩
    · exact (congrArg (Option.map _) hdata).trans (by rw [Option.map_some, hbudget]; rfl)
    · exact (congrArg (Option.map _) hdata).trans (by rw [Option.map_some, hbudget, BudgetEntry.raised_n _ _ hclass])
    · have hphase : (if (w.setExport { e with seq := (d.budgetOf e.owner).seq + 1, before := d.budgetOf e.owner }).recordPending e.call.stall
          then 3 else 4) = e.phase := (if_pos hpending).trans hp.symm
      rw [hphase]
      rfl
    all_goals subst hu; rfl
  case committed =>
    intro s e hr hp hq hreset hseq
    obtain ⟨obs, sty, alr, hexec⟩ := execTollCommit_commits hr hp hq hreset hseq
    exact ⟨_, hexec, rfl, rfl, rfl, rfl⟩
  case copied =>
    intro s e b h stalls hr hp hq hg hb hh hhdr
    obtain ⟨sbx, obs, hexec⟩ := execTollHandoff_passes (.ok b) none true stalls hr hq hp (.inl hg)
    obtain ⟨obs', stalled, n, hpass, hn⟩ := State.mainStage_waits (e := e) (b := b) (out := b) (s := { s.begin with sbx, obs }) stalls hb
      (if_pos (by rw [hg]; exact Bool.false_ne_true)) hh
    subst hhdr
    rw [hn hg] at hpass
    exact ⟨_, hexec.trans (congrArg done hpass), State.passWrites_out e b s.begin, rfl, rfl, rfl, rfl, rfl⟩
  case noised =>
    intro s e b out stalls xs hr hp hq hent hg hb hh hxs hfinite hout
    obtain ⟨sbx, obs, hexec⟩ := execTollHandoff_passes (.ok b) none true stalls hr hq hp (.inr hent)
    obtain ⟨obs', stalled, n, hpass, -⟩ := State.mainStage_waits (e := e) (b := b) (out := out) (s := { s.begin with sbx, obs }) stalls hb
      (by
        rw [State.mainOutput, if_neg (not_not_intro hg), ← hxs, hout]
        exact if_neg (by rw [hfinite]; exact Bool.false_ne_true)) hh
    exact ⟨_, hexec.trans (congrArg done hpass), State.passWrites_out e out s.begin, rfl, rfl, rfl, rfl⟩
  case unread =>
    intro s e stageAt hdrOk stalls hr hp hq hent
    obtain ⟨sbx, obs, hexec⟩ := execTollHandoff_passes .failed stageAt hdrOk stalls hr hq hp (.inr hent)
    obtain ⟨hlm, alr, obs', hdone, hrec⟩ := State.mainStage_failed e stageAt hdrOk stalls (s := { s.begin with sbx, obs }) hq
    exact ⟨_, hexec.trans (congrArg done hdone), State.recorded_of_port rfl rfl hrec, rfl, rfl, rfl, rfl⟩
  case locked =>
    intro s e k src stageAt hdrOk stalls hr hp hq ht hh hrun hu hnet hok hk hslot
    obtain ⟨alr, obs, fifo, urgent, sty, sbx, hexec⟩ := execTollHandoff_takes src stageAt hdrOk stalls hr hq hp ht hh hrun hu hnet hok hk hslot
    exact ⟨_, hexec, rfl, rfl, rfl, rfl, rfl, rfl⟩
  case ended =>
    intro s io o e data ct tag h hm hd hs hl hf hct htag hnonce
    have he := (BoothEnd.written_all (e := o.result (s.boothKey o) io) hf).trans (BoothOp.result_sealed (s.boothKey o) h.2.2.1 hm hd hs hl)
    rw [← hct, ← htag] at he
    obtain ⟨hlm, alr, obs, sbx, hexec, hrec⟩ := execTollExportComplete_ends h he
    rw [take_padTo_of_length hnonce] at hrec
    exact ⟨_, hexec, rfl, State.recorded_of_port rfl rfl hrec, rfl, rfl, rfl, rfl, rfl⟩

end Sys2Proof.Machine


/-!
The Beacon, the counter banks and the per-Stall sets (O52).

An access counts itself in counters 12 and 13 when it is answered (`Obs.answered`); beside those two, what a write did to the observability
state stands in the state it leaves.
-/

namespace Sys2Proof.Machine

/-! ### Tables and counters (R548) -/

/-- A table without the keys that fail a test. -/
theorem assocGet_filter {β : Type} (q : Nat → Bool) (k : Nat) (l : List (Nat × β)) :
    assocGet k (l.filter fun p => q p.1) = if q k then assocGet k l else none := by
  induction l with
  | nil => simp [assocGet]
  | cons p l ih =>
    obtain ⟨j, v⟩ := p
    by_cases hjk : j = k
    · subst hjk
      cases hq : q j <;> simp [hq, assocGet, ih]
    · cases hq : q j <;> simp [hq, assocGet, ih, hjk]

theorem assocGet_table {β : Type} (f : Nat → β) {k : Nat} {l : List Nat} (h : k ∈ l) : assocGet k (l.map fun i => (i, f i)) = some (f k) := by
  induction l with
  | nil => cases h
  | cons i l ih =>
    by_cases hik : i = k
    · simp [assocGet, hik]
    · simpa [assocGet, hik] using ih ((List.mem_cons.mp h).resolve_left (Ne.symm hik))

theorem Obs.bump_frame (n k : Nat) (o : Obs) : ∃ cs, o.bump n k = { o with counters := cs } := by
  unfold Obs.bump
  split
  · exact ⟨o.counters, rfl⟩
  · exact ⟨_, rfl⟩

theorem Obs.counter_bump {m n : Nat} (k : Nat) (o : Obs) (h : m ≠ n) : (o.bump n k).counter m = o.counter m := by
  unfold Obs.bump
  split
  · rfl
  · unfold Obs.counter
    dsimp only
    split
    · rw [show assocDel n o.counters = o.counters.filter fun p => decide (p.1 ≠ n) from rfl, assocGet_filter (fun j => decide (j ≠ n)),
        if_pos (decide_eq_true h)]
    · rw [assocGet_assocSet, if_neg (Ne.symm h)]

/-- The counters once an access is answered (R554). -/
def Obs.answered (o : Obs) : Obs := (o.bump 12 1).bump 13 0

theorem Obs.answered_frame (o : Obs) : ∃ cs, o.answered = { o with counters := cs } := by
  obtain ⟨cs, h⟩ := o.bump_frame 12 1
  obtain ⟨cs', h'⟩ := (o.bump 12 1).bump_frame 13 0
  exact ⟨cs', h'.trans (by rw [h])⟩

theorem Obs.answered_counter {n : Nat} (o : Obs) (h12 : n ≠ 12) (h13 : n ≠ 13) : o.answered.counter n = o.counter n :=
  (Obs.counter_bump 0 _ h13).trans (Obs.counter_bump 1 o h12)

/-- An access that changes the observability state alone is answered with 0. -/
theorem State.regAnswer_obs {s t : State} (fn : Nat) {o : Obs} (h : t = { s with out := [], obs := o }) :
    t.regAnswer (some fn) false 0 = { s with out := [.reg false 0], obs := o.answered } := by
  subst h
  rfl

/-- A record leaves the observability state but counters. -/
theorem State.complete_counts (r : Completion) (s : State) : ∃ cs, (s.complete r).obs = { s.obs with counters := cs } := by
  unfold State.complete
  dsimp only
  split
  · exact ⟨s.obs.counters, rfl⟩
  · split
    · exact s.obs.bump_frame 5 1
    · obtain ⟨cs, h⟩ := s.obs.bump_frame 5 1
      obtain ⟨cs', h'⟩ := (s.obs.bump 5 1).bump_frame (2304 + 16 * (s.obs.bump 5 1).setOf r.call.stall + 15) 1
      exact ⟨cs', h'.trans (by rw [h])⟩

/-! ### XS_OBS_BEACON (R557, R559) -/

section
variable {s : State} {fn : Nat}

theorem execBeaconNow_granted (hg : s.grants fn true 0x0D0014) :
    execBeaconNow fn s = done (s.begin.beaconNow.regAnswer (some fn) false 0) := by
  obtain ⟨v, hv⟩ : ∃ v, s.readReg fn 0x0D0014 = some v := ⟨_, rfl⟩
  rw [execBeaconNow, State.begin_regWrite_granted 1 hg hv rfl]
  rfl

theorem execBeaconRelease_granted (hg : s.grants fn true 0x0D0014) :
    execBeaconRelease fn s = done (s.begin.releaseBeacon.regAnswer (some fn) false 0) := by
  obtain ⟨v, hv⟩ : ∃ v, s.readReg fn 0x0D0014 = some v := ⟨_, rfl⟩
  rw [execBeaconRelease, State.begin_regWrite_granted 2 hg hv rfl]
  rfl

/-- XS_OBS_CLEAR with GO clears the bank it names. -/
theorem execCounterBankClear_granted {bank : Nat} (hg : s.grants fn true 0x0D0010) (hb : bank < 16) :
    execCounterBankClear fn bank s = done { s with out := [.reg false 0], obs := (s.obs.clearBank bank).answered } := by
  obtain ⟨v, hv⟩ : ∃ v, s.readReg fn 0x0D0010 = some v := ⟨_, rfl⟩
  rw [execCounterBankClear, State.begin_regWrite_granted _ hg hv rfl, Nat.mod_eq_of_lt hb]
  have hgo : (BitVec.ofNat 32 (bank + 16)).getLsbD 4 = true := by
    rw [BitVec.getLsbD_ofNat]
    interval_cases bank <;> rfl
  have hbank : (BitVec.ofNat 32 (bank + 16)).toNat % 16 = bank := by
    rw [BitVec.toNat_ofNat]
    omega
  have hwrite : s.begin.writeReg (some fn) 0x0D0010 (BitVec.ofNat 32 (bank + 16)) = { s with out := [], obs := s.obs.clearBank bank } := by
    refine (if_pos hgo).trans ?_
    rw [hbank]
    rfl
  exact congrArg done (State.regAnswer_obs fn hwrite)

end

/-! ### Banks cleared (R550, R551) -/

theorem Obs.clearBank_clears (b : Nat) {o : Obs} (h : o.bankFault.getLsbD b = false) : o.clearBank b = { o with
    counters := o.counters.filter fun p => decide (p.1 / 256 ≠ b), invalid := o.invalid.filter fun n => n / 256 ≠ b } :=
  if_neg (by rw [h]; exact Bool.false_ne_true)

theorem Obs.counter_clearBank (b n : Nat) (o : Obs) (h : o.bankFault.getLsbD b = false) :
    (o.clearBank b).counter n = if n / 256 = b then 0 else o.counter n := by
  rw [Obs.clearBank_clears b h]
  unfold Obs.counter
  rw [assocGet_filter (fun k => decide (k / 256 ≠ b))]
  by_cases hn : n / 256 = b <;> simp [hn]

/-! ### XS_OBS_TRACK (R555, R567) -/

/-- The counters of a per-Stall set. -/
def inSet (k n : Nat) : Bool := decide ((n - 2304) / 16 = k ∧ 2304 ≤ n)

theorem inSet_member {k n : Nat} (hn : n < 16) : inSet k (2304 + 16 * k + n) = true := by
  refine decide_eq_true ⟨?_, by omega⟩
  rw [show 2304 + 16 * k + n - 2304 = 16 * k + n by omega]
  omega

theorem Obs.clearSet_eq {k : Nat} {o : Obs} (h : o.bankFault.getLsbD ((2304 + 16 * k) / 256) = false) : o.clearSet k = { o with
    counters := o.counters.filter fun p => !inSet k p.1, invalid := o.invalid.filter fun n => !inSet k n } :=
  if_neg (by rw [h]; exact Bool.false_ne_true)

/-- A set that is cleared reads 0 and VALID. -/
theorem Obs.clearSet_clears {k n : Nat} {o : Obs} (h : o.bankFault.getLsbD ((2304 + 16 * k) / 256) = false) (hn : n < 16) :
    (o.clearSet k).counter (2304 + 16 * k + n) = 0 ∧ (o.clearSet k).invalid.contains (2304 + 16 * k + n) = false := by
  rw [Obs.clearSet_eq h]
  constructor
  · unfold Obs.counter
    rw [assocGet_filter (fun j => !inSet k j), inSet_member hn]
    rfl
  · rw [List.contains_eq_mem, decide_eq_false_iff_not, List.mem_filter, inSet_member hn]
    simp

theorem indexed_nth {base step n k : Nat} (hs : 0 < step) (hk : k < n) : indexed base step n (base + step * k) = some k := by
  unfold indexed
  rw [Nat.add_sub_cancel_left, Nat.mul_div_cancel_left k hs]
  exact if_pos ⟨Nat.le_add_right .., Nat.add_lt_add_left (Nat.mul_lt_mul_of_pos_left hk hs) base, Nat.mul_mod_right ..⟩

/-- The word of a write that names a Stall to be tracked. -/
theorem trackWord_fields {stall : Nat} (h : stall < 4096) :
    (BitVec.ofNat 32 (stall + 2 ^ 31)).toNat % 4096 = stall ∧ (BitVec.ofNat 32 (stall + 2 ^ 31)).getLsbD 31 = true := by
  constructor
  · rw [BitVec.toNat_ofNat]
    omega
  · rw [BitVec.getLsbD_ofNat, Nat.testBit_eq_decide_div_mod_eq]
    have : (stall + 2 ^ 31) / 2 ^ 31 = 1 := by omega
    rw [this]
    rfl

section
variable {s : State} {k : Nat} (hlo : 1 ≤ k) (hhi : k ≤ 62)
include hlo hhi

/-- XS_OBS_TRACK(t) is a register of window 0x0D. -/
theorem State.readReg_track (fn : Nat) : ∃ v, s.readReg fn (0x0D0100 + 4 * k) = some v := by
  have hwindow : (0x0D0100 + 4 * k) / 2 ^ 16 = 0x0D := by omega
  have hoff : (0x0D0100 + 4 * k) % 2 ^ 16 = 0x100 + 4 * k := by omega
  have hpair : ∀ a, 0x0D0100 ≤ a → a < 0x110000 → s.pairValue a = none := fun a hl hh => by
    refine Option.not_isSome_iff_eq_none.mp fun h => ?_
    have hmem := State.pairValue_mem h
    simp only [loAddresses, List.mem_cons, List.not_mem_nil, or_false] at hmem
    omega
  have hindexed : indexed 0x100 4 64 (0x100 + 4 * k) = some k := indexed_nth (by decide) (by omega)
  have hother : indexed 0x40 4 4 (0x100 + 4 * k) = none ∧ indexed 0x54 4 6 (0x100 + 4 * k) = none :=
    ⟨if_neg (by omega), if_neg (by omega)⟩
  have hread : ∃ v, s.readObs (0x100 + 4 * k) = some v := by
    unfold State.readObs
    dsimp only
    split
    case h_10 => rw [hother.1, hother.2, hindexed]; exact ⟨_, rfl⟩
    all_goals omega
  obtain ⟨v, hv⟩ := hread
  refine ⟨v, ?_⟩
  unfold State.readReg
  rw [hwindow, if_neg (by exact not_not_intro rfl), hpair _ (by omega) (by omega), hpair _ (by omega) (by omega)]
  unfold State.readSingle
  simp only [hwindow, hoff]
  exact hv

/-- XS_OBS_TRACK(t) written changes the observability state alone. -/
theorem execObsTrackWrite_granted {fn stall : Nat} (hg : s.grants fn true (0x0D0100 + 4 * k)) (hstall : stall < 4096) :
    execObsTrackWrite fn k stall true s = done { s with
      out := [.reg false 0], obs := (s.obs.writeTrack k (BitVec.ofNat 32 (stall + 2 ^ 31))).answered } := by
  obtain ⟨v, hv⟩ := State.readReg_track (s := s) hlo hhi fn
  have hk : k % 64 = k := Nat.mod_eq_of_lt (by omega)
  have hwindow : (0x0D0100 + 4 * k) / 2 ^ 16 = 0x0D := by omega
  have hoff : (0x0D0100 + 4 * k) % 2 ^ 16 = 0x100 + 4 * k := by omega
  have hindexed : indexed 0x100 4 64 (0x100 + 4 * k) = some k := indexed_nth (by decide) (by omega)
  have hwrite : ∀ w, s.begin.writeReg (some fn) (0x0D0100 + 4 * k) w = { s with out := [], obs := s.obs.writeTrack k w } := fun w => by
    unfold State.writeReg
    simp only [hwindow, hoff]
    unfold State.writeObs
    split
    case h_7 => rw [hindexed]; rfl
    all_goals omega
  rw [execObsTrackWrite, hk, State.begin_regWrite_granted _ hg hv (decide_eq_false (by omega)), Nat.mod_eq_of_lt hstall]
  exact congrArg done (State.regAnswer_obs fn (hwrite _))

end

/-! ### The freeze (R556 to R559, R563) -/

theorem State.freeze_ring {k src : Nat} {late : Bool} (s : State) (hk : k < 84) : (s.freeze src late).ring k = s.frozenRing k :=
  congrArg (Option.getD · Ring.fresh) (assocGet_table s.frozenRing (List.mem_range.mpr hk))

theorem execBeaconFreeze_due {s : State} {src : Nat} (hs : s.mon.stop = none) (hd : s.obs.freezeDue = some src) :
    execBeaconFreeze s = done (s.begin.freeze src false) := by
  unfold execBeaconFreeze
  simp only [State.begin_mon, hs, State.begin_obs, hd, Option.isSome_none, Bool.false_eq_true, if_false]

/-- The armed time has come: the freeze ends the command that armed it. -/
theorem execBeaconFreeze_armed {s : State} {c : Call} (hs : s.mon.stop = none) (hd : s.obs.freezeDue = none) (ha : s.obs.armed = true)
    (hset : s.obs.armTime ≠ 0) (hcome : s.obs.armTime ≤ s.clk.domain) (hc : s.obs.armCall = [c]) (hh : s.obs.held = false) :
    ∃ late, execBeaconFreeze s = done ((({ s.begin with obs := { s.obs with
      armed := false, armTime := 0, armCall := [], armLate := false } } : State).freeze 1 late).finishOk c (leBytes 8 s.clk.domain)) := by
  have hd' : s.begin.obs.freezeDue = none := hd
  have hdue : s.begin.obs.armed = true ∧ s.begin.obs.armTime ≠ 0 ∧ s.begin.obs.armTime ≤ s.begin.clk.domain := ⟨ha, hset, hcome⟩
  unfold execBeaconFreeze
  simp only [State.begin_mon, hs, hd', Option.isSome_none, Bool.false_eq_true, if_false]
  rw [if_pos hdue]
  unfold State.fireArmed
  simp only [State.begin_obs, hh, hc, Bool.false_eq_true, if_false, List.foldl_cons, List.foldl_nil]
  exact ⟨_, rfl⟩

theorem execBeaconSet_judged {s : State} {c : Call} (at_ : Nat) (hc : s.admits c 0x0C02) (hnew : s.obs.armCall.contains c = false) :
    execBeaconSet c at_ s = done (if s.obs.held ∨ s.obs.armed then s.begin.finish c stPolicy else { s.begin with obs := { s.obs with
      armed := true, armTime := at_, armCall := [c], armLate := decide (at_ ≠ 0 ∧ at_ < s.clk.domain) } }) := by
  rw [execBeaconSet, if_neg (by rw [hnew]; exact Bool.false_ne_true), State.command_run hc]
  rfl

/-! ### COUNTER_BANK_SOUNDING_DONE (R534) -/

/-- A bank whose test has ended: every counter of it is INVALID, and a fault holds it. -/
def Obs.bankTested (b : Nat) (fault : Bool) (o : Obs) : Obs :=
  { o with
    invalid := (o.invalid.filter fun n => n / 256 < b) ++ (List.range 256).map (· + 256 * b) ++ o.invalid.filter fun n => b < n / 256
    bankFault := if fault then setBit o.bankFault b else o.bankFault
    testing := o.testing &&& ~~~BitVec.ofNat 16 (2 ^ b) }

theorem execCounterBankSoundingDone_tested {s : State} {counter b : Nat} (fault : Bool) (hlt : counter < 4096) (hb : b = counter / 256)
    (hh : s.obs.bankFault.getLsbD b = false) : execCounterBankSoundingDone counter fault s =
    done (let u := ({ s.begin with obs := s.obs.bankTested b fault } : State).sounding unitObs 3 (if fault then 1 else 2)
      if fault then u.event evCtrBankFault unitObs none b 0 else u) := by
  subst hb
  rw [execCounterBankSoundingDone, Nat.mod_eq_of_lt hlt]
  exact congrArg done (if_neg (by rw [show s.begin.obs.bankFault.getLsbD (counter / 256) = false from hh]; exact Bool.false_ne_true))

theorem execCounterBankSoundingDone_held {s : State} {counter : Nat} (fault : Bool)
    (h : s.obs.bankFault.getLsbD (counter % 4096 / 256) = true) : execCounterBankSoundingDone counter fault s = done s.begin :=
  congrArg done (if_pos h)

theorem Obs.bankTested_invalid {b n : Nat} (fault : Bool) (o : Obs) (h : n / 256 = b) :
    (o.bankTested b fault).invalid.contains n = true := by
  have hn : n ∈ (List.range 256).map (· + 256 * b) := List.mem_map.mpr ⟨n % 256, List.mem_range.mpr (Nat.mod_lt _ (by decide)), by omega⟩
  simp only [Obs.bankTested, List.contains_eq_mem, List.mem_append, decide_eq_true_eq]
  exact .inl (.inr hn)

theorem Obs.bankTested_testing {b : Nat} (fault : Bool) (o : Obs) (h : b < 16) : (o.bankTested b fault).testing.getLsbD b = false := by
  have hbit : (BitVec.ofNat 16 (2 ^ b)).getLsbD b = true := by
    rw [BitVec.getLsbD_ofNat, Nat.testBit_two_pow_self]
    simp [h]
  show (o.testing &&& ~~~BitVec.ofNat 16 (2 ^ b)).getLsbD b = false
  rw [BitVec.getLsbD_and, BitVec.getLsbD_not, hbit]
  simp

theorem Obs.bankTested_fault {b : Nat} (fault : Bool) (o : Obs) (h : b < 16) (hh : o.bankFault.getLsbD b = false) :
    (o.bankTested b fault).bankFault.getLsbD b = fault := by
  have hbit : (BitVec.ofNat 16 (2 ^ b)).getLsbD b = true := by
    rw [BitVec.getLsbD_ofNat, Nat.testBit_two_pow_self]
    simp [h]
  cases fault
  · exact hh
  · show (o.bankFault ||| BitVec.ofNat 16 (2 ^ b)).getLsbD b = true
    rw [BitVec.getLsbD_or, hbit, Bool.or_true]

/-! ### The statement -/

/-- Settles O52: an access leaves what it wrote, answered; a freeze and a test their own state. -/
theorem beaconAndCounterBanks : Obligations.BeaconAndCounterBanks := by
  refine ⟨?now, ?missed, ?release, ?stopped, ?freeze, ?arms, ?held, ?fires, ?clears, ?faulty, ?sounded,
    fun s counter fault h => execCounterBankSoundingDone_held fault h, ?tracks, ?elsewhere⟩
  case now =>
    intro s fn hg hh
    have hnow : s.begin.beaconNow = { s with out := [], obs := { s.obs with freezeDue := some 0 } } := if_neg (by
      rw [State.begin_obs, hh]; exact Bool.false_ne_true)
    have hexec := (execBeaconNow_granted hg).trans (congrArg done (State.regAnswer_obs fn hnow))
    obtain ⟨cs, hcs⟩ := Obs.answered_frame { s.obs with freezeDue := some 0 }
    rw [hcs] at hexec
    exact ⟨_, hexec, rfl, hh, rfl, rfl, rfl, rfl⟩
  case missed =>
    intro s fn hg hh
    have hnow : s.begin.beaconNow = { s with out := [], obs := { s.obs with missed := satAdd 255 s.obs.missed 1 } } := if_pos hh
    have hexec := (execBeaconNow_granted hg).trans (congrArg done (State.regAnswer_obs fn hnow))
    obtain ⟨cs, hcs⟩ := Obs.answered_frame { s.obs with missed := satAdd 255 s.obs.missed 1 }
    rw [hcs] at hexec
    exact ⟨_, hexec, rfl, hh, rfl, rfl, rfl, rfl⟩
  case release =>
    intro s fn hg
    have hexec := (execBeaconRelease_granted hg).trans (congrArg done (State.regAnswer_obs (s := s) fn (rfl : s.begin.releaseBeacon = _)))
    obtain ⟨cs, hcs⟩ := Obs.answered_frame s.begin.releaseBeacon.obs
    exact ⟨_, hexec, (congrArg Obs.held hcs :), (congrArg Obs.ringStale hcs :), (congrArg Obs.rings hcs :),
      (congrArg Obs.snapCounters hcs :), rfl⟩
  case stopped =>
    intro s hs
    exact congrArg done (if_pos hs)
  case freeze =>
    intro s src k stale hs hd hstale hk
    refine ⟨_, execBeaconFreeze_due hs hd, rfl, rfl, rfl, rfl, rfl, hstale.symm, rfl, rfl, State.freeze_ring s.begin hk, ?_, rfl, rfl⟩
    subst hstale
    rfl
  case arms =>
    intro s c at_ hc hnew hh ha
    exact (execBeaconSet_judged at_ hc hnew).trans (congrArg done (if_neg (by simp [hh, ha])))
  case held =>
    intro s c at_ hc hnew h
    exact (execBeaconSet_judged at_ hc hnew).trans (congrArg done (if_pos h))
  case fires =>
    intro s c hs hd ha hset hcome hc hh hq
    obtain ⟨late, hexec⟩ := execBeaconFreeze_armed hs hd ha hset hcome hc hh
    generalize hu : State.freeze 1 late _ = u at hexec
    have huq : u.alr.quiet = false := by subst hu; exact hq
    obtain ⟨hlm, alr, obs, hdone, hrec⟩ := State.complete_issues { c.record stOk with result := leBytes 8 s.clk.domain } huq
    obtain ⟨cs, hcs⟩ := u.complete_counts { c.record stOk with result := leBytes 8 s.clk.domain }
    rw [hdone] at hcs
    have hobs : obs = { u.obs with counters := cs } := hcs
    subst hobs
    refine ⟨_, hexec.trans (congrArg done hdone), ?_⟩
    subst hu
    exact ⟨rfl, rfl, rfl, rfl, State.recorded_of_port rfl rfl hrec, rfl⟩
  case clears =>
    intro s fn bank n hg hb hh h12 h13
    have hexec := execCounterBankClear_granted hg hb
    have hcount := (Obs.answered_counter (s.obs.clearBank bank) h12 h13).trans (Obs.counter_clearBank bank n s.obs hh)
    have hclear := Obs.clearBank_clears bank hh
    obtain ⟨cs, hcs⟩ := Obs.answered_frame (s.obs.clearBank bank)
    exact ⟨_, hexec, hcount, (congrArg Obs.invalid hcs :).trans (congrArg Obs.invalid hclear :),
      (congrArg Obs.snapCounters hcs :).trans (congrArg Obs.snapCounters hclear :), rfl⟩
  case faulty =>
    intro s fn bank n hg hb hh h12 h13
    have hexec := execCounterBankClear_granted hg hb
    have hclear : s.obs.clearBank bank = s.obs := if_pos hh
    rw [hclear] at hexec
    obtain ⟨cs, hcs⟩ := s.obs.answered_frame
    exact ⟨_, hexec, Obs.answered_counter s.obs h12 h13, (congrArg Obs.invalid hcs :), rfl⟩
  case sounded =>
    intro s counter b n fault hlt hb hh hn hbank
    have hexec := execCounterBankSoundingDone_tested fault hlt hb hh
    have hb16 : b < 16 := by omega
    have hinvalid := Obs.bankTested_invalid fault s.obs hbank
    have htesting := Obs.bankTested_testing fault s.obs hb16
    have hfaulty := Obs.bankTested_fault fault s.obs hb16 hh
    have hcount : ((s.obs.bankTested b fault).bump (ctrRcu 6) 1).counter n = s.obs.counter n := Obs.counter_bump 1 _ hn
    obtain ⟨cs, hcs⟩ := (s.obs.bankTested b fault).bump_frame (ctrRcu 6) 1
    rw [hcs] at hcount
    have hsound : ∀ cls, ({ s.begin with obs := s.obs.bankTested b fault } : State).sounding unitObs 3 cls = { s with
        out := [], obs := { s.obs.bankTested b fault with counters := cs }, alr := { s.alr with soundCtr := satAdd 63 s.alr.soundCtr 1 }
        hlm := (s.event evSounding unitObs none 3 cls).hlm } := fun cls =>
      congrArg (fun o : Obs => ({ s with
        out := [], obs := o, alr := { s.alr with soundCtr := satAdd 63 s.alr.soundCtr 1 }
        hlm := (s.event evSounding unitObs none 3 cls).hlm } : State)) hcs
    simp only [hsound] at hexec
    cases fault
    · exact ⟨_, hexec, hinvalid, htesting, hfaulty, hcount, List.drop_left, rfl⟩
    · refine ⟨_, hexec, hinvalid, htesting, hfaulty, hcount, ?_, rfl⟩
      show List.drop s.hlm.fifo.length (s.hlm.fifo ++ [_] ++ [_]) = _
      rw [List.append_assoc]
      exact List.drop_left
  case tracks =>
    intro s fn k stall n hg hlo hhi hs1 hs2 hother hfault hn
    have hexec := execObsTrackWrite_granted hlo hhi hg hs2
    obtain ⟨hstall, hvalid⟩ := trackWord_fields hs2
    have hwrite : s.obs.writeTrack k (BitVec.ofNat 32 (stall + 2 ^ 31)) =
        ({ s.obs with track := assocSet k stall s.obs.track, trackOff := assocDel k s.obs.trackOff } : Obs).clearSet k := by
      unfold Obs.writeTrack
      simp only [hstall, hvalid, hother]
      rw [if_neg (by omega), if_neg (by simp; omega)]
      rfl
    rw [hwrite] at hexec
    obtain ⟨hzero, hmark⟩ := Obs.clearSet_clears (k := k) (o := { s.obs with
      track := assocSet k stall s.obs.track, trackOff := assocDel k s.obs.trackOff }) hfault hn
    have hset := Obs.clearSet_eq (k := k) (o := { s.obs with
      track := assocSet k stall s.obs.track, trackOff := assocDel k s.obs.trackOff }) hfault
    obtain ⟨cs, hcs⟩ := Obs.answered_frame (Obs.clearSet k { s.obs with
      track := assocSet k stall s.obs.track, trackOff := assocDel k s.obs.trackOff })
    exact ⟨_, hexec, (congrArg Obs.track hcs :).trans (congrArg Obs.track hset),
      (Obs.answered_counter _ (by omega) (by omega)).trans hzero, (congrArg (·.invalid.contains (2304 + 16 * k + n)) hcs :).trans hmark, rfl⟩
  case elsewhere =>
    intro s fn k stall n hg hlo hhi hs h12 h13 h
    have hexec := execObsTrackWrite_granted hlo hhi hg hs
    obtain ⟨hstall, hvalid⟩ := trackWord_fields hs
    have hwrite : s.obs.writeTrack k (BitVec.ofNat 32 (stall + 2 ^ 31)) = s.obs := by
      unfold Obs.writeTrack
      simp only [hstall, hvalid]
      rw [if_neg (by omega), if_pos ⟨trivial, h⟩]
    rw [hwrite] at hexec
    obtain ⟨cs, hcs⟩ := s.obs.answered_frame
    exact ⟨_, hexec, (congrArg Obs.track hcs :), Obs.answered_counter s.obs h12 h13, rfl⟩

end Sys2Proof.Machine

/-!
The Doldrums detector and HANG_DUMP (O53).

HANG_DUMP has one equation for each of its ends; what it reads of the state does not depend on the transfers that leave, so its metadata and its
sections are those of the state it starts in.
-/

namespace Sys2Proof.Machine

/-! ### The detector (R536, R537) -/

/-- Outside the quiet state and C, in service, with pclk running, a wait that has lasted T_DOLDRUMS is declared. -/
theorem execDoldrumsDeclare_declares {s : State} (hq : s.alr.quiet = false) (hd : s.alr.doldrums = false) (hs : s.mon.stop = none)
    (hc : s.rst.coreReset = none) (hp : s.rst.phase = .service) (hw : s.waitCount ≠ 0)
    (he : s.expired s.alr.progressAt (s.cfg.engine.tDoldrums * 1000000) = true) :
    execDoldrumsDeclare s = done { s.begin.event evDoldrums unitAlarm none s.waitCount s.alr.progressTime with
      alr := { s.alr with
        doldrums := true, dumpOpen := true, doldrumsAt := s.clk.elapsed, doldrumsTime := s.clk.domain, progressed := false
        episodes := satAdd 65535 s.alr.episodes 1 }
      obs := { s.obs.bump (ctrRcu 7) 1 with freezeDue := some 3 } } := by
  have hno : ¬ (s.begin.alr.quiet = true ∨ s.begin.alr.doldrums = true ∨ s.begin.mon.stop.isSome = true ∨ s.begin.rst.coreReset.isSome = true ∨
      s.begin.rst.phase ≠ .service ∨ s.begin.waitCount = 0 ∨
      ¬ s.begin.expired s.begin.alr.progressAt (s.begin.cfg.engine.tDoldrums * 1000000) = true) := by
    rintro (h | h | h | h | h | h | h)
    · exact Bool.false_ne_true (hq.symm.trans h)
    · exact Bool.false_ne_true (hd.symm.trans h)
    · rw [show s.begin.mon.stop = none from hs] at h; cases h
    · rw [show s.begin.rst.coreReset = none from hc] at h; cases h
    · exact h hp
    · exact hw h
    · exact h he
  exact congrArg done (if_neg hno)

/-- Before T_DOLDRUMS, without a wait or in a declared Doldrums nothing is declared. -/
theorem execDoldrumsDeclare_waits {s : State}
    (h : s.waitCount = 0 ∨ s.expired s.alr.progressAt (s.cfg.engine.tDoldrums * 1000000) = false ∨ s.alr.doldrums = true) :
    execDoldrumsDeclare s = done s.begin := by
  refine congrArg done (if_pos ?_)
  obtain h | h | h := h
  · exact .inr (.inr (.inr (.inr (.inr (.inl h)))))
  · exact .inr (.inr (.inr (.inr (.inr (.inr fun he => Bool.false_ne_true (h.symm.trans he))))))
  · exact .inr (.inl h)

/-! ### HANG_DUMP (R538 to R540) -/

/-- The metadata does not depend on what leaves the block. -/
theorem State.dumpMeta_begin (s : State) : s.begin.dumpMeta = s.dumpMeta := rfl

section
variable {s : State} {c : Call} {dst outp room : Nat} {work : Bytes} (hc : s.admits c 0x0C01)
include hc

theorem execHangDump_closed (stall dst outp room : Nat) (work : Bytes) (a b : Bool) (hopen : s.alr.dumpOpen = false) :
    execHangDump c stall dst outp room work a b s = done (s.begin.finish c stPolicy) := by
  rw [execHangDump, State.command_run hc, if_pos (by simp [hopen])]

theorem execHangDump_metadata (dst outp room : Nat) (work : Bytes) (a b : Bool) (hopen : s.alr.dumpOpen = true) :
    execHangDump c 0xFFFF dst outp room work a b s = done (if ¬ a = true then (s.begin.emit (.memWrite 0 dst s.dumpMeta)).finish c stMemory
      else (s.begin.emit (.memWrite 0 dst s.dumpMeta)).finishDump c stOk 0xFFFF s.dumpMeta.length 0) := by
  rw [execHangDump, State.command_run hc]
  simp [hopen, State.dumpMeta_begin]

section
variable {id : Nat} {d : StallData} (hopen : s.alr.dumpOpen = true) (hid : id < 4096) (hrestored : s.ald.restored = true)
  (hd : s.stallData? id = some d) (hres : s.resident id = true)
include hopen hid hrestored hd hres

/-- A dump of a resident Stall: where the Stall has a DUMP key it takes random bits. -/
theorem execHangDump_resident (dst outp room : Nat) (work : Bytes) (b : Bool) :
    execHangDump c id dst outp room work true b s =
      done (if d.dumpKey.isSome = true then s.begin.withEntropy c fun t =>
          (t.emit (.memWrite 0 dst t.dumpMeta)).dumpStall c id outp room t.dumpMeta.length work b
        else (s.begin.emit (.memWrite 0 dst s.dumpMeta)).dumpStall c id outp room s.dumpMeta.length work b) := by
  have hres' : s.begin.resident id = true := hres
  have hd' : s.begin.stallData? id = some d := hd
  have hgone : s.begin.recordGone id = false := by simp [State.recordGone, hres']
  have hne : id ≠ 0xFFFF := by omega
  rw [execHangDump, State.command_run hc]
  simp [hopen, hrestored, hres', hd', hgone, hne, Nat.not_le.mpr hid, State.dumpMeta_begin]

end
end

/-- Without a DUMP key nothing of the Stall is written. -/
theorem State.dumpStall_keyless {s : State} {id : Nat} {d : StallData} (c : Call) (outp room metaLen : Nat) (work : Bytes) (ok : Bool)
    (hd : s.stallData? id = some d) (hk : d.dumpKey = none) :
    s.dumpStall c id outp room metaLen work ok = s.finishDump c stKeyUnknown id metaLen 0 := by
  unfold State.dumpStall
  rw [hd, Option.bind_some, hk]
  split
  · next h => cases h
  · rfl

section
variable {s : State} {id : Nat} {x : Stall} {d : StallData} {k : KeyEntry} (hx : s.stall? id = some x) (hd : s.stallData? id = some d)
  (hres : s.resident id = true) (hk : d.dumpKey = some k)
include hx hd hres hk

/-- The sections of a resident Stall are sealed under its DUMP key, where the key's limit allows. -/
theorem State.dumpStall_sealed {n outp room : Nat} {work b : Bytes} (c : Call) (metaLen : Nat)
    (hn : n = ceilDiv (sectionBytes (s.dumpSections id x d work)).length 16 + 1)
    (hb : b = s.stallDump id x d k (s.tookDraw.drawn 12) (s.dumpSections id x d work)) (hroom : b.length ≤ room) :
    s.dumpStall c id outp room metaLen work true = if s.overLimit k.handle k.gen n = true then s.finishDump c stKeyLimit id metaLen 0
      else ((s.tookDraw.tookDraw.countDump k n).emit (.memWrite c.stall outp b)).finishDump c stOk id metaLen b.length := by
  have hgone : s.recordGone id = false := by simp [State.recordGone, hres]
  unfold State.dumpStall
  rw [hd, Option.bind_some, hk, hx]
  dsimp only
  rw [if_neg (by simp [hgone]), ← hn]
  split
  · rfl
  · have hdump : s.tookDraw.stallDump id x d k (s.tookDraw.drawn 12) (s.dumpSections id x d work) = b := hb.symm
    rw [hdump, State.output_fits _ _ _ _ _ hroom]

end

/-- With random bits at hand, the dump of a Stall with a DUMP key ends at the key's limit, or is sealed and written. -/
theorem execHangDump_sealed {s : State} {c : Call} {id n outp room : Nat} {work b : Bytes} {x : Stall} {d : StallData} {k : KeyEntry}
    (dst : Nat) (hc : s.admits c 0x0C01) (hopen : s.alr.dumpOpen = true) (hid : id < 4096) (hrestored : s.ald.restored = true)
    (hx : s.stall? id = some x) (hd : s.stallData? id = some d) (hres : s.resident id = true) (hk : d.dumpKey = some k)
    (he : s.sbx.entropyOk = true) (hew : s.sbx.entropyWaits = []) (how : s.obs.waits = [])
    (hn : n = ceilDiv (sectionBytes (s.dumpSections id x d work)).length 16 + 1)
    (hb : b = s.stallDump id x d k (s.tookDraw.drawn 12) (s.dumpSections id x d work)) (hroom : b.length ≤ room) :
    execHangDump c id dst outp room work true true s =
      done (if s.overLimit k.handle k.gen n = true then (s.begin.emit (.memWrite 0 dst s.dumpMeta)).finishDump c stKeyLimit id s.dumpMeta.length 0
        else ((((s.begin.emit (.memWrite 0 dst s.dumpMeta)).tookDraw.tookDraw.countDump k n).emit (.memWrite c.stall outp b)).finishDump
          c stOk id s.dumpMeta.length b.length)) := by
  have hexec := execHangDump_resident hc hopen hid hrestored hd hres dst outp room work true
  rw [if_pos (by rw [hk]; rfl), State.withEntropy_run (s := s.begin) c _ he hew how] at hexec
  exact hexec.trans (congrArg done
    (State.dumpStall_sealed (s := s.begin.emit (.memWrite 0 dst s.dumpMeta)) hx hd hres hk c s.dumpMeta.length hn hb hroom))

theorem State.countBooth_frame (h g n : Nat) (s : State) : ∃ sbx fifo irqUrgent,
    s.countBooth h g n = { s with sbx, hlm := { s.hlm with fifo, irqUrgent } } := by
  unfold State.countBooth
  dsimp only
  split
  · exact ⟨_, _, _, rfl⟩
  · exact ⟨_, s.hlm.fifo, s.hlm.irqUrgent, rfl⟩

theorem State.modStallData_data (id : Nat) (f : StallData → StallData) (s : State) :
    ∃ data, s.modStallData id f = { s with stl := { s.stl with data } } := by
  unfold State.modStallData
  split
  · exact ⟨s.stl.data, rfl⟩
  · exact ⟨_, rfl⟩

/-- A dump's operation is counted in the Strongbox or in the Stall's tables. -/
theorem State.countDump_frame (k : KeyEntry) (n : Nat) (s : State) :
    ∃ sbx fifo irqUrgent data,
    s.countDump k n = { s with sbx, hlm := { s.hlm with fifo, irqUrgent }, stl := { s.stl with data } } := by
  obtain ⟨sbx, fifo, urgent, hcount⟩ := s.countBooth_frame k.handle k.gen n
  unfold State.countDump
  rw [hcount]
  split
  · exact ⟨sbx, fifo, urgent, s.stl.data, rfl⟩
  · obtain ⟨data, hdata⟩ := State.modStallData_data (handleOwner k.handle) (fun d => { d with keys := d.keys.map fun e =>
      if e.handle = k.handle ∧ e.gen = k.gen then { e with use := e.use + n, ops := e.ops + 1 } else e })
      { s with sbx, hlm := { s.hlm with fifo, irqUrgent := urgent } }
    exact ⟨sbx, fifo, urgent, data, hdata⟩

/-- A dump ends with a record of both lengths, and EV_HANG_DUMP. -/
theorem State.finishDump_issues (c : Call) (st stall metaLen stallLen : Nat) {s : State} (hq : s.alr.quiet = false) :
    ∃ hlm alr obs, s.finishDump c st stall metaLen stallLen = { s with hlm, alr, obs } ∧
      s.recorded { s with hlm, alr, obs } { c.record st with result := leBytes 4 metaLen ++ leBytes 4 stallLen } ∧
      hlm.fifo = s.hlm.fifo ++ [{ code := evHangDump, unit := unitAlarm, stall := if stall = 0xFFFF then none else some stall
                                  time := s.clk.domain, unanchored := s.unanchored, arg0 := metaLen, arg1 := stallLen }] := by
  obtain ⟨hlm, alr, obs, hdone, hrec⟩ :=
    State.complete_issues (s := s.event evHangDump unitAlarm (if stall = 0xFFFF then none else some stall) metaLen stallLen)
      { c.record st with result := leBytes 4 metaLen ++ leBytes 4 stallLen } hq
  have hfifo := (congrArg (fun t => t.hlm.fifo) hdone.symm :).trans (State.complete_fifo _ _)
  exact ⟨hlm, alr, obs, hdone, State.recorded_of_port rfl rfl hrec, hfifo⟩

/-- A dump that is not written ends with a record, and the tables stay. -/
theorem State.dump_unwritten (c : Call) (st id metaLen : Nat) {u : State} (hq : u.alr.quiet = false) :
    ∃ t, u.finishDump c st id metaLen 0 = t ∧ t.out = u.out ∧
      u.recorded t { c.record st with result := leBytes 4 metaLen ++ leBytes 4 0 } ∧ t = { u with hlm := t.hlm, alr := t.alr, obs := t.obs } := by
  obtain ⟨hlm, alr, obs, hdone, hrec, -⟩ := State.finishDump_issues c st id metaLen 0 hq
  exact ⟨_, hdone, rfl, hrec, rfl⟩

/-- A dump that is written ends with a record of its length, and the table, the Ledger, the MSEs and the epoch stay. -/
theorem State.dump_written (c : Call) (k : KeyEntry) (n id outp metaLen : Nat) (b : Bytes) {u : State} (hq : u.alr.quiet = false) :
    ∃ t, ((u.tookDraw.tookDraw.countDump k n).emit (.memWrite c.stall outp b)).finishDump c stOk id metaLen b.length = t ∧
      t.out = u.out ++ [.memWrite c.stall outp b] ∧
      u.recorded t { c.record stOk with result := leBytes 4 metaLen ++ leBytes 4 b.length } ∧
      t.stl.table = u.stl.table ∧ t.ldg = u.ldg ∧ t.mse = u.mse ∧ t.epo = u.epo := by
  obtain ⟨sbx, fifo, urgent, data, hcount⟩ := State.countDump_frame k n u.tookDraw.tookDraw
  rw [hcount]
  generalize hv : State.emit (.memWrite c.stall outp b) _ = v
  have hvq : v.alr.quiet = false := by subst hv; exact hq
  obtain ⟨hlm, alr, obs, hdone, hrec, -⟩ := State.finishDump_issues c stOk id metaLen b.length hvq
  refine ⟨_, hdone, ?_⟩
  subst hv
  exact ⟨rfl, State.recorded_of_port rfl rfl hrec, rfl, rfl, rfl, rfl⟩

theorem not_expired_iff {s : State} {since t : Nat} : s.expired since t = false ↔ s.clk.elapsed < since + t := by
  unfold State.expired
  rw [decide_eq_false_iff_not, Nat.not_le]

/-! ### The obligation -/

/-- Settles O53: the wait that is declared and the one that is not, and the dump of the block, of a Stall with a DUMP key and of one without. -/
theorem doldrumsAndHangDump : Obligations.DoldrumsAndHangDump := by
  unfold Obligations.DoldrumsAndHangDump
  refine ⟨?declares, ?waits, ?ends, ?lasts, ?closed, ?block, ?fails, ?stall, ?keyless⟩
  case declares =>
    intro s hq hd hs hc hp hw he
    exact ⟨_, execDoldrumsDeclare_declares hq hd hs hc hp hw (decide_eq_true he), rfl, rfl, rfl, rfl, rfl⟩
  case waits =>
    intro s h
    exact execDoldrumsDeclare_waits (h.imp_right fun h => h.imp_left not_expired_iff.mpr)
  case ends =>
    intro s hd hp
    exact ⟨_, congrArg done (if_pos ⟨hd, hp⟩), rfl, rfl, rfl⟩
  case lasts =>
    intro s hp
    exact congrArg done (if_neg fun h => Bool.false_ne_true (hp.symm.trans h.2))
  case closed =>
    intro s c stall dst outp room work a b hc hopen
    exact execHangDump_closed hc stall dst outp room work a b hopen
  case block =>
    rintro s c dst outp room work m b hc hopen rfl
    have hexec := execHangDump_metadata hc dst outp room work true b hopen
    rw [if_neg (fun h => h rfl)] at hexec
    obtain ⟨hlm, alr, obs, hdone, hrec, hfifo⟩ := State.finishDump_issues c stOk 0xFFFF s.dumpMeta.length 0
      (s := s.begin.emit (.memWrite 0 dst s.dumpMeta)) hc.1.2.2
    exact ⟨_, hexec.trans (congrArg done hdone), rfl, State.recorded_of_port rfl rfl hrec, hfifo, rfl⟩
  case fails =>
    intro s c dst outp room work b hc hopen
    have hexec := execHangDump_metadata hc dst outp room work false b hopen
    rw [if_pos Bool.false_ne_true] at hexec
    obtain ⟨hlm, alr, obs, hdone, hrec⟩ := State.complete_issues (s := s.begin.emit (.memWrite 0 dst s.dumpMeta)) (c.record stMemory) hc.1.2.2
    exact ⟨_, hexec.trans (congrArg done hdone), rfl, State.recorded_of_port rfl rfl hrec, rfl⟩
  case stall =>
    rintro s c id dst outp room n work m b x d k hc hopen hid hrestored hx hd hres hk he hew how rfl hn hb hroom
    have hexec := execHangDump_sealed (outp := outp) dst hc hopen hid hrestored hx hd hres hk he hew how hn hb hroom
    split
    · next h =>
      obtain ⟨t, hdone, hout, hrec, ht⟩ := State.dump_unwritten c stKeyLimit id s.dumpMeta.length
        (u := s.begin.emit (.memWrite 0 dst s.dumpMeta)) hc.1.2.2
      exact ⟨t, hexec.trans (congrArg done ((if_pos h).trans hdone)), hout, State.recorded_of_port rfl rfl hrec, ht ▸ rfl, ht ▸ rfl, ht ▸ rfl,
        ht ▸ rfl⟩
    · next h =>
      obtain ⟨t, hdone, hout, hrec, hkept⟩ := State.dump_written c k n id outp s.dumpMeta.length b
        (u := s.begin.emit (.memWrite 0 dst s.dumpMeta)) hc.1.2.2
      exact ⟨t, hexec.trans (congrArg done ((if_neg h).trans hdone)), hout, State.recorded_of_port rfl rfl hrec, hkept⟩
  case keyless =>
    rintro s c id dst outp room work m ok x d hc hopen hid hrestored hx hd hres hk rfl
    have hexec := execHangDump_resident hc hopen hid hrestored hd hres dst outp room work ok
    rw [if_neg (by rw [hk]; exact Bool.false_ne_true)] at hexec
    have hdump := State.dumpStall_keyless (s := s.begin.emit (.memWrite 0 dst s.dumpMeta)) c outp room s.dumpMeta.length work ok hd hk
    obtain ⟨hlm, alr, obs, hdone, hrec, -⟩ := State.finishDump_issues c stKeyUnknown id s.dumpMeta.length 0
      (s := s.begin.emit (.memWrite 0 dst s.dumpMeta)) hc.1.2.2
    exact ⟨_, (hexec.trans (congrArg done hdump)).trans (congrArg done hdone), rfl, State.recorded_of_port rfl rfl hrec, rfl⟩

end Sys2Proof.Machine

/-!
Helm's registers and the TAP (O55).

A granted write is the register's write on the state, answered with 0; what each register's write does to its unit is said once per register.
-/

namespace Sys2Proof.Machine

/-! ### Writes of Helm's registers (R494, R526) -/

/-- An access is answered with 0 and counted. -/
theorem State.regAnswer_answered (s : State) (fn : Nat) :
    s.regAnswer (some fn) false 0 = { s with out := s.out ++ [.reg false 0], obs := s.obs.answered } := rfl

/-- The word of XS_HLM_EVQCFG: LOG2SIZE and ON. -/
theorem evqWord_fields (log2 : Nat) (on : Bool) :
    fieldOf (BitVec.ofNat 32 (log2 % 32 + bit on * 32)) 0 5 = BitVec.ofNat 5 log2 ∧
      (BitVec.ofNat 32 (log2 % 32 + bit on * 32)).getLsbD 5 = on := by
  have hbit : bit on = 0 ∨ bit on = 1 := by cases on <;> decide
  have hon : decide (bit on = 1) = on := by cases on <;> rfl
  constructor
  · rw [fieldOf_ofNat _ (by decide)]
    apply BitVec.eq_of_toNat_eq
    rw [BitVec.toNat_ofNat, BitVec.toNat_ofNat]
    omega
  · rw [getLsbD_ofNat_word (by decide), Nat.testBit_eq_decide_div_mod_eq]
    exact (decide_eq_decide.mpr (by omega)).trans hon

theorem Evq.writeCfg_off {log2 : Nat} (on : Bool) {q : Evq} (hoff : q.on = false) (h : log2 < 32) :
    q.writeCfg (BitVec.ofNat 32 (log2 % 32 + bit on * 32)) = { q with
      log2Size := if 6 ≤ log2 ∧ log2 ≤ 16 then BitVec.ofNat 5 log2 else q.log2Size
      on := on
      head := if on then 0 else q.head
      tail := if on then 0 else q.tail } := by
  obtain ⟨hsize, hbit⟩ := evqWord_fields log2 on
  have hnat : (BitVec.ofNat 5 log2).toNat = log2 := by rw [BitVec.toNat_ofNat]; omega
  have htaken : (if q.on = true ∨ log2 < 6 ∨ 16 < log2 then q.log2Size else BitVec.ofNat 5 log2) =
      if 6 ≤ log2 ∧ log2 ≤ 16 then BitVec.ofNat 5 log2 else q.log2Size := by
    by_cases hin : 6 ≤ log2 ∧ log2 ≤ 16
    · rw [if_pos hin, if_neg (by simp [hoff]; omega)]
    · rw [if_neg hin, if_pos (.inr (by omega))]
  unfold Evq.writeCfg
  dsimp only
  rw [hsize, hbit, hnat, htaken, hoff]
  cases on <;> rfl

theorem Evq.writeCfg_on (log2 : Nat) (on : Bool) {q : Evq} (hon : q.on = true) :
    q.writeCfg (BitVec.ofNat 32 (log2 % 32 + bit on * 32)) = { q with on := on } := by
  obtain ⟨-, hbit⟩ := evqWord_fields log2 on
  have hno : ¬ (on = true ∧ ¬ true = true) := fun h => h.2 rfl
  unfold Evq.writeCfg
  dsimp only
  rw [hbit, hon, if_neg hno, if_pos (Or.inl rfl)]

section
variable {s : State} {fn : Nat}

theorem execEvqCfgWrite_granted (log2 : Nat) (on : Bool) (hg : s.grants fn true 0x0B0018) :
    execEvqCfgWrite fn log2 on s = done { s with
      out := [.reg false 0], hlm := { s.hlm with evq := s.hlm.evq.writeCfg (BitVec.ofNat 32 (log2 % 32 + bit on * 32)) }
      obs := s.obs.answered } := by
  obtain ⟨v, hv⟩ : ∃ v, s.readReg fn 0x0B0018 = some v := ⟨_, rfl⟩
  rw [execEvqCfgWrite, State.begin_regWrite_granted _ hg hv rfl]
  rfl

theorem execEvqTailWrite_granted (tail : Nat) (hg : s.grants fn true 0x0B0020) (ht : tail < 65536) :
    execEvqTailWrite fn tail s = done { s with
      out := [.reg false 0], hlm := { s.hlm with evq := { s.hlm.evq with tail := tail } }, obs := s.obs.answered } := by
  obtain ⟨v, hv⟩ : ∃ v, s.readReg fn 0x0B0020 = some v := ⟨_, rfl⟩
  have hword : (BitVec.ofNat 32 (tail % 65536)).toNat % 65536 = tail := by rw [BitVec.toNat_ofNat]; omega
  have hwrite : s.begin.writeReg (some fn) 0x0B0020 (BitVec.ofNat 32 (tail % 65536)) =
      { s.begin with hlm := { s.hlm with evq := { s.hlm.evq with tail := (BitVec.ofNat 32 (tail % 65536)).toNat % 65536 } } } := rfl
  rw [execEvqTailWrite, State.begin_regWrite_granted _ hg hv rfl, hwrite, hword]
  rfl

theorem execIntegrityAlarmClear_granted (hg : s.grants fn true 0x0C0000) :
    execIntegrityAlarmClear fn s = done { s with
      out := [.reg false 0], alr := { s.alr with integrity := false }, obs := s.obs.answered } := by
  obtain ⟨v, hv⟩ : ∃ v, s.readReg fn 0x0C0000 = some v := ⟨_, rfl⟩
  have hwrite : s.begin.writeReg (some fn) 0x0C0000 (BitVec.ofNat 32 4) = { s.begin with alr := { s.alr with
      integrity := s.alr.integrity && false, logOverflow := s.alr.logOverflow && true, dumpOpen := s.alr.dumpOpen && true } } := rfl
  rw [execIntegrityAlarmClear, State.begin_regWrite_granted _ hg hv rfl, hwrite, Bool.and_false, Bool.and_true, Bool.and_true]
  rfl

/-! ### The direct window (R484) -/

/-- GO by a function that may write it, outside C. -/
theorem execDwGo_granted (hg : s.grants fn true 0x0B0100) (hc : s.rst.coreReset = none) :
    execDwGo fn s = done ((s.begin.windowGo fn).regAnswer (some fn) false 0) := by
  obtain ⟨v, hv⟩ : ∃ v, s.readReg fn 0x0B0100 = some v := ⟨_, rfl⟩
  have hserved : s.regVerdict (some fn) true 0x0B0100 = .served := by
    have hp : s.rst.phase = .service := hg.1
    simp [State.regVerdict, hp, hv, State.dead_service hp, State.grants_mayAccess hg, hc]
  have hwrite : s.begin.writeReg (some fn) 0x0B0100 (BitVec.ofNat 32 1) =
      ({ s.begin with hlm := { s.hlm with dwDone := s.hlm.dwDone && true } } : State).windowGo fn := rfl
  rw [execDwGo, State.regWrite_served (s := s.begin) 1 hserved, hwrite, Bool.and_true]
  rfl

/-- GO does nothing while the window is busy or in the quiet state. -/
theorem State.windowGo_closed (fn : Nat) {s : State} (h : s.hlm.dwBusy = true ∨ s.alr.quiet = true) : s.windowGo fn = s :=
  if_pos (by tauto)

/-- The window once GO has taken its packet. -/
def State.windowTaken (s : State) : State :=
  { s.bump 4 1 with hlm := { s.hlm with dwBusy := true, accepted := s.hlm.accepted + 1 } }

section
variable {n : Nat} {b : Bytes} {c : Call} (hq : s.alr.quiet = false) (hp : s.rst.phase = .service) (hc : s.rst.coreReset = none)
  (hbusy : s.hlm.dwBusy = false) (hn : n = leField s.hlm.windowBytes 3 1) (hlo : 1 ≤ n) (hhi : n ≤ 8)
  (hb : b = padTo 48 (s.hlm.windowBytes.take (32 * n))) (hcall : c = callOf b fn 0 0 true)
include hq hp hc hbusy hn hlo hhi hb hcall

/-- GO judges the packet in the buffer. -/
theorem State.windowGo_judged : s.windowGo fn = match s.packetStatus b c with
    | some (st, d) => s.windowTaken.finishDetail c st d
    | none => { s.windowTaken with hlm := { s.windowTaken.hlm with running := s.windowTaken.hlm.running ++
        [{ call := c, args := packetArgs (s.hlm.windowBytes.take (32 * n)), order := s.hlm.accepted, waited := 0 }] } } := by
  have hopen : ¬ (s.alr.quiet = true ∨ s.rst.phase ≠ .service ∨ s.hlm.dwBusy = true ∨ s.rst.coreReset.isSome = true) := by
    simp [hq, hp, hc, hbusy]
  subst hn hb hcall
  unfold State.windowGo
  rw [if_neg hopen, if_neg (by omega)]
  rfl

/-- A packet that passes runs, and the window is busy. -/
theorem State.windowGo_runs (hstatus : s.packetStatus b c = none) : s.windowGo fn = { s with
    hlm := { s.hlm with
      dwBusy := true
      accepted := s.hlm.accepted + 1
      running := s.hlm.running ++
        [{ call := c, args := packetArgs (s.hlm.windowBytes.take (32 * n)), order := s.hlm.accepted, waited := 0 }] }
    obs := s.obs.bump 4 1 } := by
  rw [State.windowGo_judged hq hp hc hbusy hn hlo hhi hb hcall, hstatus]
  rfl

end
end

/-- A command that ends runs no more. -/
theorem State.complete_running (r : Completion) (s : State) :
    (s.complete r).hlm.running = s.hlm.running.eraseP fun q => q.call = r.call := by
  unfold State.complete
  dsimp only
  split
  · split <;> rfl
  · split <;> rfl

theorem State.complete_accepted (r : Completion) (s : State) : (s.complete r).hlm.accepted = s.hlm.accepted :=
  (congrArg Hlm.accepted (s.complete_hlm r) :)

/-- A packet that fails a check ends in the window. -/
theorem State.windowTaken_finishes (fn : Nat) (c : Call) (st d : Nat) {s : State} (hout : s.out = []) (hq : s.alr.quiet = false) :
    ∃ t, (s.windowTaken.finishDetail c st d).regAnswer (some fn) false 0 = t ∧ s.recorded t { c.record st with detail := d } ∧
      t.hlm.running.length ≤ s.hlm.running.length ∧ t.hlm.accepted = s.hlm.accepted + 1 ∧ t.out = [.reg false 0] ∧
      t = { s with out := t.out, hlm := t.hlm, alr := t.alr, obs := t.obs } := by
  have hacc : (s.windowTaken.finishDetail c st d).hlm.accepted = s.hlm.accepted + 1 :=
    s.windowTaken.complete_accepted { c.record st with detail := d }
  have hrun : (s.windowTaken.finishDetail c st d).hlm.running = s.hlm.running.eraseP fun q => q.call = c :=
    s.windowTaken.complete_running { c.record st with detail := d }
  obtain ⟨hlm, alr, obs, hdone, hrec⟩ := State.complete_issues (s := s.windowTaken) { c.record st with detail := d } hq
  change s.windowTaken.finishDetail c st d = _ at hdone
  rw [hdone] at hacc hrun ⊢
  have hlen : hlm.running.length ≤ s.hlm.running.length := (congrArg List.length hrun :).trans_le List.length_eraseP_le
  rw [State.regAnswer_answered]
  exact ⟨_, rfl, State.recorded_of_port rfl rfl hrec, hlen, hacc, (congrArg (· ++ [Out.reg false 0]) hout :), rfl⟩

/-! ### The TAP (R511) -/

/-- The TAP stands at an instruction. -/
def State.tapAt (ir : BitVec 8) (s : State) : State := { s with out := [], lcu := { s.lcu with tapIr := ir } }

/-- An instruction that no decoded state closes acts out of P and S. -/
theorem State.tapOpen_running {s : State} {ir : Nat} (h : s.tapOpen ir = true) : s.rst.phase ≠ .inReset := by
  unfold State.tapOpen at h
  rw [Bool.and_eq_true, decide_eq_true_eq] at h
  exact h.1

/-- SCAN, MBIST, FUSE_READ, HELM_DBG and REG_ACCESS act in BLANK, TEST_OPEN and ANALYSIS alone. -/
theorem State.tapOpen_private {s : State} {ir : Nat} (hir : ir = 0x20 ∨ ir = 0x21 ∨ ir = 0x22 ∨ ir = 0x30 ∨ ir = 0x31)
    (h : s.rst.phase = .inReset ∨ (s.lcu.state ≠ lcBlank ∧ s.lcu.state ≠ lcTestOpen ∧ s.lcu.state ≠ lcAnalysis)) : s.tapOpen ir = false := by
  have hacts : tapActs ir s.lcu.state = decide (s.lcu.state = lcBlank ∨ s.lcu.state = lcTestOpen ∨ s.lcu.state = lcAnalysis) := by
    unfold tapActs
    rw [if_neg (by omega), if_neg (by omega), if_neg (by omega), if_pos hir]
  unfold State.tapOpen
  rw [hacts, Bool.and_eq_false_iff, decide_eq_false_iff_not, decide_eq_false_iff_not]
  tauto

theorem execTapDebugEnter_selects {s : State} {ir : Nat} (h : s.tapOpen ir = false) :
    execTapDebugEnter ir s = done (s.tapAt (BitVec.ofNat 8 ir)) :=
  congrArg done (if_neg fun hc => Bool.false_ne_true (h.symm.trans hc.2))

/-- Entering SCAN, MBIST or HELM_DBG raises an integrity alarm and asks for a reset. -/
theorem execTapDebugEnter_enters {s : State} {ir : Nat} (hir : ir = 0x20 ∨ ir = 0x21 ∨ ir = 0x30) (h : s.tapOpen ir = true) :
    execTapDebugEnter ir s = done { (s.tapAt (BitVec.ofNat 8 ir)).alarmIntegrity unitLifecycle none none 5 ir with
      rst := { s.rst with rstReq := true } } :=
  congrArg done (if_pos ⟨hir, h⟩)

theorem execTapFuseRead_selects {s : State} {word : Nat} (h : s.tapOpen 0x22 = false ∨ (s.lcu.state = lcAnalysis ∧
    ((0x10 ≤ word % 256 ∧ word % 256 ≤ 0x31) ∨ (0xE0 ≤ word % 256 ∧ word % 256 ≤ 0xEF)))) :
    execTapFuseRead word s = done (s.tapAt 0x22) :=
  congrArg done (if_pos (h.imp_left fun hc => fun ho => Bool.false_ne_true (hc.symm.trans ho)))

theorem execTapFuseRead_reads {s : State} {word : Nat} (h : s.tapOpen 0x22 = true) (hw : word < 256)
    (hkey : s.lcu.state ≠ lcAnalysis ∨ ¬ ((0x10 ≤ word ∧ word ≤ 0x31) ∨ (0xE0 ≤ word ∧ word ≤ 0xEF))) (hj : s.lcu.job = none)
    (hr : s.lcu.tapRead = none) :
    execTapFuseRead word s = .next { s with out := [.fuseRd word], lcu := { s.lcu with tapIr := 0x22, tapRead := some word } } := by
  have hword : word % 256 = word := Nat.mod_eq_of_lt hw
  have hopen : ¬ (¬ s.begin.tapOpen 0x22 = true ∨ s.begin.lcu.state = lcAnalysis ∧
      ((0x10 ≤ word ∧ word ≤ 0x31) ∨ (0xE0 ≤ word ∧ word ≤ 0xEF))) := by
    rintro (hc | ⟨ha, hk⟩)
    · exact hc h
    · exact hkey.elim (fun hne => hne ha) (fun hne => hne hk)
  have hfree : ¬ (s.begin.lcu.job.isSome = true ∨ s.begin.lcu.tapRead.isSome = true) := by simp [hj, hr]
  unfold execTapFuseRead
  dsimp only
  rw [hword, if_neg hopen, if_neg hfree]
  rfl

theorem execTapRegAccess_selects {s : State} (write : Bool) (addr data : Nat) (h : s.tapOpen 0x31 = false) :
    execTapRegAccess write addr data s = done (s.tapAt 0x31) :=
  congrArg done (if_pos fun hc => Bool.false_ne_true (h.symm.trans hc))

theorem execTapRegAccess_acts {s : State} (write : Bool) (addr data : Nat) (h : s.tapOpen 0x31 = true) :
    execTapRegAccess write addr data s = done (if write = true then (s.tapAt 0x31).regWrite none (regAddr addr) data
      else (s.tapAt 0x31).regRead none (regAddr addr)) :=
  congrArg done (if_neg fun hc => hc h)

/-- What a register reads does not depend on where the TAP stands. -/
theorem State.readReg_tapAt (ir : BitVec 8) (fn a : Nat) (s : State) : (s.tapAt ir).readReg fn a = s.readReg fn a := rfl

/-- The TAP is served every register, out of P and S and outside C for Helm's own (R511, R592). -/
theorem State.regVerdict_tap {s : State} {a : Nat} (write : Bool) (hp : s.rst.phase ≠ .inReset) (hd : s.dead = false)
    (hr : (s.readReg 0 a).isSome = true) (ho : helmOwned a = false) : s.regVerdict none write a = .served := by
  have hn : ¬ s.readReg 0 a = none := Option.isSome_iff_ne_none.mp hr
  simp [State.regVerdict, hp, hn, hd, ho]

/-- A plain register read by the TAP is shifted out. -/
theorem State.regRead_tap {s : State} {a v : Nat} (h : s.regVerdict none false a = .served) (hv : s.readReg 0 a = some v)
    (hl : a ≠ 0x060030) (hp : s.pairValue a = none) (hs : a ≠ 0x020014) : s.regRead none a = { s with out := s.out ++ [.tap (leBytes 4 v)] } := by
  have hv' : s.readReg ((none : Option Nat).getD 0) a = some v := hv
  rw [State.regRead, h]
  dsimp only
  rw [State.serveRead, if_neg hl]
  dsimp only
  rw [hv', Option.getD_some, State.capturing_none hp, if_neg hs]
  rfl

/-! ### The obligation -/

/-- Settles O55: the writes of Helm's registers, GO, and the TAP's instructions where they act and where they only select. -/
theorem helmRegistersAndTap : Obligations.HelmRegistersAndTap := by
  unfold Obligations.HelmRegistersAndTap
  refine ⟨?ringOff, ?ringOn, ?tail, ?integrity, ?refused, ?runs, ?closed, ?enters, ?selects, ?fuse, ?withheld, ?reads, ?writes⟩
  case ringOff =>
    intro s fn log2 on hg hoff hlog
    exact ⟨_, execEvqCfgWrite_granted log2 on hg, Evq.writeCfg_off on hoff hlog, rfl⟩
  case ringOn =>
    intro s fn log2 on hg hon
    exact ⟨_, execEvqCfgWrite_granted log2 on hg, Evq.writeCfg_on log2 on hon, rfl⟩
  case tail =>
    intro s fn tail hg ht
    exact ⟨_, execEvqTailWrite_granted tail hg ht, rfl, rfl⟩
  case integrity =>
    intro s fn hg
    exact ⟨_, execIntegrityAlarmClear_granted hg, rfl, rfl⟩
  case refused =>
    intro s fn n st d b c hs hg hc hbusy hn hlo hhi hb hcall hstatus
    have hjudged := State.windowGo_judged (s := s.begin) (fn := fn) hs.2.2 hs.1 hc hbusy hn hlo hhi hb hcall
    have hstatus' : s.begin.packetStatus b c = some (st, d) := hstatus
    rw [hstatus'] at hjudged
    obtain ⟨t, hdone, hrec, hrun, hacc, hout, ht⟩ := State.windowTaken_finishes fn c st d (s := s.begin) rfl hs.2.2
    have hexec := execDwGo_granted hg hc
    rw [hjudged] at hexec
    exact ⟨t, hexec.trans (congrArg done hdone), State.recorded_of_port rfl rfl hrec, hrun, hacc, hout, ht⟩
  case runs =>
    intro s fn n b c hs hg hc hbusy hn hlo hhi hb hcall hstatus
    have hgo := State.windowGo_runs (s := s.begin) (fn := fn) hs.2.2 hs.1 hc hbusy hn hlo hhi hb hcall hstatus
    exact ⟨_, (execDwGo_granted hg hc).trans (congrArg (fun t => done (State.regAnswer (some fn) false 0 t)) hgo), rfl, rfl⟩
  case closed =>
    intro s fn hg hc h
    have hexec := execDwGo_granted hg hc
    rw [State.windowGo_closed (s := s.begin) fn h] at hexec
    exact ⟨_, hexec, rfl⟩
  case enters =>
    intro s ir h hir
    have hexec := execTapDebugEnter_enters hir h
    rw [State.alarmIntegrity_uncharged] at hexec
    exact ⟨_, hexec, rfl, rfl, rfl, rfl, rfl, rfl, rfl⟩
  case selects =>
    intro s ir word addr data write h hir
    exact ⟨execTapDebugEnter_selects (State.tapOpen_private (by tauto) h),
      execTapFuseRead_selects (.inl (State.tapOpen_private (by decide) h)),
      execTapRegAccess_selects write addr data (State.tapOpen_private (by decide) h)⟩
  case fuse =>
    intro s word h hw hkey hj hr
    exact execTapFuseRead_reads h hw hkey hj hr
  case withheld =>
    intro s word ha hk
    exact execTapFuseRead_selects (.inr ⟨ha, by rwa [Nat.mod_eq_of_lt (by omega)]⟩)
  case reads =>
    intro s addr data v h hd hv hp hs ho
    have hl : regAddr addr ≠ 0x060030 := fun hc => by rw [hc] at hp; cases hp
    have hserved := State.regVerdict_tap (s := s.tapAt 0x31) false (State.tapOpen_running h) hd (Option.isSome_of_eq_some hv) ho
    have hread := State.regRead_tap hserved hv hl hp hs
    exact (execTapRegAccess_acts false addr data h).trans (congrArg done hread)
  case writes =>
    intro s data h hd
    have hserved := State.regVerdict_tap (s := s.tapAt 0x31) (a := 0x000024) true (State.tapOpen_running h) hd rfl rfl
    have henable : fieldOf (BitVec.ofNat 32 data) 0 4 = BitVec.ofNat 4 data := fieldOf_ofNat data (by decide)
    have hexec := execTapRegAccess_acts true 0x000024 data h
    have hwrite : (s.tapAt 0x31).regWrite none 0x000024 data = { s with
        out := [.tap (leBytes 4 0)]
        lcu := { s.lcu with tapIr := 0x31 }
        hlm := { s.hlm with irqEnable := fieldOf (BitVec.ofNat 32 data) 0 4 } } := by
      rw [State.regWrite, hserved]
      rfl
    rw [henable] at hwrite
    exact hexec.trans (congrArg done hwrite)

end Sys2Proof.Machine

/-!
Lifecycle transitions (O24).

A request that passes begins with its JOURNAL bit, since a transition's programming waits behind nothing; one that is refused changes DETAIL
and the NONCE. The phases that follow have one lemma each: the wipe, the verify step, and the Journal's sector.
-/

namespace Sys2Proof.Machine

/-! ### The fuse port (R82) -/

/-- A free port begins with the first bit of the first job that still reads 0, whatever waits behind it. -/
theorem State.runFuses_first {s : State} {j : FuseJob} {js : List FuseJob} {w b : Nat} {rest : List (Nat × Nat)} (hj : s.lcu.job = none)
    (hjs : s.lcu.jobs = j :: js) (hstage : j.stage = 0) (hbits : s.lcu.missing j.bits = (w, b) :: rest) :
    s.runFuses = { s with
      out := s.out ++ [.fusePgm w b]
      lcu := { s.lcu with job := some { j with bits := (w, b) :: rest, stage := 1, since := s.clk.elapsed }, jobs := js } } := by
  have hrun := (State.fuseRun_take 15 hj hjs).trans (State.fuseRun_programs 14 rfl hstage hbits)
  exact (congrArg State.coreDue hrun).trans (State.coreDue_programming rfl)

/-! ### Requests (R499 to R504, R512) -/

/-- A JOURNAL bit that reads 0 is still to be programmed. -/
theorem Lcu.missing_journal {l : Lcu} {target b : Nat} (hb : lcJournalBit target = some b) (h : (l.fuse 1).testBit b = false) :
    l.missing (lcJournalBits target) = [(1, b)] := by
  simp [lcJournalBits, hb, Lcu.missing, h]

/-- A transition as its request leaves it. -/
def State.requested (s : State) (target : Nat) (auth : Bytes) (tap : Bool) (call : Option Call) : Transition :=
  { target, source := s.lcu.state, phase := 1, viaTap := tap, call, resumed := false, since := s.clk.elapsed, sectors := 0, erases := [], auth }

/-- A transition begins with its JOURNAL bit. -/
theorem State.beginTransition_programs {s : State} {target b : Nat} (auth : Bytes) (tap : Bool) (call : Option Call) (hj : s.lcu.job = none)
    (hb : lcJournalBit target = some b) (h : (s.lcu.fuse 1).testBit b = false) :
    s.beginTransition target auth tap call = { s with
      out := s.out ++ [.fusePgm 1 b]
      lcu := { s.lcu with
        tapOrigin := tap
        transition := some (s.requested target auth tap call)
        job := some { goal := .lifecycle, bits := [(1, b)], stage := 1, retried := false, since := s.clk.elapsed } } } := by
  have hbits : ({ s.lcu with transition := some (s.requested target auth tap call), tapOrigin := tap } : Lcu).missing (lcJournalBits target) =
      [(1, b)] := Lcu.missing_journal hb h
  exact State.runFuses_first (s := ({ s with lcu := { s.lcu with
    transition := some (s.requested target auth tap call), tapOrigin := tap } } : State).lifecycleJob (lcJournalBits target)) hj rfl rfl hbits

/-- A refusal keeps DETAIL, raises EV_LC_REFUSED and draws a NONCE. -/
theorem State.lcRefused_eq (target detail : Nat) (s : State) : s.lcRefused target detail =
    { s.event evLcRefused unitLifecycle none target detail with
      lcu := { s.lcu with detail, nonce := s.drawn 32 }, fresh := s.fresh + 1 } := rfl

/-- The state in which a request of the direct window is judged. -/
def State.lcAsked (target : Nat) (auth : Bytes) (s : State) : State := { s with
  out := if lcSigned target then [.memRead 0 (leField auth 0 8) 4728] else []
  lcu := { s.lcu with tapOrigin := false } }

theorem State.lcRefusal_asked (target : Nat) (auth : Bytes) (sigOk idOk : Bool) (s : State) :
    (s.lcAsked target auth).lcRefusal target auth false sigOk idOk = s.lcRefusal target auth false sigOk idOk := rfl

theorem State.lcRefused_asked (target d : Nat) (auth : Bytes) (s : State) : (s.lcAsked target auth).lcRefused target d = { s with
    out := if lcSigned target then [.memRead 0 (leField auth 0 8) 4728] else []
    hlm := (s.event evLcRefused unitLifecycle none target d).hlm
    lcu := { s.lcu with tapOrigin := false, detail := d, nonce := s.drawn 32 }
    fresh := s.fresh + 1 } := rfl

section
variable {s : State} {target : Nat} {auth : Bytes} (ht : s.lcu.transition = none)
include ht

/-- LC_TRANSITION with its row, its AUTH and its signatures at hand: the checks of R513 decide. -/
theorem execLcTransition_judged {c : Call} (buf : Bytes) (sigOk idOk : Bool) (hc : s.admits c 0x0B01)
    (hrow : (lcRow s.lcu.state target).isSome = true) (hauth : authFormed s.lcu.state target auth = true) :
    execLcTransition c target auth (.ok buf) sigOk idOk s = done (match s.lcRefusal target auth false sigOk idOk with
      | some d => ((s.lcAsked target auth).lcRefused target d).finishDetail c stLifecycle d
      | none => (s.lcAsked target auth).beginTransition target auth false (some c)) := by
  have hrun : s.lcRunning = false := by rw [State.lcRunning, ht]; rfl
  have hrow' : ¬ (lcRow s.begin.lcu.state target).isNone = true := by
    rw [show (lcRow s.begin.lcu.state target).isNone = false from Option.isNone_eq_false_iff.mpr hrow]
    exact Bool.false_ne_true
  have hauth' : ¬ ¬ authFormed s.begin.lcu.state target auth = true := fun h => h hauth
  have horigin : (if s.begin.lcRunning = true then s.begin.lcu.tapOrigin else false) = false :=
    if_neg fun h => Bool.false_ne_true (hrun.symm.trans h)
  have hidle : ¬ ({ s.begin with lcu := { s.begin.lcu with tapOrigin := false } } : State).lcRunning = true :=
    fun h => Bool.false_ne_true (hrun.symm.trans h)
  have hasked : (if lcSigned target = true then
      ({ s.begin with lcu := { s.begin.lcu with tapOrigin := false } } : State).emit (.memRead 0 (leField auth 0 8) 4728)
      else { s.begin with lcu := { s.begin.lcu with tapOrigin := false } }) = s.lcAsked target auth := by
    unfold State.lcAsked
    split <;> rfl
  unfold execLcTransition
  rw [if_neg (by rw [ht]; exact Bool.false_ne_true), State.command_run hc]
  dsimp only
  rw [horigin, if_neg hidle, if_neg hrow', if_neg hauth', hasked, if_neg Bool.false_ne_true,
    State.lcRefusal_asked] <;> rfl

/-- LC_REQ in a state where it acts: the checks of R513 decide. -/
theorem execLcReq_judged (hp : s.rst.phase ≠ .inReset) (hacts : tapActs 0x12 s.lcu.state = true) :
    execLcReq target auth false s = done (match s.lcRefusal target auth true false false with
      | some d => ({ s with out := [], lcu := { s.lcu with tapIr := 0x12, tapOrigin := true } } : State).lcRefused target d
      | none => if authFormed s.lcu.state target auth = true then
          ({ s with out := [], lcu := { s.lcu with tapIr := 0x12, tapOrigin := true } } : State).beginTransition target auth true none
        else ({ s with out := [], lcu := { s.lcu with tapIr := 0x12, tapOrigin := true } } : State).newNonce) := by
  have hrun : s.lcRunning = false := by rw [State.lcRunning, ht]; rfl
  have hopen : ¬ (s.begin.rst.phase = .inReset ∨ ¬ tapActs 0x12 s.begin.lcu.state = true) := by
    rintro (h | h)
    · exact hp h
    · exact h hacts
  have horigin : (if s.begin.lcRunning = true then s.begin.lcu.tapOrigin else true) = true :=
    if_neg fun h => Bool.false_ne_true (hrun.symm.trans h)
  unfold execLcReq
  dsimp only
  rw [if_neg hopen, horigin]
  rfl

end

/-! ### The wipe (R505, R507) -/

theorem State.modTransition_some {s : State} {x : Transition} (f : Transition → Transition) (h : s.lcu.transition = some x) :
    s.modTransition f = { s with lcu := { s.lcu with transition := some (f x) } } := by rw [State.modTransition, h]; rfl

/-- A sector of the wipe is erased, and the next one follows. -/
theorem execNvmEraseDone_next {s : State} {x : Transition} {k k2 : Nat} {rest : List Nat} (ht : s.lcu.transition = some x) (hp : x.phase = 2)
    (he : x.erases = k :: k2 :: rest) : execNvmEraseDone s = .next { s with
      out := [.nvmErase k2]
      nvm := s.nvm.erase k
      lcu := { s.lcu with transition := some { x with erases := k2 :: rest, sectors := satAdd 2047 x.sectors 1 } } } := by
  obtain ⟨target, source, phase, viaTap, call, resumed, since, sectors, erases, auth⟩ := x
  subst hp he
  have ht' : s.begin.lcu.transition = _ := ht
  have hmod := State.modTransition_some (s := { s.begin with nvm := s.nvm.erase k })
    (fun y => { y with erases := k2 :: rest, sectors := satAdd 2047 y.sectors 1 }) ht
  unfold execNvmEraseDone
  dsimp only
  rw [ht']
  exact congrArg (fun t => done (State.emit (.nvmErase k2) t)) hmod

theorem State.anchorCleared_frame (target : Nat) (s : State) :
    ∃ ldg, (if lcClearsAnchor target = true then s.clearAnchor else s) = { s with ldg } := by
  split
  · exact ⟨_, rfl⟩
  · exact ⟨s.ldg, rfl⟩

theorem State.beginWipe_resumed {s : State} {x : Transition} {k : Nat} {rest : List Nat} (ht : s.lcu.transition = some x) (hr : x.resumed = true)
    (hs : (wipeRange x.source x.target).filter s.nvm.used = k :: rest) :
    s.beginWipe x = { (if lcClearsAnchor x.target = true then s.clearAnchor else s) with
      out := s.out ++ [.nvmErase k]
      lcu := { s.lcu with transition := some { x with phase := 2, erases := k :: rest } } } := by
  have hbusy : (s.hlm.dwBusy || s.hlm.dwBusy && x.call.isSome) = s.hlm.dwBusy := by cases s.hlm.dwBusy <;> rfl
  have hnet : ¬ (lcZeroizes x.target = true ∧ ¬ x.resumed = true) := fun h => h.2 hr
  obtain ⟨ldg, hu⟩ := s.anchorCleared_frame x.target
  unfold State.beginWipe
  rw [if_neg hnet]
  dsimp only
  rw [hu]
  dsimp only
  rw [hs, hbusy, State.modTransition_some _ (by exact ht)]
  rfl

/-- While a transition runs, an idle port programs nothing and a deferred core reset still waits (R137). -/
theorem State.runFuses_transition {s : State} {x : Transition} (hj : s.lcu.job = none) (hjs : s.lcu.jobs = [])
    (ht : s.lcu.transition = some x) (hp : x.phase < 5) : s.runFuses = s := by
  have hwaits : s.coreWaits = true := by simp [State.coreWaits, ht, hp]
  rw [State.runFuses, State.fuseRun_idle 16 hj hjs, State.coreDue]
  split
  · rfl
  · exact if_pos hwaits

/-- A resumed transition begins its wipe at the first sector that is not blank. -/
theorem execLcTransitionResume_wipes {s : State} {x : Transition} {k : Nat} {rest : List Nat} (ht : s.lcu.transition = some x)
    (hr : x.resumed = true) (hp : x.phase = 0) (hs : (wipeRange x.source x.target).filter s.nvm.used = k :: rest) (hj : s.lcu.job = none)
    (hjs : s.lcu.jobs = []) : execLcTransitionResume s = .next { (if lcClearsAnchor x.target = true then s.clearAnchor else s) with
      out := [.nvmErase k]
      lcu := { s.lcu with transition := some { x with phase := 2, erases := k :: rest } } } := by
  have ht' : s.begin.lcu.transition = some x := ht
  have hwipe := State.beginWipe_resumed (s := s.begin) ht hr hs
  unfold execLcTransitionResume
  dsimp only
  rw [ht']
  dsimp only
  rw [if_pos ⟨hr, hp⟩, hwipe, State.runFuses_transition (by exact hj) (by exact hjs) rfl (show (2 : Nat) < 5 by decide)]
  cases lcClearsAnchor x.target <;> rfl

/-! ### The end (R506) -/

/-- A transition whose words decode to its target ends. -/
theorem State.verifyTransition_ends {s : State} {x : Transition} {want : Nat} (hr : x.resumed = false)
    (hwant : want = if x.target = lcKeyfuse then lcProvision else x.target) (hd : s.lcu.decode = .state want) :
    s.verifyTransition x = s.endTransition x want := by
  unfold State.verifyTransition
  dsimp only
  rw [← hwant, if_neg (fun h => h hd), if_neg (by rw [hr]; exact Bool.false_ne_true)]

/-- Helm's window once the request of the window, if there is one, has ended. -/
def Hlm.lcEnded (call : Option Call) (h : Hlm) : Hlm :=
  match call with
  | none => h
  | some c => { h.drop c with dwBusy := false, dwDone := true, dwStatus := stOk, dwBuf := (c.record stOk).words ++ h.dwBuf.drop 8 }

theorem Hlm.lcEnded_fifo (call : Option Call) (h : Hlm) : (h.lcEnded call).fifo = h.fifo := by cases call <;> rfl

theorem Hlm.lcEnded_window {call : Option Call} (h : Hlm) (hc : call.isSome = true) :
    (h.lcEnded call).dwDone = true ∧ (h.lcEnded call).dwBusy = false ∧ (h.lcEnded call).dwStatus = stOk := by
  cases call with
  | none => cases hc
  | some c => exact ⟨rfl, rfl, rfl⟩

/-- The transition's targets that take effect without a reset. -/
def lcStays (target : Nat) : Bool := decide (target = lcTestOpen ∨ target = lcKeyfuse)

/-- A transition that ends takes the state, forces the TAP to IDCODE, draws a NONCE, and asks for a reset unless its target stays. -/
theorem State.endTransition_eq (x : Transition) (code : Nat) (s : State) : s.endTransition x code = { s with
    hlm := (s.event evLcDone unitLifecycle none x.target ((s.clk.elapsed - x.since) / 1000000)).hlm.lcEnded x.call
    lcu := { s.lcu with
      state := code, tapIr := 1, nonce := s.drawn 32
      transition := if lcStays x.target = true then none else some { x with phase := 5 } }
    rst := { s.rst with rstReq := s.rst.rstReq || !lcStays x.target }
    fresh := s.fresh + 1 } := by
  unfold State.endTransition Hlm.lcEnded
  cases x.call <;> rfl

theorem State.endTransition_port (x : Transition) (code : Nat) (s : State) :
    (s.endTransition x code).lcu.job = s.lcu.job ∧ (s.endTransition x code).lcu.jobs = s.lcu.jobs ∧
      (s.endTransition x code).rst.coreDeferred = s.rst.coreDeferred := by
  rw [State.endTransition_eq]
  exact ⟨rfl, rfl, rfl⟩

/-- Programming of phase 3 with no bit left: the words are decoded, and a transition that they complete ends. -/
theorem State.runFuses_verifies {s : State} {x : Transition} {j : FuseJob} {want : Nat} (ht : s.lcu.transition = some x) (hp : x.phase = 3)
    (hr : x.resumed = false) (hj : s.lcu.job = some j) (hjs : s.lcu.jobs = []) (hgoal : j.goal = .lifecycle) (hstage : j.stage = 0)
    (hbits : j.bits = []) (hwant : want = if x.target = lcKeyfuse then lcProvision else x.target) (hd : s.lcu.decode = .state want)
    (hc : s.rst.coreDeferred = none) :
    s.runFuses = ({ s with lcu := { s.lcu with job := none } } : State).endTransition { x with phase := 4 } want := by
  have hdone : ({ s with lcu := { s.lcu with job := none } } : State).jobDone j.goal =
      ({ s with lcu := { s.lcu with job := none } } : State).endTransition { x with phase := 4 } want := by
    rw [hgoal]
    refine Eq.trans ?_ (State.verifyTransition_ends (s := { s with lcu := { s.lcu with job := none } }) (x := { x with phase := 4 }) hr hwant hd)
    change State.nextPhase _ = _
    unfold State.nextPhase
    dsimp only
    rw [ht]
    dsimp only
    rw [hp, if_neg (by decide), if_neg (by decide), if_pos rfl]
  have hrun := State.fuseRun_done 15 hj hstage (by rw [hbits]; rfl)
  rw [hdone] at hrun
  obtain ⟨hjob, hjobs, hcore⟩ := State.endTransition_port { x with phase := 4 } want { s with lcu := { s.lcu with job := none } }
  generalize State.endTransition _ _ _ = u at hrun hjob hjobs hcore ⊢
  rw [State.fuseRun_idle 15 hjob (hjobs.trans hjs)] at hrun
  exact (congrArg State.coreDue hrun).trans (State.coreDue_none (hcore.trans hc))

/-- The last bit of phase 3 reads back as 1: the words are decoded, and the transition ends. -/
theorem execFuseReadReturn_ends {s : State} {x : Transition} {j : FuseJob} {w b data want : Nat} (ht : s.lcu.transition = some x)
    (hp : x.phase = 3) (hr : x.resumed = false) (hj : s.lcu.job = some j) (hjs : s.lcu.jobs = []) (hgoal : j.goal = .lifecycle)
    (hstage : j.stage = 2) (hbits : j.bits = [(w, b)]) (hb : data.testBit b = true)
    (hwant : want = if x.target = lcKeyfuse then lcProvision else x.target) (hd : s.lcu.decode = .state want) (hc : s.rst.coreDeferred = none) :
    execFuseReadReturn data s =
      done (({ s with out := [], lcu := { s.lcu with job := none } } : State).endTransition { x with phase := 4 } want) := by
  obtain ⟨goal, bits, stage, retried, since⟩ := j
  subst hgoal hstage hbits
  have hj' : s.begin.lcu.job = _ := hj
  unfold execFuseReadReturn
  dsimp only
  rw [hj']
  exact (congrArg done (if_pos hb)).trans (congrArg done (State.runFuses_verifies
    (s := { s with out := [], lcu := { s.lcu with job := some { goal := .lifecycle, bits := [], stage := 0, retried := false, since } } })
    ht hp hr rfl hjs rfl rfl rfl hwant hd hc))

/-! ### The Journal's sector (R149) -/

/-- With no record to keep in the sector that follows, a sector is opened by its header alone. -/
theorem State.journalOpen_header {s : State}
    (hfree : s.nvm.journal.any (fun x => decide (x.index = (s.nvm.nextSector.1 + 1) % 512)) = false) : s.journalOpen = s.journalHead := by
  have hnone : s.journalHead.nvm.journal.find? (fun x => x.index = (s.nvm.nextSector.1 + 1) % 512) = none := by
    rw [List.find?_eq_none]
    intro x hx
    rcases List.mem_append.mp hx with hx | hx
    · exact fun h => Bool.false_ne_true (hfree.symm.trans (List.any_eq_true.mpr ⟨x, hx, h⟩))
    · rw [List.mem_singleton.mp hx, decide_eq_true_eq]
      dsimp only
      omega
  rw [State.journalOpen_eq, hnone]

/-- The sector that opens next, with no record. -/
def Nvm.emptyHead (n : Nvm) : JournalSector := { index := n.nextSector.1, seq := n.nextSector.2, headSeq := n.nextSeq, records := [] }

/-- The sector opened with its first record. -/
def Nvm.firstRecord (n : Nvm) (b : JournalBody) : JournalSector :=
  { index := n.nextSector.1, seq := n.nextSector.2, headSeq := n.nextSeq, records := [{ seq := n.nextSeq + 1, body := b }] }

/-- A record goes into the head sector while that has room. -/
theorem State.journalPut_room {s : State} {h : JournalSector} (b : JournalBody) (hlast : s.nvm.journal.getLast? = some h)
    (hroom : h.records.length < 31) : ∃ w, s.journalPut b = some { s with
      out := s.out ++ [w], fresh := s.fresh + 1
      nvm := { s.nvm with journal := s.nvm.journal.dropLast ++ [{ h with records := h.records ++ [{ seq := s.nvm.nextSeq, body := b }] }] } } := by
  unfold State.journalPut
  rw [hlast]
  dsimp only
  rw [if_neg (Nat.not_le.mpr hroom)]
  exact ⟨_, rfl⟩

theorem State.journalHead_eq (s : State) : ∃ w, s.journalHead = { s with
    out := s.out ++ [w], fresh := s.fresh + 1
    nvm := { s.nvm with journal := s.nvm.journal ++ [s.nvm.emptyHead] } } := ⟨_, rfl⟩

/-- A record goes into the sector just opened. -/
theorem State.journalPut_headed (b : JournalBody) (s : State) :
    ∃ w w', s.journalHead.journalPut b = some { s with
      out := s.out ++ [w] ++ [w'], fresh := s.fresh + 1 + 1, nvm := { s.nvm with journal := s.nvm.journal ++ [s.nvm.firstRecord b] } } := by
  obtain ⟨w, hhead⟩ := s.journalHead_eq
  rw [hhead]
  have hlast : (s.nvm.journal ++ [s.nvm.emptyHead]).getLast? = some s.nvm.emptyHead := List.getLast?_concat
  have hseq : ({ s.nvm with journal := s.nvm.journal ++ [s.nvm.emptyHead] } : Nvm).nextSeq = s.nvm.nextSeq + 1 := by rw [Nvm.nextSeq, hlast]; rfl
  generalize ht : State.mk .. = t
  have hl : t.nvm.journal.getLast? = some s.nvm.emptyHead := by subst ht; exact hlast
  obtain ⟨w', hput⟩ := State.journalPut_room b hl (show (0 : Nat) < 31 by decide)
  rw [hput]
  subst ht
  dsimp only
  rw [hseq, List.dropLast_concat]
  exact ⟨w, w', rfl⟩

theorem State.journal_headed {s : State} (b : JournalBody) (he : s.nvm.journalErase = none) :
    ∃ w w', s.journalHead.journal b = { s with
      out := s.out ++ [w] ++ [w'], fresh := s.fresh + 1 + 1, nvm := { s.nvm with journal := s.nvm.journal ++ [s.nvm.firstRecord b] } } := by
  have hfree : s.journalHead.nvm.journalErase = none := he
  obtain ⟨w, w', hput⟩ := s.journalPut_headed b
  refine ⟨w, w', ?_⟩
  rw [State.journal_eq, hfree, if_neg (by decide), hput]

/-- The erased sector becomes the head, and the record that waited goes into it. -/
theorem execNvmEraseDone_journals {s : State} {k : Nat} {b : JournalBody} {n : Nvm}
    (ht : s.lcu.transition = none) (he : s.nvm.journalErase = some k) (hq : s.nvm.journalQueue = [b])
    (hn : n = { s.nvm with
      journalErase := none, journalQueue := [], journal := s.nvm.journal.filter fun x => x.index ≠ k
      journalStale := s.nvm.journalStale.filter fun i => i ≠ k })
    (hfree : n.journal.any (fun x => decide (x.index = (n.nextSector.1 + 1) % 512)) = false) :
    ∃ w w', execNvmEraseDone s = .next { s with
      out := [w, w'], fresh := s.fresh + 2, nvm := { n with journal := n.journal ++ [n.firstRecord b] } } := by
  have ht' : s.begin.lcu.transition = none := ht
  have he' : s.begin.nvm.journalErase = some k := he
  have hq' : s.begin.nvm.journalQueue = [b] := hq
  have hopen := State.journalOpen_header (s := { s with out := [], nvm := n }) hfree
  obtain ⟨w, w', hput⟩ := State.journal_headed (s := { s with out := [], nvm := n }) b (by rw [hn])
  refine ⟨w, w', ?_⟩
  subst hn
  have hput' := (congrArg (State.journal b) hopen).trans hput
  unfold execNvmEraseDone State.journalErased
  dsimp only
  rw [ht', he', hq']
  exact congrArg done hput'

/-! ### The obligation -/

/-- Settles O24: the requests that begin and that are refused, the wipe's steps, the end of a transition, and the Journal's next sector. -/
theorem lifecycleTransitions : Obligations.LifecycleTransitions := by
  unfold Obligations.LifecycleTransitions
  refine ⟨?begins, ?refused, ?tapBegins, ?tapRefused, ?erases, ?resumes, ?ends, ?journals⟩
  case begins =>
    intro s c target b auth buf sigOk idOk hc ht hj hrow hauth hok hb hbit
    have hexec := execLcTransition_judged ht buf sigOk idOk hc hrow hauth
    rw [hok] at hexec
    exact hexec.trans (congrArg done (State.beginTransition_programs (s := s.lcAsked target auth) auth false (some c) hj hb hbit))
  case refused =>
    intro s c target d auth buf sigOk idOk hc ht hrow hauth hd
    have hexec := execLcTransition_judged ht buf sigOk idOk hc hrow hauth
    rw [hd] at hexec
    dsimp only at hexec
    rw [State.lcRefused_asked] at hexec
    generalize hu : State.mk .. = u at hexec
    have hquiet : u.alr.quiet = false := by subst hu; exact hc.1.2.2
    obtain ⟨hlm, alr, obs, hdone, hrec⟩ := State.complete_issues { c.record stLifecycle with detail := d } hquiet
    have hfifo : hlm.fifo = u.hlm.fifo := (congrArg (fun t => t.hlm.fifo) hdone.symm :).trans (State.complete_fifo _ _)
    refine ⟨_, hexec.trans (congrArg done hdone), ?_⟩
    subst hu
    exact ⟨rfl, ht, rfl, rfl, rfl, rfl, hfifo, State.recorded_of_port rfl rfl hrec, rfl⟩
  case tapBegins =>
    intro s target b auth hp hacts ht hj hb hok hauth hbit
    have hexec := execLcReq_judged (target := target) (auth := auth) ht hp hacts
    rw [hok] at hexec
    dsimp only at hexec
    rw [if_pos hauth] at hexec
    exact hexec.trans (congrArg done (State.beginTransition_programs
      (s := { s with out := [], lcu := { s.lcu with tapIr := 0x12, tapOrigin := true } }) auth true none hj hb hbit))
  case tapRefused =>
    intro s target d auth hp hacts ht hd
    have hexec := execLcReq_judged (target := target) (auth := auth) ht hp hacts
    rw [hd] at hexec
    exact hexec
  case erases =>
    intro s x k k2 rest ht hp he
    exact execNvmEraseDone_next ht hp he
  case resumes =>
    intro s x k rest ht hr hp hs hj hjs
    exact execLcTransitionResume_wipes ht hr hp hs hj hjs
  case ends =>
    intro s x j w b data want ht hp hr hj hjs hgoal hstage hbits hb hwant hd hc
    have hexec := execFuseReadReturn_ends ht hp hr hj hjs hgoal hstage hbits hb hwant hd hc
    rw [State.endTransition_eq] at hexec
    exact ⟨_, hexec, rfl, rfl, rfl, rfl, rfl, ite_congr (propext decide_eq_true_iff) (fun _ => rfl) (fun _ => rfl),
      Hlm.lcEnded_fifo _ _, Hlm.lcEnded_window _, rfl⟩
  case journals =>
    rintro s k index seq headSeq b old ht he hq rfl hnext rfl hfree -
    obtain ⟨hindex, hseq⟩ := Prod.mk.inj hnext
    subst hindex hseq
    obtain ⟨w, w', hexec⟩ := execNvmEraseDone_journals ht he hq rfl hfree
    exact ⟨_, hexec, rfl, rfl, rfl, rfl⟩

end Sys2Proof.Machine
